-- ==== Sys2Proof/Word.lean ====
section
/-! DEFINITION. Plain words: bit slices of natural numbers, little-endian byte lists, and the sparse table
`Tab` in which every memory and every indexed unit of the machine is held. -/
namespace Sys2Proof

/-- A 32-bit register or SDRAM word, kept as a number below `2^32`. -/
abbrev W32 := Nat

/-- Bits `[lo + width - 1 : lo]` of `x`. -/
def bits (x lo width : Nat) : Nat := x / 2 ^ lo % 2 ^ width

/-- Bit `k` of `x`. -/
def bit (x k : Nat) : Bool := x / 2 ^ k % 2 = 1

/-- `x` with bit `k` set. -/
def setBit (x k : Nat) : Nat := x ||| 2 ^ k

/-- `x` with bit `k` cleared. -/
def clearBit (x k : Nat) : Nat := if bit x k then x - 2 ^ k else x

/-- The bits of `x` that are not in `m`. -/
def andNot (x m : Nat) : Nat := x ^^^ (x &&& m)

/-- 1 for true, 0 for false. -/
def b2n (b : Bool) : Nat := if b then 1 else 0

/-- The little-endian value of a byte list. -/
def leVal : List Nat → Nat
  | [] => 0
  | b :: bs => b % 256 + 256 * leVal bs

/-- The big-endian value of a byte list. -/
def beVal (bs : List Nat) : Nat := bs.foldl (fun a b => a * 256 + b % 256) 0

/-- The `n` little-endian bytes of `x`. -/
def leBytes : Nat → Nat → List Nat
  | 0, _ => []
  | n + 1, x => x % 256 :: leBytes n (x / 256)

/-- The `n` big-endian bytes of `x`. -/
def beBytes (n x : Nat) : List Nat := (leBytes n x).reverse

/-- The two's complement reading of the low `w` bits of `x`. -/
def signed (w x : Nat) : Int :=
  let v := x % 2 ^ w
  if v < 2 ^ (w - 1) then (v : Int) else (v : Int) - 2 ^ w

/-- The low `w` bits of an integer in two's complement. -/
def unsigned (w : Nat) (x : Int) : Nat := (x % (2 ^ w : Int)).toNat

/-- A sparse table from numbers to values: keys strictly rising, no entry at the default. -/
abbrev Tab (α : Type) := List (Nat × α)

/-- The value at `k`, or the default. -/
def Tab.look {α : Type} (d : α) (t : Tab α) (k : Nat) : α :=
  match t with
  | [] => d
  | (j, v) :: r => if k = j then v else Tab.look d r k

/-- `t` without `k`. -/
def Tab.del {α : Type} (t : Tab α) (k : Nat) : Tab α :=
  match t with
  | [] => []
  | (j, v) :: r => if k = j then Tab.del r k else (j, v) :: Tab.del r k

/-- `t` with `v` at `k`, kept in rising order. -/
def Tab.ins {α : Type} (t : Tab α) (k : Nat) (v : α) : Tab α :=
  match t with
  | [] => [(k, v)]
  | (j, w) :: r =>
    if k = j then (k, v) :: r
    else if k < j then (k, v) :: (j, w) :: r
    else (j, w) :: Tab.ins r k v

/-- Store `v` at `k`; the default is not listed, so equal tables are equal data. -/
def Tab.put {α : Type} [DecidableEq α] (d : α) (t : Tab α) (k : Nat) (v : α) : Tab α :=
  if v = d then Tab.del t k else Tab.ins t k v

/-- Keys strictly rise from above `lo`. -/
def Tab.above {α : Type} (lo : Nat) : Tab α → Bool
  | [] => true
  | (j, _) :: r => lo < j && Tab.above j r

/-- Keys strictly rise. -/
def Tab.rising {α : Type} : Tab α → Bool
  | [] => true
  | (j, _) :: r => Tab.above j r

/-- The canonical form: keys strictly rise and no entry is the default. -/
def Tab.wf {α : Type} [DecidableEq α] (d : α) (t : Tab α) : Bool :=
  Tab.rising t && t.all (fun e => decide (e.2 ≠ d))

end Sys2Proof
end

