-- ==== Sys2Proof/Syntax.lean ====
section
/-! DEFINITION. The commands of the Olulo: one constructor per row of spec/opcode_table.json, with the operands that
the row needs. Facts that arise outside the block (a level on a pin, the result of a check of received data, an
expiring deadline) are operands of the command that brings them. -/
namespace Sys2Proof

/-- The four variants of stepping B (Table 00-1). -/
inductive Variant where
  | f | t | d | h
deriving DecidableEq, Repr

/-- How a control or tally packet reaches its block: whole, breaking a form of R62, or with a CRC-32 that differs (R64). -/
inductive Arrival where
  | good | malformed | badCrc
deriving DecidableEq, Repr

/-- A MAILBOX packet of a slot and how it arrives at its receiver (R62, R64). -/
structure SlotPacket where
  slot : Fin 8
  arrival : Arrival
deriving DecidableEq, Repr

/-- A TALLY_ACK: the header ID that it acknowledges, and how it arrives (R62, R64, R66). -/
structure AckPacket where
  id : Nat
  arrival : Arrival
deriving DecidableEq, Repr

/-- Bytes to be written to the boot flash, and whether their verify read differs (R172, R173). -/
structure FlashData where
  bytes : List Nat
  bad : Bool
deriving DecidableEq, Repr

/-- An LPM token (R275): BESL in µs, and whether the hub has traffic pending for the link. -/
structure LpmToken where
  besl : Nat
  busy : Bool
deriving DecidableEq, Repr

/-- VBUS in mV as a CC combination is seen, and whether that combination has held 150 ms or its debounce begins (R306). -/
structure VbusSeen where
  mv : Nat
  held : Bool
deriving DecidableEq, Repr

/-- A request that an originator waits for (Table 04-4). -/
inductive Waiting where
  | regRead | regWrite | memRead | memWrite | mailbox | tally
deriving DecidableEq, Repr

/-- What the identity bus gives for an address that acknowledged its probe (R217, R223): the bytes of the two reads, and
whether one of them ended under R218 or a byte was not acknowledged. -/
structure SeedRead where
  first : List Nat
  second : List Nat
  failed : Bool
deriving DecidableEq, Repr


/-- What the boot flash's JESD216 parameter tables advertise (R155): 1-4-4 and 1-1-4 fast reads, and 4-byte addressing. -/
structure FlashTables where
  quad144 : Bool
  quad114 : Bool
  fourByte : Bool
deriving DecidableEq, Repr

/-- How a port reset ends (R269): at a speed (1 low, 2 full, 3 high, 4 Gen 1, 5 Gen 2), with the device gone, or failed. -/
inductive PortResetEnd where
  | speed (n : Nat) | gone | failed
deriving DecidableEq, Repr

/-- What SuperSpeed receiver detection finds (R268): nothing, a receiver with which training begins, or how that training
ends. -/
inductive Detection where
  | absent | found | trainingFailed | trained (gen2 : Bool)
deriving DecidableEq, Repr

/-- How the connect attempts of an UP tile end (R262): whether SuperSpeed training failed, and the speed the link then
runs at: 0 no host connects, 2 full, 3 high, 4 Gen 1, 5 Gen 2. -/
structure UpConnect where
  trainingFailed : Bool
  speed : Fin 6
deriving DecidableEq, Repr

/-- A direct read of IND_DATA (R247): its port, and whether it enables both lanes of a WIDTH 16 bus (R236). -/
structure DirectRead where
  port : Fin 2
  both : Bool
deriving DecidableEq, Repr

/-- How a rescan ends (R230): what the bus gave, and how the UP tiles that it lifts then connect, by tile. -/
structure Rescan where
  read : Option SeedRead
  ups : List UpConnect
deriving DecidableEq, Repr

/-- The USB device behind an upstream port that a request addresses (R263, R266): the hub's USB 2.0 part, its USB 3.2 part,
or the device function. -/
inductive UsbPart where
  | usb2 | usb3 | function
deriving DecidableEq, Repr

/-- What GET_STATUS asks of: the device, one of its interfaces, or an endpoint by its address. -/
inductive UsbRecipient where
  | device | interface (num : Nat) | endpoint (addr : Nat)
deriving DecidableEq, Repr

/-- The port that a link event is at: a tile's, or the port of a grove's device function (R275). -/
inductive LinkAt where
  | tile (t : Fin 14) | function (slot : Fin 8)
deriving DecidableEq, Repr

/-- The requests of USB 2.0 and USB 3.2 to a hub or to the device function that have no row of their own (R260, R265): the
standard ones with their descriptors, the hub's own status and descriptor, and a port's status with the clearing of its
changes: 0 connection, 1 reset, 2 over-current, 3 suspend, 4 link state, 5 warm reset, 6 enable; and the requests of
DFU 1.1 to TILE_0 in recovery (R172). -/
inductive UsbRequest where
  | setAddress (address : Nat) | setConfiguration (value : Nat) | getConfiguration
  | setInterface (interface alternate : Nat) | getInterface (interface : Nat)
  | deviceRemoteWakeup (set : Bool) | linkEnable (u2 set : Bool) | setSel (values : List Nat) | setIsochDelay (ns : Nat)
  | getStatus (of : UsbRecipient) | endpointHalt (addr : Nat) (set : Bool) | functionSuspend (interface options : Nat)
  | deviceDescriptor | configurationDescriptor | bosDescriptor | hubDescriptor | deviceQualifier | otherSpeed
  | hubStatus | clearHubChange
  | portStatus (port : Fin 16) | clearChange (port : Fin 16) (change : Fin 7) | clearPortEnable (port : Fin 16)
  | dfuGetStatus | dfuClrStatus | dfuGetState | dfuAbort
  /-- A request or a feature that the Olulo does not support. -/
  | unsupported
deriving DecidableEq, Repr

/-- What a port's link has counted since it was last asked: link errors, SuperSpeed recoveries, and packets with a bad CRC
or bad framing (R265, R280). -/
structure LinkCounts where
  errors : Nat
  recoveries : Nat
  badPackets : Nat
deriving DecidableEq, Repr

/-- What moves a link to U1 or U2: its partner's request, or the hub's own timers after an idle time in µs (R275). -/
inductive LinkMove where
  | partner (u2 : Bool) | idle (us : Nat)
deriving DecidableEq, Repr

/-- PGOOD of a tempo rail rises; `late` where a wake drove the rail's code more than 100 µs before (R127). -/
structure PgoodRise where
  rail : Fin 3
  late : Bool
deriving DecidableEq, Repr

/-- What the self-test of a rising domain gives: whether it passes (a seal engine's, R108), or the codes that the eight servo
converters of a drum give for their references 1,024 and 3,072 (R332). -/
structure DomTest where
  good : Bool
  codes : List (Nat × Nat)
deriving DecidableEq, Repr

/-- A source whose backoff ends (R202), with how the connect attempts of an UP tile then end where its retry makes them
(R262). -/
structure BackoffEnd where
  source : Fin 512
  up : UpConnect
deriving DecidableEq, Repr

/-- A hub port of a grove, with what its link has counted (R265). -/
structure PortCounts where
  port : Fin 16
  counts : LinkCounts
deriving DecidableEq, Repr

/-- A move of a link to U1 or U2, with what the link counted before it (R275). -/
structure LinkEntry where
  move : LinkMove
  counts : LinkCounts
deriving DecidableEq, Repr

/-- The splits that reach a transaction translator in one micro-frame (R270): the periodic start-splits, how many of them
cannot complete in their frame, the data of non-periodic transactions, and the completions before them of non-periodic
ones: of those in this translator, and of those still in flight in the translator of the other alternate (R282). -/
structure Splits where
  periodic : Nat
  late : Nat
  bulk : List (List Nat)
  done : Nat
  doneOther : Nat
deriving DecidableEq, Repr

/-- The splits of one micro-frame at a port of a grove's hub. -/
structure PortSplits where
  slot : Fin 8
  port : Fin 16
  splits : Splits
deriving DecidableEq, Repr

/-- How a source answers a Request (R305, R311). -/
inductive PdAnswer where
  | accept | reject | wait
deriving DecidableEq, Repr

/-- What a partner asks for over PD (R305). -/
inductive PdGet where
  | sourceCap | sinkCap | ppsStatus | sourceCapExtended | bistCarrier
deriving DecidableEq, Repr


/-- A device that Taproot meets (R285): its speed (as TILE_STATUS.SPEED), root port, hub ports at tier 1 and 2 (0 where
there is none), the device descriptor and configuration descriptor set read from it, the report descriptors of its HID
interfaces, what INQUIRY and READ CAPACITY tell of its block interfaces (interface, peripheral device type, block size),
and the interfaces whose interrupt endpoint cannot be scheduled. -/
structure Found where
  speed : Nat
  root : Nat
  hub1 : Nat
  hub2 : Nat
  device : List Nat
  config : List Nat
  hids : List (Nat × List Nat)
  blocks : List (Nat × Nat × Nat)
  unscheduled : List Nat
deriving DecidableEq, Repr

/-- What detaches from a Taproot bus (R299): a device by its handle, or one that was refused or failed its enumeration, which
has none, by its root port and hub ports (R284, R285). -/
inductive TapGone where
  | device (handle : Nat) | place (root hub1 hub2 : Nat)
deriving DecidableEq, Repr

/-- How a block device ends a command: good, CHECK with sense key, ASC and ASCQ, or a phase error (R293); or that the
command still runs. -/
inductive BlockEnd where
  | good | check (key asc ascq : Nat) | phaseError | running
deriving DecidableEq, Repr

/-- How the device's side of a pipe transfer ends: complete, a short packet, STALL, retries spent (R297). -/
inductive PipeEnd where
  | complete | short | stall | xact
deriving DecidableEq, Repr

/-- What the pickup and the coils show at the first sampling instant of a frame: PD_A to PD_F above PD_REF in µV, and the
focus, tracking and tilt coil currents in µA (R330). -/
structure Pickup where
  a : Int
  b : Int
  c : Int
  d : Int
  e : Int
  f : Int
  iFocus : Int
  iTrack : Int
  iTilt : Int
deriving DecidableEq, Repr


/-- What the RF envelope and the detector's error do over channel bits (R413): the amplitude A of one target step; the
envelope over the 4,096 channel bits before, oldest first; and for each channel bit the envelope and four times the squared
error. -/
structure ScarSpan where
  drum : Fin 2
  amp : Nat
  before : List Nat
  bits : List (Nat × Nat)
deriving DecidableEq, Repr

/-- Timing recovery as it tracks (R408): the longest run length seen, in 1/256 of a sample of the RF converter, and the
magnitude of the timing error at each channel bit in 1/1,000 T. -/
structure TimingRead where
  run : Nat
  errors : List Nat
deriving DecidableEq, Repr

/-- One revolution's read of a block (R407): from timing recovery one value per channel bit, from the first sync of the block,
with the amplitude A of one target step (R409); the RF envelope over the 4,096 channel bits before it and over its own; and
whether the Q subcode says CD audio. A CD block is the sector and the two before it, whose frames CIRC interleaves into it
(R416); a DVD block is an ECC block. -/
structure BlockRead where
  samples : List Int
  amp : Nat
  before : List Nat
  envelope : List Nat
  audio : Bool
deriving DecidableEq, Repr

/-- How an IDENTIFY goes on: it starts; or a laser's lead-in was read, with the fields of Table 21-4 (KIND, first and last
track, sessions, END, last sector of layer 0, book type, laser) and whether the disc is finalized and has a lead-out;
or no laser gave one of those kinds; or none held focus. -/
inductive Identity where
  | start
  | found (kind first last sessions endAt layer0 book laser : Nat) (finalized leadOut : Bool)
  | format
  | focus
deriving DecidableEq, Repr

/-- An entry of the disc's table of contents (R433): track, ADR and CONTROL byte, session, start address. -/
structure TocEntry where
  track : Nat
  control : Nat
  session : Nat
  start : Nat
deriving DecidableEq, Repr


/-- How a register access comes (R5, R61, R243): as a spine packet of a slot, or at an offset of a Retro Bus Port's window. -/
inductive RegPath where
  | spine (slot : Fin 8) (addr : Nat) (arrival : Arrival)
  | window (port : Fin 2) (offset : Nat)
deriving DecidableEq, Repr

/-- The commands (spec/opcode_table.json). -/
inductive Instr where
  /-- REGISTER_WRITE (R5): A grove writes a register that has no row of its own; the access code of the field and the ownership check decide the effect. Operands: the slot's packet with its address, or the port and window offset; the value; the byte enables, from a window's offset the lowest one or two -/
  | registerWrite (path : RegPath) (value : Nat) (byteEn : Nat)
  /-- UNASSIGNED_ACCESS (R548): An access to an address that belongs to no block is answered ABSENT; a read returns 0 and nothing is set. Operands: the slot; the address; a write rather than a read -/
  | unassignedAccess (slot : Fin 8) (addr : Nat) (write : Bool)
  /-- HELD_BLOCK_ACCESS (R554): An access to a block on a HELD rail gets no answer until the rail leaves HELD. Operands: the slot; the address; the value and byte enables of a write -/
  | heldBlockAccess (slot : Fin 8) (addr : Nat) (write : Option (Nat × Nat))
  /-- CANOPY_START_LOAD (R19): At start the loader checks and loads the area that CANOPY_NEXT.AREA names. -/
  | canopyStartLoad
  /-- CHECK (R20): CANOPY_CMD CHECK runs every check on the named source and applies nothing. Operands: the writing slot; CANOPY_CMD.AREA -/
  | checkStream (slot : Fin 8) (area : Fin 4)
  /-- LOAD (R20): CANOPY_CMD LOAD runs every check on an unconfigured Olulo and applies the stream if it is accepted. Operands: the writing slot; CANOPY_CMD.AREA -/
  | loadStream (slot : Fin 8) (area : Fin 4)
  /-- SEAL (R35): CANOPY_CMD SEAL seals the stream-determined RWL fields until the next start. Operands: the writing slot -/
  | sealStream (slot : Fin 8)
  /-- CANOPY_CHECKS_COMPLETE (R30): The loader's run of the sixteen checks ends and it reports LAST_CODE and DETAIL. -/
  | canopyChecksComplete
  /-- CANOPY_NEXT_WRITE (R37): A write to CANOPY_NEXT stores the area for the next start in the keeping store. Operands: the writing slot; AREA -/
  | canopyNextWrite (slot : Fin 8) (area : Fin 2)
  /-- CANOPY_STAGE_DATA_ACCESS (R37): A read or write of CANOPY_STAGE_DATA moves a stage word and advances WORD, or is refused while a check of the stage runs. Operands: the accessing slot; the word written, none for a read -/
  | canopyStageDataAccess (slot : Fin 8) (write : Option Nat)
  /-- GROVE_RESTART (R55): A GO write to GROVE_RESTART cancels the grove's pending work, empties its queues and resets its interrupt and vote state. Operands: the writing slot; SLOT -/
  | groveRestart (slot target : Fin 8)
  /-- GROVE_RESTART_DONE (R55): RESTARTING returns to 0, and the cancellation tallies and freed stroke space set their status bits. Operands: the slot -/
  | groveRestartDone (target : Fin 8)
  /-- GROVE_VOTE_WRITE (R56): A grove writes its Dormant vote, and the root member forwards it to every member that touches the grove. Operands: the writing slot; VOTE -/
  | groveVoteWrite (slot : Fin 8) (vote : Bool)
  /-- EVENT_PACKET (R53): A forwarded EVENT packet sets GROVE_IRQ_STATUS bits in the root member's bank, which drives the root. Operands: this member's slot for the grove; the status bits -/
  | eventPacket (slot : Fin 8) (irq : Nat) (arrival : Arrival)
  /-- MEM_READ (R77): A MEM_READ packet is checked for ownership and served from SDRAM, correcting single-bit errors and reporting uncorrectable lines. Operands: the packet's 72-bit flits (Tables 04-1 to 04-3) -/
  | memRead (flits : List Nat)
  /-- MEM_WRITE (R78): A MEM_WRITE packet and its payload are checked for ownership and written, with a read-modify-write for partial lines. Operands: the control packet's flits; the payload packet's flits -/
  | memWrite (flits payload : List Nat)
  /-- SPINE_TIMEOUT (R65): A request with no answer within SPINE_TIMEOUT reference periods ends as Table 04-4 states and sets source 36. Operands: the originator's port; the slot; the request -/
  | spineTimeout (port : Fin 16) (slot : Fin 8) (request : Waiting)
  /-- TALLY_PACKET (R215): The TALLY block takes a TALLY packet, writes it to the grove's ring or discards it, and acknowledges it. Operands: the producer's port and the slot whose sent tally arrives -/
  | tallyPacket (port : Fin 16) (slot : Fin 8) (arrival : Arrival)
  /-- TALLY_ACK (R66): A producer receives TALLY_ACK and releases the tally, allowing the next tally of that slot. Operands: the producer's port, the slot, the packet -/
  | tallyAck (port : Fin 16) (slot : Fin 8) (ack : AckPacket)
  /-- MEMCTL_TRAIN (R74): MEMCTL_CMD TRAIN starts SDRAM training in UNTRAINED or FAILED. Operands: the writing slot -/
  | memctlTrain (slot : Fin 8)
  /-- MEMCTL_TRAINING_DONE (R74): Training ends READY with the trained capacity, or FAILED with capacity 0 and source 32. Operands: whether training succeeded -/
  | memctlTrainingDone (good : Bool)
  /-- SDRAM_REFRESH (R75): An all-bank refresh falls due every 7.8 or 3.9 µs and is issued or postponed. Operands: whether requests wait -/
  | sdramRefresh (waiting : Bool)
  /-- ZQ_CALIBRATION (R75): MEMCTL runs ZQ short calibration every 128 ms. -/
  | zqCalibration
  /-- PATROL_SCRUB (R75): The patrol scrub reads the next line and corrects it. -/
  | patrolScrub
  /-- PAGE_JOB_DONE (R96): A page job has re-encrypted its page under a new MAJOR, and the held accesses resume. Operands: the absolute page -/
  | pageJobDone (page : Nat)
  /-- REKEY (R100): SEAL_REGION_CMD REKEY moves the key set to OLD, draws NEW and starts or queues the region's walk. Operands: the writing slot; the region -/
  | rekey (slot : Fin 8) (region : Fin 32)
  /-- REKEY_PAGE_CONVERTED (R100): The walk finishes converting a page, and WATERMARK increments. -/
  | rekeyPageConverted
  /-- SEAL_KEY_DRAW (R98): SEAL draws the keys that a load or re-key needs once RNG_READY becomes 1. -/
  | sealKeyDraw
  /-- QUALIFICATION_WINDOW (R112): A window of 1,024 crystal cycles ends and is counted toward, or restarts, the run of eight. Operands: reference cycles in the window; none when it was abandoned -/
  | qualificationWindow (count : Option Nat)
  /-- XTAL_QUAL_TIMEOUT (R113): At 2 s after power good with XTAL_QUAL still 0, the Olulo sets source 0 and keeps the RC stand-in. -/
  | xtalQualTimeout
  /-- CRYSTAL_LOST (R113): A qualified crystal gives no edge for 2 RC periods; the count returns to RC, XTAL_QUAL clears and source 0 sets. -/
  | crystalLost
  /-- METRO_ALARM (R114): METRO_COUNT[31:0] reaches METRO_ALARM; ALARM sets and the alarm bell rings. -/
  | metroAlarm
  /-- REFERENCE_READY (R115): The 25 MHz reference has given 2,048 good cycles and may be used by the generators. -/
  | referenceReady
  /-- REFERENCE_LOSS (R116): The reference gives no edge for 1 µs; every domain but DOMAIN_000 is held in reset and source 1 sets. -/
  | referenceLoss
  /-- REFERENCE_RESTORED (R116): The reference returns with 2,048 good cycles, and the start sequence runs from 25 MHz oscillator started. -/
  | referenceRestored
  /-- RELOCK_LOCK_ACQUIRED (R118): A generator acquires lock during a relock, and the 1,024-cycle hold begins. Operands: the generator -/
  | relockLockAcquired (gen : Fin 6)
  /-- RELOCK_HOLD_COMPLETE (R118): The lock hold completes and the fed domains switch back to the generator. Operands: the generator -/
  | relockHoldComplete (gen : Fin 6)
  /-- RELOCK_ATTEMPT_FAILED (R119): An acquisition misses 50 µs or the hold loses lock; the attempt is retried or the generator becomes FAILED. Operands: the generator -/
  | relockAttemptFailed (gen : Fin 6)
  /-- FREQUENCY_MONITOR_TRIP (R120): A LOCKED generator's output lies outside ±1% for a window; the domains switch to the reference and a relock starts. Operands: the generator -/
  | frequencyMonitorTrip (gen : Fin 6)
  /-- TEMPO_REQ_WRITE (R124): A tempo REQ write records the target T, and the sequencer takes its next step. Operands: the writing slot; the rail (0 CORE, 1 DRUM_0, 2 DRUM_1); TEMPO -/
  | tempoReqWrite (slot : Fin 8) (rail : Fin 3) (tempo : Fin 4)
  /-- TEMPO_PGOOD_RISE (R124): PGOOD rises during a tempo wait, and the TEMPO_SETTLE wait begins. Operands: the rail; it rose more than 100 µs after its wait began -/
  | tempoPgoodRise (rise : PgoodRise)
  /-- TEMPO_SETTLE_EXPIRE (R124): The settle time ends, and the voltage step completes or the HELD relock starts. Operands: the rail -/
  | tempoSettleExpire (rail : Fin 3)
  /-- PGOOD_FALL (R125): PGOOD falls outside a wait; the rail enters HELD with clocks stopped and source 8, 9 or 10 set. Operands: the rail -/
  | pgoodFall (rail : Fin 3)
  /-- PGOOD_WAIT_TIMEOUT (R125): A tempo wait for PGOOD exceeds 2 ms and enters HELD, or completes the lowering step. Operands: the rail -/
  | pgoodWaitTimeout (rail : Fin 3)
  /-- DOMAIN_SET_REQUEST (R136): DOMAIN_CMD sets the steward's request for a domain, or is refused. Operands: the writing slot; DOMAIN -/
  | domainSetRequest (slot : Fin 8) (domain : Nat)
  /-- DOMAIN_CLEAR_REQUEST (R136): DOMAIN_CMD clears the steward's request for a domain, or is refused. Operands: the writing slot; DOMAIN -/
  | domainClearRequest (slot : Fin 8) (domain : Nat)
  /-- DOMAIN_STEP_COMPLETE (R135): A domain sequencer step ends, and the sequencer samples its request and moves on as Table 07-3 states. Operands: the domain; the step's self-test result, and for a front end the codes of R332 -/
  | domainStepComplete (domain : Fin 144) (test : DomTest)
  /-- DORMANT_ENTRY_BEGIN (R137): At a metronome tick where every entry condition holds, Dormant entry begins at point 1. -/
  | dormantEntryBegin
  /-- IDLE_TIMER_EXPIRE (R138): In IDLE mode the idle timer reaches DORMANT_IDLE_TICKS. -/
  | idleTimerExpire
  /-- ENTRY_POINT_COMPLETE (R139): An entry point's action finishes, and entry proceeds to the next point. -/
  | entryPointComplete
  /-- ENTRY_POINT_LIMIT (R139): An entry point misses its limit, and the entry unwinds with CAUSE 0b11. -/
  | entryPointLimit
  /-- BELL_RING (R145): An enabled bell rings; it sets its pending bits and unwinds an entry or wakes the Olulo. Operands: the bell; for a tile's bell, whether CC (else USB) rang it -/
  | bellRing (bell : Fin 32) (cc : Bool)
  /-- UNWIND_COMPLETE (R140): The unwind ends; the Olulo is Active as before entry, and held work is released. -/
  | unwindComplete
  /-- MUFFLE_COUNT_RESET (R146): An entry lasts 32,768 ticks without the bell ringing, and the bell's muffle count returns to 0. Operands: the bell -/
  | muffleCountReset (bell : Fin 32)
  /-- WAKE_TIMER_EXPIRE (R141): The wake timer counts 9,999 reference periods; the Olulo becomes Active and every vote clears. -/
  | wakeTimerExpire
  /-- BELL_MUFFLED_CLEAR (R151): Grove 0 clears a BELL_MUFFLED bit, which unmuffles the bell and zeroes its count. Operands: the writing slot; the bits written 1 -/
  | bellMuffledClear (slot : Fin 8) (bells : Nat)
  /-- HOST_ACCESS_IN_DORMANT (R143): A host access during entry, Dormant or wake is answered with zero by the DOMAIN_000 responder. Operands: the Retro Bus Port; whether it is a write -/
  | hostAccessInDormant (port : Fin 2) (write : Bool)
  /-- HW_RAM_UE (R153): An uncorrectable Heartwood RAM word sets source 22, writes CAUSE 5 with ENTER and performs a warm restart. -/
  | hwRamUe
  /-- BOOT_DECISION (R159): The ROM chooses to boot a slot or to enter recovery by the first row of Table 08-5 that holds. Operands: what the flash's parameter tables advertise; none where they are absent or fail their signature -/
  | bootDecision (tables : Option FlashTables)
  /-- FIRMWARE_ALIVE (R160): The firmware reports ALIVE; the timer stops, LAST_GOOD is set and RUNNING becomes KEPT. -/
  | firmwareAlive
  /-- ALIVE_TIMER_EXPIRE (R160): The 2 s ALIVE timer expires; ENTER is written with CAUSE 3 and a warm restart follows. -/
  | aliveTimerExpire
  /-- MAILBOX_SEND (R165): HW_MB_CTRL.SEND sends the request buffer as a MAILBOX packet, or is refused while PENDING. Operands: the packet of a slot as Heartwood receives it -/
  | mailboxSend (packet : SlotPacket)
  /-- MAILBOX_REPLY (R165): A reply arrives in the reply buffer; REPLY_READY and GROVE_IRQ_STATUS.MAILBOX set. Operands: the packet of a slot as the slot receives it -/
  | mailboxReply (packet : SlotPacket)
  /-- MAILBOX_TIMEOUT (R165): A request has no reply within 5 s and ends with STATUS TIMEOUT, setting source 27. Operands: the slot -/
  | mailboxTimeout (slot : Fin 8)
  /-- MAILBOX_BAD_REQUEST (R166): A mailbox request with an unknown opcode, or a wrong length or range, is answered BAD_REQUEST. Operands: the slot whose request is answered -/
  | mailboxBadRequest (slot : Fin 8)
  /-- PING (R166): The PING message echoes its body. Operands: the slot whose request is served -/
  | ping (slot : Fin 8)
  /-- VERSION (R166): The VERSION message returns the running version, slot, trial and compatibility values. Operands: the slot whose request is served -/
  | version (slot : Fin 8)
  /-- REPORT_OPEN (R169): REPORT_OPEN takes a snapshot of the rings and log for the grove, signed when a nonce is given. Operands: the slot; for a signed report, what failed: the random source (true) or the engine's self-test (false) -/
  | reportOpen (slot : Fin 8) (fails : Option Bool)
  /-- REPORT_READ (R169): REPORT_READ returns up to 240 bytes of the grove's open report. Operands: the slot whose request is served -/
  | reportRead (slot : Fin 8)
  /-- CERT_READ (R170): CERT_READ returns up to 240 bytes of the attestation certificate. Operands: the slot whose request is served -/
  | certRead (slot : Fin 8)
  /-- FLASH_ERASE (R167): FLASH_ERASE erases a 4 KiB sector of an area, or is refused for a running slot or the loaded area. Operands: the slot; the device reports an error -/
  | flashErase (slot : Fin 8) (error : Bool)
  /-- FLASH_WRITE (R167): FLASH_WRITE programs and verifies bytes of an area, cancelling a pending trial of that slot. Operands: the slot; the device reports an error -/
  | flashWrite (slot : Fin 8) (error : Bool)
  /-- FLASH_READ (R166): FLASH_READ returns bytes of an area. Operands: the slot whose request is served -/
  | flashRead (slot : Fin 8)
  /-- FW_DESCRIBE (R167): FW_DESCRIBE writes a slot descriptor. Operands: the slot; the device reports an error -/
  | fwDescribe (slot : Fin 8) (error : Bool)
  /-- FW_TRIAL (R167): FW_TRIAL sets TRIAL PENDING for a headed slot other than the running one. Operands: the slot whose request is served -/
  | fwTrial (slot : Fin 8)
  /-- REBOOT (R167): REBOOT performs a warm restart, into recovery for mode 1. Operands: the slot whose request is served -/
  | reboot (slot : Fin 8)
  /-- SETTINGS_ERASE (R166): SETTINGS_ERASE erases one grove's settings partition. Operands: the slot whose request is served -/
  | settingsErase (slot : Fin 8)
  /-- KEEPING_ERASE (R175): KEEPING_ERASE erases every keeping-store area marked erasable, including the stack secret. Operands: the slot whose request is served -/
  | keepingErase (slot : Fin 8)
  /-- EXTEND (R166): EXTEND lets the steward extend RING_4 to RING_7 with a 32-byte value. Operands: the slot whose request is served -/
  | extend (slot : Fin 8)
  /-- CONSOLE_PEEK (R168): A peek line performs a register read for the console grove and replies with its value. Operands: the console UART; the address -/
  | consolePeek (uart : Fin 4) (addr : Nat)
  /-- CONSOLE_POKE (R168): A poke line performs a register write for the console grove. Operands: the console UART; the address and the value -/
  | consolePoke (uart : Fin 4) (addr value : Nat)
  /-- CONSOLE_MAIL (R168): A mail line sends a mailbox request, and the reply is written when it arrives. Operands: the console UART; opcode, tag and body -/
  | consoleMail (uart : Fin 4) (op tag : Nat) (body : List Nat)
  /-- CONSOLE_BAD_LINE (R168): An unrecognized or overlong console line is answered no 02. Operands: the console UART -/
  | consoleBadLine (uart : Fin 4)
  /-- DFU_DNLOAD (R172): A DFU download block writes descriptor and image bytes to the chosen slot, or is refused. Operands: the alternate setting; wBlockNum; the block's bytes and their verify read -/
  | dfuDnload (alt : Fin 3) (block : Nat) (data : FlashData)
  /-- DFU_MANIFEST (R172): At manifestation the ROM checks the slot; a valid slot ends recovery, otherwise dfuERROR is reported. -/
  | dfuManifest
  /-- DFU_UPLOAD (R172): DFU_UPLOAD is answered with a stall. -/
  | dfuUpload
  /-- DFU_DETACH (R172): DFU_DETACH is answered with a stall. -/
  | dfuDetach
  /-- HELLO (R173): A seed-drop HELLO frame is answered with the recovery CAUSE and LAST_GOOD. Operands: SEQ -/
  | hello (seq : Nat)
  /-- BEGIN (R173): A seed-drop BEGIN frame opens a slot download, or draws NAK 0x03. Operands: SEQ; the slot; the total length -/
  | beginFrame (seq slot total : Nat)
  /-- DATA (R173): A seed-drop DATA frame writes and verifies bytes at the next expected offset. Operands: SEQ; the offset; the bytes and their verify read -/
  | dataFrame (seq offset : Nat) (data : FlashData)
  /-- END (R173): A seed-drop END frame checks the slot and ends recovery if it is valid. Operands: SEQ -/
  | endFrame (seq : Nat)
  /-- BOOT (R173): A seed-drop BOOT frame ends recovery into a valid named slot. Operands: SEQ; the slot -/
  | boot (seq slot : Nat)
  /-- SEED_DROP_BAD_FRAME (R173): A seed-drop frame with a bad CRC or unknown type draws a NAK and changes nothing. Operands: SEQ; the CRC fails, else the type is unknown -/
  | seedDropBadFrame (seq : Nat) (crc : Bool)
  /-- SEED_DROP_GAP (R173): A 100 ms gap inside a frame discards the partial frame. -/
  | seedDropGap
  /-- PWRGD_RISE (R183): Two high samples of PWRGD define t = 0; every domain leaves reset and the start begins. Operands: the strap codes of RBP_0 and RBP_1, and STACK_POS -/
  | pwrgdRise (strap0 strap1 : Fin 4) (position : Fin 8)
  /-- PWRGD_FALL (R183): Two low samples of PWRGD hold every domain in reset and undrive every power output. -/
  | pwrgdFall
  /-- RESET_N_FALL (R183): RESET_N low for two samples performs and holds a warm restart. -/
  | resetNFall
  /-- RESET_N_RISE (R183): The release of RESET_N runs the start sequence from 25 MHz oscillator started. -/
  | resetNRise
  /-- GROVE_BRINGUP (R191): Heartwood brings the next grove up: raises its domains, sets up regions, applies calibration and makes it ready. Operands: how the host on the grove's UP tile answers, for a grove that has one -/
  | groveBringup (up : UpConnect)
  /-- DRUM_BRINGUP (R191): Heartwood brings up a drum: domains, rail to FLOOR, calibration, voices and tray sensing. Operands: the drum; the tray's switches -/
  | drumBringup (drum : Fin 2) (inSwitch outSwitch : Bool)
  /-- VBUS_QUEUE_TURN (R187): A queued DOWN tile is served VBUS no sooner than 20 ms after the previous enable. -/
  | vbusQueueTurn
  /-- RBP_MODE_SWITCH (R188): A port whose grove is ready changes to the stream's MODE at the first instant its select is inactive. Operands: the port, whose select is inactive -/
  | rbpModeSwitch (port : Fin 2)
  /-- STRAP_RESPONDER_ACCESS (R188): An access to a port not yet serving is answered within 200 ns with zero in its strap mode. Operands: the port; a write rather than a read -/
  | strapResponderAccess (port : Fin 2) (write : Bool)
  /-- DEFERRED_KEEPING_WRITE (R205): A list entry or counter increment that fell due while DOMAIN_018 was OFF is written once it is ON. -/
  | deferredKeepingWrite
  /-- RETRY_BACKOFF_EXPIRE (R202): A backoff ends, and retry n of the failed action begins. Operands: the source; for a tile's link, what the new connect attempt finds -/
  | retryBackoffExpire (backoff : BackoffEnd)
  /-- FAULT_WINDOW_CLOSE (R203): A source's window closes, and EVENTS returns to 0. -/
  | faultWindowClose (source : Fin 512)
  /-- FAULT_QUIET_EXPIRE (R204): QUIET ticks pass without occurrence; an AUTO bit clears and its recovery counter increments. -/
  | faultQuietExpire (source : Fin 512)
  /-- FAULT_STICKY_CLEAR (R204): A W1C write clears sticky bits under the exit rules, or sets ACCESS_REFUSED for bits outside the view. Operands: the writer, FAULT_STICKY_w, the word written -/
  | faultStickyClear (slot : Fin 8) (word : Fin 16) (value : Nat)
  /-- UNPRUNE (R209): FAULT_UNPRUNE GO clears the list entries and sources of a channel and brings it up again. Operands: the writer, CODE of a FAULT_UNPRUNE write with GO set -/
  | unprune (slot : Fin 8) (code : Nat)
  /-- UNPRUNE_DONE (R209): The un-prune completes and BUSY clears. -/
  | unpruneDone
  /-- TALLY_TAIL_WRITE (R215): A TALLY_TAIL write stores the consumed count, or HEAD when the value is out of range. Operands: the writing slot; the value -/
  | tallyTailWrite (slot : Fin 8) (value : Nat)
  /-- IDB_SCAN (R222): Firmware scans the identity buses, measures the records into RING_3 and compares them with EXPECT records. Operands: what each acknowledging address gives: bus, address 0x50 + a, reads; an address not listed does not acknowledge -/
  | idbScan (reads : List (Fin 4 × Fin 8 × SeedRead))
  /-- IDB_LINE_TIMEOUT (R218): A line held low or stretched beyond 1 ms ends the sequence with nine SCL pulses and a STOP. -/
  | idbLineTimeout (bus : Fin 4)
  /-- RELEASE (R228): IDB_CMD RELEASE holds down the board's tiles, turns VBUS off and marks the address RELEASED. Operands: the fields of IDB_CMD -/
  | release (slot : Fin 8) (bus : Fin 4) (address : Fin 8)
  /-- RESCAN (R228): IDB_CMD RESCAN probes and reads a released address again. Operands: the fields of IDB_CMD -/
  | rescan (slot : Fin 8) (bus : Fin 4) (address : Fin 8)
  /-- RESCAN_COMPLETE (R230): A rescan ends, is measured and compared, and lifts the hold-down on success. Operands: what the address gives, none for no acknowledge; what each UP tile that is lifted finds -/
  | rescanComplete (rescan : Rescan)
  /-- IDB_CMD_REFUSED (R231): An IDB_CMD with OP 0b11, a bus other than 2, or a wrong state is refused and sets CMD_REFUSED. Operands: the fields of IDB_CMD -/
  | idbCmdRefused (slot : Fin 8) (op : Fin 4) (bus : Fin 4) (address : Fin 8)
  /-- ATOMIC_REGISTER_WRITE (R244): A bus write to a byte of an atomic window register is held, or commits the register when byte 3 is written. Operands: the port; the window offset; the byte or bytes written from it -/
  | atomicRegisterWrite (port : Fin 2) (offset : Nat) (data : List Nat)
  /-- IND_DATA_COMMIT (R247): A commit of IND_DATA queues a REG_WRITE of IND_ADDR with the written byte enables. Operands: the port; the last byte or bytes of IND_DATA, byte 3 among them -/
  | indDataCommit (port : Fin 2) (data : List Nat)
  /-- IND_CMD_READ (R247): IND_CMD READ issues a REG_READ of IND_ADDR and sets BUSY, or is refused as OVERLAP. Operands: the port -/
  | indCmdRead (port : Fin 2)
  /-- IND_DATA_DIRECT_READ (R247): In handshake or split-strobe mode with DIRECT, a read of IND_DATA issues the read and waits for the answer. Operands: the port; both lanes are enabled -/
  | indDataDirectRead (access : DirectRead)
  /-- IND_DATA_CONSUME (R247): A read of IND_DATA byte 3 clears VALID and, with INC or STREAM, advances and reads ahead. Operands: the port -/
  | indDataConsume (port : Fin 2)
  /-- INDIRECT_ANSWER (R248): The answer to an indirect access fills IND_DATA and sets VALID or a status bit. Operands: the port; the request ends under R65 rather than with an answer -/
  | indirectAnswer (port : Fin 2) (timeout : Bool)
  /-- RBP_WAIT_TIMEOUT (R240): An access waits 5 µs and ends as if it had not waited, counting WAIT_TIMEOUTS. Operands: the port -/
  | rbpWaitTimeout (port : Fin 2)
  /-- RBP_PROTOCOL_ERROR (R240): A strobe or clock sequence breaks the mode; the access is ignored and RBP_PROTOCOL sets. Operands: the port -/
  | rbpProtocolError (port : Fin 2)
  /-- DOORBELL_STROKE (R249): DOORBELL STROKE sends the named slots as stroke descriptors to the grove's ring. Operands: the port -/
  | doorbellStroke (port : Fin 2)
  /-- DOORBELL_TALLY (R249): DOORBELL TALLY copies tallies from the ring into the slots and advances TALLY_TAIL. Operands: the port -/
  | doorbellTally (port : Fin 2)
  /-- QUEUE_PULL (R289): QUEUE_PULL moves records from a pull queue into the slots. Operands: the port -/
  | queuePull (port : Fin 2)
  /-- QUEUE_PUSH (R290): QUEUE_PUSH checks and moves records from the slots into a push queue or pipe. Operands: the port -/
  | queuePush (port : Fin 2)
  /-- DOORBELL_MAILBOX (R249): DOORBELL MAILBOX sends the slots as the grove's mailbox request and writes the reply back. Operands: the port -/
  | doorbellMailbox (port : Fin 2)
  /-- DOORBELL_BAD_OP (R249): A doorbell with a reserved OP or a bad range ends ERROR BAD_OP. Operands: the port -/
  | doorbellBadOp (port : Fin 2)
  /-- DOORBELL_DONE (R249): A doorbell operation finishes and STATE becomes DONE or ERROR. Operands: the port -/
  | doorbellDone (port : Fin 2)
  /-- PAGE_COMMIT (R251): A commit of PAGE fills the paged view from the named region unit. Operands: the port; the last byte or bytes of PAGE, byte 3 among them -/
  | pageCommit (port : Fin 2) (data : List Nat)
  /-- REFILL (R251): PAGE_CMD REFILL fills the paged view again from the region. Operands: the port -/
  | refill (port : Fin 2)
  /-- PAGE_FILL_DONE (R251): A fill ends, FILLING clears, and any refusal or line error is reported. Operands: the port -/
  | pageFillDone (port : Fin 2)
  /-- PAGED_VIEW_WRITE (R252): A write to the paged view stores the bytes in the porch and queues a write-through. Operands: the port; the window offset; the byte or bytes written from it -/
  | pagedViewWrite (port : Fin 2) (offset : Nat) (data : List Nat)
  /-- WRITE_THROUGH_ANSWER (R252): A write-through is answered, and REFUSED or ERROR sets on failure. Operands: the port -/
  | writeThroughAnswer (port : Fin 2)
  /-- WIN_IRQ_CLEAR (R253): A W1C write to WIN_IRQ clears the mirror and queues the same clear to GROVE_IRQ_STATUS. Operands: the port; the bits written 1 -/
  | winIrqClear (port : Fin 2) (bits : Nat)
  /-- DMA_GO (R254): DMA_CTRL GO checks the transfer and starts it, or sets STATE REFUSED. Operands: the port; DIR; CANCEL written 1 with it -/
  | dmaGo (port : Fin 2) (dir cancel : Bool)
  /-- DMA_CANCEL (R256): DMA_CTRL CANCEL ends the DMA as CANCELLED after the current cycle. Operands: the port; the bus cycles of the burst that complete; the bytes they read -/
  | dmaCancel (port : Fin 2) (cycles : Nat) (data : List Nat)
  /-- DMA_GRANT (R255): BGNT_N is seen low, and the port masters the bus for a burst. Operands: the port -/
  | dmaGrant (port : Fin 2)
  /-- DMA_BURST_END (R255): A burst ends after BURST cycles or the transfer's end; outputs release and BREQ_N rises. Operands: the port; the bytes read from the host's memory -/
  | dmaBurstEnd (port : Fin 2) (data : List Nat)
  /-- DMA_RELEASE_EXPIRE (R255): RELEASE µs pass after a burst, and the port requests the bus again. Operands: the port -/
  | dmaReleaseExpire (port : Fin 2)
  /-- DMA_GRANT_TIMEOUT (R256): BGNT_N does not fall within the grant limit; BREQ_N is withdrawn and RBP_DMA_GRANT occurs. Operands: the port -/
  | dmaGrantTimeout (port : Fin 2)
  /-- DMA_GRANT_WITHDRAWN (R256): The host raises BGNT_N during a burst; the port completes the cycle and releases. Operands: the port; the bus cycles of the burst that complete; the bytes they read -/
  | dmaGrantWithdrawn (port : Fin 2) (cycles : Nat) (data : List Nat)
  /-- VENDOR_REG_READ (R267): The vendor REG_READ request reads consecutive registers for the grove. Operands: the slot; wValue; wIndex; wLength -/
  | vendorRegRead (slot : Fin 8) (value index length : Nat)
  /-- VENDOR_REG_WRITE (R267): The vendor REG_WRITE request writes consecutive registers for the grove. Operands: the slot; wValue; wIndex; the values of the data stage -/
  | vendorRegWrite (slot : Fin 8) (value index : Nat) (words : List Nat)
  /-- VENDOR_REQUEST_STALL (R267): A vendor request with a bad bRequest, length or address is answered with a stall. Operands: the slot; bRequest; wValue; wLength -/
  | vendorRequestStall (slot : Fin 8) (request value length : Nat)
  /-- INTERRUPT_IN_POLL (R53): The host polls the vendor function's interrupt IN endpoint and receives GROVE_IRQ_STATUS when signalled. Operands: the slot whose vendor function is polled -/
  | interruptInPoll (slot : Fin 8)
  /-- CLEAR_TT_BUFFER (R265): The hub-class CLEAR_TT_BUFFER request is carried out. Operands: the hub's slot; the port; the non-periodic buffer named -/
  | clearTtBuffer (slot : Fin 8) (port : Fin 16) (buffer : Fin 2)
  /-- RESET_TT (R265): The hub-class RESET_TT request is carried out. Operands: the hub's slot; the port -/
  | resetTt (slot : Fin 8) (port : Fin 16)
  /-- GET_TT_STATE (R265): The hub-class GET_TT_STATE request returns the TT state. Operands: the hub's slot; the port -/
  | getTtState (slot : Fin 8) (port : Fin 16)
  /-- STOP_TT (R265): The hub-class STOP_TT request is carried out. Operands: the hub's slot; the port -/
  | stopTt (slot : Fin 8) (port : Fin 16)
  /-- SET_HUB_DEPTH (R265): The hub-class SET_HUB_DEPTH request is carried out. Operands: the hub's slot; wValue -/
  | setHubDepth (slot : Fin 8) (depth : Nat)
  /-- GET_PORT_ERR_COUNT (R265): The hub-class GET_PORT_ERR_COUNT request returns the port's error count. Operands: the hub's slot; the port with what its link has counted since the last such request -/
  | getPortErrCount (slot : Fin 8) (port : PortCounts)
  /-- SET_PORT_POWER (R272): PORT_POWER is set on a port, enabling VBUS once the other conditions hold. Operands: the hub's slot; the port -/
  | setPortPower (slot : Fin 8) (port : Fin 16)
  /-- CLEAR_PORT_POWER (R272): PORT_POWER is cleared, turning VBUS off at once. Operands: the hub's slot; the port -/
  | clearPortPower (slot : Fin 8) (port : Fin 16)
  /-- PORT_RESET (R269): A USB 2.0 port reset drives SE0 and runs the chirp handshake. Operands: the hub's slot; the port -/
  | portReset (slot : Fin 8) (port : Fin 16)
  /-- BH_PORT_RESET (R269): A warm reset of a SuperSpeed port completes within 100 ms. Operands: the hub's slot; the port -/
  | bhPortReset (slot : Fin 8) (port : Fin 16)
  /-- PORT_RESET_COMPLETE (R269): A port reset ends; the port is enabled at the speed found and C_PORT_RESET sets. Operands: the tile; how the reset ends -/
  | portResetComplete (tile : Fin 14) (result : PortResetEnd)
  /-- PORT_SUSPEND (R276): PORT_SUSPEND selectively suspends a USB 2.0 port. Operands: the hub's slot; the port; set, or clear (which drives resume) -/
  | portSuspend (slot : Fin 8) (port : Fin 16) (set : Bool)
  /-- PORT_LINK_STATE (R276): PORT_LINK_STATE moves a SuperSpeed port's link, for example to U3. Operands: the hub's slot; the port; the link state as USB 3.2 numbers it: 0 U0, 1 U1, 2 U2, 3 U3, 4 SS.Disabled, 5 Rx.Detect -/
  | portLinkState (slot : Fin 8) (port : Fin 16) (state : Nat)
  /-- PORT_U1_TIMEOUT (R265): PORT_U1_TIMEOUT sets the hub's U1 timer for a port. Operands: the hub's slot; the port; the timeout -/
  | portU1Timeout (slot : Fin 8) (port : Fin 16) (value : Nat)
  /-- PORT_U2_TIMEOUT (R265): PORT_U2_TIMEOUT sets the hub's U2 timer for a port. Operands: the hub's slot; the port; the timeout -/
  | portU2Timeout (slot : Fin 8) (port : Fin 16) (value : Nat)
  /-- PORT_REMOTE_WAKE_MASK (R277): PORT_REMOTE_WAKE_MASK sets which wakes a SuperSpeed port propagates. Operands: the hub's slot; the port; the mask -/
  | portRemoteWakeMask (slot : Fin 8) (port : Fin 16) (mask : Nat)
  /-- FORCE_LINKPM_ACCEPT (R265): FORCE_LINKPM_ACCEPT makes a port accept LPM tokens. Operands: the hub's slot; the port; set or clear -/
  | forceLinkpmAccept (slot : Fin 8) (port : Fin 16) (set : Bool)
  /-- PORT_TEST (R265): PORT_TEST drives a test mode on ports 1 to n, or draws a request error on the device function's port. Operands: the hub's slot; the port; the test selector -/
  | portTest (slot : Fin 8) (port : Fin 16) (mode : Nat)
  /-- PORT_INDICATOR (R265): PORT_INDICATOR is answered with a request error. Operands: the hub's slot; the port -/
  | portIndicator (slot : Fin 8) (port : Fin 16)
  /-- RECEIVER_DETECTION (R268): Every 12 ms a DOWN tile runs SuperSpeed receiver detection and trains on success. Operands: the tile; what detection and training find -/
  | receiverDetection (tile : Fin 14) (result : Detection)
  /-- SS_DETECT_TIMEOUT (R268): No SuperSpeed receiver is found within 360 ms, and the tile watches the USB 2.0 lines. Operands: the tile -/
  | ssDetectTimeout (tile : Fin 14)
  /-- USB2_CONNECT (R268): A D+ or D- pull-up is seen and reported as a connection. Operands: the tile; the pull-up is on D- -/
  | usb2Connect (tile : Fin 14) (low : Bool)
  /-- UP_TILE_DETACH (R274): An UP tile detaches or its link goes to SS.Disabled; the virtual hub returns to its default state. Operands: the UP tile -/
  | upTileDetach (tile : Fin 14)
  /-- HUB_RESET_BY_HOST (R274): The host resets the hub; every DOWN tile turns VBUS off. Operands: the hub's slot -/
  | hubResetByHost (slot : Fin 8)
  /-- LPM_TOKEN (R275): An LPM token is accepted and the link enters L1. Operands: the tile, or the port of the grove's device function; the token -/
  | lpmToken (link : LinkAt) (token : LpmToken)
  /-- U1_U2_ENTRY (R275): A partner request or the hub's timer moves a link to U1 or U2. Operands: the tile, or the port of the grove's device function; the partner's request or the idle time of its own timers, with what the link counted before it -/
  | u1U2Entry (link : LinkAt) (entry : LinkEntry)
  /-- GLOBAL_SUSPEND (R276): The upstream link suspends; SOFs stop and SuperSpeed DOWN links go to U3. Operands: the hub's slot -/
  | globalSuspend (slot : Fin 8)
  /-- HOST_RESUME (R278): A host drives resume on an UP tile, and it is propagated downstream. Operands: the UP tile -/
  | hostResume (tile : Fin 14)
  /-- DEVICE_REMOTE_WAKE (R277): A downstream device signals resume or function wake, and the hub propagates it where enabled. Operands: the DOWN tile; the device's function wake is enabled -/
  | deviceRemoteWake (tile : Fin 14) (funcWake : Bool)
  /-- U3_EXIT_LFPS (R278): U3 exit LFPS arrives, and the tile answers the handshake and brings the link to U0. Operands: the tile -/
  | u3ExitLfps (tile : Fin 14)
  /-- TT_SPLIT_DISCARD (R270): A TT discards a periodic split, counting TT_DISCARDS and setting HUB_TT. Operands: the splits of one micro-frame at a port of a grove's hub -/
  | ttSplitDiscard (splits : PortSplits)
  /-- SCHEDULE_MISS (R271): A periodic transfer cannot start in its micro-frame, counting SCHEDULE_MISSES. Operands: the grove's slot -/
  | scheduleMiss (slot : Fin 8)
  /-- TAPROOT_ENUMERATE (R285): Firmware enumerates a connected device, binds its interfaces and posts ATTACH. Operands: the grove's slot; the device; the REASON of a failed step -/
  | taprootEnumerate (slot : Fin 8) (dev : Found) (failure : Option Nat)
  /-- KEYBOARD_REPORT (R292): A boot keyboard report yields one KEY record per change. Operands: the grove's slot; the device; the boot report -/
  | keyboardReport (slot : Fin 8) (handle : Nat) (report : List Nat)
  /-- POINTER_REPORT (R292): A pointer report yields or merges a MOVE record. Operands: the grove's slot; the device; the boot report -/
  | pointerReport (slot : Fin 8) (handle : Nat) (report : List Nat)
  /-- PAD_REPORT (R292): A game controller report yields or replaces a STATE record. Operands: the grove's slot; the device; the interface whose endpoint gives the input report; its report ID, 0 where it has none; its further bytes -/
  | padReport (slot : Fin 8) (handle iface id : Nat) (body : List Nat)
  /-- LEDS (R292): An LEDS push record is sent to the keyboard as an output report. Operands: the grove's slot -/
  | leds (slot : Fin 8)
  /-- BLOCK_READ (R293): A block READ request reads blocks from the device into the grove's region. Operands: the grove's slot; the device; the bytes it returns; how it ends -/
  | blockRead (slot : Fin 8) (handle : Nat) (data : List Nat) (result : BlockEnd)
  /-- BLOCK_WRITE (R293): A block WRITE request writes blocks from the grove's region to the device. Operands: the grove's slot; the device; whole blocks acknowledged; how it ends -/
  | blockWrite (slot : Fin 8) (handle : Nat) (acked : Nat) (result : BlockEnd)
  /-- CAPACITY (R293): A block CAPACITY request reads the device's capacity. Operands: the grove's slot; the device; its number of blocks and block size; how it ends -/
  | capacity (slot : Fin 8) (handle : Nat) (blocks size : Nat) (result : BlockEnd)
  /-- BLOCK_REQUEST_DONE (R293): A block request ends and its DONE completion enters the queue. Operands: the grove's slot; the device -/
  | blockRequestDone (slot : Fin 8) (handle : Nat)
  /-- TX (R294): A serial TX record is sent on the adapter's bulk OUT endpoint. Operands: the grove's slot; the device -/
  | tx (slot : Fin 8) (handle : Nat)
  /-- LINE (R294): A serial LINE record is sent as SET_LINE_CODING and SET_CONTROL_LINE_STATE. Operands: the grove's slot; the device -/
  | line (slot : Fin 8) (handle : Nat)
  /-- SERIAL_RX_DATA (R294): Received serial bytes are appended to an RX record. Operands: the grove's slot; the device; the bytes -/
  | serialRxData (slot : Fin 8) (handle : Nat) (data : List Nat)
  /-- SERIAL_STATE_NOTIFY (R294): A SerialState notification produces one STATE record. Operands: the grove's slot; the device; SerialState -/
  | serialStateNotify (slot : Fin 8) (handle : Nat) (bits : Nat)
  /-- PIPE_TRANSFER (R296): A raw-pipe transfer descriptor is taken and run in push order. Operands: the grove's slot; the pipe; packets whose handshake arrives; transaction retries; IN data -/
  | pipeTransfer (slot : Fin 8) (pipe : Fin 8) (packets retries : Nat) (data : List Nat)
  /-- PIPE_TRANSFER_END (R297): A raw-pipe transfer ends with a tally and, on a USB-side ending, a pipe event. Operands: the grove's slot; the pipe; how the device's side ends -/
  | pipeTransferEnd (slot : Fin 8) (pipe : Fin 8) (result : PipeEnd)
  /-- PIPE_TRANSFER_TIMEOUT (R297): A transfer's TIMEOUT expires and it ends with event TIMEOUT. Operands: the grove's slot; the pipe -/
  | pipeTransferTimeout (slot : Fin 8) (pipe : Fin 8)
  /-- DEVICE_INFO (R298): The DEVICE_INFO message returns a device's descriptor and ATTACH bytes. Operands: the requesting slot -/
  | deviceInfo (slot : Fin 8)
  /-- DESCRIPTOR_READ (R298): The DESCRIPTOR_READ message returns part of the stored configuration descriptor set. Operands: the requesting slot -/
  | descriptorRead (slot : Fin 8)
  /-- CLAIM (R298): The CLAIM message unbinds or rebinds a device's class services. Operands: the requesting slot -/
  | claim (slot : Fin 8)
  /-- PIPE_OPEN (R298): The PIPE_OPEN message opens a raw pipe on a claimed device's endpoint. Operands: the requesting slot -/
  | pipeOpen (slot : Fin 8)
  /-- PIPE_CLOSE (R298): The PIPE_CLOSE message closes a pipe and ends its pending transfers. Operands: the requesting slot -/
  | pipeClose (slot : Fin 8)
  /-- PIPE_CLEAR_HALT (R298): The PIPE_CLEAR_HALT message sends CLEAR_FEATURE ENDPOINT_HALT and resets the toggle. Operands: the requesting slot -/
  | pipeClearHalt (slot : Fin 8)
  /-- TAPROOT_SUSPEND (R300): The Taproot SUSPEND message suspends or resumes the bus or a device. Operands: the requesting slot -/
  | taprootSuspend (slot : Fin 8)
  /-- PORT_CYCLE (R298): The PORT_CYCLE message resets a device's port, detaching and re-enumerating it. Operands: the requesting slot -/
  | portCycle (slot : Fin 8)
  /-- TAPROOT_DEVICE_DETACH (R299): A device detaches; its work ends with synthetic records and tallies, then DETACH is posted. Operands: the grove's slot; the device's handle, or the place of a device without one -/
  | taprootDeviceDetach (slot : Fin 8) (gone : TapGone)
  /-- TAPROOT_REMOTE_WAKE (R301): A device signals remote wake; Taproot resumes the bus and posts WAKE, or ignores it without permit. Operands: the grove's slot; the device -/
  | taprootRemoteWake (slot : Fin 8) (handle : Nat)
  /-- TAPROOT_HALT (R302): TAPROOT_HALT stops every bus, ends every device and posts HALTED to each grove. -/
  | taprootHalt
  /-- TAPROOT_RESTART (R302): After grove 0 clears source 162, Taproot restarts and re-enumerates every device. -/
  | taprootRestart
  /-- TYPEC_ATTACH (R306): A CC attach combination holds 150 ms and the partner is attached with its orientation. Operands: the tile; the classes of the CC lines as TC_STATUS codes them; VBUS, and whether the combination has held 150 ms or its debounce begins; how the host on an UP tile answers -/
  | typecAttach (tile : Fin 14) (cc1 cc2 : Fin 7) (vbus : VbusSeen) (up : UpConnect)
  /-- TYPEC_DETACH (R306): The Rd line reads open for 10 ms, or VBUS is lost, and the partner is detached. Operands: the tile; the classes of the CC lines; VBUS in mV -/
  | typecDetach (tile : Fin 14) (cc1 cc2 : Fin 7) (vbus : Nat)
  /-- CC_UNSETTLED (R306): A CC line fails to settle within 2 s, and TILE_CC_UNSETTLED is present. Operands: the tile; CC_2 rather than CC_1; the class that the line has settled to, 6 for unsettled -/
  | ccUnsettled (tile : Fin 14) (line2 : Bool) (cls : Fin 7)
  /-- DISCOVER_IDENTITY_REPLY (R308): A cable answers Discover Identity on SOP', setting EMARKED_5A for a 5 A cable. Operands: the tile; the ID Header VDO and Cable VDO, or no reply; the Cable VDO states 5 A -/
  | discoverIdentityReply (tile : Fin 14) (vdos : Option (List Nat)) (fiveAmps : Bool)
  /-- VCONN_LIMIT (R308): VCONN meets its 300 mA limit; the switch opens and TILE_PD occurs. Operands: the tile -/
  | vconnLimit (tile : Fin 14)
  /-- SOURCE_CAPABILITIES (R310): An UP tile receives Source_Capabilities and requests the first object its sink profile allows. Operands: the UP tile; the objects; the partner is Revision 3.x -/
  | sourceCapabilities (tile : Fin 14) (objs : List Nat) (rev3 : Bool)
  /-- PD_REQUEST (R314): A DOWN tile evaluates a Request and answers Accept or Reject. Operands: the DOWN tile; the Request's data object; the partner is Revision 3.x -/
  | pdRequest (tile : Fin 14) (rdo : Nat) (rev3 : Bool)
  /-- PS_RDY (R311): An UP tile receives PS_RDY, completing the contract. Operands: the UP tile -/
  | psRdy (tile : Fin 14)
  /-- HARD_RESET_RECEIVED (R316): A tile receives a hard reset; a DOWN tile discharges and requeues, an UP tile renegotiates. Operands: the tile -/
  | hardResetReceived (tile : Fin 14)
  /-- UNSUPPORTED_PD_MESSAGE (R305): An unsupported PD message is answered Not_Supported or Reject. Operands: the tile; the partner is Revision 3.x -/
  | unsupportedPdMessage (tile : Fin 14) (rev3 : Bool)
  /-- SOURCE_CAPS_REPEAT (R314): Source_Capabilities without GoodCRC are repeated every 150 ms, up to 50 times. Operands: the DOWN tile -/
  | sourceCapsRepeat (tile : Fin 14)
  /-- SOURCE_CAPS_TIMEOUT (R310): No Source_Capabilities arrive within 620 ms, and the UP tile stays at Type-C current only. Operands: the UP tile -/
  | sourceCapsTimeout (tile : Fin 14)
  /-- PPS_REQUEST_TIMER (R311): In a programmable contract the UP tile sends a new Request every 8 s. Operands: the UP tile -/
  | ppsRequestTimer (tile : Fin 14)
  /-- PPS_KEEPALIVE_TIMEOUT (R316): A DOWN tile gets no Request within 15 s and sends a hard reset. Operands: the DOWN tile -/
  | ppsKeepaliveTimeout (tile : Fin 14)
  /-- TRANSITION_WAIT_END (R314): After Accept the wait ends, the OVP threshold is raised and the new code is written. Operands: the DOWN tile -/
  | transitionWaitEnd (tile : Fin 14)
  /-- VBUS_SETTLED (R314): VBUS has been within ±5% of the new voltage for 1 ms, and PS_RDY is sent. Operands: the DOWN tile; VBUS in mV -/
  | vbusSettled (tile : Fin 14) (vbus : Nat)
  /-- TRANSITION_LIMIT (R314): VBUS misses the new voltage within 275 ms, and the tile sends a hard reset. Operands: the DOWN tile -/
  | transitionLimit (tile : Fin 14)
  /-- PD_RETRIES_EXHAUSTED (R317): A message draws no GoodCRC after retries; Soft_Reset or hard reset follows. Operands: the tile -/
  | pdRetriesExhausted (tile : Fin 14)
  /-- PPS_TO_FIXED (R311): With the other Dormant conditions holding, the Olulo moves a sink PPS contract to a fixed object. Operands: the UP tile -/
  | ppsToFixed (tile : Fin 14)
  /-- PPS_RESTORE (R311): The Olulo requests the programmable object again after wake, unwind or a failed condition. Operands: the UP tile -/
  | ppsRestore (tile : Fin 14)
  /-- VOLTAGE_LOOP (R315): Every 1 ms the set-point code is moved one step toward the contract voltage. Operands: the DOWN tile; VBUS at TILE_t_VOUT in mV -/
  | voltageLoop (tile : Fin 14) (vout : Nat)
  /-- CURRENT_LIMIT_LOOP (R315): Every 100 µs in a programmable contract the code is lowered or raised to limit current. Operands: the DOWN tile; IBUS in mA; VBUS in mV -/
  | currentLimitLoop (tile : Fin 14) (ibus vbus : Nat)
  /-- OVP_TRIP (R320): VBUS crosses the over-voltage threshold and the gate opens. Operands: the tile -/
  | ovpTrip (tile : Fin 14)
  /-- OCP_TRIP (R320): Current stays above threshold for BLANK and the gate opens, with the hub over-current status. Operands: the DOWN tile -/
  | ocpTrip (tile : Fin 14)
  /-- REVERSE_CURRENT_TRIP (R320): VBUS exceeds VOUT by 50 mV and the gate opens. Operands: the tile; the condition arises, or has been gone for 10 ms -/
  | reverseCurrentTrip (tile : Fin 14) (present : Bool)
  /-- OVP_RECOVERY (R312): VBUS stays below the OVP threshold for 100 ms; the UP sink switch closes and a hard reset is sent. Operands: the UP tile -/
  | ovpRecovery (tile : Fin 14)
  /-- SOFT_START_COMPLETE (R321): VBUS enters 4.75–5.50 V, and the path goes ON. Operands: the DOWN tile; VBUS in mV -/
  | softStartComplete (tile : Fin 14) (vbus : Nat)
  /-- SOFT_START_LIMIT (R321): Soft start misses 20 ms, and the path discharges. Operands: the DOWN tile -/
  | softStartLimit (tile : Fin 14)
  /-- VBUS_SAFE_ZERO (R321): VBUS falls below 0.80 V; DISCH falls and the path returns to QUEUED or IDLE. Operands: the tile; VBUS in mV -/
  | vbusSafeZero (tile : Fin 14) (vbus : Nat)
  /-- DISCHARGE_LIMIT (R321): Discharge misses 650 ms, and TILE_REVERSE occurs. Operands: the DOWN tile -/
  | dischargeLimit (tile : Fin 14)
  /-- HARD_RESET_HOLD_EXPIRE (R316): 700 ms after safe zero following a hard reset, the DOWN tile rejoins the VBUS queue. Operands: the DOWN tile -/
  | hardResetHoldExpire (tile : Fin 14)
  /-- MOISTURE_TEST (R323): Every 4 s on an unattached tile the moisture test runs and may declare the tile damp. Operands: the tile; the impedances measured in ohms -/
  | moistureTest (tile : Fin 14) (cc1 cc2 sbu1 sbu2 : Nat)
  /-- MOISTURE_RETEST (R323): Every 30 s on a damp tile the test runs again and may declare it dry. Operands: the tile; the impedances measured in ohms -/
  | moistureRetest (tile : Fin 14) (cc1 cc2 sbu1 sbu2 : Nat)
  /-- PD_INFO (R326): PD_INFO returns the contract and the last Source_Capabilities. Operands: the requesting slot -/
  | pdInfo (slot : Fin 8)
  /-- SINK_SET (R326): SINK_SET replaces an UP tile's sink voltage and current and renegotiates. Operands: the requesting slot; the source rejects the request, or accepts it (none: no answer is due) -/
  | sinkSet (slot : Fin 8) (granted : Option Bool)
  /-- PD_HARD_RESET_MAILBOX (R326): The HARD_RESET mailbox message makes the tile send a hard reset. Operands: the requesting slot -/
  | pdHardResetMailbox (slot : Fin 8)
  /-- RECAP (R326): RECAP sends new Source_Capabilities, or Get_Source_Cap on an UP tile. Operands: the requesting slot; a contract follows -/
  | recap (slot : Fin 8) (contract : Bool)
  /-- CABLE_INFO (R326): CABLE_INFO returns the cable's identity VDOs, or NOT_FOUND. Operands: the requesting slot -/
  | cableInfo (slot : Fin 8)
  /-- LASER_SELECT (R335): A LASER_CTRL write selects a laser and starts it, or stores 0 when refused. Operands: the writer's slot; the drum; SELECT -/
  | laserSelect (slot : Fin 8) (drum : Fin 2) (select : Fin 4)
  /-- LASER_RAMP_DONE (R336): The monitor reaches 0.9 × I_T, and the laser enters REGULATING. Operands: the drum; the monitor current in µA; the drive in 0.05 mA units -/
  | laserRampDone (drum : Fin 2) (monitor drive : Nat)
  /-- LASER_RAMP_TIMEOUT (R337): RAMP misses REGULATING within 500 µs; LASER_MONITOR occurs and SELECT clears. Operands: the drum -/
  | laserRampTimeout (drum : Fin 2)
  /-- LASER_MONITOR_FAULT (R337): The monitor leaves its limits in REGULATING or overshoots; the laser turns off. Operands: the drum; the monitor current in µA; the drive in 0.05 mA units -/
  | laserMonitorFault (drum : Fin 2) (monitor drive : Nat)
  /-- LASER_PERMIT_FALL (R334): LASER_PERMIT falls; both lasers go dark within 1 µs and SELECT clears. Operands: the drum -/
  | laserPermitFall (drum : Fin 2)
  /-- LASER_PERMIT_RISE (R334): LASER_PERMIT has been high 1 ms and counts as high for starting a laser. Operands: the drum -/
  | laserPermitRise (drum : Fin 2)
  /-- RF_GAIN_ADJUST (R333): Every 10 µs with AUTO the RF gain is set for the target envelope. Operands: the drum; the envelope in codes; the gain that brings it to 192 codes -/
  | rfGainAdjust (drum : Fin 2) (envelope gain : Nat)
  /-- RF_LEVEL (R333): The gain sits at a limit with the envelope out of range for 100 µs. Operands: the drum; the envelope in codes -/
  | rfLevel (drum : Fin 2) (envelope : Nat)
  /-- COIL_FORCE (R340): A COIL_FORCE write latches a code directly, or is refused while a voice is loaded. Operands: the writer's slot; the drum; 0 focus, 1 tracking, 2 tilt; CODE -/
  | coilForce (slot : Fin 8) (drum : Fin 2) (coil : Fin 3) (code : Nat)
  /-- COIL_OVERCURRENT (R339): A coil exceeds 460 mA for 2 µs and is limited. Operands: the drum; the coils that limit now: bit 0 focus, 1 tracking, 2 tilt -/
  | coilOvercurrent (drum : Fin 2) (limiting : Fin 8)
  /-- COIL_OPEN (R339): A commanded coil carries less than 10% for 100 µs and reads open. Operands: the drum; the coils that read open now, as in COIL_OVERCURRENT -/
  | coilOpen (drum : Fin 2) (opened : Fin 8)
  /-- FOCUS_LOST (R341): SUM stays below SUM_MIN for SAMPLES samples, and the focus reaction applies. Operands: the drum; the SUM code -/
  | focusLost (drum : Fin 2) (sum : Nat)
  /-- TRACK_LOST (R341): TE leaves its window for SAMPLES samples, and the tracking reaction applies. Operands: the drum; the TE code -/
  | trackLost (drum : Fin 2) (te : Nat)
  /-- REARM (R341): A LOSS_CTRL REARM write allows the reaction to end. Operands: the writer's slot; the drum; the word written to LOSS_CTRL -/
  | rearm (slot : Fin 8) (drum : Fin 2) (value : Nat)
  /-- REACTION_END (R341): After REARM, the loss condition is absent for SAMPLES samples and the voices drive the coils again. Operands: the drum; the SUM and TE codes -/
  | reactionEnd (drum : Fin 2) (sum te : Nat)
  /-- VM_RANGE (R344): VM_DRUM_n leaves 4.5–5.5 V for 2 µs; the drum's outputs go undriven and SELECT clears. Operands: the drum -/
  | vmRange (drum : Fin 2)
  /-- VM_RESTORE (R344): VM_DRUM_n is in range for 1 ms, and coils and motors follow their commands again. Operands: the drum -/
  | vmRestore (drum : Fin 2)
  /-- DRIVER_THERMAL (R345): A driver group reaches 125 °C and goes undriven. Operands: the drum; 0 coils, 1 sled, 2 tray, 3 lasers, 4 predriver -/
  | driverThermal (drum : Fin 2) (group : Fin 5)
  /-- DRIVER_COOLED (R345): A hot group falls below 110 °C, and HOT clears. Operands: the drum; the group -/
  | driverCooled (drum : Fin 2) (group : Fin 5)
  /-- CAL_WRITE (R346): The owner writes a FRONT CAL register, which is stored or refused. Operands: the writer's slot; the drum; the register from +0xA0; the word written -/
  | calWrite (slot : Fin 8) (drum : Fin 2) (index : Fin 8) (value : Nat)
  /-- DRUMHEAD_FRAME (R355): A 2.5 µs frame starts and runs the due voices' fast steps and updates. Operands: the drum; what its converters sample first in the frame; the boundaries passed since the last frame started -/
  | drumheadFrame (drum : Fin 2) (pickup : Pickup) (late : Fin 49)
  /-- LOAD_VOICE (R363): DH_LOAD_CMD LOAD checks and accepts a new voice program. Operands: the writer's slot; the drum; the voice; PERIOD; ROLE; PREDICT -/
  | loadVoice (slot : Fin 8) (drum : Fin 2) (voice : Fin 8) (period : Nat) (role : Nat) (predict : Bool)
  /-- SWAP (R363): DH_LOAD_CMD SWAP checks and accepts a replacement program for a loaded voice. Operands: the writer's slot; the drum; the voice; PERIOD; ROLE; PREDICT; KEEP -/
  | swap (slot : Fin 8) (drum : Fin 2) (voice : Fin 8) (period : Nat) (role : Nat) (predict keep : Bool)
  /-- UNLOAD (R363): DH_LOAD_CMD UNLOAD removes a voice at the end of its period. Operands: the writer's slot; the drum; the voice -/
  | unload (slot : Fin 8) (drum : Fin 2) (voice : Fin 8)
  /-- RESEED (R363): DH_LOAD_CMD RESEED restarts a voice's state from X0 and Z0. Operands: the writer's slot; the drum; the voice -/
  | reseed (slot : Fin 8) (drum : Fin 2) (voice : Fin 8)
  /-- VOICE_CMD_BAD_OP (R363): DH_LOAD_CMD with OP 0 or 5 to 7 is refused BAD_OP. Operands: the writer's slot; the drum -/
  | voiceCmdBadOp (slot : Fin 8) (drum : Fin 2)
  /-- VOICE_CMD_EFFECT (R365): An accepted voice command takes effect at its frame boundary. Operands: the drum -/
  | voiceCmdEffect (drum : Fin 2)
  /-- VOICE_CMD_ABANDONED (R364): The rail enters CLOCK_FAILED during a pending command, which is dropped ABANDONED. Operands: the drum -/
  | voiceCmdAbandoned (drum : Fin 2)
  /-- DH_STAGE_DATA_ACCESS (R367): A DH_STAGE_DATA access moves a stage word and advances WORD. Operands: the slot; the drum; the word written, or a read -/
  | dhStageDataAccess (slot : Fin 8) (drum : Fin 2) (write : Option Nat)
  /-- SPIN_EVALUATE (R372): Every 1 ms the spindle evaluates E, the target and the ramped target. Operands: the drum -/
  | spinEvaluate (drum : Fin 2)
  /-- SPIN_CHECK_END (R374): CHECK's 20 ms watch ends, and the spindle goes to SENSE or BRAKE. Operands: the drum; every line-to-line voltage stayed below 100 mV -/
  | spinCheckEnd (drum : Fin 2) (quiet : Bool)
  /-- SENSE_DONE (R375): The inductance pulses end with a sector found, or lead to ALIGN. Operands: the drum; I_0 to I_5 of the first round and, where it ran, of the second; the gates' current did not decay -/
  | senseDone (drum : Fin 2) (first second : List Nat) (fails : Bool)
  /-- ALIGN_DONE (R375): ALIGN's 200 ms ends, and RAMP begins from sector 0. Operands: the drum -/
  | alignDone (drum : Fin 2)
  /-- BEMF_ZERO_CROSSING (R377): A back-EMF zero crossing times commutation, measures speed and may give handover or a catch. Operands: the drum; 25 ns periods since the crossing before; its place within the step in percent; in quiet mode the angle error in tenths of a degree -/
  | bemfZeroCrossing (drum : Fin 2) (interval place : Nat) (error : Int)
  /-- RAMP_TIMEOUT (R376): RAMP finds no handover within RAMP_LIMIT and goes to BRAKE. Operands: the drum -/
  | rampTimeout (drum : Fin 2)
  /-- COMMUTATION_MISSED (R377): No crossing comes within 1.5 × I; the spindle commutates anyway, and six in a row stall it. Operands: the drum -/
  | commutationMissed (drum : Fin 2)
  /-- QUIET_ENTRY (R378): After 500 ms of good RUN above 1,000 rpm, the spindle changes to sinusoidal drive. Operands: the drum -/
  | quietEntry (drum : Fin 2)
  /-- BRAKE_LOW_SPEED (R380): Braking reaches 300 rpm or loses crossings; the low sides are held on for 500 ms. Operands: the drum -/
  | brakeLowSpeed (drum : Fin 2)
  /-- BRAKE_HOLD_END (R380): The 500 ms low-side hold ends and every gate turns off. Operands: the drum -/
  | brakeHoldEnd (drum : Fin 2)
  /-- SPINDLE_AT_REST (R373): The phases stay quiet for 100 ms or the BRAKE or COAST limit expires, and the spindle is at rest. Operands: the drum -/
  | spindleAtRest (drum : Fin 2)
  /-- SPIN_CUT (R381): A cut arises and every gate goes off, with the spindle coasting. Operands: the drum -/
  | spinCut (drum : Fin 2)
  /-- SPIN_FAULT (R381): SPIN_FAULT_N falls; every gate turns off within 200 ns and SPIN_DRIVER occurs. Operands: the drum -/
  | spinFault (drum : Fin 2)
  /-- SPIN_CUT_END (R381): Every cut cause has gone, and COAST may return to CHECK. Operands: the drum -/
  | spinCutEnd (drum : Fin 2)
  /-- SLED_SEEK (R391): SLED_CMD SEEK moves the sled to SLED_TARGET along the scaled profile. Operands: the writer's slot; the drum -/
  | sledSeek (slot : Fin 8) (drum : Fin 2)
  /-- RUN_STAGE (R391): SLED_CMD RUN_STAGE runs the staged table unscaled. Operands: the writer's slot; the drum -/
  | runStage (slot : Fin 8) (drum : Fin 2)
  /-- HOME (R395): SLED_CMD HOME drives the sled to its inner stop and searches the index. Operands: the writer's slot; the drum -/
  | home (slot : Fin 8) (drum : Fin 2)
  /-- STOP (R397): SLED_CMD STOP ends the running command with P_cmd held. Operands: the writer's slot; the drum; µs since the move that runs began -/
  | stop (slot : Fin 8) (drum : Fin 2) (elapsed : Nat)
  /-- SLED_CMD_BAD_OP (R403): SLED_CMD with an unassigned OP is refused BAD_OP. Operands: the writer's slot; the drum -/
  | sledCmdBadOp (slot : Fin 8) (drum : Fin 2)
  /-- SLED_MOVE_END (R393): After the settle time the move ends, done or stalled. Operands: the drum -/
  | sledMoveEnd (drum : Fin 2)
  /-- HOME_INWARD_DONE (R395): The inward run ends; P_cmd and the count are zeroed and the index search begins. Operands: the drum -/
  | homeInwardDone (drum : Fin 2)
  /-- HOME_INDEX_TIMEOUT (R395): No index arrives within TRAVEL_UNITS/4, and SLED_HOME occurs. Operands: the drum -/
  | homeIndexTimeout (drum : Fin 2)
  /-- SLED_HOLD_CURRENT (R389): After 100 ms without motion, the sled drives HOLD_MA. Operands: the drum -/
  | sledHoldCurrent (drum : Fin 2)
  /-- SLED_STAGE_DATA_ACCESS (R403): A SLED_STAGE_DATA access moves a stage word and advances WORD. Operands: the slot; the drum; the word written, or a read -/
  | sledStageDataAccess (slot : Fin 8) (drum : Fin 2) (write : Option Nat)
  /-- ENCODER_CHANGE (R398): A filtered quadrature change moves the count, or records a skip or noise. Operands: the drum; the filtered levels of ENC_A and ENC_B; samples since the line that changes changed last -/
  | encoderChange (drum : Fin 2) (a b : Bool) (gap : Nat)
  /-- ENCODER_INDEX (R399): A filtered index edge snaps the count inside the window, or opens the loop outside it. Operands: the drum; in homing, µs since the outward run began -/
  | encoderIndex (drum : Fin 2) (elapsed : Nat)
  /-- TRAY_SWITCH_CHANGE (R402): A debounced end-switch change moves the tray state, and disc changes set MEDIA. Operands: the drum; TRAY_IN_N and TRAY_OUT_N active -/
  | traySwitchChange (drum : Fin 2) (inner outer : Bool)
  /-- TRAY_BUTTON_PRESS (R401): A counted press rings the tray bell and sets MEDIA for the tray-rights holder. Operands: the drum; pressed, or released -/
  | trayButtonPress (drum : Fin 2) (pressed : Bool)
  /-- TRAY_OPEN_START (R402): A pending open request finds the spindle STOPPED, clears SELECT and drives outward. Operands: the drum -/
  | trayOpenStart (drum : Fin 2)
  /-- TRAY_TIMEOUT (R402): A tray move misses its switch within LIMIT, and TRAY_TIMEOUT occurs. Operands: the drum -/
  | trayTimeout (drum : Fin 2)
  /-- TRAY_BRAKE_END (R402): The 50 ms end brake ends and the tray motor is undriven. Operands: the drum -/
  | trayBrakeEnd (drum : Fin 2)
  /-- TIMING_LOCK (R408): Timing error stays below 0.1 T for 1,024 bits, and TIMING_LOCK sets. Operands: the drum; the longest run length and the timing errors -/
  | timingLock (drum : Fin 2) (timing : TimingRead)
  /-- SYNC_LOCK (R411): Three syncs in a row are found at their positions, and SYNC_LOCK sets. Operands: the drum -/
  | syncLock (drum : Fin 2)
  /-- SYNC_MISSING (R412): A sync is missing and is flywheeled; after three, SYNC_LOCK clears. Operands: the drum; the sync before it was missing too -/
  | syncMissing (drum : Fin 2) (again : Bool)
  /-- SEARCH_TIMEOUT (R412): A unit's address is not found within a revolution plus 2 ms, and READ_SYNC occurs. Operands: the drum -/
  | searchTimeout (drum : Fin 2)
  /-- SCAR_BEGIN (R413): Envelope drop and detector error hold for MIN_BITS, and a scar is flagged. Operands: the span of channel bits, with its drum -/
  | scarBegin (span : ScarSpan)
  /-- SCAR_END (R413): A scar condition is absent for MIN_BITS, and the scar ends. Operands: the span of channel bits, with its drum -/
  | scarEnd (span : ScarSpan)
  /-- BLOCK_DECODE (R415): A block's read ends and it is decoded in passes; each sector then takes its check. Operands: the drum; the block's first read -/
  | blockDecode (drum : Fin 2) (block : BlockRead)
  /-- COMBINE_REVOLUTION (R417): A failing block comes round again, is merged by reliability and decoded afresh. Operands: the drum; the block's read on a further revolution -/
  | combineRevolution (drum : Fin 2) (block : BlockRead)
  /-- BLOCK_SKIPPED (R422): A block arrives with no free slot or above the rate limit, and is read on a later revolution. Operands: the drum; the measured channel bit rate in kbit/s -/
  | blockSkipped (drum : Fin 2) (kbps : Nat)
  /-- EQ_RESTORE (R409): READ_EQ_CFG RESTORE returns the equalizer taps to their initial values. Operands: the writer's slot; the drum; the word written to READ_EQ_CFG -/
  | eqRestore (slot : Fin 8) (drum : Fin 2) (value : Nat)
  /-- STK_PROD_WRITE (R427): A STK_PROD write that moves forward within free space takes the new entries and checks them. Operands: the writer's slot; the drum; the word written -/
  | stkProdWrite (slot : Fin 8) (drum : Fin 2) (value : Nat)
  /-- DRUM_TURN (R436): A drum passes its turn to the next grove with pending strokes, coalescing seeks where they lie within SPAN. Operands: the drum; where the turn's first unit needs a seek, the sled target of the lowest address in units -/
  | drumTurn (drum : Fin 2) (seek : Option Int)
  /-- STROKE_READ (R429): A READ stroke starts and reads its sectors into the region. Operands: the drum; where the next unit needs a seek, the sled target in units -/
  | strokeRead (drum : Fin 2) (seek : Option Int)
  /-- READ_TOC (R433): A READ_TOC stroke writes the TOC record. Operands: the drum; the entries of the disc's table of contents -/
  | readToc (drum : Fin 2) (entries : List TocEntry)
  /-- READ_SUBCODE (R429): A READ_SUBCODE stroke writes subcode records. Operands: the drum; the subcode bytes of the next sectors -/
  | readSubcode (drum : Fin 2) (records : List (List Nat))
  /-- STROKE_PLAY_AUDIO (R441): A PLAY_AUDIO stroke reads ahead and feeds the I²S output. Operands: the drum; where the next unit needs a seek, the sled target in units -/
  | strokePlayAudio (drum : Fin 2) (seek : Option Int)
  /-- STROKE_SEEK (R429): A SEEK stroke moves the sled and settles tracking. Operands: the drum; the sled target in units -/
  | strokeSeek (drum : Fin 2) (target : Int)
  /-- SPIN (R435): A SPIN stroke records the grove's demand and waits for the spindle to reach speed. Operands: the drum -/
  | spin (drum : Fin 2)
  /-- TRAY (R438): A TRAY stroke opens or closes the tray. Operands: the drum -/
  | tray (drum : Fin 2)
  /-- IDENTIFY (R432): An IDENTIFY stroke spins up, tries the lasers and writes the identity record. Operands: the drum; how it goes on -/
  | identify (drum : Fin 2) (identity : Identity)
  /-- SPIN_WAIT_TIMEOUT (R435): A stroke waiting 10 s for RUN ends with SOURCE SPIN_START. Operands: the drum -/
  | spinWaitTimeout (drum : Fin 2)
  /-- LASER_IDLE_CLEAR (R434): No disc stroke has been pending for 2 s, and SELECT is cleared. Operands: the drum -/
  | laserIdleClear (drum : Fin 2)
  /-- AUDIO_UNDERRUN (R441): The play buffer runs empty; the output plays zeros and AUDIO_UNDERRUN occurs. Operands: the I²S output -/
  | audioUnderrun (output : Fin 2)
  /-- TEST_UNIT_READY (R444): TEST UNIT READY reports readiness and may issue IDENTIFY. Operands: the slot whose host sends it; the logical unit; the tag; the command's bytes -/
  | testUnitReady (slot : Fin 8) (lun : Fin 16) (tag : Nat) (cdb : List Nat)
  /-- REQUEST_SENSE (R444): REQUEST SENSE returns fixed-format sense data. Operands: the slot whose host sends it; the logical unit; the tag; the command's bytes -/
  | requestSense (slot : Fin 8) (lun : Fin 16) (tag : Nat) (cdb : List Nat)
  /-- INQUIRY (R444): INQUIRY returns a removable type 0x05 device. Operands: the slot whose host sends it; the logical unit; the tag; the command's bytes -/
  | inquiry (slot : Fin 8) (lun : Fin 16) (tag : Nat) (cdb : List Nat)
  /-- START_STOP_UNIT (R444): START STOP UNIT issues a SPIN or TRAY stroke. Operands: the slot whose host sends it; the logical unit; the tag; the command's bytes -/
  | startStopUnit (slot : Fin 8) (lun : Fin 16) (tag : Nat) (cdb : List Nat)
  /-- PREVENT_ALLOW_MEDIUM_REMOVAL (R444): PREVENT ALLOW MEDIUM REMOVAL is recorded with no effect on the tray. Operands: the slot whose host sends it; the logical unit; the tag; the command's bytes -/
  | preventAllowMediumRemoval (slot : Fin 8) (lun : Fin 16) (tag : Nat) (cdb : List Nat)
  /-- READ_CAPACITY_10 (R444): READ CAPACITY(10) returns the last block and 2,048. Operands: the slot whose host sends it; the logical unit; the tag; the command's bytes -/
  | readCapacity10 (slot : Fin 8) (lun : Fin 16) (tag : Nat) (cdb : List Nat)
  /-- READ_10 (R444): READ(10) becomes READ strokes of FORM 0. Operands: the slot whose host sends it; the logical unit; the tag; the command's bytes -/
  | read10 (slot : Fin 8) (lun : Fin 16) (tag : Nat) (cdb : List Nat)
  /-- READ_12 (R444): READ(12) becomes READ strokes of FORM 0. Operands: the slot whose host sends it; the logical unit; the tag; the command's bytes -/
  | read12 (slot : Fin 8) (lun : Fin 16) (tag : Nat) (cdb : List Nat)
  /-- READ_CD (R444): READ CD becomes READ strokes of the form its fields select. Operands: the slot whose host sends it; the logical unit; the tag; the command's bytes -/
  | readCd (slot : Fin 8) (lun : Fin 16) (tag : Nat) (cdb : List Nat)
  /-- SEEK_10 (R444): SEEK(10) becomes a SEEK stroke. Operands: the slot whose host sends it; the logical unit; the tag; the command's bytes -/
  | seek10 (slot : Fin 8) (lun : Fin 16) (tag : Nat) (cdb : List Nat)
  /-- READ_SUB_CHANNEL (R444): READ SUB-CHANNEL becomes a READ_SUBCODE of one sector. Operands: the slot whose host sends it; the logical unit; the tag; the command's bytes -/
  | readSubChannel (slot : Fin 8) (lun : Fin 16) (tag : Nat) (cdb : List Nat)
  /-- READ_TOC_PMA_ATIP (R444): READ TOC/PMA/ATIP formats 0 and 1 come from READ_TOC. Operands: the slot whose host sends it; the logical unit; the tag; the command's bytes -/
  | readTocPmaAtip (slot : Fin 8) (lun : Fin 16) (tag : Nat) (cdb : List Nat)
  /-- PLAY_AUDIO_10 (R444): PLAY AUDIO(10) becomes a PLAY_AUDIO stroke. Operands: the slot whose host sends it; the logical unit; the tag; the command's bytes -/
  | playAudio10 (slot : Fin 8) (lun : Fin 16) (tag : Nat) (cdb : List Nat)
  /-- PLAY_AUDIO_MSF (R444): PLAY AUDIO MSF becomes a PLAY_AUDIO stroke. Operands: the slot whose host sends it; the logical unit; the tag; the command's bytes -/
  | playAudioMsf (slot : Fin 8) (lun : Fin 16) (tag : Nat) (cdb : List Nat)
  /-- GET_CONFIGURATION (R444): GET CONFIGURATION returns the supported profiles and features. Operands: the slot whose host sends it; the logical unit; the tag; the command's bytes -/
  | getConfiguration (slot : Fin 8) (lun : Fin 16) (tag : Nat) (cdb : List Nat)
  /-- GET_EVENT_STATUS_NOTIFICATION (R444): GET EVENT STATUS NOTIFICATION reports the media class, polled only. Operands: the slot whose host sends it; the logical unit; the tag; the command's bytes -/
  | getEventStatusNotification (slot : Fin 8) (lun : Fin 16) (tag : Nat) (cdb : List Nat)
  /-- MODE_SENSE_10 (R444): MODE SENSE(10) returns pages 0x01 and 0x2A. Operands: the slot whose host sends it; the logical unit; the tag; the command's bytes -/
  | modeSense10 (slot : Fin 8) (lun : Fin 16) (tag : Nat) (cdb : List Nat)
  /-- READ_DISC_STRUCTURE (R444): READ DISC STRUCTURE format 0x00 returns DVD physical format information. Operands: the slot whose host sends it; the logical unit; the tag; the command's bytes -/
  | readDiscStructure (slot : Fin 8) (lun : Fin 16) (tag : Nat) (cdb : List Nat)
  /-- SCSI_UNSUPPORTED (R444): Any other SCSI operation code is answered CHECK CONDITION 05/20/00. Operands: the slot whose host sends it; the logical unit; the tag; the command's bytes -/
  | scsiUnsupported (slot : Fin 8) (lun : Fin 16) (tag : Nat) (cdb : List Nat)
  /-- UART_START_EDGE (R451): A falling edge on an idle receiver begins a character, or rings the UART bell in Dormant. Operands: the UART; its input had been high for one bit time -/
  | uartStartEdge (uart : Fin 4) (settled : Bool)
  /-- UART_CHAR_RECEIVED (R452): The stop sample ends a character, which is stored with its flags or handled as address or flow control. Operands: the UART; the samples of the data bits, the parity bit and the first stop bit in line order, empty for a false start -/
  | uartCharReceived (uart : Fin 4) (samples : List Bool)
  /-- UART_CHAR_SENT (R450): The transmitter finishes a character and starts the next, or sets TX_DONE. Operands: the UART; in card mode, an error signal was sampled -/
  | uartCharSent (uart : Fin 4) (errorSignal : Bool)
  /-- UART_TX_WRITE (R453): A write to UART_TX appends to the transmit FIFO, or is dropped when it is full. Operands: the writer's slot; the UART; the word written -/
  | uartTxWrite (slot : Fin 8) (uart : Fin 4) (value : Nat)
  /-- UART_RX_READ (R453): A read of UART_RX removes the oldest entry, or returns VALID 0. Operands: the reader's slot; the UART -/
  | uartRxRead (slot : Fin 8) (uart : Fin 4)
  /-- FLUSH_TX (R469): UART_CMD FLUSH_TX empties the transmit FIFO. Operands: the writer's slot; the UART -/
  | flushTx (slot : Fin 8) (uart : Fin 4)
  /-- FLUSH_RX (R469): UART_CMD FLUSH_RX empties the receive FIFO. Operands: the writer's slot; the UART -/
  | flushRx (slot : Fin 8) (uart : Fin 4)
  /-- UART_CFG_APPLY (R461): Pending UART configuration applies once the receiver and transmitter are idle. Operands: the UART -/
  | uartCfgApply (uart : Fin 4)
  /-- UART_LINE (R468): RX is held low for more than 2 s, and UART_LINE is present. Operands: the UART; its input has been low for more than 2 s -/
  | uartLine (uart : Fin 4) (present : Bool)
  /-- GPIO_OWNER_WRITE (R467): A GPIO_OWNER write moves pins, and their settings return to reset. Operands: the writer's slot; GPIO_OWNER_HI or GPIO_OWNER_LO; the word written -/
  | gpioOwnerWrite (slot : Fin 8) (high : Bool) (value : Nat)
  /-- GPIO_SET (R466): A GPIO_SET write sets the written bits of GPIO_OUT. Operands: the writer's slot; the word written -/
  | gpioSet (slot : Fin 8) (value : Nat)
  /-- GPIO_CLR (R466): A GPIO_CLR write clears the written bits of GPIO_OUT. Operands: the writer's slot; the word written -/
  | gpioClr (slot : Fin 8) (value : Nat)
  /-- GPIO_EDGE (R467): A selected edge on a pin sets its EVENT bit and may set the owner's QUEUE interrupt. Operands: the levels of the sixteen pins -/
  | gpioEdge (levels : Nat)
  /-- TRAINING_ATTEMPT_START (R474): Signal is detected on every lane of the port's width, and a training attempt begins. -/
  | trainingAttemptStart (port : Fin 4)
  /-- TRAINING_STEP_COMPLETE (R474): A training step completes, and the port moves to the next step or TRAINED. -/
  | trainingStepComplete (port : Fin 4)
  /-- TRAINING_STEP_LIMIT (R474): A training step misses its limit or CHECK fails, and LANE_TRAIN occurs. Operands: the port, and the first lane that failed where one is singled out -/
  | trainingStepLimit (port : Fin 4) (lane : Option (Fin 4))
  /-- LANE_REACQUIRED (R475): A lane with saved state re-acquires and runs its CHECK. Operands: the lane, and whether its CHECK passed -/
  | laneReacquired (lane : Fin 4) (ok : Bool)
  /-- CODEWORD_RECEIVED (R477): A codeword is decoded, counting corrected symbols or discarding its slots. Operands: the port, the 544 symbols received in the order sent, and the lane with the most corrected symbols over the preceding 1 ms -/
  | codewordReceived (port : Fin 4) (symbols : List Nat) (worst : Fin 4)
  /-- PAYLOAD (R481): A verified PAYLOAD frame is sequenced, acknowledged and delivered or forwarded. Operands: the port and the slot's 320 bytes -/
  | payload (port : Fin 4) (frame : List Nat)
  /-- CONTROL (R481): A verified CONTROL frame is sequenced and re-enters the spine or is forwarded. Operands: the port and the slot's 320 bytes -/
  | control (port : Fin 4) (frame : List Nat)
  /-- TIME (R510): A TIME frame is timestamped and answered or used to compute the offset. Operands: the port, the slot's 320 bytes, and the timeline count at which its codeword arrived -/
  | timeFrame (port : Fin 4) (frame : List Nat) (arrival : Nat)
  /-- KEEPALIVE (R482): A KEEPALIVE frame carries ACK, NAK, credits and SLEEP. Operands: the port and the slot's 320 bytes -/
  | keepalive (port : Fin 4) (frame : List Nat)
  /-- REPLAY_TIMEOUT (R482): TX_OLDEST has not advanced for REPLAY_US, and outstanding frames are resent. -/
  | replayTimeout (port : Fin 4)
  /-- EPOCH_CHANGE (R486): FC reaches 2^39 and the sender changes to the next EPOCH and key. -/
  | epochChange (port : Fin 4)
  /-- OLD_KEY_RETIRE (R486): 10 µs after the first frame of a new EPOCH, the old key is retired. -/
  | oldKeyRetire (port : Fin 4)
  /-- KEEPALIVE_DUE (R487): An UP port has sent nothing for a KEEPALIVE interval and sends a KEEPALIVE. -/
  | keepaliveDue (port : Fin 4)
  /-- KEEPALIVE_DEADLINE (R487): No verified frame arrives for 10 intervals; TRUNK_KEEPALIVE occurs and the link is lost. -/
  | keepaliveDeadline (port : Fin 4)
  /-- RETRAIN_LIMIT (R487): RETRAINING has not ended within 50 ms, and the link is lost. -/
  | retrainLimit (port : Fin 4)
  /-- WAKE_PATTERN_REPEAT (R489): A port with frames for a sleeping peer sends the wake pattern every 100 µs. -/
  | wakePatternRepeat (port : Fin 4)
  /-- ERROR_RATE_SECOND (R477): Each second a lane's corrected symbols are compared with ERR_LIMIT × 1,000. -/
  | errorRateSecond (lane : Fin 4)
  /-- RETRAIN (R493): TRUNK_CMD RETRAIN causes a link loss on the port. -/
  | retrain (slot : Fin 8) (port : Fin 4)
  /-- RESET_LANE (R493): TRUNK_CMD RESET_LANE clears a lane's FAILED state. -/
  | resetLane (slot : Fin 8) (lane : Fin 4)
  /-- HELLO_FRAME (R500): A verified HELLO that echoes the port's nonce keys the port. Operands: the port and the slot's 320 bytes -/
  | helloFrame (port : Fin 4) (frame : List Nat)
  /-- LINKS (R501): A flooded LINKS frame updates routes and is forwarded. Operands: the port and the slot's 320 bytes -/
  | links (port : Fin 4) (frame : List Nat)
  /-- JOIN (R502): A flooded JOIN frame lets the crown decide the member's state. Operands: the port and the slot's 320 bytes -/
  | join (port : Fin 4) (frame : List Nat)
  /-- ANNOUNCE (R503): A flooded ANNOUNCE frame carries the masks that move the member's state. Operands: the port and the slot's 320 bytes -/
  | announce (port : Fin 4) (frame : List Nat)
  /-- HELLO_TIMER (R500): A TRAINED port sends HELLO every 10 ms. -/
  | helloTimer (port : Fin 4)
  /-- JOIN_TIMER (R499): Each member floods JOIN every 10 ms. -/
  | joinTimer
  /-- ANNOUNCE_TIMER (R499): The crown floods ANNOUNCE every 10 ms. -/
  | announceTimer
  /-- LINKS_TIMER (R499): Each member floods LINKS every 100 ms. -/
  | linksTimer
  /-- JOIN_EXPIRY (R502): A member with no JOIN for 100 ms is cleared from the masks. -/
  | joinExpiry (member : Fin 8)
  /-- ROUTE_EXPIRY (R501): A member's LINKS are absent 300 ms and its route is lost. -/
  | routeExpiry (member : Fin 8)
  /-- TIME_REQUEST_TIMER (R510): Every 1 ms a non-crown member sends a TIME REQUEST on its parent port. -/
  | timeRequestTimer
  /-- CROWN_LOST (R512): No route to the crown for 10 ms or no ANNOUNCE for 50 ms; STACK_CROWN_LOST occurs. -/
  | crownLost
  /-- EXPEL (R517): STACK_CMD EXPEL adds a member to the crown's expel set. -/
  | expel (slot : Fin 8) (member : Fin 8)
  /-- ADMIT (R517): STACK_CMD ADMIT removes a member from the expel set. -/
  | admitMember (slot : Fin 8) (member : Fin 8)
  /-- LEAVE (R517): STACK_CMD LEAVE on a quarantined member performs a warm restart. -/
  | leave (slot : Fin 8)
  /-- TRUNK_STROKE_REQUEST (R17): A stroke request from another member runs on the drum, or returns its ledger tally. -/
  | trunkStrokeRequest
  /-- REGION_COPY (R490): A region copy request writes its PAYLOAD frames to the destination region. -/
  | regionCopy
  /-- FENCE (R515): A FENCE request sets the issuer's fence, so older unstarted requests are refused. -/
  | fence
  /-- QUERY (R515): A QUERY request asks the executor for an outstanding request's outcome. -/
  | query
  /-- ANSWER (R515): An ANSWER request delivers FOUND or NOT_RUN, and the issuer writes the second tally. -/
  | answer
  /-- USB_PACKET_REQUEST (R507): A KIND 0x06 request carries one USB packet between root and remote tile. -/
  | usbPacketRequest
  /-- UNIT_ACK (R508): A UNIT_ACK request marks a remote stroke unit done at the executor. -/
  | unitAck
  /-- RELINK (R515): An issuer regains a route to an executor with outstanding requests and starts fence and queries. Operands: the executor -/
  | relink (member : Fin 8)
  /-- STACK_INFO (R518): STACK_INFO returns STACK_SELF, STACK_MEMBERS and STACK_TIME. -/
  | stackInfo (slot : Fin 8)
  /-- SECRET_SET (R518): SECRET_SET writes the stack secret record with the next VERSION. -/
  | secretSet (slot : Fin 8)
  /-- MEMBER_INFO (R518): MEMBER_INFO returns what was last heard from a member. -/
  | memberInfo (slot : Fin 8)
  /-- LATCHED_LOW_READ (R130): A read of METRO_COUNT_LO or STACK_TL_LO latches the high word for the next read. Operands: the slot; STACK_TL_LO rather than METRO_COUNT_LO -/
  | latchedLowRead (slot : Fin 8) (timeline : Bool)
  /-- REGISTER_READ (R5): A grove reads a register: an RC field returns its value and clears, and a refused read returns zero and sets ACCESS_REFUSED. Operands: the slot's packet with its address, or the port and window offset; how many bytes a window access reads, 1 or 2 -/
  | registerRead (path : RegPath) (count : Nat)
  /-- ATOMIC_REGISTER_READ (R244): A bus read of byte 0 of an atomic window register copies all 32 bits into the read hold, and reads of bytes 1 to 3 return the hold. Operands: the port; the window offset; how many bytes the access reads, 1 or 2 -/
  | atomicRegisterRead (port : Fin 2) (offset count : Nat)
  /-- HW_RAM_CE (R153): A single-bit error in Heartwood RAM is corrected and sets source 21. -/
  | hwRamCe
  /-- RNG_HEALTH_FAILURE (R180): The random source fails its health test, and RNG_HEALTH (source 29) is present. Operands: whether the random source fails its health test now -/
  | rngHealthFailure (present : Bool)
  /-- RBP_DRIVER_FAULT (R200): An output driver's monitor of a Retro Bus Port reports a fault, and RBP_DRIVER is present and prunes the port. Operands: an output driver's monitor reports a fault, or no longer does -/
  | rbpDriverFault (port : Fin 2) (present : Bool)
  /-- SLED_PHASE_FAULT (R343): A sled phase reads open or shorted, and SLED_DRIVER is present, which cuts the sled. Operands: the drum; a phase reads open or shorted now -/
  | sledPhaseFault (drum : Fin 2) (present : Bool)
  /-- TRAY_CURRENT_LIMIT (R343): The tray bridge enters its 600 mA current limit, an occurrence of TRAY_MOTOR. Operands: the drum -/
  | trayCurrentLimit (drum : Fin 2)
  /-- TILE_PHY_FAULT (R200): A tile's PHY self-test or LC synthesizer lock fails, and TILE_PHY occurs and prunes the tile. -/
  | tilePhyFault (tile : Fin 14)
  /-- LANE_SIGNAL_LOSS (R477): A trunk lane loses signal or clock lock, an occurrence of LANE_SIGNAL that sends its port to RETRAINING. -/
  | laneSignalLoss (lane : Fin 4)
  /-- FOREIGN_VBUS (R322): VBUS appears on a DOWN tile that is IDLE or QUEUED; the gate stays open and TILE_REVERSE occurs every 650 ms while present. Operands: VBUS in mV -/
  | foreignVbus (tile : Fin 14) (vbus : Nat)
  /-- TEST_EN_CHANGE (R532): TEST_EN changes level; while high the Olulo acts as if RESET_N were low, and its fall resumes the start. -/
  | testEnChange (high : Bool)
  /-- DBG_TRST_N_CHANGE (R532): DBG_TRST_N changes level, holding or releasing the debug port and setting DOMAIN_140's unit request for condition 7. -/
  | dbgTrstNChange (high : Bool)
  /-- STANDARD_REQUEST (R265): The host sends a standard request to the virtual hub, such as SET_CONFIGURATION, SET_INTERFACE for the TT alternate, or SET_FEATURE DEVICE_REMOTE_WAKEUP. Operands: the hub's slot; the USB 2.0 or the SuperSpeed part of the hub, or the device function; the request -/
  | standardRequest (slot : Fin 8) (part : UsbPart) (request : UsbRequest)
  /-- ACCEPT_REJECT_RECEIVED (R311): An UP tile receives Accept or Reject to its Request; a Reject of the fixed request is a TILE_PD occurrence and condition 6 stays failed. Operands: the UP tile; the answer -/
  | acceptRejectReceived (tile : Fin 14) (answer : PdAnswer)
  /-- GOODCRC_RECEIVED (R314): A tile receives GoodCRC for a message it sent, ending the repeats of Source_Capabilities or the retries. Operands: the tile -/
  | goodcrcReceived (tile : Fin 14)
  /-- PD_GET_MESSAGE (R305): The partner sends Get_Source_Cap, Get_Sink_Cap, Get_PPS_Status or Get_Source_Cap_Extended, and the tile answers with the requested data. Operands: the tile; the message; the partner is Revision 3.x -/
  | pdGetMessage (tile : Fin 14) (ask : PdGet) (rev3 : Bool)
  /-- SOFT_RESET_RECEIVED (R305): A tile receives Soft_Reset from its partner and resets its protocol state. Operands: the tile -/
  | softResetReceived (tile : Fin 14)
  /-- AUDIO_SECTOR_OUT (R441): A buffered sector's last sample leaves the I²S output at 75 sectors per second, advancing AUD_POS and completing a PLAY_AUDIO unit. Operands: the I²S output -/
  | audioSectorOut (output : Fin 2)
deriving DecidableEq, Repr

end Sys2Proof
end

