-- ==== Sys2Proof/Machine/Hash.lean ====
section
/-! DEFINITION. The standard functions the manual names: SHA-256, CRC-32 of IEEE 802.3 (R64), and the SECDED codes of
R76 and R87. -/
namespace Sys2Proof.Machine

def rotr32 (x n : Nat) : Nat := (x / 2 ^ n) ||| (x * 2 ^ (32 - n) % 2 ^ 32)

def sha256K : List Nat :=
  [0x428a2f98, 0x71374491, 0xb5c0fbcf, 0xe9b5dba5, 0x3956c25b, 0x59f111f1, 0x923f82a4, 0xab1c5ed5,
   0xd807aa98, 0x12835b01, 0x243185be, 0x550c7dc3, 0x72be5d74, 0x80deb1fe, 0x9bdc06a7, 0xc19bf174] ++
  [0xe49b69c1, 0xefbe4786, 0x0fc19dc6, 0x240ca1cc, 0x2de92c6f, 0x4a7484aa, 0x5cb0a9dc, 0x76f988da,
   0x983e5152, 0xa831c66d, 0xb00327c8, 0xbf597fc7, 0xc6e00bf3, 0xd5a79147, 0x06ca6351, 0x14292967] ++
  [0x27b70a85, 0x2e1b2138, 0x4d2c6dfc, 0x53380d13, 0x650a7354, 0x766a0abb, 0x81c2c92e, 0x92722c85,
   0xa2bfe8a1, 0xa81a664b, 0xc24b8b70, 0xc76c51a3, 0xd192e819, 0xd6990624, 0xf40e3585, 0x106aa070] ++
  [0x19a4c116, 0x1e376c08, 0x2748774c, 0x34b0bcb5, 0x391c0cb3, 0x4ed8aa4a, 0x5b9cca4f, 0x682e6ff3,
   0x748f82ee, 0x78a5636f, 0x84c87814, 0x8cc70208, 0x90befffa, 0xa4506ceb, 0xbef9a3f7, 0xc67178f2]

def sha256Init : List Nat :=
  [0x6a09e667, 0xbb67ae85, 0x3c6ef372, 0xa54ff53a, 0x510e527f, 0x9b05688c, 0x1f83d9ab, 0x5be0cd19]

/-- The 16 big-endian words of a 64-byte block. -/
def blockWords : Nat → List Nat → List Nat
  | 0, _ => []
  | n + 1, bs => beVal (bs.take 4) :: blockWords n (bs.drop 4)

/-- The message schedule, newest word first: `n` further words after the ones in `w`. -/
def shaSchedule : Nat → List Nat → List Nat
  | 0, w => w
  | n + 1, w =>
    let a := w.getD 14 0
    let b := w.getD 1 0
    let s0 := rotr32 a 7 ^^^ rotr32 a 18 ^^^ a / 2 ^ 3
    let s1 := rotr32 b 17 ^^^ rotr32 b 19 ^^^ b / 2 ^ 10
    shaSchedule n ((w.getD 15 0 + s0 + w.getD 6 0 + s1) % 2 ^ 32 :: w)

def shaRound (v : List Nat) (kw : Nat × Nat) : List Nat :=
  let a := v.getD 0 0
  let b := v.getD 1 0
  let c := v.getD 2 0
  let e := v.getD 4 0
  let f := v.getD 5 0
  let g := v.getD 6 0
  let s1 := rotr32 e 6 ^^^ rotr32 e 11 ^^^ rotr32 e 25
  let ch := (e &&& f) ^^^ ((e ^^^ 0xFFFFFFFF) &&& g)
  let t1 := v.getD 7 0 + s1 + ch + kw.1 + kw.2
  let s0 := rotr32 a 2 ^^^ rotr32 a 13 ^^^ rotr32 a 22
  let mj := (a &&& b) ^^^ (a &&& c) ^^^ (b &&& c)
  [(t1 + s0 + mj) % 2 ^ 32, a, b, c, (v.getD 3 0 + t1) % 2 ^ 32, e, f, g]

def shaBlock (h : List Nat) (bs : List Nat) : List Nat :=
  let w := (shaSchedule 48 (blockWords 16 bs).reverse).reverse
  let v := (sha256K.zip w).foldl shaRound h
  List.zipWith (fun x y => (x + y) % 2 ^ 32) h v

def shaBlocks : Nat → List Nat → List Nat → List Nat
  | 0, h, _ => h
  | n + 1, h, bs => shaBlocks n (shaBlock h (bs.take 64)) (bs.drop 64)

/-- SHA-256 of a byte list, as 32 bytes in hash order. -/
def sha256 (m : List Nat) : List Nat :=
  let pad := (119 - m.length % 64) % 64
  let bs := m ++ 0x80 :: List.replicate pad 0 ++ beBytes 8 (8 * m.length)
  (shaBlocks (bs.length / 64) sha256Init bs).flatMap (beBytes 4)

def crcBit (c : Nat) : Nat → Nat
  | 0 => c
  | n + 1 => crcBit (if c % 2 = 1 then c / 2 ^^^ 0xEDB88320 else c / 2) n

/-- CRC-32 with the reflected polynomial 0x04C11DB7, initial value and final XOR 0xFFFFFFFF (R64). -/
def crc32 (bs : List Nat) : Nat :=
  bs.foldl (fun c b => crcBit (c ^^^ (b % 256)) 8) 0xFFFFFFFF ^^^ 0xFFFFFFFF

/-- Parity of the bits of `x` below `n`. -/
def parity : Nat → Nat → Nat
  | 0, _ => 0
  | n + 1, x => (x % 2 + parity n (x / 2)) % 2

/-- The code positions of the data bits: the numbers from 1 that are not powers of two, `n` positions looked at. -/
def dataPositions (n : Nat) : List Nat := (List.range' 1 n).filter (fun p => p &&& (p - 1) ≠ 0)

/-- The XOR of the positions of the set data bits: C[r-1:0] of R76 (71 positions) and R87 (575 positions). -/
def syndromeOf (n x : Nat) : Nat :=
  ((dataPositions n).zipIdx).foldl (fun a e => if bit x e.2 then a ^^^ e.1 else a) 0

/-- The check bits of `k` data bits: `r` position bits, then the parity of data and position bits on top. -/
def secdedCheck (n k r x : Nat) : Nat :=
  let c := syndromeOf n x
  c + 2 ^ r * ((parity k x + parity r c) % 2)

/-- What a decoder finds in a code word. -/
inductive EccResult where
  | clean (data : Nat)
  | corrected (data : Nat)
  | uncorrectable
deriving DecidableEq, Repr

/-- Decode `k` data bits and `r + 1` check bits over `n` positions: one wrong bit is put right, two are found. -/
def secdedDecode (n k r data check : Nat) : EccResult :=
  let syn := syndromeOf n data ^^^ check % 2 ^ r
  let odd := (parity k data + parity (r + 1) check) % 2
  if syn = 0 ∧ odd = 0 then .clean data
  else if odd = 0 then .uncorrectable
  else if syn &&& (syn - 1) = 0 then .corrected data
  else match (dataPositions n).findIdx? (· == syn) with
    | some d => .corrected (data ^^^ 2 ^ d)
    | none => .uncorrectable

/-- The 72-bit beat that carries 64 data bits (R76). -/
def beatOf (data : Nat) : Nat := data % 2 ^ 64 + 2 ^ 64 * secdedCheck 71 64 7 (data % 2 ^ 64)

/-- The data of a 72-bit beat (R76). -/
def beatDecode (b : Nat) : EccResult := secdedDecode 71 64 7 (b % 2 ^ 64) (b / 2 ^ 64 % 256)

end Sys2Proof.Machine
end

