-- ==== Sys2Proof/Machine/Aes.lean ====
section
/-! DEFINITION. AES-256 (FIPS 197), GHASH and GCM (NIST SP 800-38D), and HMAC-SHA-256, the standard primitives that the
memory engine, the trunk engine and the stack controller apply (R88, R89, R485, R500). Blocks are 16-byte lists. -/
namespace Sys2Proof.Machine

/-- Multiplication by x in GF(2^8). -/
def xtime (a : Nat) : Nat := if a < 128 then 2 * a else (2 * a - 256) ^^^ 0x1B
/-- Multiplication in GF(2^8): `n` bits of the second factor. -/
def gmul : Nat → Nat → Nat → Nat
  | 0, _, _ => 0
  | n + 1, a, b => (if b % 2 = 1 then a else 0) ^^^ gmul n (xtime a) (b / 2)
def gpow (a : Nat) : Nat → Nat
  | 0 => 1
  | n + 1 => gmul 8 a (gpow a n)
def rotl8 (x k : Nat) : Nat := x * 2 ^ k % 256 ||| x / 2 ^ (8 - k)
/-- The S-box: inverse (a^254) and affine map. -/
def sbox (a : Nat) : Nat :=
  let a2 := gmul 8 a a
  let a3 := gmul 8 a2 a
  let a6 := gmul 8 a3 a3
  let a12 := gmul 8 a6 a6
  let a15 := gmul 8 a12 a3
  let a30 := gmul 8 a15 a15
  let a60 := gmul 8 a30 a30
  let a120 := gmul 8 a60 a60
  let a240 := gmul 8 a120 a120
  let b := gmul 8 (gmul 8 a240 a12) a2
  b ^^^ rotl8 b 1 ^^^ rotl8 b 2 ^^^ rotl8 b 3 ^^^ rotl8 b 4 ^^^ 0x63

def xorBytes (a b : List Nat) : List Nat := (a.zip b).map (fun p => p.1 ^^^ p.2)

/-- One word of the key schedule appended to the words so far, newest first. -/
def keyWord (ws : List (List Nat)) (i : Nat) : List (List Nat) :=
  let prev := ws.headD []
  let t :=
    if i % 8 = 0 then
      let r := (prev.drop 1 ++ prev.take 1).map sbox
      xorBytes r [gpow 2 (i / 8 - 1), 0, 0, 0]
    else if i % 8 = 4 then prev.map sbox else prev
  xorBytes (ws.getD 7 []) t :: ws
/-- The sixty words of the AES-256 key schedule. -/
def keySchedule (key : List Nat) : List (List Nat) :=
  let w0 := ((List.range 8).map (fun i => (key.drop (4 * i)).take 4)).reverse
  ((List.range' 8 52).foldl keyWord w0).reverse
def roundKey (ws : List (List Nat)) (r : Nat) : List Nat := ((ws.drop (4 * r)).take 4).flatten

def shiftRows (b : List Nat) : List Nat :=
  (List.range 16).map (fun i => b.getD ((i + 4 * (i % 4)) % 16) 0)
def mixColumn (c : List Nat) : List Nat :=
  let a := fun i => c.getD (i % 4) 0
  (List.range 4).map (fun i => xtime (a i) ^^^ (xtime (a (i + 1)) ^^^ a (i + 1)) ^^^ a (i + 2) ^^^ a (i + 3))
def mixColumns (b : List Nat) : List Nat := (List.range 4).flatMap (fun i => mixColumn ((b.drop (4 * i)).take 4))
def aesRound (ws : List (List Nat)) (b : List Nat) (r : Nat) : List Nat :=
  let t := shiftRows (b.map sbox)
  xorBytes (if r = 14 then t else mixColumns t) (roundKey ws r)
/-- AES-256 of one block under an expanded key. -/
def aesBlock (ws : List (List Nat)) (b : List Nat) : List Nat :=
  (List.range' 1 14).foldl (aesRound ws) (xorBytes b (roundKey ws 0))
/-- AES-256 of one block. -/
def aes256 (key b : List Nat) : List Nat := aesBlock (keySchedule key) b

/-- Multiplication in GF(2^128) with the bit order of GHASH; blocks as 128-bit big-endian numbers. -/
def ghashMulGo (y : Nat) : Nat → Nat → Nat → Nat
  | 0, _, z => z
  | n + 1, v, z =>
    ghashMulGo y n (if v % 2 = 1 then v / 2 ^^^ 0xE1000000000000000000000000000000 else v / 2)
      (if bit y n then z ^^^ v else z)
def ghashMul (x y : Nat) : Nat := ghashMulGo y 128 x 0
/-- GHASH over whole blocks. -/
def ghash (h : Nat) (blocks : List Nat) : Nat := blocks.foldl (fun a x => ghashMul (a ^^^ x) h) 0

/-- The 16-byte blocks of a byte string, the last padded with zeros. -/
def blocksOf (bs : List Nat) : List (List Nat) :=
  (List.range ((bs.length + 15) / 16)).map (fun i =>
    let b := (bs.drop (16 * i)).take 16
    b ++ List.replicate (16 - b.length) 0)

/-- AES-256-GCM with a 12-byte nonce: ciphertext (or plaintext, on decryption) of `data`. -/
def gcmCrypt (key nonce data : List Nat) : List Nat :=
  let ws := keySchedule key
  xorBytes data ((List.range ((data.length + 15) / 16)).flatMap (fun i => aesBlock ws (nonce ++ beBytes 4 (i + 2))))
/-- The 16-byte GCM tag over additional data and ciphertext. -/
def gcmTag (key nonce aad cipher : List Nat) : List Nat :=
  let ws := keySchedule key
  let h := beVal (aesBlock ws (List.replicate 16 0))
  let len := beBytes 8 (8 * aad.length) ++ beBytes 8 (8 * cipher.length)
  let s := ghash h ((blocksOf aad ++ blocksOf cipher).map beVal ++ [beVal len])
  xorBytes (beBytes 16 s) (aesBlock ws (nonce ++ [0, 0, 0, 1]))

/-- HMAC-SHA-256 (FIPS 198-1) for keys of up to 64 bytes. -/
def hmac (key msg : List Nat) : List Nat :=
  let k := key ++ List.replicate (64 - key.length) 0
  sha256 (k.map (· ^^^ 0x5C) ++ sha256 (k.map (· ^^^ 0x36) ++ msg))

end Sys2Proof.Machine
end

