-- ==== Sys2Proof/Config.lean ====
section
/-! DEFINITION. What one part fixes and the manual does not: free values, as constants with no body. Nothing in Lean can
evaluate them, so a claim holds whatever they are. -/
namespace Sys2Proof

/-- The n-th value drawn where the manual names a value and not what it is: a key of the random source, a nonce, a
START_ID, a signature byte. `State.freeCtr` counts the draws. -/
opaque Config.freeValue : Nat → Nat
/-- SHA-256 of the boot ROM's contents, as a 256-bit number (Table 08-6): Brixlum publishes RING_0 for each stepping. -/
opaque Config.romDigest : Nat
/-- The attestation key of the part, held in one-time storage, as a 256-bit number (R170). -/
opaque Config.attestKey : Nat
/-- Length, 0 when none is stored, and bytes of the attestation certificate (R170, R180). -/
opaque Config.certLength : Nat
opaque Config.certByte : Nat → Nat
/-- Which size from 16 to 64 MiB the flash device has (R155). -/
opaque Config.flashSize : Nat
/-- A settings partition's defaults by FORMAT and offset (R177): the firmware's. -/
opaque Config.settingsDefault : Nat → Nat → Nat
/-- idVendor + 2^16 idProduct of a firmware VERSION (R263): Brixlum lists them with each release. -/
opaque Config.hubId : Nat → Nat

/-- What the tables of EFM (a 14-bit word) and of EFM+ (a 16-bit word and the word after it, which tells the state) give;
none for a word that the table does not contain (R411: IEC 60908, ECMA-267). -/
opaque Config.efm : Nat → Option Nat
opaque Config.efmPlus : Nat → Nat → Option Nat
/-- CIRC's interleave (R415: IEC 60908): the place in a CD block of symbol i of C1 word j, of symbol i of C2 word j, and of
byte i of the sector. -/
opaque Config.c1Place : Nat → Nat → Nat
opaque Config.c2Place : Nat → Nat → Nat
opaque Config.cdPlace : Nat → Nat
/-- Byte i of the sequence that scrambles the user data of the DVD sector with a given number (R419: ECMA-267). -/
opaque Config.dvdScramble : Nat → Nat → Nat

end Sys2Proof
end

