-- ==== Sys2Proof/Machine/State.lean ====
section
/-! DEFINITION. The state of the Olulo as plain data: every register (by field, in `regs`), every memory, queue,
sequencer and pin that spec/ gives it, the queue of waiting commands, and `State.reset`. -/
namespace Sys2Proof.Machine

/-- Access codes (Table 00-3). -/
inductive Acc where
  | ro | rw | wo | w1c | w1s | rc | rwl
deriving DecidableEq, Repr

/-- One register field: its bank (the local slot of a banked block, 0 elsewhere; 16 + p for the window of RBP_p),
word address, lowest bit, width, access code and reset value. -/
structure Fld where
  bank : Nat
  addr : Nat
  lo : Nat
  width : Nat
  acc : Acc
  reset : Nat
deriving DecidableEq, Repr

/-- The number under which a field is held in `State.regs`. -/
def Fld.key (f : Fld) : Nat := (f.bank * 2 ^ 32 + f.addr) * 32 + f.lo

/-- Faults: the manual says of no command that it stops the machine (R3, "Completeness" of chapter 00), so a fault is
the model's own stop. -/
inductive Fault where
  /-- Raised by no meaning: kept so that the outcome type is inhabited on this side. Safe. -/
  | none
deriving DecidableEq, Repr

/-- Refusals. -/
inductive Refusal where
  /-- Raised by an arm of `exec` whose command has no meaning yet. Safe. -/
  | notModelled (mnemonic : String)
deriving DecidableEq, Repr

/-- A tally (Table 10-9). `firstFailed` 0xFFFFFFFF is none. -/
structure Tally where
  workId : Nat
  status : Nat
  kind : Nat
  grove : Nat
  flags : Nat
  requested : Nat
  done : Nat
  firstFailed : Nat
  source : Nat
  retries : Nat
  depth : Nat
  doneMap : Nat
deriving DecidableEq, Repr

/-- The tallies of one slot at one producer (R66): the one sent and not acknowledged, those waiting, the number of the
one sent, and its resends. -/
structure TallyQ where
  sent : Option Tally
  waiting : List Tally
  num : Nat
  resends : Nat
deriving DecidableEq, Repr

def TallyQ.reset : TallyQ := ⟨none, [], 0, 0⟩

/-- One record of a Canopy stream section (R24 to R26): the section's type and member, the record's byte offset, its bytes. -/
structure Rec where
  ty : Nat
  member : Nat
  off : Nat
  body : List Nat
deriving DecidableEq, Repr

/-- One section header (Table 02-3) with its offset. -/
structure Sect where
  off : Nat
  ty : Nat
  member : Nat
  size : Nat
  count : Nat
  resv : Nat
deriving DecidableEq, Repr

/-- A parsed Canopy stream (chapter 02): header fields, sections, records, and the stored digest's bytes. -/
structure Stream where
  length : Nat
  required : Nat
  flags : Nat
  sections : Nat
  sects : List Sect
  recs : List Rec
  digest : List Nat
deriving DecidableEq, Repr

/-- The loader's command under way (R20). -/
inductive LoadOp where
  | idle | start | check | load
deriving DecidableEq, Repr

/-- A flash service request held while a check reads its area (R38): slot, erase or write, flash address, bytes. -/
structure HeldFlash where
  slot : Nat
  erase : Bool
  addr : Nat
  data : List Nat
deriving DecidableEq, Repr

/-- A keeping-store write that fell due while DOMAIN_018 was OFF (R205, R207). -/
inductive Deferred where
  | prune (source code : Nat)
  | recovery (source : Nat)
deriving DecidableEq, Repr


/-- Where a register access comes from: a slot's host, its console, word k of a vendor request (R267), or another member
with its request number (R505). -/
inductive AccVia where
  | slot | console | usb (k : Nat) | member (m id : Nat)
deriving DecidableEq, Repr

/-- A register access that waits for a HELD rail (R554): slot, address, the value and byte enables of a write, and where it
comes from. -/
structure HeldAcc where
  slot : Nat
  addr : Nat
  write : Option (Nat × Nat)
  via : AccVia
deriving DecidableEq, Repr

/-- What SEAL holds of a region beside its registers (R85, R98 to R103): the two key slots (AES key, hash key), whether
its keys are still to be drawn, the work ID of the running or waiting re-key, and its first poisoned page with the source. -/
structure SealRegion where
  oldKey : Nat
  oldHash : Nat
  newKey : Nat
  newHash : Nat
  needsKeys : Bool
  job : Option Nat
  poisonPage : Nat
  poisonSource : Nat
deriving DecidableEq, Repr

def SealRegion.reset : SealRegion := ⟨0, 0, 0, 0, false, none, 0xFFFFFFFF, 0⟩

/-- A memory access that waits for a page job (R96): originator's port, slot and request number, the address from which
it goes on, the bytes still to write (or how many to read), what was read so far, the first error's source so far, and
whether its first line is written over a failed one (R95). -/
structure MemAccess where
  port : Nat
  slot : Nat
  id : Nat
  write : Bool
  addr : Nat
  len : Nat
  data : List Nat
  got : List Nat
  err : Nat
  force : Bool
deriving DecidableEq, Repr

/-- A page job under way (R96) and the accesses it holds, in arrival order. -/
structure PageJob where
  page : Nat
  held : List MemAccess
deriving DecidableEq, Repr

/-- Recovery mode's own state (R172, R173): the DFU state (2 dfuIDLE, 5 dfuDNLOAD-IDLE, 10 dfuERROR) and status, the
alternate setting, the stream's next offset, the bytes of alternate 2; who wrote the flash first (0 none, 1 DFU, 2
seed-drop); the SEQ last acknowledged; the seed-drop download's slot, next offset and total length; the bytes of a frame
that is not yet whole. -/
structure Recovery where
  state : Nat
  status : Nat
  alt : Nat
  next : Nat
  word : List Nat
  holder : Nat
  seedLast : Option Nat
  drop : Option (Nat × Nat × Nat)
  heard : List Nat
deriving DecidableEq, Repr

def Recovery.reset : Recovery := ⟨2, 0, 0, 0, [], 0, none, none, []⟩

/-- What a tempo sequencer holds beside its registers (R124, R125): the voltage tempo v; the tempo the step under way
leads to; its wait (0 none, 1 for PGOOD, 2 for TEMPO_SETTLE); what HELD interrupted (0 not held, 1 the relock of a clock
step, 2 a raise, 3 anything else), or 4 on a rail that a wake has not made ready (R127); and the VID code before Dormant (R127). -/
structure Rail where
  v : Nat
  aim : Nat
  wait : Nat
  held : Nat
  preVid : Nat
deriving DecidableEq, Repr

/-- A rail at power good: the drums at 0, VDD_CORE at 1 (R123). -/
def Rail.reset (r : Nat) : Rail := ⟨if r = 0 then 1 else 0, 0, 0, 0, 0⟩

/-- An entry into Dormant under way or complete (R137 to R142): the tick at which point 1 began, the domains that were ON,
whether it is being unwound, whether the action of the point under way has begun (its waits are over and its domains fall), the
domains that the entry keeps down with the point that took each, and the next point that an unwind or a wake reverses. -/
structure Entry where
  tick : Nat
  onBefore : List Nat
  unwinding : Bool
  begun : Bool
  down : List (Nat × Nat)
  undo : Nat
deriving DecidableEq, Repr

/-- An entry whose point 1 begins. -/
def Entry.start (tick : Nat) (on : List Nat) : Entry := ⟨tick, on, false, false, [], 0⟩

/-- What a Retro Bus Port issues to the spine, in order (R246): a REG_READ of IND_ADDR (for a direct read, whether its
access still waits), a REG_WRITE with its byte enables, a write-through of bytes of one 64-byte line of a region (byte
offset and value, in ascending order), a fill of the paged view (region and unit), a clear of GROVE_IRQ_STATUS bits, a doorbell's
traffic, the start of a DMA, an access that has gone to another member and has no answer yet (R505), or one whose answer a
restart has made void (R257). -/
inductive Issue where
  | regRead (addr : Nat) (direct waits : Bool)
  | regWrite (addr byteEn value : Nat)
  | through (region : Nat) (bytes : List (Nat × Nat))
  | fill (region unit : Nat)
  | irqClear (bits : Nat)
  | door
  | dmaStart
  | remote (write direct waits : Bool)
  | void
deriving DecidableEq, Repr

/-- An access of the period machine that waits (R240): a paged-view write, an IND_DATA commit, a WIN_IRQ write, or a
direct read of so many bytes (R236). -/
inductive BusWait where
  | view (off : Nat) (data : List Nat)
  | commit (byteEn value : Nat)
  | irq (bits : Nat)
  | read (count : Nat)
deriving DecidableEq, Repr

/-- A doorbell under way (R249, R250): OP, TARGET, COUNT, FIRST and the slots staged at the commit. -/
structure Door where
  op : Nat
  target : Nat
  count : Nat
  first : Nat
  staged : List Nat
deriving DecidableEq, Repr

/-- A DMA as its GO found the registers (R254): DMA_HOST, region, offset, length, direction (true: host to region), NOTIFY, TAG
and DMA_DONE_ADDR. -/
structure DmaJob where
  host : Nat
  region : Nat
  offset : Nat
  len : Nat
  dir : Bool
  notify : Bool
  tag : Nat
  done : Nat
deriving DecidableEq, Repr

/-- What a Retro Bus Port holds beside its registers: the write hold (register offset, bytes by index), the read hold
(R244), what is still to be issued (R246), the access that waits (R240), the doorbell under way, the DMA's
phase (0 none, 1 bus requested, 2 mastering, 3 released, 4 waiting out a backoff, 5 waiting for its turn in what is issued),
whether a change to the stream's MODE is due (R188), the DMA under way, the cycles of its burst (R258), the bytes staged for a
burst towards the host and whether the line after them failed (R255), and the levels of IRQ_N and NMI_N that stand from entry
point 1 to Active (R257). -/
structure Rbp where
  tag : Nat
  held : List (Nat × Nat)
  readHold : Nat
  issues : List Issue
  waiting : Option BusWait
  door : Option Door
  dma : Nat
  toServe : Bool
  job : DmaJob
  cycles : Nat
  staged : List Nat
  failed : Bool
  outputs : Bool × Bool
deriving DecidableEq, Repr

def Rbp.reset : Rbp := ⟨0, [], 0, [], none, none, 0, false, ⟨0, 0, 0, 0, false, false, 0, 0⟩, 0, [], false, (false, false)⟩

/-- What a hub port holds beside HUB_PORT_k (R265, R269, R273, R276): the change bits the host reads (connection, reset,
over-current, suspend, link state, warm reset), its U1 and U2 timers, its remote wake mask, FORCE_LINKPM_ACCEPT, its test mode, the
reset under way (0 none, 1 USB 2.0, 2 warm or hot), whether it was suspended on its own, its link errors, and whether
receiver detection has ended and the USB 2.0 lines are watched (R268). -/
structure HubPort where
  cConn : Bool
  cReset : Bool
  cOver : Bool
  cSuspend : Bool
  cLink : Bool
  cWarm : Bool
  u1 : Nat
  u2 : Nat
  wakeMask : Nat
  linkpm : Bool
  test : Nat
  resetting : Nat
  selective : Bool
  errors : Nat
  watch : Bool
  failed : Nat
deriving DecidableEq, Repr

def HubPort.reset : HubPort := ⟨false, false, false, false, false, false, 0, 0, 0, false, 0, 0, false, 0, false, 0⟩

/-- What the host has told one USB device of a virtual hub, the hub itself or its device function (R265, R266): its address,
whether it is configured, the alternate of its interface 0, the exit latencies of SET_SEL, the isochronous delay,
whether its links may ask for U1 and U2, its halted endpoints, and whether its function is suspended by FUNCTION_SUSPEND. -/
structure UsbDev where
  address : Nat
  configured : Bool
  alt : Nat
  sel : List Nat
  isoDelay : Nat
  u1 : Bool
  u2 : Bool
  halted : List Nat
  asleep : Bool
deriving DecidableEq, Repr

def UsbDev.reset : UsbDev := ⟨0, false, 0, [], 0, false, false, [], false⟩

/-- A transaction translator (R270): periodic start-splits held, non-periodic buffers held, stopped. -/
structure Translator where
  periodic : Nat
  buffers : List (List Nat)
  stopped : Bool
deriving DecidableEq, Repr

def Translator.reset : Translator := ⟨0, [], false⟩

/-- A Request that was accepted (R314): object position, voltage in mV, current in mA, programmable, the object's largest
current in mA, Revision 3.x. -/
structure Contract where
  pos : Nat
  mv : Nat
  ma : Nat
  pps : Bool
  maxMa : Nat
  rev3 : Bool
deriving DecidableEq, Repr

/-- What a tile's Type-C and PD logic holds beside its registers (chapter 15): the last Source_Capabilities; their
repeats, and whether one drew a GoodCRC; the request asked or accepted, and whether its wait has ended (a source) or it was accepted
(a sink); the 700 ms hold after a hard reset; no further contract until detach; the cable's VDOs; Discover Identity tries; V_s and I_s of SINK_SET in mV
and mA; the fixed request of R311 (0 none, 1 asked, 2 in force); why an UP tile's sink switch is open (bit 0 OVP, bit 1
reverse current); dry tests in a row; whether Soft_Reset was sent; the board calibration applied: SET_GAIN and
SET_OFFSET as binary32, CONVERTER, and R_SENSE in mΩ as binary32; whether the deadline of R316 has passed while the Olulo was
not Active; the message sequence of its own that a DOWN tile has under way (0 none, 1 its capabilities, 2 an Alert); and
whether the partner's last Source_Capabilities were of Revision 3.x. -/
structure TypeC where
  objs : List Nat
  repeats : Nat
  acked : Bool
  pending : Option Contract
  moved : Bool
  hold : Bool
  noContract : Bool
  cable : List Nat
  tries : Nat
  sink : Option (Nat × Nat)
  fixedReq : Nat
  gateBlock : Nat
  dry : Nat
  softReset : Bool
  gain : Nat
  offset : Nat
  converter : Nat
  sense : Nat
  late : Bool
  ams : Nat
  rev3 : Bool
deriving DecidableEq, Repr

/-- SET_GAIN 25.0 mV, SET_OFFSET 0.0 mV and R_SENSE 10.0 mΩ without a board record (R319). -/
def TypeC.reset : TypeC :=
  ⟨[], 0, false, none, false, false, false, [], 0, none, 0, 0, 0, false, 0x41C80000, 0, 0, 0x41200000, false, 0, false⟩

/-- A mailbox request (R164, R165): where it came from (0 the slot's registers, 1 its console, 2 + 64 p + first its RBP
window's slots from `first`), OPCODE, TAG, LENGTH, body, and the reply once Heartwood has it: STATUS and body. -/
structure Mail where
  via : Nat
  op : Nat
  tag : Nat
  len : Nat
  body : List Nat
  reply : Option (Nat × List Nat)
  heard : Bool
deriving DecidableEq, Repr

/-- A PD message that a tile sends. -/
inductive Pd where
  /-- Source_Capabilities with its objects. -/
  | sourceCaps (objs : List Nat)
  | request (rdo : Nat)
  | accept | reject | notSupported | psRdy | softReset | hardReset | getSourceCap | discoverIdentity
  /-- the BIST Carrier Mode pattern -/
  | bistCarrier
  /-- Alert with over-voltage or over-current. -/
  | alert (ovp : Bool)
  /-- Sink_Capabilities: a fixed 5 V object at a current in mA, and a programmable one from 3.3 V to a voltage in mV. -/
  | sinkCaps (ma highMv : Nat)
  /-- PPS_Status: output voltage in mV, output current in mA, current limiting. -/
  | ppsStatus (mv ma : Nat) (limiting : Bool)
  /-- Source_Capabilities_Extended with its bytes. -/
  | sourceCapsExt (bytes : List Nat)
deriving DecidableEq, Repr

/-- A raw pipe (R296, R298): the device's handle, endpoint address, type and interval, wMaxPacketSize, halted after
STALLED, the pending transfer descriptors, and of the transfer under way its packets done, their map, the first failed
packet, its source, retries, and whether memory refused it. -/
structure Pipe where
  handle : Nat
  endpoint : Nat
  kind : Nat
  interval : Nat
  packet : Nat
  halted : Bool
  pending : List (List Nat)
  started : Bool
  done : Nat
  map : Nat
  failed : Option Nat
  source : Nat
  retries : Nat
  refused : Bool
  moved : Nat
deriving DecidableEq, Repr

/-- A device of a Taproot bus: handle, address, speed, root port and hub ports, descriptors, report descriptors and block
answers as it was found with, interfaces whose endpoint cannot be scheduled, the interfaces bound and their services
(0 keyboard, 1 pointer, 2 game controller, 3 block, 4 serial, 5 hub), claimed, suspended, the keys and modifiers held,
the pointer's buttons held, the STATUS, sense, BLOCKS_DONE and answer of a block request that has ended, the blocks that
count of one still under way, and whether a limit left an interface unbound (R284). -/
structure TapDev where
  handle : Nat
  addr : Nat
  speed : Nat
  root : Nat
  hub1 : Nat
  hub2 : Nat
  device : List Nat
  config : List Nat
  hids : List (Nat × List Nat)
  blocks : List (Nat × Nat × Nat)
  unscheduled : List Nat
  binds : List (Nat × Nat)
  claimed : Bool
  suspended : Bool
  mods : Nat
  keys : List Nat
  buttons : Nat
  ended : Option (List Nat)
  begun : Option Nat
  limit : Bool
deriving DecidableEq, Repr

/-- One grove's Taproot bus (R283): devices, handles whose DETACH has not been pulled (R295), the records of each pull
queue and push queue by target, the pull queues whose next record carries LOST (R291), the open pipes, and the ports
left disabled until detach (root port and hub ports), the retries that the enumeration of such a place has used, and the
devices whose remote wake waits until the Olulo is Active (R301). -/
structure TapBus where
  devs : List TapDev
  freed : List Nat
  pulls : Tab (List (List Nat))
  pushes : Tab (List (List Nat))
  lost : List Nat
  pipes : Tab (Option Pipe)
  disabled : List (Nat × Nat × Nat)
  tries : List ((Nat × Nat × Nat) × Nat)
  wakes : List Nat
deriving DecidableEq, Repr

def TapBus.reset : TapBus := ⟨[], [], [], [], [], [], [], [], []⟩
/-- SERVICES of a device, claims aside. -/
def TapDev.services (d : TapDev) : Nat := d.binds.foldl (fun a e => setBit a e.2) 0

/-- A loaded voice (R349, R351): its program's bytes, ROLE, PREDICT and PERIOD, the frame in which it first ran, x⁻, ŷ, z,
u_pre, c and M as binary32 patterns, for each input the frames in a row in which its code stood at 0 or at 4,095, and
whether it runs again as if reseeded at its next due boundary (R366). -/
structure Voice where
  prog : List Nat
  role : Nat
  predict : Bool
  period : Nat
  j0 : Nat
  x : List Nat
  yhat : List Nat
  z : List Nat
  pre : List Nat
  c : List Nat
  gain : List Nat
  held : List Nat
  reseed : Bool
deriving DecidableEq, Repr

/-- An accepted voice command that has not taken effect (R363 to R365): OP, voice, and for LOAD and SWAP the program's
bytes, PERIOD, ROLE, PREDICT, KEEP, and whether it waits for the rail to reach the new effective floor. -/
structure VoiceCmd where
  op : Nat
  voice : Nat
  prog : List Nat
  period : Nat
  role : Nat
  predict : Bool
  keep : Bool
  raise : Bool
deriving DecidableEq, Repr

/-- What a drum's front end holds beside its registers: the monitor gain and
nominal current that the lit laser started with, the reaction in force (0 none, 1 HOLD, 2 RELEASE), what it waits for (bit
0 focus, bit 1 tracking, bit 2 the laser, R342), whether REARM was written, and whether a scar is flagged. -/
structure Front where
  monGain : Nat
  nominal : Nat
  react : Nat
  reactBy : Nat
  rearm : Bool
  scar : Bool
deriving DecidableEq, Repr

def Front.reset : Front := ⟨0, 0, 0, 0, false, false⟩

/-- What a spindle holds beside its registers (chapter 18): S and T_r in 1/1,000 rpm, the latched torque code, the values
latched at the start (MAX_RPM, POLE_PAIRS, HANDOVER_RPM, START_RPM, RAMP_ACCEL, RAMP_DUTY), the commutation vector V_0 to
V_5 (R375, R377), quiet mode's electrical angle (R378) in 1/(144,000 × 2^149) revolution, the last step intervals in 25 ns periods
(newest first), valid crossings in a row, missed steps in a row, ms of good RUN, revolutions in a row whose error exceeds
30°, the brake's phase (0 braking, 1 low sides held, 2 gates off), what is owed (0 none, 1 a failed attempt, 2 a stall),
SPIN_FAULT_N low, the overspeed cut, an E held at 0 for the tray (R438), and the curve in force until the next evaluation
where SPIN_CFG.CURVE has been written since the last one (R385). -/
structure Spin where
  speed : Nat
  target : Nat
  torque : Nat
  maxRpm : Nat
  polePairs : Nat
  handover : Nat
  startRpm : Nat
  accel : Nat
  duty : Nat
  vector : Nat
  angle : Nat
  steps : List Nat
  good : Nat
  missed : Nat
  goodMs : Nat
  wide : Nat
  brake : Nat
  owed : Nat
  faultLow : Bool
  overspeed : Bool
  trayHold : Bool
  oldCurve : Option Nat
deriving DecidableEq, Repr

def Spin.reset : Spin := ⟨0, 0, 0, 5000, 6, 600, 60, 1000, 25, 0, 0, [], 0, 0, 0, 0, 0, 0, false, false, false, none⟩

/-- A sled move under way (R390, R391): the scaled segments (cumulative end time in µs, end position and end velocity), the
position it starts from and its target in 1/1,048,544,000 unit, END_WINDOW, RUN_MA and HOLD_MA, whether the stroke logic
commanded it, the µs run, and whether P_drive has lagged in it (R388). -/
structure SledMove where
  segs : List (Nat × Int × Int)
  start : Int
  target : Int
  window : Nat
  runMa : Nat
  holdMa : Nat
  stroke : Bool
  time : Nat
  lagged : Bool
deriving DecidableEq, Repr

/-- What a sled holds beside its registers (chapter 19): P_cmd in 1/1,048,544,000 unit, the move under way, the homing phase
(0 none, 1 inward, 2 index search), whether the stroke logic commanded the homing, the latched follow code, the current the
phases carry in mA and its HOLD_MA, the filtered encoder lines, the count at the last frame, and a move or homing that
waits out a backoff, the point of Q at which the band last changed (R394), P_drive in P_cmd's unit (R388), the current while
moving in mA, and the part of the µs under way in 1/512 µs. -/
structure Sled where
  pos : Int
  move : Option SledMove
  homing : Nat
  strokeHome : Bool
  follow : Nat
  ma : Nat
  holdMa : Nat
  encA : Bool
  encB : Bool
  lastCount : Int
  waits : Bool
  bandAt : Option Int
  drive : Int
  runMa : Nat
  part : Nat
deriving DecidableEq, Repr

def Sled.reset : Sled := ⟨0, none, 0, false, 0, 0, 0, false, false, 0, false, none, 0, 0, 0⟩

/-- What a tray holds beside its registers: the request under way (0 none, 1 open, 2 close), the braking phase (0 none, 1 at
the end of a move, 2 before a reversed move, which then runs), whether a timed-out move waits out its backoff, the tick of the
last counted press (R401), and a press to report once the grove with tray rights is ready (Table 09-6). -/
structure Tray where
  req : Nat
  brake : Nat
  waits : Bool
  lastPress : Option Nat
  owedMedia : Bool
deriving DecidableEq, Repr

def Tray.reset : Tray := ⟨0, 0, false, none, false⟩

/-- A pending or running stroke (chapter 21): its local slot, its 32 bytes, the logical unit of the disc function that
issued it, the trunk request that carries it (member and request ID), whether it has started, the next unit, units done
and their map, the first failed unit, the source, retries, the greatest depth used, the unit that a shared seek reached (COALESCED), refused memory, and the
units sent to another member whose UNIT_ACK has not arrived (R508), and what ends it after the units under way: 0 nothing, 1 a
restart (R55), 2 a prune (R213). -/
structure Stroke where
  slot : Nat
  bytes : List Nat
  lun : Option Nat
  request : Option (Nat × Nat)
  started : Bool
  next : Nat
  done : Nat
  map : Nat
  failed : Option Nat
  source : Nat
  retries : Nat
  depth : Nat
  coalesced : Option Nat
  refused : Bool
  awaiting : List Nat
  ending : Nat
deriving DecidableEq, Repr

/-- A block in the working store (R416, R417, R421): its first sector's address, each symbol's v and a, and the extra
revolutions read. -/
structure Block where
  address : Nat
  syms : List (Nat × Nat)
  extra : Nat
deriving DecidableEq, Repr

/-- What a drum holds beside its registers. `turn` is the slot whose turn runs, `last` the slot last served; `ident` the
identity record (R432); `lastRead` the last address read for READ SUB-CHANNEL; `play` the sectors buffered for the I²S
outputs (R441): output, address and samples; `block` the block under way; `missed` the syncs missing in a row (R412);
`skips` the revolutions in a row on which the unit's block was skipped (R422); `frames` the frames started since bring-up,
which DH_FRAME.COUNT shows modulo 2^32; `checking` the voice command whose check runs (R365), and `resync` whether the effective floor has yet to follow a swap that a
prune dropped (R357). -/
structure Drum where
  up : Bool
  front : Front
  voices : Tab (Option Voice)
  cmds : List VoiceCmd
  stage : Tab Nat
  spin : Spin
  sled : Sled
  sledStage : Tab Nat
  tray : Tray
  strokes : List Stroke
  turn : Option Nat
  last : Nat
  ident : List Nat
  lastRead : Nat
  play : List (Nat × Nat × List Nat)
  block : Option Block
  missed : Nat
  skips : Nat
  frames : Nat
  checking : Option VoiceCmd
  resync : Bool
deriving DecidableEq, Repr

def Drum.reset : Drum :=
  ⟨false, Front.reset, [], [], [], Spin.reset, Sled.reset, [], Tray.reset, [], none, 7, [], 0, [], none, 0, 0, 0, none, false⟩

/-- A SCSI command of the disc function: its tag and its bytes. -/
structure Scsi where
  tag : Nat
  cdb : List Nat
deriving DecidableEq, Repr

/-- A logical unit of the disc function (R443 to R445, R508): the drum, the member that holds it where it is another one, its
commands in arrival order, whether the first one has begun, the strokes of it still pending and its reads still to issue (address, count, FORM), the first stroke that ended
without DONE (its status, source and failed address), the sense held, INFORMATION, the prevention recorded, GEN at the last
command, the stroke counter s, and whether the host of the first command is gone, so that nothing of it is returned (R445). -/
structure Lun where
  drum : Nat
  far : Option Nat
  cmds : List Scsi
  begun : Bool
  pending : Nat
  toIssue : Option (Nat × Nat × Nat)
  bad : Option (Nat × Nat × Nat)
  sense : Nat
  info : Nat
  prevent : Bool
  gen : Nat
  seq : Nat
  silent : Bool
deriving DecidableEq, Repr

def Lun.reset : Lun := ⟨0, none, [], false, 0, none, none, 0, 0, false, 0, 0, false⟩

/-- What leaves the block. -/
inductive Out where
  /-- The answer to a register or memory access of a slot: status of Table 04-3 and value. -/
  | answer (slot status value : Nat)
  /-- Bytes returned with an answer to a slot. -/
  | data (slot : Nat) (bytes : List Nat)
  /-- A console line on UART u (without its line end), as character codes. -/
  | console (u : Nat) (text : List Nat)
  /-- The console's notification line with the status value (Table 03-5). -/
  | consoleIrq (u status : Nat)
  /-- the data lines that Retro Bus Port p drives in answer to a read of its host -/
  | bus (p data : Nat)
  /-- MEM_DONE to spine port `port` for request `id` of a slot, with the status of Table 04-3 -/
  | memDone (port slot id status : Nat)
  /-- bytes, or an error, that the hub or device function of a slot returns to its host -/
  | usb (slot : Nat) (bytes : List Nat)
  | usbStall (slot : Nat)
  /-- resume that the hub of a slot signals upstream -/
  | wake (slot : Nat)
  /-- BREQ_N of Retro Bus Port p: low while it requests or holds the bus (Table 12-8) -/
  | busRequest (p : Nat) (low : Bool)
  /-- an ALE phase with the upper address on the data lines (R255) -/
  | ale (p lines : Nat)
  /-- one bus cycle in which Retro Bus Port p writes its host's memory, and one in which it reads it -/
  | dma (p addr : Nat) (bytes : List Nat)
  | dmaRead (p addr : Nat)
  /-- what Taproot sends to a device of a slot's bus: endpoint address or request code, and bytes -/
  | device (slot handle endpoint : Nat) (bytes : List Nat)
  /-- a SCSI command block that Taproot sends to a block device over Bulk-Only (R286, R293) -/
  | command (slot handle : Nat) (cdb : List Nat)
  /-- a PD message on a tile -/
  | pd (tile : Nat) (msg : Pd)
  /-- status of a SCSI command of a slot's logical unit: 0 good, 2 CHECK CONDITION, 40 TASK SET FULL -/
  | scsi (slot lun tag status : Nat)
  /-- a character that UART u sends -/
  | uart (u char : Nat)
  /-- the error signal of card mode that UART u drives for a bad character (R456) -/
  | cardError (u : Nat)
  /-- the sector that leaves I²S output o, as bytes -/
  | i2s (o : Nat) (bytes : List Nat)
  /-- a frame of 320 bytes that trunk port p sends -/
  | frame (p : Nat) (bytes : List Nat)
  /-- nine SCL pulses and a STOP on an identity bus (R218) -/
  | idbPulses (bus : Nat)
  /-- The only sequences of an identity bus (R217): the probe of an address, and the read of a 256-byte record from word
  address 0. -/
  | idbProbe (bus address : Nat)
  | idbRead (bus address : Nat)
  /-- the wake pattern on lane l (R489) -/
  | wakePattern (l : Nat)
deriving DecidableEq, Repr

/-- What a UART holds beside its registers (chapter 22): the receive FIFO as words of UART_RX [11:0], the transmit FIFO, the
character being sent and whether it is XON or XOFF, an XON or XOFF to be sent first, retransmissions of the character, bad
receptions in a row, whether a break holds off the next start edge, and the words of UART_CFG, UART_DIV, UART_ADDR and
UART_CARD in force while CFG_PENDING is 1. -/
structure Uart where
  rx : List Nat
  tx : List Nat
  sending : Option (Nat × Bool)
  own : Option Nat
  tries : Nat
  bad : Nat
  broken : Bool
  act : List Nat
deriving DecidableEq, Repr

def Uart.reset : Uart := ⟨[], [], none, none, 0, 0, false, []⟩

/-- A sequenced frame held for replay (R480): its SEQ, its 304 bytes of header and body, its resends. -/
structure Sent where
  seq : Nat
  frame : List Nat
  resends : Nat
deriving DecidableEq, Repr

/-- A sequenced frame that waits to be sent (R483, R484): the port in whose receive buffer it lies (none for a frame of
this member), and its 304 bytes of header and body. -/
structure Queued where
  origin : Option Nat
  frame : List Nat
deriving DecidableEq, Repr

/-- What a trunk port holds beside its registers (chapter 23): the training step (0 SIGNAL, 1 ADAPT, 2 ALIGN, 3 CHECK), the
replay buffer, the frames that wait (CONTROL, PAYLOAD), the EPOCH accepted and the least FC accepted in it, the old EPOCH
with its least FC and key until it is retired (R486), the keys of both directions, GEN of both directions, frames freed
and sent since UP and the peer's limits (R483), the EXPECTED for which a NAK was sent (R482), the stall (R480), the nonces
of both ends and the copy of SECRET (R498, R500), the next FC of GRAFT frames sent and the least accepted, the next
CW_COUNT and the bad codewords in a row (R477), the peer's port, the stack grove whose turn PAYLOAD stands at with what is
left of its weight, the PAYLOAD slots since the last CONTROL slot, 15 at most (R484), and whether the CHECK under way has met
an uncorrectable codeword (R474). -/
structure TrunkPort where
  step : Nat
  replay : List Sent
  control : List Queued
  payload : List Queued
  rxEpoch : Nat
  rxFc : Nat
  oldEpoch : Option (Nat × Nat × List Nat)
  txKey : List Nat
  rxKey : List Nat
  txGen : Nat
  rxGen : Nat
  freedP : Nat
  freedC : Nat
  sentP : Nat
  sentC : Nat
  limitP : Nat
  limitC : Nat
  nakFor : Option Nat
  stalled : Bool
  nonce : List Nat
  peerNonce : List Nat
  secret : List Nat
  graftFc : Nat
  rxGraftFc : Nat
  cwNext : Option Nat
  cwBad : Nat
  peerPort : Nat
  turn : Nat × Nat
  sincePayload : Nat
  checkBad : Bool
deriving DecidableEq, Repr

def TrunkPort.reset : TrunkPort :=
  ⟨0, [], [], [], 0, 0, none, [], [], 0, 0, 0, 0, 0, 0, 0, 0, none, false, [], [], [], 0, 0, none, 0, 0, (0, 0), 15, false⟩

/-- What a lane holds beside TRUNK_LANE_l: saved state (R488), and the symbols corrected in the second under way (R477)
and in the CHECK under way (R474). -/
structure Lane where
  saved : Bool
  corrected : Nat
  check : Nat
deriving DecidableEq, Repr

def Lane.reset : Lane := ⟨false, 0, 0⟩

/-- What was last heard of a member (R499, R501, R502): digest, firmware STACK_COMPAT and START_ID of its HELLO or JOIN; the
neighbours on its ports by its LINKS, while they last; the last SEQUENCE of LINKS, JOIN and ANNOUNCE since its START_ID
changed; and whether its JOIN is present. -/
structure Heard where
  digest : List Nat
  compat : Nat
  startId : Nat
  heard : Bool
  links : List Nat
  seqL : Option Nat
  seqJ : Option Nat
  seqA : Option Nat
  joined : Bool
deriving DecidableEq, Repr

def Heard.reset : Heard := ⟨[], 0, 0, false, [], none, none, none, false⟩

/-- An outstanding or waiting trunk request of this member (R513): REQ_ID, destination, the grove's slot, KIND, the drum,
the descriptor or target bytes, the frames still to be sent, the destination's START_ID at the issue, the port it went
out by (none while it waits), INDETERMINATE already written, cancelled by a restart, the bytes of the unit arriving, the least
unit that may follow, and for a stroke of the disc function its logical unit and how many units its host was given. -/
structure Request where
  id : Nat
  dest : Nat
  slot : Nat
  kind : Nat
  drum : Nat
  bytes : List Nat
  frames : List (List Nat)
  startId : Nat
  port : Option Nat
  lost : Bool
  cancelled : Bool
  got : List Nat
  unit : Nat
  lun : Option Nat
  given : Nat
deriving DecidableEq, Repr

/-- A trunk request that has arrived for this member and has not been carried out: REQ_ID, stack grove, its header's body,
its PAYLOAD bytes by frame, and whether the last frame has arrived (R490). -/
structure Deliv where
  id : Nat
  grove : Nat
  head : List Nat
  units : List (List Nat)
  whole : Bool
deriving DecidableEq, Repr

/-- A register access that has gone to another member and has no answer yet (R65, R505): slot, member, request number, the
address, whether it writes, and where it comes from. -/
structure FarAcc where
  slot : Nat
  dest : Nat
  num : Nat
  addr : Nat
  write : Bool
  via : AccVia
deriving DecidableEq, Repr

/-- What the stack controller holds beside its registers (chapter 24): START_ID, the request count, its SEQUENCEs, the
crown's START_ID as last announced, members whose relink runs (R515), good exchanges in a row (R511), the timeline in
1/64 ns and its rate in parts per 10^9, REQUESTs in a row without RESPONSE (R510), fences by issuer (R515), the done ledger
by issuer (newest last), queries deferred, control packets of which the first frame has arrived, by member, and the register
accesses that wait for another member, with the number of the next. -/
structure Stack where
  startId : Nat
  count : Nat
  seqL : Nat
  seqJ : Nat
  seqA : Nat
  crownStart : Option Nat
  relinking : List Nat
  good : Nat
  tl : Nat
  rate : Int
  missed : Nat
  fences : Tab Nat
  ledger : Tab (List (Nat × Tally))
  asked : List Nat
  parts : Tab (List Nat)
  far : List FarAcc
  nextFar : Nat
deriving DecidableEq, Repr

def Stack.reset : Stack := ⟨0, 1, 0, 0, 0, none, [], 0, 0, 0, 0, [], [], [], [], [], 0⟩

/-- The boot flash's reads (R155): 1-4-4 and 1-1-4 fast reads, and command 0x03 at 25 MHz in single-line mode. -/
inductive FlashRead where
  | quad144 | quad114 | single
deriving DecidableEq, Repr

/-- The machine's state. -/
structure State where
  /-- which of the four variants of Table 00-1 this part is; never changes -/
  variant : Variant
  /-- every register field that differs from its reset value, by `Fld.key` -/
  regs : Tab Nat
  /-- the commands waiting, first in first out -/
  pending : List Instr
  /-- what left the block, newest first (answers, bytes, packets) -/
  outs : List Out
  /-- MODEL's own: how many free values have been drawn -/
  freeCtr : Nat
  /-- Canopy stage: 2^18 words (R70, R37) -/
  stage : Tab Nat
  /-- boot flash bytes, stored as byte XOR 0xFF so that erased reads as the default -/
  flash : Tab Nat
  /-- keeping store, 2^17 words (Table 08-10) -/
  keeping : Tab Nat
  /-- SDRAM beats of 72 bits, by byte address / 8 (R73, R76) -/
  sdram : Tab Nat
  /-- buffer SRAM words whose 72 stored bits differ from the code word of the data placed there, by address / 8: the bits that
  differ (R69 to R71) -/
  bufEcc : Tab Nat
  /-- the same for the keeping store's 64-bit words (R174) -/
  keepEcc : Tab Nat
  /-- Heartwood RAM below the event log, bytes stored as byte XOR 0xFF (R154, R160) -/
  hwRam : Tab Nat
  /-- the same as `bufEcc` for Heartwood RAM's 64-bit words (R153) -/
  hwEcc : Tab Nat
  /-- ENTRY of the firmware that was started (R160) -/
  hwEntry : Nat
  /-- the read that the ROM chose for the boot flash, and whether with 4-byte addresses (R155) -/
  flashRead : FlashRead
  flashAddr4 : Bool
  /-- the loader's command under way -/
  loadOp : LoadOp
  /-- its source: 0 A, 1 B, 2 stage -/
  loadSrc : Nat
  /-- flash writes held during a check (R38) -/
  heldFlash : List HeldFlash
  /-- the loaded stream (R32) -/
  stream : Option Stream
  /-- tallies at their producers, by 8 * port + slot (R66) -/
  tallyQ : Tab TallyQ
  /-- 1 + header ID of the last TALLY packet taken, by 8 * port + slot; 0 none (R66) -/
  tallyLast : Tab Nat
  /-- level causes present, by source (R198) -/
  causes : Tab Bool
  /-- EVENTS by source (R203) -/
  events : Tab Nat
  /-- sources whose window is open (R203) -/
  windows : Tab Bool
  /-- retries begun of the action that failed last, by source (R202) -/
  retryN : Tab Nat
  /-- keeping writes waiting for DOMAIN_018 (R205, R207) -/
  deferred : List Deferred
  /-- the channel code being un-pruned (R209) -/
  unpruning : Option Nat
  /-- per slot: an interrupt IN poll would return GROVE_IRQ_STATUS (Table 03-5) -/
  irqNews : Tab Bool
  /-- METRO_COUNT, 48 bits (R111) -/
  metro : Nat
  /-- register accesses to blocks on HELD rails, in arrival order (R554) -/
  heldAcc : List HeldAcc
  /-- SEAL's keys and re-key jobs, by region (R85, R98) -/
  sealing : Tab SealRegion
  /-- regions whose walk runs or waits, in the order requested; the first one runs (R100) -/
  walks : List Nat
  /-- REKEY commands held since entry point 1: slot, region, work ID (R139) -/
  heldRekeys : List (Nat × Nat × Nat)
  /-- page jobs under way (R96) -/
  pageJobs : List PageJob
  /-- SEAL's write-through cache of counter-table entries: page and entry word, the least recently used first (R92) -/
  ctCache : List (Nat × Nat)
  /-- accesses that wait while MEMCTL has 32 requests in flight, in arrival order (R79) -/
  memWait : List MemAccess
  /-- the slot that MEMCTL's weighted round-robin serves, and what is left of its weight (R79) -/
  memTurn : Nat × Nat
  /-- the next line of the patrol scrub (R75) -/
  patrolLine : Nat
  /-- refreshes postponed (R75) -/
  refreshOwed : Nat
  /-- the event log's entries in order, as bytes (R163) -/
  evLog : List (List Nat)
  /-- SEQ of the next entry (R163) -/
  evSeq : Nat
  /-- the open report by slot (R169) -/
  reports : Tab (List Nat)
  /-- recovery mode (R171 to R173) -/
  recovery : Recovery
  /-- the sequencer of VDD_CORE (R124) -/
  rail0 : Rail
  /-- the sequencer of VDD_DRUM_0 -/
  rail1 : Rail
  /-- the sequencer of VDD_DRUM_1 -/
  rail2 : Rail
  /-- good qualification windows in a row (R112) -/
  xtalRun : Nat
  /-- sources whose action waits out a backoff before its next retry (R202) -/
  backoff : Tab Bool
  /-- requests by domain: bit 0 its unit's, bit 1 the steward's (R133) -/
  domReq : Tab Nat
  /-- sequencer step by domain: 0 none, 1 weak, 2 strong, 3 iso-off, 4 reset-off, 5 clock-on, 6 clock-off, 7 iso-on, 8 reset-on, 9 switch-off, 10 waiting for weak, 11 iso-off waiting for HELD to end, 12 reset-off waiting (R134, R135) -/
  domStep : Tab Nat
  /-- the Dormant entry under way or complete (R137) -/
  entry : Option Entry
  /-- the idle timer (R138) -/
  idleCount : Nat
  /-- the idle timer has expired since the last grove activity (R137) -/
  idleDone : Bool
  /-- muffle counts by bell (R146) -/
  muffle : Tab Nat
  /-- the PWRGD pin after its two samples (R183) -/
  pwrgd : Bool
  /-- the RESET_N pin after its two samples (R183) -/
  resetN : Bool
  /-- the TEST_EN pin (R532) -/
  testEn : Bool
  /-- the DBG_TRST_N pin (R532) -/
  dbgTrstN : Bool
  /-- the 25 MHz reference is lost (R116) -/
  refLost : Bool
  /-- the reference has given the 2,048 good cycles of R115 since it started or came back -/
  refGood : Bool
  /-- strap codes of the Retro Bus Ports, sampled at t = 0 (R188) -/
  strapRbp : Tab Nat
  /-- the STACK_POS strap, sampled at t = 0 -/
  strapStack : Nat
  /-- tiles that each address of IDB_2 holds down (R226, R228) -/
  idbHeld : Tab Nat
  /-- the address of the rescan under way, and whether its sequence ended under R218 (R228, R218) -/
  rescan : Option (Nat × Bool)
  /-- Retro Bus Port 0 -/
  rbp0 : Rbp
  /-- Retro Bus Port 1 -/
  rbp1 : Rbp
  /-- porch bytes, by 4096 * port + offset (R242) -/
  porch : Tab Nat
  /-- hub ports, by 16 * slot + port -/
  ports : Tab HubPort
  /-- transaction translators, by tile (R270) -/
  tts : Tab Translator
  /-- SET_HUB_DEPTH by slot -/
  hubDepth : Tab Nat
  /-- the hub (2 * slot) and the device function (2 * slot + 1) of a slot as their host set them (R265, R266) -/
  usbDevs : Tab UsbDev
  /-- by slot: the host selected the multi-TT alternate (R263, R270) -/
  hubAlt : Tab Bool
  /-- by slot: the host enabled remote wake of the device function (R266) -/
  funcWake : Tab Bool
  /-- Type-C and PD logic by tile (chapter 15) -/
  typec : Tab TypeC
  /-- the outstanding mailbox request by slot (R165) -/
  mail : Tab (Option Mail)
  /-- by slot: the vendor REG_READ under way: its words, none for one still to be answered (R267) -/
  vendor : Tab (List (Option Nat))
  /-- Taproot's buses by slot (R283) -/
  taps : Tab TapBus
  /-- records discarded whose occurrence of CLASS_QUEUE is still to be raised (R291) -/
  tapDrops : Nat
  /-- the drums (chapters 16 to 21) -/
  drums : Tab Drum
  /-- logical units of the disc function, by 16 * slot + number (R443) -/
  luns : Tab Lun
  /-- the UARTs (chapter 22) -/
  uarts : Tab Uart
  /-- the trunk ports (chapter 23) -/
  trunk : Tab TrunkPort
  /-- the trunk lanes -/
  lanes : Tab Lane
  /-- the stack controller (chapter 24) -/
  stack : Stack
  /-- what was last heard of each member -/
  heard : Tab Heard
  /-- this member's trunk requests, in issue order (R513) -/
  requests : List Request
  /-- trunk requests that have arrived -/
  inbox : List Deliv
  /-- stroke-ring words written to other members, by ((8 * member + drum) * 8 + slot) * 1024 + word (DESIGN CHOICE: so that the root knows what it issued, R213, R430) -/
  shadow : Tab Nat
deriving DecidableEq, Repr

/-- The machine right after reset: registers at their reset values, memories with nothing listed, nothing waiting. DESIGN CHOICE:
the strap balls of both Retro Bus Ports stand at 0b00 and STACK_POS at 0 (log 211). -/
def State.reset : State where
  variant := .f
  regs := []
  pending := []
  outs := []
  freeCtr := 0
  stage := []
  flash := []
  keeping := []
  sdram := []
  bufEcc := []
  keepEcc := []
  hwRam := []
  hwEcc := []
  hwEntry := 0
  flashRead := .single
  flashAddr4 := false
  loadOp := .idle
  loadSrc := 3
  heldFlash := []
  stream := none
  tallyQ := []
  tallyLast := []
  causes := []
  events := []
  windows := []
  retryN := []
  deferred := []
  unpruning := none
  irqNews := []
  metro := 0
  heldAcc := []
  sealing := []
  walks := []
  heldRekeys := []
  pageJobs := []
  ctCache := []
  memWait := []
  memTurn := (0, 0)
  patrolLine := 0
  refreshOwed := 0
  evLog := []
  evSeq := 0
  reports := []
  recovery := Recovery.reset
  rail0 := Rail.reset 0
  rail1 := Rail.reset 1
  rail2 := Rail.reset 2
  xtalRun := 0
  backoff := []
  domReq := []
  domStep := []
  entry := none
  idleCount := 0
  idleDone := false
  muffle := []
  pwrgd := true
  resetN := true
  testEn := false
  dbgTrstN := false
  refLost := false
  refGood := false
  strapRbp := []
  strapStack := 0
  idbHeld := []
  rescan := none
  rbp0 := Rbp.reset
  rbp1 := Rbp.reset
  porch := []
  ports := []
  tts := []
  hubDepth := []
  usbDevs := []
  hubAlt := []
  funcWake := []
  typec := []
  mail := []
  vendor := []
  taps := []
  tapDrops := 0
  drums := []
  luns := []
  uarts := []
  trunk := []
  lanes := []
  stack := Stack.reset
  heard := []
  requests := []
  inbox := []
  shadow := []

end Sys2Proof.Machine
end

