-- ==== Sys2Proof/Machine/Regs.lean ====
section
/-! DEFINITION. The registers of the Olulo, field by field, as the register tables of spec/ give them: address, bit
position, width, access code and reset value. A name is `R.<REGISTER>.<FIELD>`, with the unit numbers as arguments. -/
namespace Sys2Proof.Machine

/-- Base of TILE_t (Table 26-1). -/
def tileBase (t : Nat) : Nat := 0x00100000 + 0x10000 * t
/-- Base of DRUM_n (Table 26-1). -/
def drumBase (n : Nat) : Nat := 0x00300000 + 0x100000 * n
/-- Reset values of the eight FRONT CAL registers (Table 16-5), as binary32: 40.0, 0.0, 1.0, 0.0, 1.0, 1.0, 1.0, 100.0. -/
def frontCalReset (i : Nat) : Nat :=
  ([0x42200000, 0, 0x3F800000, 0, 0x3F800000, 0x3F800000, 0x3F800000, 0x42C80000] : List Nat).getD i 0

/-- CANOPY_STATUS [23:16] LAST_CODE RO (ch. 02): Result of the last check run, as in R30. -/
def R.CANOPY_STATUS.LAST_CODE : Fld := ⟨0, 0x00010000, 16, 8, .ro, 255⟩
/-- CANOPY_STATUS [9:8] LOADED_AREA RO (ch. 02): 0b00 A, 0b01 B, 0b10 stage, 0b11 nothing loaded. -/
def R.CANOPY_STATUS.LOADED_AREA : Fld := ⟨0, 0x00010000, 8, 2, .ro, 3⟩
/-- CANOPY_STATUS [5:5] CMD_REFUSED W1C (ch. 02): 1: a command or stage access was refused under Table 02-1 or Table 02-24. -/
def R.CANOPY_STATUS.CMD_REFUSED : Fld := ⟨0, 0x00010000, 5, 1, .w1c, 0⟩
/-- CANOPY_STATUS [4:4] ADJUSTED RO (ch. 02): See R36. -/
def R.CANOPY_STATUS.ADJUSTED : Fld := ⟨0, 0x00010000, 4, 1, .ro, 0⟩
/-- CANOPY_STATUS [3:3] SEALED RO (ch. 02): 1: sealed. -/
def R.CANOPY_STATUS.SEALED : Fld := ⟨0, 0x00010000, 3, 1, .ro, 0⟩
/-- CANOPY_STATUS [2:2] BUSY RO (ch. 02): 1: a check is running. -/
def R.CANOPY_STATUS.BUSY : Fld := ⟨0, 0x00010000, 2, 1, .ro, 0⟩
/-- CANOPY_STATUS [1:0] STATE RO (ch. 02): 0b00 UNCONFIGURED, 0b01 CONFIGURED; 0b10 and 0b11 are never reported. -/
def R.CANOPY_STATUS.STATE : Fld := ⟨0, 0x00010000, 0, 2, .ro, 0⟩
def R.CANOPY_STATUS.all : List Fld := [R.CANOPY_STATUS.LAST_CODE, R.CANOPY_STATUS.LOADED_AREA, R.CANOPY_STATUS.CMD_REFUSED, R.CANOPY_STATUS.ADJUSTED, R.CANOPY_STATUS.SEALED, R.CANOPY_STATUS.BUSY, R.CANOPY_STATUS.STATE]
/-- CANOPY_DETAIL [31:0] OFFSET RO (ch. 02): See R30. -/
def R.CANOPY_DETAIL.OFFSET : Fld := ⟨0, 0x00010004, 0, 32, .ro, 4294967295⟩
def R.CANOPY_DETAIL.all : List Fld := [R.CANOPY_DETAIL.OFFSET]
/-- CANOPY_CMD [5:4] AREA WO (ch. 02): 0b00 A, 0b01 B, 0b10 stage. 0b11 refuses the command. Ignored for SEAL. -/
def R.CANOPY_CMD.AREA : Fld := ⟨0, 0x00010008, 4, 2, .wo, 0⟩
/-- CANOPY_CMD [1:0] OP WO (ch. 02): 0b00 none, 0b01 CHECK, 0b10 LOAD, 0b11 SEAL. -/
def R.CANOPY_CMD.OP : Fld := ⟨0, 0x00010008, 0, 2, .wo, 0⟩
def R.CANOPY_CMD.all : List Fld := [R.CANOPY_CMD.AREA, R.CANOPY_CMD.OP]
/-- CANOPY_NEXT [0:0] AREA RW (ch. 02): 0: area A, 1: area B at the next start. Each write is stored in the keeping store. -/
def R.CANOPY_NEXT.AREA : Fld := ⟨0, 0x0001000C, 0, 1, .rw, 0⟩
def R.CANOPY_NEXT.all : List Fld := [R.CANOPY_NEXT.AREA]
/-- CANOPY_STAGE_ADDR [19:2] WORD RW (ch. 02): Word address within the stage. -/
def R.CANOPY_STAGE_ADDR.WORD : Fld := ⟨0, 0x00010010, 2, 18, .rw, 0⟩
def R.CANOPY_STAGE_ADDR.all : List Fld := [R.CANOPY_STAGE_ADDR.WORD]
/-- CANOPY_STAGE_DATA [31:0] DATA RW (ch. 02): A write stores the word at WORD. A read returns it. Either access then advances WORD by 1, wrapping from … -/
def R.CANOPY_STAGE_DATA.DATA : Fld := ⟨0, 0x00010014, 0, 32, .rw, 0⟩
def R.CANOPY_STAGE_DATA.all : List Fld := [R.CANOPY_STAGE_DATA.DATA]
/-- CANOPY_DIGEST [31:0] BYTES RO (ch. 02): Digest bytes 4k to 4k + 3 of the loaded stream in DIGEST_k, byte 4k in [7:0]. 0 when unconfigured. -/
def R.CANOPY_DIGEST.BYTES (i : Nat) : Fld := ⟨0, 0x00010020 + 4 * i, 0, 32, .ro, 0⟩
def R.CANOPY_DIGEST.all (i : Nat) : List Fld := [R.CANOPY_DIGEST.BYTES i]
/-- CANOPY_SLOTS_LO [31:0] SLOTS RO (ch. 02): Byte k: grove number in local slot k; 0xFF marks an unused slot. -/
def R.CANOPY_SLOTS_LO.SLOTS : Fld := ⟨0, 0x00010040, 0, 32, .ro, 4294967040⟩
def R.CANOPY_SLOTS_LO.all : List Fld := [R.CANOPY_SLOTS_LO.SLOTS]
/-- CANOPY_SLOTS_HI [31:0] SLOTS RO (ch. 02): As SLOTS_LO for slots 4 to 7. -/
def R.CANOPY_SLOTS_HI.SLOTS : Fld := ⟨0, 0x00010044, 0, 32, .ro, 4294967295⟩
def R.CANOPY_SLOTS_HI.all : List Fld := [R.CANOPY_SLOTS_HI.SLOTS]
/-- CANOPY_MEMBER [3:3] STACKED RO (ch. 02): 1: the loaded stream has FLAGS.STACK = 1. -/
def R.CANOPY_MEMBER.STACKED : Fld := ⟨0, 0x00010048, 3, 1, .ro, 0⟩
/-- CANOPY_MEMBER [2:0] NUMBER RO (ch. 02): This Olulo's member number in the loaded stream; 0 otherwise. -/
def R.CANOPY_MEMBER.NUMBER : Fld := ⟨0, 0x00010048, 0, 3, .ro, 0⟩
def R.CANOPY_MEMBER.all : List Fld := [R.CANOPY_MEMBER.STACKED, R.CANOPY_MEMBER.NUMBER]
/-- GROVE_SELF [28:24] GROVE RO (ch. 03): Grove number. -/
def R.GROVE_SELF.GROVE (slot : Nat) : Fld := ⟨slot, 0x00080100, 24, 5, .ro, 0⟩
/-- GROVE_SELF [22:20] SLOT RO (ch. 03): Local slot. -/
def R.GROVE_SELF.SLOT (slot : Nat) : Fld := ⟨slot, 0x00080100, 20, 3, .ro, 0⟩
/-- GROVE_SELF [18:16] ROOT_MEMBER RO (ch. 03): ROOT_MEMBER of the GROVE record. -/
def R.GROVE_SELF.ROOT_MEMBER (slot : Nat) : Fld := ⟨slot, 0x00080100, 16, 3, .ro, 0⟩
/-- GROVE_SELF [13:12] ROOT_KIND RO (ch. 03): 0b00 UP tile, 0b01 Retro Bus Port, 0b10 UART console. 0b11 is never reported. -/
def R.GROVE_SELF.ROOT_KIND (slot : Nat) : Fld := ⟨slot, 0x00080100, 12, 2, .ro, 0⟩
/-- GROVE_SELF [11:8] ROOT_INDEX RO (ch. 03): The tile, port or UART on ROOT_MEMBER. -/
def R.GROVE_SELF.ROOT_INDEX (slot : Nat) : Fld := ⟨slot, 0x00080100, 8, 4, .ro, 0⟩
/-- GROVE_SELF [1:1] REMOTE RO (ch. 03): 1: ROOT_MEMBER is not this member. -/
def R.GROVE_SELF.REMOTE (slot : Nat) : Fld := ⟨slot, 0x00080100, 1, 1, .ro, 0⟩
/-- GROVE_SELF [0:0] STEWARD RO (ch. 03): 1 exactly for grove 0. -/
def R.GROVE_SELF.STEWARD (slot : Nat) : Fld := ⟨slot, 0x00080100, 0, 1, .ro, if slot = 0 then 1 else 0⟩
def R.GROVE_SELF.all (slot : Nat) : List Fld := [R.GROVE_SELF.GROVE slot, R.GROVE_SELF.SLOT slot, R.GROVE_SELF.ROOT_MEMBER slot, R.GROVE_SELF.ROOT_KIND slot, R.GROVE_SELF.ROOT_INDEX slot, R.GROVE_SELF.REMOTE slot, R.GROVE_SELF.STEWARD slot]
/-- GROVE_STATUS [3:3] MEM_REFUSED W1C (ch. 03): Set under R45. -/
def R.GROVE_STATUS.MEM_REFUSED (slot : Nat) : Fld := ⟨slot, 0x00080104, 3, 1, .w1c, 0⟩
/-- GROVE_STATUS [2:2] RESTARTING RO (ch. 03): 1 while a restart runs (R55). -/
def R.GROVE_STATUS.RESTARTING (slot : Nat) : Fld := ⟨slot, 0x00080104, 2, 1, .ro, 0⟩
/-- GROVE_STATUS [1:1] READY RO (ch. 03): 1 once the grove is serviceable on this member, as *Power-up and the first second* sets out. -/
def R.GROVE_STATUS.READY (slot : Nat) : Fld := ⟨slot, 0x00080104, 1, 1, .ro, 0⟩
/-- GROVE_STATUS [0:0] ACCESS_REFUSED W1C (ch. 03): Set under R44. -/
def R.GROVE_STATUS.ACCESS_REFUSED (slot : Nat) : Fld := ⟨slot, 0x00080104, 0, 1, .w1c, 0⟩
def R.GROVE_STATUS.all (slot : Nat) : List Fld := [R.GROVE_STATUS.MEM_REFUSED slot, R.GROVE_STATUS.RESTARTING slot, R.GROVE_STATUS.READY slot, R.GROVE_STATUS.ACCESS_REFUSED slot]
/-- GROVE_REFUSED_ADDR [31:0] ADDR RO (ch. 03): Address of the most recent refused register access. Unchanged by clearing ACCESS_REFUSED. -/
def R.GROVE_REFUSED_ADDR.ADDR (slot : Nat) : Fld := ⟨slot, 0x00080108, 0, 32, .ro, 0⟩
def R.GROVE_REFUSED_ADDR.all (slot : Nat) : List Fld := [R.GROVE_REFUSED_ADDR.ADDR slot]
/-- GROVE_IRQ_STATUS [8:8] QUEUE W1C (ch. 03): A class service queue or raw pipe of the grove became non-empty, or one of its UARTs (R459) or GPIO pins … -/
def R.GROVE_IRQ_STATUS.QUEUE (slot : Nat) : Fld := ⟨slot, 0x0008010C, 8, 1, .w1c, 0⟩
/-- GROVE_IRQ_STATUS [7:7] SUMMARY W1C (ch. 03): The device-wide fault summary changed. -/
def R.GROVE_IRQ_STATUS.SUMMARY (slot : Nat) : Fld := ⟨slot, 0x0008010C, 7, 1, .w1c, 0⟩
/-- GROVE_IRQ_STATUS [6:6] MEDIA W1C (ch. 03): Disc change or tray button on a drum that lists the grove. -/
def R.GROVE_IRQ_STATUS.MEDIA (slot : Nat) : Fld := ⟨slot, 0x0008010C, 6, 1, .w1c, 0⟩
/-- GROVE_IRQ_STATUS [5:5] STROKE_SPACE W1C (ch. 03): A full stroke ring of the grove gained a free descriptor. -/
def R.GROVE_IRQ_STATUS.STROKE_SPACE (slot : Nat) : Fld := ⟨slot, 0x0008010C, 5, 1, .w1c, 0⟩
/-- GROVE_IRQ_STATUS [4:4] DEVICE_WAKE W1C (ch. 03): A device on one of the grove's tiles signalled remote wake. -/
def R.GROVE_IRQ_STATUS.DEVICE_WAKE (slot : Nat) : Fld := ⟨slot, 0x0008010C, 4, 1, .w1c, 0⟩
/-- GROVE_IRQ_STATUS [3:3] REFUSED W1C (ch. 03): ACCESS_REFUSED or MEM_REFUSED went from 0 to 1. -/
def R.GROVE_IRQ_STATUS.REFUSED (slot : Nat) : Fld := ⟨slot, 0x0008010C, 3, 1, .w1c, 0⟩
/-- GROVE_IRQ_STATUS [2:2] MAILBOX W1C (ch. 03): A mailbox reply is ready. -/
def R.GROVE_IRQ_STATUS.MAILBOX (slot : Nat) : Fld := ⟨slot, 0x0008010C, 2, 1, .w1c, 0⟩
/-- GROVE_IRQ_STATUS [1:1] FAULT W1C (ch. 03): A source in the grove's fault view set. -/
def R.GROVE_IRQ_STATUS.FAULT (slot : Nat) : Fld := ⟨slot, 0x0008010C, 1, 1, .w1c, 0⟩
/-- GROVE_IRQ_STATUS [0:0] TALLY W1C (ch. 03): A tally was written to the grove's ring. -/
def R.GROVE_IRQ_STATUS.TALLY (slot : Nat) : Fld := ⟨slot, 0x0008010C, 0, 1, .w1c, 0⟩
def R.GROVE_IRQ_STATUS.all (slot : Nat) : List Fld := [R.GROVE_IRQ_STATUS.QUEUE slot, R.GROVE_IRQ_STATUS.SUMMARY slot, R.GROVE_IRQ_STATUS.MEDIA slot, R.GROVE_IRQ_STATUS.STROKE_SPACE slot, R.GROVE_IRQ_STATUS.DEVICE_WAKE slot, R.GROVE_IRQ_STATUS.REFUSED slot, R.GROVE_IRQ_STATUS.MAILBOX slot, R.GROVE_IRQ_STATUS.FAULT slot, R.GROVE_IRQ_STATUS.TALLY slot]
/-- GROVE_IRQ_ENABLE [8:0] ENABLE RW (ch. 03): Bit b enables GROVE_IRQ_STATUS bit b. Bit 4 stores 0 whatever is written when the grove's WAKE_PERMIT is … -/
def R.GROVE_IRQ_ENABLE.ENABLE (slot : Nat) : Fld := ⟨slot, 0x00080110, 0, 9, .rw, 0⟩
def R.GROVE_IRQ_ENABLE.all (slot : Nat) : List Fld := [R.GROVE_IRQ_ENABLE.ENABLE slot]
/-- GROVE_NMI_ENABLE [8:0] ENABLE RW (ch. 03): As GROVE_IRQ_ENABLE, for the second output of a Retro Bus Port, including the rule that bit 4 stores 0 … -/
def R.GROVE_NMI_ENABLE.ENABLE (slot : Nat) : Fld := ⟨slot, 0x00080114, 0, 9, .rw, 0⟩
def R.GROVE_NMI_ENABLE.all (slot : Nat) : List Fld := [R.GROVE_NMI_ENABLE.ENABLE slot]
/-- GROVE_VOTE [0:0] VOTE RW (ch. 03): 1: the grove agrees to Dormant. [31:1] are reserved. -/
def R.GROVE_VOTE.VOTE (slot : Nat) : Fld := ⟨slot, 0x00080118, 0, 1, .rw, 0⟩
def R.GROVE_VOTE.all (slot : Nat) : List Fld := [R.GROVE_VOTE.VOTE slot]
/-- GROVE_RESTART [8:8] GO WO (ch. 03): 1: restart the grove in SLOT. 0: no effect. -/
def R.GROVE_RESTART.GO (slot : Nat) : Fld := ⟨slot, 0x0008011C, 8, 1, .wo, 0⟩
/-- GROVE_RESTART [2:0] SLOT WO (ch. 03): Target slot. A slot other than the writer's own is refused unless the writer is grove 0. An unoccupied … -/
def R.GROVE_RESTART.SLOT (slot : Nat) : Fld := ⟨slot, 0x0008011C, 0, 3, .wo, 0⟩
def R.GROVE_RESTART.all (slot : Nat) : List Fld := [R.GROVE_RESTART.GO slot, R.GROVE_RESTART.SLOT slot]
/-- GROVE_VOTES [15:8] OCCUPIED RO (ch. 03): Bit k: local slot k holds a grove. -/
def R.GROVE_VOTES.OCCUPIED (slot : Nat) : Fld := ⟨slot, 0x00080120, 8, 8, .ro, 1⟩
/-- GROVE_VOTES [7:0] VOTED RO (ch. 03): Bit k: slot k's VOTE. A grove other than grove 0 reads only its own slot's bit; the other bits read 0. -/
def R.GROVE_VOTES.VOTED (slot : Nat) : Fld := ⟨slot, 0x00080120, 0, 8, .ro, 0⟩
def R.GROVE_VOTES.all (slot : Nat) : List Fld := [R.GROVE_VOTES.OCCUPIED slot, R.GROVE_VOTES.VOTED slot]
/-- GROVE_WEIGHTS [26:16] SPINE_TOTAL RO (ch. 03): W of R47. -/
def R.GROVE_WEIGHTS.SPINE_TOTAL (slot : Nat) : Fld := ⟨slot, 0x00080124, 16, 11, .ro, 0⟩
/-- GROVE_WEIGHTS [7:0] SPINE_WEIGHT RO (ch. 03): The grove's w_g. -/
def R.GROVE_WEIGHTS.SPINE_WEIGHT (slot : Nat) : Fld := ⟨slot, 0x00080124, 0, 8, .ro, 0⟩
def R.GROVE_WEIGHTS.all (slot : Nat) : List Fld := [R.GROVE_WEIGHTS.SPINE_TOTAL slot, R.GROVE_WEIGHTS.SPINE_WEIGHT slot]
/-- SPINE_TIMEOUT [15:0] CYCLES RW (ch. 04): Timeout of R65, in periods of the 25 MHz reference. The reset value is 163.84 µs. A written value below … -/
def R.SPINE_TIMEOUT.CYCLES : Fld := ⟨0, 0x00080000, 0, 16, .rw, 4096⟩
def R.SPINE_TIMEOUT.all : List Fld := [R.SPINE_TIMEOUT.CYCLES]
/-- SPINE_CRC_DISCARDS [15:0] COUNT RC (ch. 04): Packets discarded under R64. [31:16] reserved. -/
def R.SPINE_CRC_DISCARDS.COUNT : Fld := ⟨0, 0x00080004, 0, 16, .rc, 0⟩
def R.SPINE_CRC_DISCARDS.all : List Fld := [R.SPINE_CRC_DISCARDS.COUNT]
/-- SPINE_TIMEOUTS [15:0] COUNT RC (ch. 04): Requests ended under R65. [31:16] reserved. -/
def R.SPINE_TIMEOUTS.COUNT : Fld := ⟨0, 0x00080008, 0, 16, .rc, 0⟩
def R.SPINE_TIMEOUTS.all : List Fld := [R.SPINE_TIMEOUTS.COUNT]
/-- SPINE_MALFORMED [15:0] COUNT RC (ch. 04): Packets discarded under R62. [31:16] reserved. -/
def R.SPINE_MALFORMED.COUNT : Fld := ⟨0, 0x0008000C, 0, 16, .rc, 0⟩
def R.SPINE_MALFORMED.all : List Fld := [R.SPINE_MALFORMED.COUNT]
/-- BUF_COUNTS [31:16] UE RC (ch. 04): Uncorrectable words. Both fields clear on the same read. -/
def R.BUF_COUNTS.UE : Fld := ⟨0, 0x00080010, 16, 16, .rc, 0⟩
/-- BUF_COUNTS [15:0] CE RC (ch. 04): Corrected words. -/
def R.BUF_COUNTS.CE : Fld := ⟨0, 0x00080010, 0, 16, .rc, 0⟩
def R.BUF_COUNTS.all : List Fld := [R.BUF_COUNTS.UE, R.BUF_COUNTS.CE]
/-- BUF_UE_ADDR [31:31] VALID RO (ch. 04): 1: ADDR holds the most recent uncorrectable word. -/
def R.BUF_UE_ADDR.VALID : Fld := ⟨0, 0x00080014, 31, 1, .ro, 0⟩
/-- BUF_UE_ADDR [21:3] ADDR RO (ch. 04): Word address within buffer SRAM. [2:0] read 0. -/
def R.BUF_UE_ADDR.ADDR : Fld := ⟨0, 0x00080014, 3, 19, .ro, 0⟩
def R.BUF_UE_ADDR.all : List Fld := [R.BUF_UE_ADDR.VALID, R.BUF_UE_ADDR.ADDR]
/-- MEMCTL_CFG [23:16] PATROL_HOURS RW (ch. 04): 0: no patrol. n: one pass per n hours (R75). -/
def R.MEMCTL_CFG.PATROL_HOURS : Fld := ⟨0, 0x00090000, 16, 8, .rw, 0⟩
/-- MEMCTL_CFG [8:8] REFRESH_2X RW (ch. 04): R75. -/
def R.MEMCTL_CFG.REFRESH_2X : Fld := ⟨0, 0x00090000, 8, 1, .rw, 0⟩
/-- MEMCTL_CFG [5:4] RATE RW (ch. 04): 0b00 2,400, 0b01 2,666, 0b10 2,933, 0b11 3,200 MT/s. -/
def R.MEMCTL_CFG.RATE : Fld := ⟨0, 0x00090000, 4, 2, .rw, 3⟩
/-- MEMCTL_CFG [2:2] RANKS RW (ch. 04): 0: one rank, 1: two. -/
def R.MEMCTL_CFG.RANKS : Fld := ⟨0, 0x00090000, 2, 1, .rw, 0⟩
/-- MEMCTL_CFG [1:0] DENSITY RW (ch. 04): 0b00 4, 0b01 8, 0b10 16 Gbit. 0b11, or a pairing outside Table 04-7, makes TRAIN end FAILED. -/
def R.MEMCTL_CFG.DENSITY : Fld := ⟨0, 0x00090000, 0, 2, .rw, 1⟩
def R.MEMCTL_CFG.all : List Fld := [R.MEMCTL_CFG.PATROL_HOURS, R.MEMCTL_CFG.REFRESH_2X, R.MEMCTL_CFG.RATE, R.MEMCTL_CFG.RANKS, R.MEMCTL_CFG.DENSITY]
/-- MEMCTL_TIMING_0 [31:24] TRP RW (ch. 04): As programmed. A zero field makes TRAIN end FAILED. -/
def R.MEMCTL_TIMING_0.TRP : Fld := ⟨0, 0x00090004, 24, 8, .rw, 22⟩
/-- MEMCTL_TIMING_0 [23:16] TRCD RW (ch. 04): As programmed. A zero field makes TRAIN end FAILED. -/
def R.MEMCTL_TIMING_0.TRCD : Fld := ⟨0, 0x00090004, 16, 8, .rw, 22⟩
/-- MEMCTL_TIMING_0 [15:8] CWL RW (ch. 04): As programmed. A zero field makes TRAIN end FAILED. -/
def R.MEMCTL_TIMING_0.CWL : Fld := ⟨0, 0x00090004, 8, 8, .rw, 16⟩
/-- MEMCTL_TIMING_0 [7:0] CL RW (ch. 04): As programmed. A zero field makes TRAIN end FAILED. -/
def R.MEMCTL_TIMING_0.CL : Fld := ⟨0, 0x00090004, 0, 8, .rw, 22⟩
def R.MEMCTL_TIMING_0.all : List Fld := [R.MEMCTL_TIMING_0.TRP, R.MEMCTL_TIMING_0.TRCD, R.MEMCTL_TIMING_0.CWL, R.MEMCTL_TIMING_0.CL]
/-- MEMCTL_TIMING_1 [31:16] TRFC RW (ch. 04): As TIMING_0. -/
def R.MEMCTL_TIMING_1.TRFC : Fld := ⟨0, 0x00090008, 16, 16, .rw, 560⟩
/-- MEMCTL_TIMING_1 [15:8] TFAW RW (ch. 04): As TIMING_0. -/
def R.MEMCTL_TIMING_1.TFAW : Fld := ⟨0, 0x00090008, 8, 8, .rw, 34⟩
/-- MEMCTL_TIMING_1 [7:0] TRAS RW (ch. 04): As TIMING_0. -/
def R.MEMCTL_TIMING_1.TRAS : Fld := ⟨0, 0x00090008, 0, 8, .rw, 52⟩
def R.MEMCTL_TIMING_1.all : List Fld := [R.MEMCTL_TIMING_1.TRFC, R.MEMCTL_TIMING_1.TFAW, R.MEMCTL_TIMING_1.TRAS]
/-- MEMCTL_CMD [0:0] TRAIN WO (ch. 04): 1: train, in UNTRAINED or FAILED. In other states the write has no effect. [31:1] ignored. -/
def R.MEMCTL_CMD.TRAIN : Fld := ⟨0, 0x0009000C, 0, 1, .wo, 0⟩
def R.MEMCTL_CMD.all : List Fld := [R.MEMCTL_CMD.TRAIN]
/-- MEMCTL_STATUS [15:8] CAPACITY RO (ch. 04): Trained capacity in GiB; 0 unless READY or SELF_REFRESH. -/
def R.MEMCTL_STATUS.CAPACITY : Fld := ⟨0, 0x00090010, 8, 8, .ro, 0⟩
/-- MEMCTL_STATUS [2:0] STATE RO (ch. 04): 0 UNTRAINED, 1 TRAINING, 2 READY, 3 SELF_REFRESH, 4 FAILED. Values 5 to 7 are never reported. -/
def R.MEMCTL_STATUS.STATE : Fld := ⟨0, 0x00090010, 0, 3, .ro, 0⟩
def R.MEMCTL_STATUS.all : List Fld := [R.MEMCTL_STATUS.CAPACITY, R.MEMCTL_STATUS.STATE]
/-- MEMCTL_CE_COUNT [15:0] COUNT RC (ch. 04): R77; saturates at 0xFFFF. [31:16] reserved. -/
def R.MEMCTL_CE_COUNT.COUNT : Fld := ⟨0, 0x00090014, 0, 16, .rc, 0⟩
def R.MEMCTL_CE_COUNT.all : List Fld := [R.MEMCTL_CE_COUNT.COUNT]
/-- MEMCTL_UE_COUNT [15:0] COUNT RC (ch. 04): R78; saturates at 0xFFFF. [31:16] reserved. -/
def R.MEMCTL_UE_COUNT.COUNT : Fld := ⟨0, 0x00090018, 0, 16, .rc, 0⟩
def R.MEMCTL_UE_COUNT.all : List Fld := [R.MEMCTL_UE_COUNT.COUNT]
/-- MEMCTL_CE_ADDR [31:31] VALID RO (ch. 04): 1: LINE is the most recent corrected line. [30:28] reserved. -/
def R.MEMCTL_CE_ADDR.VALID : Fld := ⟨0, 0x0009001C, 31, 1, .ro, 0⟩
/-- MEMCTL_CE_ADDR [27:0] LINE RO (ch. 04): Byte address [33:6]. -/
def R.MEMCTL_CE_ADDR.LINE : Fld := ⟨0, 0x0009001C, 0, 28, .ro, 0⟩
def R.MEMCTL_CE_ADDR.all : List Fld := [R.MEMCTL_CE_ADDR.VALID, R.MEMCTL_CE_ADDR.LINE]
/-- MEMCTL_UE_ADDR [31:31] VALID RO (ch. 04): As MEMCTL_CE_ADDR, for R78. -/
def R.MEMCTL_UE_ADDR.VALID : Fld := ⟨0, 0x00090020, 31, 1, .ro, 0⟩
/-- MEMCTL_UE_ADDR [27:0] LINE RO (ch. 04): As MEMCTL_CE_ADDR, for R78. -/
def R.MEMCTL_UE_ADDR.LINE : Fld := ⟨0, 0x00090020, 0, 28, .ro, 0⟩
def R.MEMCTL_UE_ADDR.all : List Fld := [R.MEMCTL_UE_ADDR.VALID, R.MEMCTL_UE_ADDR.LINE]
/-- SEAL_STATUS [1:1] CT_READY RO (ch. 05): 1: R92 done for the loaded stream. -/
def R.SEAL_STATUS.CT_READY : Fld := ⟨0, 0x000A0000, 1, 1, .ro, 0⟩
/-- SEAL_STATUS [0:0] RNG_READY RO (ch. 05): 1: the random source can supply keys. -/
def R.SEAL_STATUS.RNG_READY : Fld := ⟨0, 0x000A0000, 0, 1, .ro, 0⟩
def R.SEAL_STATUS.all : List Fld := [R.SEAL_STATUS.CT_READY, R.SEAL_STATUS.RNG_READY]
/-- SEAL_CT_BASE [27:0] LINE RO (ch. 05): CT_BASE[33:6]; 0 unless MEMCTL is READY or SELF_REFRESH. -/
def R.SEAL_CT_BASE.LINE : Fld := ⟨0, 0x000A0004, 0, 28, .ro, 0⟩
def R.SEAL_CT_BASE.all : List Fld := [R.SEAL_CT_BASE.LINE]
/-- SEAL_CE_COUNT [15:0] COUNT RC (ch. 05): Sealed lines corrected. [31:16] reserved. -/
def R.SEAL_CE_COUNT.COUNT : Fld := ⟨0, 0x000A0008, 0, 16, .rc, 0⟩
def R.SEAL_CE_COUNT.all : List Fld := [R.SEAL_CE_COUNT.COUNT]
/-- SEAL_UE_COUNT [15:0] COUNT RC (ch. 05): Sealed lines uncorrectable. [31:16] reserved. -/
def R.SEAL_UE_COUNT.COUNT : Fld := ⟨0, 0x000A000C, 0, 16, .rc, 0⟩
def R.SEAL_UE_COUNT.all : List Fld := [R.SEAL_UE_COUNT.COUNT]
/-- SEAL_REGION_BASE [31:31] VALID RO (ch. 05): 1: the stream defines region r. -/
def R.SEAL_REGION_BASE.VALID (r : Nat) : Fld := ⟨0, 0x000A1000 + 0x20 * r + 0x0, 31, 1, .ro, 0⟩
/-- SEAL_REGION_BASE [30:30] SEALED RO (ch. 05): 1: sealed. -/
def R.SEAL_REGION_BASE.SEALED (r : Nat) : Fld := ⟨0, 0x000A1000 + 0x20 * r + 0x0, 30, 1, .ro, 0⟩
/-- SEAL_REGION_BASE [28:24] GROVE RO (ch. 05): Owner's grove number. -/
def R.SEAL_REGION_BASE.GROVE (r : Nat) : Fld := ⟨0, 0x000A1000 + 0x20 * r + 0x0, 24, 5, .ro, 0⟩
/-- SEAL_REGION_BASE [21:0] BASE RO (ch. 05): First page. -/
def R.SEAL_REGION_BASE.BASE (r : Nat) : Fld := ⟨0, 0x000A1000 + 0x20 * r + 0x0, 0, 22, .ro, 0⟩
def R.SEAL_REGION_BASE.all (r : Nat) : List Fld := [R.SEAL_REGION_BASE.VALID r, R.SEAL_REGION_BASE.SEALED r, R.SEAL_REGION_BASE.GROVE r, R.SEAL_REGION_BASE.BASE r]
/-- SEAL_REGION_PAGES [22:0] PAGES RO (ch. 05): Region size in pages. [31:23] reserved. -/
def R.SEAL_REGION_PAGES.PAGES (r : Nat) : Fld := ⟨0, 0x000A1000 + 0x20 * r + 0x4, 0, 23, .ro, 0⟩
def R.SEAL_REGION_PAGES.all (r : Nat) : List Fld := [R.SEAL_REGION_PAGES.PAGES r]
/-- SEAL_REGION_STATE [15:8] EPOCH RO (ch. 05): Keys drawn since load, 1 to 255 with wrap to 1; 0 for a plain region. -/
def R.SEAL_REGION_STATE.EPOCH (r : Nat) : Fld := ⟨0, 0x000A1000 + 0x20 * r + 0x8, 8, 8, .ro, 0⟩
/-- SEAL_REGION_STATE [1:0] STATE RO (ch. 05): 0b00 plain, 0b01 SEALED, 0b10 REKEYING, 0b11 SPLIT. -/
def R.SEAL_REGION_STATE.STATE (r : Nat) : Fld := ⟨0, 0x000A1000 + 0x20 * r + 0x8, 0, 2, .ro, 0⟩
def R.SEAL_REGION_STATE.all (r : Nat) : List Fld := [R.SEAL_REGION_STATE.EPOCH r, R.SEAL_REGION_STATE.STATE r]
/-- SEAL_REGION_WATERMARK [22:0] PAGE RO (ch. 05): R100; 0 in SEALED. [31:23] reserved. -/
def R.SEAL_REGION_WATERMARK.PAGE (r : Nat) : Fld := ⟨0, 0x000A1000 + 0x20 * r + 0xC, 0, 23, .ro, 0⟩
def R.SEAL_REGION_WATERMARK.all (r : Nat) : List Fld := [R.SEAL_REGION_WATERMARK.PAGE r]
/-- SEAL_REGION_WORK_ID [31:0] ID RW (ch. 05): Work ID taken by the next REKEY. -/
def R.SEAL_REGION_WORK_ID.ID (r : Nat) : Fld := ⟨0, 0x000A1000 + 0x20 * r + 0x10, 0, 32, .rw, 0⟩
def R.SEAL_REGION_WORK_ID.all (r : Nat) : List Fld := [R.SEAL_REGION_WORK_ID.ID r]
/-- SEAL_REGION_CMD [0:0] REKEY WO (ch. 05): 1: request a re-key (R100, R101). 0: no effect. [31:1] ignored. -/
def R.SEAL_REGION_CMD.REKEY (r : Nat) : Fld := ⟨0, 0x000A1000 + 0x20 * r + 0x14, 0, 1, .wo, 0⟩
def R.SEAL_REGION_CMD.all (r : Nat) : List Fld := [R.SEAL_REGION_CMD.REKEY r]
/-- SEAL_REGION_TAG_FAILS [15:0] COUNT RC (ch. 05): Tag mismatches in the region. [31:16] reserved. -/
def R.SEAL_REGION_TAG_FAILS.COUNT (r : Nat) : Fld := ⟨0, 0x000A1000 + 0x20 * r + 0x18, 0, 16, .rc, 0⟩
def R.SEAL_REGION_TAG_FAILS.all (r : Nat) : List Fld := [R.SEAL_REGION_TAG_FAILS.COUNT r]
/-- SEAL_REGION_FAIL_LINE [31:31] VALID RO (ch. 05): 1: LINE holds the most recent failure of Table 05-3. -/
def R.SEAL_REGION_FAIL_LINE.VALID (r : Nat) : Fld := ⟨0, 0x000A1000 + 0x20 * r + 0x1C, 31, 1, .ro, 0⟩
/-- SEAL_REGION_FAIL_LINE [27:0] LINE RO (ch. 05): A[33:6] of that line. -/
def R.SEAL_REGION_FAIL_LINE.LINE (r : Nat) : Fld := ⟨0, 0x000A1000 + 0x20 * r + 0x1C, 0, 28, .ro, 0⟩
def R.SEAL_REGION_FAIL_LINE.all (r : Nat) : List Fld := [R.SEAL_REGION_FAIL_LINE.VALID r, R.SEAL_REGION_FAIL_LINE.LINE r]
/-- METRO_STATUS [2:2] ALARM W1C (ch. 06): 1: the alarm fired (R114). -/
def R.METRO_STATUS.ALARM : Fld := ⟨0, 0x00020000, 2, 1, .w1c, 0⟩
/-- METRO_STATUS [1:1] XTAL_QUAL RO (ch. 06): 1: the crystal is qualified (R112). -/
def R.METRO_STATUS.XTAL_QUAL : Fld := ⟨0, 0x00020000, 1, 1, .ro, 0⟩
/-- METRO_STATUS [0:0] SOURCE RO (ch. 06): 0: RC stand-in; 1: crystal. -/
def R.METRO_STATUS.SOURCE : Fld := ⟨0, 0x00020000, 0, 1, .ro, 0⟩
def R.METRO_STATUS.all : List Fld := [R.METRO_STATUS.ALARM, R.METRO_STATUS.XTAL_QUAL, R.METRO_STATUS.SOURCE]
/-- METRO_COUNT_LO [31:0] COUNT RO (ch. 06): Count bits [31:0]. A read latches bits [47:32] for METRO_COUNT_HI. -/
def R.METRO_COUNT_LO.COUNT : Fld := ⟨0, 0x00020004, 0, 32, .ro, 0⟩
def R.METRO_COUNT_LO.all : List Fld := [R.METRO_COUNT_LO.COUNT]
/-- METRO_COUNT_HI [15:0] COUNT RO (ch. 06): Count bits [47:32] as latched by the last read of METRO_COUNT_LO. -/
def R.METRO_COUNT_HI.COUNT : Fld := ⟨0, 0x00020008, 0, 16, .ro, 0⟩
def R.METRO_COUNT_HI.all : List Fld := [R.METRO_COUNT_HI.COUNT]
/-- METRO_ALARM [31:0] COMPARE RW (ch. 06): R114; 0 disables. -/
def R.METRO_ALARM.COMPARE : Fld := ⟨0, 0x0002000C, 0, 32, .rw, 0⟩
def R.METRO_ALARM.all : List Fld := [R.METRO_ALARM.COMPARE]
/-- CLOCK_RELOCKS [15:0] COUNT RC (ch. 06): Relocks started for any cause; saturates at 0xFFFF. -/
def R.CLOCK_RELOCKS.COUNT : Fld := ⟨0, 0x00020014, 0, 16, .rc, 0⟩
def R.CLOCK_RELOCKS.all : List Fld := [R.CLOCK_RELOCKS.COUNT]
/-- TEMPO_SETTLE [7:0] MICROSECONDS RWL (ch. 06): The settle time of R124 and R125. A written 0 stores 1. -/
def R.TEMPO_SETTLE.MICROSECONDS : Fld := ⟨0, 0x00020018, 0, 8, .rwl, 50⟩
def R.TEMPO_SETTLE.all : List Fld := [R.TEMPO_SETTLE.MICROSECONDS]
/-- TEMPO_REQ [1:0] TEMPO RW (ch. 06): Requested tempo, 0 to 3. Every value is legal. Loaded under R123. -/
def R.TEMPO_REQ.TEMPO (r : Nat) : Fld := ⟨0, 0x00020020 + 0x10 * r, 0, 2, .rw, if r = 0 then 1 else 0⟩
def R.TEMPO_REQ.all (r : Nat) : List Fld := [R.TEMPO_REQ.TEMPO r]
/-- TEMPO_STATE [14:12] SEQ RO (ch. 06): 0 STEADY, 1 RAISING, 2 CLOCKING_UP, 3 CLOCKING_DOWN, 4 LOWERING, 5 HELD, 6 CLOCK_FAILED, 7 RETAINED. -/
def R.TEMPO_STATE.SEQ (r : Nat) : Fld := ⟨0, 0x00020024 + 0x10 * r, 12, 3, .ro, 0⟩
/-- TEMPO_STATE [9:8] TARGET RO (ch. 06): T after the FLOOR of R28. -/
def R.TEMPO_STATE.TARGET (r : Nat) : Fld := ⟨0, 0x00020024 + 0x10 * r, 8, 2, .ro, if r = 0 then 1 else 0⟩
/-- TEMPO_STATE [6:6] FLOORED RO (ch. 06): 1: TARGET exceeds TEMPO because of FLOOR. -/
def R.TEMPO_STATE.FLOORED (r : Nat) : Fld := ⟨0, 0x00020024 + 0x10 * r, 6, 1, .ro, 0⟩
/-- TEMPO_STATE [5:4] CLOCK_TEMPO RO (ch. 06): c. -/
def R.TEMPO_STATE.CLOCK_TEMPO (r : Nat) : Fld := ⟨0, 0x00020024 + 0x10 * r, 4, 2, .ro, if r = 0 then 1 else 0⟩
/-- TEMPO_STATE [3:3] PGOOD RO (ch. 06): The rail's PGOOD after synchronizing. -/
def R.TEMPO_STATE.PGOOD (r : Nat) : Fld := ⟨0, 0x00020024 + 0x10 * r, 3, 1, .ro, 0⟩
/-- TEMPO_STATE [2:0] VID RO (ch. 06): The code being driven (Table 06-3). -/
def R.TEMPO_STATE.VID (r : Nat) : Fld := ⟨0, 0x00020024 + 0x10 * r, 0, 3, .ro, if r = 0 then 1 else 0⟩
def R.TEMPO_STATE.all (r : Nat) : List Fld := [R.TEMPO_STATE.SEQ r, R.TEMPO_STATE.TARGET r, R.TEMPO_STATE.FLOORED r, R.TEMPO_STATE.CLOCK_TEMPO r, R.TEMPO_STATE.PGOOD r, R.TEMPO_STATE.VID r]
/-- DOMAIN_CMD [9:8] OP WO (ch. 07): 0b00 no effect; 0b01 set the steward's request; 0b10 clear the steward's request; 0b11 refused under R136. -/
def R.DOMAIN_CMD.OP : Fld := ⟨0, 0x00030040, 8, 2, .wo, 0⟩
/-- DOMAIN_CMD [7:0] DOMAIN WO (ch. 07): Domain number. Values above 143 are refused (R136). -/
def R.DOMAIN_CMD.DOMAIN : Fld := ⟨0, 0x00030040, 0, 8, .wo, 0⟩
def R.DOMAIN_CMD.all : List Fld := [R.DOMAIN_CMD.OP, R.DOMAIN_CMD.DOMAIN]
/-- DOMAIN_PROBE [17:17] UNIT_REQ RO (ch. 07): The unit's own request for the selected domain. -/
def R.DOMAIN_PROBE.UNIT_REQ : Fld := ⟨0, 0x00030044, 17, 1, .ro, 0⟩
/-- DOMAIN_PROBE [16:16] STEWARD_REQ RO (ch. 07): The steward's request. -/
def R.DOMAIN_PROBE.STEWARD_REQ : Fld := ⟨0, 0x00030044, 16, 1, .ro, 0⟩
/-- DOMAIN_PROBE [13:12] STATE RO (ch. 07): As in DOMAIN_STATE. -/
def R.DOMAIN_PROBE.STATE : Fld := ⟨0, 0x00030044, 12, 2, .ro, 0⟩
/-- DOMAIN_PROBE [10:8] STEP RO (ch. 07): 0 none, 1 weak or waiting, 2 strong, 3 iso-off, 4 reset-off, 5 clock-on, 6 clock-off, 7 iso-on, reset-on … -/
def R.DOMAIN_PROBE.STEP : Fld := ⟨0, 0x00030044, 8, 3, .ro, 0⟩
/-- DOMAIN_PROBE [7:0] SELECT RW (ch. 07): Domain to probe. A value above 143 stores 143. -/
def R.DOMAIN_PROBE.SELECT : Fld := ⟨0, 0x00030044, 0, 8, .rw, 0⟩
def R.DOMAIN_PROBE.all : List Fld := [R.DOMAIN_PROBE.UNIT_REQ, R.DOMAIN_PROBE.STEWARD_REQ, R.DOMAIN_PROBE.STATE, R.DOMAIN_PROBE.STEP, R.DOMAIN_PROBE.SELECT]
/-- DOMAIN_ERR [0:0] CMD_REFUSED W1C (ch. 07): Set under R136. -/
def R.DOMAIN_ERR.CMD_REFUSED : Fld := ⟨0, 0x00030048, 0, 1, .w1c, 0⟩
def R.DOMAIN_ERR.all : List Fld := [R.DOMAIN_ERR.CMD_REFUSED]
/-- DORMANT_STATUS [23:16] BLOCKERS RO (ch. 07): Bit 16 + k − 1 is set while condition k of R137 fails, for k = 1 to 7, at all times: in both modes, and … -/
def R.DORMANT_STATUS.BLOCKERS : Fld := ⟨0, 0x00030100, 16, 8, .ro, 3⟩
/-- DORMANT_STATUS [8:8] MODE RO (ch. 07): 0 VOTE, 1 IDLE, from DORMANT_MODE. -/
def R.DORMANT_STATUS.MODE : Fld := ⟨0, 0x00030100, 8, 1, .ro, 0⟩
/-- DORMANT_STATUS [6:4] POINT RO (ch. 07): Last completed entry point, 0 to 6; 0 in ACTIVE. 7 is never reported. -/
def R.DORMANT_STATUS.POINT : Fld := ⟨0, 0x00030100, 4, 3, .ro, 0⟩
/-- DORMANT_STATUS [1:0] STATE RO (ch. 07): 0b00 ACTIVE, 0b01 ENTERING, 0b10 DORMANT, 0b11 WAKING. -/
def R.DORMANT_STATUS.STATE : Fld := ⟨0, 0x00030100, 0, 2, .ro, 0⟩
def R.DORMANT_STATUS.all : List Fld := [R.DORMANT_STATUS.BLOCKERS, R.DORMANT_STATUS.MODE, R.DORMANT_STATUS.POINT, R.DORMANT_STATUS.STATE]
/-- DORMANT_LAST [13:12] CAUSE RO (ch. 07): How the last entry ended: 0b00 none since power good, 0b01 woken by a bell, 0b10 unwound by a bell, 0b11 … -/
def R.DORMANT_LAST.CAUSE : Fld := ⟨0, 0x00030104, 12, 2, .ro, 0⟩
/-- DORMANT_LAST [10:8] FROM_POINT RO (ch. 07): Last completed point when it ended: 6 for a wake. -/
def R.DORMANT_LAST.FROM_POINT : Fld := ⟨0, 0x00030104, 8, 3, .ro, 0⟩
/-- DORMANT_LAST [4:0] BELL RO (ch. 07): The bell, when CAUSE is 0b01 or 0b10; 0 otherwise. -/
def R.DORMANT_LAST.BELL : Fld := ⟨0, 0x00030104, 0, 5, .ro, 0⟩
def R.DORMANT_LAST.all : List Fld := [R.DORMANT_LAST.CAUSE, R.DORMANT_LAST.FROM_POINT, R.DORMANT_LAST.BELL]
/-- DORMANT_COUNTS [31:16] WAKES RC (ch. 07): Wakes; saturates at 0xFFFF. Both fields clear on the same read. -/
def R.DORMANT_COUNTS.WAKES : Fld := ⟨0, 0x00030108, 16, 16, .rc, 0⟩
/-- DORMANT_COUNTS [15:0] UNWINDS RC (ch. 07): Unwinds; saturates at 0xFFFF. -/
def R.DORMANT_COUNTS.UNWINDS : Fld := ⟨0, 0x00030108, 0, 16, .rc, 0⟩
def R.DORMANT_COUNTS.all : List Fld := [R.DORMANT_COUNTS.WAKES, R.DORMANT_COUNTS.UNWINDS]
/-- DORMANT_IDLE_TICKS [31:0] TICKS RWL (ch. 07): From IDLE_TICKS. In IDLE mode, a written value below 32 stores 32. In VOTE mode, writes have no effect. -/
def R.DORMANT_IDLE_TICKS.TICKS : Fld := ⟨0, 0x0003010C, 0, 32, .rwl, 0⟩
def R.DORMANT_IDLE_TICKS.all : List Fld := [R.DORMANT_IDLE_TICKS.TICKS]
/-- BELL_ENABLE [31:0] ENABLE RWL (ch. 07): Bit b enables bell b (R145). -/
def R.BELL_ENABLE.ENABLE : Fld := ⟨0, 0x00030200, 0, 32, .rwl, 0xFFFFFFFF⟩
def R.BELL_ENABLE.all : List Fld := [R.BELL_ENABLE.ENABLE]
/-- BELL_PENDING [31:0] PENDING W1C (ch. 07): Bit b: bell b rang under R145. -/
def R.BELL_PENDING.PENDING : Fld := ⟨0, 0x00030204, 0, 32, .w1c, 0⟩
def R.BELL_PENDING.all : List Fld := [R.BELL_PENDING.PENDING]
/-- BELL_MUFFLED [31:0] MUFFLED W1C (ch. 07): Bit b: bell b is muffled (R146). Clearing a bit unmuffles the bell and zeroes its count. -/
def R.BELL_MUFFLED.MUFFLED : Fld := ⟨0, 0x00030208, 0, 32, .w1c, 0⟩
def R.BELL_MUFFLED.all : List Fld := [R.BELL_MUFFLED.MUFFLED]
/-- BELL_TILE_CAUSE [27:14] CC W1C (ch. 07): Bit 14 + t: TILE_t rang on CC attach, detach or PD preamble. -/
def R.BELL_TILE_CAUSE.CC : Fld := ⟨0, 0x0003020C, 14, 14, .w1c, 0⟩
/-- BELL_TILE_CAUSE [13:0] USB W1C (ch. 07): Bit t: TILE_t rang on resume, remote wake or U3 exit. -/
def R.BELL_TILE_CAUSE.USB : Fld := ⟨0, 0x0003020C, 0, 14, .w1c, 0⟩
def R.BELL_TILE_CAUSE.all : List Fld := [R.BELL_TILE_CAUSE.CC, R.BELL_TILE_CAUSE.USB]
/-- HW_MB_REQ [31:0] WORD RW (ch. 08): Request words (R164). Writes while PENDING = 1 have no effect. -/
def R.HW_MB_REQ.WORD (slot : Nat) (i : Nat) : Fld := ⟨slot, 0x00060000 + 4 * i, 0, 32, .rw, 0⟩
def R.HW_MB_REQ.all (slot : Nat) (i : Nat) : List Fld := [R.HW_MB_REQ.WORD slot i]
/-- HW_MB_REPLY [31:0] WORD RO (ch. 08): The last reply. It keeps its value until the next reply. -/
def R.HW_MB_REPLY.WORD (slot : Nat) (i : Nat) : Fld := ⟨slot, 0x00060100 + 4 * i, 0, 32, .ro, 0⟩
def R.HW_MB_REPLY.all (slot : Nat) (i : Nat) : List Fld := [R.HW_MB_REPLY.WORD slot i]
/-- HW_MB_CTRL [0:0] SEND WO (ch. 08): 1: send (R165). 0: no effect. [31:1] ignored. -/
def R.HW_MB_CTRL.SEND (slot : Nat) : Fld := ⟨slot, 0x00060200, 0, 1, .wo, 0⟩
def R.HW_MB_CTRL.all (slot : Nat) : List Fld := [R.HW_MB_CTRL.SEND slot]
/-- HW_MB_STATUS [2:2] SEND_REFUSED W1C (ch. 08): R165. -/
def R.HW_MB_STATUS.SEND_REFUSED (slot : Nat) : Fld := ⟨slot, 0x00060204, 2, 1, .w1c, 0⟩
/-- HW_MB_STATUS [1:1] REPLY_READY RO (ch. 08): 1: a reply arrived since the last SEND. -/
def R.HW_MB_STATUS.REPLY_READY (slot : Nat) : Fld := ⟨slot, 0x00060204, 1, 1, .ro, 0⟩
/-- HW_MB_STATUS [0:0] PENDING RO (ch. 08): 1: a request is outstanding. -/
def R.HW_MB_STATUS.PENDING (slot : Nat) : Fld := ⟨slot, 0x00060204, 0, 1, .ro, 0⟩
def R.HW_MB_STATUS.all (slot : Nat) : List Fld := [R.HW_MB_STATUS.SEND_REFUSED slot, R.HW_MB_STATUS.REPLY_READY slot, R.HW_MB_STATUS.PENDING slot]
/-- HW_STATUS [11:8] CAUSE RO (ch. 08): RECOVERY.CAUSE. -/
def R.HW_STATUS.CAUSE : Fld := ⟨0, 0x00060300, 8, 4, .ro, 0⟩
/-- HW_STATUS [7:7] ALIVE RO (ch. 08): 1: ALIVE reported on this start. -/
def R.HW_STATUS.ALIVE : Fld := ⟨0, 0x00060300, 7, 1, .ro, 0⟩
/-- HW_STATUS [6:6] TRIAL_SLOT RO (ch. 08): TRIAL.SLOT. -/
def R.HW_STATUS.TRIAL_SLOT : Fld := ⟨0, 0x00060300, 6, 1, .ro, 0⟩
/-- HW_STATUS [5:4] TRIAL_STATE RO (ch. 08): TRIAL.STATE. -/
def R.HW_STATUS.TRIAL_STATE : Fld := ⟨0, 0x00060300, 4, 2, .ro, 0⟩
/-- HW_STATUS [2:2] SLOT RO (ch. 08): The booted slot; 0 in recovery. -/
def R.HW_STATUS.SLOT : Fld := ⟨0, 0x00060300, 2, 1, .ro, 0⟩
/-- HW_STATUS [1:0] MODE RO (ch. 08): 0 ROM, 1 RUNNING, 2 RECOVERY; 3 is never reported. -/
def R.HW_STATUS.MODE : Fld := ⟨0, 0x00060300, 0, 2, .ro, 0⟩
def R.HW_STATUS.all : List Fld := [R.HW_STATUS.CAUSE, R.HW_STATUS.ALIVE, R.HW_STATUS.TRIAL_SLOT, R.HW_STATUS.TRIAL_STATE, R.HW_STATUS.SLOT, R.HW_STATUS.MODE]
/-- HW_VERSION [31:0] VERSION RO (ch. 08): VERSION of the booted slot; 0 in ROM or recovery. -/
def R.HW_VERSION.VERSION : Fld := ⟨0, 0x00060304, 0, 32, .ro, 0⟩
def R.HW_VERSION.all : List Fld := [R.HW_VERSION.VERSION]
/-- HW_LOG [31:16] DROPPED RO (ch. 08): R163; saturates at 0xFFFF. -/
def R.HW_LOG.DROPPED : Fld := ⟨0, 0x00060308, 16, 16, .ro, 0⟩
/-- HW_LOG [15:0] LENGTH RO (ch. 08): Log length in words. -/
def R.HW_LOG.LENGTH : Fld := ⟨0, 0x00060308, 0, 16, .ro, 0⟩
def R.HW_LOG.all : List Fld := [R.HW_LOG.DROPPED, R.HW_LOG.LENGTH]
/-- RING [31:0] BYTES RO (ch. 08): Ring bytes 4i to 4i + 3, byte 4i in [7:0]. -/
def R.RING.BYTES (k : Nat) (i : Nat) : Fld := ⟨0, 0x00060400 + 32 * k + 4 * i, 0, 32, .ro, 0⟩
def R.RING.all (k : Nat) (i : Nat) : List Fld := [R.RING.BYTES k i]
/-- START_STATUS [23:16] READY_SLOTS RO (ch. 09): Bit k: local slot k is ready (R192). -/
def R.START_STATUS.READY_SLOTS : Fld := ⟨0, 0x00030110, 16, 8, .ro, 0⟩
/-- START_STATUS [8:8] GRAFTED RO (ch. 09): 1: this member has grafted. Stays 0 for a single-Olulo stream, and for an unconfigured Olulo. -/
def R.START_STATUS.GRAFTED : Fld := ⟨0, 0x00030110, 8, 1, .ro, 0⟩
/-- START_STATUS [7:7] DRUMS_DONE RO (ch. 09): 1: every drum that a DRUM record lists has been brought up or held down. Set together with ALL_READY when … -/
def R.START_STATUS.DRUMS_DONE : Fld := ⟨0, 0x00030110, 7, 1, .ro, 0⟩
/-- START_STATUS [6:6] ALL_READY RO (ch. 09): 1: every occupied slot is ready. -/
def R.START_STATUS.ALL_READY : Fld := ⟨0, 0x00030110, 6, 1, .ro, 0⟩
/-- START_STATUS [5:5] SEEDS_DONE RO (ch. 09): 1: seed records read and compared. -/
def R.START_STATUS.SEEDS_DONE : Fld := ⟨0, 0x00030110, 5, 1, .ro, 0⟩
/-- START_STATUS [4:4] CANOPY_DONE RO (ch. 09): 1: the start's stream load ended, accepted or refused. CANOPY_STATUS tells which. -/
def R.START_STATUS.CANOPY_DONE : Fld := ⟨0, 0x00030110, 4, 1, .ro, 0⟩
/-- START_STATUS [3:3] SDRAM_DONE RO (ch. 09): 1: training ended READY or FAILED. -/
def R.START_STATUS.SDRAM_DONE : Fld := ⟨0, 0x00030110, 3, 1, .ro, 0⟩
/-- START_STATUS [2:2] FIRMWARE RO (ch. 09): 1: a slot was booted. Stays 0 in recovery mode. -/
def R.START_STATUS.FIRMWARE : Fld := ⟨0, 0x00030110, 2, 1, .ro, 0⟩
/-- START_STATUS [1:1] CORE_LOCKED RO (ch. 09): 1: CK_CORE first locked. -/
def R.START_STATUS.CORE_LOCKED : Fld := ⟨0, 0x00030110, 1, 1, .ro, 0⟩
/-- START_STATUS [0:0] REF RO (ch. 09): 1: the reference met R115. -/
def R.START_STATUS.REF : Fld := ⟨0, 0x00030110, 0, 1, .ro, 0⟩
def R.START_STATUS.all : List Fld := [R.START_STATUS.READY_SLOTS, R.START_STATUS.GRAFTED, R.START_STATUS.DRUMS_DONE, R.START_STATUS.ALL_READY, R.START_STATUS.SEEDS_DONE, R.START_STATUS.CANOPY_DONE, R.START_STATUS.SDRAM_DONE, R.START_STATUS.FIRMWARE, R.START_STATUS.CORE_LOCKED, R.START_STATUS.REF]
/-- FAULT_UNPRUNE [31:31] GO WO (ch. 10): 1: un-prune (R209); 0: no effect. Grove 0 only; others refused (R42). -/
def R.FAULT_UNPRUNE.GO (slot : Nat) : Fld := ⟨slot, 0x00040090, 31, 1, .wo, 0⟩
/-- FAULT_UNPRUNE [15:0] CODE WO (ch. 10): Channel code (Table 10-6). -/
def R.FAULT_UNPRUNE.CODE (slot : Nat) : Fld := ⟨slot, 0x00040090, 0, 16, .wo, 0⟩
def R.FAULT_UNPRUNE.all (slot : Nat) : List Fld := [R.FAULT_UNPRUNE.GO slot, R.FAULT_UNPRUNE.CODE slot]
/-- FAULT_UNPRUNE_STATUS [1:1] NOT_PRUNED W1C (ch. 10): R209. -/
def R.FAULT_UNPRUNE_STATUS.NOT_PRUNED (slot : Nat) : Fld := ⟨slot, 0x00040094, 1, 1, .w1c, 0⟩
/-- FAULT_UNPRUNE_STATUS [0:0] BUSY RO (ch. 10): R209. [31:2] reserved. -/
def R.FAULT_UNPRUNE_STATUS.BUSY (slot : Nat) : Fld := ⟨slot, 0x00040094, 0, 1, .ro, 0⟩
def R.FAULT_UNPRUNE_STATUS.all (slot : Nat) : List Fld := [R.FAULT_UNPRUNE_STATUS.NOT_PRUNED slot, R.FAULT_UNPRUNE_STATUS.BUSY slot]
/-- FAULT_SELECT [8:0] SOURCE RW (ch. 10): Source shown at 0x0004_00A4 to 0x0004_00B4. [31:9] reserved. -/
def R.FAULT_SELECT.SOURCE (slot : Nat) : Fld := ⟨slot, 0x000400A0, 0, 9, .rw, 0⟩
def R.FAULT_SELECT.all (slot : Nat) : List Fld := [R.FAULT_SELECT.SOURCE slot]
/-- TALLY_HEAD [15:0] COUNT RO (ch. 10): Tallies written, modulo 65,536. [31:16] reserved. -/
def R.TALLY_HEAD.COUNT (slot : Nat) : Fld := ⟨slot, 0x00050000, 0, 16, .ro, 0⟩
def R.TALLY_HEAD.all (slot : Nat) : List Fld := [R.TALLY_HEAD.COUNT slot]
/-- TALLY_TAIL [15:0] COUNT RW (ch. 10): Tallies consumed. A value v is stored if (HEAD − v) mod 65,536 ≤ 2^TALLY_DEPTH; otherwise HEAD is stored. … -/
def R.TALLY_TAIL.COUNT (slot : Nat) : Fld := ⟨slot, 0x00050004, 0, 16, .rw, 0⟩
def R.TALLY_TAIL.all (slot : Nat) : List Fld := [R.TALLY_TAIL.COUNT slot]
/-- TALLY_STATUS [7:4] DEPTH RO (ch. 10): 4–9; 0 when unconfigured. -/
def R.TALLY_STATUS.DEPTH (slot : Nat) : Fld := ⟨slot, 0x00050008, 4, 4, .ro, 0⟩
/-- TALLY_STATUS [0:0] OVERFLOW W1C (ch. 10): R215. [31:8], [3:1] reserved. -/
def R.TALLY_STATUS.OVERFLOW (slot : Nat) : Fld := ⟨slot, 0x00050008, 0, 1, .w1c, 0⟩
def R.TALLY_STATUS.all (slot : Nat) : List Fld := [R.TALLY_STATUS.DEPTH slot, R.TALLY_STATUS.OVERFLOW slot]
/-- TALLY_LOST [15:0] COUNT RC (ch. 10): Tallies discarded under R215; saturates at 0xFFFF. [31:16] reserved. -/
def R.TALLY_LOST.COUNT (slot : Nat) : Fld := ⟨slot, 0x0005000C, 0, 16, .rc, 0⟩
def R.TALLY_LOST.all (slot : Nat) : List Fld := [R.TALLY_LOST.COUNT slot]
/-- TALLY_ENTRY [31:0] BYTES RO (ch. 10): Bytes 4j to 4j + 3 of entry i, for i < 2^DEPTH; byte 4j in [7:0]. Addresses up to 0x0005_4FFF beyond the … -/
def R.TALLY_ENTRY.BYTES (slot : Nat) (i : Nat) (j : Nat) : Fld := ⟨slot, 0x00051000 + 32 * i + 4 * j, 0, 32, .ro, 0⟩
def R.TALLY_ENTRY.all (slot : Nat) (i : Nat) (j : Nat) : List Fld := [R.TALLY_ENTRY.BYTES slot i j]
/-- IDB_CFG [3:0] SLOW RW (ch. 11): Bit b: 1 runs rescans of IDB_b at 100 kHz, 0 at 400 kHz. The scan at start always runs at 400 kHz. [31:4] … -/
def R.IDB_CFG.SLOW : Fld := ⟨0, 0x00270000, 0, 4, .rw, 0⟩
def R.IDB_CFG.all : List Fld := [R.IDB_CFG.SLOW]
/-- IDB_CMD [31:31] GO WO (ch. 11): 1: run OP; 0: no effect. -/
def R.IDB_CMD.GO : Fld := ⟨0, 0x00270004, 31, 1, .wo, 0⟩
/-- IDB_CMD [9:8] OP WO (ch. 11): 0b00 none, 0b01 RELEASE, 0b10 RESCAN, 0b11 refused (R231). -/
def R.IDB_CMD.OP : Fld := ⟨0, 0x00270004, 8, 2, .wo, 0⟩
/-- IDB_CMD [5:4] BUS WO (ch. 11): Bus. -/
def R.IDB_CMD.BUS : Fld := ⟨0, 0x00270004, 4, 2, .wo, 0⟩
/-- IDB_CMD [2:0] ADDRESS WO (ch. 11): Address 0x50 + value. -/
def R.IDB_CMD.ADDRESS : Fld := ⟨0, 0x00270004, 0, 3, .wo, 0⟩
def R.IDB_CMD.all : List Fld := [R.IDB_CMD.GO, R.IDB_CMD.OP, R.IDB_CMD.BUS, R.IDB_CMD.ADDRESS]
/-- IDB_STATUS [2:2] SCANNED RO (ch. 11): 1: the scan at start is complete. -/
def R.IDB_STATUS.SCANNED : Fld := ⟨0, 0x00270008, 2, 1, .ro, 0⟩
/-- IDB_STATUS [1:1] CMD_REFUSED W1C (ch. 11): R231. -/
def R.IDB_STATUS.CMD_REFUSED : Fld := ⟨0, 0x00270008, 1, 1, .w1c, 0⟩
/-- IDB_STATUS [0:0] BUSY RO (ch. 11): R229. [31:3] reserved. -/
def R.IDB_STATUS.BUSY : Fld := ⟨0, 0x00270008, 0, 1, .ro, 0⟩
def R.IDB_STATUS.all : List Fld := [R.IDB_STATUS.SCANNED, R.IDB_STATUS.CMD_REFUSED, R.IDB_STATUS.BUSY]
/-- IDB_HOLD [29:16] TILES RO (ch. 11): Bit 16 + t: TILE_t held down. -/
def R.IDB_HOLD.TILES : Fld := ⟨0, 0x0027000C, 16, 14, .ro, 0⟩
/-- IDB_HOLD [2:2] TRUNK RO (ch. 11): 1: trunk held down. -/
def R.IDB_HOLD.TRUNK : Fld := ⟨0, 0x0027000C, 2, 1, .ro, 0⟩
/-- IDB_HOLD [1:0] DRUMS RO (ch. 11): Bit n: DRUM_n held down. Other bits reserved. -/
def R.IDB_HOLD.DRUMS : Fld := ⟨0, 0x0027000C, 0, 2, .ro, 0⟩
def R.IDB_HOLD.all : List Fld := [R.IDB_HOLD.TILES, R.IDB_HOLD.TRUNK, R.IDB_HOLD.DRUMS]
/-- IDB_SLOT [31:16] FORMAT RO (ch. 11): FORMAT of the first read; 0 for NONE. -/
def R.IDB_SLOT.FORMAT (b : Nat) (a : Nat) : Fld := ⟨0, 0x00270100 + 32 * b + 4 * a, 16, 16, .ro, 0⟩
/-- IDB_SLOT [15:8] CLASS RO (ch. 11): CLASS of the first read; 0 for NONE. -/
def R.IDB_SLOT.CLASS (b : Nat) (a : Nat) : Fld := ⟨0, 0x00270100 + 32 * b + 4 * a, 8, 8, .ro, 0⟩
/-- IDB_SLOT [6:6] EXPECTED RO (ch. 11): 1: an EXPECT record names the address. -/
def R.IDB_SLOT.EXPECTED (b : Nat) (a : Nat) : Fld := ⟨0, 0x00270100 + 32 * b + 4 * a, 6, 1, .ro, 0⟩
/-- IDB_SLOT [5:5] HOLD RO (ch. 11): 1: this address holds its unit down. -/
def R.IDB_SLOT.HOLD (b : Nat) (a : Nat) : Fld := ⟨0, 0x00270100 + 32 * b + 4 * a, 5, 1, .ro, 0⟩
/-- IDB_SLOT [2:0] OUTCOME RO (ch. 11): 0 NONE, 1 VALID, 2 UNREADABLE, 3 INVALID, 4 AMBIGUOUS, 5 MISMATCH, 6 RELEASED; 7 is never reported. [7], … -/
def R.IDB_SLOT.OUTCOME (b : Nat) (a : Nat) : Fld := ⟨0, 0x00270100 + 32 * b + 4 * a, 0, 3, .ro, 0⟩
def R.IDB_SLOT.all (b : Nat) (a : Nat) : List Fld := [R.IDB_SLOT.FORMAT b a, R.IDB_SLOT.CLASS b a, R.IDB_SLOT.EXPECTED b a, R.IDB_SLOT.HOLD b a, R.IDB_SLOT.OUTCOME b a]
/-- IDB_DATA [31:0] BYTES RO (ch. 11): Bytes 4i to 4i + 3 of the first read, byte 4i in [7:0]; 0 for NONE. -/
def R.IDB_DATA.BYTES (b : Nat) (a : Nat) (i : Nat) : Fld := ⟨0, 0x00271000 + 0x800 * b + 0x100 * a + 4 * i, 0, 32, .ro, 0⟩
def R.IDB_DATA.all (b : Nat) (a : Nat) (i : Nat) : List Fld := [R.IDB_DATA.BYTES b a i]
/-- WIN_SIG [31:16] TAG RO (ch. 12): Fixed. The responder of R188 reads 0 here. -/
def R.WIN_SIG.TAG (p : Nat) : Fld := ⟨16 + p, 0x0, 16, 16, .ro, 0x5242⟩
/-- WIN_SIG [15:8] PORT RO (ch. 12): Fixed. The responder of R188 reads 0 here. -/
def R.WIN_SIG.PORT (p : Nat) : Fld := ⟨16 + p, 0x0, 8, 8, .ro, p⟩
/-- WIN_SIG [7:0] FORMAT RO (ch. 12): Fixed. The responder of R188 reads 0 here. -/
def R.WIN_SIG.FORMAT (p : Nat) : Fld := ⟨16 + p, 0x0, 0, 8, .ro, 1⟩
def R.WIN_SIG.all (p : Nat) : List Fld := [R.WIN_SIG.TAG p, R.WIN_SIG.PORT p, R.WIN_SIG.FORMAT p]
/-- WIN_STATUS [4:4] MASTER RO (ch. 12): MASTER: DMA holds the bus. WB_EMPTY: write buffer empty. NMI, IRQ: output asserted. READY: … -/
def R.WIN_STATUS.MASTER (p : Nat) : Fld := ⟨16 + p, 0x4, 4, 1, .ro, 0⟩
/-- WIN_STATUS [3:3] WB_EMPTY RO (ch. 12): MASTER: DMA holds the bus. WB_EMPTY: write buffer empty. NMI, IRQ: output asserted. READY: … -/
def R.WIN_STATUS.WB_EMPTY (p : Nat) : Fld := ⟨16 + p, 0x4, 3, 1, .ro, 1⟩
/-- WIN_STATUS [2:2] NMI RO (ch. 12): MASTER: DMA holds the bus. WB_EMPTY: write buffer empty. NMI, IRQ: output asserted. READY: … -/
def R.WIN_STATUS.NMI (p : Nat) : Fld := ⟨16 + p, 0x4, 2, 1, .ro, 0⟩
/-- WIN_STATUS [1:1] IRQ RO (ch. 12): MASTER: DMA holds the bus. WB_EMPTY: write buffer empty. NMI, IRQ: output asserted. READY: … -/
def R.WIN_STATUS.IRQ (p : Nat) : Fld := ⟨16 + p, 0x4, 1, 1, .ro, 0⟩
/-- WIN_STATUS [0:0] READY RO (ch. 12): MASTER: DMA holds the bus. WB_EMPTY: write buffer empty. NMI, IRQ: output asserted. READY: … -/
def R.WIN_STATUS.READY (p : Nat) : Fld := ⟨16 + p, 0x4, 0, 1, .ro, 1⟩
def R.WIN_STATUS.all (p : Nat) : List Fld := [R.WIN_STATUS.MASTER p, R.WIN_STATUS.WB_EMPTY p, R.WIN_STATUS.NMI p, R.WIN_STATUS.IRQ p, R.WIN_STATUS.READY p]
/-- IND_ADDR [31:2] ADDR RW (ch. 12): Register address for indirect access; [1:0] read 0. -/
def R.IND_ADDR.ADDR (p : Nat) : Fld := ⟨16 + p, 0x8, 2, 30, .rw, 0⟩
def R.IND_ADDR.all (p : Nat) : List Fld := [R.IND_ADDR.ADDR p]
/-- IND_DATA [31:0] DATA RW (ch. 12): Indirect data (R247). -/
def R.IND_DATA.DATA (p : Nat) : Fld := ⟨16 + p, 0xC, 0, 32, .rw, 0⟩
def R.IND_DATA.all (p : Nat) : List Fld := [R.IND_DATA.DATA p]
/-- IND_CTRL [2:2] DIRECT RW (ch. 12): R247. Other bits 0. -/
def R.IND_CTRL.DIRECT (p : Nat) : Fld := ⟨16 + p, 0x10, 2, 1, .rw, 0⟩
/-- IND_CTRL [1:1] STREAM RW (ch. 12): R247. Other bits 0. -/
def R.IND_CTRL.STREAM (p : Nat) : Fld := ⟨16 + p, 0x10, 1, 1, .rw, 0⟩
/-- IND_CTRL [0:0] INC RW (ch. 12): R247. Other bits 0. -/
def R.IND_CTRL.INC (p : Nat) : Fld := ⟨16 + p, 0x10, 0, 1, .rw, 0⟩
def R.IND_CTRL.all (p : Nat) : List Fld := [R.IND_CTRL.DIRECT p, R.IND_CTRL.STREAM p, R.IND_CTRL.INC p]
/-- IND_CMD [0:0] READ WO (ch. 12): 1: issue a read of IND_ADDR. 0: no effect. -/
def R.IND_CMD.READ (p : Nat) : Fld := ⟨16 + p, 0x14, 0, 1, .wo, 0⟩
def R.IND_CMD.all (p : Nat) : List Fld := [R.IND_CMD.READ p]
/-- IND_STATUS [7:7] OVERLAP W1C (ch. 12): R248. -/
def R.IND_STATUS.OVERLAP (p : Nat) : Fld := ⟨16 + p, 0x18, 7, 1, .w1c, 0⟩
/-- IND_STATUS [6:6] TIMEOUT W1C (ch. 12): R248. -/
def R.IND_STATUS.TIMEOUT (p : Nat) : Fld := ⟨16 + p, 0x18, 6, 1, .w1c, 0⟩
/-- IND_STATUS [5:5] ABSENT W1C (ch. 12): R248. -/
def R.IND_STATUS.ABSENT (p : Nat) : Fld := ⟨16 + p, 0x18, 5, 1, .w1c, 0⟩
/-- IND_STATUS [4:4] REFUSED W1C (ch. 12): R248. -/
def R.IND_STATUS.REFUSED (p : Nat) : Fld := ⟨16 + p, 0x18, 4, 1, .w1c, 0⟩
/-- IND_STATUS [1:1] VALID RO (ch. 12): R247. Other bits 0. -/
def R.IND_STATUS.VALID (p : Nat) : Fld := ⟨16 + p, 0x18, 1, 1, .ro, 0⟩
/-- IND_STATUS [0:0] BUSY RO (ch. 12): R247. Other bits 0. -/
def R.IND_STATUS.BUSY (p : Nat) : Fld := ⟨16 + p, 0x18, 0, 1, .ro, 0⟩
def R.IND_STATUS.all (p : Nat) : List Fld := [R.IND_STATUS.OVERLAP p, R.IND_STATUS.TIMEOUT p, R.IND_STATUS.ABSENT p, R.IND_STATUS.REFUSED p, R.IND_STATUS.VALID p, R.IND_STATUS.BUSY p]
/-- WIN_IRQ [8:0] STATUS W1C (ch. 12): Mirror of GROVE_IRQ_STATUS (R253). -/
def R.WIN_IRQ.STATUS (p : Nat) : Fld := ⟨16 + p, 0x1C, 0, 9, .w1c, 0⟩
def R.WIN_IRQ.all (p : Nat) : List Fld := [R.WIN_IRQ.STATUS p]
/-- DOORBELL [27:24] OP WO (ch. 12): R249. -/
def R.DOORBELL.OP (p : Nat) : Fld := ⟨16 + p, 0x20, 24, 4, .wo, 0⟩
/-- DOORBELL [19:16] TARGET WO (ch. 12): R249. -/
def R.DOORBELL.TARGET (p : Nat) : Fld := ⟨16 + p, 0x20, 16, 4, .wo, 0⟩
/-- DOORBELL [13:8] COUNT WO (ch. 12): R249. -/
def R.DOORBELL.COUNT (p : Nat) : Fld := ⟨16 + p, 0x20, 8, 6, .wo, 0⟩
/-- DOORBELL [5:0] FIRST WO (ch. 12): R249. -/
def R.DOORBELL.FIRST (p : Nat) : Fld := ⟨16 + p, 0x20, 0, 6, .wo, 0⟩
def R.DOORBELL.all (p : Nat) : List Fld := [R.DOORBELL.OP p, R.DOORBELL.TARGET p, R.DOORBELL.COUNT p, R.DOORBELL.FIRST p]
/-- DOORBELL_STATUS [21:16] MOVED RO (ch. 12): R249. -/
def R.DOORBELL_STATUS.MOVED (p : Nat) : Fld := ⟨16 + p, 0x24, 16, 6, .ro, 0⟩
/-- DOORBELL_STATUS [15:8] CODE RO (ch. 12): R249. -/
def R.DOORBELL_STATUS.CODE (p : Nat) : Fld := ⟨16 + p, 0x24, 8, 8, .ro, 0⟩
/-- DOORBELL_STATUS [3:3] IGNORED W1C (ch. 12): R249. -/
def R.DOORBELL_STATUS.IGNORED (p : Nat) : Fld := ⟨16 + p, 0x24, 3, 1, .w1c, 0⟩
/-- DOORBELL_STATUS [2:2] TAKEN RO (ch. 12): R249. -/
def R.DOORBELL_STATUS.TAKEN (p : Nat) : Fld := ⟨16 + p, 0x24, 2, 1, .ro, 0⟩
/-- DOORBELL_STATUS [1:0] STATE RO (ch. 12): R249. -/
def R.DOORBELL_STATUS.STATE (p : Nat) : Fld := ⟨16 + p, 0x24, 0, 2, .ro, 0⟩
def R.DOORBELL_STATUS.all (p : Nat) : List Fld := [R.DOORBELL_STATUS.MOVED p, R.DOORBELL_STATUS.CODE p, R.DOORBELL_STATUS.IGNORED p, R.DOORBELL_STATUS.TAKEN p, R.DOORBELL_STATUS.STATE p]
/-- PAGE [28:24] REGION RW (ch. 12): Paged view at byte UNIT × 2,048 of REGION (R251). -/
def R.PAGE.REGION (p : Nat) : Fld := ⟨16 + p, 0x30, 24, 5, .rw, 0⟩
/-- PAGE [23:0] UNIT RW (ch. 12): Paged view at byte UNIT × 2,048 of REGION (R251). -/
def R.PAGE.UNIT (p : Nat) : Fld := ⟨16 + p, 0x30, 0, 24, .rw, 0⟩
def R.PAGE.all (p : Nat) : List Fld := [R.PAGE.REGION p, R.PAGE.UNIT p]
/-- PAGE_STATUS [5:5] ERROR W1C (ch. 12): R251. -/
def R.PAGE_STATUS.ERROR (p : Nat) : Fld := ⟨16 + p, 0x34, 5, 1, .w1c, 0⟩
/-- PAGE_STATUS [4:4] REFUSED W1C (ch. 12): R251. -/
def R.PAGE_STATUS.REFUSED (p : Nat) : Fld := ⟨16 + p, 0x34, 4, 1, .w1c, 0⟩
/-- PAGE_STATUS [1:1] WRITING RO (ch. 12): R252. -/
def R.PAGE_STATUS.WRITING (p : Nat) : Fld := ⟨16 + p, 0x34, 1, 1, .ro, 0⟩
/-- PAGE_STATUS [0:0] FILLING RO (ch. 12): R252. -/
def R.PAGE_STATUS.FILLING (p : Nat) : Fld := ⟨16 + p, 0x34, 0, 1, .ro, 0⟩
def R.PAGE_STATUS.all (p : Nat) : List Fld := [R.PAGE_STATUS.ERROR p, R.PAGE_STATUS.REFUSED p, R.PAGE_STATUS.WRITING p, R.PAGE_STATUS.FILLING p]
/-- PAGE_CMD [0:0] REFILL WO (ch. 12): 1: fill again from the region. -/
def R.PAGE_CMD.REFILL (p : Nat) : Fld := ⟨16 + p, 0x38, 0, 1, .wo, 0⟩
def R.PAGE_CMD.all (p : Nat) : List Fld := [R.PAGE_CMD.REFILL p]
/-- DMA_HOST [23:0] ADDR RW (ch. 12): Host address (R254). -/
def R.DMA_HOST.ADDR (p : Nat) : Fld := ⟨16 + p, 0x40, 0, 24, .rw, 0⟩
def R.DMA_HOST.all (p : Nat) : List Fld := [R.DMA_HOST.ADDR p]
/-- DMA_REGION [4:0] REGION RW (ch. 12): Region of the grove. -/
def R.DMA_REGION.REGION (p : Nat) : Fld := ⟨16 + p, 0x44, 0, 5, .rw, 0⟩
def R.DMA_REGION.all (p : Nat) : List Fld := [R.DMA_REGION.REGION p]
/-- DMA_OFFSET [31:0] OFFSET RW (ch. 12): Byte offset in the region. -/
def R.DMA_OFFSET.OFFSET (p : Nat) : Fld := ⟨16 + p, 0x48, 0, 32, .rw, 0⟩
def R.DMA_OFFSET.all (p : Nat) : List Fld := [R.DMA_OFFSET.OFFSET p]
/-- DMA_LEN [16:0] BYTES RW (ch. 12): 1 to 65,536. -/
def R.DMA_LEN.BYTES (p : Nat) : Fld := ⟨16 + p, 0x4C, 0, 17, .rw, 0⟩
def R.DMA_LEN.all (p : Nat) : List Fld := [R.DMA_LEN.BYTES p]
/-- DMA_CTRL [15:8] TAG RW (ch. 12): R254, R256. -/
def R.DMA_CTRL.TAG (p : Nat) : Fld := ⟨16 + p, 0x50, 8, 8, .rw, 0⟩
/-- DMA_CTRL [3:3] CANCEL WO (ch. 12): R254, R256. -/
def R.DMA_CTRL.CANCEL (p : Nat) : Fld := ⟨16 + p, 0x50, 3, 1, .wo, 0⟩
/-- DMA_CTRL [2:2] NOTIFY RW (ch. 12): R254, R256. -/
def R.DMA_CTRL.NOTIFY (p : Nat) : Fld := ⟨16 + p, 0x50, 2, 1, .rw, 0⟩
/-- DMA_CTRL [1:1] DIR RW (ch. 12): R254, R256. -/
def R.DMA_CTRL.DIR (p : Nat) : Fld := ⟨16 + p, 0x50, 1, 1, .rw, 0⟩
/-- DMA_CTRL [0:0] GO WO (ch. 12): R254, R256. -/
def R.DMA_CTRL.GO (p : Nat) : Fld := ⟨16 + p, 0x50, 0, 1, .wo, 0⟩
def R.DMA_CTRL.all (p : Nat) : List Fld := [R.DMA_CTRL.TAG p, R.DMA_CTRL.CANCEL p, R.DMA_CTRL.NOTIFY p, R.DMA_CTRL.DIR p, R.DMA_CTRL.GO p]
/-- DMA_DONE_ADDR [23:0] ADDR RW (ch. 12): Host address of the notify write. -/
def R.DMA_DONE_ADDR.ADDR (p : Nat) : Fld := ⟨16 + p, 0x54, 0, 24, .rw, 0⟩
def R.DMA_DONE_ADDR.all (p : Nat) : List Fld := [R.DMA_DONE_ADDR.ADDR p]
/-- DMA_STATUS [24:8] MOVED RO (ch. 12): R256. -/
def R.DMA_STATUS.MOVED (p : Nat) : Fld := ⟨16 + p, 0x58, 8, 17, .ro, 0⟩
/-- DMA_STATUS [2:0] STATE RO (ch. 12): R256. -/
def R.DMA_STATUS.STATE (p : Nat) : Fld := ⟨16 + p, 0x58, 0, 3, .ro, 0⟩
def R.DMA_STATUS.all (p : Nat) : List Fld := [R.DMA_STATUS.MOVED p, R.DMA_STATUS.STATE p]
/-- RBP_CFG [13:13] PRUNED RO (ch. 12): 1: the port is pruned. -/
def R.RBP_CFG.PRUNED (p : Nat) : Fld := ⟨0, 0x00210000 + 0x10000 * p + 0x0, 13, 1, .ro, 0⟩
/-- RBP_CFG [12:12] SERVING RO (ch. 12): 0: strap responder; 1: stream mode. -/
def R.RBP_CFG.SERVING (p : Nat) : Fld := ⟨0, 0x00210000 + 0x10000 * p + 0x0, 12, 1, .ro, 0⟩
/-- RBP_CFG [9:8] STRAP RO (ch. 12): Code of R188. -/
def R.RBP_CFG.STRAP (p : Nat) : Fld := ⟨0, 0x00210000 + 0x10000 * p + 0x0, 8, 2, .ro, 0⟩
/-- RBP_CFG [5:5] DMA RO (ch. 12): FLAGS.DMA. -/
def R.RBP_CFG.DMA (p : Nat) : Fld := ⟨0, 0x00210000 + 0x10000 * p + 0x0, 5, 1, .ro, 0⟩
/-- RBP_CFG [4:4] WIDTH16 RO (ch. 12): 1: WIDTH 16. -/
def R.RBP_CFG.WIDTH16 (p : Nat) : Fld := ⟨0, 0x00210000 + 0x10000 * p + 0x0, 4, 1, .ro, 0⟩
/-- RBP_CFG [1:0] MODE RO (ch. 12): 0 clocked, 1 handshake, 2 split strobe; 3 never reported. Other bits read 0. -/
def R.RBP_CFG.MODE (p : Nat) : Fld := ⟨0, 0x00210000 + 0x10000 * p + 0x0, 0, 2, .ro, 0⟩
def R.RBP_CFG.all (p : Nat) : List Fld := [R.RBP_CFG.PRUNED p, R.RBP_CFG.SERVING p, R.RBP_CFG.STRAP p, R.RBP_CFG.DMA p, R.RBP_CFG.WIDTH16 p, R.RBP_CFG.MODE p]
/-- RBP_TIMING [3:3] NMI_OD RW (ch. 12): R237, R242, R253. LANE_SWAP has no effect with WIDTH 8. Other bits read 0. -/
def R.RBP_TIMING.NMI_OD (p : Nat) : Fld := ⟨0, 0x00210000 + 0x10000 * p + 0x4, 3, 1, .rw, 0⟩
/-- RBP_TIMING [2:2] IRQ_OD RW (ch. 12): R237, R242, R253. LANE_SWAP has no effect with WIDTH 8. Other bits read 0. -/
def R.RBP_TIMING.IRQ_OD (p : Nat) : Fld := ⟨0, 0x00210000 + 0x10000 * p + 0x4, 2, 1, .rw, 0⟩
/-- RBP_TIMING [1:1] LANE_SWAP RW (ch. 12): R237, R242, R253. LANE_SWAP has no effect with WIDTH 8. Other bits read 0. -/
def R.RBP_TIMING.LANE_SWAP (p : Nat) : Fld := ⟨0, 0x00210000 + 0x10000 * p + 0x4, 1, 1, .rw, 0⟩
/-- RBP_TIMING [0:0] CLK_EDGE RW (ch. 12): R237, R242, R253. LANE_SWAP has no effect with WIDTH 8. Other bits read 0. -/
def R.RBP_TIMING.CLK_EDGE (p : Nat) : Fld := ⟨0, 0x00210000 + 0x10000 * p + 0x4, 0, 1, .rw, 0⟩
def R.RBP_TIMING.all (p : Nat) : List Fld := [R.RBP_TIMING.NMI_OD p, R.RBP_TIMING.IRQ_OD p, R.RBP_TIMING.LANE_SWAP p, R.RBP_TIMING.CLK_EDGE p]
/-- RBP_DMA_TIMING [31:24] RELEASE RW (ch. 12): 0–255 µs. -/
def R.RBP_DMA_TIMING.RELEASE (p : Nat) : Fld := ⟨0, 0x00210000 + 0x10000 * p + 0x8, 24, 8, .rw, 4⟩
/-- RBP_DMA_TIMING [23:16] BURST RW (ch. 12): Cycles per burst; a written 0 stores 1. -/
def R.RBP_DMA_TIMING.BURST (p : Nat) : Fld := ⟨0, 0x00210000 + 0x10000 * p + 0x8, 16, 8, .rw, 16⟩
/-- RBP_DMA_TIMING [15:8] STROBE RW (ch. 12): W, in T; a written 0 stores 1. -/
def R.RBP_DMA_TIMING.STROBE (p : Nat) : Fld := ⟨0, 0x00210000 + 0x10000 * p + 0x8, 8, 8, .rw, 2⟩
/-- RBP_DMA_TIMING [7:4] HOLD RW (ch. 12): H; a written 0 stores 1. -/
def R.RBP_DMA_TIMING.HOLD (p : Nat) : Fld := ⟨0, 0x00210000 + 0x10000 * p + 0x8, 4, 4, .rw, 1⟩
/-- RBP_DMA_TIMING [3:0] SETUP RW (ch. 12): S; a written 0 stores 1. -/
def R.RBP_DMA_TIMING.SETUP (p : Nat) : Fld := ⟨0, 0x00210000 + 0x10000 * p + 0x8, 0, 4, .rw, 1⟩
def R.RBP_DMA_TIMING.all (p : Nat) : List Fld := [R.RBP_DMA_TIMING.RELEASE p, R.RBP_DMA_TIMING.BURST p, R.RBP_DMA_TIMING.STROBE p, R.RBP_DMA_TIMING.HOLD p, R.RBP_DMA_TIMING.SETUP p]
/-- RBP_DMA_GRANT [7:0] LIMIT RW (ch. 12): µs; a written 0 stores 1. [31:8] reserved. -/
def R.RBP_DMA_GRANT.LIMIT (p : Nat) : Fld := ⟨0, 0x00210000 + 0x10000 * p + 0xC, 0, 8, .rw, 50⟩
def R.RBP_DMA_GRANT.all (p : Nat) : List Fld := [R.RBP_DMA_GRANT.LIMIT p]
/-- RBP_COUNTS [31:24] PROTOCOL RC (ch. 12): Accesses ignored under R240. -/
def R.RBP_COUNTS.PROTOCOL (p : Nat) : Fld := ⟨0, 0x00210000 + 0x10000 * p + 0x10, 24, 8, .rc, 0⟩
/-- RBP_COUNTS [23:16] POSTED_DROPS RC (ch. 12): R246. -/
def R.RBP_COUNTS.POSTED_DROPS (p : Nat) : Fld := ⟨0, 0x00210000 + 0x10000 * p + 0x10, 16, 8, .rc, 0⟩
/-- RBP_COUNTS [15:8] WAIT_TIMEOUTS RC (ch. 12): R240. -/
def R.RBP_COUNTS.WAIT_TIMEOUTS (p : Nat) : Fld := ⟨0, 0x00210000 + 0x10000 * p + 0x10, 8, 8, .rc, 0⟩
/-- RBP_COUNTS [7:0] HOLDS_DISCARDED RC (ch. 12): R245. All four saturate at 0xFF and clear on the same read. -/
def R.RBP_COUNTS.HOLDS_DISCARDED (p : Nat) : Fld := ⟨0, 0x00210000 + 0x10000 * p + 0x10, 0, 8, .rc, 0⟩
def R.RBP_COUNTS.all (p : Nat) : List Fld := [R.RBP_COUNTS.PROTOCOL p, R.RBP_COUNTS.POSTED_DROPS p, R.RBP_COUNTS.WAIT_TIMEOUTS p, R.RBP_COUNTS.HOLDS_DISCARDED p]
/-- TILE_CFG [23:16] GROVE RO (ch. 13): Owner's grove number; 0 for OFF. -/
def R.TILE_CFG.GROVE (t : Nat) : Fld := ⟨0, tileBase t + 0x0, 16, 8, .ro, 0⟩
/-- TILE_CFG [15:12] HUB_PORT RO (ch. 13): 1–14 for DOWN; 0 otherwise. -/
def R.TILE_CFG.HUB_PORT (t : Nat) : Fld := ⟨0, tileBase t + 0x0, 12, 4, .ro, 0⟩
/-- TILE_CFG [10:8] PROFILE RO (ch. 13): PDPROF index. -/
def R.TILE_CFG.PROFILE (t : Nat) : Fld := ⟨0, tileBase t + 0x0, 8, 3, .ro, 0⟩
/-- TILE_CFG [5:5] MOISTURE RO (ch. 13): FLAGS bit 1. -/
def R.TILE_CFG.MOISTURE (t : Nat) : Fld := ⟨0, tileBase t + 0x0, 5, 1, .ro, 0⟩
/-- TILE_CFG [4:4] SUPERSPEED RO (ch. 13): FLAGS bit 0. -/
def R.TILE_CFG.SUPERSPEED (t : Nat) : Fld := ⟨0, tileBase t + 0x0, 4, 1, .ro, 0⟩
/-- TILE_CFG [1:0] ROLE RO (ch. 13): 0 OFF, 1 UP, 2 DOWN; 3 never reported. -/
def R.TILE_CFG.ROLE (t : Nat) : Fld := ⟨0, tileBase t + 0x0, 0, 2, .ro, 0⟩
def R.TILE_CFG.all (t : Nat) : List Fld := [R.TILE_CFG.GROVE t, R.TILE_CFG.HUB_PORT t, R.TILE_CFG.PROFILE t, R.TILE_CFG.MOISTURE t, R.TILE_CFG.SUPERSPEED t, R.TILE_CFG.ROLE t]
/-- TILE_STATUS [31:31] PRUNED RO (ch. 13): 1: pruned (R207). -/
def R.TILE_STATUS.PRUNED (t : Nat) : Fld := ⟨0, tileBase t + 0x4, 31, 1, .ro, 0⟩
/-- TILE_STATUS [30:30] HELD RO (ch. 13): 1: held down (R226). -/
def R.TILE_STATUS.HELD (t : Nat) : Fld := ⟨0, tileBase t + 0x4, 30, 1, .ro, 0⟩
/-- TILE_STATUS [28:28] READY RO (ch. 13): 1: the grove is ready and the tile serves its role. -/
def R.TILE_STATUS.READY (t : Nat) : Fld := ⟨0, tileBase t + 0x4, 28, 1, .ro, 0⟩
/-- TILE_STATUS [19:16] LINK RO (ch. 13): 0 DISABLED, 1 DISCONNECTED, 2 RESETTING, 3 ENABLED (L0 or U0), 4 L1, 5 U1, 6 U2, 7 SUSPENDED (L2 or U3), 8 … -/
def R.TILE_STATUS.LINK (t : Nat) : Fld := ⟨0, tileBase t + 0x4, 16, 4, .ro, 0⟩
/-- TILE_STATUS [14:12] SPEED RO (ch. 13): 0 none, 1 low, 2 full, 3 high, 4 Gen 1, 5 Gen 2; 6, 7 never reported. -/
def R.TILE_STATUS.SPEED (t : Nat) : Fld := ⟨0, tileBase t + 0x4, 12, 3, .ro, 0⟩
/-- TILE_STATUS [9:9] VBUS_ON RO (ch. 13): 1: the tile sources VBUS. -/
def R.TILE_STATUS.VBUS_ON (t : Nat) : Fld := ⟨0, tileBase t + 0x4, 9, 1, .ro, 0⟩
/-- TILE_STATUS [8:8] VBUS_PRESENT RO (ch. 13): 1: VBUS above the valid threshold, from any source. -/
def R.TILE_STATUS.VBUS_PRESENT (t : Nat) : Fld := ⟨0, tileBase t + 0x4, 8, 1, .ro, 0⟩
/-- TILE_STATUS [5:4] ORIENT RO (ch. 13): 0 none, 1 CC1, 2 CC2; 3 never reported. -/
def R.TILE_STATUS.ORIENT (t : Nat) : Fld := ⟨0, tileBase t + 0x4, 4, 2, .ro, 0⟩
/-- TILE_STATUS [1:0] ATTACH RO (ch. 13): 0 detached, 1 debouncing, 2 attached; 3 never reported. Other bits read 0. -/
def R.TILE_STATUS.ATTACH (t : Nat) : Fld := ⟨0, tileBase t + 0x4, 0, 2, .ro, 0⟩
def R.TILE_STATUS.all (t : Nat) : List Fld := [R.TILE_STATUS.PRUNED t, R.TILE_STATUS.HELD t, R.TILE_STATUS.READY t, R.TILE_STATUS.LINK t, R.TILE_STATUS.SPEED t, R.TILE_STATUS.VBUS_ON t, R.TILE_STATUS.VBUS_PRESENT t, R.TILE_STATUS.ORIENT t, R.TILE_STATUS.ATTACH t]
/-- TILE_COUNTS [31:24] RECOVERIES RC (ch. 13): SuperSpeed recovery entries. -/
def R.TILE_COUNTS.RECOVERIES (t : Nat) : Fld := ⟨0, tileBase t + 0x8, 24, 8, .rc, 0⟩
/-- TILE_COUNTS [23:16] RESETS RC (ch. 13): Port resets of any kind. -/
def R.TILE_COUNTS.RESETS (t : Nat) : Fld := ⟨0, tileBase t + 0x8, 16, 8, .rc, 0⟩
/-- TILE_COUNTS [15:8] CONNECTS RC (ch. 13): Connections reported. -/
def R.TILE_COUNTS.CONNECTS (t : Nat) : Fld := ⟨0, tileBase t + 0x8, 8, 8, .rc, 0⟩
/-- TILE_COUNTS [7:0] ERRORS RC (ch. 13): Packets received with a bad CRC or bad framing. All four saturate at 0xFF and clear on the same read. -/
def R.TILE_COUNTS.ERRORS (t : Nat) : Fld := ⟨0, tileBase t + 0x8, 0, 8, .rc, 0⟩
def R.TILE_COUNTS.all (t : Nat) : List Fld := [R.TILE_COUNTS.RECOVERIES t, R.TILE_COUNTS.RESETS t, R.TILE_COUNTS.CONNECTS t, R.TILE_COUNTS.ERRORS t]
/-- HUB_SELF [16:16] WAKE_EN RO (ch. 13): 1: the host enabled the hub's remote wake. -/
def R.HUB_SELF.WAKE_EN (slot : Nat) : Fld := ⟨slot, 0x00200000, 16, 1, .ro, 0⟩
/-- HUB_SELF [13:12] STATE RO (ch. 13): 0 DETACHED, 1 ADDRESSED, 2 CONFIGURED, 3 SUSPENDED. -/
def R.HUB_SELF.STATE (slot : Nat) : Fld := ⟨slot, 0x00200000, 12, 2, .ro, 0⟩
/-- HUB_SELF [10:8] UP_SPEED RO (ch. 13): As TILE_STATUS.SPEED; 0 for Taproot. -/
def R.HUB_SELF.UP_SPEED (slot : Nat) : Fld := ⟨slot, 0x00200000, 8, 3, .ro, 0⟩
/-- HUB_SELF [7:4] PORTS RO (ch. 13): n + 1 for a virtual hub; n for Taproot. -/
def R.HUB_SELF.PORTS (slot : Nat) : Fld := ⟨slot, 0x00200000, 4, 4, .ro, 0⟩
/-- HUB_SELF [1:0] KIND RO (ch. 13): 1 virtual hub, 2 Taproot; 0 and 3 never reported. -/
def R.HUB_SELF.KIND (slot : Nat) : Fld := ⟨slot, 0x00200000, 0, 2, .ro, 0⟩
def R.HUB_SELF.all (slot : Nat) : List Fld := [R.HUB_SELF.WAKE_EN slot, R.HUB_SELF.STATE slot, R.HUB_SELF.UP_SPEED slot, R.HUB_SELF.PORTS slot, R.HUB_SELF.KIND slot]
/-- HUB_ID [31:16] PRODUCT RO (ch. 13): idProduct (R263). -/
def R.HUB_ID.PRODUCT (slot : Nat) : Fld := ⟨slot, 0x00200004, 16, 16, .ro, 0⟩
/-- HUB_ID [15:0] VENDOR RO (ch. 13): idVendor. -/
def R.HUB_ID.VENDOR (slot : Nat) : Fld := ⟨slot, 0x00200004, 0, 16, .ro, 0⟩
def R.HUB_ID.all (slot : Nat) : List Fld := [R.HUB_ID.PRODUCT slot, R.HUB_ID.VENDOR slot]
/-- HUB_PORT [20:20] CONNECT RO (ch. 13): Port connection. -/
def R.HUB_PORT.CONNECT (slot : Nat) (k : Nat) : Fld := ⟨slot, 0x00200010 + 4 * (k - 1), 20, 1, .ro, 0⟩
/-- HUB_PORT [19:19] OVER_CURRENT RO (ch. 13): R273. -/
def R.HUB_PORT.OVER_CURRENT (slot : Nat) (k : Nat) : Fld := ⟨slot, 0x00200010 + 4 * (k - 1), 19, 1, .ro, 0⟩
/-- HUB_PORT [18:18] SUSPEND RO (ch. 13): Port suspended (L2 or U3). -/
def R.HUB_PORT.SUSPEND (slot : Nat) (k : Nat) : Fld := ⟨slot, 0x00200010 + 4 * (k - 1), 18, 1, .ro, 0⟩
/-- HUB_PORT [17:17] ENABLED RO (ch. 13): Port enabled. -/
def R.HUB_PORT.ENABLED (slot : Nat) (k : Nat) : Fld := ⟨slot, 0x00200010 + 4 * (k - 1), 17, 1, .ro, 0⟩
/-- HUB_PORT [16:16] POWER RO (ch. 13): PORT_POWER; 1 for the device function's port. -/
def R.HUB_PORT.POWER (slot : Nat) (k : Nat) : Fld := ⟨slot, 0x00200010 + 4 * (k - 1), 16, 1, .ro, 0⟩
/-- HUB_PORT [11:8] LINK RO (ch. 13): As TILE_STATUS.LINK. -/
def R.HUB_PORT.LINK (slot : Nat) (k : Nat) : Fld := ⟨slot, 0x00200010 + 4 * (k - 1), 8, 4, .ro, 0⟩
/-- HUB_PORT [6:4] SPEED RO (ch. 13): As TILE_STATUS.SPEED. -/
def R.HUB_PORT.SPEED (slot : Nat) (k : Nat) : Fld := ⟨slot, 0x00200010 + 4 * (k - 1), 4, 3, .ro, 0⟩
/-- HUB_PORT [3:0] TILE RO (ch. 13): The tile; 0xF for the device function. -/
def R.HUB_PORT.TILE (slot : Nat) (k : Nat) : Fld := ⟨slot, 0x00200010 + 4 * (k - 1), 0, 4, .ro, 0⟩
def R.HUB_PORT.all (slot : Nat) (k : Nat) : List Fld := [R.HUB_PORT.CONNECT slot k, R.HUB_PORT.OVER_CURRENT slot k, R.HUB_PORT.SUSPEND slot k, R.HUB_PORT.ENABLED slot k, R.HUB_PORT.POWER slot k, R.HUB_PORT.LINK slot k, R.HUB_PORT.SPEED slot k, R.HUB_PORT.TILE slot k]
/-- HUB_COUNTS [31:16] TT_DISCARDS RC (ch. 13): R270. -/
def R.HUB_COUNTS.TT_DISCARDS (slot : Nat) : Fld := ⟨slot, 0x00200050, 16, 16, .rc, 0⟩
/-- HUB_COUNTS [15:0] SCHEDULE_MISSES RC (ch. 13): R271. Both saturate at 0xFFFF and clear on the same read. -/
def R.HUB_COUNTS.SCHEDULE_MISSES (slot : Nat) : Fld := ⟨slot, 0x00200050, 0, 16, .rc, 0⟩
def R.HUB_COUNTS.all (slot : Nat) : List Fld := [R.HUB_COUNTS.TT_DISCARDS slot, R.HUB_COUNTS.SCHEDULE_MISSES slot]
/-- TAP_STATUS [23:16] PIPES RO (ch. 14): Bit k: raw pipe k is open. -/
def R.TAP_STATUS.PIPES (slot : Nat) : Fld := ⟨slot, 0x00200100, 16, 8, .ro, 0⟩
/-- TAP_STATUS [13:8] DEVICES RO (ch. 14): Handles in use, 0–32. -/
def R.TAP_STATUS.DEVICES (slot : Nat) : Fld := ⟨slot, 0x00200100, 8, 6, .ro, 0⟩
/-- TAP_STATUS [1:0] STATE RO (ch. 14): 0 STOPPED (not served, or the grove not ready); 1 RUNNING; 2 SUSPENDED (R300); 3 HALTED. -/
def R.TAP_STATUS.STATE (slot : Nat) : Fld := ⟨slot, 0x00200100, 0, 2, .ro, 0⟩
def R.TAP_STATUS.all (slot : Nat) : List Fld := [R.TAP_STATUS.PIPES slot, R.TAP_STATUS.DEVICES slot, R.TAP_STATUS.STATE slot]
/-- TAP_PENDING [15:0] QUEUES RO (ch. 14): Bit q: the pull side of target q holds a record. [31:16] reserved. -/
def R.TAP_PENDING.QUEUES (slot : Nat) : Fld := ⟨slot, 0x00200104, 0, 16, .ro, 0⟩
def R.TAP_PENDING.all (slot : Nat) : List Fld := [R.TAP_PENDING.QUEUES slot]
/-- TAP_DEVICES [31:0] HANDLES RO (ch. 14): Bit h − 1: handle h is in use. -/
def R.TAP_DEVICES.HANDLES (slot : Nat) : Fld := ⟨slot, 0x00200108, 0, 32, .ro, 0⟩
def R.TAP_DEVICES.all (slot : Nat) : List Fld := [R.TAP_DEVICES.HANDLES slot]
/-- TAP_LOST [31:24] PAD RC (ch. 14): R291. -/
def R.TAP_LOST.PAD (slot : Nat) : Fld := ⟨slot, 0x0020010C, 24, 8, .rc, 0⟩
/-- TAP_LOST [23:16] POINTER RC (ch. 14): - -/
def R.TAP_LOST.POINTER (slot : Nat) : Fld := ⟨slot, 0x0020010C, 16, 8, .rc, 0⟩
/-- TAP_LOST [15:8] KEYS RC (ch. 14): - -/
def R.TAP_LOST.KEYS (slot : Nat) : Fld := ⟨slot, 0x0020010C, 8, 8, .rc, 0⟩
/-- TAP_LOST [7:0] EVENTS RC (ch. 14): All four saturate at 0xFF and clear on the same read. -/
def R.TAP_LOST.EVENTS (slot : Nat) : Fld := ⟨slot, 0x0020010C, 0, 8, .rc, 0⟩
def R.TAP_LOST.all (slot : Nat) : List Fld := [R.TAP_LOST.PAD slot, R.TAP_LOST.POINTER slot, R.TAP_LOST.KEYS slot, R.TAP_LOST.EVENTS slot]
/-- TAP_LOST_B [23:16] PIPES RC (ch. 14): Pipe events of any pipe. -/
def R.TAP_LOST_B.PIPES (slot : Nat) : Fld := ⟨slot, 0x00200110, 16, 8, .rc, 0⟩
/-- TAP_LOST_B [15:8] SERIAL RC (ch. 14): - -/
def R.TAP_LOST_B.SERIAL (slot : Nat) : Fld := ⟨slot, 0x00200110, 8, 8, .rc, 0⟩
/-- TAP_LOST_B [7:0] BLOCK RC (ch. 14): As TAP_LOST. [31:24] reserved. -/
def R.TAP_LOST_B.BLOCK (slot : Nat) : Fld := ⟨slot, 0x00200110, 0, 8, .rc, 0⟩
def R.TAP_LOST_B.all (slot : Nat) : List Fld := [R.TAP_LOST_B.PIPES slot, R.TAP_LOST_B.SERIAL slot, R.TAP_LOST_B.BLOCK slot]
/-- TAP_COUNTS [31:16] XACT_RETRIES RC (ch. 14): Transaction retries on the bus. -/
def R.TAP_COUNTS.XACT_RETRIES (slot : Nat) : Fld := ⟨slot, 0x00200114, 16, 16, .rc, 0⟩
/-- TAP_COUNTS [15:0] WAKES_IGNORED RC (ch. 14): R301. Both saturate at 0xFFFF and clear on the same read. -/
def R.TAP_COUNTS.WAKES_IGNORED (slot : Nat) : Fld := ⟨slot, 0x00200114, 0, 16, .rc, 0⟩
def R.TAP_COUNTS.all (slot : Nat) : List Fld := [R.TAP_COUNTS.XACT_RETRIES slot, R.TAP_COUNTS.WAKES_IGNORED slot]
/-- TAP_FRAME [13:0] MICROFRAME RO (ch. 14): The bus's micro-frame count, modulo 16,384. [31:14] reserved. -/
def R.TAP_FRAME.MICROFRAME (slot : Nat) : Fld := ⟨slot, 0x00200118, 0, 14, .ro, 0⟩
def R.TAP_FRAME.all (slot : Nat) : List Fld := [R.TAP_FRAME.MICROFRAME slot]
/-- TC_STATUS [27:24] PATH RO (ch. 15): 0 IDLE, 1 QUEUED, 2 SOFT_START, 3 ON, 4 SLEWING, 5 DISCHARGE; 6–15 are never reported. -/
def R.TC_STATUS.PATH (t : Nat) : Fld := ⟨0, tileBase t + 0x100, 24, 4, .ro, 0⟩
/-- TC_STATUS [23:23] DAMP RO (ch. 15): R323. -/
def R.TC_STATUS.DAMP (t : Nat) : Fld := ⟨0, tileBase t + 0x100, 23, 1, .ro, 0⟩
/-- TC_STATUS [22:22] VCONN_ON RO (ch. 15): R308. -/
def R.TC_STATUS.VCONN_ON (t : Nat) : Fld := ⟨0, tileBase t + 0x100, 22, 1, .ro, 0⟩
/-- TC_STATUS [21:21] EMARKED_5A RO (ch. 15): R308. -/
def R.TC_STATUS.EMARKED_5A (t : Nat) : Fld := ⟨0, tileBase t + 0x100, 21, 1, .ro, 0⟩
/-- TC_STATUS [20:20] DEAD_BATTERY RO (ch. 15): 1: dead-battery Rd presented. -/
def R.TC_STATUS.DEAD_BATTERY (t : Nat) : Fld := ⟨0, tileBase t + 0x100, 20, 1, .ro, 1⟩
/-- TC_STATUS [15:12] CC_2 RO (ch. 15): 0 open, 1 Ra, 2 Rd, 3 Rp Default, 4 Rp 1.5 A, 5 Rp 3.0 A, 6 unsettled; 7–15 are never reported. -/
def R.TC_STATUS.CC_2 (t : Nat) : Fld := ⟨0, tileBase t + 0x100, 12, 4, .ro, 0⟩
/-- TC_STATUS [11:8] CC_1 RO (ch. 15): 0 open, 1 Ra, 2 Rd, 3 Rp Default, 4 Rp 1.5 A, 5 Rp 3.0 A, 6 unsettled; 7–15 are never reported. -/
def R.TC_STATUS.CC_1 (t : Nat) : Fld := ⟨0, tileBase t + 0x100, 8, 4, .ro, 0⟩
/-- TC_STATUS [5:4] PRESENT RO (ch. 15): 0 nothing, 1 Rd, 2 Rp; 3 is never reported. Other bits read 0. -/
def R.TC_STATUS.PRESENT (t : Nat) : Fld := ⟨0, tileBase t + 0x100, 4, 2, .ro, 1⟩
def R.TC_STATUS.all (t : Nat) : List Fld := [R.TC_STATUS.PATH t, R.TC_STATUS.DAMP t, R.TC_STATUS.VCONN_ON t, R.TC_STATUS.EMARKED_5A t, R.TC_STATUS.DEAD_BATTERY t, R.TC_STATUS.CC_2 t, R.TC_STATUS.CC_1 t, R.TC_STATUS.PRESENT t]
/-- PD_CONTRACT [31:28] POSITION RO (ch. 15): Object position; 0 with no PD contract. -/
def R.PD_CONTRACT.POSITION (t : Nat) : Fld := ⟨0, tileBase t + 0x104, 28, 4, .ro, 0⟩
/-- PD_CONTRACT [27:26] KIND RO (ch. 15): 0 none, 1 Type-C current only, 2 fixed, 3 programmable. -/
def R.PD_CONTRACT.KIND (t : Nat) : Fld := ⟨0, tileBase t + 0x104, 26, 2, .ro, 0⟩
/-- PD_CONTRACT [25:24] REVISION RO (ch. 15): 0 none, 1 PD 2.0, 2 PD 3.x; 3 is never reported. -/
def R.PD_CONTRACT.REVISION (t : Nat) : Fld := ⟨0, tileBase t + 0x104, 24, 2, .ro, 0⟩
/-- PD_CONTRACT [22:12] VOLTAGE RO (ch. 15): In 20 mV units. -/
def R.PD_CONTRACT.VOLTAGE (t : Nat) : Fld := ⟨0, tileBase t + 0x104, 12, 11, .ro, 0⟩
/-- PD_CONTRACT [6:0] CURRENT RO (ch. 15): Operating current in 50 mA units. Other bits read 0. -/
def R.PD_CONTRACT.CURRENT (t : Nat) : Fld := ⟨0, tileBase t + 0x104, 0, 7, .ro, 0⟩
def R.PD_CONTRACT.all (t : Nat) : List Fld := [R.PD_CONTRACT.POSITION t, R.PD_CONTRACT.KIND t, R.PD_CONTRACT.REVISION t, R.PD_CONTRACT.VOLTAGE t, R.PD_CONTRACT.CURRENT t]
/-- PWR_SENSE [31:16] IBUS RO (ch. 15): mA, two's complement; positive out of the tile (DOWN) or into it (UP). -/
def R.PWR_SENSE.IBUS (t : Nat) : Fld := ⟨0, tileBase t + 0x108, 16, 16, .ro, 0⟩
/-- PWR_SENSE [15:0] VBUS RO (ch. 15): TILE_t_VBUS in 10 mV units. -/
def R.PWR_SENSE.VBUS (t : Nat) : Fld := ⟨0, tileBase t + 0x108, 0, 16, .ro, 0⟩
def R.PWR_SENSE.all (t : Nat) : List Fld := [R.PWR_SENSE.IBUS t, R.PWR_SENSE.VBUS t]
/-- PWR_DRIVE [15:15] CL_ACTIVE RO (ch. 15): R315. -/
def R.PWR_DRIVE.CL_ACTIVE (t : Nat) : Fld := ⟨0, tileBase t + 0x10C, 15, 1, .ro, 0⟩
/-- PWR_DRIVE [14:14] DISCH RO (ch. 15): Output levels. -/
def R.PWR_DRIVE.DISCH (t : Nat) : Fld := ⟨0, tileBase t + 0x10C, 14, 1, .ro, 0⟩
/-- PWR_DRIVE [13:13] GATE RO (ch. 15): Output levels. -/
def R.PWR_DRIVE.GATE (t : Nat) : Fld := ⟨0, tileBase t + 0x10C, 13, 1, .ro, 0⟩
/-- PWR_DRIVE [12:12] CONV_EN RO (ch. 15): Output levels. -/
def R.PWR_DRIVE.CONV_EN (t : Nat) : Fld := ⟨0, tileBase t + 0x10C, 12, 1, .ro, 0⟩
/-- PWR_DRIVE [9:0] CODE RO (ch. 15): TILE_t_VSET. Other bits read 0. -/
def R.PWR_DRIVE.CODE (t : Nat) : Fld := ⟨0, tileBase t + 0x10C, 0, 10, .ro, 0⟩
def R.PWR_DRIVE.all (t : Nat) : List Fld := [R.PWR_DRIVE.CL_ACTIVE t, R.PWR_DRIVE.DISCH t, R.PWR_DRIVE.GATE t, R.PWR_DRIVE.CONV_EN t, R.PWR_DRIVE.CODE t]
/-- GUARD [31:24] BLANK RO (ch. 15): µs, from OCP_BLANK. -/
def R.GUARD.BLANK (t : Nat) : Fld := ⟨0, tileBase t + 0x110, 24, 8, .ro, 0⟩
/-- GUARD [23:12] OCP RO (ch. 15): Threshold in 10 mA units; 0 on UP. -/
def R.GUARD.OCP (t : Nat) : Fld := ⟨0, tileBase t + 0x110, 12, 12, .ro, 0⟩
/-- GUARD [11:0] OVP RO (ch. 15): Threshold in 50 mV units. -/
def R.GUARD.OVP (t : Nat) : Fld := ⟨0, tileBase t + 0x110, 0, 12, .ro, 0⟩
def R.GUARD.all (t : Nat) : List Fld := [R.GUARD.BLANK t, R.GUARD.OCP t, R.GUARD.OVP t]
/-- TC_COUNTS [31:24] HARD_RESETS RC (ch. 15): Each saturates at 0xFF; all clear on the same read. -/
def R.TC_COUNTS.HARD_RESETS (t : Nat) : Fld := ⟨0, tileBase t + 0x114, 24, 8, .rc, 0⟩
/-- TC_COUNTS [23:16] TRIPS RC (ch. 15): Each saturates at 0xFF; all clear on the same read. -/
def R.TC_COUNTS.TRIPS (t : Nat) : Fld := ⟨0, tileBase t + 0x114, 16, 8, .rc, 0⟩
/-- TC_COUNTS [15:8] KEEPALIVE_MISSES RC (ch. 15): Each saturates at 0xFF; all clear on the same read. -/
def R.TC_COUNTS.KEEPALIVE_MISSES (t : Nat) : Fld := ⟨0, tileBase t + 0x114, 8, 8, .rc, 0⟩
/-- TC_COUNTS [7:0] DAMP_TESTS RC (ch. 15): Each saturates at 0xFF; all clear on the same read. -/
def R.TC_COUNTS.DAMP_TESTS (t : Nat) : Fld := ⟨0, tileBase t + 0x114, 0, 8, .rc, 0⟩
def R.TC_COUNTS.all (t : Nat) : List Fld := [R.TC_COUNTS.HARD_RESETS t, R.TC_COUNTS.TRIPS t, R.TC_COUNTS.KEEPALIVE_MISSES t, R.TC_COUNTS.DAMP_TESTS t]
/-- MOIST [23:16] LAST_KOHM RO (ch. 15): Lowest Z of the last test in kΩ, saturating at 255. -/
def R.MOIST.LAST_KOHM (t : Nat) : Fld := ⟨0, tileBase t + 0x118, 16, 8, .ro, 255⟩
/-- MOIST [7:0] THRESHOLD RWL (ch. 15): kΩ; a written value below 20 stores 20. Other bits read 0. -/
def R.MOIST.THRESHOLD (t : Nat) : Fld := ⟨0, tileBase t + 0x118, 0, 8, .rwl, 100⟩
def R.MOIST.all (t : Nat) : List Fld := [R.MOIST.LAST_KOHM t, R.MOIST.THRESHOLD t]
/-- TC_CAL [31:31] BOARD RO (ch. 15): 1: a VALID port board record supplies the tile. -/
def R.TC_CAL.BOARD (t : Nat) : Fld := ⟨0, tileBase t + 0x11C, 31, 1, .ro, 0⟩
/-- TC_CAL [28:16] IBUS_MAX RO (ch. 15): mA applied. -/
def R.TC_CAL.IBUS_MAX (t : Nat) : Fld := ⟨0, tileBase t + 0x11C, 16, 13, .ro, 1500⟩
/-- TC_CAL [15:0] VBUS_MAX RO (ch. 15): mV applied. Other bits read 0. -/
def R.TC_CAL.VBUS_MAX (t : Nat) : Fld := ⟨0, tileBase t + 0x11C, 0, 16, .ro, 5000⟩
def R.TC_CAL.all (t : Nat) : List Fld := [R.TC_CAL.BOARD t, R.TC_CAL.IBUS_MAX t, R.TC_CAL.VBUS_MAX t]
/-- FRONT_STATUS [31:31] PERMIT RO (ch. 16): 1: LASER_PERMIT high after synchronizing. -/
def R.FRONT_STATUS.PERMIT (n : Nat) : Fld := ⟨0, drumBase n + 0x0, 31, 1, .ro, 0⟩
/-- FRONT_STATUS [30:30] VM_OK RO (ch. 16): 1: VM_DRUM_n in range (R344). -/
def R.FRONT_STATUS.VM_OK (n : Nat) : Fld := ⟨0, drumBase n + 0x0, 30, 1, .ro, 0⟩
/-- FRONT_STATUS [28:24] HOT RO (ch. 16): Bit 24 coils, 25 sled, 26 tray, 27 lasers, 28 predriver (R345). -/
def R.FRONT_STATUS.HOT (n : Nat) : Fld := ⟨0, drumBase n + 0x0, 24, 5, .ro, 0⟩
/-- FRONT_STATUS [18:16] OPEN RO (ch. 16): Focus, tracking, tilt reads open (R339). -/
def R.FRONT_STATUS.OPEN (n : Nat) : Fld := ⟨0, drumBase n + 0x0, 16, 3, .ro, 0⟩
/-- FRONT_STATUS [14:12] LIMIT RO (ch. 16): Focus, tracking, tilt limiting. -/
def R.FRONT_STATUS.LIMIT (n : Nat) : Fld := ⟨0, drumBase n + 0x0, 12, 3, .ro, 0⟩
/-- FRONT_STATUS [4:4] REACTED RO (ch. 16): R341, R342. -/
def R.FRONT_STATUS.REACTED (n : Nat) : Fld := ⟨0, drumBase n + 0x0, 4, 1, .ro, 0⟩
/-- FRONT_STATUS [3:3] SUM_LOW RO (ch. 16): The SUM and TE comparisons of R341 hold now, whatever the laser's state. -/
def R.FRONT_STATUS.SUM_LOW (n : Nat) : Fld := ⟨0, drumBase n + 0x0, 3, 1, .ro, 0⟩
/-- FRONT_STATUS [2:2] TE_OUT RO (ch. 16): The SUM and TE comparisons of R341 hold now, whatever the laser's state. -/
def R.FRONT_STATUS.TE_OUT (n : Nat) : Fld := ⟨0, drumBase n + 0x0, 2, 1, .ro, 0⟩
/-- FRONT_STATUS [0:0] CONV_OK RO (ch. 16): R332. Other bits read 0. -/
def R.FRONT_STATUS.CONV_OK (n : Nat) : Fld := ⟨0, drumBase n + 0x0, 0, 1, .ro, 0⟩
def R.FRONT_STATUS.all (n : Nat) : List Fld := [R.FRONT_STATUS.PERMIT n, R.FRONT_STATUS.VM_OK n, R.FRONT_STATUS.HOT n, R.FRONT_STATUS.OPEN n, R.FRONT_STATUS.LIMIT n, R.FRONT_STATUS.REACTED n, R.FRONT_STATUS.SUM_LOW n, R.FRONT_STATUS.TE_OUT n, R.FRONT_STATUS.CONV_OK n]
/-- LASER_CTRL [1:0] SELECT RW (ch. 16): R335. [31:2] reserved. -/
def R.LASER_CTRL.SELECT (n : Nat) : Fld := ⟨0, drumBase n + 0x4, 0, 2, .rw, 0⟩
def R.LASER_CTRL.all (n : Nat) : List Fld := [R.LASER_CTRL.SELECT n]
/-- LASER_TARGET [12:0] MICROWATTS RW (ch. 16): Read power; a write below 100 stores 100, above 5,000 stores 5,000. [31:13] reserved. -/
def R.LASER_TARGET.MICROWATTS (n : Nat) : Fld := ⟨0, drumBase n + 0x8, 0, 13, .rw, 500⟩
def R.LASER_TARGET.all (n : Nat) : List Fld := [R.LASER_TARGET.MICROWATTS n]
/-- LASER_STATUS [30:29] STATE RO (ch. 16): 0 OFF, 1 RAMP, 2 REGULATING; 3 is never reported. -/
def R.LASER_STATUS.STATE (n : Nat) : Fld := ⟨0, drumBase n + 0xC, 29, 2, .ro, 0⟩
/-- LASER_STATUS [26:16] MONITOR RO (ch. 16): µA, saturating at 2,047. -/
def R.LASER_STATUS.MONITOR (n : Nat) : Fld := ⟨0, drumBase n + 0xC, 16, 11, .ro, 0⟩
/-- LASER_STATUS [11:0] DRIVE RO (ch. 16): Drive current in 0.05 mA units. Other bits read 0. -/
def R.LASER_STATUS.DRIVE (n : Nat) : Fld := ⟨0, drumBase n + 0xC, 0, 12, .ro, 0⟩
def R.LASER_STATUS.all (n : Nat) : List Fld := [R.LASER_STATUS.STATE n, R.LASER_STATUS.MONITOR n, R.LASER_STATUS.DRIVE n]
/-- CH_CFG [15:8] BALANCE RW (ch. 16): G_F × 128; a written 0 stores 1. -/
def R.CH_CFG.BALANCE (n : Nat) : Fld := ⟨0, drumBase n + 0x10, 8, 8, .rw, 128⟩
/-- CH_CFG [0:0] TE_MODE RW (ch. 16): R330. Other bits read 0. -/
def R.CH_CFG.TE_MODE (n : Nat) : Fld := ⟨0, drumBase n + 0x10, 0, 1, .rw, 0⟩
def R.CH_CFG.all (n : Nat) : List Fld := [R.CH_CFG.BALANCE n, R.CH_CFG.TE_MODE n]
/-- CH_TRIM [17:16] GAIN RW (ch. 16): 0b00 ×1, 0b01 ×2, 0b10 ×4, 0b11 ×8; ignored for c = 4–7. -/
def R.CH_TRIM.GAIN (n : Nat) (c : Nat) : Fld := ⟨0, drumBase n + 0x20 + 4 * c, 16, 2, .rw, 0⟩
/-- CH_TRIM [9:0] OFFSET RW (ch. 16): Signed, mV at the input, −512 to 511; ignored for c = 4–7. Other bits read 0. -/
def R.CH_TRIM.OFFSET (n : Nat) (c : Nat) : Fld := ⟨0, drumBase n + 0x20 + 4 * c, 0, 10, .rw, 0⟩
def R.CH_TRIM.all (n : Nat) (c : Nat) : List Fld := [R.CH_TRIM.GAIN n c, R.CH_TRIM.OFFSET n c]
/-- CH_SAMPLE [11:0] CODE RO (ch. 16): Latest code of channel c. [31:12] reserved. -/
def R.CH_SAMPLE.CODE (n : Nat) (c : Nat) : Fld := ⟨0, drumBase n + 0x40 + 4 * c, 0, 12, .ro, 2048⟩
def R.CH_SAMPLE.all (n : Nat) (c : Nat) : List Fld := [R.CH_SAMPLE.CODE n c]
/-- COIL_FORCE [15:0] CODE RW (ch. 16): R340. [31:16] reserved. -/
def R.COIL_FORCE.CODE (n : Nat) (c : Nat) : Fld := ⟨0, drumBase n + 0x60 + 4 * c, 0, 16, .rw, 0⟩
def R.COIL_FORCE.all (n : Nat) (c : Nat) : List Fld := [R.COIL_FORCE.CODE n c]
/-- COIL_LATCH [31:16] SENSE RO (ch. 16): Sensed current, mA, two's complement. -/
def R.COIL_LATCH.SENSE (n : Nat) (c : Nat) : Fld := ⟨0, drumBase n + 0x70 + 4 * c, 16, 16, .ro, 0⟩
/-- COIL_LATCH [15:0] CODE RO (ch. 16): Latched code. -/
def R.COIL_LATCH.CODE (n : Nat) (c : Nat) : Fld := ⟨0, drumBase n + 0x70 + 4 * c, 0, 16, .ro, 0⟩
def R.COIL_LATCH.all (n : Nat) (c : Nat) : List Fld := [R.COIL_LATCH.SENSE n c, R.COIL_LATCH.CODE n c]
/-- RF_CTRL [8:8] AUTO RW (ch. 16): R333. -/
def R.RF_CTRL.AUTO (n : Nat) : Fld := ⟨0, drumBase n + 0x80, 8, 1, .rw, 1⟩
/-- RF_CTRL [5:0] GAIN RW (ch. 16): −6 + 0.5 × GAIN dB; a write above 48 stores 48; ignored while AUTO = 1. Other bits read 0. -/
def R.RF_CTRL.GAIN (n : Nat) : Fld := ⟨0, drumBase n + 0x80, 0, 6, .rw, 12⟩
def R.RF_CTRL.all (n : Nat) : List Fld := [R.RF_CTRL.AUTO n, R.RF_CTRL.GAIN n]
/-- RF_STATUS [21:16] GAIN RO (ch. 16): Gain in use. -/
def R.RF_STATUS.GAIN (n : Nat) : Fld := ⟨0, drumBase n + 0x84, 16, 6, .ro, 12⟩
/-- RF_STATUS [7:0] ENVELOPE RO (ch. 16): Peak-to-peak, in codes. Other bits read 0. -/
def R.RF_STATUS.ENVELOPE (n : Nat) : Fld := ⟨0, drumBase n + 0x84, 0, 8, .ro, 0⟩
def R.RF_STATUS.all (n : Nat) : List Fld := [R.RF_STATUS.GAIN n, R.RF_STATUS.ENVELOPE n]
/-- LOSS_CTRL [31:20] SUM_MIN RW (ch. 16): R341. -/
def R.LOSS_CTRL.SUM_MIN (n : Nat) : Fld := ⟨0, drumBase n + 0x90, 20, 12, .rw, 2200⟩
/-- LOSS_CTRL [19:12] SAMPLES RW (ch. 16): A written 0 stores 1. -/
def R.LOSS_CTRL.SAMPLES (n : Nat) : Fld := ⟨0, drumBase n + 0x90, 12, 8, .rw, 8⟩
/-- LOSS_CTRL [8:8] REARM WO (ch. 16): 1: rearm (R341). -/
def R.LOSS_CTRL.REARM (n : Nat) : Fld := ⟨0, drumBase n + 0x90, 8, 1, .wo, 0⟩
/-- LOSS_CTRL [5:4] TRACK_REACT RW (ch. 16): Table 16-3. Other bits read 0. -/
def R.LOSS_CTRL.TRACK_REACT (n : Nat) : Fld := ⟨0, drumBase n + 0x90, 4, 2, .rw, 2⟩
/-- LOSS_CTRL [1:0] FOCUS_REACT RW (ch. 16): Table 16-3. Other bits read 0. -/
def R.LOSS_CTRL.FOCUS_REACT (n : Nat) : Fld := ⟨0, drumBase n + 0x90, 0, 2, .rw, 2⟩
def R.LOSS_CTRL.all (n : Nat) : List Fld := [R.LOSS_CTRL.SUM_MIN n, R.LOSS_CTRL.SAMPLES n, R.LOSS_CTRL.REARM n, R.LOSS_CTRL.TRACK_REACT n, R.LOSS_CTRL.FOCUS_REACT n]
/-- LOSS_TE [10:0] WINDOW RW (ch. 16): A written 0 stores 1. [31:11] reserved. -/
def R.LOSS_TE.WINDOW (n : Nat) : Fld := ⟨0, drumBase n + 0x94, 0, 11, .rw, 1024⟩
def R.LOSS_TE.all (n : Nat) : List Fld := [R.LOSS_TE.WINDOW n]
/-- FRONT_CAL [31:0] VALUE RW (ch. 16): binary32, in the units of Table 11-3 (R346). -/
def R.FRONT_CAL.VALUE (n : Nat) (i : Nat) : Fld := ⟨0, drumBase n + 0xA0 + 4 * i, 0, 32, .rw, frontCalReset i⟩
def R.FRONT_CAL.all (n : Nat) (i : Nat) : List Fld := [R.FRONT_CAL.VALUE n i]
/-- CAL_SOURCE [0:0] SEED RO (ch. 16): R346. [31:1] reserved. -/
def R.CAL_SOURCE.SEED (n : Nat) : Fld := ⟨0, drumBase n + 0xC0, 0, 1, .ro, 0⟩
def R.CAL_SOURCE.all (n : Nat) : List Fld := [R.CAL_SOURCE.SEED n]
/-- FRONT_ERR [3:3] TARGET_RANGE W1C (ch. 16): R336, R335, R346, R340. Other bits read 0. -/
def R.FRONT_ERR.TARGET_RANGE (n : Nat) : Fld := ⟨0, drumBase n + 0xC4, 3, 1, .w1c, 0⟩
/-- FRONT_ERR [2:2] NOT_FITTED W1C (ch. 16): R336, R335, R346, R340. Other bits read 0. -/
def R.FRONT_ERR.NOT_FITTED (n : Nat) : Fld := ⟨0, drumBase n + 0xC4, 2, 1, .w1c, 0⟩
/-- FRONT_ERR [1:1] CAL_REFUSED W1C (ch. 16): R336, R335, R346, R340. Other bits read 0. -/
def R.FRONT_ERR.CAL_REFUSED (n : Nat) : Fld := ⟨0, drumBase n + 0xC4, 1, 1, .w1c, 0⟩
/-- FRONT_ERR [0:0] FORCE_REFUSED W1C (ch. 16): R336, R335, R346, R340. Other bits read 0. -/
def R.FRONT_ERR.FORCE_REFUSED (n : Nat) : Fld := ⟨0, drumBase n + 0xC4, 0, 1, .w1c, 0⟩
def R.FRONT_ERR.all (n : Nat) : List Fld := [R.FRONT_ERR.TARGET_RANGE n, R.FRONT_ERR.NOT_FITTED n, R.FRONT_ERR.CAL_REFUSED n, R.FRONT_ERR.FORCE_REFUSED n]
/-- DH_STATUS [23:16] PREDICT RO (ch. 17): Bit v: voice v is a predict voice. -/
def R.DH_STATUS.PREDICT (n : Nat) : Fld := ⟨0, drumBase n + 0x10000, 16, 8, .ro, 0⟩
/-- DH_STATUS [15:8] PRUNED RO (ch. 17): Bit v: voice v is pruned. -/
def R.DH_STATUS.PRUNED (n : Nat) : Fld := ⟨0, drumBase n + 0x10000, 8, 8, .ro, 0⟩
/-- DH_STATUS [7:0] LOADED RO (ch. 17): Bit v: voice v is loaded. [31:24] reserved. -/
def R.DH_STATUS.LOADED (n : Nat) : Fld := ⟨0, drumBase n + 0x10000, 0, 8, .ro, 0⟩
def R.DH_STATUS.all (n : Nat) : List Fld := [R.DH_STATUS.PREDICT n, R.DH_STATUS.PRUNED n, R.DH_STATUS.LOADED n]
/-- DH_BUDGET [29:28] FLOOR_EFF RO (ch. 17): Effective floor (R357). From the drum's bring-up on, FLOOR_EFF and BUDGET hold the effective floor and its … -/
def R.DH_BUDGET.FLOOR_EFF (n : Nat) : Fld := ⟨0, drumBase n + 0x10004, 28, 2, .ro, 0⟩
/-- DH_BUDGET [27:16] BUDGET RO (ch. 17): Budget of FLOOR_EFF, in cycles. -/
def R.DH_BUDGET.BUDGET (n : Nat) : Fld := ⟨0, drumBase n + 0x10004, 16, 12, .ro, 0⟩
/-- DH_BUDGET [11:0] SUM RO (ch. 17): Frame sum of the loaded set. Other bits read 0. -/
def R.DH_BUDGET.SUM (n : Nat) : Fld := ⟨0, drumBase n + 0x10004, 0, 12, .ro, 0⟩
def R.DH_BUDGET.all (n : Nat) : List Fld := [R.DH_BUDGET.FLOOR_EFF n, R.DH_BUDGET.BUDGET n, R.DH_BUDGET.SUM n]
/-- DH_FRAME [31:0] COUNT RO (ch. 17): Frames started since bring-up, wrapping. -/
def R.DH_FRAME.COUNT (n : Nat) : Fld := ⟨0, drumBase n + 0x10008, 0, 32, .ro, 0⟩
def R.DH_FRAME.all (n : Nat) : List Fld := [R.DH_FRAME.COUNT n]
/-- DH_LATE [15:0] COUNT RC (ch. 17): Boundaries passed without a frame (R358); saturates at 0xFFFF. [31:16] reserved. -/
def R.DH_LATE.COUNT (n : Nat) : Fld := ⟨0, drumBase n + 0x1000C, 0, 16, .rc, 0⟩
def R.DH_LATE.all (n : Nat) : List Fld := [R.DH_LATE.COUNT n]
/-- DH_STAGE_ADDR [8:0] WORD RW (ch. 17): Word within the 1,032-byte stage, 0–257. A value above 257 stores 257. [31:9] reserved. -/
def R.DH_STAGE_ADDR.WORD (n : Nat) : Fld := ⟨0, drumBase n + 0x10010, 0, 9, .rw, 0⟩
def R.DH_STAGE_ADDR.all (n : Nat) : List Fld := [R.DH_STAGE_ADDR.WORD n]
/-- DH_STAGE_DATA [31:0] DATA RW (ch. 17): A read or write at WORD, after which WORD advances by 1, wrapping from 257 to 0. A write while BUSY or … -/
def R.DH_STAGE_DATA.DATA (n : Nat) : Fld := ⟨0, drumBase n + 0x10014, 0, 32, .rw, 0⟩
def R.DH_STAGE_DATA.all (n : Nat) : List Fld := [R.DH_STAGE_DATA.DATA n]
/-- DH_LOAD_CMD [31:31] GO WO (ch. 17): 1: run OP; 0: no effect. -/
def R.DH_LOAD_CMD.GO (n : Nat) : Fld := ⟨0, drumBase n + 0x10018, 31, 1, .wo, 0⟩
/-- DH_LOAD_CMD [18:16] VOICE WO (ch. 17): Voice. -/
def R.DH_LOAD_CMD.VOICE (n : Nat) : Fld := ⟨0, drumBase n + 0x10018, 16, 3, .wo, 0⟩
/-- DH_LOAD_CMD [15:8] PERIOD WO (ch. 17): LOAD and SWAP: 1–255; 0 is refused (FORM). -/
def R.DH_LOAD_CMD.PERIOD (n : Nat) : Fld := ⟨0, drumBase n + 0x10018, 8, 8, .wo, 0⟩
/-- DH_LOAD_CMD [7:5] ROLE WO (ch. 17): As in Table 02-13; 6 and 7 are refused (FORM). -/
def R.DH_LOAD_CMD.ROLE (n : Nat) : Fld := ⟨0, drumBase n + 0x10018, 5, 3, .wo, 0⟩
/-- DH_LOAD_CMD [4:4] PREDICT WO (ch. 17): As FLAGS.PREDICT. -/
def R.DH_LOAD_CMD.PREDICT (n : Nat) : Fld := ⟨0, drumBase n + 0x10018, 4, 1, .wo, 0⟩
/-- DH_LOAD_CMD [3:3] KEEP WO (ch. 17): SWAP only (Table 17-6). -/
def R.DH_LOAD_CMD.KEEP (n : Nat) : Fld := ⟨0, drumBase n + 0x10018, 3, 1, .wo, 0⟩
/-- DH_LOAD_CMD [2:0] OP WO (ch. 17): Table 17-6. Other bits are ignored. -/
def R.DH_LOAD_CMD.OP (n : Nat) : Fld := ⟨0, drumBase n + 0x10018, 0, 3, .wo, 0⟩
def R.DH_LOAD_CMD.all (n : Nat) : List Fld := [R.DH_LOAD_CMD.GO n, R.DH_LOAD_CMD.VOICE n, R.DH_LOAD_CMD.PERIOD n, R.DH_LOAD_CMD.ROLE n, R.DH_LOAD_CMD.PREDICT n, R.DH_LOAD_CMD.KEEP n, R.DH_LOAD_CMD.OP n]
/-- DH_LOAD_STATUS [15:8] CODE RO (ch. 17): 0x00 OK, 0x01 BUSY, 0x02 FORM, 0x03 SCHEDULE, 0x04 CONFLICT, 0x05 EMPTY, 0x06 PRUNED, 0x07 BAD_OP, 0x08 … -/
def R.DH_LOAD_STATUS.CODE (n : Nat) : Fld := ⟨0, drumBase n + 0x1001C, 8, 8, .ro, 0⟩
/-- DH_LOAD_STATUS [1:1] PENDING RO (ch. 17): R364. -/
def R.DH_LOAD_STATUS.PENDING (n : Nat) : Fld := ⟨0, drumBase n + 0x1001C, 1, 1, .ro, 0⟩
/-- DH_LOAD_STATUS [0:0] BUSY RO (ch. 17): R365. Other bits read 0. -/
def R.DH_LOAD_STATUS.BUSY (n : Nat) : Fld := ⟨0, drumBase n + 0x1001C, 0, 1, .ro, 0⟩
def R.DH_LOAD_STATUS.all (n : Nat) : List Fld := [R.DH_LOAD_STATUS.CODE n, R.DH_LOAD_STATUS.PENDING n, R.DH_LOAD_STATUS.BUSY n]
/-- DH_LINK [31:0] VALUE RO (ch. 17): Link L_j. -/
def R.DH_LINK.VALUE (n : Nat) (j : Nat) : Fld := ⟨0, drumBase n + 0x10020 + 4 * j, 0, 32, .ro, 0⟩
def R.DH_LINK.all (n : Nat) (j : Nat) : List Fld := [R.DH_LINK.VALUE n j]
/-- DH_V_CFG [31:24] PERIOD RO (ch. 17): Frames. -/
def R.DH_V_CFG.PERIOD (n : Nat) (v : Nat) : Fld := ⟨0, drumBase n + 0x10100 + 0x80 * v, 24, 8, .ro, 0⟩
/-- DH_V_CFG [23:21] ROLE RO (ch. 17): ROLE. -/
def R.DH_V_CFG.ROLE (n : Nat) (v : Nat) : Fld := ⟨0, drumBase n + 0x10100 + 0x80 * v, 21, 3, .ro, 0⟩
/-- DH_V_CFG [20:20] PREDICT RO (ch. 17): 1: predict voice. -/
def R.DH_V_CFG.PREDICT (n : Nat) (v : Nat) : Fld := ⟨0, drumBase n + 0x10100 + 0x80 * v, 20, 1, .ro, 0⟩
/-- DH_V_CFG [19:18] K RO (ch. 17): Integrators, references. -/
def R.DH_V_CFG.K (n : Nat) (v : Nat) : Fld := ⟨0, drumBase n + 0x10100 + 0x80 * v, 18, 2, .ro, 0⟩
/-- DH_V_CFG [17:16] M RO (ch. 17): Integrators, references. -/
def R.DH_V_CFG.M (n : Nat) (v : Nat) : Fld := ⟨0, drumBase n + 0x10100 + 0x80 * v, 16, 2, .ro, 0⟩
/-- DH_V_CFG [13:12] Q RO (ch. 17): Outputs. -/
def R.DH_V_CFG.Q (n : Nat) (v : Nat) : Fld := ⟨0, drumBase n + 0x10100 + 0x80 * v, 12, 2, .ro, 0⟩
/-- DH_V_CFG [10:8] P RO (ch. 17): Inputs. -/
def R.DH_V_CFG.P (n : Nat) (v : Nat) : Fld := ⟨0, drumBase n + 0x10100 + 0x80 * v, 8, 3, .ro, 0⟩
/-- DH_V_CFG [7:4] N RO (ch. 17): States. -/
def R.DH_V_CFG.N (n : Nat) (v : Nat) : Fld := ⟨0, drumBase n + 0x10100 + 0x80 * v, 4, 4, .ro, 0⟩
/-- DH_V_CFG [0:0] LOADED RO (ch. 17): 1: loaded. Other bits read 0. -/
def R.DH_V_CFG.LOADED (n : Nat) (v : Nat) : Fld := ⟨0, drumBase n + 0x10100 + 0x80 * v, 0, 1, .ro, 0⟩
def R.DH_V_CFG.all (n : Nat) (v : Nat) : List Fld := [R.DH_V_CFG.PERIOD n v, R.DH_V_CFG.ROLE n v, R.DH_V_CFG.PREDICT n v, R.DH_V_CFG.K n v, R.DH_V_CFG.M n v, R.DH_V_CFG.Q n v, R.DH_V_CFG.P n v, R.DH_V_CFG.N n v, R.DH_V_CFG.LOADED n v]
/-- DH_V_COST [11:0] CYCLES RO (ch. 17): Cost of Table 17-4, without dispatch. [31:12] reserved. -/
def R.DH_V_COST.CYCLES (n : Nat) (v : Nat) : Fld := ⟨0, drumBase n + 0x10104 + 0x80 * v, 0, 12, .ro, 0⟩
def R.DH_V_COST.all (n : Nat) (v : Nat) : List Fld := [R.DH_V_COST.CYCLES n v]
/-- DH_V_REF [31:0] VALUE RW (ch. 17): r_i. The voice fetches its references when its own update begins in the serial order of R355; for a … -/
def R.DH_V_REF.VALUE (n : Nat) (v : Nat) (i : Nat) : Fld := ⟨0, drumBase n + 0x10108 + 0x80 * v + 4 * i, 0, 32, .rw, 0⟩
def R.DH_V_REF.all (n : Nat) (v : Nat) (i : Nat) : List Fld := [R.DH_V_REF.VALUE n v i]
/-- DH_V_U [31:0] VALUE RO (ch. 17): Last output u_i, before conversion. -/
def R.DH_V_U.VALUE (n : Nat) (v : Nat) (i : Nat) : Fld := ⟨0, drumBase n + 0x10114 + 0x80 * v + 4 * i, 0, 32, .ro, 0⟩
def R.DH_V_U.all (n : Nat) (v : Nat) (i : Nat) : List Fld := [R.DH_V_U.VALUE n v i]
/-- DH_V_X [31:0] VALUE RO (ch. 17): x⁻_i. -/
def R.DH_V_X.VALUE (n : Nat) (v : Nat) (i : Nat) : Fld := ⟨0, drumBase n + 0x10120 + 0x80 * v + 4 * i, 0, 32, .ro, 0⟩
def R.DH_V_X.all (n : Nat) (v : Nat) (i : Nat) : List Fld := [R.DH_V_X.VALUE n v i]
/-- DH_V_Z [31:0] VALUE RO (ch. 17): z_i. -/
def R.DH_V_Z.VALUE (n : Nat) (v : Nat) (i : Nat) : Fld := ⟨0, drumBase n + 0x10140 + 0x80 * v + 4 * i, 0, 32, .ro, 0⟩
def R.DH_V_Z.all (n : Nat) (v : Nat) (i : Nat) : List Fld := [R.DH_V_Z.VALUE n v i]
/-- SPIN_STATUS [23:16] ATTEMPT RO (ch. 18): Retries used in the current start sequence. -/
def R.SPIN_STATUS.ATTEMPT (n : Nat) : Fld := ⟨0, drumBase n + 0x20000, 16, 8, .ro, 0⟩
/-- SPIN_STATUS [10:10] CUT RO (ch. 18): 1: a cause of R381 holds. -/
def R.SPIN_STATUS.CUT (n : Nat) : Fld := ⟨0, drumBase n + 0x20000, 10, 1, .ro, 0⟩
/-- SPIN_STATUS [9:9] START_BLOCKED RO (ch. 18): R382. -/
def R.SPIN_STATUS.START_BLOCKED (n : Nat) : Fld := ⟨0, drumBase n + 0x20000, 9, 1, .ro, 0⟩
/-- SPIN_STATUS [8:8] NO_VOICE RO (ch. 18): R382. -/
def R.SPIN_STATUS.NO_VOICE (n : Nat) : Fld := ⟨0, drumBase n + 0x20000, 8, 1, .ro, 0⟩
/-- SPIN_STATUS [4:4] QUIET_ACTIVE RO (ch. 18): R378. -/
def R.SPIN_STATUS.QUIET_ACTIVE (n : Nat) : Fld := ⟨0, drumBase n + 0x20000, 4, 1, .ro, 0⟩
/-- SPIN_STATUS [3:0] STATE RO (ch. 18): 0 STOPPED, 1 CHECK, 2 SENSE, 3 ALIGN, 4 RAMP, 5 RUN, 6 BRAKE, 7 COAST; 8–15 are never reported. Other bits … -/
def R.SPIN_STATUS.STATE (n : Nat) : Fld := ⟨0, drumBase n + 0x20000, 0, 4, .ro, 0⟩
def R.SPIN_STATUS.all (n : Nat) : List Fld := [R.SPIN_STATUS.ATTEMPT n, R.SPIN_STATUS.CUT n, R.SPIN_STATUS.START_BLOCKED n, R.SPIN_STATUS.NO_VOICE n, R.SPIN_STATUS.QUIET_ACTIVE n, R.SPIN_STATUS.STATE n]
/-- SPIN_SPEED [31:16] TARGET RO (ch. 18): T_r in rpm; 0 outside RUN. -/
def R.SPIN_SPEED.TARGET (n : Nat) : Fld := ⟨0, drumBase n + 0x20004, 16, 16, .ro, 0⟩
/-- SPIN_SPEED [15:0] RPM RO (ch. 18): S of R369. -/
def R.SPIN_SPEED.RPM (n : Nat) : Fld := ⟨0, drumBase n + 0x20004, 0, 16, .ro, 0⟩
def R.SPIN_SPEED.all (n : Nat) : List Fld := [R.SPIN_SPEED.TARGET n, R.SPIN_SPEED.RPM n]
/-- SPIN_DEMAND [18:16] SLOT RO (ch. 18): Local slot whose demand is E; lowest slot on a tie. -/
def R.SPIN_DEMAND.SLOT (n : Nat) : Fld := ⟨0, drumBase n + 0x20008, 16, 3, .ro, 0⟩
/-- SPIN_DEMAND [15:0] EFFECTIVE RO (ch. 18): E. Other bits read 0. -/
def R.SPIN_DEMAND.EFFECTIVE (n : Nat) : Fld := ⟨0, drumBase n + 0x20008, 0, 16, .ro, 0⟩
def R.SPIN_DEMAND.all (n : Nat) : List Fld := [R.SPIN_DEMAND.SLOT n, R.SPIN_DEMAND.EFFECTIVE n]
/-- SPIN_CFG [4:4] QUIET RO (ch. 18): FLAGS.QUIET of the DRUM record. -/
def R.SPIN_CFG.QUIET (n : Nat) : Fld := ⟨0, drumBase n + 0x2000C, 4, 1, .ro, 0⟩
/-- SPIN_CFG [1:0] CURVE RW (ch. 18): Curve index, applied at the next 1 ms evaluation. An index with no CURVE record of the drum is not stored … -/
def R.SPIN_CFG.CURVE (n : Nat) : Fld := ⟨0, drumBase n + 0x2000C, 0, 2, .rw, 0⟩
def R.SPIN_CFG.all (n : Nat) : List Fld := [R.SPIN_CFG.QUIET n, R.SPIN_CFG.CURVE n]
/-- SPIN_RAMP [31:16] HANDOVER_RPM RW (ch. 18): 200–3,000. -/
def R.SPIN_RAMP.HANDOVER_RPM (n : Nat) : Fld := ⟨0, drumBase n + 0x20010, 16, 16, .rw, 600⟩
/-- SPIN_RAMP [15:0] START_RPM RW (ch. 18): 10–300. -/
def R.SPIN_RAMP.START_RPM (n : Nat) : Fld := ⟨0, drumBase n + 0x20010, 0, 16, .rw, 60⟩
def R.SPIN_RAMP.all (n : Nat) : List Fld := [R.SPIN_RAMP.HANDOVER_RPM n, R.SPIN_RAMP.START_RPM n]
/-- SPIN_RAMP_B [31:24] RAMP_DUTY RW (ch. 18): 5–60 %. -/
def R.SPIN_RAMP_B.RAMP_DUTY (n : Nat) : Fld := ⟨0, drumBase n + 0x20014, 24, 8, .rw, 25⟩
/-- SPIN_RAMP_B [23:16] RAMP_LIMIT RW (ch. 18): 10–255, in 10 ms. -/
def R.SPIN_RAMP_B.RAMP_LIMIT (n : Nat) : Fld := ⟨0, drumBase n + 0x20014, 16, 8, .rw, 150⟩
/-- SPIN_RAMP_B [15:0] RAMP_ACCEL RW (ch. 18): 100–20,000 rpm/s. -/
def R.SPIN_RAMP_B.RAMP_ACCEL (n : Nat) : Fld := ⟨0, drumBase n + 0x20014, 0, 16, .rw, 1000⟩
def R.SPIN_RAMP_B.all (n : Nat) : List Fld := [R.SPIN_RAMP_B.RAMP_DUTY n, R.SPIN_RAMP_B.RAMP_LIMIT n, R.SPIN_RAMP_B.RAMP_ACCEL n]
/-- SPIN_PWM [31:24] BRAKE_ILIMIT RW (ch. 18): 10–140 mV at SPIN_ISNS. -/
def R.SPIN_PWM.BRAKE_ILIMIT (n : Nat) : Fld := ⟨0, drumBase n + 0x20018, 24, 8, .rw, 60⟩
/-- SPIN_PWM [15:8] DUTY_MAX RW (ch. 18): 50–98 %. -/
def R.SPIN_PWM.DUTY_MAX (n : Nat) : Fld := ⟨0, drumBase n + 0x20018, 8, 8, .rw, 95⟩
/-- SPIN_PWM [3:0] DEAD_TIME RW (ch. 18): 100 ns × (DEAD_TIME + 1). SPIN_PWM applies at the next PWM period. Other bits read 0. -/
def R.SPIN_PWM.DEAD_TIME (n : Nat) : Fld := ⟨0, drumBase n + 0x20018, 0, 4, .rw, 3⟩
def R.SPIN_PWM.all (n : Nat) : List Fld := [R.SPIN_PWM.BRAKE_ILIMIT n, R.SPIN_PWM.DUTY_MAX n, R.SPIN_PWM.DEAD_TIME n]
/-- SPIN_DETECT [31:16] MARGIN RO (ch. 18): Last margin × 1,000, saturating at 1,000. -/
def R.SPIN_DETECT.MARGIN (n : Nat) : Fld := ⟨0, drumBase n + 0x2001C, 16, 16, .ro, 0⟩
/-- SPIN_DETECT [5:5] ALIGNED RO (ch. 18): 1: ALIGN decided the last start. -/
def R.SPIN_DETECT.ALIGNED (n : Nat) : Fld := ⟨0, drumBase n + 0x2001C, 5, 1, .ro, 0⟩
/-- SPIN_DETECT [4:4] REPEATED RO (ch. 18): 1: the pulses ran twice. -/
def R.SPIN_DETECT.REPEATED (n : Nat) : Fld := ⟨0, drumBase n + 0x2001C, 4, 1, .ro, 0⟩
/-- SPIN_DETECT [2:0] SECTOR RO (ch. 18): s of R375; 6 and 7 are never reported. Other bits read 0. -/
def R.SPIN_DETECT.SECTOR (n : Nat) : Fld := ⟨0, drumBase n + 0x2001C, 0, 3, .ro, 0⟩
def R.SPIN_DETECT.all (n : Nat) : List Fld := [R.SPIN_DETECT.MARGIN n, R.SPIN_DETECT.ALIGNED n, R.SPIN_DETECT.REPEATED n, R.SPIN_DETECT.SECTOR n]
/-- SPIN_CAL_A [31:16] MAX_RPM RW (ch. 18): R384. -/
def R.SPIN_CAL_A.MAX_RPM (n : Nat) : Fld := ⟨0, drumBase n + 0x20020, 16, 16, .rw, 5000⟩
/-- SPIN_CAL_A [3:0] POLE_PAIRS RW (ch. 18): R384. Other bits read 0. -/
def R.SPIN_CAL_A.POLE_PAIRS (n : Nat) : Fld := ⟨0, drumBase n + 0x20020, 0, 4, .rw, 6⟩
def R.SPIN_CAL_A.all (n : Nat) : List Fld := [R.SPIN_CAL_A.MAX_RPM n, R.SPIN_CAL_A.POLE_PAIRS n]
/-- SPIN_CAL_KE [31:0] VALUE RW (ch. 18): binary32 (R384). -/
def R.SPIN_CAL_KE.VALUE (n : Nat) : Fld := ⟨0, drumBase n + 0x20024, 0, 32, .rw, 1065353216⟩
def R.SPIN_CAL_KE.all (n : Nat) : List Fld := [R.SPIN_CAL_KE.VALUE n]
/-- SPIN_CAL_R [31:0] VALUE RW (ch. 18): binary32 (R384). -/
def R.SPIN_CAL_R.VALUE (n : Nat) : Fld := ⟨0, drumBase n + 0x20028, 0, 32, .rw, 1073741824⟩
def R.SPIN_CAL_R.all (n : Nat) : List Fld := [R.SPIN_CAL_R.VALUE n]
/-- SPIN_CAL_SOURCE [0:0] SEED RO (ch. 18): R384. [31:1] reserved. -/
def R.SPIN_CAL_SOURCE.SEED (n : Nat) : Fld := ⟨0, drumBase n + 0x2002C, 0, 1, .ro, 0⟩
def R.SPIN_CAL_SOURCE.all (n : Nat) : List Fld := [R.SPIN_CAL_SOURCE.SEED n]
/-- SPIN_COUNTS [31:24] STARTS RC (ch. 18): STARTS counts entries to RUN. Each saturates at 0xFF; all clear on the same read. -/
def R.SPIN_COUNTS.STARTS (n : Nat) : Fld := ⟨0, drumBase n + 0x20030, 24, 8, .rc, 0⟩
/-- SPIN_COUNTS [23:16] STALLS RC (ch. 18): STARTS counts entries to RUN. Each saturates at 0xFF; all clear on the same read. -/
def R.SPIN_COUNTS.STALLS (n : Nat) : Fld := ⟨0, drumBase n + 0x20030, 16, 8, .rc, 0⟩
/-- SPIN_COUNTS [15:8] FALLBACKS RC (ch. 18): STARTS counts entries to RUN. Each saturates at 0xFF; all clear on the same read. -/
def R.SPIN_COUNTS.FALLBACKS (n : Nat) : Fld := ⟨0, drumBase n + 0x20030, 8, 8, .rc, 0⟩
/-- SPIN_COUNTS [7:0] CATCHES RC (ch. 18): STARTS counts entries to RUN. Each saturates at 0xFF; all clear on the same read. -/
def R.SPIN_COUNTS.CATCHES (n : Nat) : Fld := ⟨0, drumBase n + 0x20030, 0, 8, .rc, 0⟩
def R.SPIN_COUNTS.all (n : Nat) : List Fld := [R.SPIN_COUNTS.STARTS n, R.SPIN_COUNTS.STALLS n, R.SPIN_COUNTS.FALLBACKS n, R.SPIN_COUNTS.CATCHES n]
/-- SPIN_ERR [1:1] CAL_REFUSED W1C (ch. 18): R384, R385. Other bits read 0. -/
def R.SPIN_ERR.CAL_REFUSED (n : Nat) : Fld := ⟨0, drumBase n + 0x20034, 1, 1, .w1c, 0⟩
/-- SPIN_ERR [0:0] CFG_REFUSED W1C (ch. 18): R384, R385. Other bits read 0. -/
def R.SPIN_ERR.CFG_REFUSED (n : Nat) : Fld := ⟨0, drumBase n + 0x20034, 0, 1, .w1c, 0⟩
def R.SPIN_ERR.all (n : Nat) : List Fld := [R.SPIN_ERR.CAL_REFUSED n, R.SPIN_ERR.CFG_REFUSED n]
/-- SLED_STATUS [31:31] HOMED RO (ch. 19): R395, R400; ENCODER is FLAGS.ENCODER. -/
def R.SLED_STATUS.HOMED (n : Nat) : Fld := ⟨0, drumBase n + 0x30000, 31, 1, .ro, 0⟩
/-- SLED_STATUS [30:30] CLOSED_LOOP RO (ch. 19): R395, R400; ENCODER is FLAGS.ENCODER. -/
def R.SLED_STATUS.CLOSED_LOOP (n : Nat) : Fld := ⟨0, drumBase n + 0x30000, 30, 1, .ro, 0⟩
/-- SLED_STATUS [29:29] ENCODER RO (ch. 19): R395, R400; ENCODER is FLAGS.ENCODER. -/
def R.SLED_STATUS.ENCODER (n : Nat) : Fld := ⟨0, drumBase n + 0x30000, 29, 1, .ro, 0⟩
/-- SLED_STATUS [18:16] BAND RO (ch. 19): The band in force, which changes only at a point of Q shared by both grids (R394); not the band that the … -/
def R.SLED_STATUS.BAND (n : Nat) : Fld := ⟨0, drumBase n + 0x30000, 16, 3, .ro, 0⟩
/-- SLED_STATUS [1:0] STATE RO (ch. 19): 0 UNHOMED, 1 HOMING, 2 READY, 3 MOVING. Other bits read 0. -/
def R.SLED_STATUS.STATE (n : Nat) : Fld := ⟨0, drumBase n + 0x30000, 0, 2, .ro, 0⟩
def R.SLED_STATUS.all (n : Nat) : List Fld := [R.SLED_STATUS.HOMED n, R.SLED_STATUS.CLOSED_LOOP n, R.SLED_STATUS.ENCODER n, R.SLED_STATUS.BAND n, R.SLED_STATUS.STATE n]
/-- SLED_POS [31:0] P_CMD RO (ch. 19): Whole units. -/
def R.SLED_POS.P_CMD (n : Nat) : Fld := ⟨0, drumBase n + 0x30004, 0, 32, .ro, 0⟩
def R.SLED_POS.all (n : Nat) : List Fld := [R.SLED_POS.P_CMD n]
/-- SLED_ENC [31:0] COUNT RO (ch. 19): Signed count. -/
def R.SLED_ENC.COUNT (n : Nat) : Fld := ⟨0, drumBase n + 0x30008, 0, 32, .ro, 0⟩
def R.SLED_ENC.all (n : Nat) : List Fld := [R.SLED_ENC.COUNT n]
/-- SLED_CFG [31:16] FOLLOW_MAX RW (ch. 19): 1–4,096 units per ms (R396). -/
def R.SLED_CFG.FOLLOW_MAX (n : Nat) : Fld := ⟨0, drumBase n + 0x3000C, 16, 16, .rw, 64⟩
/-- SLED_CFG [2:0] PROFILE RW (ch. 19): Profile for SEEK; one with no SLED record of the drum is not stored and sets SLED_ERR. Other bits read 0. -/
def R.SLED_CFG.PROFILE (n : Nat) : Fld := ⟨0, drumBase n + 0x3000C, 0, 3, .rw, 0⟩
def R.SLED_CFG.all (n : Nat) : List Fld := [R.SLED_CFG.FOLLOW_MAX n, R.SLED_CFG.PROFILE n]
/-- SLED_BANDS [31:24] E_3 RW (ch. 19): Edges in 50 full steps/s; a written 0 stores 1. -/
def R.SLED_BANDS.E_3 (n : Nat) : Fld := ⟨0, drumBase n + 0x30010, 24, 8, .rw, 80⟩
/-- SLED_BANDS [23:16] E_2 RW (ch. 19): Edges in 50 full steps/s; a written 0 stores 1. -/
def R.SLED_BANDS.E_2 (n : Nat) : Fld := ⟨0, drumBase n + 0x30010, 16, 8, .rw, 40⟩
/-- SLED_BANDS [15:8] E_1 RW (ch. 19): Edges in 50 full steps/s; a written 0 stores 1. -/
def R.SLED_BANDS.E_1 (n : Nat) : Fld := ⟨0, drumBase n + 0x30010, 8, 8, .rw, 16⟩
/-- SLED_BANDS [7:0] E_0 RW (ch. 19): Edges in 50 full steps/s; a written 0 stores 1. -/
def R.SLED_BANDS.E_0 (n : Nat) : Fld := ⟨0, drumBase n + 0x30010, 0, 8, .rw, 4⟩
def R.SLED_BANDS.all (n : Nat) : List Fld := [R.SLED_BANDS.E_3 n, R.SLED_BANDS.E_2 n, R.SLED_BANDS.E_1 n, R.SLED_BANDS.E_0 n]
/-- SLED_ENC_CFG [19:16] CORR RW (ch. 19): R388. -/
def R.SLED_ENC_CFG.CORR (n : Nat) : Fld := ⟨0, drumBase n + 0x30014, 16, 4, .rw, 8⟩
/-- SLED_ENC_CFG [10:0] RATIO RW (ch. 19): 1–1,024 units per count. Other bits read 0. -/
def R.SLED_ENC_CFG.RATIO (n : Nat) : Fld := ⟨0, drumBase n + 0x30014, 0, 11, .rw, 4⟩
def R.SLED_ENC_CFG.all (n : Nat) : List Fld := [R.SLED_ENC_CFG.CORR n, R.SLED_ENC_CFG.RATIO n]
/-- SLED_INDEX [31:16] WINDOW RW (ch. 19): Counts (R399). -/
def R.SLED_INDEX.WINDOW (n : Nat) : Fld := ⟨0, drumBase n + 0x30018, 16, 16, .rw, 8⟩
def R.SLED_INDEX.all (n : Nat) : List Fld := [R.SLED_INDEX.WINDOW n]
/-- SLED_INDEX_COUNT [31:0] COUNT RO (ch. 19): R395. -/
def R.SLED_INDEX_COUNT.COUNT (n : Nat) : Fld := ⟨0, drumBase n + 0x3001C, 0, 32, .ro, 0⟩
def R.SLED_INDEX_COUNT.all (n : Nat) : List Fld := [R.SLED_INDEX_COUNT.COUNT n]
/-- SLED_SLIP [31:0] DIFF RO (ch. 19): Last slip, signed counts. -/
def R.SLED_SLIP.DIFF (n : Nat) : Fld := ⟨0, drumBase n + 0x30020, 0, 32, .ro, 0⟩
def R.SLED_SLIP.all (n : Nat) : List Fld := [R.SLED_SLIP.DIFF n]
/-- SLED_COUNTS [31:16] SKIPS RC (ch. 19): Saturating; all clear on the same read. -/
def R.SLED_COUNTS.SKIPS (n : Nat) : Fld := ⟨0, drumBase n + 0x30024, 16, 16, .rc, 0⟩
/-- SLED_COUNTS [15:8] SLIPS RC (ch. 19): Saturating; all clear on the same read. -/
def R.SLED_COUNTS.SLIPS (n : Nat) : Fld := ⟨0, drumBase n + 0x30024, 8, 8, .rc, 0⟩
/-- SLED_COUNTS [7:0] LAGS RC (ch. 19): Saturating; all clear on the same read. -/
def R.SLED_COUNTS.LAGS (n : Nat) : Fld := ⟨0, drumBase n + 0x30024, 0, 8, .rc, 0⟩
def R.SLED_COUNTS.all (n : Nat) : List Fld := [R.SLED_COUNTS.SKIPS n, R.SLED_COUNTS.SLIPS n, R.SLED_COUNTS.LAGS n]
/-- SLED_SETTLE [7:0] SETTLE RW (ch. 19): 0–200, in 100 µs. -/
def R.SLED_SETTLE.SETTLE (n : Nat) : Fld := ⟨0, drumBase n + 0x30028, 0, 8, .rw, 20⟩
def R.SLED_SETTLE.all (n : Nat) : List Fld := [R.SLED_SETTLE.SETTLE n]
/-- SLED_TRAVEL [31:0] UNITS RO (ch. 19): TRAVEL_UNITS (R387). -/
def R.SLED_TRAVEL.UNITS (n : Nat) : Fld := ⟨0, drumBase n + 0x3002C, 0, 32, .ro, 51200⟩
def R.SLED_TRAVEL.all (n : Nat) : List Fld := [R.SLED_TRAVEL.UNITS n]
/-- SLED_STAGE_ADDR [7:0] WORD RW (ch. 19): 0–193; above 193 stores 193. -/
def R.SLED_STAGE_ADDR.WORD (n : Nat) : Fld := ⟨0, drumBase n + 0x30030, 0, 8, .rw, 0⟩
def R.SLED_STAGE_ADDR.all (n : Nat) : List Fld := [R.SLED_STAGE_ADDR.WORD n]
/-- SLED_STAGE_DATA [31:0] DATA RW (ch. 19): As DH_STAGE_DATA (Table 17-7), wrapping from 193 to 0. A write while RUNNING is ignored and does not … -/
def R.SLED_STAGE_DATA.DATA (n : Nat) : Fld := ⟨0, drumBase n + 0x30034, 0, 32, .rw, 0⟩
def R.SLED_STAGE_DATA.all (n : Nat) : List Fld := [R.SLED_STAGE_DATA.DATA n]
/-- SLED_TARGET [31:0] X RW (ch. 19): Target of SEEK, in units. -/
def R.SLED_TARGET.X (n : Nat) : Fld := ⟨0, drumBase n + 0x30038, 0, 32, .rw, 0⟩
def R.SLED_TARGET.all (n : Nat) : List Fld := [R.SLED_TARGET.X n]
/-- SLED_CMD [31:31] GO WO (ch. 19): 1: run OP. -/
def R.SLED_CMD.GO (n : Nat) : Fld := ⟨0, drumBase n + 0x3003C, 31, 1, .wo, 0⟩
/-- SLED_CMD [2:0] OP WO (ch. 19): 1 SEEK, 2 RUN_STAGE, 3 HOME, 4 STOP; others refused BAD_OP. -/
def R.SLED_CMD.OP (n : Nat) : Fld := ⟨0, drumBase n + 0x3003C, 0, 3, .wo, 0⟩
def R.SLED_CMD.all (n : Nat) : List Fld := [R.SLED_CMD.GO n, R.SLED_CMD.OP n]
/-- SLED_CMD_STATUS [15:8] CODE RO (ch. 19): 0 OK, 1 BUSY, 2 FORM, 3 RANGE (X, or the staged end, outside 0 to TRAVEL_UNITS), 4 UNHOMED, 5 STALLED, 6 … -/
def R.SLED_CMD_STATUS.CODE (n : Nat) : Fld := ⟨0, drumBase n + 0x30040, 8, 8, .ro, 0⟩
/-- SLED_CMD_STATUS [0:0] RUNNING RO (ch. 19): 1: a command runs. -/
def R.SLED_CMD_STATUS.RUNNING (n : Nat) : Fld := ⟨0, drumBase n + 0x30040, 0, 1, .ro, 0⟩
def R.SLED_CMD_STATUS.all (n : Nat) : List Fld := [R.SLED_CMD_STATUS.CODE n, R.SLED_CMD_STATUS.RUNNING n]
/-- SLED_ERR [0:0] CFG_REFUSED W1C (ch. 19): R403. -/
def R.SLED_ERR.CFG_REFUSED (n : Nat) : Fld := ⟨0, drumBase n + 0x30044, 0, 1, .w1c, 0⟩
def R.SLED_ERR.all (n : Nat) : List Fld := [R.SLED_ERR.CFG_REFUSED n]
/-- TRAY_STATUS [8:8] PENDING RO (ch. 19): R402. -/
def R.TRAY_STATUS.PENDING (n : Nat) : Fld := ⟨0, drumBase n + 0x30080, 8, 1, .ro, 0⟩
/-- TRAY_STATUS [7:7] BTN RO (ch. 19): Debounced, 1 = active. -/
def R.TRAY_STATUS.BTN (n : Nat) : Fld := ⟨0, drumBase n + 0x30080, 7, 1, .ro, 0⟩
/-- TRAY_STATUS [6:6] OUT_SW RO (ch. 19): Debounced, 1 = active. -/
def R.TRAY_STATUS.OUT_SW (n : Nat) : Fld := ⟨0, drumBase n + 0x30080, 6, 1, .ro, 0⟩
/-- TRAY_STATUS [5:5] IN_SW RO (ch. 19): Debounced, 1 = active. -/
def R.TRAY_STATUS.IN_SW (n : Nat) : Fld := ⟨0, drumBase n + 0x30080, 5, 1, .ro, 0⟩
/-- TRAY_STATUS [2:0] STATE RO (ch. 19): 0 BETWEEN, 1 CLOSED, 2 OPENING, 3 OPEN, 4 CLOSING, 5 JAMMED. -/
def R.TRAY_STATUS.STATE (n : Nat) : Fld := ⟨0, drumBase n + 0x30080, 0, 3, .ro, 0⟩
def R.TRAY_STATUS.all (n : Nat) : List Fld := [R.TRAY_STATUS.PENDING n, R.TRAY_STATUS.BTN n, R.TRAY_STATUS.OUT_SW n, R.TRAY_STATUS.IN_SW n, R.TRAY_STATUS.STATE n]
/-- TRAY_CFG [31:16] LIMIT RO (ch. 19): ms (R402). -/
def R.TRAY_CFG.LIMIT (n : Nat) : Fld := ⟨0, drumBase n + 0x30084, 16, 16, .ro, 2500⟩
/-- TRAY_CFG [6:0] DUTY RW (ch. 19): 20–100 %. -/
def R.TRAY_CFG.DUTY (n : Nat) : Fld := ⟨0, drumBase n + 0x30084, 0, 7, .rw, 60⟩
def R.TRAY_CFG.all (n : Nat) : List Fld := [R.TRAY_CFG.LIMIT n, R.TRAY_CFG.DUTY n]
/-- TRAY_COUNTS [15:8] PRESSES RC (ch. 19): Saturating at 0xFF. -/
def R.TRAY_COUNTS.PRESSES (n : Nat) : Fld := ⟨0, drumBase n + 0x30088, 8, 8, .rc, 0⟩
/-- TRAY_COUNTS [7:0] CHATTER RC (ch. 19): Saturating at 0xFF. -/
def R.TRAY_COUNTS.CHATTER (n : Nat) : Fld := ⟨0, drumBase n + 0x30088, 0, 8, .rc, 0⟩
def R.TRAY_COUNTS.all (n : Nat) : List Fld := [R.TRAY_COUNTS.PRESSES n, R.TRAY_COUNTS.CHATTER n]
/-- READ_STATUS [13:8] FREE RO (ch. 20): Free slots of the working store (R421). -/
def R.READ_STATUS.FREE (n : Nat) : Fld := ⟨0, drumBase n + 0x40000, 8, 6, .ro, 0⟩
/-- READ_STATUS [6:6] ADAPTING RO (ch. 20): 1: the equalizer adapts (R409). -/
def R.READ_STATUS.ADAPTING (n : Nat) : Fld := ⟨0, drumBase n + 0x40000, 6, 1, .ro, 0⟩
/-- READ_STATUS [5:5] SYNC_LOCK RO (ch. 20): R411. -/
def R.READ_STATUS.SYNC_LOCK (n : Nat) : Fld := ⟨0, drumBase n + 0x40000, 5, 1, .ro, 0⟩
/-- READ_STATUS [4:4] TIMING_LOCK RO (ch. 20): R408. -/
def R.READ_STATUS.TIMING_LOCK (n : Nat) : Fld := ⟨0, drumBase n + 0x40000, 4, 1, .ro, 0⟩
/-- READ_STATUS [1:0] MODE RO (ch. 20): 0 IDLE, 1 CD, 2 DVD; 3 is never reported. Other bits read 0. -/
def R.READ_STATUS.MODE (n : Nat) : Fld := ⟨0, drumBase n + 0x40000, 0, 2, .ro, 0⟩
def R.READ_STATUS.all (n : Nat) : List Fld := [R.READ_STATUS.FREE n, R.READ_STATUS.ADAPTING n, R.READ_STATUS.SYNC_LOCK n, R.READ_STATUS.TIMING_LOCK n, R.READ_STATUS.MODE n]
/-- READ_RATE [19:0] KBPS RO (ch. 20): Measured channel bit rate in kbit/s; 0 without TIMING_LOCK. [31:20] reserved. -/
def R.READ_RATE.KBPS (n : Nat) : Fld := ⟨0, drumBase n + 0x40004, 0, 20, .ro, 0⟩
def R.READ_RATE.all (n : Nat) : List Fld := [R.READ_RATE.KBPS n]
/-- READ_CTRL [11:8] ITER RW (ch. 20): 1–8 passes (R415). -/
def R.READ_CTRL.ITER (n : Nat) : Fld := ⟨0, drumBase n + 0x40008, 8, 4, .rw, 8⟩
/-- READ_CTRL [2:2] EQ_FREEZE RW (ch. 20): R409. -/
def R.READ_CTRL.EQ_FREEZE (n : Nat) : Fld := ⟨0, drumBase n + 0x40008, 2, 1, .rw, 0⟩
/-- READ_CTRL [1:1] AUDIO_CONCEAL RW (ch. 20): R420. -/
def R.READ_CTRL.AUDIO_CONCEAL (n : Nat) : Fld := ⟨0, drumBase n + 0x40008, 1, 1, .rw, 0⟩
/-- READ_CTRL [0:0] L3_ECC RW (ch. 20): R415. Other bits read 0. -/
def R.READ_CTRL.L3_ECC (n : Nat) : Fld := ⟨0, drumBase n + 0x40008, 0, 1, .rw, 1⟩
def R.READ_CTRL.all (n : Nat) : List Fld := [R.READ_CTRL.ITER n, R.READ_CTRL.EQ_FREEZE n, R.READ_CTRL.AUDIO_CONCEAL n, R.READ_CTRL.L3_ECC n]
/-- READ_COMBINE [13:8] ERASE_THRESH RW (ch. 20): 0–63 (R417). -/
def R.READ_COMBINE.ERASE_THRESH (n : Nat) : Fld := ⟨0, drumBase n + 0x4000C, 8, 6, .rw, 6⟩
/-- READ_COMBINE [1:0] DEPTH_DEFAULT RO (ch. 20): COMBINE of the DRUM record. Other bits read 0. -/
def R.READ_COMBINE.DEPTH_DEFAULT (n : Nat) : Fld := ⟨0, drumBase n + 0x4000C, 0, 2, .ro, 0⟩
def R.READ_COMBINE.all (n : Nat) : List Fld := [R.READ_COMBINE.ERASE_THRESH n, R.READ_COMBINE.DEPTH_DEFAULT n]
/-- READ_EQ_CFG [8:8] RESTORE WO (ch. 20): 1: initial taps (R409). -/
def R.READ_EQ_CFG.RESTORE (n : Nat) : Fld := ⟨0, drumBase n + 0x40010, 8, 1, .wo, 0⟩
/-- READ_EQ_CFG [4:0] MU_SHIFT RW (ch. 20): 6–16. Other bits read 0. -/
def R.READ_EQ_CFG.MU_SHIFT (n : Nat) : Fld := ⟨0, drumBase n + 0x40010, 0, 5, .rw, 10⟩
def R.READ_EQ_CFG.all (n : Nat) : List Fld := [R.READ_EQ_CFG.RESTORE n, R.READ_EQ_CFG.MU_SHIFT n]
/-- READ_SCAR [31:24] METRIC RW (ch. 20): 1–255 (R413). -/
def R.READ_SCAR.METRIC (n : Nat) : Fld := ⟨0, drumBase n + 0x40014, 24, 8, .rw, 48⟩
/-- READ_SCAR [19:16] GUARD RW (ch. 20): 0–15 symbols. -/
def R.READ_SCAR.GUARD (n : Nat) : Fld := ⟨0, drumBase n + 0x40014, 16, 4, .rw, 2⟩
/-- READ_SCAR [15:8] ENV_PCT RW (ch. 20): 10–90 %. Other bits read 0. -/
def R.READ_SCAR.ENV_PCT (n : Nat) : Fld := ⟨0, drumBase n + 0x40014, 8, 8, .rw, 50⟩
def R.READ_SCAR.all (n : Nat) : List Fld := [R.READ_SCAR.METRIC n, R.READ_SCAR.GUARD n, R.READ_SCAR.ENV_PCT n]
/-- READ_SCAR_B [10:0] MIN_BITS RW (ch. 20): 8–1,024 channel bits. [31:11] reserved. -/
def R.READ_SCAR_B.MIN_BITS (n : Nat) : Fld := ⟨0, drumBase n + 0x40018, 0, 11, .rw, 32⟩
def R.READ_SCAR_B.all (n : Nat) : List Fld := [R.READ_SCAR_B.MIN_BITS n]
/-- READ_COUNTS [31:24] INNER_FAILS RC (ch. 20): C1 or PI codewords failed in the first pass of any decode attempt. -/
def R.READ_COUNTS.INNER_FAILS (n : Nat) : Fld := ⟨0, drumBase n + 0x40020, 24, 8, .rc, 0⟩
/-- READ_COUNTS [23:16] OUTER_FAILS RC (ch. 20): C2 or PO codewords failed after the last pass of any attempt. -/
def R.READ_COUNTS.OUTER_FAILS (n : Nat) : Fld := ⟨0, drumBase n + 0x40020, 16, 8, .rc, 0⟩
/-- READ_COUNTS [15:8] SECTORS_FAILED RC (ch. 20): Results 5 to 7. -/
def R.READ_COUNTS.SECTORS_FAILED (n : Nat) : Fld := ⟨0, drumBase n + 0x40020, 8, 8, .rc, 0⟩
/-- READ_COUNTS [7:0] RELOCK_SKIPS RC (ch. 20): R422. All four saturate at 0xFF and clear on the same read. -/
def R.READ_COUNTS.RELOCK_SKIPS (n : Nat) : Fld := ⟨0, drumBase n + 0x40020, 0, 8, .rc, 0⟩
def R.READ_COUNTS.all (n : Nat) : List Fld := [R.READ_COUNTS.INNER_FAILS n, R.READ_COUNTS.OUTER_FAILS n, R.READ_COUNTS.SECTORS_FAILED n, R.READ_COUNTS.RELOCK_SKIPS n]
/-- READ_COUNTS_B [31:24] SCARS RC (ch. 20): R413, R416, R422, R412; as READ_COUNTS. -/
def R.READ_COUNTS_B.SCARS (n : Nat) : Fld := ⟨0, drumBase n + 0x40024, 24, 8, .rc, 0⟩
/-- READ_COUNTS_B [23:16] COMBINES RC (ch. 20): R413, R416, R422, R412; as READ_COUNTS. -/
def R.READ_COUNTS_B.COMBINES (n : Nat) : Fld := ⟨0, drumBase n + 0x40024, 16, 8, .rc, 0⟩
/-- READ_COUNTS_B [15:8] STORE_SKIPS RC (ch. 20): R413, R416, R422, R412; as READ_COUNTS. -/
def R.READ_COUNTS_B.STORE_SKIPS (n : Nat) : Fld := ⟨0, drumBase n + 0x40024, 8, 8, .rc, 0⟩
/-- READ_COUNTS_B [7:0] SYNC_LOSSES RC (ch. 20): R413, R416, R422, R412; as READ_COUNTS. -/
def R.READ_COUNTS_B.SYNC_LOSSES (n : Nat) : Fld := ⟨0, drumBase n + 0x40024, 0, 8, .rc, 0⟩
def R.READ_COUNTS_B.all (n : Nat) : List Fld := [R.READ_COUNTS_B.SCARS n, R.READ_COUNTS_B.COMBINES n, R.READ_COUNTS_B.STORE_SKIPS n, R.READ_COUNTS_B.SYNC_LOSSES n]
/-- READ_EQ_TAP [15:0] COEFF RO (ch. 20): Signed; tap = COEFF / 16,384. [31:16] reserved. -/
def R.READ_EQ_TAP.COEFF (n : Nat) (i : Nat) : Fld := ⟨0, drumBase n + 0x40040 + 4 * i, 0, 16, .ro, if i = 7 then 16384 else 0⟩
def R.READ_EQ_TAP.all (n : Nat) (i : Nat) : List Fld := [R.READ_EQ_TAP.COEFF n i]
/-- READ_REPORT_HEAD [15:0] COUNT RO (ch. 20): Banked per slot: sector reports written for the slot's strokes, modulo 65,536. [31:16] reserved. -/
def R.READ_REPORT_HEAD.COUNT (n : Nat) (slot : Nat) : Fld := ⟨slot, drumBase n + 0x40100, 0, 16, .ro, 0⟩
def R.READ_REPORT_HEAD.all (n : Nat) (slot : Nat) : List Fld := [R.READ_REPORT_HEAD.COUNT n slot]
/-- READ_REPORT [31:0] WORD RO (ch. 20): Banked per slot. -/
def R.READ_REPORT.WORD (n : Nat) (slot : Nat) (i : Nat) (j : Nat) : Fld := ⟨slot, drumBase n + 0x40200 + 16 * i + 4 * j, 0, 32, .ro, 0⟩
def R.READ_REPORT.all (n : Nat) (slot : Nat) (i : Nat) (j : Nat) : List Fld := [R.READ_REPORT.WORD n slot i j]
/-- AUD_STATUS [31:31] PLAYING RO (ch. 21): 1: a PLAY_AUDIO stroke feeds the output. -/
def R.AUD_STATUS.PLAYING (o : Nat) : Fld := ⟨0, 0x00280000 + 0x10 * o + 0x0, 31, 1, .ro, 0⟩
/-- AUD_STATUS [20:16] BUFFERED RO (ch. 21): Sectors buffered, 0–16. -/
def R.AUD_STATUS.BUFFERED (o : Nat) : Fld := ⟨0, 0x00280000 + 0x10 * o + 0x0, 16, 5, .ro, 0⟩
/-- AUD_STATUS [0:0] UNDERRUN W1C (ch. 21): R441. Other bits read 0. -/
def R.AUD_STATUS.UNDERRUN (o : Nat) : Fld := ⟨0, 0x00280000 + 0x10 * o + 0x0, 0, 1, .w1c, 0⟩
def R.AUD_STATUS.all (o : Nat) : List Fld := [R.AUD_STATUS.PLAYING o, R.AUD_STATUS.BUFFERED o, R.AUD_STATUS.UNDERRUN o]
/-- AUD_CTRL [0:0] MUTE RW (ch. 21): 1: SD carries zeros; timing and units are unaffected. [31:1] reserved. -/
def R.AUD_CTRL.MUTE (o : Nat) : Fld := ⟨0, 0x00280000 + 0x10 * o + 0x4, 0, 1, .rw, 0⟩
def R.AUD_CTRL.all (o : Nat) : List Fld := [R.AUD_CTRL.MUTE o]
/-- AUD_POS [31:0] ADDRESS RO (ch. 21): The sector now leaving the output. -/
def R.AUD_POS.ADDRESS (o : Nat) : Fld := ⟨0, 0x00280000 + 0x10 * o + 0x8, 0, 32, .ro, 0⟩
def R.AUD_POS.all (o : Nat) : List Fld := [R.AUD_POS.ADDRESS o]
/-- STK_DISC [31:24] GEN RO (ch. 21): R431. -/
def R.STK_DISC.GEN (n : Nat) : Fld := ⟨0, drumBase n + 0x50000, 24, 8, .ro, 0⟩
/-- STK_DISC [18:16] KIND RO (ch. 21): Table 21-4; 0 unless IDENTIFIED. -/
def R.STK_DISC.KIND (n : Nat) : Fld := ⟨0, drumBase n + 0x50000, 16, 3, .ro, 0⟩
/-- STK_DISC [1:0] STATE RO (ch. 21): 0 OPEN, 1 UNKNOWN, 2 IDENTIFIED, 3 UNREADABLE. Other bits read 0. -/
def R.STK_DISC.STATE (n : Nat) : Fld := ⟨0, drumBase n + 0x50000, 0, 2, .ro, 0⟩
def R.STK_DISC.all (n : Nat) : List Fld := [R.STK_DISC.GEN n, R.STK_DISC.KIND n, R.STK_DISC.STATE n]
/-- STK_END [31:0] ADDRESS RO (ch. 21): Table 21-4; 0 unless IDENTIFIED. -/
def R.STK_END.ADDRESS (n : Nat) : Fld := ⟨0, drumBase n + 0x50004, 0, 32, .ro, 0⟩
def R.STK_END.all (n : Nat) : List Fld := [R.STK_END.ADDRESS n]
/-- STK_START [31:0] ADDRESS RO (ch. 21): Table 21-4; 0 unless IDENTIFIED. -/
def R.STK_START.ADDRESS (n : Nat) : Fld := ⟨0, drumBase n + 0x50008, 0, 32, .ro, 0⟩
def R.STK_START.all (n : Nat) : List Fld := [R.STK_START.ADDRESS n]
/-- STK_CFG [15:0] SPAN RW (ch. 21): Sectors (R437); 0 turns coalescing off. [31:16] reserved. -/
def R.STK_CFG.SPAN (n : Nat) : Fld := ⟨0, drumBase n + 0x5000C, 0, 16, .rw, 256⟩
def R.STK_CFG.all (n : Nat) : List Fld := [R.STK_CFG.SPAN n]
/-- STK_NOW [31:31] BUSY RO (ch. 21): 1: a stroke runs. -/
def R.STK_NOW.BUSY (n : Nat) : Fld := ⟨0, drumBase n + 0x50010, 31, 1, .ro, 0⟩
/-- STK_NOW [18:16] SLOT RO (ch. 21): Its grove's local slot. Other bits read 0. -/
def R.STK_NOW.SLOT (n : Nat) : Fld := ⟨0, drumBase n + 0x50010, 16, 3, .ro, 0⟩
def R.STK_NOW.all (n : Nat) : List Fld := [R.STK_NOW.BUSY n, R.STK_NOW.SLOT n]
/-- STK_PROD [15:0] COUNT RW (ch. 21): R427. [31:16] reserved. -/
def R.STK_PROD.COUNT (n : Nat) (slot : Nat) : Fld := ⟨slot, drumBase n + 0x50100, 0, 16, .rw, 0⟩
def R.STK_PROD.all (n : Nat) (slot : Nat) : List Fld := [R.STK_PROD.COUNT n slot]
/-- STK_CONS [15:0] COUNT RO (ch. 21): Strokes ended. [31:16] reserved. -/
def R.STK_CONS.COUNT (n : Nat) (slot : Nat) : Fld := ⟨slot, drumBase n + 0x50104, 0, 16, .ro, 0⟩
def R.STK_CONS.all (n : Nat) (slot : Nat) : List Fld := [R.STK_CONS.COUNT n slot]
/-- STK_RING [16:16] HELD RO (ch. 21): 1: strokes held under R193. -/
def R.STK_RING.HELD (n : Nat) (slot : Nat) : Fld := ⟨slot, drumBase n + 0x50108, 16, 1, .ro, 0⟩
/-- STK_RING [2:0] DEPTH RO (ch. 21): 3–7. Other bits read 0. -/
def R.STK_RING.DEPTH (n : Nat) (slot : Nat) : Fld := ⟨slot, drumBase n + 0x50108, 0, 3, .ro, 0⟩
def R.STK_RING.all (n : Nat) (slot : Nat) : List Fld := [R.STK_RING.HELD n slot, R.STK_RING.DEPTH n slot]
/-- STK_DEMAND [15:0] DEMAND RO (ch. 21): The grove's demand (R51). [31:16] reserved. -/
def R.STK_DEMAND.DEMAND (n : Nat) (slot : Nat) : Fld := ⟨slot, drumBase n + 0x5010C, 0, 16, .ro, 0⟩
def R.STK_DEMAND.all (n : Nat) (slot : Nat) : List Fld := [R.STK_DEMAND.DEMAND n slot]
/-- STK_ENTRY [31:0] BYTES RW (ch. 21): Descriptor bytes 4j to 4j + 3, for i < 2^DEPTH. -/
def R.STK_ENTRY.BYTES (n : Nat) (slot : Nat) (i : Nat) (j : Nat) : Fld := ⟨slot, drumBase n + 0x51000 + 32 * i + 4 * j, 0, 32, .rw, 0⟩
def R.STK_ENTRY.all (n : Nat) (slot : Nat) (i : Nat) (j : Nat) : List Fld := [R.STK_ENTRY.BYTES n slot i j]
/-- GPIO_DIR [15:0] OUT RW (ch. 22): Bit k: 1 drives pin k; 0 leaves it an input. [31:16] reserved. -/
def R.GPIO_DIR.OUT : Fld := ⟨0, 0x00290010, 0, 16, .rw, 0⟩
def R.GPIO_DIR.all : List Fld := [R.GPIO_DIR.OUT]
/-- GPIO_OUT [15:0] LEVEL RW (ch. 22): Bit k: the level driven while DIR is 1. With OD = 1, 0 drives low and 1 releases the pin. [31:16] reserved. -/
def R.GPIO_OUT.LEVEL : Fld := ⟨0, 0x00290014, 0, 16, .rw, 0⟩
def R.GPIO_OUT.all : List Fld := [R.GPIO_OUT.LEVEL]
/-- GPIO_SET [15:0] SET W1S (ch. 22): Reads as GPIO_OUT. A 1 sets that bit of GPIO_OUT; a 0 leaves it. [31:16] reserved. -/
def R.GPIO_SET.SET : Fld := ⟨0, 0x00290018, 0, 16, .w1s, 0⟩
def R.GPIO_SET.all : List Fld := [R.GPIO_SET.SET]
/-- GPIO_CLR [15:0] CLR W1C (ch. 22): Reads as GPIO_OUT. A 1 clears that bit of GPIO_OUT; a 0 leaves it. [31:16] reserved. -/
def R.GPIO_CLR.CLR : Fld := ⟨0, 0x0029001C, 0, 16, .w1c, 0⟩
def R.GPIO_CLR.all : List Fld := [R.GPIO_CLR.CLR]
/-- GPIO_IN [15:0] LEVEL RO (ch. 22): Bit k: the level at pin k after a two-stage synchronizer on the reference, whatever DIR is. [31:16] reserved. -/
def R.GPIO_IN.LEVEL : Fld := ⟨0, 0x00290020, 0, 16, .ro, 0⟩
def R.GPIO_IN.all : List Fld := [R.GPIO_IN.LEVEL]
/-- GPIO_OD [15:0] OPEN_DRAIN RW (ch. 22): Bit k: 1 open-drain, 0 push-pull. [31:16] reserved. -/
def R.GPIO_OD.OPEN_DRAIN : Fld := ⟨0, 0x00290024, 0, 16, .rw, 0⟩
def R.GPIO_OD.all : List Fld := [R.GPIO_OD.OPEN_DRAIN]
/-- GPIO_EVENT [15:0] EVENT W1C (ch. 22): Bit k: pin k met its EDGE_k since the bit was last cleared. [31:16] reserved. -/
def R.GPIO_EVENT.EVENT : Fld := ⟨0, 0x00290034, 0, 16, .w1c, 0⟩
def R.GPIO_EVENT.all : List Fld := [R.GPIO_EVENT.EVENT]
/-- GPIO_EVENT_EN [15:0] ENABLE RW (ch. 22): Bit k passes EVENT bit k to the pin's owner (R467). [31:16] reserved. -/
def R.GPIO_EVENT_EN.ENABLE : Fld := ⟨0, 0x00290038, 0, 16, .rw, 0⟩
def R.GPIO_EVENT_EN.all : List Fld := [R.GPIO_EVENT_EN.ENABLE]
/-- UART_CFG [31:27] GROVE RO (ch. 22): Owner's grove number; 0 when unowned. -/
def R.UART_CFG.GROVE (u : Nat) : Fld := ⟨0, 0x00230000 + 0x10000 * u + 0x0, 27, 5, .ro, 0⟩
/-- UART_CFG [24:24] USE RO (ch. 22): 0 data port, 1 console. -/
def R.UART_CFG.USE (u : Nat) : Fld := ⟨0, 0x00230000 + 0x10000 * u + 0x0, 24, 1, .ro, 0⟩
/-- UART_CFG [17:16] MODE RW (ch. 22): 0 normal, 1 address, 2 card; 3 stores 0. -/
def R.UART_CFG.MODE (u : Nat) : Fld := ⟨0, 0x00230000 + 0x10000 * u + 0x0, 16, 2, .rw, 0⟩
/-- UART_CFG [15:15] FLOW RW (ch. 22): R458. -/
def R.UART_CFG.FLOW (u : Nat) : Fld := ⟨0, 0x00230000 + 0x10000 * u + 0x0, 15, 1, .rw, 0⟩
/-- UART_CFG [14:14] RX_EN RW (ch. 22): R453. -/
def R.UART_CFG.RX_EN (u : Nat) : Fld := ⟨0, 0x00230000 + 0x10000 * u + 0x0, 14, 1, .rw, 1⟩
/-- UART_CFG [13:13] TX_EN RW (ch. 22): R453. -/
def R.UART_CFG.TX_EN (u : Nat) : Fld := ⟨0, 0x00230000 + 0x10000 * u + 0x0, 13, 1, .rw, 1⟩
/-- UART_CFG [12:12] DE_EN RW (ch. 22): R448. -/
def R.UART_CFG.DE_EN (u : Nat) : Fld := ⟨0, 0x00230000 + 0x10000 * u + 0x0, 12, 1, .rw, 0⟩
/-- UART_CFG [9:8] STOP RW (ch. 22): 0 one, 1 one and a half, 2 two; 3 stores 0. -/
def R.UART_CFG.STOP (u : Nat) : Fld := ⟨0, 0x00230000 + 0x10000 * u + 0x0, 8, 2, .rw, 0⟩
/-- UART_CFG [6:4] PARITY RW (ch. 22): 0 none, 1 odd, 2 even, 3 mark, 4 space; 5–7 store 0. -/
def R.UART_CFG.PARITY (u : Nat) : Fld := ⟨0, 0x00230000 + 0x10000 * u + 0x0, 4, 3, .rw, 0⟩
/-- UART_CFG [3:0] DATA_BITS RW (ch. 22): 5–9. Other bits read 0. -/
def R.UART_CFG.DATA_BITS (u : Nat) : Fld := ⟨0, 0x00230000 + 0x10000 * u + 0x0, 0, 4, .rw, 8⟩
def R.UART_CFG.all (u : Nat) : List Fld := [R.UART_CFG.GROVE u, R.UART_CFG.USE u, R.UART_CFG.MODE u, R.UART_CFG.FLOW u, R.UART_CFG.RX_EN u, R.UART_CFG.TX_EN u, R.UART_CFG.DE_EN u, R.UART_CFG.STOP u, R.UART_CFG.PARITY u, R.UART_CFG.DATA_BITS u]
/-- UART_DIV [31:31] PRE RW (ch. 22): R450. -/
def R.UART_DIV.PRE (u : Nat) : Fld := ⟨0, 0x00230000 + 0x10000 * u + 0x4, 31, 1, .rw, 0⟩
/-- UART_DIV [23:8] INT RW (ch. 22): 8–65,535. -/
def R.UART_DIV.INT (u : Nat) : Fld := ⟨0, 0x00230000 + 0x10000 * u + 0x4, 8, 16, .rw, 868⟩
/-- UART_DIV [7:0] FRAC RW (ch. 22): Reset gives 115,200 baud. Other bits read 0. -/
def R.UART_DIV.FRAC (u : Nat) : Fld := ⟨0, 0x00230000 + 0x10000 * u + 0x4, 0, 8, .rw, 14⟩
def R.UART_DIV.all (u : Nat) : List Fld := [R.UART_DIV.PRE u, R.UART_DIV.INT u, R.UART_DIV.FRAC u]
/-- UART_RX [31:31] VALID RC (ch. 22): 1: the read removed this entry. -/
def R.UART_RX.VALID (u : Nat) : Fld := ⟨0, 0x00230000 + 0x10000 * u + 0x8, 31, 1, .rc, 0⟩
/-- UART_RX [11:11] BREAK RC (ch. 22): R452. -/
def R.UART_RX.BREAK (u : Nat) : Fld := ⟨0, 0x00230000 + 0x10000 * u + 0x8, 11, 1, .rc, 0⟩
/-- UART_RX [10:10] FRAME RC (ch. 22): R452. -/
def R.UART_RX.FRAME (u : Nat) : Fld := ⟨0, 0x00230000 + 0x10000 * u + 0x8, 10, 1, .rc, 0⟩
/-- UART_RX [9:9] PARITY_ERR RC (ch. 22): R452. -/
def R.UART_RX.PARITY_ERR (u : Nat) : Fld := ⟨0, 0x00230000 + 0x10000 * u + 0x8, 9, 1, .rc, 0⟩
/-- UART_RX [8:0] DATA RC (ch. 22): Received data; bit 8 is the address flag in address mode. Other bits read 0. -/
def R.UART_RX.DATA (u : Nat) : Fld := ⟨0, 0x00230000 + 0x10000 * u + 0x8, 0, 9, .rc, 0⟩
def R.UART_RX.all (u : Nat) : List Fld := [R.UART_RX.VALID u, R.UART_RX.BREAK u, R.UART_RX.FRAME u, R.UART_RX.PARITY_ERR u, R.UART_RX.DATA u]
/-- UART_TX [8:0] DATA WO (ch. 22): Appended to the transmit FIFO (R453). [31:9] ignored. -/
def R.UART_TX.DATA (u : Nat) : Fld := ⟨0, 0x00230000 + 0x10000 * u + 0xC, 0, 9, .wo, 0⟩
def R.UART_TX.all (u : Nat) : List Fld := [R.UART_TX.DATA u]
/-- UART_STATUS [30:24] RX_LEVEL RO (ch. 22): Entries, 0–64. -/
def R.UART_STATUS.RX_LEVEL (u : Nat) : Fld := ⟨0, 0x00230000 + 0x10000 * u + 0x10, 24, 7, .ro, 0⟩
/-- UART_STATUS [22:16] TX_LEVEL RO (ch. 22): Entries, 0–64. -/
def R.UART_STATUS.TX_LEVEL (u : Nat) : Fld := ⟨0, 0x00230000 + 0x10000 * u + 0x10, 16, 7, .ro, 0⟩
/-- UART_STATUS [8:8] CFG_PENDING RO (ch. 22): R461. -/
def R.UART_STATUS.CFG_PENDING (u : Nat) : Fld := ⟨0, 0x00230000 + 0x10000 * u + 0x10, 8, 1, .ro, 0⟩
/-- UART_STATUS [7:7] TX_FAILED W1C (ch. 22): R456. -/
def R.UART_STATUS.TX_FAILED (u : Nat) : Fld := ⟨0, 0x00230000 + 0x10000 * u + 0x10, 7, 1, .w1c, 0⟩
/-- UART_STATUS [6:6] MUTED RO (ch. 22): R454, R458. -/
def R.UART_STATUS.MUTED (u : Nat) : Fld := ⟨0, 0x00230000 + 0x10000 * u + 0x10, 6, 1, .ro, 0⟩
/-- UART_STATUS [5:5] PAUSED RO (ch. 22): R454, R458. -/
def R.UART_STATUS.PAUSED (u : Nat) : Fld := ⟨0, 0x00230000 + 0x10000 * u + 0x10, 5, 1, .ro, 0⟩
/-- UART_STATUS [4:4] XOFF_SENT RO (ch. 22): R454, R458. -/
def R.UART_STATUS.XOFF_SENT (u : Nat) : Fld := ⟨0, 0x00230000 + 0x10000 * u + 0x10, 4, 1, .ro, 0⟩
/-- UART_STATUS [3:3] OVERRUN W1C (ch. 22): R453. -/
def R.UART_STATUS.OVERRUN (u : Nat) : Fld := ⟨0, 0x00230000 + 0x10000 * u + 0x10, 3, 1, .w1c, 0⟩
/-- UART_STATUS [2:2] LINE_LOW RO (ch. 22): 1: RX is low beyond a break entry. -/
def R.UART_STATUS.LINE_LOW (u : Nat) : Fld := ⟨0, 0x00230000 + 0x10000 * u + 0x10, 2, 1, .ro, 0⟩
/-- UART_STATUS [1:1] RX_BUSY RO (ch. 22): A character is being received or sent. Other bits read 0. -/
def R.UART_STATUS.RX_BUSY (u : Nat) : Fld := ⟨0, 0x00230000 + 0x10000 * u + 0x10, 1, 1, .ro, 0⟩
/-- UART_STATUS [0:0] TX_BUSY RO (ch. 22): A character is being received or sent. Other bits read 0. -/
def R.UART_STATUS.TX_BUSY (u : Nat) : Fld := ⟨0, 0x00230000 + 0x10000 * u + 0x10, 0, 1, .ro, 0⟩
def R.UART_STATUS.all (u : Nat) : List Fld := [R.UART_STATUS.RX_LEVEL u, R.UART_STATUS.TX_LEVEL u, R.UART_STATUS.CFG_PENDING u, R.UART_STATUS.TX_FAILED u, R.UART_STATUS.MUTED u, R.UART_STATUS.PAUSED u, R.UART_STATUS.XOFF_SENT u, R.UART_STATUS.OVERRUN u, R.UART_STATUS.LINE_LOW u, R.UART_STATUS.RX_BUSY u, R.UART_STATUS.TX_BUSY u]
/-- UART_IRQ [6:6] CARD_FAIL W1C (ch. 22): R459, bit 6 down to bit 0. -/
def R.UART_IRQ.CARD_FAIL (u : Nat) : Fld := ⟨0, 0x00230000 + 0x10000 * u + 0x14, 6, 1, .w1c, 0⟩
/-- UART_IRQ [5:5] ADDR_MATCH W1C (ch. 22): R459, bit 6 down to bit 0. -/
def R.UART_IRQ.ADDR_MATCH (u : Nat) : Fld := ⟨0, 0x00230000 + 0x10000 * u + 0x14, 5, 1, .w1c, 0⟩
/-- UART_IRQ [4:4] TX_DONE W1C (ch. 22): R459, bit 6 down to bit 0. -/
def R.UART_IRQ.TX_DONE (u : Nat) : Fld := ⟨0, 0x00230000 + 0x10000 * u + 0x14, 4, 1, .w1c, 0⟩
/-- UART_IRQ [3:3] OVERRUN W1C (ch. 22): R459, bit 6 down to bit 0. -/
def R.UART_IRQ.OVERRUN (u : Nat) : Fld := ⟨0, 0x00230000 + 0x10000 * u + 0x14, 3, 1, .w1c, 0⟩
/-- UART_IRQ [2:2] RX_ERROR W1C (ch. 22): R459, bit 6 down to bit 0. -/
def R.UART_IRQ.RX_ERROR (u : Nat) : Fld := ⟨0, 0x00230000 + 0x10000 * u + 0x14, 2, 1, .w1c, 0⟩
/-- UART_IRQ [1:1] TX_SPACE W1C (ch. 22): R459, bit 6 down to bit 0. -/
def R.UART_IRQ.TX_SPACE (u : Nat) : Fld := ⟨0, 0x00230000 + 0x10000 * u + 0x14, 1, 1, .w1c, 0⟩
/-- UART_IRQ [0:0] RX_DATA W1C (ch. 22): R459, bit 6 down to bit 0. -/
def R.UART_IRQ.RX_DATA (u : Nat) : Fld := ⟨0, 0x00230000 + 0x10000 * u + 0x14, 0, 1, .w1c, 0⟩
def R.UART_IRQ.all (u : Nat) : List Fld := [R.UART_IRQ.CARD_FAIL u, R.UART_IRQ.ADDR_MATCH u, R.UART_IRQ.TX_DONE u, R.UART_IRQ.OVERRUN u, R.UART_IRQ.RX_ERROR u, R.UART_IRQ.TX_SPACE u, R.UART_IRQ.RX_DATA u]
/-- UART_IRQ_ENABLE [6:0] ENABLE RW (ch. 22): Bit b enables UART_IRQ bit b. -/
def R.UART_IRQ_ENABLE.ENABLE (u : Nat) : Fld := ⟨0, 0x00230000 + 0x10000 * u + 0x18, 0, 7, .rw, 0⟩
def R.UART_IRQ_ENABLE.all (u : Nat) : List Fld := [R.UART_IRQ_ENABLE.ENABLE u]
/-- UART_FIFO_CFG [30:24] RX_HIGH RW (ch. 22): 2–64. -/
def R.UART_FIFO_CFG.RX_HIGH (u : Nat) : Fld := ⟨0, 0x00230000 + 0x10000 * u + 0x1C, 24, 7, .rw, 48⟩
/-- UART_FIFO_CFG [22:16] RX_LOW RW (ch. 22): 0 to RX_HIGH − 1; a larger value stores RX_HIGH − 1. -/
def R.UART_FIFO_CFG.RX_LOW (u : Nat) : Fld := ⟨0, 0x00230000 + 0x10000 * u + 0x1C, 16, 7, .rw, 16⟩
/-- UART_FIFO_CFG [14:8] TX_TRIG RW (ch. 22): 0–63. -/
def R.UART_FIFO_CFG.TX_TRIG (u : Nat) : Fld := ⟨0, 0x00230000 + 0x10000 * u + 0x1C, 8, 7, .rw, 16⟩
/-- UART_FIFO_CFG [6:0] RX_TRIG RW (ch. 22): 1–64. Other bits read 0. -/
def R.UART_FIFO_CFG.RX_TRIG (u : Nat) : Fld := ⟨0, 0x00230000 + 0x10000 * u + 0x1C, 0, 7, .rw, 1⟩
def R.UART_FIFO_CFG.all (u : Nat) : List Fld := [R.UART_FIFO_CFG.RX_HIGH u, R.UART_FIFO_CFG.RX_LOW u, R.UART_FIFO_CFG.TX_TRIG u, R.UART_FIFO_CFG.RX_TRIG u]
/-- UART_FLOW [15:8] XOFF RW (ch. 22): A write with XOFF equal to XON stores nothing. -/
def R.UART_FLOW.XOFF (u : Nat) : Fld := ⟨0, 0x00230000 + 0x10000 * u + 0x20, 8, 8, .rw, 19⟩
/-- UART_FLOW [7:0] XON RW (ch. 22): A write with XOFF equal to XON stores nothing. -/
def R.UART_FLOW.XON (u : Nat) : Fld := ⟨0, 0x00230000 + 0x10000 * u + 0x20, 0, 8, .rw, 17⟩
def R.UART_FLOW.all (u : Nat) : List Fld := [R.UART_FLOW.XOFF u, R.UART_FLOW.XON u]
/-- UART_ADDR [31:31] KEEP_ADDR RW (ch. 22): R454. -/
def R.UART_ADDR.KEEP_ADDR (u : Nat) : Fld := ⟨0, 0x00230000 + 0x10000 * u + 0x24, 31, 1, .rw, 0⟩
/-- UART_ADDR [30:30] BCAST_EN RW (ch. 22): R454. -/
def R.UART_ADDR.BCAST_EN (u : Nat) : Fld := ⟨0, 0x00230000 + 0x10000 * u + 0x24, 30, 1, .rw, 0⟩
/-- UART_ADDR [23:16] BROADCAST RW (ch. 22): R454. -/
def R.UART_ADDR.BROADCAST (u : Nat) : Fld := ⟨0, 0x00230000 + 0x10000 * u + 0x24, 16, 8, .rw, 255⟩
/-- UART_ADDR [15:8] MASK RW (ch. 22): R454. -/
def R.UART_ADDR.MASK (u : Nat) : Fld := ⟨0, 0x00230000 + 0x10000 * u + 0x24, 8, 8, .rw, 255⟩
/-- UART_ADDR [7:0] ADDR RW (ch. 22): R454. -/
def R.UART_ADDR.ADDR (u : Nat) : Fld := ⟨0, 0x00230000 + 0x10000 * u + 0x24, 0, 8, .rw, 0⟩
def R.UART_ADDR.all (u : Nat) : List Fld := [R.UART_ADDR.KEEP_ADDR u, R.UART_ADDR.BCAST_EN u, R.UART_ADDR.BROADCAST u, R.UART_ADDR.MASK u, R.UART_ADDR.ADDR u]
/-- UART_CARD [31:31] CK_EN RW (ch. 22): R457. -/
def R.UART_CARD.CK_EN (u : Nat) : Fld := ⟨0, 0x00230000 + 0x10000 * u + 0x28, 31, 1, .rw, 0⟩
/-- UART_CARD [23:16] CK_DIV RW (ch. 22): 1–255. -/
def R.UART_CARD.CK_DIV (u : Nat) : Fld := ⟨0, 0x00230000 + 0x10000 * u + 0x28, 16, 8, .rw, 10⟩
/-- UART_CARD [15:8] GUARD RW (ch. 22): 0–254 etu. -/
def R.UART_CARD.GUARD (u : Nat) : Fld := ⟨0, 0x00230000 + 0x10000 * u + 0x28, 8, 8, .rw, 0⟩
/-- UART_CARD [6:4] RETRIES RW (ch. 22): 0–7. -/
def R.UART_CARD.RETRIES (u : Nat) : Fld := ⟨0, 0x00230000 + 0x10000 * u + 0x28, 4, 3, .rw, 4⟩
/-- UART_CARD [1:1] ERR_SIG RW (ch. 22): R455, R456. Other bits read 0. -/
def R.UART_CARD.ERR_SIG (u : Nat) : Fld := ⟨0, 0x00230000 + 0x10000 * u + 0x28, 1, 1, .rw, 1⟩
/-- UART_CARD [0:0] CONV RW (ch. 22): R455, R456. Other bits read 0. -/
def R.UART_CARD.CONV (u : Nat) : Fld := ⟨0, 0x00230000 + 0x10000 * u + 0x28, 0, 1, .rw, 0⟩
def R.UART_CARD.all (u : Nat) : List Fld := [R.UART_CARD.CK_EN u, R.UART_CARD.CK_DIV u, R.UART_CARD.GUARD u, R.UART_CARD.RETRIES u, R.UART_CARD.ERR_SIG u, R.UART_CARD.CONV u]
/-- UART_COUNTS [31:24] FRAMES RC (ch. 22): Each saturates at 0xFF; all clear on the same read. -/
def R.UART_COUNTS.FRAMES (u : Nat) : Fld := ⟨0, 0x00230000 + 0x10000 * u + 0x2C, 24, 8, .rc, 0⟩
/-- UART_COUNTS [23:16] PARITY RC (ch. 22): Each saturates at 0xFF; all clear on the same read. -/
def R.UART_COUNTS.PARITY (u : Nat) : Fld := ⟨0, 0x00230000 + 0x10000 * u + 0x2C, 16, 8, .rc, 0⟩
/-- UART_COUNTS [15:8] OVERRUNS RC (ch. 22): Each saturates at 0xFF; all clear on the same read. -/
def R.UART_COUNTS.OVERRUNS (u : Nat) : Fld := ⟨0, 0x00230000 + 0x10000 * u + 0x2C, 8, 8, .rc, 0⟩
/-- UART_COUNTS [7:0] TX_DROPS RC (ch. 22): Each saturates at 0xFF; all clear on the same read. -/
def R.UART_COUNTS.TX_DROPS (u : Nat) : Fld := ⟨0, 0x00230000 + 0x10000 * u + 0x2C, 0, 8, .rc, 0⟩
def R.UART_COUNTS.all (u : Nat) : List Fld := [R.UART_COUNTS.FRAMES u, R.UART_COUNTS.PARITY u, R.UART_COUNTS.OVERRUNS u, R.UART_COUNTS.TX_DROPS u]
/-- UART_CMD [1:1] FLUSH_TX WO (ch. 22): 1 empties that FIFO; a character in progress completes. [31:2] ignored. -/
def R.UART_CMD.FLUSH_TX (u : Nat) : Fld := ⟨0, 0x00230000 + 0x10000 * u + 0x30, 1, 1, .wo, 0⟩
/-- UART_CMD [0:0] FLUSH_RX WO (ch. 22): 1 empties that FIFO; a character in progress completes. [31:2] ignored. -/
def R.UART_CMD.FLUSH_RX (u : Nat) : Fld := ⟨0, 0x00230000 + 0x10000 * u + 0x30, 0, 1, .wo, 0⟩
def R.UART_CMD.all (u : Nat) : List Fld := [R.UART_CMD.FLUSH_TX u, R.UART_CMD.FLUSH_RX u]
/-- TRUNK_CFG [31:31] HELD RO (ch. 23): 1: held down by IDB_3 (R226). -/
def R.TRUNK_CFG.HELD : Fld := ⟨0, 0x00600000, 31, 1, .ro, 0⟩
/-- TRUNK_CFG [17:16] GROUPING RO (ch. 23): From the TRUNK record. -/
def R.TRUNK_CFG.GROUPING : Fld := ⟨0, 0x00600000, 16, 2, .ro, 0⟩
/-- TRUNK_CFG [11:8] IN_USE RO (ch. 23): Lanes in use (R471). -/
def R.TRUNK_CFG.IN_USE : Fld := ⟨0, 0x00600000, 8, 4, .ro, 0⟩
/-- TRUNK_CFG [3:0] LANE_MASK RO (ch. 23): From the record. Other bits read 0. -/
def R.TRUNK_CFG.LANE_MASK : Fld := ⟨0, 0x00600000, 0, 4, .ro, 0⟩
def R.TRUNK_CFG.all : List Fld := [R.TRUNK_CFG.HELD, R.TRUNK_CFG.GROUPING, R.TRUNK_CFG.IN_USE, R.TRUNK_CFG.LANE_MASK]
/-- TRUNK_LIMITS [31:24] REPLAY_US RW (ch. 23): 2–255 µs (R482). -/
def R.TRUNK_LIMITS.REPLAY_US : Fld := ⟨0, 0x00600004, 24, 8, .rw, 20⟩
/-- TRUNK_LIMITS [23:16] KEEPALIVE RW (ch. 23): 1–255, in 10 µs. -/
def R.TRUNK_LIMITS.KEEPALIVE : Fld := ⟨0, 0x00600004, 16, 8, .rw, 10⟩
/-- TRUNK_LIMITS [15:0] ERR_LIMIT RW (ch. 23): 1–65,535 (R474, R477). -/
def R.TRUNK_LIMITS.ERR_LIMIT : Fld := ⟨0, 0x00600004, 0, 16, .rw, 1000⟩
def R.TRUNK_LIMITS.all : List Fld := [R.TRUNK_LIMITS.REPLAY_US, R.TRUNK_LIMITS.KEEPALIVE, R.TRUNK_LIMITS.ERR_LIMIT]
/-- TRUNK_CMD [31:31] GO WO (ch. 23): 1: run OP. -/
def R.TRUNK_CMD.GO : Fld := ⟨0, 0x00600008, 31, 1, .wo, 0⟩
/-- TRUNK_CMD [9:8] OP WO (ch. 23): 1 RETRAIN port (a link loss); 2 RESET_LANE, which clears FAILED; 0 and 3 have no effect. -/
def R.TRUNK_CMD.OP : Fld := ⟨0, 0x00600008, 8, 2, .wo, 0⟩
/-- TRUNK_CMD [5:4] PORT WO (ch. 23): Targets. -/
def R.TRUNK_CMD.PORT : Fld := ⟨0, 0x00600008, 4, 2, .wo, 0⟩
/-- TRUNK_CMD [1:0] LANE WO (ch. 23): Targets. -/
def R.TRUNK_CMD.LANE : Fld := ⟨0, 0x00600008, 0, 2, .wo, 0⟩
def R.TRUNK_CMD.all : List Fld := [R.TRUNK_CMD.GO, R.TRUNK_CMD.OP, R.TRUNK_CMD.PORT, R.TRUNK_CMD.LANE]
/-- TRUNK_LANE [31:16] CORRECTED RO (ch. 23): Corrected symbols in the last full second, in thousands. -/
def R.TRUNK_LANE.CORRECTED (l : Nat) : Fld := ⟨0, 0x00600010 + 4 * l, 16, 16, .ro, 0⟩
/-- TRUNK_LANE [2:0] STATE RO (ch. 23): 0 OFF, 1 TRAINING, 2 ACTIVE, 3 IDLE, 4 SAVED, 5 FAILED, 6 PRUNED; 7 is never reported. -/
def R.TRUNK_LANE.STATE (l : Nat) : Fld := ⟨0, 0x00600010 + 4 * l, 0, 3, .ro, 0⟩
def R.TRUNK_LANE.all (l : Nat) : List Fld := [R.TRUNK_LANE.CORRECTED l, R.TRUNK_LANE.STATE l]
/-- PORT_STATUS [31:24] EPOCH RO (ch. 23): Sending EPOCH. -/
def R.PORT_STATUS.EPOCH (p : Nat) : Fld := ⟨0, 0x00600000 + 0x40 * p + 0x100, 24, 8, .ro, 0⟩
/-- PORT_STATUS [18:16] PEER RO (ch. 23): Peer member. -/
def R.PORT_STATUS.PEER (p : Nat) : Fld := ⟨0, 0x00600000 + 0x40 * p + 0x100, 16, 3, .ro, 0⟩
/-- PORT_STATUS [15:15] PEER_VALID RO (ch. 23): Peer member. -/
def R.PORT_STATUS.PEER_VALID (p : Nat) : Fld := ⟨0, 0x00600000 + 0x40 * p + 0x100, 15, 1, .ro, 0⟩
/-- PORT_STATUS [11:8] LANES RO (ch. 23): Lanes of the width. -/
def R.PORT_STATUS.LANES (p : Nat) : Fld := ⟨0, 0x00600000 + 0x40 * p + 0x100, 8, 4, .ro, 0⟩
/-- PORT_STATUS [6:4] WIDTH RO (ch. 23): 0, 1, 2 or 4. -/
def R.PORT_STATUS.WIDTH (p : Nat) : Fld := ⟨0, 0x00600000 + 0x40 * p + 0x100, 4, 3, .ro, 0⟩
/-- PORT_STATUS [2:0] STATE RO (ch. 23): 0 OFF, 1 TRAINING, 2 TRAINED, 3 UP, 4 RETRAINING, 5 PEER_ASLEEP, 6 SAVED. -/
def R.PORT_STATUS.STATE (p : Nat) : Fld := ⟨0, 0x00600000 + 0x40 * p + 0x100, 0, 3, .ro, 0⟩
def R.PORT_STATUS.all (p : Nat) : List Fld := [R.PORT_STATUS.EPOCH p, R.PORT_STATUS.PEER p, R.PORT_STATUS.PEER_VALID p, R.PORT_STATUS.LANES p, R.PORT_STATUS.WIDTH p, R.PORT_STATUS.STATE p]
/-- PORT_SEQ [27:16] TX_OLDEST RO (ch. 23): R480. -/
def R.PORT_SEQ.TX_OLDEST (p : Nat) : Fld := ⟨0, 0x00600000 + 0x40 * p + 0x104, 16, 12, .ro, 0⟩
/-- PORT_SEQ [11:0] TX_NEXT RO (ch. 23): R480. -/
def R.PORT_SEQ.TX_NEXT (p : Nat) : Fld := ⟨0, 0x00600000 + 0x40 * p + 0x104, 0, 12, .ro, 0⟩
def R.PORT_SEQ.all (p : Nat) : List Fld := [R.PORT_SEQ.TX_OLDEST p, R.PORT_SEQ.TX_NEXT p]
/-- PORT_RX [11:0] EXPECTED RO (ch. 23): R481. -/
def R.PORT_RX.EXPECTED (p : Nat) : Fld := ⟨0, 0x00600000 + 0x40 * p + 0x108, 0, 12, .ro, 0⟩
def R.PORT_RX.all (p : Nat) : List Fld := [R.PORT_RX.EXPECTED p]
/-- PORT_FC_LO [31:0] FC RO (ch. 23): Sending FC. -/
def R.PORT_FC_LO.FC (p : Nat) : Fld := ⟨0, 0x00600000 + 0x40 * p + 0x10C, 0, 32, .ro, 0⟩
def R.PORT_FC_LO.all (p : Nat) : List Fld := [R.PORT_FC_LO.FC p]
/-- PORT_FC_HI [31:0] FC RO (ch. 23): Sending FC. -/
def R.PORT_FC_HI.FC (p : Nat) : Fld := ⟨0, 0x00600000 + 0x40 * p + 0x110, 0, 32, .ro, 0⟩
def R.PORT_FC_HI.all (p : Nat) : List Fld := [R.PORT_FC_HI.FC p]
/-- PORT_CREDIT [31:16] PAYLOAD RO (ch. 23): New frames the sender may send now. -/
def R.PORT_CREDIT.PAYLOAD (p : Nat) : Fld := ⟨0, 0x00600000 + 0x40 * p + 0x114, 16, 16, .ro, 0⟩
/-- PORT_CREDIT [15:0] CONTROL RO (ch. 23): New frames the sender may send now. -/
def R.PORT_CREDIT.CONTROL (p : Nat) : Fld := ⟨0, 0x00600000 + 0x40 * p + 0x114, 0, 16, .ro, 0⟩
def R.PORT_CREDIT.all (p : Nat) : List Fld := [R.PORT_CREDIT.PAYLOAD p, R.PORT_CREDIT.CONTROL p]
/-- PORT_COUNTS [31:24] AUTH_FAILS RC (ch. 23): - -/
def R.PORT_COUNTS.AUTH_FAILS (p : Nat) : Fld := ⟨0, 0x00600000 + 0x40 * p + 0x118, 24, 8, .rc, 0⟩
/-- PORT_COUNTS [23:16] WINDOW_DISCARDS RC (ch. 23): - -/
def R.PORT_COUNTS.WINDOW_DISCARDS (p : Nat) : Fld := ⟨0, 0x00600000 + 0x40 * p + 0x118, 16, 8, .rc, 0⟩
/-- PORT_COUNTS [15:8] NAKS_SENT RC (ch. 23): - -/
def R.PORT_COUNTS.NAKS_SENT (p : Nat) : Fld := ⟨0, 0x00600000 + 0x40 * p + 0x118, 8, 8, .rc, 0⟩
/-- PORT_COUNTS [7:0] RESENDS RC (ch. 23): - -/
def R.PORT_COUNTS.RESENDS (p : Nat) : Fld := ⟨0, 0x00600000 + 0x40 * p + 0x118, 0, 8, .rc, 0⟩
def R.PORT_COUNTS.all (p : Nat) : List Fld := [R.PORT_COUNTS.AUTH_FAILS p, R.PORT_COUNTS.WINDOW_DISCARDS p, R.PORT_COUNTS.NAKS_SENT p, R.PORT_COUNTS.RESENDS p]
/-- PORT_COUNTS_B [31:24] FEC_UNCORRECTABLE RC (ch. 23): - -/
def R.PORT_COUNTS_B.FEC_UNCORRECTABLE (p : Nat) : Fld := ⟨0, 0x00600000 + 0x40 * p + 0x11C, 24, 8, .rc, 0⟩
/-- PORT_COUNTS_B [23:16] STALLS RC (ch. 23): - -/
def R.PORT_COUNTS_B.STALLS (p : Nat) : Fld := ⟨0, 0x00600000 + 0x40 * p + 0x11C, 16, 8, .rc, 0⟩
/-- PORT_COUNTS_B [15:8] NO_ROUTE RC (ch. 23): - -/
def R.PORT_COUNTS_B.NO_ROUTE (p : Nat) : Fld := ⟨0, 0x00600000 + 0x40 * p + 0x11C, 8, 8, .rc, 0⟩
/-- PORT_COUNTS_B [7:0] LINK_LOSSES RC (ch. 23): - -/
def R.PORT_COUNTS_B.LINK_LOSSES (p : Nat) : Fld := ⟨0, 0x00600000 + 0x40 * p + 0x11C, 0, 8, .rc, 0⟩
def R.PORT_COUNTS_B.all (p : Nat) : List Fld := [R.PORT_COUNTS_B.FEC_UNCORRECTABLE p, R.PORT_COUNTS_B.STALLS p, R.PORT_COUNTS_B.NO_ROUTE p, R.PORT_COUNTS_B.LINK_LOSSES p]
/-- STACK_SELF [30:28] QCAUSE RO (ch. 24): 0 none, 1 DIGEST, 2 FIRMWARE, 3 EXPELLED. -/
def R.STACK_SELF.QCAUSE : Fld := ⟨0, 0x00610000, 28, 3, .ro, 0⟩
/-- STACK_SELF [26:24] STATE RO (ch. 24): 0 ALONE, 1 WAITING, 2 GRAFTED, 3 DETACHED, 4 QUARANTINED. -/
def R.STACK_SELF.STATE : Fld := ⟨0, 0x00610000, 24, 3, .ro, 0⟩
/-- STACK_SELF [20:20] SECRET RO (ch. 24): 1: a valid secret is held (R497). -/
def R.STACK_SELF.SECRET : Fld := ⟨0, 0x00610000, 20, 1, .ro, 0⟩
/-- STACK_SELF [19:19] POS_VALID RO (ch. 24): From IDB_3 (R495). -/
def R.STACK_SELF.POS_VALID : Fld := ⟨0, 0x00610000, 19, 1, .ro, 0⟩
/-- STACK_SELF [18:16] POSITION RO (ch. 24): From IDB_3 (R495). -/
def R.STACK_SELF.POSITION : Fld := ⟨0, 0x00610000, 16, 3, .ro, 0⟩
/-- STACK_SELF [11:8] COUNT RO (ch. 24): MEMBER_COUNT; 0 when ALONE. -/
def R.STACK_SELF.COUNT : Fld := ⟨0, 0x00610000, 8, 4, .ro, 0⟩
/-- STACK_SELF [6:4] CROWN RO (ch. 24): Other bits read 0. -/
def R.STACK_SELF.CROWN : Fld := ⟨0, 0x00610000, 4, 3, .ro, 0⟩
/-- STACK_SELF [2:0] MEMBER RO (ch. 24): Other bits read 0. -/
def R.STACK_SELF.MEMBER : Fld := ⟨0, 0x00610000, 0, 3, .ro, 0⟩
def R.STACK_SELF.all : List Fld := [R.STACK_SELF.QCAUSE, R.STACK_SELF.STATE, R.STACK_SELF.SECRET, R.STACK_SELF.POS_VALID, R.STACK_SELF.POSITION, R.STACK_SELF.COUNT, R.STACK_SELF.CROWN, R.STACK_SELF.MEMBER]
/-- STACK_MEMBERS [31:24] EXPELLED RO (ch. 24): The latest ANNOUNCE masks; ROUTED: TRUNK_ROUTE.VALID. -/
def R.STACK_MEMBERS.EXPELLED : Fld := ⟨0, 0x00610004, 24, 8, .ro, 0⟩
/-- STACK_MEMBERS [23:16] QUARANTINED RO (ch. 24): The latest ANNOUNCE masks; ROUTED: TRUNK_ROUTE.VALID. -/
def R.STACK_MEMBERS.QUARANTINED : Fld := ⟨0, 0x00610004, 16, 8, .ro, 0⟩
/-- STACK_MEMBERS [15:8] GRAFTED RO (ch. 24): The latest ANNOUNCE masks; ROUTED: TRUNK_ROUTE.VALID. -/
def R.STACK_MEMBERS.GRAFTED : Fld := ⟨0, 0x00610004, 8, 8, .ro, 0⟩
/-- STACK_MEMBERS [7:0] ROUTED RO (ch. 24): The latest ANNOUNCE masks; ROUTED: TRUNK_ROUTE.VALID. -/
def R.STACK_MEMBERS.ROUTED : Fld := ⟨0, 0x00610004, 0, 8, .ro, 0⟩
def R.STACK_MEMBERS.all : List Fld := [R.STACK_MEMBERS.EXPELLED, R.STACK_MEMBERS.QUARANTINED, R.STACK_MEMBERS.GRAFTED, R.STACK_MEMBERS.ROUTED]
/-- STACK_TIME [31:31] LOCKED RO (ch. 24): R511. -/
def R.STACK_TIME.LOCKED : Fld := ⟨0, 0x00610008, 31, 1, .ro, 0⟩
/-- STACK_TIME [23:16] HOPS RO (ch. 24): Hops to the crown. -/
def R.STACK_TIME.HOPS : Fld := ⟨0, 0x00610008, 16, 8, .ro, 0⟩
/-- STACK_TIME [15:0] ERROR RO (ch. 24): The last θ in ns, signed, saturating at ±32,767. -/
def R.STACK_TIME.ERROR : Fld := ⟨0, 0x00610008, 0, 16, .ro, 0⟩
def R.STACK_TIME.all : List Fld := [R.STACK_TIME.LOCKED, R.STACK_TIME.HOPS, R.STACK_TIME.ERROR]
/-- STACK_TL_LO [31:0] TL RO (ch. 24): A read of LO latches HI. -/
def R.STACK_TL_LO.TL : Fld := ⟨0, 0x0061000C, 0, 32, .ro, 0⟩
def R.STACK_TL_LO.all : List Fld := [R.STACK_TL_LO.TL]
/-- STACK_TL_HI [31:0] TL RO (ch. 24): A read of LO latches HI. -/
def R.STACK_TL_HI.TL : Fld := ⟨0, 0x00610010, 0, 32, .ro, 0⟩
def R.STACK_TL_HI.all : List Fld := [R.STACK_TL_HI.TL]
/-- STACK_CMD [31:31] GO WO (ch. 24): 1: run OP. -/
def R.STACK_CMD.GO : Fld := ⟨0, 0x00610014, 31, 1, .wo, 0⟩
/-- STACK_CMD [9:8] OP WO (ch. 24): 1 EXPEL, 2 ADMIT, 3 LEAVE; 0 has no effect. -/
def R.STACK_CMD.OP : Fld := ⟨0, 0x00610014, 8, 2, .wo, 0⟩
/-- STACK_CMD [2:0] MEMBER WO (ch. 24): R517. -/
def R.STACK_CMD.MEMBER : Fld := ⟨0, 0x00610014, 0, 3, .wo, 0⟩
def R.STACK_CMD.all : List Fld := [R.STACK_CMD.GO, R.STACK_CMD.OP, R.STACK_CMD.MEMBER]
/-- STACK_LEDGER [31:24] FOUND RC (ch. 24): Resolutions under R515 and R516; each saturates at 0xFF and all clear on the same read. -/
def R.STACK_LEDGER.FOUND : Fld := ⟨0, 0x00610018, 24, 8, .rc, 0⟩
/-- STACK_LEDGER [23:16] NOT_RUN RC (ch. 24): Resolutions under R515 and R516; each saturates at 0xFF and all clear on the same read. -/
def R.STACK_LEDGER.NOT_RUN : Fld := ⟨0, 0x00610018, 16, 8, .rc, 0⟩
/-- STACK_LEDGER [15:8] UNRESOLVED RC (ch. 24): Resolutions under R515 and R516; each saturates at 0xFF and all clear on the same read. -/
def R.STACK_LEDGER.UNRESOLVED : Fld := ⟨0, 0x00610018, 8, 8, .rc, 0⟩
def R.STACK_LEDGER.all : List Fld := [R.STACK_LEDGER.FOUND, R.STACK_LEDGER.NOT_RUN, R.STACK_LEDGER.UNRESOLVED]
/-- STACK_ERR [0:0] CMD_REFUSED W1C (ch. 24): R517. -/
def R.STACK_ERR.CMD_REFUSED : Fld := ⟨0, 0x0061001C, 0, 1, .w1c, 0⟩
def R.STACK_ERR.all : List Fld := [R.STACK_ERR.CMD_REFUSED]

/-- DOMAIN_STATE_w, domain d: 0 OFF, 1 RISING, 2 ON, 3 FALLING (Table 07-9). DOMAIN_000 reads ON. -/
def R.DOMAIN_STATE.D (d : Nat) : Fld := ⟨0, 0x00030000 + 4 * (d / 16), 2 * (d % 16), 2, .ro, if d = 0 then 2 else 0⟩
/-- BELL_GPIO_EDGE, EDGE_i (Table 07-11). -/
def R.BELL_GPIO_EDGE.EDGE (i : Nat) : Fld := ⟨0, 0x00030210, 2 * i, 2, .rw, 0⟩
/-- CLOCK_STATUS, GEN_g (Table 06-7). -/
def R.CLOCK_STATUS.GEN (g : Nat) : Fld := ⟨0, 0x00020010, 4 * g, 3, .ro, 0⟩
/-- The sticky bit of fault source c: one bit for the device; each grove's view of it is R57's (Table 10-8). -/
def R.FAULT_STICKY.BIT (c : Nat) : Fld := ⟨0, 0x00040000 + 4 * (c / 32), c % 32, 1, .w1c, 0⟩
/-- The PROMOTED bit of fault source c (Table 10-8). -/
def R.FAULT_PROMOTED.BIT (c : Nat) : Fld := ⟨0, 0x00040040 + 4 * (c / 32), c % 32, 1, .ro, 0⟩
/-- GPIO_OWNER, ASSIGNED of pin k (Table 22-3). -/
def R.GPIO_OWNER.ASSIGNED (k : Nat) : Fld := ⟨0, 0x00290000 + 4 * (k / 8), 4 * (k % 8) + 3, 1, .rw, 0⟩
/-- GPIO_OWNER, SLOT of pin k (Table 22-3). -/
def R.GPIO_OWNER.SLOT (k : Nat) : Fld := ⟨0, 0x00290000 + 4 * (k / 8), 4 * (k % 8), 3, .rw, 0⟩
/-- GPIO_PULL of pin k (Table 22-3). -/
def R.GPIO_PULL.PULL (k : Nat) : Fld := ⟨0, 0x00290028, 2 * k, 2, .rw, 0⟩
/-- GPIO_EDGE of pin k (Table 22-3). -/
def R.GPIO_EDGE.EDGE (k : Nat) : Fld := ⟨0, 0x00290030, 2 * k, 2, .rw, 0⟩
/-- TRUNK_ROUTE, VALID_m (Table 23-10). -/
def R.TRUNK_ROUTE.VALID (m : Nat) : Fld := ⟨0, 0x0060000C, 4 * m + 3, 1, .ro, 0⟩
/-- TRUNK_ROUTE, PORT_m (Table 23-10). -/
def R.TRUNK_ROUTE.PORT (m : Nat) : Fld := ⟨0, 0x0060000C, 4 * m, 2, .ro, 0⟩
/-- KEEPING_PAGE, PAGE: the 32 KiB page that grove 0 sees (R179). -/
def R.KEEPING_PAGE.PAGE : Fld := ⟨0, 0x00078000, 0, 4, .rw, 0⟩
def R.CLOCK_STATUS.all : List Fld := (List.range 6).map R.CLOCK_STATUS.GEN
def R.BELL_GPIO_EDGE.all : List Fld := (List.range 5).map R.BELL_GPIO_EDGE.EDGE
def R.GPIO_OWNER_LO.all : List Fld := (List.range 8).flatMap (fun k => [R.GPIO_OWNER.SLOT k, R.GPIO_OWNER.ASSIGNED k])
def R.GPIO_OWNER_HI.all : List Fld := (List.range 8).flatMap (fun k => [R.GPIO_OWNER.SLOT (8 + k), R.GPIO_OWNER.ASSIGNED (8 + k)])
def R.GPIO_PULL.all : List Fld := (List.range 16).map R.GPIO_PULL.PULL
def R.GPIO_EDGE.all : List Fld := (List.range 16).map R.GPIO_EDGE.EDGE
def R.TRUNK_ROUTE.all : List Fld := (List.range 8).flatMap (fun m => [R.TRUNK_ROUTE.PORT m, R.TRUNK_ROUTE.VALID m])

end Sys2Proof.Machine
end

