-- ==== Sys2Proof/Machine/Ops.lean ====
section
/-! DEFINITION. The named operations over registers, memories, queues and rings that every meaning is built from. -/
namespace Sys2Proof.Machine

/-- The outcome of a command. -/
abbrev Res := Host.Outcome State Fault Refusal

/-- The part is held in reset: by PWRGD or RESET_N low, by TEST_EN high, or for want of the reference (R116, R183, R532). -/
def inReset (s : State) : Bool := !s.pwrgd || !s.resetN || s.testEn || s.refLost
/-- The state after an effect: no command changes the queue of commands or what the part is. -/
def acted (s t : State) : State := { t with pending := s.pending, variant := s.variant }
/-- The state after the effect of a command on logic that a reset holds: in reset it has none (R116, R183). -/
def ran (s t : State) : State := if inReset s then s else acted s t
/-- How a command ends. -/
def completes (s t : State) : Res := .next (ran s t)
/-- How a command ends that reaches DOMAIN_000, the reference or a pin, which RESET_N does not hold. -/
def always (s t : State) : Res := .next (acted s t)
/-- How a command ends that reports the level of an input pin: in reset only the level is taken. -/
def senses (s level t : State) : Res := .next (if inReset s then acted s level else acted s t)

/-- The value a register field holds: the stored one, or its reset value. -/
def State.rd (s : State) (f : Fld) : Nat := Tab.look f.reset s.regs f.key

/-- Set a register field, whatever its access code: what the block itself does. -/
def State.wr (s : State) (f : Fld) (v : Nat) : State :=
  { s with regs := Tab.put f.reset s.regs f.key (v % 2 ^ f.width) }

def State.isSet (s : State) (f : Fld) : Bool := s.rd f != 0
def State.on (s : State) (f : Fld) : State := s.wr f 1
def State.off (s : State) (f : Fld) : State := s.wr f 0
/-- Set a one-bit field to a truth value. -/
def State.wrB (s : State) (f : Fld) (b : Bool) : State := s.wr f (b2n b)
/-- Return a field to its reset value. -/
def State.rst (s : State) (f : Fld) : State := s.wr f f.reset
/-- Add `n` to a counter, which stops at its largest value. -/
def State.bump (s : State) (f : Fld) (n : Nat) : State := s.wr f (min (s.rd f + n) (2 ^ f.width - 1))
/-- Return several fields to their reset values. -/
def State.rstAll (s : State) (fs : List Fld) : State := fs.foldl State.rst s

/-- Something leaves the block. -/
def State.emit (s : State) (o : Out) : State := { s with outs := o :: s.outs }

/-- The next free value (DESIGN CHOICE: drawn from an opaque constant). -/
def State.freeVal (s : State) (k : Nat) : Nat := Config.freeValue (s.freeCtr + k)
/-- `n` free values have been used. -/
def State.drew (s : State) (n : Nat) : State := { s with freeCtr := s.freeCtr + n }

/-- A register's word from its fields, and its fields from a word. -/
def fieldsWord (s : State) (fs : List Fld) : Nat := fs.foldl (fun a f => a + 2 ^ f.lo * s.rd f) 0
def putFields (fs : List Fld) (w : Nat) (s : State) : State := fs.foldl (fun a f => a.wr f (bits w f.lo f.width)) s

/-- Write the words of a list to fields given by index. -/
def wrList (f : Nat → Fld) : Nat → List Nat → State → State
  | _, [], s => s
  | i, v :: vs, s => wrList f (i + 1) vs (s.wr (f i) v)

/-- The little-endian 32-bit words of a byte list. -/
def wordsOf : Nat → List Nat → List Nat
  | 0, _ => []
  | n + 1, bs => leVal (bs.take 4) :: wordsOf n (bs.drop 4)

/-- IDENT_UNITS by variant (Table 00-5). -/
def unitsOf : Variant → Nat
  | .f => 0x3F
  | .t => 0x3B
  | .d => 0x31
  | .h => 0x0C

/-- IDENT_VARIANT by variant (Table 00-5). -/
def variantCode : Variant → Nat
  | .f => 0
  | .t => 1
  | .d => 2
  | .h => 3

/-- Units by their IDENT_UNITS bit (Table 26-4). -/
def hasDrum (s : State) (n : Nat) : Bool := bit (unitsOf s.variant) n && n < 2
def hasTrunk (s : State) : Bool := bit (unitsOf s.variant) 2
def hasSeal (s : State) : Bool := bit (unitsOf s.variant) 3
def hasRbp (s : State) (p : Nat) : Bool := bit (unitsOf s.variant) (4 + p) && p < 2
/-- A Retro Bus Port's strap code is silent: its outputs stay high-impedance (R188). -/
def strapSilent (s : State) (p : Nat) : Bool := Tab.look 0 s.strapRbp p = 3

/-- Word `i` of a word memory. -/
def memW (t : Tab Nat) (i : Nat) : Nat := Tab.look 0 t i
/-- Store a 32-bit word. -/
def putW (t : Tab Nat) (i v : Nat) : Tab Nat := Tab.put 0 t i (v % 2 ^ 32)

/-- Byte `a` of the boot flash; an erased byte reads 0xFF. -/
def flashByte (s : State) (a : Nat) : Nat := Tab.look 0 s.flash a ^^^ 0xFF
def putFlash (t : Tab Nat) (a v : Nat) : Tab Nat := Tab.put 0 t a ((v % 256) ^^^ 0xFF)
/-- Erase `n` bytes from `a`. -/
def eraseFlash (t : Tab Nat) (a n : Nat) : Tab Nat := t.filter (fun e => e.1 < a || a + n ≤ e.1)
def putFlashList : Tab Nat → Nat → List Nat → Tab Nat
  | t, _, [] => t
  | t, a, b :: bs => putFlashList (putFlash t a b) (a + 1) bs
def flashBytes (s : State) (a n : Nat) : List Nat := (List.range n).map (fun i => flashByte s (a + i))

/-- Flash address of Canopy area A or B (Table 08-2). -/
def canopyArea (area : Nat) : Nat := if area = 0 then 0x00810000 else 0x00910000

/-- A byte of a stream source: area A, area B or the stage (R19, R37). -/
def sourceByte (s : State) (src i : Nat) : Nat :=
  if src = 2 then memW s.stage (i / 4) / 2 ^ (8 * (i % 4)) % 256 else flashByte s (canopyArea src + i)
def sourceBytes (s : State) (src n : Nat) : List Nat := (List.range n).map (sourceByte s src)

/-- State of a domain: 0 OFF, 1 RISING, 2 ON, 3 FALLING. -/
def domState (s : State) (d : Nat) : Nat := s.rd (R.DOMAIN_STATE.D d)
def domOn (s : State) (d : Nat) : Bool := domState s d = 2
/-- A spine port moves packets: its segment and the arbiter are powered (R12). -/
def portOn (s : State) (p : Nat) : Bool := domOn s (6 + p / 2) && domOn s 143

/-- What a 64-bit word under the code of R76 delivers: data `d` was stored, and the stored bits `e` differ from its code word. -/
def eccRead (e d : Nat) : EccResult := if e = 0 then .clean d else beatDecode (beatOf d ^^^ e)
/-- The data of an EccResult, or none. -/
def EccResult.data? : EccResult → Option Nat
  | .clean d => some d
  | .corrected d => some d
  | .uncorrectable => none
/-- The 64-bit word `q` of the keeping store, as placed there and as its code delivers it: 0 where uncorrectable (R174). -/
def keepData (s : State) (q : Nat) : Nat := memW s.keeping (2 * q) + 2 ^ 32 * memW s.keeping (2 * q + 1)
def keepRead (s : State) (q : Nat) : EccResult := eccRead (Tab.look 0 s.keepEcc q) (keepData s q)
def keepGives (s : State) (q : Nat) : Nat := (keepRead s q).data?.getD 0
/-- Word `i` of the keeping store. -/
def keepW (s : State) (i : Nat) : Nat :=
  if Tab.look 0 s.keepEcc (i / 2) = 0 then memW s.keeping i else keepGives s (i / 2) / 2 ^ (32 * (i % 2)) % 2 ^ 32
/-- Word q is stored anew as it was delivered. -/
def mendKeep (q : Nat) (s : State) : State :=
  { s with
    keeping := putW (putW s.keeping (2 * q) (keepGives s q)) (2 * q + 1) (keepGives s q / 2 ^ 32)
    keepEcc := Tab.put 0 s.keepEcc q 0 }
/-- Write word `i`; the other half of its 64-bit word is kept as delivered. -/
def putKeep (s : State) (i v : Nat) : State :=
  let t := if Tab.look 0 s.keepEcc (i / 2) = 0 then s else mendKeep (i / 2) s
  { t with keeping := putW t.keeping i v }
def keepByte (s : State) (a : Nat) : Nat := keepW s (a / 4) / 2 ^ (8 * (a % 4)) % 256
def keepBytes (s : State) (a n : Nat) : List Nat := (List.range n).map (fun i => keepByte s (a + i))
/-- Write one byte of the keeping store. -/
def putKeepByte (s : State) (a v : Nat) : State :=
  let w := keepW s (a / 4)
  let sh := 2 ^ (8 * (a % 4))
  putKeep s (a / 4) (w - w / sh % 256 * sh + v % 256 * sh)
def putKeepList : State → Nat → List Nat → State
  | s, _, [] => s
  | s, a, b :: bs => putKeepList (putKeepByte s a b) (a + 1) bs

/-- Recovery counter cells (R176): cell k of counter c is a halfword. -/
def recCell (s : State) (c k : Nat) : Nat := keepW s (0xC00 + 8 * c + k / 2) / 2 ^ (16 * (k % 2)) % 2 ^ 16
def recCells (s : State) (c : Nat) : List Nat := (List.range 16).map (recCell s c)
def recValue (s : State) (c : Nat) : Nat := (recCells s c).foldl max 0
/-- Increment recovery counter c (R176): the cell after the lowest one with the largest value takes that value plus one. -/
def recIncrement (s : State) (c : Nat) : State :=
  let v := recValue s c
  if v ≥ 0xFFFF then s
  else
    let k := (((recCells s c).findIdx? (· == v)).getD 0 + 1) % 16
    let s1 := putKeepByte s (0x3000 + 32 * c + 2 * k) ((v + 1) % 256)
    putKeepByte s1 (0x3000 + 32 * c + 2 * k + 1) ((v + 1) / 256)

/-- The pruned list: words 1,024 to 3,071 of the keeping store (Table 08-10, R208). -/
def prunedBase : Nat := 1024
def prunedLen : Nat := 2048
/-- The valid words of the pruned list that their code delivers (R174, R208). -/
def prunedWords (s : State) : Tab Nat :=
  s.keeping.filter (fun e => prunedBase ≤ e.1 && e.1 < prunedBase + prunedLen && bit e.2 31 && keepRead s (e.1 / 2) != .uncorrectable)
/-- A channel code named by a valid word of the pruned list, or by an entry still to be written (R208, R207). -/
def isPruned (s : State) (code : Nat) : Bool :=
  (prunedWords s).any (fun e => e.2 % 2 ^ 16 = code)
    || s.deferred.any (fun d => match d with | .prune _ c => c = code | .recovery _ => false)
/-- The source recorded for a pruned channel: that of the first list word that carries its code. -/
def pruneSource (s : State) (code : Nat) : Nat :=
  match (prunedWords s).find? (fun e => e.2 % 2 ^ 16 = code) with
  | some e => bits e.2 16 9
  | none => (s.deferred.findSome? (fun d => match d with | .prune src c => if c = code then some src else none | .recovery _ => none)).getD 0
/-- Compaction (R208): the valid words packed from word 0 in their order, zeroes above. -/
def compactPruned (s : State) : State :=
  let kept := s.keeping.filter (fun e => e.1 < prunedBase || prunedBase + prunedLen ≤ e.1)
  { s with
    keeping := ((prunedWords s).zipIdx).foldl (fun t e => putW t (prunedBase + e.2) e.1.2) kept
    keepEcc := s.keepEcc.filter (fun e => e.1 < prunedBase / 2 || (prunedBase + prunedLen) / 2 ≤ e.1) }
def freePrunedWord (s : State) : Option Nat :=
  (List.range prunedLen).find? (fun i => keepW s (prunedBase + i) = 0)
/-- Append an entry at the lowest word that reads 0, compacting first when there is none (R208). -/
def appendPruned (s : State) (source code : Nat) : State :=
  let w := 2 ^ 31 + 2 ^ 16 * (source % 512) + code % 2 ^ 16
  match freePrunedWord s with
  | some i => putKeep s (prunedBase + i) w
  | none =>
    let s1 := compactPruned s
    match freePrunedWord s1 with
    | some i => putKeep s1 (prunedBase + i) w
    | none => s1
/-- Clear VALID in every list word that carries the code (R209). -/
def clearPruned (s : State) (code : Nat) : State :=
  { s with
    keeping := s.keeping.map (fun e =>
      if (prunedWords s).contains e && e.2 % 2 ^ 16 = code then (e.1, e.2 - 2 ^ 31) else e)
      |>.filterMap (fun e => if e.2 = 0 then none else some e)
    deferred := s.deferred.filter (fun d => match d with | .prune _ c => c ≠ code | .recovery _ => true) }

/-- STATUS of a tally by the first rule that applies (R212), INDETERMINATE aside. -/
def tallyStatus (refused cancelled : Bool) (done requested : Nat) : Nat :=
  if refused then 4 else if cancelled then 5 else if done = requested then 0 else if done = 0 then 2 else 1

/-- The tally's eight little-endian words (Table 10-9). -/
def Tally.words (t : Tally) : List Nat :=
  [t.workId, t.status + 2 ^ 8 * t.kind + 2 ^ 16 * t.grove + 2 ^ 24 * t.flags, t.requested, t.done, t.firstFailed,
   t.source + 2 ^ 16 * t.retries + 2 ^ 24 * t.depth, t.doneMap % 2 ^ 32, t.doneMap / 2 ^ 32]

/-- A producer at a spine port has a tally for a slot: it is sent, or waits for the one before it (R66). -/
def postTally (s : State) (port slot : Nat) (t : Tally) : State :=
  let q := Tab.look TallyQ.reset s.tallyQ (8 * port + slot)
  let q' := match q.sent with
    | none => { q with sent := some t, num := (q.num + 1) % 256, resends := 0 }
    | some _ => { q with waiting := q.waiting ++ [t] }
  { s with tallyQ := Tab.put TallyQ.reset s.tallyQ (8 * port + slot) q' }

/-- The producer releases the tally it sent, and sends the next one of the slot (R66). -/
def releaseTally (s : State) (port slot : Nat) : State :=
  let q := Tab.look TallyQ.reset s.tallyQ (8 * port + slot)
  let q' : TallyQ := match q.waiting with
    | [] => { q with sent := none, resends := 0 }
    | t :: r => ⟨some t, r, (q.num + 1) % 256, 0⟩
  { s with tallyQ := Tab.put TallyQ.reset s.tallyQ (8 * port + slot) q' }

/-- The 32 bytes of RING_k. -/
def ringBytes (s : State) (k : Nat) : List Nat :=
  (List.range 8).flatMap (fun i => leBytes 4 (s.rd (R.RING.BYTES k i)))

/-- The 48-bit metronome count (R111). -/
def metroTick (s : State) : State := { s with metro := (s.metro + 1) % 2 ^ 48 }

/-- The timeline advances by one tick, 1,953,125 / 64 ns at its rate (R509, R511). -/
def timelineTick (s : State) : State :=
  { s with stack := { s.stack with tl := ((s.stack.tl : Int) + 1953125 + 1953125 * s.stack.rate / 1000000000).toNat % 2 ^ 70 } }

/-- Grove activity restarts the idle timer (R138). -/
def activity (s : State) : State := { s with idleCount := 0, idleDone := false }
/-- In IDLE mode the idle timer counts ticks up to DORMANT_IDLE_TICKS, from DRUMS_DONE on (R138, R194). -/
def idleTimerTick (s : State) : State :=
  if s.rd R.DORMANT_STATUS.MODE = 1 && s.rd R.DORMANT_STATUS.STATE = 0 && s.isSet R.START_STATUS.DRUMS_DONE && !s.idleDone then
    { s with idleCount := s.idleCount + 1, idleDone := s.rd R.DORMANT_IDLE_TICKS.TICKS ≤ s.idleCount + 1 }
  else s

/-- What step does with nothing waiting: the metronome, the timeline and the idle timer advance; without power good nothing
does, and in reset the metronome alone (R111, R183). -/
def idleTick (s : State) : State :=
  if !s.pwrgd then s else if inReset s then metroTick s else idleTimerTick (timelineTick (metroTick s))

end Sys2Proof.Machine
end

