-- ==== Sys2Proof/Machine/Operands.lean ====
section
/-! DEFINITION. Operand forms: the records of the loaded stream, which grove holds which slot, and who owns what
(chapters 02 and 03). -/
namespace Sys2Proof.Machine

def Rec.u8 (r : Rec) (k : Nat) : Nat := r.body.getD k 0
def Rec.u16 (r : Rec) (k : Nat) : Nat := r.u8 k + 256 * r.u8 (k + 1)
def Rec.u32 (r : Rec) (k : Nat) : Nat := r.u16 k + 65536 * r.u16 (k + 2)

/-- This Olulo's member number in the loaded stream. -/
def ownMember (s : State) : Nat := s.rd R.CANOPY_MEMBER.NUMBER
def configured (s : State) : Bool := s.rd R.CANOPY_STATUS.STATE = 1
def sealedNow (s : State) : Bool := s.isSet R.CANOPY_STATUS.SEALED

/-- The loaded records of a type that this member applies: its own, and those of the sections for all. -/
def recsOf (s : State) (ty : Nat) : List Rec :=
  match s.stream with
  | none => []
  | some st => st.recs.filter (fun r => r.ty = ty && (r.member = 0xFF || r.member = ownMember s))

def groveRec (s : State) (g : Nat) : Option Rec := (recsOf s 0x01).find? (fun r => r.u8 0 = g)
def stackRec (s : State) : Option Rec := (recsOf s 0x02).head?
def tileRec (s : State) (t : Nat) : Option Rec := (recsOf s 0x03).find? (fun r => r.u8 0 = t)
def pdProf (s : State) (i : Nat) : Option Rec := (recsOf s 0x04).find? (fun r => r.u8 0 = i)
def rbpRec (s : State) (p : Nat) : Option Rec := (recsOf s 0x05).find? (fun r => r.u8 0 = p)
def uartRec (s : State) (u : Nat) : Option Rec := (recsOf s 0x06).find? (fun r => r.u8 0 = u)
def regionRec (s : State) (r : Nat) : Option Rec := (recsOf s 0x07).find? (fun x => x.u8 0 = r)
def drumRec (s : State) (n : Nat) : Option Rec := (recsOf s 0x08).find? (fun r => r.u8 0 = n)
def audioRec (s : State) (o : Nat) : Option Rec := (recsOf s 0x0C).find? (fun r => r.u8 0 = o)
def faultRec (s : State) (c : Nat) : Option Rec := (recsOf s 0x0E).find? (fun r => r.u16 0 = c)
def powerRec (s : State) : Option Rec := (recsOf s 0x0F).head?
def trunkRec (s : State) : Option Rec := (recsOf s 0x10).head?
/-- The member's BLOB body (R25). -/
def blobBytes (s : State) : List Nat := (recsOf s 0x11).flatMap (fun r => r.body.take 4)

/-- The groves a DRUM record lists. -/
def listed (r : Rec) : List Nat := (r.body.drop 4).take (min 4 (r.u8 1))
/-- The groves a record makes a member touch (R29). -/
def touches (m : Nat) (r : Rec) : List Nat :=
  if r.ty = 1 then (if r.u8 1 = m then [r.u8 0] else [])
  else if r.member != m then []
  else match r.ty with
    | 0x03 => if r.u8 1 = 0 then [] else [r.u8 2]
    | 0x05 => [r.u8 1]
    | 0x06 => [r.u8 1]
    | 0x07 => [r.u8 1]
    | 0x08 => listed r
    | 0x0C => [r.u8 1]
    | _ => []

/-- Groves touched so far and the offsets at which a ninth would come in. -/
def touchFold (m : Nat) : List Rec → List Nat → List Nat × Option Nat
  | [], seen => (seen, none)
  | r :: rs, seen =>
    let seen' := (touches m r).foldl (fun a g => if a.contains g then a else a ++ [g]) seen
    if seen'.length > 8 then (seen', some r.off) else touchFold m rs seen'

def touchedBy (st : Stream) (m : Nat) : List Nat := (touchFold m st.recs [0]).1

/-- The grove number in a local slot; none where the slot is unused (CANOPY_SLOTS). -/
def groveOf (s : State) (slot : Nat) : Option Nat :=
  let b := if slot < 4 then bits (s.rd R.CANOPY_SLOTS_LO.SLOTS) (8 * slot) 8 else bits (s.rd R.CANOPY_SLOTS_HI.SLOTS) (8 * (slot - 4)) 8
  if 8 ≤ slot || b = 0xFF then none else some b
def slotOf (s : State) (g : Nat) : Option Nat := (List.range 8).find? (fun k => groveOf s k = some g)
def occupied (s : State) (slot : Nat) : Bool := (groveOf s slot).isSome
def occupiedSlots (s : State) : List Nat := (List.range 8).filter (occupied s)

/-- ROLE of a tile: 0 OFF, 1 UP, 2 DOWN; unlisted tiles are OFF. -/
def tileRole (s : State) (t : Nat) : Nat := ((tileRec s t).map (·.u8 1)).getD 0
/-- The grove that owns a tile that is not OFF. -/
def tileOwner (s : State) (t : Nat) : Option Nat :=
  match tileRec s t with
  | some r => if r.u8 1 = 0 then none else some (r.u8 2)
  | none => none
def ownsTile (s : State) (slot t : Nat) : Bool := (tileOwner s t).isSome && tileOwner s t = groveOf s slot
def rbpGrove (s : State) (p : Nat) : Option Nat := (rbpRec s p).map (·.u8 1)
def ownsRbp (s : State) (slot p : Nat) : Bool := (rbpGrove s p).isSome && rbpGrove s p = groveOf s slot
def uartGrove (s : State) (u : Nat) : Option Nat := (uartRec s u).map (·.u8 1)
def ownsUart (s : State) (slot u : Nat) : Bool := (uartGrove s u).isSome && uartGrove s u = groveOf s slot
def regionGrove (s : State) (r : Nat) : Option Nat := (regionRec s r).map (·.u8 1)
def ownsRegion (s : State) (slot r : Nat) : Bool := (regionGrove s r).isSome && regionGrove s r = groveOf s slot
def audioGrove (s : State) (o : Nat) : Option Nat := (audioRec s o).map (·.u8 1)
def ownsAudio (s : State) (slot o : Nat) : Bool := (audioGrove s o).isSome && audioGrove s o = groveOf s slot

/-- COUNT of a DRUM record, 0 for an unlisted drum. -/
def drumCount (s : State) (n : Nat) : Nat := ((drumRec s n).map (·.u8 1)).getD 0
/-- The groves a DRUM record lists, in list order. -/
def drumGroves (s : State) (n : Nat) : List Nat :=
  match drumRec s n with
  | some r => (r.body.drop 4).take (min 4 (r.u8 1))
  | none => []
def listedOnDrum (s : State) (slot n : Nat) : Bool :=
  match groveOf s slot with
  | some g => (drumGroves s n).contains g
  | none => false
def ownsDrumAlone (s : State) (slot n : Nat) : Bool := listedOnDrum s slot n && drumCount s n = 1
/-- The grove with tray rights (R50). -/
def trayGrove (s : State) (n : Nat) : Option Nat :=
  match drumRec s n with
  | some r => some (r.u8 (4 + r.u8 2))
  | none => none
def trayRights (s : State) (slot n : Nat) : Bool := (trayGrove s n).isSome && trayGrove s n = groveOf s slot
/-- The slots listed on a drum. -/
def drumSlots (s : State) (n : Nat) : List Nat := (List.range 8).filter (fun k => listedOnDrum s k n)

/-- GROVE record flags: WAKE_PERMIT and RAW_PIPES. -/
def groveFlag (s : State) (slot k : Nat) : Bool :=
  match (groveOf s slot).bind (groveRec s) with
  | some r => bit (r.u8 7) k
  | none => false
def wakePermit (s : State) (slot : Nat) : Bool := groveFlag s slot 0
def rawPipes (s : State) (slot : Nat) : Bool := groveFlag s slot 1
def tallyDepth (s : State) (slot : Nat) : Nat :=
  match (groveOf s slot).bind (groveRec s) with
  | some r => r.u8 5
  | none => 0
def strokeDepth (s : State) (slot : Nat) : Nat :=
  match (groveOf s slot).bind (groveRec s) with
  | some r => r.u8 6
  | none => 0
def spineWeight (s : State) (slot : Nat) : Nat :=
  match (groveOf s slot).bind (groveRec s) with
  | some r => r.u8 4
  | none => 0
def spineTotal (s : State) : Nat := ((List.range 8).map (spineWeight s)).foldl (· + ·) 0

/-- ROOT_KIND and ROOT_INDEX of the grove in a slot, and whether it is rooted on this member. -/
def rootKind (s : State) (slot : Nat) : Nat := s.rd (R.GROVE_SELF.ROOT_KIND slot)
def rootIndex (s : State) (slot : Nat) : Nat := s.rd (R.GROVE_SELF.ROOT_INDEX slot)
def rootedHere (s : State) (slot : Nat) : Bool := occupied s slot && !s.isSet (R.GROVE_SELF.REMOTE slot)
/-- The UART that is the console of the grove in a slot; UART_0 of the implicit grove 0 (R34). -/
def consoleOf (s : State) (slot : Nat) : Option Nat :=
  if !configured s then (if slot = 0 then some 0 else none)
  else if rootedHere s slot && rootKind s slot = 2 then some (rootIndex s slot) else none
def upTileOf (s : State) (slot : Nat) : Option Nat :=
  if !configured s then (if slot = 0 then some 0 else none)
  else if rootedHere s slot && rootKind s slot = 0 then some (rootIndex s slot) else none
def rbpOf (s : State) (slot : Nat) : Option Nat :=
  if rootedHere s slot && rootKind s slot = 1 && configured s then some (rootIndex s slot) else none
/-- The slot whose grove roots on RBP_p, UP tile t or console UART u. -/
def slotOfRbp (s : State) (p : Nat) : Option Nat := (List.range 8).find? (fun k => rbpOf s k = some p)
def slotOfUpTile (s : State) (t : Nat) : Option Nat := (List.range 8).find? (fun k => upTileOf s k = some t)
def slotOfConsole (s : State) (u : Nat) : Option Nat := (List.range 8).find? (fun k => consoleOf s k = some u)

/-- A region's byte range in SDRAM: first byte and length. -/
def regionSpan (s : State) (r : Nat) : Nat × Nat :=
  match regionRec s r with
  | some x => (4096 * x.u32 4, 4096 * x.u32 8)
  | none => (0, 0)
/-- Capacity of the trained SDRAM in bytes (R74). -/
def sdramCapacity (s : State) : Nat := s.rd R.MEMCTL_STATUS.CAPACITY * 2 ^ 30
/-- The region of the slot's grove that holds a whole byte range below the capacity (R45, R73). -/
def regionFor (s : State) (slot addr len : Nat) : Option Nat :=
  (List.range 32).find? (fun r =>
    ownsRegion s slot r && (regionSpan s r).1 ≤ addr && addr + len ≤ (regionSpan s r).1 + (regionSpan s r).2
      && addr + len ≤ sdramCapacity s)
/-- The byte at an offset of a region, as an SDRAM address; the region is the slot's and holds `len` bytes there (R45). -/
def regionAddr (s : State) (slot r off len : Nat) : Option Nat :=
  if ownsRegion s slot r && off + len ≤ (regionSpan s r).2 && (regionSpan s r).1 + off + len ≤ sdramCapacity s then
    some ((regionSpan s r).1 + off) else none
/-- Whether MEMCTL admits an access (R45, R62). -/
def memAdmitted (s : State) (slot addr len : Nat) : Bool := (regionFor s slot addr len).isSome

/-- Rail r: 0 VDD_CORE, 1 VDD_DRUM_0, 2 VDD_DRUM_1. -/
def railOf (s : State) (r : Nat) : Rail := if r = 0 then s.rail0 else if r = 1 then s.rail1 else s.rail2
def seqOf (s : State) (r : Nat) : Nat := s.rd (R.TEMPO_STATE.SEQ r)
/-- The domains of a rail are stopped: in HELD, and while a wake has not made the rail ready (R125, R127). -/
def railHeld (s : State) (r : Nat) : Bool := seqOf s r = 5 || (railOf s r).held = 4

end Sys2Proof.Machine
end

