-- ==== Sys2Proof/Machine/Galois.lean ====
section
/-! DEFINITION. Reed–Solomon codes over GF(2^8) and GF(2^10), with errors-and-erasures decoding (R414, R476), and the error
detection codes and the CD-ROM descrambling of the standards that R405 names (PRESUMED: IEC 60908, ISO/IEC 10149, ECMA-267). -/
namespace Sys2Proof.Machine

/-- A field GF(2^bits) with α = 2, by its modulus without the leading term. -/
structure Galois where
  bits : Nat
  poly : Nat
deriving DecidableEq, Repr
/-- GF(2^8), x^8 + x^4 + x^3 + x^2 + 1, of the discs' codes. -/
def gf256 : Galois := ⟨8, 0x1D⟩
/-- GF(2^10), x^10 + x^3 + 1, of the trunk's RS(544,514) (R476; PRESUMED: IEEE 802.3). -/
def gf1024 : Galois := ⟨10, 0x09⟩

/-- x·a. -/
def gfX (F : Galois) (a : Nat) : Nat := if a ≥ 2 ^ (F.bits - 1) then (2 * a) % 2 ^ F.bits ^^^ F.poly else 2 * a
def gfMulGo (F : Galois) : Nat → Nat → Nat → Nat → Nat
  | 0, _, _, acc => acc
  | k + 1, a, b, acc => gfMulGo F k (gfX F a) (b / 2) (if b % 2 = 1 then acc ^^^ a else acc)
/-- The product of two elements. -/
def gfMul (F : Galois) (a b : Nat) : Nat := gfMulGo F F.bits a b 0
/-- α^0 to α^(n − 1), after an element. -/
def gfPowers (F : Galois) : Nat → Nat → List Nat
  | 0, _ => []
  | n + 1, a => a :: gfPowers F n (gfX F a)
/-- The inverse, a^(2^bits − 2); 0 of 0. -/
def gfInv (F : Galois) (a : Nat) : Nat :=
  ((List.range (F.bits - 1)).foldl (fun (p : Nat × Nat) _ => (gfMul F p.1 (gfMul F p.2 p.2), gfMul F p.2 p.2)) (1, a)).1

/-- Sums and products of polynomials, coefficients from x^0. -/
def polyAdd : List Nat → List Nat → List Nat
  | [], q => q
  | p, [] => p
  | a :: p, b :: q => (a ^^^ b) :: polyAdd p q
def polyScale (F : Galois) (c : Nat) (p : List Nat) : List Nat := p.map (gfMul F c)
def polyMul (F : Galois) : List Nat → List Nat → List Nat
  | [], _ => []
  | a :: p, q => polyAdd (polyScale F a q) (0 :: polyMul F p q)
def polyEval (F : Galois) (p : List Nat) (x : Nat) : Nat := p.foldr (fun c acc => c ^^^ gfMul F x acc) 0
/-- The formal derivative: the odd coefficients. -/
def polyDeriv (p : List Nat) : List Nat := (p.drop 1).zipIdx.map (fun e => if e.2 % 2 = 0 then e.1 else 0)
/-- The generator of a code with t2 parity symbols: the product of x − α^j for j below t2. -/
def rsGenerator (F : Galois) (t2 : Nat) : List Nat := (gfPowers F t2 1).foldl (fun p r => polyMul F p [r, 1]) [1]
/-- The parity symbols of data symbols, highest power first: the remainder of data·x^t2 by the generator. -/
def rsParity (F : Galois) (t2 : Nat) (data : List Nat) : List Nat :=
  let g := ((rsGenerator F t2).take t2).reverse
  data.foldl (fun r d => let f := d ^^^ r.headD 0; List.zipWith (fun a b => a ^^^ gfMul F f b) (r.drop 1 ++ [0]) g) (List.replicate t2 0)

/-- The syndromes of a word at the roots α^0 to α^(t2 − 1), its first symbol the highest coefficient. -/
def syndromes (F : Galois) (t2 : Nat) (w : List Nat) : List Nat :=
  (gfPowers F t2 1).map (fun r => w.foldl (fun acc v => gfMul F acc r ^^^ v) 0)
/-- Berlekamp and Massey: the least recurrence of a sequence. `c` and `b` are its present and former connection polynomials,
`len` its length, `gap` and `last` the shift and discrepancy since the former. -/
structure Recur where
  c : List Nat
  b : List Nat
  len : Nat
  gap : Nat
  last : Nat
deriving DecidableEq, Repr
def recurStep (F : Galois) (ts : List Nat) (x : Recur) (r : Nat) : Recur :=
  let d := (List.range (x.len + 1)).foldl (fun a i => a ^^^ gfMul F (x.c.getD i 0) (ts.getD (r - i) 0)) 0
  if d = 0 then { x with gap := x.gap + 1 }
  else
    let c := polyAdd x.c (List.replicate x.gap 0 ++ polyScale F (gfMul F d (gfInv F x.last)) x.b)
    if 2 * x.len ≤ r then ⟨c, x.c, r + 1 - x.len, 1, d⟩ else { x with c := c, gap := x.gap + 1 }
def errorLocator (F : Galois) (ts : List Nat) : List Nat :=
  ((List.range ts.length).foldl (recurStep F ts) ⟨[1], [1], 0, 1, 1⟩).c

/-- The codeword within reach of a word with 2t parity symbols and erasures at the given places: 2e + f ≤ 2t; none where
there is none (R414, R476). The last test makes the answer a codeword. -/
def rsDecode (F : Galois) (t2 : Nat) (w : List Nat) (erased : List Nat) : Option (List Nat) :=
  let s := syndromes F t2 w
  if s.all (· = 0) then some w
  else
    let powers := gfPowers F w.length 1
    let loc (i : Nat) := powers.getD (w.length - 1 - i) 0
    let gamma := erased.foldl (fun p i => polyMul F p [1, loc i]) [1]
    let sigma := errorLocator F (((polyMul F s gamma).take t2).drop erased.length)
    let errors := (List.range w.length).filter (fun i => polyEval F sigma (gfInv F (loc i)) = 0 && !erased.contains i)
    let psi := polyMul F sigma gamma
    let omega := (polyMul F s psi).take t2
    let out := (errors ++ erased).foldl (fun v i =>
      let x := gfInv F (loc i)
      v.set i (v.getD i 0 ^^^ gfMul F (loc i) (gfMul F (polyEval F omega x) (gfInv F (polyEval F (polyDeriv psi) x))))) w
    if 2 * errors.length + erased.length ≤ t2 && (syndromes F t2 out).all (· = 0) then some out else none

/-- One bit of a CRC register that shifts right, and of one that shifts left through bit 31. -/
def crcRight (poly : Nat) : Nat → Nat → Nat
  | 0, c => c
  | k + 1, c => crcRight poly k (if c % 2 = 1 then (c / 2) ^^^ poly else c / 2)
def crcLeft (poly : Nat) : Nat → Nat → Nat
  | 0, c => c
  | k + 1, c => crcLeft poly k (if c ≥ 2 ^ 31 then ((2 * c) % 2 ^ 32) ^^^ poly else 2 * c)
/-- The EDC of a CD-ROM sector: (x^16 + x^15 + x^2 + 1)(x^16 + x^2 + x + 1), least significant bits first (ISO/IEC 10149). -/
def edcCd (bs : List Nat) : Nat := bs.foldl (fun c b => crcRight 0xD8018001 8 (c ^^^ b % 256)) 0
/-- The EDC of a DVD sector: x^32 + x^31 + x^4 + 1, most significant bits first (ECMA-267). -/
def edcDvd (bs : List Nat) : Nat := bs.foldl (fun c b => crcLeft 0x80000011 8 (c ^^^ b % 256 * 2 ^ 24)) 0

/-- The scrambling register of ISO/IEC 10149, x^15 + x + 1, over one byte. -/
def scrambleShift : Nat → Nat → Nat
  | 0, r => r
  | k + 1, r => scrambleShift k (r / 2 + (r + r / 2) % 2 * 2 ^ 14)
def unscramble : Nat → List Nat → List Nat
  | _, [] => []
  | r, b :: bs => (b ^^^ r % 256) :: unscramble (scrambleShift 8 r) bs
/-- A CD-ROM sector descrambled: all but its 12 sync bytes. -/
def cdDescramble (bs : List Nat) : List Nat := bs.take 12 ++ unscramble 1 (bs.drop 12)

end Sys2Proof.Machine
end

