-- ==== Sys2Proof/Machine/Packet.lean ====
section
/-! DEFINITION. Spine packets: flits, header, forms and CRC (R61 to R64). A flit is a 72-bit number; LAST marks the last
one of a list. -/
namespace Sys2Proof.Machine

def flitData (f : Nat) : Nat := f % 2 ^ 64
def flitTail (f : Nat) : Nat := bits f 64 3
def flitKind (f : Nat) : Nat := bits f 67 2
def flitSlot (f : Nat) : Nat := bits f 69 3
/-- A flit (Table 04-1). -/
def mkFlit (slot kind tail data : Nat) : Nat := data % 2 ^ 64 + 2 ^ 64 * tail + 2 ^ 67 * kind + 2 ^ 69 * slot

/-- Header fields (Table 04-3). -/
structure Header where
  addr : Nat
  byteEn : Nat
  status : Nat
  id : Nat
  source : Nat
  op : Nat
deriving DecidableEq, Repr
def headerOf (d : Nat) : Header := ⟨bits d 28 36, bits d 24 4, bits d 16 8, bits d 8 8, bits d 4 4, d % 16⟩
def Header.word (h : Header) : Nat :=
  h.op + 2 ^ 4 * h.source + 2 ^ 8 * h.id + 2 ^ 16 * h.status + 2 ^ 24 * h.byteEn + 2 ^ 28 * h.addr

/-- Flits of the form of an OP, least and most; none for a reserved OP (Table 04-2). -/
def formLength (op : Nat) : Option (Nat × Nat) :=
  match op with
  | 1 => some (2, 2)
  | 2 => some (3, 3)
  | 3 => some (3, 3)
  | 4 => some (2, 2)
  | 5 => some (3, 3)
  | 6 => some (3, 3)
  | 7 => some (2, 2)
  | 8 => some (3, 34)
  | 9 => some (3, 3)
  | 10 => some (2, 2)
  | 11 => some (6, 6)
  | _ => none

/-- One SLOT and one KIND, neither reserved, and full flits before the last (R62). -/
def flitsUniform (fs : List Nat) : Bool :=
  match fs with
  | [] => false
  | f :: r =>
    flitKind f != 3 && r.all (fun g => flitSlot g = flitSlot f && flitKind g = flitKind f)
      && fs.dropLast.all (fun g => flitTail g = 7)

/-- The kind of an OP's form: tally for TALLY, control for the others (Table 04-2). -/
def formKind (op : Nat) : Nat := if op = 11 then 2 else 1
/-- A control or tally packet breaks a rule of R62 or R63. -/
def packetMalformed (fs : List Nat) : Bool :=
  let h := headerOf (flitData (fs.headD 0))
  !flitsUniform fs || flitKind (fs.headD 0) != formKind h.op
    || (match formLength h.op with | some (lo, hi) => fs.length < lo || hi < fs.length | none => true)
    || ((h.op = 3 || h.op = 4 || h.op = 7) && 3 < h.status)

/-- The CRC flit of the flits before it (R64). -/
def crcOf (fs : List Nat) : Nat := crc32 (fs.flatMap (leBytes 9))
def crcFlit (slot kind : Nat) (fs : List Nat) : Nat := mkFlit slot kind 3 (crcOf fs)
/-- The last flit does not carry the CRC of the others (R64). DESIGN CHOICE: a last flit whose [63:32] is not 0 or whose TAIL
is not 0b011 counts as a mismatch of the CRC, whatever its [31:0]; the spec names neither case (log 174). -/
def packetBadCrc (fs : List Nat) : Bool :=
  let l := fs.getLast?.getD 0
  flitData l != crcOf fs.dropLast || flitTail l != 3

/-- A packet with its CRC, of the kind of its OP. -/
def mkPacket (slot : Nat) (h : Header) (data : List Nat) : List Nat :=
  let kind := formKind h.op
  let fs := mkFlit slot kind 7 h.word :: data.map (mkFlit slot kind 7)
  fs ++ [crcFlit slot kind fs]

/-- The payload packet of LENGTH bytes breaks its form (R62, R63). -/
def payloadMalformed (slot len : Nat) (fs : List Nat) : Bool :=
  !flitsUniform fs || fs.length != (len + 7) / 8 || flitSlot (fs.headD 0) != slot || flitKind (fs.headD 0) != 0
    || flitTail (fs.getLast?.getD 0) != (len - 1) % 8
def payloadBytes (len : Nat) (fs : List Nat) : List Nat := (fs.flatMap (fun f => leBytes 8 (flitData f))).take len
/-- The payload packet of a byte list. -/
def mkPayload (slot : Nat) (bs : List Nat) : List Nat :=
  (List.range ((bs.length + 7) / 8)).map (fun i =>
    mkFlit slot 0 (if 8 * i + 8 < bs.length then 7 else (bs.length - 1) % 8) (leVal ((bs.drop (8 * i)).take 8)))

/-- The length flit holds LENGTH - 1 in [10:0]. DESIGN CHOICE: its bits [63:11], and [63:62] of a memory header, which R63 has at
0, are ignored on arrival, since R62 lists no packet for them (log 206). -/
def lengthOf (f : Nat) : Nat := flitData f % 2048 + 1

/-- The data bits of a trunk codeword (R476): the constant, CW_COUNT, and the two slots of 320 bytes. -/
def codewordData (count slot0 slot1 : Nat) : Nat :=
  0xC5 + 2 ^ 8 * (count % 4096) + 2 ^ 20 * (slot0 % 2 ^ 2560) + 2 ^ 2580 * (slot1 % 2 ^ 2560)
def codewordCount (data : Nat) : Nat := bits data 8 12
def codewordSlot (data k : Nat) : Nat := bits data (20 + 2560 * k) 2560
/-- The 544 symbols of a codeword in the order sent, data first and parity last (R476). -/
def codewordSymbols (data : Nat) : List Nat :=
  let ds := (List.range 514).map (fun j => bits data (10 * j) 10)
  ds ++ rsParity gf1024 30 ds
/-- The codeword that 544 received symbols decode to, of up to 15 symbol errors; none where it is uncorrectable (R476). -/
def codewordDecode (received : List Nat) : Option (List Nat) :=
  if received.length = 544 then rsDecode gf1024 30 received [] else none
/-- The 5,140 data bits of a codeword's symbols. -/
def codewordBits (symbols : List Nat) : Nat := (symbols.take 514).foldr (fun v acc => v + 1024 * acc) 0
/-- The symbols corrected on the k-th of w lanes: symbol i goes on lane i mod w. -/
def correctedOn (w k : Nat) (received symbols : List Nat) : Nat :=
  ((List.range 544).filter (fun i => i % w = k && received.getD i 0 != symbols.getD i 0)).length

end Sys2Proof.Machine
end

