-- ==== Sys2Proof/Machine/TrunkOps.lean ====
section
/-! DEFINITION. What the trunk's ports share with the units that send over them: lanes and widths, routes, frames and
their queues, requests with their tallies (chapters 23 and 24), without any fault occurrence. -/
namespace Sys2Proof.Machine

def trunkPort (s : State) (p : Nat) : TrunkPort := Tab.look TrunkPort.reset s.trunk p
def putTrunk (p : Nat) (x : TrunkPort) (s : State) : State := { s with trunk := Tab.put TrunkPort.reset s.trunk p x }
def laneOf (s : State) (l : Nat) : Lane := Tab.look Lane.reset s.lanes l
def putLane (l : Nat) (x : Lane) (s : State) : State := { s with lanes := Tab.put Lane.reset s.lanes l x }
def heardOf (s : State) (m : Nat) : Heard := Tab.look Heard.reset s.heard m
def putHeard (m : Nat) (x : Heard) (s : State) : State := { s with heard := Tab.put Heard.reset s.heard m x }
def putStack (x : Stack) (s : State) : State := { s with stack := x }
/-- The oldest access of a slot that waits for another member waits no longer (R65). -/
def forgetFar (slot : Nat) (write : Bool) (s : State) : State :=
  match s.stack.far.find? (fun x => x.slot = slot && x.write = write) with
  | some x => putStack { s.stack with far := s.stack.far.erase x } s
  | none => s
def portState (s : State) (p : Nat) : Nat := s.rd (R.PORT_STATUS.STATE p)
def laneState (s : State) (l : Nat) : Nat := s.rd (R.TRUNK_LANE.STATE l)

/-- Lanes of a port (Table 23-1). -/
def portLanes (s : State) (p : Nat) : List Nat :=
  match s.rd R.TRUNK_CFG.GROUPING with
  | 0 => if p = 0 then [0, 1, 2, 3] else []
  | 1 => if p < 2 then [2 * p, 2 * p + 1] else []
  | 2 => if p < 4 then [p] else []
  | _ => []
/-- The port of a lane. -/
def portOfLane (s : State) (l : Nat) : Option Nat := (List.range 4).find? (fun p => (portLanes s p).contains l)
def laneInUse (s : State) (l : Nat) : Bool := bit (s.rd R.TRUNK_CFG.IN_USE) l
/-- A lane that counts for a width: in use, not pruned, not FAILED (R472). -/
def laneUsable (s : State) (l : Nat) : Bool := laneInUse s l && !isPruned s (0x2000 + l) && laneState s l < 5
/-- The lanes of a port's width: the lowest-numbered 4, 2 or 1 usable ones (R472). -/
def widthLanes (s : State) (p : Nat) : List Nat :=
  let u := (portLanes s p).filter (laneUsable s)
  u.take (if u.length ≥ 4 then 4 else if u.length ≥ 2 then 2 else u.length)
def portWidth (s : State) (p : Nat) : Nat := (widthLanes s p).length
/-- The lowest lane of a port's width, or of the port. -/
def lowestLane (s : State) (p : Nat) : Nat := ((widthLanes s p).head?.getD ((portLanes s p).headD 0))

/-- TRUNK_LANE_l.STATE of a lane of the width, by the port's state. -/
def laneShows (st : Nat) : Nat := match st with | 1 => 1 | 4 => 1 | 2 => 2 | 3 => 2 | 5 => 2 | 6 => 4 | _ => 0
/-- PORT_STATUS.WIDTH and LANES, and the lanes' states, follow. -/
def syncLane (s : State) (l : Nat) : State :=
  let st :=
    if !laneInUse s l then 0
    else if isPruned s (0x2000 + l) then 6
    else if laneState s l ≥ 5 then laneState s l
    else match portOfLane s l with
      | some p => if (widthLanes s p).contains l then laneShows (portState s p) else if portState s p = 0 then 0 else 3
      | none => 3
  s.wr (R.TRUNK_LANE.STATE l) st
def syncWidth (s : State) (p : Nat) : State :=
  (s.wr (R.PORT_STATUS.WIDTH p) (portWidth s p)).wr (R.PORT_STATUS.LANES p) ((widthLanes s p).foldl setBit 0)
def syncTrunk (s : State) : State := (List.range 4).foldl syncWidth ((List.range 4).foldl syncLane s)
def setPort (p st : Nat) (s : State) : State := syncTrunk (s.wr (R.PORT_STATUS.STATE p) st)
/-- A port with link state: its keys and counts stand. -/
def portKeyed (s : State) (p : Nat) : Bool := 3 ≤ portState s p && portState s p ≤ 6

/-- Neighbours of a member: its own keyed ports, or those its LINKS frames name (R501). -/
def ownLinks (s : State) : List Nat :=
  (List.range 4).map (fun p => if portKeyed s p then s.rd (R.PORT_STATUS.PEER p) else 0xFF)
def linksOf (s : State) (m : Nat) : List Nat := if m = ownMember s then ownLinks s else (heardOf s m).links
/-- A link that both ends report. -/
def linked (s : State) (a b : Nat) : Bool := (linksOf s a).contains b && (linksOf s b).contains a
/-- The members within one more hop of a set. -/
def spread (s : State) (set : List Nat) : List Nat :=
  (List.range 8).filter (fun m => set.contains m || set.any (fun a => linked s a m))
/-- Hops between two members, 7 at most; none where no path is known. -/
def hopsGo (s : State) (b : Nat) : Nat → Nat → List Nat → Option Nat
  | 0, k, set => if set.contains b then some k else none
  | n + 1, k, set => if set.contains b then some k else hopsGo s b n (k + 1) (spread s set)
def hops (s : State) (a b : Nat) : Option Nat := hopsGo s b 7 0 [a]
/-- The own port of the fewest-hop path to a member, the lowest on a tie (R501). -/
def routePort (s : State) (m : Nat) : Option Nat :=
  match hops s (ownMember s) m with
  | some (k + 1) =>
    (List.range 4).find? (fun p => portKeyed s p && linked s (ownMember s) (s.rd (R.PORT_STATUS.PEER p))
      && hops s (s.rd (R.PORT_STATUS.PEER p)) m = some k)
  | _ => none
def stacked (s : State) : Bool := s.isSet R.CANOPY_MEMBER.STACKED
def crownOf (s : State) : Nat := s.rd R.STACK_SELF.CROWN
def isCrown (s : State) : Bool := stacked s && ownMember s = crownOf s
/-- TRUNK_ROUTE, ROUTED and HOPS follow what is known of the links; a member is routed to itself. -/
def setRoute (s : State) (m : Nat) : State :=
  match routePort s m with
  | some p => (s.on (R.TRUNK_ROUTE.VALID m)).wr (R.TRUNK_ROUTE.PORT m) p
  | none => (s.wrB (R.TRUNK_ROUTE.VALID m) (stacked s && m = ownMember s)).wr (R.TRUNK_ROUTE.PORT m) 0
def setRoutes (s : State) : State :=
  let s1 := (List.range 8).foldl setRoute s
  let s2 := s1.wr R.STACK_MEMBERS.ROUTED ((List.range 8).foldl (fun a m => if s1.isSet (R.TRUNK_ROUTE.VALID m) then setBit a m else a) 0)
  s2.wr R.STACK_TIME.HOPS ((hops s2 (ownMember s2) (crownOf s2)).getD 0)
/-- The port towards another member. -/
def routeTo (s : State) (m : Nat) : Option Nat :=
  if m != ownMember s && s.isSet (R.TRUNK_ROUTE.VALID m) then some (s.rd (R.TRUNK_ROUTE.PORT m)) else none

/-- The 304 bytes of a frame's header and body (Table 23-5), without what the link fills in. -/
def frameOf (ty flags src dst id unit grove : Nat) (body : List Nat) : List Nat :=
  [ty, flags, 0, 0, 0, 0, 0, src % 8 + 16 * (dst % 8)] ++ List.replicate 12 0 ++ leBytes 4 id ++ leBytes 2 unit
    ++ [grove % 32, body.length - 1] ++ List.replicate 20 0 ++ body ++ List.replicate (256 - body.length) 0
def frameType (f : List Nat) : Nat := f.getD 0 0
def frameFlag (f : List Nat) (k : Nat) : Bool := bit (f.getD 1 0) k
def frameDest (f : List Nat) : Nat := bits (f.getD 7 0) 4 3
def frameSource (f : List Nat) : Nat := f.getD 7 0 % 8
def frameId (f : List Nat) : Nat := leVal ((f.drop 20).take 4)
def frameGrove (f : List Nat) : Nat := f.getD 26 0 % 32
def frameBody (f : List Nat) : List Nat := (f.drop 48).take (f.getD 27 0 + 1)

def sendFc (s : State) (p : Nat) : Nat := s.rd (R.PORT_FC_LO.FC p) + 2 ^ 32 * s.rd (R.PORT_FC_HI.FC p)
def setFc (p fc : Nat) (s : State) : State := (s.wr (R.PORT_FC_LO.FC p) fc).wr (R.PORT_FC_HI.FC p) (fc / 2 ^ 32)

/-- Receive buffers of a port for PAYLOAD and CONTROL frames (Table 23-7). -/
def rxBuffers (s : State) : Nat × Nat :=
  match s.rd R.TRUNK_CFG.GROUPING with
  | 0 => (1344, 192)
  | 1 => (672, 96)
  | _ => (336, 48)

/-- The trunk engine's self-test failed: the trunk carries no frames (R108, source 46). -/
def engineFailed (s : State) : Bool := Tab.look false s.causes 46
/-- Send one protected frame: the link's fields, ciphertext and tag (R485, R486). At FC 2^40 - 1 nothing further is sent. -/
def emitFrame (p seq : Nat) (f : List Nat) (s : State) : State :=
  let x := trunkPort s p
  let fc := sendFc s p
  if fc ≥ 2 ^ 40 - 1 || engineFailed s then s
  else
    let epoch := s.rd (R.PORT_STATUS.EPOCH p)
    let head := f.take 2 ++ leBytes 2 seq ++ leBytes 2 (s.rd (R.PORT_RX.EXPECTED p)) ++ [epoch, f.getD 7 0] ++ leBytes 8 fc
      ++ leBytes 2 (((rxBuffers s).1 + x.freedP) % 65536) ++ leBytes 2 (((rxBuffers s).2 + x.freedC) % 65536)
      ++ ((f.drop 20).take 28)
    let nonce := [ownMember s, p, epoch, 0] ++ beBytes 8 fc
    let cipher := gcmCrypt x.txKey nonce ((f.drop 48).take 256)
    (setFc p (fc + 1) s).emit (.frame p (head ++ cipher ++ gcmTag x.txKey nonce head cipher))
/-- A KEEPALIVE with the given FLAGS (bit 2 NAK, bit 3 SLEEP). -/
def sendKeepalive (p flags : Nat) (s : State) : State :=
  emitFrame p 0 (frameOf 4 flags (ownMember s) (s.rd (R.PORT_STATUS.PEER p)) 0 0 0 [0]) s

def txNext (s : State) (p : Nat) : Nat := s.rd (R.PORT_SEQ.TX_NEXT p)
def txOldest (s : State) (p : Nat) : Nat := s.rd (R.PORT_SEQ.TX_OLDEST p)
def outstanding (s : State) (p : Nat) : Nat := (txNext s p + 4096 - txOldest s p) % 4096
/-- New frames the sender may send now (R483); PORT_CREDIT shows them. -/
def creditP (s : State) (p : Nat) : Nat := ((trunkPort s p).limitP + 65536 - (trunkPort s p).sentP % 65536) % 65536
def creditC (s : State) (p : Nat) : Nat := ((trunkPort s p).limitC + 65536 - (trunkPort s p).sentC % 65536) % 65536

/-- A frame's buffer is freed at the port that received it, which sends its new limits (R483). -/
def freeBuffer (p : Nat) (isControl : Bool) (s : State) : State :=
  let x := trunkPort s p
  let s1 := putTrunk p (if isControl then { x with freedC := (x.freedC + 1) % 65536 } else { x with freedP := (x.freedP + 1) % 65536 }) s
  if portState s1 p = 3 then sendKeepalive p 0 s1 else s1

/-- Send one new sequenced frame: its SEQ, its replay copy, its count (R480, R483). -/
def sendNew (p : Nat) (q : Queued) (s : State) : State :=
  let x := trunkPort s p
  let isControl := frameType q.frame = 2
  let seq := txNext s p
  let x1 := { x with replay := x.replay ++ [⟨seq, q.frame, 0⟩]
                     sentC := if isControl then (x.sentC + 1) % 65536 else x.sentC
                     sentP := if isControl then x.sentP else (x.sentP + 1) % 65536 }
  let s1 := emitFrame p seq q.frame ((putTrunk p x1 s).wr (R.PORT_SEQ.TX_NEXT p) ((seq + 1) % 4096))
  match q.origin with
  | some o => freeBuffer o isControl s1
  | none => s1
/-- The stack grove whose PAYLOAD frame the weighted round-robin takes next, and what is then left of its SPINE_WEIGHT: the
grove served last while its weight lasts, then those after it in turn (R484; the order of a round is a DESIGN CHOICE, log
184). -/
def nextPayload (s : State) (p : Nat) : Option (Nat × Nat) :=
  let x := trunkPort s p
  let waits (g : Nat) : Bool := x.payload.any (fun q => frameGrove q.frame = g)
  if x.turn.2 != 0 && waits x.turn.1 then some (x.turn.1, x.turn.2 - 1)
  else (((List.range 32).map (fun i => (x.turn.1 + 1 + i) % 32)).find? waits).map (fun g =>
    (g, (match groveRec s g with | some r => r.u8 4 | none => 1) - 1))
/-- Fill slots from what waits while credit and the 1,024-frame limit allow (R480, R483, R484): CONTROL first, but one slot
in 16 at most while PAYLOAD frames wait with credit. -/
def fill (p : Nat) : Nat → State → State
  | 0, s => s
  | fuel + 1, s =>
    let x := trunkPort s p
    if engineFailed s || portState s p != 3 || sendFc s p ≥ 2 ^ 40 - 1 || outstanding s p ≥ 1024 then s
    else
      let pays := x.payload != [] && creditP s p != 0
      match if creditC s p != 0 && (!pays || x.sincePayload ≥ 15) then x.control else [] with
      | q :: r => fill p fuel (sendNew p q (putTrunk p { x with control := r, sincePayload := if pays then 0 else x.sincePayload } s))
      | [] =>
        match if pays then nextPayload s p else none with
        | some (g, left) =>
          (match x.payload.find? (fun q => frameGrove q.frame = g) with
          | some q => fill p fuel (sendNew p q (putTrunk p { x with payload := x.payload.erase q, turn := (g, left)
                                                                    sincePayload := min 15 (x.sincePayload + 1) } s))
          | none => s)
        | none => s
def fillPort (p : Nat) (s : State) : State := fill p ((trunkPort s p).control.length + (trunkPort s p).payload.length + 1) s

/-- A sequenced frame joins the queue of a port. -/
def enqueue (p : Nat) (origin : Option Nat) (f : List Nat) (s : State) : State :=
  let x := trunkPort s p
  putTrunk p (if frameType f = 2 then { x with control := x.control ++ [⟨origin, f⟩] }
    else { x with payload := x.payload ++ [⟨origin, f⟩] }) s
/-- Frames of this member to another; without a route they are discarded. -/
def sendTo (m : Nat) (fs : List (List Nat)) (s : State) : State :=
  match routeTo s m with
  | some p => fillPort p (fs.foldl (fun t f => enqueue p none f t) s)
  | none => s

/-- CONTROL frames of a spine packet: 9 bytes per flit, at most 28 flits per frame (Table 23-6). -/
def packetFrames (s : State) (m id grove : Nat) (flits : List Nat) : List (List Nat) :=
  let k := (flits.length + 27) / 28
  (List.range k).map (fun i =>
    frameOf 2 (b2n (i = 0) + 2 * b2n (i + 1 = k)) (ownMember s) m id i grove (((flits.drop (28 * i)).take 28).flatMap (leBytes 9)))
/-- A packet of a slot's grove goes to another member in CONTROL frames (R490). -/
def sendPacket (m slot : Nat) (h : Header) (data : List Nat) (s : State) : State :=
  sendTo m (packetFrames s m 0 ((groveOf s slot).getD 0) (mkPacket slot h data)) s
/-- The other members that the grove of a slot touches (R29). -/
def touching (s : State) (slot : Nat) : List Nat :=
  match s.stream, groveOf s slot with
  | some st, some g => (List.range (s.rd R.STACK_SELF.COUNT)).filter (fun m => m != ownMember s && (touchedBy st m).contains g)
  | _, _ => []
/-- The ID of a register write that a member makes on its own account, whose answer nobody waits for. -/
def ownWriteId : Nat := 0xFF
/-- A root member passes a bank write of a grove on to the members that the grove touches (R53, R56), as a REG_WRITE
(DESIGN CHOICE: the spec names no packet for it). -/
def passOn (slot addr v : Nat) (s : State) : State :=
  if s.isSet (R.GROVE_SELF.REMOTE slot) then s
  else (touching s slot).foldl (fun t m => sendPacket m slot ⟨addr, 15, 0, ownWriteId, 12, 2⟩ [v] t) s
/-- A trunk request's header (R490): KIND, a parameter byte, WORK_ID, LENGTH and what follows. -/
def requestHead (kind param workId len : Nat) (rest : List Nat) : List Nat :=
  [kind, param, 0, 0] ++ leBytes 4 workId ++ leBytes 4 len ++ rest
/-- The next REQ_ID (R490). -/
def nextId (s : State) : Nat := ownMember s * 2 ^ 29 + s.stack.count
def countId (s : State) : State :=
  putStack { s.stack with count := if s.stack.count + 1 = 2 ^ 29 then 1 else s.stack.count + 1 } s
/-- A request of one CONTROL frame that draws no tally: FENCE, QUERY, ANSWER, USB packet, UNIT_ACK. -/
def sendBrief (m kind grove : Nat) (rest : List Nat) (s : State) : State :=
  countId (sendTo m [frameOf 2 3 (ownMember s) m (nextId s) 0 grove (requestHead kind 0 0 0 rest)] s)

/-- A tally's packet of a request (Table 04-2). -/
def tallyPacket (slot : Nat) (t : Tally) : List Nat :=
  mkPacket slot ⟨0, 0, 0, 0, 12, 11⟩ ((List.range 4).map (fun i => t.words.getD (2 * i) 0 + 2 ^ 32 * t.words.getD (2 * i + 1) 0))
/-- A tally from its 32 bytes. -/
def tallyOf (bs : List Nat) : Tally :=
  let w := fun i => leVal ((bs.drop (4 * i)).take 4)
  ⟨w 0, bits (w 1) 0 8, bits (w 1) 8 8, bits (w 1) 16 8, bits (w 1) 24 8, w 2, w 3, w 4, bits (w 5) 0 16, bits (w 5) 16 8,
    bits (w 5) 24 8, w 6 + 2 ^ 32 * w 7⟩
def issuerOf (id : Nat) : Nat := id / 2 ^ 29 % 8
def ledgerOf (s : State) (id : Nat) : Option Tally :=
  ((Tab.look [] s.stack.ledger (issuerOf id)).find? (fun e => e.1 = id)).map Prod.snd
/-- The answer to a QUERY: FOUND with the recorded tally, or NOT_RUN (R515). -/
def sendAnswer (id : Nat) (t : Option Tally) (s : State) : State :=
  sendBrief (issuerOf id) 5 0 ([if t.isSome then 1 else 2, 0, 0, 0] ++ leBytes 4 id
    ++ (match t with | some x => x.words.flatMap (leBytes 4) | none => [])) s
/-- A request of another member ends: recorded in the done ledger, the last 256 per issuer, and its tally sent (R17, R514);
an answer that waits for it follows (R515). -/
def returnTally (id : Nat) (t : Tally) (s : State) : State :=
  let m := issuerOf id
  let l := Tab.look [] s.stack.ledger m ++ [(id, t)]
  let s1 := putStack { s.stack with ledger := Tab.put [] s.stack.ledger m (l.drop (l.length - 256)) } s
  let s2 := sendTo m (packetFrames s1 m id t.grove (tallyPacket 0 t)) s1
  if s2.stack.asked.contains id then
    sendAnswer id (some t) (putStack { s2.stack with asked := s2.stack.asked.filter (· != id) } s2)
  else s2
/-- One unit's bytes of a stroke go to the member that requested it, as PAYLOAD frames (R508). -/
def sendUnit (id unit grove : Nat) (bs : List Nat) (s : State) : State :=
  let k := (bs.length + 255) / 256
  sendTo (issuerOf id) ((List.range k).map (fun i =>
    frameOf 1 (2 * b2n (i + 1 = k)) (ownMember s) (issuerOf id) id ((unit * k + i) % 65536) grove ((bs.drop (256 * i)).take 256))) s

/-- A request's tally that this member writes through its TRUNK, or its stack controller (R214): REMOTE, and LEDGER. -/
def remoteTally (s : State) (x : Request) (status source : Nat) : Tally :=
  { workId := leVal (x.bytes.take 4), status := status, kind := if x.kind = 2 then 3 else 1, grove := (groveOf s x.slot).getD 0, flags := 1
    requested := leVal ((x.bytes.drop 12).take 4), done := 0, firstFailed := 0xFFFFFFFF, source := source, retries := 0
    depth := 0, doneMap := 0 }

end Sys2Proof.Machine
end

