-- ==== Sys2Proof/Machine/Irq.lean ====
section
/-! DEFINITION. The interrupt bits of a grove and how they reach its root (R53), and refused accesses (R44, R45). -/
namespace Sys2Proof.Machine

/-- GROVE_IRQ_STATUS bit `k` of a slot: 0 TALLY, 1 FAULT, 2 MAILBOX, 3 REFUSED, 4 DEVICE_WAKE, 5 STROKE_SPACE, 6 MEDIA,
7 SUMMARY, 8 QUEUE (Table 03-4). -/
def irqBit (slot k : Nat) : Fld := ⟨slot, 0x0008010C, k, 1, .w1c, 0⟩
def irqWord (s : State) (slot : Nat) : Nat :=
  (List.range 9).foldl (fun a k => a + 2 ^ k * s.rd (irqBit slot k)) 0
/-- The grove is signalled (R53). -/
def signalled (s : State) (slot : Nat) : Bool := irqWord s slot &&& s.rd (R.GROVE_IRQ_ENABLE.ENABLE slot) != 0
def rbpSt (s : State) (p : Nat) : Rbp := if p = 0 then s.rbp0 else s.rbp1
def putRbp (p : Nat) (x : Rbp) (s : State) : State := if p = 0 then { s with rbp0 := x } else { s with rbp1 := x }
/-- Bits of GROVE_IRQ_STATUS whose clear a port has still to issue. -/
def queuedClears (x : Rbp) : Nat := x.issues.foldl (fun a i => match i with | .irqClear b => a ||| b | _ => a) 0
/-- WIN_IRQ: the port's mirror of GROVE_IRQ_STATUS (R253). -/
def winIrq (s : State) (p : Nat) : Nat :=
  match slotOfRbp s p with
  | some k => andNot (irqWord s k) (queuedClears (rbpSt s p))
  | none => 0
/-- Where a set arrives for a bit whose clear is queued, the set wins (R253). -/
def setWins (slot k : Nat) (s : State) : State :=
  match rbpOf s slot with
  | some p =>
    let x := rbpSt s p
    putRbp p { x with issues := x.issues.map (fun i => match i with | .irqClear b => .irqClear (clearBit b k) | j => j) } s
  | none => s
/-- The interrupt and second output of a Retro Bus Port (Table 03-5, R253): of a port that serves and is not pruned (R188,
Table 10-7), by the enables `en`. -/
def rbpLevel (s : State) (p : Nat) (en : Nat → Fld) : Bool :=
  match slotOfRbp s p with
  | some k => s.isSet (R.RBP_CFG.SERVING p) && winIrq s p &&& s.rd (en k) != 0 && !isPruned s (0x6000 + p)
  | none => false
/-- IRQ_N and NMI_N asserted; from entry point 1 until Active both hold the levels they had (R257). -/
def rbpIrqOut (s : State) (p : Nat) : Bool :=
  if s.rd R.DORMANT_STATUS.STATE = 0 then rbpLevel s p R.GROVE_IRQ_ENABLE.ENABLE else (rbpSt s p).outputs.1
def rbpNmiOut (s : State) (p : Nat) : Bool :=
  if s.rd R.DORMANT_STATUS.STATE = 0 then rbpLevel s p R.GROVE_NMI_ENABLE.ENABLE else (rbpSt s p).outputs.2
/-- The levels of both outputs are held (R257). -/
def holdOutputs (s : State) (p : Nat) : State := putRbp p { rbpSt s p with outputs := (rbpIrqOut s p, rbpNmiOut s p) } s

/-- WIDTH of a port's RBP record. -/
def width16 (s : State) (p : Nat) : Bool := s.isSet (R.RBP_CFG.WIDTH16 p)
/-- One bus cycle as master, with an ALE phase before it where A[23:12] differ from those of the last one (R255): the upper
address driven last, and the state. -/
def busCycle (p : Nat) (write : Bool) (acc : Option Nat × State) (c : Nat × List Nat) : Option Nat × State :=
  let up := c.1 / 4096 % 4096
  let s := if acc.1 = some up then acc.2 else acc.2.emit (.ale p (if width16 acc.2 p then up else up % 256))
  (some up, s.emit (if write then .dma p c.1 c.2 else .dmaRead p c.1))
/-- The cycles of bytes from a host address: a byte, or a halfword, each. -/
def cyclesOf (wide : Bool) (addr : Nat) (bs : List Nat) : List (Nat × List Nat) :=
  let k := if wide then 2 else 1
  (List.range ((bs.length + k - 1) / k)).map (fun i => (addr + k * i, (bs.drop (k * i)).take k))
def busCycles (p : Nat) (write : Bool) (addr : Nat) (bs : List Nat) (acc : Option Nat × State) : Option Nat × State :=
  (cyclesOf (width16 acc.2 p) addr bs).foldl (busCycle p write) acc

/-- Deliver what a change of the interrupt registers from `old` to `new` brings at the root (Table 03-5): a console gets
one line when the grove becomes signalled, an interrupt IN endpoint has news then and at any further bit, and a
suspended device function signals remote wake then, where its host has enabled it (R266). -/
def deliverIrq (old new : State) (slot : Nat) (bitSet : Bool) : State :=
  let rises := !signalled old slot && signalled new slot
  let s1 := match consoleOf new slot with
    | some u => if rises then new.emit (.consoleIrq u (irqWord new slot)) else new
    | none => new
  match upTileOf s1 slot with
  | some t =>
    let suspended := s1.rd (R.TILE_STATUS.LINK t) = 7 || (Tab.look UsbDev.reset s1.usbDevs (2 * slot + 1)).asleep
      || (List.range' 1 15).any (fun k => s1.rd (R.HUB_PORT.TILE slot k) = 0xF && s1.isSet (R.HUB_PORT.SUSPEND slot k))
    let s2 := if rises && Tab.look false s1.funcWake slot && suspended then s1.emit (.wake slot) else s1
    if rises || (bitSet && signalled s2 slot) then { s2 with irqNews := Tab.put false s2.irqNews slot true } else s2
  | none => s1

/-- Set an interrupt status bit of a slot; a remote-rooted grove's bit also goes to its root member as an EVENT packet (R53). -/
def setIrq (slot k : Nat) (s : State) : State :=
  let s1 := setWins slot k (s.on (irqBit slot k))
  let s2 := if s.isSet (R.GROVE_SELF.REMOTE slot) then sendPacket (s.rd (R.GROVE_SELF.ROOT_MEMBER slot)) slot ⟨0, 0, 0, ownWriteId, 12, 9⟩ [2 ^ k] s1 else s1
  deliverIrq s s2 slot (!s.isSet (irqBit slot k))

def setIrqAll (k : Nat) (slots : List Nat) (s : State) : State := slots.foldl (fun a x => setIrq x k a) s

/-- A refused register access (R44). -/
def refuse (slot addr : Nat) (s : State) : State :=
  let s1 := (s.on (R.GROVE_STATUS.ACCESS_REFUSED slot)).wr (R.GROVE_REFUSED_ADDR.ADDR slot) addr
  if s.isSet (R.GROVE_STATUS.ACCESS_REFUSED slot) then s1 else setIrq slot 3 s1

/-- A refused memory access (R45). -/
def memRefuse (slot : Nat) (s : State) : State :=
  let s1 := s.on (R.GROVE_STATUS.MEM_REFUSED slot)
  if s.isSet (R.GROVE_STATUS.MEM_REFUSED slot) then s1 else setIrq slot 3 s1

end Sys2Proof.Machine
end

