-- ==== Sys2Proof/Machine/DomReq.lean ====
section
/-! DEFINITION. Requests for power domains and how a sequencer takes them (R117, R133 to R135). -/
namespace Sys2Proof.Machine

/-- The domains of absent units (Table 26-4). -/
def domPresent (s : State) (d : Nat) : Bool :=
  let drum0 := hasDrum s 0
  let drum1 := hasDrum s 1
  if d = 20 || (91 ≤ d && d ≤ 100) || d = 125 || d = 126 then drum0
  else if d = 21 || (101 ≤ d && d ≤ 110) || d = 127 || d = 128 then drum1
  else if d = 17 then hasTrunk s && hasSeal s
  else if d = 23 || (111 ≤ d && d ≤ 116) || d = 129 || d = 130 then hasTrunk s
  else if d = 16 then hasSeal s
  else if d = 85 then hasRbp s 0
  else if d = 86 then hasRbp s 1
  else if d = 132 then hasRbp s 0 || hasRbp s 1
  else d ≤ 143

/-- The generators a domain is fed by (Table 06-1). -/
def domGens (d : Nat) : List Nat :=
  if 91 ≤ d && d ≤ 100 then [1]
  else if 101 ≤ d && d ≤ 110 then [2]
  else if 25 ≤ d && d ≤ 80 then [3]
  else if 111 ≤ d && d ≤ 115 then [4]
  else if d = 14 || d = 15 then [5]
  else if d = 0 || (19 ≤ d && d ≤ 24) then []
  else [0]
def fedBy (g : Nat) : List Nat := (List.range 144).filter (fun d => (domGens d).contains g)

/-- The tempo rail of a domain (Table 07-1); none on a rail that is not one. -/
def domRail (d : Nat) : Option Nat :=
  if 91 ≤ d && d ≤ 100 then some 1
  else if 101 ≤ d && d ≤ 110 then some 2
  else if d = 0 || (19 ≤ d && d ≤ 24) || (111 ≤ d && d ≤ 114) then none
  else if 25 ≤ d && d ≤ 66 then if (d - 25) % 3 = 2 then some 0 else none
  else some 0

def domReqOf (s : State) (d : Nat) : Nat := Tab.look 0 s.domReq d
def requested (s : State) (d : Nat) : Bool := domReqOf s d != 0
/-- An entry into Dormant keeps the domain down (R132). -/
def keptDown (s : State) (d : Nat) : Bool := match s.entry with | some e => e.down.any (fun x => x.2 = d) | none => false
/-- The value that a domain's sequencer samples: its requests, unless an entry keeps it down (R133, R135, R152). -/
def wanted (s : State) (d : Nat) : Bool := requested s d && !keptDown s d
def unitReq (s : State) (d : Nat) : Bool := bit (domReqOf s d) 0
def stewardReq (s : State) (d : Nat) : Bool := bit (domReqOf s d) 1
def domStepOf (s : State) (d : Nat) : Nat := Tab.look 0 s.domStep d
def putStep (d step : Nat) (s : State) : State := { s with domStep := Tab.put 0 s.domStep d step }
def putDom (d st step : Nat) (s : State) : State := (putStep d step s).wr (R.DOMAIN_STATE.D d) st

/-- Domains in the weak-switch step; at most 16 (R134). -/
def inWeak (s : State) : Nat := (s.domStep.filter (fun e => e.2 = 1)).length
/-- Admit the lowest-numbered waiting domain while there is room (R134). -/
def admitWaiting (s : State) : State :=
  match s.domStep.find? (fun e => e.2 = 10) with
  | some e => if inWeak s < 16 then putStep e.1 1 s else s
  | none => s
/-- A domain begins to rise: the weak step, or a wait for it. -/
def beginRise (d : Nat) (s : State) : State := putDom d 1 (if inWeak s < 16 then 1 else 10) s

/-- The request changes: an OFF domain rises, an ON one falls, one that waits for its weak step is OFF at once; every
other state samples it at the next step boundary (R135). -/
def sampleRequest (d : Nat) (s : State) : State :=
  if !domPresent s d || d = 0 then s
  else if wanted s d then (if domState s d = 0 then beginRise d s else s)
  else if domState s d = 2 then putDom d 3 6 s
  else if domStepOf s d = 10 then putDom d 0 0 s
  else s

def putReq (d v : Nat) (s : State) : State := sampleRequest d { s with domReq := Tab.put 0 s.domReq d v }
/-- The request bit that a unit sets or clears for one of its domains. -/
def ownRequest (on : Bool) (d : Nat) (s : State) : State :=
  if !domPresent s d then s else putReq d (2 * b2n (stewardReq s d) + b2n on) s

/-- Generators follow the domains they feed (R117). -/
def syncGen (s : State) (g : Nat) : State :=
  if (fedBy g).any (requested s) then (if unitReq s (19 + g) then s else ownRequest true (19 + g) s)
  else if (fedBy g).all (fun d => domState s d = 0) && unitReq s (19 + g) then ownRequest false (19 + g) s
  else s
def syncGens (s : State) : State := (List.range 6).foldl syncGen s

/-- A unit's own request for a domain; the generators that feed the domain follow at once (R117, R133). -/
def unitRequest (on : Bool) (d : Nat) (s : State) : State := (domGens d).foldl syncGen (ownRequest on d s)
def unitRequestAll (on : Bool) (ds : List Nat) (s : State) : State :=
  syncGens (ds.foldl (fun t d => ownRequest on d t) s)


end Sys2Proof.Machine
end

