-- ==== Sys2Proof/Machine/Float32.lean ====
section
/-! DEFINITION. IEEE 754 binary32 on bit patterns, as the Drumhead computes it (R350, R352): round to nearest even, one
rounding per fused multiply-add, subnormals taken as zero, every NaN result the quiet NaN. -/
namespace Sys2Proof.Machine

/-- A binary32 pattern read: NaN, infinity, or `sign · mant · 2^exp` with `mant = 0` for both zeroes and subnormals. -/
inductive F32 where
  | nan
  | inf (neg : Bool)
  | fin (neg : Bool) (mant : Nat) (exp : Int)
deriving DecidableEq, Repr

def f32Nan : Nat := 0x7FC00000
def f32Inf (neg : Bool) : Nat := if neg then 0xFF800000 else 0x7F800000
def f32Zero (neg : Bool) : Nat := if neg then 0x80000000 else 0

def f32Read (x : Nat) : F32 :=
  let neg := bit x 31
  let e := bits x 23 8
  let m := x % 2 ^ 23
  if e = 255 then (if m = 0 then .inf neg else .nan)
  else if e = 0 then .fin neg 0 0
  else .fin neg (2 ^ 23 + m) ((e : Int) - 150)

/-- NaN and infinity excluded (R354, R221). -/
def f32Finite (x : Nat) : Bool := bits x 23 8 != 255

/-- `M / 2^d` to nearest, ties to even. -/
def shiftRne (M d : Nat) : Nat :=
  let q := M / 2 ^ d
  let r := M % 2 ^ d
  if 2 * r < 2 ^ d then q else if 2 * r > 2 ^ d then q + 1 else q + q % 2

/-- Round `± M · 2^e` with `M > 0` to binary32; a subnormal result is a zero of its sign (R350). -/
def f32Round (neg : Bool) (M : Nat) (e : Int) : Nat :=
  let q0 : Int := max (e + (Nat.log2 M + 1) - 24) (-149)
  let sig0 := if q0 ≤ e then M * 2 ^ (e - q0).toNat else shiftRne M (q0 - e).toNat
  let q := if sig0 = 2 ^ 24 then q0 + 1 else q0
  let sig := if sig0 = 2 ^ 24 then 2 ^ 23 else sig0
  if sig < 2 ^ 23 then f32Zero neg
  else if q + 150 ≥ 255 then f32Inf neg
  else (if neg then 2 ^ 31 else 0) + (q + 150).toNat * 2 ^ 23 + (sig - 2 ^ 23)

/-- Add `c` to the exact product `± M · 2^e` (zero when `M = 0`) and round once. -/
def f32AddExact (neg : Bool) (M : Nat) (e : Int) (c : F32) : Nat :=
  match c with
  | .nan => f32Nan
  | .inf n => f32Inf n
  | .fin n m ec =>
    if M = 0 ∧ m = 0 then f32Zero (neg && n)
    else
      let lo := if M = 0 then ec else if m = 0 then e else min e ec
      let p : Int := if M = 0 then 0 else (M : Int) * 2 ^ (e - lo).toNat * (if neg then -1 else 1)
      let t : Int := if m = 0 then 0 else (m : Int) * 2 ^ (ec - lo).toNat * (if n then -1 else 1)
      let sum := p + t
      if sum = 0 then f32Zero false else f32Round (decide (sum < 0)) sum.natAbs lo

/-- fma(a, b, c), rounded once (R350). -/
def f32Fma (a b c : Nat) : Nat :=
  match f32Read a, f32Read b with
  | .nan, _ => f32Nan
  | _, .nan => f32Nan
  | .inf n, .inf k => f32InfPlus (n != k) (f32Read c)
  | .inf n, .fin k m _ => if m = 0 then f32Nan else f32InfPlus (n != k) (f32Read c)
  | .fin n m _, .inf k => if m = 0 then f32Nan else f32InfPlus (n != k) (f32Read c)
  | .fin n m e, .fin k p g => f32AddExact (n != k) (m * p) (e + g) (f32Read c)
where
  f32InfPlus (neg : Bool) (c : F32) : Nat :=
    match c with
    | .nan => f32Nan
    | .inf n => if n = neg then f32Inf neg else f32Nan
    | .fin _ _ _ => f32Inf neg

def f32Neg (x : Nat) : Nat := x ^^^ 2 ^ 31
def f32One : Nat := 0x3F800000
def f32Add (a b : Nat) : Nat := f32Fma f32One a b
def f32Sub (a b : Nat) : Nat := f32Add a (f32Neg b)

/-- `a < b`; false where either is a NaN. -/
def f32Lt (a b : Nat) : Bool :=
  match f32Read a, f32Read b with
  | .nan, _ => false
  | _, .nan => false
  | .inf n, .inf k => n && !k
  | .inf n, .fin _ _ _ => n
  | .fin _ _ _, .inf k => !k
  | .fin n m e, .fin k p g =>
    let lo := min e g
    let x : Int := (m : Int) * 2 ^ (e - lo).toNat * (if n then -1 else 1)
    let y : Int := (p : Int) * 2 ^ (g - lo).toNat * (if k then -1 else 1)
    decide (x < y)
def f32Le (a b : Nat) : Bool :=
  f32Lt a b || (f32Read a != .nan && f32Read b != .nan && !f32Lt b a)

/-- A subnormal taken as zero of the same sign (R350). -/
def f32Flush (x : Nat) : Nat := if x / 2 ^ 23 % 256 = 0 then x / 2 ^ 31 % 2 * 2 ^ 31 else x
/-- clamp(v, lo, hi) of R350: a NaN passes through. -/
def f32Clamp (v lo hi : Nat) : Nat := f32Flush (if f32Lt v lo then lo else if f32Lt hi v then hi else v)

/-- A finite pattern as the fraction `num / den` with `den > 0`. -/
def f32Rat (x : Nat) : Int × Nat :=
  match f32Read x with
  | .fin n m e => ((m : Int) * 2 ^ e.toNat * (if n then -1 else 1), 2 ^ (-e).toNat)
  | _ => (0, 1)

/-- `num / den` rounded to the nearest integer, halves away from zero. -/
def roundAway (num : Int) (den : Nat) : Int :=
  let q : Int := ((2 * num.natAbs + den) / (2 * den) : Nat)
  if num < 0 then -q else q

/-- convert(u) of R352: the signed code of an output value. -/
def f32Convert (u umin umax : Nat) : Int :=
  match f32Read u with
  | .nan => 0
  | .inf n => if n then -32767 else 32767
  | .fin _ _ _ =>
    let v := f32Rat (f32Clamp u umin umax)
    roundAway (v.1 * 32767) v.2

/-- `lo ≤ x ≤ hi` for a finite `x` and bounds given as fractions over `den`. -/
def f32InRange (x : Nat) (lo hi : Int) (den : Nat) : Bool :=
  f32Finite x && (let v := f32Rat x; decide (lo * v.2 ≤ v.1 * den) && decide (v.1 * den ≤ hi * v.2))

/-- A fraction rounded to binary32 by truncating the quotient far below the last bit; used for values the block hands to
a voice. Sticky bit kept, so the rounding is to nearest even. -/
def f32OfRat (num : Int) (den : Nat) : Nat :=
  if num = 0 ∨ den = 0 then 0
  else
    let sh := 64 + Nat.log2 den
    let q := num.natAbs * 2 ^ sh / den
    let r := num.natAbs * 2 ^ sh % den
    f32Round (decide (num < 0)) (2 * q + (if r = 0 then 0 else 1)) (-(sh : Int) - 1)

end Sys2Proof.Machine
end

