-- ==== Sys2Proof/Machine/Link.lean ====
section
/-! DEFINITION. Shared operations on a tile: its hub port (chapter 13) and its power path (chapter 15). -/
namespace Sys2Proof.Machine

def tcOf (s : State) (t : Nat) : TypeC := Tab.look TypeC.reset s.typec t
def putTc (t : Nat) (x : TypeC) (s : State) : State := { s with typec := Tab.put TypeC.reset s.typec t x }
def uartOf (s : State) (u : Nat) : Uart := Tab.look Uart.reset s.uarts u
def putUart (u : Nat) (x : Uart) (s : State) : State := { s with uarts := Tab.put Uart.reset s.uarts u x }
def portOf (s : State) (slot k : Nat) : HubPort := Tab.look HubPort.reset s.ports (16 * slot + k)
def putPort (slot k : Nat) (x : HubPort) (s : State) : State := { s with ports := Tab.put HubPort.reset s.ports (16 * slot + k) x }

/-- The hub port of a DOWN tile: its grove's slot and HUB_PORT (R264, R279). -/
def portOfTile (s : State) (t : Nat) : Option (Nat × Nat) :=
  match tileRec s t, (tileOwner s t).bind (slotOf s) with
  | some r, some slot => if r.u8 1 = 2 then some (slot, r.u8 3) else none
  | _, _ => none
/-- The tile of a hub port; none for the device function. -/
def tileOfPort (s : State) (slot k : Nat) : Option Nat := (List.range 14).find? (fun t => portOfTile s t = some (slot, k))
/-- The DOWN tiles of the grove in a slot. -/
def downTiles (s : State) (slot : Nat) : List Nat :=
  (List.range 14).filter (fun t => match portOfTile s t with | some p => p.1 = slot | none => false)

def tileReady (s : State) (t : Nat) : Bool := s.isSet (R.TILE_STATUS.READY t)
def tilePruned (s : State) (t : Nat) : Bool := isPruned s (0x1000 + t)
def tileHeldDown (s : State) (t : Nat) : Bool := bit (s.rd R.IDB_HOLD.TILES) t
def attached (s : State) (t : Nat) : Bool := s.rd (R.TILE_STATUS.ATTACH t) = 2
def pathOf (s : State) (t : Nat) : Nat := s.rd (R.TC_STATUS.PATH t)
def linkOf (s : State) (t : Nat) : Nat := s.rd (R.TILE_STATUS.LINK t)
def vbusOf (s : State) (t : Nat) : Nat := 10 * s.rd (R.PWR_SENSE.VBUS t)

/-- A link state, at the tile and at its hub port; leaving suspend is grove activity (R138). -/
def setLink (t link : Nat) (s : State) : State :=
  let s0 := if linkOf s t = 7 && link != 7 then activity s else s
  let s1 := s0.wr (R.TILE_STATUS.LINK t) link
  match portOfTile s t with
  | some (slot, k) => (s1.wr (R.HUB_PORT.LINK slot k) link).wrB (R.HUB_PORT.SUSPEND slot k) (link = 7)
  | none => s1
/-- A speed, at the tile and at its hub port. -/
def setSpeed (t speed : Nat) (s : State) : State :=
  let s1 := s.wr (R.TILE_STATUS.SPEED t) speed
  match portOfTile s t with
  | some (slot, k) => s1.wr (R.HUB_PORT.SPEED slot k) speed
  | none => s1
def changePort (t : Nat) (f : HubPort → HubPort) (s : State) : State :=
  match portOfTile s t with
  | some (slot, k) => putPort slot k (f (portOf s slot k)) s
  | none => s

/-- A port loses its connection: CONNECT clears, with C_PORT_CONNECTION when it was set. -/
def portDisconnect (t : Nat) (s : State) : State :=
  match portOfTile s t with
  | some (slot, k) =>
    let was := s.isSet (R.HUB_PORT.CONNECT slot k)
    let s1 := ((s.off (R.HUB_PORT.CONNECT slot k)).off (R.HUB_PORT.ENABLED slot k))
    let s2 := setSpeed t 0 (setLink t (if s.isSet (R.HUB_PORT.POWER slot k) then 1 else 0) s1)
    changePort t (fun p => { p with cConn := p.cConn || was, selective := false, watch := false, failed := 0 }) s2
  | none => setSpeed t 0 (setLink t 1 s)

/-- A port reports a connection (R268). -/
def portConnect (t speed : Nat) (s : State) : State :=
  match portOfTile s t with
  | some (slot, k) =>
    let s1 := (s.on (R.HUB_PORT.CONNECT slot k)).wrB (R.HUB_PORT.ENABLED slot k) (speed ≥ 4)
    let s2 := setSpeed t speed (setLink t (if speed ≥ 4 then 3 else 1) s1)
    (changePort t (fun p => { p with cConn := true }) s2).bump (R.TILE_COUNTS.CONNECTS t) 1
  | none => s

/-- Largest current offered through Type-C in mA (R307): CURRENT_MAX under the cap of R227. -/
def currentMax (s : State) (t : Nat) : Nat := (((tileRec s t).bind (fun r => pdProf s (r.u8 4))).map (fun p => 50 * p.u8 6)).getD 0
def offerMa (s : State) (t : Nat) : Nat := min (currentMax s t) (s.rd (R.TC_CAL.IBUS_MAX t))
/-- The Rp current, Default counted as 900 mA (Table 15-4). -/
def rpMa (s : State) (t : Nat) : Nat := if offerMa s t ≥ 3000 then 3000 else if offerMa s t ≥ 1500 then 1500 else 900

/-- OVP threshold of a voltage in 50 mV units, and OCP threshold of a current in 10 mA units (Table 15-4). -/
def ovpUnits (mv : Nat) : Nat := max (115 * mv / 100) (mv + 500) / 50
def ocpUnits (ma : Nat) : Nat := 12 * ma / 100
def setGuards (t mv ma : Nat) (s : State) : State :=
  (s.wr (R.GUARD.OVP t) (ovpUnits mv)).wr (R.GUARD.OCP t) (if tileRole s t = 2 then ocpUnits ma else 0)

/-- The contract ends: nothing granted, thresholds of vSafe5V and the Rp current. -/
def endContract (t : Nat) (s : State) : State :=
  let s1 := (s.rstAll (R.PD_CONTRACT.all t)).off (R.PWR_DRIVE.CL_ACTIVE t)
  setGuards t 5000 (rpMa s t)
    (putTc t { tcOf s t with pending := none, moved := false, repeats := 0, acked := false, fixedReq := 0, ams := 0 } s1)

/-- The path enters DISCHARGE (R321); without VCONN the cable counts as a 3 A cable until it answers again (R308). -/
def toDischarge (t : Nat) (s : State) : State :=
  let s1 := (((s.wr (R.TC_STATUS.PATH t) 5).off (R.PWR_DRIVE.CONV_EN t)).off (R.PWR_DRIVE.GATE t)).on (R.PWR_DRIVE.DISCH t)
  portDisconnect t (endContract t (((s1.off (R.TC_STATUS.VCONN_ON t)).off (R.TC_STATUS.EMARKED_5A t)).off (R.TILE_STATUS.VBUS_ON t)))

/-- PORT_POWER of a DOWN tile's port, which counts only for a USB-rooted grove (R272). -/
def portPower (s : State) (t : Nat) : Bool :=
  match portOfTile s t with
  | some (slot, k) => s.rd (R.HUB_SELF.KIND slot) = 2 || s.isSet (R.HUB_PORT.POWER slot k)
  | none => false
/-- A tile given to a grove rooted on another member, while this one is not GRAFTED (R504). -/
def remoteIdle (s : State) (t : Nat) : Bool :=
  match (tileOwner s t).bind (slotOf s) with
  | some slot => s.isSet (R.GROVE_SELF.REMOTE slot) && s.rd R.STACK_SELF.STATE != 2
  | none => false
/-- The conditions of R272 but for the queue turn, with the hold of R316. -/
def enableHolds (s : State) (t : Nat) : Bool :=
  tileRole s t = 2 && tileReady s t && attached s t && !remoteIdle s t && !tilePruned s t && !tileHeldDown s t
    && !s.isSet (R.TC_STATUS.DAMP t) && portPower s t && !(tcOf s t).hold

/-- The path follows enable (Table 15-5): it queues, leaves the queue, or discharges. -/
def pathFollows (t : Nat) (enable : Bool) (s : State) : State :=
  match pathOf s t with
  | 0 => if enable then s.wr (R.TC_STATUS.PATH t) 1 else s
  | 1 => if enable then s else s.wr (R.TC_STATUS.PATH t) 0
  | 5 => s
  | _ => if enable then s else toDischarge t s
def syncPath (t : Nat) (s : State) : State := if tileRole s t = 2 then pathFollows t (enableHolds s t) s else s

/-- The sink switch of an UP tile (R312). -/
def syncSink (t : Nat) (s : State) : State :=
  if tileRole s t = 1 then
    let closed := s.isSet (R.TILE_STATUS.VBUS_PRESENT t) && (tcOf s t).gateBlock = 0
    (s.wrB (R.PWR_DRIVE.GATE t) closed).wr (R.TC_STATUS.PATH t) (if closed then 3 else 0)
  else s
/-- VBUS is measured, in mV (R306). -/
def senseVbus (t mv : Nat) (s : State) : State :=
  let s1 := s.wr (R.PWR_SENSE.VBUS t) (min (mv / 10) 0xFFFF)
  syncSink t (if mv > 4000 then s1.on (R.TILE_STATUS.VBUS_PRESENT t)
    else if mv < 3500 then s1.off (R.TILE_STATUS.VBUS_PRESENT t) else s1)

def isVirtualHub (s : State) (slot : Nat) : Bool := s.rd (R.HUB_SELF.KIND slot) = 1
def isTaprootHub (s : State) (slot : Nat) : Bool := s.rd (R.HUB_SELF.KIND slot) = 2
/-- DOWN ports of the hub of a slot, the device function's port aside. -/
def hubPorts (s : State) (slot : Nat) : Nat :=
  if isVirtualHub s slot then min (downTiles s slot).length (s.rd (R.HUB_SELF.PORTS slot) - 1) else s.rd (R.HUB_SELF.PORTS slot)
/-- What the host has told the hub of a slot, or its device function. -/
def usbDevOf (s : State) (slot : Nat) (function : Bool) : UsbDev := Tab.look UsbDev.reset s.usbDevs (2 * slot + b2n function)
def putUsbDev (slot : Nat) (function : Bool) (x : UsbDev) (s : State) : State :=
  { s with usbDevs := Tab.put UsbDev.reset s.usbDevs (2 * slot + b2n function) x }
/-- HUB_PORT of the device function: always connected and powered, at the upstream speed (R264, R266). -/
def showFunction (slot speed : Nat) (s : State) : State :=
  if !isVirtualHub s slot then s
  else
    let k := hubPorts s slot + 1
    ((((((s.wr (R.HUB_PORT.TILE slot k) 0xF).on (R.HUB_PORT.POWER slot k)).on (R.HUB_PORT.CONNECT slot k)).wrB
      (R.HUB_PORT.ENABLED slot k) (speed != 0)).wr (R.HUB_PORT.SPEED slot k) speed).wr (R.HUB_PORT.LINK slot k) (if speed = 0 then 0 else 3)).off
      (R.HUB_PORT.SUSPEND slot k)
/-- A logical unit loses its host: commands that have not begun are gone, and what the one under way still brings is
discarded (R274, R445). -/
def Lun.orphan (u : Lun) : Lun :=
  { u with cmds := if u.begun then u.cmds.take 1 else [], toIssue := none, sense := 0, info := 0, prevent := false, silent := u.begun }
/-- The device function drops its interfaces' state (R274). -/
def functionDefault (slot : Nat) (s : State) : State :=
  (List.range 16).foldl (fun t l =>
      { t with luns := Tab.put Lun.reset t.luns (16 * slot + l) (Tab.look Lun.reset t.luns (16 * slot + l)).orphan })
    (putUsbDev slot true UsbDev.reset { s with
      vendor := Tab.put [] s.vendor slot [], irqNews := Tab.put false s.irqNews slot false, funcWake := Tab.put false s.funcWake slot false })

/-- The virtual hub returns to its default state (R274), both its parts and every port of it. -/
def hubDefault (slot : Nat) (s : State) : State :=
  let s1 := functionDefault slot (putUsbDev slot false UsbDev.reset ((s.wr (R.HUB_SELF.STATE slot) 0).off (R.HUB_SELF.WAKE_EN slot)))
  let s2 := showFunction slot (s1.rd (R.HUB_SELF.UP_SPEED slot)) { s1 with
    hubDepth := Tab.put 0 s1.hubDepth slot 0, hubAlt := Tab.put false s1.hubAlt slot false
    usbDevs := Tab.put UsbDev.reset s1.usbDevs (32 + slot) UsbDev.reset
    ports := (List.range' (hubPorts s slot + 1) (15 - hubPorts s slot)).foldl (fun t k => Tab.put HubPort.reset t (16 * slot + k) HubPort.reset) s1.ports }
  (downTiles s slot).foldl (fun a t =>
    match portOfTile a t with
    | some (_, k) => portDisconnect t (syncPath t (putPort slot k HubPort.reset
        ((a.off (R.HUB_PORT.POWER slot k)).off (R.HUB_PORT.OVER_CURRENT slot k))))
    | none => a) s2

/-- The connection of an UP tile ends (R274, R281): its link stands in a given state, and the hub has no upstream. -/
def upGone (slot t link : Nat) (s : State) : State :=
  showFunction slot 0 ((setSpeed t 0 (setLink t link (hubDefault slot s))).wr (R.HUB_SELF.UP_SPEED slot) 0)

/-- The ROM runs and no firmware (R171). -/
def inRecovery (s : State) : Bool := s.rd R.HW_STATUS.MODE = 2
/-- TILE_0 in recovery: a DFU device, whatever its role (R171, R172). -/
def isDfu (s : State) (t : Nat) : Bool := inRecovery s && t = 0
/-- A tile presents dead-battery Rd (R186, R171). -/
def rdShown (t : Nat) (s : State) : State := (s.wr (R.TC_STATUS.PRESENT t) 1).on (R.TC_STATUS.DEAD_BATTERY t)

/-- The four domains of a tile and its bell stay with it: HS PHY, SS PHY, tile logic's domain and PD logic (Table 07-1). -/
def tileDomains (t : Nat) : List Nat := [25 + 3 * t, 26 + 3 * t, 27 + 3 * t, 67 + t]

end Sys2Proof.Machine
end

