-- ==== Sys2Proof/Machine/Bus.lean ====
section
/-! DEFINITION. Taproot's buses: their queues and records, the transfers of raw pipes, and what the end of a device brings
(R287 to R291, R297, R299). -/
namespace Sys2Proof.Machine

def busOf (s : State) (slot : Nat) : TapBus := Tab.look TapBus.reset s.taps slot
def putBus (slot : Nat) (x : TapBus) (s : State) : State := { s with taps := Tab.put TapBus.reset s.taps slot x }
def changeBus (slot : Nat) (f : TapBus → TapBus) (s : State) : State := putBus slot (f (busOf s slot)) s
def tapState (s : State) (slot : Nat) : Nat := s.rd (R.TAP_STATUS.STATE slot)
/-- The bus of a slot runs, suspended or not. -/
def busRuns (s : State) (slot : Nat) : Bool := tapState s slot = 1 || tapState s slot = 2
def devOf (s : State) (slot h : Nat) : Option TapDev := (busOf s slot).devs.find? (fun d => d.handle = h)
def changeDev (slot h : Nat) (f : TapDev → TapDev) (s : State) : State :=
  changeBus slot (fun b => { b with devs := b.devs.map (fun d => if d.handle = h then f d else d) }) s
def pullOf (b : TapBus) (q : Nat) : List (List Nat) := Tab.look [] b.pulls q
def pushOf (b : TapBus) (q : Nat) : List (List Nat) := Tab.look [] b.pushes q
def setPull (q : Nat) (l : List (List Nat)) (b : TapBus) : TapBus := { b with pulls := Tab.put [] b.pulls q l }
def setPush (q : Nat) (l : List (List Nat)) (b : TapBus) : TapBus := { b with pushes := Tab.put [] b.pushes q l }

/-- Capacities of the pull and push sides of a target; none where the side does not exist (Table 14-3). -/
def pullCap (q : Nat) : Option Nat :=
  if q ≤ 3 then some 64 else if q = 4 then some 16 else if q = 5 then some 128 else if 8 ≤ q && q < 16 then some 16 else none
def pushCap (q : Nat) : Option Nat :=
  if q = 1 then some 8 else if q = 4 then some 16 else if q = 5 then some 128 else if 8 ≤ q && q < 16 then some 8 else none
/-- The counter of records lost for a target (Table 14-11). -/
def lostField (slot q : Nat) : Fld :=
  match q with
  | 0 => R.TAP_LOST.EVENTS slot
  | 1 => R.TAP_LOST.KEYS slot
  | 2 => R.TAP_LOST.POINTER slot
  | 3 => R.TAP_LOST.PAD slot
  | 4 => R.TAP_LOST_B.BLOCK slot
  | 5 => R.TAP_LOST_B.SERIAL slot
  | _ => R.TAP_LOST_B.PIPES slot

/-- A record of 32 bytes: header and bytes 8 onward (R288). -/
def mkRecord (ty dev flags len time : Nat) (body : List Nat) : List Nat :=
  ([ty, dev, flags, len] ++ leBytes 4 time ++ body ++ List.replicate 24 0).take 32
def recU (r : List Nat) (off n : Nat) : Nat := leVal ((r.drop off).take n)
def metroLow (s : State) : Nat := s.metro % 2 ^ 32
/-- A record enters a pull queue, or is discarded and counted; the occurrence of CLASS_QUEUE that this is follows (R289,
R291). -/
def enterRecord (slot q ty dev flags len : Nat) (body : List Nat) (s : State) : State :=
  let b := busOf s slot
  let l := pullOf b q
  if (pullCap q).getD 0 ≤ l.length then
    let s1 := (putBus slot { b with lost := if b.lost.contains q then b.lost else q :: b.lost } s).bump (lostField slot q) 1
    { s1 with tapDrops := s1.tapDrops + 1 }
  else
    let r := mkRecord ty dev (if b.lost.contains q then setBit flags 0 else flags) len (metroLow s) body
    let s1 := putBus slot { setPull q (l ++ [r]) b with lost := b.lost.filter (· != q) } s
    if l.isEmpty then setIrq slot 8 s1 else s1
/-- Bytes 8 to 31 of an ATTACH record (Table 14-7). -/
def attachBody (d : TapDev) : List Nat :=
  (d.device.drop 8).take 4 ++ [d.speed, d.root, d.hub1, d.hub2, 0, (if d.claimed then setBit d.services 6 else d.services),
    d.addr, d.config.getD 5 0, d.config.getD 4 0] ++ List.replicate 11 0
/-- KEY records of the changes between two boot reports: usage, action, modifier byte after (R292). -/
def keyChanges (mods : Nat) (keys : List Nat) (mods' : Nat) (keys' : List Nat) : List (Nat × Nat × Nat) :=
  let m := (List.range 8).foldl (fun (a : Nat × List (Nat × Nat × Nat)) i =>
    if bit mods i = bit mods' i then a
    else
      let after := if bit mods' i then setBit a.1 i else clearBit a.1 i
      (after, a.2 ++ [(0xE0 + i, b2n (bit mods' i), after)])) (mods, [])
  m.2 ++ (keys.filter (fun k => !keys'.contains k)).map (fun k => (k, 0, mods'))
    ++ (keys'.filter (fun k => !keys.contains k)).map (fun k => (k, 1, mods'))
def postKeys (slot h flags : Nat) (l : List (Nat × Nat × Nat)) (s : State) : State :=
  l.foldl (fun a e => enterRecord slot 1 0x10 h flags 0 [e.1, e.2.1, e.2.2] a) s
def isBlockReq (h : Nat) (r : List Nat) : Bool := r.getD 1 0 = h
/-- The completion's bytes from 12: STATUS, sense, BLOCKS_DONE, capacity. -/
def blockEnding (status key asc ascq done : Nat) (tail : List Nat) : List Nat := [status, key, asc, ascq] ++ leBytes 4 done ++ tail
/-- The request's completion enters the queue. -/
def postDone (slot : Nat) (r e : List Nat) (flags : Nat) (s : State) : State :=
  enterRecord slot 4 0x48 (r.getD 1 0) flags 0 ((r.drop 4).take 4 ++ e) s
def pipeOf (s : State) (slot k : Nat) : Option Pipe := Tab.look none (busOf s slot).pipes k
def putPipe (slot k : Nat) (x : Option Pipe) (s : State) : State := changeBus slot (fun b => { b with pipes := Tab.put none b.pipes k x }) s
/-- Units of a transfer (R297). -/
def pipeUnits (x : Pipe) (d : List Nat) : Nat :=
  let len := recU d 16 4
  let n := (len + x.packet - 1) / x.packet
  (if len = 0 then 1 else n) + (if bit (d.getD 2 0) 1 && !bit (d.getD 2 0) 0 && len != 0 && len % x.packet = 0 then 1 else 0)
/-- Clear what belongs to the transfer under way. -/
def Pipe.idle (x : Pipe) : Pipe := { x with started := false, done := 0, map := 0, failed := none, source := 0, retries := 0, refused := false, moved := 0 }
/-- The tally of a pipe's transfer (R212, R297): `source` names what ended it, 0 none; FIRST_FAILED is the unit that failed,
if any did. A short end counts the packets moved (Table 10-10). -/
def pipeTally (s : State) (slot : Nat) (x : Pipe) (d : List Nat) (cancelled short : Bool) (source : Nat) : Tally :=
  let req := if short then max x.moved 1 else pipeUnits x d
  let done := if short && x.failed.isNone then req else x.done
  { workId := recU d 4 4, status := tallyStatus x.refused cancelled done req, kind := 2, grove := (groveOf s slot).getD 0,
    flags := if short then 8 else 0, requested := req, done := done,
    firstFailed := x.failed.getD 0xFFFFFFFF,
    source := if x.source != 0 then x.source else source, retries := min x.retries 255, depth := 0,
    doneMap := if short && x.failed.isNone then 2 ^ (min done 64) - 1 else x.map }
/-- The head transfer of a pipe ends: its tally goes out, and it leaves the pipe. -/
def endTransfer (slot k : Nat) (cancelled short : Bool) (source : Nat) (s : State) : State :=
  match pipeOf s slot k with
  | some x =>
    match x.pending with
    | d :: rest =>
      postTally (putPipe slot k (some { x.idle with pending := rest }) s) 5 slot (pipeTally s slot x d cancelled short source)
    | [] => s
  | none => s
/-- Every pending transfer of a pipe ends. -/
def endTransfers (slot k : Nat) (cancelled : Bool) (source : Nat) : Nat → State → State
  | 0, s => s
  | n + 1, s => endTransfers slot k cancelled source n (endTransfer slot k cancelled false source s)
def pipeEvent (slot k ty : Nat) (d : List Nat) (s : State) : State :=
  match pipeOf s slot k with
  | some x => enterRecord slot (8 + k) ty x.handle 0 0 (leBytes 4 (recU d 4 4)) s
  | none => s

/-- The pipes of a device close; their transfers end. -/
def closePipe (slot k : Nat) (cancelled : Bool) (source : Nat) (s : State) : State :=
  match pipeOf s slot k with
  | some x => putPipe slot k none (endTransfers slot k cancelled source x.pending.length s)
  | none => s
/-- Synthetic records of what a device held (Table 14-10). -/
def releaseInputs (slot : Nat) (d : TapDev) (s : State) : State :=
  let s1 := if bit d.services 0 then postKeys slot d.handle 4 (keyChanges d.mods d.keys 0 []) s else s
  let s2 := if bit d.services 1 && d.buttons != 0 then enterRecord slot 2 0x20 d.handle 4 0 [] s1 else s1
  if bit d.services 2 then enterRecord slot 3 0x30 d.handle 4 0 (List.replicate 20 0 ++ [0x0F]) s2 else s2
/-- A device's block requests end GONE; the one under way with the blocks it counts, and UNCONFIRMED where it is a write whose
status had not come (Table 14-10). -/
def goneBlocks (slot : Nat) (d : TapDev) (s : State) : State :=
  let mine := (pushOf (busOf s slot) 4).filter (isBlockReq d.handle)
  let s1 := changeBus slot (fun b => setPush 4 ((pushOf b 4).filter (fun r => !isBlockReq d.handle r)) b) s
  mine.zipIdx.foldl (fun a e =>
    match (if e.2 = 0 then d.ended else none) with
    | some x => postDone slot e.1 x 0 a
    | none =>
      let under := if e.2 = 0 then d.begun else none
      postDone slot e.1 (blockEnding 2 0 0 0 (under.getD 0) []) (if under.isSome && e.1.getD 0 0 = 0x41 then 32 else 0) a) s1
/-- Pipe transfers end with tallies and GONE events, and the pipes close (R297). -/
def gonePipes (slot h source : Nat) (s : State) : State :=
  (List.range 8).foldl (fun a k => match pipeOf a slot k with
    | some x =>
      if x.handle = h then
        closePipe slot k false source (x.pending.foldl (fun c d => pipeEvent slot k 0x84 d c) a)
      else a
    | none => a) s
/-- One device is ended under R299; its handle waits for its DETACH to be pulled (R295). -/
def endDevice (slot source : Nat) (s : State) (d : TapDev) : State :=
  let s1 := gonePipes slot d.handle source (goneBlocks slot d (releaseInputs slot d s))
  let s2 := changeBus slot (fun b => { b with
    pushes := Tab.put [] (Tab.put [] b.pushes 5 ((pushOf b 5).filter (fun r => !isBlockReq d.handle r))) 1 ((pushOf b 1).filter (fun r => !isBlockReq d.handle r)),
    devs := b.devs.filter (fun e => e.handle != d.handle), freed := b.freed ++ [d.handle] }) s1
  enterRecord slot 0 0x02 d.handle 0 0 ((attachBody d).take 8) s2
/-- The devices on a root port end (R207, R299). -/
def endRoot (slot root source : Nat) (s : State) : State :=
  changeBus slot (fun b => { b with disabled := b.disabled.filter (fun e => e.1 != root) })
    (((busOf s slot).devs.filter (fun d => d.root = root)).foldl (endDevice slot source) s)

end Sys2Proof.Machine
end

