-- ==== Sys2Proof/Machine/Programs.lean ====
section
/-! DEFINITION. The format rules of the byte strings that VOICE, CURVE and SLED records name (R353, R354, R371, R389), and
the static schedule of a drum's voices (R356, R357). -/
namespace Sys2Proof.Machine

/-- A voice program read from its bytes (Table 17-3). The float block stays a list of patterns in the table's order. -/
structure Program where
  n : Nat
  p : Nat
  q : Nat
  m : Nat
  k : Nat
  inputs : List Nat
  outputs : List Nat
  sels : List Nat
  floats : List Nat
deriving DecidableEq, Repr

def byteAt (bs : List Nat) (i : Nat) : Nat := bs.getD i 0
def half (bs : List Nat) (i : Nat) : Nat := byteAt bs i + 256 * byteAt bs (i + 1)
def word (bs : List Nat) (i : Nat) : Nat := half bs i + 65536 * half bs (i + 2)
def sword (bs : List Nat) (i : Nat) : Int := signed 32 (word bs i)

/-- The float count F of R353. -/
def floatCount (n p q m k : Nat) : Nat :=
  n * n + 2 * n * p + 2 * n * q + q * m + q * k + 3 * k + 2 * q + n + k

def readProgram (bs : List Nat) : Program :=
  let n := byteAt bs 1
  let p := byteAt bs 2
  let q := byteAt bs 3
  let m := byteAt bs 4
  let k := byteAt bs 5
  { n := n, p := p, q := q, m := m, k := k
    inputs := (List.range 6).map (fun i => byteAt bs (8 + i))
    outputs := (List.range 3).map (fun i => byteAt bs (0x10 + i))
    sels := (List.range 3).map (fun i => byteAt bs (0x14 + i))
    floats := (List.range (floatCount n p q m k)).map (fun i => word bs (0x18 + 4 * i)) }

/-- Where each matrix of the float block begins. -/
def Program.offA (_ : Program) : Nat := 0
def Program.offB (g : Program) : Nat := g.n * g.n
def Program.offC (g : Program) : Nat := g.offB + g.n * g.q
def Program.offL (g : Program) : Nat := g.offC + g.p * g.n
def Program.offK (g : Program) : Nat := g.offL + g.n * g.p
def Program.offN (g : Program) : Nat := g.offK + g.q * g.n
def Program.offKI (g : Program) : Nat := g.offN + g.q * g.m
def Program.offG (g : Program) : Nat := g.offKI + g.q * g.k
def Program.offZmin (g : Program) : Nat := g.offG + g.k
def Program.offZmax (g : Program) : Nat := g.offZmin + g.k
def Program.offUmin (g : Program) : Nat := g.offZmax + g.k
def Program.offUmax (g : Program) : Nat := g.offUmin + g.q
def Program.offX0 (g : Program) : Nat := g.offUmax + g.q
def Program.offZ0 (g : Program) : Nat := g.offX0 + g.n
def Program.fl (g : Program) (i : Nat) : Nat := g.floats.getD i 0

/-- Input codes of Table 17-1. -/
def inputCodeOk (c : Nat) : Bool := c ≤ 0x0A || (0x10 ≤ c && c ≤ 0x17)
/-- Destinations allowed for a ROLE (Table 17-2). -/
def destOk (role c : Nat) : Bool := (0x10 ≤ c && c ≤ 0x17) || (c = role + 1 && role ≤ 4)

/-- Check 15's rules for one voice program (R354), the rules across the voices of a drum aside. -/
def programOk (bs : List Nat) (len role : Nat) (predict : Bool) : Bool :=
  let g := readProgram bs
  byteAt bs 0 = 1 && 1 ≤ g.n && g.n ≤ 8 && 1 ≤ g.p && g.p ≤ 6 && 1 ≤ g.q && g.q ≤ 3 && g.m ≤ 3 && g.k ≤ 3
    && half bs 6 = 0 && half bs 0x0E = 0 && byteAt bs 0x13 = 0 && byteAt bs 0x17 = 0
    && len = 24 + 4 * floatCount g.n g.p g.q g.m g.k
    && (List.range 6).all (fun i => if i < g.p then inputCodeOk (g.inputs.getD i 0) else g.inputs.getD i 0 = 0xFF)
    && (List.range 3).all (fun i => if i < g.q then destOk role (g.outputs.getD i 0) else g.outputs.getD i 0 = 0xFF)
    && (List.range 3).all (fun i => if i < g.k then g.sels.getD i 0 < g.p else g.sels.getD i 0 = 0xFF)
    && (List.range g.q).all (fun i => (List.range i).all (fun j => g.outputs.getD i 0 != g.outputs.getD j 0))
    && g.floats.all f32Finite
    && (List.range g.k).all (fun i => f32Le (g.fl (g.offZmin + i)) (g.fl (g.offZmax + i)))
    && (List.range g.q).all (fun i =>
        f32Le 0xBF800000 (g.fl (g.offUmin + i)) && f32Le (g.fl (g.offUmin + i)) (g.fl (g.offUmax + i))
          && f32Le (g.fl (g.offUmax + i)) 0x3F800000)
    && (!predict || (role ≤ 2 && (List.range g.p).all (fun i => g.inputs.getD i 0 ≤ 7)))

/-- The destinations a program drives. -/
def Program.dests (g : Program) : List Nat := g.outputs.take g.q

/-- Cost of a voice in cycles, dispatch aside (Table 17-4). -/
def voiceCost (g : Program) (predict : Bool) : Nat :=
  if predict then (20 + 9 * (1 + 2 * g.p + 2 * g.n + g.q + g.m + g.k) + 1) / 2
  else (30 + 9 * (1 + g.p + 3 * g.n + g.q + g.m + g.k) + 1) / 2

/-- Frame sum of a voice set, given as costs and PREDICT flags (R356). -/
def frameSum (vs : List (Nat × Bool)) : Nat :=
  (if vs.any (·.2) then 23 else 0) + (vs.map (fun v => v.1 + 8)).foldl (· + ·) 0

/-- Budget of a tempo (R356). -/
def tempoBudget (t : Nat) : Nat := ([750, 1500, 2250, 3000] : List Nat).getD t 3000
/-- The lowest tempo a frame sum fits; 4 when it fits none (R357). -/
def lowestFit (sum : Nat) : Nat :=
  if sum ≤ 750 then 0 else if sum ≤ 1500 then 1 else if sum ≤ 2250 then 2 else if sum ≤ 3000 then 3 else 4

/-- Check 15's rules for a curve body (R371). -/
def curveOk (bs : List Nat) (len points : Nat) : Bool :=
  let on := half bs 0
  len = 8 + 4 * points && 1 ≤ on && 1 ≤ half bs 2 && half bs 2 < on
    && 100 ≤ half bs 4 && half bs 4 ≤ 20000 && 100 ≤ half bs 6 && half bs 6 ≤ 20000
    && (List.range points).all (fun i => 300 ≤ half bs (0x0A + 4 * i) && half bs (0x0A + 4 * i) ≤ 11000)
    && (List.range (points - 1)).all (fun i =>
        half bs (0x08 + 4 * i) < half bs (0x0C + 4 * i) && half bs (0x0A + 4 * i) ≤ half bs (0x0E + 4 * i))

/-- The rules for the head and segments of a sled body (R389), the sign of the last END_POS aside. -/
def segmentsOk (bs : List Nat) (segs : Nat) : Bool :=
  1 ≤ segs && segs ≤ 64
    && 50 ≤ half bs 0 && half bs 0 ≤ 600 && half bs 2 ≤ half bs 0
    && 1 ≤ half bs 4 && half bs 4 ≤ 4096 && half bs 6 = 0
    && (List.range segs).all (fun i =>
        1 ≤ word bs (8 + 12 * i) && word bs (8 + 12 * i) ≤ 1000000 && (sword bs (0x10 + 12 * i)).natAbs ≤ 32768)
    && sword bs (0x10 + 12 * (segs - 1)) = 0

/-- Check 15's rules for a sled profile body (R389). -/
def sledOk (bs : List Nat) (len segs : Nat) : Bool :=
  len = 8 + 12 * segs && segmentsOk bs segs && decide (sword bs (0x0C + 12 * (segs - 1)) > 0)

/-- Segments of a staged table: those before the first DURATION of 0 (R389). -/
def stagedSegments (bs : List Nat) : Nat :=
  ((List.range 64).find? (fun i => word bs (8 + 12 * i) = 0)).getD 64

end Sys2Proof.Machine
end

