-- ==== Sys2Proof/Machine/DrumOps.lean ====
section
/-! DEFINITION. What the units of a drum share: its records and voices, the coil latches, laser and spindle states, and
the strokes with their tallies (chapters 16 to 21), without any fault occurrence. -/
namespace Sys2Proof.Machine

def drumSt (s : State) (n : Nat) : Drum := Tab.look Drum.reset s.drums n
def putDrum (n : Nat) (x : Drum) (s : State) : State := { s with drums := Tab.put Drum.reset s.drums n x }
def putFront (n : Nat) (f : Front) (s : State) : State := putDrum n { drumSt s n with front := f } s
def putSpin (n : Nat) (x : Spin) (s : State) : State := putDrum n { drumSt s n with spin := x } s
def putSled (n : Nat) (x : Sled) (s : State) : State := putDrum n { drumSt s n with sled := x } s
def putTray (n : Nat) (x : Tray) (s : State) : State := putDrum n { drumSt s n with tray := x } s
def putStrokes (n : Nat) (x : List Stroke) (s : State) : State := putDrum n { drumSt s n with strokes := x } s
def frontOf (s : State) (n : Nat) : Front := (drumSt s n).front
def spinOf (s : State) (n : Nat) : Spin := (drumSt s n).spin
def sledOf (s : State) (n : Nat) : Sled := (drumSt s n).sled
def trayOf (s : State) (n : Nat) : Tray := (drumSt s n).tray

/-- Source k of drum n (Table 10-3). -/
def drumSrc (n k : Nat) : Nat := 216 + 64 * n + k
def drumPruned (s : State) (n : Nat) : Bool := isPruned s (0x3000 + n)
def voicePruned (s : State) (n v : Nat) : Bool := isPruned s (0x4000 + 8 * n + v)
def vmOut (s : State) (n : Nat) : Bool := Tab.look false s.causes (drumSrc n 34)
/-- Driver group k at its temperature limit (R345): 0 coils, 1 sled, 2 tray, 3 lasers, 4 predriver. -/
def groupHot (s : State) (n k : Nat) : Bool := bit (s.rd (R.FRONT_STATUS.HOT n)) k

/-- The loaded voice v of a drum. -/
def voiceOf (s : State) (n v : Nat) : Option Voice := Tab.look none (drumSt s n).voices v
def putVoice (n v : Nat) (x : Option Voice) (s : State) : State :=
  let d := drumSt s n
  putDrum n { d with voices := Tab.put none d.voices v x } s
def loadedVoices (s : State) (n : Nat) : List (Nat × Voice) :=
  (List.range 8).filterMap (fun v => (voiceOf s n v).map (fun x => (v, x)))
def anyVoice (s : State) (n : Nat) : Bool := (loadedVoices s n).length != 0
/-- A voice of a ROLE is loaded. -/
def roleLoaded (s : State) (n role : Nat) : Bool := (loadedVoices s n).any (fun e => e.2.role = role)
def Voice.dests (x : Voice) : List Nat := (readProgram x.prog).dests
/-- The speed voice (R370): loaded, unpruned, and driving 0x04; the sled follow voice drives 0x05 (R396). -/
def driverVoice (s : State) (n dest : Nat) : Option Nat :=
  ((loadedVoices s n).find? (fun e => e.2.dests.contains dest && !voicePruned s n e.1)).map Prod.fst

/-- The current a coil command code asks for in µA (R339). -/
def coilCurrent (code : Nat) : Int := max (signed 16 code) (-32767) * 400000 / 32767
/-- A drum's coils are driven (R339, R344, R345, Table 10-7). -/
def coilsDriven (s : State) (n : Nat) : Bool :=
  domOn s (98 + 10 * n) && !vmOut s n && !groupHot s n 0 && !drumPruned s n
/-- Latch a coil command: 0 focus, 1 tracking, 2 tilt; a reaction holds focus and tracking (R341). -/
def latchCoil (n c code : Nat) (s : State) : State :=
  if c < 2 && (frontOf s n).react != 0 then s else s.wr (R.COIL_LATCH.CODE n c) code

/-- Put a reaction in force: HOLD leaves the codes latched, RELEASE latches zero; the stricter stands (R341, Table 16-6). -/
def react (n kind why : Nat) (s : State) : State :=
  if kind = 0 then s
  else
    let f := frontOf s n
    let k := max kind f.react
    let s1 := putFront n { f with react := k, reactBy := f.reactBy ||| why, rearm := f.rearm && why != 4 && f.reactBy &&& why = why } (s.on (R.FRONT_STATUS.REACTED n))
    if k = 2 then (s1.wr (R.COIL_LATCH.CODE n 0) 0).wr (R.COIL_LATCH.CODE n 1) 0 else s1

def laserState (s : State) (n : Nat) : Nat := s.rd (R.LASER_STATUS.STATE n)
/-- The lit laser goes dark; leaving REGULATING releases the focus and tracking coils (R342). -/
def laserDark (n : Nat) (s : State) : State :=
  let was := laserState s n = 2
  let s1 := s.rstAll [R.LASER_STATUS.STATE n, R.LASER_STATUS.MONITOR n, R.LASER_STATUS.DRIVE n]
  if was && (roleLoaded s n 0 || roleLoaded s n 1) then react n 2 4 s1 else s1
/-- The drivers' domain falls at Dormant point 2: the laser is dark, with SELECT kept and no release (R338, R342). -/
def laserSleeps (n : Nat) (s : State) : State := s.rstAll [R.LASER_STATUS.STATE n, R.LASER_STATUS.MONITOR n, R.LASER_STATUS.DRIVE n]
/-- Turn the laser off and clear SELECT. -/
def laserOff (n : Nat) (s : State) : State := laserDark n (s.wr (R.LASER_CTRL.SELECT n) 0)

def spinState (s : State) (n : Nat) : Nat := s.rd (R.SPIN_STATUS.STATE n)
/-- S of R369, which SPIN_SPEED.RPM shows in whole rpm. -/
def setSpin (n milli : Nat) (s : State) : State :=
  (putSpin n { spinOf s n with speed := milli } s).wr (R.SPIN_SPEED.RPM n) (min (milli / 1000) 65535)
/-- T_r of R372; 0 outside RUN. -/
def showTarget (n : Nat) (s : State) : State :=
  s.wr (R.SPIN_SPEED.TARGET n) (if spinState s n = 5 then (spinOf s n).target / 1000 else 0)
/-- The measured speed in 1/1,000 rpm from the last step intervals (R377). -/
def measured (steps : List Nat) (polePairs : Nat) : Nat :=
  let six := steps.take 6
  let sum := six.foldl (· + ·) 0
  if sum = 0 || polePairs = 0 then 0 else 2400000000000 * six.length / (6 * sum * polePairs)
/-- Enter a spindle state (Table 18-2). S is 0 up to ALIGN; a spindle that leaves CHECK or RAMP for BRAKE or COAST shows its
measured speed in place of the commanded one (R369). -/
def enterSpin (n st : Nat) (s0 : State) : State :=
  let s := if 6 ≤ st && spinState s0 n ≤ 4 then setSpin n (measured (spinOf s0 n).steps (spinOf s0 n).polePairs) s0 else s0
  let s1 := s.wr (R.SPIN_STATUS.STATE n) st
  let x := spinOf s1 n
  let s2 := putSpin n { x with brake := 0, good := 0, missed := 0, goodMs := 0, wide := 0,
                               steps := if st ≤ 3 then [] else x.steps } s1
  let s3 := if st = 5 then s2 else s2.off (R.SPIN_STATUS.QUIET_ACTIVE n)
  showTarget n (if st ≤ 3 then setSpin n 0 s3 else s3)

/-- A cause of R381 holds: VM out of range, SPIN_FAULT_N low, the predriver at its limit, or overspeed. -/
def cutHolds (s : State) (n : Nat) : Bool :=
  vmOut s n || (spinOf s n).faultLow || groupHot s n 4 || (spinOf s n).overspeed
/-- A cut: every gate off, and a spindle that is not STOPPED coasts (R381, Table 18-2). -/
def cutSpin (n : Nat) (s : State) : State :=
  let s1 := s.on (R.SPIN_STATUS.CUT n)
  if spinState s n = 0 || spinState s n = 7 then s1 else enterSpin n 7 s1

/-- The domains of a drum, the laser drivers aside (R191). -/
def drumDomains (n : Nat) : List Nat := (List.range 10).filterMap (fun k => if k = 8 then none else some (91 + 10 * n + k))
def drumAllDomains (n : Nat) : List Nat := (List.range' (91 + 10 * n) 10) ++ [125 + 2 * n, 126 + 2 * n]
/-- A pruned drum's domains fall once its spindle is STOPPED (R380, Table 10-7). -/
def dropPruned (n : Nat) (s : State) : State :=
  if spinState s n = 0 then unitRequestAll false (drumAllDomains n) s else s

/-- Without a speed voice a spindle in RAMP or RUN brakes (R382). -/
def checkSpeedVoice (n : Nat) (s : State) : State :=
  if (driverVoice s n 4).isSome then s
  else if spinState s n = 4 || spinState s n = 5 then (enterSpin n 6 s).on (R.SPIN_STATUS.NO_VOICE n)
  else s

/-- A sled command ends: the retries of its moves and homing are over (R202). -/
def dropSledRetry (n : Nat) (s : State) : State :=
  [drumSrc n 10, drumSrc n 14].foldl (fun a c => { a with retryN := Tab.put 0 a.retryN c 0, backoff := Tab.put false a.backoff c false }) s
/-- Every sled output goes undriven, and the running command ends CUT (R397). -/
def cutSled (n : Nat) (s : State) : State :=
  let x := sledOf s n
  let s1 := if s.isSet (R.SLED_CMD_STATUS.RUNNING n) then
      (s.off (R.SLED_CMD_STATUS.RUNNING n)).wr (R.SLED_CMD_STATUS.CODE n) 8 else s
  ((dropSledRetry n (putSled n { x with move := none, homing := 0, strokeHome := false, ma := 0, waits := false, bandAt := none } s1)).rstAll
    [R.SLED_STATUS.STATE n, R.SLED_STATUS.HOMED n, R.SLED_STATUS.CLOSED_LOOP n]).wr (R.SLED_STATUS.BAND n) 0
/-- A cut for the tray (R402): a move stops in BETWEEN, and the request ends. -/
def cutTray (n : Nat) (s : State) : State :=
  let st := s.rd (R.TRAY_STATUS.STATE n)
  let s1 := putTray n { trayOf s n with req := 0, brake := 0, waits := false } (s.off (R.TRAY_STATUS.PENDING n))
  let s2 := putSpin n { spinOf s1 n with trayHold := (spinOf s1 n).trayHold && st != 1 } s1
  if st = 2 || st = 4 then s2.wr (R.TRAY_STATUS.STATE n) 0 else s2

/-- Fields of a stroke descriptor (Table 21-1). -/
def Stroke.u8 (x : Stroke) (k : Nat) : Nat := x.bytes.getD k 0
def Stroke.u32 (x : Stroke) (k : Nat) : Nat := word x.bytes k
def Stroke.workId (x : Stroke) : Nat := x.u32 0
def Stroke.op (x : Stroke) : Nat := x.u8 4
def Stroke.gen (x : Stroke) : Nat := x.u8 6
def Stroke.address (x : Stroke) : Nat := x.u32 8
def Stroke.count (x : Stroke) : Nat := x.u32 12
def Stroke.region (x : Stroke) : Nat := x.u8 16
def Stroke.offset (x : Stroke) : Nat := x.u32 20
def Stroke.arg (x : Stroke) : Nat := x.u32 24
/-- A disc stroke (R429). -/
def Stroke.disc (x : Stroke) : Bool := (1 ≤ x.op && x.op ≤ 5)
/-- The combining depth D of a stroke (R416, R428). -/
def strokeDepthOf (s : State) (n : Nat) (x : Stroke) : Nat :=
  if bit (x.u8 5) 2 then x.u8 5 % 4 else s.rd (R.READ_COMBINE.DEPTH_DEFAULT n)

/-- A stroke as it is taken. -/
def freshStroke (slot : Nat) (bytes : List Nat) (lun : Option Nat) (request : Option (Nat × Nat)) : Stroke :=
  ⟨slot, bytes, lun, request, false, 0, 0, 0, none, 0, 0, 0, none, false, [], 0⟩

/-- Units of the stroke are under way at another member, which has their data and has not acknowledged it (R508). -/
def Stroke.acks (x : Stroke) : Bool := x.request.isSome && x.awaiting != []
/-- A source ends a stroke at its first unit not done (R18, R207, R213); one that has not started failed no unit. -/
def Stroke.cutBy (src : Nat) (x : Stroke) : Stroke :=
  let first := if x.request.isSome then x.next else x.awaiting.foldl min x.next
  { x with source := src, failed := if x.started && first < x.count then some (x.failed.getD first) else x.failed }
/-- The stroke has nothing left to do: its units have ended, or a restart or a prune ends it and no unit is under way; sectors
buffered for an output are not under way (R55, R213, R436, R441, R508). -/
def Stroke.over (x : Stroke) : Bool :=
  x.started && (if x.ending != 0 then x.awaiting = [] || x.op = 4 else x.next ≥ x.count && x.awaiting = [])

/-- Bytes that a sector of a FORM takes in the region (Table 21-2). -/
def formStride (form : Nat) : Nat := ([2048, 2324, 2352] : List Nat).getD form 0
/-- Region bytes of a stroke; none for the commands that write none (Table 21-2). -/
def regionBytes (x : Stroke) : Option Nat :=
  match x.op with
  | 1 => some (x.count * formStride (x.arg % 4))
  | 2 => some 808
  | 3 => some (x.count * (if x.arg % 2 = 0 then 16 else 96))
  | 8 => some 32
  | _ => none

/-- A stroke's tally (R439, R213, R212). -/
def strokeTally (s : State) (x : Stroke) (refused cancelled : Bool) (source : Nat) : Tally :=
  { workId := x.workId, status := tallyStatus (refused || x.refused) (cancelled || x.ending = 1) x.done x.count, kind := 1
    grove := (groveOf s x.slot).getD 0, flags := 4 * b2n x.coalesced.isSome + b2n x.request.isSome
    requested := x.count, done := x.done, firstFailed := x.failed.getD 0xFFFFFFFF
    source := if x.source != 0 then x.source else source, retries := min x.retries 255, depth := x.depth, doneMap := x.map }

/-- Slots of the working store (R421). -/
def storeSlots (s : State) (n : Nat) : Nat :=
  match s.rd (R.READ_STATUS.MODE n) with
  | 1 => 64
  | 2 => 6
  | _ => 0
/-- READ_STATUS.FREE follows the slots in use; 64 free slots show as 63, the field's largest value. -/
def syncFree (n : Nat) (s : State) : State :=
  let d := drumSt s n
  s.wr (R.READ_STATUS.FREE n) (min 63 (storeSlots s n - (d.block.map (fun _ => 1)).getD 0 - d.play.length))
/-- Release the block's slot. -/
def dropBlock (n : Nat) (s : State) : State := syncFree n (putDrum n { drumSt s n with block := none } s)

def ringSize (s : State) (slot : Nat) : Nat := 2 ^ strokeDepth s slot
def ringUsed (s : State) (n slot : Nat) : Nat :=
  (s.rd (R.STK_PROD.COUNT n slot) + 65536 - s.rd (R.STK_CONS.COUNT n slot)) % 65536
/-- STK_RING.HELD: strokes of the slot wait for the drum's bring-up (R193). -/
def syncHeld (n slot : Nat) (s : State) : State :=
  s.wrB (R.STK_RING.HELD n slot) (!(drumSt s n).up && (drumSt s n).strokes.any (fun x => x.slot = slot && x.lun.isNone))

/-- The outcome of a stroke as a result of its logical unit (R445): the first one that is not DONE is kept. -/
def noteLunEnd (slot l address : Nat) (t : Tally) (s : State) : State :=
  let k := 16 * slot + l
  let u := Tab.look Lun.reset s.luns k
  let at_ := address + (if t.firstFailed = 0xFFFFFFFF then 0 else t.firstFailed)
  let u' := { u with pending := u.pending - 1
                     bad := if u.bad.isNone && t.status != 0 then some (t.status, t.source, at_) else u.bad
                     toIssue := if t.status = 0 then u.toIssue else none }
  { s with luns := Tab.put Lun.reset s.luns k u' }
def noteLun (x : Stroke) (t : Tally) (s : State) : State :=
  match x.lun with
  | some l => noteLunEnd x.slot l x.address t s
  | none => s

/-- The trunk request of a stroke on another member's drum (R490, R508). -/
def strokeRequest (s : State) (slot m n : Nat) (bytes : List Nat) (l : Option Nat) : Request :=
  let st := freshStroke slot bytes l none
  let id := nextId s
  let frame := frameOf 2 3 (ownMember s) m id 0 ((groveOf s slot).getD 0) (requestHead 1 n st.workId ((regionBytes st).getD 0) bytes)
  ⟨id, m, slot, 1, n, bytes, [frame], (heardOf s m).startId, none, false, false, [], 0, l, 0⟩

/-- A stroke of another member ends: its tally goes to that member with its ledger entry (R17, R514). -/
def noteRequest (n : Nat) (x : Stroke) (t : Tally) (s : State) : State :=
  match x.request with
  | some r => returnTally r.2 t s
  | none => postTally s (10 + n) x.slot t

/-- A stroke ends: its tally goes out, its ring entry is consumed, and its slots of the working store are released. -/
def finishStroke (n : Nat) (x : Stroke) (refused cancelled : Bool) (source : Nat) (s : State) : State :=
  let t := strokeTally s x refused cancelled source
  let full := ringUsed s n x.slot = ringSize s x.slot
  let s1 := noteLun x t (noteRequest n x t s)
  if x.lun.isSome then s1
  else
    let s2 := s1.wr (R.STK_CONS.COUNT n x.slot) (s1.rd (R.STK_CONS.COUNT n x.slot) + 1)
    if full then setIrq x.slot 5 s2 else s2

/-- Remove the first stroke that satisfies `p`. -/
def removeFirst (p : Stroke → Bool) : List Stroke → List Stroke
  | [] => []
  | x :: r => if p x then r else x :: removeFirst p r

/-- The stroke whose turn runs: the first one of the slot served. -/
def currentStroke (s : State) (n : Nat) : Option Stroke :=
  match (drumSt s n).turn with
  | some slot => (drumSt s n).strokes.find? (fun x => x.slot = slot)
  | none => none
/-- Update the first stroke of a slot. -/
def mapFirst (slot : Nat) (f : Stroke → Stroke) : List Stroke → List Stroke
  | [] => []
  | x :: r => if x.slot = slot then f x :: r else x :: mapFirst slot f r
def updateCurrent (n : Nat) (f : Stroke → Stroke) (s : State) : State :=
  match (drumSt s n).turn with
  | some slot => putStrokes n (mapFirst slot f (drumSt s n).strokes) s
  | none => s

/-- A retry of another unit on behalf of the stroke whose turn runs counts in its tally (R439). -/
def strokeRetries (n : Nat) (p : Stroke → Bool) (s : State) : State :=
  updateCurrent n (fun y => if p y then { y with retries := y.retries + 1 } else y) s

/-- A unit of the running stroke waits out a backoff: of FOCUS_LOST, TRACK_LOST or READ_SYNC (R202). -/
def unitBacksOff (s : State) (n : Nat) : Bool := [0, 1, 21].any (fun k => Tab.look false s.backoff (drumSrc n k))
/-- The unit under way succeeds or its stroke ends: its retries are over (R202). -/
def unitRetryEnd (n : Nat) (s : State) : State :=
  [0, 1, 21].foldl (fun t k => { t with retryN := Tab.put 0 t.retryN (drumSrc n k) 0, backoff := Tab.put false t.backoff (drumSrc n k) false }) s

/-- STK_NOW follows the turn. -/
def syncNow (n : Nat) (s : State) : State :=
  match currentStroke s n with
  | some x => (s.wrB (R.STK_NOW.BUSY n) x.started).wr (R.STK_NOW.SLOT n) x.slot
  | none => s.rstAll [R.STK_NOW.BUSY n, R.STK_NOW.SLOT n]

/-- End the first stroke of a slot on a drum: the output it feeds stops reading ahead, and its block is released. -/
def dropStroke (n slot : Nat) (refused cancelled : Bool) (source : Nat) (s : State) : State :=
  match (drumSt s n).strokes.find? (fun x => x.slot = slot) with
  | some x =>
    let s1 := putStrokes n (removeFirst (fun y => y.slot = slot) (drumSt s n).strokes) s
    let s2 := if x.op = 4 && x.started then
        syncFree n (putDrum n { drumSt s1 n with play := (drumSt s1 n).play.filter (fun e => e.1 != x.arg % 2) }
          (s1.rstAll [R.AUD_STATUS.PLAYING (x.arg % 2), R.AUD_STATUS.BUFFERED (x.arg % 2)]))
      else s1
    let s3 := if (drumSt s2 n).turn = some slot && x.started then dropBlock n (unitRetryEnd n s2) else s2
    syncHeld n slot (syncNow n (finishStroke n x refused cancelled source s3))
  | none => s

/-- The disc state enters OPEN, UNKNOWN or UNREADABLE: its address range and KIND read 0 (Table 21-3, Table 21-8). -/
def setDisc (n st : Nat) (s : State) : State :=
  let s1 := s.wr (R.STK_DISC.STATE n) st
  if st = 2 then s1
  else putDrum n { drumSt s1 n with ident := [] } (s1.rstAll [R.STK_DISC.KIND n, R.STK_END.ADDRESS n, R.STK_START.ADDRESS n])

end Sys2Proof.Machine
end

