-- ==== Sys2Proof/Machine/Disc.lean ====
section
/-! DEFINITION. The upstream disc function (R443 to R445): how a SCSI command becomes strokes, and how it is answered. -/
namespace Sys2Proof.Machine

def lunOf (s : State) (slot l : Nat) : Lun := Tab.look Lun.reset s.luns (16 * slot + l)
def putLun (slot l : Nat) (u : Lun) (s : State) : State := { s with luns := Tab.put Lun.reset s.luns (16 * slot + l) u }
/-- Another member's DRUM record lists a slot's grove. -/
def listedFar (s : State) (slot m n : Nat) : Bool :=
  match s.stream, groveOf s slot with
  | some t, some g => t.recs.any (fun r => r.ty = 8 && r.member = m && r.u8 0 = n && (listed r).contains g)
  | _, _ => false
/-- The drums of a slot's logical units, in ascending member and drum number (R266, R508): the member, where it is another
one, and the drum. -/
def lunDrums (s : State) (slot : Nat) : List (Option Nat × Nat) :=
  (List.range 8).flatMap (fun m => (List.range 2).filterMap (fun n =>
    if m = ownMember s then (if hasDrum s n && listedOnDrum s slot n then some (none, n) else none)
    else if listedFar s slot m n then some (some m, n) else none))
/-- What a logical unit sees of its drum. Of another member's drum the spec gives the root no reading of its disc state,
addresses and identity record: free values (log entry 172). -/
def lunView (s : State) (u : Lun) : State :=
  match u.far with
  | none => s
  | some m =>
    let v := s.freeVal
    let s1 := (((s.wr R.CANOPY_MEMBER.NUMBER m).wr (R.STK_DISC.STATE u.drum) (v 0)).wr (R.STK_DISC.KIND u.drum) (v 1)).wr (R.STK_DISC.GEN u.drum) (v 2)
    let s2 := ((s1.wr (R.STK_END.ADDRESS u.drum) (v 3)).wr (R.STK_START.ADDRESS u.drum) (v 4)).wr (R.AUD_STATUS.PLAYING 0) (v 5)
    putDrum u.drum { Drum.reset with ident := (List.range 32).map (fun i => v (8 + i) % 256), lastRead := v 6 % 2 ^ 32 }
      { (s2.wr (R.AUD_STATUS.PLAYING 1) (v 7)).drew 40 with keeping := [], deferred := [] }
/-- Free values a view draws. -/
def viewDraws (u : Lun) : Nat := if u.far.isSome then 40 else 0

/-- A sense code: key, ASC, ASCQ. -/
def senseKcq (k asc ascq : Nat) : Nat := 65536 * k + 256 * asc + ascq
/-- Table 21-7 for the strokes of a command: the tally's status and source, the disc state, and tray rights. -/
def senseOf (s : State) (slot n op status source : Nat) : Nat :=
  let d := s.rd (R.STK_DISC.STATE n)
  if status = 0 then 0
  else if status = 5 then senseKcq 0x0B 0 0
  else if status = 4 then (if op = 0x1B && !trayRights s slot n then senseKcq 5 0x53 2 else senseKcq 5 0x24 0)
  else if d = 0 then senseKcq 2 0x3A 2
  else if d = 1 then senseKcq 2 4 1
  else if d = 3 || source = drumSrc n 22 then senseKcq 2 0x30 0
  else if source = drumSrc n 20 then senseKcq 3 0x11 0
  else if source = drumSrc n 21 then senseKcq 3 2 0
  else if source = drumSrc n 0 then senseKcq 4 9 2
  else if source = drumSrc n 1 then senseKcq 4 9 1
  else senseKcq 4 0x44 0
/-- The sense of a command that needs a disc and issues no stroke. -/
def discSense (s : State) (n : Nat) : Nat :=
  match s.rd (R.STK_DISC.STATE n) with
  | 0 => senseKcq 2 0x3A 2
  | 1 => senseKcq 2 4 1
  | 3 => senseKcq 2 0x30 0
  | _ => if drumPruned s n then senseKcq 4 0x44 0 else 0

/-- A stroke descriptor (Table 21-1). -/
def strokeBytes (workId op address count arg : Nat) : List Nat :=
  leBytes 4 workId ++ [op, 0, 0, 0] ++ leBytes 4 address ++ leBytes 4 count ++ List.replicate 8 0 ++ leBytes 4 arg
    ++ List.replicate 4 0
/-- The I²S outputs a slot's grove owns that a drum feeds. -/
def audioOf (s : State) (slot n : Nat) : List Nat :=
  (List.range 2).filter (fun o => ownsAudio s slot o && ((audioRec s o).map (·.u8 2)).getD 2 = n)
/-- The rights check of R430: R49, R50 and the output of a PLAY_AUDIO. -/
def strokeRights (s : State) (slot n op arg : Nat) : Bool :=
  listedOnDrum s slot n && (op != 7 || trayRights s slot n) && (op != 4 || (audioOf s slot n).contains (arg % 2))

/-- The source that ends work on a drum at once: of its prune (R207), or of the identity bus that holds it (R193). -/
def deadDrum (s : State) (n : Nat) : Option Nat :=
  if drumPruned s n then some (pruneSource s (0x3000 + n))
  else if bit (s.rd R.IDB_HOLD.DRUMS) n then
    let a := ((List.range 8).find? (fun a => s.isSet (R.IDB_SLOT.HOLD n a))).getD 0
    some (if s.rd (R.IDB_SLOT.OUTCOME n a) = 4 then 209 + 2 * n else 208 + 2 * n)
  else none

/-- Append a stroke that has passed its checks; on a dead drum it ends NOT_STARTED at once. -/
def admitStroke (n : Nat) (x : Stroke) (s : State) : State :=
  match deadDrum s n with
  | some src => finishStroke n x false false src s
  | none => syncHeld n x.slot (putStrokes n ((drumSt s n).strokes ++ [x]) s)
/-- The disc function issues a stroke (R443). -/
def issueLun (slot l op address count arg : Nat) (s : State) : State :=
  let u := lunOf s slot l
  let x := freshStroke slot (strokeBytes (0xFFFFE000 + 256 * l + u.seq) op address count arg) (some l) none
  let s1 := activity (putLun slot l { u with seq := (u.seq + 1) % 256, pending := u.pending + 1 } s)
  match u.far with
  | some m =>
    let r := strokeRequest s1 slot m u.drum x.bytes (some l)
    let s2 := countId s1
    if s2.rd R.STACK_SELF.STATE = 4 then
      let t := remoteTally s1 r 2 376
      noteLunEnd slot l x.address t (postTally s2 12 slot t)
    else { s2 with requests := s2.requests ++ [r] }
  | none =>
    if strokeRights s slot u.drum op arg then admitStroke u.drum x s1
    else finishStroke u.drum x true false 0 s1
/-- An IDENTIFY is pending on a logical unit's drum. -/
def identifies (s : State) (u : Lun) : Bool :=
  match u.far with
  | some m => s.requests.any (fun r => r.dest = m && r.drum = u.drum && byteAt r.bytes 4 = 8)
  | none => (drumSt s u.drum).strokes.any (fun x => x.op = 8)

/-- What a SCSI command begins with. -/
inductive Begin where
  /-- the answer: status good with data -/
  | good (data : List Nat)
  | fail (sense : Nat)
  | stroke (op address count arg : Nat)
  /-- reads of a block address, count and FORM -/
  | reads (lba count form : Nat)
deriving DecidableEq, Repr

/-- The disc's KIND is DVD (Table 21-4). -/
def isDvd (s : State) (n : Nat) : Bool := s.rd (R.STK_DISC.KIND n) ≥ 4
/-- Last sector number of layer 0 of an identified disc. -/
def layer0End (s : State) (n : Nat) : Nat := word (drumSt s n).ident 12
/-- ADDRESS of a logical block, and how many blocks follow on from it in address order (R443): a dual-layer disc of
opposite track path numbers its second layer from the 24-bit complement of layer 0's last sector (PRESUMED: ECMA-267). -/
def lbaAddress (s : State) (n lba : Nat) : Nat × Nat :=
  if !isDvd s n then (lba, 0xFFFF)
  else
    let a := lba + 0x30000
    if s.rd (R.STK_DISC.KIND n) = 6 && layer0End s n != 0 then
      if a ≤ layer0End s n then (a, layer0End s n + 1 - a)
      else ((0xFFFFFF - layer0End s n) + (a - layer0End s n - 1), 0xFFFF)
    else (a, 0xFFFF)
/-- The logical block of an ADDRESS, the inverse of lbaAddress (R443, R445). -/
def addressLba (s : State) (n a : Nat) : Nat :=
  if !isDvd s n then a
  else if s.rd (R.STK_DISC.KIND n) = 6 && layer0End s n != 0 && 0xFFFFFF - layer0End s n ≤ a then
    layer0End s n + 1 + (a - (0xFFFFFF - layer0End s n)) - 0x30000
  else a - 0x30000
/-- Capacity in blocks: END − START. -/
def discBlocks (s : State) (n : Nat) : Nat := s.rd (R.STK_END.ADDRESS n) - s.rd (R.STK_START.ADDRESS n)
def freeBytes (s : State) (k : Nat) : List Nat := (List.range k).map (fun i => s.freeVal i % 256)

/-- Fixed-format sense data, 18 bytes (R444; PRESUMED layout: SPC). -/
def senseData (u : Lun) : List Nat :=
  [if u.info = 0 then 0x70 else 0xF0, 0, u.sense / 65536] ++ beBytes 4 u.info ++ [10, 0, 0, 0, 0, u.sense / 256 % 256, u.sense % 256, 0, 0, 0, 0]
/-- The 12 bytes of a mode page, free values but that bit 1 of byte 6 of page 0x2A, the lock state, reports PREVENT (R444; layout
PRESUMED: MMC). -/
def modePage (s : State) (u : Lun) (page : Nat) : List Nat :=
  let free := freeBytes s 10
  [page, 10] ++ (if page = 0x2A then free.set 4 (free.getD 4 0 / 4 * 4 + free.getD 4 0 % 2 + 2 * b2n u.prevent) else free)
/-- LBA and length of a CDB of 10 and of 12 bytes. -/
def cdbLba (b : List Nat) : Nat := beVal ((b.drop 2).take 4)
def cdbLen10 (b : List Nat) : Nat := beVal ((b.drop 7).take 2)
def cdbLen12 (b : List Nat) : Nat := beVal ((b.drop 6).take 4)
/-- The block address of an MSF triple. -/
def msfLba (b : List Nat) : Nat := (byteAt b 0 * 60 + byteAt b 1) * 75 + byteAt b 2 - 150

/-- The first action of a command (Table 21-6). -/
def beginScsi (s : State) (slot n : Nat) (u : Lun) (b : List Nat) : Begin :=
  let bad := Begin.fail (senseKcq 5 0x24 0)
  let needs (g : Begin) : Begin := if discSense s n = 0 then g else .fail (discSense s n)
  match byteAt b 0 with
  | 0x00 => needs (.good [])
  | 0x03 => .good ((senseData u).take (byteAt b 4))
  | 0x12 =>
    if bit (byteAt b 1) 0 then (if byteAt b 2 = 0 then .good [0x05, 0, 0, 1, 0] else bad)
    else .good (([0x05, 0x80] ++ freeBytes s 34).take (beVal ((b.drop 3).take 2)))
  | 0x1B =>
    if bit (byteAt b 4) 1 then .stroke 7 0 1 (byteAt b 4 % 2)
    else .stroke 6 0 1 (if bit (byteAt b 4) 0 then 65535 else 0)
  | 0x1E => .good []
  | 0x25 => needs (.good (beBytes 4 (discBlocks s n - 1) ++ beBytes 4 2048))
  | 0x28 => .reads (cdbLba b) (cdbLen10 b) 0
  | 0xA8 => .reads (cdbLba b) (cdbLen12 b) 0
  | 0xBE =>
    if byteAt b 10 % 8 != 0 then bad
    else if byteAt b 9 = 0xF8 then .reads (cdbLba b) (beVal ((b.drop 6).take 3)) 2
    else if byteAt b 9 = 0x10 then .reads (cdbLba b) (beVal ((b.drop 6).take 3)) (if byteAt b 1 / 4 % 8 = 5 then 1 else 0)
    else bad
  | 0x2B => .stroke 5 (lbaAddress s n (cdbLba b)).1 1 0
  | 0x42 =>
    if byteAt b 3 != 1 then bad
    else
      let playing := (audioOf s slot n).find? (fun o => s.isSet (R.AUD_STATUS.PLAYING o))
      .stroke 3 (match playing with | some o => s.rd (R.AUD_POS.ADDRESS o) | none => (drumSt s n).lastRead) 1 0
  | 0x43 => if byteAt b 2 % 16 ≤ 1 then .stroke 2 0 1 0 else bad
  | 0x45 =>
    match audioOf s slot n with
    | o :: _ => if cdbLen10 b = 0 then .good [] else .stroke 4 (cdbLba b) (cdbLen10 b) o
    | [] => bad
  | 0x47 =>
    match audioOf s slot n with
    | o :: _ =>
      let a := msfLba (b.drop 3)
      let e := msfLba (b.drop 6)
      if e ≤ a then (if e = a then .good [] else bad) else .stroke 4 a (e - a) o
    | [] => bad
  | 0x46 =>
    let cur := match s.rd (R.STK_DISC.KIND n) with | 0 => 0 | k => if k ≥ 4 then 0x10 else 8
    let feats : List Nat := [0, 1, 2, 3, 0x1E, 0x1F]
    let body := beBytes 2 0 ++ beBytes 2 cur
      ++ ([0, 0, 3, 8, 0, 0x10, b2n (cur = 0x10), 0, 0, 8, b2n (cur = 8), 0] : List Nat)
      ++ ((feats.filter (fun f => f != 0)).flatMap (fun f => beBytes 2 f ++ freeBytes s 2))
    .good ((beBytes 4 body.length ++ body).take (cdbLen10 b))
  | 0x4A =>
    if bit (byteAt b 1) 0 then
      let d := s.rd (R.STK_DISC.STATE n)
      .good (([0, 6, 4, 0x10, s.freeVal 0 % 16, if d = 0 then 1 else 2, 0, 0] : List Nat).take (cdbLen10 b))
    else bad
  | 0x5A =>
    if byteAt b 2 % 64 = 0x01 || byteAt b 2 % 64 = 0x2A then
      .good ((beBytes 2 18 ++ List.replicate 6 0 ++ modePage s u (byteAt b 2 % 64)).take (cdbLen10 b))
    else bad
  | 0xAD =>
    if byteAt b 7 != 0 then bad
    else needs (if isDvd s n then .good (([0, 18, 0, 0, byteAt (drumSt s n).ident 16] ++ freeBytes s 15).take (beVal ((b.drop 8).take 2)))
      else bad)
  | _ => .fail (senseKcq 5 0x20 0)

/-- Free values a command's answer draws. -/
def scsiDraws (b : List Nat) : Nat :=
  match byteAt b 0 with | 0x12 => 34 | 0x46 => 2 | 0x4A => 1 | 0x5A => 10 | 0xAD => 15 | _ => 0

/-- Answer the first command of a logical unit and take it off its list. -/
def answerScsi (slot l sense info : Nat) (data : List Nat) (s : State) : State :=
  let u := lunOf s slot l
  match u.cmds with
  | c :: rest =>
    let keep := byteAt c.cdb 0 = 0x03
    let s1 := putLun slot l { u with cmds := rest, begun := false, pending := 0, toIssue := none, bad := none
                                     sense := if keep then 0 else sense, info := if keep then 0 else info, silent := false } s
    if u.silent then putLun slot l { lunOf s1 slot l with sense := 0, info := 0 } s1
    else (if data = [] then s1 else s1.emit (.usb slot data)).emit (.scsi slot l c.tag (if sense = 0 then 0 else 2))
  | [] => s

/-- Begin the first command: the unit attention of a new disc first (R445). -/
def beginFirst (slot l : Nat) (c : Scsi) (s : State) : State :=
  let u := lunOf s slot l
  let n := u.drum
  let v := lunView s u
  let gen := v.rd (R.STK_DISC.GEN n)
  let op := byteAt c.cdb 0
  if gen != u.gen && op != 0x12 && op != 0x03 then
    answerScsi slot l (senseKcq 6 0x28 0) 0 [] (putLun slot l { u with gen := gen } s)
  else
    match beginScsi v slot n u c.cdb with
    | .good data =>
      let s1 := if op = 0x1E then putLun slot l { u with prevent := bit (byteAt c.cdb 4) 0 } s else s
      answerScsi slot l 0 0 data (s1.drew (scsiDraws c.cdb + viewDraws u))
    | .fail e =>
      let s := s.drew (viewDraws u)
      let s1 := if op = 0 && v.rd (R.STK_DISC.STATE n) = 1 && !identifies s u then
          let u1 := lunOf s slot l
          let s2 := issueLun slot l 8 0 1 65535 s
          putLun slot l { u1 with seq := (u1.seq + 1) % 256 } s2
        else s
      answerScsi slot l e 0 [] s1
    | .stroke o a k g => issueLun slot l o a k g (putLun slot l { u with begun := true } (s.drew (viewDraws u)))
    | .reads a k f =>
      if k = 0 then answerScsi slot l 0 0 [] s
      else putLun slot l { u with begun := true, toIssue := some (a, k, f) } s

/-- Go on with a logical unit: begin its first command, issue its next read while fewer than 256 strokes are pending, or
answer it once its strokes have ended (R443, R445). -/
def settleLun : Nat → Nat → Nat → State → State
  | 0, _, _, s => s
  | fuel + 1, slot, l, s =>
    let u := lunOf s slot l
    match u.cmds with
    | [] => s
    | c :: _ =>
      if !u.begun then settleLun fuel slot l (beginFirst slot l c s)
      else
        match u.toIssue, u.pending with
        | some (a, k, f), p =>
          if p ≥ 256 then s
          else
            let m := lbaAddress (lunView s u) u.drum a
            let take := min k (min m.2 65535)
            let s1 := putLun slot l { u with toIssue := if take < k then some (a + take, k - take, f) else none } s
            settleLun fuel slot l (issueLun slot l 1 m.1 take f s1)
        | none, 0 =>
          match u.bad with
          | none => settleLun fuel slot l (answerScsi slot l 0 0 [] s)
          | some (st, src, at_) =>
            let v := lunView s u
            settleLun fuel slot l (answerScsi slot l (senseOf v slot u.drum (byteAt c.cdb 0) st src) (addressLba v u.drum at_) [] s)
        | none, _ => s

/-- End the first stroke of a slot, and go on with the logical unit that issued it. -/
def endStroke (n slot : Nat) (refused cancelled : Bool) (source : Nat) (s : State) : State :=
  let l := ((drumSt s n).strokes.find? (fun x => x.slot = slot)).bind (·.lun)
  let s1 := dropStroke n slot refused cancelled source s
  match l with
  | some k => settleLun 600 slot k s1
  | none => s1
/-- The unit under way fails and ends the first stroke of a slot (R213). -/
def failStroke (n slot src : Nat) (s : State) : State :=
  endStroke n slot false false src
    (putStrokes n (mapFirst slot (fun x => { x with failed := some (x.failed.getD x.next)
                                                    source := if x.source = 0 then src else x.source }) (drumSt s n).strokes) s)
/-- End every stroke of a drum. -/
def endAllStrokes (n source : Nat) : Nat → State → State
  | 0, s => s
  | fuel + 1, s =>
    match (drumSt s n).strokes with
    | x :: _ => endAllStrokes n source fuel (endStroke n x.slot false false source s)
    | [] => s
/-- The drum leaves service: its strokes end naming the source, at once but for units whose data another member has yet to
acknowledge, which complete first (R18, R207, R213). -/
def pruneStrokes (n source : Nat) (s : State) : State :=
  let l := (drumSt s n).strokes
  let t := endAllStrokes n source 1024 (putStrokes n ((l.filter (fun x => !x.acks)).map (Stroke.cutBy source)) s)
  syncNow n (putStrokes n ((l.filter Stroke.acks).map (fun x => { x.cutBy source with ending := 2 }) ++ (drumSt t n).strokes) t)

end Sys2Proof.Machine
end

