-- ==== Sys2Proof/Machine/Graft.lean ====
section
/-! DEFINITION. GRAFT frames: the stack secret, the keys derived from it, and the frames of Table 24-2 that a member sends. -/
namespace Sys2Proof.Machine

/-- HKDF over SHA-256 with a 32-byte output (R498). -/
def hkdf (salt ikm info : List Nat) : List Nat := hmac (hmac salt ikm) (info ++ [1])
def graftKey (secret : List Nat) : List Nat :=
  hkdf (List.replicate 32 0) secret [0x50, 0x4C, 0x59, 0x2D, 0x47, 0x52, 0x41, 0x46, 0x54]
/-- The stack secret that the keeping store holds (Table 24-1), when MAGIC and CRC hold. -/
def secretValid (s : State) : Bool :=
  keepBytes s 0x7000 4 = [0x50, 0x4C, 0x59, 0x53] && leVal (keepBytes s 0x7028 4) = crc32 (keepBytes s 0x7000 0x28)
def secretOf (s : State) : List Nat := keepBytes s 0x7008 32


/-- The loaded stream's digest. -/
def ownDigest (s : State) : List Nat := match s.stream with | some t => t.digest.take 32 | none => List.replicate 32 0
/-- STACK_COMPAT of the running firmware image (Table 08-3). -/
def firmwareCompat (s : State) : Nat := leVal (flashBytes s (0x1000 * s.rd R.HW_STATUS.SLOT + 0x18) 2)
/-- STACK_COMPAT of the loaded stream's STACK record (Table 02-6). -/
def streamCompat (s : State) : Nat := match stackRec s with | some r => r.u16 2 | none => 0

/-- Send a GRAFT frame on a port, in the clear with its GMAC (R485, R499). -/
def emitGraft (p : Nat) (body : List Nat) (s : State) : State :=
  let x := trunkPort s p
  let dst := if s.isSet (R.PORT_STATUS.PEER_VALID p) then s.rd (R.PORT_STATUS.PEER p) else 0
  let f := frameOf 5 0 (ownMember s) dst 0 0 0 body
  let m := f.take 8 ++ leBytes 8 x.graftFc ++ f.drop 16
  let nonce := [ownMember s, p, 0, 0] ++ beBytes 8 x.graftFc
  if secretValid s && !engineFailed s then
    (putTrunk p { x with graftFc := x.graftFc + 1 } s).emit (.frame p (m ++ gcmTag (graftKey (secretOf s)) nonce m []))
  else s
/-- Flood a GRAFT body on every keyed port but one. -/
def flood (but : Option Nat) (body : List Nat) (s : State) : State :=
  (List.range 4).foldl (fun t p => if portState t p = 3 && some p != but then emitGraft p body t else t) s

/-- HELLO (Table 24-2). -/
def sendHello (p : Nat) (s : State) : State :=
  let x := trunkPort s p
  emitGraft p ([1, 0, 0, 0] ++ ownDigest s ++ leBytes 2 (firmwareCompat s) ++ [ownMember s, p] ++ leBytes 4 s.stack.startId
    ++ x.nonce ++ (if x.peerNonce = [] then List.replicate 32 0 else x.peerNonce)) s
/-- LINKS: flooded at each change of the keyed ports and every 100 ms. -/
def sendLinks (s : State) : State :=
  if !stacked s then s
  else
    let n := (s.stack.seqL + 1) % 65536
    flood none ([2, 0, 0, 0, ownMember s, 0] ++ leBytes 2 n ++ ownLinks s) (putStack { s.stack with seqL := n } s)
/-- JOIN. -/
def sendJoin (s : State) : State :=
  let n := (s.stack.seqJ + 1) % 65536
  flood none ([3, 0, 0, 0, ownMember s, 0] ++ leBytes 2 n ++ ownDigest s ++ leBytes 2 (firmwareCompat s) ++ leBytes 4 s.stack.startId)
    (putStack { s.stack with seqJ := n } s)
/-- ANNOUNCE. -/
def sendAnnounce (s : State) : State :=
  let n := (s.stack.seqA + 1) % 65536
  flood none ([4, 0, 0, 0, ownMember s, 0] ++ leBytes 2 n ++ ownDigest s
      ++ [s.rd R.STACK_MEMBERS.GRAFTED, s.rd R.STACK_MEMBERS.QUARANTINED, s.rd R.STACK_MEMBERS.EXPELLED, 0] ++ leBytes 4 s.stack.startId)
    (putStack { s.stack with seqA := n } s)

end Sys2Proof.Machine
end

