-- ==== Sys2Proof/Machine/Outage.lean ====
section
/-! DEFINITION. Taking a channel out of service (Table 10-7). -/
namespace Sys2Proof.Machine
/-- A tile: VBUS off, terminations removed; an UP tile keeps Rd, a DOWN tile leaves CC open. Taproot's work behind it ends
naming the source (R207, R299). DESIGN CHOICE: an UP tile that is held down keeps its Rd, as R186 has an UP tile before ready
(log 215); R226 says CC open. -/
def tileOut (t src : Nat) (s : State) : State :=
  let s1 := if tileRole s t = 2 then (pathFollows t false s).wr (R.TC_STATUS.PRESENT t) 0 else endContract t s
  let s2 := match slotOfUpTile s1 t with | some slot => upGone slot t 0 s1 | none => s1
  let s3 := setLink t 0 (portDisconnect t (s2.off (R.TILE_STATUS.READY t)))
  unitRequestAll false (tileDomains t) (match portOfTile s3 t with
    | some (slot, k) => if isTaprootHub s3 slot then endRoot slot k src s3 else s3
    | none => s3)
/-- A stroke whose data path is lost: the first unit not done fails with SOURCE 364 (R514). -/
def pathLost (x : Stroke) : Stroke :=
  { x with failed := some (x.failed.getD (x.awaiting.foldl min x.next)), source := 364 }
/-- End the strokes of a drum whose issuer's data path lay through a port (R514). -/
def endThrough (n p : Nat) : Nat → State → State
  | 0, s => s
  | fuel + 1, s =>
    match (drumSt s n).strokes.find? (fun x => match x.request with | some (m, _) => routeTo s m = some p | none => false) with
    | some x => endThrough n p fuel (endStroke n x.slot false false 364
        (putStrokes n (mapFirst x.slot pathLost (drumSt s n).strokes) s))
    | none => s
/-- INDETERMINATE tallies of the requests outstanding through a port (R214, R487). -/
def loseRequests (p : Nat) (s : State) : State :=
  s.requests.foldl (fun t x =>
      if x.port = some p && !x.lost && !x.cancelled then postTally t 12 x.slot (remoteTally t x 3 364) else t)
    { s with requests := s.requests.map (fun x => if x.port = some p then { x with lost := true, got := [] } else x) }
/-- A link loss, but for its occurrence of TRUNK_PORT_DOWN (R487): the port's keys, buffers and counts go, and requests
through it end; it trains afresh, or is OFF at width 0. -/
def linkLossState (p : Nat) (s : State) : State :=
  let s1 := endThrough 1 p 2048 (endThrough 0 p 2048 (loseRequests p
    ((s.wr (R.PORT_STATUS.STATE p) 1).bump (R.PORT_COUNTS_B.LINK_LOSSES p) 1)))
  let s2 := (putTrunk p TrunkPort.reset s1).rstAll
    [R.PORT_STATUS.EPOCH p, R.PORT_STATUS.PEER p, R.PORT_STATUS.PEER_VALID p, R.PORT_SEQ.TX_OLDEST p, R.PORT_SEQ.TX_NEXT p,
      R.PORT_RX.EXPECTED p, R.PORT_FC_LO.FC p, R.PORT_FC_HI.FC p]
  let s3 := setRoutes (setPort p (if portWidth s2 p = 0 then 0 else 1) s2)
  if portKeyed s p then sendLinks s3 else s3
/-- Column Lane lost of Table 23-8. -/
def laneLost (p : Nat) (s : State) : State :=
  let first := fun t => putTrunk p { trunkPort t p with step := 0 } t
  match portState s p with
  | 1 => setPort p 1 (first s)
  | 2 => setPort p 1 (putTrunk p TrunkPort.reset s)
  | 3 => setPort p 4 (first s)
  | 4 => setPort p 4 (first s)
  | _ => syncTrunk s
/-- A lane leaves or joins a port's width (R472, R488): no lane left is a link loss, a changed width a lost lane. -/
def widthChanges (p was : Nat) (s : State) : State :=
  let st := portState s p
  if st = 0 || st = 6 then syncTrunk s
  else if portWidth s p = 0 then linkLossState p s
  else if portWidth s p != was then laneLost p s
  else syncTrunk s
/-- A lane: electrical idle; its port retrains at the width left (R492). -/
def laneOut (l _src : Nat) (s : State) : State :=
  match portOfLane s l with
  | some p => unitRequest false (111 + l) (widthChanges p (portWidth s p) (putLane l Lane.reset (s.wr (R.TRUNK_LANE.STATE l) 6)))
  | none => s
/-- A spindle of a drum that is pruned (column Prune of Table 18-2). -/
def pruneSpin (n : Nat) (s : State) : State :=
  match spinState s n with
  | 1 => enterSpin n 6 s
  | 2 => enterSpin n 0 s
  | 3 => enterSpin n 0 s
  | 4 => enterSpin n 6 s
  | 5 => enterSpin n 6 s
  | _ => s
/-- A drum: lasers off, coils, sled and tray undriven, the spindle braked; its strokes end naming the source, and its
domains fall once the spindle is at rest (Table 21-3 for the disc state). -/
def drumOut (n src : Nat) (s : State) : State :=
  let d := s.rd (R.STK_DISC.STATE n)
  let s1 := cutTray n (cutSled n (laserOff n s))
  let s2 := if d ≥ 2 then setDisc n 1 s1 else s1
  dropPruned n (pruneStrokes n src (pruneSpin n s2))
/-- A voice: it stops at the end of its period (R366), which the frame carries out; a swap of it that is pending is
dropped with CODE PRUNED (Table 17-8), and without its speed voice the spindle brakes (R382). -/
def voiceOut (n v _src : Nat) (s : State) : State :=
  let d := drumSt s n
  let s1 := if d.cmds.any (fun c => c.voice = v && c.op = 2) then
      (putDrum n { d with cmds := d.cmds.filter (fun c => !(c.voice = v && c.op = 2)), resync := true } s).wr (R.DH_LOAD_STATUS.CODE n) 6
    else s
  let drives := match voiceOf s1 n v with | some x => x.dests.contains 4 | none => false
  let other := (loadedVoices s1 n).any (fun e => e.1 != v && e.2.dests.contains 4)
  if drives && !other && (spinState s1 n = 4 || spinState s1 n = 5) then (enterSpin n 6 s1).on (R.SPIN_STATUS.NO_VOICE n) else s1
/-- A UART: its output idles and received characters are discarded; its domain falls. -/
def uartOut (u _src : Nat) (s : State) : State :=
  unitRequest false (87 + u) ((putUart u { uartOf s u with sending := none, own := none } s).rstAll [R.UART_STATUS.RX_BUSY u, R.UART_STATUS.TX_BUSY u])
/-- The cycles that a burst under way has made when something outside ends it: as many as a free value says, the current one
complete (R256). Bytes towards the host count in MOVED; bytes from it were only staged. -/
def breakBurst (p : Nat) (s : State) : State :=
  let x := rbpSt s p
  if x.dma != 2 then s
  else
    let bs := x.staged.take ((s.freeVal 0 % (x.cycles + 1)) * (if width16 s p then 2 else 1))
    let moved := s.rd (R.DMA_STATUS.MOVED p)
    if x.job.dir then s.drew 1
    else ((busCycles p true (x.job.host + moved) bs (none, s.drew 1)).2).wr (R.DMA_STATUS.MOVED p) (moved + bs.length)
/-- A Retro Bus Port: the strap responder answers, DMA released, unissued entries discarded (R257). -/
def rbpOut (p _src : Nat) (s : State) : State :=
  let s1 := s.off (R.RBP_CFG.SERVING p)
  let s2 := if s1.rd (R.DMA_STATUS.STATE p) = 1 then ((breakBurst p s1).wr (R.DMA_STATUS.STATE p) 6).emit (.busRequest p false) else s1
  unitRequest false (85 + p) (putRbp p { rbpSt s2 p with issues := [], waiting := none, dma := 0, toServe := false } s2)
/-- A failure of CK_PORT (Table 06-2): every tile drops its USB connection and presents no termination. -/
def portClockLost (s : State) : State :=
  (List.range 14).foldl (fun t i =>
    match tileRole t i with
    | 1 => match slotOfUpTile t i with | some slot => upGone slot i 0 t | none => setLink i 0 t
    | 2 => portDisconnect i t
    | _ => t) s
end Sys2Proof.Machine
end

