-- ==== Sys2Proof/Machine/Flags.lean ====
section
/-! DEFINITION. Flag computations: the fault collector: occurrence, promotion, pruning, clearing (chapter 10). -/
namespace Sys2Proof.Machine

/-- The unit a source number belongs to. -/
inductive SrcGroup where
  | clock (k : Nat)
  | boot (k : Nat)
  | mem (k : Nat)
  | seal (k : Nat)
  | tile (t k : Nat)
  | hub (k : Nat)
  | rbp (p k : Nat)
  | uart (u k : Nat)
  | idb (b k : Nat)
  | drum (n k : Nat)
  | lane (l k : Nat)
  | trunk (k : Nat)
  | stack (k : Nat)
  | none
deriving DecidableEq, Repr

/-- The source number table (R200). -/
def srcGroup (c : Nat) : SrcGroup :=
  if c < 16 then .clock c
  else if c < 32 then .boot (c - 16)
  else if c < 40 then .mem (c - 32)
  else if c < 48 then .seal (c - 40)
  else if c < 160 then .tile ((c - 48) / 8) ((c - 48) % 8)
  else if c < 176 then .hub (c - 160)
  else if c < 192 then .rbp ((c - 176) / 8) ((c - 176) % 8)
  else if c < 208 then .uart ((c - 192) / 4) ((c - 192) % 4)
  else if c < 216 then .idb ((c - 208) / 2) ((c - 208) % 2)
  else if c < 344 then .drum ((c - 216) / 64) ((c - 216) % 64)
  else if c < 360 then .lane ((c - 344) / 4) ((c - 344) % 4)
  else if c < 376 then .trunk (c - 360)
  else if c < 400 then .stack (c - 376)
  else .none

/-- Whether a source can set on this part (R199): it is assigned, its unit is present (R2, R552), and a lane is in use (R492). -/
def srcLives (s : State) (c : Nat) : Bool :=
  match srcGroup c with
  | .clock k =>
    if k = 3 || k = 9 then hasDrum s 0 else if k = 4 || k = 10 then hasDrum s 1 else if k = 6 then hasTrunk s else k ≤ 11
  | .boot k => k != 14
  | .mem _ => true
  | .seal k => hasSeal s && (k != 6 || hasTrunk s)
  | .tile _ _ => true
  | .hub k => k ≤ 5
  | .rbp p k => hasRbp s p && k ≤ 5
  | .uart _ _ => true
  | .idb _ _ => true
  | .drum n k => hasDrum s n && k ≤ 37
  | .lane l _ => hasTrunk s && laneInUse s l
  | .trunk k => hasTrunk s && k ≤ 5
  | .stack k => k ≤ 5
  | .none => false

/-- Level sources (R198). -/
def srcLevel (c : Nat) : Bool :=
  match srcGroup c with
  | .clock k => k = 0 || k = 1 || (8 ≤ k && k ≤ 10)
  | .boot k => k = 3 || k = 12 || k = 13 || k = 15
  | .mem k => k = 0
  | .seal k => k = 4 || k = 6
  | .tile _ k => k = 0
  | .rbp _ k => k = 5
  | .uart _ k => k = 3
  | .drum _ k => k = 5 || k = 15 || k = 16 || k = 34
  | .stack k => k = 0 || k = 5
  | _ => false

/-- Sources permanent by default. -/
def srcPermanent (c : Nat) : Bool :=
  match srcGroup c with
  | .clock k => k = 1
  | .boot k => k = 0 || k = 1 || k = 3 || k = 6 || k = 12 || k = 13
  | .mem k => k = 0
  | .seal k => k = 4 || k = 6
  | .tile _ k => k = 7
  | .hub k => k = 2
  | .rbp _ k => k = 5
  | .idb _ _ => true
  | .drum _ k => k = 3 || k = 5 || k = 8 || k = 9 || k = 15 || k = 16 || k = 33
  | .trunk k => k = 3
  | .stack k => k = 0 || k = 5
  | _ => false

/-- Default retry budgets. -/
def srcRetry (c : Nat) : Nat :=
  match srcGroup c with
  | .clock k => if 2 ≤ k ∧ k ≤ 7 then 3 else 0
  | .tile _ k => if k = 5 then 2 else if k = 6 then 3 else 0
  | .hub k => if k = 3 then 3 else 0
  | .rbp _ k => if k = 2 then 2 else 0
  | .drum _ k => if k = 0 ∨ k = 1 ∨ k = 14 ∨ k = 21 then 2 else if k = 6 then 3 else if k = 10 ∨ k = 17 then 1 else 0
  | .lane _ k => if k = 0 then 3 else 0
  | _ => 0

/-- The channel codes that a permanent occurrence or a promotion of a source prunes (Tables 06-6, 10-1 to 10-4). -/
def srcPrunes (c : Nat) : List Nat :=
  match srcGroup c with
  | .clock k => if k = 3 ∨ k = 9 then [0x3000] else if k = 4 ∨ k = 10 then [0x3001] else if k = 6 then [0x2000, 0x2001, 0x2002, 0x2003] else []
  | .tile t k => if k ≤ 2 ∨ k = 6 ∨ k = 7 then [0x1000 + t] else []
  | .rbp p k => if k = 0 ∨ k = 2 ∨ k = 3 ∨ k = 5 then [0x6000 + p] else []
  | .uart u k => if k = 3 then [0x5000 + u] else []
  | .drum n k =>
    if 24 ≤ k ∧ k ≤ 31 then [0x4000 + 8 * n + (k - 24)]
    else if k ≤ 1 ∨ (3 ≤ k ∧ k ≤ 9) ∨ k = 15 ∨ k = 33 ∨ k = 34 ∨ k = 35 then [0x3000 + n] else []
  | .lane l k => if k ≤ 2 then [0x2000 + l] else []
  | _ => []

/-- A source's policy (R201). -/
structure Policy where
  permanent : Bool
  retry : Nat
  backoff : Nat
  exitClear : Bool
  threshold : Nat
  window : Nat
  quiet : Nat
deriving DecidableEq, Repr

/-- Default policy (Table 10-5). -/
def defaultPolicy (c : Nat) : Policy :=
  if srcPermanent c then ⟨true, srcRetry c, 32, true, 1, 32768, 0⟩
  else ⟨false, srcRetry c, 32, c = 31, 8, 32768, 32768⟩

/-- The policy in force: the FAULT record of a configured Olulo, or the default (R201). -/
def policyOf (s : State) (c : Nat) : Policy :=
  match faultRec s c with
  | some r => ⟨r.u8 2 = 1, r.u8 3, r.u8 4, r.u8 5 = 1, r.u16 6, r.u32 8, r.u32 12⟩
  | none => defaultPolicy c

def isSticky (s : State) (c : Nat) : Bool := s.isSet (R.FAULT_STICKY.BIT c)
def isPromoted (s : State) (c : Nat) : Bool := s.isSet (R.FAULT_PROMOTED.BIT c)
/-- A source that acts as permanent: by its class or by promotion (R203). -/
def actsPermanent (s : State) (c : Nat) : Bool := (policyOf s c).permanent || isPromoted s c

/-- The groups of FAULT_SUMMARY (Table 10-8): first and last source. -/
def groupRange (b : Nat) : Nat × Nat :=
  ([(0, 15), (16, 31), (32, 47), (48, 159), (160, 175), (176, 191), (192, 207), (208, 215), (216, 279), (280, 343),
    (344, 375), (376, 399)] : List (Nat × Nat)).getD b (512, 0)
def faultSummary (s : State) : Nat :=
  (List.range 12).foldl (fun a b =>
    a + 2 ^ b * b2n ((List.range' (groupRange b).1 ((groupRange b).2 + 1 - (groupRange b).1)).any (isSticky s))) 0

/-- A source of an identity bus that holds down a unit that a slot owns or shares (R226). -/
def idbSees (s : State) (slot b k : Nat) : Bool :=
  (List.range 8).any (fun a =>
    s.isSet (R.IDB_SLOT.HOLD b a) && s.rd (R.IDB_SLOT.OUTCOME b a) != 6 && (k = 1) = (s.rd (R.IDB_SLOT.OUTCOME b a) = 4)
      && (if b < 2 then listedOnDrum s slot b
          else b = 2 && (List.range 14).any (fun t => bit (Tab.look 0 s.idbHeld a) t && ownsTile s slot t)))
/-- Whether a source lies in the fault view of a slot (R57). -/
def inView (s : State) (slot c : Nat) : Bool :=
  match srcGroup c with
  | .clock k =>
    slot = 0 || ((k = 3 || k = 9) && listedOnDrum s slot 0) || ((k = 4 || k = 10) && listedOnDrum s slot 1)
  | .boot _ => slot = 0
  | .mem _ => slot = 0
  | .seal _ => slot = 0
  | .tile t _ => ownsTile s slot t
  | .hub _ => slot = 0
  | .rbp p _ => ownsRbp s slot p
  | .uart u _ => ownsUart s slot u
  | .idb b k => slot = 0 || idbSees s slot b k
  | .drum n _ => listedOnDrum s slot n
  | .lane _ _ => slot = 0
  | .trunk _ => slot = 0
  | .stack _ => slot = 0
  | .none => false

/-- The slots that see a source: those of groves, and slot 0 of an unconfigured Olulo. -/
def viewers (s : State) (c : Nat) : List Nat :=
  (List.range 8).filter (fun k => (occupied s k || k = 0) && inView s k c)

/-- SUMMARY interrupts on a change of FAULT_SUMMARY (R210). -/
def summaryIrq (old : Nat) (s : State) : State :=
  if faultSummary s = old then s else setIrqAll 7 ((List.range 8).filter (fun k => occupied s k || k = 0)) s

/-- Set a sticky bit, with FAULT interrupts on its 0-to-1 change and SUMMARY ones (R198, R210). -/
def setSticky (c : Nat) (s : State) : State :=
  if isSticky s c then s
  else summaryIrq (faultSummary s) (setIrqAll 1 (viewers s c) (s.on (R.FAULT_STICKY.BIT c)))

/-- Clear a sticky bit. -/
def clearSticky (c : Nat) (s : State) : State :=
  if isSticky s c then summaryIrq (faultSummary s) (s.off (R.FAULT_STICKY.BIT c)) else s

/-- Count an occurrence of a transient source in its window (R203). -/
def countEvent (c : Nat) (s : State) : State :=
  if Tab.look false s.windows c then
    { s with events := Tab.put 0 s.events c (min (Tab.look 0 s.events c + 1) 65536) }
  else { s with windows := Tab.put false s.windows c true, events := Tab.put 0 s.events c 1 }
/-- One occurrence of a source as its own bit shows it (R198, R203): what it prunes apart. DESIGN CHOICE: a source that acts as
permanent counts no EVENTS any more (log 212); R203 counts a transient source's. -/
def occurBit (c : Nat) (s : State) : State :=
  if !srcLives s c then s
  else if actsPermanent s c then setSticky c s
  else
    let s1 := countEvent c (setSticky c s)
    if Tab.look 0 s1.events c > (policyOf s1 c).threshold then s1.on (R.FAULT_PROMOTED.BIT c) else s1

/-- A 64-bit word of the keeping store is read: a corrected one is stored anew, an uncorrectable one reads 0 (R174); sources 23
and 24 prune nothing. -/
def senseWord (s : State) (q : Nat) : State :=
  match keepRead s q with
  | .clean _ => s
  | .corrected _ => occurBit 23 (mendKeep q s)
  | .uncorrectable => occurBit 24 s
/-- The `n` bytes from `lo` of the keeping store are read. -/
def senseKeep (lo n : Nat) (s : State) : State :=
  ((s.keepEcc.map Prod.fst).filter (fun q => lo / 8 ≤ q && q < (lo + n + 7) / 8)).foldl senseWord s
/-- The whole pruned list is read (R208). -/
def senseList (s : State) : State := senseKeep (4 * prunedBase) (4 * prunedLen) s

/-- Write a keeping-store entry now, or when DOMAIN_018 next reaches ON (R205, R207). -/
def keepOrDefer (d : Deferred) (s : State) : State :=
  if domOn s 18 then
    match d with
    | .prune src code => appendPruned (senseList s) src code
    | .recovery src => recIncrement (senseKeep (0x3000 + 32 * src) 32 s) src
  else { s with deferred := s.deferred ++ [d] }

/-- Take a channel out of service (Table 10-7) and end its work with tallies naming the source (R207). -/
def takeOut (code src : Nat) (s : State) : State :=
  let i := code % 4096
  match code / 4096 with
  | 1 => tileOut i src s
  | 2 => laneOut i src s
  | 3 => drumOut i src s
  | 4 => voiceOut (i / 8) (i % 8) src s
  | 5 => uartOut i src s
  | 6 => rbpOut i src s
  | _ => s

/-- Prune a channel that is not pruned yet (R207). -/
def pruneChannel (src : Nat) (s : State) (code : Nat) : State :=
  if isPruned s code then s else keepOrDefer (.prune src code) (takeOut code src s)

def pruneAll (src : Nat) (codes : List Nat) (s : State) : State := codes.foldl (pruneChannel src) s

/-- One occurrence of a source (R198, R203, R207), but for a link loss that a pruned lane brings: one that is permanent, or is
promoted by it, prunes. -/
def occurOnly (c : Nat) (s : State) : State :=
  let t := occurBit c s
  if srcLives s c && actsPermanent t c then pruneAll c (srcPrunes c) t else t

/-- A port that lost its last lane: it was not OFF and is. -/
def portFell (s t : State) : Bool := (List.range 4).any (fun p => portState s p != 0 && portState t p = 0)
/-- Each record discarded at a Taproot queue is an occurrence of CLASS_QUEUE (R291). -/
def raiseDrops (s : State) : State := (List.range s.tapDrops).foldl (fun t _ => occurOnly 165 t) { s with tapDrops := 0 }
/-- One occurrence of a source; a port that it leaves without a lane is a link loss, TRUNK_PORT_DOWN (R487). -/
def occur (c : Nat) (s : State) : State :=
  let t := occurOnly c s
  raiseDrops (if portFell s t then occurOnly 364 t else t)

/-- A level cause changes: its becoming present is an occurrence (R198). -/
def setCause (c : Nat) (present : Bool) (s : State) : State :=
  let was := Tab.look false s.causes c
  let s1 := { s with causes := Tab.put false s.causes c present }
  if present && !was then occur c s1 else s1

/-- A permanent or promoted source that has pruned a channel that is still pruned (R204). DESIGN CHOICE: one that occurs on a
channel that another source has pruned is held as that source is (log 213); R204 speaks of the source that pruned. -/
def holdsPrune (s : State) (c : Nat) : Bool :=
  (srcPrunes c).any (fun code => isPruned s code && (actsPermanent s c || pruneSource s code = c))

/-- A W1C write of 1 by an entitled writer (R204); a level cause still present sets the bit again (R8). -/
def w1cSource (c : Nat) (s : State) : State :=
  if holdsPrune s c then s
  else if actsPermanent s c || (policyOf s c).exitClear then
    let s1 := (clearSticky c s).off (R.FAULT_PROMOTED.BIT c)
    if srcLevel c && Tab.look false s.causes c then setSticky c s1 else s1
  else s

/-- The sources of a channel: those that prune it and those of its own unit (R198, R200). -/
def ofChannel (code c : Nat) : Bool :=
  (srcPrunes c).contains code || (match srcGroup c with
    | .tile t _ => code = 0x1000 + t
    | .lane l _ => code = 0x2000 + l
    | .drum n k => code = 0x3000 + n && !(24 ≤ k && k ≤ 31)
    | .uart u _ => code = 0x5000 + u
    | .rbp p _ => code = 0x6000 + p
    | _ => false)
/-- Whether a slot may clear a source it sees (R57): a CLEAR-mode source of a shared drum takes tray rights or grove 0; a
source of an identity bus takes grove 0 (R226). -/
def mayClear (s : State) (slot c : Nat) : Bool :=
  let drum := match srcGroup c with
    | .drum n _ => some n
    | .clock k => if k = 3 ∨ k = 9 then some 0 else if k = 4 ∨ k = 10 then some 1 else none
    | _ => none
  match drum with
  | some n =>
    if drumCount s n > 1 && (actsPermanent s c || (policyOf s c).exitClear) then slot = 0 || trayRights s slot n else true
  | none => match srcGroup c with | .idb _ _ => slot = 0 | _ => true

/-- The retry that a source's policy still allows (R202). -/
def retryLeft (s : State) (c : Nat) : Bool :=
  !actsPermanent s c && Tab.look 0 s.retryN c < (policyOf s c).retry
/-- Begin the next retry of a source's action; a success ends the sequence. -/
def retryBegin (c : Nat) (s : State) : State := { s with retryN := Tab.put 0 s.retryN c (Tab.look 0 s.retryN c + 1) }
def retryEnd (c : Nat) (s : State) : State := { s with retryN := Tab.put 0 s.retryN c 0 }

end Sys2Proof.Machine
end

