-- ==== Sys2Proof/Machine/Buffer.lean ====
section
/-! DEFINITION. The memories whose 64-bit words carry SECDED bits beside the SDRAM: buffer SRAM with its banks (R69 to R71),
the keeping store as it is read (R174), and Heartwood RAM (R153, R154, R160). -/
namespace Sys2Proof.Machine

/-- What the banks of buffer SRAM are used for (Table 04-6). -/
inductive BufUse where
  | stage | usb | drum (n : Nat) | trunk | pipes | porches
deriving DecidableEq, Repr
/-- First bank and number of banks of a use. -/
def BufUse.banks : BufUse → Nat × Nat
  | .stage => (0, 4)
  | .usb => (4, 4)
  | .drum n => (8 + 2 * n, 2)
  | .trunk => (12, 2)
  | .pipes => (14, 1)
  | .porches => (15, 1)
/-- The bank of a byte address, its domain and its spine port (R70). -/
def bankOf (addr : Nat) : Nat := addr / 0x40000
def bankDomain (b : Nat) : Nat := 117 + b
def bankPort (b : Nat) : Nat := if b < 8 then 2 else 3
/-- Word w (byte address / 8) lies in a bank of a use. -/
def BufUse.holds (u : BufUse) (w : Nat) : Bool := u.banks.1 ≤ bankOf (8 * w) && bankOf (8 * w) < u.banks.1 + u.banks.2
/-- Byte addresses of the Canopy stage's 32-bit word i, and of byte `off` of a port's porch. -/
def stageAddr (i : Nat) : Nat := 4 * i
def porchAddr (p off : Nat) : Nat := 0x3C0000 + 0x1000 * p + off

/-- A word is corrected, or found uncorrectable (R71). -/
def bufCorrected (s : State) : State := occur 38 (s.bump R.BUF_COUNTS.CE 1)
def bufLost (w : Nat) (s : State) : State :=
  occur 39 (((s.bump R.BUF_COUNTS.UE 1).on R.BUF_UE_ADDR.VALID).wr R.BUF_UE_ADDR.ADDR w)
/-- The stored bits of a word that differ from its code word. -/
def setBufEcc (w e : Nat) (s : State) : State := { s with bufEcc := Tab.put 0 s.bufEcc w e }
/-- Read word w, in which `d` was placed: what is delivered, none where uncorrectable (R71). -/
def readBuf (w d : Nat) (s : State) : Option Nat × State :=
  match eccRead (Tab.look 0 s.bufEcc w) d with
  | .clean x => (some x, s)
  | .corrected x => (some x, bufCorrected (setBufEcc w (beatOf d ^^^ beatOf x) s))
  | .uncorrectable => (none, bufLost w s)
/-- One word of a working store is read on behalf of a unit of work (R71). -/
def sweepWord (acc : Bool × State) (e : Nat × Nat) : Bool × State :=
  match eccRead e.2 0 with
  | .clean _ => (acc.1, setBufEcc e.1 0 acc.2)
  | .corrected _ => (acc.1, bufCorrected (setBufEcc e.1 0 acc.2))
  | .uncorrectable => (true, bufLost e.1 (setBufEcc e.1 0 acc.2))
/-- A unit of work passes through the banks of a use: it reads each word that holds an error, and the work after it writes
those words anew; the answer says that one was uncorrectable (DESIGN CHOICE: the spec lays out no use but the stage and the
porches). -/
def sweepUse (u : BufUse) (s : State) : Bool × State := (s.bufEcc.filter (fun e => u.holds e.1)).foldl sweepWord (false, s)
/-- A bank loses its contents with its domain. -/
def bankOff (d : Nat) (s : State) : State :=
  if 117 ≤ d && d ≤ 132 then { s with bufEcc := s.bufEcc.filter (fun e => bankDomain (bankOf (8 * e.1)) != d) } else s

/-- Byte a of Heartwood RAM, below the event log (R154). -/
def hwByte (s : State) (a : Nat) : Nat := Tab.look 0 s.hwRam a ^^^ 0xFF
/-- Image bytes 0 to `resident` - 1 at flash address `base` are copied to Heartwood RAM, which is entered at `entry` (R160). -/
def copyImage (base resident entry : Nat) (s : State) : State :=
  { s with
    hwRam := ((s.flash.filter (fun e => base ≤ e.1 && e.1 < base + resident)).map (fun e => (e.1 - base, e.2)))
      ++ s.hwRam.filter (fun e => resident ≤ e.1)
    hwEcc := s.hwEcc.filter (fun e => resident ≤ 8 * e.1)
    hwEntry := entry }
/-- The lowest word of Heartwood RAM that holds a single-bit error is corrected (R153). -/
def mendHw (s : State) : State :=
  match s.hwEcc.find? (fun e => match eccRead e.2 0 with | .corrected _ => true | _ => false) with
  | some e => { s with hwEcc := Tab.put 0 s.hwEcc e.1 0 }
  | none => s

end Sys2Proof.Machine
end

