-- ==== Sys2Proof/Machine/Memory.lean ====
section
/-! DEFINITION. SDRAM: plain lines with SECDED (R76 to R78), sealed lines with keystream, tag and counters (chapter 05),
page jobs, and byte accesses by slot with the ownership check of R45. -/
namespace Sys2Proof.Machine

/-- Where a byte address lies in the SDRAM (R73): bank group, column, bank, row, rank, with the beat of the burst and the byte in
it. -/
structure SdramPlace where
  group : Nat
  column : Nat
  bank : Nat
  row : Nat
  rank : Nat
  byte : Nat
deriving DecidableEq, Repr
/-- Row bits of a density (Table 04-7). -/
def rowBits (density : Nat) : Nat := 15 + density
/-- The map of R73: A[5:0] the byte within the line, of which [5:3] is the beat, column bits [2:0]. -/
def sdramPlace (r a : Nat) : SdramPlace :=
  ⟨bits a 6 2, 8 * bits a 8 7 + bits a 3 3, bits a 15 2, bits a 17 r, bits a (17 + r) 1, a % 8⟩

/-- Beat `k` of the line at byte address `a`. -/
def beatAt (s : State) (a k : Nat) : Nat := Tab.look 0 s.sdram (a / 64 * 8 + k)
def putBeat (s : State) (a k v : Nat) : State := { s with sdram := Tab.put 0 s.sdram (a / 64 * 8 + k) (v % 2 ^ 72) }

/-- Report a corrected line (R77). -/
def reportCe (a : Nat) (s : State) : State :=
  occur 34 (((s.bump R.MEMCTL_CE_COUNT.COUNT 1).on R.MEMCTL_CE_ADDR.VALID).wr R.MEMCTL_CE_ADDR.LINE (a / 64))
/-- Report an uncorrectable line (R78). -/
def reportUe (a : Nat) (s : State) : State :=
  occur 33 (((s.bump R.MEMCTL_UE_COUNT.COUNT 1).on R.MEMCTL_UE_ADDR.VALID).wr R.MEMCTL_UE_ADDR.LINE (a / 64))

/-- The 64 data bytes of a plain line, or none when a beat is uncorrectable. -/
def plainBytes (s : State) (a : Nat) : Option (List Nat) :=
  (List.range 8).foldr (fun k acc =>
    match beatDecode (beatAt s a k), acc with
    | .clean d, some r => some (leBytes 8 d ++ r)
    | .corrected d, some r => some (leBytes 8 d ++ r)
    | _, _ => none) (some [])

/-- Write back and report each corrected beat of a line (R77). -/
def repairPlain (a : Nat) (s : State) : State :=
  (List.range 8).foldl (fun t k =>
    match beatDecode (beatAt t a k) with
    | .corrected d => reportCe a (putBeat t a k (beatOf d))
    | _ => t) s

/-- Read a plain line: its bytes, the source of a failure or 0, and the state after (R77, R78). DESIGN CHOICE: a line with an
uncorrectable beat counts as that alone; a single-bit error in another of its beats is neither corrected nor counted (log 181). -/
def readPlain (a : Nat) (s : State) : List Nat × Nat × State :=
  match plainBytes s a with
  | some bs => (bs, 0, repairPlain a s)
  | none => (List.replicate 64 0, 33, reportUe a s)

def storeLine (a : Nat) (bs : List Nat) (s : State) : State :=
  (List.range 8).foldl (fun t k => putBeat t a k (beatOf (leVal ((bs.drop (8 * k)).take 8)))) s

/-- `bs` laid over a line's bytes at `off`. -/
def merge (line : List Nat) (off : Nat) (bs : List Nat) : List Nat := line.take off ++ bs ++ line.drop (off + bs.length)

/-- Write part of a plain line (R78). -/
def writePlain (a off : Nat) (bs : List Nat) (s : State) : Nat × State :=
  if bs.length = 64 then (0, storeLine a bs s)
  else
    let r := readPlain a s
    if r.2.1 = 0 then (0, storeLine a (merge r.1 off bs) r.2.2) else (r.2.1, r.2.2)

/-- Base of the counter table (R90). -/
def ctBase (s : State) : Nat := sdramCapacity s - sdramCapacity s / 512
/-- A counter-table entry (Table 05-2). -/
structure CtEntry where
  major : Nat
  fresh : Bool
  ahead : Bool
deriving DecidableEq, Repr
def CtEntry.word (e : CtEntry) : Nat := e.major % 2 ^ 32 + 2 ^ 32 * b2n e.fresh + 2 ^ 33 * b2n e.ahead
def ctOf (d : Nat) : CtEntry := ⟨d % 2 ^ 32, bit d 32, bit d 33⟩
/-- An entry enters SEAL's write-through cache of 256, or is used again; the least recently used one leaves (R92; DESIGN CHOICE:
the spec names no replacement, log 182). -/
def cacheEntry (page w : Nat) (s : State) : State :=
  let l := s.ctCache.filter (fun e => e.1 != page) ++ [(page, w)]
  { s with ctCache := l.drop (l.length - 256) }
/-- Take the entry of an absolute page, from the cache or from its plain line; none when the line is uncorrectable (R90 to
R93). -/
def readEntry (page : Nat) (s : State) : Option CtEntry × State :=
  match s.ctCache.find? (fun e => e.1 = page) with
  | some e => (some (ctOf e.2), cacheEntry page e.2 s)
  | none =>
    let a := ctBase s + 8 * page
    let r := readPlain a s
    if r.2.1 = 0 then
      let d := leVal ((r.1.drop (a % 64)).take 8)
      (some (ctOf d), cacheEntry page d r.2.2)
    else (none, r.2.2)
/-- Write the entry of a page, through the cache: a read-modify-write of its plain line (R78, R90). DESIGN CHOICE: the entry's
own beat is replaced in a line found uncorrectable too, since R95 lets a re-key restore an uncorrectable entry (log 183). -/
def writeEntry (page : Nat) (e : CtEntry) (s : State) : State :=
  let a := ctBase s + 8 * page
  cacheEntry page e.word (putBeat (readPlain a s).2.2 a (a / 8 % 8) (beatOf e.word))

def sealOf (s : State) (r : Nat) : SealRegion := Tab.look SealRegion.reset s.sealing r
def putSeal (s : State) (r : Nat) (x : SealRegion) : State := { s with sealing := Tab.put SealRegion.reset s.sealing r x }
def regionSealed (s : State) (r : Nat) : Bool :=
  hasSeal s && match regionRec s r with
    | some x => bit (x.u8 2) 0
    | none => false
/-- STATE of a region: 0 plain, 1 SEALED, 2 REKEYING, 3 SPLIT. -/
def regionState (s : State) (r : Nat) : Nat := s.rd (R.SEAL_REGION_STATE.STATE r)
def regionPages (s : State) (r : Nat) : Nat := (regionSpan s r).2 / 4096
def watermark (s : State) (r : Nat) : Nat := s.rd (R.SEAL_REGION_WATERMARK.PAGE r)
/-- The region's page number of an absolute page. -/
def pageIn (s : State) (r page : Nat) : Nat := page - (regionSpan s r).1 / 4096
/-- Whether a page is under the NEW key (R99). -/
def underNew (s : State) (r page : Nat) (ahead : Bool) : Bool :=
  regionState s r = 1 || pageIn s r page < watermark s r || ahead
/-- The key and hash key of a page (R99). -/
def pageKeys (s : State) (r page : Nat) (ahead : Bool) : Nat × Nat :=
  let x := sealOf s r
  if underNew s r page ahead then (x.newKey, x.newHash) else (x.oldKey, x.oldHash)

/-- The counter block Q (R88). -/
def counterBlock (major minor r a mask chunk : Nat) : Nat :=
  2 ^ 96 * (major % 2 ^ 32) + 2 ^ 87 * (minor % 2 ^ 9) + 2 ^ 82 * (r % 32) + 2 ^ 54 * (a / 64 % 2 ^ 28) + 2 ^ 53 * mask + chunk
/-- The keystream of a line (R88). -/
def lineStream (key major minor r a : Nat) : List Nat :=
  let ws := keySchedule (beBytes 32 key)
  (List.range 4).flatMap (fun c => aesBlock ws (beBytes 16 (counterBlock major minor r a 0 c)))
/-- The 44-bit tag (R89). -/
def lineTag (key hash major minor r a : Nat) (cipher : List Nat) : Nat :=
  let q := counterBlock major minor r a 0 0
  let sum := ghash hash ((blocksOf cipher).map beVal ++ [q])
  (sum ^^^ beVal (aes256 (beBytes 32 key) (beBytes 16 (counterBlock major minor r a 1 0)))) / 2 ^ 84
/-- The 576 bits of a sealed line (Table 05-1). -/
def sealedVector (cipher : List Nat) (tag minor : Nat) : Nat :=
  let v := leVal cipher + 2 ^ 512 * (tag % 2 ^ 44) + 2 ^ 556 * (minor % 2 ^ 9)
  v + 2 ^ 565 * secdedCheck 575 565 10 v
def lineVector (s : State) (a : Nat) : Nat := (List.range 8).foldl (fun v k => v + 2 ^ (72 * k) * beatAt s a k) 0
def storeVector (a v : Nat) (s : State) : State := (List.range 8).foldl (fun t k => putBeat t a k (bits v (72 * k) 72)) s
/-- Seal 64 bytes at a line; a poisoned line carries the inverted tag (R96). -/
def sealLine (keys : Nat × Nat) (major minor r a : Nat) (plain : List Nat) (poison : Bool) (s : State) : State :=
  let c := xorBytes plain (lineStream keys.1 major minor r a)
  let t := lineTag keys.1 keys.2 major minor r a c
  storeVector a (sealedVector c (if poison then t ^^^ (2 ^ 44 - 1) else t) minor) s

/-- A failure of Table 05-3 is latched in the region's FAIL_LINE. -/
def failLine (r a : Nat) (s : State) : State :=
  (s.on (R.SEAL_REGION_FAIL_LINE.VALID r)).wr (R.SEAL_REGION_FAIL_LINE.LINE r) (a / 64)

/-- What a read of a sealed line finds: plain bytes, MINOR, and the source of a failure or 0. -/
structure SealedRead where
  bytes : List Nat
  minor : Nat
  err : Nat
deriving DecidableEq, Repr

/-- Steps 3 to 5 of R93 under given keys and MAJOR. DESIGN CHOICE: a line that step 3 corrects is written back and counted also
where its tag then fails (log 207); R93 has both sentences. -/
def openLine (keys : Nat × Nat) (major r a : Nat) (s : State) : SealedRead × State :=
  let v := lineVector s a
  let fin (d : Nat) (t : State) : SealedRead × State :=
    let c := leBytes 64 (d % 2 ^ 512)
    let minor := bits d 556 9
    if lineTag keys.1 keys.2 major minor r a c = bits d 512 44 then
      (⟨xorBytes c (lineStream keys.1 major minor r a), minor, 0⟩, t)
    else (⟨List.replicate 64 0, minor, 40⟩, occur 40 (failLine r a (t.bump (R.SEAL_REGION_TAG_FAILS.COUNT r) 1)))
  match secdedDecode 575 565 10 (v % 2 ^ 565) (v / 2 ^ 565) with
  | .clean d => fin d s
  | .corrected d =>
    fin d (occur 41 ((storeVector a (d + 2 ^ 565 * secdedCheck 575 565 10 d) s).bump R.SEAL_CE_COUNT.COUNT 1))
  | .uncorrectable => (⟨List.replicate 64 0, 0, 42⟩, occur 42 (failLine r a (s.bump R.SEAL_UE_COUNT.COUNT 1)))

/-- Read a sealed line (R93); keys still to be drawn fail it with source 44 (R98). -/
def readSealed (r a : Nat) (s : State) : SealedRead × State :=
  match readEntry (a / 4096) s with
  | (none, t) => (⟨List.replicate 64 0, 0, 43⟩, occur 43 (failLine r a t))
  | (some e, t) =>
    if e.fresh then (⟨List.replicate 64 0, 0, 0⟩, t)
    else if (sealOf t r).needsKeys then (⟨List.replicate 64 0, 0, 44⟩, setCause 44 true t)
    else openLine (pageKeys t r (a / 4096) e.ahead) e.major r a t

/-- Note a poisoned line of a region's re-key: the lowest page and its first line's source count (Table 05-4). -/
def notePoison (r page src : Nat) (s : State) : State :=
  let x := sealOf s r
  let p := pageIn s r page
  let s1 := if x.job.isSome && p < x.poisonPage then putSeal s r { x with poisonPage := p, poisonSource := src } else s
  occur 45 s1

/-- Re-encrypt the 64 lines of a page: read under one key and MAJOR (none: the entry is lost), write under another with
MINOR 0; a line that fails is written poisoned (R96, R100). -/
def reencrypt (r page : Nat) (oldKeys : Nat × Nat) (oldMajor : Option Nat) (newKeys : Nat × Nat) (newMajor : Nat)
    (s : State) : State :=
  (List.range 64).foldl (fun t i =>
    let a := 4096 * page + 64 * i
    match oldMajor with
    | none => notePoison r page 43 (sealLine newKeys newMajor 0 r a (List.replicate 64 0) true (occur 43 (failLine r a t)))
    | some m =>
      match openLine oldKeys m r a t with
      | (x, u) =>
        if x.err = 0 then sealLine newKeys newMajor 0 r a x.bytes false u
        else notePoison r page x.err (sealLine newKeys newMajor 0 r a (List.replicate 64 0) true u)) s

/-- Convert a page of a region that is being re-keyed from OLD to NEW (R100), leaving AHEAD as given. -/
def convertPage (r page : Nat) (ahead : Bool) (s : State) : State :=
  let x := sealOf s r
  match readEntry page s with
  | (some e, t) =>
    if e.fresh then writeEntry page ⟨0, true, ahead⟩ t
    else writeEntry page ⟨0, false, ahead⟩ (reencrypt r page (x.oldKey, x.oldHash) (some e.major) (x.newKey, x.newHash) 0 t)
  | (none, t) => writeEntry page ⟨0, false, ahead⟩ (reencrypt r page (x.oldKey, x.oldHash) none (x.newKey, x.newHash) 0 t)

/-- Draw a key set into NEW, the one before it moving to OLD (R98, R100). -/
def drawKeys (r : Nat) (s : State) : State :=
  let x := sealOf s r
  (putSeal s r { x with
    oldKey := x.newKey, oldHash := x.newHash, newKey := s.freeVal 0 % 2 ^ 256, newHash := s.freeVal 1 % 2 ^ 128,
    needsKeys := false }).drew 2

/-- The slot whose tally ring takes the region's re-key tallies. -/
def regionSlot (s : State) (r : Nat) : Nat := ((regionGrove s r).bind (slotOf s)).getD 0
def rekeyTally (s : State) (r workId status requested done first src doneMap : Nat) : Tally :=
  { workId := workId, status := status, kind := 4, grove := (regionGrove s r).getD 0, flags := 0, requested := requested,
    done := done, firstFailed := first, source := src, retries := 0, depth := 0, doneMap := doneMap }

/-- Start a re-key of a SEALED region, or resume a SPLIT one (R100, R101). -/
def startRekey (r workId : Nat) (s : State) : State :=
  if regionState s r = 3 then
    let s1 := putSeal s r { sealOf s r with job := some workId, poisonPage := 0xFFFFFFFF, poisonSource := 0 }
    { s1.wr (R.SEAL_REGION_STATE.STATE r) 2 with walks := s1.walks ++ [r] }
  else if s.isSet R.SEAL_STATUS.RNG_READY then
    let s1 := drawKeys r s
    let s2 := putSeal s1 r { sealOf s1 r with job := some workId, poisonPage := 0xFFFFFFFF, poisonSource := 0 }
    let e := s.rd (R.SEAL_REGION_STATE.EPOCH r)
    let s3 := (s2.wr (R.SEAL_REGION_STATE.EPOCH r) (if e ≥ 255 then 1 else e + 1)).wr (R.SEAL_REGION_WATERMARK.PAGE r) 0
    { s3.wr (R.SEAL_REGION_STATE.STATE r) 2 with walks := s3.walks ++ [r] }
  else postTally (setCause 44 true s) 1 (regionSlot s r) (rekeyTally s r workId 2 (regionPages s r) 0 0xFFFFFFFF 44 0)

/-- The automatic trigger at MAJOR 0xFFFF_0000 (R100, R101). -/
def autoRekey (r major : Nat) (s : State) : State :=
  if major < 0xFFFF0000 then s
  else if regionState s r = 1 then startRekey r (0xFFFFFF00 + r) (occur 47 s)
  else if regionState s r = 3 then startRekey r (0xFFFFFF00 + r) s
  else s

/-- The result of writing part of a sealed line: done (source of a failure or 0), or a page job must come first. -/
inductive LineWrite where
  | done (err : Nat) (s : State)
  | job (force : Bool) (s : State)

/-- Convert a page ahead of the walk when a write meets it unconverted (R100 step 4); none where the entry is lost. -/
def aheadFirst (r page : Nat) (e : CtEntry) (s : State) : CtEntry × State :=
  if (regionState s r = 2 || regionState s r = 3) && !underNew s r page e.ahead then
    (⟨0, e.fresh, true⟩, convertPage r page true s)
  else (e, s)

/-- Write the 64 lines of a FRESH page: one with its data, the others with zeros (R94). -/
def writeFresh (keys : Nat × Nat) (r page line : Nat) (e : CtEntry) (plain : List Nat) (s : State) : State :=
  writeEntry page { e with fresh := false }
    ((List.range 64).foldl (fun t i =>
      let a := 4096 * page + 64 * i
      sealLine keys e.major 0 r a (if a = line then plain else List.replicate 64 0) false t) s)

/-- Write part of a sealed line (R94, R95); `force`: the page job over a failed line is done, MINOR is its 0. -/
def writeSealed (r a off : Nat) (bs : List Nat) (force : Bool) (s : State) : LineWrite :=
  let page := a / 4096
  match readEntry page s with
  | (none, t) => .done 43 (occur 43 (failLine r a t))
  | (some e0, t0) =>
    if (sealOf t0 r).needsKeys then .done 44 (setCause 44 true t0)
    else
      match aheadFirst r page e0 t0 with
      | (e, t) =>
        let keys := pageKeys t r page e.ahead
        if e.fresh then .done 0 (writeFresh keys r page a e (merge (List.replicate 64 0) off bs) t)
        else if force then .done 0 (sealLine keys e.major 1 r a bs false t)
        else
          match openLine keys e.major r a t with
          | (x, u) =>
            if x.err = 0 then
              if x.minor = 511 then .job false u
              else .done 0 (sealLine keys e.major (x.minor + 1) r a (merge x.bytes off bs) false u)
            else if bs.length = 64 then .job true u
            else .done x.err u

/-- The lines a byte range touches: line address, offset in it, count. -/
def lineParts (addr len : Nat) : List (Nat × Nat × Nat) :=
  (List.range ((addr + len - 1) / 64 + 1 - addr / 64)).map (fun i =>
    let line := 64 * (addr / 64 + i)
    let lo := max addr line
    (line, lo - line, min (addr + len) (line + 64) - lo))

/-- Read whole lines of one region over a byte range: bytes, first failure's source, state. -/
def readRange (r addr len : Nat) (s : State) : List Nat × Nat × State :=
  (lineParts addr len).foldl (fun acc p =>
    let one := if regionSealed acc.2.2 r then
        match readSealed r p.1 acc.2.2 with
        | (x, t) => (x.bytes, x.err, t)
      else readPlain p.1 acc.2.2
    (acc.1 ++ (one.1.drop p.2.1).take p.2.2, if acc.2.1 = 0 then one.2.1 else acc.2.1, one.2.2)) ([], 0, s)

def underJob (s : State) (page : Nat) : Bool := s.pageJobs.any (fun j => j.page = page)
/-- A page job on one of the pages of a byte range. -/
def jobOn (s : State) (addr len : Nat) : Option Nat :=
  ((List.range ((addr + len - 1) / 4096 + 1 - addr / 4096)).map (· + addr / 4096)).find? (underJob s)
/-- Hold an access behind the job on a page. -/
def holdAccess (page : Nat) (x : MemAccess) (s : State) : State :=
  { s with pageJobs := s.pageJobs.map (fun j => if j.page = page then { j with held := j.held ++ [x] } else j) }
def openJob (page : Nat) (x : MemAccess) (s : State) : State := { s with pageJobs := s.pageJobs ++ [⟨page, [x]⟩] }

/-- Write the lines of an access in order, stopping at one that needs a page job first; the result carries the first
failure's source, or none when the access is held. -/
def writeLines (r : Nat) (x : MemAccess) : List (Nat × Nat × Nat) → Nat → List Nat → Bool → State → Option Nat × State
  | [], err, _, _, s => (some err, s)
  | (line, off, n) :: rest, err, bs, force, s =>
    if regionSealed s r then
      match writeSealed r line off (bs.take n) force s with
      | .done e t => writeLines r x rest (if err = 0 then e else err) (bs.drop n) false t
      | .job f t =>
        (none, openJob (line / 4096)
          { x with addr := line + off, len := bs.length, data := bs, err := err, force := f } t)
    else
      match writePlain line off (bs.take n) s with
      | (e, t) => writeLines r x rest (if err = 0 then e else err) (bs.drop n) false t

/-- MEM_DONE of an access: OK or MEM_ERROR. -/
def memDone (x : MemAccess) (err : Nat) (s : State) : State :=
  s.emit (.memDone x.port x.slot x.id (if err = 0 then 0 else 3))

/-- Run an access that passed the ownership check, or hold it behind a page job (R67, R93, R94, R96). -/
def runAccess (r : Nat) (x : MemAccess) (s : State) : State :=
  match jobOn s x.addr x.len with
  | some p => holdAccess p x s
  | none =>
    if x.write then
      match writeLines r x (lineParts x.addr x.len) x.err x.data x.force s with
      | (some e, t) => memDone x e t
      | (none, t) => t
    else
      match readRange r x.addr x.len s with
      | (bs, e, t) => memDone x e (t.emit (.data x.slot bs))

/-- Requests in flight at MEMCTL: an access is served at once unless a page job holds it (R79, R96). -/
def inFlight (s : State) : Nat := (s.pageJobs.map (fun j => j.held.length)).foldl (· + ·) 0
/-- Serve an access under the ownership check of R45. -/
def serveAccess (x : MemAccess) (s : State) : State :=
  match regionFor s x.slot x.addr x.len with
  | some r => runAccess r x s
  | none =>
    let s1 := memRefuse x.slot s
    let s2 := if x.write then s1 else s1.emit (.data x.slot (List.replicate x.len 0))
    s2.emit (.memDone x.port x.slot x.id 1)
/-- An access reaches MEMCTL: with 32 in flight it waits (R79). -/
def arriveAccess (x : MemAccess) (s : State) : State :=
  if 32 ≤ inFlight s then { s with memWait := s.memWait ++ [x] } else serveAccess x s
/-- The slot that the weighted round-robin serves next among those that wait, and what is then left of its weight: the slot
served last while its SPINE_WEIGHT lasts, then the slots after it in turn (R79; the order within a round is a DESIGN CHOICE,
log 184). -/
def nextTurn (s : State) : Option (Nat × Nat) :=
  let waits (k : Nat) : Bool := s.memWait.any (fun x => x.slot % 8 = k)
  if s.memTurn.2 != 0 && waits s.memTurn.1 then some (s.memTurn.1, s.memTurn.2 - 1)
  else (((List.range 8).map (fun i => (s.memTurn.1 + 1 + i) % 8)).find? waits).map (fun k => (k, spineWeight s k - 1))
/-- Accesses that wait are taken while fewer than 32 are in flight. -/
def admitAccess : Nat → State → State
  | 0, s => s
  | fuel + 1, s =>
    if 32 ≤ inFlight s then s
    else
      match nextTurn s with
      | some (k, left) =>
        (match s.memWait.find? (fun x => x.slot % 8 = k) with
        | some x => admitAccess fuel (serveAccess x { s with memWait := s.memWait.erase x, memTurn := (k, left) })
        | none => s)
      | none => s

/-- The region an absolute page lies in. -/
def regionOfPage (s : State) (page : Nat) : Option Nat :=
  (List.range 32).find? (fun r =>
    (regionRec s r).isSome && (regionSpan s r).1 ≤ 4096 * page && 4096 * page < (regionSpan s r).1 + (regionSpan s r).2)

/-- End a page job: the page re-encrypted under MAJOR + 1, the held accesses resumed in arrival order (R96), then those that wait
for MEMCTL (R79). DESIGN CHOICE: the write whose line stood at MINOR 511 is among those that resume, so it ends at MINOR 1
(log 185). -/
def finishJob (page : Nat) (s : State) : State :=
  match s.pageJobs.find? (fun j => j.page = page), regionOfPage s page with
  | some j, some r =>
    let s1 := { s with pageJobs := s.pageJobs.filter (fun k => k.page ≠ page) }
    let s2 := match readEntry page s1 with
      | (some e, t) =>
        let keys := pageKeys t r page e.ahead
        if e.major + 1 = 2 ^ 32 then convertPage r page true (autoRekey r e.major t)
        else
          autoRekey r (e.major + 1)
            (writeEntry page { e with major := e.major + 1 } (reencrypt r page keys (some e.major) keys (e.major + 1) t))
      | (none, t) => occur 43 (failLine r (4096 * page) t)
    admitAccess s2.memWait.length (j.held.foldl (fun t x => runAccess r x t) s2)
  | _, _ => { s with pageJobs := s.pageJobs.filter (fun k => k.page ≠ page) }

/-- The answer to an access made by a unit of the Olulo itself for a slot: bytes read, the failure's source (0 none), and
whether the ownership check refused it. -/
structure MemResult where
  bytes : List Nat
  err : Nat
  refused : Bool
deriving DecidableEq, Repr

/-- A unit of the Olulo reads a byte range for a slot; a page job on it ends first (R45, R110). -/
def unitRead (slot addr len : Nat) (s : State) : MemResult × State :=
  match regionFor s slot addr len with
  | none => (⟨List.replicate len 0, 0, true⟩, memRefuse slot s)
  | some r =>
    let s1 := match jobOn s addr len with
      | some p => finishJob p s
      | none => s
    match readRange r addr len s1 with
    | (bs, e, t) => (⟨bs, e, false⟩, t)

/-- A unit of the Olulo writes a byte range for a slot; page jobs it meets or needs end at once (R45, R110). -/
def unitWrite (slot addr : Nat) (bs : List Nat) (s : State) : MemResult × State :=
  match regionFor s slot addr bs.length with
  | none => (⟨[], 0, true⟩, memRefuse slot s)
  | some r =>
    if bs = [] then (⟨[], 0, false⟩, s)
    else
      (lineParts addr bs.length).foldl (fun acc p =>
        let t0 := match jobOn acc.2 p.1 64 with
          | some q => finishJob q acc.2
          | none => acc.2
        let part := (bs.drop (p.1 + p.2.1 - addr)).take p.2.2
        let out := if regionSealed t0 r then
            match writeSealed r p.1 p.2.1 part false t0 with
            | .done e t => (e, t)
            | .job f t =>
              match writeSealed r p.1 p.2.1 part f (finishJob (p.1 / 4096) { t with pageJobs := t.pageJobs ++ [⟨p.1 / 4096, []⟩] }) with
              | .done e u => (e, u)
              | .job _ u => (42, u)
          else writePlain p.1 p.2.1 part t0
        (⟨[], if acc.1.err = 0 then out.1 else acc.1.err, false⟩, out.2)) (⟨[], 0, false⟩, s)

end Sys2Proof.Machine
end

