-- ==== Sys2Proof/Machine/View.lean ====
section
/-! DEFINITION. Each grove's view of each register block (Tables 03-3, 02-22, 26-1 and 26-2), with the refusal of R44,
and the domain and rail a block needs to answer (R553, R554). -/
namespace Sys2Proof.Machine

/-- How a register access is taken: served, refused under R44, without any effect (R2, R9, R548), or not answered while its
rail is HELD or a spine segment on its way is off (R12, R554). -/
inductive View where
  | served
  | held
  | refused
  | nothing
deriving DecidableEq, Repr

/-- Served when a condition holds, else refused. -/
def onlyIf (b : Bool) : View := if b then .served else .refused

/-- The drum and offset of a drum address. -/
def drumOf (a : Nat) : Option (Nat × Nat) :=
  if 0x300000 ≤ a && a < 0x500000 then some ((a - 0x300000) / 0x100000, (a - 0x300000) % 0x100000) else none

/-- A grove rooted on a UART console, here or remotely (Table 03-1). -/
def isConsoleGrove (s : State) (slot : Nat) : Bool := configured s && rootKind s slot = 2

/-- The settings partition range of the keeping store (Table 08-10). -/
def inSettings (off : Nat) : Bool := 0x8000 ≤ off && off < 0x28000
/-- Store offset shown at a window address of grove 0 (R179). -/
def keepOffset (s : State) (a : Nat) : Nat := s.rd R.KEEPING_PAGE.PAGE * 0x8000 + a % 0x8000

/-- Blocks that every variant has, for a grove that holds `slot`. -/
def sharedView (s : State) (slot a : Nat) (write : Bool) : View :=
  match a / 0x10000 with
  | 0 => if write then .nothing else .served
  | 1 => onlyIf (!write || slot = 0)
  | 2 =>
    if !write then .served
    else if a = 0x20030 || a = 0x20040 then
      let n := (a - 0x20030) / 16
      if !hasDrum s n then .nothing else onlyIf (ownsDrumAlone s slot n)
    else onlyIf (slot = 0)
  | 3 => onlyIf (!write || (slot = 0 && a != 0x30110 && configured s))
  | 4 => onlyIf (!write || a != 0x40090 || slot = 0)
  | 5 => .served
  | 6 => onlyIf (!write || !(a = 0x60300 || a = 0x60304 || a = 0x60308 || (0x60400 ≤ a && a < 0x60500)))
  | 7 =>
    if slot = 0 then onlyIf (!write || 0x78000 ≤ a || inSettings (keepOffset s a))
    else if a = 0x78000 then .nothing else onlyIf (a < 0x71000)
  | 8 => onlyIf (slot = 0 || 0x80100 ≤ a)
  | 9 => onlyIf (!write || slot = 0)
  | _ => .nothing

/-- Blocks of units, for a grove of a configured Olulo. -/
def unitView (s : State) (slot a : Nat) (write : Bool) : View :=
  let b := a / 0x10000
  if b = 0xA then
    if !hasSeal s then .nothing
    else if 0xA1000 ≤ a && a < 0xA1400 then onlyIf (slot = 0 || ownsRegion s slot ((a - 0xA1000) / 0x20))
    else onlyIf (slot = 0)
  else if 0x10 ≤ b && b ≤ 0x1D then onlyIf (ownsTile s slot (b - 0x10) || (slot = 0 && tileRole s (b - 0x10) = 0))
  else if b = 0x20 then onlyIf (!isConsoleGrove s slot)
  else if b = 0x21 || b = 0x22 then
    if !hasRbp s (b - 0x21) then .nothing else onlyIf (ownsRbp s slot (b - 0x21))
  else if 0x23 ≤ b && b ≤ 0x26 then
    match uartRec s (b - 0x23) with
    | none => if slot != 0 then .refused else if write then .nothing else .served
    | some r => if r.u8 2 = 0 then onlyIf (ownsUart s slot (b - 0x23)) else onlyIf (!write && (slot = 0 || ownsUart s slot (b - 0x23)))
  else if b = 0x27 then onlyIf (slot = 0)
  else if b = 0x28 then
    let o := a % 0x10000 / 16
    onlyIf (if o < 2 then ownsAudio s slot o else ownsAudio s slot 0 || ownsAudio s slot 1)
  else if b = 0x29 then onlyIf (!write || 0x290008 ≤ a || slot = 0)
  else if b = 0x60 then if !hasTrunk s then .nothing else onlyIf (slot = 0)
  else if b = 0x61 then onlyIf (!write || slot = 0)
  else
    match drumOf a with
    | some (n, off) =>
      if !hasDrum s n || 0x60000 ≤ off then .nothing
      else if !listedOnDrum s slot n then .refused
      else onlyIf (!write || drumCount s n = 1 || (0x50100 ≤ off && off < 0x60000))
    | none => .nothing

/-- Whether an address belongs to a block of an absent unit, or to none (R43, R548). -/
def noBlock (s : State) (a : Nat) : Bool :=
  let b := a / 0x10000
  (b = 0xA && !hasSeal s) || (0xB ≤ b && b ≤ 0xF) || b = 0x1E || b = 0x1F || (0x2A ≤ b && b ≤ 0x2F)
    || ((b = 0x21 || b = 0x22) && !hasRbp s (b - 0x21))
    || (match drumOf a with | some (n, off) => !hasDrum s n || 0x60000 ≤ off | none => false)
    || (0x50 ≤ b && b ≤ 0x5F) || (b = 0x60 && !hasTrunk s) || 0x62 ≤ b

/-- The tempo rail of the block at an address: a drum's own; VDD_CORE for the rest but FAULT, in DOMAIN_000 (R554). -/
def blockRail (a : Nat) : Option Nat :=
  match drumOf a with
  | some (n, _) => some (n + 1)
  | none => if a / 0x10000 = 4 then none else some 0
/-- The spine port of the block at an address (Table 01-1). -/
def blockPort (a : Nat) : Nat :=
  let b := a / 0x10000
  if b = 6 then 0
  else if b = 9 then 1
  else if b = 0xA then (if a % 0x10000 < 0x1400 then 1 else 12)
  else if b = 8 then 2
  else if b = 0x20 then (if a % 0x10000 < 0x100 then 4 else 5)
  else if 0x10 ≤ b && b ≤ 0x16 then 6
  else if 0x17 ≤ b && b ≤ 0x1D then 7
  else if b = 0x21 || b = 0x22 then 8
  else if 0x23 ≤ b && b ≤ 0x29 then 9
  else if b = 0x60 then 12
  else if b = 0x61 then 13
  else if b = 4 || b = 5 then 14
  else match drumOf a with
    | some (n, _) => 10 + n
    | none => 15
/-- A block on a HELD rail gives no answer (R554), and no access reaches a block whose spine segment or arbiter is off (R12). -/
def heldBlock (s : State) (addr : Nat) : Bool :=
  let a := addr % 2 ^ 32 / 4 * 4
  a < 0x80000000 && !noBlock s a
    && (!portOn s (blockPort a) || (match blockRail a with | some r => railHeld s r | none => false))

/-- The spine port of a slot's root (R13, Table 01-1): its UP tile, its Retro Bus Port, its console, or the trunk for a grove
rooted on another member. -/
def rootPort (s : State) (slot : Nat) : Nat :=
  if configured s && !rootedHere s slot then 12
  else match rootKind s slot with
  | 0 => if rootIndex s slot < 7 then 6 else 7
  | 1 => 8
  | _ => 9
/-- The spine port of a slot's root moves packets (R12); grove 0 of an unconfigured Olulo has TILE_0's and the console's (R34). -/
def rootOn (s : State) (slot : Nat) : Bool := if configured s then portOn s (rootPort s slot) else portOn s 6 || portOn s 9

/-- A slot's view of an address (R43, R34, R62); an address is taken with bits [1:0] as 0 (R549); no access
passes a spine port without power, and a block on a HELD rail gives no answer (R12, R554). -/
def viewOf (s : State) (slot addr : Nat) (write : Bool) : View :=
  let a := addr / 4 * 4
  if !rootOn s slot || heldBlock s addr then .held
  else if slot != 0 && !(configured s && occupied s slot) then .refused
  else if noBlock s a then .nothing
  else if a < 0xA0000 then sharedView s slot a write
  else if configured s || a / 0x10000 = 0x29 then unitView s slot a write
  else .refused

/-- The logic domain of the block at an address (Tables 01-1 and 07-1); none for blocks that answer whenever CK_CORE
runs, and for STROKE, whose rings take strokes before the drum is brought up (R193). -/
def blockDomain (a : Nat) : Option Nat :=
  let b := a / 0x10000
  if b = 5 then some 139
  else if b = 6 then some 1
  else if b = 7 then some 18
  else if b = 9 then some 14
  else if b = 0xA then some 16
  else if 0x10 ≤ b && b ≤ 0x1D then if a % 0x10000 < 0x100 then some (27 + 3 * (b - 0x10)) else some (67 + (b - 0x10))
  else if b = 0x20 then if a % 0x10000 < 0x100 then some 81 else some 83
  else if b = 0x21 || b = 0x22 then some (85 + (b - 0x21))
  else if 0x23 ≤ b && b ≤ 0x26 then some (87 + (b - 0x23))
  else if b = 0x27 then some 133
  else if b = 0x28 then (if a % 0x10000 / 16 < 2 then some (134 + a % 0x10000 / 16) else none)
  else if b = 0x29 then some 141
  else if b = 0x60 then some 115
  else if b = 0x61 then some 142
  else match drumOf a with
    | some (n, off) =>
      match off / 0x10000 with
      | 0 => some (91 + 10 * n)
      | 1 => some (95 + 10 * n)
      | 2 => some (96 + 10 * n)
      | 3 => some (97 + 10 * n)
      | 4 => some (93 + 10 * n)
      | _ => none
    | none => none

/-- Whether the block at an address takes writes: its logic domain is ON (R553). -/
def blockRuns (s : State) (a : Nat) : Bool :=
  match blockDomain (a / 4 * 4) with
  | some d => domOn s d
  | none => true


/-- The STATUS of an access that a block does not serve (Table 04-3, R2, R9, R548): ABSENT where no block stands, else OK. -/
def idleStatus (s : State) (addr : Nat) : Nat := if noBlock s (addr / 4 * 4) then 2 else 0
/-- Carry out a register command that a slot writes at an address: the effect where it is served, else as R44, R2 or R553
state; the answer follows (R61). A command that cannot pass changes nothing and has no answer (DEDUCED: log 203). -/
def guardWrite (slot addr : Nat) (effect : State → State) (s : State) : State :=
  let t := s
  let s := activity s
  match viewOf s slot addr true with
  | .held => t
  | .served => (if blockRuns s addr then effect s else s).emit (.answer slot 0 0)
  | .refused => (refuse slot (addr / 4 * 4) s).emit (.answer slot 1 0)
  | .nothing => s.emit (.answer slot (idleStatus s addr) 0)

/-- As guardWrite, for a command that R44 may refuse once its block has taken it: the answer is then REFUSED. -/
def guardTry (slot addr : Nat) (refused : State → Bool) (effect : State → State) (s : State) : State :=
  let t := s
  let s := activity s
  match viewOf s slot addr true with
  | .held => t
  | .served => (if blockRuns s addr then effect s else s).emit (.answer slot (b2n (blockRuns s addr && refused s)) 0)
  | .refused => (refuse slot (addr / 4 * 4) s).emit (.answer slot 1 0)
  | .nothing => s.emit (.answer slot (idleStatus s addr) 0)

/-- Carry out a register command that reads at an address; the answer is zero where it is not served. -/
def guardRead (slot addr : Nat) (effect : State → State) (s : State) : State :=
  let t := s
  let s := activity s
  match viewOf s slot addr false with
  | .held => t
  | .served => effect s
  | .refused => (refuse slot (addr / 4 * 4) s).emit (.answer slot 1 0)
  | .nothing => s.emit (.answer slot (idleStatus s addr) 0)

end Sys2Proof.Machine
end

