-- ==== Sys2Proof/Machine/Rings.lean ====
section
/-! DEFINITION. The measurement rings and the event log (R162, R163). -/
namespace Sys2Proof.Machine

def logBytes (s : State) : Nat := (s.evLog.map List.length).foldl (· + ·) 0
/-- The padding of an entry's DATA to a multiple of 4. -/
def pad4 (bs : List Nat) : List Nat := bs ++ List.replicate ((4 - bs.length % 4) % 4) 0
/-- One log entry (R163). -/
def logEntry (ring ty seq : Nat) (d data : List Nat) : List Nat :=
  [ring, ty] ++ leBytes 2 data.length ++ leBytes 4 seq ++ d ++ pad4 data

/-- Extend RING_k by D (R162). -/
def extendRing (k : Nat) (d : List Nat) (s : State) : State :=
  wrList (R.RING.BYTES k) 0 (wordsOf 8 (sha256 (ringBytes s k ++ d))) s

/-- Extend a ring and append the event's entry; a full log drops the entry (R163). DESIGN CHOICE: a
dropped entry uses its SEQ number up (log 177). -/
def extendEvent (ring ty : Nat) (d data : List Nat) (s : State) : State :=
  let s1 := extendRing ring d s
  let e := logEntry ring ty s.evSeq d data
  if logBytes s1 + e.length ≤ 65536 then
    { s1 with evLog := s1.evLog ++ [e], evSeq := s1.evSeq + 1 }.wr R.HW_LOG.LENGTH ((logBytes s1 + e.length) / 4)
  else occur 25 ({ s1 with evSeq := s1.evSeq + 1 }.bump R.HW_LOG.DROPPED 1)

end Sys2Proof.Machine
end

