-- ==== Sys2Proof/Machine/Canopy.lean ====
section
/-! DEFINITION. The Canopy loader's commands and its stage (chapter 02); what an accepted stream does stands in Accept. -/
namespace Sys2Proof.Machine

def loaderBusy (s : State) : Bool := s.isSet R.CANOPY_STATUS.BUSY
/-- A command that Table 02-1 ignores sets CMD_REFUSED. -/
def cmdRefused (s : State) : State := s.on R.CANOPY_STATUS.CMD_REFUSED
/-- The 64-bit word of the stage that holds its 32-bit word i, and that word's place in buffer SRAM (R70). -/
def stageData (s : State) (i : Nat) : Nat := memW s.stage (i / 2 * 2) + 2 ^ 32 * memW s.stage (i / 2 * 2 + 1)
def stageWord (i : Nat) : Nat := stageAddr i / 8
/-- Put a 64-bit word back into the stage. -/
def putStageData (i d : Nat) (s : State) : State :=
  { s with stage := putW (putW s.stage (i / 2 * 2) d) (i / 2 * 2 + 1) (d / 2 ^ 32) }
/-- The stage is read at word i (R71): a corrected word is stored anew; an uncorrectable one delivers a free value, which no
rule states (DESIGN CHOICE, log 178). -/
def readStage (i : Nat) (s : State) : Nat × State :=
  match readBuf (stageWord i) (stageData s i) s with
  | (some d, t) => (d, if d = stageData s i then t else putStageData i d t)
  | (none, t) => (t.freeVal 0 % 2 ^ 64, t.drew 1)
/-- Write word i of the stage; the other half of a 64-bit word that holds an error is stored anew as it was delivered. -/
def writeStage (i v : Nat) (s : State) : State :=
  if Tab.look 0 s.bufEcc (stageWord i) = 0 then { s with stage := putW s.stage i v }
  else
    match readStage i s with
    | (d, t) =>
      let t1 := setBufEcc (stageWord i) 0 (putStageData i d t)
      { t1 with stage := putW t1.stage i v }
/-- A check reads the words of the stage that hold an error; an uncorrectable one stands for the check as a free value. -/
def senseStage (s : State) : State :=
  ((s.bufEcc.map Prod.fst).filter BufUse.stage.holds).foldl (fun t w =>
    match readStage (2 * w) t with | (d, u) => putStageData (2 * w) d u) s
/-- Begin a run of the checks on a source. -/
def beginChecks (op : LoadOp) (src : Nat) (s : State) : State :=
  let t := if src = 2 then senseStage s else s
  { t.on R.CANOPY_STATUS.BUSY with loadOp := op, loadSrc := src }

/-- CANOPY_START_LOAD (R19, Table 09-2): once the firmware runs and training has ended, the area that CANOPY_NEXT.AREA names is
checked, once in a start. -/
def execCanopyStartLoad (s : State) : Res :=
  completes s (if !(s.isSet R.START_STATUS.FIRMWARE || inRecovery s) || !s.isSet R.START_STATUS.SDRAM_DONE || loaderBusy s || configured s || s.isSet R.START_STATUS.CANOPY_DONE then s
    else beginChecks .start (s.rd R.CANOPY_NEXT.AREA) s)

/-- CHECK (R20, Table 02-1). -/
def execCheckStream (slot : Fin 8) (area : Fin 4) (s : State) : Res :=
  completes s (guardWrite slot 0x00010008 (fun s =>
    if loaderBusy s || area.val = 3 then cmdRefused s else beginChecks .check area s) s)

/-- LOAD (R20, Table 02-1). -/
def execLoadStream (slot : Fin 8) (area : Fin 4) (s : State) : Res :=
  completes s (guardWrite slot 0x00010008 (fun s =>
    if loaderBusy s || configured s || area.val = 3 then cmdRefused s else beginChecks .load area s) s)

/-- SEAL (R20, R35): seals a configured Olulo; a second one has no effect. -/
def execSealStream (slot : Fin 8) (s : State) : Res :=
  completes s (guardWrite slot 0x00010008 (fun s =>
    if loaderBusy s || !configured s then cmdRefused s else s.on R.CANOPY_STATUS.SEALED) s)

/-- CANOPY_NEXT_WRITE (R37, R38): kept in the boot record's CANOPY_NEXT word. -/
def execCanopyNextWrite (slot : Fin 8) (area : Fin 2) (s : State) : Res :=
  completes s (guardWrite slot 0x0001000C (fun s => (putKeep s 4 area).wr R.CANOPY_NEXT.AREA area) s)

/-- WORD moves on, wrapping (Table 02-23). -/
def advanceStage (s : State) : State := s.wr R.CANOPY_STAGE_ADDR.WORD (s.rd R.CANOPY_STAGE_ADDR.WORD + 1)

/-- CANOPY_STAGE_DATA_ACCESS (R37, R38): `write` carries the word of a write, or none for a read. -/
def execCanopyStageDataAccess (slot : Fin 8) (write : Option Nat) (s : State) : Res :=
  completes s (match write with
    | some v => guardWrite slot 0x00010014 (fun s =>
        if loaderBusy s && s.loadSrc = 2 then cmdRefused s
        else advanceStage (writeStage (s.rd R.CANOPY_STAGE_ADDR.WORD) v s)) s
    | none => guardRead slot 0x00010014 (fun s =>
        if loaderBusy s && s.loadSrc = 2 then (cmdRefused s).emit (.answer slot 0 0)
        else
          let w := s.rd R.CANOPY_STAGE_ADDR.WORD
          match readStage w s with
          | (d, t) => (advanceStage t).emit (.answer slot 0 (d / 2 ^ (32 * (w % 2)) % 2 ^ 32))) s)

end Sys2Proof.Machine
end

