-- ==== Sys2Proof/Machine/CanopyChecks.lean ====
section
/-! DEFINITION. The sixteen checks of a Canopy stream (R22 to R30, Table 02-21) and the offset each reports (R561), as
functions of the stream's bytes, the part's units, its member number and its trained capacity. -/
namespace Sys2Proof.Machine

/-- The least of a list of offsets, none when empty: the first offending place in stream order (R561). -/
def minOff (l : List Nat) : Option Nat :=
  l.foldl (fun a x => match a with
    | none => some x
    | some y => some (min x y)) none

/-- The offsets of the places that are not in order. -/
def badOffs (l : List (Nat × Bool)) : List Nat := (l.filter (fun e => !e.2)).map Prod.fst

/-- Section types (Table 02-4): whether MEMBER is "all", record size, largest count. -/
def sectType (ty : Nat) : Option (Bool × Nat × Nat) :=
  match ty with
  | 0x01 => some (true, 16, 32)
  | 0x02 => some (true, 16, 1)
  | 0x03 => some (false, 8, 14)
  | 0x04 => some (false, 16, 8)
  | 0x05 => some (false, 8, 2)
  | 0x06 => some (false, 4, 4)
  | 0x07 => some (false, 16, 32)
  | 0x08 => some (false, 16, 2)
  | 0x09 => some (false, 16, 16)
  | 0x0A => some (false, 12, 8)
  | 0x0B => some (false, 12, 16)
  | 0x0C => some (false, 4, 2)
  | 0x0D => some (false, 16, 32)
  | 0x0E => some (false, 16, 400)
  | 0x0F => some (false, 16, 1)
  | 0x10 => some (false, 4, 1)
  | 0x11 => some (false, 4, 65536)
  | _ => none

def readSect (bs : List Nat) (off : Nat) : Sect :=
  { off := off, ty := byteAt bs off, member := byteAt bs (off + 1), size := half bs (off + 2)
    count := half bs (off + 4), resv := half bs (off + 6) }

def Sect.stop (x : Sect) : Nat := x.off + 8 + x.size * x.count

/-- A header that Table 02-3 and Table 02-4 allow, its body ending at or before `lim` (check 6). -/
def Sect.ok (lim : Nat) (x : Sect) : Bool :=
  match sectType x.ty with
  | none => false
  | some (all, size, top) =>
    (if all then x.member = 0xFF else x.member ≤ 7) && x.size = size && 1 ≤ x.count && x.count ≤ top
      && x.resv = 0 && x.stop ≤ lim

/-- What the walk over the section headers finds. -/
inductive Walk where
  | bad (off : Nat)
  | done (sects : List Sect) (tail : Nat)
deriving DecidableEq, Repr

/-- Walk the headers from `off`; stop at the first that check 6 refuses, or where no header fits before `lim`. -/
def walkSects (bs : List Nat) (lim : Nat) : Nat → Nat → List Sect → Walk
  | 0, off, acc => .done acc.reverse off
  | fuel + 1, off, acc =>
    if off + 8 > lim then .done acc.reverse off
    else
      let x := readSect bs off
      if x.ok lim then walkSects bs lim fuel x.stop (x :: acc) else .bad off

/-- The records of a section. -/
def sectRecs (bs : List Nat) (x : Sect) : List Rec :=
  (List.range x.count).map (fun i =>
    { ty := x.ty, member := x.member, off := x.off + 8 + i * x.size
      body := (bs.drop (x.off + 8 + i * x.size)).take x.size })

/-- The walk of check 5 for the STACK record (R29): the offset of this member's MEMBER_UNITS byte. -/
def findStack (bs : List Nat) (lim member : Nat) : Nat → Nat → Option Nat
  | 0, _ => none
  | fuel + 1, off =>
    if off + 8 > lim then none
    else
      let x := readSect bs off
      if x.ty ≥ 2 then
        if x.ty = 2 && x.size = 16 && x.count = 1 && x.stop ≤ lim then some (off + 8 + 4 + member) else none
      else findStack bs lim member fuel x.stop

/-- Check 2's offending header places (R561). -/
def headerBad (bs : List Nat) : List Nat :=
  badOffs (([(0x04, half bs 4 = 1), (0x06, half bs 6 = 0x40), (0x0C, byteAt bs 0x0C < 64), (0x0D, byteAt bs 0x0D < 4)] : List (Nat × Bool))
    ++ (List.range 8).map (fun i => ((0x18 + i, byteAt bs (0x18 + i) = 0) : Nat × Bool)))

def ofType (recs : List Rec) (ty : Nat) : List Rec := recs.filter (·.ty = ty)
def ofMember (recs : List Rec) (ty m : Nat) : List Rec := recs.filter (fun r => r.ty = ty && r.member = m)

/-- Units required of a member (R29): REQUIRED with its MEMBER_UNITS byte in a stack stream. -/
def requiredOf (st : Stream) (m : Nat) : Nat :=
  if st.flags % 2 = 1 then
    match (ofType st.recs 2).head? with
    | some r => st.required ||| (if m < 8 then r.u8 (4 + m) else 0)
    | none => st.required
  else st.required

/-- The IDENT_UNITS bits that a record of a member section uses (check 8). DESIGN CHOICE: of the fault sources, those of SEAL,
the Retro Bus Ports, the drums and the trunk's ranges are a unit's; the clock sources 3, 4, 6, 9 and 10 are no unit's (log 205). -/
def unitsUsed (r : Rec) : List Nat :=
  let drumBit (n : Nat) : List Nat := if n < 2 then [n] else []
  match r.ty with
  | 0x05 => if r.u8 0 < 2 then [4 + r.u8 0] else []
  | 0x07 => if bit (r.u8 2) 0 then [3] else []
  | 0x08 => drumBit (r.u8 0)
  | 0x09 => drumBit (r.u8 0)
  | 0x0A => drumBit (r.u8 0)
  | 0x0B => drumBit (r.u8 0)
  | 0x0C => drumBit (r.u8 2)
  | 0x0D => drumBit (r.u8 0)
  | 0x0E =>
    match srcGroup (r.u16 0) with
    | .seal _ => [3]
    | .rbp p _ => [4 + p]
    | .drum n _ => [n]
    | .lane _ _ => [2]
    | .trunk _ => [2]
    | _ => []
  | 0x10 => [2]
  | _ => []

/-- Check 8: records of units that their member does not declare. -/
def check8 (st : Stream) : List Nat :=
  badOffs (st.recs.map (fun r =>
    (r.off,
      if r.ty = 1 then
        !(r.u8 2 = 1 && r.u8 3 < 2 && r.u8 1 < 8 && !bit (requiredOf st (r.u8 1)) (4 + r.u8 3))
      else if r.member = 0xFF then true
      else (unitsUsed r).all (bit (requiredOf st r.member)))))

/-- An assigned source number below 400, on a part with every unit (Table 02-18). -/
def srcAssigned (c : Nat) : Bool :=
  match srcGroup c with
  | .clock k => k ≤ 11
  | .boot k => k != 14
  | .hub k => k ≤ 5
  | .rbp _ k => k ≤ 5
  | .drum _ k => k ≤ 37
  | .trunk k => k ≤ 5
  | .stack k => k ≤ 5
  | .none => false
  | _ => true

def between (lo x hi : Nat) : Bool := lo ≤ x && x ≤ hi
/-- Reserved bytes from `a` up to below `b` hold 0. -/
def resvOk (r : Rec) (a b : Nat) : List (Nat × Bool) := (List.range' a (b - a)).map (fun k => (k, r.u8 k = 0))

/-- The Values cells of Tables 02-5 to 02-20, each with its field's offset in the record (check 9). -/
def rangeRules (st : Stream) (r : Rec) : List (Nat × Bool) :=
  let stack := st.flags % 2 = 1
  let units := requiredOf st r.member
  let grove (k : Nat) : Nat × Bool := (k, stack || r.u8 k ≤ 7)
  match r.ty with
  | 0x01 =>
    ([(0, r.u8 0 ≤ (if stack then 31 else 7)), (1, if stack then r.u8 1 ≤ 7 else r.u8 1 = 0), (2, r.u8 2 ≤ 2),
     (3, r.u8 3 ≤ (if r.u8 2 = 0 then 13 else if r.u8 2 = 1 then 1 else 3)), (4, 1 ≤ r.u8 4),
     (5, between 4 (r.u8 5) 9), (6, between 3 (r.u8 6) 7), (7, r.u8 7 < 4)] : List (Nat × Bool)) ++ resvOk r 8 16
  | 0x02 =>
    ([(0, between 2 (r.u8 0) 8), (1, r.u8 1 < r.u8 0)] : List (Nat × Bool))
      ++ (List.range 8).map (fun m =>
          (4 + m, if m < r.u8 0 then r.u8 (4 + m) < 64 && bit (r.u8 (4 + m)) 2 else r.u8 (4 + m) = 0))
      ++ resvOk r 12 16
  | 0x03 =>
    ([(0, r.u8 0 ≤ 13), (1, r.u8 1 ≤ 2), (2, (r.u8 1 != 0 || r.u8 2 = 0) && (grove 2).2),
     (3, if r.u8 1 = 2 then between 1 (r.u8 3) 14 else r.u8 3 = 0),
     (4, if r.u8 1 = 0 then r.u8 4 = 0 else r.u8 4 ≤ 7), (5, if r.u8 1 = 0 then r.u8 5 = 0 else r.u8 5 < 4)] : List (Nat × Bool)) ++ resvOk r 6 8
  | 0x04 =>
    ([(0, r.u8 0 ≤ 7), (1, r.u8 1 < 16 && bit (r.u8 1) 0),
     (2, if r.u16 4 = 0 then r.u16 2 = 0 else between 165 (r.u16 2) 1050),
     (4, r.u16 4 = 0 || (between 165 (r.u16 4) 1050 && r.u16 2 ≤ r.u16 4)),
     (6, between 1 (r.u8 6) 100), (7, between 1 (r.u8 7) 64), (8, between 165 (r.u16 8) 1050),
     (10, between 1 (r.u8 10) 100)] : List (Nat × Bool)) ++ resvOk r 11 16
  | 0x05 =>
    ([(0, r.u8 0 ≤ 1), grove 1, (2, r.u8 2 ≤ 2), (3, r.u8 3 = 8 || r.u8 3 = 16), (4, r.u8 4 < 2)] : List (Nat × Bool)) ++ resvOk r 5 8
  | 0x06 => ([(0, r.u8 0 ≤ 3), grove 1, (2, r.u8 2 ≤ 1), (3, r.u8 3 = 0)] : List (Nat × Bool))
  | 0x07 => ([(0, r.u8 0 ≤ 31), grove 1, (2, r.u8 2 < 2), (3, r.u8 3 = 0), (8, 1 ≤ r.u32 8)] : List (Nat × Bool)) ++ resvOk r 12 16
  | 0x08 =>
    ([(0, r.u8 0 ≤ 1), (1, between 1 (r.u8 1) 4), (2, r.u8 2 < r.u8 1), (3, r.u8 3 < 2)] : List (Nat × Bool))
      ++ (List.range 4).map (fun k => ((4 + k, if k < r.u8 1 then r.u8 (4 + k) != 0xFF && (grove (4 + k)).2 else r.u8 (4 + k) = 0xFF) : Nat × Bool))
      ++ (List.range 4).map (fun k => ((8 + k, if k < r.u8 1 then 1 ≤ r.u8 (8 + k) else r.u8 (8 + k) = 0) : Nat × Bool))
      ++ ([(12, r.u8 12 ≤ 3), (13, r.u8 13 ≤ 7), (14, r.u8 14 ≤ 3), (15, r.u8 15 = 0)] : List (Nat × Bool))
  | 0x09 =>
    ([(0, r.u8 0 ≤ 1), (1, r.u8 1 ≤ 7), (2, 1 ≤ r.u8 2), (3, r.u8 3 ≤ 5), (4, r.u32 4 % 4 = 0),
     (8, 4 ≤ r.u32 8 && r.u32 8 % 4 = 0), (12, r.u8 12 < 2)] : List (Nat × Bool)) ++ resvOk r 13 16
  | 0x0A =>
    ([(0, r.u8 0 ≤ 1), (1, r.u8 1 ≤ 3), (2, between 2 (r.u8 2) 32), (3, r.u8 3 = 0), (4, r.u32 4 % 4 = 0),
     (8, 4 ≤ r.u32 8 && r.u32 8 % 4 = 0)] : List (Nat × Bool))
  | 0x0B =>
    ([(0, r.u8 0 ≤ 1), (1, r.u8 1 ≤ 7), (2, between 1 (r.u8 2) 64), (3, r.u8 3 < 2), (4, r.u32 4 % 4 = 0),
     (8, 4 ≤ r.u32 8 && r.u32 8 % 4 = 0)] : List (Nat × Bool))
  | 0x0C => ([(0, r.u8 0 ≤ 1), grove 1, (2, r.u8 2 ≤ 1), (3, r.u8 3 = 0)] : List (Nat × Bool))
  | 0x0D =>
    ([(0, r.u8 0 ≤ 3), (1, between 0x50 (r.u8 1) 0x57),
     (2, if r.u8 0 ≤ 1 then r.u8 2 = 0x01 || r.u8 2 = 0x02 else if r.u8 0 = 2 then r.u8 2 = 0x10 else r.u8 2 = 0x20),
     (3, r.u8 3 < 2), (4, 1 ≤ r.u16 4), (6, if r.u8 0 = 2 then between 1 (r.u16 6) 0x3FFF else r.u16 6 = 0),
     (8, bit (r.u8 3) 0 || (r.u32 8 = 0 && r.u32 12 = 0))] : List (Nat × Bool))
  | 0x0E =>
    ([(0, srcAssigned (r.u16 0)), (2, r.u8 2 ≤ 1), (3, r.u8 3 ≤ 15), (4, 1 ≤ r.u8 4), (5, r.u8 5 ≤ 1), (6, 1 ≤ r.u16 6),
     (8, between 1 (r.u32 8) 16777215), (12, if r.u8 5 = 0 then between 1 (r.u32 12) 16777215 else r.u32 12 = 0)] : List (Nat × Bool))
  | 0x0F =>
    ([(0, r.u8 0 ≤ 1), (1, 1 ≤ r.u8 1), (2, r.u8 2 ≤ 3), (3, r.u8 3 ≤ (if bit units 0 then 3 else 0)),
     (4, r.u8 4 ≤ (if bit units 1 then 3 else 0)), (5, r.u8 5 ≤ r.u8 3), (6, r.u8 6 ≤ r.u8 4), (7, r.u8 7 = 0),
     (12, if r.u8 0 = 1 then 32 ≤ r.u32 12 else r.u32 12 = 0)] : List (Nat × Bool))
  | 0x10 => ([(0, r.u8 0 ≤ 2), (1, between 1 (r.u8 1) 15), (2, r.u8 2 = 0), (3, r.u8 3 = 0)] : List (Nat × Bool))
  | _ => []

/-- The records of the same member and type that stand before `r`. -/
def earlier (recs : List Rec) (r : Rec) : List Rec :=
  recs.filter (fun x => x.ty = r.ty && x.member = r.member && x.off < r.off)

/-- R27: a DOWN tile's HUB_PORT is at most the grove's count of DOWN tiles on the member, and not used before. -/
def hubPortOk (st : Stream) (r : Rec) : Bool :=
  let mates := (ofMember st.recs 3 r.member).filter (fun x => x.u8 1 = 2 && x.u8 2 = r.u8 2)
  r.u8 1 != 2 || (r.u8 3 ≤ mates.length && !(mates.any (fun x => x.off < r.off && x.u8 3 = r.u8 3)))

def check9 (st : Stream) : List Nat :=
  st.recs.flatMap (fun r =>
    (badOffs (rangeRules st r)).map (r.off + ·) ++ (if r.ty = 3 && !hubPortOk st r then [r.off + 3] else []))

/-- The key of a record within its section (check 10); none for types without one. -/
def recKey (r : Rec) : Option (Nat × Nat) :=
  match r.ty with
  | 0x01 => some (r.u8 0, 0)
  | 0x03 => some (r.u8 0, 0)
  | 0x04 => some (r.u8 0, 0)
  | 0x05 => some (r.u8 0, 0)
  | 0x06 => some (r.u8 0, 0)
  | 0x07 => some (r.u8 0, 0)
  | 0x08 => some (r.u8 0, 0)
  | 0x09 => some (r.u8 0, r.u8 1)
  | 0x0A => some (r.u8 0, r.u8 1)
  | 0x0B => some (r.u8 0, r.u8 1)
  | 0x0C => some (r.u8 0, 0)
  | 0x0D => some (r.u8 0, r.u8 1)
  | 0x0E => some (r.u16 0, 0)
  | _ => none

def noRepeat : List Nat → Bool
  | [] => true
  | x :: xs => !xs.contains x && noRepeat xs

def check10 (st : Stream) : List Nat :=
  badOffs (st.recs.map (fun r =>
    (r.off, (recKey r = none || !((earlier st.recs r).any (fun x => recKey x = recKey r))) && (r.ty != 8 || noRepeat (listed r)))))

def groveNums (st : Stream) : List Nat := (ofType st.recs 1).map (·.u8 0)
/-- Bytes of a member's BLOB body. -/
def blobOf (st : Stream) (m : Nat) : List Nat := (ofMember st.recs 0x11 m).flatMap (fun r => r.body.take 4)

/-- Check 11: a record names only what exists. -/
def refsOk (st : Stream) (r : Rec) : Bool :=
  let gs := groveNums st
  let drumListed := (ofMember st.recs 8 r.member).any (fun d => d.u8 0 = (if r.ty = 0x0C then r.u8 2 else r.u8 0))
  let span := r.u32 4 + r.u32 8 ≤ (blobOf st r.member).length
  match r.ty with
  | 0x03 => r.u8 1 = 0 || (gs.contains (r.u8 2) && (ofMember st.recs 4 r.member).any (fun x => x.u8 0 = r.u8 4))
  | 0x05 => gs.contains (r.u8 1)
  | 0x06 => gs.contains (r.u8 1)
  | 0x07 => gs.contains (r.u8 1)
  | 0x08 =>
    (listed r).all gs.contains && (ofMember st.recs 0x0A r.member).any (fun x => x.u8 0 = r.u8 0 && x.u8 1 = r.u8 12)
      && (ofMember st.recs 0x0B r.member).any (fun x => x.u8 0 = r.u8 0 && x.u8 1 = r.u8 13)
  | 0x09 => drumListed && span
  | 0x0A => drumListed && span
  | 0x0B => drumListed && span
  | 0x0C => gs.contains (r.u8 1) && drumListed
  | _ => true

def check11 (st : Stream) : List Nat := badOffs (st.recs.map (fun r => (r.off, refsOk st r)))

/-- The GROVE record of a grove. -/
def groveOfNum (st : Stream) (g : Nat) : Option Rec := (ofType st.recs 1).find? (fun r => r.u8 0 = g)
/-- Whether grove `g` is rooted at (member, kind, index). -/
def rootsAt (st : Stream) (g m kind idx : Nat) : Bool :=
  match groveOfNum st g with
  | some r => r.u8 1 = m && r.u8 2 = kind && r.u8 3 = idx
  | none => false
def consoleGrove (st : Stream) (g : Nat) : Bool :=
  match groveOfNum st g with
  | some r => r.u8 2 = 2
  | none => false

/-- Check 12: roots match records and records match roots. -/
def rootOk (st : Stream) (r : Rec) : Bool :=
  match r.ty with
  | 0x01 =>
    match r.u8 2 with
    | 0 => (ofMember st.recs 3 (r.u8 1)).any (fun x => x.u8 0 = r.u8 3 && x.u8 1 = 1 && x.u8 2 = r.u8 0)
    | 1 => (ofMember st.recs 5 (r.u8 1)).any (fun x => x.u8 0 = r.u8 3 && x.u8 1 = r.u8 0)
    | _ => (ofMember st.recs 6 (r.u8 1)).any (fun x => x.u8 0 = r.u8 3 && x.u8 2 = 1 && x.u8 1 = r.u8 0)
  | 0x03 => r.u8 1 = 0 || ((r.u8 1 != 1 || rootsAt st (r.u8 2) r.member 0 (r.u8 0)) && !consoleGrove st (r.u8 2))
  | 0x05 => rootsAt st (r.u8 1) r.member 1 (r.u8 0)
  | 0x06 => if r.u8 2 = 1 then rootsAt st (r.u8 1) r.member 2 (r.u8 0) else !consoleGrove st (r.u8 1)
  | 0x07 => !consoleGrove st (r.u8 1)
  | 0x08 => (listed r).all (fun g => !consoleGrove st g)
  | 0x0C =>
    !consoleGrove st (r.u8 1) && (ofMember st.recs 8 r.member).any (fun d => d.u8 0 = r.u8 2 && (listed d).contains (r.u8 1))
  | _ => true

def check12 (st : Stream) : List Nat :=
  (if (groveNums st).contains 0 then [] else [0x40]) ++ badOffs (st.recs.map (fun r => (r.off, rootOk st r)))

/-- The record at which a running sum first passes a limit. -/
def firstOver (limit : Nat) (w : Rec → Nat) : Nat → List Rec → List Nat
  | _, [] => []
  | acc, r :: rs => if acc + w r > limit then [r.off] else firstOver limit w (acc + w r) rs

def overlaps (x y : Rec) : Bool := x.u32 4 < y.u32 4 + y.u32 8 && y.u32 4 < x.u32 4 + x.u32 8

/-- Check 13's limits on one member. -/
def memberLimits (st : Stream) (m : Nat) : List Nat :=
  firstOver 4 (fun _ => 1) 0 ((ofMember st.recs 3 m).filter (fun r => r.u8 1 = 1))
    ++ (touchFold m st.recs [0]).2.toList
    ++ firstOver 2048 (fun r => 2 ^ r.u8 5) 0 ((ofType st.recs 1).filter (fun r => (touchedBy st m).contains (r.u8 0)))
    ++ badOffs ((ofMember st.recs 7 m).map (fun r => (r.off, !((earlier st.recs r).any (overlaps r)))))

/-- Check 13 for the capacity trained on this part (R90, R107): its own regions. -/
def capacityLimits (st : Stream) (own cap : Nat) (sl : Bool) : List Nat :=
  let usable := if sl then cap - cap / 512 else cap
  badOffs ((ofMember st.recs 7 own).map (fun r => (r.off, 4096 * (r.u32 4 + r.u32 8) ≤ usable)))

/-- Ports of a grove's virtual hub (R506), counting the TILE records up to and including offset `upTo`. -/
def streamHubPorts (st : Stream) (g root upTo : Nat) : Nat :=
  let ts := (ofType st.recs 3).filter (fun r => r.u8 1 = 2 && r.u8 2 = g && r.off ≤ upTo)
  (ts.filter (fun r => r.member = root)).length + 1
    + ((List.range 8).filter (fun m => m != root && ts.any (fun r => r.member = m))).length

def hubLimits (st : Stream) : List Nat :=
  badOffs ((ofType st.recs 3).map (fun r =>
    (r.off, match groveOfNum st (r.u8 2) with
      | some x => r.u8 1 != 2 || x.u8 2 != 0 || streamHubPorts st (r.u8 2) (x.u8 1) r.off ≤ 15
      | none => true)))

def check13 (st : Stream) (own cap : Nat) (sl : Bool) : List Nat :=
  (List.range 8).flatMap (memberLimits st) ++ capacityLimits st own cap sl ++ hubLimits st

/-- Check 14 (R561's places). -/
def check14 (st : Stream) (straps : Nat) : List Nat :=
  if st.flags % 2 = 1 then
    let rec? := (ofType st.recs 2).head?
    let mc := (rec?.map (·.u8 0)).getD 0
    badOffs (st.sects.map (fun x => (x.off, x.member = 0xFF || x.member < mc)))
      ++ badOffs ((ofType st.recs 1).map (fun r => (r.off, r.u8 1 < mc)))
      ++ (match rec? with
          | some r =>
            if straps < mc && (List.range mc).all (fun m => st.sects.any (fun x => x.ty = 0x10 && x.member = m)) then []
            else [r.off]
          | none => [])
  else badOffs (st.sects.map (fun x => (x.off, x.ty != 2 && x.ty != 0x10 && (x.member = 0 || x.member = 0xFF))))

/-- The bytes a VOICE, CURVE or SLED record names. -/
def programBytes (st : Stream) (r : Rec) : List Nat := ((blobOf st r.member).drop (r.u32 4)).take (r.u32 8)

/-- Check 15 for one record (R354, R371, R389), with the rules across one drum's records before it. -/
def formatOk (st : Stream) (r : Rec) : Bool :=
  let bs := programBytes st r
  let before := (earlier st.recs r).filter (fun x => x.u8 0 = r.u8 0)
  match r.ty with
  | 0x09 =>
    let g := readProgram bs
    programOk bs (r.u32 8) (r.u8 3) (bit (r.u8 12) 0)
      && before.all (fun x => (readProgram (programBytes st x)).dests.all (fun d => !g.dests.contains d))
      && (!bit (r.u8 12) 0 || (before.filter (fun x => bit (x.u8 12) 0)).length < 3)
  | 0x0A => curveOk bs (r.u32 8) (r.u8 2)
  | 0x0B => sledOk bs (r.u32 8) (r.u8 2) && before.all (fun x => bit (x.u8 3) 0 = bit (r.u8 3) 0)
  | _ => true

def check15 (st : Stream) : List Nat := badOffs (st.recs.map (fun r => (r.off, formatOk st r)))

/-- DRUM_n_FLOOR of a member (Table 02-19 with its defaults). -/
def floorOf (st : Stream) (m n : Nat) : Nat :=
  match (ofMember st.recs 0x0F m).head? with
  | some r => r.u8 (5 + n)
  | none => if bit (requiredOf st m) n && (ofMember st.recs 8 m).any (fun d => d.u8 0 = n) then 3 else 0

/-- Check 16: the voices of a drum up to and with a VOICE record fit the floor's budget (R357). -/
def scheduleOk (st : Stream) (r : Rec) : Bool :=
  let set := (ofMember st.recs 9 r.member).filter (fun x => x.u8 0 = r.u8 0 && x.off ≤ r.off)
  frameSum (set.map (fun x => (voiceCost (readProgram (programBytes st x)) (bit (x.u8 12) 0), bit (x.u8 12) 0)))
    ≤ tempoBudget (floorOf st r.member (r.u8 0))

def check16 (st : Stream) : List Nat := badOffs ((ofType st.recs 9).map (fun r => (r.off, scheduleOk st r)))

/-- Run the checks from 8 on over a parsed stream. -/
def laterChecks (st : Stream) (straps cap units : Nat) : Option (Nat × Nat) :=
  let own := if st.flags % 2 = 1 then straps else 0
  let one (code : Nat) (l : List Nat) : Option (Nat × Nat) := (minOff l).map (fun o => (code, o))
  (one 0x08 (check8 st)).orElse fun _ => (one 0x09 (check9 st)).orElse fun _ => (one 0x0A (check10 st)).orElse fun _ =>
  (one 0x0B (check11 st)).orElse fun _ => (one 0x0C (check12 st)).orElse fun _ =>
  (one 0x0D (check13 st own cap (bit units 3))).orElse fun _ => (one 0x0E (check14 st straps)).orElse fun _ =>
  (one 0x0F (check15 st)).orElse fun _ => one 0x10 (check16 st)

/-- Check 7 over the sections found and where the walk ended. -/
def check7 (lim sections : Nat) (sects : List Sect) (tail : Nat) : List Nat :=
  (if tail = lim then [] else [tail])
    ++ badOffs (sects.map (fun x =>
        (x.off, sects.all (fun y => x.off ≤ y.off || y.ty < x.ty || (y.ty = x.ty && y.member < x.member)))))
    ++ (if sections = sects.length then [] else [0x0E])
    ++ (if sects.any (fun x => x.ty = 1) then [] else [0x40])

/-- The result of a run: the refusing check's code and offset, or the accepted stream (R30). -/
inductive CheckResult where
  | refused (code detail : Nat)
  | accepted (st : Stream)
deriving DecidableEq, Repr

/-- The sixteen checks (R30) over a source of `size` bytes, given by a reader of its first bytes. Check 5 tests bits [7:6] of the
MEMBER_UNITS byte too, which no part has (DESIGN CHOICE, log entry 173). -/
def runChecks (read : Nat → List Nat) (size units straps cap : Nat) : CheckResult :=
  let hd := read 64
  if hd.take 4 != [0x43, 0x4E, 0x50, 0x59] then .refused 0x01 0
  else match minOff (headerBad hd) with
  | some o => .refused 0x02 o
  | none =>
    let L := word hd 8
    if L % 4 != 0 || L < 120 || L > 1048576 || L > size then .refused 0x03 0x08
    else
      let bs := read L
      let lim := L - 32
      if sha256 (bs.take lim) != bs.drop lim then .refused 0x04 lim
      else
        let req := byteAt bs 0x0C
        let flags := byteAt bs 0x0D
        let mu := if flags % 2 = 1 then findStack bs lim straps (L / 8) 0x40 else none
        if andNot req units != 0 then .refused 0x05 0x0C
        else if (match mu with | some o => andNot (byteAt bs o) units != 0 | none => false) then .refused 0x05 (mu.getD 0)
        else match walkSects bs lim (L / 8) 0x40 [] with
        | .bad o => .refused 0x06 o
        | .done sects tail =>
          match minOff (check7 lim (half bs 0x0E) sects tail) with
          | some o => .refused 0x07 o
          | none =>
            let st : Stream :=
              { length := L, required := req, flags := flags, sections := half bs 0x0E, sects := sects
                recs := sects.flatMap (sectRecs bs), digest := bs.drop lim }
            match laterChecks st straps cap units with
            | some (c, o) => .refused c o
            | none => .accepted st

end Sys2Proof.Machine
end

