-- ==== Sys2Proof/Machine/Seal.lean ====
section
/-! DEFINITION. SEAL's commands: re-keys and their walk, page jobs, key draws (chapter 05). -/
namespace Sys2Proof.Machine

/-- Pages of a region under NEW: those below the watermark and the AHEAD ones above it (Table 05-4). -/
def pageDone (s : State) (r i : Nat) : Bool :=
  i < watermark s r || (match (readEntry ((regionSpan s r).1 / 4096 + i) s).1 with | some e => e.ahead | none => false)
def pagesDone (s : State) (r : Nat) : Nat := ((List.range (regionPages s r)).filter (pageDone s r)).length
def doneMapOf (s : State) (r : Nat) : Nat :=
  (List.range (min 64 (regionPages s r))).foldl (fun m i => if pageDone s r i then m + 2 ^ i else m) 0

/-- End a region's re-key job with its tally (R103). -/
def endRekey (r status done map : Nat) (s : State) : State :=
  let x := sealOf s r
  postTally (putSeal { s with walks := s.walks.filter (· ≠ r) } r { x with job := none }) 1 (regionSlot s r)
    (rekeyTally s r (x.job.getD 0) status (regionPages s r) done x.poisonPage x.poisonSource map)

/-- The walk reaches PAGES (R100 step 5). -/
def completeRekey (r : Nat) (s : State) : State :=
  let n := regionPages s r
  let s1 := endRekey r 0 n (2 ^ min 64 n - 1) s
  let s2 := putSeal s1 r { sealOf s1 r with oldKey := 0, oldHash := 0 }
  (s2.wr (R.SEAL_REGION_STATE.STATE r) 1).wr (R.SEAL_REGION_WATERMARK.PAGE r) 0

/-- A REKEY command of a slot for a region, with the work ID that stood when it was written (R100, R101). -/
def rekeyCommand (slot r id : Nat) (s : State) : State :=
  if regionSealed s r && regionState s r != 2 then startRekey r id s
  else
    let owner := match regionGrove s r with | some g => (slotOf s g).getD slot | none => slot
    postTally s 1 owner
      { workId := id, status := 4, kind := 4, grove := (groveOf s owner).getD 0, flags := 0, requested := 0, done := 0,
        firstFailed := 0xFFFFFFFF, source := 0, retries := 0, depth := 0, doneMap := 0 }
/-- REKEY (R100, R101, R109): the writer's SEAL_REGION_WORK_ID names the job; from entry point 1 to Active the command is held
(R139). -/
def execRekey (slot : Fin 8) (region : Fin 32) (s : State) : Res :=
  completes s (guardWrite slot (0x000A1014 + 0x20 * region.val) (fun s =>
    let id := s.rd (R.SEAL_REGION_WORK_ID.ID region)
    if s.rd R.DORMANT_STATUS.STATE != 0 then { s with heldRekeys := s.heldRekeys ++ [(slot.val, region.val, id)] }
    else rekeyCommand slot region id s) s)
/-- Held REKEY commands are carried out in order. -/
def releaseRekeys (s : State) : State :=
  s.heldRekeys.foldl (fun t e => rekeyCommand e.1 e.2.1 e.2.2 t) { s with heldRekeys := [] }

/-- REKEY_PAGE_CONVERTED (R100, R103): the running walk converts its next page; a page under a page job waits. -/
def execRekeyPageConverted (s : State) : Res :=
  completes s (match s.walks with
    | [] => s
    | r :: _ =>
      let page := (regionSpan s r).1 / 4096 + watermark s r
      if underJob s page then s
      else
        let s1 := match readEntry page s with
          | (some e, t) => if e.ahead then writeEntry page { e with ahead := false } t else convertPage r page false t
          | (none, t) => convertPage r page false t
        let s2 := s1.wr (R.SEAL_REGION_WATERMARK.PAGE r) (watermark s1 r + 1)
        if watermark s2 r ≥ regionPages s2 r then completeRekey r s2 else s2)

/-- PAGE_JOB_DONE (R96). -/
def execPageJobDone (page : Nat) (s : State) : Res := completes s (if underJob s page then finishJob page s else s)

/-- SEAL_KEY_DRAW (R98): RNG_READY becomes 1, and each region that waits for its keys takes them. -/
def execSealKeyDraw (s : State) : Res :=
  completes s (if !hasSeal s || Tab.look false s.causes 29 then s
    else (List.range 32).foldl (fun t r => if (sealOf t r).needsKeys then drawKeys r t else t)
      (setCause 44 false (s.on R.SEAL_STATUS.RNG_READY)))

/-- Halt the walks of a slot's regions at a page boundary (R102): SPLIT, with tallies of status CANCELLED. -/
def haltWalks (slot : Nat) (s : State) : State :=
  (s.walks.filter (fun r => regionSlot s r = slot)).foldl (fun t r =>
    (endRekey r 5 (pagesDone t r) (doneMapOf t r) t).wr (R.SEAL_REGION_STATE.STATE r) 3) s

/-- A page's entry at a load: MAJOR 0, FRESH 1, AHEAD 0 (R92). -/
def writeFreshEntry (page : Nat) (s : State) : State :=
  let a := ctBase s + 8 * page
  putBeat s a (a / 8 % 8) (beatOf (CtEntry.word ⟨0, true, false⟩))
/-- What an accepted load does to SEAL (R85, R92, R98): descriptors, keys, and a FRESH entry for every sealed page. -/
def loadRegion (r : Nat) (s : State) : State :=
  let s0 := putSeal (s.rstAll (R.SEAL_REGION_BASE.all r ++ R.SEAL_REGION_PAGES.all r ++ R.SEAL_REGION_STATE.all r
    ++ R.SEAL_REGION_WATERMARK.all r ++ R.SEAL_REGION_WORK_ID.all r ++ R.SEAL_REGION_TAG_FAILS.all r
    ++ R.SEAL_REGION_FAIL_LINE.all r)) r SealRegion.reset
  match regionRec s r with
  | none => s0
  | some x =>
    let s1 := (((s0.on (R.SEAL_REGION_BASE.VALID r)).wr (R.SEAL_REGION_BASE.GROVE r) (x.u8 1)).wr
      (R.SEAL_REGION_BASE.BASE r) (x.u32 4)).wr (R.SEAL_REGION_PAGES.PAGES r) (x.u32 8)
    if !bit (x.u8 2) 0 then s1
    else
      let s2 := ((s1.on (R.SEAL_REGION_BASE.SEALED r)).wr (R.SEAL_REGION_STATE.STATE r) 1).wr (R.SEAL_REGION_STATE.EPOCH r) 1
      let s3 := if s2.isSet R.SEAL_STATUS.RNG_READY then drawKeys r s2
        else setCause 44 true (putSeal s2 r { SealRegion.reset with needsKeys := true })
      let s4 := putSeal s3 r { sealOf s3 r with oldKey := 0, oldHash := 0 }
      (List.range (x.u32 8)).foldl (fun t i => writeFreshEntry (x.u32 4 + i) t) s4

/-- The counter table is written 0 throughout before the sealed pages' entries are (R91); the cache empties. -/
def clearTable (s : State) : State :=
  { s with
    sdram := s.sdram.filter (fun e => e.1 < ctBase s / 8 || sdramCapacity s / 8 ≤ e.1)
    ctCache := [] }
def loadSeal (s : State) : State :=
  if !hasSeal s then s
  else
    ((List.range 32).foldl (fun t r => loadRegion r t) (clearTable { s with walks := [], pageJobs := [], memWait := [] })).on R.SEAL_STATUS.CT_READY

end Sys2Proof.Machine
end

