-- ==== Sys2Proof/Machine/Clock.lean ====
section
/-! DEFINITION. The metronome's sources, the 25 MHz reference, the fast clock generators and the tempo sequencers
(chapter 06). -/
namespace Sys2Proof.Machine

/-- What a failed action brings: an occurrence of its source, then a backoff where a retry is left, or its consequence
when the budget is spent (R202). -/
def failOrRetry (c : Nat) (spent : State → State) (s : State) : State :=
  let s1 := occur c s
  if retryLeft s1 c then { s1 with backoff := Tab.put false s1.backoff c true } else spent (retryEnd c s1)

def putRail (r : Nat) (x : Rail) (s : State) : State :=
  if r = 0 then { s with rail0 := x } else if r = 1 then { s with rail1 := x } else { s with rail2 := x }
def clockTempo (s : State) (r : Nat) : Nat := s.rd (R.TEMPO_STATE.CLOCK_TEMPO r)
def genState (s : State) (g : Nat) : Nat := s.rd (R.CLOCK_STATUS.GEN g)
/-- A rail that takes requests and whose PGOOD counts: VDD_CORE, and the rail of a present, listed drum (R128). -/
def railLive (s : State) (r : Nat) : Bool := r = 0 || (r ≤ 2 && hasDrum s (r - 1) && (drumRec s (r - 1)).isSome)

/-- The PGOOD pin of a present rail, as the register shows it; a rail that no DRUM record lists has no other effect (R122, R128). -/
def showPgood (r : Nat) (b : Bool) (s : State) : State :=
  if r = 0 || hasDrum s (r - 1) then s.wrB (R.TEMPO_STATE.PGOOD r) b else s

/-- MEMCTL is FAILED: training ended so, or CK_MEM is lost (R74, Table 06-2). -/
def memFailed (s : State) : State :=
  setCause 32 true (((s.wr R.MEMCTL_STATUS.STATE 4).wr R.MEMCTL_STATUS.CAPACITY 0).wr R.SEAL_CT_BASE.LINE 0)

/-- A relock starts: the fed domains run on the reference until it ends (R118). -/
def startRelock (g : Nat) (s : State) : State := (s.bump R.CLOCK_RELOCKS.COUNT 1).wr (R.CLOCK_STATUS.GEN g) 1

/-- The floor of a drum's rail while voices are loaded (R28, R357). -/
def railFloor (s : State) (r : Nat) : Nat :=
  if r = 0 || !(anyVoice s (r - 1) || (drumSt s (r - 1)).cmds.any (fun c => c.op = 1)) then 0
  else s.rd (R.DH_BUDGET.FLOOR_EFF (r - 1))
/-- TARGET and FLOORED follow REQ and FLOOR (R28, R124). -/
def setTarget (r : Nat) (s : State) : State :=
  let q := s.rd (R.TEMPO_REQ.TEMPO r)
  let t := max q (railFloor s r)
  (s.wr (R.TEMPO_STATE.TARGET r) t).wrB (R.TEMPO_STATE.FLOORED r) (q < t)

/-- The sequencer's next step (R124); a clock step of a generator that is OFF completes at once. -/
def tempoNext (r : Nat) : Nat → State → State
  | 0, s => s
  | fuel + 1, s =>
    let x := railOf s r
    let t := s.rd (R.TEMPO_STATE.TARGET r)
    let c := clockTempo s r
    if t > x.v then
      putRail r { x with aim := t, wait := 1 } ((s.wr (R.TEMPO_STATE.VID r) t).wr (R.TEMPO_STATE.SEQ r) 1)
    else if t ≠ c then
      if genState s r = 0 then tempoNext r fuel (s.wr (R.TEMPO_STATE.CLOCK_TEMPO r) t)
      else startRelock r (putRail r { x with aim := t, wait := 0 } (s.wr (R.TEMPO_STATE.SEQ r) (if t > c then 2 else 3)))
    else if t < x.v then
      putRail r { x with aim := t, wait := 1 } ((s.wr (R.TEMPO_STATE.VID r) t).wr (R.TEMPO_STATE.SEQ r) 4)
    else putRail r { x with wait := 0 } (s.wr (R.TEMPO_STATE.SEQ r) 0)

/-- Re-read the target; a sequencer in STEADY or CLOCK_FAILED takes its next step, the latter with a fresh budget. -/
def tempoUpdate (r : Nat) (s : State) : State :=
  let s1 := setTarget r s
  if seqOf s1 r = 0 then tempoNext r 4 s1
  else if seqOf s1 r = 6 then tempoNext r 4 (retryEnd (2 + r) s1)
  else s1

/-- A generator that the request leaves FAILED at the clock tempo it would have starts a fresh relock, with a fresh budget
(R119): the rail is in no state that relocks of its own. -/
def retryFailed (r : Nat) (s : State) : State :=
  if genState s r = 4 && (seqOf s r = 0 || seqOf s r = 1 || seqOf s r = 4) && s.rd (R.TEMPO_STATE.TARGET r) = clockTempo s r then
    startRelock r (retryEnd (2 + r) s)
  else s
/-- TEMPO_REQ_WRITE (R119, R124, R128, R131): rail 0 to 2. -/
def execTempoReqWrite (slot : Fin 8) (rail : Fin 3) (tempo : Fin 4) (s : State) : Res :=
  completes s (guardWrite slot (0x00020020 + 16 * rail.val)
    (fun s => retryFailed rail (tempoUpdate rail (s.wr (R.TEMPO_REQ.TEMPO rail) tempo))) s)

/-- A rail enters HELD (R125); its relock is made once PGOOD and TEMPO_SETTLE have returned, and one under way is replaced by
it (Table 06-8). -/
def enterHeld (r why : Nat) (s : State) : State :=
  setCause (8 + r) true (putRail r { railOf s r with held := why, wait := 1 } (s.wr (R.TEMPO_STATE.SEQ r) 5))
/-- The relock under way of a tempo rail's generator counts for nothing: HELD will make its own (R125, Table 06-8). -/
def relockStale (s : State) (g : Nat) : Bool := g ≤ 2 && seqOf s g = 5 && (railOf s g).wait != 0

/-- PGOOD_FALL (R125, Table 06-4). A fall while a raise or a lowering still waits for PGOOD is that wait's own. -/
def execPgoodFall (rail : Fin 3) (s : State) : Res :=
  senses s (showPgood rail false s) (if !railLive s rail then showPgood rail false s
    else
      let r := rail.val
      let x := railOf s r
      let s1 := s.off (R.TEMPO_STATE.PGOOD r)
      match seqOf s r with
      | 0 => enterHeld r 3 s1
      | 1 => if x.wait = 1 then s1 else enterHeld r 2 s1
      | 2 => enterHeld r 1 s1
      | 3 => enterHeld r 1 s1
      | 4 => putRail r { x with wait := 1 } s1
      | 5 => putRail r { x with wait := 1 } s1
      | 6 => enterHeld r 3 s1
      | _ => s1)

/-- TEMPO_PGOOD_RISE (R122, R124, R125, R127): the TEMPO_SETTLE wait begins where one is due; one that a wake awaits and that
comes late sets source 11, which the wake's end has set already where it came first. -/
def execTempoPgoodRise (rise : PgoodRise) (s : State) : Res :=
  senses s (showPgood rise.rail true s) (if !railLive s rise.rail then showPgood rise.rail true s
    else
      let r := rise.rail.val
      let x := railOf s r
      let s0 := setCause (8 + r) false (s.on (R.TEMPO_STATE.PGOOD r))
      let s1 := if rise.late && x.held = 4 && x.wait = 1 && s.rd R.DORMANT_STATUS.STATE = 3 then occur 11 s0 else s0
      if x.wait = 1 then putRail r { x with wait := 2 } s1 else s1)

/-- HELD ends with its relock, or at once when the generator is OFF (R125). -/
def endHeld (r : Nat) (s : State) : State :=
  let x := railOf s r
  let s1 := putRail r { x with held := 0, wait := 0 } s
  tempoNext r 4 (setTarget r (if x.held = 1 then s1.wr (R.TEMPO_STATE.CLOCK_TEMPO r) x.aim else s1))

/-- A domain that an entry kept down samples its request again (R140, R142). -/
def releaseDown (p : Nat × Nat → Bool) (s : State) : State :=
  match s.entry with
  | none => s
  | some e =>
    let go := e.down.filter p
    syncGens ((go.map (·.2)).foldl (fun t d => sampleRequest d t) { s with entry := some { e with down := e.down.filter (fun x => !p x) } })
/-- In a wake, the domains of a rail rise again once the rail is ready (R127, R142). -/
def railReady (r : Nat) (s : State) : State :=
  if s.rd R.DORMANT_STATUS.STATE = 3 then releaseDown (fun x => domRail x.2 = some r) s else s

/-- TEMPO_SETTLE_EXPIRE (R124, R125): a voltage step completes, or HELD makes its one relock. DESIGN CHOICE: the attempts that
the relock which HELD interrupted had spent count against the budget of the one that HELD makes (log 208). -/
def settleExpire (rail : Fin 3) (s : State) : State :=
  (
    let r := rail.val
    let x := railOf s r
    if x.wait != 2 then s
    else
      let done := putRail r { x with v := x.aim, wait := 0 } s
      match seqOf s r with
      | 1 => railReady r (tempoNext r 4 (putRail r { railOf done r with held := 0 } done))
      | 4 => tempoNext r 4 done
      | 5 =>
        let s1 := putRail r { x with v := if x.held = 2 then x.aim else x.v, wait := 0 } s
        if genState s r = 0 then endHeld r s1 else startRelock r s1
      | _ => s)

/-- PGOOD_WAIT_TIMEOUT (R125): 2 ms pass in a wait for PGOOD. -/
def execPgoodWaitTimeout (rail : Fin 3) (s : State) : Res :=
  completes s (
    let r := rail.val
    let x := railOf s r
    if x.wait != 1 then s
    else if seqOf s r = 1 then enterHeld r 2 s
    else if seqOf s r = 4 then
      tempoNext r 4 (putRail r { x with v := x.aim, wait := 0 } (setCause (8 + r) true s))
    else s)

/-- RELOCK_LOCK_ACQUIRED (R118): the hold count begins. -/
def execRelockLockAcquired (gen : Fin 6) (s : State) : Res :=
  completes s (if genState s gen = 1 && !relockStale s gen then s.wr (R.CLOCK_STATUS.GEN gen) 2 else s)

/-- What a lock completes on the generator's tempo rail (R124, R125). -/
def lockRail (g : Nat) (s : State) : State :=
  if 2 < g then s
  else
    let x := railOf s g
    match seqOf s g with
    | 2 => tempoNext g 4 (s.wr (R.TEMPO_STATE.CLOCK_TEMPO g) x.aim)
    | 3 => tempoNext g 4 (s.wr (R.TEMPO_STATE.CLOCK_TEMPO g) x.aim)
    | 5 => endHeld g s
    | _ => s

/-- RELOCK_HOLD_COMPLETE (R118): the fed domains return to the generator, and a tempo step completes. -/
def relockHoldComplete (gen : Fin 6) (s : State) : State :=
  (if genState s gen != 2 || relockStale s gen then s
    else
      let s1 := retryEnd (2 + gen.val) (s.wr (R.CLOCK_STATUS.GEN gen) 3)
      lockRail gen (if gen.val = 0 then s1.on R.START_STATUS.CORE_LOCKED else s1))

/-- The consequences of a generator whose budget is spent (Table 06-2, Table 06-4). DESIGN CHOICE: where the relock was a
frequency monitor's and the rail's sequencer stands in STEADY, RAISING or LOWERING, the sequencer stays as it is (log 209);
Table 06-4 says that this cannot occur. -/
def genFailed (g : Nat) (s : State) : State :=
  let s1 := s.wr (R.CLOCK_STATUS.GEN g) 4
  let s2 := if g ≤ 2 && (seqOf s1 g = 2 || seqOf s1 g = 3 || seqOf s1 g = 5) then s1.wr (R.TEMPO_STATE.SEQ g) 6 else s1
  match g with
  | 1 => pruneChannel 3 s2 0x3000
  | 2 => pruneChannel 4 s2 0x3001
  | 3 => portClockLost s2
  | 4 =>
    let t := pruneAll 6 [0x2000, 0x2001, 0x2002, 0x2003] s2
    if portFell s2 t then occurOnly 364 t else t
  | 5 => memFailed s2
  | _ => s2

/-- RELOCK_ATTEMPT_FAILED (R119). -/
def relockAttemptFailed (gen : Fin 6) (s : State) : State :=
  (if (genState s gen = 1 || genState s gen = 2) && !relockStale s gen then
      failOrRetry (2 + gen.val) (genFailed gen) (s.wr (R.CLOCK_STATUS.GEN gen) 1)
    else s)

/-- FREQUENCY_MONITOR_TRIP (R120). -/
def execFrequencyMonitorTrip (gen : Fin 6) (s : State) : Res :=
  completes s (if genState s gen = 3 then startRelock gen (retryEnd (2 + gen.val) (occur (2 + gen.val) s)) else s)

/-- QUALIFICATION_WINDOW (R112): the reference cycles counted, or none for a window abandoned for want of edges. -/
def execQualificationWindow (count : Option Nat) (s : State) : Res :=
  always s (if !s.pwrgd || s.isSet R.METRO_STATUS.XTAL_QUAL || !s.refGood || s.refLost then s
    else
      match count with
      | none => { s with xtalRun := 0 }
      | some n =>
        if 781094 ≤ n ∧ n ≤ 781406 then
          if s.xtalRun + 1 ≥ 8 then
            setCause 0 false (({ s with xtalRun := 0 }.on R.METRO_STATUS.SOURCE).on R.METRO_STATUS.XTAL_QUAL)
          else { s with xtalRun := s.xtalRun + 1 }
        else { s with xtalRun := 0 })

/-- XTAL_QUAL_TIMEOUT (R113). -/
def execXtalQualTimeout (s : State) : Res :=
  always s (if !s.pwrgd || s.isSet R.METRO_STATUS.XTAL_QUAL then s else setCause 0 true s)

/-- CRYSTAL_LOST (R113). -/
def execCrystalLost (s : State) : Res :=
  always s (if s.pwrgd && s.isSet R.METRO_STATUS.XTAL_QUAL then
      setCause 0 true (({ s with xtalRun := 0 }.off R.METRO_STATUS.SOURCE).off R.METRO_STATUS.XTAL_QUAL)
    else s)

end Sys2Proof.Machine
end

