-- ==== Sys2Proof/Machine/Domain.lean ====
section
/-! DEFINITION. The power domain sequencers (R132 to R136), the bells and the unwind and wake they begin (R140 to R147). -/
namespace Sys2Proof.Machine

def domHeld (s : State) (d : Nat) : Bool := match domRail d with | some r => railHeld s r | none => false

/-- Eight converters, each within 8 codes of both its references (R332). -/
def convertersGood (codes : List (Nat × Nat)) : Bool :=
  let near := fun (x r : Nat) => r ≤ x + 8 && x ≤ r + 8
  codes.length = 8 && codes.all (fun c => near c.1 1024 && near c.2 3072)
def trayState (s : State) (n : Nat) : Nat := s.rd (R.TRAY_STATUS.STATE n)
/-- Enter a tray state: entering or leaving CLOSED is a disc change (R402, Table 21-3, R438). -/
def enterTray (n st : Nat) (s : State) : State :=
  let old := trayState s n
  let s1 := s.wr (R.TRAY_STATUS.STATE n) st
  if (old = 1) = (st = 1) then s1
  else
    let s2 := setIrqAll 6 (drumSlots s n) s1
    if st = 1 then
      let s3 := putSpin n { spinOf s2 n with trayHold := false } s2
      if s3.rd (R.STK_DISC.STATE n) = 0 then setDisc n 1 s3 else s3
    else setDisc n 0 s2
/-- The state that the end switches give (Table 19-4). -/
def trayNext (st : Nat) (inner outer : Bool) : Nat :=
  match inner, outer with
  | true, true => 5
  | true, false => if st = 2 then 2 else 1
  | false, true => if st = 4 then 4 else 3
  | false, false => if st = 2 || st = 4 then st else 0
/-- The tray's state follows its end switches (R401, Table 19-4). -/
def trayFollow (n : Nat) (s : State) : State :=
  let inner := s.isSet (R.TRAY_STATUS.IN_SW n)
  let outer := s.isSet (R.TRAY_STATUS.OUT_SW n)
  setCause (drumSrc n 16) (inner && outer) (enterTray n (trayNext (trayState s n) inner outer) s)
/-- A domain reaches ON: a generator starts to acquire, a front end tests its converters and SEAL its trunk engine, the SDRAM
controller leaves self-refresh (R80, R108, R118, R332, R397). -/
def domainOn (d : Nat) (test : DomTest) (s : State) : State :=
  let s1 := s.wr (R.DOMAIN_STATE.D d) 2
  if 19 ≤ d && d ≤ 24 then startRelock (d - 19) (retryEnd (d - 17) s1)
  else if d = 91 || d = 101 then
    let n := (d - 91) / 10
    let s2 := s1.wrB (R.FRONT_STATUS.CONV_OK n) (convertersGood test.codes)
    if convertersGood test.codes then s2 else occur (drumSrc n 33) s2
  else if d = 97 || d = 107 then s1.rst (R.SLED_ENC.COUNT ((d - 97) / 10))
  else if d = 100 || d = 110 then (if (drumSt s1 ((d - 100) / 10)).up then trayFollow ((d - 100) / 10) s1 else s1)
  else if d = 17 then setCause 46 (!test.good) s1
  else if d = 14 && s1.rd R.MEMCTL_STATUS.STATE = 3 then s1.wr R.MEMCTL_STATUS.STATE 2
  else s1

/-- A domain reaches OFF: a generator stops, a bank of buffer SRAM loses its contents, SEAL its cache. DESIGN CHOICE: a CLOCKING
step of a rail whose generator goes OFF stays at CLOCKING until the generator's next start locks (log 179). -/
def fellOff (d : Nat) (s : State) : State :=
  if 19 ≤ d && d ≤ 24 then s.wr (R.CLOCK_STATUS.GEN (d - 19)) 0
  else if d = 16 then { s with ctCache := [] }
  else bankOff d s
/-- A step of a domain's sequencer ends (Tables 07-2 and 07-3). -/
def stepDomain (d : Nat) (test : DomTest) (s : State) : State :=
  let want := wanted s d
  let held := domHeld s d
  let finishRise (t : State) : State :=
    let t1 := domainOn d test (putStep d 0 t)
    if want then t1 else putDom d 3 6 t1
  let finishFall (t : State) : State :=
    let t1 := putDom d 0 0 (fellOff d t)
    if want then beginRise d t1 else t1
  match domStepOf s d with
  | 1 => if want then putStep d 2 s else putDom d 3 9 s
  | 2 => if want then putStep d (if held then 11 else 3) s else putDom d 3 9 s
  | 3 => putStep d (if held then 12 else 4) s
  | 4 => if held then s else putStep d 5 s
  | 5 => if held then s else finishRise s
  | 6 =>
    if want then putDom d 2 0 s
    else putStep d 7 (if d = 97 || d = 107 then cutSled ((d - 97) / 10) s else if d = 99 || d = 109 then laserSleeps ((d - 99) / 10) s else s)
  | 7 => putStep d 8 s
  | 8 => putStep d 9 s
  | 9 => finishFall s
  | 11 => if held then s else putStep d 4 s
  | 12 => if held then s else putStep d 5 s
  | _ => s

/-- What an unwind or a wake undoes of a point beside its domains: SDRAM whose controller did not fall leaves self-refresh,
and the tempo rails drive the codes they drove before (R127, R140). -/
def wakeRail (s : State) (r : Nat) : State :=
  if seqOf s r = 7 then
    let x := railOf s r
    putRail r { x with aim := x.v, wait := 1, held := 4 } ((s.wr (R.TEMPO_STATE.VID r) x.preVid).wr (R.TEMPO_STATE.SEQ r) 1)
  else s
def undoPoint (point : Nat) (s : State) : State :=
  match point with
  | 4 => if domOn s 14 && s.rd R.MEMCTL_STATUS.STATE = 3 then s.wr R.MEMCTL_STATUS.STATE 2 else s
  | 6 => (List.range 3).foldl wakeRail s
  | _ => s
/-- A point is reversed (Table 07-5): its domains rise again, and its other action is undone. -/
def reversePoint (point : Nat) (s : State) : State := undoPoint point (releaseDown (fun x => x.1 = point) s)
/-- No domain of the entry is between two states, and no lane still sleeps once point 5 is reversed (Table 07-5). -/
def unwindSettled (s : State) (e : Entry) : Bool :=
  e.onBefore.all (fun d => domState s d != 1 && domState s d != 3) && (e.undo ≥ 5 || (List.range 4).all (fun p => portState s p != 6))
/-- The unwind goes on to the next completed point, in reverse order (R140). -/
def advanceUnwind : Nat → State → State
  | 0, s => s
  | fuel + 1, s =>
    match s.entry with
    | some e =>
      if e.unwinding && e.undo != 0 && unwindSettled s e then
        advanceUnwind fuel (reversePoint e.undo { s with entry := some { e with undo := e.undo - 1 } })
      else s
    | none => s

/-- A step of a domain's sequencer ends, and what waits for it goes on (R134, R135, R140). -/
def domainStep (domain : Nat) (test : DomTest) (s : State) : State :=
  advanceUnwind 6 (syncGens (admitWaiting (stepDomain domain test s)))

def dormantState (s : State) : Nat := s.rd R.DORMANT_STATUS.STATE
/-- A steward command that R136 refuses. -/
def domainCmdBad (s : State) (d : Nat) : Bool := d = 0 || 143 < d || !domPresent s d || dormantState s != 0
def domainCmd (slot d : Nat) (on : Bool) (s : State) : State :=
  guardWrite slot 0x00030040 (fun s =>
    if domainCmdBad s d then s.on R.DOMAIN_ERR.CMD_REFUSED
    else syncGens (putReq d (b2n (unitReq s d) + 2 * b2n on) s)) s
/-- DOMAIN_SET_REQUEST (R133, R136). -/
def execDomainSetRequest (slot : Fin 8) (domain : Nat) (s : State) : Res := completes s (domainCmd slot domain true s)
/-- DOMAIN_CLEAR_REQUEST (R133, R136). -/
def execDomainClearRequest (slot : Fin 8) (domain : Nat) (s : State) : Res := completes s (domainCmd slot domain false s)

/-- Bells of present units (Table 26-4). -/
def bellPresent (s : State) (b : Nat) : Bool :=
  if b = 24 then hasDrum s 0 else if b = 25 then hasDrum s 1
  else if 20 ≤ b && b ≤ 23 then hasTrunk s
  else if b = 14 then hasRbp s 0 else if b = 15 then hasRbp s 1
  else b ≤ 31
/-- The bits of a mask that belong to bells of present units (R2, R552). -/
def presentBells (s : State) (m : Nat) : Nat := (List.range 32).foldl (fun a b => if bellPresent s b && bit m b then setBit a b else a) 0
def bellMuffled (s : State) (b : Nat) : Bool := bit (s.rd R.BELL_MUFFLED.MUFFLED) b

/-- The muffle counts when bell b ends an entry (R146): other bells return to 0; a count that would reach 9 muffles. -/
def countMuffle (b : Nat) (s : State) : State :=
  let n := Tab.look 0 s.muffle b
  let short : Bool := match s.entry with | some e => decide (s.metro - e.tick < 32768) | none => false
  if short then
    if n + 1 ≥ 9 then
      setCause 31 true ({ s with muffle := [] }.wr R.BELL_MUFFLED.MUFFLED (setBit (s.rd R.BELL_MUFFLED.MUFFLED) b))
    else { s with muffle := Tab.put 0 [] b (n + 1) }
  else { s with muffle := Tab.put 0 [] b n }

/-- Record how an entry ended (Table 07-10). -/
def recordEnd (cause bell : Nat) (s : State) : State :=
  ((s.wr R.DORMANT_LAST.CAUSE cause).wr R.DORMANT_LAST.FROM_POINT (s.rd R.DORMANT_STATUS.POINT)).wr R.DORMANT_LAST.BELL bell

/-- An entry begins to unwind (R140): first whatever was done of the point under way, then the completed points. -/
def beginUnwind (cause bell : Nat) (s : State) : State :=
  let s1 := (recordEnd cause bell s).bump R.DORMANT_COUNTS.UNWINDS 1
  let point := s1.rd R.DORMANT_STATUS.POINT
  let s2 := { s1 with entry := s1.entry.map (fun e => { e with unwinding := true, undo := point }) }
  advanceUnwind 6 (if (match s1.entry with | some e => e.begun | none => false) then reversePoint (point + 1) s2 else s2)

/-- The wake begins (R127, R141, R142): the old VID codes, and the domains that are on no tempo rail rise again, the generators
among them, which then acquire with fresh budgets (R119). -/
def beginWake (bell : Nat) (s : State) : State :=
  let s1 := ((recordEnd 1 bell s).bump R.DORMANT_COUNTS.WAKES 1).wr R.DORMANT_STATUS.STATE 3
  releaseDown (fun x => (domRail x.2).isNone) ((List.range 3).foldl wakeRail s1)

/-- A bell's input is active (R144 to R146). -/
def ringBell (b : Nat) (cc : Bool) (s : State) : State :=
  if !bellPresent s b || !bit (s.rd R.BELL_ENABLE.ENABLE) b || dormantState s = 0 then s
  else
    let s1 := s.wr R.BELL_PENDING.PENDING (setBit (s.rd R.BELL_PENDING.PENDING) b)
    let s2 := if b ≤ 13 then
        if cc then s1.wr R.BELL_TILE_CAUSE.CC (setBit (s1.rd R.BELL_TILE_CAUSE.CC) b)
        else s1.wr R.BELL_TILE_CAUSE.USB (setBit (s1.rd R.BELL_TILE_CAUSE.USB) b)
      else s1
    if bellMuffled s2 b then s2
    else
      match dormantState s2, s2.entry with
      | 1, some e => if e.unwinding then s2 else countMuffle b (beginUnwind 2 b s2)
      | 2, _ => countMuffle b (beginWake b s2)
      | _, _ => s2

/-- BELL_RING (R145). -/
def execBellRing (bell : Fin 32) (cc : Bool) (s : State) : Res := completes s (ringBell bell cc s)

/-- MUFFLE_COUNT_RESET (R146): the entry has lasted 32,768 ticks. -/
def execMuffleCountReset (bell : Fin 32) (s : State) : Res :=
  completes s (match s.entry with
    | some e => if s.metro - e.tick ≥ 32768 then { s with muffle := Tab.put 0 s.muffle bell 0 } else s
    | none => s)

/-- BELL_MUFFLED_CLEAR (R146, R147, R151). -/
def execBellMuffledClear (slot : Fin 8) (bells : Nat) (s : State) : Res :=
  completes s (guardWrite slot 0x00030208 (fun s =>
    let m := andNot (s.rd R.BELL_MUFFLED.MUFFLED) bells
    let s1 := { s.wr R.BELL_MUFFLED.MUFFLED m with muffle := s.muffle.filter (fun e => !bit bells e.1) }
    if m = 0 then setCause 31 false s1 else s1) s)

/-- HOST_ACCESS_IN_DORMANT (R143): zero to a read, a write discarded, and the port's bell rings. -/
def execHostAccessInDormant (port : Fin 2) (write : Bool) (s : State) : Res :=
  completes s (if dormantState s = 0 || !hasRbp s port then s
    else ringBell (14 + port.val) false (if write || (!s.isSet (R.RBP_CFG.SERVING port) && strapSilent s port) then s else s.emit (.bus port 0)))

/-- METRO_ALARM (R114). -/
def execMetroAlarm (s : State) : Res :=
  let c := s.rd R.METRO_ALARM.COMPARE
  completes s (if c != 0 && s.metro % 2 ^ 32 = c then ringBell 26 false (s.on R.METRO_STATUS.ALARM) else s)

end Sys2Proof.Machine
end

