-- ==== Sys2Proof/Machine/Mail.lean ====
section
/-! DEFINITION. The mailbox of a slot: how Heartwood serves a request (R164 to R166). -/
namespace Sys2Proof.Machine

def mailOf (s : State) (slot : Nat) : Option Mail := Tab.look none s.mail slot
def putMail (slot : Nat) (m : Option Mail) (s : State) : State := { s with mail := Tab.put none s.mail slot m }

/-- Heartwood's firmware runs and no entry into Dormant holds messages (R139): no request is served otherwise. -/
def firmwareRuns (s : State) : Bool := s.rd R.HW_STATUS.MODE = 1 && s.rd R.DORMANT_STATUS.STATE = 0

/-- REFUSED also sets ACCESS_REFUSED (Table 03-2, R165). -/
def setReply (slot status : Nat) (body : List Nat) (s : State) : State :=
  match mailOf s slot with
  | some m =>
    putMail slot (some { m with reply := some (status, body) }) (if status = 1 then refuse slot 0x00060200 s else s)
  | none => s

/-- The answer of a message: STATUS and reply body. -/
abbrev MailAnswer := Nat × List Nat × State

/-- Serve the request that waits in a slot when it is `op`: a LENGTH that `lenOk` does not allow is answered BAD_REQUEST
and changes nothing (R166). DESIGN CHOICE: LENGTH is checked before the sender, so a wrong LENGTH from a grove other than the
steward is BAD_REQUEST and not REFUSED; so is a slot number above 1, which R166 gives no answer (log 195). -/
def serveMail (slot op : Nat) (lenOk : Nat → Bool) (h : List Nat → State → MailAnswer) (s : State) : State :=
  match mailOf s slot with
  | some m =>
    if m.op = op && m.heard && m.reply.isNone && firmwareRuns s then
      if lenOk m.len && m.body.length = m.len then
        let a := h m.body s
        setReply slot a.1 a.2.1 a.2.2
      else setReply slot 2 [] s
    else s
  | none => s

def okMail (s : State) (body : List Nat := []) : MailAnswer := (0, body, s)
def failMail (status : Nat) (s : State) : MailAnswer := (status, [], s)
/-- A message that only grove 0 may send. -/
def stewardMail (slot : Nat) (s : State) (a : MailAnswer) : MailAnswer := if slot = 0 then a else failMail 1 s

end Sys2Proof.Machine
end

