-- ==== Sys2Proof/Machine/Detector.lean ====
section
/-! DEFINITION. The soft-output Viterbi detector (R409, R410): the partial-response trellis of a mode, pruned to its run
lengths, and the reliabilities of channel bits and symbols. -/
namespace Sys2Proof.Machine

/-- The longest run of a mode in channel bits; the shortest is 3 in both (R410). -/
def longestRun (dvd : Bool) : Nat := if dvd then 14 else 11
/-- The sample, in half steps of the target, of a bit that stands `run` bits into a run at the high level: PR(1,1) on a CD,
PR(1,2,2,1) on a DVD (R409), over levels of half a step either way. At least three bits at the other level come before. -/
def targetHigh (dvd : Bool) (run : Nat) : Int :=
  if dvd then (match run with | 0 => 0 | 1 => -4 | 2 => 0 | 3 => 4 | _ => 6) else (if run ≤ 1 then 0 else 2)
/-- Four times the squared distance of a sample from a state's target, `amp` being one step. -/
def branchCost (dvd : Bool) (amp : Nat) (y : Int) (high : Bool) (run : Nat) : Nat :=
  let t := targetHigh dvd run
  let d := 2 * y - amp * (if high then t else -t)
  (d * d).toNat

/-- A least cost, none where no path leads. -/
def least (a b : Option Nat) : Option Nat :=
  match a, b with
  | some x, some y => some (min x y)
  | some x, none => some x
  | none, b => b
def leastOf (l : List (Option Nat)) : Option Nat := l.foldl least none

/-- Costs of the states of a trellis stage, by level and by the place in the run, from 1. -/
structure Costs where
  high : List (Option Nat)
  low : List (Option Nat)
deriving DecidableEq, Repr

/-- Add the cost of a sample in each state. -/
def Costs.add (dvd : Bool) (amp : Nat) (y : Int) (c : Costs) : Costs :=
  let row (level : Bool) (l : List (Option Nat)) : List (Option Nat) :=
    l.zipIdx.map (fun e => e.1.map (· + branchCost dvd amp y level (e.2 + 1)))
  ⟨row true c.high, row false c.low⟩
/-- One bit on: a run goes on up to the longest, or ends once it is 3 bits long (R410). -/
def Costs.forward (c : Costs) : Costs :=
  ⟨leastOf (c.low.drop 2) :: c.high.dropLast, leastOf (c.high.drop 2) :: c.low.dropLast⟩
/-- One bit back. -/
def Costs.backward (c : Costs) : Costs :=
  let row (own other : List (Option Nat)) : List (Option Nat) :=
    (List.range own.length).map (fun r => least (own.getD (r + 1) none) (if 2 ≤ r then other.headD none else none))
  ⟨row c.high c.low, row c.low c.high⟩
/-- Any state costs nothing: what lies beyond the samples is not known. -/
def Costs.start (dvd : Bool) : Costs := ⟨List.replicate (longestRun dvd) (some 0), List.replicate (longestRun dvd) (some 0)⟩

/-- The least cost of the paths to each state, stage by stage, the sample of the stage counted. -/
def pathsTo (dvd : Bool) (amp : Nat) : Costs → List Int → List Costs
  | _, [] => []
  | c, y :: r => let d := c.add dvd amp y; d :: pathsTo dvd amp d.forward r
/-- The least cost of the paths from each state, stage by stage, the sample of the stage not counted; the first list entry
belongs to the stage before the first sample. -/
def pathsFrom (dvd : Bool) (amp : Nat) : List Int → List Costs
  | [] => [Costs.start dvd]
  | y :: r =>
    match pathsFrom dvd amp r with
    | c :: cs => (c.add dvd amp y).backward :: c :: cs
    | [] => []

/-- The least cost of a whole path on which the bit of a stage is 1, and of one on which it is 0. A channel bit is 1 where a
run begins. -/
def bitCosts (a b : Costs) : Option Nat × Option Nat :=
  let sum (x y : List (Option Nat)) : List (Option Nat) := List.zipWith (fun p q => p.bind (fun m => q.map (m + ·))) x y
  let h := sum a.high b.high
  let l := sum a.low b.low
  (leastOf (h.take 1 ++ l.take 1), leastOf (h.drop 1 ++ l.drop 1))
/-- A decided channel bit with its reliability, min(⌊Δ·16 / A²⌋, 15); 15 where no path disagrees. -/
def decideBit (amp : Nat) (c : Option Nat × Option Nat) : Bool × Nat :=
  match c.1, c.2 with
  | some one, some zero => (one < zero, min ((max one zero - min one zero) * 4 / (amp * amp)) 15)
  | some _, none => (true, 15)
  | none, _ => (false, 15)
/-- The channel bits that the detector decides from equalized samples, with their reliabilities (R410). -/
def detectBits (dvd : Bool) (amp : Nat) (ys : List Int) : List (Bool × Nat) :=
  List.zipWith (fun a b => decideBit amp (bitCosts a b)) (pathsTo dvd amp (Costs.start dvd) ys) ((pathsFrom dvd amp ys).drop 1)
/-- The target of a stage on the best path, in half steps (R409). -/
def stageTarget (dvd : Bool) (a b : Costs) : Int :=
  let row (level : Bool) (x y : List (Option Nat)) : List (Option Nat × Int) :=
    (x.zip y).zipIdx.map (fun e => (e.1.1.bind (fun p => e.1.2.map (p + ·)), (if level then 1 else -1) * targetHigh dvd (e.2 + 1)))
  ((row true a.high b.high ++ row false a.low b.low).foldl (fun best e =>
    match best.1, e.1 with
    | none, _ => e
    | some p, some q => if q < p then e else best
    | some _, none => best) (none, 0)).2

end Sys2Proof.Machine
end

