-- ==== Sys2Proof/Machine/Demod.lean ====
section
/-! DEFINITION. The read channel from T-spaced samples to symbols: the equalizer and its adaptation (R409), the scar detector
(R413), framing and demodulation (R411, R412). -/
namespace Sys2Proof.Machine

/-- The 15 samples around each one: those up to 7 before it, it, and those up to 7 after it. -/
def windows : List Int → List (List Int)
  | [] => []
  | x :: r => (x :: r).take 15 :: windows r
def tapWindows (xs : List Int) : List (List Int) :=
  (windows (List.replicate 7 0 ++ xs ++ List.replicate 7 0)).take xs.length
/-- One equalized sample in 1/16,384, taps as codes (R409): tap i meets the sample 7 − i bits on. -/
def firSample (taps : List Int) (win : List Int) : Int := (List.zipWith (· * ·) taps.reverse win).foldl (· + ·) 0
/-- One step of the taps by least mean squares (R409), towards a target in half steps of A. DESIGN CHOICE: the error and the
samples count in units of A, and each tap rounds to its code with halves away from zero (log 34). -/
def lmsStep (amp mu : Nat) (taps : List Int) (win : List Int) (target : Int) : List Int :=
  let e := target * (amp : Int) * 8192 - firSample taps win
  List.zipWith (fun c x => max (-32768) (min 32767 (c + roundAway (e * x) (amp * amp * 2 ^ mu)))) taps win.reverse
/-- The taps after a block: they hold at each bit that a scar flags. -/
def adaptTaps (amp mu : Nat) (taps : List Int) : List (List Int × Int × Bool) → List Int
  | [] => taps
  | (win, t, scar) :: r => adaptTaps amp mu (if scar then taps else lmsStep amp mu taps win t) r

/-- What decides a scar (R413): ENV_PCT, METRIC, MIN_BITS and A. -/
structure ScarRule where
  pct : Nat
  metric : Nat
  minBits : Nat
  amp : Nat
deriving DecidableEq, Repr
/-- The scar detector at a channel bit: the envelope over the last 4,096 bits, oldest first, with its sum; over the last
MIN_BITS bits, newest first, whether the envelope was low, and the squared error four times over; how many bits in a row the
envelope was not low, and the error not large; and whether a scar is flagged. -/
structure ScarScan where
  window : List Nat
  sum : Nat
  recent : List (Bool × Nat)
  bright : Nat
  exact : Nat
  flagged : Bool
deriving DecidableEq, Repr
def ScarScan.start (before : List Nat) (flagged : Bool) : ScarScan := ⟨before, before.foldl (· + ·) 0, [], 0, 0, flagged⟩
/-- One channel bit of the scar detector: a scar begins once both conditions have held for MIN_BITS bits, and ends once either
has been absent for as many; the average is frozen while a scar is flagged (R413). -/
def ScarScan.step (c : ScarRule) (x : ScarScan) (env err : Nat) : ScarScan :=
  let low : Bool := env * 100 * x.window.length < c.pct * x.sum
  let recent := ((low, err) :: x.recent).take c.minBits
  let total := recent.foldl (fun a e => a + e.2) 0
  let large : Bool := recent.length = c.minBits && 64 * total > c.metric * (c.amp * c.amp) * c.minBits
  let bright := if low then 0 else x.bright + 1
  let exact := if large then 0 else x.exact + 1
  let flagged := if x.flagged then bright < c.minBits && exact < c.minBits else large && recent.all (·.1)
  let y := { x with recent := recent, bright := bright, exact := exact, flagged := flagged }
  if x.flagged then y else { y with window := x.window.drop 1 ++ [env], sum := x.sum - x.window.headD 0 + env }
/-- Over a span of (envelope, error): whether each bit is flagged. -/
def scarBits (c : ScarRule) : ScarScan → List (Nat × Nat) → List Bool
  | _, [] => []
  | x, (env, err) :: r => let y := x.step c env err; y.flagged :: scarBits c y r

/-- Channel bits of a frame, of its sync and merging bits, and of a word with its merging bits and alone; symbols of a frame that
the decoder takes, and the first of them (CD: after the subcode); and frames of a block (R411, R416). -/
structure Framing where
  frame : Nat
  sync : Nat
  pitch : Nat
  word : Nat
  symbols : Nat
  first : Nat
  frames : Nat
deriving DecidableEq, Repr
def framing (dvd : Bool) : Framing := if dvd then ⟨1488, 32, 16, 16, 91, 0, 416⟩ else ⟨588, 27, 17, 14, 32, 1, 294⟩
/-- The ones of a sync and the channel bits that it spans from its first one (PRESUMED: IEC 60908, two runs of 11T; ECMA-267, a
run of 14T, which no data has, and one of 4T), and where the first one stands in the frame. -/
def syncOnes (dvd : Bool) : List Nat × Nat × Nat := if dvd then ([0, 14, 18], 19, 13) else ([0, 11, 22], 24, 0)
def syncAt (dvd : Bool) (bs : Array (Bool × Nat)) (p : Nat) : Bool :=
  let o := syncOnes dvd
  (List.range o.2.1).all (fun k => (bs.getD (p + o.2.2 + k) (false, 0)).1 == o.1.contains k)
/-- The sync nearest to its expected position, within half a frame. -/
def nearSync (dvd : Bool) (bs : Array (Bool × Nat)) (p : Nat) : Option Nat :=
  (List.range ((framing dvd).frame / 2)).findSome? (fun d =>
    if syncAt dvd bs (p + d) then some (p + d) else if d ≤ p && syncAt dvd bs (p - d) then some (p - d) else none)
/-- A frame as framing finds it (R412): where it begins; whether its sync was found, and more than 2 channel bits from its
place; and whether the framing holds lock. -/
structure Frame where
  start : Nat
  found : Bool
  moved : Bool
  locked : Bool
deriving DecidableEq, Repr
/-- The frames of a block from an expected position: a sync that is missing is flywheeled; three in a row lose the lock, and three
found in a row at their places gain it again (R411, R412). `missed` and `run` count the syncs missing and found in a row. -/
def walkFrames (dvd : Bool) (bs : Array (Bool × Nat)) : Nat → Nat → Nat → Nat → Bool → List Frame
  | 0, _, _, _, _ => []
  | k + 1, p, missed, run, locked =>
    let len := (framing dvd).frame
    match nearSync dvd bs p with
    | some q =>
      let moved := q > p + 2 || q + 2 < p
      let run' := if moved && !locked then 1 else run + 1
      let locked' := locked || run' ≥ 3
      ⟨q, true, moved, locked'⟩ :: walkFrames dvd bs k (q + len) 0 run' locked'
    | none =>
      let locked' := locked && missed + 1 < 3
      ⟨p, false, false, locked'⟩ :: walkFrames dvd bs k (p + len) (missed + 1) 0 locked'
/-- Whether the symbols of each frame keep their reliabilities: none without lock, and none from the last good sync on before a
sync that re-times the framing (R412). -/
def keptFrames : List Frame → List Bool
  | [] => []
  | x :: r =>
    let later := keptFrames r
    let lost := match r with | y :: _ => (y.found && y.moved) || (!y.found && !later.headD true && y.locked) | [] => false
    (x.locked && !lost) :: later

/-- A channel word, its first bit the most significant, with the least reliability of its bits (R410). -/
def channelWord (bs : Array (Bool × Nat)) (start len : Nat) : Nat × Nat :=
  (List.range len).foldl (fun a k => let b := bs.getD (start + k) (false, 0); (2 * a.1 + b2n b.1, min a.2 b.2)) (0, 15)
/-- A symbol with its reliability: a word that the table does not contain gives 0x00 with reliability 0 (R411). -/
def demodulate (dvd : Bool) (bs : Array (Bool × Nat)) (start : Nat) : Nat × Nat :=
  let w := channelWord bs start (framing dvd).word
  match if dvd then Config.efmPlus w.1 (channelWord bs (start + 16) 16).1 else Config.efm w.1 with
  | some v => (v % 256, w.2)
  | none => (0, 0)
/-- Symbols that a scar flags: those it overlaps and `guard` on each side (R413). -/
def scarred (guard : Nat) (hit : List Bool) : List Bool :=
  (List.range hit.length).map (fun i => (List.range (2 * guard + 1)).any (fun k => guard ≤ i + k && hit.getD (i + k - guard) false))

/-- What the channel is set to for a block. -/
structure ChannelSet where
  dvd : Bool
  taps : List Int
  mu : Nat
  adapts : Bool
  guard : Nat
  pct : Nat
  metric : Nat
  minBits : Nat
  scar : Bool
deriving DecidableEq, Repr
/-- What a read of a block gives: its symbols with their reliabilities, which of them a scar flags, and the taps after it. -/
structure ChannelRead where
  syms : List (Nat × Nat)
  scars : List Bool
  taps : List Int
deriving DecidableEq, Repr
/-- A block's samples through the stages of Table 20-3. DESIGN CHOICE: the decisions of a block come from the taps at its start,
and the taps that adapt in it serve the next one (log 34). -/
def channelRead (c : ChannelSet) (b : BlockRead) : ChannelRead :=
  let wins := tapWindows b.samples
  let ys := wins.map (firSample c.taps)
  let amp := 16384 * b.amp
  let ahead := pathsTo c.dvd amp (Costs.start c.dvd) ys
  let back := (pathsFrom c.dvd amp ys).drop 1
  let bs := (List.zipWith (fun a d => decideBit amp (bitCosts a d)) ahead back).toArray
  let targets := List.zipWith (stageTarget c.dvd) ahead back
  let errs := List.zipWith (fun y t => (2 * y - (amp : Int) * t).natAbs ^ 2) ys targets
  let scars := (scarBits ⟨c.pct, c.metric, c.minBits, amp⟩ (ScarScan.start b.before c.scar) (b.envelope.zip errs)).toArray
  let f := framing c.dvd
  let frames := walkFrames c.dvd bs f.frames 0 0 3 true
  let places := (frames.zip (keptFrames frames)).flatMap (fun e =>
    (List.range f.symbols).map (fun k => (e.1.start + f.sync + f.pitch * (f.first + k), e.2)))
  let hit := scarred c.guard (places.map (fun e => (List.range f.word).any (fun k => scars.getD (e.1 + k) false)))
  let syms := List.zipWith (fun e scar =>
    let s := demodulate c.dvd bs e.1
    (s.1, if e.2 && !scar then s.2 else 0)) places hit
  ⟨syms, hit, if c.adapts then adaptTaps b.amp c.mu c.taps (wins.zip (targets.zip (scars.toList))) else c.taps⟩

end Sys2Proof.Machine
end

