-- ==== Sys2Proof/Machine/Front.lean ====
section
/-! DEFINITION. The drum front end: converters, lasers, coil latches, losses and cuts (chapter 16). -/
namespace Sys2Proof.Machine

/-- `num / den` rounded, halves away from zero (DESIGN CHOICE: R330 says only round). -/
def roundDiv (num : Int) (den : Nat) : Int := roundAway num den
/-- clamp(x, 0, 4,095) of R330. -/
def clampCode (x : Int) : Nat := (max 0 (min x 4095)).toNat
/-- The formed voltage of channels 0 to 3, as a numerator in µV over 256 (Table 16-2). -/
def formed (s : State) (n c : Nat) (p : Pickup) : Int :=
  match c with
  | 0 => 128 * ((p.a + p.c) - (p.b + p.d))
  | 1 =>
    if s.isSet (R.CH_CFG.TE_MODE n) then 128 * ((p.a + p.d) - (p.b + p.c))
    else 256 * p.e - 2 * (s.rd (R.CH_CFG.BALANCE n) : Int) * p.f
  | 2 => 64 * (p.a + p.b + p.c + p.d)
  | _ => 128 * (p.e + p.f)
/-- The code of a servo channel (R330). -/
def channelCode (s : State) (n c : Nat) (p : Pickup) : Nat :=
  if c ≤ 3 then
    let g : Int := (2 : Int) ^ s.rd (R.CH_TRIM.GAIN n c)
    let off := signed 10 (s.rd (R.CH_TRIM.OFFSET n c))
    clampCode (2048 + roundDiv (g * formed s n c p * 2048) (256 * 1200000) + roundDiv (off * 2048) 1200)
  else if c = 7 then clampCode (2048 + (s.rd (R.RF_STATUS.ENVELOPE n) * 8 : Nat))
  else clampCode (2048 + roundDiv ((if c = 4 then p.iFocus else if c = 5 then p.iTrack else p.iTilt) * 2048) 500000)
/-- x_c of R331. -/
def channelValue (code : Nat) : Nat := f32OfRat ((code : Int) - 2048) 2048

/-- The comparisons of R341: SUM below SUM_MIN, and TE outside its window. -/
def sumLow (s : State) (n : Nat) : Bool := s.rd (R.CH_SAMPLE.CODE n 2) < s.rd (R.LOSS_CTRL.SUM_MIN n)
def teOut (s : State) (n : Nat) : Bool :=
  decide (((s.rd (R.CH_SAMPLE.CODE n 1) : Int) - 2048).natAbs > s.rd (R.LOSS_TE.WINDOW n))

/-- CAL_I_NOM_650 of 0.0: the 650 nm laser is not fitted (R335). -/
def fitted650 (s : State) (n : Nat) : Bool := s.rd (R.FRONT_CAL.VALUE n 1) % 2 ^ 31 != 0
/-- `den · I_T` in µA, with its denominator (R336). -/
def laserTarget (s : State) (n gain : Nat) : Int × Nat :=
  let g := f32Rat gain
  ((s.rd (R.LASER_TARGET.MICROWATTS n) : Int) * g.1, 1000 * g.2)
/-- The monitor reads at least `k` tenths of I_T times 1/10, that is monitor ≥ (k / 100) · I_T. -/
def monitorAtLeast (s : State) (n monitor k : Nat) : Bool :=
  let t := laserTarget s n (frontOf s n).monGain
  decide ((k : Int) * t.1 ≤ 100 * (monitor : Int) * t.2)
def monitorAbove (s : State) (n monitor k : Nat) : Bool :=
  let t := laserTarget s n (frontOf s n).monGain
  decide ((k : Int) * t.1 < 100 * (monitor : Int) * t.2)
/-- A drive of `d` units of 0.05 mA lies at or above the ceiling min(1.3 × CAL_I_NOM, 120 mA) (R336). -/
def atCeiling (s : State) (n d : Nat) : Bool :=
  let g := f32Rat (frontOf s n).nominal
  2400 ≤ d || decide (26 * g.1 ≤ (d : Int) * g.2)

/-- The ceiling in whole units of 0.05 mA, above which the drive never goes (R336). -/
def ceilingDrive (s : State) (n : Nat) : Nat :=
  let g := f32Rat (frontOf s n).nominal
  min 2400 (26 * g.1 / g.2).toNat

/-- Start the laser that SELECT names (R336); its drivers are raised with it (R193, R338). -/
def startLaser (n : Nat) (s : State) : State :=
  let v := s.rd (R.LASER_CTRL.SELECT n)
  if v = 0 then s
  else
    let gain := s.rd (R.FRONT_CAL.VALUE n (1 + v))
    let t := laserTarget s n gain
    if decide (1500 * (t.2 : Int) < t.1) then (s.wr (R.LASER_CTRL.SELECT n) 0).on (R.FRONT_ERR.TARGET_RANGE n)
    else
      let s1 := putFront n { frontOf s n with monGain := gain, nominal := s.rd (R.FRONT_CAL.VALUE n (v - 1)) } s
      unitRequest true (99 + 10 * n) ((s1.wr (R.LASER_STATUS.STATE n) 1).rstAll [R.LASER_STATUS.MONITOR n, R.LASER_STATUS.DRIVE n])

/-- Write SELECT (R334, R335, R344, R345): whatever is lit goes dark, and the laser named starts where it may. -/
def selectLaser (n v : Nat) (s : State) : State :=
  let s0 := (laserDark n s).wr (R.LASER_CTRL.SELECT n) 0
  if v = 0 || v ≥ 3 then s0
  else
    let s1 := if v = 2 && !fitted650 s n then s0.on (R.FRONT_ERR.NOT_FITTED n) else s0
    if !s.isSet (R.FRONT_STATUS.PERMIT n) then occur (drumSrc n 2) s1
    else if (v = 2 && !fitted650 s n) || vmOut s n || groupHot s n 3 || drumPruned s n then s1
    else startLaser n (s1.wr (R.LASER_CTRL.SELECT n) v)

/-- LASER_SELECT (R335). -/
def execLaserSelect (slot : Fin 8) (drum : Fin 2) (select : Fin 4) (s : State) : Res :=
  completes s (guardWrite slot (drumBase drum + 4) (selectLaser drum select) s)

def showLaser (n monitor drive : Nat) (s : State) : State :=
  (s.wr (R.LASER_STATUS.MONITOR n) (min monitor 2047)).wr (R.LASER_STATUS.DRIVE n) (min drive 4095)

/-- The drive that a ramp has come to, never above the ceiling (R336). -/
def rampDrive (s : State) (n drive : Nat) : Nat := min drive (ceilingDrive s n)
/-- REGULATING moves the drive by one unit of 0.05 mA towards monitor = I_T, never above the ceiling (R336). -/
def regulated (s : State) (n monitor : Nat) : Nat :=
  let d := s.rd (R.LASER_STATUS.DRIVE n)
  if monitorAbove s n monitor 100 then d - 1
  else if monitorAtLeast s n monitor 100 then d
  else min (d + 1) (ceilingDrive s n)
/-- LASER_RAMP_DONE (R336); a ramp whose monitor is not there yet goes on with its drive raised. -/
def execLaserRampDone (drum : Fin 2) (monitor drive : Nat) (s : State) : Res :=
  let n := drum.val
  completes s (if laserState s n != 1 || monitorAbove s n monitor 125 then s
    else showLaser n monitor (rampDrive s n drive) (if monitorAtLeast s n monitor 90 then s.wr (R.LASER_STATUS.STATE n) 2 else s))

/-- LASER_MONITOR occurs: the laser is off and SELECT clear (R337). -/
def laserFault (n : Nat) (s : State) : State := occur (drumSrc n 3) (laserOff n s)
/-- LASER_RAMP_TIMEOUT (R337). -/
def execLaserRampTimeout (drum : Fin 2) (s : State) : Res :=
  completes s (if laserState s drum = 1 then laserFault drum s else s)
/-- LASER_MONITOR_FAULT (R337): above 1.25 × I_T at any time; outside 0.9 to 1.1 × I_T, or at the ceiling below 0.9 × I_T,
in REGULATING. A monitor that is none of these is a sample of the ramp, or one on which the drive is regulated (R336). -/
def execLaserMonitorFault (drum : Fin 2) (monitor drive : Nat) (s : State) : Res :=
  let n := drum.val
  completes s (if laserState s n = 0 then s
    else if monitorAbove s n monitor 125
        || (laserState s n = 2 && (!monitorAtLeast s n monitor 90 || monitorAbove s n monitor 110
            || (atCeiling s n drive && !monitorAtLeast s n monitor 90))) then laserFault n s
    else showLaser n monitor (if laserState s n = 2 then regulated s n monitor else rampDrive s n drive) s)

/-- LASER_PERMIT_FALL (R334). -/
def execLaserPermitFall (drum : Fin 2) (s : State) : Res :=
  senses s (if hasDrum s drum then s.off (R.FRONT_STATUS.PERMIT drum) else s)
    (if hasDrum s drum then laserOff drum (s.off (R.FRONT_STATUS.PERMIT drum)) else s)
/-- LASER_PERMIT_RISE (R334). -/
def execLaserPermitRise (drum : Fin 2) (s : State) : Res :=
  always s (if hasDrum s drum then s.on (R.FRONT_STATUS.PERMIT drum) else s)

/-- RF_GAIN_ADJUST (R333, R413): a gain that holds the envelope within 192 ± 16 codes stands. -/
def execRfGainAdjust (drum : Fin 2) (envelope gain : Nat) (s : State) : Res :=
  let n := drum.val
  completes s (if !domOn s (92 + 10 * n) then s
    else
      let s1 := s.wr (R.RF_STATUS.ENVELOPE n) (min envelope 255)
      if s.isSet (R.RF_CTRL.AUTO n) && !(frontOf s n).scar && !(176 ≤ envelope && envelope ≤ 208) then
        s1.wr (R.RF_STATUS.GAIN n) (min gain 48)
      else s1)
/-- RF_LEVEL (R333). -/
def execRfLevel (drum : Fin 2) (envelope : Nat) (s : State) : Res :=
  let n := drum.val
  let g := s.rd (R.RF_STATUS.GAIN n)
  completes s (if domOn s (92 + 10 * n) && (g = 0 || g = 48) && (envelope < 64 || 255 < envelope) then
      occur (drumSrc n 19) (s.wr (R.RF_STATUS.ENVELOPE n) (min envelope 255))
    else s)

/-- COIL_FORCE (R340). -/
def execCoilForce (slot : Fin 8) (drum : Fin 2) (coil : Fin 3) (code : Nat) (s : State) : Res :=
  completes s (guardWrite slot (drumBase drum + 0x60 + 4 * coil)
    (fun s => if anyVoice s drum then s.on (R.FRONT_ERR.FORCE_REFUSED drum)
      else (s.wr (R.COIL_FORCE.CODE drum coil) code).wr (R.COIL_LATCH.CODE drum coil) code) s)

/-- COIL_OVERCURRENT (R339): each coil that enters limiting is an occurrence. -/
def execCoilOvercurrent (drum : Fin 2) (limiting : Fin 8) (s : State) : Res :=
  let n := drum.val
  completes s (if !coilsDriven s n then s
    else
      let old := s.rd (R.FRONT_STATUS.LIMIT n)
      (List.range 3).foldl (fun a c => if bit limiting.val c && !bit old c then occur (drumSrc n 4) a else a)
        (s.wr (R.FRONT_STATUS.LIMIT n) limiting))
/-- COIL_OPEN (R339): a coil whose command is under 40 mA does not read open. -/
def execCoilOpen (drum : Fin 2) (opened : Fin 8) (s : State) : Res :=
  let n := drum.val
  completes s (if !coilsDriven s n then s
    else
      let m := (List.range 3).foldl (fun a c =>
        if bit opened.val c && (coilCurrent (s.rd (R.COIL_LATCH.CODE n c))).natAbs ≥ 40000 then a + 2 ^ c else a) 0
      setCause (drumSrc n 5) (m != 0) (s.wr (R.FRONT_STATUS.OPEN n) m))

/-- What a focus or tracking loss brings to the stroke under way: its unit is retried under the source's policy, and a loss
with no retry left ends the stroke at once (R18, R202, R439, bench note of chapter 10). -/
def lossEndsStroke (n src : Nat) (s : State) : State :=
  match currentStroke s n with
  | some x =>
    if !x.started || !(x.disc || x.op = 8) || Tab.look false s.backoff src then s
    else if !retryLeft s src then failStroke n x.slot src (retryEnd src s)
    else { s with backoff := Tab.put false s.backoff src true }
  | none => s

/-- FOCUS_LOST (R341). -/
def execFocusLost (drum : Fin 2) (sum : Nat) (s : State) : Res :=
  let n := drum.val
  completes s (if roleLoaded s n 0 && laserState s n = 2 && sum < s.rd (R.LOSS_CTRL.SUM_MIN n) then
      let r := s.rd (R.LOSS_CTRL.FOCUS_REACT n)
      lossEndsStroke n (drumSrc n 0) (occur (drumSrc n 0) (react n r 1 (s.wr (R.CH_SAMPLE.CODE n 2) sum)))
    else s)
/-- TRACK_LOST (R341). -/
def execTrackLost (drum : Fin 2) (te : Nat) (s : State) : Res :=
  let n := drum.val
  completes s (if roleLoaded s n 0 && roleLoaded s n 1 && laserState s n = 2
        && decide (((te : Int) - 2048).natAbs > s.rd (R.LOSS_TE.WINDOW n)) then
      let r := s.rd (R.LOSS_CTRL.TRACK_REACT n)
      lossEndsStroke n (drumSrc n 1) (occur (drumSrc n 1) (react n r 2 (s.wr (R.CH_SAMPLE.CODE n 1) te)))
    else s)

/-- A write of REARM while a reaction is in force (R341). -/
def rearm (n : Nat) (s : State) : State :=
  if (frontOf s n).react = 0 then s else putFront n { frontOf s n with rearm := true } s
/-- What keeps the laser from a stroke that needs it (R334, R344, R345). -/
def laserBar (s : State) (n : Nat) : Option Nat :=
  if s.rd (R.LASER_CTRL.SELECT n) != 0 then none
  else if !s.isSet (R.FRONT_STATUS.PERMIT n) then some (drumSrc n 2)
  else if vmOut s n then some (drumSrc n 34)
  else if groupHot s n 3 then some (drumSrc n 35)
  else none
/-- A unit of the running disc stroke acquires: SELECT is set where it is 0, a reaction in force is rearmed, and a unit
whose laser may not start fails (R341, R344, R345, R434). -/
def acquire (n laser : Nat) (s : State) : State :=
  match currentStroke s n with
  | some x =>
    if !x.started then s
    else
      let s1 := if s.rd (R.LASER_CTRL.SELECT n) = 0 then selectLaser n laser s else s
      match laserBar s1 n with
      | some src => failStroke n x.slot src s1
      | none => rearm n s1
  | none => s
/-- A word written to LOSS_CTRL (Table 16-5). -/
def writeLossCtrl (n value : Nat) (s : State) : State :=
  let fix (r : Nat) := if r = 3 then 2 else r
  let s1 := ((s.wr (R.LOSS_CTRL.SUM_MIN n) (bits value 20 12)).wr (R.LOSS_CTRL.SAMPLES n) (max 1 (bits value 12 8)))
  let s2 := (s1.wr (R.LOSS_CTRL.TRACK_REACT n) (fix (bits value 4 2))).wr (R.LOSS_CTRL.FOCUS_REACT n) (fix (bits value 0 2))
  if bit value 8 then rearm n s2 else s2
/-- REARM (R341). -/
def execRearm (slot : Fin 8) (drum : Fin 2) (value : Nat) (s : State) : Res :=
  completes s (guardWrite slot (drumBase drum + 0x90) (writeLossCtrl drum value) s)

/-- REACTION_END (R341, R342). -/
def execReactionEnd (drum : Fin 2) (sum te : Nat) (s : State) : Res :=
  let n := drum.val
  let f := frontOf s n
  let s1 := (s.wr (R.CH_SAMPLE.CODE n 2) (min sum 4095)).wr (R.CH_SAMPLE.CODE n 1) (min te 4095)
  completes s (if f.react != 0 && f.rearm && (!bit f.reactBy 0 || !sumLow s1 n) && (!bit f.reactBy 1 || !teOut s1 n)
        && (!bit f.reactBy 2 || laserState s n = 2) then
      putFront n { f with react := 0, reactBy := 0, rearm := false } (s1.off (R.FRONT_STATUS.REACTED n))
    else s)

/-- VM_RANGE (R344, R373, R402). -/
def execVmRange (drum : Fin 2) (s : State) : Res :=
  let n := drum.val
  completes s (if !hasDrum s n then s
    else
      let s1 := laserOff n (cutTray n (cutSled n (s.off (R.FRONT_STATUS.VM_OK n))))
      cutSpin n (setCause (drumSrc n 34) true s1))
/-- VM_RESTORE (R344). -/
def execVmRestore (drum : Fin 2) (s : State) : Res :=
  let n := drum.val
  completes s (if !hasDrum s n then s else setCause (drumSrc n 34) false (s.on (R.FRONT_STATUS.VM_OK n)))

/-- DRIVER_THERMAL (R345). -/
def execDriverThermal (drum : Fin 2) (group : Fin 5) (s : State) : Res :=
  let n := drum.val
  completes s (if !hasDrum s n || groupHot s n group then s
    else
      let s1 := s.wr (R.FRONT_STATUS.HOT n) (setBit (s.rd (R.FRONT_STATUS.HOT n)) group)
      let s2 := match group.val with
        | 1 => cutSled n s1
        | 2 => cutTray n s1
        | 3 => laserOff n s1
        | 4 => cutSpin n s1
        | _ => s1
      occur (drumSrc n 35) s2)
/-- DRIVER_COOLED (R345). -/
def execDriverCooled (drum : Fin 2) (group : Fin 5) (s : State) : Res :=
  completes s (s.wr (R.FRONT_STATUS.HOT drum) (clearBit (s.rd (R.FRONT_STATUS.HOT drum)) group))

/-- A finite value within bounds given as fractions; a bound counts as its binary32 value. -/
def calRange (x : Nat) (lo hi den : Nat) : Bool :=
  f32Finite x && f32Le (f32OfRat lo den) x && f32Le x (f32OfRat hi den)
/-- Values cells of Table 11-3. -/
def pickupOk (i x : Nat) : Bool :=
  match i with
  | 0 => calRange x 1 120 1
  | 1 => x % 2 ^ 31 = 0 || calRange x 1 120 1
  | 2 => calRange x 1 10000 100
  | 3 => x % 2 ^ 31 = 0 || calRange x 1 10000 100
  | 4 => calRange x 1 1000 100
  | 5 => calRange x 1 1000 100
  | 6 => calRange x 1 10000 1000
  | _ => calRange x 10 500 1
/-- CAL_WRITE (R346). -/
def execCalWrite (slot : Fin 8) (drum : Fin 2) (index : Fin 8) (value : Nat) (s : State) : Res :=
  completes s (guardWrite slot (drumBase drum + 0xA0 + 4 * index)
    (fun s => if pickupOk index (value % 2 ^ 32) then s.wr (R.FRONT_CAL.VALUE drum index) value
      else s.on (R.FRONT_ERR.CAL_REFUSED drum)) s)

/-- SLED_PHASE_FAULT (R343, R397). -/
def execSledPhaseFault (drum : Fin 2) (present : Bool) (s : State) : Res :=
  let n := drum.val
  completes s (if !hasDrum s n then s
    else setCause (drumSrc n 15) present (if present then cutSled n s else s))
/-- TRAY_CURRENT_LIMIT (R343). -/
def execTrayCurrentLimit (drum : Fin 2) (s : State) : Res :=
  completes s (if hasDrum s drum then occur (drumSrc drum 18) s else s)

end Sys2Proof.Machine
end

