-- ==== Sys2Proof/Machine/Motion.lean ====
section
/-! DEFINITION. The sled's motion, microsecond by microsecond: P_cmd, P_drive and the microstep bands (R388, R390, R394 to R396). -/
namespace Sys2Proof.Machine

/-- The denominator of positions: 1/256 unit, one µs of homing and one µs of following are whole numbers of 1/sledDen unit. -/
def sledDen : Nat := 1048544000
/-- P_cmd in whole units. -/
def sledUnits (x : Sled) : Int := x.pos / (sledDen : Int)
def encCount (s : State) (n : Nat) : Int := signed 32 (s.rd (R.SLED_ENC.COUNT n))
def closedLoop (s : State) (n : Nat) : Bool := s.isSet (R.SLED_STATUS.CLOSED_LOOP n)
def travelUnits (s : State) (n : Nat) : Nat := s.rd (R.SLED_TRAVEL.UNITS n)
def sledState (s : State) (n : Nat) : Nat := s.rd (R.SLED_STATUS.STATE n)
/-- Why a drum's sled outputs are undriven (R397). -/
def sledCut (s : State) (n : Nat) : Bool :=
  vmOut s n || groupHot s n 1 || Tab.look false s.causes (drumSrc n 15) || drumPruned s n || !domOn s (97 + 10 * n)
/-- Set P_cmd. -/
def putPos (n : Nat) (pos : Int) (s : State) : State :=
  (putSled n { sledOf s n with pos := pos } s).wr (R.SLED_POS.P_CMD n) (unsigned 32 (pos / (sledDen : Int)))
/-- P_meas (R388), in 1/sledDen unit. -/
def sledMeas (s : State) (n : Nat) : Int :=
  if closedLoop s n then encCount s n * (s.rd (R.SLED_ENC_CFG.RATIO n) : Int) * (sledDen : Int) else (sledOf s n).pos

/-- P_cmd − P_start at t µs (R390), in 1/sledDen unit, held to 1/256 unit. -/
def movePos (segs : List (Nat × Int × Int)) (t : Nat) : Int :=
  match (segs.zipIdx).find? (fun e => t < e.1.1) with
  | none => (segs.getLastD (0, 0, 0)).2.1
  | some e =>
    let a := if e.2 = 0 then (0, 0, 0) else segs.getD (e.2 - 1) (0, 0, 0)
    let b := e.1
    let h : Int := (b.1 - a.1 : Nat)
    let x : Int := (t - a.1 : Nat)
    let num := 65536 * (a.2.1 * (2 * x * x * x - 3 * x * x * h + h * h * h) + b.2.1 * (3 * x * x * h - 2 * x * x * x))
      + (sledDen : Int) * h * (a.2.2 * (x * x * x - 2 * x * x * h + x * h * h) + b.2.2 * (x * x * x - x * x * h))
    roundAway num (65536 * 4095875 * (h * h * h).toNat) * 4095875
/-- |V_cmd| at t µs in full steps per second, rounded down (R390, R394). -/
def moveVel (segs : List (Nat × Int × Int)) (t : Nat) : Nat :=
  match (segs.zipIdx).find? (fun e => t < e.1.1) with
  | none => 0
  | some e =>
    let a := if e.2 = 0 then (0, 0, 0) else segs.getD (e.2 - 1) (0, 0, 0)
    let b := e.1
    let h : Int := (b.1 - a.1 : Nat)
    let x : Int := (t - a.1 : Nat)
    let num := 65536 * (6 * x * x - 6 * x * h) * (a.2.1 - b.2.1)
      + (sledDen : Int) * h * ((3 * x * x - 4 * x * h + h * h) * a.2.2 + (3 * x * x - 2 * x * h) * b.2.2)
    num.natAbs * 15625 / (65536 * sledDen * (h * h * h).toNat)

/-- The edges E_0 to E_3 of SLED_BANDS in full steps per second (R394). -/
def bandEdges (s : State) (n : Nat) : List Nat :=
  [50 * s.rd (R.SLED_BANDS.E_0 n), 50 * s.rd (R.SLED_BANDS.E_1 n), 50 * s.rd (R.SLED_BANDS.E_2 n), 50 * s.rd (R.SLED_BANDS.E_3 n)]
/-- The band that a velocity calls for from band b (R394): |V_cmd| in full steps per second. -/
def bandStep (es : List Nat) (b v : Nat) : Nat :=
  if b < 4 && v ≥ es.getD b 0 then b + 1 else if 0 < b && 10 * v < 9 * es.getD (b - 1) 0 then b - 1 else b
/-- The grid of a band: spacing and offset of Q in units (Table 19-2). -/
def bandGrid (b : Nat) : Nat × Nat := ([(1, 0), (4, 0), (16, 0), (32, 0), (64, 32)] : List (Nat × Nat)).getD b (1, 0)
/-- Q: P_drive quantized to the grid of a band (R394), to the nearest point. -/
def bandPoint (b : Nat) (p : Int) : Int :=
  let g := bandGrid b
  (g.2 : Int) + (g.1 : Int) * roundAway (p - (g.2 : Int) * (sledDen : Int)) (g.1 * sledDen)
def onBandGrid (b : Nat) (q : Int) : Bool := (q - ((bandGrid b).2 : Int)) % ((bandGrid b).1 : Int) = 0
/-- One tick of the band (R394): a change waits for a point of both grids, and each point gives at most one change. -/
def bandTick (es : List Nat) (p : Int) (v : Nat) (x : Nat × Option Int) : Nat × Option Int :=
  let b := bandStep es x.1 v
  let q := bandPoint x.1 p
  if b != x.1 && onBandGrid b q && x.2 != some q then (b, some q) else x

/-- What a sled's motion takes from its registers: the state, the following in 1/sledDen unit per µs, TRAVEL_UNITS in 1/sledDen
unit, P_meas in closed loop, CORR and the edges of the bands. -/
structure SledEnv where
  state : Nat
  rate : Int
  travel : Int
  meas : Option Int
  corr : Nat
  edges : List Nat
deriving DecidableEq, Repr
/-- READY alone follows, and only a voice that drives 0x05 (R396). -/
def sledEnv (s : State) (n : Nat) : SledEnv :=
  ⟨sledState s n, if (driverVoice s n 5).isSome then signed 16 (sledOf s n).follow * (s.rd (R.SLED_CFG.FOLLOW_MAX n) : Int) * 32 else 0,
   (travelUnits s n * sledDen : Nat), if closedLoop s n then some (sledMeas s n) else none, s.rd (R.SLED_ENC_CFG.CORR n), bandEdges s n⟩
/-- P_cmd one µs later, within the travel (R387), and |V_cmd| there in full steps per second: a move's cubic, the outward search
at 0.05 unit/µs over TRAVEL_UNITS / 4, or following (R390, R395, R396). -/
def cmdTick (e : SledEnv) (x : Sled) : Int × Nat :=
  let within (p : Int) : Int := max 0 (min p e.travel)
  match x.move with
  | some m => if x.waits then (x.pos, 0) else (within (m.start + movePos m.segs (m.time + 1)), moveVel m.segs (m.time + 1))
  | none =>
    if e.state = 1 && x.homing = 2 then (min (x.pos + (sledDen / 20 : Nat)) (e.travel / 4), 781)
    else if e.state = 2 then (within (x.pos + e.rate), if within (x.pos + e.rate) = x.pos then 0 else e.rate.natAbs * 15625 / sledDen)
    else (x.pos, 0)
/-- P_drive one µs later (R388): at most 1 unit towards P_cmd and the closed loop's correction; inward at 0.05 unit/µs while
homing runs against the stop (R395). -/
def driveTick (e : SledEnv) (x : Sled) (pos : Int) : Int :=
  let corr := match e.meas with
    | some m => max (-32) (min 32 (roundAway ((pos - m) * (e.corr : Int)) (16 * sledDen))) * (sledDen : Int)
    | none => 0
  if e.state = 1 && x.homing = 1 && !x.waits then x.drive - (sledDen / 20 : Nat)
  else x.drive + max (-(sledDen : Int)) (min (sledDen : Int) (pos + corr - x.drive))
/-- One µs of the sled with its band: P_cmd that moves by more than 1 unit leaves P_drive behind, once counted in a move (R388);
the phases carry RUN_MA again when following moves the sled (R389). The inward run of homing keeps band 0 (R395). -/
def sledTick (e : SledEnv) (y : Sled × Nat) : Sled × Nat :=
  let x := y.1
  let c := cmdTick e x
  let d := driveTick e x c.1
  let b := if e.state = 1 && x.homing = 1 then (y.2, x.bandAt) else bandTick e.edges d c.2 (y.2, x.bandAt)
  let lags := decide ((c.1 - x.pos).natAbs > sledDen)
  ({ x with pos := c.1, drive := d, bandAt := b.2, ma := if e.state = 2 && c.1 != x.pos then x.runMa else x.ma
            move := x.move.map (fun m => { m with time := m.time + 1, lagged := m.lagged || lags }) }, b.1)
def sledTicks (e : SledEnv) : Nat → Sled × Nat → Sled × Nat
  | 0, y => y
  | k + 1, y => sledTicks e k (sledTick e y)
/-- A move in which P_drive has lagged. -/
def Sled.lagged (x : Sled) : Bool := match x.move with | some m => m.lagged | none => false
/-- The sled runs k µs: nothing moves under a cut (R397). -/
def sledMicros (n k : Nat) (s : State) : State :=
  if sledCut s n then s
  else
    let was := sledOf s n
    let y := sledTicks (sledEnv s n) k (was, s.rd (R.SLED_STATUS.BAND n))
    let s1 := (putPos n y.1.pos (putSled n y.1 s)).wr (R.SLED_STATUS.BAND n) y.2
    if y.1.lagged && !was.lagged then s1.bump (R.SLED_COUNTS.LAGS n) 1 else s1
/-- The sled runs for a time in 1/512 µs; 2.5 µs of a frame are 1,280, and a metronome tick is 15,625. -/
def sledRun (n k : Nat) (s : State) : State :=
  let total := (sledOf s n).part + k
  sledMicros n (total / 512) (putSled n { sledOf s n with part := total % 512 } s)
/-- The move under way runs on to its time t. -/
def moveTo (n t : Nat) (s : State) : State :=
  match (sledOf s n).move with
  | some m => if (sledOf s n).waits then s else sledMicros n (t - m.time) s
  | none => s

/-- cos(90° × k / 64) in 1/1,000,000, for k up to 64. -/
def cosTable : List Nat :=
  [1000000, 999699, 998795, 997290, 995185, 992480, 989177, 985278, 980785, 975702, 970031, 963776, 956940, 949528, 941544, 932993,
   923880, 914210, 903989, 893224, 881921, 870087, 857729, 844854, 831470, 817585, 803208, 788346, 773010, 757209, 740951, 724247,
   707107, 689541, 671559, 653173, 634393, 615232, 595699, 575808, 555570, 534998, 514103, 492898, 471397, 449611, 427555, 405241,
   382683, 359895, 336890, 313682, 290285, 266713, 242980, 219101, 195090, 170962, 146730, 122411, 98017, 73565, 49068, 24541, 0]
/-- cos(90° × q / 64) in 1/1,000,000. -/
def cosUnits (q : Int) : Int :=
  let k := (q % 256).toNat
  if k ≤ 64 then (cosTable.getD k 0 : Nat) else if k ≤ 128 then -(cosTable.getD (128 - k) 0 : Nat)
  else if k ≤ 192 then -(cosTable.getD (k - 128) 0 : Nat) else (cosTable.getD (256 - k) 0 : Nat)
/-- Q of R394, in units, and the phase currents I_A = I·cos θ and I_B = I·sin θ in nA, θ = 90° × Q / 64; none under a cut. -/
def sledPhases (s : State) (n : Nat) : Int × Int × Int :=
  let q := bandPoint (s.rd (R.SLED_STATUS.BAND n)) (sledOf s n).drive
  let i : Int := if sledCut s n then 0 else (sledOf s n).ma
  (q, i * cosUnits q, i * cosUnits (q - 64))

end Sys2Proof.Machine
end

