-- ==== Sys2Proof/Machine/Drumhead.lean ====
section
/-! DEFINITION. The Drumhead: the control law, the frame, and loading, swapping and reseeding voices (chapter 17). -/
namespace Sys2Proof.Machine

/-- The fma terms of `coef j`, `vec j` for j below `k`, added to `acc` in ascending order (R351). -/
def fmaRow (coef : Nat → Nat) (vec : List Nat) (k acc : Nat) : Nat :=
  (List.range k).foldl (fun a j => f32Fma (coef j) (vec.getD j 0) a) acc
/-- Element (i, j) of a matrix of the float block that begins at `off` and has `cols` columns. -/
def Program.at (g : Program) (off cols i j : Nat) : Nat := g.fl (off + i * cols + j)
/-- A vector of the float block, its subnormals taken as zero (R350). -/
def Program.vec (g : Program) (off k : Nat) : List Nat := (List.range k).map (fun i => f32Flush (g.fl (off + i)))

/-- M = −K·L, computed when the voice is loaded (R351). -/
def voiceGain (g : Program) : List Nat :=
  (List.range (g.q * g.p)).map (fun e =>
    let i := e / g.p
    let j := e % g.p
    (List.range g.n).foldl (fun a l => f32Fma (f32Neg (g.at g.offK g.n i l)) (g.at g.offL g.p l j) a) 0)
/-- ŷ = C·x⁻. -/
def predictOut (g : Program) (x : List Nat) : List Nat :=
  (List.range g.p).map (fun i => fmaRow (g.at g.offC g.n i) x g.n 0)
/-- −K·x + N·r − K_I·z, from 0 in three groups. -/
def stateLaw (g : Program) (x r z : List Nat) : List Nat :=
  (List.range g.q).map (fun i =>
    let a := fmaRow (fun j => f32Neg (g.at g.offK g.n i j)) x g.n 0
    let b := fmaRow (g.at g.offN g.m i) r g.m a
    fmaRow (fun j => f32Neg (g.at g.offKI g.k i j)) z g.k b)
/-- c = u_pre − M·ŷ. -/
def fastBias (g : Program) (gain pre yhat : List Nat) : List Nat :=
  (List.range g.q).map (fun i => fmaRow (fun j => f32Neg (gain.getD (i * g.p + j) 0)) yhat g.p (pre.getD i 0))
/-- x = x⁻ + L·(y − ŷ). -/
def correct (g : Program) (x yhat y : List Nat) : List Nat :=
  let e := (List.range g.p).map (fun j => f32Sub (y.getD j 0) (yhat.getD j 0))
  (List.range g.n).map (fun i => fmaRow (g.at g.offL g.p i) e g.p (x.getD i 0))
/-- z = clamp(z + G ⊙ (y_sel − r_z), ZMIN, ZMAX). -/
def integrate (g : Program) (z r y : List Nat) : List Nat :=
  (List.range g.k).map (fun i =>
    let d := f32Sub (y.getD (g.sels.getD i 0) 0) (if i < g.m then r.getD i 0 else 0)
    f32Clamp (f32Fma (g.fl (g.offG + i)) d (z.getD i 0)) (g.fl (g.offZmin + i)) (g.fl (g.offZmax + i)))
/-- x⁻ = A·x + B·clamp(u, UMIN, UMAX). -/
def propagate (g : Program) (x u : List Nat) : List Nat :=
  let v := (List.range g.q).map (fun i => f32Clamp (u.getD i 0) (g.fl (g.offUmin + i)) (g.fl (g.offUmax + i)))
  (List.range g.n).map (fun i => fmaRow (g.at g.offB g.q i) v g.q (fmaRow (g.at g.offA g.n i) x g.n 0))
/-- The fast steps: u = c + M·y in the order of R359. -/
def fastOut (g : Program) (gain c y : List Nat) : List Nat :=
  (List.range g.q).map (fun i =>
    let m (j : Nat) := if j < g.p then gain.getD (i * g.p + j) 0 else 0
    let v (j : Nat) := if j < g.p then y.getD j 0 else 0
    let b (k : Nat) := f32Fma (m (2 * k + 1)) (v (2 * k + 1)) (f32Fma (m (2 * k)) (v (2 * k)) (if k = 0 then c.getD i 0 else 0))
    f32Add (f32Add (b 0) (b 1)) (b 2))

/-- A voice with x⁻, ŷ and z given, its u_pre and c computed (R351, R363). -/
def Voice.settle (x : Voice) (r : List Nat) : Voice :=
  let g := readProgram x.prog
  if x.predict then
    let pre := stateLaw g x.x r x.z
    { x with pre := pre, c := fastBias g x.gain pre x.yhat }
  else { x with pre := [], c := [] }
/-- x⁻ = X0, z = Z0, ŷ = C·x⁻ (R363). -/
def Voice.seed (x : Voice) (r : List Nat) : Voice :=
  let g := readProgram x.prog
  let x0 := g.vec g.offX0 g.n
  Voice.settle { x with x := x0, z := g.vec g.offZ0 g.k, yhat := predictOut g x0, held := [], reseed := false } r
/-- A voice as a LOAD leaves it. -/
def newVoice (prog : List Nat) (period role : Nat) (predict : Bool) (j0 : Nat) : Voice :=
  let g := readProgram prog
  Voice.seed ⟨prog, role, predict, period, j0, [], [], [], [], [], voiceGain g, [], false⟩ []

/-- The references r of a voice: DH_V_REF_i for i below M. -/
def voiceRefs (s : State) (n v : Nat) (g : Program) : List Nat := (List.range g.m).map (fun i => s.rd (R.DH_V_REF.VALUE n v i))
/-- Write r_i: ignored for i ≥ M (Table 17-7). -/
def setRef (n v i value : Nat) (s : State) : State :=
  match voiceOf s n v with
  | some x => if i < (readProgram x.prog).m then s.wr (R.DH_V_REF.VALUE n v i) value else s
  | none => s

/-- Frame sum of the loaded set (R356). -/
def loadedSum (s : State) (n : Nat) : Nat :=
  frameSum ((loadedVoices s n).map (fun e => (voiceCost (readProgram e.2.prog) e.2.predict, e.2.predict)))
/-- The voice set as the accepted commands leave it, one set per command (R363): voice, program bytes and PREDICT. -/
def applyCmd (set : List (Nat × List Nat × Bool)) (c : VoiceCmd) : List (Nat × List Nat × Bool) :=
  let rest := set.filter (fun e => e.1 != c.voice)
  if c.op = 1 || c.op = 2 then rest ++ [(c.voice, c.prog, c.predict)] else if c.op = 3 then rest else set
def setSum (set : List (Nat × List Nat × Bool)) : Nat :=
  frameSum (set.map (fun e => (voiceCost (readProgram e.2.1) e.2.2, e.2.2)))
def currentSet (s : State) (n : Nat) : List (Nat × List Nat × Bool) :=
  (loadedVoices s n).map (fun e => (e.1, e.2.prog, e.2.predict))
def projectedSet (s : State) (n : Nat) : List (Nat × List Nat × Bool) :=
  (drumSt s n).cmds.foldl applyCmd (currentSet s n)
/-- The largest frame sum of the set now and after each accepted command. -/
def peakSum (set : List (Nat × List Nat × Bool)) (cmds : List VoiceCmd) : Nat :=
  (cmds.foldl (fun acc c => (applyCmd acc.1 c, max acc.2 (setSum (applyCmd acc.1 c)))) (set, setSum set)).2

/-- DRUM_n_FLOOR of the loaded stream. -/
def streamFloor (s : State) (n : Nat) : Nat := match s.stream with | some st => floorOf st (ownMember s) n | none => 0
/-- DH_STATUS and DH_BUDGET follow the voice set, and the rail follows the effective floor (R357, R364). -/
def syncVoices (n : Nat) (s : State) : State :=
  let mask (p : Voice → Bool) := (loadedVoices s n).foldl (fun a e => if p e.2 then a + 2 ^ e.1 else a) 0
  let s1 := ((s.wr (R.DH_STATUS.LOADED n) (mask (fun _ => true))).wr (R.DH_STATUS.PREDICT n) (mask (·.predict))).wr
    (R.DH_BUDGET.SUM n) (loadedSum s n)
  let eff := max (streamFloor s n) (min 3 (lowestFit (peakSum (currentSet s n) (drumSt s n).cmds)))
  tempoUpdate (n + 1) ((s1.wr (R.DH_BUDGET.FLOOR_EFF n) eff).wr (R.DH_BUDGET.BUDGET n) (tempoBudget eff))

/-- DH_V_CFG and DH_V_COST of a voice (Table 17-7). -/
def showVoice (n v : Nat) (s : State) : State :=
  match voiceOf s n v with
  | some x =>
    let g := readProgram x.prog
    ((((((((((s.wr (R.DH_V_CFG.PERIOD n v) x.period).wr (R.DH_V_CFG.ROLE n v) x.role).wrB (R.DH_V_CFG.PREDICT n v) x.predict).wr
      (R.DH_V_CFG.K n v) g.k).wr (R.DH_V_CFG.M n v) g.m).wr (R.DH_V_CFG.Q n v) g.q).wr (R.DH_V_CFG.P n v) g.p).wr
      (R.DH_V_CFG.N n v) g.n).on (R.DH_V_CFG.LOADED n v)).wr (R.DH_V_COST.CYCLES n v) (voiceCost g x.predict))
  | none =>
    s.rstAll [R.DH_V_CFG.PERIOD n v, R.DH_V_CFG.ROLE n v, R.DH_V_CFG.PREDICT n v, R.DH_V_CFG.K n v, R.DH_V_CFG.M n v,
      R.DH_V_CFG.Q n v, R.DH_V_CFG.P n v, R.DH_V_CFG.N n v, R.DH_V_CFG.LOADED n v, R.DH_V_COST.CYCLES n v]
/-- Set DH_V_REF of a voice. -/
def putRefs (n v : Nat) (r : List Nat) (s : State) : State :=
  (List.range 3).foldl (fun a i => a.wr (R.DH_V_REF.VALUE n v i) (r.getD i 0)) s
/-- A voice as at bring-up or LOAD takes its place (R363). -/
def placeVoice (n v : Nat) (x : Voice) (s : State) : State :=
  showVoice n v (putRefs n v [] (putVoice n v (some x) s))

/-- Latch zero at destinations 0x01 to 0x05 (Table 17-6, R366). -/
def zeroDest (n d : Nat) (s : State) : State :=
  if 1 ≤ d && d ≤ 3 then s.wr (R.COIL_LATCH.CODE n (d - 1)) 0
  else if d = 4 then putSpin n { spinOf s n with torque := 0 } s
  else if d = 5 then putSled n { sledOf s n with follow := 0 } s
  else s
def zeroDests (n : Nat) (ds : List Nat) (s : State) : State := ds.foldl (fun a d => zeroDest n d a) s

/-- A voice command is refused (R363). -/
def refuseVoice (n code : Nat) (s : State) : State := occur (drumSrc n 32) (s.wr (R.DH_LOAD_STATUS.CODE n) code)
/-- DH_LOAD_STATUS.PENDING: a command waits for the rail to reach the effective floor (R364). -/
def voicePending (s : State) (n : Nat) : Bool :=
  (drumSt s n).cmds.any (·.raise) && clockTempo s (n + 1) < s.rd (R.DH_BUDGET.FLOOR_EFF n)
/-- Bytes of the stage; a program takes as many of them as its float count gives. -/
def voiceStage (s : State) (n : Nat) : List Nat :=
  let bs := (List.range 258).flatMap (fun i => leBytes 4 (memW (drumSt s n).stage i))
  bs.take (24 + 4 * floatCount (byteAt bs 1) (byteAt bs 2) (byteAt bs 3) (byteAt bs 4) (byteAt bs 5))
def acceptVoice (n : Nat) (c : VoiceCmd) (s : State) : State :=
  let d := drumSt s n
  syncVoices n (putDrum n { d with cmds := d.cmds ++ [c] } (s.wr (R.DH_LOAD_STATUS.CODE n) 0))
/-- The outcome of the check of LOAD, SWAP, UNLOAD or RESEED (R363, Table 17-6): refused, or accepted. -/
def judgeVoice (n : Nat) (c : VoiceCmd) (s : State) : State :=
  let set := projectedSet s n
  let loaded := set.any (fun e => e.1 = c.voice)
  let others := set.filter (fun e => e.1 != c.voice)
  let sum := setSum (applyCmd set c)
  if voicePruned s n c.voice then refuseVoice n 6 s
  else if (c.op = 1) = loaded then refuseVoice n 5 s
  else if 3 ≤ c.op then acceptVoice n c s
  else if !(1 ≤ c.period && c.period ≤ 255 && c.role ≤ 5 && programOk c.prog c.prog.length c.role c.predict
      && (!c.predict || (others.filter (fun e => e.2.2)).length < 3)) then refuseVoice n 2 s
  else if others.any (fun e => (readProgram e.2.1).dests.any (readProgram c.prog).dests.contains) then refuseVoice n 4 s
  else if sum > 3000 then refuseVoice n 3 s
  else acceptVoice n { c with raise := clockTempo s (n + 1) < max (streamFloor s n) (lowestFit sum) } s
/-- The check under way ends: BUSY clears with its outcome (R363, R365). DESIGN CHOICE: no row ends it, so it ends by the next
frame, voice event or tick, within its 20 µs (log 165). The effective floor first follows a swap that a prune dropped (R357). -/
def endCheck (n : Nat) (s : State) : State :=
  let t := if (drumSt s n).resync then syncVoices n (putDrum n { drumSt s n with resync := false } s) else s
  match (drumSt t n).checking with
  | some c => judgeVoice n c ((putDrum n { drumSt t n with checking := none } t).off (R.DH_LOAD_STATUS.BUSY n))
  | none => t
/-- A command is refused BUSY while a check runs or a command waits for its tempo (R363). -/
def voiceBusy (s : State) (n : Nat) : Bool := (drumSt s n).checking.isSome || voicePending s n
/-- LOAD, SWAP, UNLOAD or RESEED (Table 17-6): its check begins, on the stage as it stands (R365). -/
def voiceCmd (n op v period role : Nat) (predict keep : Bool) (s : State) : State :=
  if voiceBusy s n then refuseVoice n 1 s
  else (putDrum n { drumSt s n with checking := some ⟨op, v, if op ≤ 2 then voiceStage s n else [], period, role, predict, keep, false⟩ } s).on
    (R.DH_LOAD_STATUS.BUSY n)

/-- LOAD_VOICE (R363). -/
def execLoadVoice (slot : Fin 8) (drum : Fin 2) (voice : Fin 8) (period role : Nat) (predict : Bool) (s : State) : Res :=
  completes s (guardWrite slot (drumBase drum + 0x10018) (voiceCmd drum 1 voice period role predict false) s)
/-- SWAP (R363). -/
def execSwap (slot : Fin 8) (drum : Fin 2) (voice : Fin 8) (period role : Nat) (predict keep : Bool) (s : State) : Res :=
  completes s (guardWrite slot (drumBase drum + 0x10018) (voiceCmd drum 2 voice period role predict keep) s)
/-- UNLOAD (R363). -/
def execUnload (slot : Fin 8) (drum : Fin 2) (voice : Fin 8) (s : State) : Res :=
  completes s (guardWrite slot (drumBase drum + 0x10018) (voiceCmd drum 3 voice 0 0 false false) s)
/-- RESEED (R363). -/
def execReseed (slot : Fin 8) (drum : Fin 2) (voice : Fin 8) (s : State) : Res :=
  completes s (guardWrite slot (drumBase drum + 0x10018) (voiceCmd drum 4 voice 0 0 false false) s)
/-- VOICE_CMD_BAD_OP (R363). -/
def execVoiceCmdBadOp (slot : Fin 8) (drum : Fin 2) (s : State) : Res :=
  completes s (guardWrite slot (drumBase drum + 0x10018)
    (fun s => refuseVoice drum (if voiceBusy s drum then 1 else 7) s) s)

/-- The engine runs frames: the drum is brought up, its clock runs, and its rail is not HELD (R355, R358, R366). -/
def engineRuns (s : State) (n : Nat) : Bool :=
  (drumSt s n).up && domOn s (95 + 10 * n) && !railHeld s (n + 1) && dormantState s < 2
/-- Frame boundaries pass: the engine runs, or its rail is HELD (R358). -/
def framesPass (s : State) (n : Nat) : Bool := engineRuns s n || (railHeld s (n + 1) && (drumSt s n).up)
/-- A voice is due in frame j (R355). -/
def Voice.due (x : Voice) (j : Nat) : Bool := (j - x.j0) % x.period = 0

/-- The effect of a voice command at the boundary of frame j (Table 17-6). -/
def voiceEffect (n j : Nat) (c : VoiceCmd) (s : State) : State :=
  let fresh := newVoice c.prog c.period c.role c.predict j
  match c.op, voiceOf s n c.voice with
  | 1, _ => placeVoice n c.voice fresh s
  | 2, some old =>
    let g := readProgram c.prog
    let o := readProgram old.prog
    let r := if c.keep then (List.range g.m).map (fun i => if i < o.m then s.rd (R.DH_V_REF.VALUE n c.voice i) else 0) else []
    let carryX := c.keep && g.n = o.n && g.p = o.p
    let carried := { fresh with x := if carryX then old.x else fresh.x, yhat := if carryX then old.yhat else fresh.yhat
                                z := if c.keep && g.k = o.k then old.z else fresh.z }
    let s1 := zeroDests n (o.dests.filter (fun d => !g.dests.contains d)) s
    showVoice n c.voice (putRefs n c.voice r (putVoice n c.voice (some (carried.settle r)) s1))
  | 3, some old => showVoice n c.voice (putVoice n c.voice none (zeroDests n old.dests s))
  | 4, some old => putVoice n c.voice (some (old.seed (voiceRefs s n c.voice (readProgram old.prog)))) s
  | _, _ => s

/-- VOICE_CMD_EFFECT (R358, R363 to R365): the command accepted first, at the boundary of the frame that starts next, which a
HELD rail does not have; a swap of a voice that is pruned there is dropped (Table 17-8). -/
def execVoiceCmdEffect (drum : Fin 2) (s0 : State) : Res :=
  let n := drum.val
  let s := endCheck n s0
  let d := drumSt s n
  let j := d.frames
  completes s0 (if !engineRuns s n then s else match d.cmds with
    | [] => s
    | c :: rest =>
      let ready := match c.op, voiceOf s n c.voice with
        | 1, none => true
        | _, some x => c.op != 1 && x.due j
        | _, none => false
      if (c.raise && voicePending s n) || !ready then s
      else
        let s1 := putDrum n { d with cmds := rest } s
        if c.op = 2 && voicePruned s n c.voice then syncVoices n (refuseVoice n 6 s1)
        else checkSpeedVoice n (syncVoices n (voiceEffect n j c s1)))

/-- VOICE_CMD_ABANDONED (R364): the rail is in CLOCK_FAILED. -/
def execVoiceCmdAbandoned (drum : Fin 2) (s0 : State) : Res :=
  let n := drum.val
  let s := endCheck n s0
  let d := drumSt s n
  completes s0 (if voicePending s n && seqOf s (n + 1) = 6 then
      syncVoices n (putDrum n { d with cmds := d.cmds.filter (fun c => !c.raise) } (s.wr (R.DH_LOAD_STATUS.CODE n) 8))
    else s)

/-- The stage word at WORD, which then advances (Table 17-7). -/
def execDhStageDataAccess (slot : Fin 8) (drum : Fin 2) (write : Option Nat) (s : State) : Res :=
  let n := drum.val
  let a := drumBase n + 0x10014
  let w := s.rd (R.DH_STAGE_ADDR.WORD n)
  let advance (s : State) : State := s.wr (R.DH_STAGE_ADDR.WORD n) (if w ≥ 257 then 0 else w + 1)
  completes s (match write with
    | some v => guardWrite slot a (fun s =>
        if voiceBusy s n then s
        else advance (putDrum n { drumSt s n with stage := putW (drumSt s n).stage w v } s)) s
    | none => guardRead slot a (fun s => advance (s.emit (.answer slot 0 (memW (drumSt s n).stage w)))) s)

/-- One electrical revolution in the angle's units (R378). -/
def turnUnits : Nat := 144000 * 2 ^ 149
/-- The electrical angle after k frames of 2.5 µs at the speed x, read as rpm / 11,000 (R378). -/
def turnAngle (polePairs k x angle : Nat) : Nat :=
  let v := f32Rat x
  (((angle : Int) + 66 * k * polePairs * (v.1 * (2 ^ 149 / v.2 : Nat))) % (turnUnits : Int)).toNat
/-- The angle corrected by one eighth of its error, in tenths of a degree (R378). -/
def correctAngle (angle : Nat) (error : Int) : Nat := (((angle : Int) + 5 * error * 2 ^ 149) % (turnUnits : Int)).toNat
/-- Quiet mode's angle over k frames, from the speed voice's x⁻_0 (R378, R383). -/
def quietFollow (n k : Nat) (s : State) : State :=
  if !s.isSet (R.SPIN_STATUS.QUIET_ACTIVE n) then s
  else
    match (driverVoice s n 4).bind (voiceOf s n) with
    | some v =>
      let x := spinOf s n
      putSpin n { x with angle := turnAngle x.polePairs k (v.x.getD 0 0) x.angle } s
    | none => s

/-- Input values of a voice (Table 17-1): channels of this frame, the rest as at its start. -/
def voiceInput (s : State) (n code : Nat) : Nat :=
  if code ≤ 7 then channelValue (s.rd (R.CH_SAMPLE.CODE n code))
  else if code = 8 then f32OfRat ((spinOf s n).speed : Int) 11000000
  else if code = 9 then
    (if closedLoop s n then
      f32OfRat ((sledOf s n).pos - sledMeas s n) (4096 * sledDen) else 0)
  else if code = 0x0A then (if closedLoop s n then f32OfRat (encCount s n - (sledOf s n).lastCount) 64 else 0)
  else s.rd (R.DH_LINK.VALUE n (code - 0x10))

/-- Send output i of a voice to its destination (R352, Table 17-2). -/
def latchOut (n : Nat) (g : Program) (u : List Nat) (i : Nat) (s : State) : State :=
  let v := u.getD i 0
  let d := g.outputs.getD i 0xFF
  let code := unsigned 16 (f32Convert v (g.fl (g.offUmin + i)) (g.fl (g.offUmax + i)))
  if 1 ≤ d && d ≤ 3 then latchCoil n (d - 1) code s
  else if d = 4 then putSpin n { spinOf s n with torque := code } s
  else if d = 5 then putSled n { sledOf s n with follow := code } s
  else if 0x10 ≤ d && d ≤ 0x17 then s.wr (R.DH_LINK.VALUE n (d - 0x10)) v
  else s
def latchOuts (n : Nat) (g : Program) (u : List Nat) (s : State) : State :=
  (List.range g.q).foldl (fun a i => latchOut n g u i a) s

/-- DH_V_U, DH_V_X and DH_V_Z captured at the end of an update. -/
def captureVoice (n v : Nat) (u x z : List Nat) (s : State) : State :=
  wrList (R.DH_V_Z.VALUE n v) 0 ((List.range 3).map (z.getD · 0))
    (wrList (R.DH_V_X.VALUE n v) 0 ((List.range 8).map (x.getD · 0))
      (wrList (R.DH_V_U.VALUE n v) 0 ((List.range 3).map (u.getD · 0)) s))

/-- The update of one due voice (R351); `start` is the state from which its inputs were taken, `u` its fast outputs. -/
def updateVoice (n v : Nat) (x : Voice) (start : State) (s : State) : State :=
  let g := readProgram x.prog
  let y := (List.range g.p).map (fun i => voiceInput start n (g.inputs.getD i 0))
  let r := voiceRefs s n v g
  if x.predict then
    let u := fastOut g x.gain x.c y
    let xc := correct g x.x x.yhat y
    let z := integrate g x.z r y
    let xm := propagate g xc u
    let nx := Voice.settle { x with x := xm, z := z, yhat := predictOut g xm } r
    captureVoice n v u xm z (putVoice n v (some nx) s)
  else
    let xc := correct g x.x x.yhat y
    let u := stateLaw g xc r x.z
    let z := integrate g x.z r y
    let xm := propagate g xc u
    captureVoice n v u xm z (putVoice n v (some { x with x := xm, z := z, yhat := predictOut g xm }) (latchOuts n g u s))

/-- The fast steps of a due predict voice. -/
def fastVoice (n : Nat) (x : Voice) (start : State) (s : State) : State :=
  let g := readProgram x.prog
  latchOuts n g (fastOut g x.gain x.c ((List.range g.p).map (fun i => voiceInput start n (g.inputs.getD i 0)))) s

/-- Count the frames in a row in which an input's code stands at 0 or at 4,095; a whole period of it is an occurrence of
VOICE_INPUT_v (R332). -/
def watchInputs (n v : Nat) (s : State) : State :=
  match voiceOf s n v with
  | some x =>
    let g := readProgram x.prog
    let held := (List.range g.p).map (fun i =>
      let c := g.inputs.getD i 0xFF
      let code := s.rd (R.CH_SAMPLE.CODE n c)
      if c ≤ 7 && (code = 0 || code = 4095) then min (x.held.getD i 0 + 1) (x.period + 1) else 0)
    let hits := held.any (fun k => k = x.period)
    let s1 := putVoice n v (some { x with held := held }) s
    if hits then occur (drumSrc n (24 + v)) s1 else s1
  | none => s

/-- The servo converters' results of a frame's first sample (R330, R331), and the sensed coil currents in mA. -/
def sampleDrum (n : Nat) (p : Pickup) (s : State) : State :=
  if !domOn s (91 + 10 * n) then s
  else
    let s1 := (List.range 8).foldl (fun a c => a.wr (R.CH_SAMPLE.CODE n c) (channelCode s n c p)) s
    ((s1.wr (R.COIL_LATCH.SENSE n 0) (unsigned 16 (roundDiv p.iFocus 1000))).wr (R.COIL_LATCH.SENSE n 1)
      (unsigned 16 (roundDiv p.iTrack 1000))).wr (R.COIL_LATCH.SENSE n 2) (unsigned 16 (roundDiv p.iTilt 1000))


/-- A voice un-pruned since its last update runs as if reseeded (R366). -/
def reseedDue (n j : Nat) (s : State) : State :=
  (loadedVoices s n).foldl (fun a e =>
    if e.2.reseed && e.2.due j && !voicePruned a n e.1 then putVoice n e.1 (some (e.2.seed (voiceRefs a n e.1 (readProgram e.2.prog)))) a
    else a) s
/-- A frame starts (R355). -/
def startFrame (n : Nat) (s : State) : State :=
  (putDrum n { drumSt s n with frames := (drumSt s n).frames + 1 } s).wr (R.DH_FRAME.COUNT n) ((drumSt s n).frames + 1)
/-- DRUMHEAD_FRAME (R355, R358, R383): while the rail is HELD no frame runs, its boundaries are counted and only quiet mode's angle goes on;
else fast steps of the due predict voices, then the due voices in ascending order; a pruned voice latches zero in place of its
update (R366). -/
def execDrumheadFrame (drum : Fin 2) (pickup : Pickup) (late : Fin 49) (s0 : State) : Res :=
  let n := drum.val
  let s := endCheck n s0
  completes s0 (if !engineRuns s n then
      (if framesPass s n then
        quietFollow n (1 + late.val) (sledRun n (1280 * (1 + late.val)) (s.bump (R.DH_LATE.COUNT n) (1 + late.val)))
      else s)
    else
      let j := (drumSt s n).frames
      let s1 := reseedDue n j <| quietFollow n (1 + late.val) <| sledRun n (1280 * (1 + late.val)) (sampleDrum n pickup (s.bump (R.DH_LATE.COUNT n) late))
      let start := s1
      let s2 := startFrame n s1
      let due := if s.isSet (R.FRONT_STATUS.CONV_OK n) then (loadedVoices s2 n).filter (fun e => e.2.due j) else []
      let run := due.filter (fun e => !voicePruned s2 n e.1)
      let s3 := (due.filter (fun e => voicePruned s2 n e.1)).foldl (fun a e => zeroDests n e.2.dests a) s2
      let s4 := (run.filter (fun e => e.2.predict)).foldl (fun a e => fastVoice n e.2 start a) s3
      let s5 := run.foldl (fun a e => updateVoice n e.1 e.2 start a) s4
      let s6 := putSled n { sledOf s5 n with lastCount := encCount s5 n } s5
      ((loadedVoices s6 n).filter (fun e => !voicePruned s6 n e.1)).foldl (fun a e => watchInputs n e.1 a) s6)

end Sys2Proof.Machine
end

