-- ==== Sys2Proof/Machine/Spindle.lean ====
section
/-! DEFINITION. The spindle: the speed curve, the states of Table 18-2, starting, running, braking and cuts (chapter 18). -/
namespace Sys2Proof.Machine

/-- The bytes a record names in this member's BLOB body. -/
def namedBytes (s : State) (r : Rec) : List Nat := ((blobBytes s).drop (r.u32 4)).take (r.u32 8)
/-- The curve body of an index, and the one in force: that of SPIN_CFG.CURVE as last evaluated (R371, R385). -/
def curveRec (s : State) (n i : Nat) : Option Rec := (recsOf s 0x0A).find? (fun r => r.u8 0 = n && r.u8 1 = i)
def curveOf (s : State) (n : Nat) : Option (Nat × List Nat) :=
  (curveRec s n ((spinOf s n).oldCurve.getD (s.rd (R.SPIN_CFG.CURVE n)))).map (fun r => (r.u8 2, namedBytes s r))
/-- The curve value for a demand (R372). -/
def curveValue (points : Nat) (bs : List Nat) (e : Nat) : Nat :=
  let d (i : Nat) := half bs (8 + 4 * i)
  let v (i : Nat) := half bs (0x0A + 4 * i)
  if e ≤ d 0 then v 0
  else
    match (List.range (points - 1)).find? (fun i => e ≤ d (i + 1)) with
    | some i => v i + (v (i + 1) - v i) * (e - d i) / (d (i + 1) - d i)
    | none => v (points - 1)

/-- E and the slot whose demand it is, lowest on a tie (R372); 0 while the tray opens (R438). -/
def effDemand (s : State) (n : Nat) : Nat × Nat :=
  if (spinOf s n).trayHold then (0, 0)
  else
    (drumSlots s n).foldl (fun acc k =>
      let d := s.rd (R.STK_DEMAND.DEMAND n k)
      if d > acc.1 then (d, k) else acc) (0, (drumSlots s n).headD 0)
/-- E as last evaluated, which alone starts and stops the spindle (R386). -/
def evaluated (s : State) (n : Nat) : Nat := s.rd (R.SPIN_DEMAND.EFFECTIVE n)
def turnOn (s : State) (n : Nat) : Nat := match curveOf s n with | some c => half c.2 0 | none => 65536
def turnOff (s : State) (n : Nat) : Nat := match curveOf s n with | some c => half c.2 2 | none => 65536
/-- The target T (R372). -/
def spinTarget (s : State) (n : Nat) : Nat :=
  match curveOf s n with
  | some c => min (curveValue c.1 c.2 (effDemand s n).1) (spinOf s n).maxRpm
  | none => 0

/-- The duty of the gates in 1/32,767 %: RAMP_DUTY in ALIGN and RAMP, the torque in RUN, braking at DUTY_MAX and then with
the low sides fully on in BRAKE (R375, R376, R379, R380); none in any other state. SENSE pulses are at full duty. -/
def spinDuty (s : State) (n : Nat) : Int :=
  let m : Int := s.rd (R.SPIN_PWM.DUTY_MAX n)
  if cutHolds s n then 0
  else
    match spinState s n with
    | 2 => 32767 * 100
    | 3 => 32767 * ((spinOf s n).duty : Int)
    | 4 => 32767 * ((spinOf s n).duty : Int)
    | 5 => signed 16 (spinOf s n).torque * m
    | 6 => match (spinOf s n).brake with | 0 => -(32767 * m) | 1 => -(32767 * 100) | _ => 0
    | _ => 0

/-- The high side and the low side that each vector drives: U→V, U→W, V→W, V→U, W→U, W→V. -/
def vectorPair (v : Nat) : Nat × Nat := ([(0, 1), (0, 2), (1, 2), (1, 0), (2, 0), (2, 1)] : List (Nat × Nat)).getD v (0, 1)
/-- The on-time of a duty at instant k (25 ns) of the 25 µs PWM period: centred, and begun late by the dead time where the
gates switch at all (R379). -/
def pwmOn (duty dead k : Nat) : Bool :=
  let w := min 1000 (duty * 1000 / 3276700)
  let lo := (1000 - w) / 2
  (if w = 1000 then 0 else lo + dead) ≤ k && k < lo + w
/-- The gates U, V, W, each as (high side, low side), at the instant of a PWM period before which ISNS read `isns` mV, a value
every 25 ns (R375, R379, R380): a vector's pair while the drive is on; the three low sides together while it brakes, off for
the rest of the period once ISNS exceeds BRAKE_ILIMIT, which the 500 ms hold of BRAKE does not heed. Quiet mode's three duties
follow its angle and are none of these. -/
def spinGates (s : State) (n : Nat) (isns : List Nat) : List (Bool × Bool) :=
  let d := spinDuty s n
  let on := pwmOn d.natAbs (4 * (s.rd (R.SPIN_PWM.DEAD_TIME n) + 1)) isns.length
  let high := (spinOf s n).brake != 1 && isns.any (fun i => i > s.rd (R.SPIN_PWM.BRAKE_ILIMIT n))
  let v := vectorPair (spinOf s n).vector
  (List.range 3).map (fun p =>
    if d > 0 then (on && p = v.1, on && p = v.2) else if d < 0 then (false, on && !high) else (false, false))

/-- The spindle writes T_r / 11,000 to REF_0 of the speed voice (R370). -/
def writeTargetRef (n : Nat) (s : State) : State :=
  match driverVoice s n 4 with
  | some v => setRef n v 0 (f32OfRat ((spinOf s n).target : Int) 11000000) s
  | none => s
/-- A backoff of a failed attempt or stall runs (R382). -/
def spinBackoff (s : State) (n : Nat) : Bool :=
  Tab.look false s.backoff (drumSrc n 6) || Tab.look false s.backoff (drumSrc n 7)

/-- CHECK begins with the calibration and ramp settings of this start (R384, R385). -/
def startCheck (n : Nat) (s : State) : State :=
  let x := spinOf s n
  enterSpin n 1 (putSpin n { x with maxRpm := s.rd (R.SPIN_CAL_A.MAX_RPM n), polePairs := s.rd (R.SPIN_CAL_A.POLE_PAIRS n)
                                    handover := s.rd (R.SPIN_RAMP.HANDOVER_RPM n), startRpm := s.rd (R.SPIN_RAMP.START_RPM n)
                                    accel := s.rd (R.SPIN_RAMP_B.RAMP_ACCEL n)
                                    duty := s.rd (R.SPIN_RAMP_B.RAMP_DUTY n), owed := 0 } s)
/-- E falls below TURN_OFF: a backoff that runs is abandoned, START_BLOCKED clears, and the next start is a fresh sequence
(R382). -/
def freshStarts (n : Nat) (s : State) : State :=
  let s1 := retryEnd (drumSrc n 6) (retryEnd (drumSrc n 7) s)
  ({ s1 with backoff := Tab.put false (Tab.put false s1.backoff (drumSrc n 6) false) (drumSrc n 7) false }.off
    (R.SPIN_STATUS.START_BLOCKED n)).wr (R.SPIN_STATUS.ATTEMPT n) 0
/-- A STOPPED spindle evaluates its row (R373, R382). -/
def evalStopped (n : Nat) (s : State) : State :=
  let e := evaluated s n
  if spinState s n != 0 then s
  else if e < turnOff s n then freshStarts n s
  else if e ≥ turnOn s n && (driverVoice s n 4).isSome && !spinBackoff s n && !cutHolds s n
      && !s.isSet (R.SPIN_STATUS.START_BLOCKED n) && !drumPruned s n then
    startCheck n (if Tab.look 0 s.retryN (drumSrc n 6) = 0 && Tab.look 0 s.retryN (drumSrc n 7) = 0
      then s.wr (R.SPIN_STATUS.ATTEMPT n) 0 else s)
  else s
/-- The spindle reaches STOPPED. -/
def stopSpin (n : Nat) (s : State) : State :=
  let s1 := enterSpin n 0 s
  if drumPruned s1 n then dropPruned n s1 else evalStopped n s1

/-- A SPIN stroke that runs ends once the spindle turns within 2% of T, or once the start is blocked, as does an IDENTIFY
that waits for RUN (R432, R435). -/
def checkSpinStroke (n : Nat) (s : State) : State :=
  match currentStroke s n with
  | some x =>
    if !x.started then s
    else if x.op = 8 && spinState s n != 5 && s.isSet (R.SPIN_STATUS.START_BLOCKED n) then failStroke n x.slot (drumSrc n 6) s
    else if x.op != 6 then s
    else
      let t := spinTarget s n
      let near := decide ((((spinOf s n).speed : Int) - 1000 * t).natAbs ≤ 20 * t)
      if (effDemand s n).1 < turnOn s n || (spinState s n = 5 && near) then
        endStroke n x.slot false false 0 (updateCurrent n (fun y => { y with done := 1, map := 1, next := 1 }) s)
      else if s.isSet (R.SPIN_STATUS.START_BLOCKED n) then failStroke n x.slot (drumSrc n 6) s
      else s
  | none => s

/-- A failed attempt or a stall is counted: a backoff begins, or START_BLOCKED sets (R382). -/
def countFailure (n src : Nat) (s : State) : State :=
  if drumPruned s n then s
  else if retryLeft s src then
    { s with backoff := Tab.put false s.backoff src true }
  else checkSpinStroke n ((retryEnd src s).on (R.SPIN_STATUS.START_BLOCKED n))
/-- The backoff of a failed attempt or stall ends: the start is made again from CHECK (R382). -/
def retrySpin (n : Nat) (s : State) : State := evalStopped n (s.bump (R.SPIN_STATUS.ATTEMPT n) 1)

/-- SPIN_EVALUATE (R372, R376): once per ms. -/
def execSpinEvaluate (drum : Fin 2) (s : State) : Res :=
  let n := drum.val
  completes s (if !(drumSt s n).up || !domOn s (96 + 10 * n) then s
    else
      let e := effDemand s n
      let s0 := ((putSpin n { spinOf s n with oldCurve := none } s).wr (R.SPIN_DEMAND.EFFECTIVE n) e.1).wr (R.SPIN_DEMAND.SLOT n) e.2
      let st := spinState s n
      let voice := (driverVoice s n 4).isSome
      let s1 := if st = 0 then s0.wrB (R.SPIN_STATUS.NO_VOICE n) (!voice) else if voice then s0.off (R.SPIN_STATUS.NO_VOICE n) else s0
      let off := e.1 < turnOff s0 n
      let x := spinOf s0 n
      let s1 := if off && st != 0 then freshStarts n s1 else s1
      let s2 := match st with
        | 0 => evalStopped n s1
        | 1 => if off then stopSpin n s1 else s1
        | 2 => if off then stopSpin n s1 else s1
        | 3 => if off then stopSpin n s1 else s1
        | 4 =>
          if off then enterSpin n 6 s1
          else if !voice then checkSpeedVoice n s1
          else setSpin n (x.speed + x.accel) s1
        | 5 =>
          if off then enterSpin n 6 s1
          else if !voice then checkSpeedVoice n s1
          else
            let t := 1000 * spinTarget s0 n
            let c := (curveOf s0 n).map Prod.snd
            let up := (c.map (fun b => half b 4)).getD 0
            let down := (c.map (fun b => half b 6)).getD 0
            let tr := if x.target < t then min t (x.target + up) else max t (x.target - down)
            let good := if x.speed ≥ 1000000 then min 500 (x.goodMs + 1) else 0
            let s3 := showTarget n (putSpin n { x with target := tr, goodMs := good } s1)
            if tr = x.target then s3 else writeTargetRef n s3
        | _ => s1
      checkSpinStroke n s2)

/-- SPIN_CHECK_END (R374): SENSE from rest, BRAKE in every other case. -/
def execSpinCheckEnd (drum : Fin 2) (quiet : Bool) (s : State) : Res :=
  let n := drum.val
  completes s (if spinState s n != 1 then s else enterSpin n (if quiet then 2 else 6) s)

/-- RAMP begins at START_RPM, with the first step two vectors past the sector (R375, R376). -/
def startRamp (n sector : Nat) (s : State) : State :=
  let s1 := enterSpin n 4 s
  setSpin n (1000 * (spinOf s1 n).startRpm) (putSpin n { spinOf s1 n with vector := (sector + 2) % 6 } s1)
/-- The index of the largest of six values, lowest on a tie. -/
def argMax6 (is : List Nat) : Nat :=
  (List.range 6).foldl (fun b k => if is.getD k 0 > is.getD b 0 then k else b) 0
/-- The margin of a round as numerator over I_s (R375). -/
def marginOf (is : List Nat) : Nat × Nat :=
  let k := argMax6 is
  (is.getD k 0 - is.getD ((k + 3) % 6) 0, is.getD k 0)
def marginGood (m : Nat × Nat) : Bool := 0 < m.2 && 20 * m.2 ≤ 1000 * m.1

/-- SENSE_DONE (R375). -/
def execSenseDone (drum : Fin 2) (first second : List Nat) (fails : Bool) (s : State) : Res :=
  let n := drum.val
  completes s (if spinState s n != 2 then s
    else if fails then
      let s1 := enterSpin n 0 (occur (drumSrc n 6) s)
      if drumPruned s1 n then dropPruned n s1 else evalStopped n (countFailure n (drumSrc n 6) s1)
    else
      let again := !marginGood (marginOf first)
      let is := if again then second else first
      let m := marginOf is
      let s1 := (((s.wr (R.SPIN_DETECT.MARGIN n) (if m.2 = 0 then 0 else min 1000 (1000 * m.1 / m.2))).wrB
        (R.SPIN_DETECT.REPEATED n) again).wr (R.SPIN_DETECT.SECTOR n) (argMax6 is)).off (R.SPIN_DETECT.ALIGNED n)
      if marginGood m then startRamp n (argMax6 is) s1 else putSpin n { spinOf s1 n with vector := 0 } (enterSpin n 3 s1))
/-- ALIGN_DONE (R375). -/
def execAlignDone (drum : Fin 2) (s : State) : Res :=
  let n := drum.val
  completes s (if spinState s n != 3 then s
    else startRamp n 0 ((s.wr (R.SPIN_DETECT.SECTOR n) 0).on (R.SPIN_DETECT.ALIGNED n)))

/-- The vector of a commutation whose place the crossings give and no command states: open (R374, R376, R378). -/
def freeVector (n : Nat) (s : State) : State := (putSpin n { spinOf s n with vector := s.freeVal 0 % 6 } s).drew 1
/-- The next vector (R377). -/
def commutate (n : Nat) (s : State) : State :=
  let x := spinOf s n
  putSpin n { x with vector := (x.vector + 1) % 6 } s
/-- RUN begins with the measured speed as T_r, the start's and a stall's retries over (R374, R376, R202). -/
def enterRun (n milli : Nat) (s : State) : State :=
  let s1 := setSpin n milli (enterSpin n 5 (retryEnd (drumSrc n 7) (retryEnd (drumSrc n 6) (s.bump (R.SPIN_COUNTS.STARTS n) 1))))
  writeTargetRef n (showTarget n (putSpin n { spinOf s1 n with target := milli } s1))
/-- The speed voice is reseeded as by RESEED (R376). -/
def reseedSpeed (n : Nat) (s : State) : State :=
  match driverVoice s n 4 with
  | some v => putDrum n { drumSt s n with cmds := (drumSt s n).cmds ++ [⟨4, v, [], 0, 0, false, false, false⟩] } s
  | none => s
/-- Overspeed: a cut at a measured speed above 1.1 × MAX_RPM, and SPIN_OVERSPEED above 11,000 rpm over one revolution (R381). -/
def watchMeasured (n milli : Nat) (s : State) : State :=
  let x := spinOf s n
  let s1 := if milli > 1100 * x.maxRpm then cutSpin n (putSpin n { x with overspeed := true } s) else s
  if milli > 11000000 && 6 ≤ x.steps.length then occur (drumSrc n 8) s1 else s1
/-- A measured speed is shown as S and watched (R369, R377). -/
def watchSpeed (n : Nat) (s : State) : State := watchMeasured n (spinOf s n).speed s

/-- x⁻_0 of the speed voice is finite (R378). -/
def speedStateFinite (s : State) (n : Nat) : Bool :=
  match (driverVoice s n 4).bind (voiceOf s n) with
  | some v => f32Finite (v.x.getD 0 0)
  | none => false

/-- BEMF_ZERO_CROSSING (R374, R376, R377, R378): RAMP and RUN commutate after it; RUN ignores one in a step's first 25%. -/
def execBemfZeroCrossing (drum : Fin 2) (interval place : Nat) (error : Int) (s : State) : Res :=
  let n := drum.val
  let x := spinOf s n
  let steps := (interval :: x.steps).take 6
  completes s (match spinState s n with
    | 1 =>
      if x.good = 0 then putSpin n { x with good := 1 } s
      else
        let v := measured [interval] x.polePairs
        let s1 := putSpin n { x with steps := [interval] } s
        if v ≥ 1000 * x.handover then watchSpeed n (enterRun n v (freeVector n (s1.bump (R.SPIN_COUNTS.CATCHES n) 1))) else s1
    | 4 =>
      let s1 := commutate n (putSpin n { x with steps := steps, good := if 25 ≤ place && place ≤ 75 then x.good + 1 else 0 } s)
      let v := measured steps x.polePairs
      if x.good ≥ 12 && x.speed ≥ 1000 * x.handover then watchSpeed n (reseedSpeed n (enterRun n v s1)) else watchMeasured n v s1
    | 5 =>
      if s.isSet (R.SPIN_STATUS.QUIET_ACTIVE n) then
        let wide := if error.natAbs > 300 then x.wide + 1 else 0
        let v := if interval = 0 || x.polePairs = 0 then 0 else 2400000000000 / (interval * x.polePairs)
        let s1 := setSpin n v (putSpin n { x with wide := wide, angle := correctAngle x.angle error } s)
        let s2 := if wide ≥ 4 || v < 900000 || !speedStateFinite s n then
            let t := (s1.off (R.SPIN_STATUS.QUIET_ACTIVE n)).bump (R.SPIN_COUNTS.FALLBACKS n) 1
            freeVector n (putSpin n { spinOf t n with goodMs := 0, wide := 0, steps := List.replicate 6 (interval / 6) } t)
          else s1
        watchSpeed n s2
      else if place < 25 then s
      else
        let s1 := commutate n (putSpin n { x with steps := steps, missed := 0 } s)
        watchSpeed n (setSpin n (measured steps x.polePairs) s1)
    | 6 => watchSpeed n (setSpin n (measured steps x.polePairs) (putSpin n { x with steps := steps } s))
    | 7 => watchSpeed n (setSpin n (measured steps x.polePairs) (putSpin n { x with steps := steps } s))
    | _ => s)

/-- RAMP_TIMEOUT (R376, R382): BRAKE, with a failed attempt owed. -/
def execRampTimeout (drum : Fin 2) (s : State) : Res :=
  let n := drum.val
  completes s (if spinState s n != 4 then s
    else
      let s1 := enterSpin n 6 s
      putSpin n { spinOf s1 n with owed := 1 } s1)

/-- COMMUTATION_MISSED (R376, R377): a step of RUN without a crossing measures I again, and the sixth in a row is a stall, which
is owed until at rest; a step of RAMP without one breaks the run of good steps and commutates too. -/
def execCommutationMissed (drum : Fin 2) (s : State) : Res :=
  let n := drum.val
  let x := spinOf s n
  completes s (if spinState s n = 4 then commutate n (putSpin n { x with good := 0 } s)
    else if spinState s n != 5 || s.isSet (R.SPIN_STATUS.QUIET_ACTIVE n) then s
    else if x.missed + 1 ≥ 6 then
      let s1 := enterSpin n 7 (s.bump (R.SPIN_COUNTS.STALLS n) 1)
      occur (drumSrc n 7) (putSpin n { spinOf s1 n with owed := 2 } s1)
    else
      let steps := (x.steps.take 1 ++ x.steps).take 6
      watchSpeed n (setSpin n (measured steps x.polePairs)
        (commutate n (putSpin n { x with missed := x.missed + 1, goodMs := 0, steps := steps } s))))

/-- QUIET_ENTRY (R378). The angle that the drive begins at is the rotor's, which no command states: open. -/
def execQuietEntry (drum : Fin 2) (s : State) : Res :=
  let n := drum.val
  completes s (if s.isSet (R.SPIN_CFG.QUIET n) && spinState s n = 5 && (spinOf s n).goodMs ≥ 500 && (spinOf s n).speed ≥ 1000000 then
      ((putSpin n { spinOf s n with wide := 0, angle := s.freeVal 0 % turnUnits } s).drew 1).on (R.SPIN_STATUS.QUIET_ACTIVE n)
    else s)

/-- BRAKE_LOW_SPEED (R380): the low sides are held on. -/
def execBrakeLowSpeed (drum : Fin 2) (s : State) : Res :=
  let n := drum.val
  completes s (if spinState s n = 6 && (spinOf s n).brake = 0 then putSpin n { spinOf s n with brake := 1 } s else s)
/-- BRAKE_HOLD_END (R380): every gate is off. -/
def execBrakeHoldEnd (drum : Fin 2) (s : State) : Res :=
  let n := drum.val
  completes s (if spinState s n = 6 && (spinOf s n).brake = 1 then putSpin n { spinOf s n with brake := 2 } s else s)

/-- SPINDLE_AT_REST (R373, R382): what is owed is counted. -/
def execSpindleAtRest (drum : Fin 2) (s : State) : Res :=
  let n := drum.val
  completes s (if spinState s n != 6 && spinState s n != 7 then s
    else
      let owed := (spinOf s n).owed
      let s1 := enterSpin n 0 s
      let s2 := putSpin n { spinOf s1 n with owed := 0 } s1
      let s3 := match owed with
        | 1 => let t := occur (drumSrc n 6) s2; countFailure n (drumSrc n 6) t
        | 2 => countFailure n (drumSrc n 7) s2
        | _ => s2
      if drumPruned s3 n then dropPruned n s3 else evalStopped n s3)

/-- SPIN_CUT (R381). -/
def execSpinCut (drum : Fin 2) (s : State) : Res :=
  completes s (if cutHolds s drum then cutSpin drum s else s)
/-- SPIN_FAULT (R343, R381). -/
def execSpinFault (drum : Fin 2) (s : State) : Res :=
  let n := drum.val
  completes s (if !hasDrum s n || (spinOf s n).faultLow then s
    else occur (drumSrc n 9) (cutSpin n (putSpin n { spinOf s n with faultLow := true } s)))
/-- SPIN_CUT_END (R381, Table 18-2): SPIN_FAULT_N is high, and every other cause has gone. -/
def execSpinCutEnd (drum : Fin 2) (s : State) : Res :=
  let n := drum.val
  let x := spinOf s n
  let s1 := putSpin n { x with faultLow := false, overspeed := x.overspeed && x.speed ≥ 1000 * x.maxRpm } s
  completes s (if cutHolds s1 n then s1
    else
      let s2 := s1.off (R.SPIN_STATUS.CUT n)
      match spinState s2 n with
      | 0 => evalStopped n s2
      | 7 => if evaluated s2 n ≥ turnOff s2 n && !drumPruned s2 n && x.owed = 0 then startCheck n s2 else s2
      | _ => s2)

end Sys2Proof.Machine
end

