-- ==== Sys2Proof/Machine/Sled.lean ====
section
/-! DEFINITION. The sled, its encoder, and the tray (chapter 19). -/
namespace Sys2Proof.Machine

/-- The integer square root, bit by bit from bit k − 1. -/
def isqrtGo : Nat → Nat → Nat → Nat
  | 0, _, r => r
  | k + 1, n, r => isqrtGo k n (if (r + 2 ^ k) * (r + 2 ^ k) ≤ n then r + 2 ^ k else r)
def isqrt (n : Nat) : Nat := isqrtGo 64 n 0
/-- √(num / den) rounded to the nearest integer. -/
def roundSqrt (num den : Nat) : Nat := (isqrt (4 * num / den) + 1) / 2

/-- The profile that a drum's SLED record holds (R389). -/
def sledRec (s : State) (n p : Nat) : Option Rec := (recsOf s 0x0B).find? (fun r => r.u8 0 = n && r.u8 1 = p)
/-- Segments of a body: cumulative end time, end position in units, end velocity in 1/65,536 unit per µs. -/
def segmentList (bs : List Nat) (k : Nat) : List (Nat × Int × Int) :=
  (List.range k).map (fun i =>
    (((List.range (i + 1)).map (fun j => word bs (8 + 12 * j))).foldl (· + ·) 0, sword bs (0x0C + 12 * i), sword bs (0x10 + 12 * i)))
/-- S_max of a profile for drum-time sharing, in µs (R392). -/
def longestMove (s : State) (n : Nat) (segs : List (Nat × Int × Int)) : Nat :=
  let travel := travelUnits s n
  let last := segs.getLastD (0, 1, 0)
  let pref := last.2.1.toNat
  let tref := last.1
  let sq := isqrt (tref * tref * travel / pref)
  let up := if sq * sq * pref < tref * tref * travel then sq + 1 else sq
  let vmax := segs.foldl (fun a e => max a e.2.2.natAbs) 0
  up + 64 + 100 * s.rd (R.SLED_SETTLE.SETTLE n) + (if 65536 * 65536 * pref < vmax * vmax * travel then travel else 0)

/-- A profile scaled to the distance `d` in 1/sledDen unit (R391). -/
def scaleSegments (segs : List (Nat × Int × Int)) (d : Int) : List (Nat × Int × Int) :=
  let pref := (segs.getLastD (0, 1, 0)).2.1.toNat
  let den := pref * sledDen
  let sgn : Int := if d < 0 then -1 else 1
  let k := segs.length
  (segs.zipIdx.foldl (fun acc e =>
    let t := max (roundSqrt (e.1.1 * e.1.1 * d.natAbs) den) (acc.1 + 1)
    let p := if e.2 + 1 = k then d else roundAway (e.1.2.1 * d) den * (sledDen : Int)
    let v : Int := (roundSqrt (e.1.2.2.natAbs * e.1.2.2.natAbs * d.natAbs) den : Nat)
    (t, acc.2 ++ [(t, p, (if e.1.2.2 < 0 then -v else v) * sgn)])) (0, [])).2
/-- Segments as a staged table gives them, unscaled. -/
def plainSegments (segs : List (Nat × Int × Int)) : List (Nat × Int × Int) :=
  segs.map (fun e => (e.1, e.2.1 * (sledDen : Int), e.2.2))

def sledCode (n code : Nat) (s : State) : State := s.wr (R.SLED_CMD_STATUS.CODE n) code
/-- A command of the sled ends in READY. -/
def sledReady (n code : Nat) (s : State) : State :=
  sledCode n code ((s.wr (R.SLED_STATUS.STATE n) 2).off (R.SLED_CMD_STATUS.RUNNING n))
/-- A command of the sled fails, and the sled is UNHOMED (R393, R395). -/
def sledUnhomed (n code : Nat) (s : State) : State :=
  sledCode n code (s.rstAll [R.SLED_STATUS.STATE n, R.SLED_STATUS.HOMED n, R.SLED_STATUS.CLOSED_LOOP n, R.SLED_CMD_STATUS.RUNNING n])
/-- A move begins. -/
def startMove (n : Nat) (m : SledMove) (s : State) : State :=
  let s1 := putSled n { sledOf s n with move := some m, waits := false, ma := m.runMa, runMa := m.runMa, holdMa := m.holdMa } s
  sledCode n 0 ((s1.wr (R.SLED_STATUS.STATE n) 3).on (R.SLED_CMD_STATUS.RUNNING n))
/-- A seek between positions of 1/sledDen unit along the selected profile (R391). -/
def seekFrom (n : Nat) (start target : Int) (stroke : Bool) (s : State) : State :=
  match sledRec s n (s.rd (R.SLED_CFG.PROFILE n)) with
  | some r =>
    let bs := namedBytes s r
    startMove n ⟨scaleSegments (segmentList bs (r.u8 2)) (target - start), start, target, half bs 4, half bs 0, half bs 2, stroke, 0, false⟩ s
  | none => sledCode n 2 s
/-- SEEK to X (R391, R403). -/
def seekTo (n : Nat) (target : Int) (stroke : Bool) (s : State) : State :=
  let x := sledOf s n
  if target < 0 || (travelUnits s n : Int) < target then sledCode n 3 s
  else if (sledRec s n (s.rd (R.SLED_CFG.PROFILE n))).isNone then sledCode n 2 s
  else if target * (sledDen : Int) = x.pos then sledCode n 0 s
  else seekFrom n x.pos (target * (sledDen : Int)) stroke s
/-- Homing begins, in band 0 with half RUN_MA of the selected profile, whose HOLD_MA follows it (R389, R395). -/
def startHome (n : Nat) (stroke : Bool) (s : State) : State :=
  let bs := ((sledRec s n (s.rd (R.SLED_CFG.PROFILE n))).map (namedBytes s)).getD []
  let s1 := (putSled n { sledOf s n with homing := 1, strokeHome := stroke, waits := false, bandAt := none
                                         ma := half bs 0 / 2, runMa := half bs 0, holdMa := half bs 2 } s).wr (R.SLED_STATUS.BAND n) 0
  sledCode n 0 (((s1.wr (R.SLED_STATUS.STATE n) 1).off (R.SLED_STATUS.HOMED n)).on (R.SLED_CMD_STATUS.RUNNING n))

/-- A stroke holds the sled (R403): one runs, or the sled moves or homes for one whose turn it is. -/
def strokeHolds (s : State) (n : Nat) : Bool :=
  s.isSet (R.STK_NOW.BUSY n) || ((sledOf s n).move.any (·.stroke)) || ((sledOf s n).homing != 0 && (sledOf s n).strokeHome)
/-- A SLED_CMD of the owner: refused BUSY while a stroke holds the sled. -/
def sledCmd (slot n : Nat) (act : State → State) (s : State) : State :=
  guardWrite slot (drumBase n + 0x3003C) (fun s => if strokeHolds s n then sledCode n 1 s else act s) s
/-- SLED_SEEK (R391, Table 19-3). -/
def execSledSeek (slot : Fin 8) (drum : Fin 2) (s : State) : Res :=
  let n := drum.val
  completes s (sledCmd slot n (fun s =>
    match sledState s n with
    | 0 => sledCode n 4 s
    | 2 => seekTo n (signed 32 (s.rd (R.SLED_TARGET.X n))) false s
    | _ => sledCode n 1 s) s)
/-- Bytes of the sled stage. -/
def sledStageBytes (s : State) (n : Nat) : List Nat := (List.range 194).flatMap (fun i => leBytes 4 (memW (drumSt s n).sledStage i))
/-- RUN_STAGE (R389, R391, Table 19-3). -/
def execRunStage (slot : Fin 8) (drum : Fin 2) (s : State) : Res :=
  let n := drum.val
  completes s (sledCmd slot n (fun s =>
    match sledState s n with
    | 0 => sledCode n 4 s
    | 2 =>
      let bs := sledStageBytes s n
      let k := stagedSegments bs
      let segs := plainSegments (segmentList bs k)
      let x := sledOf s n
      let stop := x.pos + (segs.getLastD (0, 0, 0)).2.1
      if !segmentsOk bs k then sledCode n 2 s
      else if stop < 0 || ((travelUnits s n * sledDen : Nat) : Int) < stop then sledCode n 3 s
      else startMove n ⟨segs, x.pos, stop, half bs 4, half bs 0, half bs 2, false, 0, false⟩ s
    | _ => sledCode n 1 s) s)
/-- HOME (R395, R397): under a cut it ends CUT at once. -/
def execHome (slot : Fin 8) (drum : Fin 2) (s : State) : Res :=
  let n := drum.val
  completes s (sledCmd slot n (fun s =>
    if sledState s n = 1 || sledState s n = 3 then sledCode n 1 s
    else if sledCut s n then sledCode n 8 s
    else startHome n false s) s)
/-- The running move stops t µs after its start, or after what the sled has run of it if that is more; P_cmd holds where it is,
as it does in a stall's backoff. -/
def stopMove (n t : Nat) (s : State) : State :=
  let s1 := moveTo n t s
  putSled n { sledOf s1 n with move := none, waits := false } s1
/-- The outward search has run t µs: P_cmd is at 0.05 unit/µs of them, or further where the sled has run longer, within
TRAVEL_UNITS / 4 (R395). -/
def searchTo (n t : Nat) (s : State) : State :=
  if (sledOf s n).homing = 2 then
    putPos n (max (sledOf s n).pos (min (t * sledDen / 20) (travelUnits s n / 4 * sledDen) : Nat)) s
  else s
/-- STOP (Table 19-3). -/
def execStop (slot : Fin 8) (drum : Fin 2) (elapsed : Nat) (s : State) : Res :=
  let n := drum.val
  completes s (sledCmd slot n (fun s =>
    match sledState s n with
    | 1 =>
      let s1 := searchTo n elapsed s
      dropSledRetry n (sledUnhomed n 7 (putSled n { sledOf s1 n with homing := 0, waits := false } s1))
    | 3 => dropSledRetry n (sledReady n 7 (stopMove n elapsed s))
    | _ => sledCode n 7 s) s)
/-- SLED_CMD_BAD_OP (R403). -/
def execSledCmdBadOp (slot : Fin 8) (drum : Fin 2) (s : State) : Res :=
  completes s (sledCmd slot drum (sledCode drum 9) s)

/-- A sled command of the stroke under way ended: a SEEK is done, or fails with its source. -/
def seekEnded (n : Nat) (src : Option Nat) (s : State) : State :=
  match currentStroke s n with
  | some x =>
    match src with
    | some c => if x.started then failStroke n x.slot c s else s
    | none =>
      if x.op = 5 && x.started then
        endStroke n x.slot false false 0 (updateCurrent n (fun y => { y with done := 1, map := 1, next := 1 }) s)
      else s
  | none => s

/-- A move is done (R393). -/
def moveDone (n : Nat) (m : SledMove) (s : State) : State :=
  let s1 := sledReady n 0 (retryEnd (drumSrc n 10) (putSled n { sledOf s n with move := none, waits := false } s))
  if m.stroke then seekEnded n none s1 else s1
/-- The instant at which a move ends: SETTLE × 100 µs after its last segment (R393). -/
def moveEnds (s : State) (n : Nat) (m : SledMove) : Nat := (m.segs.getLastD (0, 0, 0)).1 + 100 * s.rd (R.SLED_SETTLE.SETTLE n)
/-- SLED_MOVE_END (R393): the rest of the move runs to its end. -/
def execSledMoveEnd (drum : Fin 2) (s : State) : Res :=
  let n := drum.val
  let x := sledOf s n
  completes s (match x.move with
    | none => s
    | some m =>
      if sledState s n != 3 || x.waits then s
      else
        let s1 := moveTo n (moveEnds s n m) s
        let src := drumSrc n 10
        if !closedLoop s1 n || decide ((m.target - sledMeas s1 n).natAbs ≤ m.window * sledDen) then moveDone n m s1
        else
          let s2 := occur src s1
          if retryLeft s2 src then
            (putSled n { sledOf s2 n with waits := true } { s2 with backoff := Tab.put false s2.backoff src true })
          else
            let s3 := sledUnhomed n 5 (retryEnd src (putSled n { sledOf s2 n with move := none } s2))
            if m.stroke then seekEnded n (some src) s3 else s3)
/-- The backoff of a stalled move ends: a new move to the same target from P_meas (R393), at once done where it stands there (R391). -/
def retryMove (n : Nat) (s : State) : State :=
  match (sledOf s n).move with
  | some m =>
    if !(sledOf s n).waits then s
    else if sledMeas s n = m.target then moveDone n m s
    else seekFrom n (sledMeas s n) m.target m.stroke s
  | none => s
/-- The backoff of a failed homing ends: it runs again from the start (R395). -/
def retryHome (n : Nat) (s : State) : State :=
  if sledState s n = 1 && (sledOf s n).waits then startHome n (sledOf s n).strokeHome s else s

/-- HOME_INWARD_DONE (R395). -/
def execHomeInwardDone (drum : Fin 2) (s : State) : Res :=
  let n := drum.val
  let x := sledOf s n
  completes s (if sledState s n != 1 || x.homing != 1 || x.waits then s
    else
      let s1 := putPos n 0 (s.wr (R.SLED_ENC.COUNT n) 0)
      if s.isSet (R.SLED_STATUS.ENCODER n) then putSled n { sledOf s1 n with homing := 2, drive := 0 } s1
      else sledReady n 0 ((putSled n { sledOf s1 n with homing := 0, drive := 0 } s1).on (R.SLED_STATUS.HOMED n)))
/-- HOME_INDEX_TIMEOUT (R395). -/
def execHomeIndexTimeout (drum : Fin 2) (s : State) : Res :=
  let n := drum.val
  completes s (if sledState s n != 1 || (sledOf s n).homing != 2 then s
    else
      let src := drumSrc n 14
      let s1 := occur src (putPos n ((travelUnits s n / 4 * sledDen : Nat) : Int) s)
      let x := sledOf s1 n
      if retryLeft s1 src then
        (putSled n { x with homing := 1, waits := true } { s1 with backoff := Tab.put false s1.backoff src true })
      else
        let s2 := sledUnhomed n 6 (retryEnd src (putSled n { x with homing := 0 } s1))
        if x.strokeHome then seekEnded n (some src) s2 else s2)
/-- SLED_HOLD_CURRENT (R389): a sled that does not move and whose phases carry a current. -/
def execSledHoldCurrent (drum : Fin 2) (s : State) : Res :=
  let n := drum.val
  let x := sledOf s n
  let still := sledState s n = 0 || sledState s n = 2 || x.waits
  completes s (if still && x.ma != 0 && !sledCut s n then putSled n { x with ma := x.holdMa } s else s)
/-- SLED_STAGE_DATA_ACCESS (R403). -/
def execSledStageDataAccess (slot : Fin 8) (drum : Fin 2) (write : Option Nat) (s : State) : Res :=
  let n := drum.val
  let a := drumBase n + 0x30034
  let w := s.rd (R.SLED_STAGE_ADDR.WORD n)
  let advance (s : State) : State := s.wr (R.SLED_STAGE_ADDR.WORD n) (if w ≥ 193 then 0 else w + 1)
  completes s (match write with
    | some v => guardWrite slot a (fun s =>
        if s.isSet (R.SLED_CMD_STATUS.RUNNING n) then s
        else advance (putDrum n { drumSt s n with sledStage := putW (drumSt s n).sledStage w v } s)) s
    | none => guardRead slot a (fun s => advance (s.emit (.answer slot 0 (memW (drumSt s n).sledStage w)))) s)

/-- ENCODER_CHANGE (R398). -/
def execEncoderChange (drum : Fin 2) (a b : Bool) (gap : Nat) (s : State) : Res :=
  let n := drum.val
  let x := sledOf s n
  completes s (if !s.isSet (R.SLED_STATUS.ENCODER n) || !domOn s (97 + 10 * n) then s
    else
      let s1 := putSled n { x with encA := a, encB := b } s
      let da := a != x.encA
      let db := b != x.encB
      if da && db then occur (drumSrc n 11) (s1.bump (R.SLED_COUNTS.SKIPS n) 1)
      else if da || db then
        let up := if da then a != b else b = a
        let s2 := s1.wr (R.SLED_ENC.COUNT n) (unsigned 32 (encCount s n + (if up then 1 else -1)))
        if gap < 4 then occur (drumSrc n 13) s2 else s2
      else s1)
/-- ENCODER_INDEX (R395, R399, R400). -/
def execEncoderIndex (drum : Fin 2) (elapsed : Nat) (s : State) : Res :=
  let n := drum.val
  let x := sledOf s n
  let c := encCount s n
  completes s (if !s.isSet (R.SLED_STATUS.ENCODER n) || !domOn s (97 + 10 * n) then s
    else if sledState s n = 1 then
      if x.homing != 2 then s
      else
        let s0 := searchTo n elapsed (s.wr (R.SLED_INDEX_COUNT.COUNT n) (unsigned 32 c))
        let s1 := putSled n { sledOf s0 n with homing := 0 } s0
        sledReady n 0 (retryEnd (drumSrc n 14) ((s1.on (R.SLED_STATUS.HOMED n)).on (R.SLED_STATUS.CLOSED_LOOP n)))
    else if sledState s n = 0 || !closedLoop s n then s
    else
      let d := c - signed 32 (s.rd (R.SLED_INDEX_COUNT.COUNT n))
      if d.natAbs ≤ s.rd (R.SLED_INDEX.WINDOW n) then
        if d = 0 then s
        else ((s.wr (R.SLED_ENC.COUNT n) (s.rd (R.SLED_INDEX_COUNT.COUNT n))).wr (R.SLED_SLIP.DIFF n) (unsigned 32 d)).bump
          (R.SLED_COUNTS.SLIPS n) 1
      else occur (drumSrc n 12) (s.off (R.SLED_STATUS.CLOSED_LOOP n)))

/-- The TRAY stroke under way is done, or fails. -/
def trayEnded (n : Nat) (src : Option Nat) (s : State) : State :=
  let s1 := putTray n { trayOf s n with req := 0, waits := false } (s.off (R.TRAY_STATUS.PENDING n))
  let s2 := if trayState s1 n = 1 then putSpin n { spinOf s1 n with trayHold := false } s1 else s1
  match currentStroke s2 n with
  | some x =>
    if x.op != 7 || !x.started then s2
    else
      match src with
      | some c => failStroke n x.slot c s2
      | none => endStroke n x.slot false false 0 (updateCurrent n (fun y => { y with done := 1, map := 1, next := 1 }) s2)
  | none => s2

/-- TRAY_SWITCH_CHANGE (R401, R402): an end reached ends the move with its request; one reached in the brake before a reversed
move leaves that request to go on. -/
def execTraySwitchChange (drum : Fin 2) (inner outer : Bool) (s : State) : Res :=
  let n := drum.val
  let s1 := (s.wrB (R.TRAY_STATUS.IN_SW n) inner).wrB (R.TRAY_STATUS.OUT_SW n) outer
  senses s (if hasDrum s n then s1 else s) (if !hasDrum s n then s
    else if !(drumSt s n).up || !domOn s (100 + 10 * n) then s1
    else
      let old := trayState s n
      let s2 := trayFollow n s1
      let st := trayState s2 n
      if (old = 2 || old = 4) && st != old && (st = 5 || (trayOf s n).brake != 2) then
        if st = 5 then trayEnded n (some (drumSrc n 16)) (putTray n { trayOf s2 n with brake := 0 } s2)
        else trayEnded n none (retryEnd (drumSrc n 17) (putTray n { trayOf s2 n with brake := 1 } s2))
      else s2)

/-- TRAY_BUTTON_PRESS (R401): a press is a change to active; one within 250 ms, 8,192 ticks, of the last counted one is not
counted. -/
def execTrayButtonPress (drum : Fin 2) (pressed : Bool) (s : State) : Res :=
  let n := drum.val
  let x := trayOf s n
  let s1 := s.wrB (R.TRAY_STATUS.BTN n) pressed
  senses s (if hasDrum s n then s1 else s) (if !hasDrum s n then s
    else if !pressed || s.isSet (R.TRAY_STATUS.BTN n) then s1
    else
      let soon : Bool := match x.lastPress with
        | some t => decide ((s.metro + 2 ^ 48 - t) % 2 ^ 48 < 8192)
        | none => false
      if soon then s1.bump (R.TRAY_COUNTS.CHATTER n) 1
      else
        let s2 := putTray n { x with lastPress := some s.metro } (s1.bump (R.TRAY_COUNTS.PRESSES n) 1)
        let s3 := ringBell (24 + n) false s2
        match (List.range 8).find? (fun k => trayRights s3 k n) with
        | some k => if s3.isSet (R.GROVE_STATUS.READY k) then setIrq k 6 s3 else putTray n { trayOf s3 n with owedMedia := true } s3
        | none => if s3.isSet R.START_STATUS.DRUMS_DONE then s3 else putTray n { trayOf s3 n with owedMedia := true } s3)

/-- A request of the tray is begun (Table 19-4): refused while JAMMED or under a cut, done at once at its end, else a move, before
which a tray that moves the other way brakes for 50 ms. -/
def startTray (n : Nat) (out : Bool) (s : State) : State :=
  let st := trayState s n
  if vmOut s n then trayEnded n (some (drumSrc n 34)) s
  else if groupHot s n 2 then trayEnded n (some (drumSrc n 35)) s
  else if st = 5 then trayEnded n (some (drumSrc n 16)) s
  else if st = (if out then 3 else 1) then trayEnded n none (retryEnd (drumSrc n 17) s)
  else if st = (if out then 4 else 2) then putTray n { trayOf s n with brake := 2 } s
  else enterTray n (if out then 2 else 4) s
/-- TRAY_OPEN_START (R402). -/
def execTrayOpenStart (drum : Fin 2) (s : State) : Res :=
  let n := drum.val
  completes s (if (trayOf s n).req != 1 || !s.isSet (R.TRAY_STATUS.PENDING n) || spinState s n != 0 then s
    else startTray n true (selectLaser n 0 (s.off (R.TRAY_STATUS.PENDING n))))
/-- TRAY_TIMEOUT (R402). -/
def execTrayTimeout (drum : Fin 2) (s : State) : Res :=
  let n := drum.val
  completes s (if trayState s n != 2 && trayState s n != 4 then s
    else
      let src := drumSrc n 17
      let s1 := occur src (enterTray n 0 s)
      if retryLeft s1 src then
        (putTray n { trayOf s1 n with waits := true, brake := 0 } { s1 with backoff := Tab.put false s1.backoff src true })
      else trayEnded n (some src) (retryEnd src s1))
/-- The backoff of a timed-out move ends: the same move from BETWEEN (R402). -/
def retryTray (n : Nat) (s : State) : State :=
  let x := trayOf s n
  if !x.waits || x.req = 0 then s else startTray n (x.req = 1) (putTray n { x with waits := false } s)
/-- TRAY_BRAKE_END (R402). -/
def execTrayBrakeEnd (drum : Fin 2) (s : State) : Res :=
  let n := drum.val
  let x := trayOf s n
  completes s (match x.brake with
    | 1 => putTray n { x with brake := 0 } s
    | 2 => startTray n (x.req = 1) (putTray n { x with brake := 0 } (if trayState s n = 2 || trayState s n = 4 then enterTray n 0 s else s))
    | _ => s)
/-- A TRAY stroke's request (R402, Table 19-4). -/
def trayRequest (n : Nat) (out : Bool) (s : State) : State :=
  let st := trayState s n
  if st = 5 || vmOut s n || groupHot s n 2 || st = (if out then 3 else 1) then startTray n out s
  else if out then
    let s1 := putTray n { trayOf s n with req := 1 } (putSpin n { spinOf s n with trayHold := true } s)
    s1.on (R.TRAY_STATUS.PENDING n)
  else if st = 4 then putTray n { trayOf s n with req := 2 } s
  else startTray n false (putTray n { trayOf s n with req := 2 } s)

end Sys2Proof.Machine
end

