-- ==== Sys2Proof/Machine/Decoder.lean ====
section
/-! DEFINITION. What the read channel computes from a block's symbols: merging over revolutions (R417), the passes of
errors-and-erasures decoding (R414, R415), the sectors with their checks (R419, R420) and concealment. -/
namespace Sys2Proof.Machine

/-- A decode attempt under way, by place in the block: each symbol's value, whether its erasure flag or reliability flags it, and
whether a failed codeword flags it for the next code. -/
structure Attempt where
  vals : Array Nat
  weak : Array Bool
  next : Array Bool
deriving DecidableEq, Repr
def Attempt.flagged (a : Attempt) (i : Nat) : Bool := a.weak.getD i false || a.next.getD i false

/-- One codeword with 2t parity symbols (R414): with more flags than parity they are ignored. The answer is the word with, for
each symbol, whether it was corrected. -/
def decodeWord (t2 : Nat) (w : List Nat) (flags : List Bool) : Option (List (Nat × Bool)) :=
  let erased := (List.range w.length).filter (fun i => flags.getD i false)
  let reach := erased.length ≤ t2
  (rsDecode gf256 t2 w (if reach then erased else [])).map (fun v =>
    (List.range w.length).map (fun i => (v.getD i 0, v.getD i 0 != w.getD i 0 || (reach && flags.getD i false))))
/-- A codeword by the places of its symbols and the mask over each, its parity being inverted in CIRC. -/
abbrev WordAt := List (Nat × Nat)
/-- A decoded codeword: a corrected symbol takes reliability 15 (R414). -/
def repair (thresh : Nat) (w : WordAt) (v : List (Nat × Bool)) (a : Attempt) : Attempt :=
  (w.zip v).foldl (fun b e =>
    if e.2.2 then { b with vals := b.vals.setIfInBounds e.1.1 (e.2.1 ^^^ e.1.2), weak := b.weak.setIfInBounds e.1.1 (15 ≤ thresh) } else b) a
/-- One code over its codewords: the attempt after it, and how many codewords failed. -/
def runCode (thresh t2 : Nat) (words : List WordAt) (a : Attempt) : Attempt × Nat :=
  let r := words.foldl (fun (acc : Attempt × Array Bool × Nat) w =>
    match decodeWord t2 (w.map (fun e => acc.1.vals.getD e.1 0 ^^^ e.2)) (w.map (fun e => acc.1.flagged e.1)) with
    | some v => (repair thresh w v acc.1, acc.2)
    | none => (acc.1, w.foldl (fun f e => f.setIfInBounds e.1 true) acc.2.1, acc.2.2 + 1)) (a, a.vals.map (fun _ => false), 0)
  ({ r.1 with next := r.2.1 }, r.2.2)

/-- What the passes of an attempt leave: the attempt, the passes run, and the inner failures of the first pass and the
outer failures of the last. -/
structure Passes where
  state : Attempt
  run : Nat
  inner : Nat
  outer : Nat
deriving DecidableEq, Repr
/-- The passes of CIRC or RS-PC (R415): they end early once a pass leaves no failed codeword, inner or outer. -/
def runPasses (thresh tInner tOuter : Nat) (inner outer : List WordAt) : Nat → Passes → Passes
  | 0, p => p
  | fuel + 1, p =>
    let a := runCode thresh tInner inner p.state
    let b := runCode thresh tOuter outer a.1
    let p' : Passes := ⟨b.1, p.run + 1, if p.run = 0 then a.2 else p.inner, b.2⟩
    if a.2 = 0 && b.2 = 0 then p' else runPasses thresh tInner tOuter inner outer fuel p'

/-- C1, RS(32,28), on each frame, and C2, RS(28,24), over the 98 frames of the sector and the two that its delays reach (R415;
the parity inverted, PRESUMED: IEC 60908; its interleave is `Config.c1Place`, `Config.c2Place`, `Config.cdPlace`). -/
def c1Words : List WordAt :=
  (List.range 294).map (fun j => (List.range 32).map (fun i => (Config.c1Place j i, if (12 ≤ i && i < 16) || 28 ≤ i then 255 else 0)))
def c2Words : List WordAt := (List.range 100).map (fun j => (List.range 28).map (fun i => (Config.c2Place j i, if 12 ≤ i && i < 16 then 255 else 0)))
/-- The place of row r and column c of a DVD block in the order of its read: after each 12 rows a row of PO (ECMA-267). -/
def dvdPlace (r c : Nat) : Nat := if r < 192 then r / 12 * 2366 + r % 12 * 182 + c else (r - 192) * 2366 + 12 * 182 + c
/-- PI, RS(182,172), on the 208 rows, and PO, RS(208,192), on the 182 columns (R415). -/
def piWords : List WordAt := (List.range 208).map (fun r => (List.range 182).map (fun c => (dvdPlace r c, 0)))
def poWords : List WordAt := (List.range 182).map (fun c => (List.range 208).map (fun r => (dvdPlace r c, 0)))
/-- P, RS(26,24), and Q, RS(45,43), of layer 3 over the two planes of a sector's bytes from byte 12 (R415, ISO/IEC 10149). -/
def pWords : List WordAt :=
  (List.range 86).map (fun k => (List.range 26).map (fun m => (12 + 2 * (43 * m + k / 2) + k % 2, 0)))
def qWords : List WordAt :=
  (List.range 52).map (fun k => (List.range 45).map (fun m =>
    (12 + 2 * (if m < 43 then (44 * m + 43 * (k / 2)) % 1118 else 1118 + 26 * (m - 43) + k / 2) + k % 2, 0)))

/-- R417: a further read of one symbol. -/
def mergeSymbol (old : Nat × Nat) (v r : Nat) : Nat × Nat :=
  if v = old.1 then (old.1, min (old.2 + r) 63) else if r > old.2 then (v, r - old.2) else (old.1, old.2 - r)
def mergeRead : List (Nat × Nat) → List (Nat × Nat) → List (Nat × Nat)
  | [], new => new
  | old, [] => old
  | o :: os, e :: es => mergeSymbol o e.1 e.2 :: mergeRead os es
/-- The attempt that starts from combined symbols, and the flags of the newest read's scars (R417). -/
def startAttempt (thresh : Nat) (syms : List (Nat × Nat)) (scars : List Bool) : Attempt :=
  ⟨(syms.map Prod.fst).toArray, (syms.zipIdx.map (fun e => e.1.2 ≤ thresh || scars.getD e.2 false)).toArray,
   (syms.map (fun _ => false)).toArray⟩

def bcd (b : Nat) : Nat := b / 16 * 10 + b % 16
/-- A sector after an attempt: its bytes (2,352 on a CD, descrambled unless it is audio; the 2,064 of a data frame on a DVD,
its user data descrambled), which of them are flagged, how many symbols were corrected and how many flagged, whether the IED of
a DVD sector decodes, and the number in its ID. -/
structure Sector where
  audio : Bool
  bytes : List Nat
  flags : List Bool
  fixed : Nat
  marked : Nat
  ied : Bool
  id : Nat
deriving DecidableEq, Repr
/-- Block address of a CD-ROM sector's header (bytes 12 to 14). -/
def headerAddr (bs : List Nat) : Int := (((bcd (byteAt bs 12) * 60 + bcd (byteAt bs 13)) * 75 + bcd (byteAt bs 14) : Nat) : Int) - 150
/-- What a CD-ROM sector's bytes say: 1 Mode 1, 2 Mode 2 Form 1, 3 Mode 2 Form 2, 5 a mode that none of them names. -/
def cdMode (bs : List Nat) : Nat :=
  if byteAt bs 15 = 1 then 1 else if byteAt bs 15 = 2 then (if bit (byteAt bs 18) 5 then 3 else 2) else 5
/-- What a sector is: 0 audio, 4 DVD, or what `cdMode` says. -/
def sectorKind (dvd : Bool) (x : Sector) : Nat := if dvd then 4 else if x.audio then 0 else cdMode x.bytes
/-- The EDC of a CD-ROM sector matches, over the bytes of Table 20-4. -/
def cdEdc (bs : List Nat) : Bool :=
  match cdMode bs with
  | 1 => edcCd (bs.take 2064) = word bs 2064
  | 2 => edcCd ((bs.drop 16).take 2056) = word bs 2072
  | 3 => edcCd ((bs.drop 16).take 2332) = word bs 2348
  | _ => false
/-- The alternating P and Q passes of layer 3, until the EDC matches (R415). -/
def runLayer3 (thresh : Nat) (whole : Attempt → List Nat) : Nat → Bool → Attempt → Attempt
  | 0, _, a => a
  | fuel + 1, isP, a =>
    if cdEdc (whole a) then a else runLayer3 thresh whole fuel (!isP) (runCode thresh 2 (if isP then pWords else qWords) a).1
/-- Layer 3 on a sector: the codes of a Mode 2 Form 1 sector take its header as zeros (ISO/IEC 10149). -/
def layer3 (thresh iter : Nat) (x : Sector) : Sector :=
  let hidden (k : Nat) : Bool := cdMode x.bytes = 2 && 12 ≤ k && k < 16
  let whole (a : Attempt) : List Nat := (List.range 2352).map (fun k => if hidden k then byteAt x.bytes k else a.vals.getD k 0)
  let a0 : Attempt := ⟨(x.bytes.zipIdx.map (fun e => if hidden e.2 then 0 else e.1)).toArray,
    (x.flags.zipIdx.map (fun e => e.1 && !hidden e.2)).toArray, (x.bytes.map (fun _ => false)).toArray⟩
  let a := runLayer3 thresh whole iter true a0
  let out := whole a
  { x with bytes := out, flags := (List.range 2352).map a.flagged
           fixed := x.fixed + ((out.zip x.bytes).filter (fun e => e.1 != e.2)).length }
/-- A sector by the places of its symbols: how many were corrected since the merge, and how many flagged in the attempt (R425). -/
def sectorAt (syms : List (Nat × Nat)) (a0 a : Attempt) (places : List Nat) : Sector :=
  let was := (syms.map Prod.fst).toArray
  ⟨false, places.map (fun i => a.vals.getD i 0), places.map a.flagged,
   (places.filter (fun i => a.vals.getD i 0 != was.getD i 0)).length,
   (places.filter (fun i => a0.weak.getD i false || a.flagged i)).length, false, 0⟩
/-- The sector of a CD block after its passes: layer 3 applies to Mode 1 and Mode 2 Form 1 (R415). -/
def cdSector (thresh iter : Nat) (l3 audio : Bool) (syms : List (Nat × Nat)) (a0 a : Attempt) : Sector :=
  let x := { sectorAt syms a0 a ((List.range 2352).map Config.cdPlace) with audio := audio }
  if audio then x
  else
    let y := { x with bytes := cdDescramble x.bytes }
    if l3 && (cdMode y.bytes = 1 || cdMode y.bytes = 2) then layer3 thresh iter y else y
/-- Sector k of a DVD block: its ID corrected by the IED, RS(6,4), and its user data descrambled by its number (R419, ECMA-267). -/
def dvdSector (syms : List (Nat × Nat)) (a0 a : Attempt) (k : Nat) : Sector :=
  let x := sectorAt syms a0 a ((List.range 2064).map (fun i => dvdPlace (12 * k + i / 172) (i % 172)))
  let head := rsDecode gf256 2 (x.bytes.take 6) []
  let bs := head.getD (x.bytes.take 6) ++ x.bytes.drop 6
  let id := beVal ((bs.drop 1).take 3)
  { x with bytes := bs.zipIdx.map (fun e => if 12 ≤ e.2 && e.2 < 2060 then e.1 ^^^ Config.dvdScramble id (e.2 - 12) % 256 else e.1)
           ied := head.isSome, id := id }

/-- The check of a sector after an attempt (Table 20-4): its RESULT, with GOOD or CORRECTED standing for a pass. -/
def checkSector (dvd : Bool) (addr : Nat) (x : Sector) : Nat :=
  let pass := if x.fixed != 0 then 1 else 0
  match sectorKind dvd x with
  | 0 => if x.flags.any id then 3 else pass
  | 4 => if x.ied && x.id = addr && edcDvd (x.bytes.take 2060) = beVal ((x.bytes.drop 2060).take 4) then pass else 5
  | k =>
    if headerAddr x.bytes != (addr : Int) then 5
    else if k = 5 then 7
    else if k = 1 then (if cdEdc x.bytes then pass else 5)
    else if (x.bytes.drop 16).take 4 != (x.bytes.drop 20).take 4 then 5
    else if k = 3 && word x.bytes 2348 = 0 then 4
    else if cdEdc x.bytes then pass else 5

/-- The user bytes that a FORM takes from a sector (R429); none where the sector's data is not the FORM's stride. -/
def formBytes (form : Nat) (dvd : Bool) (x : Sector) : Option (List Nat) :=
  match form, sectorKind dvd x with
  | 0, 1 => some ((x.bytes.drop 16).take 2048)
  | 0, 2 => some ((x.bytes.drop 24).take 2048)
  | 0, 4 => some ((x.bytes.drop 12).take 2048)
  | 1, 3 => some ((x.bytes.drop 24).take 2324)
  | 2, 4 => none
  | 2, _ => some (x.bytes.take 2352)
  | _, _ => none

/-- A flagged sample of one channel by its neighbours (R420): `before` and `after` are the nearest unflagged samples with
their distances, and `half` rounds a value that falls between two codes. -/
def interpolate (before after : Option (Int × Nat)) (half : Nat) : Option Int :=
  match before, after with
  | some (x, i), some (y, j) =>
    let num := x * (j : Int) + y * (i : Int)
    let den : Int := (i + j : Nat)
    some (num / den + (if num % den = 0 then 0 else (half % 2 : Nat)))
  | _, _ => none
/-- The samples of one channel after concealment: runs longer than 8 are zeros; a run that has no unflagged neighbour on
one side takes free values. -/
def concealChannel (s : State) (from_ : Nat) (xs : List (Int × Bool)) : List Int :=
  let at_ (i : Nat) : Int × Bool := xs.getD i (0, false)
  (List.range xs.length).map (fun i =>
    if !(at_ i).2 then (at_ i).1
    else
      let back := (List.range (i + 1)).find? (fun d => 0 < d && !(at_ (i - d)).2)
      let ahead := (List.range (xs.length - i)).find? (fun d => 0 < d && !(at_ (i + d)).2)
      let run : Nat := (match back with | some d => d - 1 | none => i) + 1 + (match ahead with | some d => d - 1 | none => xs.length - i - 1)
      if run > 8 then 0
      else (interpolate (back.map (fun d => ((at_ (i - d)).1, d))) (ahead.map (fun d => ((at_ (i + d)).1, d))) (s.freeVal (from_ + i))).getD
        (signed 16 (s.freeVal (from_ + i))))
/-- The 2,352 bytes of an audio sector after concealment, with the free values it may draw. -/
def concealAudio (s : State) (x : Sector) : List Nat :=
  let n := x.bytes.length / 4
  let bad (k : Nat) : Bool := x.flags.getD k false
  let chan (c : Nat) := concealChannel s (c * n) ((List.range n).map (fun i =>
    (signed 16 (half x.bytes (4 * i + 2 * c)), bad (4 * i + 2 * c) || bad (4 * i + 2 * c + 1))))
  let l := chan 0
  let r := chan 1
  (List.range n).flatMap (fun i => leBytes 2 (unsigned 16 (l.getD i 0)) ++ leBytes 2 (unsigned 16 (r.getD i 0)))

end Sys2Proof.Machine
end

