-- ==== Sys2Proof/Machine/Read.lean ====
section
/-! DEFINITION. The read channel's rows (chapter 20): locks, scars, decoding of blocks with combining, delivery of sectors
with their reports, and skipped blocks. -/
namespace Sys2Proof.Machine

/-- The equalizer adapts (R409). -/
def adapting (s : State) (n : Nat) : Bool :=
  s.isSet (R.READ_STATUS.TIMING_LOCK n) && !(frontOf s n).scar && !s.isSet (R.READ_CTRL.EQ_FREEZE n)
/-- Carry out `f`; READ_STATUS.ADAPTING then follows (R409). -/
def withEq (n : Nat) (f : State → State) (s : State) : State := (f s).wrB (R.READ_STATUS.ADAPTING n) (adapting (f s) n)
def setEqFreeze (n : Nat) (on : Bool) (s : State) : State := withEq n (fun s => s.wrB (R.READ_CTRL.EQ_FREEZE n) on) s
/-- Timing and frame lock are lost; READ_RATE then reads 0. -/
def dropLock (n : Nat) (s : State) : State :=
  withEq n (fun s => s.rstAll [R.READ_STATUS.TIMING_LOCK n, R.READ_STATUS.SYNC_LOCK n, R.READ_RATE.KBPS n]) s
/-- The stroke logic sets MODE with every slot free: locks start afresh and the taps take their initial values (R409). -/
def setMode (n mode : Nat) (s : State) : State :=
  if s.rd (R.READ_STATUS.MODE n) = mode then s
  else syncFree n (((dropLock n s).wr (R.READ_STATUS.MODE n) mode).rstAll ((List.range 15).map (R.READ_EQ_TAP.COEFF n)))

/-- The channel bit rate in kbit/s that a longest run length gives, of 11T in CD mode and of 14T in DVD mode, at 1.4 GS/s (R408). -/
def runRate (dvd : Bool) (run : Nat) : Nat := if run = 0 then 0 else 1400000 * 256 * longestRun dvd / run
/-- The timing error has stayed below 0.1 T rms for 1,024 channel bits (R408). -/
def timingHolds (errors : List Nat) : Bool :=
  1024 ≤ errors.length && (errors.drop (errors.length - 1024)).foldl (fun a e => a + e * e) 0 < 1024 * 100 * 100
/-- TIMING_LOCK (R408): the loop holds while a scar is flagged. -/
def execTimingLock (drum : Fin 2) (timing : TimingRead) (s : State) : Res :=
  let n := drum.val
  completes s (if s.rd (R.READ_STATUS.MODE n) = 0 || (frontOf s n).scar || !timingHolds timing.errors then s
    else withEq n (fun s => (s.on (R.READ_STATUS.TIMING_LOCK n)).wr (R.READ_RATE.KBPS n)
      (min (runRate (s.rd (R.READ_STATUS.MODE n) = 2) timing.run) (2 ^ 20 - 1))) s)
/-- SYNC_LOCK (R411). -/
def execSyncLock (drum : Fin 2) (s : State) : Res :=
  let n := drum.val
  completes s (if s.isSet (R.READ_STATUS.TIMING_LOCK n) then
      putDrum n { drumSt s n with missed := 0 } (s.on (R.READ_STATUS.SYNC_LOCK n)) else s)
/-- SYNC_MISSING (R412). -/
def execSyncMissing (drum : Fin 2) (again : Bool) (s : State) : Res :=
  let n := drum.val
  let m := if again then (drumSt s n).missed + 1 else 1
  completes s (if !s.isSet (R.READ_STATUS.SYNC_LOCK n) then s
    else if m < 3 then putDrum n { drumSt s n with missed := m } s
    else (putDrum n { drumSt s n with missed := 0 } (s.off (R.READ_STATUS.SYNC_LOCK n))).bump (R.READ_COUNTS_B.SYNC_LOSSES n) 1)
/-- A scar is flagged at the end of a span of channel bits, from whether one is flagged before it (R413). -/
def scarAfter (s : State) (n : Nat) (span : ScarSpan) : Bool :=
  (scarBits ⟨s.rd (R.READ_SCAR.ENV_PCT n), s.rd (R.READ_SCAR.METRIC n), s.rd (R.READ_SCAR_B.MIN_BITS n), span.amp⟩
    (ScarScan.start span.before (frontOf s n).scar) span.bits).getLastD (frontOf s n).scar
/-- SCAR_BEGIN (R413): both conditions have held for MIN_BITS. -/
def execScarBegin (span : ScarSpan) (s : State) : Res :=
  let n := span.drum.val
  completes s (if s.rd (R.READ_STATUS.MODE n) = 0 || (frontOf s n).scar || !scarAfter s n span then s
    else withEq n (fun s => (putFront n { frontOf s n with scar := true } s).bump (R.READ_COUNTS_B.SCARS n) 1) s)
/-- SCAR_END (R413): either condition has been absent for MIN_BITS. -/
def execScarEnd (span : ScarSpan) (s : State) : Res :=
  let n := span.drum.val
  completes s (if scarAfter s n span then s else withEq n (fun s => putFront n { frontOf s n with scar := false } s) s)
/-- EQ_RESTORE (R409, Table 20-6). -/
def writeEqCfg (n value : Nat) (s : State) : State :=
  let s1 := s.wr (R.READ_EQ_CFG.MU_SHIFT n) (max 6 (min (value % 32) 16))
  if bit value 8 then s1.rstAll ((List.range 15).map (R.READ_EQ_TAP.COEFF n)) else s1
def execEqRestore (slot : Fin 8) (drum : Fin 2) (value : Nat) (s : State) : Res :=
  completes s (guardWrite slot (drumBase drum + 0x40010) (writeEqCfg drum value) s)

/-- A sector's report (R425). -/
def writeReport (n slot addr result iter extra fixed flagged workId : Nat) (s : State) : State :=
  let c := s.rd (R.READ_REPORT_HEAD.COUNT n slot)
  (wrList (R.READ_REPORT.WORD n slot (c % 16)) 0
    [addr % 2 ^ 32, result + 2 ^ 8 * iter + 2 ^ 12 * extra, min fixed 65535 + 2 ^ 16 * min flagged 65535, workId] s).wr
    (R.READ_REPORT_HEAD.COUNT n slot) ((c + 1) % 65536)

/-- Unit i of a stroke is done, or fails (R213). -/
def Stroke.unitDone (i : Nat) (x : Stroke) : Stroke := { x with done := x.done + 1, map := if i < 64 then setBit x.map i else x.map }
def Stroke.unitFails (i src : Nat) (x : Stroke) : Stroke :=
  { x with failed := some (x.failed.getD i), source := if x.failed.isNone then src else x.source }
/-- Unit i reads an uncorrectable word of buffer SRAM: the tally names source 39, and the stroke ends (R71, R439). -/
def Stroke.unitSpoilt (i : Nat) (x : Stroke) : Stroke := { x with failed := some (x.failed.getD i), source := 39 }
/-- After a unit, the running stroke ends if it has nothing left to do. -/
def finishIfDone (n : Nat) (s : State) : State :=
  match currentStroke s n with
  | some x => if x.over then endStroke n x.slot false false 0 s else s
  | none => s
/-- After an acknowledged unit, the stroke of a trunk request ends if it has nothing left to do (R508). -/
def finishAcked (n id : Nat) (s : State) : State :=
  match (drumSt s n).strokes.find? (fun x => x.over && x.request.any (fun r => r.2 = id)) with
  | some x => endStroke n x.slot false false 0 s
  | none => s
/-- A unit's bytes go to the stroke's region (R45), to USB staging (R443) or to the member that requested it (R508). -/
def giveUnit (n i off : Nat) (bs : List Nat) (s : State) : State :=
  match currentStroke s n with
  | none => s
  | some x =>
    match x.lun, x.request with
    | some l, _ =>
      let w := sweepUse .usb s
      if w.1 then updateCurrent n (Stroke.unitSpoilt i) w.2
      else
        let s1 := if x.failed.isNone && !(lunOf s x.slot l).silent then w.2.emit (.usb x.slot bs) else w.2
        updateCurrent n (Stroke.unitDone i) s1
    | none, some (_, r) => updateCurrent n (fun y => { y with awaiting := y.awaiting ++ [i] }) (sendUnit r i ((groveOf s x.slot).getD 0) bs s)
    | none, none =>
      match regionAddr s x.slot x.region off bs.length with
      | none => updateCurrent n (fun y => { y.unitFails i 0 with refused := true }) (memRefuse x.slot s)
      | some a =>
        let r := unitWrite x.slot a bs s
        if r.1.err != 0 then updateCurrent n (Stroke.unitFails i r.1.err) r.2 else updateCurrent n (Stroke.unitDone i) r.2
/-- The unit goes on to the next one; a refused access ends the work (R212), as a spoilt unit does (R439). -/
def passUnit (n i : Nat) (s : State) : State :=
  match currentStroke s n with
  | some x =>
    if x.refused then endStroke n x.slot true false 0 s
    else if x.source = 39 then endStroke n x.slot false false 39 s
    else updateCurrent n (fun y => { y with next := i + 1 }) s
  | none => s

/-- Sectors buffered for an output. -/
def buffered (s : State) (n o : Nat) : List (Nat × List Nat) := ((drumSt s n).play.filter (fun e => e.1 = o)).map Prod.snd
def showBuffer (n o : Nat) (s : State) : State :=
  syncFree n (s.wr (R.AUD_STATUS.BUFFERED o) (buffered s n o).length)
/-- A sector enters the play buffer (R441). -/
def bufferSector (n i addr : Nat) (bs : List Nat) (s : State) : State :=
  match currentStroke s n with
  | some x =>
    let o := x.arg % 2
    let s1 := if buffered s n o = [] then s.wr (R.AUD_POS.ADDRESS o) addr else s
    let s2 := updateCurrent n (fun y => { y with awaiting := y.awaiting ++ [i] }) s1
    showBuffer n o (putDrum n { drumSt s2 n with play := (drumSt s2 n).play ++ [(o, addr, bs)] } s2)
  | none => s

/-- Deliver one sector of a decoded block (R420, R425): unit i of the running stroke. An uncorrectable word of the working
store fails the unit (R71). -/
def deliverSector (n i addr iter extra : Nat) (dvd : Bool) (sec : Sector) (s0 : State) : State :=
  let w := sweepUse (.drum n) s0
  let s := w.2
  match currentStroke s n with
  | none => s
  | some x =>
    if !x.started || x.next != i then s else
    let r0 := checkSector dvd addr sec
    let r := if r0 ≤ 1 && extra > 0 then 2 else r0
    let good := r ≤ 2 || r = 4
    let data : Option (List Nat) :=
      if x.op = 4 then (if sectorKind dvd sec != 0 then none else if r = 3 then some (concealAudio s sec) else if good then some sec.bytes else none)
      else if r = 3 then (if s.isSet (R.READ_CTRL.AUDIO_CONCEAL n) && x.arg % 4 = 2 then some (concealAudio s sec) else none)
      else if good then formBytes (x.arg % 4) dvd sec else none
    let shown := if data.isNone && good then 5 else r
    let t := if r = 3 && data.isSome then s.drew (sec.bytes.length / 2) else s
    let s1 := writeReport n x.slot addr shown iter extra sec.fixed sec.marked x.workId t
    let s2 := putDrum n { drumSt s1 n with lastRead := addr } (if shown ≥ 5 then s1.bump (R.READ_COUNTS.SECTORS_FAILED n) 1 else s1)
    passUnit n i (if w.1 then updateCurrent n (Stroke.unitSpoilt i) s2 else match data with
      | some bs => if x.op = 4 then bufferSector n i addr bs s2 else giveUnit n i (x.offset + i * formStride (x.arg % 4)) bs s2
      | none => updateCurrent n (Stroke.unitFails i (drumSrc n 20)) (occur (drumSrc n 20) s2))

/-- First address of the block that holds an address: an ECC block of 16 sectors on a DVD, the sector itself on a CD. -/
def blockStart (s : State) (n addr : Nat) : Nat := if s.rd (R.READ_STATUS.MODE n) = 2 then addr / 16 * 16 else addr
/-- Units of a stroke in a block: unit, and place of its sector in the block. -/
def blockUnits (x : Stroke) (start len : Nat) : List (Nat × Nat) :=
  (List.range len).filterMap (fun k =>
    if x.address + x.next ≤ start + k && start + k < x.address + x.count then some (start + k - x.address, k) else none)

/-- A decode attempt from merged symbols (R414, R415, R417), and the sectors that it leaves. -/
def attemptOf (s : State) (n : Nat) (syms : List (Nat × Nat)) (scars : List Bool) (audio : Bool) : Passes × List Sector :=
  let dvd : Bool := s.rd (R.READ_STATUS.MODE n) = 2
  let th := s.rd (R.READ_COMBINE.ERASE_THRESH n)
  let iter := s.rd (R.READ_CTRL.ITER n)
  let a0 := startAttempt th syms scars
  let p := if dvd then runPasses th 10 16 piWords poWords iter ⟨a0, 0, 0, 0⟩ else runPasses th 4 4 c1Words c2Words iter ⟨a0, 0, 0, 0⟩
  (p, if dvd then (List.range 16).map (dvdSector syms a0 p.state)
      else [cdSector th iter (s.isSet (R.READ_CTRL.L3_ECC n)) audio syms a0 p.state])
/-- Decode a block from its merged symbols (R414 to R417): it waits for a further revolution, unless the stroke has been ended,
or its sectors are delivered. -/
def decodeBlock (n extra : Nat) (syms : List (Nat × Nat)) (scars : List Bool) (audio : Bool) (s : State) : State :=
  match currentStroke s n with
  | none => s
  | some x =>
    let dvd : Bool := s.rd (R.READ_STATUS.MODE n) = 2
    let r := attemptOf s n syms scars audio
    let start := blockStart s n (x.address + x.next)
    let units := blockUnits x start r.2.length
    let sector (k : Nat) : Sector := r.2.getD k ⟨false, [], [], 0, 0, false, 0⟩
    let fails := units.any (fun u => let c := checkSector dvd (start + u.2) (sector u.2); c = 3 || c ≥ 5)
    let s1 := (s.bump (R.READ_COUNTS.INNER_FAILS n) r.1.inner).bump (R.READ_COUNTS.OUTER_FAILS n) r.1.outer
    let s2 := updateCurrent n (fun y => { y with depth := max y.depth extra }) (unitRetryEnd n s1)
    if fails && extra < strokeDepthOf s n x && x.ending = 0 then
      syncFree n (putDrum n { drumSt s2 n with block := some ⟨start, syms, extra⟩, skips := 0 } s2)
    else
      let s3 := dropBlock n (putDrum n { drumSt s2 n with skips := 0 } s2)
      finishIfDone n (units.foldl (fun t u => deliverSector n u.1 (start + u.2) r.1.run extra dvd (sector u.2) t) s3)

/-- The rate limit of Table 20-2 in kbit/s. -/
def rateLimit (s : State) (n : Nat) : Nat :=
  let t := clockTempo s (n + 1)
  if s.rd (R.READ_STATUS.MODE n) = 2 then ([104640, 209280, 313920, 418560] : List Nat).getD t 418560
  else ([103720, 207450, 224730, 224730] : List Nat).getD t 224730
def rateOver (s : State) (n : Nat) : Bool := s.rd (R.READ_RATE.KBPS n) > rateLimit s n
/-- CK_DRUM_n relocks, or VDD_DRUM_n is HELD (R422). -/
def drumRelocks (s : State) (n : Nat) : Bool := genState s (n + 1) = 1 || genState s (n + 1) = 2 || railHeld s (n + 1)
/-- The stroke that reads sectors now: no unit waits out a backoff. -/
def readingStroke (s : State) (n : Nat) : Option Stroke :=
  match currentStroke s n with
  | some x =>
    if x.started && (x.op = 1 || x.op = 4) && x.next < x.count && !(x.ending != 0 && x.acks) && !unitBacksOff s n then some x else none
  | none => none
/-- The stroke that the channel serves, reading sectors or the lead-in's and the sectors' subcode (R406, R407). -/
def servedStroke (s : State) (n : Nat) : Option Stroke :=
  match currentStroke s n with
  | some x => if x.started && (x.op = 2 || x.op = 3) && x.next < x.count && !unitBacksOff s n then some x else readingStroke s n
  | none => none
/-- Slots in use. -/
def slotsUsed (s : State) (n : Nat) : Nat := ((drumSt s n).block.map (fun _ => 1)).getD 0 + (drumSt s n).play.length
/-- The channel can read the block that arrives. -/
def canRead (s : State) (n : Nat) (x : Stroke) : Bool :=
  s.isSet (R.READ_STATUS.TIMING_LOCK n) && s.isSet (R.READ_STATUS.SYNC_LOCK n) && !rateOver s n && !drumRelocks s n
    && (x.op != 4 || (buffered s n (x.arg % 2)).length < 16)

/-- What the channel is set to for a block (R424). -/
def channelSet (s : State) (n : Nat) : ChannelSet :=
  ⟨s.rd (R.READ_STATUS.MODE n) = 2, (List.range 15).map (fun i => signed 16 (s.rd (R.READ_EQ_TAP.COEFF n i))),
   s.rd (R.READ_EQ_CFG.MU_SHIFT n), adapting s n, s.rd (R.READ_SCAR.GUARD n), s.rd (R.READ_SCAR.ENV_PCT n),
   s.rd (R.READ_SCAR.METRIC n), s.rd (R.READ_SCAR_B.MIN_BITS n), (frontOf s n).scar⟩
/-- The taps after a block. -/
def putTaps (n : Nat) (taps : List Int) (s : State) : State :=
  taps.zipIdx.foldl (fun a e => a.wr (R.READ_EQ_TAP.COEFF n e.2) (unsigned 16 e.1)) s
/-- BLOCK_DECODE (R414 to R420): the first read of a block. -/
def execBlockDecode (drum : Fin 2) (block : BlockRead) (s : State) : Res :=
  let n := drum.val
  completes s (match readingStroke s n, (drumSt s n).block with
    | some x, none =>
      if canRead s n x && slotsUsed s n < storeSlots s n then
        let r := channelRead (channelSet s n) block
        decodeBlock n 0 r.syms r.scars block.audio (putTaps n r.taps s)
      else s
    | _, _ => s)
/-- COMBINE_REVOLUTION (R416, R417). -/
def execCombineRevolution (drum : Fin 2) (block : BlockRead) (s : State) : Res :=
  let n := drum.val
  completes s (match readingStroke s n, (drumSt s n).block with
    | some x, some b =>
      if canRead s n x then
        let r := channelRead (channelSet s n) block
        decodeBlock n (b.extra + 1) (mergeRead b.syms r.syms) r.scars block.audio
          ((putTaps n r.taps s).bump (R.READ_COUNTS_B.COMBINES n) 1)
      else s
    | _, _ => s)
/-- BLOCK_SKIPPED (R422). -/
def execBlockSkipped (drum : Fin 2) (kbps : Nat) (s : State) : Res :=
  let n := drum.val
  let s1 := if s.isSet (R.READ_STATUS.TIMING_LOCK n) then s.wr (R.READ_RATE.KBPS n) (min kbps (2 ^ 20 - 1)) else s
  completes s (match servedStroke s1 n with
    | none => s
    | some x =>
      if drumRelocks s1 n then s1.bump (R.READ_COUNTS.RELOCK_SKIPS n) 1
      else if rateOver s1 n || ((drumSt s1 n).block.isNone && storeSlots s1 n ≤ slotsUsed s1 n) then
        let k := (drumSt s1 n).skips + 1
        let s2 := occur (drumSrc n 23) ((putDrum n { drumSt s1 n with skips := k } s1).bump (R.READ_COUNTS_B.STORE_SKIPS n) 1)
        if k ≥ 4 then failStroke n x.slot (drumSrc n 23) (putDrum n { drumSt s2 n with skips := 0 } s2) else s2
      else s1)

/-- SEARCH_TIMEOUT (R412): a new seek and search, or the unit fails with NO_SYNC, a READ_SECTOR too (R420), and ends the work. -/
def execSearchTimeout (drum : Fin 2) (s : State) : Res :=
  let n := drum.val
  let src := drumSrc n 21
  completes s (match currentStroke s n with
    | none => s
    | some x =>
      if !x.started || !(x.op = 1 || x.op = 3 || x.op = 4) || x.next ≥ x.count || unitBacksOff s n then s
      else
        let s1 := occur src (s.off (R.READ_STATUS.SYNC_LOCK n))
        if retryLeft s1 src then
          { s1 with backoff := Tab.put false s1.backoff src true }
        else
          let s2 := retryEnd src s1
          let s3 := if x.op = 3 then s2
            else occur (drumSrc n 20)
              ((writeReport n x.slot (x.address + x.next) 6 0 0 0 0 x.workId s2).bump (R.READ_COUNTS.SECTORS_FAILED n) 1)
          failStroke n x.slot src s3)

end Sys2Proof.Machine
end

