-- ==== Sys2Proof/Machine/Strokes.lean ====
section
/-! DEFINITION. The stroke ring, its checks, the turns of a drum, and the rows of each stroke command (R427 to R441). -/
namespace Sys2Proof.Machine

/-- Check 1 of R430: every field in the range of Tables 21-1 and 21-2; the WORK_IDs of R443 only from a disc function. -/
def strokeForm (ofDisc : Bool) (x : Stroke) : Bool :=
  let many := 1 ≤ x.count && x.count ≤ 65535
  let bare := x.region = 0 && x.offset = 0
  let one := x.address = 0 && x.count = 1
  (!(0xFFFFE000 ≤ x.workId && x.workId ≤ 0xFFFFEFFF) || ofDisc) && !(0xFFFFFF00 ≤ x.workId && x.workId ≤ 0xFFFFFF1F)
    && x.u8 5 < 8 && x.u8 7 = 0 && x.u8 17 = 0 && x.u8 18 = 0 && x.u8 19 = 0 && x.u32 28 = 0
    && (match x.op with
        | 1 => many && x.arg ≤ 2
        | 2 => one && x.arg = 0
        | 3 => many && x.arg ≤ 1
        | 4 => many && x.arg ≤ 1 && bare
        | 5 => x.count = 1 && x.arg = 0 && bare
        | 6 => one && x.arg < 65536 && bare
        | 7 => one && x.arg ≤ 1 && bare
        | 8 => one && x.arg < 65536
        | _ => false)
/-- Take a stroke of a slot (R430): refused by its form, its rights or its memory, or pending. -/
def takeStroke (n : Nat) (x : Stroke) (s : State) : State :=
  if !strokeForm (x.request.isSome && rootKind s x.slot = 0) x then finishStroke n x true false (drumSrc n 36) (occur (drumSrc n 36) s)
  else if !strokeRights s x.slot n x.op x.arg then finishStroke n x true false 0 s
  else
    match regionBytes x with
    | some len =>
      if x.request.isNone && (regionAddr s x.slot x.region x.offset len).isNone then finishStroke n x true false 0 (memRefuse x.slot s)
      else admitStroke n x s
    | none => admitStroke n x s
/-- The 32 bytes of ring entry i. -/
def strokeEntry (s : State) (n slot i : Nat) : List Nat := (List.range 8).flatMap (fun j => leBytes 4 (s.rd (R.STK_ENTRY.BYTES n slot i j)))
/-- A write of STK_PROD (R427): stored only when it moves forward within the free space. -/
def writeProd (n slot v : Nat) (s : State) : State :=
  let prod := s.rd (R.STK_PROD.COUNT n slot)
  let cons := s.rd (R.STK_CONS.COUNT n slot)
  let a := (prod + 65536 - cons) % 65536
  let b := (v + 65536 - cons) % 65536
  if a < b && b ≤ ringSize s slot then
    (List.range (b - a)).foldl (fun t k =>
      takeStroke n (freshStroke slot (strokeEntry t n slot ((prod + k) % ringSize t slot)) none none) t)
      (s.wr (R.STK_PROD.COUNT n slot) v)
  else s
/-- STK_PROD_WRITE (R427). -/
def execStkProdWrite (slot : Fin 8) (drum : Fin 2) (value : Nat) (s : State) : Res :=
  completes s (guardWrite slot (drumBase drum + 0x50100) (writeProd drum slot (value % 65536)) s)

/-- The first stroke of each slot with strokes, in rotation order after a slot (R436). -/
def rotation (s : State) (n after : Nat) : List (Nat × Stroke) :=
  (List.range 8).filterMap (fun i =>
    let k := (after + 1 + i) % 8
    ((drumSt s n).strokes.find? (fun x => x.slot = k)).map (fun x => (k, x)))
/-- The address of a stroke's next unit, for strokes that read a sector. -/
def unitAddress (x : Stroke) : Option Nat := if x.op = 1 || x.op = 3 || x.op = 4 || x.op = 5 then some (x.address + x.next) else none
/-- The drum is at a unit boundary of the running stroke (R48). -/
def unitBoundary (s : State) (n : Nat) : Bool :=
  (drumSt s n).block.isNone && !unitBacksOff s n && (sledOf s n).move.isNone && (sledOf s n).homing = 0
    && (match currentStroke s n with
        | some x => !x.started || ((x.op = 1 || x.op = 3 || x.op = 4) && x.next ≤ x.count)
        | none => true)
/-- The sled moves for a stroke, homing first when it is unhomed. -/
def strokeSeek (n : Nat) (target : Int) (s : State) : State :=
  if sledCut s n then s
  else match sledState s n with
    | 0 => startHome n true s
    | 2 => dropLock n (seekTo n target true s)
    | _ => s
/-- DRUM_TURN (R436, R437): a unit that an earlier turn's group reached moves the sled no more. -/
def execDrumTurn (drum : Fin 2) (seek : Option Int) (s : State) : Res :=
  let n := drum.val
  let d := drumSt s n
  completes s (if !d.up || !unitBoundary s n || s.rd R.DORMANT_STATUS.STATE != 0 then s
    else
      match rotation s n d.last with
      | [] => syncNow n (putDrum n { d with turn := none } s)
      | (k, x) :: rest =>
        let s1 := putDrum n { d with turn := some k, last := k } s
        let span := s.rd (R.STK_CFG.SPAN n)
        let near (y : Stroke) : Bool := match unitAddress x, unitAddress y with
          | some a, some b => decide (((a : Int) - b).natAbs ≤ span)
          | _, _ => false
        let group := if seek.isSome && span != 0 then (rest.filter (fun e => near e.2)).map Prod.fst else []
        let s2 := if group = [] then s1
          else putStrokes n ((k :: group).foldl (fun l g => mapFirst g (fun y => { y with coalesced := some y.next }) l) (drumSt s1 n).strokes) s1
        syncNow n (match seek with
          | some t => if x.coalesced != some x.next && (unitAddress x).isSome && (s.rd (R.STK_DISC.STATE n)) = 2 then strokeSeek n t s2 else s2
          | none => s2))

/-- No disc is identified, or not the one that a stroke's GEN names (R434). -/
def wrongDisc (s : State) (n : Nat) (x : Stroke) : Bool :=
  s.rd (R.STK_DISC.STATE n) != 2 || (x.gen != 0 && x.gen != s.rd (R.STK_DISC.GEN n))
/-- Whether a disc stroke may start (R434): it starts, waits for RUN, or ends naming a source. -/
inductive Begins where
  | go | waits
  | ends (source : Nat)
deriving DecidableEq, Repr
def discBegins (s : State) (n : Nat) (x : Stroke) : Begins :=
  let kind := s.rd (R.STK_DISC.KIND n)
  if wrongDisc s n x then .ends (drumSrc n 22)
  else if (kind ≥ 4 && (x.op = 3 || x.op = 4 || (x.op = 1 && x.arg % 4 = 2))) || (x.op = 4 && kind != 1 && kind != 3) then .ends (drumSrc n 22)
  else if x.op != 2 && (x.address < s.rd (R.STK_START.ADDRESS n) || x.address + x.count > s.rd (R.STK_END.ADDRESS n)) then .ends (drumSrc n 21)
  else if spinState s n = 5 then .go
  else if (effDemand s n).1 < turnOn s n then .ends (drumSrc n 6)
  else .waits
/-- Start the running disc stroke with a given OP, or end it (R434): the laser of the identity record where SELECT is 0,
and the mode of its disc. A later unit of a started stroke acquires again, or ends the stroke where its disc has gone (R447). -/
def startDisc (n op : Nat) (s : State) : State :=
  match currentStroke s n with
  | none => s
  | some x =>
    let laser := byteAt (drumSt s n).ident 18
    if x.op != op then s
    else if x.started then (if wrongDisc s n x then failStroke n x.slot (drumSrc n 22) s else acquire n laser s)
    else
      match discBegins s n x with
      | .ends src => endStroke n x.slot false false src s
      | .waits => s
      | .go =>
        let s1 := if slotsUsed s n = 0 then setMode n (if isDvd s n then 2 else 1) s else s
        acquire n laser (syncNow n (updateCurrent n (fun y => { y with started := true }) s1))
/-- The running stroke has the given OP and has started. -/
def runsOp (s : State) (n op : Nat) : Bool := match currentStroke s n with | some x => x.op = op && x.started | none => false
/-- A started stroke seeks for its next unit. -/
def seekFor (n op : Nat) (seek : Option Int) (s : State) : State :=
  match seek with
  | some t => if runsOp s n op && (drumSt s n).block.isNone then strokeSeek n t s else s
  | none => s

/-- STROKE_READ (R429, R434). -/
def execStrokeRead (drum : Fin 2) (seek : Option Int) (s : State) : Res := completes s (seekFor drum 1 seek (startDisc drum 1 s))
/-- STROKE_PLAY_AUDIO (R434, R441). -/
def execStrokePlayAudio (drum : Fin 2) (seek : Option Int) (s : State) : Res :=
  let n := drum.val
  let s1 := startDisc n 4 s
  completes s (seekFor n 4 seek (match currentStroke s1 n with
    | some x => if x.op = 4 && x.started then s1.on (R.AUD_STATUS.PLAYING (x.arg % 2)) else s1
    | none => s1))
/-- STROKE_SEEK (R429): done once the sled is at its place. -/
def execStrokeSeek (drum : Fin 2) (target : Int) (s : State) : Res :=
  let n := drum.val
  let s1 := startDisc n 5 s
  completes s (match currentStroke s1 n with
    | some x =>
      if x.op != 5 || !x.started then s1
      else if sledState s1 n = 2 && (x.coalesced = some x.next || (sledOf s1 n).pos = target * (sledDen : Int)) then seekEnded n none s1
      else strokeSeek n target s1
    | none => s1)

def TocEntry.bytes (e : TocEntry) : List Nat := [e.track % 256, e.control % 256, e.session % 256, 0] ++ leBytes 4 e.start
/-- The TOC of the identified disc: a DVD has two entries, and the lead-out's CONTROL and both ADR are open (R433). -/
def tocOf (s : State) (n : Nat) (entries : List TocEntry) : List TocEntry :=
  if isDvd s n then
    [⟨1, 16 * (s.freeVal 0 % 16) + 4, 1, s.rd (R.STK_START.ADDRESS n)⟩, ⟨0xAA, s.freeVal 1 % 256, 1, s.rd (R.STK_END.ADDRESS n)⟩]
  else entries.take 100
/-- The TOC record (R433). -/
def tocRecord (s : State) (n : Nat) (es : List TocEntry) : List Nat :=
  let id := (drumSt s n).ident
  (([byteAt id 1, byteAt id 2, es.length, byteAt id 0] ++ leBytes 4 (word id 4) ++ es.flatMap TocEntry.bytes) ++ List.replicate 808 0).take 808
/-- An address of a TOC or sub-channel answer, as LBA or as MSF (PRESUMED: MMC). -/
def discAddress (msf : Bool) (a : Nat) : List Nat :=
  if msf then [0, (a + 150) / 4500, (a + 150) / 75 % 60, (a + 150) % 75] else beBytes 4 a
/-- The answer to READ TOC/PMA/ATIP, formats 0 and 1, from first track, last track and sessions (R444; layout PRESUMED: MMC). -/
def tocAnswer (first last sessions : Nat) (cdb : List Nat) (es : List TocEntry) : List Nat :=
  let msf := bit (byteAt cdb 1) 1
  let entry (e : TocEntry) (track : Nat) : List Nat := [0, e.control % 256, track, 0] ++ discAddress msf e.start
  let body := if byteAt cdb 2 % 16 = 0 then
      [first, last] ++ (es.filter (fun e => byteAt cdb 6 ≤ e.track)).flatMap (fun e => entry e e.track)
    else
      let latest := es.filter (fun e => e.session = sessions && e.track != 0xAA)
      [1, sessions] ++ (latest.take 1).flatMap (fun e => entry e e.track)
  (beBytes 2 body.length ++ body).take (cdbLen10 cdb)
/-- The command that a logical unit executes. -/
def lunCdb (s : State) (slot : Nat) (l : Option Nat) : List Nat :=
  match l with
  | some l => ((lunOf s slot l).cmds.head?.map (·.cdb)).getD []
  | none => []
/-- READ_TOC (R433). -/
def execReadToc (drum : Fin 2) (entries : List TocEntry) (s : State) : Res :=
  let n := drum.val
  let s1 := startDisc n 2 s
  completes s (match currentStroke s1 n with
    | some x =>
      if x.op != 2 || !x.started || rateOver s1 n then s1
      else
        let es := tocOf s1 n entries
        let id := (drumSt s1 n).ident
        let bs := if x.lun.isSome then tocAnswer (byteAt id 1) (byteAt id 2) (byteAt id 3) (lunCdb s1 x.slot x.lun) es else tocRecord s1 n es
        let s2 := if isDvd s1 n then s1.drew 2 else s1
        finishIfDone n (passUnit n 0 (giveUnit n 0 x.offset bs s2))
    | none => s1)

/-- The answer to READ SUB-CHANNEL, format 1, from a Q record (R444; layout PRESUMED: MMC). -/
def subAnswer (playing : Bool) (cdb q : List Nat) : List Nat :=
  let msf := bit (byteAt cdb 1) 1
  let abs := (bcd (byteAt q 7) * 60 + bcd (byteAt q 8)) * 75 + bcd (byteAt q 9) - 150
  let rel := (bcd (byteAt q 3) * 60 + bcd (byteAt q 4)) * 75 + bcd (byteAt q 5)
  let relB := if msf then [0, rel / 4500, rel / 75 % 60, rel % 75] else beBytes 4 rel
  let body := if bit (byteAt cdb 2) 6 then
      [1, byteAt q 0 % 16 * 16 + byteAt q 0 / 16, bcd (byteAt q 1), bcd (byteAt q 2)] ++ discAddress msf abs ++ relB
    else []
  ([0, if playing then 0x11 else 0x15] ++ beBytes 2 body.length ++ body).take (cdbLen10 cdb)
/-- One unit of a READ_SUBCODE. -/
def subcodeUnit (n : Nat) (rec : List Nat) (s : State) : State :=
  match currentStroke s n with
  | some x =>
    if x.op != 3 || !x.started || x.next ≥ x.count || rateOver s n then s
    else
      let i := x.next
      let q := (rec ++ List.replicate 96 0).take 12
      let bs := if x.lun.isSome then subAnswer (s.isSet (R.AUD_STATUS.PLAYING ((audioOf s x.slot n).headD 2))) (lunCdb s x.slot x.lun) q
        else if x.arg % 2 = 0 then q ++ [0, 0, 0, 0] else (rec ++ List.replicate 96 0).take 96
      let stride := if x.arg % 2 = 0 then 16 else 96
      finishIfDone n (passUnit n i (giveUnit n i (x.offset + i * stride) bs s))
  | none => s
/-- READ_SUBCODE (R429). -/
def execReadSubcode (drum : Fin 2) (records : List (List Nat)) (s : State) : Res :=
  let s1 := startDisc drum 3 s
  let slot := (currentStroke s1 drum).map (·.slot)
  completes s (records.foldl (fun t r => if (currentStroke t drum).map (·.slot) = slot && slot.isSome then subcodeUnit drum r t else t) s1)

/-- A stroke that is not a disc stroke starts. -/
def startPlain (n op : Nat) (act : Stroke → State → State) (s : State) : State :=
  match currentStroke s n with
  | some x => if x.op = op && !x.started then act x (syncNow n (updateCurrent n (fun y => { y with started := true }) s)) else s
  | none => s
/-- SPIN (R435): the demand is recorded at once. -/
def execSpin (drum : Fin 2) (s : State) : Res :=
  let n := drum.val
  completes s (startPlain n 6 (fun x s => checkSpinStroke n (s.wr (R.STK_DEMAND.DEMAND n x.slot) (x.arg % 65536))) s)
/-- TRAY (R438, R402). -/
def execTray (drum : Fin 2) (s : State) : Res :=
  completes s (startPlain drum 7 (fun x s => trayRequest drum (x.arg % 2 = 0) s) s)

/-- The identity record (Table 21-4). -/
def identityRecord (kind first last sessions endAt layer0 book laser gen : Nat) : List Nat :=
  let dvd := kind ≥ 4
  [kind] ++ (if dvd then [1, 1, 1] else [first % 256, last % 256, sessions % 256]) ++ leBytes 4 endAt ++ leBytes 4 (if dvd then 0x30000 else 0)
    ++ leBytes 4 (if kind ≥ 5 then layer0 else 0) ++ [if dvd then book % 256 else 0, gen, laser] ++ List.replicate 13 0
/-- A successful identification (R431, R432). -/
def identified (n kind first last sessions endAt layer0 book laser : Nat) (x : Stroke) (s : State) : State :=
  let was := s.rd (R.STK_DISC.STATE n)
  let g := s.rd (R.STK_DISC.GEN n)
  let gen := if was = 2 then g else if g = 255 then 1 else g + 1
  let rec_ := identityRecord kind first last sessions endAt layer0 book laser gen
  let s1 := setMode n (if kind ≥ 4 then 2 else 1) s
  let s2 := ((((s1.wr (R.STK_DISC.STATE n) 2).wr (R.STK_DISC.KIND n) kind).wr (R.STK_DISC.GEN n) gen).wr (R.STK_END.ADDRESS n) (word rec_ 4)).wr
    (R.STK_START.ADDRESS n) (word rec_ 8)
  let s3 := putDrum n { drumSt s2 n with ident := rec_ } s2
  let s4 := if was = 2 then s3 else setIrqAll 6 (drumSlots s3 n) s3
  finishIfDone n (passUnit n 0 (if x.lun.isSome then updateCurrent n (Stroke.unitDone 0) s4 else giveUnit n 0 x.offset rec_ s4))
/-- A disc of Table 20-1 (R405): of one of its kinds, finalized, with a lead-out, and on a DVD of a read-only or recordable book
type it names (PRESUMED: ECMA-267 and MMC, 0 DVD-ROM, 2 DVD-R, 10 DVD+R). -/
def discOk (kind book : Nat) (finalized leadOut : Bool) : Bool :=
  1 ≤ kind && kind ≤ 6 && finalized && leadOut && (kind < 4 || book = 0 || book = 2 || book = 10)
/-- IDENTIFY (R432, R434). -/
def execIdentify (drum : Fin 2) (identity : Identity) (s : State) : Res :=
  let n := drum.val
  let running (f : Stroke → State → State) : State :=
    match currentStroke s n with
    | some x => if x.op = 8 && x.started && spinState s n = 5 && s.rd (R.STK_DISC.STATE n) != 0 then f x s else s
    | none => s
  completes s (match identity with
    | .start =>
      match currentStroke s n with
      | some x =>
        if x.op != 8 || x.started then s
        else if s.rd (R.STK_DISC.STATE n) = 0 then endStroke n x.slot false false (drumSrc n 22) s
        else
          let s1 := s.wr (R.STK_DEMAND.DEMAND n x.slot) (x.arg % 65536)
          if (effDemand s1 n).1 < turnOn s1 n then failStroke n x.slot (drumSrc n 6) s1
          else syncNow n (updateCurrent n (fun y => { y with started := true }) s1)
      | none => s
    | .found kind first last sessions endAt layer0 book laser finalized leadOut =>
      running (fun x s =>
        let s1 := if s.rd (R.LASER_CTRL.SELECT n) = laser then s else selectLaser n laser s
        match laserBar s1 n with
        | some src => failStroke n x.slot src s1
        | none =>
          if !((laser = 1 || laser = 2) && s1.rd (R.LASER_CTRL.SELECT n) = laser) then s
          else if discOk kind book finalized leadOut then
            identified n kind first last sessions endAt layer0 book laser x (rearm n s1)
          else failStroke n x.slot (drumSrc n 22) (occur (drumSrc n 22) (setDisc n 3 s1)))
    | .format => running (fun x s =>
        match laserBar s n with
        | some src => failStroke n x.slot src (selectLaser n 1 s)
        | none => failStroke n x.slot (drumSrc n 22) (occur (drumSrc n 22) (setDisc n 3 s)))
    | .focus => running (fun x s =>
        match laserBar s n with
        | some src => failStroke n x.slot src (selectLaser n 1 s)
        | none => failStroke n x.slot (drumSrc n 0) (setDisc n 3 s)))

/-- SPIN_WAIT_TIMEOUT (R434, R435). -/
def execSpinWaitTimeout (drum : Fin 2) (s : State) : Res :=
  let n := drum.val
  let src := drumSrc n 6
  completes s (match currentStroke s n with
    | none => s
    | some x =>
      if x.started && (x.op = 6 || (x.op = 8 && spinState s n != 5)) then failStroke n x.slot src s
      else if x.disc && !x.started && discBegins s n x = .waits then endStroke n x.slot false false src s
      else s)
/-- LASER_IDLE_CLEAR (R434). -/
def execLaserIdleClear (drum : Fin 2) (s : State) : Res :=
  let n := drum.val
  completes s (if (drumSt s n).strokes.any Stroke.disc || s.rd (R.LASER_CTRL.SELECT n) = 0 then s
    else setMode n 0 (selectLaser n 0 s))

/-- The drum and stroke that feed an output. -/
def playingOn (s : State) (o : Nat) : Option (Nat × Stroke) :=
  (List.range 2).findSome? (fun n =>
    ((drumSt s n).strokes.find? (fun x => x.op = 4 && x.started && x.arg % 2 = o)).map (fun x => (n, x)))
/-- AUDIO_UNDERRUN (R441). -/
def execAudioUnderrun (output : Fin 2) (s : State) : Res :=
  let o := output.val
  completes s (match playingOn s o with
    | some (n, x) =>
      if buffered s n o = [] && x.next < x.count then occur (drumSrc n 37) (s.on (R.AUD_STATUS.UNDERRUN o)) else s
    | none => s)
/-- The first buffered sector of an output goes out, muted or not, and its unit is done (R441), or fails where the working
store that holds it has an uncorrectable word (R71), which ends the stroke. -/
def audioTaken (o n a : Nat) (x : Stroke) (bs : List Nat) (rest : List (Nat × List Nat)) (s0 : State) : State :=
  let w := sweepUse (.drum n) s0
  let s := w.2
  let s1 := if w.1 then s else s.emit (.i2s o (if s.isSet (R.AUD_CTRL.MUTE o) then bs.map (fun _ => 0) else bs))
  let i := a - x.address
  let d := drumSt s1 n
  let s2 := putDrum n { d with
      play := d.play.filter (fun e => !(e.1 = o && e.2.1 = a))
      strokes := mapFirst x.slot (fun y => { (if w.1 then y.unitSpoilt i else y.unitDone i) with awaiting := y.awaiting.filter (· ≠ i) }) d.strokes } s1
  showBuffer n o (match rest with | (b, _) :: _ => s2.wr (R.AUD_POS.ADDRESS o) b | [] => s2)
/-- AUDIO_SECTOR_OUT (R440, R441): its unit is done, and the next sector leaves. -/
def execAudioSectorOut (output : Fin 2) (s : State) : Res :=
  let o := output.val
  completes s (match playingOn s o with
    | none => s
    | some (n, x) =>
      match buffered s n o with
      | [] => s
      | (a, bs) :: rest =>
        let t := audioTaken o n a x bs rest s
        match (drumSt t n).strokes.find? (fun y => y.slot = x.slot) with
        | some y => if (y.next ≥ y.count && y.awaiting = []) || y.source = 39 then endStroke n y.slot false false 0 t else t
        | none => t)

end Sys2Proof.Machine
end

