-- ==== Sys2Proof/Machine/Tiles.lean ====
section
/-! DEFINITION. Port tiles and the virtual hub (chapter 13). -/
namespace Sys2Proof.Machine

def tileSrc (t k : Nat) : Nat := 48 + 8 * t + k
def portPresent (s : State) (slot k : Nat) : Bool := 1 ≤ k && k ≤ hubPorts s slot
/-- The device function's port n + 1, or a remote port after it (R506), which takes what the device function's port takes. -/
def isDevicePort (s : State) (slot k : Nat) : Bool := isVirtualHub s slot && hubPorts s slot < k && k ≤ s.rd (R.HUB_SELF.PORTS slot)
/-- The port of the device function (R264). -/
def isFunctionPort (s : State) (slot k : Nat) : Bool := isVirtualHub s slot && k = hubPorts s slot + 1
/-- The link state of a port, and a change of it at its tile where it has one. -/
def portLink (s : State) (slot k : Nat) : Nat := s.rd (R.HUB_PORT.LINK slot k)
def setPortLink (slot k link : Nat) (s : State) : State :=
  match tileOfPort s slot k with
  | some t => setLink t link s
  | none => (s.wr (R.HUB_PORT.LINK slot k) link).wrB (R.HUB_PORT.SUSPEND slot k) (link = 7)
def portSuper (s : State) (slot k : Nat) : Bool := 4 ≤ s.rd (R.HUB_PORT.SPEED slot k)

/-- The UP tile of a virtual hub carries traffic. -/
def upLinked (s : State) (slot : Nat) : Bool :=
  match upTileOf s slot with
  | some t => 3 ≤ linkOf s t && linkOf s t ≤ 8
  | none => false
/-- A class request reaches the hub of a slot: a hub that the host has not configured stalls it (DEDUCED), a suspended one
hears nothing. Taproot stands in the host's place (R279). -/
def hubRequest (slot : Nat) (f : State → State) (s : State) : State :=
  if isTaprootHub s slot then f s
  else if isVirtualHub s slot && upLinked s slot then
    (if s.rd (R.HUB_SELF.STATE slot) = 2 then f s
      else if s.rd (R.HUB_SELF.STATE slot) = 3 then s else s.emit (.usbStall slot))
  else s
/-- A request to a port: a stall where the port does not exist; the device function's port takes only what `dev` does. -/
def portRequest (slot k : Nat) (dev : State → State) (f : Nat → State → State) (s : State) : State :=
  hubRequest slot (fun s =>
    if isDevicePort s slot k then dev s
    else match (if portPresent s slot k then tileOfPort s slot k else none) with
      | some t => f t s
      | none => s.emit (.usbStall slot)) s
def modPort (slot k : Nat) (f : HubPort → HubPort) (s : State) : State := putPort slot k (f (portOf s slot k)) s

/-- The TT that serves a port (R270). -/
def ttOf (s : State) (slot t : Nat) : Nat := if Tab.look false s.hubAlt slot then t else (downTiles s slot).headD t
def putTt (t : Nat) (x : Translator) (s : State) : State := { s with tts := Tab.put Translator.reset s.tts t x }
def changeTt (slot : Nat) (f : Translator → Translator) (t : Nat) (s : State) : State :=
  putTt (ttOf s slot t) (f (Tab.look Translator.reset s.tts (ttOf s slot t))) s
def stallPort (slot : Nat) (s : State) : State := s.emit (.usbStall slot)
/-- No TT is used below a hub that runs at full speed (R262). -/
def hasTts (s : State) (slot : Nat) : Bool := !(isVirtualHub s slot && s.rd (R.HUB_SELF.UP_SPEED slot) = 2)
/-- A request to the TT of a port. -/
def ttRequest (slot k : Nat) (f : Nat → State → State) (s : State) : State :=
  portRequest slot k (stallPort slot) (fun t s => if hasTts s slot then f t s else stallPort slot s) s
/-- A request to any port: its own effect on a DOWN tile's port, the device function's and a remote one alike. -/
def anyPort (slot k : Nat) (f : State → State) (s : State) : State := portRequest slot k f (fun _ => f) s

/-- CLEAR_TT_BUFFER (R265): a non-periodic buffer is emptied. -/
def execClearTtBuffer (slot : Fin 8) (port : Fin 16) (buffer : Fin 2) (s : State) : Res :=
  completes s (ttRequest slot port (changeTt slot (fun x => { x with buffers := x.buffers.eraseIdx buffer })) s)
/-- RESET_TT (R265). -/
def execResetTt (slot : Fin 8) (port : Fin 16) (s : State) : Res :=
  completes s (ttRequest slot port (changeTt slot (fun _ => Translator.reset)) s)
/-- GET_TT_STATE (R265): the spec states no format, so the bytes returned are a free value. -/
def execGetTtState (slot : Fin 8) (port : Fin 16) (s : State) : Res :=
  completes s (ttRequest slot port (fun _ s => (s.emit (.usb slot (leBytes 4 (s.freeVal 0)))).drew 1) s)
/-- STOP_TT (R265). -/
def execStopTt (slot : Fin 8) (port : Fin 16) (s : State) : Res :=
  completes s (ttRequest slot port (changeTt slot (fun x => { x with stopped := true })) s)
/-- SET_HUB_DEPTH (R265). -/
def execSetHubDepth (slot : Fin 8) (depth : Nat) (s : State) : Res :=
  completes s (hubRequest slot (fun s => { s with hubDepth := Tab.put 0 s.hubDepth slot depth }) s)
/-- What the link of a tile has counted goes into TILE_COUNTS and its port's error count (R265, R280). -/
def countLink (t : Nat) (c : LinkCounts) (s : State) : State :=
  changePort t (fun p => { p with errors := min (p.errors + c.errors) 65535 })
    ((s.bump (R.TILE_COUNTS.RECOVERIES t) c.recoveries).bump (R.TILE_COUNTS.ERRORS t) c.badPackets)
/-- GET_PORT_ERR_COUNT (R265); the device function's link counts no errors. -/
def execGetPortErrCount (slot : Fin 8) (port : PortCounts) (s : State) : Res :=
  completes s (portRequest slot port.port (fun s => s.emit (.usb slot [0, 0]))
    (fun t s0 =>
      let s := countLink t port.counts s0
      s.emit (.usb slot (leBytes 2 (portOf s slot port.port).errors))) s)

/-- SET_PORT_POWER (R272, R273): accepted whatever the tile's condition; the device function's port is always powered (R264). -/
def execSetPortPower (slot : Fin 8) (port : Fin 16) (s : State) : Res :=
  completes s (portRequest slot port id (fun t s =>
    syncPath t ((s.on (R.HUB_PORT.POWER slot port)).off (R.HUB_PORT.OVER_CURRENT slot port))) s)
/-- CLEAR_PORT_POWER (R272): VBUS off at once where PORT_POWER counts, for a USB-rooted grove. -/
def execClearPortPower (slot : Fin 8) (port : Fin 16) (s : State) : Res :=
  completes s (portRequest slot port id (fun t s =>
    let s1 := s.off (R.HUB_PORT.POWER slot port)
    if isTaprootHub s slot then s1 else portDisconnect t (syncPath t s1)) s)

/-- A reset begins on a connected port; it takes over from a resume (R282). -/
def beginReset (slot k kind t : Nat) (s : State) : State :=
  if s.isSet (R.HUB_PORT.POWER slot k) && s.isSet (R.HUB_PORT.CONNECT slot k) then
    modPort slot k (fun p => { p with resetting := kind, selective := false, failed := 0 })
      ((setLink t 2 (s.off (R.HUB_PORT.ENABLED slot k))).bump (R.TILE_COUNTS.RESETS t) 1)
  else s
/-- The device function's port, or a remote one, is reset: what is connected there is reset at once and enabled. -/
def resetInside (slot k : Nat) (warm : Bool) (s : State) : State :=
  if !s.isSet (R.HUB_PORT.CONNECT slot k) then s
  else
    let s1 := if isFunctionPort s slot k then functionDefault slot s else s
    modPort slot k (fun p => { p with cReset := true, cWarm := p.cWarm || warm, selective := false })
      (setPortLink slot k 3 (s1.on (R.HUB_PORT.ENABLED slot k)))
/-- PORT_RESET (R269). -/
def execPortReset (slot : Fin 8) (port : Fin 16) (s : State) : Res :=
  completes s (portRequest slot port (resetInside slot port false) (beginReset slot port 1) s)
/-- BH_PORT_RESET (R269): SuperSpeed ports only. -/
def execBhPortReset (slot : Fin 8) (port : Fin 16) (s : State) : Res :=
  let super (f : State → State) : State → State := fun s => if portSuper s slot port then f s else stallPort slot s
  completes s (portRequest slot port (super (resetInside slot port true)) (fun t => super (beginReset slot port 2 t)) s)

/-- The speed a USB 2.0 reset may find: no chirp below a hub at full speed (R262). -/
def speedFound (s : State) (slot n : Nat) : Nat := if isVirtualHub s slot && s.rd (R.HUB_SELF.UP_SPEED slot) = 2 && n = 3 then 2 else n
/-- PORT_RESET_COMPLETE (R269, R282). -/
def execPortResetComplete (tile : Fin 14) (result : PortResetEnd) (s : State) : Res :=
  completes s (match portOfTile s tile with
    | none => s
    | some (slot, k) =>
      if (portOf s slot k).resetting = 0 then s
      else
        let s1 := modPort slot k (fun p => { p with resetting := 0, cReset := true, cWarm := p.cWarm || p.resetting = 2 }) s
        if !s1.isSet (R.HUB_PORT.CONNECT slot k) then s1
        else
          match result with
          | .speed n => retryEnd (tileSrc tile 6) (setSpeed tile (speedFound s slot n) (setLink tile 3 (s1.on (R.HUB_PORT.ENABLED slot k))))
          | .gone => portDisconnect tile s1
          | .failed =>
            failOrRetry (tileSrc tile 6) id (modPort slot k (fun p => { p with failed := (portOf s slot k).resetting })
              (setLink tile (if portSuper s1 slot k then 10 else 1) s1)))

/-- PORT_SUSPEND (R276): a USB 2.0 port that is enabled; clearing it drives resume, from L1 too (R275). -/
def execPortSuspend (slot : Fin 8) (port : Fin 16) (set : Bool) (s : State) : Res :=
  completes s (anyPort slot port (fun s =>
    let l := portLink s slot port
    if portSuper s slot port || !s.isSet (R.HUB_PORT.ENABLED slot port) then s
    else if set then modPort slot port (fun p => { p with selective := true }) (setPortLink slot port 7 s)
    else if l = 7 || l = 8 then modPort slot port (fun p => { p with selective := false, cSuspend := true }) (setPortLink slot port 3 s)
    else if l = 4 then setPortLink slot port 3 s
    else s) s)

/-- A port's connection ends by its host's command: a DOWN tile's is gone, the device function stays connected (R264). -/
def endPort (slot k : Nat) (s : State) : State :=
  match tileOfPort s slot k with
  | some t => portDisconnect t s
  | none => s.off (R.HUB_PORT.ENABLED slot k)
/-- PORT_LINK_STATE (R275, R276): a SuperSpeed port. -/
def execPortLinkState (slot : Fin 8) (port : Fin 16) (state : Nat) (s : State) : Res :=
  completes s (anyPort slot port (fun s =>
    let was := portLink s slot port
    let go := fun l => setPortLink slot port l s
    if !portSuper s slot port then s
    else match state with
      | 0 =>
        if was = 7 || was = 8 then modPort slot port (fun p => { p with selective := false, cLink := true }) (go 3)
        else if was = 5 || was = 6 then go 3 else s
      | 1 => if was = 3 then go 5 else s
      | 2 => if was = 3 then go 6 else s
      | 3 => if 3 ≤ was && was ≤ 6 then modPort slot port (fun p => { p with selective := true }) (go 7) else s
      | 4 => setPortLink slot port 0 (endPort slot port s)
      | 5 => if isFunctionPort s slot port then setPortLink slot port 3 (s.on (R.HUB_PORT.ENABLED slot port))
        else setPortLink slot port 1 (endPort slot port s)
      | _ => stallPort slot s) s)

/-- PORT_U1_TIMEOUT (R265). -/
def execPortU1Timeout (slot : Fin 8) (port : Fin 16) (value : Nat) (s : State) : Res :=
  completes s (anyPort slot port (modPort slot port (fun p => { p with u1 := value % 256 })) s)
/-- PORT_U2_TIMEOUT (R265). -/
def execPortU2Timeout (slot : Fin 8) (port : Fin 16) (value : Nat) (s : State) : Res :=
  completes s (anyPort slot port (modPort slot port (fun p => { p with u2 := value % 256 })) s)
/-- PORT_REMOTE_WAKE_MASK (R277). -/
def execPortRemoteWakeMask (slot : Fin 8) (port : Fin 16) (mask : Nat) (s : State) : Res :=
  completes s (anyPort slot port (modPort slot port (fun p => { p with wakeMask := mask % 256 })) s)
/-- FORCE_LINKPM_ACCEPT (R265). -/
def execForceLinkpmAccept (slot : Fin 8) (port : Fin 16) (set : Bool) (s : State) : Res :=
  completes s (anyPort slot port (modPort slot port (fun p => { p with linkpm := set })) s)
/-- PORT_TEST (R265). -/
def execPortTest (slot : Fin 8) (port : Fin 16) (mode : Nat) (s : State) : Res :=
  completes s (portRequest slot port (stallPort slot) (fun _ => modPort slot port (fun p => { p with test := mode })) s)
/-- PORT_INDICATOR (R265): a request error. -/
def execPortIndicator (slot : Fin 8) (_port : Fin 16) (s : State) : Res :=
  completes s (hubRequest slot (stallPort slot) s)

/-- The host side of a tile's grove runs SuperSpeed (R268). -/
def hostSuper (s : State) (slot : Nat) : Bool :=
  isTaprootHub s slot || (isVirtualHub s slot && s.rd (R.HUB_SELF.STATE slot) = 2 && s.rd (R.HUB_SELF.UP_SPEED slot) ≥ 4)
/-- A DOWN port is sourcing VBUS to an attached device that has not connected. -/
def awaitsConnect (s : State) (t : Nat) : Bool :=
  match portOfTile s t with
  | some (slot, k) => attached s t && s.isSet (R.TILE_STATUS.VBUS_ON t) && tileReady s t && !s.isSet (R.HUB_PORT.CONNECT slot k)
  | none => false
def runsDetection (s : State) (t : Nat) : Bool :=
  match portOfTile s t with
  | some (slot, k) => awaitsConnect s t && s.isSet (R.TILE_CFG.SUPERSPEED t) && hostSuper s slot && !(portOf s slot k).watch
  | none => false

/-- RECEIVER_DETECTION (R268). -/
def execReceiverDetection (tile : Fin 14) (result : Detection) (s : State) : Res :=
  completes s (if !runsDetection s tile then s
    else match result with
      | .absent => s
      | .found => setLink tile 9 s
      | .trainingFailed => failOrRetry (tileSrc tile 6) id (changePort tile (fun p => { p with watch := true }) (setLink tile 1 s))
      | .trained gen2 => retryEnd (tileSrc tile 6) (portConnect tile (if gen2 then 5 else 4) s))
/-- SS_DETECT_TIMEOUT (R268). -/
def execSsDetectTimeout (tile : Fin 14) (s : State) : Res :=
  completes s (if runsDetection s tile then changePort tile (fun p => { p with watch := true }) s else s)
/-- USB2_CONNECT (R268). -/
def execUsb2Connect (tile : Fin 14) (low : Bool) (s : State) : Res :=
  completes s (if awaitsConnect s tile && !runsDetection s tile then portConnect tile (if low then 1 else 2) s else s)

/-- TILE_0 is detached in recovery (R181): a download begins anew, while the flash stays with the one that first wrote it. -/
def dfuGone (s : State) : State :=
  let s1 := ((((s.wr (R.TILE_STATUS.ATTACH 0) 0).wr (R.TILE_STATUS.ORIENT 0) 0).wr (R.TILE_STATUS.SPEED 0) 0).wr (R.TILE_STATUS.LINK 0) 1)
  putUsbDev 8 false UsbDev.reset { s1 with recovery := { s.recovery with state := 2, status := 0, alt := 0, next := 0, word := [] } }
/-- UP_TILE_DETACH (R274, R181). -/
def execUpTileDetach (tile : Fin 14) (s : State) : Res :=
  completes s (if isDfu s tile then dfuGone s
    else match slotOfUpTile s tile with
      | some slot => upGone slot tile 1 s
      | none => s)
/-- HUB_RESET_BY_HOST (R274): a link that was suspended or saving power runs again. -/
def execHubResetByHost (slot : Fin 8) (s : State) : Res :=
  completes s (if isVirtualHub s slot && upLinked s slot then
      hubDefault slot (match upTileOf s slot with | some t => setLink t 3 s | none => s)
    else s)

/-- The port of a DOWN tile honours FORCE_LINKPM_ACCEPT. -/
def forcesLpm (s : State) (t : Nat) : Bool := match portOfTile s t with | some (slot, k) => (portOf s slot k).linkpm | none => false
/-- LPM_TOKEN (R275): a high-speed link in L0, BESL up to 1,000 µs; under the hub's rules a link with traffic pending stays
in L0, but where FORCE_LINKPM_ACCEPT is set (DEDUCED). -/
def execLpmToken (link : LinkAt) (token : LpmToken) (s : State) : Res :=
  completes s (match link with
    | .tile tile =>
      if token.besl ≤ 1000 && linkOf s tile = 3 && s.rd (R.TILE_STATUS.SPEED tile) = 3 && (!token.busy || forcesLpm s tile) then setLink tile 4 s
      else s
    | .function slot =>
      let k := hubPorts s slot + 1
      if isVirtualHub s slot && token.besl ≤ 1000 && portLink s slot k = 3 && s.rd (R.HUB_PORT.SPEED slot k) = 3
          && (!token.busy || (portOf s slot k).linkpm) then setPortLink slot k 4 s
      else s)
/-- The state that the timers of a DOWN port take its link to (units PRESUMED: USB 3.2, 1 µs and 256 µs). -/
def timersMove (p : HubPort) (link us : Nat) : Option Nat :=
  if 1 ≤ p.u2 && p.u2 ≤ 254 && 256 * p.u2 ≤ us && (link = 3 || link = 5) then some 6
  else if 1 ≤ p.u1 && p.u1 ≤ 127 && p.u1 ≤ us && link = 3 then some 5
  else none
/-- Where a SuperSpeed link in a state goes by its partner's request, or by the timers of its port. -/
def linkMoves (p : HubPort) (link : Nat) : LinkMove → Option Nat
  | .partner u2 => if link = 3 || (u2 && link = 5) then some (if u2 then 6 else 5) else none
  | .idle us => timersMove p link us
/-- U1_U2_ENTRY (R275): a SuperSpeed link in U0, or in U1 for U2; an UP tile's own timers are its host's to set, and it has
none. -/
def execU1U2Entry (link : LinkAt) (entry : LinkEntry) (s0 : State) : Res :=
  completes s0 (match link with
    | .tile tile =>
      let s := countLink tile entry.counts s0
      if s.rd (R.TILE_STATUS.SPEED tile) < 4 then s
      else
        match linkMoves (match portOfTile s tile with | some (slot, k) => portOf s slot k | none => HubPort.reset) (linkOf s tile) entry.move with
        | some l => setLink tile l s
        | none => s
    | .function slot =>
      let k := hubPorts s0 slot + 1
      if !isVirtualHub s0 slot || !portSuper s0 slot k then s0
      else match linkMoves (portOf s0 slot k) (portLink s0 slot k) entry.move with
        | some l => setPortLink slot k l s0
        | none => s0)

/-- A DOWN link that carries traffic. -/
def downRuns (s : State) (t : Nat) : Bool := 3 ≤ linkOf s t && linkOf s t ≤ 6
/-- GLOBAL_SUSPEND (R276): the device function suspends with the devices. -/
def execGlobalSuspend (slot : Fin 8) (s : State) : Res :=
  completes s (if isVirtualHub s slot && upLinked s slot then
      let s1 := match upTileOf s slot with | some u => setLink u 7 s | none => s
      (List.range' 1 15).foldl (fun a k => if 3 ≤ portLink a slot k && portLink a slot k ≤ 6 then setPortLink slot k 7 a else a)
        (s1.wr (R.HUB_SELF.STATE slot) 3)
    else s)

/-- A port as its hub resumes (R276, R278): one that was suspended with the hub runs again, and one that drives resume ends
it with its change bit; a SuperSpeed link that the hub took out of U3 shows C_PORT_LINK_STATE (DESIGN CHOICE). -/
def resumePort (slot k : Nat) (s : State) : State :=
  let super := portSuper s slot k
  let l := portLink s slot k
  if l = 8 || (l = 7 && !(portOf s slot k).selective) then
    modPort slot k (fun p => { p with selective := false, cSuspend := p.cSuspend || (!super && l = 8), cLink := p.cLink || super })
      (setPortLink slot k 3 s)
  else s
/-- Resume of a hub propagates to its ports, and the hub is again what it was before it was suspended. -/
def resumeHub (slot : Nat) (s : State) : State :=
  let d := usbDevOf s slot false
  (List.range' 1 15).foldl (fun a k => resumePort slot k a)
    (if s.rd (R.HUB_SELF.STATE slot) = 3 then s.wr (R.HUB_SELF.STATE slot) (if d.configured then 2 else if d.address != 0 then 1 else 0) else s)
/-- HOST_RESUME (R275, R276, R278): out of suspend, out of L1, and out of U1 or U2; the bell rings while the Olulo is not
Active. -/
def execHostResume (tile : Fin 14) (s : State) : Res :=
  completes s (match slotOfUpTile s tile with
    | some slot =>
      if linkOf s tile = 7 || linkOf s tile = 4 then resumeHub slot (setLink tile 3 (ringBell tile false s))
      else if linkOf s tile = 5 || linkOf s tile = 6 then setLink tile 3 (ringBell tile false s)
      else ringBell tile false s
    | none => ringBell tile false s)

/-- The host has enabled the wake of a port (R277). -/
def wakeEnabled (s : State) (slot k : Nat) (funcWake : Bool) : Bool :=
  if s.rd (R.HUB_PORT.SPEED slot k) ≥ 4 then (portOf s slot k).wakeMask != 0 && funcWake else s.isSet (R.HUB_SELF.WAKE_EN slot)
/-- DEVICE_REMOTE_WAKE (R54, R277, R278), which also takes the device's own link out of L1 (R275); a retro-rooted grove's
wake is Taproot's (TAPROOT_REMOTE_WAKE). -/
def execDeviceRemoteWake (tile : Fin 14) (funcWake : Bool) (s0 : State) : Res :=
  let s := ringBell tile false s0
  completes s0 (match portOfTile s tile with
    | some (slot, k) =>
      if linkOf s tile = 4 then setLink tile 3 s
      else if isVirtualHub s slot && linkOf s tile = 7 && wakeEnabled s slot k funcWake then
        let s1 := (setLink tile 8 s).emit (.wake slot)
        if wakePermit s slot then setIrq slot 4 s1 else s1
      else s
    | none => s)

/-- U3_EXIT_LFPS (R278); the same signalling takes a link out of U1 or U2 (R275). -/
def execU3ExitLfps (tile : Fin 14) (s0 : State) : Res :=
  let s := ringBell tile false s0
  completes s0 (if linkOf s tile = 5 || linkOf s tile = 6 then setLink tile 3 s
    else if linkOf s tile = 7 && s.rd (R.TILE_STATUS.SPEED tile) ≥ 4 then
      match slotOfUpTile s tile with
      | some slot => resumeHub slot (setLink tile 3 s)
      | none => changePort tile (fun p => { p with selective := false, cLink := true }) (setLink tile 3 s)
    else s)

/-- Discards of a TT, each counted and an occurrence of HUB_TT. -/
def discardSplits (slot : Nat) : Nat → State → State
  | 0, s => s
  | n + 1, s => discardSplits slot n (occur 160 (s.bump (R.HUB_COUNTS.TT_DISCARDS slot) 1))
/-- The TT of the other alternate, which finishes what it has in flight (R282). -/
def ttBefore (s : State) (slot t : Nat) : Nat := if Tab.look false s.hubAlt slot then (downTiles s slot).headD t else t
/-- TT_SPLIT_DISCARD (R270, R282): completed non-periodic splits free their buffers, those in flight in the other
alternate's TT there; the periodic splits beyond 16 and the late ones are discarded; two non-periodic buffers of 64 bytes
fill. -/
def execTtSplitDiscard (splits : PortSplits) (s : State) : Res :=
  let slot := splits.slot
  let n := splits.splits
  completes s (match tileOfPort s slot splits.port with
    | some t =>
      let old := ttBefore s slot t
      let free := fun (m : Nat) (x : Translator) => { x with buffers := x.buffers.drop m }
      let s1 := if old = ttOf s slot t then s else putTt old (free n.doneOther (Tab.look Translator.reset s.tts old)) s
      let x := free n.done (Tab.look Translator.reset s.tts (ttOf s slot t))
      let held := min n.periodic 16
      let late := min n.late held
      if x.stopped || !hasTts s slot then s1
      else discardSplits slot (n.periodic - held + late)
        (putTt (ttOf s slot t) { x with periodic := held - late, buffers := (x.buffers ++ n.bulk.map (List.take 64)).take 2 } s1)
    | none => s)
/-- SCHEDULE_MISS (R271). -/
def execScheduleMiss (slot : Fin 8) (s : State) : Res := completes s (occur 161 (s.bump (R.HUB_COUNTS.SCHEDULE_MISSES slot) 1))

/-- An UP tile whose grove is ready connects (R262): SuperSpeed first, then USB 2.0; an attempt that follows a failed
training waits for its backoff (R202). -/
def upConnect (t : Nat) (up : UpConnect) (s : State) : State :=
  match slotOfUpTile s t with
  | none => s
  | some slot =>
    if !s.isSet (R.GROVE_STATUS.READY slot) || tilePruned s t || tileHeldDown s t || upLinked s slot
        || Tab.look false s.backoff (tileSrc t 6) then s
    else
      let super := s.isSet (R.TILE_CFG.SUPERSPEED t)
      let failed := super && up.trainingFailed
      let s1 := if failed then failOrRetry (tileSrc t 6) id s else s
      let speed := if super && !up.trainingFailed then up.speed.val else min up.speed.val 3
      if speed = 0 then setLink t 1 s1
      else
        let s2 := if failed then s1 else retryEnd (tileSrc t 6) s1
        showFunction slot speed ((setSpeed t speed (setLink t 3 s2)).wr (R.HUB_SELF.UP_SPEED slot) speed)

/-- The retry of a link's training or reset after its backoff (R202, R262, R268, R269): an UP tile's next connect attempt, a
DOWN port's failed reset, or receiver detection again where training failed. -/
def retryLink (t : Nat) (up : UpConnect) (s : State) : State :=
  if (slotOfUpTile s t).isSome then (if attached s t || !configured s then upConnect t up s else s)
  else match portOfTile s t with
    | some (slot, k) =>
      if (portOf s slot k).failed != 0 then beginReset slot k (portOf s slot k).failed t s
      else if awaitsConnect s t then changePort t (fun p => { p with watch := false }) s else s
    | none => s

/-- A port's status and change words (layout PRESUMED: USB 2.0 and USB 3.2), as one part of the hub shows them: the
connection of a device stands at the part that the device uses. -/
def portWords (s : State) (slot k : Nat) (ss : Bool) : List Nat :=
  let p := portOf s slot k
  let on := fun (f : Nat → Nat → Fld) => b2n (s.isSet (f slot k))
  let sp := s.rd (R.HUB_PORT.SPEED slot k)
  let current := 8 * on R.HUB_PORT.OVER_CURRENT
  let here := sp = 0 || (4 ≤ sp) = ss
  let base := if here then on R.HUB_PORT.CONNECT + 2 * on R.HUB_PORT.ENABLED + current + 16 * b2n (p.resetting != 0) else current
  if ss then
    let link := if !here then 5 else match s.rd (R.HUB_PORT.LINK slot k) with
      | 0 => 4 | 1 => 5 | 2 => 9 | 3 => 0 | 5 => 1 | 6 => 2 | 7 => 3 | 8 => 8 | 9 => 7 | _ => 6
    leBytes 2 (base + 32 * link + 512 * on R.HUB_PORT.POWER)
      ++ leBytes 2 (b2n p.cConn + 8 * b2n p.cOver + 16 * b2n p.cReset + 32 * b2n p.cWarm + 64 * b2n p.cLink)
  else
    leBytes 2 (base + 4 * b2n (here && s.isSet (R.HUB_PORT.SUSPEND slot k)) + 256 * on R.HUB_PORT.POWER + 512 * b2n (sp = 1)
        + 1024 * b2n (sp = 3) + 2048 * b2n (p.test != 0))
      ++ leBytes 2 (b2n p.cConn + 4 * b2n p.cSuspend + 8 * b2n p.cOver + 16 * b2n p.cReset)
/-- The device descriptor of a part (Table 13-3): bcdDevice and the string indexes are free values. -/
def deviceDescriptor (s : State) (slot : Nat) (ss : Bool) : List Nat :=
  [18, 1] ++ leBytes 2 (if ss then 0x0320 else 0x0210) ++ [9, 0, if ss then 3 else 2, if ss then 9 else 64]
    ++ leBytes 2 (s.rd (R.HUB_ID.VENDOR slot)) ++ leBytes 2 (s.rd (R.HUB_ID.PRODUCT slot)) ++ leBytes 2 (s.freeVal 0)
    ++ [s.freeVal 1 % 256, s.freeVal 2 % 256, s.freeVal 3 % 256, 1]
/-- The device qualifier of the USB 2.0 part (Table 13-3; layout PRESUMED: USB 2.0). -/
def hubQualifier : List Nat := [10, 6] ++ leBytes 2 0x0210 ++ [9, 0, 2, 64, 1, 0]
/-- The hub descriptor of a part (Table 13-3, R506): the ports after the DOWN tiles are not removable; bHubContrCurrent and
bHubHdrDecLat are free values. -/
def hubDescriptor (s : State) (slot : Nat) (ss : Bool) : List Nat :=
  let ports := s.rd (R.HUB_SELF.PORTS slot)
  let removable := (List.range (ports + 1)).foldl (fun a k => if isDevicePort s slot k then setBit a k else a) 0
  let head := [ports, 0x0D, 0, 0x32, s.freeVal 0 % 256]
  if ss then [12, 0x2A] ++ head ++ [s.freeVal 1 % 256] ++ leBytes 2 400 ++ leBytes 2 removable
  else
    let n := ports / 8 + 1
    [7 + 2 * n, 0x29] ++ head ++ leBytes n removable ++ List.replicate n 0xFF
/-- Clear one change bit of a port. -/
def clearPortChange (change : Nat) (p : HubPort) : HubPort :=
  match change with
  | 0 => { p with cConn := false }
  | 1 => { p with cReset := false }
  | 2 => { p with cOver := false }
  | 3 => { p with cSuspend := false }
  | 4 => { p with cLink := false }
  | 5 => { p with cWarm := false }
  | _ => p
/-- Descriptors (layout PRESUMED: USB 2.0 and USB 3.2): an interface, an endpoint, a SuperSpeed endpoint's companion, and a
configuration, of a speed in use (2) or of the other one (7), about its interfaces. -/
def interfaceDesc (num alt endpoints cls sub proto : Nat) (index : Nat) : List Nat := [9, 4, num, alt, endpoints, cls, sub, proto, index % 256]
def endpointDesc (addr attr size interval : Nat) : List Nat := [7, 5, addr, attr] ++ leBytes 2 size ++ [interval]
def companionDesc (burst attr perInterval : Nat) : List Nat := [6, 0x30, burst, attr] ++ leBytes 2 perInterval
def configDesc (type interfaces index attributes power : Nat) (body : List Nat) : List Nat :=
  [9, type] ++ leBytes 2 (9 + body.length) ++ [interfaces, 1, index % 256, attributes, power] ++ body
/-- The speed that the upstream link runs at is SuperSpeed. -/
def upSuper (s : State) (slot : Nat) : Bool := 4 ≤ s.rd (R.HUB_SELF.UP_SPEED slot)
/-- The speed that the USB 2.0 part runs at, and the other one that it can (2 full, 3 high): beside a SuperSpeed link it runs
at high speed (PRESUMED: USB 3.2). -/
def usb2Speed (s : State) (slot : Nat) (other : Bool) : Nat := if (s.rd (R.HUB_SELF.UP_SPEED slot) = 2) = other then 3 else 2
/-- A part's configuration (Table 13-3), or the USB 2.0 part's at its other speed: self-powered, remote wake, no bus power;
the status-change endpoint in each alternate. The string indexes are free values. -/
def hubConfiguration (s : State) (slot : Nat) (ss other : Bool) : List Nat :=
  let bytes := s.rd (R.HUB_SELF.PORTS slot) / 8 + 1
  configDesc (if other then 7 else 2) 1 (s.freeVal 0) 0xE0 0
    (if ss then
      interfaceDesc 0 0 1 9 0 0 (s.freeVal 1) ++ endpointDesc 0x81 0x13 2 8 ++ companionDesc 0 0 2
    else
      let ep := endpointDesc 0x81 3 bytes (if usb2Speed s slot other = 3 then 12 else 255)
      interfaceDesc 0 0 1 9 0 1 (s.freeVal 1) ++ ep ++ interfaceDesc 0 1 1 9 0 2 (s.freeVal 2) ++ ep)
/-- The BOS: LPM with BESL at USB 2.0 (Tables 13-1, 13-3), the exit latencies of Table 13-5 at SuperSpeed, the one-lane
10 Gb/s sublinks at Gen 2 (layout PRESUMED: USB 3.2), and a container ID of free values. -/
def bosDescriptor (s : State) (slot : Nat) : List Nat :=
  let lpm : List Nat := [7, 16, 2, 6, 0, 0, 0]
  let super := if upSuper s slot then [10, 16, 3, 0] ++ leBytes 2 14 ++ [1, 10] ++ leBytes 2 2000 else []
  let gen2 := s.rd (R.HUB_SELF.UP_SPEED slot) = 5
  let plus := if gen2 then [20, 16, 10, 0] ++ leBytes 4 1 ++ leBytes 2 0x1100 ++ [0, 0] ++ leBytes 4 0x000A4030 ++ leBytes 4 0x000A40B0 else []
  let caps := lpm ++ super ++ plus ++ [20, 16, 4, 0] ++ (List.range 16).map (fun i => s.freeVal i % 256)
  [5, 15] ++ leBytes 2 (5 + caps.length) ++ [2 + b2n (upSuper s slot) + b2n gen2] ++ caps
/-- A port that a request names: 1 to n, the device function's, or a remote one. -/
def portNamed (s : State) (slot k : Nat) : Bool := portPresent s slot k || isDevicePort s slot k

/-- The part of a hub that HUB_SELF shows: the one of the speed its link runs at. The USB 2.0 part beside a SuperSpeed link
keeps its own record. -/
def mainPart (s : State) (slot : Nat) (part : UsbPart) : Bool := (part = .usb3) = upSuper s slot
def partKey (s : State) (slot : Nat) (part : UsbPart) : Nat :=
  if part = .function then 2 * slot + 1 else if mainPart s slot part then 2 * slot else 32 + slot
def usbPart (s : State) (slot : Nat) (part : UsbPart) : UsbDev := Tab.look UsbDev.reset s.usbDevs (partKey s slot part)
def putUsbPart (slot : Nat) (part : UsbPart) (x : UsbDev) (s : State) : State :=
  { s with usbDevs := Tab.put UsbDev.reset s.usbDevs (partKey s slot part) x }
/-- Whether a part's device works by SuperSpeed rules. -/
def partSuper (s : State) (slot : Nat) (part : UsbPart) : Bool := part = .usb3 || (part = .function && upSuper s slot)
/-- A part of the hub is configured. -/
def partConfigured (s : State) (slot : Nat) (part : UsbPart) : Bool :=
  if mainPart s slot part then s.rd (R.HUB_SELF.STATE slot) = 2 else (usbPart s slot part).configured
/-- A class request reaches a part of the hub, as `hubRequest`. -/
def partRequest (slot : Nat) (part : UsbPart) (f : State → State) (s : State) : State :=
  if mainPart s slot part then hubRequest slot f s
  else if (usbPart s slot part).configured then f s else stallPort slot s
/-- The remote wake of a part's device, as the host has set it; beside a SuperSpeed link the USB 2.0 part shows the hub's. -/
def partWake (s : State) (slot : Nat) (part : UsbPart) : Bool :=
  if part = .function then Tab.look false s.funcWake slot else s.isSet (R.HUB_SELF.WAKE_EN slot)
def setPartWake (slot : Nat) (part : UsbPart) (on : Bool) (s : State) : State :=
  if part = .function then { s with funcWake := Tab.put false s.funcWake slot on } else s.wrB (R.HUB_SELF.WAKE_EN slot) on
/-- Interfaces and endpoints of a configured device: interface 0 and the status-change endpoint of a hub; DESIGN CHOICE: of
the function, whose endpoint addresses the spec does not give, any endpoint (log 219). -/
def hasInterface (last i : Nat) (d : UsbDev) : Bool := d.configured && i ≤ last
def hasEndpoint (part : UsbPart) (a : Nat) (d : UsbDev) : Bool := a % 16 = 0 || (d.configured && (part = .function || a = 0x81))
/-- The requests that every device takes alike: address, latencies, link power, endpoint halts, the suspension of a function
and the status of the device, an interface or an endpoint (R265; layout PRESUMED: USB 2.0 and USB 3.2). `last` is the last
interface. -/
def commonRequest (slot : Nat) (part : UsbPart) (last : Nat) (r : UsbRequest) (s : State) : State :=
  let d := usbPart s slot part
  let put (x : UsbDev) : State := putUsbPart slot part x s
  let super (f : State) : State := if partSuper s slot part then f else stallPort slot s
  let reply := fun (n : Nat) => s.emit (.usb slot (leBytes 2 n))
  match r with
  | .linkEnable u2 on => if d.configured then super (put (if u2 then { d with u2 := on } else { d with u1 := on })) else stallPort slot s
  | .setSel v => super (put { d with sel := v.take 6 })
  | .setIsochDelay n => super (put { d with isoDelay := n % 65536 })
  | .deviceRemoteWakeup on => if partSuper s slot part then stallPort slot s else setPartWake slot part on s
  | .functionSuspend i o =>
    super (if hasInterface last i d then setPartWake slot part (bit o 1) (put { d with asleep := bit o 0 }) else stallPort slot s)
  | .endpointHalt a on =>
    if !hasEndpoint part a d then stallPort slot s
    else put { d with halted := (if on && a % 16 != 0 then [a] else []) ++ d.halted.filter (fun x => x != a) }
  | .getStatus .device =>
    reply (1 + (if partSuper s slot part then 4 * b2n d.u1 + 8 * b2n d.u2 else 2 * b2n (partWake s slot part)))
  | .getStatus (.interface i) =>
    if !hasInterface last i d then stallPort slot s
    else reply (if partSuper s slot part && i = 0 then 1 + 2 * b2n (partWake s slot part) else 0)
  | .getStatus (.endpoint a) => if hasEndpoint part a d then reply (b2n (d.halted.contains a)) else stallPort slot s
  | .bosDescriptor => (s.emit (.usb slot (bosDescriptor s slot))).drew 16
  | _ => stallPort slot s
/-- A hub's part takes its address or configuration: HUB_SELF.STATE follows the part of the link's speed. -/
def putHubState (slot : Nat) (part : UsbPart) (state : Nat) (d : UsbDev) (s : State) : State :=
  putUsbPart slot part d (if mainPart s slot part then s.wr (R.HUB_SELF.STATE slot) state else s)
/-- A part returns to its default state: the hub as a whole where it is the part of the link's speed. -/
def partDefault (slot : Nat) (part : UsbPart) (s : State) : State :=
  if mainPart s slot part then hubDefault slot s else putUsbPart slot part UsbDev.reset s
/-- A request to a part of the hub itself (R263, R265, R270). -/
def hubStandard (slot : Nat) (part : UsbPart) (r : UsbRequest) (s : State) : State :=
  let d := usbPart s slot part
  let ss := part = .usb3
  let configured := partConfigured s slot part
  let default := if mainPart s slot part then s.rd (R.HUB_SELF.STATE slot) = 0 else d.address = 0 && !d.configured
  let reply := fun (bs : List Nat) => s.emit (.usb slot bs)
  match r with
  | .setAddress a =>
    if a = 0 then partDefault slot part s
    else if configured then s else putHubState slot part 1 { d with address := a % 128 } s
  | .setConfiguration v =>
    if default then stallPort slot s
    else if v = 0 then putHubState slot part 1 { UsbDev.reset with address := d.address } (partDefault slot part s)
    else if v = 1 then putHubState slot part 2 { d with configured := true, halted := [] } s else stallPort slot s
  | .getConfiguration => reply [b2n configured]
  | .setInterface i a =>
    if !configured || i != 0 || 1 < a || (a = 1 && ss) then stallPort slot s
    else
      let s1 := putUsbPart slot part { d with halted := [] } s
      if ss then s1 else { s1 with hubAlt := Tab.put false s1.hubAlt slot (a = 1) }
  | .getInterface i => if configured && i = 0 then reply [b2n (!ss && Tab.look false s.hubAlt slot)] else stallPort slot s
  | .deviceDescriptor => (reply (deviceDescriptor s slot ss)).drew 4
  | .configurationDescriptor => (reply (hubConfiguration s slot ss false)).drew 3
  | .deviceQualifier => if ss then stallPort slot s else reply hubQualifier
  | .otherSpeed => if ss then stallPort slot s else (reply (hubConfiguration s slot ss true)).drew 3
  | .hubDescriptor => (reply (hubDescriptor s slot ss)).drew 2
  | .hubStatus => partRequest slot part (fun s => s.emit (.usb slot [0, 0, 0, 0])) s
  | .clearHubChange => partRequest slot part id s
  | .portStatus k =>
    partRequest slot part (fun s => if portNamed s slot k then s.emit (.usb slot (portWords s slot k ss)) else stallPort slot s) s
  | .clearChange k c =>
    partRequest slot part (fun s => if portNamed s slot k then modPort slot k (clearPortChange c) s else stallPort slot s) s
  | .clearPortEnable k =>
    if ss then stallPort slot s
    else partRequest slot part (fun s =>
      if !portNamed s slot k then stallPort slot s
      else if portSuper s slot k then s else setPortLink slot k 0 (s.off (R.HUB_PORT.ENABLED slot k))) s
  | _ => commonRequest slot part 0 r s

/-- The function's mass storage interface is present; the number of its vendor interface (R266). -/
def hasStorage (s : State) (slot : Nat) : Bool := !(lunDrums s slot).isEmpty
def vendorInterface (s : State) (slot : Nat) : Nat := if hasStorage s slot then 1 else 0
/-- UAS is offered at high speed and SuperSpeed only (R262, R266). -/
def offersUas (s : State) (slot sp : Nat) : Bool := hasStorage s slot && 3 ≤ sp
/-- A bulk endpoint of the function at a speed, with `streams` (as a power of two) at SuperSpeed; its address is a free
value. -/
def bulkEndpoint (s : State) (sp k streams : Nat) (isIn : Bool) : List Nat :=
  endpointDesc (s.freeVal k % 16 + (if isIn then 128 else 0)) 2 (if 4 ≤ sp then 1024 else if sp = 3 then 512 else 64) 0
    ++ (if 4 ≤ sp then companionDesc (s.freeVal (k + 1) % 16) streams 0 else [])
/-- The function's device descriptor, of which the spec gives the connection's speed only: its release, class, identity and
strings are free values. -/
def functionDevice (s : State) (slot : Nat) : List Nat :=
  let v := fun k => s.freeVal k % 256
  [18, 1, v 0, v 1, v 2, v 3, v 4, if upSuper s slot then 9 else 64] ++ (List.range 9).map (fun i => v (5 + i)) ++ [1]
/-- The function's configuration at a speed (R266): mass storage Bulk-Only, UAS as alternate 1 with its four pipes, and the
vendor control function with its interrupt IN endpoint. -/
def functionConfiguration (s : State) (slot type sp : Nat) : List Nat :=
  let pipe (id : Nat) (bs : List Nat) : List Nat := bs ++ [4, 0x24, id, 0]
  let storage := if !hasStorage s slot then []
    else interfaceDesc 0 0 2 8 6 0x50 (s.freeVal 1) ++ bulkEndpoint s sp 2 0 true ++ bulkEndpoint s sp 4 0 false
      ++ (if offersUas s slot sp then
          interfaceDesc 0 1 4 8 6 0x62 (s.freeVal 6) ++ pipe 1 (bulkEndpoint s sp 7 0 false) ++ pipe 2 (bulkEndpoint s sp 9 4 true)
            ++ pipe 3 (bulkEndpoint s sp 11 4 true) ++ pipe 4 (bulkEndpoint s sp 13 4 false)
        else [])
  configDesc type (vendorInterface s slot + 1) (s.freeVal 0) (s.freeVal 15 % 256) (s.freeVal 18 % 256) (storage
    ++ interfaceDesc (vendorInterface s slot) 0 1 0xFF 0 0 (s.freeVal 16)
    ++ endpointDesc (128 + s.freeVal 17 % 16) 3 4 (if sp = 2 then 1 else 4) ++ (if 4 ≤ sp then companionDesc 0 0 4 else []))
/-- A request to the embedded device function (R266), or to the TILE_0 device of an unconfigured Olulo, which is the vendor
control function alone (R34). -/
def functionStandard (slot : Nat) (r : UsbRequest) (s : State) : State :=
  let d := usbDevOf s slot true
  let sp := s.rd (R.HUB_SELF.UP_SPEED slot)
  let put (x : UsbDev) : State := putUsbDev slot true x s
  let reply := fun (bs : List Nat) => s.emit (.usb slot bs)
  match r with
  | .setAddress a => put { d with address := a % 128 }
  | .setConfiguration v =>
    if v = 0 then putUsbDev slot true { UsbDev.reset with address := d.address } (functionDefault slot s)
    else if v = 1 then put { d with configured := true, alt := 0, halted := [] } else stallPort slot s
  | .getConfiguration => reply [b2n d.configured]
  | .setInterface i a =>
    if !d.configured then stallPort slot s
    else if i = 0 && hasStorage s slot && (a = 0 || (a = 1 && offersUas s slot sp)) then put { d with alt := a, halted := [] }
    else if i = vendorInterface s slot && a = 0 then put { d with halted := [] } else stallPort slot s
  | .getInterface i =>
    if !d.configured || vendorInterface s slot < i then stallPort slot s
    else reply [if i = 0 && hasStorage s slot then d.alt else 0]
  | .deviceDescriptor => (reply (functionDevice s slot)).drew 14
  | .configurationDescriptor => (reply (functionConfiguration s slot 2 sp)).drew 19
  | .deviceQualifier =>
    if upSuper s slot then stallPort slot s
    else (reply ([10, 6] ++ (List.range 5).map (fun k => s.freeVal k % 256) ++ [64, 1, 0])).drew 5
  | .otherSpeed => if upSuper s slot then stallPort slot s else (reply (functionConfiguration s slot 7 (5 - sp))).drew 19
  | _ => commonRequest slot .function (vendorInterface s slot) r s
/-- An upstream link that carries requests. -/
def upActive (s : State) (slot : Nat) : Bool :=
  match upTileOf s slot with
  | some t => 3 ≤ linkOf s t && linkOf s t ≤ 6
  | none => false
/-- The device function runs: its host has configured it, and the upstream link carries traffic (R266). -/
def functionRuns (s : State) (slot : Nat) : Bool := upActive s slot && (usbDevOf s slot true).configured
/-- INTERRUPT_IN_POLL (R53): at the first poll after news, of a function that runs. -/
def execInterruptInPoll (slot : Fin 8) (s : State) : Res :=
  completes s (if Tab.look false s.irqNews slot && functionRuns s slot then
      { s.emit (.usb slot (leBytes 4 (irqWord s slot))) with irqNews := Tab.put false s.irqNews slot false }
    else s)
/-- The DFU device's configuration (R172): one interface, DFU mode, with three alternate settings and the functional
descriptor; its power and strings are free values. -/
def dfuConfiguration (s : State) : List Nat :=
  let alt (a : Nat) : List Nat := interfaceDesc 0 a 0 0xFE 1 2 (s.freeVal (1 + a))
  configDesc 2 1 (s.freeVal 0) (s.freeVal 4 % 256) (s.freeVal 7 % 256) (alt 0 ++ alt 1 ++ alt 2
    ++ [9, 0x21, 5, s.freeVal 5 % 256, s.freeVal 6 % 256] ++ leBytes 2 4096 ++ leBytes 2 0x0110)
/-- A request of DFU 1.1 that its state does not allow (R172): a stall, and dfuERROR with errSTALLEDPKT (15) where there is
none yet. -/
def dfuStalls (s : State) : State :=
  (if s.recovery.state = 10 then s else { s with recovery := { s.recovery with state := 10, status := 15 } }).emit (.usbStall 0)
/-- A standard or DFU request to TILE_0 in recovery (R172; DFU 1.1): its identity and the poll timeout of DFU_GETSTATUS are free
values; DFU_CLRSTATUS ends dfuERROR, and DFU_ABORT a download. -/
def dfuStandard (r : UsbRequest) (s : State) : State :=
  let d := usbDevOf s 8 false
  let put (x : UsbDev) : State := putUsbDev 8 false x s
  let reply := fun (bs : List Nat) => s.emit (.usb 0 bs)
  let idle := { s with recovery := { s.recovery with state := 2, status := 0, next := 0, word := [] } }
  match r with
  | .setAddress a => put { d with address := a % 128 }
  | .setConfiguration v => if v ≤ 1 then put { d with configured := v = 1 } else s.emit (.usbStall 0)
  | .getConfiguration => reply [b2n d.configured]
  | .setInterface i a =>
    if d.configured && i = 0 && a < 3 then { s with recovery := { s.recovery with alt := a } } else s.emit (.usbStall 0)
  | .getInterface i => if d.configured && i = 0 then reply [s.recovery.alt] else s.emit (.usbStall 0)
  | .getStatus .device => reply [0, 0]
  | .getStatus (.interface i) => if d.configured && i = 0 then reply [0, 0] else s.emit (.usbStall 0)
  | .getStatus (.endpoint a) => if a % 16 = 0 then reply [0, 0] else s.emit (.usbStall 0)
  | .deviceDescriptor => (reply ([18, 1, 0, 2, 0, 0, 0, 64] ++ (List.range 9).map (fun k => s.freeVal k % 256) ++ [1])).drew 9
  | .configurationDescriptor => (reply (dfuConfiguration s)).drew 8
  | .dfuGetStatus => (reply ([s.recovery.status] ++ leBytes 3 (s.freeVal 0 % 2 ^ 24) ++ [s.recovery.state, 0])).drew 1
  | .dfuGetState => reply [s.recovery.state]
  | .dfuClrStatus => if s.recovery.state = 10 then idle else dfuStalls s
  | .dfuAbort => if s.recovery.state = 10 then dfuStalls s else idle
  | _ => s.emit (.usbStall 0)
/-- STANDARD_REQUEST (R34, R172, R260, R263, R265, R266): no part that the link's speed does not run answers. -/
def execStandardRequest (slot : Fin 8) (part : UsbPart) (request : UsbRequest) (s : State) : Res :=
  completes s (if inRecovery s then (if slot.val = 0 && linkOf s 0 = 3 then dfuStandard request s else s)
    else if !upActive s slot then s
    else if part = .function then (if configured s && !isVirtualHub s slot then s else functionStandard slot request s)
    else if !isVirtualHub s slot || (part = .usb3 && !upSuper s slot) then s
    else hubStandard slot part request s)

end Sys2Proof.Machine
end

