-- ==== Sys2Proof/Machine/Trunk.lean ====
section
/-! DEFINITION. The trunk's ports: training, codewords, frames sent and received, replay, keys and link loss
(chapter 23). -/
namespace Sys2Proof.Machine

/-- A link loss (R487), with its occurrence of TRUNK_PORT_DOWN. -/
def linkLoss (p : Nat) (s : State) : State := occur 364 (linkLossState p s)

/-- The frame key from member a to member b of a link (R498). -/
def frameKey (x : TrunkPort) (own a b gen epoch : Nat) : List Nat :=
  let salt := if own = min a b then x.nonce ++ x.peerNonce else x.peerNonce ++ x.nonce
  hkdf salt x.secret ([0x50, 0x4C, 0x59, 0x2D, 0x46, 0x52, 0x41, 0x4D, 0x45, a, b] ++ beBytes 4 gen ++ [epoch])
def nextEpoch (e : Nat) : Nat := if e ≥ 255 then 1 else e + 1

/-- Fill slots from what waits; a frame that the 1,024-frame limit holds is a stall, counted once (R480). -/
def pump (p : Nat) (fuel : Nat) (s : State) : State :=
  let t := fill p fuel s
  let x := trunkPort t p
  if portState t p != 3 || sendFc t p ≥ 2 ^ 40 - 1 || (x.control = [] && x.payload = []) || outstanding t p < 1024 || x.stalled then t
  else occur 362 ((putTrunk p { x with stalled := true } t).bump (R.PORT_COUNTS_B.STALLS p) 1)
def pumpAll (s : State) : State :=
  (List.range 4).foldl (fun t p => pump p ((trunkPort t p).control.length + (trunkPort t p).payload.length + 1) t) s

/-- Resend outstanding frames from a SEQ onward (R482): a frame already resent 16 times is a link loss. -/
def resendFrom (p a : Nat) (s : State) : State :=
  let x := trunkPort s p
  let again := x.replay.filter (fun e => (e.seq + 4096 - a) % 4096 < 1024)
  if portState s p != 3 then s
  else if again.any (fun e => e.resends ≥ 16) then linkLoss p s
  else
    again.foldl (fun t e => (emitFrame p e.seq e.frame t).bump (R.PORT_COUNTS.RESENDS p) 1)
      (putTrunk p { x with replay := x.replay.map (fun e => if (e.seq + 4096 - a) % 4096 < 1024 then { e with resends := e.resends + 1 } else e) } s)
/-- An ACK frees every frame below it (R480). -/
def takeAck (p a : Nat) (s : State) : State :=
  let d := (a + 4096 - txOldest s p) % 4096
  if d = 0 || d > outstanding s p then s
  else
    let x := trunkPort s p
    (putTrunk p { x with replay := x.replay.drop d, stalled := false } s).wr (R.PORT_SEQ.TX_OLDEST p) a
/-- A gap: one NAK for this EXPECTED, at once on a KEEPALIVE (R482). -/
def sendNak (p : Nat) (s : State) : State :=
  let e := s.rd (R.PORT_RX.EXPECTED p)
  let x := trunkPort s p
  if x.nakFor = some e then s
  else sendKeepalive p 4 ((putTrunk p { x with nakFor := some e } s).bump (R.PORT_COUNTS.NAKS_SENT p) 1)

/-- Header fields within Table 23-5 for a frame that is not GRAFT, of a given TYPE. -/
def headerGood (ty : Nat) (f : List Nat) : Bool :=
  let flags := f.getD 1 0
  let sequenced := ty = 1 || ty = 2
  f.getD 0 0 = ty && flags < 16 && f.getD 3 0 < 16 && f.getD 5 0 < 16 && (sequenced || (f.getD 2 0 = 0 && f.getD 3 0 = 0))
    && !bit (f.getD 7 0) 3 && !bit (f.getD 7 0) 7 && f.getD 26 0 < 32 && ((f.drop 28).take 20).all (· = 0)
    && ((f.drop (49 + f.getD 27 0)).take (255 - f.getD 27 0)).all (· = 0)
/-- A frame's tag fails, or its header breaks Table 23-5 (R479, R485). -/
def authFails (p : Nat) (s : State) : State := occur 360 (s.bump (R.PORT_COUNTS.AUTH_FAILS p) 1)
/-- A frame is outside the window or copied (R481, R486). -/
def windowDiscard (p : Nat) (s : State) : State := occur 361 (s.bump (R.PORT_COUNTS.WINDOW_DISCARDS p) 1)

/-- The key that verifies an EPOCH at a port, and the least FC accepted in it. -/
def rxKeyFor (s : State) (p epoch : Nat) : Option (List Nat × Nat) :=
  let x := trunkPort s p
  if epoch = x.rxEpoch then some (x.rxKey, x.rxFc)
  else match x.oldEpoch with
    | some (e, fc, k) => if epoch = e then some (k, fc) else none
    | none => none
/-- The next key of the receiving direction, while the port holds a copy of SECRET (R486, R498). -/
def nextRxKey (s : State) (p : Nat) : Option (List Nat) :=
  let x := trunkPort s p
  if x.secret = [] then none
  else some (frameKey x (ownMember s) (s.rd (R.PORT_STATUS.PEER p)) (ownMember s)
    (if x.rxEpoch ≥ 255 then x.rxGen + 1 else x.rxGen) (nextEpoch x.rxEpoch))
/-- The highest FC verified in an EPOCH moves. -/
def noteFc (p epoch fc : Nat) (s : State) : State :=
  let x := trunkPort s p
  if epoch = x.rxEpoch then putTrunk p { x with rxFc := fc + 1 } s
  else match x.oldEpoch with
    | some (e, _, k) => putTrunk p { x with oldEpoch := some (e, fc + 1, k) } s
    | none => s
/-- The receiver switches to the next EPOCH; the old key stands until it is retired (R486). -/
def switchEpoch (p : Nat) (key : List Nat) (s : State) : State :=
  let x := trunkPort s p
  putTrunk p { x with oldEpoch := some (x.rxEpoch, x.rxFc, x.rxKey), rxEpoch := nextEpoch x.rxEpoch, rxFc := 0, rxKey := key
                      rxGen := if x.rxEpoch ≥ 255 then x.rxGen + 1 else x.rxGen } s

/-- What an arriving protected frame is: nothing here, discarded with its effect, or its 304 bytes in plaintext. -/
inductive Opened where
  | drop (t : State)
  | good (f : List Nat) (t : State)

/-- Verify a frame: its tag, its FC, its header, in this order (R479, R485, R486). An empty slot is no frame (R478). -/
def openFrame (p ty : Nat) (b : List Nat) (s : State) : Opened :=
  let st := portState s p
  let h := b.take 48
  let c := (b.drop 48).take 256
  let epoch := b.getD 6 0
  let fc := leVal ((b.drop 8).take 8)
  let nonce := [s.rd (R.PORT_STATUS.PEER p), (trunkPort s p).peerPort, epoch, 0] ++ beBytes 8 fc
  let verifies := fun k => gcmTag k nonce h c = (b.drop 304).take 16
  let open1 := fun (k : List Nat) (least : Nat) (t : State) =>
    let f := h ++ gcmCrypt k nonce c
    if fc < least then Opened.drop (windowDiscard p t)
    else if headerGood ty f then Opened.good f (noteFc p epoch fc t)
    else Opened.drop (authFails p (noteFc p epoch fc t))
  if engineFailed s || b.length != 320 || b.all (· = 0) || !(st = 2 || st = 3 || st = 5) then .drop s
  else if st = 2 then .drop (authFails p s)
  else match rxKeyFor s p epoch with
    | some (k, least) => if verifies k then open1 k least s else .drop (authFails p s)
    | none =>
      match nextRxKey s p with
      | some k => if epoch = nextEpoch (trunkPort s p).rxEpoch && verifies k then open1 k 0 (switchEpoch p k s) else .drop (authFails p s)
      | none => .drop (authFails p s)

/-- What every verified frame carries: limits, ACK, NAK and SLEEP (R480, R482, R483, R488). -/
def takeHeader (p : Nat) (f : List Nat) (s : State) : State :=
  let ack := leVal ((f.drop 4).take 2)
  let x := trunkPort s p
  let s1 := takeAck p ack (putTrunk p { x with limitP := leVal ((f.drop 16).take 2), limitC := leVal ((f.drop 18).take 2) } s)
  let s2 := if frameFlag f 2 then resendFrom p ack s1 else s1
  if frameFlag f 3 && portState s2 p = 3 then setPort p 5 s2 else s2

/-- Classify a verified sequenced frame by SEQ - EXPECTED (R481): whether it is accepted, and the state after. -/
def sequence (p : Nat) (f : List Nat) (s : State) : Bool × State :=
  let e := s.rd (R.PORT_RX.EXPECTED p)
  let d := (leVal ((f.drop 2).take 2) + 4096 - e) % 4096
  if d = 0 then
    let x := trunkPort s p
    (true, (putTrunk p { x with nakFor := none } s).wr (R.PORT_RX.EXPECTED p) ((e + 1) % 4096))
  else if d < 1024 then (false, sendNak p s)
  else if d ≥ 3072 then (false, sendKeepalive p 0 s)
  else (false, windowDiscard p s)
/-- What a forwarded frame keeps of what it came with: NAK and SLEEP are of the link that brought it (R478, R490). -/
def relayed (f : List Nat) : List Nat := f.take 1 ++ [f.getD 1 0 % 4] ++ f.drop 2
/-- Forward an accepted frame (R490). -/
def forwardFrame (p : Nat) (f : List Nat) (s : State) : State :=
  match routeTo s (frameDest f) with
  | some q => if q = p then freeBuffer p (frameType f = 2) (s.bump (R.PORT_COUNTS_B.NO_ROUTE p) 1) else enqueue q (some p) (relayed f) s
  | none => freeBuffer p (frameType f = 2) (s.bump (R.PORT_COUNTS_B.NO_ROUTE p) 1)

/-- A port has trained (R488): TRAINED with a fresh nonce and GRAFT counter, or UP again with its frames resent. -/
def portTrained (p : Nat) (s : State) : State :=
  let s0 := (widthLanes s p).foldl (fun t l => retryEnd (344 + 4 * l) t) s
  if portState s0 p = 4 then pump p 4096 (resendFrom p (txOldest s0 p) (setPort p 3 s0))
  else
    let x : TrunkPort := { TrunkPort.reset with nonce := (List.range 32).map (fun i => s0.freeVal i % 256), graftFc := s0.freeVal 32 % 2 ^ 63 }
    setPort p 2 (putTrunk p x (s0.drew 33))
/-- A port trains: its state, and the step of its attempt (0 SIGNAL to 3 CHECK). -/
def training (s : State) (p : Nat) : Bool := portState s p = 1 || portState s p = 4
def putStepOf (p k : Nat) (s : State) : State := putTrunk p { trunkPort s p with step := k } s

/-- TRAINING_ATTEMPT_START (R474): signal on every lane of the width. -/
def execTrainingAttemptStart (port : Fin 4) (s : State) : Res :=
  completes s (if training s port && (trunkPort s port).step = 0 && portWidth s port != 0
      && !(widthLanes s port).any (fun l => Tab.look false s.backoff (344 + 4 * l)) then putStepOf port 1 s else s)
/-- An attempt fails on a lane (R474, R202): LANE_TRAIN; a new attempt, at once or after the backoff, or the lane is FAILED. -/
def attemptFails (p l : Nat) (s : State) : State :=
  let was := portWidth s p
  failOrRetry (344 + 4 * l) (fun t =>
    if !laneUsable t l then t else
    let t1 := t.wr (R.TRUNK_LANE.STATE l) 5
    let fell := portWidth t1 p = 0
    let t2 := widthChanges p was t1
    if fell then occur 364 t2 else t2) (putStepOf p 0 s)
/-- CHECK begins: no codeword counts yet. -/
def beginCheck (p : Nat) (s : State) : State :=
  (widthLanes s p).foldl (fun t l => putLane l { laneOf t l with check := 0 } t) (putTrunk p { trunkPort s p with step := 3, checkBad := false } s)
/-- The lane on which a CHECK fails: the lowest for an uncorrectable codeword, else the first with more than ERR_LIMIT × 10
corrected symbols. -/
def checkFails (s : State) (p : Nat) : Option Nat :=
  if (trunkPort s p).checkBad then some (lowestLane s p)
  else (widthLanes s p).find? (fun l => (laneOf s l).check > 10 * s.rd R.TRUNK_LIMITS.ERR_LIMIT)
/-- TRAINING_STEP_COMPLETE (R474): the next step, or TRAINED, or the attempt fails in CHECK. A failed engine self-test keeps a
port from leaving TRAINED. -/
def execTrainingStepComplete (port : Fin 4) (s : State) : Res :=
  let k := (trunkPort s port).step
  completes s (if !training s port || k = 0 then s
    else if k < 2 then putStepOf port (k + 1) s
    else if k = 2 then beginCheck port s
    else match checkFails s port with
      | some l => attemptFails port l s
      | none => portTrained port s)
/-- TRAINING_STEP_LIMIT (R474): the attempt fails on the lane singled out, or on the port's lowest. -/
def execTrainingStepLimit (port : Fin 4) (lane : Option (Fin 4)) (s : State) : Res :=
  completes s (if training s port && (trunkPort s port).step != 0 then
      attemptFails port (match lane with
        | some x => if (widthLanes s port).contains x.val then x.val else lowestLane s port
        | none => lowestLane s port) s
    else s)
/-- LANE_REACQUIRED (R475): the port is UP again when every lane of its width has re-acquired; a failure trains it anew with
its fresh budget. -/
def execLaneReacquired (lane : Fin 4) (ok : Bool) (s : State) : Res :=
  let l := lane.val
  completes s (match portOfLane s l with
    | none => s
    | some p =>
      let st := portState s p
      if st = 2 && (laneOf s l).saved then
        let s1 := putLane l { laneOf s l with saved := false } s
        if ok then s1 else setPort p 1 (putStepOf p 0 s1)
      else if !(st = 5 || st = 6) || !(widthLanes s p).contains l then s
      else if !ok then
        if st = 5 then s else setPort p 4 (retryEnd (344 + 4 * l) (putStepOf p 0 (putLane l { laneOf s l with saved := false } s)))
      else
        let s1 := putLane l { laneOf s l with saved := false } s
        if st = 6 && (widthLanes s1 p).any (fun k => (laneOf s1 k).saved) then s1
        else pump p 4096 (resendFrom p (txOldest s1 p) (setPort p 3 s1)))
/-- LANE_SIGNAL_LOSS (R477): signal or clock lock is lost on a lane. -/
def execLaneSignalLoss (lane : Fin 4) (s : State) : Res :=
  let l := lane.val
  completes s (if !laneInUse s l then s
    else match portOfLane s l with
      | some p =>
        let s1 := occur (346 + 4 * l) s
        if (widthLanes s p).contains l && laneUsable s1 l then laneLost p s1 else s1
      | none => s)
/-- A codeword's slots are discarded for its constant or count; two in a row are LANE_SIGNAL on the lowest lane (R477). -/
def badCodeword (p : Nat) (s : State) : State :=
  let x := trunkPort s p
  if x.cwBad + 1 < 2 then putTrunk p { x with cwBad := x.cwBad + 1 } s
  else
    let l := lowestLane s p
    let s1 := occur (346 + 4 * l) (putTrunk p { x with cwBad := 0 } s)
    if laneUsable s1 l then laneLost p s1 else s1
/-- The symbols corrected on each lane of a port's width count against it, in CHECK too (R474, R477). -/
def countCorrected (p : Nat) (received symbols : List Nat) (s : State) : State :=
  let ls := widthLanes s p
  ls.zipIdx.foldl (fun t e =>
    let n := correctedOn ls.length e.2 received symbols
    let x := laneOf t e.1
    putLane e.1 { x with corrected := x.corrected + n, check := x.check + n } t) s
/-- A codeword passed without a count that can be trusted: the next one is due. -/
def TrunkPort.passedOne (x : TrunkPort) : TrunkPort := { x with cwNext := x.cwNext.map (fun c => (c + 1) % 4096) }
/-- CODEWORD_RECEIVED (R476, R477). The frames of its slots come as commands of their own. During a relock of CK_CORE it is
discarded without a FEC occurrence (R491). -/
def execCodewordReceived (port : Fin 4) (symbols : List Nat) (worst : Fin 4) (s : State) : Res :=
  let p := port.val
  completes s (if portState s p = 0 || portState s p = 6 then s
    else if s.rd (R.CLOCK_STATUS.GEN 0) = 1 then putTrunk p { trunkPort s p with cwNext := none } s
    else match codewordDecode symbols with
      | none =>
        let l := if (widthLanes s p).contains worst.val then worst.val else lowestLane s p
        occur (345 + 4 * l) ((putTrunk p { (trunkPort s p).passedOne with checkBad := true } s).bump (R.PORT_COUNTS_B.FEC_UNCORRECTABLE p) 1)
      | some w =>
        let s1 := countCorrected p symbols w s
        let x := trunkPort s1 p
        let data := codewordBits w
        let count := codewordCount data
        if bits data 0 8 != 0xC5 then badCodeword p (putTrunk p x.passedOne s1) else
        let bad := match x.cwNext with | some c => c != count % 4096 | none => false
        let s2 := putTrunk p { x with cwNext := some ((count + 1) % 4096), cwBad := if bad then x.cwBad else 0 } s1
        if bad then badCodeword p s2 else s2)

/-- REPLAY_TIMEOUT (R482): TX_OLDEST has not advanced for REPLAY_US; a second NAK may follow. -/
def execReplayTimeout (port : Fin 4) (s : State) : Res :=
  let s1 := putTrunk port { trunkPort s port with nakFor := none } s
  completes s (if portState s port = 3 && outstanding s port != 0 then resendFrom port (txOldest s port) s1 else s1)
/-- EPOCH_CHANGE (R486, R487): at FC 2^39 the next EPOCH under the next key, or TRUNK_KEY without one; at 2^40 - 1 the link
is lost. -/
def execEpochChange (port : Fin 4) (s : State) : Res :=
  let p := port.val
  let x := trunkPort s p
  completes s (if !(portState s p = 3 || portState s p = 5) || sendFc s p < 2 ^ 39 then s
    else if sendFc s p ≥ 2 ^ 40 - 1 then linkLoss p s
    else if x.secret = [] then occur 363 s
    else
      let e := s.rd (R.PORT_STATUS.EPOCH p)
      let gen := if e ≥ 255 then x.txGen + 1 else x.txGen
      setFc p 0 ((putTrunk p { x with txGen := gen
                                      txKey := frameKey x (ownMember s) (ownMember s) (s.rd (R.PORT_STATUS.PEER p)) gen (nextEpoch e) } s).wr
        (R.PORT_STATUS.EPOCH p) (nextEpoch e)))
/-- OLD_KEY_RETIRE (R486). -/
def execOldKeyRetire (port : Fin 4) (s : State) : Res := completes s (putTrunk port { trunkPort s port with oldEpoch := none } s)
/-- KEEPALIVE_DUE (R487). -/
def execKeepaliveDue (port : Fin 4) (s : State) : Res := completes s (if portState s port = 3 then pump port 4096 (sendKeepalive port 0 s) else s)
/-- KEEPALIVE_DEADLINE (R487): it runs only while UP, and not during a relock of CK_CORE (R491). -/
def execKeepaliveDeadline (port : Fin 4) (s : State) : Res :=
  completes s (if portState s port = 3 && s.rd (R.CLOCK_STATUS.GEN 0) != 1 then linkLoss port (occur 365 s) else s)
/-- RETRAIN_LIMIT (R487). -/
def execRetrainLimit (port : Fin 4) (s : State) : Res := completes s (if portState s port = 4 then linkLoss port s else s)
/-- WAKE_PATTERN_REPEAT (R489): on the lowest lane of the width, while frames wait for a sleeping peer. -/
def execWakePatternRepeat (port : Fin 4) (s : State) : Res :=
  let x := trunkPort s port
  completes s (if portState s port = 5 && (x.replay != [] || x.control != [] || x.payload != []) then s.emit (.wakePattern (lowestLane s port)) else s)
/-- ERROR_RATE_SECOND (R477): CORRECTED in thousands, and LANE_ERROR_RATE above ERR_LIMIT x 1,000. -/
def execErrorRateSecond (lane : Fin 4) (s : State) : Res :=
  let l := lane.val
  let n := (laneOf s l).corrected
  let s1 := (putLane l { laneOf s l with corrected := 0 } s).wr (R.TRUNK_LANE.CORRECTED l) (min (n / 1000) 65535)
  completes s (if laneInUse s l then (if n > 1000 * s.rd R.TRUNK_LIMITS.ERR_LIMIT then occur (347 + 4 * l) s1 else s1) else s)

/-- The hop latency bound in ns of a frame that waits for nothing, at width 1, by tempo (R491, Table 23-9). -/
def hopBound (tempo : Nat) : Nat := ([500, 300, 235, 210] : List Nat).getD tempo 210

/-- TRUNK_CMD RETRAIN (R487, Table 23-8, Table 23-11): a link loss of a port that has link state. -/
def retrainPort (p : Nat) (s : State) : State :=
  let st := portState s p
  if st = 2 || st = 3 || st = 4 then linkLoss p s else s
/-- RETRAIN (R493). -/
def execRetrain (slot : Fin 8) (port : Fin 4) (s : State) : Res := completes s (guardWrite slot 0x00600008 (retrainPort port) s)
/-- A port takes a lane back, or gets its first one (R472, R488). -/
def laneJoins (l : Nat) (s : State) : State :=
  match portOfLane s l with
  | some p =>
    let was := portWidth s p
    let s1 := retryEnd (344 + 4 * l) (s.wr (R.TRUNK_LANE.STATE l) 0)
    if portState s1 p = 0 then
      if portWidth s1 p != 0 && !s1.isSet R.TRUNK_CFG.HELD then setPort p 1 (putTrunk p TrunkPort.reset s1) else syncTrunk s1
    else widthChanges p was s1
  | none => s
/-- RESET_LANE (R474, R493): it clears FAILED. -/
def resetLane (l : Nat) (s : State) : State := if laneState s l = 5 then laneJoins l s else s
def execResetLane (slot : Fin 8) (lane : Fin 4) (s : State) : Res := completes s (guardWrite slot 0x00600008 (resetLane lane) s)

end Sys2Proof.Machine
end

