-- ==== Sys2Proof/Machine/Stack.lean ====
section
/-! DEFINITION. Stacks: grafting, routes, member states, the timeline, outstanding requests and the done ledger
(chapter 24). -/
namespace Sys2Proof.Machine

def stackState (s : State) : Nat := s.rd R.STACK_SELF.STATE
def memberCount (s : State) : Nat := s.rd R.STACK_SELF.COUNT
def listedGrafted (s : State) (m : Nat) : Bool := bit (s.rd R.STACK_MEMBERS.GRAFTED) m
/-- Another member that a request or a register access reaches: GRAFTED, with a route (R505). -/
def reachable (s : State) (m : Nat) : Bool := m < memberCount s && listedGrafted s m && (routeTo s m).isSome

/-- The other members that give a slot's grove a DOWN tile, in ascending number (R506). -/
def remoteMembers (s : State) (slot : Nat) : List Nat :=
  (List.range 8).filter (fun m => m != ownMember s && (match s.stream with
    | some t => t.recs.any (fun r => r.ty = 3 && r.member = m && r.u8 1 = 2 && some (r.u8 2) = groveOf s slot)
    | none => false))
/-- A remote port reports a connection while its member is GRAFTED and routed (R506). -/
def syncRemotePort (slot : Nat) (s : State) (e : Nat × Nat) : State :=
  let k := (downTiles s slot).length + 2 + e.2
  let on := reachable s e.1
  if s.isSet (R.HUB_PORT.CONNECT slot k) = on then s
  else modPort slot k (fun p => { p with cConn := true }) (s.wrB (R.HUB_PORT.CONNECT slot k) on)
def syncRemotePorts (s : State) : State :=
  (List.range 8).foldl (fun t slot =>
    if isVirtualHub t slot then ((remoteMembers t slot).zipIdx).foldl (syncRemotePort slot) t else t) s

/-- Requests outstanding to a member: issued, and not resolved (R513). -/
def openTo (s : State) (m : Nat) : Nat := (s.requests.filter (fun x => x.dest = m && x.port.isSome)).length
/-- Send one waiting request: its frames join the port's queue (R513). -/
def sendTrunkRequest (x : Request) (s : State) : State :=
  match routeTo s x.dest with
  | some p =>
    sendTo x.dest x.frames { s with requests := s.requests.map (fun y =>
      if y.id = x.id then { y with port := some p, frames := [], startId := (heardOf s x.dest).startId } else y) }
  | none => s
/-- Waiting requests go out in issue order, at most 256 to each member, while this member is GRAFTED and the executor is
reachable and not being relinked (R504, R513, R515). -/
def releaseRequests (s : State) : State :=
  if stackState s != 2 || s.rd R.DORMANT_STATUS.STATE != 0 then s
  else
    pumpAll (s.requests.foldl (fun t x =>
      if x.port.isNone && !x.lost && reachable t x.dest && !t.stack.relinking.contains x.dest && openTo t x.dest < 256 then sendTrunkRequest x t
      else t) s)
/-- A request's last tally is written from a port, unless a restart has cancelled it; the logical unit that issued it goes on
(R214, R443, R445, R521). -/
def endRequest (port : Nat) (x : Request) (t : Tally) (s : State) : State :=
  if x.cancelled then s
  else
    let s1 := postTally s port x.slot t
    match x.lun with
    | some l => settleLun 600 x.slot l (noteLunEnd x.slot l (word x.bytes 8) t s1)
    | none => s1
/-- A request ends without having run: its tally through SP_12 (R504). -/
def refuseRequest (status source : Nat) (x : Request) (s : State) : State :=
  endRequest 12 x (remoteTally s x status source) { s with requests := s.requests.filter (fun y => y.id != x.id) }
/-- A stroke for another member's drum is issued by a slot (R213, R430, R508): its memory is checked here. -/
def issueStroke (slot m n : Nat) (bytes : List Nat) (s : State) : State :=
  let st := freshStroke slot bytes none none
  let x := strokeRequest s slot m n bytes none
  let s1 := countId s
  let badMemory := match regionBytes st with | some len => (regionAddr s slot st.region st.offset len).isNone | none => false
  if badMemory then memRefuse slot (postTally s1 12 slot (remoteTally s x 4 0))
  else if stackState s = 4 then postTally s1 12 slot (remoteTally s x 2 376)
  else releaseRequests { s1 with requests := s1.requests ++ [x] }

/-- The member's state changes (Table 24-3, R504): tiles of remote groves, remote ports and held requests follow, and a
quarantined member's own requests end. -/
def setStackState (st : Nat) (s : State) : State :=
  if stackState s = st then s
  else
    let s0 := s.wr R.STACK_SELF.STATE st
    let s1 := setCause 376 (st = 4) (if st = 2 then s0.on R.START_STATUS.GRAFTED else s0)
    let s2 := if st = 4 then (s1.requests.filter (fun x => x.port.isNone)).foldl (fun t x => refuseRequest 2 376 x t) s1
      else s1.wr R.STACK_SELF.QCAUSE 0
    releaseRequests (syncRemotePorts ((List.range 14).foldl (fun t i => if tileRole t i = 2 then syncPath i t else t) s2))

/-- What a member's listing does to its state: 0 in no mask, 1 GRAFTED, 2 QUARANTINED or EXPELLED (Table 24-3). -/
def listedState (st listing : Nat) (locked : Bool) : Nat :=
  match listing with
  | 1 => if st = 2 then 2 else if locked then 2 else st
  | 2 => 4
  | _ => 1
def ownListing (s : State) : Nat :=
  let m := ownMember s
  if listedGrafted s m then 1
  else if bit (s.rd R.STACK_MEMBERS.QUARANTINED) m || bit (s.rd R.STACK_MEMBERS.EXPELLED) m then 2 else 0

/-- A new START_ID of a member (R501, R516): its SEQUENCEs start afresh, and requests to it stay unresolved. -/
def startChanged (m : Nat) (s : State) : State :=
  let mine := s.requests.filter (fun x => x.dest = m && x.port.isSome)
  let s1 := { s with requests := s.requests.filter (fun x => !(x.dest = m && x.port.isSome)) }.bump R.STACK_LEDGER.UNRESOLVED mine.length
  mine.foldl (fun t x =>
    match x.lost, x.lun with
    | true, none => t
    | true, some l => if x.cancelled then t else settleLun 600 x.slot l (noteLunEnd x.slot l (word x.bytes 8) (remoteTally t x 3 364) t)
    | false, _ => endRequest 12 x (remoteTally t x 3 364) t) s1
/-- Digest, STACK_COMPAT and START_ID of a member are heard. -/
def noteHeard (m : Nat) (digest : List Nat) (compat start : Nat) (s : State) : State :=
  let h := heardOf s m
  let s1 := if h.heard && h.startId != start then startChanged m s else s
  let h1 := if h.heard && h.startId = start then h else { h with seqL := none, seqJ := none, seqA := none }
  putHeard m { h1 with digest := digest, compat := compat, startId := start, heard := true } s1
/-- 16-bit serial arithmetic (R501). -/
def newer (seq : Nat) : Option Nat → Bool
  | none => true
  | some last => let d := (seq + 65536 - last) % 65536; 1 ≤ d && d < 32768

/-- The crown's decision on a member (R502): 0 none, 1 GRAFTED, 2 QUARANTINED, 3 EXPELLED. -/
def crownDecides (s : State) (m : Nat) : Nat :=
  let own := m = ownMember s
  let digest := if own then ownDigest s else (heardOf s m).digest
  let compat := if own then firmwareCompat s else (heardOf s m).compat
  if bit (s.rd R.STACK_MEMBERS.EXPELLED) m then 3
  else if !own && !(heardOf s m).joined then 0
  else if digest = ownDigest s && compat = streamCompat s then 1 else 2
/-- The masks of a member, by the crown's decision; the crown's own state follows (R503). -/
def crownMarks (m : Nat) (s : State) : State :=
  let d := crownDecides s m
  let g := s.rd R.STACK_MEMBERS.GRAFTED
  let q := s.rd R.STACK_MEMBERS.QUARANTINED
  let s1 := (s.wr R.STACK_MEMBERS.GRAFTED (if d = 1 then setBit g m else clearBit g m)).wr R.STACK_MEMBERS.QUARANTINED
    (if d = 2 then setBit q m else clearBit q m)
  let s2 := syncRemotePorts s1
  if m = ownMember s then
    let s3 := setStackState (if d = 1 then 2 else 4) s2
    if d = 1 then s3 else s3.wr R.STACK_SELF.QCAUSE 2
  else releaseRequests s2

/-- A GRAFT frame that verifies (R485, R486, R499): its body, and the state after. -/
def openGraft (p subtype : Nat) (b : List Nat) (s : State) : Opened :=
  let st := portState s p
  let x := trunkPort s p
  let port := if subtype = 1 then b.getD (48 + 39) 0 else x.peerPort
  let fc := leVal ((b.drop 8).take 8)
  let nonce := [b.getD 7 0 % 8, port, 0, 0] ++ beBytes 8 fc
  let good := gcmTag (graftKey (secretOf s)) nonce (b.take 304) [] = (b.drop 304).take 16
  if engineFailed s || b.length != 320 || b.all (· = 0) || !(st = 3 || st = 5 || (st = 2 && subtype = 1)) then .drop s
  else if !secretValid s || !good then .drop (occur 379 (s.bump (R.PORT_COUNTS.AUTH_FAILS p) 1))
  else if fc < x.rxGraftFc then .drop (windowDiscard p s)
  else
    let s1 := putTrunk p { x with rxGraftFc := fc + 1 } s
    if headerGood 5 b && b.getD 6 0 = 0 then
      if b.getD 48 0 = subtype then .good (b.drop 48) s1 else .drop s1
    else .drop (authFails p s1)

/-- Key a port (R498, R500): EPOCH 1 and GEN 0 in both directions, and UP. -/
def keyPort (p m : Nat) (s : State) : State :=
  let x := { trunkPort s p with secret := secretOf s }
  let y := { x with txKey := frameKey x (ownMember s) (ownMember s) m 0 1, rxKey := frameKey x (ownMember s) m (ownMember s) 0 1
                    rxEpoch := 1, rxFc := 0, limitP := (rxBuffers s).1, limitC := (rxBuffers s).2 }
  let s1 := (((putTrunk p y s).wr (R.PORT_STATUS.PEER p) m).on (R.PORT_STATUS.PEER_VALID p)).wr (R.PORT_STATUS.EPOCH p) 1
  releaseRequests (syncRemotePorts (sendLinks (setRoutes (sendHello p (setPort p 3 s1)))))
/-- HELLO_FRAME (R500). No port is keyed without a valid secret (R497) or with a failed engine self-test (R486). -/
def execHelloFrame (port : Fin 4) (frame : List Nat) (s : State) : Res :=
  let p := port.val
  completes s (match openGraft p 1 frame s with
    | .drop t => t
    | .good b t =>
      let m := b.getD 38 0
      if m ≥ memberCount t || m = ownMember t then occur 379 t
      else
        let x := trunkPort t p
        let s1 := noteHeard m ((b.drop 4).take 32) (leVal ((b.drop 36).take 2)) (leVal ((b.drop 40).take 4))
          (if portState t p = 2 then putTrunk p { x with peerNonce := (b.drop 44).take 32, peerPort := b.getD 39 0 % 4 } t else t)
        if portState s1 p = 2 && (b.drop 76).take 32 = x.nonce && stacked s1 then keyPort p m s1 else s1)

/-- A flooded frame that is new is acted on and sent on (R501); the START_ID of JOIN and ANNOUNCE begins SEQUENCE afresh. -/
def flooded (port subtype : Nat) (frame : List Nat) (seqOf : Heard → Option Nat) (setSeq : Nat → Heard → Heard)
    (act : Nat → List Nat → State → State) (s : State) : State :=
  match openGraft port subtype frame s with
  | .drop t => t
  | .good b t =>
    let m := b.getD 4 0 % 8
    let seq := leVal ((b.drop 6).take 2)
    let h := heardOf t m
    let start := leVal ((b.drop 44).take 4)
    let t1 := if subtype = 3 then noteHeard m ((b.drop 8).take 32) (leVal ((b.drop 40).take 2)) (leVal ((b.drop 42).take 4)) t
      else if subtype = 4 && h.heard && h.startId != start then noteHeard m ((b.drop 8).take 32) h.compat start t
      else t
    if m = ownMember t || !newer seq (seqOf (heardOf t1 m)) then t1
    else flood (some port) b (act m b (putHeard m (setSeq seq (heardOf t1 m)) t1))
/-- LINKS (R501). -/
def execLinks (port : Fin 4) (frame : List Nat) (s : State) : Res :=
  completes s (flooded port 2 frame (·.seqL) (fun n h => { h with seqL := some n })
    (fun m b t => releaseRequests (syncRemotePorts (setRoutes (putHeard m { heardOf t m with links := (b.drop 8).take 4 } t)))) s)
/-- JOIN (R502). -/
def execJoin (port : Fin 4) (frame : List Nat) (s : State) : Res :=
  completes s (flooded port 3 frame (·.seqJ) (fun n h => { h with seqJ := some n })
    (fun m _ t =>
      let t1 := putHeard m { heardOf t m with joined := true } t
      if isCrown t1 then crownMarks m t1 else t1) s)
/-- The crown is lost (R512, Table 24-3). -/
def crownLost (s : State) : State :=
  let s1 := occur 378 s
  if stackState s1 = 2 then setStackState 3 s1 else s1
/-- Why this member is quarantined (R502, Table 24-5). -/
def quarantineCause (digest : List Nat) (s : State) : Nat :=
  if bit (s.rd R.STACK_MEMBERS.EXPELLED) (ownMember s) then 3 else if digest = ownDigest s then 2 else 1
/-- ANNOUNCE (R503, R512): the masks and the member's state; a new START_ID is a crown loss and a new crown. -/
def execAnnounce (port : Fin 4) (frame : List Nat) (s : State) : Res :=
  completes s (flooded port 4 frame (·.seqA) (fun n h => { h with seqA := some n })
    (fun m b t =>
      if m != crownOf t || isCrown t then t
      else
        let start := leVal ((b.drop 44).take 4)
        let t1 := match t.stack.crownStart with
          | some old => if old != start then startChanged m (crownLost t) else t
          | none => t
        let t2 := ((putStack { t1.stack with crownStart := some start } t1).wr R.STACK_MEMBERS.GRAFTED (b.getD 40 0)).wr
          R.STACK_MEMBERS.QUARANTINED (b.getD 41 0)
        let t3 := t2.wr R.STACK_MEMBERS.EXPELLED (b.getD 42 0)
        let st := listedState (stackState t3) (ownListing t3) (t3.isSet R.STACK_TIME.LOCKED)
        let t4 := setStackState st t3
        releaseRequests (syncRemotePorts (if st = 4 then t4.wr R.STACK_SELF.QCAUSE (quarantineCause ((b.drop 8).take 32) t4) else t4))) s)

/-- HELLO_TIMER (R500): also while UP, so that a peer that keys later hears its own nonce (DEDUCED). -/
def execHelloTimer (port : Fin 4) (s : State) : Res :=
  completes s (if stacked s && (portState s port = 2 || portState s port = 3) then sendHello port s else s)
/-- JOIN_TIMER (R499). -/
def execJoinTimer (s : State) : Res := completes s (if stacked s then sendJoin s else s)
/-- ANNOUNCE_TIMER (R499, R502): by the crown, which also decides on itself. -/
def execAnnounceTimer (s : State) : Res := completes s (if isCrown s then sendAnnounce (crownMarks (ownMember s) s) else s)
/-- LINKS_TIMER (R499). -/
def execLinksTimer (s : State) : Res := completes s (sendLinks s)
/-- JOIN_EXPIRY (R502). -/
def execJoinExpiry (member : Fin 8) (s : State) : Res :=
  let m := member.val
  let s1 := putHeard m { heardOf s m with joined := false } s
  completes s (if isCrown s && m != ownMember s then
      syncRemotePorts ((s1.wr R.STACK_MEMBERS.GRAFTED (clearBit (s1.rd R.STACK_MEMBERS.GRAFTED) m)).wr R.STACK_MEMBERS.QUARANTINED
        (clearBit (s1.rd R.STACK_MEMBERS.QUARANTINED) m))
    else s1)
/-- ROUTE_EXPIRY (R501). -/
def execRouteExpiry (member : Fin 8) (s : State) : Res :=
  completes s (syncRemotePorts (setRoutes (putHeard member { heardOf s member with links := [] } s)))
/-- CROWN_LOST (R512): on a member of a stack that is not the crown. -/
def execCrownLost (s : State) : Res := completes s (if stacked s && !isCrown s then crownLost s else s)

/-- The timeline in ns (R509). -/
def timeline (s : State) : Nat := s.stack.tl / 64 % 2 ^ 64
/-- TL after a change of `d` 1/64 ns. -/
def moveTl (d : Int) (s : State) : State := putStack { s.stack with tl := unsigned 70 ((s.stack.tl : Int) + d) } s
def saturate16 (x : Int) : Nat := unsigned 16 (max (-32767) (min 32767 x))
/-- An exchange gives θ (R511). -/
def takeOffset (theta : Int) (s : State) : State :=
  let near := decide (-50 ≤ theta ∧ theta ≤ 50)
  let far := decide (theta < -1000 ∨ 1000 < theta)
  let s1 := s.wr R.STACK_TIME.ERROR (saturate16 theta)
  let s2 := if far then occur 377 (moveTl (64 * theta) s1)
    else putStack { s1.stack with rate := max (-1000000) (min 1000000 (1000 * theta)) } s1
  let n := if near then min 8 (s2.stack.good + 1) else 0
  let s3 := putStack { s2.stack with good := n, missed := 0 } s2
  let s4 := if !near then s3.off R.STACK_TIME.LOCKED else if n = 8 then s3.on R.STACK_TIME.LOCKED else s3
  let s5 := if far && stackState s4 = 2 then setStackState 3 s4 else s4
  if s5.isSet R.STACK_TIME.LOCKED && stackState s5 != 0 && stackState s5 != 4 && ownListing s5 = 1 then setStackState 2 s5 else s5
/-- The body of a TIME frame after the sender's count (R510). -/
def timeBody (s : State) (kind : Nat) (t2 : Nat) (t1 : List Nat) : List Nat :=
  leBytes 8 (timeline s) ++ [kind, s.rd R.STACK_TIME.HOPS, 0, 0, 0, 0, 0, 0] ++ leBytes 8 t2 ++ t1
/-- TIME (R510): a REQUEST is answered; the RESPONSE of the parent gives θ. -/
def execTimeFrame (port : Fin 4) (frame : List Nat) (arrival : Nat) (s : State) : Res :=
  let p := port.val
  completes s (match openFrame p 3 frame s with
    | .drop t => t
    | .good f t =>
      let b := frameBody f
      let word := fun k => leVal ((b.drop k).take 8)
      let t1 := takeHeader p f t
      match b.getD 8 0 with
      | 1 => emitFrame p 0 (frameOf 3 0 (ownMember t1) (s.rd (R.PORT_STATUS.PEER p)) 0 0 0 (timeBody t1 2 arrival (b.take 8))) t1
      | 2 =>
        if isCrown t1 || routeTo t1 (crownOf t1) != some p then t1
        else takeOffset ((((word 16 : Int) - word 24) - ((arrival : Int) - word 0)) / 2) t1
      | _ => t1)
/-- TIME_REQUEST_TIMER (R510): three REQUESTs without RESPONSE recompute the routes. -/
def execTimeRequestTimer (s : State) : Res :=
  completes s (match routeTo s (crownOf s) with
    | some p =>
      if !stacked s || isCrown s || portState s p != 3 then s
      else
        let s1 := if s.stack.missed ≥ 3 then setRoutes (putStack { s.stack with missed := 0 } s) else s
        emitFrame p 0 (frameOf 3 0 (ownMember s) (s.rd (R.PORT_STATUS.PEER p)) 0 0 0 (timeBody s1 1 0 []))
          (putStack { s1.stack with missed := s1.stack.missed + 1 } s1)
    | none => s)

/-- KEEPALIVE (R482): ACK, NAK, credits and SLEEP. -/
def execKeepalive (port : Fin 4) (frame : List Nat) (s : State) : Res :=
  completes s (match openFrame port 4 frame s with
    | .drop t => t
    | .good f t => pump port 4096 (takeHeader port f t))

/-- A membership command (R517): refused unless it is allowed. -/
def stackCmd (slot : Nat) (allowed : Bool) (act : State → State) (s : State) : State :=
  guardWrite slot 0x00610014 (fun s => if stacked s && allowed then act s else s.on R.STACK_ERR.CMD_REFUSED) s
def crownTarget (s : State) (m : Nat) : Bool := isCrown s && m != crownOf s && m < memberCount s
def expelMember (m : Nat) (s : State) : State := crownMarks m (s.wr R.STACK_MEMBERS.EXPELLED (setBit (s.rd R.STACK_MEMBERS.EXPELLED) m))
def admitBack (m : Nat) (s : State) : State := s.wr R.STACK_MEMBERS.EXPELLED (clearBit (s.rd R.STACK_MEMBERS.EXPELLED) m)
/-- EXPEL (R517). -/
def execExpel (slot : Fin 8) (member : Fin 8) (s : State) : Res := completes s (stackCmd slot (crownTarget s member) (expelMember member) s)
/-- ADMIT (R517): the member's next JOIN decides its state. -/
def execAdmitMember (slot : Fin 8) (member : Fin 8) (s : State) : Res := completes s (stackCmd slot (crownTarget s member) (admitBack member) s)

/-- The first request of a KIND that has arrived. -/
def inboxOf (s : State) (kind : Nat) (p : Deliv → Bool) : Option Deliv := s.inbox.find? (fun d => d.head.getD 0 0 = kind && p d)
def dropDeliv (d : Deliv) (s : State) : State := { s with inbox := s.inbox.filter (fun e => !(e.id = d.id && e.head = d.head)) }
def argOf (d : Deliv) (k : Nat) : Nat := leVal ((d.head.drop k).take 4)
/-- A request of an issuer older than its fence (R515). -/
def fenced (s : State) (id : Nat) : Bool :=
  let n := Tab.look 0 s.stack.fences (issuerOf id)
  let d := (n + 2 ^ 29 - id % 2 ^ 29) % 2 ^ 29
  n != 0 && 1 ≤ d && d ≤ 2 ^ 28
/-- The tally of a request that does not run. -/
def unrunTally (workId kind grove requested status source : Nat) : Tally :=
  ⟨workId, status, kind, grove, 1, requested, 0, 0xFFFFFFFF, source, 0, 0, 0⟩
/-- The checks before a request of another member starts (R504, R514, R515): it is answered without running, waits, or
starts. -/
def startRequest (d : Deliv) (kind requested : Nat) (start : State → State) (s : State) : State :=
  let answer := fun status source t => pumpAll (returnTally d.id (unrunTally (argOf d 4) kind d.grove requested status source) (dropDeliv d t))
  match ledgerOf s d.id with
  | some t =>
    pumpAll (sendTo (issuerOf d.id) (packetFrames s (issuerOf d.id) d.id t.grove (tallyPacket 0 t)) (dropDeliv d s))
  | none =>
    if s.rd R.DORMANT_STATUS.STATE != 0 then s
    else if fenced s d.id then answer 2 380 (occur 380 s)
    else if stackState s = 4 then answer 2 376 s
    else if stackState s != 2 then s
    else start s
/-- Ring space for one more stroke of a slot. -/
def ringRoom (s : State) (n slot : Nat) : Bool := ringUsed s n slot < ringSize s slot
/-- TRUNK_STROKE_REQUEST (R17, R508, R514): the stroke enters the slot's ring on the drum as if written there. -/
def execTrunkStrokeRequest (s : State) : Res :=
  completes s (match inboxOf s 1 (fun _ => true) with
    | none => s
    | some d =>
      let bytes := (d.head.drop 12).take 32
      let n := d.head.getD 1 0 % 2
      startRequest d 1 (leVal ((bytes.drop 12).take 4)) (fun t =>
        match slotOf t d.grove with
        | some slot =>
          if !hasDrum t n || !listedOnDrum t slot n then
            pumpAll (returnTally d.id (unrunTally (argOf d 4) 1 d.grove (leVal ((bytes.drop 12).take 4)) 4 0) (dropDeliv d t))
          else if !ringRoom t n slot then t
          else
            let c := t.rd (R.STK_PROD.COUNT n slot)
            let t1 := wrList (R.STK_ENTRY.BYTES n slot (c % ringSize t slot)) 0 (wordsOf 8 bytes) (dropDeliv d t)
            pumpAll (takeStroke n (freshStroke slot bytes none (some (issuerOf d.id, d.id)))
              (t1.wr (R.STK_PROD.COUNT n slot) ((c + 1) % 65536)))
        | none =>
          pumpAll (returnTally d.id (unrunTally (argOf d 4) 1 d.grove (leVal ((bytes.drop 12).take 4)) 4 0) (dropDeliv d t))) s)

/-- The units of a region copy, each written to the destination region until one is refused (R45, R213, R490): the first
unit's number, units done, their map, the first failed one with its source, and whether memory was refused. -/
structure Copied where
  done : Nat
  map : Nat
  failed : Option Nat
  source : Nat
  refused : Bool
deriving DecidableEq, Repr
def copyUnits (slot r off : Nat) : Nat → List (List Nat) → Copied → State → Copied × State
  | _, [], c, s => (c, s)
  | i, u :: us, c, s =>
    match regionAddr s slot r (off + 256 * i) u.length with
    | none => ({ c with failed := some (c.failed.getD i), refused := true }, memRefuse slot s)
    | some a =>
      let w := unitWrite slot a u s
      if w.1.err != 0 then
        copyUnits slot r off (i + 1) us { c with failed := some (c.failed.getD i), source := if c.failed.isNone then w.1.err else c.source } w.2
      else copyUnits slot r off (i + 1) us { c with done := c.done + 1, map := if i < 64 then setBit c.map i else c.map } w.2
/-- REGION_COPY (R490): KIND 0x02, once its last frame has arrived. -/
def execRegionCopy (s : State) : Res :=
  completes s (match inboxOf s 2 (·.whole) with
    | none => s
    | some d =>
      let units := (argOf d 8 + 255) / 256
      startRequest d 3 units (fun t =>
        let w := sweepUse .trunk t
        let c : Copied × State := match slotOf t d.grove with
          | some slot =>
            if w.1 then (⟨0, 0, some 0, 39, false⟩, w.2)
            else copyUnits slot (d.head.getD 12 0) (argOf d 16) 0 (d.units.take units) ⟨0, 0, none, 0, false⟩ w.2
          | none => (⟨0, 0, none, 0, true⟩, t)
        pumpAll (returnTally d.id ⟨argOf d 4, tallyStatus c.1.refused false c.1.done units, 3, d.grove, 1, units, c.1.done,
          c.1.failed.getD 0xFFFFFFFF, c.1.source, 0, 0, c.1.map⟩ (dropDeliv d c.2))) s)
/-- FENCE (R515). -/
def execFence (s : State) : Res :=
  completes s (match inboxOf s 3 (fun _ => true) with
    | some d => dropDeliv d (putStack { s.stack with fences := Tab.put 0 s.stack.fences (issuerOf d.id) (argOf d 12 % 2 ^ 29) } s)
    | none => s)
/-- A request is still running here. -/
def runsHere (s : State) (id : Nat) : Bool :=
  (List.range 2).any (fun n => (drumSt s n).strokes.any (fun x => match x.request with | some r => r.2 = id | none => false))
/-- QUERY (R515, R521): FOUND, RUNNING (the answer is deferred), or NOT_RUN, after the fence has refused it. -/
def execQuery (s : State) : Res :=
  completes s (match inboxOf s 4 (fun _ => true) with
    | none => s
    | some d =>
      let id := argOf d 12
      let s1 := dropDeliv d s
      match ledgerOf s1 id with
      | some t => pumpAll (sendAnswer id (if t.source = 380 && t.status = 2 then none else some t) s1)
      | none =>
        if runsHere s1 id then putStack { s1.stack with asked := s1.stack.asked ++ [id] } s1
        else
          let s2 := match s1.inbox.find? (fun e => e.id = id) with
            | some e => occur 380 (dropDeliv e s1)
            | none => s1
          pumpAll (sendAnswer id none s2))
/-- ANSWER (R515): the second tally of R214, and the requests that waited. -/
def execAnswer (s : State) : Res :=
  completes s (match inboxOf s 5 (fun _ => true) with
    | none => s
    | some d =>
      let id := argOf d 16
      let s1 := dropDeliv d s
      match s1.requests.find? (fun x => x.id = id) with
      | none => s1
      | some x =>
        let found := d.head.getD 12 0 = 1
        let t := if found then { tallyOf (d.head.drop 20) with flags := (tallyOf (d.head.drop 20)).flags ||| 3 }
          else { remoteTally s1 x 2 380 with flags := 3 }
        let s2 := { s1 with requests := s1.requests.filter (fun y => y.id != id) }
        let s3 := endRequest 13 x t s2
        let s4 := s3.bump (if found then R.STACK_LEDGER.FOUND else R.STACK_LEDGER.NOT_RUN) 1
        let s5 := if s4.requests.any (fun y => y.dest = x.dest && y.lost) then s4
          else putStack { s4.stack with relinking := s4.stack.relinking.filter (· != x.dest) } s4
        releaseRequests s5)
/-- RELINK (R515, R516): fence, then a query for each outstanding request in ID order. -/
def execRelink (member : Fin 8) (s : State) : Res :=
  let m := member.val
  let mine := s.requests.filter (fun x => x.dest = m && x.port.isSome)
  completes s (if (routeTo s m).isNone || mine = [] || stackState s = 0 then s
    else
      let s1 := putStack { s.stack with relinking := m :: s.stack.relinking.filter (· != m) }
        { s with requests := s.requests.map (fun x => if x.dest = m && x.port.isSome then { x with lost := true, port := routeTo s m } else x) }
      let s2 := sendBrief m 3 0 (leBytes 4 s1.stack.count) s1
      pumpAll (mine.foldl (fun t x => sendBrief m 4 0 (leBytes 4 x.id) t) s2))
/-- USB_PACKET_REQUEST (R507): one packet, to the host below the hub of the grove's slot or to its tile. -/
def execUsbPacketRequest (s : State) : Res :=
  completes s (match inboxOf s 6 (fun _ => true) with
    | some d => (dropDeliv d s).emit (.usb ((slotOf s d.grove).getD 0) (d.head.drop 12))
    | none => s)
/-- UNIT_ACK (R508): a unit counts as done on the executor when it arrives. -/
def execUnitAck (s : State) : Res :=
  completes s (match inboxOf s 7 (fun _ => true) with
    | none => s
    | some d =>
      let id := argOf d 12
      let i := argOf d 16
      let mine : Stroke → Bool := fun x => match x.request with | some r => r.2 == id && x.awaiting.contains i | none => false
      pumpAll ((List.range 2).foldl (fun t n =>
        if (drumSt t n).strokes.any mine then
          finishAcked n id (putStrokes n ((drumSt t n).strokes.map (fun x =>
            if mine x then { x.unitDone i with awaiting := x.awaiting.filter (· != i) } else x)) t)
        else t) (dropDeliv d s)))

/-- STACK_INFO (R518). -/
def execStackInfo (slot : Fin 8) (s : State) : Res :=
  completes s (serveMail slot 0x68 (· = 0) (fun _ s => okMail s (leBytes 4 (fieldsWord s R.STACK_SELF.all)
    ++ leBytes 4 (fieldsWord s R.STACK_MEMBERS.all) ++ leBytes 4 (fieldsWord s R.STACK_TIME.all) ++ [0, 0, 0, 0])) s)
/-- Write the stack secret record with the next VERSION (R497). -/
def writeSecret (secret : List Nat) (s : State) : State :=
  let v := if secretValid s then leVal (keepBytes s 0x7004 4) + 1 else 1
  let rec_ := [0x50, 0x4C, 0x59, 0x53] ++ leBytes 4 v ++ secret
  setCause 381 false ((putKeepList s 0x7000 (rec_ ++ leBytes 4 (crc32 rec_))).on R.STACK_SELF.SECRET)
/-- SECRET_SET (R518). -/
def execSecretSet (slot : Fin 8) (s : State) : Res :=
  completes s (serveMail slot 0x69 (· = 32) (fun b s => stewardMail slot s (okMail (writeSecret b s))) s)
/-- MEMBER_INFO (R518): the stream STACK_COMPAT is the loaded stream's (DEDUCED). -/
def execMemberInfo (slot : Fin 8) (s : State) : Res :=
  completes s (serveMail slot 0x6A (· = 4) (fun b s =>
    let m := leVal (b.take 4)
    let h := heardOf s m
    if m < 8 && h.heard then okMail s (h.digest ++ leBytes 2 h.compat ++ leBytes 2 (streamCompat s) ++ leBytes 4 h.startId)
    else failMail 6 s) s)

end Sys2Proof.Machine
end

