-- ==== Sys2Proof/Machine/Ecdsa.lean ====
section
/-! DEFINITION. ECDSA P-256 with SHA-256, as FIPS 186-5 and SP 800-186 define them, for the signed report (R170). -/
namespace Sys2Proof.Machine

/-- The field prime, the group order and the base point of P-256. -/
def p256Prime : Nat := 2 ^ 256 - 2 ^ 224 + 2 ^ 192 + 2 ^ 96 - 1
def p256Order : Nat := 0xFFFFFFFF00000000FFFFFFFFFFFFFFFFBCE6FAADA7179E84F3B9CAC2FC632551
def p256BaseX : Nat := 0x6B17D1F2E12C4247F8BCE6E563A440F277037D812DEB33A0F4A13945D898C296
def p256BaseY : Nat := 0x4FE342E2FE1A7F9B8EE7EB4A7C0F9E162BCE33576B315ECECBB6406837BF51F5

/-- x to the power e modulo m, over the low `n` bits of e. -/
def powMod (m x : Nat) : Nat → Nat → Nat
  | 0, _ => 1 % m
  | n + 1, e =>
    let r := powMod m (x * x % m) n (e / 2)
    if e % 2 = 1 then r * x % m else r
/-- The inverse modulo a prime below 2^256. -/
def invMod (m x : Nat) : Nat := powMod m x 256 (m - 2)

/-- A point of P-256 in Jacobian coordinates: x = X / Z², y = Y / Z³; Z = 0 is the point at infinity. -/
structure CurvePoint where
  x : Nat
  y : Nat
  z : Nat
deriving DecidableEq, Repr

/-- A difference in the field. -/
def fieldSub (a b : Nat) : Nat := (a + (p256Prime - b % p256Prime)) % p256Prime
/-- Twice a point; the curve's a is -3. -/
def pointDouble (q : CurvePoint) : CurvePoint :=
  let d := q.z * q.z % p256Prime
  let g := q.y * q.y % p256Prime
  let b := q.x * g % p256Prime
  let a := 3 * fieldSub q.x d * (q.x + d) % p256Prime
  let x := fieldSub (a * a) (8 * b)
  ⟨x, fieldSub (a * fieldSub (4 * b) x) (8 * g * g), 2 * q.y * q.z % p256Prime⟩
/-- A point plus one given by its affine coordinates. -/
def pointAdd (q : CurvePoint) (ax ay : Nat) : CurvePoint :=
  if q.z = 0 then ⟨ax, ay, 1⟩
  else
    let zz := q.z * q.z % p256Prime
    let h := fieldSub (ax * zz) q.x
    let r := fieldSub (ay * (zz * q.z % p256Prime)) q.y
    if h = 0 then if r = 0 then pointDouble q else ⟨1, 1, 0⟩
    else
      let hh := h * h % p256Prime
      let hhh := h * hh % p256Prime
      let v := q.x * hh % p256Prime
      let x := fieldSub (r * r) (hhh + 2 * v)
      ⟨x, fieldSub (r * fieldSub v x) (q.y * hhh), q.z * h % p256Prime⟩
/-- k times the base point, over the low `n` bits of k, from the top. -/
def baseTimes (k : Nat) : Nat → CurvePoint
  | 0 => ⟨1, 1, 0⟩
  | n + 1 =>
    let q := pointDouble (baseTimes (k / 2) n)
    if k % 2 = 1 then pointAdd q p256BaseX p256BaseY else q
/-- The x coordinate of k times the base point. -/
def baseX (k : Nat) : Nat :=
  let q := baseTimes k 256
  let i := invMod p256Prime q.z
  q.x * (i * i % p256Prime) % p256Prime

/-- The signature (r, s) of a digest under key `d` with the per-signature secret `k`. -/
def ecdsaSign (d k e : Nat) : Nat × Nat :=
  let r := baseX k % p256Order
  (r, invMod p256Order k * (e + r * d) % p256Order)
/-- A number of the range 1 to the order less 1, in which keys and per-signature secrets lie. -/
def scalarOf (x : Nat) : Nat := x % (p256Order - 1) + 1

end Sys2Proof.Machine
end

