-- ==== Sys2Proof/Machine/TypeC.lean ====
section
/-! DEFINITION. Type-C attach, power contracts, guards and the power path (chapter 15). -/
namespace Sys2Proof.Machine

def isDown (s : State) (t : Nat) : Bool := tileRole s t = 2
def isUp (s : State) (t : Nat) : Bool := tileRole s t = 1
def changeTc (t : Nat) (f : TypeC → TypeC) (s : State) : State := putTc t (f (tcOf s t)) s
def profileOf (s : State) (t : Nat) : Option Rec := (tileRec s t).bind (fun r => pdProf s (r.u8 4))
/-- PD logic that answers: the grove is ready and the tile is in service (R186, R207). -/
def pdServes (s : State) (t : Nat) : Bool := tileReady s t && !tilePruned s t && !tileHeldDown s t && attached s t
/-- A PD message arrives: while the Olulo is not Active it rings the tile's bell and gets no answer (R143). -/
def pdMessage (t : Nat) (f : State → State) (s : State) : State :=
  if dormantState s != 0 then ringBell t true s else if pdServes s t then f s else s
def sendPd (t : Nat) (m : Pd) (s : State) : State := s.emit (.pd t m)
def pdSrc (t : Nat) : Nat := tileSrc t 5

/-- The set-point code of a voltage in mV (R319); a half step rounds away from zero (DESIGN CHOICE). -/
def setCode (x : TypeC) (mv : Nat) : Int :=
  let g := f32Rat x.gain
  let o := f32Rat x.offset
  if g.1 ≤ 0 then -1 else roundAway (((mv : Int) * o.2 - o.1) * g.2) (o.2 * g.1.toNat)
def codeFits (x : TypeC) (mv : Nat) : Bool := decide (0 ≤ setCode x mv) && decide (setCode x mv ≤ 1023)

/-- I_obj in mA (R313): 5 V at up to 1,500 mA without a board record (R227). -/
def objectMa (s : State) (t : Nat) : Nat :=
  min (offerMa s t) (if s.isSet (R.TC_STATUS.EMARKED_5A t) then 5000 else 3000)
/-- The voltages of FIXED_MASK that a DOWN tile offers, in mV (R313). -/
def fixedVoltages (s : State) (t : Nat) : List Nat :=
  match profileOf s t with
  | some p =>
    ([(0, 5000), (1, 9000), (2, 15000), (3, 20000)] : List (Nat × Nat)).filterMap (fun e =>
      if bit (p.u8 1) e.1 && e.2 ≤ s.rd (R.TC_CAL.VBUS_MAX t) && codeFits (tcOf s t) e.2
        && ((tcOf s t).converter != 0 || e.2 = 5000) then some e.2 else none)
  | none => []
/-- The programmable object's range in 100 mV units (R313). -/
def ppsRange (s : State) (t : Nat) : Option (Nat × Nat) :=
  match profileOf s t with
  | some p =>
    if p.u16 4 = 0 || (tcOf s t).converter = 0 then none
    else
      let hi := min (20 * p.u16 4) (s.rd (R.TC_CAL.VBUS_MAX t))
      let vs := (List.range 211).filter (fun v => 20 * p.u16 2 ≤ 100 * v && 100 * v ≤ hi && codeFits (tcOf s t) (100 * v))
      match vs.head?, vs.getLast? with
      | some a, some b => some (a, b)
      | _, _ => none
  | none => none
def fixedObject (first : Bool) (mv ma : Nat) : Nat := (if first then 2 ^ 26 else 0) + 2 ^ 10 * (mv / 50) + ma / 10
def ppsObject (lo hi ma : Nat) : Nat := 0xC0000000 + 2 ^ 17 * hi + 2 ^ 8 * lo + ma / 50
/-- The Source_Capabilities of a DOWN tile (R313). -/
def sourceObjects (s : State) (t : Nat) : List Nat :=
  let ma := objectMa s t
  let fixed := (fixedVoltages s t).zipIdx.map (fun e => fixedObject (e.2 = 0) e.1 ma)
  match ppsRange s t with
  | some (lo, hi) => fixed ++ [ppsObject lo hi ma]
  | none => fixed
def sendCaps (t : Nat) (s : State) : State :=
  sendPd t (.sourceCaps (sourceObjects s t)) (changeTc t (fun x => { x with objs := sourceObjects s t, acked := false, ams := 1 }) s)

/-- A hard reset, sent or received (R316, R317): the negotiation after it is what TILE_PD retries. -/
def hardReset (t : Nat) (s : State) : State :=
  let s1 := failOrRetry (pdSrc t) (changeTc t (fun x => { x with noContract := true })) (s.bump (R.TC_COUNTS.HARD_RESETS t) 1)
  if isDown s t then
    let s2 := changeTc t (fun x => { x with hold := true, softReset := false }) ((s1.off (R.TC_STATUS.VCONN_ON t)).off (R.TC_STATUS.EMARKED_5A t))
    if 2 ≤ pathOf s2 t && pathOf s2 t ≤ 4 then toDischarge t s2 else syncPath t s2
  else changeTc t (fun x => { x with softReset := false }) (endContract t s1)
def sendHardReset (t : Nat) (s : State) : State := hardReset t (sendPd t .hardReset s)

/-- What a new attach or a detach clears. -/
def freshPd (t : Nat) (s : State) : State :=
  retryEnd (pdSrc t) (changeTc t (fun x =>
    { x with objs := [], repeats := 0, acked := false, pending := none, moved := false, noContract := false, cable := [],
             tries := 0, fixedReq := 0, softReset := false, ams := 0, rev3 := false })
    { s with backoff := Tab.put false s.backoff (pdSrc t) false })
/-- The classes of both lines, with the cause of TILE_CC_UNSETTLED, which lasts while either is unsettled (R306). -/
def setCc (t cc1 cc2 : Nat) (s : State) : State :=
  setCause (tileSrc t 0) (cc1 = 6 || cc2 = 6) ((s.wr (R.TC_STATUS.CC_1 t) cc1).wr (R.TC_STATUS.CC_2 t) cc2)
def isRp (c : Nat) : Bool := 3 ≤ c && c ≤ 5
/-- The orientation that a CC pair gives: 1 or 2, 0 for no attach combination (R306, R309). -/
def attachLine (s : State) (t cc1 cc2 : Nat) : Nat :=
  if isDown s t && s.rd (R.TC_STATUS.PRESENT t) = 2 then
    if cc1 = 2 && cc2 ≤ 1 then 1 else if cc2 = 2 && cc1 ≤ 1 then 2 else 0
  else if (isUp s t || isDfu s t) && s.isSet (R.TILE_STATUS.VBUS_PRESENT t) then
    if isRp cc1 && !isRp cc2 then 1 else if isRp cc2 && !isRp cc1 then 2 else 0
  else 0

/-- TILE_0 connects in recovery (R172): at high speed only, so a host that attaches at full speed gets no response to reset. -/
def dfuConnect (up : UpConnect) (s : State) : State :=
  if 3 ≤ up.speed.val then (s.wr (R.TILE_STATUS.SPEED 0) 3).wr (R.TILE_STATUS.LINK 0) 3 else s.wr (R.TILE_STATUS.LINK 0) 1
/-- A CC pair that is no attach combination: no debounce goes on (R306, R309). -/
def noAttach (t : Nat) (s : State) : State := if s.rd (R.TILE_STATUS.ATTACH t) = 1 then s.wr (R.TILE_STATUS.ATTACH t) 0 else s
/-- TYPEC_ATTACH (R306, R309, R272, R262): after its debounce a DOWN tile queues for VBUS when its other conditions hold; an
UP tile connects. -/
def execTypecAttach (tile : Fin 14) (cc1 cc2 : Fin 7) (vbus : VbusSeen) (up : UpConnect) (s : State) : Res :=
  let t := tile.val
  let s1 := ringBell t true (setCc t cc1 cc2 (senseVbus t vbus.mv s))
  let o := attachLine s1 t cc1 cc2
  completes s (if o = 0 || attached s1 t then
      (if !configured s1 && t = 0 && 4000 < vbus.mv then upConnect t up s1 else if o = 0 then noAttach t s1 else s1)
    else if !vbus.held then s1.wr (R.TILE_STATUS.ATTACH t) 1
    else if isDfu s t then dfuConnect up ((s1.wr (R.TILE_STATUS.ATTACH t) 2).wr (R.TILE_STATUS.ORIENT t) o)
    else upConnect t up (syncPath t (freshPd t ((s1.wr (R.TILE_STATUS.ATTACH t) 2).wr (R.TILE_STATUS.ORIENT t) o))))

/-- A tile's partner is gone: the path follows, VCONN and the contract end (R306, R308, R328). -/
def detachTile (t : Nat) (s : State) : State :=
  let s1 := ((s.wr (R.TILE_STATUS.ATTACH t) 0).wr (R.TILE_STATUS.ORIENT t) 0)
  let s2 := (s1.off (R.TC_STATUS.VCONN_ON t)).off (R.TC_STATUS.EMARKED_5A t)
  let s3 := syncPath t (endContract t (changeTc t (fun x => { x with hold := false }) (freshPd t s2)))
  match slotOfUpTile s3 t with
  | some slot => upGone slot t 1 s3
  | none => portDisconnect t s3
/-- TYPEC_DETACH (R306). -/
def execTypecDetach (tile : Fin 14) (cc1 cc2 : Fin 7) (vbus : Nat) (s : State) : Res :=
  let t := tile.val
  let o := s.rd (R.TILE_STATUS.ORIENT t)
  let s1 := ringBell t true (setCc t cc1 cc2 (senseVbus t vbus s))
  let gone := if isUp s t || isDfu s t then !s1.isSet (R.TILE_STATUS.VBUS_PRESENT t) || (cc1.val = 0 && cc2.val = 0)
    else (if o = 2 then cc2.val = 0 else cc1.val = 0)
  completes s (if attached s t then (if gone then (if isDfu s t then dfuGone s1 else detachTile t s1) else s1)
    else if attachLine s1 t cc1 cc2 = 0 then s1.wr (R.TILE_STATUS.ATTACH t) 0 else s1)

/-- CC_UNSETTLED (R306): a line becomes unsettled (6), or settles to a class. -/
def execCcUnsettled (tile : Fin 14) (line2 : Bool) (cls : Fin 7) (s : State) : Res :=
  let t := tile.val
  completes s (if line2 then setCc t (s.rd (R.TC_STATUS.CC_1 t)) cls s else setCc t cls (s.rd (R.TC_STATUS.CC_2 t)) s)

/-- DISCOVER_IDENTITY_REPLY (R308): up to 3 tries. -/
def execDiscoverIdentityReply (tile : Fin 14) (vdos : Option (List Nat)) (fiveAmps : Bool) (s : State) : Res :=
  let t := tile.val
  let x := tcOf s t
  completes s (if dormantState s != 0 then (if vdos.isSome then ringBell t true s else s)
    else if !s.isSet (R.TC_STATUS.VCONN_ON t) || x.tries = 0 || !x.cable.isEmpty then s
    else match vdos with
      | some v => (putTc t { x with cable := v.take 2 } s).wrB (R.TC_STATUS.EMARKED_5A t) fiveAmps
      | none =>
        if x.tries < 3 then sendPd t .discoverIdentity (putTc t { x with tries := x.tries + 1 } s) else s.off (R.TC_STATUS.EMARKED_5A t))
/-- VCONN_LIMIT (R308): a 3 A cable. -/
def execVconnLimit (tile : Fin 14) (s : State) : Res :=
  let t := tile.val
  completes s (if s.isSet (R.TC_STATUS.VCONN_ON t) then
      occur (pdSrc t) ((s.off (R.TC_STATUS.VCONN_ON t)).off (R.TC_STATUS.EMARKED_5A t))
    else s)

/-- V_s and I_s in mV and mA (R310, R326). -/
def sinkWant (s : State) (t : Nat) : Nat × Nat :=
  match (tcOf s t).sink with
  | some p => p
  | none => match profileOf s t with
    | some p => (20 * p.u16 8, 50 * p.u8 10)
    | none => (0, 0)
def fixedMv (o : Nat) : Nat := 50 * bits o 10 10
def isFixed (o : Nat) : Bool := bits o 30 2 = 0
def isPps (o : Nat) : Bool := bits o 28 4 = 0xC
/-- The position of the best fixed object not above a voltage. -/
def bestFixed (objs : List Nat) (mv : Nat) : Option (Nat × Nat) :=
  objs.zipIdx.foldl (fun a e =>
    if isFixed e.1 && fixedMv e.1 ≤ mv && (match a with | some b => fixedMv b.2 < fixedMv e.1 | none => true) then
      some (e.2 + 1, e.1) else a) none
/-- The request of R310: its contract, whether Capability Mismatch is set. `fixedOnly` is R311's, `fiveOnly` R324's. -/
def chooseSink (s : State) (t : Nat) (objs : List Nat) (rev3 fixedOnly fiveOnly : Bool) : Option Contract :=
  let want := sinkWant s t
  let pps := if fixedOnly || fiveOnly || !rev3 then none
    else objs.zipIdx.find? (fun e => isPps e.1 && 100 * bits e.1 8 8 ≤ want.1 && want.1 ≤ 100 * bits e.1 17 8)
  match pps with
  | some (o, i) => some ⟨i + 1, want.1, min want.2 (50 * bits o 0 7), true, 50 * bits o 0 7, rev3⟩
  | none =>
    let best := if fiveOnly then none else bestFixed objs want.1
    match (match best with | some b => some b | none => (objs.zipIdx.find? (fun e => isFixed e.1 && fixedMv e.1 = 5000)).map (fun e => (e.2 + 1, e.1))) with
    | some (pos, o) => some ⟨pos, fixedMv o, min want.2 (10 * bits o 0 10), false, 10 * bits o 0 10, rev3⟩
    | none => none
/-- The Request data object of a choice: Capability Mismatch in bit 26, position in [31:28]. -/
def requestWord (c : Contract) (mismatch : Bool) : Nat :=
  2 ^ 28 * c.pos + 2 ^ 26 * b2n mismatch + 2 ^ 25
    + (if c.pps then 2 ^ 9 * (c.mv / 20) + c.ma / 50 else 2 ^ 10 * (c.ma / 10) + c.ma / 10)
def sendRequest (t : Nat) (c : Contract) (s : State) : State :=
  sendPd t (.request (requestWord c (c.ma < (sinkWant s t).2))) (changeTc t (fun x => { x with pending := some c, moved := false }) s)
/-- An UP tile negotiates under R310 from the objects it last received; one whose budget is spent requests nothing until
detach (R317). -/
def negotiateSink (t : Nat) (rev3 fixedOnly : Bool) (s : State) : State :=
  if (tcOf s t).noContract then s
  else match chooseSink s t (tcOf s t).objs rev3 fixedOnly (s.isSet (R.TC_STATUS.DAMP t)) with
  | some c => sendRequest t c s
  | none => s
def partnerRev3 (s : State) (t : Nat) : Bool := s.rd (R.PD_CONTRACT.REVISION t) = 2

/-- SOURCE_CAPABILITIES (R310, R317). -/
def execSourceCapabilities (tile : Fin 14) (objs : List Nat) (rev3 : Bool) (s : State) : Res :=
  let t := tile.val
  completes s (pdMessage t (fun s =>
    if !isUp s t then s
    else
      negotiateSink t rev3 ((tcOf s t).fixedReq != 0) (changeTc t (fun x => { x with objs := objs.take 7, rev3 := rev3 }) s)) s)

def putContract (t : Nat) (c : Contract) (s : State) : State :=
  let s1 := (((s.wr (R.PD_CONTRACT.POSITION t) c.pos).wr (R.PD_CONTRACT.KIND t) (if c.pps then 3 else 2)).wr
    (R.PD_CONTRACT.REVISION t) (if c.rev3 then 2 else 1))
  let s2 := (s1.wr (R.PD_CONTRACT.VOLTAGE t) (c.mv / 20)).wr (R.PD_CONTRACT.CURRENT t) (c.ma / 50)
  retryEnd (pdSrc t) (setGuards t c.mv c.maxMa (changeTc t (fun x => { x with pending := none, moved := false, softReset := false, ams := 0 })
    (s2.off (R.PWR_DRIVE.CL_ACTIVE t))))

/-- ACCEPT_REJECT_RECEIVED (R310, R311): a Reject or a Wait ends the request; a Reject of the fixed one is an occurrence of
TILE_PD. -/
def execAcceptRejectReceived (tile : Fin 14) (answer : PdAnswer) (s : State) : Res :=
  let t := tile.val
  completes s (pdMessage t (fun s =>
    if !isUp s t || (tcOf s t).pending.isNone then s
    else if answer = .accept then changeTc t (fun x => { x with moved := true }) s
    else
      let s1 := changeTc t (fun x => { x with pending := none, moved := false, fixedReq := if x.fixedReq = 1 then 0 else x.fixedReq }) s
      if (tcOf s t).fixedReq = 1 && answer = .reject then occur (pdSrc t) s1 else s1) s)
/-- PS_RDY (R310, R311): an UP tile's accepted request is in force. -/
def execPsRdy (tile : Fin 14) (s : State) : Res :=
  let t := tile.val
  completes s (pdMessage t (fun s =>
    match (tcOf s t).pending with
    | some c =>
      if isUp s t && (tcOf s t).moved then
        changeTc t (fun x => { x with fixedReq := if x.fixedReq = 1 then 2 else x.fixedReq }) (putContract t c s)
      else s
    | none => s) s)

/-- HARD_RESET_RECEIVED (R316). -/
def execHardResetReceived (tile : Fin 14) (s : State) : Res := completes s (pdMessage tile (hardReset tile) s)
/-- UNSUPPORTED_PD_MESSAGE (R305). -/
def execUnsupportedPdMessage (tile : Fin 14) (rev3 : Bool) (s : State) : Res :=
  completes s (pdMessage tile (sendPd tile (if rev3 then .notSupported else .reject)) s)

/-- A DOWN tile that still announces its capabilities. -/
def announces (s : State) (t : Nat) : Bool :=
  isDown s t && pathOf s t = 3 && !(tcOf s t).acked && !(tcOf s t).noContract && s.rd (R.PD_CONTRACT.KIND t) = 0
    && dormantState s = 0
/-- SOURCE_CAPS_REPEAT (R314): after 50 repeats the tile stays at Type-C current until detach. -/
def execSourceCapsRepeat (tile : Fin 14) (s : State) : Res :=
  let t := tile.val
  completes s (if !announces s t then s
    else if (tcOf s t).repeats < 50 then sendCaps t (changeTc t (fun x => { x with repeats := x.repeats + 1 }) s)
    else (changeTc t (fun x => { x with acked := true, noContract := true, ams := 0 }) s).wr (R.PD_CONTRACT.KIND t) 1)
/-- SOURCE_CAPS_TIMEOUT (R310). -/
def execSourceCapsTimeout (tile : Fin 14) (s : State) : Res :=
  let t := tile.val
  completes s (if isUp s t && pdServes s t && (tcOf s t).objs.isEmpty && s.rd (R.PD_CONTRACT.KIND t) = 0 then
      s.wr (R.PD_CONTRACT.KIND t) 1
    else s)

/-- GOODCRC_RECEIVED (R314, R317): the repeats or the retries end. -/
def execGoodcrcReceived (tile : Fin 14) (s : State) : Res :=
  let t := tile.val
  completes s (pdMessage t (changeTc t (fun x => { x with acked := true, softReset := false, ams := if x.ams = 2 then 0 else x.ams })) s)
/-- The contract voltage in mV: vSafe5V with none. -/
def contractMv (s : State) (t : Nat) : Nat := if s.rd (R.PD_CONTRACT.KIND t) < 2 then 5000 else 20 * s.rd (R.PD_CONTRACT.VOLTAGE t)
/-- PD_GET_MESSAGE (R305): a source has source data, a sink its Sink_Capabilities; PPS_Status belongs to a programmable
contract; BIST Carrier Mode is obeyed at vSafe5V only. What a tile has not is not supported (DEDUCED); the extended capabilities' contents are free values. -/
def execPdGetMessage (tile : Fin 14) (ask : PdGet) (rev3 : Bool) (s : State) : Res :=
  let t := tile.val
  completes s (pdMessage t (fun s =>
    let no := sendPd t (if rev3 then .notSupported else .reject) s
    match ask with
    | .sourceCap => if isDown s t then (if pathOf s t = 3 && !(tcOf s t).noContract then sendCaps t s else s) else no
    | .bistCarrier => if contractMv s t = 5000 then sendPd t .bistCarrier s else s
    | .sinkCap => if isUp s t then sendPd t (.sinkCaps (sinkWant s t).2 (max (sinkWant s t).1 5000)) s else no
    | .ppsStatus =>
      if isDown s t && rev3 && s.rd (R.PD_CONTRACT.KIND t) = 3 then
        sendPd t (.ppsStatus (vbusOf s t) (s.rd (R.PWR_SENSE.IBUS t)) (s.isSet (R.PWR_DRIVE.CL_ACTIVE t))) s
      else no
    | .sourceCapExtended =>
      if isDown s t && rev3 then (sendPd t (.sourceCapsExt ((List.range 25).map (fun i => s.freeVal i % 256))) s).drew 25 else no) s)
/-- SOFT_RESET_RECEIVED (R305): the protocol state is reset and Accept answers; a source announces its capabilities again, a
sink's request ends. The contract stands. -/
def execSoftResetReceived (tile : Fin 14) (s : State) : Res :=
  let t := tile.val
  completes s (pdMessage t (fun s =>
    let s1 := sendPd t .accept (changeTc t (fun x => { x with softReset := false, repeats := 0 }) s)
    if isUp s t then changeTc t (fun x => { x with pending := none, moved := false }) s1
    else if pathOf s t = 3 && !(tcOf s t).noContract then sendCaps t s1 else s1) s)

/-- The contract that a Request asks for, where it is valid (R314). -/
def evaluateRequest (s : State) (t rdo : Nat) (rev3 : Bool) : Option Contract :=
  let pos := bits rdo 28 4
  match (if pos = 0 then none else (tcOf s t).objs[pos - 1]?) with
  | some o =>
    if isPps o then
      let mv := 20 * bits rdo 9 12
      let ma := 50 * bits rdo 0 7
      if rev3 && 100 * bits o 8 8 ≤ mv && mv ≤ 100 * bits o 17 8 && ma ≤ 50 * bits o 0 7 then
        some ⟨pos, mv, ma, true, 50 * bits o 0 7, rev3⟩
      else none
    else if bits rdo 10 10 ≤ bits o 0 10 then some ⟨pos, fixedMv o, 10 * bits rdo 10 10, false, 10 * bits o 0 10, rev3⟩
    else none
  | none => none
/-- The current that a DOWN tile's Rp presents, in mA (R307): in an explicit contract with a Revision 3.x partner 1.5 A while the
tile has a message sequence of its own under way (its capabilities, an Alert, a Soft_Reset, an accepted Request), and 3.0 A
otherwise (DEDUCED: SinkTxNG and SinkTxOk of PD 3.1). -/
def presentedRp (s : State) (t : Nat) : Nat :=
  if 2 ≤ s.rd (R.PD_CONTRACT.KIND t) && partnerRev3 s t then
    (if (tcOf s t).pending.isSome || (tcOf s t).softReset || (tcOf s t).ams != 0 then 1500 else 3000)
  else rpMa s t
/-- PD_REQUEST (R308, R314, R317, R328): evaluated in ON only; the path then leaves ON, and VCONN is removed. -/
def execPdRequest (tile : Fin 14) (rdo : Nat) (rev3 : Bool) (s : State) : Res :=
  let t := tile.val
  completes s (pdMessage t (fun s =>
    if !isDown s t || pathOf s t != 3 || (tcOf s t).noContract then s
    else match evaluateRequest s t rdo rev3 with
      | some c =>
        sendPd t .accept (((changeTc t (fun x => { x with pending := some c, moved := false, acked := true }) s).wr
          (R.TC_STATUS.PATH t) 4).off (R.TC_STATUS.VCONN_ON t))
      | none => sendPd t .reject (changeTc t (fun x => { x with acked := true, ams := 0 }) s)) s)

/-- TRANSITION_WAIT_END (R314): the OVP threshold rises with the voltage, and the code is written. -/
def execTransitionWaitEnd (tile : Fin 14) (s : State) : Res :=
  let t := tile.val
  completes s (match (tcOf s t).pending with
    | some c =>
      if isDown s t && pathOf s t = 4 && !(tcOf s t).moved then
        let s1 := if c.mv > contractMv s t then s.wr (R.GUARD.OVP t) (ovpUnits c.mv) else s
        ((changeTc t (fun x => { x with moved := true }) s1).wr (R.PWR_DRIVE.CODE t) (setCode (tcOf s t) c.mv).toNat).off (R.PWR_DRIVE.CL_ACTIVE t)
      else s
    | none => s)
/-- VBUS_SETTLED (R314): within ±5% of the new voltage for 1 ms. -/
def execVbusSettled (tile : Fin 14) (vbus : Nat) (s : State) : Res :=
  let t := tile.val
  let s1 := senseVbus t vbus s
  completes s (match (tcOf s t).pending with
    | some c =>
      if isDown s t && pathOf s t = 4 && (tcOf s t).moved && 95 * c.mv ≤ 100 * vbus && 100 * vbus ≤ 105 * c.mv then
        sendPd t .psRdy ((putContract t c s1).wr (R.TC_STATUS.PATH t) 3)
      else s1
    | none => s1)
/-- TRANSITION_LIMIT (R314, Table 15-5). -/
def execTransitionLimit (tile : Fin 14) (s : State) : Res :=
  completes s (if isDown s tile && pathOf s tile = 4 then sendHardReset tile s else s)

/-- PPS_REQUEST_TIMER (R311): the request in force is sent again; a damp tile requests the 5 V fixed object (R324). -/
def execPpsRequestTimer (tile : Fin 14) (s : State) : Res :=
  let t := tile.val
  completes s (if isUp s t && pdServes s t && s.rd (R.PD_CONTRACT.KIND t) = 3 && dormantState s = 0 then
      if s.isSet (R.TC_STATUS.DAMP t) then negotiateSink t true true s else
      let o := ((tcOf s t).objs[s.rd (R.PD_CONTRACT.POSITION t) - 1]?).getD 0
      sendRequest t ⟨s.rd (R.PD_CONTRACT.POSITION t), 20 * s.rd (R.PD_CONTRACT.VOLTAGE t), 50 * s.rd (R.PD_CONTRACT.CURRENT t),
        true, 50 * bits o 0 7, true⟩ s
    else s)
/-- A programmable contract's deadline for a Request has passed (R316). -/
def missRequest (t : Nat) (s : State) : State :=
  if isDown s t && pathOf s t = 3 && s.rd (R.PD_CONTRACT.KIND t) = 3 then
    sendHardReset t (s.bump (R.TC_COUNTS.KEEPALIVE_MISSES t) 1)
  else s
/-- The deadlines that passed while the Olulo was not Active are acted on (R316). -/
def missLate (s : State) : State :=
  (List.range 14).foldl (fun a t => if (tcOf a t).late then missRequest t (changeTc t (fun x => { x with late := false }) a) else a) s
/-- PPS_KEEPALIVE_TIMEOUT (R316): while the Olulo is not Active the deadline waits until it is. -/
def execPpsKeepaliveTimeout (tile : Fin 14) (s : State) : Res :=
  completes s (if dormantState s = 0 then missRequest tile s else changeTc tile (fun x => { x with late := true }) s)
/-- PD_RETRIES_EXHAUSTED (R317): Soft_Reset, and a hard reset when that failed too. -/
def execPdRetriesExhausted (tile : Fin 14) (s : State) : Res :=
  let t := tile.val
  completes s (if !pdServes s t || dormantState s != 0 then s
    else if (tcOf s t).softReset then sendHardReset t s
    else sendPd t .softReset (changeTc t (fun x => { x with softReset := true }) s))

/-- The code of the contract's own voltage, against which CL_ACTIVE shows a lowered one. -/
def clFlag (t : Nat) (s : State) : State :=
  s.wrB (R.PWR_DRIVE.CL_ACTIVE t) (decide ((s.rd (R.PWR_DRIVE.CODE t) : Int) < setCode (tcOf s t) (contractMv s t)))
/-- VOLTAGE_LOOP (R315): in ON, one step when the difference exceeds SET_GAIN; a code that current limiting had lowered may so
come back. -/
def execVoltageLoop (tile : Fin 14) (vout : Nat) (s : State) : Res :=
  let t := tile.val
  let g := f32Rat (tcOf s t).gain
  let code := s.rd (R.PWR_DRIVE.CODE t)
  let diff : Int := (contractMv s t : Int) - vout
  completes s (if !isDown s t || pathOf s t != 3 || dormantState s != 0 then s
    else if diff * g.2 > g.1 then
      let s1 := s.wr (R.PWR_DRIVE.CODE t) (min (code + 1) 1023)
      if s.isSet (R.PWR_DRIVE.CL_ACTIVE t) then clFlag t s1 else s1
    else if -diff * g.2 > g.1 then s.wr (R.PWR_DRIVE.CODE t) (code - 1)
    else s)
/-- CURRENT_LIMIT_LOOP (R315). -/
def execCurrentLimitLoop (tile : Fin 14) (ibus vbus : Nat) (s : State) : Res :=
  let t := tile.val
  let s1 := (senseVbus t vbus s).wr (R.PWR_SENSE.IBUS t) ibus
  let out := signed 16 ibus
  let code := s.rd (R.PWR_DRIVE.CODE t)
  let op := 50 * s.rd (R.PD_CONTRACT.CURRENT t)
  let o := ((tcOf s t).objs[s.rd (R.PD_CONTRACT.POSITION t) - 1]?).getD 0
  let least := (setCode (tcOf s t) (100 * bits o 8 8)).toNat
  completes s (if !isDown s t || pathOf s t != 3 || s.rd (R.PD_CONTRACT.KIND t) != 3 || dormantState s != 0 then s1
    else if out > op then (if code > least then clFlag t (s1.wr (R.PWR_DRIVE.CODE t) (code - 1)) else s1)
    else if 100 * out < 95 * op && vbus < contractMv s t then clFlag t (s1.wr (R.PWR_DRIVE.CODE t) (min (code + 1) 1023))
    else s1)

/-- A guard opens the gate of a DOWN tile (Table 15-5): its path discharges, unless it is IDLE, QUEUED or DISCHARGE. -/
def tripDown (t : Nat) (s : State) : State := if 2 ≤ pathOf s t && pathOf s t ≤ 4 then toDischarge t s else s
/-- An Alert to the partner of a DOWN tile (R305, R320). -/
def sendAlert (t : Nat) (ovp : Bool) (s : State) : State :=
  if attached s t then sendPd t (.alert ovp) (changeTc t (fun x => { x with ams := 2 }) s) else s
/-- OVP_TRIP (R320, R312). -/
def execOvpTrip (tile : Fin 14) (s : State) : Res :=
  let t := tile.val
  let s1 := s.bump (R.TC_COUNTS.TRIPS t) 1
  let s2 := if isDown s t then
      sendAlert t true (tripDown t s1)
    else syncSink t (changeTc t (fun x => { x with gateBlock := setBit x.gateBlock 0 }) s1)
  completes s (occur (tileSrc t 1) s2)
/-- PORT_POWER clears and the over-current bits set (R273). -/
def overCurrent (t : Nat) (s : State) : State :=
  match portOfTile s t with
  | some (slot, k) => modPort slot k (fun p => { p with cOver := true }) ((s.off (R.HUB_PORT.POWER slot k)).on (R.HUB_PORT.OVER_CURRENT slot k))
  | none => s
/-- OCP_TRIP (R320, R273): DOWN only. -/
def execOcpTrip (tile : Fin 14) (s : State) : Res :=
  let t := tile.val
  completes s (if !isDown s t then s
    else
      let s1 := tripDown t (s.bump (R.TC_COUNTS.TRIPS t) 1)
      let s2 := if s.rd (R.PD_CONTRACT.KIND t) ≥ 2 then sendAlert t false s1 else s1
      occur (tileSrc t 2) (portDisconnect t (syncPath t (overCurrent t s2))))
/-- REVERSE_CURRENT_TRIP (R320). -/
def execReverseCurrentTrip (tile : Fin 14) (present : Bool) (s : State) : Res :=
  let t := tile.val
  completes s (if present then
      let s1 := s.bump (R.TC_COUNTS.TRIPS t) 1
      occur (tileSrc t 3) (if isDown s t then tripDown t s1
        else syncSink t (changeTc t (fun x => { x with gateBlock := setBit x.gateBlock 1 }) s1))
    else syncSink t (changeTc t (fun x => { x with gateBlock := clearBit x.gateBlock 1 }) s))
/-- OVP_RECOVERY (R312). -/
def execOvpRecovery (tile : Fin 14) (s : State) : Res :=
  let t := tile.val
  completes s (if isUp s t && bit (tcOf s t).gateBlock 0 then
      sendHardReset t (syncSink t (changeTc t (fun x => { x with gateBlock := clearBit x.gateBlock 0 }) s))
    else s)

/-- VCONN and cable discovery once VBUS is ON (R308): until it answers, the cable is a 3 A cable. -/
def startVconn (t : Nat) (s : State) : State :=
  let other := if s.rd (R.TILE_STATUS.ORIENT t) = 1 then s.rd (R.TC_STATUS.CC_2 t) else s.rd (R.TC_STATUS.CC_1 t)
  let s1 := s.off (R.TC_STATUS.EMARKED_5A t)
  if other = 1 then
    sendPd t .discoverIdentity (changeTc t (fun x => { x with tries := 1, cable := [] }) (s1.on (R.TC_STATUS.VCONN_ON t)))
  else s1
/-- SOFT_START_COMPLETE (R314, R321): ON, and Source_Capabilities unless no contract may be made. -/
def execSoftStartComplete (tile : Fin 14) (vbus : Nat) (s : State) : Res :=
  let t := tile.val
  let s1 := senseVbus t vbus s
  completes s (if pathOf s t = 2 && isDown s t && 4750 ≤ vbus && vbus ≤ 5500 then
      let s2 := startVconn t (s1.wr (R.TC_STATUS.PATH t) 3)
      if (tcOf s t).noContract then s2.wr (R.PD_CONTRACT.KIND t) 1
      else if Tab.look false s.backoff (pdSrc t) then s2
      else sendCaps t (changeTc t (fun x => { x with repeats := 0 }) s2)
    else s1)
/-- SOFT_START_LIMIT (Table 15-5). -/
def execSoftStartLimit (tile : Fin 14) (s : State) : Res :=
  completes s (if isDown s tile && pathOf s tile = 2 then occur (tileSrc tile 2) (toDischarge tile s) else s)
/-- VBUS_SAFE_ZERO (Table 15-5): below 0.80 V. -/
def execVbusSafeZero (tile : Fin 14) (vbus : Nat) (s : State) : Res :=
  let t := tile.val
  let s1 := senseVbus t vbus s
  completes s (if !isDown s t || vbus ≥ 800 then s1
    else match pathOf s t with
      | 3 => occur (tileSrc t 2) (toDischarge t s1)
      | 4 => occur (tileSrc t 2) (toDischarge t s1)
      | 5 => syncPath t ((s1.off (R.PWR_DRIVE.DISCH t)).wr (R.TC_STATUS.PATH t) 0)
      | _ => s1)
/-- DISCHARGE_LIMIT (Tables 15-5 and 15-6): also every 650 ms of a foreign VBUS on an IDLE or QUEUED tile. -/
def execDischargeLimit (tile : Fin 14) (s : State) : Res :=
  completes s (if isDown s tile && (pathOf s tile = 5 || (pathOf s tile ≤ 1 && s.isSet (R.TILE_STATUS.VBUS_PRESENT tile))) then
      occur (tileSrc tile 3) s
    else s)
/-- HARD_RESET_HOLD_EXPIRE (R316). -/
def execHardResetHoldExpire (tile : Fin 14) (s : State) : Res :=
  completes s (if (tcOf s tile).hold && vbusOf s tile < 800 then syncPath tile (changeTc tile (fun x => { x with hold := false }) s) else s)

/-- The first tile in the queue whose VBUS is at safe zero (R187, Table 15-5). -/
def queueTurn (s : State) : Option Nat := (List.range 14).find? (fun t => isDown s t && pathOf s t = 1 && vbusOf s t < 800)
/-- VBUS_QUEUE_TURN (R187, R321). -/
def execVbusQueueTurn (s : State) : Res :=
  completes s (match queueTurn s with
    | some t =>
      let s1 := ((s.wr (R.TC_STATUS.PATH t) 2).on (R.PWR_DRIVE.CONV_EN t)).on (R.PWR_DRIVE.GATE t)
      setGuards t 5000 (rpMa s t) ((s1.on (R.TILE_STATUS.VBUS_ON t)).wr (R.PWR_DRIVE.CODE t) (setCode (tcOf s t) 5000).toNat)
    | none => s)

/-- A line that reads in the Rd or Ra band (R323). -/
def ccBand (z : Nat) : Bool := (4100 ≤ z && z ≤ 6100) || (800 ≤ z && z ≤ 1200)
def moistLimit (s : State) (t : Nat) : Nat := 1000 * s.rd (R.MOIST.THRESHOLD t)
/-- A moisture test's result: the impedances of the pins tested. -/
def moistResult (t : Nat) (zs : List Nat) (s : State) : State :=
  let least := zs.foldl min 255000
  let s1 := s.wr (R.MOIST.LAST_KOHM t) (least / 1000)
  if zs.any (· < moistLimit s t) then
    occur (tileSrc t 4) (syncPath t ((changeTc t (fun x => { x with dry := 0 }) (s1.on (R.TC_STATUS.DAMP t))).bump (R.TC_COUNTS.DAMP_TESTS t) 1))
  else if s.isSet (R.TC_STATUS.DAMP t) then
    if zs.all (· > 2 * moistLimit s t) then
      let n := (tcOf s t).dry + 1
      if n ≥ 2 then syncPath t ((changeTc t (fun x => { x with dry := 0 }) s1).off (R.TC_STATUS.DAMP t))
      else changeTc t (fun x => { x with dry := n }) s1
    else changeTc t (fun x => { x with dry := 0 }) s1
  else s1
/-- The class that a tested line's impedance gives: Rd, Ra or open. -/
def ccClass (z : Nat) : Nat := if 4100 ≤ z && z ≤ 6100 then 2 else if 800 ≤ z && z ≤ 1200 then 1 else 0
/-- Attach detection at once, on the classes that a discarded test met: a debounce begins on an attach combination (R306,
R323). -/
def detectNow (t cc1 cc2 : Nat) (s : State) : State :=
  let s1 := setCc t (ccClass cc1) (ccClass cc2) s
  if attachLine s1 t (ccClass cc1) (ccClass cc2) = 0 then s1 else s1.wr (R.TILE_STATUS.ATTACH t) 1
/-- A 4 s test: a pin below THRESHOLD makes the tile damp; the dry tests are those of every 30 s (DEDUCED). -/
def moistTest (t : Nat) (zs : List Nat) (s : State) : State :=
  if zs.any (· < moistLimit s t) || !s.isSet (R.TC_STATUS.DAMP t) then moistResult t zs s
  else s.wr (R.MOIST.LAST_KOHM t) (zs.foldl min 255000 / 1000)
/-- A test discarded because a partner is met (R323). -/
def moistDiscard (s : State) (t cc1 cc2 sbu1 sbu2 : Nat) : Bool :=
  !isUp s t && (ccBand cc1 || ccBand cc2) && sbu1 > moistLimit s t && sbu2 > moistLimit s t
/-- MOISTURE_TEST (R323). -/
def execMoistureTest (tile : Fin 14) (cc1 cc2 sbu1 sbu2 : Nat) (s : State) : Res :=
  let t := tile.val
  completes s (if !s.isSet (R.TILE_CFG.MOISTURE t) || s.rd (R.TILE_STATUS.ATTACH t) != 0 then s
    else if moistDiscard s t cc1 cc2 sbu1 sbu2 then detectNow t cc1 cc2 s
    else moistTest t (if isUp s t then [sbu1, sbu2] else [cc1, cc2, sbu1, sbu2]) s)
/-- MOISTURE_RETEST (R323): skipped while an attach debounces (R328). -/
def execMoistureRetest (tile : Fin 14) (cc1 cc2 sbu1 sbu2 : Nat) (s : State) : Res :=
  let t := tile.val
  completes s (if !s.isSet (R.TILE_CFG.MOISTURE t) || !s.isSet (R.TC_STATUS.DAMP t) || s.rd (R.TILE_STATUS.ATTACH t) = 1 then s
    else if attached s t || isUp s t then moistResult t [sbu1, sbu2] s
    else if moistDiscard s t cc1 cc2 sbu1 sbu2 then detectNow t cc1 cc2 s
    else moistResult t [cc1, cc2, sbu1, sbu2] s)

/-- A tile message (R326): REFUSED for a grove that neither owns the tile nor is grove 0; BAD_REQUEST for no tile. -/
def tileMail (slot op len : Nat) (h : Nat → List Nat → State → MailAnswer) (s : State) : State :=
  serveMail slot op (· = len) (fun b s =>
    let t := leVal (b.take 4)
    if 14 ≤ t then failMail 2 s
    else if slot = 0 || ownsTile s slot t then h t (b.drop 4) s
    else failMail 1 s) s
/-- PD_INFO (R326). -/
def execPdInfo (slot : Fin 8) (s : State) : Res :=
  completes s (tileMail slot 0x60 4 (fun t _ s =>
    let w := (R.PD_CONTRACT.all t).foldl (fun a f => a + 2 ^ f.lo * s.rd f) 0
    okMail s (leBytes 4 w ++ leBytes 4 (tcOf s t).objs.length ++ ((tcOf s t).objs.take 7).flatMap (leBytes 4))) s)
/-- SINK_SET (R326, R328): BUSY while a fixed request of R311 is pending. -/
def execSinkSet (slot : Fin 8) (granted : Option Bool) (s : State) : Res :=
  completes s (tileMail slot 0x61 12 (fun t b s =>
    let v := leVal (b.take 4)
    let i := leVal (b.drop 4)
    if !isUp s t || v < 165 || 1050 < v || i < 1 || 100 < i then failMail 2 s
    else if (tcOf s t).fixedReq = 1 then failMail 3 s
    else
      let s1 := negotiateSink t (tcOf s t).rev3 false (changeTc t (fun x => { x with sink := some (20 * v, 50 * i) }) s)
      if granted = some false then failMail 5 (changeTc t (fun x => { x with pending := none }) s1)
      else okMail (changeTc t (fun x => { x with moved := x.pending.isSome && granted = some true }) s1)) s)
/-- The HARD_RESET message (R326). -/
def execPdHardResetMailbox (slot : Fin 8) (s : State) : Res :=
  completes s (tileMail slot 0x62 4 (fun t _ s => if tileRole s t = 0 then failMail 2 s else okMail (sendHardReset t s)) s)
/-- RECAP (R326). -/
def execRecap (slot : Fin 8) (contract : Bool) (s : State) : Res :=
  completes s (tileMail slot 0x63 4 (fun t _ s =>
    if tileRole s t = 0 then failMail 2 s
    else
      let s1 := if !isDown s t then sendPd t .getSourceCap s
        else if pathOf s t = 3 && !(tcOf s t).noContract then sendCaps t s else s
      if contract then okMail s1 else failMail 5 s1) s)
/-- CABLE_INFO (R326): a DOWN tile's cable. -/
def execCableInfo (slot : Fin 8) (s : State) : Res :=
  completes s (tileMail slot 0x64 4 (fun t _ s =>
    if !isDown s t then failMail 2 s
    else if (tcOf s t).cable.isEmpty then failMail 6 s
    else okMail s ((tcOf s t).cable.flatMap (leBytes 4))) s)

end Sys2Proof.Machine
end

