-- ==== Sys2Proof/Machine/Rbp.lean ====
section
/-! DEFINITION. Retro Bus Ports: the window, its holds and what it issues, the paged view and bus-master DMA
(chapter 12). -/
namespace Sys2Proof.Machine

def rbpServing (s : State) (p : Nat) : Bool := hasRbp s p && s.isSet (R.RBP_CFG.SERVING p) && dormantState s = 0
def changeRbp (p : Nat) (f : Rbp → Rbp) (s : State) : State := putRbp p (f (rbpSt s p)) s
def clockedMode (s : State) (p : Nat) : Bool := s.rd (R.RBP_CFG.MODE p) = 0
def rbpSrc (p k : Nat) : Nat := 176 + 8 * p + k
/-- An access that breaks the bus protocol: counted and ignored, a waiting one too; the answer of a read it had issued is
discarded (R240). -/
def protocolError (p : Nat) (s : State) : State :=
  changeRbp p (fun x => { x with waiting := none, issues := x.issues.map (fun i => match i with
      | .regRead a true _ => .regRead a true false
      | .remote false true _ => .remote false true false
      | j => j) })
    (occur (rbpSrc p 0) (s.bump (R.RBP_COUNTS.PROTOCOL p) 1))
/-- What reaches a port that serves its grove; a port that does not serve answers as R188 or R143 say. -/
def served (p : Nat) (f : Nat → State → State) (s : State) : State :=
  match slotOfRbp s p with
  | some slot => if rbpServing s p then f slot s else s
  | none => s
/-- An access to the window of a port; while the port is DMA master it breaks the protocol (R240). -/
def window (p : Nat) (f : Nat → State → State) (s : State) : State :=
  served p (fun slot s => if (rbpSt s p).dma = 2 then protocolError p s else f slot s) s

/-- The bytes that an access moves (R235, R236, R244): one on WIDTH 8; on WIDTH 16 one, of its own lane, or two from an even
offset, A_0 being ignored. -/
def laneBytes (s : State) (p off : Nat) (bs : List Nat) : Nat × List Nat :=
  if width16 s p then (if 2 ≤ bs.length then (off / 2 * 2, bs.take 2) else (off, bs)) else (off, bs.take 1)
/-- The same for a write given as the data lines and the enabled lanes, and for a read of so many bytes (R235, R242): no lane
enabled, no access. -/
def lanesIn (s : State) (p off lines byteEn : Nat) : Nat × List Nat :=
  if byteEn % 4 = 0 then (off, [])
  else if width16 s p then
    let swap := s.isSet (R.RBP_TIMING.LANE_SWAP p)
    let even := if swap then lines / 256 % 256 else lines % 256
    let odd := if swap then lines % 256 else lines / 256 % 256
    (off / 2 * 2 + b2n (byteEn % 4 = 2), (if bit byteEn 0 then [even] else []) ++ (if bit byteEn 1 then [odd] else []))
  else (off, [lines % 256])
def lanesOut (s : State) (p off count : Nat) : Nat × Nat :=
  if width16 s p && 2 ≤ count then (off / 2 * 2, 2) else (off, min count 1)
/-- The data lines that carry the bytes of a read from an offset: with WIDTH 16 the even byte on D_0 to D_7 and the odd one on
D_8 to D_15, or the other way with LANE_SWAP (R242). -/
def linesOf (s : State) (p off : Nat) (bs : List Nat) : Nat :=
  if width16 s p then
    (bs.zipIdx).foldl (fun a e => a + e.1 % 256 * (if ((off + e.2) % 2 = 1) = s.isSet (R.RBP_TIMING.LANE_SWAP p) then 1 else 256)) 0
  else bs.headD 0 % 256

/-- The 64-bit word of the porch that holds an offset, as placed there and as its code delivers it (R71): its byte, zero where
uncorrectable (R258). -/
def porchWord (p off : Nat) : Nat := porchAddr p off / 8
def porchData (s : State) (p off : Nat) : Nat := leVal ((List.range 8).map (fun i => Tab.look 0 s.porch (4096 * p + off / 8 * 8 + i)))
def porchGives (s : State) (p off : Nat) : Nat := (eccRead (Tab.look 0 s.bufEcc (porchWord p off)) (porchData s p off)).data?.getD 0
def porchByte (s : State) (p off : Nat) : Nat :=
  if Tab.look 0 s.bufEcc (porchWord p off) = 0 then Tab.look 0 s.porch (4096 * p + off)
  else porchGives s p off / 2 ^ (8 * (off % 8)) % 256
def storePorch (p off v : Nat) (s : State) : State := { s with porch := Tab.put 0 s.porch (4096 * p + off) (v % 256) }
/-- A porch word that holds an error is stored anew as it was delivered. -/
def mendPorch (p off : Nat) (s : State) : State :=
  setBufEcc (porchWord p off) 0
    ((List.range 8).foldl (fun t i => storePorch p (off / 8 * 8 + i) (porchGives s p off / 2 ^ (8 * i)) t) s)
/-- Write one porch byte. -/
def putPorch (p off v : Nat) (s : State) : State :=
  storePorch p off v (if Tab.look 0 s.bufEcc (porchWord p off) = 0 then s else mendPorch p off s)
/-- The words of `n` porch bytes are read (R71): an uncorrectable one sets RBP_PORCH_UE with source 39 (R258). -/
def sensePorch (p off n : Nat) (s : State) : State :=
  ((s.bufEcc.map Prod.fst).filter (fun w => porchWord p off ≤ w && w < porchWord p (off + n + 7) && n != 0)).foldl (fun t w =>
    let o := 8 * w - porchAddr p 0
    match readBuf w (porchData t p o) t with
    | (some _, u) => u
    | (none, u) => occur (rbpSrc p 3) u) s
def putPorchList (p : Nat) : Nat → List Nat → State → State
  | _, [], s => s
  | off, b :: bs, s => putPorchList p (off + 1) bs (putPorch p off b s)
def porchBytes (s : State) (p off n : Nat) : List Nat := (List.range n).map (fun i => porchByte s p (off + i))
/-- Byte offset of a queue porch slot (Table 12-5). -/
def porchSlot (k : Nat) : Nat := 0x100 + 32 * k


/-- The window's registers that R257 returns to reset. -/
def windowFields (p : Nat) : List Fld :=
  R.IND_ADDR.all p ++ R.IND_DATA.all p ++ R.IND_CTRL.all p ++ R.IND_STATUS.all p ++ R.DOORBELL.all p ++ R.DOORBELL_STATUS.all p
    ++ R.PAGE.all p ++ R.PAGE_STATUS.all p ++ R.DMA_HOST.all p ++ R.DMA_REGION.all p ++ R.DMA_OFFSET.all p ++ R.DMA_LEN.all p
    ++ R.DMA_CTRL.all p ++ R.DMA_DONE_ADDR.all p ++ (R.IND_CMD.all p ++ R.PAGE_CMD.all p)
/-- The port at grove ready and at un-prune (R257). -/
def resetPort (p : Nat) (s : State) : State :=
  let s1 := s.rstAll (windowFields p)
  let s2 := if s.rd (R.DMA_STATUS.STATE p) = 6 then s1 else s1.rstAll (R.DMA_STATUS.all p)
  putRbp p Rbp.reset { s2 with porch := s2.porch.filter (fun e => e.1 / 4096 != p) }

/-- Clear bits of GROVE_IRQ_STATUS; in a stack the clear also goes to the other members' banks (R53). -/
def clearIrq (slot irq : Nat) (s : State) : State :=
  let s1 := (List.range 9).foldl (fun a k => if bit irq k then a.off (irqBit slot k) else a) s
  passOn slot 0x0008010C irq s1

/-- Entries of the write buffer (R246). -/
def inBuffer (x : Rbp) : Nat :=
  (x.issues.filter (fun i => match i with | .regWrite _ _ _ => true | .through _ _ => true | .irqClear _ => true | _ => false)).length
def bufferFull (x : Rbp) : Bool := 64 ≤ inBuffer x
def addIssue (i : Issue) (x : Rbp) : Rbp := { x with issues := x.issues ++ [i] }

/-- Put a byte among the bytes of a line, in ascending offset; a later byte replaces an earlier one. -/
def mergeByte (e : Nat × Nat) : List (Nat × Nat) → List (Nat × Nat)
  | [] => [e]
  | h :: r => if e.1 = h.1 then e :: r else if e.1 < h.1 then e :: h :: r else h :: mergeByte e r
/-- Queue a write-through; bytes of a line that already waits merge into it (R252). -/
def addThrough (region : Nat) (bs : List (Nat × Nat)) (x : Rbp) : Rbp :=
  let line := (bs.headD (0, 0)).1 / 64
  let same (i : Issue) : Bool := match i with | .through r l => r = region && (l.headD (0, 0)).1 / 64 = line | _ => false
  if x.issues.any same then
    { x with issues := x.issues.map (fun i => match i with
        | .through r l => if same i then .through r (bs.foldl (fun a e => mergeByte e a) l) else i
        | j => j) }
  else addIssue (.through region bs) x

def dmaRunning (s : State) (p : Nat) : Bool := s.rd (R.DMA_STATUS.STATE p) = 1
def setDma (p phase : Nat) (s : State) : State := changeRbp p (fun x => { x with dma := phase }) s
/-- The bytes of so many bus cycles of the DMA under way, the transfer's rest at most. -/
def cycleBytes (s : State) (p cycles : Nat) : Nat :=
  let x := rbpSt s p
  min (min cycles x.cycles * (if width16 s p then 2 else 1)) (x.job.len - s.rd (R.DMA_STATUS.MOVED p))
/-- The region's bytes of a burst towards the host are staged, a 64-byte line at a time, up to the first line that fails or is
refused (R255, R256). -/
def stageBurst (p slot : Nat) : Nat → Nat → State → State
  | 0, _, s => s
  | fuel + 1, n, s =>
    let x := rbpSt s p
    let off := x.job.offset + s.rd (R.DMA_STATUS.MOVED p) + x.staged.length
    if n = 0 then s
    else
      match regionAddr s slot x.job.region off 1 with
      | none => changeRbp p (fun y => { y with failed := true }) (memRefuse slot s)
      | some a =>
        let k := min n (64 - a % 64)
        let r := unitRead slot a k s
        if r.1.err != 0 || r.1.refused then changeRbp p (fun y => { y with failed := true }) r.2
        else stageBurst p slot fuel (n - k) (changeRbp p (fun y => { y with staged := y.staged ++ r.1.bytes }) r.2)
/-- The port stages a burst and requests the bus (Table 12-8): BURST as it stands now (R258). -/
def requestBus (p : Nat) (s : State) : State :=
  match slotOfRbp s p with
  | none => s
  | some slot =>
    let s1 := changeRbp p (fun x => { x with dma := 1, cycles := s.rd (R.RBP_DMA_TIMING.BURST p), staged := [], failed := false }) s
    let s2 := if (rbpSt s1 p).job.dir then s1 else stageBurst p slot 16 (cycleBytes s1 p 255) s1
    s2.emit (.busRequest p true)

/-- What stands at the head and needs no answer is issued: clears of interrupt bits, and the start of a DMA (R246, R253). -/
def drainHead (p : Nat) : Nat → State → State
  | 0, s => s
  | n + 1, s =>
    match (rbpSt s p).issues, slotOfRbp s p with
    | .irqClear b :: r, some slot => drainHead p n (clearIrq slot b (changeRbp p (fun x => { x with issues := r }) s))
    | .dmaStart :: r, some _ => drainHead p n (requestBus p (changeRbp p (fun x => { x with issues := r }) s))
    | _, _ => s
/-- FILLING sets once every write-through queued before the fill has been issued (R251). -/
def fillDue (x : Rbp) : Bool :=
  x.issues.any (fun i => match i with | .fill _ _ => true | _ => false)
    && (x.issues.takeWhile (fun i => match i with | .fill _ _ => false | _ => true)).all (fun i => match i with | .through _ _ => false | _ => true)
def syncFill (p : Nat) (s : State) : State := if fillDue (rbpSt s p) then s.on (R.PAGE_STATUS.FILLING p) else s

/-- The effect of an access that has room (R246, R247, R252, R253). -/
def admitWait (p : Nat) (w : BusWait) (s : State) : State :=
  match w with
  | .view off data =>
    let base := 2048 * s.rd (R.PAGE.UNIT p) + (off - 0x800)
    let bs := data.zipIdx.map (fun e => (base + e.2, e.1 % 256))
    changeRbp p (addThrough (s.rd (R.PAGE.REGION p)) bs) (putPorchList p off data s)
  | .commit be v =>
    let a := 4 * s.rd (R.IND_ADDR.ADDR p)
    let s1 := changeRbp p (addIssue (.regWrite a be v)) (s.wr (R.IND_DATA.DATA p) v)
    if s.isSet (R.IND_CTRL.INC p) then s1.wr (R.IND_ADDR.ADDR p) (s.rd (R.IND_ADDR.ADDR p) + 1) else s1
  | .irq b => drainHead p 64 (changeRbp p (addIssue (.irqClear b)) s)
  | .read _ => s
/-- A posted write: taken, or dropped in clocked mode, or waiting (R246). -/
def post (p : Nat) (w : BusWait) (s : State) : State :=
  if !bufferFull (rbpSt s p) then admitWait p w s
  else if clockedMode s p then occur (rbpSrc p 1) (s.bump (R.RBP_COUNTS.POSTED_DROPS p) 1)
  else changeRbp p (fun x => { x with waiting := some w }) s
/-- What has come to the head goes on; a waiting write takes an entry that freed. -/
def settle (p : Nat) (s : State) : State :=
  let s1 := syncFill p (drainHead p 64 s)
  match (rbpSt s1 p).waiting with
  | some (.read _) => s1
  | some w =>
    if bufferFull (rbpSt s1 p) then s1 else admitWait p w (changeRbp p (fun x => { x with waiting := none }) s1)
  | none => s1
/-- The head of what is issued has gone. -/
def issued (p : Nat) (s : State) : State := settle p (changeRbp p (fun x => { x with issues := x.issues.drop 1 }) s)

/-- A fill of the paged view is due; one in progress stops and the new one runs (R251, R259). -/
def startFill (p : Nat) (s : State) : State :=
  syncFill p (changeRbp p (fun x => { x with issues := x.issues.filter (fun i => match i with | .fill _ _ => false | _ => true)
                                   ++ [.fill (s.rd (R.PAGE.REGION p)) (s.rd (R.PAGE.UNIT p))] }) s)

def doorBusy (s : State) (p : Nat) : Bool := s.rd (R.DOORBELL_STATUS.STATE p) = 1
/-- A doorbell's TARGET, COUNT and FIRST allow its operation (R249; the queue targets of R289 and R290 are 0 to 9, 11 to 15). -/
def doorFits (s : State) (d : Door) : Bool :=
  d.count != 0 && d.first + d.count ≤ 56
    && (match d.op with
      | 1 => d.target < 2 && hasDrum s d.target
      | 2 => d.target = 0
      | 3 => d.target < 16
      | 4 => d.target < 16
      | 5 => d.target = 0 && d.count = 8
      | _ => false)
/-- A commit of DOORBELL (R249, R250); TAKEN sets for every operation of a legal form (DEDUCED from the bench notes of
chapters 12 and 14). -/
def startDoor (p : Nat) (s : State) : State :=
  if doorBusy s p then s.on (R.DOORBELL_STATUS.IGNORED p)
  else
    let d : Door := ⟨s.rd (R.DOORBELL.OP p), s.rd (R.DOORBELL.TARGET p), s.rd (R.DOORBELL.COUNT p), s.rd (R.DOORBELL.FIRST p), []⟩
    let copies := doorFits s d && (d.op = 1 || d.op = 4 || d.op = 5)
    let s1 := ((s.wr (R.DOORBELL_STATUS.CODE p) 0).wr (R.DOORBELL_STATUS.MOVED p) 0).wr (R.DOORBELL_STATUS.STATE p) 1
    let s2 := if copies then sensePorch p (porchSlot d.first) (32 * d.count) s1 else s1
    changeRbp p (fun x => { x with
        door := some { d with staged := if copies then porchBytes s p (porchSlot d.first) (32 * d.count) else [] }
        issues := if doorFits s d then x.issues ++ [.door] else x.issues })
      (s2.wrB (R.DOORBELL_STATUS.TAKEN p) (doorFits s d))
/-- A doorbell ends. -/
def endDoor (p code moved : Nat) (error : Bool) (s : State) : State :=
  settle p <| changeRbp p (fun x => { x with door := none, issues := x.issues.filter (· != .door) })
    (((s.wr (R.DOORBELL_STATUS.STATE p) (if error then 3 else 2)).wr (R.DOORBELL_STATUS.CODE p) code).wr (R.DOORBELL_STATUS.MOVED p) moved)

/-- Fields of the atomic register at a window offset (Table 12-6). -/
def atomicFields (p off : Nat) : Option (List Fld) :=
  if off = 0x08 then some (R.IND_ADDR.all p)
  else if off = 0x0C then some (R.IND_DATA.all p)
  else if off = 0x20 then some (R.DOORBELL.all p)
  else if off = 0x30 then some (R.PAGE.all p)
  else if off = 0x40 then some (R.DMA_HOST.all p)
  else if off = 0x48 then some (R.DMA_OFFSET.all p)
  else if off = 0x4C then some (R.DMA_LEN.all p)
  else if off = 0x54 then some (R.DMA_DONE_ADDR.all p)
  else if off = 0x58 then some (R.DMA_STATUS.all p)
  else none
/-- A word with some of its bytes replaced. -/
def mergeWord (old : Nat) (bs : List (Nat × Nat)) : Nat :=
  bs.foldl (fun a e => a - bits a (8 * e.1) 8 * 2 ^ (8 * e.1) + e.2 % 256 * 2 ^ (8 * e.1)) old
/-- An atomic register receives the bytes written since the last commit (R244). -/
def commitAtomic (p off : Nat) (fs : List Fld) (bs : List (Nat × Nat)) (s : State) : State :=
  let w := mergeWord (fieldsWord s fs) bs
  if off = 0x58 then s
  else if off = 0x0C then post p (.commit (bs.foldl (fun a e => a ||| 2 ^ e.1) 0) w) s
  else
    let s1 := putFields fs w s
    if off = 0x20 then startDoor p s1 else if off = 0x30 then startFill p s1 else s1
/-- A bus write of one byte or two to an atomic register (R244, R245). -/
def atomicWrite (p off : Nat) (data : List Nat) (s : State) : State :=
  let reg := off / 4 * 4
  match atomicFields p reg with
  | none => s
  | some fs =>
    let x := rbpSt s p
    let lost := !x.held.isEmpty && x.tag != reg
    let s1 := if lost then occur (rbpSrc p 4) (s.bump (R.RBP_COUNTS.HOLDS_DISCARDED p) 1) else s
    let bs := (data.zipIdx.map (fun e => (off % 4 + e.2, e.1 % 256))).filter (fun e => e.1 < 4)
    let all := bs.foldl (fun a e => mergeByte e a) (if lost then [] else x.held)
    if bs.any (fun e => e.1 = 3) then commitAtomic p reg fs all (changeRbp p (fun y => { y with tag := reg, held := [] }) s1)
    else changeRbp p (fun y => { y with tag := reg, held := all }) s1

/-- ATOMIC_REGISTER_WRITE (R244, R245). -/
def execAtomicRegisterWrite (port : Fin 2) (offset : Nat) (data : List Nat) (s : State) : Res :=
  completes s (window port (fun _ s =>
    let b := laneBytes s port offset data
    if b.2.isEmpty then s else atomicWrite port b.1 b.2 s) s)
/-- The bytes of a write that ends with byte 3 of a register: one on WIDTH 8, up to two on WIDTH 16. -/
def lastBytes (port reg : Nat) (data : List Nat) (s : State) : State :=
  let b := data.take (if width16 s port then 2 else 1)
  if b.isEmpty then s else atomicWrite port (reg + 4 - b.length) b s
/-- IND_DATA_COMMIT (R244, R246, R247). -/
def execIndDataCommit (port : Fin 2) (data : List Nat) (s : State) : Res :=
  completes s (window port (fun _ => lastBytes port 0x0C data) s)
/-- PAGE_COMMIT (R251). -/
def execPageCommit (port : Fin 2) (data : List Nat) (s : State) : Res :=
  completes s (window port (fun _ => lastBytes port 0x30 data) s)
/-- REFILL (R251). -/
def execRefill (port : Fin 2) (s : State) : Res := completes s (window port (fun _ => startFill port) s)

/-- Issue a REG_READ of IND_ADDR. -/
def issueRead (p : Nat) (direct : Bool) (s : State) : State :=
  changeRbp p (addIssue (.regRead (4 * s.rd (R.IND_ADDR.ADDR p)) direct direct)) (s.on (R.IND_STATUS.BUSY p))
/-- IND_CMD_READ (R247, R248). -/
def execIndCmdRead (port : Fin 2) (s : State) : Res :=
  completes s (window port (fun _ s =>
    if s.isSet (R.IND_STATUS.BUSY port) then occur (rbpSrc port 4) (s.on (R.IND_STATUS.OVERLAP port)) else issueRead port false s) s)
/-- IND_DATA_DIRECT_READ (R236, R247): a read of byte 0, and with WIDTH 16 of byte 1 where its lane is enabled, that waits for
its answer. -/
def execIndDataDirectRead (access : DirectRead) (s : State) : Res :=
  let port := access.port
  completes s (window port (fun _ s =>
    if !clockedMode s port && s.isSet (R.IND_CTRL.DIRECT port) && !s.isSet (R.IND_STATUS.BUSY port) && !s.isSet (R.IND_STATUS.VALID port)
    then issueRead port true (changeRbp port (fun x => { x with waiting := some (.read (if width16 s port && access.both then 2 else 1)) }) s)
    else s) s)
/-- A read of IND_DATA's byte 3 (R247): VALID clears, IND_ADDR moves on with INC, and STREAM reads ahead. -/
def consumeInd (p : Nat) (s : State) : State :=
  let s1 := s.off (R.IND_STATUS.VALID p)
  let s2 := if s.isSet (R.IND_CTRL.INC p) then s1.wr (R.IND_ADDR.ADDR p) (s.rd (R.IND_ADDR.ADDR p) + 1) else s1
  if s.isSet (R.IND_CTRL.STREAM p) then issueRead p false s2 else s2
/-- IND_DATA_CONSUME (R244, R247): a read of byte 3. -/
def execIndDataConsume (port : Fin 2) (s : State) : Res :=
  completes s (window port (fun _ s => consumeInd port (s.emit (.bus port (linesOf s port 3 [bits (rbpSt s port).readHold 24 8])))) s)

/-- RBP_WAIT_TIMEOUT (R240, R248). -/
def execRbpWaitTimeout (port : Fin 2) (s : State) : Res :=
  completes s (match (rbpSt s port).waiting with
    | none => s
    | some w =>
      let s1 := changeRbp port (fun x => { x with waiting := none }) (s.bump (R.RBP_COUNTS.WAIT_TIMEOUTS port) 1)
      match w with
      | .read _ =>
        changeRbp port (fun x => { x with issues := x.issues.map (fun i => match i with
            | .regRead a d _ => .regRead a d false
            | .remote false d _ => .remote false d false
            | j => j) })
          ((s1.on (R.IND_STATUS.TIMEOUT port)).emit (.bus port 0))
      | _ => s1)
/-- RBP_PROTOCOL_ERROR (R240). -/
def execRbpProtocolError (port : Fin 2) (s : State) : Res :=
  completes s (if rbpServing s port then protocolError port s else s)

/-- Fill 64-byte lines of the view from an SDRAM address (R251). -/
def fillLines (p slot : Nat) : Nat → Nat → Nat → State → State
  | 0, _, _, s => s
  | n + 1, off, a, s =>
    let r := unitRead slot a 64 s
    let s1 := if r.1.err = 0 && !r.1.refused then putPorchList p off r.1.bytes r.2
      else (putPorchList p off (List.replicate 64 0) r.2).on (R.PAGE_STATUS.ERROR p)
    fillLines p slot n (off + 64) (a + 64) s1
/-- Bytes written to the view while it fills stay (R259). -/
def overlayThroughs (p region unit : Nat) (s : State) : State :=
  (rbpSt s p).issues.foldl (fun a i => match i with
    | .through r bs => if r = region then
        bs.foldl (fun b e => if 2048 * unit ≤ e.1 && e.1 < 2048 * unit + 2048 then putPorch p (0x800 + e.1 - 2048 * unit) e.2 b else b) a else a
    | _ => a) s
/-- PAGE_FILL_DONE (R251, R259): the fill is at the head of what the port issues. -/
def execPageFillDone (port : Fin 2) (s : State) : Res :=
  let p := port.val
  completes s (match (rbpSt s p).issues, slotOfRbp s p with
    | .fill region unit :: _, some slot =>
      let s1 := issued p s
      let s2 := match regionAddr s slot region (2048 * unit) 2048 with
        | some a => fillLines p slot 32 0x800 a s1
        | none => (memRefuse slot (putPorchList p 0x800 (List.replicate 2048 0) s1)).on (R.PAGE_STATUS.REFUSED p)
      (overlayThroughs p region unit s2).off (R.PAGE_STATUS.FILLING p)
    | _, _ => s)

/-- PAGED_VIEW_WRITE (R246, R252). -/
def execPagedViewWrite (port : Fin 2) (offset : Nat) (data : List Nat) (s : State) : Res :=
  completes s (window port (fun _ s =>
    let b := laneBytes s port offset data
    if 0x800 ≤ b.1 && b.1 + b.2.length ≤ 0x1000 && !b.2.isEmpty then post port (.view b.1 b.2) s else s) s)

/-- The contiguous runs of a line's bytes. -/
def byteRuns : List (Nat × Nat) → List (Nat × List Nat)
  | [] => []
  | (a, b) :: r =>
    match byteRuns r with
    | (c, bs) :: t => if c = a + 1 then (a, b :: bs) :: t else (a, [b]) :: (c, bs) :: t
    | [] => [(a, [b])]
/-- WRITE_THROUGH_ANSWER (R252). -/
def execWriteThroughAnswer (port : Fin 2) (s : State) : Res :=
  let p := port.val
  completes s (match (rbpSt s p).issues, slotOfRbp s p with
    | .through region bs :: _, some slot =>
      (byteRuns bs).foldl (fun a run =>
        match regionAddr a slot region run.1 run.2.length with
        | some addr =>
          let r := unitWrite slot addr run.2 a
          if r.1.refused then r.2.on (R.PAGE_STATUS.REFUSED p) else if r.1.err != 0 then r.2.on (R.PAGE_STATUS.ERROR p) else r.2
        | none => (memRefuse slot a).on (R.PAGE_STATUS.REFUSED p)) (issued p s)
    | _, _ => s)

/-- WIN_IRQ_CLEAR (R253). -/
def execWinIrqClear (port : Fin 2) (bits : Nat) (s : State) : Res :=
  completes s (window port (fun _ => post port (.irq (bits % 512))) s)

/-- The checks of R254 but for the region range. -/
def dmaFits (s : State) (p : Nat) : Bool :=
  let host := s.rd (R.DMA_HOST.ADDR p)
  let len := s.rd (R.DMA_LEN.BYTES p)
  let done := s.rd (R.DMA_DONE_ADDR.ADDR p)
  let notify := s.isSet (R.DMA_CTRL.NOTIFY p)
  s.isSet (R.RBP_CFG.DMA p) && 1 ≤ len && len ≤ 65536 && s.rd (R.DMA_CTRL.TAG p) != 0xFF
    && (if width16 s p then host % 2 = 0 && len % 2 = 0 && (!notify || done % 2 = 0)
        else host + len ≤ 0x100000 && (!notify || done < 0x100000))
/-- The DMA ends in a STATE value, and the bus is released (R256). -/
def endDma (p state : Nat) (s : State) : State :=
  let s1 := changeRbp p (fun x => { x with dma := 0, staged := [], issues := x.issues.filter (· != .dmaStart) }) (s.wr (R.DMA_STATUS.STATE p) state)
  if (rbpSt s p).dma = 1 || (rbpSt s p).dma = 2 then s1.emit (.busRequest p false) else s1
/-- The notify cycle, where one is due (R256): the byte, with 0x00 above it on WIDTH 16. -/
def notify (p tag : Nat) (acc : Option Nat × State) : State :=
  let x := rbpSt acc.2 p
  if x.job.notify then (busCycles p true x.job.done (if width16 acc.2 p then [tag, 0] else [tag]) acc).2 else acc.2
/-- Bytes that the host gave go to the region, a 64-byte line at a time (fuel: at most 512 bytes a burst). False when a line
failed (R256). -/
def dmaStore (p slot : Nat) : Nat → List Nat → State → State × Bool
  | 0, _, s => (s, true)
  | fuel + 1, data, s =>
    let x := rbpSt s p
    let moved := s.rd (R.DMA_STATUS.MOVED p)
    if data.isEmpty then (s, true)
    else
      match regionAddr s slot x.job.region (x.job.offset + moved) 1 with
      | none => (memRefuse slot s, false)
      | some a =>
        let k := min data.length (64 - a % 64)
        let r := unitWrite slot a (data.take k) s
        if r.1.err != 0 || r.1.refused then (r.2, false)
        else dmaStore p slot fuel (data.drop k) (r.2.wr (R.DMA_STATUS.MOVED p) (moved + k))
/-- The cycles of a burst are made (R255): the address driven last, whether the region's bytes after them are not to be had
(R256), and the state. -/
def burstCycles (p slot cycles : Nat) (data : List Nat) (s : State) : Option Nat × Bool × State :=
  let x := rbpSt s p
  let n := cycleBytes s p cycles
  let moved := s.rd (R.DMA_STATUS.MOVED p)
  if x.job.dir then
    let given := (data.map (· % 256) ++ List.replicate n 0).take n
    let r := busCycles p false (x.job.host + moved) given (none, s)
    let w := dmaStore p slot 16 given r.2
    (r.1, !w.2, w.1)
  else
    let bs := x.staged.take n
    let r := busCycles p true (x.job.host + moved) bs (none, s)
    (r.1, x.failed && bs.length = x.staged.length, r.2.wr (R.DMA_STATUS.MOVED p) (moved + bs.length))
/-- A burst moves its bytes and ends, going on with `after` unless the transfer has ended (R255, R256). -/
def burst (p cycles : Nat) (data : List Nat) (after : State → State) (s : State) : State :=
  match slotOfRbp s p with
  | none => s
  | some slot =>
    let r := burstCycles p slot cycles data s
    if r.2.1 then endDma p 5 (notify p 0xFF (r.1, r.2.2))
    else if r.2.2.rd (R.DMA_STATUS.MOVED p) ≥ (rbpSt s p).job.len then endDma p 2 (notify p (rbpSt s p).job.tag (r.1, r.2.2))
    else after r.2.2
/-- The bus is released between two bursts. -/
def releaseBus (p : Nat) (s : State) : State := (setDma p 3 s).emit (.busRequest p false)
/-- A running DMA is cancelled: in a burst the cycles made so far count, the current one with them (R256). -/
def cancelDma (p slot cycles : Nat) (data : List Nat) (s : State) : State :=
  if !dmaRunning s p then s
  else if (rbpSt s p).dma = 2 then endDma p 6 (burstCycles p slot cycles data s).2.2
  else endDma p 6 s
/-- The same where the cycles made, and the bytes the host gave in them, are free values. -/
def cancelFree (p slot : Nat) (s : State) : State :=
  if dmaRunning s p then cancelDma p slot (s.freeVal 0 % 256) ((List.range 512).map (fun j => s.freeVal (j + 1) % 256)) (s.drew 513) else s

/-- DMA_GO (R254, R259): refused with nothing moved, or started in its turn (R246). The transfer keeps the registers as GO found
them (DESIGN CHOICE, log 180). -/
def execDmaGo (port : Fin 2) (dir cancel : Bool) (s : State) : Res :=
  let p := port.val
  completes s (window p (fun slot s0 =>
    if dmaRunning s0 p then (if cancel then cancelFree p slot s0 else s0)
    else
      let s := (s0.wrB (R.DMA_CTRL.DIR p) dir).wr (R.DMA_STATUS.MOVED p) 0
      if cancel then s.wr (R.DMA_STATUS.STATE p) 6
      else if !dmaFits s p then s.wr (R.DMA_STATUS.STATE p) 3
      else if (regionAddr s slot (s.rd (R.DMA_REGION.REGION p)) (s.rd (R.DMA_OFFSET.OFFSET p)) (s.rd (R.DMA_LEN.BYTES p))).isNone then
        (memRefuse slot s).wr (R.DMA_STATUS.STATE p) 3
      else
        let job : DmaJob := ⟨s.rd (R.DMA_HOST.ADDR p), s.rd (R.DMA_REGION.REGION p), s.rd (R.DMA_OFFSET.OFFSET p), s.rd (R.DMA_LEN.BYTES p),
          dir, s.isSet (R.DMA_CTRL.NOTIFY p), s.rd (R.DMA_CTRL.TAG p), s.rd (R.DMA_DONE_ADDR.ADDR p)⟩
        settle p (changeRbp p (fun x => { x with job := job, dma := 5, issues := x.issues ++ [.dmaStart] }) (s.wr (R.DMA_STATUS.STATE p) 1))) s)

/-- DMA_GRANT (R255). -/
def execDmaGrant (port : Fin 2) (s : State) : Res :=
  completes s (if dmaRunning s port && (rbpSt s port).dma = 1 then setDma port 2 (retryEnd (rbpSrc port 2) s) else s)
/-- DMA_BURST_END (R255, R256). -/
def execDmaBurstEnd (port : Fin 2) (data : List Nat) (s : State) : Res :=
  completes s (if dmaRunning s port && (rbpSt s port).dma = 2 then burst port 255 data (releaseBus port) s else s)
/-- DMA_RELEASE_EXPIRE (R255). -/
def execDmaReleaseExpire (port : Fin 2) (s : State) : Res :=
  completes s (if dmaRunning s port && (rbpSt s port).dma = 3 then requestBus port s else s)
/-- DMA_GRANT_TIMEOUT (R256). -/
def execDmaGrantTimeout (port : Fin 2) (s : State) : Res :=
  completes s (if dmaRunning s port && (rbpSt s port).dma = 1 then
      failOrRetry (rbpSrc port 2) (fun t => if dmaRunning t port then endDma port 4 t else t) ((setDma port 4 s).emit (.busRequest port false))
    else s)
/-- DMA_GRANT_WITHDRAWN (R256): the grant limit runs anew after RELEASE. -/
def execDmaGrantWithdrawn (port : Fin 2) (cycles : Nat) (data : List Nat) (s : State) : Res :=
  completes s (if dmaRunning s port && (rbpSt s port).dma = 2 then burst port cycles data (releaseBus port) s else s)
/-- DMA_CANCEL (R256): the current cycle completes first. A write that the port took before its burst began reaches it in the
burst too (DEDUCED; a window access in the burst breaks the protocol, R240). -/
def execDmaCancel (port : Fin 2) (cycles : Nat) (data : List Nat) (s : State) : Res :=
  completes s (served port (fun slot s => cancelDma port slot cycles data s) s)

/-- A grove restart at its port (R257): the doorbell ends CANCELLED, a DMA too; writes already in the buffer are issued; the
answers of reads under way are void. -/
def restartPort (p : Nat) (s : State) : State :=
  let s1 := if doorBusy s p then endDoor p 4 (s.rd (R.DOORBELL_STATUS.MOVED p)) true s else s
  let s2 := match slotOfRbp s1 p with | some slot => cancelFree p slot s1 | none => s1
  let s3 := s2.rstAll (R.IND_ADDR.all p ++ R.IND_CTRL.all p ++ R.IND_STATUS.all p)
  settle p (changeRbp p (fun x => { x with
    tag := 0, held := [], readHold := 0, waiting := none
    issues := (x.issues.filter (fun i => match i with | .regRead _ _ _ => false | _ => true)).map
      (fun i => match i with | .remote false _ _ => .void | j => j) }) s3)

/-- The port begins to serve in the stream's MODE (R188, R257). -/
def servePort (p : Nat) (s : State) : State :=
  changeRbp p (fun x => { x with toServe := false }) ((resetPort p s).on (R.RBP_CFG.SERVING p))
/-- RBP_MODE_SWITCH (R188): the grove is ready and the select inactive. -/
def execRbpModeSwitch (port : Fin 2) (s : State) : Res :=
  completes s (if (rbpSt s port).toServe && hasRbp s port && !isPruned s (0x6000 + port.val) then servePort port s else s)
/-- STRAP_RESPONDER_ACCESS (R188): zero, except for code 0b11, whose outputs stay high-impedance. -/
def execStrapResponderAccess (port : Fin 2) (write : Bool) (s : State) : Res :=
  always s (if !s.pwrgd || !hasRbp s port || s.isSet (R.RBP_CFG.SERVING port) || write || strapSilent s port then s
    else s.emit (.bus port 0))

end Sys2Proof.Machine
end

