-- ==== Sys2Proof/Machine/Restart.lean ====
section
/-! DEFINITION. Power good, reset, loss of the reference and the warm restart (R116, R153, R183). -/
namespace Sys2Proof.Machine

/-- The boot record's words (Table 08-4), in the keeping store. -/
def bootRecord (s : State) (w : Nat) : Nat := keepW s w
def putBoot (w v : Nat) (s : State) : State := putKeep (senseKeep (4 * w) 4 s) w v
def bootMagic : Nat := 0x48574244
/-- The registers that show the boot record: CANOPY_NEXT.AREA, and CAUSE and TRIAL of HW_STATUS; an uninitialized record
shows its initial values (R158). -/
def showBoot (s : State) : State :=
  if bootRecord s 0 != bootMagic then s
  else
    (((s.wr R.CANOPY_NEXT.AREA (bootRecord s 4 % 2)).wr R.HW_STATUS.CAUSE (bits (bootRecord s 3) 8 4)).wr
      R.HW_STATUS.TRIAL_STATE (bootRecord s 1 % 4)).wr R.HW_STATUS.TRIAL_SLOT (bits (bootRecord s 1) 8 1)

/-- Register fields that keep their values through a restart: what R116 lists, and the levels of input pins. -/
def keptKey (k : Nat) : Bool :=
  let a := k / 32 % 2 ^ 32
  (0x00040000 ≤ a && a < 0x00040040) || a = 0x00030208 || a = 0x00290020
    || k = R.METRO_STATUS.SOURCE.key || k = R.METRO_STATUS.XTAL_QUAL.key
    || [0, 1, 2].any (fun r => k = (R.TEMPO_STATE.PGOOD r).key)
    || [0, 1].any (fun n => k = (R.FRONT_STATUS.PERMIT n).key || k = (R.TRAY_STATUS.IN_SW n).key || k = (R.TRAY_STATUS.OUT_SW n).key
      || k = (R.TRAY_STATUS.BTN n).key)
/-- Level causes that stand outside the part: supplies, clocks, VM, drivers, the tray and the muffled bells. -/
def keptCause (c : Nat) : Bool :=
  c < 16 || c = 31 || (176 ≤ c && c < 192) || [216 + 34, 280 + 34, 216 + 5, 280 + 5].contains c

/-- The state that a restart leaves, before anything starts (R116): the metronome's count, source and qualification, the
sticky fault bits, the muffled bells, the keeping store; the flash, and the pins. -/
def restartState (s : State) : State :=
  showBoot { State.reset with
    variant := s.variant
    pending := s.pending
    outs := s.outs
    freeCtr := s.freeCtr + 1
    keeping := s.keeping
    keepEcc := s.keepEcc
    flash := s.flash
    metro := s.metro
    xtalRun := s.xtalRun
    muffle := s.muffle
    regs := s.regs.filter (fun e => keptKey e.1)
    causes := s.causes.filter (fun e => keptCause e.1)
    pwrgd := s.pwrgd
    resetN := s.resetN
    testEn := s.testEn
    dbgTrstN := s.dbgTrstN
    refLost := s.refLost
    refGood := s.refGood && !s.refLost
    strapRbp := s.strapRbp
    strapStack := s.strapStack
    stack := { Stack.reset with startId := s.freeVal 0 % 2 ^ 32 } }
/-- The strap codes of the Retro Bus Ports, as RBP_CFG shows them. -/
def showStraps (s : State) : State :=
  (List.range 2).foldl (fun t p => if hasRbp t p then t.wr (R.RBP_CFG.STRAP p) (Tab.look 0 t.strapRbp p) else t) s

/-- The domains that the start raises: Heartwood, its RAM, the spine, the SDRAM, SEAL's engine, the keeping store, the
buffer banks, the identity buses, the ROM, attestation and random engines, the tally store, GPIO, the stack controller. -/
def startDomains (s : State) : List Nat :=
  (List.range' 1 13) ++ [14, 15] ++ (if hasSeal s then [16] else []) ++ [18] ++ (List.range' 117 4) ++ [131, 132, 133, 136, 137, 138, 139, 141, 142, 143]
/-- The instant "25 MHz oscillator started" (Table 09-2): the reference meets R115, and the start's domains rise. -/
def startClocks (s : State) : State :=
  syncGens (unitRequest s.dbgTrstN 140 (unitRequestAll true (startDomains s) (s.on R.START_STATUS.REF)))
/-- A start runs where PWRGD and RESET_N are high and the reference has given its 2,048 good cycles (R115, R183). -/
def mayStart (s : State) : Bool := s.pwrgd && s.resetN && !s.testEn && !s.refLost && s.refGood
/-- The warm restart (R153). -/
def warmRestart (s : State) : State :=
  let t := showStraps (restartState s)
  if mayStart t then startClocks t else t

/-- PWRGD_RISE (R183): t = 0. Everything starts afresh but the keeping store and the flash; the straps are sampled. -/
def execPwrgdRise (strap0 strap1 : Fin 4) (position : Fin 8) (s : State) : Res :=
  always s (if s.pwrgd then s
    else
      showStraps (showBoot { State.reset with
        variant := s.variant
        pending := s.pending
        outs := s.outs
        freeCtr := s.freeCtr + 1
        keeping := s.keeping
        keepEcc := s.keepEcc
        flash := s.flash
        resetN := s.resetN
        testEn := s.testEn
        dbgTrstN := s.dbgTrstN
        strapRbp := Tab.put 0 (Tab.put 0 [] 0 strap0.val) 1 strap1.val
        strapStack := position.val
        regs := s.regs.filter (fun e => keptKey e.1 && !(0x00040000 ≤ e.1 / 32 % 2 ^ 32 && e.1 / 32 % 2 ^ 32 < 0x00040040)
          && e.1 / 32 % 2 ^ 32 != 0x00030208 && e.1 / 32 % 2 ^ 32 != 0x00020000)
        stack := { Stack.reset with startId := s.freeVal 0 % 2 ^ 32 } }))
/-- PWRGD_FALL (R183): every domain in reset; the keeping store, the flash and the pins' levels stay. -/
def execPwrgdFall (s : State) : Res :=
  always s (if !s.pwrgd then s
    else
      { State.reset with
        variant := s.variant
        pending := s.pending
        outs := s.outs
        freeCtr := s.freeCtr
        keeping := s.keeping
        keepEcc := s.keepEcc
        flash := s.flash
        resetN := s.resetN
        testEn := s.testEn
        dbgTrstN := s.dbgTrstN
        pwrgd := false
        regs := s.regs.filter (fun e => keptKey e.1 && !(0x00040000 ≤ e.1 / 32 % 2 ^ 32 && e.1 / 32 % 2 ^ 32 < 0x00040040)
          && e.1 / 32 % 2 ^ 32 != 0x00030208 && e.1 / 32 % 2 ^ 32 != 0x00020000) })
/-- RESET_N or TEST_EN changes: the warm restart begins, is held, or the start runs (R183, R532). -/
def resetPins (n : Bool) (test : Bool) (s : State) : State :=
  let was := !s.resetN || s.testEn
  let now := !n || test
  let t := { s with resetN := n, testEn := test }
  if !s.pwrgd || was = now then t
  else if now then showStraps (restartState t)
  else if mayStart t then startClocks t else t
/-- RESET_N_FALL (R183): the warm restart, held while RESET_N stays low. -/
def execResetNFall (s : State) : Res := always s (resetPins false s.testEn s)
/-- RESET_N_RISE (R183): the start runs from "25 MHz oscillator started". -/
def execResetNRise (s : State) : Res := always s (resetPins true s.testEn s)
/-- TEST_EN_CHANGE (R532): while high it acts as RESET_N low. -/
def execTestEnChange (high : Bool) (s : State) : Res := always s (resetPins s.resetN high s)
/-- DBG_TRST_N_CHANGE (R532): the debug port is held, or requests DOMAIN_140. -/
def execDbgTrstNChange (high : Bool) (s : State) : Res :=
  senses s { s with dbgTrstN := high } (if s.isSet R.START_STATUS.REF then unitRequest high 140 { s with dbgTrstN := high } else { s with dbgTrstN := high })
/-- REFERENCE_READY (R115): 2,048 good cycles since power good. -/
def execReferenceReady (s : State) : Res :=
  always s (if !s.pwrgd || s.refLost || s.refGood then s
    else
      let t := { s with refGood := true }
      if mayStart t then startClocks t else t)
/-- REFERENCE_LOSS (R116): every domain but DOMAIN_000 in reset, and source 1. -/
def execReferenceLoss (s : State) : Res :=
  always s (if s.refLost || !s.refGood then s
    else setCause 1 true (showStraps (restartState { s with refLost := true })))
/-- REFERENCE_RESTORED (R116): 2,048 good cycles again, and the start runs. -/
def execReferenceRestored (s : State) : Res :=
  always s (if !s.refLost then s
    else
      let t := setCause 1 false { s with refLost := false, refGood := true }
      if mayStart t then startClocks t else t)

end Sys2Proof.Machine
end

