-- ==== Sys2Proof/Machine/Spine.lean ====
section
/-! DEFINITION. Spine packets to MEMCTL and TALLY, and the SDRAM controller's own commands (chapters 04 and 10). -/
namespace Sys2Proof.Machine

/-- A packet discarded for its form (R62) or its CRC (R64). -/
def discardMalformed (s : State) : State := occur 37 (s.bump R.SPINE_MALFORMED.COUNT 1)
def discardCrc (s : State) : State := occur 35 (s.bump R.SPINE_CRC_DISCARDS.COUNT 1)
/-- Act on a packet that arrives whole; discard it otherwise. -/
def onArrival (a : Arrival) (effect : State → State) (s : State) : State :=
  match a with
  | .good => effect s
  | .malformed => discardMalformed s
  | .badCrc => discardCrc s

/-- The arrival of a control packet's flits; both faults of one packet are counted. -/
def receive (fs : List Nat) (malformed : Bool) (effect : State → State) (s : State) : State :=
  if malformed || packetBadCrc fs then
    let s1 := if malformed then discardMalformed s else s
    if packetBadCrc fs then discardCrc s1 else s1
  else effect s

/-- The access that a MEM_READ or MEM_WRITE packet asks for. -/
def accessOf (fs : List Nat) (write : Bool) (data : List Nat) : MemAccess :=
  let h := headerOf (flitData (fs.headD 0))
  { port := h.source, slot := flitSlot (fs.headD 0), id := h.id, write := write, addr := h.addr % 2 ^ 34,
    len := lengthOf (fs.getD 1 0), data := data, got := [], err := 0, force := false }

/-- A packet passes from one spine port to another: the segments of both and the arbiter are powered (R12). One that cannot
pass changes nothing (DEDUCED: log 203). -/
def passes (s : State) (source dest : Nat) : Bool := portOn s source && portOn s dest
/-- MEM_READ (R12, R45, R62, R64, R77, R78, R93). -/
def execMemRead (flits : List Nat) (s : State) : Res :=
  let h := headerOf (flitData (flits.headD 0))
  completes s (if passes s h.source 1 then
      receive flits (packetMalformed flits || h.op != 5) (arriveAccess (accessOf flits false [])) s
    else s)

/-- MEM_WRITE (R12, R45, R62, R64, R78, R94 to R96). -/
def execMemWrite (flits payload : List Nat) (s : State) : Res :=
  let x := accessOf flits true (payloadBytes (lengthOf (flits.getD 1 0)) payload)
  completes s (if passes s x.port 1 then
      receive flits (packetMalformed flits || (headerOf (flitData (flits.headD 0))).op != 6 || payloadMalformed x.slot x.len payload)
        (arriveAccess x) s
    else s)

/-- The organizations of Table 04-7: capacity in GiB of a density and rank setting. -/
def organization (density ranks : Nat) : Option Nat :=
  match density, ranks with
  | 0, 0 => some 4
  | 0, 1 => some 8
  | 1, 0 => some 8
  | 1, 1 => some 16
  | 2, 0 => some 16
  | _, _ => none
def memConfig (s : State) : Option Nat := organization (s.rd R.MEMCTL_CFG.DENSITY) (s.rd R.MEMCTL_CFG.RANKS)
def timingSet (s : State) : Bool :=
  (R.MEMCTL_TIMING_0.all ++ R.MEMCTL_TIMING_1.all).all s.isSet

/-- MEMCTL_TRAIN (R74, R83, R84): in UNTRAINED or FAILED; a setting outside Table 04-7 ends FAILED. -/
def execMemctlTrain (slot : Fin 8) (s : State) : Res :=
  completes s (guardWrite slot 0x0009000C (fun s =>
    if s.rd R.MEMCTL_STATUS.STATE = 0 || s.rd R.MEMCTL_STATUS.STATE = 4 then
      if (memConfig s).isSome then (setCause 32 false s).wr R.MEMCTL_STATUS.STATE 1
      else (memFailed s).on R.START_STATUS.SDRAM_DONE
    else s) s)

/-- MEMCTL_TRAINING_DONE (R74, R90). -/
def execMemctlTrainingDone (good : Bool) (s : State) : Res :=
  completes s (if s.rd R.MEMCTL_STATUS.STATE != 1 then s
    else
      let s1 := s.on R.START_STATUS.SDRAM_DONE
      match memConfig s with
      | some cap =>
        if good && timingSet s then
          let s2 := (s1.wr R.MEMCTL_STATUS.STATE 2).wr R.MEMCTL_STATUS.CAPACITY cap
          if hasSeal s2 then s2.wr R.SEAL_CT_BASE.LINE (ctBase s2 / 64) else s2
        else memFailed s1
      | none => memFailed s1)

/-- SDRAM_REFRESH (R75): issued, or postponed while requests wait, at most 8 times. -/
def execSdramRefresh (waiting : Bool) (s : State) : Res :=
  completes s (if s.rd R.MEMCTL_STATUS.STATE != 2 then s
    else { s with refreshOwed := if waiting && s.refreshOwed < 8 then s.refreshOwed + 1 else 0 })

/-- ZQ_CALIBRATION (R75): drives the devices only; no register or memory changes. -/
def execZqCalibration (s : State) : Res := completes s s

/-- Scrub one line: plain under R77 and R78, sealed under R87 alone (R110). -/
def scrubLine (a : Nat) (s : State) : State :=
  match (regionOfPage s (a / 4096)).filter (regionSealed s) with
  | some _ =>
    let v := lineVector s a
    match secdedDecode 575 565 10 (v % 2 ^ 565) (v / 2 ^ 565) with
    | .clean _ => s
    | .corrected d => occur 41 ((storeVector a (d + 2 ^ 565 * secdedCheck 575 565 10 d) s).bump R.SEAL_CE_COUNT.COUNT 1)
    | .uncorrectable => occur 42 (s.bump R.SEAL_UE_COUNT.COUNT 1)
  | none => (readPlain a s).2.2

/-- PATROL_SCRUB (R75): the next line of the trained capacity, in turn. -/
def execPatrolScrub (s : State) : Res :=
  completes s (if s.rd R.MEMCTL_STATUS.STATE != 2 || s.rd R.MEMCTL_CFG.PATROL_HOURS = 0 then s
    else
      let line := s.patrolLine % (sdramCapacity s / 64)
      { scrubLine (64 * line) s with patrolLine := (line + 1) % (sdramCapacity s / 64) })

/-- Write a tally's words at ring entry `i` of a slot. -/
def writeTallyEntry (slot i : Nat) (t : Tally) (s : State) : State := wrList (R.TALLY_ENTRY.BYTES slot i) 0 t.words s

/-- The TALLY block takes a tally: into the ring, or discarded when it is full or there is no ring (R215). -/
def takeTally (slot : Nat) (t : Tally) (s : State) : State :=
  if !configured s || !occupied s slot then s
  else
    let size := 2 ^ tallyDepth s slot
    let head := s.rd (R.TALLY_HEAD.COUNT slot)
    let tail := s.rd (R.TALLY_TAIL.COUNT slot)
    if (head + 65536 - tail) % 65536 = size then
      (s.bump (R.TALLY_LOST.COUNT slot) 1).on (R.TALLY_STATUS.OVERFLOW slot)
    else setIrq slot 0 ((writeTallyEntry slot (head % size) t s).wr (R.TALLY_HEAD.COUNT slot) ((head + 1) % 65536))

/-- TALLY_PACKET (R12, R62, R64, R66, R215): a resend is recognised by its ID and only acknowledged. -/
def execTallyPacket (port : Fin 16) (slot : Fin 8) (arrival : Arrival) (s : State) : Res :=
  let k := 8 * port.val + slot.val
  let q := Tab.look TallyQ.reset s.tallyQ k
  completes s (match q.sent with
    | none => s
    | some t => if !passes s port 14 then s else onArrival arrival (fun s =>
        if Tab.look 0 s.tallyLast k = q.num + 1 then s
        else takeTally slot t { s with tallyLast := Tab.put 0 s.tallyLast k (q.num + 1) }) s)

/-- TALLY_ACK (R12, R66). -/
def execTallyAck (port : Fin 16) (slot : Fin 8) (ack : AckPacket) (s : State) : Res :=
  completes s (if !passes s 14 port then s else onArrival ack.arrival (fun s =>
    let q := Tab.look TallyQ.reset s.tallyQ (8 * port.val + slot.val)
    if q.sent.isSome && q.num = ack.id then releaseTally s port slot else s) s)

/-- TALLY_TAIL_WRITE (Table 10-11). -/
def execTallyTailWrite (slot : Fin 8) (value : Nat) (s : State) : Res :=
  completes s (guardWrite slot 0x00050004 (fun s =>
    let head := s.rd (R.TALLY_HEAD.COUNT slot)
    let v := value % 65536
    let depth := s.rd (R.TALLY_STATUS.DEPTH slot)
    s.wr (R.TALLY_TAIL.COUNT slot) (if (head + 65536 - v) % 65536 ≤ 2 ^ depth then v else head)) s)

/-- EVENT_PACKET (R12, R53): the root member sets the bits in its bank, which is reached through SP_2. -/
def execEventPacket (slot : Fin 8) (irq : Nat) (arrival : Arrival) (s : State) : Res :=
  completes s (if !portOn s 2 then s else onArrival arrival (fun s => (List.range 9).foldl (fun t k => if bit irq k then setIrq slot k t else t) s) s)

end Sys2Proof.Machine
end

