-- ==== Sys2Proof/Machine/Heartwood.lean ====
section
/-! DEFINITION. Heartwood: the ROM's choice, the mailbox and its messages, the report, and recovery mode (chapter 08). -/
namespace Sys2Proof.Machine

/-- TRIAL of the boot record, and HW_STATUS which shows it (Table 08-4). -/
def setTrial (st slot : Nat) (s : State) : State :=
  ((putBoot 1 (st + 256 * slot) s).wr R.HW_STATUS.TRIAL_STATE st).wr R.HW_STATUS.TRIAL_SLOT slot
/-- RECOVERY of the boot record, and HW_STATUS.CAUSE which shows it. -/
def setRecovery (enter cause : Nat) (s : State) : State := (putBoot 3 (enter + 256 * cause) s).wr R.HW_STATUS.CAUSE cause
def trialState (s : State) : Nat := bootRecord s 1 % 4
def trialSlot (s : State) : Nat := bits (bootRecord s 1) 8 1
/-- An uninitialized boot record is written with its initial values, MAGIC last (R158). -/
def initBoot (s : State) : State :=
  if bootRecord s 0 = bootMagic then s
  else putBoot 0 bootMagic ((List.range' 1 5).foldl (fun t w => putBoot w 0 t) (setRecovery 0 0 (setTrial 0 0 s)))

/-- The descriptor of slot k, its fields, and its image (Tables 08-2 and 08-3). -/
def descriptor (s : State) (k : Nat) : List Nat := flashBytes s (0x1000 * k) 128
def imageLength (s : State) (k : Nat) : Nat := word (descriptor s k) 0x0C
def slotVersion (s : State) (k : Nat) : Nat := word (descriptor s k) 0x08
def settingsFormat (s : State) (k : Nat) : Nat := half (descriptor s k) 0x1A
def imageBase (k : Nat) : Nat := 0x10000 + 0x400000 * k
/-- A descriptor is headed (R157). -/
def headedBytes (d : List Nat) : Bool :=
  let len := word d 0x0C
  let res := word d 0x10
  let entry := word d 0x14
  d.take 4 = [0x48, 0x57, 0x53, 0x4C] && half d 4 = 1 && half d 6 = 0x80
    && 4096 ≤ len && len ≤ 4194304 && len % 4 = 0
    && 1024 ≤ res && res ≤ 458752 && res % 4 = 0 && res ≤ len
    && entry % 4 = 0 && entry < res
    && word d 0x1C = 0 && (d.drop 0x60).all (· = 0)
def headed (s : State) (k : Nat) : Bool := headedBytes (descriptor s k)
/-- A headed descriptor is valid when the image matches DIGEST (R157). -/
def slotValid (s : State) (k : Nat) : Bool :=
  headed s k && sha256 (flashBytes s (imageBase k) (imageLength s k)) = ((descriptor s k).drop 0x20).take 32

/-- IDENT_PART, IDENT_VARIANT and IDENT_STEPPING (Table 00-4). -/
def identBytes (s : State) : List Nat := leBytes 4 0x4F4C0072 ++ leBytes 4 (variantCode s.variant) ++ leBytes 4 2

/-- A settings partition of another FORMAT is written with the firmware's defaults (R177); the event's TYPE and D are the
firmware's. -/
def resetSettings (format : Nat) (s : State) (g : Nat) : State :=
  let base := 0x8000 + 0x1000 * g
  if leVal (keepBytes s base 2) = format then s
  else
    let body := (List.range 4088).map (fun i => Config.settingsDefault format (8 + i) % 256)
    let s1 := putKeepList s base (leBytes 2 format ++ leBytes 2 (Config.settingsDefault format 2) ++ [0, 0, 0, 0] ++ body)
    let d := (List.range 32).map (fun i => s.freeVal i % 256)
    extendEvent 4 (0x80 + s.freeVal 32 % 128) d (leBytes 4 g) (s1.drew 33)
/-- A settings partition whose FORMAT is not the firmware's (R177). -/
def settingsDiffer (format : Nat) (s : State) (g : Nat) : Bool := leVal (keepBytes s (0x8000 + 0x1000 * g) 2) != format
/-- The settings rule of a boot (R177): every partition that differs, and one occurrence of source 26. -/
def settingsRule (format : Nat) (s : State) : State :=
  let s1 := (List.range 32).foldl (fun t g => resetSettings format (senseKeep (0x8000 + 0x1000 * g) 8 t) g) s
  if (List.range 32).any (settingsDiffer format s) then occur 26 s1 else s1

/-- The ROM boots slot k (R160), and its firmware applies the settings rule. -/
def bootSlot (k : Nat) (s : State) : State :=
  let d := descriptor s k
  let s1 := copyImage (imageBase k) (word d 0x10) (word d 0x14) (extendEvent 1 2 (sha256 d) d s)
  let s2 := extendEvent 1 3 ((d.drop 0x20).take 32) (leBytes 4 k) s1
  let s3 := putBoot 5 (min (bootRecord s2 5 + 1) 0xFFFFFFFF) s2
  let s4 := ((s3.wr R.HW_STATUS.MODE 1).wr R.HW_STATUS.SLOT k).wr R.HW_VERSION.VERSION (slotVersion s k)
  settingsRule (settingsFormat s k) (s4.on R.START_STATUS.FIRMWARE)
/-- Recovery mode is entered (R171). DESIGN CHOICE: the event's DATA is the RECOVERY word as Table 08-5 leaves it, ENTER and
CAUSE updated (log 175). -/
def enterRecovery (s : State) : State :=
  let data := leBytes 4 (bootRecord s 3)
  rdShown 0 (occur 16 ((extendEvent 1 4 (sha256 data) data s).wr R.HW_STATUS.MODE 2))

/-- The slots of rows 5 to 7 of Table 08-5, in the order they are tried. -/
def bootCandidates (s : State) : List Nat :=
  let kept := if trialState s = 3 then [trialSlot s] else []
  let rest := match headed s 0, headed s 1 with
    | true, true => if slotVersion s 1 > slotVersion s 0 then [1, 0] else [0, 1]
    | true, false => [0]
    | false, true => [1]
    | false, false => []
  (kept ++ rest).eraseDups
/-- Boot the first valid candidate; one skipped after a failed digest sets source 18 (R159). DESIGN CHOICE: the steps of R160
are taken for the slot that is booted alone, so a slot skipped for its digest leaves no FW_DESCRIPTOR event (log 176). -/
def tryBoot : List Nat → State → State
  | [], s => enterRecovery (setRecovery 0 4 s)
  | k :: r, s => if slotValid s k then bootSlot k s else tryBoot r (if headed s k then occur 18 s else s)
/-- Table 08-5. -/
def bootChoice (s : State) : State :=
  let r := bootRecord s 3
  if bit r 0 then enterRecovery (setRecovery 0 (bits r 8 4) s)
  else if trialState s = 2 then enterRecovery (setRecovery 0 3 (setTrial 0 (trialSlot s) s))
  else if trialState s = 1 then
    if slotValid s (trialSlot s) then bootSlot (trialSlot s) (setTrial 2 (trialSlot s) s)
    else
      let t := if headed s (trialSlot s) then occur 18 s else s
      enterRecovery (setRecovery 0 2 (setTrial 0 (trialSlot s) t))
  else tryBoot (bootCandidates s) s

/-- How the ROM reads the flash (R155): with the fastest quad read that its tables advertise, 1-4-4 before 1-1-4 (DEDUCED: it
moves its address on four lines too), or with command 0x03 at 25 MHz where the tables fail (source 19) or advertise neither
(DESIGN CHOICE: the spec names no other read). -/
def chooseRead (tables : Option FlashTables) (s : State) : State :=
  match tables with
  | some t =>
    setCause 19 false { s with flashRead := if t.quad144 then .quad144 else if t.quad114 then .quad114 else .single, flashAddr4 := t.fourByte }
  | none => setCause 19 true { s with flashRead := .single, flashAddr4 := false }
/-- The certificate that is stored (R170): at most 1,024 bytes, none where its length is 0. -/
def certificate : List Nat := (List.range (Config.certLength % 1025)).map (fun i => Config.certByte i % 256)
/-- Source 28 while no certificate is stored (R180). DESIGN CHOICE: the ROM finds it out at each start (log 189). -/
def senseCert (s : State) : State := setCause 28 (certificate = []) s
/-- BOOT_DECISION (R155, R158 to R160): once in a start, when CK_CORE has locked. -/
def execBootDecision (tables : Option FlashTables) (s : State) : Res :=
  completes s (if s.rd R.HW_STATUS.MODE != 0 || !s.isSet R.START_STATUS.CORE_LOCKED then s
    else
      let s1 := senseCert (senseKeep 0 0x1000 (chooseRead tables s))
      bootChoice (initBoot (extendEvent 0 1 (beBytes 32 Config.romDigest) (identBytes s1) s1)))

/-- FIRMWARE_ALIVE (R160). -/
def execFirmwareAlive (s : State) : Res :=
  completes s (if s.rd R.HW_STATUS.MODE = 1 && !s.isSet R.HW_STATUS.ALIVE then
      let s1 := putBoot 2 (s.rd R.HW_STATUS.SLOT + 2 ^ 31) (s.on R.HW_STATUS.ALIVE)
      if trialState s1 = 2 then setTrial 3 (trialSlot s1) s1 else s1
    else s)
/-- ALIVE_TIMER_EXPIRE (R160). -/
def execAliveTimerExpire (s : State) : Res :=
  completes s (if s.rd R.HW_STATUS.MODE = 1 && !s.isSet R.HW_STATUS.ALIVE then warmRestart (setRecovery 1 3 (occur 17 s)) else s)
/-- HW_RAM_CE (R153). -/
def execHwRamCe (s : State) : Res := completes s (occur 21 (mendHw s))
/-- HW_RAM_UE (R153). -/
def execHwRamUe (s : State) : Res := completes s (warmRestart (setRecovery 1 5 (occur 22 s)))
/-- RNG_HEALTH_FAILURE (R180): source 29, and the random source supplies no keys while it stands. -/
def execRngHealthFailure (present : Bool) (s : State) : Res :=
  completes s (setCause 29 present (if present then s.off R.SEAL_STATUS.RNG_READY else s))

/-- A hexadecimal digit of a console line. -/
def lowerHex (n : Nat) : Nat := if n < 10 then 48 + n else 87 + n
/-- A number in hexadecimal, without leading zeros. -/
def hexNum (x : Nat) : List Nat :=
  match ((List.range 8).map (fun i => x / 16 ^ (7 - i) % 16)).dropWhile (· = 0) with
  | [] => [48]
  | ds => ds.map lowerHex
/-- Bytes in hexadecimal, two digits each. -/
def hexBytes (bs : List Nat) : List Nat := bs.flatMap (fun b => [lowerHex (b / 16 % 16), lowerHex (b % 16)])
def asciiOf (t : String) : List Nat := t.toList.map Char.toNat

/-- The reply's words: header and body, in whole flits. -/
def replyBytes (m : Mail) (status : Nat) (body : List Nat) : List Nat :=
  let bs := [m.op % 256, m.tag % 256] ++ leBytes 2 body.length ++ leBytes 4 status ++ body
  bs ++ List.replicate ((8 - bs.length % 8) % 8) 0
/-- The reply that stands in a slot's mailbox is delivered: into the reply buffer with REPLY_READY and the MAILBOX
interrupt, and to the console or the doorbell that asked (R165, R168, R249). -/
def deliverReply (slot : Nat) (m : Mail) (status : Nat) (body : List Nat) (s : State) : State :=
  let bs := replyBytes m status body
  let s1 := ((putMail slot none s).off (R.HW_MB_STATUS.PENDING slot)).on (R.HW_MB_STATUS.REPLY_READY slot)
  let s2 := setIrq slot 2 (wrList (R.HW_MB_REPLY.WORD slot) 0 (wordsOf (bs.length / 4) bs) s1)
  if m.via = 0 then s2
  else if m.via = 1 then
    match consoleOf s2 slot with
    | some u => s2.emit (.console u (asciiOf "ok " ++ hexNum status ++ [32] ++ hexBytes body))
    | none => s2
  else
    let p := (m.via - 2) / 64 % 2
    let first := (m.via - 2) % 64
    endDoor p (if status = 4 then 5 else 0) 0 false (if status = 4 then s2 else putPorchList p (porchSlot first) bs s2)

/-- A request goes out unless one is outstanding (R165). -/
def sendMail (slot : Nat) (m : Mail) (s : State) : State :=
  if s.isSet (R.HW_MB_STATUS.PENDING slot) then s.on (R.HW_MB_STATUS.SEND_REFUSED slot)
  else putMail slot (some m) ((s.on (R.HW_MB_STATUS.PENDING slot)).off (R.HW_MB_STATUS.REPLY_READY slot))
/-- The bytes of the request buffer. -/
def requestBytes (s : State) (slot : Nat) : List Nat := (List.range 64).flatMap (fun i => leBytes 4 (s.rd (R.HW_MB_REQ.WORD slot i)))
/-- A message from its bytes (R164). -/
def mailFrom (via : Nat) (bs : List Nat) : Mail :=
  let len := leVal ((bs.drop 2).take 2)
  ⟨via, bs.getD 0 0, bs.getD 1 0, len, (bs.drop 8).take (min len 248), none, true⟩

/-- The MAILBOX packet of a slot that carries its request, or its reply, is discarded on arrival (R62, R64): nothing of it is
left, so the request waits until R65 or its deadline ends it. -/
def loseMail (slot : Nat) (a : Arrival) (s : State) : State :=
  match mailOf s slot with
  | some m => onArrival a id (putMail slot (some { m with heard := false, reply := none }) s)
  | none => s
/-- MAILBOX_SEND (R62, R64, R164, R165). -/
def execMailboxSend (packet : SlotPacket) (s : State) : Res :=
  let slot := packet.slot
  completes s (guardWrite slot 0x00060200 (fun s =>
    let t := sendMail slot (mailFrom 0 (requestBytes s slot)) s
    if packet.arrival = .good || s.isSet (R.HW_MB_STATUS.PENDING slot) then t else loseMail slot packet.arrival t) s)
/-- MAILBOX_REPLY (R62, R64, R165). -/
def execMailboxReply (packet : SlotPacket) (s : State) : Res :=
  let slot := packet.slot
  completes s (match mailOf s slot with
    | some m => match m.reply with
      | some r => if packet.arrival = .good then deliverReply slot m r.1 r.2 s else loseMail slot packet.arrival s
      | none => s
    | none => s)
/-- MAILBOX_TIMEOUT (R165): STATUS TIMEOUT, and source 27. -/
def execMailboxTimeout (slot : Fin 8) (s : State) : Res :=
  completes s (match mailOf s slot with
    | some m => occur 27 (deliverReply slot m 4 [] s)
    | none => s)

/-- The opcodes that some message has (R166). -/
def knownOps : List Nat :=
  [0x01, 0x02, 0x10, 0x11, 0x12, 0x20, 0x21, 0x22, 0x23, 0x24, 0x25, 0x30, 0x31, 0x40] ++ List.range' 0x50 8
    ++ List.range' 0x60 5 ++ List.range' 0x68 3
/-- MAILBOX_BAD_REQUEST (R166): an opcode that no message has; the other cases are answered as the message is served. -/
def execMailboxBadRequest (slot : Fin 8) (s : State) : Res :=
  completes s (match mailOf s slot with
    | some m => if m.heard && m.reply.isNone && firmwareRuns s && !knownOps.contains m.op then setReply slot 2 [] s else s
    | none => s)
/-- PING. -/
def execPing (slot : Fin 8) (s : State) : Res := completes s (serveMail slot 0x01 (· ≤ 248) (fun b s => okMail s b) s)
/-- VERSION. -/
def execVersion (slot : Fin 8) (s : State) : Res :=
  completes s (serveMail slot 0x02 (· = 0) (fun _ s0 =>
    let s := senseKeep 0 0x20 s0
    okMail s (leBytes 4 (s.rd R.HW_VERSION.VERSION)
      ++ [s.rd R.HW_STATUS.SLOT, trialState s, trialSlot s, s.rd R.HW_STATUS.MODE]
      ++ leBytes 2 (firmwareCompat s) ++ leBytes 2 (settingsFormat s (s.rd R.HW_STATUS.SLOT)) ++ [0, 0, 0, 0])) s)

/-- The report without its signature (Table 08-8). -/
def reportBody (s : State) (nonce : Option (List Nat)) : List Nat :=
  let flags := b2n nonce.isSome + 2 * b2n (s.isSet R.HW_LOG.DROPPED) + 4 * s.rd R.CANOPY_STATUS.ADJUSTED + 8 * s.rd R.CANOPY_STATUS.SEALED
  asciiOf "HWRP" ++ leBytes 2 1 ++ leBytes 2 flags ++ identBytes s ++ leBytes 4 (s.rd R.HW_VERSION.VERSION)
    ++ leBytes 4 (bootRecord s 1) ++ leBytes 4 (bootRecord s 5) ++ nonce.getD (List.replicate 32 0)
    ++ (List.range 8).flatMap (ringBytes s) ++ leBytes 4 (logBytes s) ++ leBytes 4 (s.rd R.HW_LOG.DROPPED)
    ++ List.replicate 8 0 ++ s.evLog.flatten
/-- The signature of a digest: per-signature secrets are drawn from the random source until neither half is 0, as FIPS 186-5
says. DESIGN CHOICE: at most `n` + 1 of them (log 189). -/
def signDigest (e : Nat) : Nat → State → (Nat × Nat) × State
  | 0, s => (ecdsaSign (scalarOf Config.attestKey) (scalarOf (s.freeVal 0)) e, s.drew 1)
  | n + 1, s =>
    let g := ecdsaSign (scalarOf Config.attestKey) (scalarOf (s.freeVal 0)) e
    if g.1 = 0 || g.2 = 0 then signDigest e n (s.drew 1) else (g, s.drew 1)
/-- A report with its signature r ‖ s, over every byte before it (R170). -/
def signReport (body : List Nat) (s : State) : List Nat × State :=
  let g := signDigest (beVal (sha256 body)) 7 s
  (body ++ beBytes 32 g.1.1 ++ beBytes 32 g.1.2, g.2)
/-- REPORT_OPEN (R169, R170, R180): a signature that succeeds shows that the engine passes its self-test, so source 28 stays
present for want of a certificate alone. A random source that fails its health test signs nothing. -/
def execReportOpen (slot : Fin 8) (fails : Option Bool) (s : State) : Res :=
  completes s (serveMail slot 0x10 (fun l => l = 0 || l = 32) (fun b s0 =>
    let s := senseKeep 0 0x20 s0
    let body := reportBody s (if b.length = 32 then some b else none)
    if b.length = 32 then
      match if Tab.look false s.causes 29 then some true else fails with
      | some rng => failMail 5 (if rng then setCause 29 true s else setCause 28 true s)
      | none =>
        let g := signReport body (senseCert s)
        okMail { g.2 with reports := Tab.put [] s.reports slot g.1 } (leBytes 4 g.1.length ++ leBytes 4 (half body 6))
    else okMail { s with reports := Tab.put [] s.reports slot body } (leBytes 4 body.length ++ leBytes 4 (half body 6))) s)
/-- Up to 240 bytes from an offset, or NOT_FOUND. -/
def readPart (all : List Nat) (b : List Nat) (s : State) : MailAnswer :=
  let off := leVal (b.take 4)
  if off < all.length then okMail s ((all.drop off).take 240) else failMail 6 s
/-- REPORT_READ. -/
def execReportRead (slot : Fin 8) (s : State) : Res :=
  completes s (serveMail slot 0x11 (· = 4) (fun b s => readPart (Tab.look [] s.reports slot) b s) s)
/-- CERT_READ (R170); NOT_FOUND where no certificate is stored. -/
def execCertRead (slot : Fin 8) (s : State) : Res :=
  completes s (serveMail slot 0x12 (· = 4) (fun b s =>
    readPart certificate b s) s)

/-- The areas of the flash service: base and length (Tables 08-2 and 08-7). -/
def areaBase (a : Nat) : Nat := ([0x10000, 0x410000, 0x810000, 0x910000, 0xA10000] : List Nat).getD a 0
def areaLength (a : Nat) : Nat :=
  if a < 2 then 0x400000 else if a < 4 then 0x100000 else 0x100000 * (16 + Config.flashSize % 49) - 0xA10000
/-- A range of an area that exists. -/
def areaFits (a off n : Nat) : Bool := a ≤ 4 && off + n ≤ areaLength a
/-- The slot that runs, or the area that was loaded (R167). -/
def slotRuns (s : State) (k : Nat) : Bool := s.rd R.HW_STATUS.MODE = 1 && s.rd R.HW_STATUS.SLOT = k
def areaLocked (s : State) (a : Nat) : Bool :=
  if a < 2 then slotRuns s a else if a < 4 then s.rd R.CANOPY_STATUS.LOADED_AREA = a - 2 else false
/-- A check reads the area (R38). -/
def areaChecked (s : State) (a : Nat) : Bool := (a = 2 || a = 3) && s.isSet R.CANOPY_STATUS.BUSY && s.loadSrc = a - 2
/-- A trial of a slot that is written is cancelled while PENDING (R167). -/
def cancelTrial (k : Nat) (s0 : State) : State :=
  let s := senseKeep 0 0x20 s0
  if k < 2 && trialState s = 1 && trialSlot s = k then setTrial 0 k s else s
/-- Bytes that an operation the device failed leaves: free ones. -/
def spoilFlash (addr n : Nat) (s : State) : State :=
  ({ s with flash := putFlashList s.flash addr ((List.range n).map (fun i => s.freeVal i % 256)) }).drew n
/-- Erase a 4 KiB sector; whether it succeeded. -/
def eraseSector (addr : Nat) (error : Bool) (s : State) : Bool × State :=
  if error then (false, occur 20 (spoilFlash addr 4096 s)) else (true, { s with flash := eraseFlash s.flash addr 4096 })
/-- Program bytes: a bit that is 0 stays 0; the verify read decides (R167). -/
def programFlash (addr : Nat) (bs : List Nat) (error : Bool) (s : State) : Bool × State :=
  if error then (false, occur 20 (spoilFlash addr bs.length s))
  else
    let old := flashBytes s addr bs.length
    let new := List.zipWith (fun a b => a &&& b % 256) old bs
    let s1 := { s with flash := putFlashList s.flash addr new }
    if new = bs.map (· % 256) then (true, s1) else (false, occur 20 s1)
def flashAnswer (r : Bool × State) : MailAnswer := if r.1 then okMail r.2 else failMail 5 r.2

/-- A steward's flash request that writes an area, with the refusals of R167 and the hold of R38. -/
def writeArea (slot op : Nat) (lenOk : Nat → Bool) (fits : Nat → Nat → List Nat → Bool) (act : Nat → List Nat → State → Bool × State)
    (s : State) : State :=
  match mailOf s slot with
  | some m =>
    let a := leVal (m.body.take 4)
    let off := leVal ((m.body.drop 4).take 4)
    if m.op = op && m.heard && m.reply.isNone && firmwareRuns s && lenOk m.len && slot = 0 && fits a off (m.body.drop 8) && !areaLocked s a && areaChecked s a then
      if s.heldFlash.any (fun h => h.slot = slot) then s
      else { s with heldFlash := s.heldFlash ++ [⟨slot, op = 0x20, areaBase a + off, m.body.drop 8⟩] }
    else
      serveMail slot op lenOk (fun b s =>
        stewardMail slot s (
          if !fits a off (b.drop 8) then failMail 2 s
          else if areaLocked s a then failMail 1 s
          else flashAnswer (act (areaBase a + off) (b.drop 8) (cancelTrial a s)))) s
  | none => s
/-- FLASH_ERASE (R166, R167). -/
def execFlashErase (slot : Fin 8) (error : Bool) (s : State) : Res :=
  completes s (writeArea slot 0x20 (· = 8) (fun a off _ => off % 4096 = 0 && areaFits a off 4096)
    (fun addr _ s => eraseSector addr error s) s)
/-- FLASH_WRITE (R166, R167). -/
def execFlashWrite (slot : Fin 8) (error : Bool) (s : State) : Res :=
  completes s (writeArea slot 0x21 (fun l => 12 ≤ l && l ≤ 248 && l % 4 = 0) (fun a off bs => areaFits a off bs.length)
    (fun addr bs s => programFlash addr bs error s) s)
/-- Writes held during a check are carried out in order, and answered (R38). -/
def flushHeld (s : State) : State :=
  s.heldFlash.foldl (fun t h =>
    let r := if h.erase then eraseSector h.addr false t else programFlash h.addr h.data false t
    setReply h.slot (if r.1 then 0 else 5) [] r.2) { s with heldFlash := [] }
/-- FLASH_READ (R166). -/
def execFlashRead (slot : Fin 8) (s : State) : Res :=
  completes s (serveMail slot 0x22 (· = 12) (fun b s =>
    let a := word b 0
    let n := word b 8
    stewardMail slot s (if 4 ≤ n && n ≤ 240 && areaFits a (word b 4) n then okMail s (flashBytes s (areaBase a + word b 4) n) else failMail 2 s)) s)
/-- FW_DESCRIBE (R166, R167). -/
def execFwDescribe (slot : Fin 8) (error : Bool) (s : State) : Res :=
  completes s (serveMail slot 0x23 (· = 132) (fun b s =>
    let k := word b 0
    stewardMail slot s (
      if k > 1 then failMail 2 s
      else if slotRuns s k then failMail 1 s
      else
        let e := eraseSector (0x1000 * k) error (cancelTrial k s)
        if e.1 then flashAnswer (programFlash (0x1000 * k) (b.drop 4) false e.2) else failMail 5 e.2)) s)
/-- FW_TRIAL (R167). -/
def execFwTrial (slot : Fin 8) (s : State) : Res :=
  completes s (serveMail slot 0x24 (· = 4) (fun b s =>
    let k := word b 0
    stewardMail slot s (
      if k > 1 then failMail 2 s
      else if slotRuns s k || !headed s k then failMail 5 s
      else okMail (setTrial 1 k s))) s)
/-- REBOOT (R167, Table 08-13): the reply, STATUS 0x04 to every other outstanding request, and the warm restart. -/
def execReboot (slot : Fin 8) (s : State) : Res :=
  completes s (match mailOf s slot with
    | some m =>
      if m.op = 0x25 && m.heard && m.reply.isNone && firmwareRuns s && m.len = 4 && slot.val = 0 && word m.body 0 ≤ 1 then
        let s1 := deliverReply slot m 0 [] s
        let s2 := (List.range 8).foldl (fun t k => match mailOf t k with | some x => deliverReply k x 4 [] t | none => t) s1
        warmRestart (if word m.body 0 = 1 then setRecovery 1 1 s2 else s2)
      else
        serveMail slot 0x25 (· = 4) (fun _ s => stewardMail slot s (failMail 2 s)) s
    | none => s)
/-- Erase a range of the keeping store: zeros. -/
def eraseKeep (lo n : Nat) (s : State) : State :=
  { s with
    keeping := s.keeping.filter (fun e => e.1 < lo / 4 || (lo + n) / 4 ≤ e.1)
    keepEcc := s.keepEcc.filter (fun e => e.1 < lo / 8 || (lo + n) / 8 ≤ e.1) }
/-- SETTINGS_ERASE (R166). -/
def execSettingsErase (slot : Fin 8) (s : State) : Res :=
  completes s (serveMail slot 0x30 (· = 4) (fun b s =>
    let g := word b 0
    if g > 31 then failMail 2 s
    else if slot.val = 0 || groveOf s slot = some g then okMail (eraseKeep (0x8000 + 0x1000 * g) 0x1000 s)
    else failMail 1 s) s)
/-- KEEPING_ERASE (R175, R497, R498): everything but the boot record; the ports' copies of the secret are zeroed. -/
def keepingErase (s : State) : State :=
  let s1 := eraseKeep 0x1000 0x7F000 s
  let s2 := { s1 with trunk := (List.range 4).foldl (fun t p =>
    Tab.put TrunkPort.reset t p { Tab.look TrunkPort.reset t p with secret := [] }) s1.trunk }
  let s3 := s2.off R.STACK_SELF.SECRET
  if stacked s3 then setCause 381 true s3 else s3
def execKeepingErase (slot : Fin 8) (s : State) : Res :=
  completes s (serveMail slot 0x31 (· = 0) (fun _ s => stewardMail slot s (okMail (keepingErase s))) s)
/-- EXTEND (R162, R166). -/
def execExtend (slot : Fin 8) (s : State) : Res :=
  completes s (serveMail slot 0x40 (· = 36) (fun b s =>
    let k := word b 0
    stewardMail slot s (if 4 ≤ k && k ≤ 7 then okMail (extendEvent k 0x80 (b.drop 4) [] s) else failMail 2 s)) s)

def putRecovery (r : Recovery) (s : State) : State := { s with recovery := r }
/-- The slot that LAST_GOOD names, while it is valid (R172). -/
def goodSlot (s : State) (k : Nat) : Bool := bit (bootRecord s 2) 31 && bootRecord s 2 % 2 = k && slotValid s k
/-- Recovery ends: a trial of the slot, and a warm restart (R171). -/
def endRecovery (k : Nat) (s : State) : State := warmRestart (setTrial 1 k s)
/-- The flash address of a byte of a download stream: the descriptor, then the image (R172). -/
def streamAddr (k off : Nat) : Nat := if off < 128 then 0x1000 * k + off else imageBase k + (off - 128)
/-- Write a part of a download stream; each sector is erased before its first byte (R172). -/
def writeStream (k : Nat) : Nat → List Nat → Tab Nat → Tab Nat
  | _, [], t => t
  | off, b :: bs, t =>
    let a := streamAddr k off
    writeStream k (off + 1) bs (putFlash (if a % 4096 = 0 then eraseFlash t a 4096 else t) a b)
def maxDownload : Nat := 128 + 4194304

/-- dfuERROR with a status (R172): 3 errWRITE, 7 errVERIFY, 8 errADDRESS. -/
def dfuFails (status : Nat) (s : State) : State :=
  (putRecovery { s.recovery with state := 10, status := status } s).emit (.usb 0 [status, 10])
/-- Bytes written to the flash fail their verify read: what the device then holds of them is free, and source 20 sets. -/
def spoilStream (k off n : Nat) (s : State) : State :=
  let t := (List.range n).foldl (fun t i => putFlash t (streamAddr k (off + i)) (s.freeVal i % 256)) s.flash
  occur 20 ({ s with flash := t }.drew n)
/-- A block of the download under way; `bad` says that its verify read differs. -/
def dfuBlock (data : List Nat) (bad : Bool) (s : State) : State :=
  let r := s.recovery
  if r.alt = 2 then
    if r.word.length + data.length > 4 then dfuFails 8 s
    else (putRecovery { r with word := r.word ++ data } s).emit (.usb 0 [0, 5])
  else if r.next + data.length > maxDownload then dfuFails 8 s
  else
    let s1 := putRecovery { r with next := r.next + data.length, holder := 1 } { s with flash := writeStream r.alt r.next data s.flash }
    if bad then dfuFails 3 (spoilStream r.alt r.next data.length s1) else s1.emit (.usb 0 [0, 5])
/-- TILE_0 is the DFU device and its host's link stands at high speed (R172). -/
def dfuLinked (s : State) : Bool := inRecovery s && linkOf s 0 = 3
/-- DFU_DNLOAD (R172): in dfuIDLE a block begins a download, and in dfuDNLOAD-IDLE it goes on; in dfuERROR none is taken until
DFU_CLRSTATUS. DESIGN CHOICE: a block above wTransferSize, which a host may not send, is answered with a stall (log 190). -/
def execDfuDnload (alt : Fin 3) (block : Nat) (data : FlashData) (s0 : State) : Res :=
  let s := senseKeep 0 0x20 s0
  completes s0 (if !dfuLinked s0 then s0
    else if 4096 < data.bytes.length then s.emit (.usbStall 0)
    else if s.recovery.state = 2 && block = 0 then
      if alt.val < 2 && (goodSlot s alt || s.recovery.holder = 2) then dfuFails 3 s
      else dfuBlock data.bytes data.bad (putRecovery { s.recovery with state := 5, status := 0, alt := alt, next := 0, word := [] } s)
    else if s.recovery.state = 5 then dfuBlock data.bytes data.bad s
    else dfuStalls s)
/-- DFU_MANIFEST (R171, R172). -/
def execDfuManifest (s : State) : Res :=
  completes s (if !dfuLinked s || s.recovery.state != 5 then s
    else
      let k := if s.recovery.alt = 2 then leVal s.recovery.word else s.recovery.alt
      if (s.recovery.alt != 2 || s.recovery.word.length = 4) && k < 2 && slotValid s k then endRecovery k s else dfuFails 7 s)
/-- DFU_UPLOAD (R172). -/
def execDfuUpload (s : State) : Res := completes s (if dfuLinked s then s.emit (.usbStall 0) else s)
/-- DFU_DETACH (R172). -/
def execDfuDetach (s : State) : Res := completes s (if dfuLinked s then s.emit (.usbStall 0) else s)

/-- A seed-drop frame that the Olulo sends on UART_0 (R173); its own SEQ is free. -/
def sendSeed (ty : Nat) (payload : List Nat) (s : State) : State :=
  let body := [ty, s.freeVal 0 % 256] ++ leBytes 2 payload.length ++ payload
  ([0xA5, 0x5A] ++ body ++ leBytes 4 (crc32 body)).foldl (fun t c => t.emit (.uart 0 c)) (s.drew 1)
def ackSeed (seq : Nat) (data : List Nat) (s : State) : State :=
  sendSeed 0x81 (seq % 256 :: data) (putRecovery { s.recovery with seedLast := some (seq % 256) } s)
def nakSeed (seq code : Nat) (s : State) : State := sendSeed 0x82 [seq % 256, code] s
/-- A whole frame in recovery mode, after which no partial one stands; a repeated one is acknowledged again and not acted
on. -/
def seedFrame (seq : Nat) (again : List Nat) (act : State → State) (s0 : State) : State :=
  let s := senseKeep 0 0x20 (putRecovery { s0.recovery with heard := [] } s0)
  if !inRecovery s then s0 else if s.recovery.seedLast = some (seq % 256) then ackSeed seq again s else act s
/-- The data of HELLO's answer: CAUSE and the LAST_GOOD word. DESIGN CHOICE: each takes 4 bytes; the spec gives CAUSE no width
(log 191). -/
def helloData (s : State) : List Nat := leBytes 4 (bits (bootRecord s 3) 8 4) ++ leBytes 4 (bootRecord s 2)
def seedHello (seq : Nat) (s : State) : State := seedFrame seq (helloData s) (fun s => ackSeed seq (helloData s) s) s
def seedBegin (seq slot total : Nat) (s : State) : State :=
  seedFrame seq [] (fun s =>
    if slot > 1 || goodSlot s slot || total > maxDownload || s.recovery.holder = 1 then nakSeed seq 3 s
    else ackSeed seq [] (putRecovery { s.recovery with drop := some (slot, 0, total) } s)) s
/-- DESIGN CHOICE: data of another length than Table 08-9's are no DATA frame, answered as an unknown type is; data whose
verify read differs are not acknowledged, and stay the next expected (log 191). -/
def seedData (seq offset : Nat) (data : List Nat) (bad : Bool) (s : State) : State :=
  seedFrame seq [] (fun s =>
    match s.recovery.drop with
    | some (k, next, total) =>
      if data.length < 4 || 1016 < data.length then nakSeed seq 2 s
      else if s.recovery.holder = 1 then nakSeed seq 3 s
      else if offset = next && next + data.length ≤ total then
        let s1 := putRecovery { s.recovery with holder := 2 } { s with flash := writeStream k next data s.flash }
        if bad then spoilStream k next data.length s1
        else ackSeed seq [] (putRecovery { s1.recovery with drop := some (k, next + data.length, total) } s1)
      else nakSeed seq 4 s
    | none => nakSeed seq 4 s) s
def seedEnd (seq : Nat) (s : State) : State :=
  seedFrame seq [] (fun s =>
    match s.recovery.drop with
    | some (k, _, _) => if slotValid s k then endRecovery k (ackSeed seq [] s) else nakSeed seq 5 s
    | none => nakSeed seq 5 s) s
def seedBoot (seq slot : Nat) (s : State) : State :=
  seedFrame seq [] (fun s => if slot < 2 && slotValid s slot then endRecovery slot (ackSeed seq [] s) else nakSeed seq 5 s) s
/-- A bad frame (R173): 0x01 for its CRC, 0x02 for its type. -/
def seedBad (seq : Nat) (crc : Bool) (s : State) : State :=
  if inRecovery s then nakSeed seq (if crc then 1 else 2) (putRecovery { s.recovery with heard := [] } s) else s
/-- The bytes of a frame after its sync: a whole frame is acted on by its type. DESIGN CHOICE: a payload of another length
than Table 08-9's is answered as an unknown type is (log 191). -/
def seedWhole (f : List Nat) (s : State) : State :=
  let seq := f.getD 1 0
  let body := f.take (f.length - 4)
  let p := body.drop 4
  if leVal (f.drop (f.length - 4)) != crc32 body then seedBad seq true s
  else match f.getD 0 0, p.length with
    | 1, 0 => seedHello seq s
    | 2, 5 => seedBegin seq (p.getD 0 0) (leVal (p.drop 1)) s
    | 3, _ => if p.length < 8 then seedBad seq false s else seedData seq (leVal (p.take 4)) (p.drop 4) false s
    | 4, 0 => seedEnd seq s
    | 5, 1 => seedBoot seq (p.getD 0 0) s
    | _, _ => seedBad seq false s
/-- A byte on UART_0 in recovery mode (R171, R173): bytes outside a frame are ignored. DESIGN CHOICE: a LEN above 1,024 is no
frame, and its bytes are dropped (log 191). -/
def seedByte (c : Nat) (s : State) : State :=
  let h := s.recovery.heard ++ [c % 256]
  let keep (l : List Nat) : State := putRecovery { s.recovery with heard := l } s
  let len := leVal ((h.drop 4).take 2)
  if h.take 1 != [0xA5] then keep []
  else if h.length = 1 then keep h
  else if (h.drop 1).take 1 != [0x5A] then keep (if c % 256 = 0xA5 then [0xA5] else [])
  else if h.length < 6 then keep h
  else if 1024 < len then keep []
  else if h.length < len + 10 then keep h
  else seedWhole (h.drop 2) (keep [])

/-- HELLO (R173). -/
def execHello (seq : Nat) (s : State) : Res := completes s (seedHello seq s)
/-- BEGIN (R173). -/
def execBeginFrame (seq slot total : Nat) (s : State) : Res := completes s (seedBegin seq slot total s)
/-- DATA (R173). -/
def execDataFrame (seq offset : Nat) (data : FlashData) (s : State) : Res := completes s (seedData seq offset data.bytes data.bad s)
/-- END (R173). -/
def execEndFrame (seq : Nat) (s : State) : Res := completes s (seedEnd seq s)
/-- BOOT (R173). -/
def execBoot (seq slot : Nat) (s : State) : Res := completes s (seedBoot seq slot s)
/-- SEED_DROP_BAD_FRAME (R173). -/
def execSeedDropBadFrame (seq : Nat) (crc : Bool) (s : State) : Res := completes s (seedBad seq crc s)
/-- SEED_DROP_GAP (R173): the partial frame is discarded. -/
def execSeedDropGap (s : State) : Res := completes s (putRecovery { s.recovery with heard := [] } s)

end Sys2Proof.Machine
end

