-- ==== Sys2Proof/Machine/Seed.lean ====
section
/-! DEFINITION. Identity memories and seed records: the scan, the comparison with EXPECT records, hold-down, and the hot
replacement of a port board (chapter 11). -/
namespace Sys2Proof.Machine

/-- The bytes of the first read of address 0x50 + a on IDB_b (IDB_DATA). -/
def seedBytes (s : State) (b a : Nat) : List Nat := (List.range 64).flatMap (fun i => leBytes 4 (s.rd (R.IDB_DATA.BYTES b a i)))
def seedOutcome (s : State) (b a : Nat) : Nat := s.rd (R.IDB_SLOT.OUTCOME b a)
/-- A VALID record of a class (R227). -/
def validSeed (s : State) (b a cls : Nat) : Bool := seedOutcome s b a = 1 && s.rd (R.IDB_SLOT.CLASS b a) = cls
/-- The address that supplies a class on a bus: the lowest one with a VALID record (R227). -/
def seedFor (s : State) (b cls : Nat) : Option Nat := (List.range 8).find? (fun a => validSeed s b a cls)
/-- TILES of a port board record. -/
def boardTiles (s : State) (a : Nat) : Nat := half (seedBytes s 2 a) 0x10 % 2 ^ 14
/-- The port board that supplies a tile (R227). -/
def boardOf (s : State) (t : Nat) : Option Nat := (List.range 8).find? (fun a => validSeed s 2 a 0x10 && bit (boardTiles s a) t)

/-- The classes allowed on a bus (Table 11-2). -/
def classOn (b cls : Nat) : Bool :=
  if b < 2 then cls = 1 || cls = 2 else if b = 2 then cls = 0x10 else cls = 0x20
/-- A LOSS cell of Table 11-6: 0.0 to 40.0, so no negative number, however small. -/
def lossOk (x : Nat) : Bool := f32InRange x 0 40 1 && (!bit x 31 || x % 2 ^ 31 = 0)
/-- Values cells of the calibration blocks (Tables 11-3 to 11-6); `r` is the whole record. -/
def blockOk (cls : Nat) (r : List Nat) : Bool :=
  let f := fun k => word r (0x10 + k)
  let h := fun k => half r (0x10 + k)
  let u := fun k => byteAt r (0x10 + k)
  match cls with
  | 0x01 => (List.range 8).all (fun i => pickupOk i (f (4 * i)))
  | 0x02 =>
    between 1 (u 0) 8 && u 1 ≤ 1 && between 1000 (h 2) 11000 && calRange (f 4) 1 1000 100 && calRange (f 8) 1 1000 10
      && calRange (f 0x0C) 1 1000 1 && calRange (f 0x10) 1 100 1 && between 100 (h 0x14) 5000
  | 0x10 =>
    between 1 (h 0) (2 ^ 14 - 1) && between 1 (u 2) 2 && u 3 ≤ 2 && between 5000 (h 4) 21000 && between 500 (h 6) 5000
      && calRange (f 8) 1 100 1 && calRange (f 0x0C) 1 100 1 && f32InRange (f 0x10) (-1000) 1000 1
  | 0x20 => u 0 ≤ 7 && u 1 < 16 && (List.range 4).all (fun l => lossOk (f (4 + 4 * l)))
  | _ => false

/-- A read as 256 bytes. -/
def seedRead (bs : List Nat) : List Nat := (List.range 256).map (fun i => byteAt bs i % 256)
/-- Rows 1 to 6 of Table 11-7, and 8: OUTCOME of what an address gives. -/
def readOutcome (b : Nat) : Option SeedRead → Nat
  | none => 0
  | some x =>
    let r := seedRead x.first
    if x.failed then 2
    else if r != seedRead x.second then 4
    else if half r 0 != 0x5EED then 3
    else if crc32 (r.take 252) != word r 252 then 4
    else if half r 2 = 0 || !classOn b (byteAt r 4) || !blockOk (byteAt r 4) r then 3
    else 1
/-- IDB_SLOT and IDB_DATA of an address show what it gave; rows 2 to 6 set their source (R223). -/
def takeSeed (b a : Nat) (x : Option SeedRead) (s : State) : State :=
  let r := match x with | some y => seedRead y.first | none => List.replicate 256 0
  let o := readOutcome b x
  let s1 := (((s.wr (R.IDB_SLOT.FORMAT b a) (half r 2)).wr (R.IDB_SLOT.CLASS b a) (byteAt r 4)).wr (R.IDB_SLOT.OUTCOME b a) o)
  let s2 := wrList (R.IDB_DATA.BYTES b a) 0 (wordsOf 64 r) s1
  if o = 2 || o = 3 then occur (208 + 2 * b) s2 else if o = 4 then occur (209 + 2 * b) s2 else s2

/-- The record reads that an address which acknowledged gets (R217, R222): two, back to back. DESIGN CHOICE: the second is not
made when a read has failed (log 192). -/
def readSeed (b a : Nat) (x : Option SeedRead) (s : State) : State :=
  match x with
  | none => s
  | some y =>
    let s1 := s.emit (.idbRead b (0x50 + a))
    if y.failed then s1 else s1.emit (.idbRead b (0x50 + a))
/-- An address of the scan: its probe, its reads, and what it gives. -/
def scanSeed (b a : Nat) (x : Option SeedRead) (s : State) : State :=
  takeSeed b a x (readSeed b a x (s.emit (.idbProbe b (0x50 + a))))

/-- The EXPECT record of an address. -/
def expectRec (s : State) (b a : Nat) : Option Rec := (recsOf s 0x0D).find? (fun r => r.u8 0 = b && r.u8 1 = 0x50 + a)
/-- An EXPECT record is satisfied (R225). -/
def expectMet (s : State) (b a : Nat) (r : Rec) : Bool :=
  (seedOutcome s b a = 1 || seedOutcome s b a = 5) && s.rd (R.IDB_SLOT.CLASS b a) = r.u8 2
    && r.u16 4 ≤ s.rd (R.IDB_SLOT.FORMAT b a)
    && (!bit (r.u8 3) 0 || ((seedBytes s b a).drop 8).take 8 = (r.body.drop 8).take 8)

/-- IDB_HOLD.TILES: what the addresses of IDB_2 hold down together. -/
def showHeldTiles (s : State) : State :=
  s.wr R.IDB_HOLD.TILES (((List.range 8).map (Tab.look 0 s.idbHeld)).foldl (· ||| ·) 0)
def holdTiles (a mask : Nat) (s : State) : State := showHeldTiles { s with idbHeld := Tab.put 0 s.idbHeld a mask }
/-- The trunk is held down: every port OFF (R226, R474). -/
def holdTrunk (s : State) : State :=
  (List.range 4).foldl (fun t p => setPort p 0 (putTrunk p TrunkPort.reset t)) ((s.on R.IDB_HOLD.TRUNK).on R.TRUNK_CFG.HELD)
/-- An address holds its unit down (R226). -/
def holdUnit (b a mask : Nat) (s : State) : State :=
  let s1 := s.on (R.IDB_SLOT.HOLD b a)
  if b < 2 then s1.wr R.IDB_HOLD.DRUMS (setBit (s1.rd R.IDB_HOLD.DRUMS) b)
  else if b = 2 then holdTiles a (Tab.look 0 s1.idbHeld a ||| mask) s1
  else holdTrunk s1
/-- Compare one address with its EXPECT record: row 7 of Table 11-7, row 1 for an address that did not acknowledge, and the
hold-down (R223, R225, R226). -/
def compareSeed (b a : Nat) (s : State) : State :=
  match (if configured s then expectRec s b a else none) with
  | none => s
  | some r =>
    let s1 := s.on (R.IDB_SLOT.EXPECTED b a)
    if expectMet s1 b a r then s1
    else
      let o := seedOutcome s1 b a
      let s2 := if o = 1 then s1.wr (R.IDB_SLOT.OUTCOME b a) 5 else s1
      let s3 := holdUnit b a (r.u16 6 % 2 ^ 14) s2
      if o ≤ 1 then occur (208 + 2 * b) s3 else s3
/-- Every address in the order of R224. -/
def seedAddrs : List (Nat × Nat) := (List.range 4).flatMap (fun b => (List.range 8).map (fun a => (b, a)))
def compareSeeds (s : State) : State := seedAddrs.foldl (fun t x => compareSeed x.1 x.2 t) s

/-- A VALID backplane record: POSITION in STACK_SELF, and only its lanes stay in use (R471, R495). -/
def applyBackplane (s : State) : State :=
  match seedFor s 3 0x20 with
  | none => (s.off R.STACK_SELF.POS_VALID).wr R.STACK_SELF.POSITION 0
  | some a =>
    let r := seedBytes s 3 a
    let s1 := (s.on R.STACK_SELF.POS_VALID).wr R.STACK_SELF.POSITION (byteAt r 0x10)
    let s2 := s1.wr R.TRUNK_CFG.IN_USE (s1.rd R.TRUNK_CFG.LANE_MASK &&& byteAt r 0x11)
    (List.range 4).foldl (fun t p =>
      if portState t p = 0 then syncTrunk t
      else if portWidth t p = 0 then setPort p 0 (putTrunk p TrunkPort.reset t)
      else if portWidth t p != portWidth s p then laneLost p t
      else t) s2

/-- The SEED event of an address (R224). -/
def seedEvent (b a : Nat) (s : State) : State :=
  extendEvent 3 7 (sha256 (seedBytes s b a))
    ([b, 0x50 + a, seedOutcome s b a, s.rd (R.IDB_SLOT.CLASS b a)] ++ leBytes 2 (s.rd (R.IDB_SLOT.FORMAT b a)) ++ [0, 0]) s
/-- The closing event with the presence map (R224). -/
def closeSeeds (s : State) : State :=
  let map := seedAddrs.foldl (fun m x => if seedOutcome s x.1 x.2 != 0 then setBit m (8 * x.1 + x.2) else m) 0
  let data := [0xFF, 0, 0, 0] ++ leBytes 4 map
  extendEvent 3 7 (sha256 data) data s

/-- IDB_SCAN (R222 to R227): once in a start, after the start's stream load; OUTCOME in the events is the one compared
(DEDUCED). -/
def execIdbScan (reads : List (Fin 4 × Fin 8 × SeedRead)) (s : State) : Res :=
  completes s (if s.rd R.HW_STATUS.MODE != 1 || !s.isSet R.START_STATUS.CANOPY_DONE || s.isSet R.IDB_STATUS.SCANNED then s
    else
      let given := fun (x : Nat × Nat) => (reads.find? (fun r => r.1.val = x.1 && r.2.1.val = x.2)).map (·.2.2)
      let s1 := compareSeeds (seedAddrs.foldl (fun t x => scanSeed x.1 x.2 (given x) t) s)
      let s2 := closeSeeds (seedAddrs.foldl (fun t x => if seedOutcome t x.1 x.2 = 0 then t else seedEvent x.1 x.2 t) s1)
      (applyBackplane s2).on R.START_STATUS.SEEDS_DONE |>.on R.IDB_STATUS.SCANNED)

/-- IDB_LINE_TIMEOUT (R218): the sequence under way ends. In the scan its address counts as UNREADABLE by what IDB_SCAN
brings; a rescan's does by the flag kept here. -/
def execIdbLineTimeout (bus : Fin 4) (s : State) : Res :=
  completes s (if bus.val = 2 && s.rescan.isSome then
      { s.emit (.idbPulses bus) with rescan := s.rescan.map (fun x => (x.1, true)) }
    else if s.rd R.HW_STATUS.MODE = 1 && !s.isSet R.IDB_STATUS.SCANNED then s.emit (.idbPulses bus)
    else s)

/-- The calibration of a tile's port board, or what holds without one (R227, R319). -/
def applyBoard (t : Nat) (s : State) : State :=
  match boardOf s t with
  | some a =>
    let r := seedBytes s 2 a
    let s1 := ((s.on (R.TC_CAL.BOARD t)).wr (R.TC_CAL.IBUS_MAX t) (half r 0x16)).wr (R.TC_CAL.VBUS_MAX t) (half r 0x14)
    putTc t { tcOf s t with gain := word r 0x1C, offset := word r 0x20, converter := byteAt r 0x13, sense := word r 0x18 } s1
  | none => putTc t { tcOf s t with gain := TypeC.reset.gain, offset := 0, converter := 0, sense := TypeC.reset.sense } (s.rstAll (R.TC_CAL.all t))
/-- RELEASE is carried out (R228): the tiles of the record and of the EXPECT record go to their hold-down. DESIGN CHOICE: of an
address whose record is UNREADABLE, INVALID or AMBIGUOUS the tiles are those that the bytes of its first read give (log 216). -/
def releaseBoard (a : Nat) (s : State) : State :=
  let mask := boardTiles s a ||| ((expectRec s 2 a).map (fun r => r.u16 6 % 2 ^ 14)).getD 0
  let s1 := (s.wr (R.IDB_SLOT.OUTCOME 2 a) 6)
  let s2 := holdUnit 2 a mask s1
  (List.range 14).foldl (fun t k => if bit mask k then applyBoard k (tileOut k 0 t) else t) s2
/-- A write of IDB_CMD with GO set (R228, R231). -/
def idbCmd (op bus a : Nat) (s : State) : State :=
  let bad := op = 3 || bus != 2 || s.isSet R.IDB_STATUS.BUSY || !s.isSet R.IDB_STATUS.SCANNED
    || (op = 1 && seedOutcome s 2 a = 0) || (op = 2 && seedOutcome s 2 a != 6)
  if bad then s.on R.IDB_STATUS.CMD_REFUSED
  else if op = 0 then s
  else if op = 1 then releaseBoard a s
  else { (s.on R.IDB_STATUS.BUSY).emit (.idbProbe 2 (0x50 + a)) with rescan := some (a, false) }
def idbWrite (slot op bus a : Nat) (s : State) : State := guardWrite slot 0x00270004 (idbCmd op bus a) s
/-- RELEASE (R228, R231). -/
def execRelease (slot : Fin 8) (bus : Fin 4) (address : Fin 8) (s : State) : Res := completes s (idbWrite slot 1 bus address s)
/-- RESCAN (R228, R229, R231). -/
def execRescan (slot : Fin 8) (bus : Fin 4) (address : Fin 8) (s : State) : Res := completes s (idbWrite slot 2 bus address s)
/-- IDB_CMD_REFUSED (R231): a write that carries any OP, refused where R231 says so. -/
def execIdbCmdRefused (slot : Fin 8) (op : Fin 4) (bus : Fin 4) (address : Fin 8) (s : State) : Res :=
  completes s (idbWrite slot op bus address s)

end Sys2Proof.Machine
end

