-- ==== Sys2Proof/Machine/Serial.lean ====
section
/-! DEFINITION. The UARTs and the general-purpose pins (chapter 22). -/
namespace Sys2Proof.Machine

/-- A data UART whose grove is ready, and that is not pruned (R189, R460, R462). -/
def uartOpen (s : State) (u : Nat) : Bool :=
  match uartRec s u with
  | some r =>
    configured s && r.u8 2 = 0 && !isPruned s (0x5000 + u)
      && (match slotOf s (r.u8 1) with | some k => s.isSet (R.GROVE_STATUS.READY k) | none => false)
  | none => false
/-- It begins characters while the part is Active (R462, R463). -/
def uartServes (s : State) (u : Nat) : Bool := uartOpen s u && dormantState s = 0
/-- The owner's slot. -/
def uartSlot (s : State) (u : Nat) : Option Nat := (uartGrove s u).bind (slotOf s)

/-- A configuration word in force (R461): 0 UART_CFG, 1 UART_DIV, 2 UART_ADDR, 3 UART_CARD. -/
def uartWord (s : State) (u k : Nat) : Nat :=
  match (uartOf s u).act with
  | [] => fieldsWord s (([R.UART_CFG.all u, R.UART_DIV.all u, R.UART_ADDR.all u, R.UART_CARD.all u] : List (List Fld)).getD k [])
  | ws => ws.getD k 0
def uartMode (s : State) (u : Nat) : Nat := bits (uartWord s u 0) 16 2
def uartFlow (s : State) (u : Nat) : Bool := bit (uartWord s u 0) 15 && uartMode s u = 0
def uartParity (s : State) (u : Nat) : Nat := if uartMode s u = 2 then 2 else bits (uartWord s u 0) 4 3
def uartBits (s : State) (u : Nat) : Nat :=
  match uartMode s u with | 1 => 9 | 2 => 8 | _ => bits (uartWord s u 0) 0 4
/-- A write of UART_CFG, UART_DIV, UART_ADDR or UART_CARD: stored at once, in force later (R461). -/
def pendUart (u : Nat) (write : State → State) (s : State) : State :=
  let x := uartOf s u
  let s1 := if x.act = [] then putUart u { x with act := (List.range 4).map (uartWord s u) } s else s
  (write s1).on (R.UART_STATUS.CFG_PENDING u)

/-- The lengths of a character's bits in source periods, start bit first (R450): FRAC adds up in an 8-bit accumulator that
starts at 0, and a carry makes the bit one period longer. -/
def bitPeriods (s : State) (u bitCount : Nat) : List Nat :=
  let d := uartWord s u 1
  let p := if bit d 31 then 16 else 1
  (List.range bitCount).map (fun k => (bits d 8 16 + ((k + 1) * bits d 0 8 / 256 - k * bits d 0 8 / 256)) * p)
/-- The stop time in source periods (R450): one, one and a half or two bit times. -/
def stopPeriods (s : State) (u : Nat) : Nat :=
  let d := uartWord s u 1
  (2 + bits (uartWord s u 0) 8 2) * (256 * bits d 8 16 + bits d 0 8) * (if bit d 31 then 16 else 1) / 512
/-- UART_u_AUX (R448, R457): the card clock in card mode, else the driver enable while a character is sent, else low. -/
inductive AuxPin where
  | low | high
  | clock (period : Nat)
deriving DecidableEq, Repr
def uartAux (s : State) (u : Nat) : AuxPin :=
  if !uartOpen s u then .low
  else if uartMode s u = 2 then (if bit (uartWord s u 3) 31 then .clock (2 * bits (uartWord s u 3) 16 8) else .low)
  else if bit (uartWord s u 0) 12 && (uartOf s u).sending.isSome then .high else .low

/-- UART_IRQ as a word. -/
def uartIrqWord (s : State) (u : Nat) : Nat := fieldsWord s (R.UART_IRQ.all u)
def uartSignals (s : State) (u : Nat) : Bool := uartIrqWord s u &&& s.rd (R.UART_IRQ_ENABLE.ENABLE u) != 0

/-- The transmitter takes its next character: an XON or XOFF of its own first, else the FIFO's unless paused (R453, R458). -/
def startSend (u : Nat) (s : State) : State :=
  let x := uartOf s u
  if x.sending.isSome || !bit (uartWord s u 0) 13 || s.isSet (R.UART_STATUS.TX_FAILED u) || s.isSet (R.UART_STATUS.CFG_PENDING u)
      || !uartServes s u then s
  else
    match x.own, x.tx with
    | some c, _ =>
      (putUart u { x with own := none, sending := some (c, true), tries := 0 } s).wrB (R.UART_STATUS.XOFF_SENT u) (c = s.rd (R.UART_FLOW.XOFF u))
    | none, c :: rest =>
      if s.isSet (R.UART_STATUS.PAUSED u) then s
      else putUart u { x with tx := rest, sending := some (c, false), tries := 0 } s
    | none, [] => s
/-- Flow control of the receive side (R458). -/
def flowControl (u : Nat) (s : State) : State :=
  let x := uartOf s u
  let sent := s.isSet (R.UART_STATUS.XOFF_SENT u)
  if !uartFlow s u then s
  else if !sent && x.own.isNone && x.rx.length ≥ s.rd (R.UART_FIFO_CFG.RX_HIGH u) then putUart u { x with own := some (s.rd (R.UART_FLOW.XOFF u)) } s
  else if sent && x.own.isNone && x.rx.length ≤ s.rd (R.UART_FIFO_CFG.RX_LOW u) then putUart u { x with own := some (s.rd (R.UART_FLOW.XON u)) } s
  else s
/-- The levels, and the interrupt bits whose causes hold (R459). -/
def showUart (u : Nat) (s : State) : State :=
  let x := uartOf s u
  let s1 := ((s.wr (R.UART_STATUS.RX_LEVEL u) x.rx.length).wr (R.UART_STATUS.TX_LEVEL u) x.tx.length).wrB (R.UART_STATUS.TX_BUSY u) x.sending.isSome
  let s2 := if x.rx.length ≥ s.rd (R.UART_FIFO_CFG.RX_TRIG u) then s1.on (R.UART_IRQ.RX_DATA u) else s1
  if x.tx.length ≤ s.rd (R.UART_FIFO_CFG.TX_TRIG u) then s2.on (R.UART_IRQ.TX_SPACE u) else s2
/-- Carry out a change of a UART, then flow control, the next character, and the QUEUE interrupt of its grove (R459). -/
def withUart (u : Nat) (f : State → State) (s : State) : State :=
  let t := showUart u (startSend u (flowControl u (f s)))
  if !uartSignals s u && uartSignals t u then
    match uartSlot t u with
    | some k => setIrq k 8 t
    | none => t
  else t

/-- UART_START_EDGE (R451, R463): it also rings the UART's bell. -/
def execUartStartEdge (uart : Fin 4) (settled : Bool) (s : State) : Res :=
  let u := uart.val
  let s1 := ringBell (16 + u) false s
  let x := uartOf s1 u
  completes s (if !uartServes s u || s.isSet (R.UART_STATUS.RX_BUSY u) || !bit (uartWord s u 0) 14 || (x.broken && !settled)
      || (uartMode s u = 2 && x.sending.isSome) then s1
    else ((putUart u { x with broken := false } s1).on (R.UART_STATUS.RX_BUSY u)).off (R.UART_STATUS.LINE_LOW u))

/-- A character enters the receive FIFO with its flags, or is lost (R453). -/
def storeChar (u word : Nat) (s : State) : State :=
  let x := uartOf s u
  if x.rx.length ≥ 64 then
    occur (193 + 4 * u) (((s.on (R.UART_STATUS.OVERRUN u)).on (R.UART_IRQ.OVERRUN u)).bump (R.UART_COUNTS.OVERRUNS u) 1)
  else
    let s1 := putUart u { x with rx := x.rx ++ [word] } s
    if word ≥ 512 then s1.on (R.UART_IRQ.RX_ERROR u) else s1
def bitsValue : List Bool → Nat
  | [] => 0
  | b :: r => b2n b + 2 * bitsValue r
/-- Whether a parity bit is right (R452): 0 none, 1 odd, 2 even, 3 mark, 4 space. -/
def parityOk (kind : Nat) (data : List Bool) (p : Bool) : Bool :=
  let ones := (data.filter id).length
  match kind with
  | 1 => (ones + b2n p) % 2 = 1
  | 2 => (ones + b2n p) % 2 = 0
  | 3 => p
  | 4 => !p
  | _ => true
/-- An address character of address mode (R454). -/
def addressMatches (s : State) (u c : Nat) : Bool :=
  let w := uartWord s u 2
  c % 256 &&& bits w 8 8 = bits w 0 8 &&& bits w 8 8 || (bit w 30 && c % 256 = bits w 16 8)
/-- A character of normal or address mode (R452, R454, R458). -/
def plainChar (u : Nat) (data : List Bool) (parity stop : Bool) (s : State) : State :=
  let c := bitsValue data
  let perr := !parityOk (uartParity s u) data parity
  let broke := !stop && !data.any id && (uartParity s u = 0 || !parity)
  let word := c + 512 * b2n perr + 1024 * b2n (!stop) + 2048 * b2n broke
  if broke then
    let s1 := putUart u { uartOf s u with broken := true } (s.on (R.UART_STATUS.LINE_LOW u))
    if uartMode s u = 1 && s.isSet (R.UART_STATUS.MUTED u) then s1 else storeChar u word s1
  else if perr || !stop then
    let s1 := (s.bump (R.UART_COUNTS.PARITY u) (b2n perr)).bump (R.UART_COUNTS.FRAMES u) (b2n (!stop))
    let s2 := if uartMode s u = 1 && s.isSet (R.UART_STATUS.MUTED u) then s1 else storeChar u word s1
    occur (192 + 4 * u) s2
  else if uartMode s u = 1 then
    if c < 256 then (if s.isSet (R.UART_STATUS.MUTED u) then s else storeChar u c s)
    else if addressMatches s u c then
      let s1 := (s.off (R.UART_STATUS.MUTED u)).on (R.UART_IRQ.ADDR_MATCH u)
      if bit (uartWord s u 2) 31 then storeChar u c s1 else s1
    else s.on (R.UART_STATUS.MUTED u)
  else if uartFlow s u && c = s.rd (R.UART_FLOW.XOFF u) % 2 ^ uartBits s u then s.on (R.UART_STATUS.PAUSED u)
  else if uartFlow s u && c = s.rd (R.UART_FLOW.XON u) % 2 ^ uartBits s u then s.off (R.UART_STATUS.PAUSED u)
  else storeChar u c s
/-- A character of card mode (R455, R456): the line's data bits and parity bit. -/
def cardChar (u : Nat) (line : List Bool) (parity : Bool) (s : State) : State :=
  let inverse := bit (uartWord s u 3) 0
  let data := if inverse then (line.map not).reverse else line
  let p := if inverse then !parity else parity
  let c := bitsValue data
  let x := uartOf s u
  if parityOk 2 data p then storeChar u c (putUart u { x with bad := 0 } s)
  else
    let s1 := s.bump (R.UART_COUNTS.PARITY u) 1
    if bit (uartWord s u 3) 1 then
      if x.bad < bits (uartWord s u 3) 4 3 then (putUart u { x with bad := x.bad + 1 } s1).emit (.cardError u)
      else occur (194 + 4 * u) (storeChar u (c + 512) ((putUart u { x with bad := 0 } s1).on (R.UART_IRQ.CARD_FAIL u)))
    else occur (192 + 4 * u) (storeChar u (c + 512) s1)
/-- A character on UART_0 in recovery: 8 data bits and 1 stop bit (R171); one without its stop bit is no byte. -/
def recoveryChar (samples : List Bool) (s : State) : State :=
  if samples.length = 9 && samples.getD 8 false then seedByte (bitsValue (samples.take 8)) s else s
/-- UART_CHAR_RECEIVED (R171, R451, R452). -/
def execUartCharReceived (uart : Fin 4) (samples : List Bool) (s : State) : Res :=
  let u := uart.val
  let n := uartBits s u
  let par := b2n (uartParity s u != 0)
  let len := if uartMode s u = 2 then 9 else n + par + 1
  completes s (if inRecovery s && u = 0 then recoveryChar samples s
    else if !uartOpen s u || !s.isSet (R.UART_STATUS.RX_BUSY u) then s
    else if samples = [] then s.off (R.UART_STATUS.RX_BUSY u)
    else if samples.length != len then s
    else
      withUart u (fun s =>
        let s1 := s.off (R.UART_STATUS.RX_BUSY u)
        if uartMode s u = 2 then cardChar u (samples.take 8) (samples.getD 8 false) s1
        else plainChar u (samples.take n) (par = 1 && samples.getD n false) (samples.getLastD false) s1) s)

/-- UART_CHAR_SENT (R450, R456, R459). -/
def execUartCharSent (uart : Fin 4) (errorSignal : Bool) (s : State) : Res :=
  let u := uart.val
  let x := uartOf s u
  completes s (match x.sending with
    | none => s
    | some (c, flow) =>
      withUart u (fun s =>
        let s1 := s.emit (.uart u (c % 2 ^ uartBits s u))
        if uartMode s u = 2 && errorSignal then
          if x.tries < bits (uartWord s u 3) 4 3 then putUart u { x with tries := x.tries + 1 } s1
          else occur (194 + 4 * u) (((putUart u { x with sending := none, tries := 0 } s1).on (R.UART_STATUS.TX_FAILED u)).on (R.UART_IRQ.CARD_FAIL u))
        else
          let s2 := putUart u { x with sending := none, tries := 0 } s1
          if !flow && x.tx = [] then s2.on (R.UART_IRQ.TX_DONE u) else s2) s)

def uartBase (u : Nat) : Nat := 0x00230000 + 0x10000 * u
/-- UART_TX_WRITE (R453). -/
def execUartTxWrite (slot : Fin 8) (uart : Fin 4) (value : Nat) (s : State) : Res :=
  let u := uart.val
  completes s (guardWrite slot (uartBase u + 0x0C) (withUart u (fun s =>
    let x := uartOf s u
    if !uartServes s u then s
    else if x.tx.length ≥ 64 then s.bump (R.UART_COUNTS.TX_DROPS u) 1 else putUart u { x with tx := x.tx ++ [value % 512] } s)) s)
/-- UART_RX_READ (R453, R460). -/
def execUartRxRead (slot : Fin 8) (uart : Fin 4) (s : State) : Res :=
  let u := uart.val
  completes s (guardRead slot (uartBase u + 8) (fun s =>
    let x := uartOf s u
    match x.rx with
    | w :: rest => if uartServes s u then withUart u (putUart u { x with rx := rest }) (s.emit (.answer slot 0 (2 ^ 31 + w)))
        else s.emit (.answer slot 0 0)
    | [] => s.emit (.answer slot 0 0)) s)
/-- FLUSH_TX (R469). -/
def execFlushTx (slot : Fin 8) (uart : Fin 4) (s : State) : Res :=
  let u := uart.val
  completes s (guardWrite slot (uartBase u + 0x30) (withUart u (fun s => putUart u { uartOf s u with tx := [] } s)) s)
/-- FLUSH_RX (R469). -/
def execFlushRx (slot : Fin 8) (uart : Fin 4) (s : State) : Res :=
  let u := uart.val
  completes s (guardWrite slot (uartBase u + 0x30) (withUart u (fun s => putUart u { uartOf s u with rx := [] } s)) s)
/-- UART_CFG_APPLY (R461, R454); UART_LINE is absent while RX_EN is 0 (R468). -/
def execUartCfgApply (uart : Fin 4) (s : State) : Res :=
  let u := uart.val
  completes s (if !s.isSet (R.UART_STATUS.CFG_PENDING u) || s.isSet (R.UART_STATUS.RX_BUSY u) || (uartOf s u).sending.isSome then s
    else
      withUart u (fun s =>
        let was := uartMode s u
        let s1 := (putUart u { uartOf s u with act := [] } s).off (R.UART_STATUS.CFG_PENDING u)
        let s2 := if bit (uartWord s1 u 0) 14 then s1 else setCause (195 + 4 * u) false s1
        if uartMode s2 u = 1 && was != 1 then s2.on (R.UART_STATUS.MUTED u) else s2) s)
/-- UART_LINE (R468). -/
def execUartLine (uart : Fin 4) (present : Bool) (s : State) : Res :=
  let u := uart.val
  completes s (if !present then setCause (195 + 4 * u) false (s.off (R.UART_STATUS.LINE_LOW u))
    else if uartServes s u && bit (uartWord s u 0) 14 then setCause (195 + 4 * u) true (s.on (R.UART_STATUS.LINE_LOW u))
    else s)

/-- A restart of the owning grove (R462). -/
def restartUart (u : Nat) (s : State) : State :=
  let x := uartOf s u
  let s1 := putUart u { x with rx := [], tx := [], own := none, bad := 0, tries := 0 } s
  showUart u ((s1.rstAll [R.UART_STATUS.MUTED u, R.UART_STATUS.PAUSED u, R.UART_STATUS.XOFF_SENT u, R.UART_STATUS.TX_FAILED u]).rstAll (R.UART_IRQ.all u))
/-- Every register at its reset value and both FIFOs empty, as at grove ready and at an un-prune (R462). -/
def resetUart (u : Nat) (s : State) : State :=
  let fs := R.UART_DIV.all u ++ R.UART_STATUS.all u ++ R.UART_IRQ.all u ++ R.UART_IRQ_ENABLE.all u ++ R.UART_FIFO_CFG.all u ++ R.UART_FLOW.all u
    ++ R.UART_ADDR.all u ++ R.UART_CARD.all u ++ R.UART_COUNTS.all u ++ R.UART_CFG.all u
  let s1 := putUart u Uart.reset (s.rstAll fs)
  match uartRec s u with
  | some r => (s1.wr (R.UART_CFG.GROVE u) (r.u8 1)).wr (R.UART_CFG.USE u) (r.u8 2)
  | none => s1

/-- The slot that owns a pin (R465). -/
def pinOwner (s : State) (k : Nat) : Nat :=
  let o := s.rd (R.GPIO_OWNER.SLOT k)
  if configured s && s.isSet (R.GPIO_OWNER.ASSIGNED k) && occupied s o then o else 0
def ownPins (s : State) (slot : Nat) : Nat := (List.range 16).foldl (fun m k => if pinOwner s k = slot then setBit m k else m) 0
/-- The bits a slot sees and writes: grove 0 all, another grove those of its pins. -/
def pinMask (s : State) (slot : Nat) : Nat := if slot = 0 then 0xFFFF else ownPins s slot
/-- Writes take effect once grove 0 is ready (R467). -/
def pinsLive (s : State) : Bool := s.isSet (R.GROVE_STATUS.READY 0)
def pinSignals (s : State) (slot : Nat) : Bool := s.rd R.GPIO_EVENT.EVENT &&& s.rd R.GPIO_EVENT_EN.ENABLE &&& ownPins s slot != 0
/-- Carry out a change of the pins' registers, with the QUEUE interrupts it brings (R467). -/
def withPins (f : State → State) (s : State) : State :=
  let t := f s
  (List.range 8).foldl (fun a k => if !pinSignals s k && pinSignals t k then setIrq k 8 a else a) t
/-- A register of one bit a pin takes bits under a mask. -/
def maskWrite (f : Fld) (mask value : Nat) (s : State) : State := s.wr f (andNot (s.rd f) mask ||| (value &&& mask))
/-- A pin's settings return to reset (R467). -/
def resetPin (k : Nat) (s : State) : State :=
  let drop (f : Fld) (s : State) : State := s.wr f (clearBit (s.rd f) k)
  (([R.GPIO_DIR.OUT, R.GPIO_OUT.LEVEL, R.GPIO_OD.OPEN_DRAIN, R.GPIO_EVENT.EVENT, R.GPIO_EVENT_EN.ENABLE] : List Fld).foldl (fun a f => drop f a) s).rstAll
    [R.GPIO_PULL.PULL k, R.GPIO_EDGE.EDGE k]
/-- GPIO_OWNER_WRITE (R465, R467). -/
def execGpioOwnerWrite (slot : Fin 8) (high : Bool) (value : Nat) (s : State) : Res :=
  let base := 8 * b2n high
  completes s (guardWrite slot (0x00290000 + 4 * b2n high) (fun s =>
    if !pinsLive s then s
    else
      let t := (List.range 8).foldl (fun a k =>
        (a.wrB (R.GPIO_OWNER.ASSIGNED (base + k)) (bit value (4 * k + 3))).wr (R.GPIO_OWNER.SLOT (base + k)) (bits value (4 * k) 3)) s
      (List.range 8).foldl (fun a k => if pinOwner s (base + k) = pinOwner t (base + k) then a else resetPin (base + k) a) t) s)
/-- GPIO_SET (R466). -/
def execGpioSet (slot : Fin 8) (value : Nat) (s : State) : Res :=
  completes s (guardWrite slot 0x00290018 (fun s =>
    if pinsLive s then s.wr R.GPIO_OUT.LEVEL (s.rd R.GPIO_OUT.LEVEL ||| (value &&& pinMask s slot)) else s) s)
/-- GPIO_CLR (R466). -/
def execGpioClr (slot : Fin 8) (value : Nat) (s : State) : Res :=
  completes s (guardWrite slot 0x0029001C (fun s =>
    if pinsLive s then s.wr R.GPIO_OUT.LEVEL (andNot (s.rd R.GPIO_OUT.LEVEL) (value &&& pinMask s slot)) else s) s)
/-- The bells 27 to 31 of GPIO_0 to GPIO_4 ring on the edge that BELL_GPIO_EDGE chooses (R144, R151). -/
def gpioBells (old new : Nat) (s : State) : State :=
  (List.range 5).foldl (fun t i =>
    let e := s.rd (R.BELL_GPIO_EDGE.EDGE i)
    if (e != 1 && !bit old i && bit new i) || (e != 0 && bit old i && !bit new i) then ringBell (27 + i) false t else t) s
/-- The pins whose edge is one that GPIO_EDGE takes (R467). -/
def edgesMet (s : State) (old new : Nat) : Nat :=
  (List.range 16).foldl (fun m k =>
    let e := s.rd (R.GPIO_EDGE.EDGE k)
    if (bit e 0 && !bit old k && bit new k) || (bit e 1 && bit old k && !bit new k) then setBit m k else m) 0
/-- GPIO_EDGE (R144, R467): edges set no event bit while DOMAIN_141 is not ON or the part is not Active. -/
def execGpioEdge (levels : Nat) (s : State) : Res :=
  let old := s.rd R.GPIO_IN.LEVEL
  let new := levels % 65536
  let met := edgesMet s old new
  senses s (s.wr R.GPIO_IN.LEVEL new) (withPins (fun s =>
    let s1 := gpioBells old new (s.wr R.GPIO_IN.LEVEL new)
    if dormantState s = 0 && domOn s 141 then s1.wr R.GPIO_EVENT.EVENT (s.rd R.GPIO_EVENT.EVENT ||| met) else s1) s)

end Sys2Proof.Machine
end

