-- ==== Sys2Proof/Machine/Start.lean ====
section
/-! DEFINITION. Bringing groves, tiles and drums up (R186, R187, R191 to R193, R261 to R263, R307), and the end of a rescan
(R230). -/
namespace Sys2Proof.Machine

/-- The domains that a tile's role raises (Table 13-2). -/
def roleDomains (s : State) (t : Nat) : List Nat :=
  [25 + 3 * t] ++ (if s.isSet (R.TILE_CFG.SUPERSPEED t) then [26 + 3 * t] else []) ++ [27 + 3 * t, 67 + t]
/-- A tile that bring-up leaves as before ready: OFF, held down or pruned (R191). -/
def tileStays (s : State) (t : Nat) : Bool := tileRole s t = 0 || tileHeldDown s t || tilePruned s t
/-- A source that has stood on an UP tile's Rd since before its grove was ready is attached now (R186, Table 09-6). -/
def meetSource (t : Nat) (s : State) : State :=
  let o := attachLine s t (s.rd (R.TC_STATUS.CC_1 t)) (s.rd (R.TC_STATUS.CC_2 t))
  if o = 0 || attached s t then s else syncPath t (freshPd t ((s.wr (R.TILE_STATUS.ATTACH t) 2).wr (R.TILE_STATUS.ORIENT t) o))
/-- A tile is brought up (R191): its domains rise, its calibration is applied, and it presents Rp or Rd (R261, R307). -/
def bringTile (t : Nat) (s : State) : State :=
  if tileStays s t then s
  else
    let s1 := (applyBoard t (unitRequestAll true (roleDomains s t) s)).on (R.TILE_STATUS.READY t)
    if tileRole s t = 2 then
      syncPath t (setGuards t 5000 (rpMa s1 t) ((s1.wr (R.TC_STATUS.PRESENT t) 2).off (R.TC_STATUS.DEAD_BATTERY t)))
    else
      meetSource t (syncSink t (setGuards t 5000 0 ((s1.wr (R.TC_STATUS.PRESENT t) 1).off (R.TC_STATUS.DEAD_BATTERY t))))

/-- The root of a slot's grove is presented: the virtual hub with its ports (R263, R264, R506), or Taproot's root hub, of which
Taproot sets each PORT_POWER (R272, R279). -/
def showRoot (slot : Nat) (s : State) : State :=
  let tiles := downTiles s slot
  let n := tiles.length
  let ports := tiles.foldl (fun a t =>
    match portOfTile a t with | some (_, k) => a.wr (R.HUB_PORT.TILE slot k) t | none => a)
  if configured s && (upTileOf s slot).isSome then
    let others := (List.range 8).filter (fun m => m != ownMember s && (match s.stream with
      | some st => st.recs.any (fun r => r.ty = 3 && r.member = m && r.u8 1 = 2 && some (r.u8 2) = groveOf s slot)
      | none => false))
    let s1 := ports (((s.wr (R.HUB_SELF.KIND slot) 1).wr (R.HUB_SELF.PORTS slot) (n + 1 + others.length)).wr (R.HUB_SELF.STATE slot) 0)
    let id := Config.hubId (slotVersion s (s.rd R.HW_STATUS.SLOT))
    let s2 := (s1.wr (R.HUB_ID.VENDOR slot) (id % 2 ^ 16)).wr (R.HUB_ID.PRODUCT slot) (id / 2 ^ 16 % 2 ^ 16)
    others.zipIdx.foldl (fun a e => a.wr (R.HUB_PORT.TILE slot (n + 2 + e.2)) 0xE) (showFunction slot 0 s2)
  else if (rbpOf s slot).isSome then
    let s1 := (ports ((s.wr (R.HUB_SELF.KIND slot) 2).wr (R.HUB_SELF.PORTS slot) n)).wr (R.TAP_STATUS.STATE slot) 1
    tiles.foldl (fun a t => match portOfTile a t with | some (_, k) => a.on (R.HUB_PORT.POWER slot k) | none => a) s1
  else s

/-- The domains of a grove's root and of its units other than tiles. -/
def groveDomains (s : State) (slot : Nat) : List Nat :=
  (if (upTileOf s slot).isSome then [81, 82, 84] else if (rbpOf s slot).isSome then [81, 83] else [])
    ++ (if !configured s && slot = 0 then [25, 27, 87] else [])
    ++ (List.range 2).flatMap (fun p => if ownsRbp s slot p && !isPruned s (0x6000 + p) then [85 + p, 132] else [])
    ++ (List.range 4).flatMap (fun u => if ownsUart s slot u && !isPruned s (0x5000 + u) then [87 + u] else [])
    ++ (List.range 2).flatMap (fun o => if ownsAudio s slot o then [134 + o] else [])

/-- The slots that a start brings up, and whether a drum has been brought up, is held down or stays pruned (R191, R196). -/
def startSlots (s : State) : List Nat := if configured s then occupiedSlots s else [0]
def drumDone (s : State) (n : Nat) : Bool :=
  (drumRec s n).isNone || (drumSt s n).up || bit (s.rd R.IDB_HOLD.DRUMS) n || drumPruned s n
/-- The next grove to bring up: the lowest slot not ready (R191). -/
def nextGrove (s : State) : Option Nat :=
  if s.rd R.HW_STATUS.MODE = 1 && s.isSet R.START_STATUS.SEEDS_DONE then
    (startSlots s).find? (fun k => !s.isSet (R.GROVE_STATUS.READY k))
  else none
/-- A sealed region of the grove waits for SEAL_STATUS.CT_READY (R191). -/
def regionsWait (s : State) (slot : Nat) : Bool :=
  !s.isSet R.SEAL_STATUS.CT_READY && (List.range 32).any (fun r => ownsRegion s slot r && regionSealed s r)

/-- GROVE_STATUS.READY and START_STATUS (R192, R196). -/
def groveReady (slot : Nat) (s : State) : State :=
  let s1 := (s.on (R.GROVE_STATUS.READY slot)).wr R.START_STATUS.READY_SLOTS (setBit (s.rd R.START_STATUS.READY_SLOTS) slot)
  if (startSlots s1).all (fun k => s1.isSet (R.GROVE_STATUS.READY k)) then
    let s2 := s1.on R.START_STATUS.ALL_READY
    if configured s2 && (drumRec s2 0).isNone && (drumRec s2 1).isNone then s2.on R.START_STATUS.DRUMS_DONE else s2
  else s1
/-- A UART of the grove starts under its record (R189, R462). -/
def bringUart (u : Nat) (s : State) : State := if isPruned s (0x5000 + u) then s else showUart u (resetUart u s)
/-- A Retro Bus Port of the grove is due to change to the stream's MODE (R188). -/
def bringRbp (p : Nat) (s : State) : State :=
  if isPruned s (0x6000 + p) || !hasRbp s p then s else changeRbp p (fun x => { x with toServe := true }) (resetPort p s)
/-- What a press of a tray button owes the grove with tray rights (Table 09-6). -/
def payMedia (slot : Nat) (s : State) : State :=
  (List.range 2).foldl (fun a n =>
    if (trayOf a n).owedMedia && trayRights a slot n then setIrq slot 6 (putTray n { trayOf a n with owedMedia := false } a) else a) s
/-- The steps of R191 for a slot; a unit held down or pruned stays as before ready. -/
def bringGrove (slot : Nat) (up : UpConnect) (s : State) : State :=
  let s1 := unitRequestAll true (groveDomains s slot) s
  let s2 := (List.range 14).foldl (fun a t => if ownsTile a slot t then bringTile t a else a) (showRoot slot s1)
  let s3 := (List.range 4).foldl (fun a u => if ownsUart a slot u then bringUart u a else a) s2
  let s4 := (List.range 2).foldl (fun a p => if ownsRbp a slot p then bringRbp p a else a) s3
  let s5 := payMedia slot (groveReady slot s4)
  let s6 := match consoleOf s5 slot with
    | some u => if isPruned s5 (0x5000 + u) then s5 else s5.emit (.console u (asciiOf "up " ++ hexNum ((groveOf s5 slot).getD 0)))
    | none => s5
  match upTileOf s6 slot with
  | some t => if attached s6 t || !configured s6 then upConnect t up s6 else s6
  | none => s6
/-- Before the first grove, the sources of the pruned list's entries are set (R208); what the list names stays pruned. -/
def setListed (s : State) : State :=
  if s.rd R.START_STATUS.READY_SLOTS != 0 then s
  else
    (prunedWords s).foldl
      (fun t e => if srcLives t (bits e.2 16 9) then setSticky (bits e.2 16 9) t else t) s
/-- GROVE_BRINGUP (R191, R192, R208). -/
def execGroveBringup (up : UpConnect) (s : State) : Res :=
  completes s (match nextGrove s with
    | some slot => if regionsWait s slot then s else bringGrove slot up (setListed (if s.rd R.START_STATUS.READY_SLOTS != 0 then s else senseKeep 0x1000 0x2000 s))
    | none => s)

/-- The calibration of a drum from its VALID records (R227, R346, R384, R387, R402). -/
def applyDrumSeeds (n : Nat) (s : State) : State :=
  let s1 := match seedFor s n 1 with
    | some a => (wrList (R.FRONT_CAL.VALUE n) 0 ((List.range 8).map (fun i => word (seedBytes s n a) (0x10 + 4 * i))) s).on (R.CAL_SOURCE.SEED n)
    | none => s
  match seedFor s1 n 2 with
  | some a =>
    let r := seedBytes s1 n a
    let steps := f32Rat (word r 0x1C)
    let travel := f32Rat (word r 0x20)
    (((((((s1.wr (R.SPIN_CAL_A.POLE_PAIRS n) (byteAt r 0x10)).wr (R.SPIN_CAL_A.MAX_RPM n) (half r 0x12)).wr (R.SPIN_CAL_KE.VALUE n)
      (word r 0x14)).wr (R.SPIN_CAL_R.VALUE n) (word r 0x18)).on (R.SPIN_CAL_SOURCE.SEED n)).wr (R.SLED_TRAVEL.UNITS n)
      (roundAway (travel.1 * steps.1 * 64) (travel.2 * steps.2)).toNat).wr (R.TRAY_CFG.LIMIT n) (half r 0x24 + 500))
  | none => s1
/-- The registers of a drum that its stream records set. -/
def applyDrumRecs (n : Nat) (s : State) : State :=
  match drumRec s n with
  | none => s
  | some r =>
    let enc := match (recsOf s 0x0B).find? (fun x => x.u8 0 = n) with | some x => bit (x.u8 3) 0 | none => false
    ((((s.wr (R.SPIN_CFG.CURVE n) (r.u8 12)).wrB (R.SPIN_CFG.QUIET n) (bit (r.u8 3) 0)).wr (R.SLED_CFG.PROFILE n) (r.u8 13)).wrB
      (R.SLED_STATUS.ENCODER n) enc).wr (R.READ_COMBINE.DEPTH_DEFAULT n) (r.u8 14)
/-- The voices of the stream are loaded, with j₀ the frame in which they first run (R363). -/
def loadVoices (n : Nat) (s : State) : State :=
  (recsOf s 0x09).foldl (fun a r =>
    if r.u8 0 = n then
      placeVoice n (r.u8 1 % 8) (newVoice (namedBytes a r) (r.u8 2) (r.u8 3) (bit (r.u8 12) 0) (drumSt a n).frames) a
    else a) s
/-- The tray's end switches are sensed; what bring-up finds is no disc change (R191, R402, R431). -/
def senseTray (n : Nat) (s : State) : State :=
  let inner := s.isSet (R.TRAY_STATUS.IN_SW n)
  let outer := s.isSet (R.TRAY_STATUS.OUT_SW n)
  let s1 := setCause (drumSrc n 16) (inner && outer) (s.wr (R.TRAY_STATUS.STATE n) (trayNext 0 inner outer))
  (setDisc n (if trayState s1 n = 1 then 1 else 0) s1).wr (R.STK_DISC.GEN n) 0
/-- The steps of R191 for a drum. -/
def bringDrum (n : Nat) (s : State) : State :=
  let s0 := putDrum n { drumSt s n with voices := [], cmds := [], frames := 0, checking := none, resync := false } (s.wr (R.DH_FRAME.COUNT n) 0)
  let s1 := unitRequestAll true (drumDomains n ++ [125 + 2 * n, 126 + 2 * n]) s0
  let s2 := loadVoices n (applyDrumSeeds n (applyDrumRecs n (syncVoices n s1)))
  let s3 := senseTray n (putDrum n { drumSt s2 n with up := true } s2)
  let s4 := syncVoices n (s3.wrB (R.FRONT_STATUS.VM_OK n) (!vmOut s3 n))
  (List.range 8).foldl (fun a k => syncHeld n k a) s4
/-- DRUMS_DONE once every listed drum is brought up or held down. -/
def drumsDone (s : State) : State := if drumDone s 0 && drumDone s 1 then s.on R.START_STATUS.DRUMS_DONE else s
/-- DRUM_BRINGUP (R191, R193): after every grove, DRUM_0 before DRUM_1; a drum held down or pruned stays as it is. -/
def execDrumBringup (drum : Fin 2) (inSwitch outSwitch : Bool) (s0 : State) : Res :=
  let n := drum.val
  let s := if hasDrum s0 n then (s0.wrB (R.TRAY_STATUS.IN_SW n) inSwitch).wrB (R.TRAY_STATUS.OUT_SW n) outSwitch else s0
  completes s0 (if s.rd R.HW_STATUS.MODE != 1 || !configured s || !s.isSet R.START_STATUS.ALL_READY || (drumRec s n).isNone || !hasDrum s n
      || (n = 1 && !drumDone s 0) || (drumSt s n).up then s
    else drumsDone (if drumDone s n then s else bringDrum n s))

/-- A lifted UP tile whose host is attached connects, as one does once its grove is ready (R191, R230, R262). -/
def connectLifted (t : Nat) (up : UpConnect) (s : State) : State := if isUp s t && attached s t then upConnect t up s else s
/-- RESCAN_COMPLETE (R228 to R230): one SEED event, and on success the tiles are lifted and brought up, and the new board's
values reach every tile that it carries (R227). -/
def execRescanComplete (rescan : Rescan) (s : State) : Res :=
  let read := rescan.read
  completes s (match s.rescan with
    | none => s
    | some (a, stuck) =>
      let given := if stuck then some { (read.getD ⟨[], [], true⟩) with failed := true } else read
      let held := Tab.look 0 s.idbHeld a
      let s1 := compareSeed 2 a (takeSeed 2 a given (readSeed 2 a given { s.off R.IDB_STATUS.BUSY with rescan := none }))
      let s2 := if seedOutcome s1 2 a = 0 then s1 else seedEvent 2 a s1
      if seedOutcome s2 2 a = 1 then
        let s3 := holdTiles a 0 (s2.off (R.IDB_SLOT.HOLD 2 a))
        (List.range 14).foldl (fun t k =>
          if bit held k && (match (tileOwner t k).bind (slotOf t) with | some slot => t.isSet (R.GROVE_STATUS.READY slot) | none => false)
          then connectLifted k (rescan.ups.getD k ⟨true, 0⟩) (bringTile k t)
          else if bit (boardTiles s3 a) k && tileReady t k then applyBoard k t else t) s3
      else s2)

end Sys2Proof.Machine
end

