-- ==== Sys2Proof/Machine/Accept.lean ====
section
/-! DEFINITION. The end of the loader's checks: what a refused and an accepted stream do (R29, R31, R32). -/
namespace Sys2Proof.Machine

/-- The groves in the local slots of a member (R29); 0xFF marks an unused slot. -/
def slotGroves (st : Stream) (m : Nat) : List Nat :=
  if bit st.flags 0 then
    let others := (List.range 32).filter (fun g => g != 0 && (touchedBy st m).contains g)
    ((0 :: others) ++ List.replicate 8 0xFF).take 8
  else (List.range 8).map (fun k => if k = 0 || (groveNums st).contains k then k else 0xFF)

/-- A slot's GROVE bank at its reset values (R32). -/
def clearBank (slot : Nat) (s : State) : State :=
  let s1 := s.rstAll (R.GROVE_SELF.all slot ++ R.GROVE_STATUS.all slot ++ R.GROVE_REFUSED_ADDR.all slot ++ ((List.range 9).map (irqBit slot))
    ++ R.GROVE_IRQ_ENABLE.all slot ++ R.GROVE_NMI_ENABLE.all slot ++ R.GROVE_VOTE.all slot ++ R.GROVE_VOTES.all slot ++ R.GROVE_WEIGHTS.all slot)
  { s1 with irqNews := Tab.put false s1.irqNews slot false }
/-- Every slot's GROVE bank returns to its reset values when a LOAD is accepted (R32). -/
def clearBanks (s : State) : State := (List.range 8).foldl (fun t k => clearBank k t) s
/-- The stream's fields of a slot: GROVE_SELF, GROVE_WEIGHTS, GROVE_VOTES, and empty tally and stroke rings (R216, R427). -/
def loadSlot (slot : Nat) (s : State) : State :=
  let rings (s : State) : State :=
    let s1 := s.rstAll (R.TALLY_HEAD.all slot ++ R.TALLY_TAIL.all slot ++ R.TALLY_STATUS.all slot ++ R.TALLY_LOST.all slot)
    (List.range 2).foldl (fun t n => t.rstAll (R.STK_PROD.all n slot ++ R.STK_CONS.all n slot ++ R.STK_RING.all n slot ++ R.STK_DEMAND.all n slot
      ++ R.READ_REPORT_HEAD.all n slot ++ (List.range 16).flatMap (fun i => (List.range 4).map (R.READ_REPORT.WORD n slot i)))) s1
  let s1 := rings s
  match (groveOf s1 slot).bind (groveRec s1) with
  | none => s1
  | some r =>
    let self (s : State) : State :=
      (((((s.wr (R.GROVE_SELF.GROVE slot) (r.u8 0)).wr (R.GROVE_SELF.SLOT slot) slot).wr (R.GROVE_SELF.ROOT_MEMBER slot) (r.u8 1)).wr
        (R.GROVE_SELF.ROOT_KIND slot) (r.u8 2)).wr (R.GROVE_SELF.ROOT_INDEX slot) (r.u8 3)).wrB (R.GROVE_SELF.REMOTE slot) (r.u8 1 != ownMember s)
    let s2 := ((self s1).wr (R.GROVE_WEIGHTS.SPINE_WEIGHT slot) (r.u8 4)).wr (R.GROVE_WEIGHTS.SPINE_TOTAL slot) (spineTotal s1)
    let s3 := (s2.wr (R.TALLY_STATUS.DEPTH slot) (r.u8 5)).wr (R.GROVE_VOTES.OCCUPIED slot) ((occupiedSlots s2).foldl (fun a k => setBit a k) 0)
    (List.range 2).foldl (fun t n => if listedOnDrum t slot n then t.wr (R.STK_RING.DEPTH n slot) (r.u8 6) else t) s3

/-- The POWER record or its defaults (Table 02-19): RWL fields and the tempo requests (R123). -/
def loadPower (s : State) : State :=
  let v (k d : Nat) : Nat := match powerRec s with | some r => r.u8 k | none => d
  let w (k d : Nat) : Nat := match powerRec s with | some r => r.u32 k | none => d
  let bells := presentBells s (w 8 0xFFFFFFFF)
  let s1 := (((s.wr R.TEMPO_SETTLE.MICROSECONDS (v 1 50)).wr R.DORMANT_IDLE_TICKS.TICKS (w 12 0)).wr R.DORMANT_STATUS.MODE (v 0 0)).wr
    R.BELL_ENABLE.ENABLE bells
  (List.range 3).foldl (fun t r =>
    if railLive t r then retryFailed r (tempoUpdate r (t.wr (R.TEMPO_REQ.TEMPO r) (v (2 + r) 3))) else t) s1

/-- A tile's configuration, and what its pins show before its grove is ready: every tile but an UP tile, and TILE_0 in recovery
(R171), releases Rd (R186). -/
def loadTile (t : Nat) (s : State) : State :=
  let s1 := s.rstAll (R.TILE_CFG.all t)
  let release (s : State) : State := if isDfu s t then s else (s.wr (R.TC_STATUS.PRESENT t) 0).off (R.TC_STATUS.DEAD_BATTERY t)
  match tileRec s1 t with
  | none => release s1
  | some r =>
    let s2 := (((((s1.wr (R.TILE_CFG.GROVE t) (r.u8 2)).wr (R.TILE_CFG.HUB_PORT t) (r.u8 3)).wr (R.TILE_CFG.PROFILE t) (r.u8 4)).wrB
      (R.TILE_CFG.SUPERSPEED t) (bit (r.u8 5) 0)).wrB (R.TILE_CFG.MOISTURE t) (bit (r.u8 5) 1)).wr (R.TILE_CFG.ROLE t) (r.u8 1)
    let s3 := match pdProf s2 (r.u8 4) with
      | some p => if r.u8 1 = 0 then s2 else s2.wr (R.GUARD.BLANK t) (p.u8 7)
      | none => s2
    if r.u8 1 = 1 then s3 else release s3
/-- A Retro Bus Port's mode, width and DMA right (Table 02-9), as RBP_CFG shows them. -/
def loadRbp (p : Nat) (s : State) : State :=
  match rbpRec s p with
  | none => s.rstAll [R.RBP_CFG.DMA p, R.RBP_CFG.WIDTH16 p, R.RBP_CFG.MODE p]
  | some r => ((s.wrB (R.RBP_CFG.DMA p) (bit (r.u8 4) 0)).wrB (R.RBP_CFG.WIDTH16 p) (r.u8 3 = 16)).wr (R.RBP_CFG.MODE p) (r.u8 2)
/-- Rd released when no stream is accepted: TILE_0 keeps it (R186). -/
def releaseRd (s : State) : State :=
  (List.range' 1 13).foldl (fun a t => (a.wr (R.TC_STATUS.PRESENT t) 0).off (R.TC_STATUS.DEAD_BATTERY t)) s

/-- The trunk and the stack of an accepted stack stream (R471, R474, R496, R497): lanes, ports that train, the member's state;
the crown decides on itself and is always LOCKED (R502, R503, R511). -/
def loadTrunk (s0 : State) : State :=
  let s := senseKeep 0x7000 0x2C s0
  match trunkRec s, stackRec s with
  | some r, some k =>
    let s1 := ((s.wr R.TRUNK_CFG.GROUPING (r.u8 0)).wr R.TRUNK_CFG.LANE_MASK (r.u8 1)).wr R.TRUNK_CFG.IN_USE (r.u8 1)
    let s2 := ((((s1.wr R.STACK_SELF.MEMBER (ownMember s1)).wr R.STACK_SELF.CROWN (k.u8 1)).wr R.STACK_SELF.COUNT (k.u8 0)).wr
      R.STACK_SELF.STATE 1).wrB R.STACK_SELF.SECRET (secretValid s1)
    let s3 := setCause 381 (!secretValid s2) s2
    let lanes := (List.range 4).filter (fun l => laneInUse s3 l)
    let s4 := unitRequestAll true ((lanes.filter (fun l => !isPruned s3 (0x2000 + l))).map (111 + ·) ++ [17, 115, 116, 129, 130]) s3
    let s5 := lanes.foldl (fun t l => if isPruned t (0x2000 + l) then t.wr (R.TRUNK_LANE.STATE l) 6 else t) s4
    let s6 := setRoutes ((List.range 4).foldl (fun t p => if portWidth t p != 0 then setPort p 1 (putTrunk p TrunkPort.reset t) else syncTrunk t) s5)
    if isCrown s6 then crownMarks (ownMember s6) (s6.on R.STACK_TIME.LOCKED) else s6
  | _, _ => s0

/-- The implicit grove 0 ends, and the USB link of its TILE_0 with it (R32, R34). -/
def endImplicit (s : State) : State := match slotOfUpTile s 0 with | some slot => upGone slot 0 0 s | none => s
/-- What an accepted stream does, in the order of R32. -/
def applyStream (st : Stream) (op : LoadOp) (src : Nat) (s0 : State) : State :=
  let s := if op = .load then endImplicit s0 else s0
  let measured := extendEvent 2 5 st.digest (leBytes 4 src) s
  let s1 := wrList R.CANOPY_DIGEST.BYTES 0 (wordsOf 8 st.digest) measured
  let member := if bit st.flags 0 then s.strapStack else 0
  let slots := slotGroves st member
  let s2 := { s1 with stream := some st, tallyLast := [] }
  let s3 := ((s2.wr R.CANOPY_MEMBER.NUMBER member).wrB R.CANOPY_MEMBER.STACKED (bit st.flags 0)).wr R.CANOPY_STATUS.STATE 1
  let s4 := (s3.wr R.CANOPY_SLOTS_LO.SLOTS (leVal (slots.take 4))).wr R.CANOPY_SLOTS_HI.SLOTS (leVal (slots.drop 4))
  let s5 := (s4.wr R.CANOPY_STATUS.LOADED_AREA src).wrB R.CANOPY_STATUS.SEALED (bit st.flags 1)
  let s6 := (List.range 8).foldl (fun t k => loadSlot k t) (loadPower (if op = .load then clearBanks s5 else s5))
  let s7 := (List.range 14).foldl (fun t k => loadTile k t) s6
  let s8 := (List.range 2).foldl (fun t p => loadRbp p t) ((List.range 4).foldl (fun t u => resetUart u t) s7)
  let s9 := loadTrunk (loadSeal s8)
  if op = .load then
    let ended := s9.rstAll ([R.START_STATUS.READY_SLOTS, R.START_STATUS.ALL_READY] ++ R.HUB_SELF.all 0)
    if ended.isSet R.START_STATUS.SEEDS_DONE then applyBackplane (compareSeeds ended) else ended
  else s9

/-- CANOPY_CHECKS_COMPLETE (R30 to R33): the run reports its code and place; a refused stream changes nothing else. -/
def execCanopyChecksComplete (s : State) : Res :=
  completes s (if !loaderBusy s then s
    else
      let op := s.loadOp
      let s1 := { s.off R.CANOPY_STATUS.BUSY with loadOp := .idle }
      let s2 := match runChecks (sourceBytes s s.loadSrc) (2 ^ 20) (unitsOf s.variant) s.strapStack (sdramCapacity s) with
        | .refused code detail =>
          let t := (s1.wr R.CANOPY_STATUS.LAST_CODE code).wr R.CANOPY_DETAIL.OFFSET detail
          if op = .start then releaseRd t else t
        | .accepted st =>
          let t := (s1.wr R.CANOPY_STATUS.LAST_CODE 0).wr R.CANOPY_DETAIL.OFFSET 0xFFFFFFFF
          if op = .check then t else applyStream st op s.loadSrc t
      flushHeld (if op = .start then s2.on R.START_STATUS.CANOPY_DONE else s2))

end Sys2Proof.Machine
end

