-- ==== Sys2Proof/Machine/Hid.lean ====
section
/-! DEFINITION. HID report descriptors (R286, R292): the fields of a game controller's input reports. The item encoding is
PRESUMED: Device Class Definition for HID 1.11. -/
namespace Sys2Proof.Machine

/-- One field of an input report: the report's ID (0 where the descriptor uses none), first bit and width, logical minimum
and maximum, and its usages as page · 65,536 + usage; a variable field has one, an array field one for each value. -/
structure HidField where
  id : Nat
  at_ : Nat
  size : Nat
  lo : Int
  hi : Int
  usages : List Nat
  array : Bool
deriving DecidableEq, Repr

/-- The global items of a descriptor. -/
structure HidGlobal where
  page : Nat
  lo : Int
  hi : Int
  size : Nat
  count : Nat
  id : Nat
deriving DecidableEq, Repr

/-- A descriptor as it is read: global items and those pushed, local usages and the minimum of a range, collections open,
inside a joystick's or game pad's application collection, bits used by report ID, IDs used, one such collection met, and
the fields found. -/
structure HidParse where
  g : HidGlobal
  saved : List HidGlobal
  usages : List Nat
  low : Nat
  depth : Nat
  inPad : Bool
  used : List (Nat × Nat)
  ids : Bool
  isPad : Bool
  fields : List HidField
deriving DecidableEq, Repr

def HidParse.start : HidParse := ⟨⟨0, 0, 0, 0, 0, 0⟩, [], [], 0, 0, false, [], false, false, []⟩

/-- A usage item's value: with its own page in 4 bytes, else on the page in force. -/
def HidParse.usage (p : HidParse) (size v : Nat) : Nat := if size = 4 then v else p.g.page * 65536 + v
/-- Bits that the reports of the ID in force already use. -/
def HidParse.bitsUsed (p : HidParse) : Nat := ((p.used.find? (fun e => e.1 = p.g.id)).map Prod.snd).getD 0
def HidParse.advance (p : HidParse) (n : Nat) : HidParse :=
  { p with used := (p.g.id, p.bitsUsed + n) :: p.used.filter (fun e => e.1 != p.g.id) }
/-- An Input item: constant bits, an array, or one field for each usage. -/
def HidParse.input (p : HidParse) (flags : Nat) : HidParse :=
  let first := p.bitsUsed
  let field (i : Nat) : HidField :=
    ⟨p.g.id, first + i * p.g.size, p.g.size, p.g.lo, p.g.hi,
      if bit flags 1 then [p.usages.getD i (p.usages.getLast?.getD 0)] else p.usages, !bit flags 1⟩
  let p1 := p.advance (p.g.size * p.g.count)
  if bit flags 0 || !p.inPad then p1 else { p1 with fields := p.fields ++ (List.range (min p.g.count 512)).map field }
/-- One item: its type (0 main, 1 global, 2 local), tag, bytes of data and value. -/
def HidParse.item (p : HidParse) (kind tag size v : Nat) : HidParse :=
  match kind, tag with
  | 0, t =>
    let q :=
      if t = 8 then p.input v
      else if t = 10 then
        let pad := p.depth = 0 && v = 1 && (p.usages.headD 0 = 0x10004 || p.usages.headD 0 = 0x10005)
        { p with depth := p.depth + 1, inPad := p.inPad || pad, isPad := p.isPad || pad }
      else if t = 12 then { p with depth := p.depth - 1, inPad := p.inPad && 1 < p.depth }
      else p
    { q with usages := [], low := 0 }
  | 1, 0 => { p with g := { p.g with page := v } }
  | 1, 1 => { p with g := { p.g with lo := signed (8 * size) v } }
  | 1, 2 => { p with g := { p.g with hi := if p.g.lo < 0 then signed (8 * size) v else v } }
  | 1, 7 => { p with g := { p.g with size := v } }
  | 1, 8 => { p with g := { p.g with id := v }, ids := true }
  | 1, 9 => { p with g := { p.g with count := v } }
  | 1, 10 => { p with saved := p.g :: p.saved }
  | 1, 11 => match p.saved with | g :: r => { p with g := g, saved := r } | [] => p
  | 2, 0 => { p with usages := p.usages ++ [p.usage size v] }
  | 2, 1 => { p with low := p.usage size v }
  | 2, 2 => { p with usages := p.usages ++ (List.range (min (p.usage size v + 1 - p.low) 512)).map (p.low + ·) }
  | _, _ => p
/-- Read the items of a descriptor; a long item is passed over. -/
def parseHid : Nat → List Nat → HidParse → HidParse
  | 0, _, p => p
  | _ + 1, [], p => p
  | fuel + 1, b :: r, p =>
    if b = 0xFE then parseHid fuel (r.drop (2 + r.headD 0)) p
    else
      let size := if b % 4 = 3 then 4 else b % 4
      parseHid fuel (r.drop size) (p.item (b / 4 % 4) (b / 16) size (leVal (r.take size)))
def hidOf (desc : List Nat) : HidParse := parseHid 1024 desc HidParse.start

/-- The value of a field in the bytes after the report ID. -/
def HidField.value (f : HidField) (bytes : List Nat) : Int :=
  let raw := bits (leVal bytes) f.at_ f.size
  if f.lo < 0 then signed f.size raw else raw
/-- One axis: value, logical minimum and maximum. -/
structure Axis where
  value : Int
  lo : Int
  hi : Int
deriving DecidableEq, Repr
/-- The variable field of a usage in a report. -/
def fieldOf (fs : List HidField) (usage : Nat) : Option HidField := fs.find? (fun f => !f.array && f.usages.headD 0 = usage)
/-- The axes present, of the usages 0x30 to 0x37 in order (R292). -/
def axesOf (fs : List HidField) (bytes : List Nat) : List Axis :=
  (List.range 8).filterMap (fun i => (fieldOf fs (0x10030 + i)).map (fun f => ⟨f.value bytes, f.lo, f.hi⟩))
/-- The usages that a field reports as on. -/
def HidField.active (f : HidField) (bytes : List Nat) : List Nat :=
  let v := f.value bytes
  if f.array then (if f.lo ≤ v && v ≤ f.hi then (f.usages[(v - f.lo).toNat]?).toList else [])
  else if v = 0 then [] else f.usages
/-- Buttons 1 to 32 (R292), bit b - 1 for button b. -/
def buttonsOf (fs : List HidField) (bytes : List Nat) : Nat :=
  let on := fs.flatMap (fun f => f.active bytes)
  (List.range 32).foldl (fun a i => if on.contains (0x90001 + i) then setBit a i else a) 0
/-- The hat: 0 to 7 clockwise from north, 0x0F centred or absent; a hat of fewer places takes every second or fourth of the
eight (DESIGN CHOICE). -/
def hatOf (fs : List HidField) (bytes : List Nat) : Nat :=
  match fieldOf fs 0x10039 with
  | some f =>
    let v := f.value bytes
    let n := (f.hi - f.lo + 1).toNat
    if f.lo ≤ v && v ≤ f.hi && n ≤ 8 then (v - f.lo).toNat * 8 / n else 0x0F
  | none => 0x0F
/-- An input report as it comes: its ID first, where it has one (0 is the ID of none). -/
def reportBytes (id : Nat) (body : List Nat) : List Nat := if id = 0 then body else id % 256 :: body
/-- The fields and bytes of one input report of a descriptor. -/
def reportOf (desc report : List Nat) : List HidField × List Nat :=
  let p := hidOf desc
  if p.ids then (p.fields.filter (fun f => f.id = report.headD 0), report.drop 1) else (p.fields, report)

end Sys2Proof.Machine
end

