-- ==== Sys2Proof/Machine/Taproot.lean ====
section
/-! DEFINITION. Taproot: enumeration, class services, raw pipes, suspend and removal (chapter 14). -/
namespace Sys2Proof.Machine

/-- A record enters a pull queue, or is discarded, counted and an occurrence of CLASS_QUEUE (R289, R291). -/
def postRecord (slot q ty dev flags len : Nat) (body : List Nat) (s : State) : State :=
  raiseDrops (enterRecord slot q ty dev flags len body s)
/-- Rewrite the last unread record of a type and device in a queue where `f` allows a merge; none where it does not (R292,
R294). -/
def mergeLast (ty h : Nat) (f : List Nat → Option (List Nat)) (l : List (List Nat)) : Option (List (List Nat)) :=
  match l.reverse.span (fun r => r.getD 1 0 != h || r.getD 0 0 != ty) with
  | (after, r :: before) => (f r).map (fun x => before.reverse ++ [x] ++ after.reverse)
  | _ => none
/-- The header of a merged record: MERGED, and the time of the merge. -/
def mergedHead (s : State) (r : List Nat) (len : Nat) : List Nat :=
  [r.getD 0 0, r.getD 1 0, setBit (r.getD 2 0) 1, len] ++ leBytes 4 (metroLow s)

/-- Endpoints and interfaces of a configuration descriptor set: interface number, class, subclass, protocol, endpoints
(address, attributes, wMaxPacketSize, bInterval), at alternate setting 0, and the interfaces that its union descriptor names
(PRESUMED: CDC 1.2). -/
structure Iface where
  num : Nat
  cls : Nat
  sub : Nat
  proto : Nat
  eps : List (Nat × Nat × Nat × Nat)
  mates : List Nat
deriving DecidableEq, Repr

def parseConfig : Nat → List Nat → List Iface → List Iface
  | 0, _, acc => acc.reverse
  | fuel + 1, bs, acc =>
    match bs with
    | n :: ty :: r =>
      if n < 2 then acc.reverse
      else
        let d := n :: ty :: r
        let u (k : Nat) : Nat := d.getD k 0
        let acc1 : List Iface :=
          if ty = 4 then (if u 3 = 0 then ⟨u 2, u 5, u 6, u 7, [], []⟩ :: acc else ⟨256, 0, 0, 0, [], []⟩ :: acc)
          else if ty = 5 then
            match acc with
            | i :: t => { i with eps := i.eps ++ [(u 2, u 3, (u 4 + 256 * u 5) % 2048, u 6)] } :: t
            | [] => []
          else if ty = 0x24 && u 2 = 6 then
            match acc with
            | i :: t => { i with mates := i.mates ++ (d.take n).drop 4 } :: t
            | [] => []
          else acc
        parseConfig fuel (bs.drop n) acc1
    | _ => acc.reverse
/-- The interfaces at alternate setting 0. -/
def ifacesOf (config : List Nat) : List Iface := (parseConfig 512 config []).filter (fun i => i.num < 256)
def hasEp (i : Iface) (kind : Nat) (isIn : Bool) : Bool := i.eps.any (fun e => e.2.1 % 4 = kind && bit e.1 7 = isIn)
/-- The interface associations of a configuration: first interface and count (PRESUMED: USB 2.0, descriptor type 0x0B). -/
def assocsOf : Nat → List Nat → List (Nat × Nat)
  | 0, _ => []
  | fuel + 1, bs =>
    match bs with
    | n :: ty :: r => if n < 2 then [] else (if ty = 0x0B then [(r.getD 0 0, r.getD 1 0)] else []) ++ assocsOf fuel (bs.drop n)
    | _ => []
/-- An interface is associated with a data interface: by its union descriptor, or by an interface association. -/
def associated (config : List Nat) (i j : Iface) : Bool :=
  i.mates.contains j.num
    || (assocsOf 512 config).any (fun a => a.1 ≤ i.num && i.num < a.1 + a.2 && a.1 ≤ j.num && j.num < a.1 + a.2)
/-- The report descriptor of a HID interface. -/
def TapDev.hid (d : TapDev) (num : Nat) : List Nat := ((d.hids.find? (fun e => e.1 = num)).map Prod.snd).getD []
/-- The service that an interface meets first, as a bit of SERVICES (Table 14-2). -/
def serviceOf (d : TapDev) (i : Iface) (all : List Iface) : Option Nat :=
  if i.cls = 9 then some 5
  else if i.cls = 3 && i.sub = 1 && i.proto = 1 && hasEp i 3 true then some 0
  else if i.cls = 3 && i.sub = 1 && i.proto = 2 && hasEp i 3 true then some 1
  else if i.cls = 3 && !(i.sub = 1 && (i.proto = 1 || i.proto = 2)) && (hidOf (d.hid i.num)).isPad then some 2
  else if i.cls = 8 && i.sub = 6 && i.proto = 0x50 && d.blocks.any (fun b => b.1 = i.num && b.2.1 = 0 && (b.2.2 = 512 || b.2.2 = 4096)) then some 3
  else if i.cls = 2 && i.sub = 2 && all.any (fun j => j.cls = 0x0A && associated d.config i j && hasEp j 2 true && hasEp j 2 false) then some 4
  else none
/-- Interfaces of a bus bound to a service. -/
def bound (b : TapBus) (svc : Nat) : Nat := ((b.devs.flatMap TapDev.binds).filter (fun e => e.2 = svc)).length
/-- An interface over a limit of Table 14-1: its service has its 4 interfaces, its endpoint cannot be scheduled, or its
report descriptor is too long (R284). -/
def overService (b : TapBus) (d : TapDev) (sofar : List (Nat × Nat)) (i : Iface) (svc : Nat) : Bool :=
  d.unscheduled.contains i.num || 1024 < (d.hid i.num).length
    || (svc ≤ 4 && 4 ≤ bound b svc + (sofar.filter (fun e => e.2 = svc)).length)
/-- Bind a device's interfaces (R284, R286): each with its service, and whether a limit left one unbound. -/
def bindDevice (b : TapBus) (d : TapDev) : List (Nat × Nat) × Bool :=
  let all := ifacesOf d.config
  all.foldl (fun a i =>
    match serviceOf d i all with
    | none => a
    | some svc => if overService b d a.1 i svc then (a.1, true) else (a.1 ++ [(i.num, svc)], a.2)) ([], false)
/-- A control transfer to a device: its setup packet, with its data. -/
def control (slot h : Nat) (setup data : List Nat) (s : State) : State := s.emit (.device slot h 0 (setup ++ data))
/-- SET_LINE_CODING and SET_CONTROL_LINE_STATE (R286, R294). -/
def sendLine (slot h : Nat) (coding : List Nat) (lines : Nat) (s : State) : State :=
  (s.emit (.device slot h 0x20 coding)).emit (.device slot h 0x22 [lines])
/-- Taproot's set-up of a bound interface (Table 14-2; request codes PRESUMED: HID 1.11, SPC and SBC). -/
def setUpOne (slot h : Nat) (s : State) (e : Nat × Nat) : State :=
  let hid (op : Nat) : State → State := control slot h [0x21, op, 0, 0, e.1, 0, 0, 0] []
  match e.2 with
  | 0 => (hid 0x0A (hid 0x0B s)).emit (.device slot h 0 [0])
  | 1 => hid 0x0B s
  | 3 => ((s.emit (.command slot h [0x12, 0, 0, 0, 36, 0])).emit (.command slot h [0, 0, 0, 0, 0, 0])).emit
      (.command slot h (0x25 :: List.replicate 9 0))
  | 4 => sendLine slot h (leBytes 4 115200 ++ [0, 0, 8]) 3 s
  | _ => s
def setUp (slot h : Nat) (binds : List (Nat × Nat)) (s : State) : State := binds.foldl (setUpOne slot h) s
def postAttach (slot : Nat) (d : TapDev) (flags : Nat) (s : State) : State := postRecord slot 0 0x01 d.handle flags 0 (attachBody d) s
/-- Body of REFUSED and ENUM_FAILED: bytes 12 to 15 as ATTACH, REASON at 21. -/
def refusedBody (f : Found) (reason : Nat) : List Nat :=
  [0, 0, 0, 0, f.speed, f.root, f.hub1, f.hub2] ++ List.replicate 5 0 ++ [reason]

/-- The lowest free number from 1 that is not among those in use. -/
def lowestFree (used : List Nat) (n : Nat) : Option Nat := (List.range' 1 n).find? (fun k => !used.contains k)
/-- A root port is connected: a DOWN tile's here, or that of the DOWN tile with HUB_PORT k of member m, as 16 · (m + 1) + k,
while m is GRAFTED and has a route (R506). -/
def rootConnected (s : State) (slot root : Nat) : Bool :=
  if root < 16 then portPresent s slot root && s.isSet (R.HUB_PORT.CONNECT slot root)
  else
    let m := root / 16 - 1
    m != ownMember s && bit (s.rd R.STACK_MEMBERS.GRAFTED) m && (routeTo s m).isSome
      && (match s.stream, groveOf s slot with
          | some t, some g => t.recs.any (fun r => r.ty = 3 && r.member = m && r.u8 1 = 2 && r.u8 2 = g && r.u8 3 = root % 16)
          | _, _ => false)
/-- Whether a device's place on the bus exists: a connected root port, or a hub above it. -/
def placeExists (s : State) (slot : Nat) (f : Found) : Bool :=
  let b := busOf s slot
  let hubAt (h1 : Nat) : Bool := b.devs.any (fun d => d.root = f.root && d.hub1 = h1 && d.hub2 = 0 && bit d.services 5)
  rootConnected s slot f.root
    && (if f.hub1 = 0 then f.hub2 = 0 else if f.hub2 = 0 then hubAt 0 else hubAt f.hub1)
    && !b.devs.any (fun d => d.root = f.root && d.hub1 = f.hub1 && d.hub2 = f.hub2)
    && !b.disabled.contains (f.root, f.hub1, f.hub2)
def allDevices (s : State) : Nat := ((List.range 8).map (fun k => (busOf s k).devs.length)).foldl (· + ·) 0
/-- The REASON with which a device over a limit is refused (R284). -/
def overLimit (s : State) (slot : Nat) (f : Found) : Option Nat :=
  if 32 ≤ (busOf s slot).devs.length then some 1
  else if 64 ≤ allDevices s then some 2
  else if f.hub2 != 0 && (ifacesOf f.config).any (fun i => i.cls = 9) then some 3
  else none
def placeOf (f : Found) : Nat × Nat × Nat := (f.root, f.hub1, f.hub2)
/-- The enumeration of a place has come to its end. -/
def endTries (slot : Nat) (f : Found) (s : State) : State :=
  changeBus slot (fun b => { b with tries := b.tries.filter (fun e => e.1 != placeOf f) }) s
def disablePlace (slot : Nat) (f : Found) (s : State) : State :=
  let s1 := changeBus slot (fun b => { b with disabled := b.disabled ++ [placeOf f] }) (endTries slot f s)
  if f.hub1 = 0 then s1.off (R.HUB_PORT.ENABLED slot f.root) else s1
/-- The hub above a place on a bus, and the place's port on it. -/
def hubAbove (s : State) (slot root hub1 hub2 : Nat) : Option (TapDev × Nat) :=
  if hub1 = 0 then none
  else ((busOf s slot).devs.find? (fun d => d.root = root && d.hub1 = (if hub2 = 0 then 0 else hub1) && d.hub2 = 0)).map
    (fun d => (d, if hub2 = 0 then hub1 else hub2))
/-- Step 2 of R285: a device's port is reset, a root port by Taproot, a port of an external hub by SET_FEATURE PORT_RESET to
it (request PRESUMED: USB 2.0). -/
def resetPlace (slot root hub1 hub2 : Nat) (s : State) : State :=
  match (if hub1 = 0 then tileOfPort s slot root else none), hubAbove s slot root hub1 hub2 with
  | some t, _ => s.bump (R.TILE_COUNTS.RESETS t) 1
  | none, some (d, k) => control slot d.handle [0x23, 3, 4, 0, k, 0, 0, 0] [] s
  | none, none => s
/-- Enable the root port of a root device after its reset (R285 step 2, R269). -/
def enableRoot (slot : Nat) (f : Found) (s : State) : State :=
  match (if f.hub1 = 0 then tileOfPort s slot f.root else none) with
  | some t => setSpeed t f.speed (setLink t 3 (s.on (R.HUB_PORT.ENABLED slot f.root)))
  | none => s
/-- An enumeration fails: an occurrence of TAPROOT_ENUM, and a try from step 2 after the backoff, while its own retries last
(R202, R285). -/
def enumFails (slot : Nat) (f : Found) (reason : Nat) (s : State) : State :=
  let s1 := occur 163 s
  let used := (((busOf s1 slot).tries.find? (fun e => e.1 = placeOf f)).map Prod.snd).getD 0
  if !actsPermanent s1 163 && used < (policyOf s1 163).retry then
    changeBus slot (fun b => { b with tries := (placeOf f, used + 1) :: b.tries.filter (fun e => e.1 != placeOf f) })
      { s1 with backoff := Tab.put false s1.backoff 163 true }
  else postRecord slot 0 0x04 0 0 0 (refusedBody f reason) (disablePlace slot f s1)
/-- Steps 3 to 5 of R285 as the device sees them: its descriptors are read, and its address and configuration set. -/
def askDevice (slot : Nat) (d : TapDev) (s : State) : State :=
  let get (ty len : Nat) : State → State := control slot d.handle ([0x80, 6, 0, ty, 0, 0] ++ leBytes 2 len) []
  control slot d.handle [0, 9, d.config.getD 5 0, 0, 0, 0, 0, 0] [] (get 2 d.config.length (get 1 18
    (control slot d.handle [0, 5, d.addr, 0, 0, 0, 0, 0] [] (get 1 8 s))))

/-- A place whose enumeration has failed waits for the backoff of its retry (R202). -/
def triesWait (s : State) (slot : Nat) (f : Found) : Bool :=
  Tab.look false s.backoff 163 && (busOf s slot).tries.any (fun e => e.1 = placeOf f)
/-- The device's ATTACH, which a restart under way makes one of its REPLAY records (R304). -/
def announce (slot : Nat) (d : TapDev) (s : State) : State :=
  if s.isSet (R.GROVE_STATUS.RESTARTING slot) then s else postAttach slot d (if d.limit then 16 else 0) s
/-- TAPROOT_ENUMERATE (R284, R285): a step that fails is retried under R202, and its spent budget posts ENUM_FAILED. -/
def execTaprootEnumerate (slot : Fin 8) (dev : Found) (failure : Option Nat) (s : State) : Res :=
  completes s (if tapState s slot != 1 || !placeExists s slot dev || triesWait s slot dev then s
    else match overLimit s slot dev with
      | some reason => postRecord slot 0 0x03 0 0 0 (refusedBody dev reason) (disablePlace slot dev s)
      | none =>
        let s1 := resetPlace slot dev.root dev.hub1 dev.hub2 s
        match (if dev.config.length > 1024 then some 3 else failure) with
        | some reason => enumFails slot dev reason s1
        | none =>
          let b := busOf s1 slot
          match lowestFree (b.devs.map TapDev.addr) 127, lowestFree (b.devs.map TapDev.handle ++ b.freed) 32 with
          | some a, some h =>
            let d0 : TapDev := ⟨h, a, dev.speed, dev.root, dev.hub1, dev.hub2, dev.device.take 18, dev.config, dev.hids,
              dev.blocks, dev.unscheduled, [], false, false, 0, [], 0, none, none, false⟩
            let sv := bindDevice b d0
            let d := { d0 with binds := sv.1, limit := sv.2 }
            announce slot d (setUp slot h sv.1 (askDevice slot d
              (changeBus slot (fun b => { b with devs := b.devs ++ [d] }) (enableRoot slot dev (endTries slot dev s1)))))
          | _, _ => s1)

/-- A report of a device bound to a service and not suspended. -/
def report (slot h svc : Nat) (f : TapDev → State → State) (s : State) : State :=
  match devOf s slot h with
  | some d => if busRuns s slot && bit d.services svc && !d.claimed && !d.suspended then f d s else s
  | none => s

/-- KEYBOARD_REPORT (R292). -/
def execKeyboardReport (slot : Fin 8) (handle : Nat) (report : List Nat) (s : State) : Res :=
  completes s (Sys2Proof.Machine.report slot handle 0 (fun d s =>
    let keys := ((report.drop 2).take 6).filter (· != 0)
    if keys.contains 1 then s
    else
      let mods := report.getD 0 0 % 256
      raiseDrops (postKeys slot handle 0 (keyChanges d.mods d.keys mods keys)
        (changeDev slot handle (fun d => { d with mods := mods, keys := keys.eraseDups }) s))) s)

/-- Saturating signed sum of two fields of `w` bits, stored in `w` bits. -/
def satAdd (w a b : Nat) : Nat :=
  let m : Int := 2 ^ (w - 1) - 1
  unsigned w (max (-m) (min m (signed w a + signed w b)))
/-- POINTER_REPORT (R292). -/
def execPointerReport (slot : Fin 8) (handle : Nat) (report : List Nat) (s : State) : Res :=
  completes s (Sys2Proof.Machine.report slot handle 1 (fun _ s =>
    let btn := report.getD 0 0 % 256
    let dx := unsigned 16 (signed 8 (report.getD 1 0))
    let dy := unsigned 16 (signed 8 (report.getD 2 0))
    let wheel := report.getD 3 0 % 256
    let s1 := changeDev slot handle (fun d => { d with buttons := btn }) s
    match mergeLast 0x20 handle (fun r =>
        if r.getD 13 0 = btn then
          some (mergedHead s r 0 ++ leBytes 2 (satAdd 16 (recU r 8 2) dx) ++ leBytes 2 (satAdd 16 (recU r 10 2) dy)
            ++ [satAdd 8 (r.getD 12 0) wheel, btn] ++ List.replicate 18 0)
        else none) (pullOf (busOf s1 slot) 2) with
    | some l => changeBus slot (setPull 2 l) s1
    | none => postRecord slot 2 0x20 handle 0 0 (leBytes 2 dx ++ leBytes 2 dy ++ [wheel, btn]) s1) s)

/-- One axis mapped to −32,767 to +32,767 (R292); a fraction rounds to the nearest, halves away from zero (DESIGN CHOICE). -/
def mapAxis (a : Axis) : Nat :=
  if a.hi ≤ a.lo then 0
  else unsigned 16 (max (-32767) (min 32767 (roundAway ((a.value - a.lo) * 65534 - 32767 * (a.hi - a.lo)) (a.hi - a.lo).toNat)))
/-- An interface of a device is bound to the game controller service. -/
def TapDev.isPad (d : TapDev) (iface : Nat) : Bool := d.binds.contains (iface, 2)
/-- PAD_REPORT (R292): a usage that the report does not hold counts as absent (DESIGN CHOICE where it lies in another one). -/
def execPadReport (slot : Fin 8) (handle iface id : Nat) (body : List Nat) (s : State) : Res :=
  completes s (report slot handle 2 (fun d s =>
    if !d.isPad iface then s else
    let r := reportOf (d.hid iface) (reportBytes id body)
    let buttons := buttonsOf r.1 r.2
    let hat := hatOf r.1 r.2
    let body := (((axesOf r.1 r.2).map mapAxis ++ List.replicate 8 0).take 8).flatMap (leBytes 2) ++ leBytes 4 buttons ++ [hat]
    match mergeLast 0x30 handle (fun r =>
        if recU r 24 4 = buttons && r.getD 28 0 = hat then some ((mergedHead s r 0 ++ body ++ [0, 0, 0]).take 32) else none)
        (pullOf (busOf s slot) 3) with
    | some l => changeBus slot (setPull 3 l) s
    | none => postRecord slot 3 0x30 handle 0 0 body s) s)

/-- A device is another, or a hub on the way to it. -/
def onPath (d e : TapDev) : Bool :=
  e.root = d.root && (e.handle = d.handle || e.hub1 = 0 || (e.hub1 = d.hub1 && e.hub2 = 0))
/-- Work for a suspended device resumes it and its path (R300). -/
def resumeDev (slot h : Nat) (s : State) : State :=
  match devOf s slot h with
  | some d =>
    if busRuns s slot && (d.suspended || tapState s slot = 2) then
      let s1 := changeBus slot (fun b => { b with devs := b.devs.map (fun e => if onPath d e then { e with suspended := false } else e) })
        (s.wr (R.TAP_STATUS.STATE slot) 1)
      match tileOfPort s1 slot d.root with
      | some t => if linkOf s1 t = 7 then setLink t 3 s1 else s1
      | none => s1
    else s
  | none => s

/-- LEDS (R292): the oldest LED record goes to its keyboard. -/
def execLeds (slot : Fin 8) (s : State) : Res :=
  completes s (match pushOf (busOf s slot) 1 with
    | r :: rest =>
      if busRuns s slot then
        (resumeDev slot (r.getD 1 0) (changeBus slot (setPush 1 rest) s)).emit (.device slot (r.getD 1 0) 0 [r.getD 8 0])
      else s
    | [] => s)

/-- The oldest block request of a device, when none of its requests waits to be completed. -/
def blockHead (s : State) (slot h : Nat) : Option (TapDev × List Nat) :=
  match devOf s slot h, (pushOf (busOf s slot) 4).find? (isBlockReq h) with
  | some d, some r => if d.ended.isNone && busRuns s slot then some (d, r) else none
  | _, _ => none
/-- Block size of the interface bound to the block service. -/
def blockSize (d : TapDev) : Nat :=
  ((d.binds.find? (fun e => e.2 = 3)).bind (fun e => (d.blocks.find? (fun b => b.1 = e.1)).map (fun b => b.2.2))).getD 512
def endBlock (slot h : Nat) (e : List Nat) (s : State) : State := changeDev slot h (fun d => { d with ended := some e, begun := none }) s
/-- A command goes on after what has moved, or ends. -/
def endOrRun (slot h : Nat) (result : BlockEnd) (done : Nat) (e : List Nat) (s : State) : State :=
  if result = .running then changeDev slot h (fun d => { d with begun := some done }) s else endBlock slot h e s
def endingOf (result : BlockEnd) (done want : Nat) (tail : List Nat) : List Nat :=
  match result with
  | .good => blockEnding (if done = want then 0 else 5) 0 0 0 done tail
  | .check k a q => blockEnding 1 k a q done tail
  | .phaseError | .running => blockEnding 5 0 0 0 done tail
/-- Write blocks to the region, one by one; the count written and the memory failure (R293). -/
def putBlocks (slot bs addr : Nat) : Nat → List Nat → Nat → State → Nat × Bool × State
  | 0, _, n, s => (n, false, s)
  | k + 1, data, n, s =>
    if data.length < bs then (n, false, s)
    else
      let r := unitWrite slot (addr + n * bs) (data.take bs) s
      if r.1.err != 0 || r.1.refused then (n, true, r.2) else putBlocks slot bs addr k (data.drop bs) (n + 1) r.2
def getBlocks (slot bs addr h : Nat) : Nat → Nat → State → Nat × Bool × State
  | 0, n, s => (n, false, s)
  | k + 1, n, s =>
    let r := unitRead slot (addr + n * bs) bs s
    if r.1.err != 0 || r.1.refused then (n, true, r.2) else getBlocks slot bs addr h k (n + 1) (r.2.emit (.device slot h 1 r.1.bytes))
/-- A read or write request with its range in the region (R45, R293). -/
def blockRange (s : State) (slot : Nat) (r : List Nat) (bs : Nat) : Option Nat :=
  regionAddr s slot (r.getD 20 0) (recU r 24 4) (recU r 16 4 * bs)
/-- READ(10), WRITE(10), READ(16) or WRITE(16) of blocks from LBA (R293; layout PRESUMED: SBC). -/
def blockCdb (write : Bool) (lba blocks : Nat) : List Nat :=
  if lba + blocks ≤ 2 ^ 32 then [if write then 0x2A else 0x28, 0] ++ beBytes 4 lba ++ [0] ++ beBytes 2 blocks ++ [0]
  else [if write then 0x8A else 0x88, 0] ++ beBytes 8 lba ++ beBytes 4 blocks ++ [0, 0]
/-- Bulk-Only reset recovery: the reset, then both bulk endpoints' halts cleared (PRESUMED: Bulk-Only Transport). -/
def resetRecovery (slot : Nat) (d : TapDev) (s : State) : State :=
  let num := ((d.binds.find? (fun e => e.2 = 3)).map Prod.fst).getD 0
  let eps := ((ifacesOf d.config).filter (fun i => i.num = num)).flatMap (fun i => (i.eps.filter (fun e => e.2.1 % 4 = 2)).map Prod.fst)
  eps.foldl (fun t e => control slot d.handle [2, 1, 0, 0, e, 0, 0, 0] [] t) (control slot d.handle [0x21, 0xFF, 0, 0, num, 0, 0, 0] [] s)
/-- What a device's answer to a command draws: REQUEST SENSE, or reset recovery (R293). -/
def afterCommand (slot : Nat) (d : TapDev) (result : BlockEnd) (s : State) : State :=
  match result with
  | .good | .running => s
  | .check _ _ _ => s.emit (.command slot d.handle [3, 0, 0, 0, 18, 0])
  | .phaseError => resetRecovery slot d s
/-- A block read or write: its command goes out once, `move` moves blocks from the one it has come to and says how many then
count, and it ends or goes on (R293). Its data passes through the USB staging banks (R71). -/
def runBlocks (slot h : Nat) (write : Bool) (move : TapDev → List Nat → Nat → State → Nat × Bool × State) (result : BlockEnd)
    (s : State) : State :=
  match blockHead s slot h with
  | some (d, r) =>
    if r.getD 0 0 != (if write then 0x41 else 0x40) then s
    else
      let s0 := resumeDev slot h s
      match blockRange s0 slot r (blockSize d) with
      | none => endBlock slot h (blockEnding 3 0 0 0 0 []) (memRefuse slot s0)
      | some a =>
        let w := sweepUse .usb (if d.begun.isSome then s0 else s0.emit (.command slot h (blockCdb write (recU r 8 8) (recU r 16 4))))
        if w.1 then endBlock slot h (blockEnding 4 0 0 0 0 []) w.2
        else
          let p := move d r a w.2
          if p.2.1 then endBlock slot h (blockEnding 4 0 0 0 p.1 []) (afterCommand slot d result p.2.2)
          else endOrRun slot h result p.1 (endingOf result p.1 (recU r 16 4) []) (afterCommand slot d result p.2.2)
  | none => s
/-- BLOCK_READ (R293). -/
def execBlockRead (slot : Fin 8) (handle : Nat) (data : List Nat) (result : BlockEnd) (s : State) : Res :=
  completes s (runBlocks slot handle false (fun d r a =>
    putBlocks slot (blockSize d) a (recU r 16 4 - d.begun.getD 0) data (d.begun.getD 0)) result s)
/-- BLOCK_WRITE (R293): a block counts once the device has acknowledged it. -/
def execBlockWrite (slot : Fin 8) (handle : Nat) (acked : Nat) (result : BlockEnd) (s : State) : Res :=
  completes s (runBlocks slot handle true (fun d r a t =>
    let n := d.begun.getD 0
    let p := getBlocks slot (blockSize d) a handle (recU r 16 4 - n) n t
    (min (n + acked) p.1, p.2)) result s)
/-- CAPACITY (R293). -/
def execCapacity (slot : Fin 8) (handle : Nat) (blocks size : Nat) (result : BlockEnd) (s : State) : Res :=
  completes s (match blockHead s slot handle with
    | some (d, r) =>
      if r.getD 0 0 != 0x42 then s
      else
        let s1 := resumeDev slot handle s
        endOrRun slot handle result 0 (endingOf result 0 0 (if result = .good then leBytes 8 blocks ++ leBytes 4 size else []))
          (afterCommand slot d result (if d.begun.isSome then s1 else s1.emit (.command slot handle (0x25 :: List.replicate 9 0))))
    | none => s)
/-- Drop the first record that `p` picks. -/
def dropFirst (p : List Nat → Bool) : List (List Nat) → List (List Nat)
  | [] => []
  | r :: t => if p r then t else r :: dropFirst p t
/-- BLOCK_REQUEST_DONE (R293). -/
def execBlockRequestDone (slot : Fin 8) (handle : Nat) (s : State) : Res :=
  completes s (match devOf s slot handle, (pushOf (busOf s slot) 4).find? (isBlockReq handle) with
    | some d, some r =>
      match d.ended with
      | some e =>
        raiseDrops (postDone slot r e 0 (changeDev slot handle (fun d => { d with ended := none })
          (changeBus slot (fun b => setPush 4 (dropFirst (isBlockReq handle) (pushOf b 4)) b) s)))
      | none => s
    | _, _ => s)

/-- The oldest serial push record of a device, of a type. -/
def serialHead (s : State) (slot h ty : Nat) : Option (List Nat) :=
  match (pushOf (busOf s slot) 5).find? (isBlockReq h) with
  | some r => if r.getD 0 0 = ty && busRuns s slot && (devOf s slot h).isSome then some r else none
  | none => none
def takeSerial (slot h : Nat) (s : State) : State :=
  resumeDev slot h (changeBus slot (fun b => setPush 5 (dropFirst (isBlockReq h) (pushOf b 5)) b) s)
/-- TX (R294). -/
def execTx (slot : Fin 8) (handle : Nat) (s : State) : Res :=
  completes s (match serialHead s slot handle 0x50 with
    | some r => (takeSerial slot handle s).emit (.device slot handle 2 ((r.drop 8).take (r.getD 3 0)))
    | none => s)
/-- LINE (R294): SET_LINE_CODING (0x20), then SET_CONTROL_LINE_STATE (0x22). -/
def execLine (slot : Fin 8) (handle : Nat) (s : State) : Res :=
  completes s (match serialHead s slot handle 0x51 with
    | some r =>
      sendLine slot handle ((r.drop 4).take 7) (r.getD 11 0) (takeSerial slot handle s)
    | none => s)
/-- Append received bytes to the last unread RX record, or begin new ones (R294). -/
def rxBytes (slot h : Nat) : List Nat → State → State
  | [], s => s
  | b :: r, s =>
    let m := mergeLast 0x58 h (fun x =>
      if x.getD 3 0 < 24 then
        some ((mergedHead s x (x.getD 3 0 + 1) ++ (x.drop 8).take (x.getD 3 0) ++ [b % 256] ++ List.replicate 24 0).take 32)
      else none) (pullOf (busOf s slot) 5)
    rxBytes slot h r (match m with
      | some l => changeBus slot (setPull 5 l) s
      | none => postRecord slot 5 0x58 h 0 1 [b % 256] s)
/-- SERIAL_RX_DATA (R294). -/
def execSerialRxData (slot : Fin 8) (handle : Nat) (data : List Nat) (s : State) : Res :=
  completes s (report slot handle 4 (fun _ => rxBytes slot handle data) s)
/-- SERIAL_STATE_NOTIFY (R294). -/
def execSerialStateNotify (slot : Fin 8) (handle : Nat) (bits : Nat) (s : State) : Res :=
  completes s (report slot handle 4 (fun _ => postRecord slot 5 0x59 handle 0 0 [bits % 128]) s)

/-- Move one packet between the region and the device; the pipe with its count (R296, R297, R213). -/
def movePacket (slot : Nat) (d : List Nat) (isIn : Bool) (i : Nat) (data : List Nat) (x : Pipe) (s : State) : Pipe × State :=
  let len := min x.packet (recU d 16 4 - i * x.packet)
  let doneOne (x : Pipe) : Pipe := { x with done := x.done + 1, map := if i < 64 then setBit x.map i else x.map, moved := i + 1 }
  let fails (x : Pipe) (src : Nat) (refused : Bool) : Pipe :=
    { x with moved := i + 1, failed := some (x.failed.getD i), source := if x.failed.isNone then src else x.source, refused := x.refused || refused }
  if len = 0 then (doneOne x, if isIn || x.kind = 0 then s else s.emit (.device slot x.handle x.endpoint []))
  else
    match regionAddr s slot (d.getD 8 0) (recU d 12 4 + i * x.packet) len with
    | none => (fails x 0 true, memRefuse slot s)
    | some a =>
      let bs := (data.drop (i * x.packet)).take len
      let r := if isIn then unitWrite slot a bs s else unitRead slot a len s
      if r.1.err != 0 then (fails x r.1.err false, r.2)
      else (doneOne x, if isIn then r.2 else r.2.emit (.device slot x.handle x.endpoint r.1.bytes))
/-- Packets in turn; a refused access ends the work (R212). -/
def movePackets (slot : Nat) (d : List Nat) (isIn : Bool) (data : List Nat) : Nat → Nat → Pipe × State → Pipe × State
  | 0, _, a => a
  | n + 1, i, a =>
    if a.1.refused then a else movePackets slot d isIn data n (i + 1) (movePacket slot d isIn i data a.1 a.2)

/-- The transaction retries that a transfer's packets may make, 3 each (R296): those moved, the one under way, and a control
transfer's setup and status stages. -/
def retryBound (x : Pipe) (d : List Nat) (n : Nat) : Nat := 3 * (min (n + 1) (pipeUnits x d) + (if x.kind = 0 then 2 else 0))
/-- PIPE_TRANSFER (R296): the head descriptor is taken; `packets` of it draw a handshake. -/
def execPipeTransfer (slot : Fin 8) (pipe : Fin 8) (packets retries : Nat) (data : List Nat) (s : State) : Res :=
  completes s (match pipeOf s slot pipe with
    | some x =>
      match x.pending with
      | d :: _ =>
        if x.started || x.halted || !busRuns s slot || s.rd R.DORMANT_STATUS.STATE != 0 then s
        else
          let isIn := bit (d.getD 2 0) 0
          let s1 := resumeDev slot x.handle s
          let s2 := if x.kind = 0 then s1.emit (.device slot x.handle 0 ((d.drop 24).take 8)) else s1
          let n := min packets (pipeUnits x d)
          let w := sweepUse .pipes s2
          let used := min retries (retryBound x d n)
          let y := { x with started := true, retries := used }
          let r := if w.1 then ({ y with failed := some 0, source := 39 }, w.2) else movePackets slot d isIn data n 0 (y, w.2)
          putPipe slot pipe (some r.1) (r.2.bump (R.TAP_COUNTS.XACT_RETRIES slot) used)
      | [] => s
    | none => s)
/-- After STALLED every later transfer ends NOT_STARTED until PIPE_CLEAR_HALT (R297). -/
def stallPipe (slot k : Nat) (s : State) : State :=
  match pipeOf s slot k with
  | some x => endTransfers slot k false 0 x.pending.length (putPipe slot k (some { x with halted := true }) s)
  | none => s
/-- A transfer that ends in an error: the unit under way failed, or after all of them the status stage, and with it the last
unit (R297). -/
def failLast (slot k : Nat) (s : State) : State :=
  match pipeOf s slot k with
  | some x =>
    match x.pending with
    | d :: _ =>
      let n := pipeUnits x d
      if x.moved < n then putPipe slot k (some { x with failed := some (x.failed.getD x.moved) }) s
      else putPipe slot k (some { x with done := min x.done (n - 1), map := if n ≤ 64 then clearBit x.map (n - 1) else x.map, failed := some (x.failed.getD (n - 1)) }) s
    | [] => s
  | none => s
/-- The status stage of a control transfer whose data came in (R296): a packet of no data to the device. -/
def statusStage (slot : Nat) (x : Pipe) (d : List Nat) (s : State) : State :=
  if x.kind = 0 && bit (d.getD 2 0) 0 && recU d 16 4 != 0 then s.emit (.device slot x.handle x.endpoint []) else s
/-- PIPE_TRANSFER_END (R297). -/
def execPipeTransferEnd (slot : Fin 8) (pipe : Fin 8) (result : PipeEnd) (s : State) : Res :=
  completes s (match pipeOf s slot pipe with
    | some x =>
      match x.pending with
      | d :: _ =>
        if !x.started then s
        else match result with
          | .complete => endTransfer slot pipe false false 0 (statusStage slot x d s)
          | .short => endTransfer slot pipe false true 0 (statusStage slot x d s)
          | .stall => stallPipe slot pipe (endTransfer slot pipe false false 0 (failLast slot pipe (raiseDrops (pipeEvent slot pipe 0x81 d s))))
          | .xact => endTransfer slot pipe false false 0 (failLast slot pipe (raiseDrops (pipeEvent slot pipe 0x82 d s)))
      | [] => s
    | none => s)
/-- PIPE_TRANSFER_TIMEOUT (R297). -/
def execPipeTransferTimeout (slot : Fin 8) (pipe : Fin 8) (s : State) : Res :=
  completes s (match pipeOf s slot pipe with
    | some x =>
      match x.pending with
      | d :: _ =>
        if recU d 20 2 = 0 || !x.started then s
        else endTransfer slot pipe false false 0 (failLast slot pipe (raiseDrops (pipeEvent slot pipe 0x83 d s)))
      | [] => s
    | none => s)

/-- A Taproot message (R298): BAD_REQUEST for a grove not rooted on a Retro Bus Port. -/
def tapMail (slot op len : Nat) (h : List Nat → State → MailAnswer) (s : State) : State :=
  serveMail slot op (· = len) (fun b s => if (rbpOf s slot).isSome then h b s else failMail 2 s) s
/-- A message whose word `i` names a handle; NOT_FOUND for one not in use. -/
def withDev (slot i : Nat) (b : List Nat) (s : State) (h : TapDev → MailAnswer) : MailAnswer :=
  match devOf s slot (recU b (4 * i) 4) with
  | some d => h d
  | none => failMail 6 s
/-- DEVICE_INFO (R298). -/
def execDeviceInfo (slot : Fin 8) (s : State) : Res :=
  completes s (tapMail slot 0x50 4 (fun b s => withDev slot 0 b s (fun d => okMail s (d.device ++ attachBody d))) s)
/-- DESCRIPTOR_READ (R298). -/
def execDescriptorRead (slot : Fin 8) (s : State) : Res :=
  completes s (tapMail slot 0x51 8 (fun b s => withDev slot 0 b s (fun d =>
    if d.config.length ≤ recU b 4 4 then failMail 6 s else okMail s ((d.config.drop (recU b 4 4)).take 240))) s)

/-- Remove a device's records from the queues of the class services. -/
def dropRecords (h : Nat) (b : TapBus) : TapBus :=
  let f (l : List (List Nat)) : List (List Nat) := l.filter (fun r => r.getD 1 0 != h)
  { b with pulls := [1, 2, 3, 4, 5].foldl (fun t q => Tab.put [] t q (f (Tab.look [] t q))) b.pulls,
           pushes := [1, 5].foldl (fun t q => Tab.put [] t q (f (Tab.look [] t q))) b.pushes }
def closeDevicePipes (slot h : Nat) (cancelled : Bool) (source : Nat) (s : State) : State :=
  (List.range 8).foldl (fun a k => match pipeOf a slot k with
    | some x => if x.handle = h then closePipe slot k cancelled source a else a
    | none => a) s
/-- CLAIM (R298). -/
def execClaim (slot : Fin 8) (s : State) : Res :=
  completes s (tapMail slot 0x52 8 (fun b s => withDev slot 0 b s (fun d =>
    let mode := recU b 4 4
    if 1 < mode then failMail 2 s
    else if (pushOf (busOf s slot) 4).any (isBlockReq d.handle) then failMail 5 s
    else if mode = 1 then
      okMail (changeBus slot (dropRecords d.handle)
        (changeDev slot d.handle (fun d => { d with claimed := true, binds := d.binds.filter (fun e => e.2 = 5), mods := 0, keys := [], buttons := 0 }) s))
    else
      let s1 := closeDevicePipes slot d.handle false 0 s
      let others := { busOf s1 slot with devs := (busOf s1 slot).devs.filter (fun e => e.handle != d.handle) }
      let binds := (bindDevice others d).1
      okMail (setUp slot d.handle binds (changeDev slot d.handle (fun e => { e with claimed := false, binds := binds }) s1)))) s)
/-- The packet size of endpoint 0: a SuperSpeed device's descriptor gives it as a power of two (PRESUMED: USB 3.2). -/
def TapDev.ep0 (d : TapDev) : Nat := if 4 ≤ d.speed then 2 ^ min (d.device.getD 7 9) 15 else d.device.getD 7 8
/-- PIPE_OPEN (R298). -/
def execPipeOpen (slot : Fin 8) (s : State) : Res :=
  completes s (tapMail slot 0x53 12 (fun b s =>
    let k := recU b 0 4
    let ep := recU b 8 4
    if !rawPipes s slot then failMail 1 s
    else if 8 ≤ k then failMail 2 s
    else withDev slot 1 b s (fun d =>
      if (pipeOf s slot k).isSome || !d.claimed then failMail 3 s
      else
        let e := if ep % 128 = 0 then some (ep, 0, d.ep0, 0)
          else ((ifacesOf d.config).flatMap Iface.eps).find? (fun e => e.1 = ep)
        match e with
        | some (a, attr, mps, itv) =>
          if attr % 4 = 1 || mps = 0 then failMail 2 s
          else okMail (putPipe slot k (some ⟨d.handle, a, attr % 4, itv, mps, false, [], false, 0, 0, none, 0, 0, false, 0⟩) s)
            ([attr % 4, 0, itv, 0] ++ leBytes 4 mps)
        | none => failMail 2 s)) s)
/-- PIPE_CLOSE (R298). -/
def execPipeClose (slot : Fin 8) (s : State) : Res :=
  completes s (tapMail slot 0x54 4 (fun b s =>
    let k := recU b 0 4
    if 8 ≤ k then failMail 2 s else if (pipeOf s slot k).isNone then failMail 6 s else okMail (closePipe slot k false 0 s)) s)
/-- PIPE_CLEAR_HALT (R298). -/
def execPipeClearHalt (slot : Fin 8) (s : State) : Res :=
  completes s (tapMail slot 0x55 4 (fun b s =>
    let k := recU b 0 4
    if 8 ≤ k then failMail 2 s
    else match pipeOf s slot k with
      | some x => okMail ((putPipe slot k (some { x with halted := false }) s).emit (.device slot x.handle 0 ([2, 1, 0, 0] ++ leBytes 2 x.endpoint ++ [0, 0])))
      | none => failMail 6 s) s)

/-- A device about to be suspended is allowed to wake where its configuration declares it and the grove permits it (R298). -/
def permitWake (slot : Nat) (s : State) (d : TapDev) : State :=
  if bit (d.config.getD 7 0) 5 && wakePermit s slot then control slot d.handle [0, 3, 1, 0, 0, 0, 0, 0] [] s else s
/-- Suspend or resume every root port of a bus that runs (R300). -/
def suspendBus (slot : Nat) (on : Bool) (s0 : State) : State :=
  if !busRuns s0 slot then s0 else
  let s := if on then ((busOf s0 slot).devs.filter (fun d => !d.suspended)).foldl (permitWake slot) s0 else s0
  let s1 := changeBus slot (fun b => { b with devs := b.devs.map (fun d => { d with suspended := on }) })
    (s.wr (R.TAP_STATUS.STATE slot) (if on then 2 else 1))
  (downTiles s slot).foldl (fun a t => if on then (if downRuns a t then setLink t 7 a else a) else if linkOf a t = 7 then setLink t 3 a else a) s1
/-- A device and, for a hub, every device behind it. -/
def behind (b : TapBus) (d : TapDev) : List TapDev :=
  b.devs.filter (fun e => e.root = d.root && (e.handle = d.handle || d.hub1 = 0 || (d.hub2 = 0 && e.hub1 = d.hub1)))
/-- SUSPEND (R298, R300): modes 0 to 3; a suspended hub's devices are suspended with it. -/
def execTaprootSuspend (slot : Fin 8) (s : State) : Res :=
  completes s (tapMail slot 0x56 8 (fun b s =>
    match recU b 0 4 with
    | 0 => okMail (suspendBus slot false s)
    | 1 => okMail (suspendBus slot true s)
    | 2 => withDev slot 1 b s (fun d =>
        let l := behind (busOf s slot) d
        let s1 := changeBus slot (fun b => { b with devs := b.devs.map (fun e => if l.any (fun x => x.handle = e.handle) then { e with suspended := true } else e) })
          ((l.filter (fun e => !e.suspended)).foldl (permitWake slot) s)
        okMail (match (if d.hub1 = 0 then tileOfPort s slot d.root else none) with
          | some t => if downRuns s1 t then setLink t 7 s1 else s1
          | none => s1))
    | 3 => withDev slot 1 b s (fun d => okMail (resumeDev slot d.handle s))
    | _ => failMail 2 s) s)

/-- The source that a pruned tile's device ends with (R207). -/
def detachSource (s : State) (slot root : Nat) : Nat :=
  match tileOfPort s slot root with
  | some t => if tilePruned s t then pruneSource s (0x1000 + t) else 0
  | none => 0
/-- A place on a bus is behind a device, or its own. -/
def placeBehind (d : TapDev) (e : Nat × Nat × Nat) : Bool := e.1 = d.root && (d.hub1 = 0 || (d.hub2 = 0 && e.2.1 = d.hub1))
def detachDevice (slot : Nat) (d : TapDev) (s : State) : State :=
  let s1 := (behind (busOf s slot) d).foldl (endDevice slot (detachSource s slot d.root)) s
  let s2 := changeBus slot (fun b => { b with disabled := b.disabled.filter (fun e => !placeBehind d e) })
    (raiseDrops s1)
  match (if d.hub1 = 0 then tileOfPort s2 slot d.root else none) with
  | some t => portDisconnect t s2
  | none => s2
/-- A device without a handle detaches: its port is no longer disabled (R284, R285). -/
def detachPlace (slot root hub1 hub2 : Nat) (s : State) : State :=
  if !(busOf s slot).disabled.contains (root, hub1, hub2) then s
  else
    let s1 := changeBus slot (fun b => { b with disabled := b.disabled.filter (fun e => e != (root, hub1, hub2)) }) s
    match (if hub1 = 0 then tileOfPort s slot root else none) with
    | some t => portDisconnect t s1
    | none => s1
/-- TAPROOT_DEVICE_DETACH (R299). -/
def execTaprootDeviceDetach (slot : Fin 8) (gone : TapGone) (s : State) : Res :=
  completes s (match gone with
    | .device handle => match devOf s slot handle with | some d => detachDevice slot d s | none => s
    | .place root hub1 hub2 => detachPlace slot root hub1 hub2 s)
/-- PORT_CYCLE (R298, R304): DETACH; enumeration then runs afresh. -/
def execPortCycle (slot : Fin 8) (s : State) : Res :=
  completes s (tapMail slot 0x57 4 (fun b s => withDev slot 0 b s (fun d =>
    let s1 := raiseDrops ((behind (busOf s slot) d).foldl (endDevice slot 0) s)
    okMail (resetPlace slot d.root d.hub1 d.hub2 s1))) s)

/-- A remote wake is completed (R301). -/
def completeWake (slot : Nat) (s : State) (h : Nat) : State :=
  match devOf s slot h with
  | some d =>
    if !d.suspended && tapState s slot != 2 then s
    else if wakePermit s slot then postRecord slot 0 0x05 h 0 0 [] (setIrq slot 4 (suspendBus slot false s))
    else s.bump (R.TAP_COUNTS.WAKES_IGNORED slot) 1
  | none => s
/-- The wakes that came while the Olulo was not Active are completed (R301). -/
def completeWakes (s : State) : State :=
  (List.range 8).foldl (fun t k =>
    (busOf t k).wakes.foldl (completeWake k) (if (busOf t k).wakes.isEmpty then t else changeBus k (fun b => { b with wakes := [] }) t)) s
/-- TAPROOT_REMOTE_WAKE (R54, R301): while the Olulo is not Active the tile's bell rings first (R278), and the resume waits. -/
def execTaprootRemoteWake (slot : Fin 8) (handle : Nat) (s : State) : Res :=
  completes s (match devOf s slot handle with
    | some d =>
      let s0 := match tileOfPort s slot d.root with | some t => ringBell t false s | none => s
      if dormantState s = 0 then completeWake slot s0 handle
      else changeBus slot (fun b => { b with wakes := if b.wakes.contains handle then b.wakes else b.wakes ++ [handle] }) s0
    | none => s)

/-- TAPROOT_HALT (R302). -/
def execTaprootHalt (s : State) : Res :=
  completes s ((List.range 8).foldl (fun a k =>
    if busRuns a k then
      (postRecord k 0 0x06 0 0 0 [] ((busOf a k).devs.foldl (endDevice k 162) a)).wr (R.TAP_STATUS.STATE k) 3
    else a) (occur 162 s))
/-- TAPROOT_RESTART (R302): once grove 0 has cleared source 162. -/
def execTaprootRestart (s : State) : Res :=
  completes s (if isSticky s 162 then s
    else (List.range 8).foldl (fun a k =>
      if tapState a k = 3 then
        (downTiles a k).foldl (fun b t => if s.isSet (R.TILE_STATUS.VBUS_ON t) then b.bump (R.TILE_COUNTS.RESETS t) 1 else b)
          ((changeBus k (fun b => { b with disabled := [] }) a).wr (R.TAP_STATUS.STATE k) 1)
      else a) s)

/-- A device's services are bound again under R286, and set up. -/
def rebind (slot h : Nat) (s : State) : State :=
  match devOf s slot h with
  | some d =>
    let b := busOf s slot
    let r := bindDevice { b with devs := b.devs.filter (fun e => e.handle != h) } d
    setUp slot h r.1 (changeDev slot h (fun e => { e with binds := r.1, limit := r.2 }) s)
  | none => s
/-- A grove restart at Taproot (R302): transfers and block requests end CANCELLED, queues empty, claims are released, and
services are bound again in handle order. -/
def restartTap (slot : Nat) (s : State) : State :=
  let s0 := (List.range 8).foldl (fun a k => closePipe slot k true 0 a) s
  let s1 := raiseDrops ((pushOf (busOf s0 slot) 4).foldl (fun t r => postDone slot r (blockEnding 6 0 0 0 0 []) 0 t) s0)
  let s2 := changeBus slot (fun b => { b with
    pulls := [], pushes := [], lost := [], freed := [],
    devs := b.devs.map (fun d => { d with claimed := false, ended := none, begun := none, mods := 0, keys := [], buttons := 0, binds := [] }) }) s1
  (List.range' 1 32).foldl (fun t h => rebind slot h t) s2
/-- The REPLAY records after a restart, in handle order, with LIMIT where an interface is unbound by one (R284). -/
def replayTap (slot : Nat) (s : State) : State :=
  (List.range' 1 32).foldl (fun a h => match devOf a slot h with | some d => postAttach slot d (if d.limit then 24 else 8) a | none => a) s

/-- Pull and push sides as a doorbell names them (R287): BAD_OP where the side does not exist, REFUSED without RAW_PIPES. -/
inductive SideCheck where
  | bad | refused | ok
deriving DecidableEq, Repr
def sideCheck (s : State) (slot q : Nat) (push : Bool) : SideCheck :=
  if 8 ≤ q && q < 16 && !rawPipes s slot then .refused
  else if ((if push then pushCap q else pullCap q)).isNone then .bad
  else .ok
/-- Handles of pulled DETACH records are free again (R295). -/
def freePulled (rs : List (List Nat)) (b : TapBus) : TapBus :=
  { b with freed := b.freed.filter (fun h => !rs.any (fun r => r.getD 0 0 = 2 && r.getD 1 0 = h)) }
/-- Take up to `n` records from a pull queue (R289). -/
def pullRecords (slot q n : Nat) (s : State) : List (List Nat) × State :=
  let l := pullOf (busOf s slot) q
  (l.take n, changeBus slot (fun b => freePulled (if q = 0 then l.take n else []) (setPull q (l.drop n) b)) s)

def boundTo (s : State) (slot h svc : Nat) : Bool :=
  match devOf s slot h with
  | some d => bit d.services svc && !d.claimed
  | none => false
/-- A push record's form (R290, R293, R294, R296). -/
def pushForm (s : State) (slot q : Nat) (r : List Nat) : Bool :=
  let ty := r.getD 0 0
  let h := r.getD 1 0
  let zero (lo n : Nat) : Bool := ((r.drop lo).take n).all (· = 0)
  if q = 1 then ty = 0x11 && boundTo s slot h 0 && zero 2 6 && r.getD 8 0 < 32 && zero 9 23
  else if q = 4 then
    boundTo s slot h 3 && r.getD 2 0 = 0 && r.getD 3 0 = 0
      && (if ty = 0x42 then zero 8 24
          else (ty = 0x40 || ty = 0x41) && 1 ≤ recU r 16 4 && recU r 16 4 ≤ 65535 && zero 21 3 && zero 28 4
            && recU r 16 4 * (((devOf s slot h).map blockSize).getD 512) ≤ 2 ^ 24)
  else if q = 5 then
    boundTo s slot h 4 && r.getD 2 0 = 0
      && (if ty = 0x50 then 1 ≤ r.getD 3 0 && r.getD 3 0 ≤ 24 && zero 4 4 && zero (8 + r.getD 3 0) (24 - r.getD 3 0)
          else ty = 0x51 && r.getD 3 0 = 0 && 300 ≤ recU r 4 4 && recU r 4 4 ≤ 12500000 && r.getD 8 0 ≤ 2 && r.getD 9 0 ≤ 4
            && ((5 ≤ r.getD 10 0 && r.getD 10 0 ≤ 8) || r.getD 10 0 = 16) && r.getD 11 0 < 4 && zero 12 20)
  else match pipeOf s slot (q - 8) with
    | some x =>
      let fl := r.getD 2 0
      ty = 0x80 && h = x.handle && fl < 4 && r.getD 3 0 = 0 && ownsRegion s slot (r.getD 8 0) && zero 9 3 && zero 22 2
        && (x.kind = 0 || bit fl 0 = bit x.endpoint 7) && (x.kind = 0 || zero 24 8)
        && recU r 16 4 ≤ (if x.kind = 0 then 4096 else 4194304)
        && !(0xFFFFFF00 ≤ recU r 4 4 && recU r 4 4 ≤ 0xFFFFFF1F)
    | none => false
/-- One record enters a push queue or pipe. -/
def pushOne (slot q : Nat) (r : List Nat) (s : State) : State :=
  if q < 8 then changeBus slot (fun b => setPush q (pushOf b q ++ [r]) b) s
  else match pipeOf s slot (q - 8) with
    | some x =>
      let s1 := putPipe slot (q - 8) (some { x with pending := x.pending ++ [r] }) s
      if x.halted then endTransfer slot (q - 8) false false 0 s1 else s1
    | none => s
def pushFull (s : State) (slot q : Nat) : Bool :=
  if q < 8 then (pushCap q).getD 0 ≤ (pushOf (busOf s slot) q).length
  else match pipeOf s slot (q - 8) with | some x => 8 ≤ x.pending.length | none => false
/-- Push records in order: the count taken, and the doorbell's CODE and error (R290). -/
def pushRecords (slot q : Nat) : List (List Nat) → Nat → State → Nat × Nat × Bool × State
  | [], n, s => (n, 0, false, s)
  | r :: t, n, s =>
    if !pushForm s slot q r then (n, 1, true, s)
    else if pushFull s slot q then (n, 2, false, s)
    else pushRecords slot q t (n + 1) (pushOne slot q r s)

end Sys2Proof.Machine
end

