-- ==== Sys2Proof/Machine/Dormant.lean ====
section
/-! DEFINITION. Entering Dormant, unwinding an entry and waking (R137 to R143, chapter 07). -/
namespace Sys2Proof.Machine

/-- The slots whose groves vote: the occupied ones, slot 0 of an unconfigured Olulo (R34, R56). -/
def voters (s : State) : List Nat := if configured s then occupiedSlots s else [0]
/-- Every grove has voted (R56). -/
def allVoted (s : State) : Bool := (voters s).all (fun k => s.isSet (R.GROVE_VOTE.VOTE k))

/-- Work of a Retro Bus Port that counts as outstanding (R258). -/
def rbpWorks (s : State) (p : Nat) : Bool :=
  let x := rbpSt s p
  x.issues != [] || x.waiting.isSome || doorBusy s p || s.isSet (R.PAGE_STATUS.FILLING p) || s.isSet (R.IND_STATUS.BUSY p) || dmaRunning s p
/-- Outstanding pipe transfers of a Taproot bus: raw pipes, block requests and serial TX (R300). -/
def tapWorks (s : State) (slot : Nat) : Bool :=
  let b := busOf s slot
  b.pipes.any (fun e => match e.2 with | some x => x.pending != [] | none => false) || b.pushes.any (fun e => e.2.any (fun r => [0x40, 0x41, 0x42, 0x50].contains (r.headD 0)))
    || b.devs.any (fun d => d.ended.isSome)
/-- Bring-up counts as outstanding work until DRUMS_DONE (R194). DESIGN CHOICE: from the start's first instant on, since Table 07-10
has conditions 1 and 2 alone fail at power good (log 218). -/
def bringupDue (s : State) : Bool := !s.isSet R.START_STATUS.DRUMS_DONE && (configured s || s.isSet R.START_STATUS.REF)
/-- Condition k of R137 fails. DESIGN CHOICE: another member's trunk request that is still arriving here, or waits to be carried
out, is not tested (log 210). -/
def entryFails (s : State) (k : Nat) : Bool :=
  match k with
  | 1 => !configured s || loaderBusy s
  | 2 => if s.rd R.DORMANT_STATUS.MODE = 0 then !allVoted s else !s.idleDone
  | 3 => (List.range 14).any (fun t => !([0, 1, 7].contains (linkOf s t)))
  | 4 => (List.range 2).any (fun n => spinState s n != 0 || spinBackoff s n)
  | 5 => (List.range 2).any (fun n => (drumSt s n).strokes != []) || s.requests != [] || s.mail.any (fun e => e.2.isSome)
      || (List.range 8).any (fun k => tapWorks s k || s.isSet (R.GROVE_STATUS.RESTARTING k))
      || (List.range 32).any (fun r => regionState s r = 2) || (List.range 2).any (rbpWorks s)
      || bringupDue s || s.isSet R.IDB_STATUS.BUSY
  | 6 => (List.range 14).any (fun t => isUp s t && s.rd (R.PD_CONTRACT.KIND t) = 3)
  | 7 => domState s 140 != 0
  | _ => false
/-- DORMANT_STATUS.BLOCKERS: bit k - 1 while condition k fails (R150). -/
def blockers (s : State) : Nat := (List.range 7).foldl (fun a i => if entryFails s (i + 1) then setBit a i else a) 0

/-- Domains that are ON. -/
def domainsOn (s : State) : List Nat := (List.range' 1 143).filter (domOn s)

/-- DORMANT_ENTRY_BEGIN (R137): at a tick where every condition holds. -/
def execDormantEntryBegin (s : State) : Res :=
  completes s (if dormantState s = 0 && blockers s = 0 then
      { (holdOutputs (holdOutputs s 0) 1).wr R.DORMANT_STATUS.STATE 1 with entry := some (Entry.start s.metro (domainsOn s)) }
    else s)

/-- IDLE_TIMER_EXPIRE (R138): the timer has reached DORMANT_IDLE_TICKS. -/
def execIdleTimerExpire (s : State) : Res :=
  completes s (if s.rd R.DORMANT_STATUS.MODE = 1 && dormantState s = 0 && s.isSet R.START_STATUS.DRUMS_DONE then
      { s with idleCount := s.rd R.DORMANT_IDLE_TICKS.TICKS, idleDone := true }
    else s)

/-- The entry takes domains down at a point: they begin to fall, and their requests stay (R132, R152). -/
def takeDown (point : Nat) (ds : List Nat) (s : State) : State :=
  match s.entry with
  | none => s
  | some e =>
    let new := ds.filter (fun d => domPresent s d && !e.down.any (fun x => x.2 = d))
    new.foldl (fun t d => sampleRequest d t)
      { s with entry := some { e with begun := true, down := e.down ++ new.map (fun d => (point, d)) } }

/-- The domains that a tile loses at point 2 (Table 07-1). -/
def tilePoint2 (s : State) (t : Nat) : List Nat :=
  (if linkOf s t = 7 then (if s.rd (R.TILE_STATUS.SPEED t) ≥ 4 then [] else [26 + 3 * t])
    else [25 + 3 * t, 26 + 3 * t, 27 + 3 * t])
    ++ (if s.rd (R.PD_CONTRACT.KIND t) ≥ 2 then [] else [67 + t])
/-- The domains that fall at each point (Table 07-1). -/
def pointDomains (s : State) (point : Nat) : List Nat :=
  match point with
  | 2 => (List.range 14).flatMap (tilePoint2 s) ++ [16]
      ++ (List.range 2).flatMap (fun n => [0, 1, 2, 3, 5, 6, 7, 8, 9].map (fun i => 91 + 10 * n + i))
      ++ List.range' 121 10 ++ List.range' 133 6 ++ [141]
  | 3 => [18]
  | 4 => [14]
  | 5 => List.range' 6 8 ++ [17] ++ List.range' 111 6 ++ [143]
  | 6 => List.range' 19 6
  | _ => []

/-- Point 3: the firmware stores its counters in its own part of the keeping store (Table 08-10); which words it writes there,
and what, is the firmware's. -/
def storeCounters (s : State) : State :=
  let n := s.freeVal 0 % 0x16001
  ((List.range n).foldl (fun t k =>
    putKeep t (0xA000 + s.freeVal (1 + 2 * k) % 0x16000) (s.freeVal (2 + 2 * k))) s).drew (1 + 2 * n)
/-- Point 5 at one port (Table 23-8, R489): SLEEP is sent, the equalizer state saved, the lanes idle. -/
def pointTrunk (s : State) (p : Nat) : State :=
  let save := fun t => (widthLanes t p).foldl (fun u l => putLane l { laneOf u l with saved := true } u) t
  match portState s p with
  | 1 => putStepOf p 0 s
  | 2 => save s
  | 3 => setPort p 6 (save (sendKeepalive p 8 s))
  | 5 => setPort p 6 (save s)
  | _ => s
/-- Point 6 at one rail: retention (R127); the rail of an absent or unlisted drum keeps code 0 (R128). -/
def pointRail (s : State) (r : Nat) : State :=
  if !railLive s r then s else
  let s1 := putRail r { railOf s r with preVid := s.rd (R.TEMPO_STATE.VID r), wait := 0 } s
  (s1.wr (R.TEMPO_STATE.VID r) 4).wr (R.TEMPO_STATE.SEQ r) 7

/-- Banks 4 to 13 of the buffer SRAM hold nothing (R71, Table 04-6): no transfer staged, no block in a drum's working store, no
sector for an audio output, no trunk frame waiting. -/
def banksEmpty (s : State) : Bool :=
  (List.range 8).all (fun k => !tapWorks s k)
    && (List.range 2).all (fun n => (drumSt s n).block.isNone && (drumSt s n).play = [])
    && (List.range 4).all (fun p => (trunkPort s p).control = [] && (trunkPort s p).payload = [])
/-- What the action of a point waits for (Table 07-4): page jobs ended, tallies acknowledged and banks 4 to 13 empty; replay
buffers empty and no port retraining; every rail STEADY or CLOCK_FAILED. -/
def pointReady (s : State) (point : Nat) : Bool :=
  match point with
  | 2 => s.pageJobs = [] && s.tallyQ.all (fun e => e.2.sent.isNone && e.2.waiting = []) && banksEmpty s
  | 5 => (List.range 4).all (fun p => (trunkPort s p).replay = [] && portState s p != 4)
  | 6 => (List.range 3).all (fun r => !railLive s r || seqOf s r = 0 || seqOf s r = 6)
  | _ => true
/-- The action of a point begins (Table 07-4): what it does at once, and its domains start to fall. -/
def pointAction (point : Nat) (s : State) : State :=
  let act := match point with
    | 3 => storeCounters s
    | 4 => if s.rd R.MEMCTL_STATUS.STATE = 2 then s.wr R.MEMCTL_STATUS.STATE 3 else s
    | 5 => (List.range 4).foldl pointTrunk s
    | _ => s
  takeDown point (pointDomains s point) act
/-- Every domain that the entry keeps down is OFF. -/
def pointFallen (s : State) : Bool := match s.entry with | some e => e.down.all (fun x => domState s x.2 = 0) | none => true
/-- The point is complete; after point 6 the rails are at retention and the Olulo is Dormant (R127, R139). -/
def finishPoint (point : Nat) (s : State) : State :=
  let s1 := { s.wr R.DORMANT_STATUS.POINT point with entry := s.entry.map (fun e => { e with begun := false }) }
  if point = 6 then ((List.range 3).foldl pointRail s1).wr R.DORMANT_STATUS.STATE 2 else s1

/-- ENTRY_POINT_COMPLETE (R139): what the next point waits for is over, so its domains begin to fall; once they are all OFF its
action has finished, and the point is complete. -/
def execEntryPointComplete (s : State) : Res :=
  completes s (
    match s.entry with
    | none => s
    | some e =>
      let point := s.rd R.DORMANT_STATUS.POINT + 1
      if dormantState s != 1 || e.unwinding || (!e.begun && !pointReady s point) then s
      else
        let s1 := if e.begun then s else pointAction point s
        if pointFallen s1 then finishPoint point s1 else s1)

/-- ENTRY_POINT_LIMIT (R139, R140): the entry unwinds with CAUSE 0b11. -/
def execEntryPointLimit (s : State) : Res :=
  completes s (match s.entry with
    | some e => if dormantState s = 1 && !e.unwinding then beginUnwind 3 0 s else s
    | none => s)

/-- A domain that was ON when the entry began is ON again, its rise over; one whose rail a wake has not made ready rises
only once it is (R127, R140, R142), and a drum's converters by their own steps, with their self-test (R332). -/
def raiseAgain (s : State) (d : Nat) : State :=
  if domOn s d then putStep d 0 s
  else if domHeld s d then sampleRequest d s
  else if d = 91 || d = 101 then sampleRequest d s
  else domainOn d ⟨true, []⟩ (putStep d 0 s)
/-- The Olulo is Active again: the domains that were ON are ON, a request that stands for another rises, held work runs,
the loaded voices go on from the next frame, and lit lasers and transmitters start (R140, R141, R338, R462). -/
def activeAgain (s : State) : State :=
  match s.entry with
  | none => s
  | some e =>
    let s1 := e.onBefore.foldl raiseAgain { (releaseDown (fun _ => true) s) with entry := none }
    let s2 := undoPoint 4 (s1.rstAll [R.DORMANT_STATUS.STATE, R.DORMANT_STATUS.POINT])
    let s3 := activity s2
    let s4 := (List.range' 1 143).foldl (fun t d => if wanted t d then sampleRequest d t else t) s3
    let s5 := (List.range 2).foldl (fun t n =>
      let t1 := (loadedVoices t n).foldl (fun u v => putVoice n v.1 (some { v.2 with j0 := (drumSt u n).frames }) u) t
      if t1.isSet (R.FRONT_STATUS.PERMIT n) && laserState t1 n = 0 then startLaser n t1 else t1) s4
    completeWakes (missLate (releaseRekeys (releaseRequests (pumpAll ((List.range 4).foldl (fun t u => withUart u id t) s5)))))

/-- UNWIND_COMPLETE (R140): the points that are left are reversed in order, and the Olulo is Active. -/
def execUnwindComplete (s : State) : Res :=
  completes s (match s.entry with
    | some e => if dormantState s = 1 && e.unwinding then activeAgain ((List.range e.undo).foldr (fun i t => undoPoint (i + 1) t) s) else s
    | none => s)

/-- WAKE_TIMER_EXPIRE (R127, R141): every vote is cleared; a rail that has no PGOOD yet sets source 11. -/
def execWakeTimerExpire (s : State) : Res :=
  completes s (if dormantState s != 3 then s
    else
      let s1 := (List.range 8).foldl (fun t k => t.off (R.GROVE_VOTE.VOTE k)) (activeAgain s)
      (List.range 3).foldl (fun t r => if railLive t r && seqOf t r = 1 && (railOf t r).wait = 1 then occur 11 t else t) s1)

/-- PPS_TO_FIXED (R311): only condition 6 fails. -/
def execPpsToFixed (tile : Fin 14) (s : State) : Res :=
  let t := tile.val
  completes s (if isUp s t && pdServes s t && dormantState s = 0 && s.rd (R.PD_CONTRACT.KIND t) = 3 && (tcOf s t).fixedReq = 0
      && blockers s = 2 ^ 5 then
      negotiateSink t true true (changeTc t (fun x => { x with fixedReq := 1 }) s)
    else s)
/-- PPS_RESTORE (R311): at one of its three instants the programmable object is requested again. -/
def execPpsRestore (tile : Fin 14) (s : State) : Res :=
  let t := tile.val
  completes s (if isUp s t && pdServes s t && dormantState s = 0 && (tcOf s t).fixedReq != 0 then
      negotiateSink t (partnerRev3 s t) false (changeTc t (fun x => { x with fixedReq := 0 }) s)
    else s)

end Sys2Proof.Machine
end

