-- ==== Sys2Proof/Machine/Faults.lean ====
section
/-! DEFINITION. The fault collector's own commands: backoffs, windows, clears, un-pruning (chapter 10), and the driver and
PHY monitors. -/
namespace Sys2Proof.Machine

/-- DEFERRED_KEEPING_WRITE (R205, R207): the one that fell due first. -/
def execDeferredKeepingWrite (s : State) : Res :=
  completes s (match s.deferred with
    | d :: r => if domOn s 18 then keepOrDefer d { s with deferred := r } else s
    | [] => s)

/-- A retry of source k of drum n is on behalf of the stroke whose turn runs, and counts in its RETRIES as it is made (R211, R439). -/
def retryOfStroke (s : State) (n k : Nat) (y : Stroke) : Bool :=
  if k ≤ 1 || k = 21 then y.started && (y.disc || y.op = 8)
  else if k = 6 || k = 7 then y.op = 6 || y.op = 8 || y.disc
  else if k = 10 then y.started && (sledOf s n).move.any (·.stroke)
  else if k = 14 then y.started && (sledOf s n).strokeHome
  else k = 17 && y.started && y.op = 7
/-- The retried action begins again (R202); an action that waits for nothing but its backoff has none here. -/
def retryAction (c : Nat) (up : UpConnect) (s : State) : State :=
  match srcGroup c with
  | .clock k => if 2 ≤ k && k ≤ 7 && genState s (k - 2) = 1 then s.wr (R.CLOCK_STATUS.GEN (k - 2)) 1 else s
  | .tile t k =>
    if k = 6 then retryLink t up s
    else if k = 5 && isDown s t && pathOf s t = 3 && !(tcOf s t).noContract then sendCaps t (changeTc t (fun x => { x with repeats := 0 }) s) else s
  | .rbp p k => if k = 2 && dmaRunning s p && (rbpSt s p).dma = 4 then requestBus p s else s
  | .drum n k =>
    let t := strokeRetries n (retryOfStroke s n k) s
    if k ≤ 1 || k = 21 then acquire n (byteAt (drumSt t n).ident 18) (if k ≤ 1 then dropBlock n t else t)
    else if k = 6 || k = 7 then retrySpin n t
    else if k = 10 then retryMove n t
    else if k = 14 then retryHome n t
    else if k = 17 then retryTray n t
    else s
  | _ => s
/-- RETRY_BACKOFF_EXPIRE (R202). -/
def execRetryBackoffExpire (backoff : BackoffEnd) (s : State) : Res :=
  let c := backoff.source.val
  completes s (if Tab.look false s.backoff c then
      retryAction c backoff.up (retryBegin c { s with backoff := Tab.put false s.backoff c false })
    else s)
/-- FAULT_WINDOW_CLOSE (R203). -/
def execFaultWindowClose (source : Fin 512) (s : State) : Res :=
  let c := source.val
  completes s { s with windows := Tab.put false s.windows c false, events := Tab.put 0 s.events c 0 }
/-- An AUTO bit may clear itself (R204). -/
def mayQuiet (s : State) (c : Nat) : Bool :=
  isSticky s c && !actsPermanent s c && !(policyOf s c).exitClear && !holdsPrune s c && !(srcLevel c && Tab.look false s.causes c)
/-- FAULT_QUIET_EXPIRE (R204, R205). -/
def execFaultQuietExpire (source : Fin 512) (s : State) : Res :=
  completes s (if mayQuiet s source then keepOrDefer (.recovery source) (clearSticky source s) else s)
/-- A 1 written to a sticky bit (R57, R199, R204, R226). DESIGN CHOICE: R57 lets grove 0 clear a CLEAR source of a shared drum
and refuses a clear of a source outside the view; where grove 0 is not listed on the drum the clear is refused (log 194). -/
def stickyWrite (slot addr c : Nat) (s : State) : State :=
  if !srcLives s c then s
  else if !inView s slot c || !mayClear s slot c then refuse slot addr s
  else w1cSource c s
/-- A write of a sticky word that sets ACCESS_REFUSED (R57, R204). -/
def stickyRefused (slot word value : Nat) (s : State) : Bool :=
  (List.range 32).any (fun j => bit value j && srcLives s (32 * word + j)
    && (!inView s slot (32 * word + j) || !mayClear s slot (32 * word + j)))
/-- FAULT_STICKY_CLEAR (R57, R204): the bits inside the view clear in the same access. -/
def execFaultStickyClear (slot : Fin 8) (word : Fin 16) (value : Nat) (s : State) : Res :=
  let addr := 0x00040000 + 4 * word.val
  completes s (guardTry slot addr (stickyRefused slot word value) (fun s => (List.range 32).foldl (fun t j => if bit value j then stickyWrite slot addr (32 * word + j) t else t) s) s)

/-- The sources of which an un-prune of a channel clears the bit, PROMOTED and EVENTS (R209). -/
def unpruneSources (s : State) (code : Nat) : List Nat :=
  (List.range 400).filter (fun c => (srcPrunes c).contains code || c = pruneSource s code)
/-- The bit, PROMOTED and EVENTS of a source clear (R209). DESIGN CHOICE: its open window closes with them (log 214). -/
def clearSource (s : State) (c : Nat) : State :=
  let t := (clearSticky c s).off (R.FAULT_PROMOTED.BIT c)
  { t with events := Tab.put 0 t.events c 0, windows := Tab.put false t.windows c false }
/-- The channel comes up as R191 brings it up for its grove, once that grove is ready; without an owner it stays as before
ready (R209, R366, R382). -/
def bringChannel (code : Nat) (s : State) : State :=
  let i := code % 4096
  let ready := fun (g : Option Nat) => match g.bind (slotOf s) with | some k => s.isSet (R.GROVE_STATUS.READY k) | none => false
  match code / 4096 with
  | 1 => if ready (tileOwner s i) then bringTile i s else s
  | 2 => if laneInUse s i then laneJoins i (unitRequest true (111 + i) s) else s.wr (R.TRUNK_LANE.STATE i) 0
  | 3 =>
    let t := s.off (R.SPIN_STATUS.START_BLOCKED i)
    if (drumRec t i).isSome && t.isSet R.START_STATUS.ALL_READY && !bit (t.rd R.IDB_HOLD.DRUMS) i then bringDrum i t else t
  | 4 =>
    match voiceOf s (i / 8) (i % 8) with
    | some x => putVoice (i / 8) (i % 8) (some { x with reseed := true }) s
    | none => s
  | 5 => if ready (uartGrove s i) then bringUart i (unitRequest true (87 + i) s) else s
  | 6 => if ready (rbpGrove s i) then bringRbp i (unitRequestAll true [85 + i, 132] s) else s
  | _ => s
/-- An un-prune (R209): a code that names no pruned channel, or a GO while BUSY, sets NOT_PRUNED and changes nothing else. -/
def unprune (code : Nat) (s : State) : State :=
  if s.unpruning.isSome || !isPruned s code then s.on (R.FAULT_UNPRUNE_STATUS.NOT_PRUNED 0)
  else
    let cs := unpruneSources s code
    let s1 := clearPruned (senseList { s.on (R.FAULT_UNPRUNE_STATUS.BUSY 0) with unpruning := some code }) code
    bringChannel code (cs.foldl clearSource s1)
/-- UNPRUNE (R42, R209). -/
def execUnprune (slot : Fin 8) (code : Nat) (s : State) : Res :=
  completes s (guardTry slot 0x00040090 (fun _ => slot.val != 0) (fun s => if slot.val = 0 then unprune (code % 65536) s else refuse slot 0x00040090 s) s)
/-- UNPRUNE_DONE (R198, R209): each level cause of the channel still present is an occurrence. -/
def execUnpruneDone (s : State) : Res :=
  completes s (match s.unpruning with
    | none => s
    | some code =>
      let s1 := { s.off (R.FAULT_UNPRUNE_STATUS.BUSY 0) with unpruning := none }
      ((List.range 400).filter (fun c => srcLevel c && ofChannel code c && Tab.look false s1.causes c)).foldl
        (fun t c => occur c t) s1)

/-- RBP_DRIVER_FAULT (R200): a level source of the port. -/
def execRbpDriverFault (port : Fin 2) (present : Bool) (s : State) : Res :=
  completes s (if hasRbp s port then setCause (rbpSrc port 5) present s else s)
/-- TILE_PHY_FAULT (R200). -/
def execTilePhyFault (tile : Fin 14) (s : State) : Res := completes s (occur (tileSrc tile 7) s)
/-- FOREIGN_VBUS (R322): VBUS on a DOWN tile that is IDLE or QUEUED. -/
def execForeignVbus (tile : Fin 14) (vbus : Nat) (s : State) : Res :=
  let s1 := senseVbus tile vbus s
  completes s (if isDown s tile && pathOf s tile ≤ 1 && s1.isSet (R.TILE_STATUS.VBUS_PRESENT tile) then occur (tileSrc tile 3) s1 else s1)

end Sys2Proof.Machine
end

