-- ==== Sys2Proof/Machine/Groves.lean ====
section
/-! DEFINITION. Grove restart, the Dormant vote and spine timeouts (R52 to R56, R59, R65, R66). -/
namespace Sys2Proof.Machine

/-- A slot that holds a grove: of a configured Olulo an occupied one, of an unconfigured one slot 0 (R34). -/
def holdsGrove (s : State) (slot : Nat) : Bool := if configured s then occupied s slot else slot = 0

/-- Step 4 of R55: vote, interrupt registers and the W1C bits of GROVE_STATUS return to reset. -/
def resetBank (slot : Nat) (s : State) : State :=
  let s1 := s.rstAll (((List.range 9).map (irqBit slot)) ++ [R.GROVE_VOTE.VOTE slot, R.GROVE_IRQ_ENABLE.ENABLE slot,
    R.GROVE_NMI_ENABLE.ENABLE slot, R.GROVE_STATUS.ACCESS_REFUSED slot, R.GROVE_STATUS.MEM_REFUSED slot])
  { s1 with irqNews := Tab.put false s1.irqNews slot false }

/-- A restart meets the first stroke of a slot on a drum. A started one whose unit is under way is marked to end after
that unit; a TRAY stroke that moves the tray ends with its unit done, a wait for a further revolution and a wait for a
speed end at once, as does every other stroke (R55, R59). -/
def cancelFirst (n slot : Nat) (s : State) : State :=
  match (drumSt s n).strokes.find? (fun x => x.slot = slot) with
  | none => s
  | some x =>
    if x.started && x.op = 7 then
      dropStroke n slot false true 0 (putStrokes n (mapFirst slot (fun y => { y with done := 1, map := 1 }) (drumSt s n).strokes) s)
    else if x.started && (x.acks || (x.op != 6 && (drumSt s n).block.isNone && (drumSt s n).turn = some slot)) then
      putStrokes n (mapFirst slot (fun y => { y with ending := 1 }) (drumSt s n).strokes) s
    else dropStroke n slot false true 0 s
/-- The strokes of a slot behind its first one end CANCELLED. -/
def cancelWaiting (n slot : Nat) (s : State) : State :=
  match (drumSt s n).strokes.filter (fun x => x.slot = slot) with
  | [] => s
  | _ :: rest =>
    let keep := (drumSt s n).strokes.foldl (fun (a : List Stroke) x =>
      if x.slot = slot && a.any (fun y => y.slot = slot) then a else a ++ [x]) []
    rest.foldl (fun t x => finishStroke n x false true 0 t) (putStrokes n keep s)
/-- The strokes of a slot on a drum are cancelled, and its demand falls to 0. -/
def cancelStrokes (n slot : Nat) (s : State) : State :=
  if hasDrum s n then (syncHeld n slot (cancelFirst n slot (cancelWaiting n slot s))).wr (R.STK_DEMAND.DEMAND n slot) 0 else s
/-- The commands of a logical unit are answered 0B/00/00 (R445); the one whose stroke has a unit under way, once that stroke
has ended CANCELLED (R55). -/
def cancelScsi (slot l : Nat) (s : State) : State :=
  let u := lunOf s slot l
  if u.pending = 0 then
    u.cmds.foldl (fun t _ => answerScsi slot l (senseKcq 0x0B 0 0) 0 [] t) (putLun slot l { u with bad := none } s)
  else
    (u.cmds.drop 1).foldl (fun t c => t.emit (.scsi slot l c.tag 2)) (putLun slot l { u with cmds := u.cmds.take 1, toIssue := none } s)
/-- The trunk requests of a slot end CANCELLED; those that have gone out are forgotten by a fence at their executor. -/
def cancelRequests (slot : Nat) (s : State) : State :=
  let mine := s.requests.filter (fun x => x.slot = slot && !x.cancelled)
  let s1 := mine.foldl (fun t x =>
    let y := postTally t 12 slot (remoteTally t x 5 0)
    match x.lun with
    | some l => noteLunEnd slot l (word x.bytes 8) (remoteTally t x 5 0) y
    | none => y) s
  let s2 := { s1 with requests := (s1.requests.filter (fun x => x.slot != slot || x.port.isSome)).map (fun x =>
    if x.slot = slot then { x with cancelled := true } else x) }
  let out := (List.range 8).filter (fun m => mine.any (fun x => x.dest = m && x.port.isSome))
  pumpAll (out.foldl (fun t m => sendBrief m 3 0 (leBytes 4 t.stack.count) t) s2)
/-- An entry into Dormant between abort points unwinds (R59); the spec gives no CAUSE for it. -/
def restartUnwinds (s : State) : State :=
  match s.entry with
  | some e => if dormantState s = 1 && !e.unwinding then (beginUnwind (s.freeVal 0 % 4) (s.freeVal 1 % 32) s).drew 2 else s
  | none => s
/-- Restart the grove of a slot (R55): step 4 first, so that what the cancellations set stays. -/
def restartGrove (slot : Nat) (s : State) : State :=
  if !holdsGrove s slot || s.isSet (R.GROVE_STATUS.RESTARTING slot) then s
  else
    let s1 := resetBank slot (restartUnwinds (s.on (R.GROVE_STATUS.RESTARTING slot)))
    let s2 := cancelRequests slot (haltWalks slot ((List.range 2).foldl (fun t n => cancelStrokes n slot t) s1))
    let s3 := restartTap slot ((List.range 16).foldl (fun t l => cancelScsi slot l t) s2)
    let s4 := (List.range 2).foldl (fun t p => if ownsRbp t slot p then restartPort p t else t) (putMail slot none (s3.rstAll [R.HW_MB_STATUS.PENDING slot, R.HW_MB_STATUS.REPLY_READY slot]))
    let s5 := (List.range 4).foldl (fun t u => if ownsUart t slot u then restartUart u t else t) s4
    s5.wr R.GPIO_EVENT.EVENT (andNot (s5.rd R.GPIO_EVENT.EVENT) (if slot = 0 && !configured s then 0xFFFF else ownPins s5 slot))

/-- GROVE_RESTART (R55): a slot other than the writer's own is refused unless the writer is grove 0. DESIGN CHOICE: Table 03-4
both refuses another slot's restart and gives an unoccupied slot no effect; a write by another grove than 0 that names an
unoccupied slot is refused (log 193). -/
def execGroveRestart (slot target : Fin 8) (s : State) : Res :=
  completes s (guardTry slot 0x0008011C (fun _ => slot.val != 0 && target.val != slot.val) (fun s =>
    if slot.val != 0 && target.val != slot.val then refuse slot 0x0008011C s else restartGrove target s) s)
/-- GROVE_RESTART_DONE (R55, R302): once the unit under way has ended. -/
def execGroveRestartDone (target : Fin 8) (s : State) : Res :=
  completes s (if s.isSet (R.GROVE_STATUS.RESTARTING target)
      && !(List.range 2).any (fun n => (drumSt s n).strokes.any (fun x => x.slot = target.val && x.ending != 0)) then
      replayTap target (s.off (R.GROVE_STATUS.RESTARTING target))
    else s)

/-- A slot's vote is written; the root member forwards it (R56). -/
def writeVote (slot : Nat) (vote : Bool) (s : State) : State :=
  passOn slot 0x00080118 (b2n vote) (s.wrB (R.GROVE_VOTE.VOTE slot) vote)
/-- GROVE_VOTE_WRITE (R56). -/
def execGroveVoteWrite (slot : Fin 8) (vote : Bool) (s : State) : Res :=
  completes s (guardWrite slot 0x00080118 (writeVote slot vote) s)

/-- A unit of work fails because its memory request timed out (Table 04-4): a stroke at its unit, a pipe's transfer, a block
request (with MEM_ERROR), a DMA, a fill, a write-through, or a copy that another member requested. A DMA in a burst ends and
notifies on the bus it holds; one that stages a burst ends with that burst, and before its line (R256). -/
def memTimedOut (port slot : Nat) (s : State) : State :=
  if port = 10 || port = 11 then
    let n := port - 10
    match currentStroke s n with
    | some x => if x.slot = slot && x.started then failStroke n slot 36 s else s
    | none => s
  else if port = 5 then
    match (List.range 8).find? (fun k => match pipeOf s slot k with | some x => x.started && x.pending != [] | none => false) with
    | some k => endTransfer slot k false false 36 s
    | none =>
      match (busOf s slot).devs.find? (fun d => (blockHead s slot d.handle).isSome) with
      | some d => endBlock slot d.handle (blockEnding 4 0 0 0 0 []) s
      | none => s
  else if port = 8 then
    match rbpOf s slot with
    | some p =>
      if dmaRunning s p && (rbpSt s p).dma = 2 then endDma p 5 (notify p 0xFF (none, s))
      else
        match (rbpSt s p).issues with
        | .fill _ _ :: _ => ((issued p s).on (R.PAGE_STATUS.ERROR p)).off (R.PAGE_STATUS.FILLING p)
        | .through _ _ :: _ => (issued p s).on (R.PAGE_STATUS.ERROR p)
        | _ => if dmaRunning s p && (rbpSt s p).dma = 1 && !(rbpSt s p).job.dir then changeRbp p (fun x => { x with failed := true }) s else s
    | none => s
  else if port = 12 then
    match inboxOf s 2 (fun d => d.whole && groveOf s slot = some d.grove) with
    | some d =>
      let units := (argOf d 8 + 255) / 256
      pumpAll (returnTally d.id { unrunTally (argOf d 4) 3 d.grove units 2 36 with firstFailed := 0 } (dropDeliv d s))
    | none => s
  else s
/-- A request ends under R65: counted, with source 36. -/
def spineTimedOut (s : State) : State := occur 36 (s.bump R.SPINE_TIMEOUTS.COUNT 1)
/-- Word k of the vendor REG_READ under way at a slot is answered; with its last word the data stage follows (R267). -/
def fillVendor (slot k v : Nat) (s : State) : State :=
  let ws := Tab.look [] s.vendor slot
  match ws[k]? with
  | some none =>
    let ws1 := ws.set k (some v)
    if ws1.all Option.isSome then
      { s.emit (.usb slot (ws1.flatMap (fun w => leBytes 4 (w.getD 0)))) with vendor := Tab.put [] s.vendor slot [] }
    else { s with vendor := Tab.put [] s.vendor slot ws1 }
  | _ => s
/-- What the host of an access that R65 ends is given: a console line is answered with zero, and so is a word of a vendor
REG_READ. -/
def lostAnswer (slot : Nat) (write : Bool) (via : AccVia) (s : State) : State :=
  match via, consoleOf s slot with
  | .console, some u => s.emit (.console u (asciiOf (if write then "ok" else "ok 0")))
  | .usb k, _ => if write then s else fillVendor slot k 0 s
  | _, _ => s
/-- An access of a slot that waits here or at another member ends under R65, where there is one (R554); its answer then finds
nothing that waits. -/
def dropHeld (slot : Nat) (write : Bool) (s : State) : State :=
  match s.heldAcc.find? (fun h => h.slot = slot && h.write.isSome = write) with
  | some h =>
    lostAnswer slot write h.via { s with heldAcc := s.heldAcc.erase h }
  | none =>
    match s.stack.far.find? (fun x => x.slot = slot && x.write = write) with
    | some x => lostAnswer slot write x.via (forgetFar slot write s)
    | none => s
/-- SPINE_TIMEOUT (R65, R66, R554). -/
def execSpineTimeout (port : Fin 16) (slot : Fin 8) (request : Waiting) (s : State) : Res :=
  completes s (match request with
    | .regRead => (dropHeld slot false (spineTimedOut s)).emit (.data slot [0, 0, 0, 0])
    | .regWrite => dropHeld slot true (spineTimedOut s)
    | .memRead => memTimedOut port slot (spineTimedOut s)
    | .memWrite => memTimedOut port slot (spineTimedOut s)
    | .mailbox =>
      match mailOf s slot with
      | some m => deliverReply slot m 4 [] (spineTimedOut s)
      | none => s
    | .tally =>
      let k := 8 * port.val + slot.val
      let q := Tab.look TallyQ.reset s.tallyQ k
      if q.sent.isNone then s
      else if q.resends < 3 then { s with tallyQ := Tab.put TallyQ.reset s.tallyQ k { q with resends := q.resends + 1 } }
      else releaseTally (spineTimedOut s) port slot)

end Sys2Proof.Machine
end

