-- ==== Sys2Proof/Machine/RegMap.lean ====
section
/-! DEFINITION. Which register fields stand at an address (Table 26-1 and the register tables of spec/): an address that no
table assigns holds none (R6). Only the registers whose words are their fields stand here; FAULT_STICKY and the like are
views that RegAccess computes. -/
namespace Sys2Proof.Machine

/-- The fields of element i of a run of words from an offset. -/
def regRun (base count off : Nat) (f : Nat → List Fld) : List Fld :=
  if base ≤ off && off < base + 4 * count then f ((off - base) / 4) else []

/-- CANOPY. -/
def canopyRegs (off : Nat) : List Fld :=
  Tab.look [] ([(0x0, R.CANOPY_STATUS.all), (0x4, R.CANOPY_DETAIL.all), (0x8, R.CANOPY_CMD.all), (0xC, R.CANOPY_NEXT.all),
     (0x10, R.CANOPY_STAGE_ADDR.all), (0x14, R.CANOPY_STAGE_DATA.all), (0x40, R.CANOPY_SLOTS_LO.all),
     (0x44, R.CANOPY_SLOTS_HI.all), (0x48, R.CANOPY_MEMBER.all)] : List (Nat × List Fld)) off
    ++ regRun 0x20 (8) off (fun i => R.CANOPY_DIGEST.all i)
/-- CLOCK and TEMPO. -/
def clockRegs (off : Nat) : List Fld :=
  Tab.look [] ([(0x0, R.METRO_STATUS.all), (0x4, R.METRO_COUNT_LO.all), (0x8, R.METRO_COUNT_HI.all), (0xC, R.METRO_ALARM.all),
     (0x10, R.CLOCK_STATUS.all), (0x14, R.CLOCK_RELOCKS.all), (0x18, R.TEMPO_SETTLE.all), (0x20, R.TEMPO_REQ.all 0),
     (0x24, R.TEMPO_STATE.all 0), (0x30, R.TEMPO_REQ.all 1), (0x34, R.TEMPO_STATE.all 1), (0x40, R.TEMPO_REQ.all 2),
     (0x44, R.TEMPO_STATE.all 2)] : List (Nat × List Fld)) off
/-- DOMAIN, DORMANT, BELL and START_STATUS; DOMAIN_STATE apart. -/
def domainRegs (off : Nat) : List Fld :=
  Tab.look [] ([(0x40, R.DOMAIN_CMD.all), (0x44, R.DOMAIN_PROBE.all), (0x48, R.DOMAIN_ERR.all), (0x100, R.DORMANT_STATUS.all),
     (0x104, R.DORMANT_LAST.all), (0x108, R.DORMANT_COUNTS.all), (0x10C, R.DORMANT_IDLE_TICKS.all),
     (0x110, R.START_STATUS.all), (0x200, R.BELL_ENABLE.all), (0x204, R.BELL_PENDING.all),
     (0x208, R.BELL_MUFFLED.all), (0x20C, R.BELL_TILE_CAUSE.all), (0x210, R.BELL_GPIO_EDGE.all)] : List (Nat × List Fld)) off
/-- TALLY. -/
def tallyRegs (s : State) (slot : Nat) (off : Nat) : List Fld :=
  Tab.look [] ([(0x0, R.TALLY_HEAD.all slot), (0x4, R.TALLY_TAIL.all slot), (0x8, R.TALLY_STATUS.all slot),
     (0xC, R.TALLY_LOST.all slot)] : List (Nat × List Fld)) off
    ++ regRun 0x1000 (8 * 2 ^ s.rd (R.TALLY_STATUS.DEPTH slot)) off (fun i => R.TALLY_ENTRY.all slot (i / 8) (i % 8))
/-- HEARTWOOD. -/
def heartwoodRegs (slot : Nat) (off : Nat) : List Fld :=
  Tab.look [] ([(0x200, R.HW_MB_CTRL.all slot), (0x204, R.HW_MB_STATUS.all slot), (0x300, R.HW_STATUS.all),
     (0x304, R.HW_VERSION.all), (0x308, R.HW_LOG.all)] : List (Nat × List Fld)) off
    ++ regRun 0x0 (64) off (fun i => R.HW_MB_REQ.all slot i)
    ++ regRun 0x100 (64) off (fun i => R.HW_MB_REPLY.all slot i)
    ++ regRun 0x400 (64) off (fun i => R.RING.all (i / 8) (i % 8))
/-- SPINE and GROVE. -/
def groveRegs (slot : Nat) (off : Nat) : List Fld :=
  Tab.look [] ([(0x0, R.SPINE_TIMEOUT.all), (0x4, R.SPINE_CRC_DISCARDS.all), (0x8, R.SPINE_TIMEOUTS.all),
     (0xC, R.SPINE_MALFORMED.all), (0x10, R.BUF_COUNTS.all), (0x14, R.BUF_UE_ADDR.all),
     (0x100, R.GROVE_SELF.all slot), (0x104, R.GROVE_STATUS.all slot), (0x108, R.GROVE_REFUSED_ADDR.all slot),
     (0x10C, R.GROVE_IRQ_STATUS.all slot), (0x110, R.GROVE_IRQ_ENABLE.all slot),
     (0x114, R.GROVE_NMI_ENABLE.all slot), (0x118, R.GROVE_VOTE.all slot), (0x11C, R.GROVE_RESTART.all slot),
     (0x120, R.GROVE_VOTES.all slot), (0x124, R.GROVE_WEIGHTS.all slot)] : List (Nat × List Fld)) off
/-- MEMCTL. -/
def memctlRegs (off : Nat) : List Fld :=
  Tab.look [] ([(0x0, R.MEMCTL_CFG.all), (0x4, R.MEMCTL_TIMING_0.all), (0x8, R.MEMCTL_TIMING_1.all), (0xC, R.MEMCTL_CMD.all),
     (0x10, R.MEMCTL_STATUS.all), (0x14, R.MEMCTL_CE_COUNT.all), (0x18, R.MEMCTL_UE_COUNT.all),
     (0x1C, R.MEMCTL_CE_ADDR.all), (0x20, R.MEMCTL_UE_ADDR.all)] : List (Nat × List Fld)) off
/-- The global registers of SEAL. -/
def sealRegs (off : Nat) : List Fld :=
  Tab.look [] ([(0x0, R.SEAL_STATUS.all), (0x4, R.SEAL_CT_BASE.all), (0x8, R.SEAL_CE_COUNT.all), (0xC, R.SEAL_UE_COUNT.all)] : List (Nat × List Fld)) off
/-- The registers of SEAL region r. -/
def sealRegionRegs (r : Nat) (off : Nat) : List Fld :=
  Tab.look [] ([(0x0, R.SEAL_REGION_BASE.all r), (0x4, R.SEAL_REGION_PAGES.all r), (0x8, R.SEAL_REGION_STATE.all r),
     (0xC, R.SEAL_REGION_WATERMARK.all r), (0x10, R.SEAL_REGION_WORK_ID.all r), (0x14, R.SEAL_REGION_CMD.all r),
     (0x18, R.SEAL_REGION_TAG_FAILS.all r), (0x1C, R.SEAL_REGION_FAIL_LINE.all r)] : List (Nat × List Fld)) off
/-- TILE_t. -/
def tileRegs (t : Nat) (off : Nat) : List Fld :=
  Tab.look [] ([(0x0, R.TILE_CFG.all t), (0x4, R.TILE_STATUS.all t), (0x8, R.TILE_COUNTS.all t), (0x100, R.TC_STATUS.all t),
     (0x104, R.PD_CONTRACT.all t), (0x108, R.PWR_SENSE.all t), (0x10C, R.PWR_DRIVE.all t), (0x110, R.GUARD.all t),
     (0x114, R.TC_COUNTS.all t), (0x118, R.MOIST.all t), (0x11C, R.TC_CAL.all t)] : List (Nat × List Fld)) off
/-- HUB and TAPROOT. -/
def hubRegs (slot : Nat) (off : Nat) : List Fld :=
  Tab.look [] ([(0x0, R.HUB_SELF.all slot), (0x4, R.HUB_ID.all slot), (0x50, R.HUB_COUNTS.all slot),
     (0x100, R.TAP_STATUS.all slot), (0x104, R.TAP_PENDING.all slot), (0x108, R.TAP_DEVICES.all slot),
     (0x10C, R.TAP_LOST.all slot), (0x110, R.TAP_LOST_B.all slot), (0x114, R.TAP_COUNTS.all slot),
     (0x118, R.TAP_FRAME.all slot)] : List (Nat × List Fld)) off
    ++ regRun 0x10 (15) off (fun i => R.HUB_PORT.all slot (i + 1))
/-- RBP_p. -/
def rbpRegs (p : Nat) (off : Nat) : List Fld :=
  Tab.look [] ([(0x0, R.RBP_CFG.all p), (0x4, R.RBP_TIMING.all p), (0x8, R.RBP_DMA_TIMING.all p), (0xC, R.RBP_DMA_GRANT.all p),
     (0x10, R.RBP_COUNTS.all p)] : List (Nat × List Fld)) off
/-- UART_u; UART_RX apart. -/
def uartRegs (u : Nat) (off : Nat) : List Fld :=
  Tab.look [] ([(0x0, R.UART_CFG.all u), (0x4, R.UART_DIV.all u), (0x8, R.UART_RX.all u), (0xC, R.UART_TX.all u),
     (0x10, R.UART_STATUS.all u), (0x14, R.UART_IRQ.all u), (0x18, R.UART_IRQ_ENABLE.all u),
     (0x1C, R.UART_FIFO_CFG.all u), (0x20, R.UART_FLOW.all u), (0x24, R.UART_ADDR.all u), (0x28, R.UART_CARD.all u),
     (0x2C, R.UART_COUNTS.all u), (0x30, R.UART_CMD.all u)] : List (Nat × List Fld)) off
/-- IDB. -/
def idbRegs (off : Nat) : List Fld :=
  Tab.look [] ([(0x0, R.IDB_CFG.all), (0x4, R.IDB_CMD.all), (0x8, R.IDB_STATUS.all), (0xC, R.IDB_HOLD.all)] : List (Nat × List Fld)) off
    ++ regRun 0x100 (32) off (fun i => R.IDB_SLOT.all (i / 8) (i % 8))
    ++ regRun 0x1000 (2048) off (fun i => R.IDB_DATA.all (i / 512) (i / 64 % 8) (i % 64))
/-- AUDIO output o. -/
def audioRegs (o : Nat) (off : Nat) : List Fld :=
  Tab.look [] ([(0x0, R.AUD_STATUS.all o), (0x4, R.AUD_CTRL.all o), (0x8, R.AUD_POS.all o)] : List (Nat × List Fld)) off
/-- GPIO. -/
def gpioRegs (off : Nat) : List Fld :=
  Tab.look [] ([(0x0, R.GPIO_OWNER_LO.all), (0x4, R.GPIO_OWNER_HI.all), (0x10, R.GPIO_DIR.all), (0x14, R.GPIO_OUT.all),
     (0x18, R.GPIO_SET.all), (0x1C, R.GPIO_CLR.all), (0x20, R.GPIO_IN.all), (0x24, R.GPIO_OD.all),
     (0x28, R.GPIO_PULL.all), (0x30, R.GPIO_EDGE.all), (0x34, R.GPIO_EVENT.all), (0x38, R.GPIO_EVENT_EN.all)] : List (Nat × List Fld)) off
/-- DRUM_n, but for the voices. -/
def drumRegs (s : State) (slot n : Nat) (off : Nat) : List Fld :=
  Tab.look [] ([(0x0, R.FRONT_STATUS.all n), (0x4, R.LASER_CTRL.all n), (0x8, R.LASER_TARGET.all n), (0xC, R.LASER_STATUS.all n),
     (0x10, R.CH_CFG.all n), (0x80, R.RF_CTRL.all n), (0x84, R.RF_STATUS.all n), (0x90, R.LOSS_CTRL.all n),
     (0x94, R.LOSS_TE.all n), (0xC0, R.CAL_SOURCE.all n), (0xC4, R.FRONT_ERR.all n), (0x10000, R.DH_STATUS.all n),
     (0x10004, R.DH_BUDGET.all n), (0x10008, R.DH_FRAME.all n), (0x1000C, R.DH_LATE.all n),
     (0x10010, R.DH_STAGE_ADDR.all n), (0x10014, R.DH_STAGE_DATA.all n), (0x10018, R.DH_LOAD_CMD.all n),
     (0x1001C, R.DH_LOAD_STATUS.all n), (0x20000, R.SPIN_STATUS.all n), (0x20004, R.SPIN_SPEED.all n),
     (0x20008, R.SPIN_DEMAND.all n), (0x2000C, R.SPIN_CFG.all n), (0x20010, R.SPIN_RAMP.all n),
     (0x20014, R.SPIN_RAMP_B.all n), (0x20018, R.SPIN_PWM.all n), (0x2001C, R.SPIN_DETECT.all n),
     (0x20020, R.SPIN_CAL_A.all n), (0x20024, R.SPIN_CAL_KE.all n), (0x20028, R.SPIN_CAL_R.all n),
     (0x2002C, R.SPIN_CAL_SOURCE.all n), (0x20030, R.SPIN_COUNTS.all n), (0x20034, R.SPIN_ERR.all n),
     (0x30000, R.SLED_STATUS.all n), (0x30004, R.SLED_POS.all n), (0x30008, R.SLED_ENC.all n),
     (0x3000C, R.SLED_CFG.all n), (0x30010, R.SLED_BANDS.all n), (0x30014, R.SLED_ENC_CFG.all n),
     (0x30018, R.SLED_INDEX.all n), (0x3001C, R.SLED_INDEX_COUNT.all n), (0x30020, R.SLED_SLIP.all n),
     (0x30024, R.SLED_COUNTS.all n), (0x30028, R.SLED_SETTLE.all n), (0x3002C, R.SLED_TRAVEL.all n),
     (0x30030, R.SLED_STAGE_ADDR.all n), (0x30034, R.SLED_STAGE_DATA.all n), (0x30038, R.SLED_TARGET.all n),
     (0x3003C, R.SLED_CMD.all n), (0x30040, R.SLED_CMD_STATUS.all n), (0x30044, R.SLED_ERR.all n),
     (0x30080, R.TRAY_STATUS.all n), (0x30084, R.TRAY_CFG.all n), (0x30088, R.TRAY_COUNTS.all n),
     (0x40000, R.READ_STATUS.all n), (0x40004, R.READ_RATE.all n), (0x40008, R.READ_CTRL.all n),
     (0x4000C, R.READ_COMBINE.all n), (0x40010, R.READ_EQ_CFG.all n), (0x40014, R.READ_SCAR.all n),
     (0x40018, R.READ_SCAR_B.all n), (0x40020, R.READ_COUNTS.all n), (0x40024, R.READ_COUNTS_B.all n),
     (0x40100, R.READ_REPORT_HEAD.all n slot), (0x50000, R.STK_DISC.all n), (0x50004, R.STK_END.all n),
     (0x50008, R.STK_START.all n), (0x5000C, R.STK_CFG.all n), (0x50010, R.STK_NOW.all n),
     (0x50100, R.STK_PROD.all n slot), (0x50104, R.STK_CONS.all n slot), (0x50108, R.STK_RING.all n slot),
     (0x5010C, R.STK_DEMAND.all n slot)] : List (Nat × List Fld)) off
    ++ regRun 0x20 (8) off (fun i => R.CH_TRIM.all n i)
    ++ regRun 0x40 (8) off (fun i => R.CH_SAMPLE.all n i)
    ++ regRun 0x60 (3) off (fun i => R.COIL_FORCE.all n i)
    ++ regRun 0x70 (3) off (fun i => R.COIL_LATCH.all n i)
    ++ regRun 0xA0 (8) off (fun i => R.FRONT_CAL.all n i)
    ++ regRun 0x10020 (8) off (fun i => R.DH_LINK.all n i)
    ++ regRun 0x40040 (15) off (fun i => R.READ_EQ_TAP.all n i)
    ++ regRun 0x40200 (64) off (fun i => R.READ_REPORT.all n slot (i / 4) (i % 4))
    ++ regRun 0x51000 (8 * 2 ^ strokeDepth s slot) off (fun i => R.STK_ENTRY.all n slot (i / 8) (i % 8))
/-- Voice v of DRUM_n. -/
def voiceRegs (n v : Nat) (off : Nat) : List Fld :=
  Tab.look [] ([(0x0, R.DH_V_CFG.all n v), (0x4, R.DH_V_COST.all n v)] : List (Nat × List Fld)) off
    ++ regRun 0x8 3 off (fun i => R.DH_V_REF.all n v i) ++ regRun 0x14 3 off (fun i => R.DH_V_U.all n v i)
    ++ regRun 0x20 8 off (fun i => R.DH_V_X.all n v i) ++ regRun 0x40 3 off (fun i => R.DH_V_Z.all n v i)
/-- TRUNK, but for the ports. -/
def trunkRegs (off : Nat) : List Fld :=
  Tab.look [] ([(0x0, R.TRUNK_CFG.all), (0x4, R.TRUNK_LIMITS.all), (0x8, R.TRUNK_CMD.all), (0xC, R.TRUNK_ROUTE.all)] : List (Nat × List Fld)) off
    ++ regRun 0x10 (4) off (fun i => R.TRUNK_LANE.all i)
/-- Trunk port p. -/
def trunkPortRegs (p : Nat) (off : Nat) : List Fld :=
  Tab.look [] ([(0x0, R.PORT_STATUS.all p), (0x4, R.PORT_SEQ.all p), (0x8, R.PORT_RX.all p), (0xC, R.PORT_FC_LO.all p),
     (0x10, R.PORT_FC_HI.all p), (0x14, R.PORT_CREDIT.all p), (0x18, R.PORT_COUNTS.all p),
     (0x1C, R.PORT_COUNTS_B.all p)] : List (Nat × List Fld)) off
/-- STACK. -/
def stackRegs (off : Nat) : List Fld :=
  Tab.look [] ([(0x0, R.STACK_SELF.all), (0x4, R.STACK_MEMBERS.all), (0x8, R.STACK_TIME.all), (0xC, R.STACK_TL_LO.all),
     (0x10, R.STACK_TL_HI.all), (0x14, R.STACK_CMD.all), (0x18, R.STACK_LEDGER.all), (0x1C, R.STACK_ERR.all)] : List (Nat × List Fld)) off
/-- FAULT, but for the views. -/
def faultRegs (slot : Nat) (off : Nat) : List Fld :=
  Tab.look [] ([(0x90, R.FAULT_UNPRUNE.all slot), (0x94, R.FAULT_UNPRUNE_STATUS.all slot), (0xA0, R.FAULT_SELECT.all slot)] : List (Nat × List Fld)) off

/-- The fields at a register address in a slot's view. -/
def regsAt (s : State) (slot a : Nat) : List Fld :=
  let off := a % 0x10000
  match a / 0x10000 with
  | 0x1 => canopyRegs off
  | 0x2 => clockRegs off
  | 0x3 => if off < 0x24 then (List.range 16).map (fun i => R.DOMAIN_STATE.D (4 * off + i)) else domainRegs off
  | 0x4 => faultRegs slot off
  | 0x5 => tallyRegs s slot off
  | 0x6 => heartwoodRegs slot off
  | 0x7 => if off = 0x8000 then [R.KEEPING_PAGE.PAGE] else []
  | 0x8 => groveRegs slot off
  | 0x9 => memctlRegs off
  | 0xA => if 0x1000 ≤ off && off < 0x1400 then sealRegionRegs ((off - 0x1000) / 0x20) (off % 0x20) else sealRegs off
  | 0x20 => hubRegs slot off
  | 0x21 => rbpRegs 0 off
  | 0x22 => rbpRegs 1 off
  | 0x27 => idbRegs off
  | 0x28 => if off < 0x20 then audioRegs (off / 0x10) (off % 0x10) else []
  | 0x29 => gpioRegs off
  | 0x60 => if 0x100 ≤ off && off < 0x200 then trunkPortRegs ((off - 0x100) / 0x40) (off % 0x40) else trunkRegs off
  | 0x61 => stackRegs off
  | b =>
    if 0x10 ≤ b && b ≤ 0x1D then tileRegs (b - 0x10) off
    else if 0x23 ≤ b && b ≤ 0x26 then uartRegs (b - 0x23) off
    else if 0x300000 ≤ a && a < 0x500000 then
      let n := (a - 0x300000) / 0x100000
      let o := a % 0x100000
      if 0x10100 ≤ o && o < 0x10500 then voiceRegs n ((o - 0x10100) / 0x80) (o % 0x80) else drumRegs s slot n o
    else []

end Sys2Proof.Machine
end

