-- ==== Sys2Proof/Machine/Views.lean ====
section
/-! DEFINITION. Register fields whose value is computed at the read: masks, counts and conditions that the chapters define
from other state, the fault view (R57, R210), the KEEPING window (R179) and the pins' view (R465). -/
namespace Sys2Proof.Machine

/-- A mask of the bits k < n for which p holds. -/
def maskOf (n : Nat) (p : Nat → Bool) : Nat := (List.range n).foldl (fun m k => if p k then setBit m k else m) 0

/-- DOMAIN_PROBE's STEP of a sequencer step (Table 07-9). -/
def stepShown (st : Nat) : Nat :=
  match st with
  | 10 => 1
  | 11 => 3
  | 12 => 4
  | 8 => 7
  | 9 => 7
  | n => n
def probeView (s : State) : State :=
  let d := s.rd R.DOMAIN_PROBE.SELECT
  (((s.wrB R.DOMAIN_PROBE.UNIT_REQ (unitReq s d)).wrB R.DOMAIN_PROBE.STEWARD_REQ (stewardReq s d)).wr R.DOMAIN_PROBE.STATE
    (domState s d)).wr R.DOMAIN_PROBE.STEP (stepShown (domStepOf s d))
/-- GROVE_VOTES: a grove other than grove 0 reads only its own slot's bit (Table 03-4). -/
def votesView (slot : Nat) (s : State) : State :=
  s.wr (R.GROVE_VOTES.VOTED slot) (maskOf 8 (fun k => s.isSet (R.GROVE_VOTE.VOTE k) && (slot = 0 || k = slot)))
/-- Handles in use: those of devices, and those whose DETACH has not been pulled (R295). -/
def handlesUsed (s : State) (slot : Nat) : Nat :=
  maskOf 32 (fun k => (busOf s slot).devs.any (fun d => d.handle = k + 1))
def tapView (slot : Nat) (s : State) : State :=
  let used := handlesUsed s slot
  let s1 := s.wr (R.TAP_STATUS.PIPES slot) (maskOf 8 (fun k => (pipeOf s slot k).isSome))
  let s2 := s1.wr (R.TAP_STATUS.DEVICES slot) ((List.range 32).filter (bit used)).length
  let s3 := s2.wr (R.TAP_DEVICES.HANDLES slot) used
  s3.wr (R.TAP_PENDING.QUEUES slot) (maskOf 16 (fun q => !(pullOf (busOf s slot) q).isEmpty))
/-- TAP_FRAME: the micro-frames of the timeline (R303, R509). DESIGN CHOICE: outside a stack the bus counts them on the
Olulo's own timeline too (log 220). -/
def frameView (slot : Nat) (s : State) : State :=
  s.wr (R.TAP_FRAME.MICROFRAME slot) (if tapState s slot = 0 then 0 else timeline s / 125000)
/-- The computed fields at an address, written into a copy of the state that a read then shows. -/
def refreshView (slot a : Nat) (s : State) : State :=
  let b := a / 0x10000
  let off := a % 0x10000
  if a = 0x30044 then probeView s
  else if a = 0x30100 then s.wr R.DORMANT_STATUS.BLOCKERS (blockers s)
  else if a = 0x30200 then s.wr R.BELL_ENABLE.ENABLE (presentBells s (s.rd R.BELL_ENABLE.ENABLE))
  else if a = 0x80120 then votesView slot s
  else if 0x10 ≤ b && b ≤ 0x1D then
    (s.wrB (R.TILE_STATUS.PRUNED (b - 0x10)) (tilePruned s (b - 0x10))).wrB (R.TILE_STATUS.HELD (b - 0x10)) (tileHeldDown s (b - 0x10))
  else if b = 0x20 && off = 0x118 then frameView slot s
  else if b = 0x20 then tapView slot s
  else if b = 0x21 || b = 0x22 then s.wrB (R.RBP_CFG.PRUNED (b - 0x21)) (isPruned s (0x6000 + (b - 0x21)))
  else if b = 0x60 then
    (List.range 4).foldl (fun t p =>
      (t.wr (R.PORT_CREDIT.PAYLOAD p) (min (creditP s p) 65535)).wr (R.PORT_CREDIT.CONTROL p) (min (creditC s p) 65535)) s
  else
    match drumOf a with
    | some (n, o) =>
      if o = 0 then
        if domOn s (91 + 10 * n) || s.isSet (R.FRONT_STATUS.CONV_OK n) then
          (s.wrB (R.FRONT_STATUS.SUM_LOW n) (sumLow s n)).wrB (R.FRONT_STATUS.TE_OUT n) (teOut s n)
        else s
      else if o = 0x20000 then
        if (drumSt s n).up && spinState s n = 0 then s.wrB (R.SPIN_STATUS.NO_VOICE n) (driverVoice s n 4).isNone else s
      else if o = 0x10000 then s.wr (R.DH_STATUS.PRUNED n) (maskOf 8 (voicePruned s n))
      else if o = 0x1001C then s.wrB (R.DH_LOAD_STATUS.PENDING n) (voicePending s n)
      else s
    | none => s

/-- IDENT words (Table 26-3). -/
def identWord (s : State) (off : Nat) : Nat :=
  if off = 0 then 0x4F4C0072 else if off = 4 then variantCode s.variant else if off = 8 then 2
  else if off = 0x10 then unitsOf s.variant else 0

/-- FAULT_PRUNED in a slot's view: the channels that the grove owns or shares; grove 0 sees all (Table 10-8). -/
def prunedView (s : State) (slot : Nat) : Nat :=
  let sees (code : Nat) (own : Bool) : Bool := isPruned s code && (slot = 0 || own)
  maskOf 32 (fun k =>
    if k < 14 then sees (0x1000 + k) (ownsTile s slot k)
    else if 16 ≤ k && k < 20 then sees (0x5000 + (k - 16)) (ownsUart s slot (k - 16))
    else if 20 ≤ k && k < 22 then sees (0x6000 + (k - 20)) (ownsRbp s slot (k - 20))
    else if 24 ≤ k && k < 26 then sees (0x3000 + (k - 24)) (listedOnDrum s slot (k - 24))
    else if 28 ≤ k then sees (0x2000 + (k - 28)) false
    else false)
def prunedVoicesView (s : State) (slot : Nat) : Nat :=
  maskOf 16 (fun k => voicePruned s (k / 8) (k % 8) && (slot = 0 || listedOnDrum s slot (k / 8)))
/-- FAULT_POLICY to FAULT_RECOVERY of the selected source, by offset. -/
def policyWord (s : State) (c off : Nat) : Nat :=
  let p := policyOf s c
  match off with
  | 0xA4 => b2n p.permanent + 2 * b2n p.exitClear + 2 ^ 4 * p.retry + 2 ^ 8 * p.backoff + 2 ^ 16 * p.threshold
  | 0xA8 => p.window
  | 0xAC => p.quiet
  | 0xB0 => if p.permanent then 0 else Tab.look 0 s.events c
  | _ => recValue s c
/-- A read of the FAULT block: value, and whether it is refused (R57, R199, R210). -/
def faultRead (s : State) (slot off : Nat) : Nat × Bool :=
  if off < 0x40 then (maskOf 32 (fun j => isSticky s (8 * off + j) && inView s slot (8 * off + j)), false)
  else if off < 0x80 then (maskOf 32 (fun j => isPromoted s (8 * (off - 0x40) + j) && inView s slot (8 * (off - 0x40) + j)), false)
  else if off = 0x80 then (faultSummary s, false)
  else if off = 0x84 then (prunedView s slot, false)
  else if off = 0x88 then (prunedVoicesView s slot, false)
  else if 0xA4 ≤ off && off ≤ 0xB4 then
    let c := s.rd (R.FAULT_SELECT.SOURCE slot)
    if !srcLives s c then (0, false) else if !inView s slot c then (0, true) else (policyWord s c off, false)
  else (0, false)

/-- The byte of the keeping store that an address of the KEEPING window names (R179). -/
def keepingByte (s : State) (slot a : Nat) : Nat :=
  if slot = 0 then keepOffset s a else 0x8000 + 0x1000 * (groveOf s slot).getD 0 + a % 0x1000
/-- An access to the KEEPING window reads the word it falls in (R174). -/
def keepingSense (slot a : Nat) (s : State) : State :=
  if 0x78000 ≤ a then s else senseKeep (keepingByte s slot a / 8 * 8) 8 s
/-- A word of the KEEPING window (R179). -/
def keepingRead (s : State) (slot a : Nat) : Nat :=
  if a = 0x78000 then (if slot = 0 then s.rd R.KEEPING_PAGE.PAGE else 0)
  else if 0x78000 ≤ a then 0
  else
    let o := keepingByte s slot a
    if slot = 0 && 0x7000 ≤ o && o < 0x8000 then 0 else keepW s (o / 4)
/-- A word written to the KEEPING window, by bytes (R179): a grove other than grove 0 leaves bytes 0 to 7 of its partition. -/
def keepingWrite (slot a v be : Nat) (s : State) : State :=
  if a = 0x78000 then (if slot = 0 && bit be 0 then s.wr R.KEEPING_PAGE.PAGE v else s)
  else if 0x78000 ≤ a then s
  else
    let o := keepingByte s slot a
    if slot != 0 && a % 0x1000 < 8 then s
    else (List.range 4).foldl (fun t i => if bit be i then putKeepByte t (o + i) (v / 2 ^ (8 * i) % 256) else t) s

/-- The pins' registers in a slot's view (R465, R466): SET and CLR read as GPIO_OUT. -/
def gpioRead (s : State) (slot off : Nat) : Nat :=
  let m := pinMask s slot
  let pairs (f : Nat → Fld) : Nat := (List.range 16).foldl (fun a k => if bit m k then a + 2 ^ (2 * k) * s.rd (f k) else a) 0
  match off with
  | 0x10 => s.rd R.GPIO_DIR.OUT &&& m
  | 0x14 => s.rd R.GPIO_OUT.LEVEL &&& m
  | 0x18 => s.rd R.GPIO_OUT.LEVEL &&& m
  | 0x1C => s.rd R.GPIO_OUT.LEVEL &&& m
  | 0x20 => s.rd R.GPIO_IN.LEVEL &&& m
  | 0x24 => s.rd R.GPIO_OD.OPEN_DRAIN &&& m
  | 0x28 => pairs R.GPIO_PULL.PULL
  | 0x30 => pairs R.GPIO_EDGE.EDGE
  | 0x34 => s.rd R.GPIO_EVENT.EVENT &&& m
  | 0x38 => s.rd R.GPIO_EVENT_EN.ENABLE &&& m
  | _ => fieldsWord s (gpioRegs off)

end Sys2Proof.Machine
end

