-- ==== Sys2Proof/Machine/RegAccess.lean ====
section
/-! DEFINITION. Register access (R5 to R9, R43, R44, R547 to R556): what a read returns and clears, what a write stores, which
writes are a command of their own, HELD blocks, addresses of other members (R505), and the console's lines (R168). -/
namespace Sys2Proof.Machine

/-- The state after a command that never stops. -/
def after (s : State) (r : Res) : State := match r with | .next t => t | _ => s
/-- The newest answer among what left, and the rest. -/
def dropAnswer : List Out → List Out
  | [] => []
  | .answer _ _ _ :: r => r
  | o :: r => o :: dropAnswer r
def newestAnswer : List Out → Nat × Nat
  | [] => (0, 0)
  | .answer _ st v :: _ => (st, v)
  | _ :: r => newestAnswer r
/-- An access's result: its STATUS, or none when the answer comes later from another member; the value; the state. -/
abbrev Ans := Option Nat × Nat × State
/-- The result of a command that answered. -/
def answered (t : State) : Ans :=
  (some (newestAnswer t.outs).1, (newestAnswer t.outs).2, { t with outs := dropAnswer t.outs })

/-- LEAVE (R517): on a quarantined member, the warm restart of R153. -/
def execLeave (slot : Fin 8) (s : State) : Res := completes s (stackCmd slot (stackState s = 4) warmRestart s)

/-- The bits that byte enables select. -/
def byteMask (be : Nat) : Nat := (List.range 4).foldl (fun m i => if bit be i then m + 255 * 2 ^ (8 * i) else m) 0
/-- The word that a write presents to fields: stored RW bits where a byte is not enabled, and 0 to every other field there. -/
def mergedWord (s : State) (fs : List Fld) (v be : Nat) : Nat :=
  let m := byteMask be
  andNot (fieldsWord s (fs.filter (fun f => f.acc = .rw || f.acc = .rwl))) m ||| (v &&& m)

/-- An address with the unit taken as unit 0: tiles, Retro Bus Ports, UARTs and drums. -/
def unitZero (a : Nat) : Nat :=
  let b := a / 0x10000
  if 0x10 ≤ b && b ≤ 0x1D then 0x100000 + a % 0x10000
  else if b = 0x21 || b = 0x22 then 0x210000 + a % 0x10000
  else if 0x23 ≤ b && b ≤ 0x26 then 0x230000 + a % 0x10000
  else if 0x300000 ≤ a && a < 0x500000 then 0x300000 + a % 0x100000
  else a
/-- RW fields with a range, by address (of unit 0) and lowest bit: a value outside stores the nearest bound. -/
def fieldBounds : List (Nat × Nat × Nat × Nat) :=
  [(0x80000, 0, 0x400, 65535), (0x20018, 0, 1, 255), (0x30044, 0, 0, 143), (0x3010C, 0, 32, 2 ^ 32 - 1), (0x100118, 0, 20, 255),
   (0x210008, 16, 1, 255), (0x210008, 8, 1, 255), (0x210008, 4, 1, 15), (0x210008, 0, 1, 15), (0x21000C, 0, 1, 255),
   (0x300008, 0, 100, 5000), (0x300010, 8, 1, 255), (0x300080, 0, 0, 48), (0x300094, 0, 1, 2047), (0x310010, 0, 0, 257)]
  ++ [(0x320010, 16, 200, 3000), (0x320010, 0, 10, 300), (0x320014, 24, 5, 60), (0x320014, 16, 10, 255), (0x320014, 0, 100, 20000),
   (0x320018, 24, 10, 140), (0x320018, 8, 50, 98), (0x33000C, 16, 1, 4096), (0x330010, 24, 1, 255), (0x330010, 16, 1, 255),
   (0x330010, 8, 1, 255), (0x330010, 0, 1, 255), (0x330014, 0, 1, 1024), (0x330028, 0, 0, 200), (0x330030, 0, 0, 193),
   (0x330084, 0, 20, 100)]
  ++ [(0x340008, 8, 1, 8), (0x340014, 24, 1, 255), (0x340014, 8, 10, 90), (0x340018, 0, 8, 1024), (0x230000, 0, 5, 9),
   (0x230004, 8, 8, 65535), (0x23001C, 24, 2, 64), (0x23001C, 8, 0, 63), (0x23001C, 0, 1, 64), (0x230028, 16, 1, 255),
   (0x230028, 8, 0, 254), (0x600004, 24, 2, 255), (0x600004, 16, 1, 255), (0x600004, 0, 1, 65535)]
/-- RW fields whose values above a largest one store 0: UART_CFG's MODE, STOP and PARITY (Table 22-1). -/
def fieldZeroes : List (Nat × Nat × Nat) := [(0x230000, 16, 2), (0x230000, 8, 2), (0x230000, 4, 4)]
/-- The value that a field stores for a written one. -/
def storedValue (f : Fld) (v : Nat) : Nat :=
  match fieldBounds.find? (fun e => e.1 = unitZero f.addr && e.2.1 = f.lo) with
  | some e => max e.2.2.1 (min v e.2.2.2)
  | none =>
    match fieldZeroes.find? (fun e => e.1 = unitZero f.addr && e.2.1 = f.lo) with
    | some e => if e.2.2 < v then 0 else v
    | none => v

/-- RWL fields take writes (R7, R35): not after sealing, and not while a load runs; DORMANT_IDLE_TICKS not in VOTE mode. -/
def rwlOpen (s : State) (f : Fld) : Bool :=
  !sealedNow s && !(loaderBusy s && (s.loadOp = .load || s.loadOp = .start)) && !(f.addr = 0x3010C && s.rd R.DORMANT_STATUS.MODE = 0)
/-- A write of an RWL field; a change on a configured Olulo sets ADJUSTED and records CANOPY_ADJUST (R35, R36). -/
def writeRwl (f : Fld) (v : Nat) (s : State) : State :=
  let new := storedValue f v
  if !rwlOpen s f || new = s.rd f then s
  else
    let s1 := s.wr f new
    let data := leBytes 4 f.addr ++ leBytes 4 new
    if configured s then extendEvent 2 6 (sha256 data) data (s1.on R.CANOPY_STATUS.ADJUSTED) else s1
/-- A word written to one field, by its access code (R5). -/
def writeField (w : Nat) (s : State) (f : Fld) : State :=
  let v := bits w f.lo f.width
  match f.acc with
  | .rw => s.wr f (storedValue f v)
  | .rwl => writeRwl f v s
  | .w1c => s.wr f (andNot (s.rd f) v)
  | .w1s => s.wr f (s.rd f ||| v)
  | _ => s
def writeFields (fs : List Fld) (w : Nat) (s : State) : State := fs.foldl (writeField w) s

/-- GROVE_IRQ_ENABLE and GROVE_NMI_ENABLE: bit 4 stores 0 without WAKE_PERMIT (Table 03-4). -/
def writeEnables (slot : Nat) (f : Fld) (w : Nat) (s : State) : State :=
  deliverIrq s (s.wr f (if wakePermit s slot then w else clearBit w 4)) slot false
/-- UART_FIFO_CFG: RX_LOW stays below RX_HIGH; UART_FLOW: XOFF equal to XON stores nothing (Table 22-1). -/
def writeUartWord (u off w : Nat) (s : State) : State :=
  let fs := uartRegs u off
  match off with
  | 0x00 => pendUart u (writeFields fs w) s
  | 0x04 => pendUart u (writeFields fs w) s
  | 0x24 => pendUart u (writeFields fs w) s
  | 0x28 => pendUart u (writeFields fs w) s
  | 0x1C =>
    let s1 := writeFields fs w s
    s1.wr (R.UART_FIFO_CFG.RX_LOW u) (min (s1.rd (R.UART_FIFO_CFG.RX_LOW u)) (s1.rd (R.UART_FIFO_CFG.RX_HIGH u) - 1))
  | 0x20 => if bits w 8 8 = bits w 0 8 then s else writeFields fs w s
  | _ => writeFields fs w s
/-- The pins' registers but OWNER, SET and CLR: a slot writes the bits of its pins, once grove 0 is ready (R465 to R467). -/
def writePins (slot off w m : Nat) (s : State) : State :=
  let mine := pinMask s slot
  let own := mine &&& m
  let pairs (f : Nat → Fld) (fix : Nat → Nat) (s : State) : State :=
    (List.range 16).foldl (fun t k => if bit mine k then t.wr (f k) (fix (bits w (2 * k) 2)) else t) s
  if !pinsLive s then s
  else
    match off with
    | 0x10 => maskWrite R.GPIO_DIR.OUT own w s
    | 0x14 => maskWrite R.GPIO_OUT.LEVEL own w s
    | 0x24 => maskWrite R.GPIO_OD.OPEN_DRAIN own w s
    | 0x28 => pairs R.GPIO_PULL.PULL (fun v => if v = 3 then 0 else v) s
    | 0x30 => pairs R.GPIO_EDGE.EDGE (fun v => v) s
    | 0x34 => s.wr R.GPIO_EVENT.EVENT (andNot (s.rd R.GPIO_EVENT.EVENT) (w &&& own))
    | 0x38 => maskWrite R.GPIO_EVENT_EN.ENABLE own w s
    | _ => s

/-- SPIN_CFG and the spindle's calibration registers (R384, Tables 11-4 and 18-4). -/
def writeCurve (n w : Nat) (s : State) : State :=
  let x := spinOf s n
  if (curveRec s n (w % 4)).isSome then
    (putSpin n { x with oldCurve := some (x.oldCurve.getD (s.rd (R.SPIN_CFG.CURVE n))) } s).wr (R.SPIN_CFG.CURVE n) w else s.on (R.SPIN_ERR.CFG_REFUSED n)
def writeSpinCal (n : Nat) (f : Fld) (v : Nat) (good : Bool) (s : State) : State :=
  if good then s.wr f v else s.on (R.SPIN_ERR.CAL_REFUSED n)
def writeSpinCalA (n w : Nat) (s : State) : State :=
  let rpm := bits w 16 16
  let poles := w % 16
  writeSpinCal n (R.SPIN_CAL_A.POLE_PAIRS n) poles (1 ≤ poles && poles ≤ 8)
    (writeSpinCal n (R.SPIN_CAL_A.MAX_RPM n) rpm (1000 ≤ rpm && rpm ≤ 11000) s)
/-- SLED_CFG (Table 19-5). -/
def writeSledCfg (n w : Nat) (s : State) : State :=
  let s1 := writeField w s (R.SLED_CFG.FOLLOW_MAX n)
  if (sledRec s n (w % 8)).isSome then s1.wr (R.SLED_CFG.PROFILE n) (w % 8) else s1.on (R.SLED_ERR.CFG_REFUSED n)
/-- RF_CTRL: GAIN is taken while the same write leaves AUTO at 0 (Table 16-5; DEDUCED). -/
def writeRfCtrl (n w : Nat) (s : State) : State :=
  let s1 := s.wrB (R.RF_CTRL.AUTO n) (bit w 8)
  if bit w 8 then s1 else (s1.wr (R.RF_CTRL.GAIN n) (min (w % 64) 48)).wr (R.RF_STATUS.GAIN n) (min (w % 64) 48)
/-- READ_CTRL (Table 20-6). -/
def writeReadCtrl (n w : Nat) (s : State) : State :=
  setEqFreeze n (bit w 2) (writeFields [R.READ_CTRL.ITER n, R.READ_CTRL.AUDIO_CONCEAL n, R.READ_CTRL.L3_ECC n] w s)

/-- The effect of a served write of a register that has no command of its own. -/
def plainWrite (slot a v be : Nat) (s : State) : State :=
  let fs := regsAt s slot a
  let w := mergedWord s fs v be
  let b := a / 0x10000
  if b = 7 then keepingWrite slot a v be (keepingSense slot a s)
  else if a = 0x8010C then deliverIrq s (clearIrq slot (w % 512) s) slot false
  else if a = 0x80110 then writeEnables slot (R.GROVE_IRQ_ENABLE.ENABLE slot) w s
  else if a = 0x80114 then writeEnables slot (R.GROVE_NMI_ENABLE.ENABLE slot) w s
  else if a = 0x30200 then writeFields fs (presentBells s w) s
  else if b = 6 && a % 0x10000 < 0x100 && s.isSet (R.HW_MB_STATUS.PENDING slot) then s
  else if b = 9 && a < 0x9000C && s.rd R.MEMCTL_STATUS.STATE != 0 && s.rd R.MEMCTL_STATUS.STATE != 4 then s
  else if 0x23 ≤ b && b ≤ 0x26 then withUart (b - 0x23) (writeUartWord (b - 0x23) (a % 0x10000) w) s
  else if b = 0x29 then withPins (writePins slot (a % 0x10000) w (byteMask be)) s
  else
    match drumOf a with
    | some (n, o) =>
      match o with
      | 0x80 => writeRfCtrl n w s
      | 0x2000C => writeCurve n w s
      | 0x20020 => writeSpinCalA n w s
      | 0x20024 => writeSpinCal n (R.SPIN_CAL_KE.VALUE n) w (calRange w 1 1000 100) s
      | 0x20028 => writeSpinCal n (R.SPIN_CAL_R.VALUE n) w (calRange w 1 1000 10) s
      | 0x3000C => writeSledCfg n w s
      | 0x40008 => writeReadCtrl n w s
      | _ =>
        if 0x10100 ≤ o && o < 0x10500 then
          let r := (o - 0x10100) % 0x80
          if 8 ≤ r && r < 0x14 then setRef n ((o - 0x10100) / 0x80) ((r - 8) / 4) w s else s
        else writeFields fs w s
    | none => writeFields fs w s

/-- A write of a drum's register that is a command of its own. -/
def drumCommand (k : Fin 8) (n : Fin 2) (o w : Nat) (s : State) : Option Res :=
  let voice : Fin 8 := Fin.ofNat 8 (bits w 16 3)
  match o with
  | 0x04 => some (execLaserSelect k n (Fin.ofNat 4 w) s)
  | 0x60 => some (execCoilForce k n 0 (w % 65536) s)
  | 0x64 => some (execCoilForce k n 1 (w % 65536) s)
  | 0x68 => some (execCoilForce k n 2 (w % 65536) s)
  | 0x90 => some (execRearm k n w s)
  | 0x10014 => some (execDhStageDataAccess k n (some w) s)
  | 0x10018 =>
    if !bit w 31 then none
    else match w % 8 with
      | 1 => some (execLoadVoice k n voice (bits w 8 8) (bits w 5 3) (bit w 4) s)
      | 2 => some (execSwap k n voice (bits w 8 8) (bits w 5 3) (bit w 4) (bit w 3) s)
      | 3 => some (execUnload k n voice s)
      | 4 => some (execReseed k n voice s)
      | _ => some (execVoiceCmdBadOp k n s)
  | 0x30034 => some (execSledStageDataAccess k n (some w) s)
  | 0x3003C =>
    if !bit w 31 then none
    else match w % 8 with
      | 1 => some (execSledSeek k n s)
      | 2 => some (execRunStage k n s)
      | 3 => some (execHome k n s)
      | 4 => some (execStop k n (s.freeVal 0) (s.drew 1))
      | _ => some (execSledCmdBadOp k n s)
  | 0x40010 => some (execEqRestore k n w s)
  | 0x50100 => some (execStkProdWrite k n (w % 65536) s)
  | _ => if 0xA0 ≤ o && o < 0xC0 then some (execCalWrite k n (Fin.ofNat 8 ((o - 0xA0) / 4)) w s) else none
/-- A write of a register that is a command of its own: its outcome; none where there is none. -/
def ownCommand (k : Fin 8) (a w : Nat) (s : State) : Option Res :=
  let off := a % 0x10000
  match a / 0x10000 with
  | 0x1 =>
    match off with
    | 0x08 =>
      let area : Fin 4 := Fin.ofNat 4 (bits w 4 2)
      match w % 4 with
      | 1 => some (execCheckStream k area s)
      | 2 => some (execLoadStream k area s)
      | 3 => some (execSealStream k s)
      | _ => none
    | 0x0C => some (execCanopyNextWrite k (Fin.ofNat 2 w) s)
    | 0x14 => some (execCanopyStageDataAccess k (some w) s)
    | _ => none
  | 0x2 => if off = 0x20 || off = 0x30 || off = 0x40 then some (execTempoReqWrite k (Fin.ofNat 3 ((off - 0x20) / 16)) (Fin.ofNat 4 w) s) else none
  | 0x3 =>
    match off with
    | 0x40 =>
      match bits w 8 2 with
      | 1 => some (execDomainSetRequest k (w % 256) s)
      | 2 => some (execDomainClearRequest k (w % 256) s)
      | 3 => some (.next (guardWrite k a (fun s => s.on R.DOMAIN_ERR.CMD_REFUSED) s))
      | _ => none
    | 0x208 => some (execBellMuffledClear k w s)
    | _ => none
  | 0x4 => if off < 0x40 then some (execFaultStickyClear k (Fin.ofNat 16 (off / 4)) w s)
      else if off = 0x90 && bit w 31 then some (execUnprune k (w % 65536) s) else none
  | 0x5 => if off = 4 then some (execTallyTailWrite k (w % 65536) s) else none
  | 0x6 => if off = 0x200 && bit w 0 then some (execMailboxSend ⟨k, .good⟩ s) else none
  | 0x8 => if off = 0x118 then some (execGroveVoteWrite k (bit w 0) s)
      else if off = 0x11C && bit w 8 then some (execGroveRestart k (Fin.ofNat 8 w) s) else none
  | 0x9 => if off = 0x0C && bit w 0 then some (execMemctlTrain k s) else none
  | 0xA => if 0x1000 ≤ off && off < 0x1400 && off % 0x20 = 0x14 && bit w 0 then some (execRekey k (Fin.ofNat 32 ((off - 0x1000) / 0x20)) s) else none
  | 0x27 => if off = 4 && bit w 31 then some (.next (idbWrite k (bits w 8 2) (bits w 4 2) (w % 8) s)) else none
  | 0x29 =>
    match off with
    | 0x00 => some (execGpioOwnerWrite k false w s)
    | 0x04 => some (execGpioOwnerWrite k true w s)
    | 0x18 => some (execGpioSet k w s)
    | 0x1C => some (execGpioClr k w s)
    | _ => none
  | 0x60 =>
    if off != 8 || !bit w 31 then none
    else match bits w 8 2 with
      | 1 => some (execRetrain k (Fin.ofNat 4 (bits w 4 2)) s)
      | 2 => some (execResetLane k (Fin.ofNat 4 w) s)
      | _ => none
  | 0x61 =>
    if off != 0x14 || !bit w 31 then none
    else match bits w 8 2 with
      | 1 => some (execExpel k (Fin.ofNat 8 w) s)
      | 2 => some (execAdmitMember k (Fin.ofNat 8 w) s)
      | 3 => some (execLeave k s)
      | _ => none
  | b =>
    if 0x23 ≤ b && b ≤ 0x26 then
      let u : Fin 4 := Fin.ofNat 4 (b - 0x23)
      if off = 0x0C then some (execUartTxWrite k u w s)
      else if off = 0x30 && w % 4 = 3 then some (.next (after s (execFlushTx k u { after s (execFlushRx k u s) with outs := s.outs })))
      else if off = 0x30 && bit w 1 then some (execFlushTx k u s)
      else if off = 0x30 && bit w 0 then some (execFlushRx k u s)
      else none
    else
      match drumOf a with
      | some (n, o) => drumCommand k (Fin.ofNat 2 n) o w s
      | none => none

/-- A write of a register of this member (R5 to R9). -/
def localWrite (slot a v be : Nat) (s : State) : Ans :=
  let k : Fin 8 := Fin.ofNat 8 slot
  let w := mergedWord s (regsAt s slot a) v be
  match ownCommand k a w s with
  | some r => answered (after s r)
  | none => answered (guardWrite slot a (plainWrite slot a v be) s)

/-- A read of a register that is a command of its own. -/
def ownRead (k : Fin 8) (a : Nat) (s : State) : Option Res :=
  if a = 0x10014 then some (execCanopyStageDataAccess k none s)
  else if 0x230000 ≤ a && a < 0x270000 && a % 0x10000 = 8 then some (execUartRxRead k (Fin.ofNat 4 ((a - 0x230000) / 0x10000)) s)
  else
    match drumOf a with
    | some (n, o) =>
      if o = 0x10014 then some (execDhStageDataAccess k (Fin.ofNat 2 n) none s)
      else if o = 0x30034 then some (execSledStageDataAccess k (Fin.ofNat 2 n) none s)
      else none
    | none => none
/-- A served read of a register whose word is its fields: the computed ones first; RC fields of a block that runs clear
after they are read (R5, R553). -/
def plainRead (slot a : Nat) (s : State) : Nat × State :=
  let t := refreshView slot a s
  let fs := regsAt s slot a
  let v := fieldsWord t (fs.filter (fun f => f.acc != .wo))
  let s1 := { s with freeCtr := t.freeCtr }
  (v, if blockRuns s a then (fs.filter (fun f => f.acc = .rc)).foldl (fun u f => u.wr f 0) s1 else s1)
/-- A served read: METRO_COUNT_LO and STACK_TL_LO latch their high words (R130); the registers of a region that no stream
defines read zero (R109). -/
def servedRead (slot a : Nat) (s : State) : Nat × State :=
  if a / 0x10000 = 0 then (identWord s a, s)
  else if a = 0x20004 then (s.metro % 2 ^ 32, s.wr R.METRO_COUNT_HI.COUNT (s.metro / 2 ^ 32))
  else if a = 0x61000C then (timeline s % 2 ^ 32, s.wr R.STACK_TL_HI.TL (timeline s / 2 ^ 32))
  else if a / 0x10000 = 7 then (let t := keepingSense slot a s; (keepingRead t slot a, t))
  else if a / 0x10000 = 0x29 then (gpioRead s slot (a % 0x10000), s)
  else if 0xA1000 ≤ a && a < 0xA1400 && !s.isSet (R.SEAL_REGION_BASE.VALID ((a - 0xA1000) / 0x20)) then (0, s)
  else plainRead slot a s
/-- The views of FAULT that a read may refuse. -/
def faultOffset (a : Nat) : Bool := a / 0x10000 = 4 && (a % 0x10000 < 0x90 || (0xA4 ≤ a % 0x10000 && a % 0x10000 ≤ 0xB4))
/-- A read of a register of this member. -/
def localRead (slot a : Nat) (s : State) : Ans :=
  match ownRead (Fin.ofNat 8 slot) a s with
  | some r => answered (after s r)
  | none =>
    answered (guardRead slot a (fun s =>
      if faultOffset a then
        let r := faultRead s slot (a % 0x10000)
        if r.2 then (refuse slot a s).emit (.answer slot 1 0) else s.emit (.answer slot 0 r.1)
      else
        let r := servedRead slot a s
        r.2.emit (.answer slot 0 r.1)) s)

/-- Where an address leads (R505): the member and the address there; none outside a stack. -/
def memberOf (s : State) (addr : Nat) : Option (Nat × Nat) :=
  if addr < 0x80000000 || !stacked s then none else some ((addr - 0x80000000) / 0x10000000, addr % 0x10000000)
/-- The index of a slot's stroke-ring words on another member's drum in `shadow`; the ring count has drum number 2 + n. -/
def shadowKey (m n slot word : Nat) : Nat := ((8 * m + n) * 8 + slot) * 1024 + word
/-- The bytes of a ring entry written to another member. -/
def shadowEntry (s : State) (m n slot i : Nat) : List Nat :=
  (List.range 8).flatMap (fun j => leBytes 4 (Tab.look 0 s.shadow (shadowKey m n slot (8 * i + j))))
/-- A grove writes its ring on another member's drum (R213, R427, R508): a stroke goes there as a request, once its count
moves forward by at most the ring's size; the executor keeps the ring itself. -/
def shadowWrite (slot m n o v be : Nat) (s : State) : State :=
  let size := ringSize s slot
  if o = 0x50100 then
    let key := shadowKey m (2 + n) slot 0
    let prod := Tab.look 0 s.shadow key
    let d := (v % 65536 + 65536 - prod) % 65536
    if 1 ≤ d && d ≤ size then
      (List.range d).foldl (fun t i => issueStroke slot m n (shadowEntry t m n slot ((prod + i) % size)) t)
        { s with shadow := Tab.put 0 s.shadow key (v % 65536) }
    else s
  else
    let i := (o - 0x51000) / 4
    let old := Tab.look 0 s.shadow (shadowKey m n slot i)
    if i < 8 * size then { s with shadow := Tab.put 0 s.shadow (shadowKey m n slot i) (andNot old (byteMask be) ||| (v &&& byteMask be)) } else s
/-- A slot's own stroke ring on a drum of another member: STK_PROD and the entries. -/
def ringOffset (a : Nat) : Option (Nat × Nat) :=
  match drumOf a with
  | some (n, o) => if o = 0x50100 || (0x51000 ≤ o && o < 0x60000) then some (n, o) else none
  | none => none
/-- A packet sent to another member in CONTROL frames, under the grove's number (R490, R505). -/
def sendAccess (slot m : Nat) (h : Header) (data : List Nat) (s : State) : State := pumpAll (sendPacket m slot h data s)
/-- An access sent to another member: it waits for its answer, under a request number of its own (R65; the numbers are a
DESIGN CHOICE, log 217). -/
def sendFar (slot m a be port : Nat) (v : Option Nat) (via : AccVia) (s : State) : State :=
  let k := s.stack.nextFar
  let x : FarAcc := ⟨slot, m, k, a, v.isSome, via⟩
  sendAccess slot m ⟨a, be, 0, k, port, if v.isSome then 2 else 1⟩ v.toList
    (putStack { s.stack with far := s.stack.far ++ [x], nextFar := (k + 1) % ownWriteId } s)

/-- A slot reads a register (R505, R549), from a spine port. -/
def readReg (slot addr port : Nat) (via : AccVia) (s : State) : Ans :=
  let a := addr % 2 ^ 32 / 4 * 4
  match memberOf s a with
  | none => localRead slot a s
  | some (m, b) =>
    if m = ownMember s then localRead slot b s
    else if !reachable s m then (some 2, 0, activity s)
    else (none, 0, sendFar slot m b 0 port none via (activity s))
/-- A slot writes a register (R505, R549), from a spine port. -/
def writeReg (slot addr v be port : Nat) (via : AccVia) (s : State) : Ans :=
  let a := addr % 2 ^ 32 / 4 * 4
  match memberOf s a with
  | none => localWrite slot a v be s
  | some (m, b) =>
    if m = ownMember s then localWrite slot b v be s
    else if !reachable s m then (some 2, 0, activity s)
    else match ringOffset b with
      | some (n, o) => (some 0, 0, shadowWrite slot m n o v be (activity s))
      | none => (none, 0, sendFar slot m b be port (some v) via (activity s))

/-- The reply line of a peek or poke (R168). -/
def consoleReply (slot : Nat) (write : Bool) (v : Nat) (s : State) : State :=
  match consoleOf s slot with
  | some u => s.emit (.console u (asciiOf "ok" ++ (if write then [] else 32 :: hexNum v)))
  | none => s
/-- Answer an access of another member (R490, R505). -/
def answerMember (m id slot addr : Nat) (write : Bool) (st v : Nat) (s : State) : State :=
  sendAccess slot m ⟨addr, 0, st, id, 12, if write then 4 else 3⟩ (if write then [] else [v]) s
/-- Answer an access, where it came from; an access that has gone to another member is answered later. -/
def giveAnswer (h : HeldAcc) (r : Ans) : State :=
  match r.1 with
  | none => r.2.2
  | some st =>
    match h.via with
    | .slot => r.2.2.emit (.answer h.slot st r.2.1)
    | .console => consoleReply h.slot h.write.isSome r.2.1 r.2.2
    | .usb k => if h.write.isSome then r.2.2 else fillVendor h.slot k (if st = 0 then r.2.1 else 0) r.2.2
    | .member m id => answerMember m id h.slot h.addr h.write.isSome st r.2.1 r.2.2
/-- The spine port an access comes from. -/
def accessPort (s : State) (h : HeldAcc) : Nat :=
  match h.via with
  | .slot => rootPort s h.slot
  | .console => 9
  | .usb _ => if configured s then rootPort s h.slot else 6
  | .member _ _ => 12
/-- The spine port an access comes from moves packets (R12). -/
def sourceOn (s : State) (h : HeldAcc) : Bool :=
  match h.via with
  | .slot => rootOn s h.slot
  | _ => portOn s (accessPort s h)
/-- Carry out an access; another member's reaches registers of this one only. -/
def runAcc (h : HeldAcc) (s : State) : State :=
  match h.write, h.via with
  | some (v, be), .member _ _ => giveAnswer h (localWrite h.slot (h.addr / 4 * 4) v be s)
  | none, .member _ _ => giveAnswer h (localRead h.slot (h.addr / 4 * 4) s)
  | some (v, be), _ => giveAnswer h (writeReg h.slot h.addr v be (accessPort s h) h.via s)
  | none, _ => giveAnswer h (readReg h.slot h.addr (accessPort s h) h.via s)
/-- An access waits: its block is held, or a spine segment on its way is off (R12, R554). -/
def waitsAcc (s : State) (h : HeldAcc) : Bool := !sourceOn s h || heldBlock s h.addr
/-- An access arrives: it waits, or is carried out (R554). -/
def takeAcc (h : HeldAcc) (s : State) : State := if waitsAcc s h then { s with heldAcc := s.heldAcc ++ [h] } else runAcc h s
/-- Accesses whose block is held no longer are carried out, in order. -/
def serveHeld (s : State) : State :=
  s.heldAcc.foldl (fun t h => if waitsAcc t h then t else runAcc h { t with heldAcc := t.heldAcc.erase h }) s

/-- DOMAIN_STEP_COMPLETE (R12, R134, R135, R140). -/
def execDomainStepComplete (domain : Fin 144) (test : DomTest) (s : State) : Res :=
  completes s (serveHeld (domainStep domain test s))
/-- TEMPO_SETTLE_EXPIRE (R124, R125, R554). -/
def execTempoSettleExpire (rail : Fin 3) (s : State) : Res := completes s (serveHeld (settleExpire rail s))
/-- RELOCK_HOLD_COMPLETE (R118, R554). -/
def execRelockHoldComplete (gen : Fin 6) (s : State) : Res := completes s (serveHeld (relockHoldComplete gen s))
/-- RELOCK_ATTEMPT_FAILED (R119, R554). -/
def execRelockAttemptFailed (gen : Fin 6) (s : State) : Res := completes s (serveHeld (relockAttemptFailed gen s))

/-- UNASSIGNED_ACCESS (R548): ABSENT and zero, with nothing set. -/
def execUnassignedAccess (slot : Fin 8) (addr : Nat) (write : Bool) (s : State) : Res :=
  completes s (if noBlock s (addr % 2 ^ 32 / 4 * 4) && (memberOf s (addr % 2 ^ 32)).isNone then
      takeAcc ⟨slot, addr, if write then some (0, 15) else none, .slot⟩ s
    else s)
/-- HELD_BLOCK_ACCESS (R554). -/
def execHeldBlockAccess (slot : Fin 8) (addr : Nat) (write : Option (Nat × Nat)) (s : State) : Res :=
  completes s (takeAcc ⟨slot, addr, write, .slot⟩ s)
/-- LATCHED_LOW_READ (R130, Table 24-6). -/
def execLatchedLowRead (slot : Fin 8) (timeline : Bool) (s : State) : Res :=
  completes s (takeAcc ⟨slot, if timeline then 0x61000C else 0x20004, none, .slot⟩ s)

/-- A line of a console whose grove is ready, served by Heartwood's firmware (R168, R189, R195). -/
def onConsole (u : Nat) (f : Nat → State → State) (s : State) : State :=
  match slotOfConsole s u with
  | some slot => if firmwareRuns s && s.isSet (R.GROVE_STATUS.READY slot) && !isPruned s (0x5000 + u) then f slot s else s
  | none => s
/-- CONSOLE_PEEK (R168). -/
def execConsolePeek (uart : Fin 4) (addr : Nat) (s : State) : Res :=
  completes s (onConsole uart (fun slot => takeAcc ⟨slot, addr % 2 ^ 32, none, .console⟩) s)
/-- CONSOLE_POKE (R168). -/
def execConsolePoke (uart : Fin 4) (addr value : Nat) (s : State) : Res :=
  completes s (onConsole uart (fun slot => takeAcc ⟨slot, addr % 2 ^ 32, some (value % 2 ^ 32, 15), .console⟩) s)
/-- CONSOLE_MAIL (R165, R168): the reply line follows the reply. -/
def execConsoleMail (uart : Fin 4) (op tag : Nat) (body : List Nat) (s : State) : Res :=
  completes s (onConsole uart (fun slot s =>
    sendMail slot ⟨1, op % 256, tag % 256, body.length, (body.take 248).map (· % 256), none, true⟩ (activity s)) s)
/-- CONSOLE_BAD_LINE (R168). -/
def execConsoleBadLine (uart : Fin 4) (s : State) : Res :=
  completes s (onConsole uart (fun _ s => s.emit (.console uart (asciiOf "no 02"))) s)

end Sys2Proof.Machine
end

