-- ==== Sys2Proof/Machine/RbpDoor.lean ====
section
/-! DEFINITION. What a Retro Bus Port's window does beyond the port itself: the byte registers, reads of atomic registers, the
answers to indirect accesses, and the doorbells (chapter 12); and the two general register commands. -/
namespace Sys2Proof.Machine

/-- What a port drives for bytes of a word from byte i. -/
def driveBytes (p i n word : Nat) (s : State) : State :=
  s.emit (.bus p (linesOf s p i ((List.range n).map (fun k => word / 2 ^ (8 * (i + k)) % 256))))
/-- A bus read of an atomic register (R244): byte 0 copies it into the read hold; the hold is what is returned. A read of
IND_DATA may issue the read itself or consume the value (R247). -/
def atomicRead (p off n : Nat) (fs : List Fld) (s : State) : State :=
  let reg := off / 4 * 4
  let i := off % 4
  if reg = 0x0C && i = 0 && !clockedMode s p && s.isSet (R.IND_CTRL.DIRECT p) && !s.isSet (R.IND_STATUS.BUSY p) && !s.isSet (R.IND_STATUS.VALID p) then
    issueRead p true (changeRbp p (fun x => { x with waiting := some (.read n) }) s)
  else
    let s1 := if i = 0 then changeRbp p (fun x => { x with readHold := fieldsWord s (fs.filter (fun f => f.acc != .wo)) }) s else s
    let s2 := driveBytes p i n (rbpSt s1 p).readHold s1
    if reg = 0x0C && 4 ≤ i + n then consumeInd p s2 else s2
/-- The word of a byte register or a fixed one at a window offset (Table 12-6). -/
def windowWord (s : State) (p slot reg : Nat) : Nat :=
  match reg with
  | 0x00 => 0x52420001 + 2 ^ 8 * p
  | 0x04 => 16 * b2n ((rbpSt s p).dma = 2) + 8 * b2n (inBuffer (rbpSt s p) = 0) + 4 * b2n (rbpNmiOut s p) + 2 * b2n (rbpIrqOut s p)
      + b2n (s.isSet (R.GROVE_STATUS.READY slot))
  | 0x10 => fieldsWord s (R.IND_CTRL.all p)
  | 0x18 => fieldsWord s (R.IND_STATUS.all p)
  | 0x1C => winIrq s p
  | 0x24 => fieldsWord s (R.DOORBELL_STATUS.all p)
  | 0x34 => fieldsWord s (R.PAGE_STATUS.all p)
      + 2 * b2n ((rbpSt s p).issues.any (fun i => match i with | .through _ _ => true | _ => false))
  | 0x44 => fieldsWord s (R.DMA_REGION.all p)
  | 0x50 => fieldsWord s ((R.DMA_CTRL.all p).filter (fun f => f.acc = .rw))
  | _ => 0
/-- The porch word behind a register of the control area cannot be corrected (R242, R258). -/
def porchLost (s : State) (p off : Nat) : Bool :=
  match eccRead (Tab.look 0 s.bufEcc (porchWord p off)) (porchData s p off) with | .uncorrectable => true | _ => false
/-- A register of the control area whose porch word is lost reads as zero (R258); byte 0 of an atomic one takes that into the
read hold (R244). -/
def lostRead (p off n : Nat) (s : State) : State :=
  let hold := off % 4 = 0 && (atomicFields p (off / 4 * 4)).isSome
  driveBytes p (off % 4) n 0 (if hold then changeRbp p (fun x => { x with readHold := 0 }) s else s)
/-- A bus read of n bytes at a window offset, served from the porch (R242). -/
def windowRead (p slot off n : Nat) (s : State) : State :=
  if n = 0 then s
  else if 0x100 ≤ off then (sensePorch p off n s).emit (.bus p (linesOf s p off (porchBytes s p off n)))
  else if porchLost s p off then lostRead p off n (sensePorch p off n s)
  else match atomicFields p (off / 4 * 4) with
    | some fs => atomicRead p off n fs (sensePorch p off n s)
    | none => driveBytes p (off % 4) n (windowWord s p slot (off / 4 * 4)) (sensePorch p off n s)

/-- The bytes of one write to a byte register of the window, as a word and the bits they cover (Table 12-6): GO and CANCEL act
once every byte is stored (R254). -/
def byteWrite (p reg w m : Nat) (s : State) : State :=
  let port : Fin 2 := Fin.ofNat 2 p
  let put (fs : List Fld) : State := writeFields fs (andNot (fieldsWord s (fs.filter (fun f => f.acc = .rw))) m ||| w) s
  match reg with
  | 0x10 => put (R.IND_CTRL.all p)
  | 0x14 => if bit w 0 then after s (execIndCmdRead port s) else s
  | 0x18 => put (R.IND_STATUS.all p)
  | 0x1C => after s (execWinIrqClear port w s)
  | 0x24 => put (R.DOORBELL_STATUS.all p)
  | 0x34 => put (R.PAGE_STATUS.all p)
  | 0x38 => if bit w 0 then after s (execRefill port s) else s
  | 0x44 => put (R.DMA_REGION.all p)
  | 0x50 =>
    let s1 := put (R.DMA_CTRL.all p)
    if bit w 0 then after s1 (execDmaGo port (bit w 1) (bit w 3) s1)
    else if bit w 3 then served p (fun slot s => cancelFree p slot s) s1
    else s1
  | _ => s
/-- A bus write of bytes at a window offset (R242 to R246); the porch word behind the control area is stored anew. -/
def windowWrite (p off : Nat) (bs : List Nat) (s0 : State) : State :=
  let s := if off < 0x100 then setBufEcc (porchWord p off) 0 s0 else s0
  if bs.isEmpty then s0
  else if 0x800 ≤ off then (if off + bs.length ≤ 0x1000 then post p (.view off bs) s else s)
  else if 0x100 ≤ off then putPorchList p off bs s
  else match atomicFields p (off / 4 * 4) with
    | some _ => atomicWrite p off bs s
    | none => byteWrite p (off / 4 * 4) (leVal bs * 2 ^ (8 * (off % 4))) ((2 ^ (8 * bs.length) - 1) * 2 ^ (8 * (off % 4))) s

/-- REGISTER_WRITE (R5 to R8, R35, R43, R61, R243, R505, R553 to R555). -/
def execRegisterWrite (path : RegPath) (value byteEn : Nat) (s : State) : Res :=
  completes s (match path with
    | .spine slot addr arrival => onArrival arrival (takeAcc ⟨slot, addr, some (value % 2 ^ 32, byteEn), .slot⟩) s
    | .window port offset =>
      window port (fun _ s =>
        let b := lanesIn s port (offset % 4096) value byteEn
        windowWrite port b.1 b.2 s) s)
/-- REGISTER_READ (R5, R43, R61, R243, R505, R553, R554). -/
def execRegisterRead (path : RegPath) (count : Nat) (s : State) : Res :=
  completes s (match path with
    | .spine slot addr arrival => onArrival arrival (takeAcc ⟨slot, addr, none, .slot⟩) s
    | .window port offset =>
      window port (fun slot s =>
        let b := lanesOut s port (offset % 4096) count
        windowRead port slot b.1 b.2 s) s)
/-- ATOMIC_REGISTER_READ (R244). -/
def execAtomicRegisterRead (port : Fin 2) (offset count : Nat) (s : State) : Res :=
  completes s (window port (fun slot s =>
    let b := lanesOut s port offset count
    match atomicFields port (b.1 / 4 * 4) with
    | some _ => windowRead port slot b.1 b.2 s
    | none => s) s)

/-- How an indirect access ends (R247, R248, R505): its STATUS, or none under R65. A direct read that no longer waits
discards its answer. -/
def endIndirect (p : Nat) (write direct waits : Bool) (status : Option Nat) (v : Nat) (s : State) : State :=
  let s1 := issued p s
  let s2 := match status with
    | none => s1.on (R.IND_STATUS.TIMEOUT p)
    | some 1 => s1.on (R.IND_STATUS.REFUSED p)
    | some 2 => s1.on (R.IND_STATUS.ABSENT p)
    | _ => s1
  if write then (if status = none || status = some 1 then s2.wr (R.IND_DATA.DATA p) 0 else s2)
  else
    let s3 := s2.off (R.IND_STATUS.BUSY p)
    if direct && !waits then s3
    else
      let val := if status = some 0 then v else 0
      let s4 := s3.wr (R.IND_DATA.DATA p) val
      let s5 := if status.isSome then s4.on (R.IND_STATUS.VALID p) else s4
      if waits then
        driveBytes p 0 (match (rbpSt s p).waiting with | some (.read n) => n | _ => 1) val (changeRbp p (fun x => { x with waiting := none, readHold := val }) s5)
      else s5
/-- The head of what a port issues has gone to another member. -/
def awaitRemote (p : Nat) (write direct waits : Bool) (s : State) : State :=
  changeRbp p (fun x => { x with issues := .remote write direct waits :: x.issues.drop 1 }) s
/-- INDIRECT_ANSWER (R247, R248, R505, R554). -/
def execIndirectAnswer (port : Fin 2) (timeout : Bool) (s : State) : Res :=
  let p := port.val
  completes s (match (rbpSt s p).issues, slotOfRbp s p with
    | .regRead a d w :: _, some slot =>
      if timeout then endIndirect p false d w none 0 (spineTimedOut s)
      else if heldBlock s a then s
      else
        let r := readReg slot a 8 .slot s
        (match r.1 with | some st => endIndirect p false d w (some st) r.2.1 r.2.2 | none => awaitRemote p false d w r.2.2)
    | .regWrite a be v :: _, some slot =>
      if timeout then endIndirect p true false false none 0 (spineTimedOut s)
      else if heldBlock s a then s
      else
        let r := writeReg slot a v be 8 .slot s
        (match r.1 with | some st => endIndirect p true false false (some st) 0 r.2.2 | none => awaitRemote p true false false r.2.2)
    | .remote wr d w :: _, some slot => if timeout then endIndirect p wr d w none 0 (forgetFar slot wr (spineTimedOut s)) else s
    | .void :: _, some slot => if timeout then issued p (forgetFar slot false (spineTimedOut s)) else s
    | _, _ => s)

/-- The doorbell under way, when its OP, TARGET, COUNT and FIRST allow its operation (R249). -/
def withDoor (p : Nat) (f : Nat → Door → State → State) (s : State) : State :=
  match (rbpSt s p).door, slotOfRbp s p with
  | some d, some slot => if doorFits s d && (rbpSt s p).issues.head? = some .door then f slot d s else s
  | _, _ => s
/-- The k-th staged slot of 32 bytes. -/
def stagedSlot (d : Door) (k : Nat) : List Nat := (d.staged.drop (32 * k)).take 32
/-- Descriptors enter the ring in slot order while it has room (R249): how many. -/
def sendStrokes (n slot : Nat) : List (List Nat) → Nat → State → Nat × State
  | [], k, s => (k, s)
  | bs :: r, k, s =>
    if ringRoom s n slot then
      let c := s.rd (R.STK_PROD.COUNT n slot)
      sendStrokes n slot r (k + 1) (writeProd n slot ((c + 1) % 65536) (wrList (R.STK_ENTRY.BYTES n slot (c % ringSize s slot)) 0 (wordsOf 8 bs) s))
    else (k, s)
/-- STROKE (Table 12-7). -/
def doorStroke (p slot : Nat) (d : Door) (s : State) : State :=
  if !listedOnDrum s slot d.target then endDoor p 3 0 true (refuse slot (drumBase d.target + 0x50100) s)
  else
    let r := sendStrokes d.target slot ((List.range d.count).map (stagedSlot d)) 0 (activity s)
    endDoor p (if r.1 = d.count then 0 else 2) r.1 false r.2
/-- TALLY (Table 12-7). -/
def doorTally (p slot : Nat) (d : Door) (s : State) : State :=
  let tail := s.rd (R.TALLY_TAIL.COUNT slot)
  let n := min d.count ((s.rd (R.TALLY_HEAD.COUNT slot) + 65536 - tail) % 65536)
  let size := 2 ^ tallyDepth s slot
  let s1 := (List.range n).foldl (fun t i =>
    putPorchList p (porchSlot (d.first + i)) ((List.range 8).flatMap (fun j => leBytes 4 (s.rd (R.TALLY_ENTRY.BYTES slot ((tail + i) % size) j)))) t)
    (activity s)
  endDoor p 0 n false (s1.wr (R.TALLY_TAIL.COUNT slot) ((tail + n) % 65536))
/-- A queue's doorbell is refused: R44 applies, with no register address of its own (the address is a free value). -/
def refuseDoor (p slot : Nat) (s : State) : State := endDoor p 3 0 true (refuse slot (s.freeVal 0 % 2 ^ 32) (s.drew 1))
/-- QUEUE_PULL (R289). -/
def doorPull (p slot : Nat) (d : Door) (s : State) : State :=
  match sideCheck s slot d.target false with
  | .bad => endDoor p 1 0 true s
  | .refused => refuseDoor p slot s
  | .ok =>
    let r := pullRecords slot d.target d.count (activity s)
    endDoor p 0 r.1.length false ((r.1.zipIdx).foldl (fun t e => putPorchList p (porchSlot (d.first + e.2)) e.1 t) r.2)
/-- QUEUE_PUSH (R290). -/
def doorPush (p slot : Nat) (d : Door) (s : State) : State :=
  match sideCheck s slot d.target true with
  | .bad => endDoor p 1 0 true s
  | .refused => refuseDoor p slot s
  | .ok =>
    let r := pushRecords slot d.target ((List.range d.count).map (stagedSlot d)) 0 (activity s)
    endDoor p r.2.1 r.1 r.2.2.1 r.2.2.2
/-- MAILBOX (Table 12-7): the request goes out once; its reply ends the doorbell. -/
def doorMail (p slot : Nat) (d : Door) (s : State) : State :=
  let via := 2 + 64 * p + d.first
  match mailOf s slot with
  | some _ => endDoor p 6 0 true s
  | none => issued p (sendMail slot (mailFrom via d.staged) (activity s))
/-- The operation of the doorbell under way, or ERROR BAD_OP. -/
def runDoor (p : Nat) (ops : List Nat) (s : State) : State :=
  withDoor p (fun slot d s =>
    if !ops.contains d.op then s
    else match d.op with
      | 1 => doorStroke p slot d s
      | 2 => doorTally p slot d s
      | 3 => doorPull p slot d s
      | 4 => doorPush p slot d s
      | _ => doorMail p slot d s) s
/-- A doorbell that Table 12-7 gives no operation ends ERROR, BAD_OP. -/
def badDoor (p : Nat) (s : State) : State :=
  match (rbpSt s p).door with
  | some d => if doorFits s d then s else endDoor p 1 0 true s
  | none => s

/-- DOORBELL_STROKE (R249, R250). -/
def execDoorbellStroke (port : Fin 2) (s : State) : Res := completes s (runDoor port [1] s)
/-- DOORBELL_TALLY (R249, R250). -/
def execDoorbellTally (port : Fin 2) (s : State) : Res := completes s (runDoor port [2] s)
/-- QUEUE_PULL (R289). -/
def execQueuePull (port : Fin 2) (s : State) : Res := completes s (runDoor port [3] s)
/-- QUEUE_PUSH (R290). -/
def execQueuePush (port : Fin 2) (s : State) : Res := completes s (runDoor port [4] s)
/-- DOORBELL_MAILBOX (R249, R259). -/
def execDoorbellMailbox (port : Fin 2) (s : State) : Res := completes s (runDoor port [5] s)
/-- DOORBELL_BAD_OP (R249). -/
def execDoorbellBadOp (port : Fin 2) (s : State) : Res := completes s (badDoor port s)
/-- DOORBELL_DONE (R249): whichever operation is under way finishes; MAILBOX does with its reply. -/
def execDoorbellDone (port : Fin 2) (s : State) : Res := completes s (badDoor port (runDoor port [1, 2, 3, 4, 5] s))

end Sys2Proof.Machine
end

