-- ==== Sys2Proof/Machine/Usb.lean ====
section
/-! DEFINITION. The vendor control function: register access over USB (R267, Table 13-4). -/
namespace Sys2Proof.Machine

/-- A vendor request's wLength is allowed. -/
def vendorLength (n : Nat) : Bool := 0 < n && n ≤ 256 && n % 4 = 0
/-- The address that wValue and wIndex give. -/
def vendorAddr (value index : Nat) : Nat := value % 65536 + 65536 * (index % 65536)
/-- VENDOR_REG_READ (R267): the data stage follows once every word is answered. -/
def execVendorRegRead (slot : Fin 8) (value index length : Nat) (s : State) : Res :=
  completes s (if !upActive s slot then s
    else if !vendorLength length || value % 4 != 0 then s.emit (.usbStall slot)
    else
      (List.range (length / 4)).foldl (fun t k => takeAcc ⟨slot, vendorAddr value index + 4 * k, none, .usb k⟩ t)
        { s with vendor := Tab.put [] s.vendor slot (List.replicate (length / 4) none) })
/-- VENDOR_REG_WRITE (R267). -/
def execVendorRegWrite (slot : Fin 8) (value index : Nat) (words : List Nat) (s : State) : Res :=
  completes s (if !upActive s slot then s
    else if !vendorLength (4 * words.length) || value % 4 != 0 then s.emit (.usbStall slot)
    else
      (words.zipIdx).foldl (fun t e => takeAcc ⟨slot, vendorAddr value index + 4 * e.2, some (e.1 % 2 ^ 32, 15), .usb e.2⟩ t) s)
/-- VENDOR_REQUEST_STALL (R267): another bRequest, a bad length or a bad address. -/
def execVendorRequestStall (slot : Fin 8) (request value length : Nat) (s : State) : Res :=
  completes s (if upActive s slot && ((request != 0xB1 && request != 0xB2) || !vendorLength length || value % 4 != 0) then s.emit (.usbStall slot)
    else s)

end Sys2Proof.Machine
end

