-- ==== Sys2Proof/Machine/Frames.lean ====
section
/-! DEFINITION. Sequenced frames that arrive (R481, R490): forwarded, or delivered here as spine packets, tallies, trunk
requests and their data. -/
namespace Sys2Proof.Machine

/-- The 9-byte flits of a CONTROL frame's body (Table 23-6). -/
def flitsOf (body : List Nat) : List Nat := (List.range (body.length / 9)).map (fun i => leVal ((body.drop (9 * i)).take 9))
/-- The answer to an access that this member sent to another one (R505): a refusal is R44's here. An answer that no access
waits for is discarded without effect (R65). -/
def rootAnswer (m slot : Nat) (h : Header) (write : Bool) (v : Nat) (s : State) : State :=
  match s.stack.far.find? (fun x => x.slot = slot && x.dest = m && x.num = h.id && x.write = write) with
  | none => s
  | some x =>
    let s0 := putStack { s.stack with far := s.stack.far.erase x } s
    let s1 := if h.status = 1 then refuse slot (0x80000000 + 0x10000000 * m + x.addr) s0 else s0
    match x.via with
    | .usb k => if write then s1 else fillVendor slot k (if h.status = 0 then v else 0) s1
    | .console => consoleReply slot write v s1
    | .member _ _ => s1
    | .slot =>
      match rbpOf s slot with
      | some p =>
        (match (rbpSt s1 p).issues with
        | .remote wr d w :: _ => endIndirect p wr d w (some h.status) v s1
        | .void :: _ => issued p s1
        | _ => s1)
      | none => s1.emit (.answer slot h.status v)
/-- A spine packet of a grove re-enters the spine (R490): a register access under the grove's slot here, an answer, or
interrupt bits for its root (R53). An access of a grove without a slot here is refused (DEDUCED from R62). -/
def servePacket (m g : Nat) (fs : List Nat) (s : State) : State :=
  let h := headerOf (flitData (fs.headD 0))
  let v := flitData (fs.getD 1 0) % 2 ^ 32
  receive fs (packetMalformed fs) (fun s =>
    match slotOf s g with
    | some slot =>
      (match h.op with
      | 1 => takeAcc ⟨slot, h.addr % 2 ^ 32, none, .member m h.id⟩ s
      | 2 => takeAcc ⟨slot, h.addr % 2 ^ 32, some (v, h.byteEn), .member m h.id⟩ s
      | 3 => rootAnswer m slot h false v s
      | 4 => if h.id = ownWriteId then s else rootAnswer m slot h true 0 s
      | 5 => arriveAccess { accessOf fs false [] with slot := slot } s
      | 9 => (List.range 9).foldl (fun t k => if bit v k then setIrq slot k t else t) s
      | _ => s)
    | none =>
      if h.op = 1 || h.op = 2 then
        pumpAll (sendTo m (packetFrames s m 0 g (mkPacket 0 ⟨h.addr, 0, 1, h.id, 12, h.op + 2⟩ (if h.op = 1 then [0] else []))) s)
      else s) s

/-- The tally of a request of this member arrives (R17, R214); that of a cancelled one is discarded (R521). -/
def takeRemoteTally (id : Nat) (fs : List Nat) (s : State) : State :=
  receive fs (packetMalformed fs || (headerOf (flitData (fs.headD 0))).op != 11) (fun s =>
    match s.requests.find? (fun x => x.id = id && !x.lost) with
    | some x =>
      let t := tallyOf (((fs.drop 1).take 4).flatMap (fun f => leBytes 8 (flitData f)))
      let s1 := { s with requests := s.requests.filter (fun y => y.id != id) }
      releaseRequests (endRequest 12 x { t with flags := t.flags ||| 1 } s1)
    | none => s) s
/-- A CONTROL frame for this member (R490): a spine packet, which a second frame may continue, a tally, or the header of a
trunk request. -/
def takeControl (f : List Nat) (s : State) : State :=
  let m := frameSource f
  let id := frameId f
  let first := frameFlag f 0
  let last := frameFlag f 1
  if id = 0 || issuerOf id = ownMember s then
    let fs := (if first then [] else Tab.look [] s.stack.parts m) ++ flitsOf (frameBody f)
    if !last then putStack { s.stack with parts := Tab.put [] s.stack.parts m fs } s
    else
      let s1 := putStack { s.stack with parts := Tab.put [] s.stack.parts m [] } s
      if id = 0 then servePacket m (frameGrove f) fs s1 else takeRemoteTally id fs s1
  else if first then { s with inbox := s.inbox ++ [⟨id, frameGrove f, frameBody f, [], last⟩] }
  else s

/-- The absolute index of a unit whose last frame's UNIT is given: k frames a unit, units in order from `least`. -/
def unitIndex (least k unit : Nat) : Nat :=
  let base := least * k
  (base + (unit + 131072 - (k - 1) - base % 65536) % 65536) / k
/-- A unit of a logical unit's stroke on another member's drum: the host is given the units up to the first that failed, the
TOC and sub-channel records as the answers of Table 21-6 (R443, R444, R508). -/
def giveFar (x : Request) (st : Stroke) (i : Nat) (bs : List Nat) (s : State) : State :=
  let cdb := lunCdb s x.slot x.lun
  let entry (e : List Nat) : TocEntry := ⟨byteAt e 0, byteAt e 1, byteAt e 2, word e 4⟩
  let es := (List.range (byteAt bs 2)).map (fun k => entry (bs.drop (8 + 8 * k)))
  let data : List Nat := match st.op with
    | 1 => bs
    | 2 => tocAnswer (byteAt bs 0) (byteAt bs 1) ((es.map (·.session)).foldl max 0) cdb es
    | 3 => subAnswer (bit (s.freeVal 0) 0) cdb bs
    | _ => []
  let s1 := if st.op = 3 then s.drew 1 else s
  if i != x.given || x.cancelled then s1
  else
    let s2 := { s1 with requests := s1.requests.map (fun y => if y.id = x.id then { y with given := i + 1 } else y) }
    if data = [] then s2 else s2.emit (.usb x.slot data)
/-- A frame of a stroke's data reaches the member that requested it (R508): a unit complete is written to the region, and
acknowledged once the write is OK. -/
def takeUnitFrame (f : List Nat) (s : State) : State :=
  let id := frameId f
  match s.requests.find? (fun x => x.id = id) with
  | none => s
  | some x =>
    let got := x.got ++ frameBody f
    let keep := fun (g : List Nat) (u : Nat) (s : State) =>
      { s with requests := s.requests.map (fun y => if y.id = id then { y with got := g, unit := u } else y) }
    if !frameFlag f 1 then keep got x.unit s
    else
      let st := freshStroke x.slot x.bytes none none
      let i := unitIndex x.unit ((got.length + 255) / 256) (leVal ((f.drop 24).take 2))
      let s1 := keep [] (i + 1) s
      if x.lun.isSome then
        sendBrief x.dest 7 ((groveOf s x.slot).getD 0) (leBytes 4 id ++ leBytes 4 i) (giveFar x st i got s1)
      else match regionAddr s1 x.slot st.region (st.offset + i * got.length) got.length with
      | none => memRefuse x.slot s1
      | some a =>
        let w := unitWrite x.slot a got s1
        if w.1.err = 0 && !w.1.refused then sendBrief x.dest 7 ((groveOf s x.slot).getD 0) (leBytes 4 id ++ leBytes 4 i) w.2 else w.2
/-- A PAYLOAD frame for this member (R490): data of a request of its own, or of one that it carries out. -/
def takePayload (f : List Nat) (s : State) : State :=
  if issuerOf (frameId f) = ownMember s then takeUnitFrame f s
  else
    { s with inbox := s.inbox.map (fun d =>
        if d.id = frameId f && !d.whole then { d with units := d.units ++ [frameBody f], whole := frameFlag f 1 } else d) }

/-- A sequenced frame arrives (R480 to R483, R489, R490). -/
def takeFrame (p ty : Nat) (frame : List Nat) (deliver : List Nat → State → State) (s : State) : State :=
  match openFrame p ty frame s with
  | .drop t => t
  | .good f t =>
    let t1 := takeHeader p f t
    if !(portState t1 p = 3 || portState t1 p = 5) then t1
    else
      let r := sequence p f t1
      if !r.1 then pumpAll r.2
      else
        let t2 := if dormantState r.2 = 1 then ringBell (20 + lowestLane r.2 p) false r.2 else r.2
        pumpAll (if frameDest f = ownMember s then freeBuffer p (decide (ty = 2)) (deliver f t2) else forwardFrame p f t2)
/-- PAYLOAD (R481, R490). -/
def execPayload (port : Fin 4) (frame : List Nat) (s : State) : Res := completes s (takeFrame port 1 frame takePayload s)
/-- CONTROL (R481, R490). -/
def execControl (port : Fin 4) (frame : List Nat) (s : State) : Res := completes s (takeFrame port 2 frame takeControl s)

end Sys2Proof.Machine
end

