-- ==== Sys2Proof/Machine/Scsi.lean ====
section
/-! DEFINITION. The SCSI commands of the upstream disc function as they arrive (R443, Table 21-6). -/
namespace Sys2Proof.Machine

/-- Operation codes of Table 21-6. -/
def scsiOps : List Nat := [0x00, 0x03, 0x12, 0x1B, 0x1E, 0x25, 0x28, 0xA8, 0xBE, 0x2B, 0x42, 0x43, 0x45, 0x47, 0x46, 0x4A, 0x5A, 0xAD]
/-- A Bulk-Only command is in flight (R443): interface 0 stands at alternate 0, and the endpoint that takes command blocks takes
none until the command is answered. -/
def bulkBusy (s : State) (slot : Nat) : Bool :=
  (usbDevOf s slot true).alt = 0 && (List.range 16).any (fun k => (lunOf s slot k).cmds != [])
/-- A SCSI command arrives at a logical unit (R443): under UAS a seventeenth is answered TASK SET FULL. -/
def scsiArrives (fits : Nat → Bool) (slot l tag : Nat) (cdb : List Nat) (s : State) : State :=
  match (lunDrums s slot)[l]? with
  | some n =>
    if !functionRuns s slot || !fits (byteAt cdb 0) || bulkBusy s slot then s
    else
      let u := lunOf s slot l
      if u.cmds.length ≥ 16 then s.emit (.scsi slot l tag 40)
      else releaseRequests (settleLun 600 slot l (putLun slot l { u with drum := n.2, far := n.1, cmds := u.cmds ++ [⟨tag, cdb⟩] } s))
  | none => s
def oneOp (op : Nat) : Nat → Bool := fun o => o = op
def execTestUnitReady (slot : Fin 8) (lun : Fin 16) (tag : Nat) (cdb : List Nat) (s : State) : Res := completes s (scsiArrives (oneOp 0x00) slot lun tag cdb s)
def execRequestSense (slot : Fin 8) (lun : Fin 16) (tag : Nat) (cdb : List Nat) (s : State) : Res := completes s (scsiArrives (oneOp 0x03) slot lun tag cdb s)
def execInquiry (slot : Fin 8) (lun : Fin 16) (tag : Nat) (cdb : List Nat) (s : State) : Res := completes s (scsiArrives (oneOp 0x12) slot lun tag cdb s)
def execStartStopUnit (slot : Fin 8) (lun : Fin 16) (tag : Nat) (cdb : List Nat) (s : State) : Res := completes s (scsiArrives (oneOp 0x1B) slot lun tag cdb s)
def execPreventAllowMediumRemoval (slot : Fin 8) (lun : Fin 16) (tag : Nat) (cdb : List Nat) (s : State) : Res := completes s (scsiArrives (oneOp 0x1E) slot lun tag cdb s)
def execReadCapacity10 (slot : Fin 8) (lun : Fin 16) (tag : Nat) (cdb : List Nat) (s : State) : Res := completes s (scsiArrives (oneOp 0x25) slot lun tag cdb s)
def execRead10 (slot : Fin 8) (lun : Fin 16) (tag : Nat) (cdb : List Nat) (s : State) : Res := completes s (scsiArrives (oneOp 0x28) slot lun tag cdb s)
def execRead12 (slot : Fin 8) (lun : Fin 16) (tag : Nat) (cdb : List Nat) (s : State) : Res := completes s (scsiArrives (oneOp 0xA8) slot lun tag cdb s)
def execReadCd (slot : Fin 8) (lun : Fin 16) (tag : Nat) (cdb : List Nat) (s : State) : Res := completes s (scsiArrives (oneOp 0xBE) slot lun tag cdb s)
def execSeek10 (slot : Fin 8) (lun : Fin 16) (tag : Nat) (cdb : List Nat) (s : State) : Res := completes s (scsiArrives (oneOp 0x2B) slot lun tag cdb s)
def execReadSubChannel (slot : Fin 8) (lun : Fin 16) (tag : Nat) (cdb : List Nat) (s : State) : Res := completes s (scsiArrives (oneOp 0x42) slot lun tag cdb s)
def execReadTocPmaAtip (slot : Fin 8) (lun : Fin 16) (tag : Nat) (cdb : List Nat) (s : State) : Res := completes s (scsiArrives (oneOp 0x43) slot lun tag cdb s)
def execPlayAudio10 (slot : Fin 8) (lun : Fin 16) (tag : Nat) (cdb : List Nat) (s : State) : Res := completes s (scsiArrives (oneOp 0x45) slot lun tag cdb s)
def execPlayAudioMsf (slot : Fin 8) (lun : Fin 16) (tag : Nat) (cdb : List Nat) (s : State) : Res := completes s (scsiArrives (oneOp 0x47) slot lun tag cdb s)
def execGetConfiguration (slot : Fin 8) (lun : Fin 16) (tag : Nat) (cdb : List Nat) (s : State) : Res := completes s (scsiArrives (oneOp 0x46) slot lun tag cdb s)
def execGetEventStatusNotification (slot : Fin 8) (lun : Fin 16) (tag : Nat) (cdb : List Nat) (s : State) : Res := completes s (scsiArrives (oneOp 0x4A) slot lun tag cdb s)
def execModeSense10 (slot : Fin 8) (lun : Fin 16) (tag : Nat) (cdb : List Nat) (s : State) : Res := completes s (scsiArrives (oneOp 0x5A) slot lun tag cdb s)
def execReadDiscStructure (slot : Fin 8) (lun : Fin 16) (tag : Nat) (cdb : List Nat) (s : State) : Res := completes s (scsiArrives (oneOp 0xAD) slot lun tag cdb s)
def execScsiUnsupported (slot : Fin 8) (lun : Fin 16) (tag : Nat) (cdb : List Nat) (s : State) : Res :=
  completes s (scsiArrives (fun o => !scsiOps.contains o) slot lun tag cdb s)

end Sys2Proof.Machine
end

