-- ==== Sys2Proof/Machine/Dispatch.lean ====
section
/-! DEFINITION. The dispatch: one arm per command, each one direct call of its meaning. -/
namespace Sys2Proof.Machine

def exec (i : Instr) (s : State) : Host.Outcome State Fault Refusal :=
  match i with
  | .registerWrite path value byteEn => Sys2Proof.Machine.execRegisterWrite path value byteEn s
  | .unassignedAccess slot addr write => Sys2Proof.Machine.execUnassignedAccess slot addr write s
  | .heldBlockAccess slot addr write => Sys2Proof.Machine.execHeldBlockAccess slot addr write s
  | .canopyStartLoad => Sys2Proof.Machine.execCanopyStartLoad s
  | .checkStream slot area => Sys2Proof.Machine.execCheckStream slot area s
  | .loadStream slot area => Sys2Proof.Machine.execLoadStream slot area s
  | .sealStream slot => Sys2Proof.Machine.execSealStream slot s
  | .canopyChecksComplete => Sys2Proof.Machine.execCanopyChecksComplete s
  | .canopyNextWrite slot area => Sys2Proof.Machine.execCanopyNextWrite slot area s
  | .canopyStageDataAccess slot write => Sys2Proof.Machine.execCanopyStageDataAccess slot write s
  | .groveRestart slot target => Sys2Proof.Machine.execGroveRestart slot target s
  | .groveRestartDone target => Sys2Proof.Machine.execGroveRestartDone target s
  | .groveVoteWrite slot vote => Sys2Proof.Machine.execGroveVoteWrite slot vote s
  | .eventPacket slot irq arrival => Sys2Proof.Machine.execEventPacket slot irq arrival s
  | .memRead flits => Sys2Proof.Machine.execMemRead flits s
  | .memWrite flits payload => Sys2Proof.Machine.execMemWrite flits payload s
  | .spineTimeout port slot request => Sys2Proof.Machine.execSpineTimeout port slot request s
  | .tallyPacket port slot arrival => Sys2Proof.Machine.execTallyPacket port slot arrival s
  | .tallyAck port slot ack => Sys2Proof.Machine.execTallyAck port slot ack s
  | .memctlTrain slot => Sys2Proof.Machine.execMemctlTrain slot s
  | .memctlTrainingDone good => Sys2Proof.Machine.execMemctlTrainingDone good s
  | .sdramRefresh waiting => Sys2Proof.Machine.execSdramRefresh waiting s
  | .zqCalibration => Sys2Proof.Machine.execZqCalibration s
  | .patrolScrub => Sys2Proof.Machine.execPatrolScrub s
  | .pageJobDone page => Sys2Proof.Machine.execPageJobDone page s
  | .rekey slot region => Sys2Proof.Machine.execRekey slot region s
  | .rekeyPageConverted => Sys2Proof.Machine.execRekeyPageConverted s
  | .sealKeyDraw => Sys2Proof.Machine.execSealKeyDraw s
  | .qualificationWindow count => Sys2Proof.Machine.execQualificationWindow count s
  | .xtalQualTimeout => Sys2Proof.Machine.execXtalQualTimeout s
  | .crystalLost => Sys2Proof.Machine.execCrystalLost s
  | .metroAlarm => Sys2Proof.Machine.execMetroAlarm s
  | .referenceReady => Sys2Proof.Machine.execReferenceReady s
  | .referenceLoss => Sys2Proof.Machine.execReferenceLoss s
  | .referenceRestored => Sys2Proof.Machine.execReferenceRestored s
  | .relockLockAcquired gen => Sys2Proof.Machine.execRelockLockAcquired gen s
  | .relockHoldComplete gen => Sys2Proof.Machine.execRelockHoldComplete gen s
  | .relockAttemptFailed gen => Sys2Proof.Machine.execRelockAttemptFailed gen s
  | .frequencyMonitorTrip gen => Sys2Proof.Machine.execFrequencyMonitorTrip gen s
  | .tempoReqWrite slot rail tempo => Sys2Proof.Machine.execTempoReqWrite slot rail tempo s
  | .tempoPgoodRise rise => Sys2Proof.Machine.execTempoPgoodRise rise s
  | .tempoSettleExpire rail => Sys2Proof.Machine.execTempoSettleExpire rail s
  | .pgoodFall rail => Sys2Proof.Machine.execPgoodFall rail s
  | .pgoodWaitTimeout rail => Sys2Proof.Machine.execPgoodWaitTimeout rail s
  | .domainSetRequest slot domain => Sys2Proof.Machine.execDomainSetRequest slot domain s
  | .domainClearRequest slot domain => Sys2Proof.Machine.execDomainClearRequest slot domain s
  | .domainStepComplete domain test => Sys2Proof.Machine.execDomainStepComplete domain test s
  | .dormantEntryBegin => Sys2Proof.Machine.execDormantEntryBegin s
  | .idleTimerExpire => Sys2Proof.Machine.execIdleTimerExpire s
  | .entryPointComplete => Sys2Proof.Machine.execEntryPointComplete s
  | .entryPointLimit => Sys2Proof.Machine.execEntryPointLimit s
  | .bellRing bell cc => Sys2Proof.Machine.execBellRing bell cc s
  | .unwindComplete => Sys2Proof.Machine.execUnwindComplete s
  | .muffleCountReset bell => Sys2Proof.Machine.execMuffleCountReset bell s
  | .wakeTimerExpire => Sys2Proof.Machine.execWakeTimerExpire s
  | .bellMuffledClear slot bells => Sys2Proof.Machine.execBellMuffledClear slot bells s
  | .hostAccessInDormant port write => Sys2Proof.Machine.execHostAccessInDormant port write s
  | .hwRamUe => Sys2Proof.Machine.execHwRamUe s
  | .bootDecision tables => Sys2Proof.Machine.execBootDecision tables s
  | .firmwareAlive => Sys2Proof.Machine.execFirmwareAlive s
  | .aliveTimerExpire => Sys2Proof.Machine.execAliveTimerExpire s
  | .mailboxSend packet => Sys2Proof.Machine.execMailboxSend packet s
  | .mailboxReply packet => Sys2Proof.Machine.execMailboxReply packet s
  | .mailboxTimeout slot => Sys2Proof.Machine.execMailboxTimeout slot s
  | .mailboxBadRequest slot => Sys2Proof.Machine.execMailboxBadRequest slot s
  | .ping slot => Sys2Proof.Machine.execPing slot s
  | .version slot => Sys2Proof.Machine.execVersion slot s
  | .reportOpen slot fails => Sys2Proof.Machine.execReportOpen slot fails s
  | .reportRead slot => Sys2Proof.Machine.execReportRead slot s
  | .certRead slot => Sys2Proof.Machine.execCertRead slot s
  | .flashErase slot error => Sys2Proof.Machine.execFlashErase slot error s
  | .flashWrite slot error => Sys2Proof.Machine.execFlashWrite slot error s
  | .flashRead slot => Sys2Proof.Machine.execFlashRead slot s
  | .fwDescribe slot error => Sys2Proof.Machine.execFwDescribe slot error s
  | .fwTrial slot => Sys2Proof.Machine.execFwTrial slot s
  | .reboot slot => Sys2Proof.Machine.execReboot slot s
  | .settingsErase slot => Sys2Proof.Machine.execSettingsErase slot s
  | .keepingErase slot => Sys2Proof.Machine.execKeepingErase slot s
  | .extend slot => Sys2Proof.Machine.execExtend slot s
  | .consolePeek uart addr => Sys2Proof.Machine.execConsolePeek uart addr s
  | .consolePoke uart addr value => Sys2Proof.Machine.execConsolePoke uart addr value s
  | .consoleMail uart op tag body => Sys2Proof.Machine.execConsoleMail uart op tag body s
  | .consoleBadLine uart => Sys2Proof.Machine.execConsoleBadLine uart s
  | .dfuDnload alt block data => Sys2Proof.Machine.execDfuDnload alt block data s
  | .dfuManifest => Sys2Proof.Machine.execDfuManifest s
  | .dfuUpload => Sys2Proof.Machine.execDfuUpload s
  | .dfuDetach => Sys2Proof.Machine.execDfuDetach s
  | .hello seq => Sys2Proof.Machine.execHello seq s
  | .beginFrame seq slot total => Sys2Proof.Machine.execBeginFrame seq slot total s
  | .dataFrame seq offset data => Sys2Proof.Machine.execDataFrame seq offset data s
  | .endFrame seq => Sys2Proof.Machine.execEndFrame seq s
  | .boot seq slot => Sys2Proof.Machine.execBoot seq slot s
  | .seedDropBadFrame seq crc => Sys2Proof.Machine.execSeedDropBadFrame seq crc s
  | .seedDropGap => Sys2Proof.Machine.execSeedDropGap s
  | .pwrgdRise strap0 strap1 position => Sys2Proof.Machine.execPwrgdRise strap0 strap1 position s
  | .pwrgdFall => Sys2Proof.Machine.execPwrgdFall s
  | .resetNFall => Sys2Proof.Machine.execResetNFall s
  | .resetNRise => Sys2Proof.Machine.execResetNRise s
  | .groveBringup up => Sys2Proof.Machine.execGroveBringup up s
  | .drumBringup drum inSwitch outSwitch => Sys2Proof.Machine.execDrumBringup drum inSwitch outSwitch s
  | .vbusQueueTurn => Sys2Proof.Machine.execVbusQueueTurn s
  | .rbpModeSwitch port => Sys2Proof.Machine.execRbpModeSwitch port s
  | .strapResponderAccess port write => Sys2Proof.Machine.execStrapResponderAccess port write s
  | .deferredKeepingWrite => Sys2Proof.Machine.execDeferredKeepingWrite s
  | .retryBackoffExpire backoff => Sys2Proof.Machine.execRetryBackoffExpire backoff s
  | .faultWindowClose source => Sys2Proof.Machine.execFaultWindowClose source s
  | .faultQuietExpire source => Sys2Proof.Machine.execFaultQuietExpire source s
  | .faultStickyClear slot word value => Sys2Proof.Machine.execFaultStickyClear slot word value s
  | .unprune slot code => Sys2Proof.Machine.execUnprune slot code s
  | .unpruneDone => Sys2Proof.Machine.execUnpruneDone s
  | .tallyTailWrite slot value => Sys2Proof.Machine.execTallyTailWrite slot value s
  | .idbScan reads => Sys2Proof.Machine.execIdbScan reads s
  | .idbLineTimeout bus => Sys2Proof.Machine.execIdbLineTimeout bus s
  | .release slot bus address => Sys2Proof.Machine.execRelease slot bus address s
  | .rescan slot bus address => Sys2Proof.Machine.execRescan slot bus address s
  | .rescanComplete rescan => Sys2Proof.Machine.execRescanComplete rescan s
  | .idbCmdRefused slot op bus address => Sys2Proof.Machine.execIdbCmdRefused slot op bus address s
  | .atomicRegisterWrite port offset data => Sys2Proof.Machine.execAtomicRegisterWrite port offset data s
  | .indDataCommit port data => Sys2Proof.Machine.execIndDataCommit port data s
  | .indCmdRead port => Sys2Proof.Machine.execIndCmdRead port s
  | .indDataDirectRead access => Sys2Proof.Machine.execIndDataDirectRead access s
  | .indDataConsume port => Sys2Proof.Machine.execIndDataConsume port s
  | .indirectAnswer port timeout => Sys2Proof.Machine.execIndirectAnswer port timeout s
  | .rbpWaitTimeout port => Sys2Proof.Machine.execRbpWaitTimeout port s
  | .rbpProtocolError port => Sys2Proof.Machine.execRbpProtocolError port s
  | .doorbellStroke port => Sys2Proof.Machine.execDoorbellStroke port s
  | .doorbellTally port => Sys2Proof.Machine.execDoorbellTally port s
  | .queuePull port => Sys2Proof.Machine.execQueuePull port s
  | .queuePush port => Sys2Proof.Machine.execQueuePush port s
  | .doorbellMailbox port => Sys2Proof.Machine.execDoorbellMailbox port s
  | .doorbellBadOp port => Sys2Proof.Machine.execDoorbellBadOp port s
  | .doorbellDone port => Sys2Proof.Machine.execDoorbellDone port s
  | .pageCommit port data => Sys2Proof.Machine.execPageCommit port data s
  | .refill port => Sys2Proof.Machine.execRefill port s
  | .pageFillDone port => Sys2Proof.Machine.execPageFillDone port s
  | .pagedViewWrite port offset data => Sys2Proof.Machine.execPagedViewWrite port offset data s
  | .writeThroughAnswer port => Sys2Proof.Machine.execWriteThroughAnswer port s
  | .winIrqClear port bits => Sys2Proof.Machine.execWinIrqClear port bits s
  | .dmaGo port dir cancel => Sys2Proof.Machine.execDmaGo port dir cancel s
  | .dmaCancel port cycles data => Sys2Proof.Machine.execDmaCancel port cycles data s
  | .dmaGrant port => Sys2Proof.Machine.execDmaGrant port s
  | .dmaBurstEnd port data => Sys2Proof.Machine.execDmaBurstEnd port data s
  | .dmaReleaseExpire port => Sys2Proof.Machine.execDmaReleaseExpire port s
  | .dmaGrantTimeout port => Sys2Proof.Machine.execDmaGrantTimeout port s
  | .dmaGrantWithdrawn port cycles data => Sys2Proof.Machine.execDmaGrantWithdrawn port cycles data s
  | .vendorRegRead slot value index length => Sys2Proof.Machine.execVendorRegRead slot value index length s
  | .vendorRegWrite slot value index words => Sys2Proof.Machine.execVendorRegWrite slot value index words s
  | .vendorRequestStall slot request value length => Sys2Proof.Machine.execVendorRequestStall slot request value length s
  | .interruptInPoll slot => Sys2Proof.Machine.execInterruptInPoll slot s
  | .clearTtBuffer slot port buffer => Sys2Proof.Machine.execClearTtBuffer slot port buffer s
  | .resetTt slot port => Sys2Proof.Machine.execResetTt slot port s
  | .getTtState slot port => Sys2Proof.Machine.execGetTtState slot port s
  | .stopTt slot port => Sys2Proof.Machine.execStopTt slot port s
  | .setHubDepth slot depth => Sys2Proof.Machine.execSetHubDepth slot depth s
  | .getPortErrCount slot port => Sys2Proof.Machine.execGetPortErrCount slot port s
  | .setPortPower slot port => Sys2Proof.Machine.execSetPortPower slot port s
  | .clearPortPower slot port => Sys2Proof.Machine.execClearPortPower slot port s
  | .portReset slot port => Sys2Proof.Machine.execPortReset slot port s
  | .bhPortReset slot port => Sys2Proof.Machine.execBhPortReset slot port s
  | .portResetComplete tile result => Sys2Proof.Machine.execPortResetComplete tile result s
  | .portSuspend slot port set => Sys2Proof.Machine.execPortSuspend slot port set s
  | .portLinkState slot port state => Sys2Proof.Machine.execPortLinkState slot port state s
  | .portU1Timeout slot port value => Sys2Proof.Machine.execPortU1Timeout slot port value s
  | .portU2Timeout slot port value => Sys2Proof.Machine.execPortU2Timeout slot port value s
  | .portRemoteWakeMask slot port mask => Sys2Proof.Machine.execPortRemoteWakeMask slot port mask s
  | .forceLinkpmAccept slot port set => Sys2Proof.Machine.execForceLinkpmAccept slot port set s
  | .portTest slot port mode => Sys2Proof.Machine.execPortTest slot port mode s
  | .portIndicator slot port => Sys2Proof.Machine.execPortIndicator slot port s
  | .receiverDetection tile result => Sys2Proof.Machine.execReceiverDetection tile result s
  | .ssDetectTimeout tile => Sys2Proof.Machine.execSsDetectTimeout tile s
  | .usb2Connect tile low => Sys2Proof.Machine.execUsb2Connect tile low s
  | .upTileDetach tile => Sys2Proof.Machine.execUpTileDetach tile s
  | .hubResetByHost slot => Sys2Proof.Machine.execHubResetByHost slot s
  | .lpmToken link token => Sys2Proof.Machine.execLpmToken link token s
  | .u1U2Entry link entry => Sys2Proof.Machine.execU1U2Entry link entry s
  | .globalSuspend slot => Sys2Proof.Machine.execGlobalSuspend slot s
  | .hostResume tile => Sys2Proof.Machine.execHostResume tile s
  | .deviceRemoteWake tile funcWake => Sys2Proof.Machine.execDeviceRemoteWake tile funcWake s
  | .u3ExitLfps tile => Sys2Proof.Machine.execU3ExitLfps tile s
  | .ttSplitDiscard splits => Sys2Proof.Machine.execTtSplitDiscard splits s
  | .scheduleMiss slot => Sys2Proof.Machine.execScheduleMiss slot s
  | .taprootEnumerate slot dev failure => Sys2Proof.Machine.execTaprootEnumerate slot dev failure s
  | .keyboardReport slot handle report => Sys2Proof.Machine.execKeyboardReport slot handle report s
  | .pointerReport slot handle report => Sys2Proof.Machine.execPointerReport slot handle report s
  | .padReport slot handle iface id body => Sys2Proof.Machine.execPadReport slot handle iface id body s
  | .leds slot => Sys2Proof.Machine.execLeds slot s
  | .blockRead slot handle data result => Sys2Proof.Machine.execBlockRead slot handle data result s
  | .blockWrite slot handle acked result => Sys2Proof.Machine.execBlockWrite slot handle acked result s
  | .capacity slot handle blocks size result => Sys2Proof.Machine.execCapacity slot handle blocks size result s
  | .blockRequestDone slot handle => Sys2Proof.Machine.execBlockRequestDone slot handle s
  | .tx slot handle => Sys2Proof.Machine.execTx slot handle s
  | .line slot handle => Sys2Proof.Machine.execLine slot handle s
  | .serialRxData slot handle data => Sys2Proof.Machine.execSerialRxData slot handle data s
  | .serialStateNotify slot handle bits => Sys2Proof.Machine.execSerialStateNotify slot handle bits s
  | .pipeTransfer slot pipe packets retries data => Sys2Proof.Machine.execPipeTransfer slot pipe packets retries data s
  | .pipeTransferEnd slot pipe result => Sys2Proof.Machine.execPipeTransferEnd slot pipe result s
  | .pipeTransferTimeout slot pipe => Sys2Proof.Machine.execPipeTransferTimeout slot pipe s
  | .deviceInfo slot => Sys2Proof.Machine.execDeviceInfo slot s
  | .descriptorRead slot => Sys2Proof.Machine.execDescriptorRead slot s
  | .claim slot => Sys2Proof.Machine.execClaim slot s
  | .pipeOpen slot => Sys2Proof.Machine.execPipeOpen slot s
  | .pipeClose slot => Sys2Proof.Machine.execPipeClose slot s
  | .pipeClearHalt slot => Sys2Proof.Machine.execPipeClearHalt slot s
  | .taprootSuspend slot => Sys2Proof.Machine.execTaprootSuspend slot s
  | .portCycle slot => Sys2Proof.Machine.execPortCycle slot s
  | .taprootDeviceDetach slot gone => Sys2Proof.Machine.execTaprootDeviceDetach slot gone s
  | .taprootRemoteWake slot handle => Sys2Proof.Machine.execTaprootRemoteWake slot handle s
  | .taprootHalt => Sys2Proof.Machine.execTaprootHalt s
  | .taprootRestart => Sys2Proof.Machine.execTaprootRestart s
  | .typecAttach tile cc1 cc2 vbus up => Sys2Proof.Machine.execTypecAttach tile cc1 cc2 vbus up s
  | .typecDetach tile cc1 cc2 vbus => Sys2Proof.Machine.execTypecDetach tile cc1 cc2 vbus s
  | .ccUnsettled tile line2 cls => Sys2Proof.Machine.execCcUnsettled tile line2 cls s
  | .discoverIdentityReply tile vdos fiveAmps => Sys2Proof.Machine.execDiscoverIdentityReply tile vdos fiveAmps s
  | .vconnLimit tile => Sys2Proof.Machine.execVconnLimit tile s
  | .sourceCapabilities tile objs rev3 => Sys2Proof.Machine.execSourceCapabilities tile objs rev3 s
  | .pdRequest tile rdo rev3 => Sys2Proof.Machine.execPdRequest tile rdo rev3 s
  | .psRdy tile => Sys2Proof.Machine.execPsRdy tile s
  | .hardResetReceived tile => Sys2Proof.Machine.execHardResetReceived tile s
  | .unsupportedPdMessage tile rev3 => Sys2Proof.Machine.execUnsupportedPdMessage tile rev3 s
  | .sourceCapsRepeat tile => Sys2Proof.Machine.execSourceCapsRepeat tile s
  | .sourceCapsTimeout tile => Sys2Proof.Machine.execSourceCapsTimeout tile s
  | .ppsRequestTimer tile => Sys2Proof.Machine.execPpsRequestTimer tile s
  | .ppsKeepaliveTimeout tile => Sys2Proof.Machine.execPpsKeepaliveTimeout tile s
  | .transitionWaitEnd tile => Sys2Proof.Machine.execTransitionWaitEnd tile s
  | .vbusSettled tile vbus => Sys2Proof.Machine.execVbusSettled tile vbus s
  | .transitionLimit tile => Sys2Proof.Machine.execTransitionLimit tile s
  | .pdRetriesExhausted tile => Sys2Proof.Machine.execPdRetriesExhausted tile s
  | .ppsToFixed tile => Sys2Proof.Machine.execPpsToFixed tile s
  | .ppsRestore tile => Sys2Proof.Machine.execPpsRestore tile s
  | .voltageLoop tile vout => Sys2Proof.Machine.execVoltageLoop tile vout s
  | .currentLimitLoop tile ibus vbus => Sys2Proof.Machine.execCurrentLimitLoop tile ibus vbus s
  | .ovpTrip tile => Sys2Proof.Machine.execOvpTrip tile s
  | .ocpTrip tile => Sys2Proof.Machine.execOcpTrip tile s
  | .reverseCurrentTrip tile present => Sys2Proof.Machine.execReverseCurrentTrip tile present s
  | .ovpRecovery tile => Sys2Proof.Machine.execOvpRecovery tile s
  | .softStartComplete tile vbus => Sys2Proof.Machine.execSoftStartComplete tile vbus s
  | .softStartLimit tile => Sys2Proof.Machine.execSoftStartLimit tile s
  | .vbusSafeZero tile vbus => Sys2Proof.Machine.execVbusSafeZero tile vbus s
  | .dischargeLimit tile => Sys2Proof.Machine.execDischargeLimit tile s
  | .hardResetHoldExpire tile => Sys2Proof.Machine.execHardResetHoldExpire tile s
  | .moistureTest tile cc1 cc2 sbu1 sbu2 => Sys2Proof.Machine.execMoistureTest tile cc1 cc2 sbu1 sbu2 s
  | .moistureRetest tile cc1 cc2 sbu1 sbu2 => Sys2Proof.Machine.execMoistureRetest tile cc1 cc2 sbu1 sbu2 s
  | .pdInfo slot => Sys2Proof.Machine.execPdInfo slot s
  | .sinkSet slot granted => Sys2Proof.Machine.execSinkSet slot granted s
  | .pdHardResetMailbox slot => Sys2Proof.Machine.execPdHardResetMailbox slot s
  | .recap slot contract => Sys2Proof.Machine.execRecap slot contract s
  | .cableInfo slot => Sys2Proof.Machine.execCableInfo slot s
  | .laserSelect slot drum select => Sys2Proof.Machine.execLaserSelect slot drum select s
  | .laserRampDone drum monitor drive => Sys2Proof.Machine.execLaserRampDone drum monitor drive s
  | .laserRampTimeout drum => Sys2Proof.Machine.execLaserRampTimeout drum s
  | .laserMonitorFault drum monitor drive => Sys2Proof.Machine.execLaserMonitorFault drum monitor drive s
  | .laserPermitFall drum => Sys2Proof.Machine.execLaserPermitFall drum s
  | .laserPermitRise drum => Sys2Proof.Machine.execLaserPermitRise drum s
  | .rfGainAdjust drum envelope gain => Sys2Proof.Machine.execRfGainAdjust drum envelope gain s
  | .rfLevel drum envelope => Sys2Proof.Machine.execRfLevel drum envelope s
  | .coilForce slot drum coil code => Sys2Proof.Machine.execCoilForce slot drum coil code s
  | .coilOvercurrent drum limiting => Sys2Proof.Machine.execCoilOvercurrent drum limiting s
  | .coilOpen drum opened => Sys2Proof.Machine.execCoilOpen drum opened s
  | .focusLost drum sum => Sys2Proof.Machine.execFocusLost drum sum s
  | .trackLost drum te => Sys2Proof.Machine.execTrackLost drum te s
  | .rearm slot drum value => Sys2Proof.Machine.execRearm slot drum value s
  | .reactionEnd drum sum te => Sys2Proof.Machine.execReactionEnd drum sum te s
  | .vmRange drum => Sys2Proof.Machine.execVmRange drum s
  | .vmRestore drum => Sys2Proof.Machine.execVmRestore drum s
  | .driverThermal drum group => Sys2Proof.Machine.execDriverThermal drum group s
  | .driverCooled drum group => Sys2Proof.Machine.execDriverCooled drum group s
  | .calWrite slot drum index value => Sys2Proof.Machine.execCalWrite slot drum index value s
  | .drumheadFrame drum pickup late => Sys2Proof.Machine.execDrumheadFrame drum pickup late s
  | .loadVoice slot drum voice period role predict => Sys2Proof.Machine.execLoadVoice slot drum voice period role predict s
  | .swap slot drum voice period role predict keep => Sys2Proof.Machine.execSwap slot drum voice period role predict keep s
  | .unload slot drum voice => Sys2Proof.Machine.execUnload slot drum voice s
  | .reseed slot drum voice => Sys2Proof.Machine.execReseed slot drum voice s
  | .voiceCmdBadOp slot drum => Sys2Proof.Machine.execVoiceCmdBadOp slot drum s
  | .voiceCmdEffect drum => Sys2Proof.Machine.execVoiceCmdEffect drum s
  | .voiceCmdAbandoned drum => Sys2Proof.Machine.execVoiceCmdAbandoned drum s
  | .dhStageDataAccess slot drum write => Sys2Proof.Machine.execDhStageDataAccess slot drum write s
  | .spinEvaluate drum => Sys2Proof.Machine.execSpinEvaluate drum s
  | .spinCheckEnd drum quiet => Sys2Proof.Machine.execSpinCheckEnd drum quiet s
  | .senseDone drum first second fails => Sys2Proof.Machine.execSenseDone drum first second fails s
  | .alignDone drum => Sys2Proof.Machine.execAlignDone drum s
  | .bemfZeroCrossing drum interval place error => Sys2Proof.Machine.execBemfZeroCrossing drum interval place error s
  | .rampTimeout drum => Sys2Proof.Machine.execRampTimeout drum s
  | .commutationMissed drum => Sys2Proof.Machine.execCommutationMissed drum s
  | .quietEntry drum => Sys2Proof.Machine.execQuietEntry drum s
  | .brakeLowSpeed drum => Sys2Proof.Machine.execBrakeLowSpeed drum s
  | .brakeHoldEnd drum => Sys2Proof.Machine.execBrakeHoldEnd drum s
  | .spindleAtRest drum => Sys2Proof.Machine.execSpindleAtRest drum s
  | .spinCut drum => Sys2Proof.Machine.execSpinCut drum s
  | .spinFault drum => Sys2Proof.Machine.execSpinFault drum s
  | .spinCutEnd drum => Sys2Proof.Machine.execSpinCutEnd drum s
  | .sledSeek slot drum => Sys2Proof.Machine.execSledSeek slot drum s
  | .runStage slot drum => Sys2Proof.Machine.execRunStage slot drum s
  | .home slot drum => Sys2Proof.Machine.execHome slot drum s
  | .stop slot drum elapsed => Sys2Proof.Machine.execStop slot drum elapsed s
  | .sledCmdBadOp slot drum => Sys2Proof.Machine.execSledCmdBadOp slot drum s
  | .sledMoveEnd drum => Sys2Proof.Machine.execSledMoveEnd drum s
  | .homeInwardDone drum => Sys2Proof.Machine.execHomeInwardDone drum s
  | .homeIndexTimeout drum => Sys2Proof.Machine.execHomeIndexTimeout drum s
  | .sledHoldCurrent drum => Sys2Proof.Machine.execSledHoldCurrent drum s
  | .sledStageDataAccess slot drum write => Sys2Proof.Machine.execSledStageDataAccess slot drum write s
  | .encoderChange drum a b gap => Sys2Proof.Machine.execEncoderChange drum a b gap s
  | .encoderIndex drum elapsed => Sys2Proof.Machine.execEncoderIndex drum elapsed s
  | .traySwitchChange drum inner outer => Sys2Proof.Machine.execTraySwitchChange drum inner outer s
  | .trayButtonPress drum pressed => Sys2Proof.Machine.execTrayButtonPress drum pressed s
  | .trayOpenStart drum => Sys2Proof.Machine.execTrayOpenStart drum s
  | .trayTimeout drum => Sys2Proof.Machine.execTrayTimeout drum s
  | .trayBrakeEnd drum => Sys2Proof.Machine.execTrayBrakeEnd drum s
  | .timingLock drum timing => Sys2Proof.Machine.execTimingLock drum timing s
  | .syncLock drum => Sys2Proof.Machine.execSyncLock drum s
  | .syncMissing drum again => Sys2Proof.Machine.execSyncMissing drum again s
  | .searchTimeout drum => Sys2Proof.Machine.execSearchTimeout drum s
  | .scarBegin span => Sys2Proof.Machine.execScarBegin span s
  | .scarEnd span => Sys2Proof.Machine.execScarEnd span s
  | .blockDecode drum block => Sys2Proof.Machine.execBlockDecode drum block s
  | .combineRevolution drum block => Sys2Proof.Machine.execCombineRevolution drum block s
  | .blockSkipped drum kbps => Sys2Proof.Machine.execBlockSkipped drum kbps s
  | .eqRestore slot drum value => Sys2Proof.Machine.execEqRestore slot drum value s
  | .stkProdWrite slot drum value => Sys2Proof.Machine.execStkProdWrite slot drum value s
  | .drumTurn drum seek => Sys2Proof.Machine.execDrumTurn drum seek s
  | .strokeRead drum seek => Sys2Proof.Machine.execStrokeRead drum seek s
  | .readToc drum entries => Sys2Proof.Machine.execReadToc drum entries s
  | .readSubcode drum records => Sys2Proof.Machine.execReadSubcode drum records s
  | .strokePlayAudio drum seek => Sys2Proof.Machine.execStrokePlayAudio drum seek s
  | .strokeSeek drum target => Sys2Proof.Machine.execStrokeSeek drum target s
  | .spin drum => Sys2Proof.Machine.execSpin drum s
  | .tray drum => Sys2Proof.Machine.execTray drum s
  | .identify drum identity => Sys2Proof.Machine.execIdentify drum identity s
  | .spinWaitTimeout drum => Sys2Proof.Machine.execSpinWaitTimeout drum s
  | .laserIdleClear drum => Sys2Proof.Machine.execLaserIdleClear drum s
  | .audioUnderrun output => Sys2Proof.Machine.execAudioUnderrun output s
  | .testUnitReady slot lun tag cdb => Sys2Proof.Machine.execTestUnitReady slot lun tag cdb s
  | .requestSense slot lun tag cdb => Sys2Proof.Machine.execRequestSense slot lun tag cdb s
  | .inquiry slot lun tag cdb => Sys2Proof.Machine.execInquiry slot lun tag cdb s
  | .startStopUnit slot lun tag cdb => Sys2Proof.Machine.execStartStopUnit slot lun tag cdb s
  | .preventAllowMediumRemoval slot lun tag cdb => Sys2Proof.Machine.execPreventAllowMediumRemoval slot lun tag cdb s
  | .readCapacity10 slot lun tag cdb => Sys2Proof.Machine.execReadCapacity10 slot lun tag cdb s
  | .read10 slot lun tag cdb => Sys2Proof.Machine.execRead10 slot lun tag cdb s
  | .read12 slot lun tag cdb => Sys2Proof.Machine.execRead12 slot lun tag cdb s
  | .readCd slot lun tag cdb => Sys2Proof.Machine.execReadCd slot lun tag cdb s
  | .seek10 slot lun tag cdb => Sys2Proof.Machine.execSeek10 slot lun tag cdb s
  | .readSubChannel slot lun tag cdb => Sys2Proof.Machine.execReadSubChannel slot lun tag cdb s
  | .readTocPmaAtip slot lun tag cdb => Sys2Proof.Machine.execReadTocPmaAtip slot lun tag cdb s
  | .playAudio10 slot lun tag cdb => Sys2Proof.Machine.execPlayAudio10 slot lun tag cdb s
  | .playAudioMsf slot lun tag cdb => Sys2Proof.Machine.execPlayAudioMsf slot lun tag cdb s
  | .getConfiguration slot lun tag cdb => Sys2Proof.Machine.execGetConfiguration slot lun tag cdb s
  | .getEventStatusNotification slot lun tag cdb => Sys2Proof.Machine.execGetEventStatusNotification slot lun tag cdb s
  | .modeSense10 slot lun tag cdb => Sys2Proof.Machine.execModeSense10 slot lun tag cdb s
  | .readDiscStructure slot lun tag cdb => Sys2Proof.Machine.execReadDiscStructure slot lun tag cdb s
  | .scsiUnsupported slot lun tag cdb => Sys2Proof.Machine.execScsiUnsupported slot lun tag cdb s
  | .uartStartEdge uart settled => Sys2Proof.Machine.execUartStartEdge uart settled s
  | .uartCharReceived uart samples => Sys2Proof.Machine.execUartCharReceived uart samples s
  | .uartCharSent uart errorSignal => Sys2Proof.Machine.execUartCharSent uart errorSignal s
  | .uartTxWrite slot uart value => Sys2Proof.Machine.execUartTxWrite slot uart value s
  | .uartRxRead slot uart => Sys2Proof.Machine.execUartRxRead slot uart s
  | .flushTx slot uart => Sys2Proof.Machine.execFlushTx slot uart s
  | .flushRx slot uart => Sys2Proof.Machine.execFlushRx slot uart s
  | .uartCfgApply uart => Sys2Proof.Machine.execUartCfgApply uart s
  | .uartLine uart present => Sys2Proof.Machine.execUartLine uart present s
  | .gpioOwnerWrite slot high value => Sys2Proof.Machine.execGpioOwnerWrite slot high value s
  | .gpioSet slot value => Sys2Proof.Machine.execGpioSet slot value s
  | .gpioClr slot value => Sys2Proof.Machine.execGpioClr slot value s
  | .gpioEdge levels => Sys2Proof.Machine.execGpioEdge levels s
  | .trainingAttemptStart port => Sys2Proof.Machine.execTrainingAttemptStart port s
  | .trainingStepComplete port => Sys2Proof.Machine.execTrainingStepComplete port s
  | .trainingStepLimit port lane => Sys2Proof.Machine.execTrainingStepLimit port lane s
  | .laneReacquired lane ok => Sys2Proof.Machine.execLaneReacquired lane ok s
  | .codewordReceived port symbols worst => Sys2Proof.Machine.execCodewordReceived port symbols worst s
  | .payload port frame => Sys2Proof.Machine.execPayload port frame s
  | .control port frame => Sys2Proof.Machine.execControl port frame s
  | .timeFrame port frame arrival => Sys2Proof.Machine.execTimeFrame port frame arrival s
  | .keepalive port frame => Sys2Proof.Machine.execKeepalive port frame s
  | .replayTimeout port => Sys2Proof.Machine.execReplayTimeout port s
  | .epochChange port => Sys2Proof.Machine.execEpochChange port s
  | .oldKeyRetire port => Sys2Proof.Machine.execOldKeyRetire port s
  | .keepaliveDue port => Sys2Proof.Machine.execKeepaliveDue port s
  | .keepaliveDeadline port => Sys2Proof.Machine.execKeepaliveDeadline port s
  | .retrainLimit port => Sys2Proof.Machine.execRetrainLimit port s
  | .wakePatternRepeat port => Sys2Proof.Machine.execWakePatternRepeat port s
  | .errorRateSecond lane => Sys2Proof.Machine.execErrorRateSecond lane s
  | .retrain slot port => Sys2Proof.Machine.execRetrain slot port s
  | .resetLane slot lane => Sys2Proof.Machine.execResetLane slot lane s
  | .helloFrame port frame => Sys2Proof.Machine.execHelloFrame port frame s
  | .links port frame => Sys2Proof.Machine.execLinks port frame s
  | .join port frame => Sys2Proof.Machine.execJoin port frame s
  | .announce port frame => Sys2Proof.Machine.execAnnounce port frame s
  | .helloTimer port => Sys2Proof.Machine.execHelloTimer port s
  | .joinTimer => Sys2Proof.Machine.execJoinTimer s
  | .announceTimer => Sys2Proof.Machine.execAnnounceTimer s
  | .linksTimer => Sys2Proof.Machine.execLinksTimer s
  | .joinExpiry member => Sys2Proof.Machine.execJoinExpiry member s
  | .routeExpiry member => Sys2Proof.Machine.execRouteExpiry member s
  | .timeRequestTimer => Sys2Proof.Machine.execTimeRequestTimer s
  | .crownLost => Sys2Proof.Machine.execCrownLost s
  | .expel slot member => Sys2Proof.Machine.execExpel slot member s
  | .admitMember slot member => Sys2Proof.Machine.execAdmitMember slot member s
  | .leave slot => Sys2Proof.Machine.execLeave slot s
  | .trunkStrokeRequest => Sys2Proof.Machine.execTrunkStrokeRequest s
  | .regionCopy => Sys2Proof.Machine.execRegionCopy s
  | .fence => Sys2Proof.Machine.execFence s
  | .query => Sys2Proof.Machine.execQuery s
  | .answer => Sys2Proof.Machine.execAnswer s
  | .usbPacketRequest => Sys2Proof.Machine.execUsbPacketRequest s
  | .unitAck => Sys2Proof.Machine.execUnitAck s
  | .relink member => Sys2Proof.Machine.execRelink member s
  | .stackInfo slot => Sys2Proof.Machine.execStackInfo slot s
  | .secretSet slot => Sys2Proof.Machine.execSecretSet slot s
  | .memberInfo slot => Sys2Proof.Machine.execMemberInfo slot s
  | .latchedLowRead slot timeline => Sys2Proof.Machine.execLatchedLowRead slot timeline s
  | .registerRead path count => Sys2Proof.Machine.execRegisterRead path count s
  | .atomicRegisterRead port offset count => Sys2Proof.Machine.execAtomicRegisterRead port offset count s
  | .hwRamCe => Sys2Proof.Machine.execHwRamCe s
  | .rngHealthFailure present => Sys2Proof.Machine.execRngHealthFailure present s
  | .rbpDriverFault port present => Sys2Proof.Machine.execRbpDriverFault port present s
  | .sledPhaseFault drum present => Sys2Proof.Machine.execSledPhaseFault drum present s
  | .trayCurrentLimit drum => Sys2Proof.Machine.execTrayCurrentLimit drum s
  | .tilePhyFault tile => Sys2Proof.Machine.execTilePhyFault tile s
  | .laneSignalLoss lane => Sys2Proof.Machine.execLaneSignalLoss lane s
  | .foreignVbus tile vbus => Sys2Proof.Machine.execForeignVbus tile vbus s
  | .testEnChange high => Sys2Proof.Machine.execTestEnChange high s
  | .dbgTrstNChange high => Sys2Proof.Machine.execDbgTrstNChange high s
  | .standardRequest slot part request => Sys2Proof.Machine.execStandardRequest slot part request s
  | .acceptRejectReceived tile answer => Sys2Proof.Machine.execAcceptRejectReceived tile answer s
  | .goodcrcReceived tile => Sys2Proof.Machine.execGoodcrcReceived tile s
  | .pdGetMessage tile ask rev3 => Sys2Proof.Machine.execPdGetMessage tile ask rev3 s
  | .softResetReceived tile => Sys2Proof.Machine.execSoftResetReceived tile s
  | .audioSectorOut output => Sys2Proof.Machine.execAudioSectorOut output s

end Sys2Proof.Machine
end

