-- ==== Sys2Proof/Machine/Tick.lean ====
section
/-! DEFINITION. What passes with time alone: one metronome tick of the whole block, on an empty queue. -/
namespace Sys2Proof.Machine

/-- A drum over one tick: the check of a voice command is over within it (R365), and where no frame boundaries pass the sled
runs its 30.5 µs here in place of with them (R388). -/
def tickDrum (n : Nat) (s : State) : State :=
  let t := endCheck n s
  if framesPass t n then t else sledRun n 15625 t
/-- One metronome tick of the whole block; without power good nothing goes on, and in reset the metronome alone (R111, R183). -/
def tick (s : State) : State :=
  let t := idleTick s
  if !s.pwrgd || inReset s then t else tickDrum 1 (tickDrum 0 t)

end Sys2Proof.Machine
end

