-- ==== Sys2Proof/WellFormed.lean ====
section
/-! DEFINITION. Well-formed commands: every number within the width its place in the spec gives it. An ill-formed command
still has a meaning (exec takes each number modulo its width); these are the ones that a sender can form. -/
namespace Sys2Proof

/-- A 32-bit number. -/
def word32 (n : Nat) : Bool := n < 2 ^ 32
/-- Bytes. -/
def octets (l : List Nat) : Bool := l.all (· < 256)
/-- Words of 32 bits. -/
def words32 (l : List Nat) : Bool := l.all (· < 2 ^ 32)
/-- Spine flits of 72 bits (Table 04-1). -/
def flits72 (l : List Nat) : Bool := l.all (· < 2 ^ 72)
/-- A trunk slot of 320 bytes (R478). -/
def slotFrame (l : List Nat) : Bool := l.length = 320 && octets l
/-- A spine address, or an offset within a Retro Bus Port's window of 4 KiB (R242). -/
def RegPath.wf : RegPath → Bool
  | .spine _ addr _ => word32 addr
  | .window _ offset => offset < 4096
/-- An optional word. -/
def optWord (o : Option Nat) : Bool := match o with | some n => word32 n | none => true
/-- The value and byte enables of a write. -/
def optWrite (o : Option (Nat × Nat)) : Bool := match o with | some (v, be) => word32 v && be < 16 | none => true

/-- The bytes of a seed's two reads. -/
def SeedRead.wf (r : SeedRead) : Bool := octets r.first && octets r.second
/-- A rescan whose bus gives bytes. -/
def Rescan.wf (r : Rescan) : Bool := match r.read with | some x => x.wf | none => true
/-- The codes of the eight servo converters, of 12 bits (R332). -/
def DomTest.wf (t : DomTest) : Bool := t.codes.all fun c => c.1 < 4096 && c.2 < 4096
/-- A request whose values, interfaces and endpoints fit the fields of a SETUP packet. -/
def UsbRequest.wf : UsbRequest → Bool
  | .setAddress a => a < 2 ^ 16
  | .setConfiguration v => v < 2 ^ 16
  | .setInterface i a => i < 2 ^ 16 && a < 2 ^ 16
  | .getInterface i => i < 2 ^ 16
  | .setSel values => octets values
  | .setIsochDelay ns => ns < 2 ^ 16
  | .getStatus (.interface i) => i < 2 ^ 16
  | .getStatus (.endpoint e) => e < 2 ^ 16
  | .endpointHalt e _ => e < 2 ^ 16
  | .functionSuspend i options => i < 256 && options < 256
  | _ => true
/-- Counts of 32 bits. -/
def LinkCounts.wf (c : LinkCounts) : Bool := word32 c.errors && word32 c.recoveries && word32 c.badPackets
/-- A move of a link with its counts. -/
def LinkEntry.wf (e : LinkEntry) : Bool :=
  e.counts.wf && match e.move with | .idle us => word32 us | .partner _ => true
/-- The splits of a micro-frame. -/
def Splits.wf (x : Splits) : Bool :=
  word32 x.periodic && word32 x.late && x.bulk.all octets && word32 x.done && word32 x.doneOther
/-- A device whose descriptors are bytes. -/
def Found.wf (f : Found) : Bool := octets f.device && octets f.config && f.hids.all fun h => octets h.2
/-- A handle of 32 bits, or a place at a root port and two hub ports. -/
def TapGone.wf : TapGone → Bool
  | .device handle => word32 handle
  | .place root hub1 hub2 => root < 16 && hub1 < 256 && hub2 < 256
/-- A span of channel bits with the 4,096 bits before it (R413). -/
def ScarSpan.wf (x : ScarSpan) : Bool := x.before.length = 4096 && words32 x.before && x.bits.all fun b => word32 b.1 && word32 b.2
/-- One value and one envelope for each channel bit, and the 4,096 envelopes before them (R407, R413). -/
def BlockRead.wf (x : BlockRead) : Bool :=
  x.before.length = 4096 && x.samples.length = x.envelope.length && words32 x.before && words32 x.envelope
/-- The numbers that an IDENTIFY reads (Table 21-4). -/
def Identity.wf : Identity → Bool
  | .found kind first last sessions endAt layer0 book laser _ _ =>
      [kind, first, last, sessions, endAt, layer0, book, laser].all word32
  | _ => true
/-- An entry of a table of contents. -/
def TocEntry.wf (e : TocEntry) : Bool := word32 e.track && word32 e.control && word32 e.session && word32 e.start

/-- Whether a command is well formed. -/
def wellFormed : Instr → Bool
  | .registerWrite path value byteEn => path.wf && word32 value && word32 byteEn
  | .unassignedAccess _ addr _ => word32 addr
  | .heldBlockAccess _ addr write => word32 addr && optWrite write
  | .canopyStartLoad => true
  | .checkStream _ _ => true
  | .loadStream _ _ => true
  | .sealStream _ => true
  | .canopyChecksComplete => true
  | .canopyNextWrite _ _ => true
  | .canopyStageDataAccess _ write => optWord write
  | .groveRestart _ _ => true
  | .groveRestartDone _ => true
  | .groveVoteWrite _ _ => true
  | .eventPacket _ irq _ => word32 irq
  | .memRead flits => flits72 flits
  | .memWrite flits payload => flits72 flits && flits72 payload
  | .spineTimeout _ _ _ => true
  | .tallyPacket _ _ _ => true
  | .tallyAck _ _ ack => word32 ack.id
  | .memctlTrain _ => true
  | .memctlTrainingDone _ => true
  | .sdramRefresh _ => true
  | .zqCalibration => true
  | .patrolScrub => true
  | .pageJobDone page => word32 page
  | .rekey _ _ => true
  | .rekeyPageConverted => true
  | .sealKeyDraw => true
  | .qualificationWindow count => optWord count
  | .xtalQualTimeout => true
  | .crystalLost => true
  | .metroAlarm => true
  | .referenceReady => true
  | .referenceLoss => true
  | .referenceRestored => true
  | .relockLockAcquired _ => true
  | .relockHoldComplete _ => true
  | .relockAttemptFailed _ => true
  | .frequencyMonitorTrip _ => true
  | .tempoReqWrite _ _ _ => true
  | .tempoPgoodRise _ => true
  | .tempoSettleExpire _ => true
  | .pgoodFall _ => true
  | .pgoodWaitTimeout _ => true
  | .domainSetRequest _ domain => word32 domain
  | .domainClearRequest _ domain => word32 domain
  | .domainStepComplete _ test => test.wf
  | .dormantEntryBegin => true
  | .idleTimerExpire => true
  | .entryPointComplete => true
  | .entryPointLimit => true
  | .bellRing _ _ => true
  | .unwindComplete => true
  | .muffleCountReset _ => true
  | .wakeTimerExpire => true
  | .bellMuffledClear _ bells => word32 bells
  | .hostAccessInDormant _ _ => true
  | .hwRamUe => true
  | .bootDecision _ => true
  | .firmwareAlive => true
  | .aliveTimerExpire => true
  | .mailboxSend _ => true
  | .mailboxReply _ => true
  | .mailboxTimeout _ => true
  | .mailboxBadRequest _ => true
  | .ping _ => true
  | .version _ => true
  | .reportOpen _ _ => true
  | .reportRead _ => true
  | .certRead _ => true
  | .flashErase _ _ => true
  | .flashWrite _ _ => true
  | .flashRead _ => true
  | .fwDescribe _ _ => true
  | .fwTrial _ => true
  | .reboot _ => true
  | .settingsErase _ => true
  | .keepingErase _ => true
  | .extend _ => true
  | .consolePeek _ addr => word32 addr
  | .consolePoke _ addr value => word32 addr && word32 value
  | .consoleMail _ op tag body => word32 op && word32 tag && octets body
  | .consoleBadLine _ => true
  | .dfuDnload _ block data => word32 block && octets data.bytes
  | .dfuManifest => true
  | .dfuUpload => true
  | .dfuDetach => true
  | .hello seq => word32 seq
  | .beginFrame seq slot total => word32 seq && word32 slot && word32 total
  | .dataFrame seq offset data => word32 seq && word32 offset && octets data.bytes
  | .endFrame seq => word32 seq
  | .boot seq slot => word32 seq && word32 slot
  | .seedDropBadFrame seq _ => word32 seq
  | .seedDropGap => true
  | .pwrgdRise _ _ _ => true
  | .pwrgdFall => true
  | .resetNFall => true
  | .resetNRise => true
  | .groveBringup _ => true
  | .drumBringup _ _ _ => true
  | .vbusQueueTurn => true
  | .rbpModeSwitch _ => true
  | .strapResponderAccess _ _ => true
  | .deferredKeepingWrite => true
  | .retryBackoffExpire _ => true
  | .faultWindowClose _ => true
  | .faultQuietExpire _ => true
  | .faultStickyClear _ _ value => word32 value
  | .unprune _ code => word32 code
  | .unpruneDone => true
  | .tallyTailWrite _ value => word32 value
  | .idbScan reads => reads.all fun r => r.2.2.wf
  | .idbLineTimeout _ => true
  | .release _ _ _ => true
  | .rescan _ _ _ => true
  | .rescanComplete rescan => rescan.wf
  | .idbCmdRefused _ _ _ _ => true
  | .atomicRegisterWrite _ offset data => word32 offset && octets data
  | .indDataCommit _ data => octets data
  | .indCmdRead _ => true
  | .indDataDirectRead _ => true
  | .indDataConsume _ => true
  | .indirectAnswer _ _ => true
  | .rbpWaitTimeout _ => true
  | .rbpProtocolError _ => true
  | .doorbellStroke _ => true
  | .doorbellTally _ => true
  | .queuePull _ => true
  | .queuePush _ => true
  | .doorbellMailbox _ => true
  | .doorbellBadOp _ => true
  | .doorbellDone _ => true
  | .pageCommit _ data => octets data
  | .refill _ => true
  | .pageFillDone _ => true
  | .pagedViewWrite _ offset data => word32 offset && octets data
  | .writeThroughAnswer _ => true
  | .winIrqClear _ bits => word32 bits
  | .dmaGo _ _ _ => true
  | .dmaCancel _ cycles data => word32 cycles && octets data
  | .dmaGrant _ => true
  | .dmaBurstEnd _ data => octets data
  | .dmaReleaseExpire _ => true
  | .dmaGrantTimeout _ => true
  | .dmaGrantWithdrawn _ cycles data => word32 cycles && octets data
  | .vendorRegRead _ value index length => word32 value && word32 index && word32 length
  | .vendorRegWrite _ value index words => word32 value && word32 index && words32 words
  | .vendorRequestStall _ request value length => word32 request && word32 value && word32 length
  | .interruptInPoll _ => true
  | .clearTtBuffer _ _ _ => true
  | .resetTt _ _ => true
  | .getTtState _ _ => true
  | .stopTt _ _ => true
  | .setHubDepth _ depth => word32 depth
  | .getPortErrCount _ port => port.counts.wf
  | .setPortPower _ _ => true
  | .clearPortPower _ _ => true
  | .portReset _ _ => true
  | .bhPortReset _ _ => true
  | .portResetComplete _ _ => true
  | .portSuspend _ _ _ => true
  | .portLinkState _ _ state => word32 state
  | .portU1Timeout _ _ value => word32 value
  | .portU2Timeout _ _ value => word32 value
  | .portRemoteWakeMask _ _ mask => word32 mask
  | .forceLinkpmAccept _ _ _ => true
  | .portTest _ _ mode => word32 mode
  | .portIndicator _ _ => true
  | .receiverDetection _ _ => true
  | .ssDetectTimeout _ => true
  | .usb2Connect _ _ => true
  | .upTileDetach _ => true
  | .hubResetByHost _ => true
  | .lpmToken _ token => word32 token.besl
  | .u1U2Entry _ entry => entry.wf
  | .globalSuspend _ => true
  | .hostResume _ => true
  | .deviceRemoteWake _ _ => true
  | .u3ExitLfps _ => true
  | .ttSplitDiscard splits => splits.splits.wf
  | .scheduleMiss _ => true
  | .taprootEnumerate _ dev failure => dev.wf && optWord failure
  | .keyboardReport _ handle report => word32 handle && octets report
  | .pointerReport _ handle report => word32 handle && octets report
  | .padReport _ handle iface id body => word32 handle && word32 iface && word32 id && octets body
  | .leds _ => true
  | .blockRead _ handle data _ => word32 handle && octets data
  | .blockWrite _ handle acked _ => word32 handle && word32 acked
  | .capacity _ handle blocks size _ => word32 handle && word32 blocks && word32 size
  | .blockRequestDone _ handle => word32 handle
  | .tx _ handle => word32 handle
  | .line _ handle => word32 handle
  | .serialRxData _ handle data => word32 handle && octets data
  | .serialStateNotify _ handle bits => word32 handle && word32 bits
  | .pipeTransfer _ _ packets retries data => word32 packets && word32 retries && octets data
  | .pipeTransferEnd _ _ _ => true
  | .pipeTransferTimeout _ _ => true
  | .deviceInfo _ => true
  | .descriptorRead _ => true
  | .claim _ => true
  | .pipeOpen _ => true
  | .pipeClose _ => true
  | .pipeClearHalt _ => true
  | .taprootSuspend _ => true
  | .portCycle _ => true
  | .taprootDeviceDetach _ gone => gone.wf
  | .taprootRemoteWake _ handle => word32 handle
  | .taprootHalt => true
  | .taprootRestart => true
  | .typecAttach _ _ _ vbus _ => word32 vbus.mv
  | .typecDetach _ _ _ vbus => word32 vbus
  | .ccUnsettled _ _ _ => true
  | .discoverIdentityReply _ _ _ => true
  | .vconnLimit _ => true
  | .sourceCapabilities _ objs _ => words32 objs
  | .pdRequest _ rdo _ => word32 rdo
  | .psRdy _ => true
  | .hardResetReceived _ => true
  | .unsupportedPdMessage _ _ => true
  | .sourceCapsRepeat _ => true
  | .sourceCapsTimeout _ => true
  | .ppsRequestTimer _ => true
  | .ppsKeepaliveTimeout _ => true
  | .transitionWaitEnd _ => true
  | .vbusSettled _ vbus => word32 vbus
  | .transitionLimit _ => true
  | .pdRetriesExhausted _ => true
  | .ppsToFixed _ => true
  | .ppsRestore _ => true
  | .voltageLoop _ vout => word32 vout
  | .currentLimitLoop _ ibus vbus => word32 ibus && word32 vbus
  | .ovpTrip _ => true
  | .ocpTrip _ => true
  | .reverseCurrentTrip _ _ => true
  | .ovpRecovery _ => true
  | .softStartComplete _ vbus => word32 vbus
  | .softStartLimit _ => true
  | .vbusSafeZero _ vbus => word32 vbus
  | .dischargeLimit _ => true
  | .hardResetHoldExpire _ => true
  | .moistureTest _ cc1 cc2 sbu1 sbu2 => word32 cc1 && word32 cc2 && word32 sbu1 && word32 sbu2
  | .moistureRetest _ cc1 cc2 sbu1 sbu2 => word32 cc1 && word32 cc2 && word32 sbu1 && word32 sbu2
  | .pdInfo _ => true
  | .sinkSet _ _ => true
  | .pdHardResetMailbox _ => true
  | .recap _ _ => true
  | .cableInfo _ => true
  | .laserSelect _ _ _ => true
  | .laserRampDone _ monitor drive => word32 monitor && word32 drive
  | .laserRampTimeout _ => true
  | .laserMonitorFault _ monitor drive => word32 monitor && word32 drive
  | .laserPermitFall _ => true
  | .laserPermitRise _ => true
  | .rfGainAdjust _ envelope gain => word32 envelope && word32 gain
  | .rfLevel _ envelope => word32 envelope
  | .coilForce _ _ _ code => word32 code
  | .coilOvercurrent _ _ => true
  | .coilOpen _ _ => true
  | .focusLost _ sum => word32 sum
  | .trackLost _ te => word32 te
  | .rearm _ _ value => word32 value
  | .reactionEnd _ sum te => word32 sum && word32 te
  | .vmRange _ => true
  | .vmRestore _ => true
  | .driverThermal _ _ => true
  | .driverCooled _ _ => true
  | .calWrite _ _ _ value => word32 value
  | .drumheadFrame _ _ _ => true
  | .loadVoice _ _ _ period role _ => word32 period && word32 role
  | .swap _ _ _ period role _ _ => word32 period && word32 role
  | .unload _ _ _ => true
  | .reseed _ _ _ => true
  | .voiceCmdBadOp _ _ => true
  | .voiceCmdEffect _ => true
  | .voiceCmdAbandoned _ => true
  | .dhStageDataAccess _ _ write => optWord write
  | .spinEvaluate _ => true
  | .spinCheckEnd _ _ => true
  | .senseDone _ first second _ => octets first && octets second
  | .alignDone _ => true
  | .bemfZeroCrossing _ interval place _ => word32 interval && word32 place
  | .rampTimeout _ => true
  | .commutationMissed _ => true
  | .quietEntry _ => true
  | .brakeLowSpeed _ => true
  | .brakeHoldEnd _ => true
  | .spindleAtRest _ => true
  | .spinCut _ => true
  | .spinFault _ => true
  | .spinCutEnd _ => true
  | .sledSeek _ _ => true
  | .runStage _ _ => true
  | .home _ _ => true
  | .stop _ _ elapsed => word32 elapsed
  | .sledCmdBadOp _ _ => true
  | .sledMoveEnd _ => true
  | .homeInwardDone _ => true
  | .homeIndexTimeout _ => true
  | .sledHoldCurrent _ => true
  | .sledStageDataAccess _ _ write => optWord write
  | .encoderChange _ _ _ gap => word32 gap
  | .encoderIndex _ elapsed => word32 elapsed
  | .traySwitchChange _ _ _ => true
  | .trayButtonPress _ _ => true
  | .trayOpenStart _ => true
  | .trayTimeout _ => true
  | .trayBrakeEnd _ => true
  | .timingLock _ timing => word32 timing.run && words32 timing.errors
  | .syncLock _ => true
  | .syncMissing _ _ => true
  | .searchTimeout _ => true
  | .scarBegin span => span.wf
  | .scarEnd span => span.wf
  | .blockDecode _ block => block.wf
  | .combineRevolution _ block => block.wf
  | .blockSkipped _ kbps => word32 kbps
  | .eqRestore _ _ value => word32 value
  | .stkProdWrite _ _ value => word32 value
  | .drumTurn _ _ => true
  | .strokeRead _ _ => true
  | .readToc _ entries => entries.all TocEntry.wf
  | .readSubcode _ records => records.all octets
  | .strokePlayAudio _ _ => true
  | .strokeSeek _ _ => true
  | .spin _ => true
  | .tray _ => true
  | .identify _ identity => identity.wf
  | .spinWaitTimeout _ => true
  | .laserIdleClear _ => true
  | .audioUnderrun _ => true
  | .testUnitReady _ _ tag cdb => word32 tag && octets cdb
  | .requestSense _ _ tag cdb => word32 tag && octets cdb
  | .inquiry _ _ tag cdb => word32 tag && octets cdb
  | .startStopUnit _ _ tag cdb => word32 tag && octets cdb
  | .preventAllowMediumRemoval _ _ tag cdb => word32 tag && octets cdb
  | .readCapacity10 _ _ tag cdb => word32 tag && octets cdb
  | .read10 _ _ tag cdb => word32 tag && octets cdb
  | .read12 _ _ tag cdb => word32 tag && octets cdb
  | .readCd _ _ tag cdb => word32 tag && octets cdb
  | .seek10 _ _ tag cdb => word32 tag && octets cdb
  | .readSubChannel _ _ tag cdb => word32 tag && octets cdb
  | .readTocPmaAtip _ _ tag cdb => word32 tag && octets cdb
  | .playAudio10 _ _ tag cdb => word32 tag && octets cdb
  | .playAudioMsf _ _ tag cdb => word32 tag && octets cdb
  | .getConfiguration _ _ tag cdb => word32 tag && octets cdb
  | .getEventStatusNotification _ _ tag cdb => word32 tag && octets cdb
  | .modeSense10 _ _ tag cdb => word32 tag && octets cdb
  | .readDiscStructure _ _ tag cdb => word32 tag && octets cdb
  | .scsiUnsupported _ _ tag cdb => word32 tag && octets cdb
  | .uartStartEdge _ _ => true
  | .uartCharReceived _ _ => true
  | .uartCharSent _ _ => true
  | .uartTxWrite _ _ value => word32 value
  | .uartRxRead _ _ => true
  | .flushTx _ _ => true
  | .flushRx _ _ => true
  | .uartCfgApply _ => true
  | .uartLine _ _ => true
  | .gpioOwnerWrite _ _ value => word32 value
  | .gpioSet _ value => word32 value
  | .gpioClr _ value => word32 value
  | .gpioEdge levels => word32 levels
  | .trainingAttemptStart _ => true
  | .trainingStepComplete _ => true
  | .trainingStepLimit _ _ => true
  | .laneReacquired _ _ => true
  | .codewordReceived _ symbols _ => symbols.length = 544 && symbols.all (· < 1024)
  | .payload _ frame => slotFrame frame
  | .control _ frame => slotFrame frame
  | .timeFrame _ frame arrival => slotFrame frame && word32 arrival
  | .keepalive _ frame => slotFrame frame
  | .replayTimeout _ => true
  | .epochChange _ => true
  | .oldKeyRetire _ => true
  | .keepaliveDue _ => true
  | .keepaliveDeadline _ => true
  | .retrainLimit _ => true
  | .wakePatternRepeat _ => true
  | .errorRateSecond _ => true
  | .retrain _ _ => true
  | .resetLane _ _ => true
  | .helloFrame _ frame => slotFrame frame
  | .links _ frame => slotFrame frame
  | .join _ frame => slotFrame frame
  | .announce _ frame => slotFrame frame
  | .helloTimer _ => true
  | .joinTimer => true
  | .announceTimer => true
  | .linksTimer => true
  | .joinExpiry _ => true
  | .routeExpiry _ => true
  | .timeRequestTimer => true
  | .crownLost => true
  | .expel _ _ => true
  | .admitMember _ _ => true
  | .leave _ => true
  | .trunkStrokeRequest => true
  | .regionCopy => true
  | .fence => true
  | .query => true
  | .answer => true
  | .usbPacketRequest => true
  | .unitAck => true
  | .relink _ => true
  | .stackInfo _ => true
  | .secretSet _ => true
  | .memberInfo _ => true
  | .latchedLowRead _ _ => true
  | .registerRead path count => path.wf && word32 count
  | .atomicRegisterRead _ offset count => word32 offset && word32 count
  | .hwRamCe => true
  | .rngHealthFailure _ => true
  | .rbpDriverFault _ _ => true
  | .sledPhaseFault _ _ => true
  | .trayCurrentLimit _ => true
  | .tilePhyFault _ => true
  | .laneSignalLoss _ => true
  | .foreignVbus _ vbus => word32 vbus
  | .testEnChange _ => true
  | .dbgTrstNChange _ => true
  | .standardRequest _ _ request => request.wf
  | .acceptRejectReceived _ _ => true
  | .goodcrcReceived _ => true
  | .pdGetMessage _ _ _ => true
  | .softResetReceived _ => true
  | .audioSectorOut _ => true

end Sys2Proof
end

