-- ==== Sys2Proof/Safety.lean ====
section
/-! DEFINITION. What the claims call a sound state and a safe run, and the terms in which they say that a command has its
effect. -/
namespace Sys2Proof.Machine

/-- The canonical form of the memories: boot flash, keeping store, SDRAM, Canopy stage, the porches of the Retro Bus Ports,
Heartwood RAM, and the bit errors of the three that carry SECDED words: each lists its cells once, in rising order, and lists
nothing that an unlisted cell reads as. -/
def Memory.wf (s : State) : Bool :=
  Tab.wf 0 s.flash && Tab.wf 0 s.keeping && Tab.wf 0 s.sdram && Tab.wf 0 s.stage && Tab.wf 0 s.porch
    && Tab.wf 0 s.hwRam && Tab.wf 0 s.bufEcc && Tab.wf 0 s.keepEcc && Tab.wf 0 s.hwEcc
/-- The register store lists each field that differs from its reset value once, in rising order. -/
def Registers.wf (s : State) : Bool := Tab.rising s.regs
/-- What every step keeps: the memories and the register store are in their canonical form. -/
def Sound (s : State) : Prop := Memory.wf s = true ∧ Registers.wf s = true
/-- The counts that have a width keep to it: the metronome's 48 bits (R111) and the timeline's 70 (64 of whole ns, R509). -/
def Counts.wf (s : State) : Prop := s.metro < 2 ^ 48 ∧ s.stack.tl < 2 ^ 70
/-- A run of k steps neither faults nor refuses. -/
def SafeRun (k : Nat) (s : State) : Prop := ∃ t, Host.Core.run Sys2Proof.core k s = .next t

/-- The state after a register command of a slot that its block takes: its effect, then the answer OK (R61). -/
def took (slot : Nat) (s t : State) : State := ran s (t.emit (.answer slot 0 0))
/-- A slot may write at an address, and the block there takes writes (R43, R553). -/
def mayWrite (s : State) (slot addr : Nat) : Bool := viewOf s slot addr true == .served && blockRuns s addr
/-- A slot may read at an address (R43). -/
def mayRead (s : State) (slot addr : Nat) : Bool := viewOf s slot addr false == .served
/-- A slot's mailbox request with an OP and body waits, and the firmware serves requests (R165). -/
def mailWaits (s : State) (slot op : Nat) (body : List Nat) : Bool :=
  match mailOf s slot with
  | some m => m.op == op && m.heard && m.reply.isNone && m.len == body.length && m.body == body && firmwareRuns s
  | none => false
/-- The slot rooted on a Retro Bus Port, while the port serves its window and does not hold the bus itself (R240). -/
def windowServed (s : State) (p slot : Nat) : Bool := slotOfRbp s p == some slot && rbpServing s p && (rbpSt s p).dma != 2
/-- The slot rooted on a console, while the console is served: not before the grove is ready (R185). -/
def consoleServed (s : State) (u slot : Nat) : Bool := slotOfConsole s u == some slot && firmwareRuns s && s.isSet (R.GROVE_STATUS.READY slot) && !isPruned s (0x5000 + u)
/-- A request of the host to a configured hub reaches the hub port of a tile. -/
def hubServed (s : State) (slot : Nat) : Bool :=
  isTaprootHub s slot || (isVirtualHub s slot && upLinked s slot && s.rd (R.HUB_SELF.STATE slot) == 2)
def portServed (s : State) (slot port tile : Nat) : Bool :=
  hubServed s slot && !isDevicePort s slot port && portPresent s slot port && tileOfPort s slot port == some tile
/-- A tile's PD engine takes a message in Active. -/
def pdTalks (s : State) (t : Nat) : Bool := dormantState s == 0 && pdServes s t

/-- The SCSI rows of Table 21-6: slot, logical unit, tag, command block and the operation code the row takes (R443). -/
def scsiArrival : Instr → Option (Nat × Nat × Nat × List Nat × Nat)
  | .testUnitReady slot l tag cdb => some (slot, l, tag, cdb, 0x00)
  | .requestSense slot l tag cdb => some (slot, l, tag, cdb, 0x03)
  | .inquiry slot l tag cdb => some (slot, l, tag, cdb, 0x12)
  | .startStopUnit slot l tag cdb => some (slot, l, tag, cdb, 0x1B)
  | .preventAllowMediumRemoval slot l tag cdb => some (slot, l, tag, cdb, 0x1E)
  | .readCapacity10 slot l tag cdb => some (slot, l, tag, cdb, 0x25)
  | .read10 slot l tag cdb => some (slot, l, tag, cdb, 0x28)
  | .read12 slot l tag cdb => some (slot, l, tag, cdb, 0xA8)
  | .readCd slot l tag cdb => some (slot, l, tag, cdb, 0xBE)
  | .seek10 slot l tag cdb => some (slot, l, tag, cdb, 0x2B)
  | .readSubChannel slot l tag cdb => some (slot, l, tag, cdb, 0x42)
  | .readTocPmaAtip slot l tag cdb => some (slot, l, tag, cdb, 0x43)
  | .playAudio10 slot l tag cdb => some (slot, l, tag, cdb, 0x45)
  | .playAudioMsf slot l tag cdb => some (slot, l, tag, cdb, 0x47)
  | .getConfiguration slot l tag cdb => some (slot, l, tag, cdb, 0x46)
  | .getEventStatusNotification slot l tag cdb => some (slot, l, tag, cdb, 0x4A)
  | .modeSense10 slot l tag cdb => some (slot, l, tag, cdb, 0x5A)
  | .readDiscStructure slot l tag cdb => some (slot, l, tag, cdb, 0xAD)
  | _ => none

/-- A logical unit on a drum of this member, served and free: no command waits on it, and its disc is the one whose GEN it
reported last, so that it begins its next command at once (R443, R445). -/
def lunFree (s : State) (slot l n : Nat) : Bool :=
  functionRuns s slot && !bulkBusy s slot && (lunDrums s slot)[l]? == some (none, n) && (lunOf s slot l).cmds == [] && !(lunOf s slot l).begun
    && !(lunOf s slot l).silent && (lunOf s slot l).pending == 0 && (lunOf s slot l).toIssue.isNone
    && (lunOf s slot l).gen == s.rd (R.STK_DISC.GEN n)
/-- A command has come to such a unit. -/
def lunTook (slot l n tag : Nat) (cdb : List Nat) (s : State) : State :=
  putLun slot l { lunOf s slot l with drum := n, far := none, cmds := [⟨tag, cdb⟩] } s
/-- It has begun, with strokes to issue if it reads. -/
def lunBegan (slot l n tag : Nat) (cdb : List Nat) (reads : Option (Nat × Nat × Nat)) (s : State) : State :=
  let t := lunTook slot l n tag cdb s
  putLun slot l { lunOf t slot l with begun := true, toIssue := reads } t

/-- The rows that a slot writes or reads at one register address: the slot, the address, and whether it writes (R61). -/
def registerCommand : Instr → Option (Fin 8 × Nat × Bool)
  | .checkStream slot _ => some (slot, 0x00010008, true)
  | .loadStream slot _ => some (slot, 0x00010008, true)
  | .sealStream slot => some (slot, 0x00010008, true)
  | .canopyNextWrite slot _ => some (slot, 0x0001000C, true)
  | .canopyStageDataAccess slot (some _) => some (slot, 0x00010014, true)
  | .canopyStageDataAccess slot none => some (slot, 0x00010014, false)
  | .groveRestart slot _ => some (slot, 0x0008011C, true)
  | .groveVoteWrite slot _ => some (slot, 0x00080118, true)
  | .memctlTrain slot => some (slot, 0x0009000C, true)
  | .rekey slot region => some (slot, 0x000A1014 + 0x20 * region.val, true)
  | .tempoReqWrite slot rail _ => some (slot, 0x00020020 + 16 * rail.val, true)
  | .domainSetRequest slot _ => some (slot, 0x00030040, true)
  | .domainClearRequest slot _ => some (slot, 0x00030040, true)
  | .bellMuffledClear slot _ => some (slot, 0x00030208, true)
  | .mailboxSend packet => some (packet.slot, 0x00060200, true)
  | .faultStickyClear slot w _ => some (slot, 0x00040000 + 4 * w.val, true)
  | .unprune slot _ => some (slot, 0x00040090, true)
  | .tallyTailWrite slot _ => some (slot, 0x00050004, true)
  | .release slot _ _ => some (slot, 0x00270004, true)
  | .rescan slot _ _ => some (slot, 0x00270004, true)
  | .idbCmdRefused slot _ _ _ => some (slot, 0x00270004, true)
  | .laserSelect slot drum _ => some (slot, drumBase drum + 4, true)
  | .coilForce slot drum coil _ => some (slot, drumBase drum + 0x60 + 4 * coil.val, true)
  | .rearm slot drum _ => some (slot, drumBase drum + 0x90, true)
  | .calWrite slot drum index _ => some (slot, drumBase drum + 0xA0 + 4 * index.val, true)
  | .loadVoice slot drum _ _ _ _ => some (slot, drumBase drum + 0x10018, true)
  | .swap slot drum _ _ _ _ _ => some (slot, drumBase drum + 0x10018, true)
  | .unload slot drum _ => some (slot, drumBase drum + 0x10018, true)
  | .reseed slot drum _ => some (slot, drumBase drum + 0x10018, true)
  | .voiceCmdBadOp slot drum => some (slot, drumBase drum + 0x10018, true)
  | .dhStageDataAccess slot drum (some _) => some (slot, drumBase drum + 0x10014, true)
  | .dhStageDataAccess slot drum none => some (slot, drumBase drum + 0x10014, false)
  | .sledSeek slot drum => some (slot, drumBase drum + 0x3003C, true)
  | .runStage slot drum => some (slot, drumBase drum + 0x3003C, true)
  | .home slot drum => some (slot, drumBase drum + 0x3003C, true)
  | .stop slot drum _ => some (slot, drumBase drum + 0x3003C, true)
  | .sledCmdBadOp slot drum => some (slot, drumBase drum + 0x3003C, true)
  | .sledStageDataAccess slot drum (some _) => some (slot, drumBase drum + 0x30034, true)
  | .sledStageDataAccess slot drum none => some (slot, drumBase drum + 0x30034, false)
  | .eqRestore slot drum _ => some (slot, drumBase drum + 0x40010, true)
  | .stkProdWrite slot drum _ => some (slot, drumBase drum + 0x50100, true)
  | .uartTxWrite slot uart _ => some (slot, uartBase uart + 0x0C, true)
  | .uartRxRead slot uart => some (slot, uartBase uart + 8, false)
  | .flushTx slot uart => some (slot, uartBase uart + 0x30, true)
  | .flushRx slot uart => some (slot, uartBase uart + 0x30, true)
  | .gpioOwnerWrite slot high _ => some (slot, 0x00290000 + 4 * b2n high, true)
  | .gpioSet slot _ => some (slot, 0x00290018, true)
  | .gpioClr slot _ => some (slot, 0x0029001C, true)
  | .retrain slot _ => some (slot, 0x00600008, true)
  | .resetLane slot _ => some (slot, 0x00600008, true)
  | .expel slot _ => some (slot, 0x00610014, true)
  | .admitMember slot _ => some (slot, 0x00610014, true)
  | .leave slot => some (slot, 0x00610014, true)
  | _ => none

/-- The rows that serve one mailbox message: the slot, its OP, and the LENGTHs that it takes (R166). -/
def mailRow : Instr → Option (Fin 8 × Nat × (Nat → Bool))
  | .ping slot => some (slot, 0x01, (· ≤ 248))
  | .version slot => some (slot, 0x02, (· = 0))
  | .reportOpen slot _ => some (slot, 0x10, fun l => l = 0 || l = 32)
  | .reportRead slot => some (slot, 0x11, (· = 4))
  | .certRead slot => some (slot, 0x12, (· = 4))
  | .flashErase slot _ => some (slot, 0x20, (· = 8))
  | .flashWrite slot _ => some (slot, 0x21, fun l => 12 ≤ l && l ≤ 248 && l % 4 = 0)
  | .flashRead slot => some (slot, 0x22, (· = 12))
  | .fwDescribe slot _ => some (slot, 0x23, (· = 132))
  | .fwTrial slot => some (slot, 0x24, (· = 4))
  | .reboot slot => some (slot, 0x25, (· = 4))
  | .settingsErase slot => some (slot, 0x30, (· = 4))
  | .keepingErase slot => some (slot, 0x31, (· = 0))
  | .extend slot => some (slot, 0x40, (· = 36))
  | .deviceInfo slot => some (slot, 0x50, (· = 4))
  | .descriptorRead slot => some (slot, 0x51, (· = 8))
  | .claim slot => some (slot, 0x52, (· = 8))
  | .pipeOpen slot => some (slot, 0x53, (· = 12))
  | .pipeClose slot => some (slot, 0x54, (· = 4))
  | .pipeClearHalt slot => some (slot, 0x55, (· = 4))
  | .taprootSuspend slot => some (slot, 0x56, (· = 8))
  | .portCycle slot => some (slot, 0x57, (· = 4))
  | .pdInfo slot => some (slot, 0x60, (· = 4))
  | .sinkSet slot _ => some (slot, 0x61, (· = 12))
  | .pdHardResetMailbox slot => some (slot, 0x62, (· = 4))
  | .recap slot _ => some (slot, 0x63, (· = 4))
  | .cableInfo slot => some (slot, 0x64, (· = 4))
  | .stackInfo slot => some (slot, 0x68, (· = 0))
  | .secretSet slot => some (slot, 0x69, (· = 32))
  | .memberInfo slot => some (slot, 0x6A, (· = 4))
  | _ => none

end Sys2Proof.Machine
end

