-- ==== Sys2Proof/Certificates/Slice0/Obligations.lean ====
section
/-! DEFINITION. The statements for the provers: first the machine and its rules, then for each family of commands the next
state in which each command completes. -/
open Sys2Proof Sys2Proof.Machine

/-- A step runs the command at the front of the queue (00_scope.md). -/
def Obligations.StepRunsFront : Prop :=
  ∀ (c : Instr) (rest : List Instr) (s : State), s.pending = c :: rest → step s = exec c { s with pending := rest }

/-- On an empty queue a step is one tick of the metronome while the part has power, and its count is 48 bits (R111); that a tick takes the place of idling, and that a voice command's check ends in it, is the model's own DESIGN CHOICE, said in the assumption log (the queue and the tick; the check's end). Without power good and in reset no register changes, and where no check is under way no memory changes and nothing leaves the part. -/
def Obligations.EmptyQueueTicks : Prop :=
  ∀ s : State, s.pending = [] → ∃ t, step s = .next t ∧ t.pending = [] ∧ t.metro = (if s.pwrgd then (s.metro + 1) % 2 ^ 48 else s.metro) ∧
    t.variant = s.variant ∧ ((s.pwrgd = false ∨ inReset s = true) → t.regs = s.regs) ∧
    ((∀ n : Fin 2, (drumSt s n).checking = none ∧ (drumSt s n).resync = false) →
      t.outs = s.outs ∧ t.sdram = s.sdram ∧ t.flash = s.flash ∧ t.keeping = s.keeping ∧ t.stage = s.stage ∧ t.porch = s.porch)

/-- No command faults or is refused (00_scope.md, 95_what_each_step_holds.md). -/
def Obligations.EveryCommandCompletes : Prop :=
  ∀ (c : Instr) (s : State), ∃ t, exec c s = .next t ∧ t.pending = s.pending ∧ t.variant = s.variant

/-- Any run serves the queue in order and never stops (00_scope.md, 95_what_each_step_holds.md). -/
def Obligations.RunsServeTheQueue : Prop :=
  ∀ (k : Nat) (s : State), ∃ t, Host.Core.run Sys2Proof.core k s = .next t ∧ t.pending = s.pending.drop k ∧ t.variant = s.variant

/-- A register command that may not act changes nothing but the refusal, and one that waits for its block changes nothing (03_groves.md, 26_register_atlas.md, 04_spine_and_sdram.md). -/
def Obligations.RegisterCommandsTurnedAway : Prop :=
  ∀ (c : Instr) (slot : Fin 8) (a : Nat) (w : Bool) (s : State), registerCommand c = some (slot, a, w) →
    (viewOf s slot a w = .refused → exec c s = .next (ran s ((refuse slot (a / 4 * 4) (activity s)).emit (.answer slot 1 0)))) ∧
    (viewOf s slot a w = .nothing → exec c s = .next (ran s ((activity s).emit (.answer slot (idleStatus s a) 0)))) ∧
    (viewOf s slot a w = .held → exec c s = .next (ran s s)) ∧
    (viewOf s slot a true = .served → w = true → blockRuns s a = false → exec c s = .next (took slot s (activity s)))

/-- A mailbox request of a wrong length is answered without effect (08_heartwood_rings_update.md). -/
def Obligations.MailOfAnotherLength : Prop :=
  ∀ (c : Instr) (slot : Fin 8) (op : Nat) (ok : Nat → Bool) (m : Mail) (s : State), mailRow c = some (slot, op, ok) →
    mailOf s slot = some m → m.op = op → m.heard = true → m.reply = none → firmwareRuns s = true → ok m.len = false →
    exec c s = .next (ran s (putMail slot (some { m with reply := some (2, []) }) s))

/-- The words of the IDENT block in every grove's view: IDENT_UNITS reads as Table 00-5 lists it for each variant (R10), the others as Table 00-4 (R9) gives them, and a write has no effect. -/
def Obligations.IdentRegisters : Prop :=
  ∀ (s : State) (slot : Fin 8) (a : Nat), a < 0x10000 → (slot.val = 0 ∨ (configured s = true ∧ occupied s slot = true)) →
    rootOn s slot = true → heldBlock s a = false →
    exec (.heldBlockAccess slot a none) s = .next (ran s ((activity s).emit (.answer slot 0
      (match a / 4 * 4, s.variant with
       | 0x00, _ => 0x4F4C0072
       | 0x04, .f => 0 | 0x04, .t => 1 | 0x04, .d => 2 | 0x04, .h => 3
       | 0x08, _ => 2
       | 0x10, .f => 0x3F | 0x10, .t => 0x3B | 0x10, .d => 0x31 | 0x10, .h => 0x0C
       | _, _ => 0)))) ∧
    ∀ v be : Nat, exec (.heldBlockAccess slot a (some (v, be))) s = .next (took slot s (activity s))

/-- What an access refused under R44 does: ACCESS_REFUSED, GROVE_REFUSED_ADDR and the interrupt bit, and nothing else. -/
def Obligations.RefusalMarksTheSlot : Prop :=
  ∀ (s : State) (slot : Fin 8) (addr : Nat), s.isSet (R.GROVE_SELF.REMOTE slot) = false →
    (refuse slot addr s).isSet (R.GROVE_STATUS.ACCESS_REFUSED slot) = true ∧
    (refuse slot addr s).rd (R.GROVE_REFUSED_ADDR.ADDR slot) = addr % 2 ^ 32 ∧
    (s.isSet (R.GROVE_STATUS.ACCESS_REFUSED slot) = false → (refuse slot addr s).isSet (irqBit slot 3) = true) ∧
    (∀ f : Fld, f.key ≠ (R.GROVE_STATUS.ACCESS_REFUSED slot).key → f.key ≠ (R.GROVE_REFUSED_ADDR.ADDR slot).key →
      f.key ≠ (irqBit slot 3).key → (refuse slot addr s).rd f = s.rd f) ∧
    (refuse slot addr s).sdram = s.sdram ∧ (refuse slot addr s).flash = s.flash ∧ (refuse slot addr s).keeping = s.keeping ∧
    (refuse slot addr s).stage = s.stage ∧ (refuse slot addr s).porch = s.porch ∧ (refuse slot addr s).causes = s.causes ∧
    (refuse slot addr s).evLog = s.evLog

/-- A fault source that sets: its sticky bit, and interrupt bits of the slots that see it (R198, R210); nothing else. -/
def Obligations.FaultBitSets : Prop :=
  ∀ (s : State) (c : Nat), c < 512 → (∀ k : Nat, s.isSet (R.GROVE_SELF.REMOTE k) = false) →
    isSticky (setSticky c s) c = true ∧
    (∀ f : Fld, f.key ≠ (R.FAULT_STICKY.BIT c).key → (∀ slot k : Nat, f.key ≠ (irqBit slot k).key) → (setSticky c s).rd f = s.rd f) ∧
    (setSticky c s).sdram = s.sdram ∧ (setSticky c s).flash = s.flash ∧ (setSticky c s).keeping = s.keeping ∧
    (setSticky c s).stage = s.stage ∧ (setSticky c s).porch = s.porch

/-- The code of R76: single-bit errors are corrected (R77), double-bit errors are found (R78). -/
def Obligations.OneWrongBitIsPutRight : Prop :=
  ∀ d : Nat, d < 2 ^ 64 → beatDecode (beatOf d) = .clean d ∧
    (∀ k, k < 72 → beatDecode (beatOf d ^^^ 2 ^ k) = .corrected d) ∧
    (∀ j k, j < k → k < 72 → beatDecode (beatOf d ^^^ 2 ^ j ^^^ 2 ^ k) = .uncorrectable)

/-- A plain line of 64 bytes reads back as written, other lines are left, and one wrong bit of a beat does not show (R76, R77). -/
def Obligations.PlainLinesReadBack : Prop :=
  ∀ (s : State) (a : Nat) (bs : List Nat), bs.length = 64 → (∀ b ∈ bs, b < 256) →
    readPlain a (storeLine a bs s) = (bs, 0, storeLine a bs s) ∧
    (∀ b k, b / 64 ≠ a / 64 → k < 8 → beatAt (storeLine a bs s) b k = beatAt s b k) ∧
    (∀ k j, k < 8 → j < 72 →
      let t := putBeat (storeLine a bs s) a k (beatAt (storeLine a bs s) a k ^^^ 2 ^ j)
      (readPlain a t).1 = bs ∧ (readPlain a t).2.1 = 0)

/-- Sealing and opening a line (R87 to R89, R93): what was sealed is read, with its MINOR, and the SECDED check bits are clean; a poisoned line (R96) always fails its tag. AES-256, GHASH and the 575-position code are all inside this. -/
def Obligations.SealedLinesReadBack : Prop :=
  ∀ (s : State) (keys : Nat × Nat) (major minor r a : Nat) (plain : List Nat), plain.length = 64 → (∀ b ∈ plain, b < 256) → minor < 512 →
    openLine keys major r a (sealLine keys major minor r a plain false s) =
      (⟨plain, minor, 0⟩, sealLine keys major minor r a plain false s) ∧
    (openLine keys major r a (sealLine keys major minor r a plain true s)).1 = ⟨List.replicate 64 0, minor, 40⟩ ∧
    (∀ b k poison, b / 64 ≠ a / 64 → k < 8 → beatAt (sealLine keys major minor r a plain poison s) b k = beatAt s b k)

/-- Sending and receiving a protected frame (R485, R486): the peer recovers header and body, a copied frame fails the window, and a frame whose tag differs is discarded. -/
def Obligations.SentFramesOpenAtThePeer : Prop :=
  ∀ (s t : State) (p q : Fin 4) (seq ty least : Nat) (f : List Nat), sendFc s p < 2 ^ 40 - 1 → 304 ≤ f.length →
    (trunkPort s p).txKey.length = 32 → portState t q = 3 → engineFailed s = false → engineFailed t = false →
    t.rd (R.PORT_STATUS.PEER q) = ownMember s → (trunkPort t q).peerPort = p.val →
    rxKeyFor t q (s.rd (R.PORT_STATUS.EPOCH p)) = some ((trunkPort s p).txKey, least) →
    ∃ b : List Nat, (emitFrame p seq f s).outs = .frame p b :: s.outs ∧ b.length = 320 ∧
      (least ≤ sendFc s p → 0 < ty → headerGood ty (b.take 48 ++ (f.drop 48).take 256) = true →
        openFrame q ty b t =
          .good (b.take 48 ++ (f.drop 48).take 256) (noteFc q (s.rd (R.PORT_STATUS.EPOCH p)) (sendFc s p) t)) ∧
      (sendFc s p < least → (b.any (· ≠ 0)) = true → openFrame q ty b t = .drop (windowDiscard q t)) ∧
      (∀ g : List Nat, g.length = 320 → (g.any (· ≠ 0)) = true → g.take 304 = b.take 304 → g ≠ b → openFrame q ty g t = .drop (authFails q t))

/-- Items 2 to 6 of the order in which STATUS of a tally is chosen (R212); item 1, INDETERMINATE, is written where R214 says. -/
def Obligations.TallyStatusByTheFirstRule : Prop :=
  ∀ (refused cancelled : Bool) (done requested : Nat),
    (refused = true → tallyStatus refused cancelled done requested = 4) ∧
    (refused = false → cancelled = true → tallyStatus refused cancelled done requested = 5) ∧
    (refused = false → cancelled = false → done = requested → tallyStatus refused cancelled done requested = 0) ∧
    (refused = false → cancelled = false → done ≠ requested → done = 0 → tallyStatus refused cancelled done requested = 2) ∧
    (refused = false → cancelled = false → done ≠ requested → done ≠ 0 → tallyStatus refused cancelled done requested = 1)

/-- When STACK_CMD refuses a command (R517): CMD_REFUSED is set and nothing else changes. Only slot 0 may write it (R42). -/
def Obligations.MembershipCommands : Prop :=
  ∀ (s : State) (slot member : Fin 8),
    (mayWrite s slot 0x00610014 = true → stacked s = true → crownTarget s member = false →
      exec (.expel slot member) s = .next (took slot s ((activity s).on R.STACK_ERR.CMD_REFUSED)) ∧
      exec (.admitMember slot member) s = .next (took slot s ((activity s).on R.STACK_ERR.CMD_REFUSED))) ∧
    (mayWrite s slot 0x00610014 = true → stacked s = true → stackState s ≠ 4 →
      exec (.leave slot) s = .next (took slot s ((activity s).on R.STACK_ERR.CMD_REFUSED))) ∧
    (mayWrite s slot 0x00610014 = true → stacked s = false →
      exec (.expel slot member) s = .next (took slot s ((activity s).on R.STACK_ERR.CMD_REFUSED)) ∧
      exec (.admitMember slot member) s = .next (took slot s ((activity s).on R.STACK_ERR.CMD_REFUSED)) ∧
      exec (.leave slot) s = .next (took slot s ((activity s).on R.STACK_ERR.CMD_REFUSED))) ∧
    (slot.val ≠ 0 → mayWrite s slot 0x00610014 = false)

/-- The write hold under R245: bytes held for another offset are discarded and counted, and source 180 + 8p sets. -/
def Obligations.HoldDiscarded : Prop :=
  ∀ (s : State) (port : Fin 2) (k : Fin 8) (offset : Nat) (data : List Nat) (fs : List Fld) (off : Nat) (bs : List Nat),
    windowServed s port k = true → laneBytes s port offset data = (off, bs) → bs ≠ [] →
    atomicFields port (off / 4 * 4) = some fs → (rbpSt s port).held ≠ [] →
    (rbpSt s port).tag ≠ off / 4 * 4 → (∀ i, i < bs.length → off % 4 + i ≠ 3) →
    exec (.atomicRegisterWrite port offset data) s = .next (ran s
      (changeRbp port (fun y => { y with
          tag := off / 4 * 4
          held := ((bs.zipIdx.map (fun e => (off % 4 + e.2, e.1 % 256))).filter (fun e => e.1 < 4)).foldl (fun a e => mergeByte e a) [] })
        (occur (180 + 8 * port) (s.bump (R.RBP_COUNTS.HOLDS_DISCARDED port) 1))))

/-- FC increments with every frame sent and is never reused; at 2^40 - 1 the sender sends nothing further (R486), nor does it with a failed engine self-test. -/
def Obligations.FrameCountsNeverRepeat : Prop :=
  ∀ (s : State) (p : Fin 4) (seq : Nat) (f : List Nat),
    (2 ^ 40 - 1 ≤ sendFc s p ∨ engineFailed s = true → emitFrame p seq f s = s) ∧
    (sendFc s p < 2 ^ 40 - 1 → engineFailed s = false →
      sendFc (emitFrame p seq f s) p = sendFc s p + 1 ∧ (emitFrame p seq f s).outs.length = s.outs.length + 1 ∧
      (∀ g : Fld, g.key ≠ (R.PORT_FC_LO.FC p).key → g.key ≠ (R.PORT_FC_HI.FC p).key → (emitFrame p seq f s).rd g = s.rd g) ∧
      (emitFrame p seq f s).trunk = s.trunk ∧ (emitFrame p seq f s).sdram = s.sdram ∧ (emitFrame p seq f s).keeping = s.keeping)

/-- The columns IN only, OUT only, Neither and Both of Table 19-4 (R402), as a function of state and switches. -/
def Obligations.TraySwitchesGiveTheState : Prop :=
  (∀ st, st ≤ 5 → trayNext st true true = 5) ∧
  (∀ st, st ≤ 5 → trayNext st true false = if st = 2 then 2 else 1) ∧
  (∀ st, st ≤ 5 → trayNext st false true = if st = 4 then 4 else 3) ∧
  (∀ st, st ≤ 5 → trayNext st false false = if st = 2 ∨ st = 4 then st else 0)

/-- Bells under R145: disabled and ACTIVE bells set nothing; in WAKING only the pending bit. -/
def Obligations.BellsThatDoNothing : Prop :=
  ∀ (s : State) (b : Fin 32) (cc : Bool),
    (bit (s.rd R.BELL_ENABLE.ENABLE) b = false → exec (.bellRing b cc) s = .next (ran s s)) ∧
    (dormantState s = 0 → exec (.bellRing b cc) s = .next (ran s s)) ∧
    (dormantState s = 3 → bit (s.rd R.BELL_ENABLE.ENABLE) b = true → bellPresent s b = true → 14 ≤ b.val →
      exec (.bellRing b cc) s = .next (ran s (s.wr R.BELL_PENDING.PENDING (setBit (s.rd R.BELL_PENDING.PENDING) b))))

/-- Entry begins only where every condition of R137 holds and the part is ACTIVE. -/
def Obligations.EntryWaitsForItsConditions : Prop :=
  ∀ s : State, (blockers s ≠ 0 ∨ dormantState s ≠ 0) → exec .dormantEntryBegin s = .next (ran s s)

/-- A write to UART_TX while the transmit FIFO is full (R453). -/
def Obligations.TransmitFifoFull : Prop :=
  ∀ (s : State) (slot : Fin 8) (uart : Fin 4) (value : Nat), mayWrite s slot (uartBase uart + 0x0C) = true → uartServes s uart = true →
    64 ≤ (uartOf s uart).tx.length →
    exec (.uartTxWrite slot uart value) s =
      .next (took slot s (withUart uart (fun t => t.bump (R.UART_COUNTS.TX_DROPS uart) 1) (activity s)))

/-- A read of UART_RX while the receive FIFO is empty (R453). -/
def Obligations.EmptyReceiveFifo : Prop :=
  ∀ (s : State) (slot : Fin 8) (uart : Fin 4), mayRead s slot (uartBase uart + 8) = true → (uartOf s uart).rx = [] →
    exec (.uartRxRead slot uart) s = .next (took slot s (activity s))

/-- RING_k takes SHA-256(RING_k || D) (R162); every other field and memory is left. -/
def Obligations.RingsExtendByHash : Prop :=
  ∀ (s : State) (k : Nat) (d : List Nat), k < 8 →
    ringBytes (extendRing k d s) k = sha256 (ringBytes s k ++ d) ∧
    (∀ j, j < 8 → j ≠ k → ringBytes (extendRing k d s) j = ringBytes s j) ∧
    (∀ f : Fld, (∀ i, i < 8 → f.key ≠ (R.RING.BYTES k i).key) → (extendRing k d s).rd f = s.rd f) ∧
    (extendRing k d s).sdram = s.sdram ∧ (extendRing k d s).flash = s.flash ∧ (extendRing k d s).keeping = s.keeping ∧
    (extendRing k d s).evLog = s.evLog

/-- Recovery counters: reading and incrementing (R176), and what an increment leaves. -/
def Obligations.RecoveryCountersCount : Prop :=
  ∀ (s : State) (c : Nat), c < 512 →
    (∀ k, k < 16 → recCell s c k ≤ recValue s c) ∧ (∃ k, k < 16 ∧ recCell s c k = recValue s c) ∧
    (recValue s c = 0xFFFF → recIncrement s c = s) ∧
    (∀ k, k < 16 → recValue s c < 0xFFFF → recCell s c k = recValue s c → (∀ j, j < k → recCell s c j ≠ recValue s c) →
      recCell (recIncrement s c) c ((k + 1) % 16) = recValue s c + 1 ∧
      (∀ j, j < 16 → j ≠ (k + 1) % 16 → recCell (recIncrement s c) c j = recCell s c j) ∧
      (∀ i, i ≠ 0xC00 + 8 * c + (k + 1) % 16 / 2 → keepW (recIncrement s c) i = keepW s i) ∧
      (recIncrement s c).regs = s.regs)

/-- Accesses to addresses of no block (R548), but for their timing. -/
def Obligations.AbsentAddresses : Prop :=
  ∀ (s : State) (slot : Fin 8) (a : Nat), (slot.val = 0 ∨ (configured s = true ∧ occupied s slot = true)) → rootOn s slot = true →
    (0xB0000 ≤ a ∧ a < 0x100000 ∨ 0x1E0000 ≤ a ∧ a < 0x200000 ∨ 0x2A0000 ≤ a ∧ a < 0x300000 ∨ 0x500000 ≤ a ∧ a < 0x600000 ∨
      0x620000 ≤ a ∧ a < 0x80000000) →
    ∀ w : Option (Nat × Nat), exec (.heldBlockAccess slot a w) s = .next (ran s ((activity s).emit (.answer slot 2 0)))

/-- The restart of R116 and R153: what survives it, and what does not. That the SDRAM reads as never written after it is the model's DESIGN CHOICE. -/
def Obligations.RestartKeeps : Prop :=
  ∀ s : State,
    (restartState s).metro = s.metro ∧ (restartState s).xtalRun = s.xtalRun ∧ (restartState s).muffle = s.muffle ∧
    (restartState s).keeping = s.keeping ∧ (restartState s).flash = s.flash ∧
    (restartState s).rd R.METRO_STATUS.SOURCE = s.rd R.METRO_STATUS.SOURCE ∧
    (restartState s).rd R.METRO_STATUS.XTAL_QUAL = s.rd R.METRO_STATUS.XTAL_QUAL ∧
    (∀ c, c < 512 → isSticky (restartState s) c = isSticky s c) ∧
    (restartState s).rd R.BELL_MUFFLED.MUFFLED = s.rd R.BELL_MUFFLED.MUFFLED ∧
    (restartState s).rd R.METRO_ALARM.COMPARE = 0 ∧ (restartState s).rd R.METRO_STATUS.ALARM = 0 ∧
    (∀ k, k < 8 → ringBytes (restartState s) k = List.replicate 32 0) ∧ (restartState s).evLog = [] ∧ (restartState s).evSeq = 0 ∧
    (restartState s).sdram = [] ∧ (restartState s).stage = [] ∧ (restartState s).porch = [] ∧ (restartState s).stream = none

/-- The state at reset (a fresh part) meets what every step keeps. -/
def Obligations.ResetIsSound : Prop :=
  Memory.wf State.reset = true ∧ Registers.wf State.reset = true ∧ Counts.wf State.reset ∧ State.reset.pending = []

/-- Reset values that the register tables give, as a read of slot 0 finds them in the reset state once the part has power and the segments of the spine are ON. -/
def Obligations.ResetValuesRead : Prop :=
  let s := { ((List.range 8).foldl (fun t k => t.wr (R.DOMAIN_STATE.D (6 + k)) 2) State.reset).wr (R.DOMAIN_STATE.D 143) 2 with pwrgd := true }
  ∀ e : Nat × Nat, e ∈ [(0x00010000, 0x00FF0300), (0x00010004, 0xFFFFFFFF), (0x00010040, 0xFFFFFF00), (0x00080000, 0x1000), (0x00090000, 0x31),
    (0x00090004, 0x16161016), (0x00090008, 0x02302234), (0x00020018, 50), (0x00020020, 1), (0x00030200, 0xFFFFFFFF)] →
    exec (.heldBlockAccess 0 e.1 none) s = .next (s.emit (.answer 0 0 e.2))

/-- The key for page p of a region is chosen by its STATE, WATERMARK and the entry's AHEAD (R99); each slot holds the key and its hash key. -/
def Obligations.KeyOfAPage : Prop :=
  ∀ (s : State) (r page : Nat) (ahead : Bool),
    (regionState s r = 1 → pageKeys s r page ahead = ((sealOf s r).newKey, (sealOf s r).newHash)) ∧
    (regionState s r = 2 ∨ regionState s r = 3 →
      pageKeys s r page ahead =
        if pageIn s r page < watermark s r ∨ ahead = true then ((sealOf s r).newKey, (sealOf s r).newHash)
        else ((sealOf s r).oldKey, (sealOf s r).oldHash))

/-- The invariant of the model that every step keeps, over all commands: equal memories are equal data. -/
def Obligations.StepsKeepTheForm : Prop := ∀ s t : State, Sound s → step s = .next t → Sound t

/-- The loader starts a run of the checks, ends it, and moves the stage: each command runs to the next state shown (ch. 02: R19 to R39, R561). -/
def Obligations.CanopyCommandsComplete : Prop :=
  ∀ s : State,
    (s.isSet R.START_STATUS.FIRMWARE = true →
      s.isSet R.START_STATUS.SDRAM_DONE = true →
      loaderBusy s = false →
      configured s = false →
      s.isSet R.START_STATUS.CANOPY_DONE = false →
      exec .canopyStartLoad s = .next (ran s (beginChecks .start (s.rd R.CANOPY_NEXT.AREA) s))) ∧
    (∀ (slot : Fin 8) (area : Fin 4),
      mayWrite s slot 0x00010008 = true →
      loaderBusy s = false →
      area.val ≠ 3 →
      exec (.checkStream slot area) s =
        .next (took slot s (beginChecks .check area (activity s)))) ∧
    (∀ (slot : Fin 8) (area : Fin 4),
      mayWrite s slot 0x00010008 = true →
      loaderBusy s = false →
      configured s = false →
      area.val ≠ 3 →
      exec (.loadStream slot area) s =
        .next (took slot s (beginChecks .load area (activity s)))) ∧
    (∀ (slot : Fin 8),
      mayWrite s slot 0x00010008 = true →
      loaderBusy s = false →
      configured s = true →
      exec (.sealStream slot) s =
        .next (took slot s ((activity s).on R.CANOPY_STATUS.SEALED))) ∧
    (loaderBusy s = true →
      s.loadOp = .check →
      exec .canopyChecksComplete s = .next (ran s (flushHeld (match runChecks (sourceBytes s s.loadSrc) (2 ^ 20) (unitsOf s.variant) s.strapStack (sdramCapacity s) with
      | .refused code detail =>
        (({ s.off R.CANOPY_STATUS.BUSY with loadOp := .idle }).wr R.CANOPY_STATUS.LAST_CODE code).wr R.CANOPY_DETAIL.OFFSET detail
      | .accepted _ =>
        (({ s.off R.CANOPY_STATUS.BUSY with loadOp := .idle }).wr R.CANOPY_STATUS.LAST_CODE 0).wr R.CANOPY_DETAIL.OFFSET 0xFFFFFFFF)))) ∧
    (∀ (slot : Fin 8) (area : Fin 2),
      mayWrite s slot 0x0001000C = true →
      exec (.canopyNextWrite slot area) s =
        .next (took slot s ((putKeep (activity s) 4 area).wr R.CANOPY_NEXT.AREA area))) ∧
    (∀ (slot : Fin 8) (v : Nat),
      mayWrite s slot 0x00010014 = true →
      loaderBusy s = false →
      exec (.canopyStageDataAccess slot (some v)) s =
        .next (took slot s (advanceStage (writeStage (s.rd R.CANOPY_STAGE_ADDR.WORD) v (activity s))))) ∧
    (∀ (slot : Fin 8) (d : Nat) (t : State),
      mayRead s slot 0x00010014 = true →
      loaderBusy s = false →
      readStage (s.rd R.CANOPY_STAGE_ADDR.WORD) (activity s) = (d, t) →
      exec (.canopyStageDataAccess slot none) s =
        .next (ran s ((advanceStage t).emit (.answer slot 0 (d / 2 ^ (32 * (s.rd R.CANOPY_STAGE_ADDR.WORD % 2)) % 2 ^ 32)))))

/-- A register access is carried out, or waits for a held block: each command runs to the next state shown (ch. 01: R12 to R18, ch. 26: R547 to R558, ch. 12: R234 to R259). -/
def Obligations.RegisterAccessesComplete : Prop :=
  ∀ s : State,
    (∀ (slot : Fin 8) (addr value be : Nat),
      rootOn s slot = true →
      heldBlock s addr = false →
      exec (.registerWrite (.spine slot addr .good) value be) s =
        .next (ran s (runAcc ⟨slot, addr, some (value % 2 ^ 32, be), .slot⟩ s))) ∧
    (∀ (port : Fin 2) (k : Fin 8) (offset value be : Nat),
      windowServed s port k = true →
      exec (.registerWrite (.window port offset) value be) s =
        .next (ran s (windowWrite port (lanesIn s port (offset % 4096) value be).1 (lanesIn s port (offset % 4096) value be).2 s))) ∧
    (∀ (slot : Fin 8) (addr count : Nat),
      rootOn s slot = true →
      heldBlock s addr = false →
      exec (.registerRead (.spine slot addr .good) count) s =
        .next (ran s (runAcc ⟨slot, addr, none, .slot⟩ s))) ∧
    (∀ (port : Fin 2) (k : Fin 8) (offset count : Nat),
      windowServed s port k = true →
      exec (.registerRead (.window port offset) count) s =
        .next (ran s (windowRead port k (lanesOut s port (offset % 4096) count).1 (lanesOut s port (offset % 4096) count).2 s))) ∧
    (∀ (slot : Fin 8) (addr : Nat) (write : Bool),
      noBlock s (addr % 2 ^ 32 / 4 * 4) = true →
      (memberOf s (addr % 2 ^ 32)).isNone = true →
      rootOn s slot = true →
      heldBlock s addr = false →
      exec (.unassignedAccess slot addr write) s =
        .next (ran s (runAcc ⟨slot, addr, if write then some (0, 15) else none, .slot⟩ s))) ∧
    (∀ (slot : Fin 8) (addr : Nat) (write : Option (Nat × Nat)),
      (heldBlock s addr = true ∨ rootOn s slot = false) →
      exec (.heldBlockAccess slot addr write) s =
        .next (ran s { s with heldAcc := s.heldAcc ++ [⟨slot, addr, write, .slot⟩] })) ∧
    (∀ (slot : Fin 8) (timeline : Bool),
      rootOn s slot = true →
      heldBlock s (if timeline then 0x61000C else 0x20004) = false →
      exec (.latchedLowRead slot timeline) s =
        .next (ran s (runAcc ⟨slot, if timeline then 0x61000C else 0x20004, none, .slot⟩ s))) ∧
    (∀ (port : Fin 2) (k : Fin 8) (offset count : Nat) (fs : List Fld) (off n : Nat),
      windowServed s port k = true →
      lanesOut s port offset count = (off, n) →
      n ≠ 0 →
      off < 0x100 →
      porchLost s port off = false →
      atomicFields port (off / 4 * 4) = some fs →
      exec (.atomicRegisterRead port offset count) s =
        .next (ran s (atomicRead port off n fs (sensePorch port off n s)))) ∧
    (∀ (port : Fin 2) (k : Fin 8) (offset : Nat) (data : List Nat) (off : Nat) (bs : List Nat) (fs : List Fld),
      windowServed s port k = true →
      laneBytes s port offset data = (off, bs) →
      bs ≠ [] →
      atomicFields port (off / 4 * 4) = some fs →
      exec (.atomicRegisterWrite port offset data) s =
        .next (ran s (atomicWrite port off bs s))) ∧
    (∀ (uart : Fin 4) (k : Fin 8) (addr : Nat),
      consoleServed s uart k = true →
      portOn s 9 = true →
      heldBlock s (addr % 2 ^ 32) = false →
      exec (.consolePeek uart addr) s =
        .next (ran s (runAcc ⟨k, addr % 2 ^ 32, none, .console⟩ s))) ∧
    (∀ (uart : Fin 4) (k : Fin 8) (addr value : Nat),
      consoleServed s uart k = true →
      portOn s 9 = true →
      heldBlock s (addr % 2 ^ 32) = false →
      exec (.consolePoke uart addr value) s =
        .next (ran s (runAcc ⟨k, addr % 2 ^ 32, some (value % 2 ^ 32, 15), .console⟩ s))) ∧
    (∀ (uart : Fin 4) (k : Fin 8) (op tag : Nat) (body : List Nat),
      consoleServed s uart k = true →
      exec (.consoleMail uart op tag body) s =
        .next (ran s (sendMail k ⟨1, op % 256, tag % 256, body.length, (body.take 248).map (· % 256), none, true⟩ (activity s)))) ∧
    (∀ (uart : Fin 4) (k : Fin 8),
      consoleServed s uart k = true →
      exec (.consoleBadLine uart) s =
        .next (ran s (s.emit (.console uart (asciiOf "no 02")))))

/-- Grove restart, votes, events and tallies take effect: each command runs to the next state shown (ch. 03: R40 to R59, ch. 04: R60 to R84, ch. 10: R198 to R216). -/
def Obligations.GroveCommandsComplete : Prop :=
  ∀ s : State,
    (∀ (slot target : Fin 8),
      mayWrite s slot 0x0008011C = true →
      (slot.val = 0 ∨ target.val = slot.val) →
      exec (.groveRestart slot target) s =
        .next (took slot s (restartGrove target (activity s)))) ∧
    (∀ (target : Fin 8),
      s.isSet (R.GROVE_STATUS.RESTARTING target) = true →
      (List.range 2).any (fun n => (drumSt s n).strokes.any (fun x => x.slot = target.val && x.ending != 0)) = false →
      exec (.groveRestartDone target) s =
        .next (ran s (replayTap target (s.off (R.GROVE_STATUS.RESTARTING target))))) ∧
    (∀ (slot : Fin 8) (vote : Bool),
      mayWrite s slot 0x00080118 = true →
      exec (.groveVoteWrite slot vote) s =
        .next (took slot s (writeVote slot vote (activity s)))) ∧
    (∀ (slot : Fin 8) (irq : Nat),
      portOn s 2 = true →
      exec (.eventPacket slot irq .good) s =
        .next (ran s ((List.range 9).foldl (fun t k => if bit irq k then setIrq slot k t else t) s))) ∧
    (∀ (flits : List Nat),
      passes s (headerOf (flitData (flits.headD 0))).source 1 = true →
      packetMalformed flits = false →
      (headerOf (flitData (flits.headD 0))).op = 5 →
      packetBadCrc flits = false →
      exec (.memRead flits) s =
        .next (ran s (arriveAccess (accessOf flits false []) s))) ∧
    (∀ (flits payload : List Nat),
      passes s (accessOf flits true (payloadBytes (lengthOf (flits.getD 1 0)) payload)).port 1 = true →
      packetMalformed flits = false →
      (headerOf (flitData (flits.headD 0))).op = 6 →
      packetBadCrc flits = false →
      payloadMalformed (flitSlot (flits.headD 0)) (lengthOf (flits.getD 1 0)) payload = false →
      exec (.memWrite flits payload) s =
        .next (ran s (arriveAccess (accessOf flits true (payloadBytes (lengthOf (flits.getD 1 0)) payload)) s))) ∧
    (∀ (port : Fin 16) (slot : Fin 8),
      exec (.spineTimeout port slot .regRead) s =
        .next (ran s ((dropHeld slot false (spineTimedOut s)).emit (.data slot [0, 0, 0, 0])))) ∧
    (∀ (port : Fin 16) (slot : Fin 8),
      exec (.spineTimeout port slot .regWrite) s =
        .next (ran s (dropHeld slot true (spineTimedOut s)))) ∧
    (∀ (port : Fin 16) (slot : Fin 8),
      exec (.spineTimeout port slot .memRead) s =
        .next (ran s (memTimedOut port slot (spineTimedOut s)))) ∧
    (∀ (port : Fin 16) (slot : Fin 8),
      exec (.spineTimeout port slot .memWrite) s =
        .next (ran s (memTimedOut port slot (spineTimedOut s)))) ∧
    (∀ (port : Fin 16) (slot : Fin 8) (m : Mail),
      mailOf s slot = some m →
      exec (.spineTimeout port slot .mailbox) s =
        .next (ran s (deliverReply slot m 4 [] (spineTimedOut s)))) ∧
    (∀ (port : Fin 16) (slot : Fin 8) (q : TallyQ),
      Tab.look TallyQ.reset s.tallyQ (8 * port.val + slot.val) = q →
      q.sent.isSome = true →
      3 ≤ q.resends →
      exec (.spineTimeout port slot .tally) s =
        .next (ran s (releaseTally (spineTimedOut s) port slot))) ∧
    (∀ (port : Fin 16) (slot : Fin 8) (q : TallyQ) (t : Tally),
      Tab.look TallyQ.reset s.tallyQ (8 * port.val + slot.val) = q →
      q.sent = some t →
      passes s port 14 = true →
      Tab.look 0 s.tallyLast (8 * port.val + slot.val) ≠ q.num + 1 →
      exec (.tallyPacket port slot .good) s =
        .next (ran s (takeTally slot t { s with tallyLast := Tab.put 0 s.tallyLast (8 * port.val + slot.val) (q.num + 1) }))) ∧
    (∀ (port : Fin 16) (slot : Fin 8) (id : Nat) (q : TallyQ),
      Tab.look TallyQ.reset s.tallyQ (8 * port.val + slot.val) = q →
      passes s 14 port = true →
      q.sent.isSome = true →
      q.num = id →
      exec (.tallyAck port slot ⟨id, .good⟩) s =
        .next (ran s (releaseTally s port slot))) ∧
    (∀ (slot : Fin 8) (value : Nat),
      mayWrite s slot 0x00050004 = true →
      (s.rd (R.TALLY_HEAD.COUNT slot) + 65536 - value % 65536) % 65536 ≤ 2 ^ s.rd (R.TALLY_STATUS.DEPTH slot) →
      exec (.tallyTailWrite slot value) s =
        .next (took slot s ((activity s).wr (R.TALLY_TAIL.COUNT slot) (value % 65536))))

/-- SDRAM training, refresh and scrub, and the SEAL engine: each command runs to the next state shown (ch. 04: R60 to R84, ch. 05: R85 to R110). -/
def Obligations.MemoryCommandsComplete : Prop :=
  ∀ s : State,
    (∀ (slot : Fin 8),
      mayWrite s slot 0x0009000C = true →
      (s.rd R.MEMCTL_STATUS.STATE = 0 ∨ s.rd R.MEMCTL_STATUS.STATE = 4) →
      (memConfig s).isSome = true →
      exec (.memctlTrain slot) s =
        .next (took slot s ((setCause 32 false (activity s)).wr R.MEMCTL_STATUS.STATE 1))) ∧
    (∀ (cap : Nat),
      s.rd R.MEMCTL_STATUS.STATE = 1 →
      memConfig s = some cap →
      timingSet s = true →
      hasSeal s = false →
      exec (.memctlTrainingDone true) s =
        .next (ran s (((s.on R.START_STATUS.SDRAM_DONE).wr R.MEMCTL_STATUS.STATE 2).wr R.MEMCTL_STATUS.CAPACITY cap))) ∧
    (∀ (waiting : Bool),
      s.rd R.MEMCTL_STATUS.STATE = 2 →
      exec (.sdramRefresh waiting) s =
        .next (ran s { s with refreshOwed := if waiting && s.refreshOwed < 8 then s.refreshOwed + 1 else 0 })) ∧
    (exec .zqCalibration s = .next (ran s s)) ∧
    (s.rd R.MEMCTL_STATUS.STATE = 2 →
      s.rd R.MEMCTL_CFG.PATROL_HOURS ≠ 0 →
      exec .patrolScrub s = .next (ran s { scrubLine (64 * (s.patrolLine % (sdramCapacity s / 64))) s with patrolLine := (s.patrolLine % (sdramCapacity s / 64) + 1) % (sdramCapacity s / 64) })) ∧
    (∀ (page : Nat),
      underJob s page = true →
      exec (.pageJobDone page) s =
        .next (ran s (finishJob page s))) ∧
    (∀ (slot : Fin 8) (region : Fin 32),
      mayWrite s slot (0x000A1014 + 0x20 * region.val) = true →
      s.rd R.DORMANT_STATUS.STATE = 0 →
      regionSealed s region = true →
      regionState s region ≠ 2 →
      exec (.rekey slot region) s =
        .next (took slot s (startRekey region (s.rd (R.SEAL_REGION_WORK_ID.ID region)) (activity s)))) ∧
    (∀ (r page : Nat) (rest : List Nat) (e : CtEntry) (t u : State),
      s.walks = r :: rest →
      page = (regionSpan s r).1 / 4096 + watermark s r →
      underJob s page = false →
      readEntry page s = (some e, t) →
      e.ahead = false →
      u = (convertPage r page false t).wr (R.SEAL_REGION_WATERMARK.PAGE r) (watermark (convertPage r page false t) r + 1) →
      exec .rekeyPageConverted s = .next (ran s (if watermark u r ≥ regionPages u r then completeRekey r u else u))) ∧
    (hasSeal s = true →
      Tab.look false s.causes 29 = false →
      exec .sealKeyDraw s = .next (ran s ((List.range 32).foldl (fun t r => if (sealOf t r).needsKeys then drawKeys r t else t)
      (setCause 44 false (s.on R.SEAL_STATUS.RNG_READY)))))

/-- The metronome, the reference, the clock generators and the tempos: each command runs to the next state shown (ch. 06: R111 to R131). -/
def Obligations.ClockCommandsComplete : Prop :=
  ∀ s : State,
    (s.isSet R.METRO_STATUS.XTAL_QUAL = false →
      s.pwrgd = true →
      s.refGood = true →
      s.refLost = false →
      exec (.qualificationWindow none) s =
        .next (acted s { s with xtalRun := 0 })) ∧
    (∀ (n : Nat),
      s.isSet R.METRO_STATUS.XTAL_QUAL = false →
      s.pwrgd = true →
      s.refGood = true →
      s.refLost = false →
      781094 ≤ n →
      n ≤ 781406 →
      s.xtalRun < 7 →
      exec (.qualificationWindow (some n)) s =
        .next (acted s { s with xtalRun := s.xtalRun + 1 })) ∧
    (∀ (n : Nat),
      s.isSet R.METRO_STATUS.XTAL_QUAL = false →
      s.pwrgd = true →
      s.refGood = true →
      s.refLost = false →
      781094 ≤ n →
      n ≤ 781406 →
      7 ≤ s.xtalRun →
      exec (.qualificationWindow (some n)) s =
        .next (acted s (setCause 0 false (({ s with xtalRun := 0 }.on R.METRO_STATUS.SOURCE).on R.METRO_STATUS.XTAL_QUAL)))) ∧
    (∀ (n : Nat),
      s.isSet R.METRO_STATUS.XTAL_QUAL = false →
      s.pwrgd = true →
      s.refGood = true →
      s.refLost = false →
      (n < 781094 ∨ 781406 < n) →
      exec (.qualificationWindow (some n)) s =
        .next (acted s { s with xtalRun := 0 })) ∧
    (s.pwrgd = true →
      s.isSet R.METRO_STATUS.XTAL_QUAL = false →
      exec .xtalQualTimeout s = .next (acted s (setCause 0 true s))) ∧
    (s.pwrgd = true →
      s.isSet R.METRO_STATUS.XTAL_QUAL = true →
      exec .crystalLost s = .next (acted s (setCause 0 true (({ s with xtalRun := 0 }.off R.METRO_STATUS.SOURCE).off R.METRO_STATUS.XTAL_QUAL)))) ∧
    (s.rd R.METRO_ALARM.COMPARE ≠ 0 →
      s.metro % 2 ^ 32 = s.rd R.METRO_ALARM.COMPARE →
      exec .metroAlarm s = .next (ran s (ringBell 26 false (s.on R.METRO_STATUS.ALARM)))) ∧
    (s.pwrgd = true →
      s.refLost = false →
      s.refGood = false →
      mayStart { s with refGood := true } = true →
      exec .referenceReady s = .next (acted s (startClocks { s with refGood := true }))) ∧
    (s.refLost = false →
      s.refGood = true →
      exec .referenceLoss s = .next (acted s (setCause 1 true (showStraps (restartState { s with refLost := true }))))) ∧
    (s.refLost = true →
      mayStart (setCause 1 false { s with refLost := false, refGood := true }) = true →
      exec .referenceRestored s = .next (acted s (startClocks (setCause 1 false { s with refLost := false, refGood := true })))) ∧
    (∀ (gen : Fin 6),
      genState s gen = 1 →
      relockStale s gen = false →
      exec (.relockLockAcquired gen) s =
        .next (ran s (s.wr (R.CLOCK_STATUS.GEN gen) 2))) ∧
    (∀ (gen : Fin 6) (t : State),
      genState s gen = 2 →
      relockStale s gen = false →
      t = retryEnd (2 + gen.val) (s.wr (R.CLOCK_STATUS.GEN gen) 3) →
      exec (.relockHoldComplete gen) s =
        .next (ran s (serveHeld (lockRail gen (if gen.val = 0 then t.on R.START_STATUS.CORE_LOCKED else t))))) ∧
    (∀ (gen : Fin 6),
      (genState s gen = 1 ∨ genState s gen = 2) →
      relockStale s gen = false →
      exec (.relockAttemptFailed gen) s =
        .next (ran s (serveHeld (failOrRetry (2 + gen.val) (genFailed gen) (s.wr (R.CLOCK_STATUS.GEN gen) 1))))) ∧
    (∀ (gen : Fin 6),
      genState s gen = 3 →
      exec (.frequencyMonitorTrip gen) s =
        .next (ran s (startRelock gen (retryEnd (2 + gen.val) (occur (2 + gen.val) s))))) ∧
    (∀ (slot : Fin 8) (rail : Fin 3) (tempo : Fin 4),
      mayWrite s slot (0x00020020 + 16 * rail.val) = true →
      exec (.tempoReqWrite slot rail tempo) s =
        .next (took slot s (retryFailed rail (tempoUpdate rail ((activity s).wr (R.TEMPO_REQ.TEMPO rail) tempo))))) ∧
    (∀ (rail : Fin 3) (late : Bool),
      railLive s rail = true →
      (railOf s rail).wait = 1 →
      (late = false ∨ (railOf s rail).held ≠ 4 ∨ s.rd R.DORMANT_STATUS.STATE ≠ 3) →
      exec (.tempoPgoodRise ⟨rail, late⟩) s =
        .next (if inReset s then acted s (showPgood rail true s)
          else acted s (putRail rail { railOf s rail with wait := 2 } (setCause (8 + rail.val) false (s.on (R.TEMPO_STATE.PGOOD rail)))))) ∧
    (∀ (rail : Fin 3),
      railLive s rail = true →
      (railOf s rail).wait = 1 →
      (railOf s rail).held = 4 →
      s.rd R.DORMANT_STATUS.STATE = 3 →
      inReset s = false →
      exec (.tempoPgoodRise ⟨rail, true⟩) s =
        .next (acted s (putRail rail { railOf s rail with wait := 2 } (occur 11 (setCause (8 + rail.val) false (s.on (R.TEMPO_STATE.PGOOD rail))))))) ∧
    (∀ (rail : Fin 3),
      exec (.tempoSettleExpire rail) s =
        .next (ran s (serveHeld (settleExpire rail s)))) ∧
    (∀ (rail : Fin 3),
      railLive s rail = true →
      seqOf s rail = 0 →
      exec (.pgoodFall rail) s =
        .next (if inReset s then acted s (showPgood rail false s) else acted s (enterHeld rail 3 (s.off (R.TEMPO_STATE.PGOOD rail))))) ∧
    (∀ (rail : Fin 3),
      railLive s rail = true →
      (seqOf s rail = 4 ∨ seqOf s rail = 5) →
      exec (.pgoodFall rail) s =
        .next (if inReset s then acted s (showPgood rail false s)
          else acted s (putRail rail { railOf s rail with wait := 1 } (s.off (R.TEMPO_STATE.PGOOD rail))))) ∧
    (∀ (rail : Fin 3),
      (railOf s rail).wait = 1 →
      seqOf s rail = 1 →
      exec (.pgoodWaitTimeout rail) s =
        .next (ran s (enterHeld rail 2 s))) ∧
    (∀ (rail : Fin 3),
      (railOf s rail).wait = 1 →
      seqOf s rail = 4 →
      exec (.pgoodWaitTimeout rail) s =
        .next (ran s (tempoNext rail 4 (putRail rail { railOf s rail with v := (railOf s rail).aim, wait := 0 } (setCause (8 + rail.val) true s)))))

/-- Domain requests, the Dormant entry and the bells take effect: each command runs to the next state shown (ch. 07: R132 to R152). -/
def Obligations.DomainCommandsComplete : Prop :=
  ∀ s : State,
    (∀ (slot : Fin 8) (domain : Nat),
      mayWrite s slot 0x00030040 = true →
      domainCmdBad s domain = false →
      exec (.domainSetRequest slot domain) s =
        .next (took slot s (syncGens (putReq domain (b2n (unitReq s domain) + 2) (activity s))))) ∧
    (∀ (slot : Fin 8) (domain : Nat),
      mayWrite s slot 0x00030040 = true →
      domainCmdBad s domain = false →
      exec (.domainClearRequest slot domain) s =
        .next (took slot s (syncGens (putReq domain (b2n (unitReq s domain)) (activity s))))) ∧
    (∀ (domain : Fin 144) (test : DomTest),
      exec (.domainStepComplete domain test) s =
        .next (ran s (serveHeld (domainStep domain test s)))) ∧
    (dormantState s = 0 →
      blockers s = 0 →
      exec .dormantEntryBegin s = .next (ran s { (holdOutputs (holdOutputs s 0) 1).wr R.DORMANT_STATUS.STATE 1 with entry := some (Entry.start s.metro (domainsOn s)) })) ∧
    (s.rd R.DORMANT_STATUS.MODE = 1 →
      dormantState s = 0 →
      s.isSet R.START_STATUS.DRUMS_DONE = true →
      exec .idleTimerExpire s = .next (ran s { s with idleCount := s.rd R.DORMANT_IDLE_TICKS.TICKS, idleDone := true })) ∧
    (∀ (e : Entry) (t : State),
      s.entry = some e →
      e.unwinding = false →
      e.begun = false →
      dormantState s = 1 →
      pointReady s (s.rd R.DORMANT_STATUS.POINT + 1) = true →
      t = pointAction (s.rd R.DORMANT_STATUS.POINT + 1) s →
      exec .entryPointComplete s =
        .next (ran s (if pointFallen t then finishPoint (s.rd R.DORMANT_STATUS.POINT + 1) t else t))) ∧
    (∀ (e : Entry),
      s.entry = some e →
      e.unwinding = false →
      e.begun = true →
      dormantState s = 1 →
      pointFallen s = true →
      exec .entryPointComplete s =
        .next (ran s (finishPoint (s.rd R.DORMANT_STATUS.POINT + 1) s))) ∧
    (∀ (e : Entry),
      s.entry = some e →
      e.unwinding = false →
      dormantState s = 1 →
      exec .entryPointLimit s = .next (ran s (beginUnwind 3 0 s))) ∧
    (∀ (bell : Fin 32) (cc : Bool),
      exec (.bellRing bell cc) s =
        .next (ran s (ringBell bell cc s))) ∧
    (∀ (e : Entry),
      s.entry = some e →
      e.unwinding = true →
      dormantState s = 1 →
      exec .unwindComplete s = .next (ran s (activeAgain ((List.range e.undo).foldr (fun i t => undoPoint (i + 1) t) s)))) ∧
    (∀ (bell : Fin 32) (e : Entry),
      s.entry = some e →
      32768 ≤ s.metro - e.tick →
      exec (.muffleCountReset bell) s =
        .next (ran s { s with muffle := Tab.put 0 s.muffle bell 0 })) ∧
    (dormantState s = 3 →
      exec .wakeTimerExpire s = .next (ran s ((List.range 3).foldl (fun t r =>
        if railLive t r && seqOf t r = 1 && (railOf t r).wait = 1 then occur 11 t else t) ((List.range 8).foldl (fun t k => t.off (R.GROVE_VOTE.VOTE k)) (activeAgain s))))) ∧
    (∀ (slot : Fin 8) (bells : Nat),
      mayWrite s slot 0x00030208 = true →
      andNot (s.rd R.BELL_MUFFLED.MUFFLED) bells ≠ 0 →
      exec (.bellMuffledClear slot bells) s =
        .next (took slot s { (activity s).wr R.BELL_MUFFLED.MUFFLED (andNot (s.rd R.BELL_MUFFLED.MUFFLED) bells) with muffle := s.muffle.filter (fun e => !bit bells e.1) })) ∧
    (∀ (port : Fin 2) (write : Bool),
      dormantState s ≠ 0 →
      hasRbp s port = true →
      exec (.hostAccessInDormant port write) s =
        .next (ran s (ringBell (14 + port.val) false
          (if write || (!s.isSet (R.RBP_CFG.SERVING port) && strapSilent s port) then s else s.emit (.bus port 0)))))

/-- Heartwood boots, and recovery takes an update: each command runs to the next state shown (ch. 08: R153 to R181). -/
def Obligations.BootCommandsComplete : Prop :=
  ∀ s : State,
    (∀ (tables : Option FlashTables) (t : State),
      s.rd R.HW_STATUS.MODE = 0 →
      s.isSet R.START_STATUS.CORE_LOCKED = true →
      t = senseCert (senseKeep 0 0x1000 (chooseRead tables s)) →
      exec (.bootDecision tables) s =
        .next (ran s (bootChoice (initBoot (extendEvent 0 1 (beBytes 32 Config.romDigest) (identBytes t) t))))) ∧
    (s.rd R.HW_STATUS.MODE = 1 →
      s.isSet R.HW_STATUS.ALIVE = false →
      exec .firmwareAlive s = .next (ran s (
      let s1 := putBoot 2 (s.rd R.HW_STATUS.SLOT + 2 ^ 31) (s.on R.HW_STATUS.ALIVE)
      if trialState s1 = 2 then setTrial 3 (trialSlot s1) s1 else s1))) ∧
    (s.rd R.HW_STATUS.MODE = 1 →
      s.isSet R.HW_STATUS.ALIVE = false →
      exec .aliveTimerExpire s = .next (ran s (warmRestart (setRecovery 1 3 (occur 17 s))))) ∧
    (exec .hwRamUe s = .next (ran s (warmRestart (setRecovery 1 5 (occur 22 s))))) ∧
    (exec .hwRamCe s = .next (ran s (occur 21 (mendHw s)))) ∧
    (∀ (present : Bool),
      exec (.rngHealthFailure present) s =
        .next (ran s (setCause 29 present (if present then s.off R.SEAL_STATUS.RNG_READY else s)))) ∧
    (∀ (alt : Fin 3) (data : List Nat) (bad : Bool) (t : State),
      t = senseKeep 0 32 s →
      dfuLinked t = true →
      data.length ≤ 4096 →
      t.recovery.state = 2 →
      (alt.val < 2 && (goodSlot t alt || t.recovery.holder = 2)) = false →
      exec (.dfuDnload alt 0 ⟨data, bad⟩) s =
        .next (ran s (dfuBlock data bad (putRecovery { t.recovery with state := 5, status := 0, alt := alt, next := 0, word := [] } t)))) ∧
    (∀ (alt : Fin 3) (block : Nat) (data : List Nat) (bad : Bool) (t : State),
      t = senseKeep 0 32 s →
      dfuLinked t = true →
      data.length ≤ 4096 →
      t.recovery.state = 5 →
      exec (.dfuDnload alt block ⟨data, bad⟩) s =
        .next (ran s (dfuBlock data bad t))) ∧
    (dfuLinked s = true →
      s.recovery.state = 5 →
      s.recovery.alt = 2 →
      s.recovery.word.length = 4 →
      leVal s.recovery.word < 2 →
      slotValid s (leVal s.recovery.word) = true →
      exec .dfuManifest s = .next (ran s (endRecovery (leVal s.recovery.word) s))) ∧
    (dfuLinked s = true →
      exec .dfuUpload s = .next (ran s (s.emit (.usbStall 0)))) ∧
    (dfuLinked s = true →
      exec .dfuDetach s = .next (ran s (s.emit (.usbStall 0)))) ∧
    (∀ (seq : Nat) (t : State),
      t = senseKeep 0 32 (putRecovery { s.recovery with heard := [] } s) →
      inRecovery t = true →
      t.recovery.seedLast ≠ some (seq % 256) →
      exec (.hello seq) s =
        .next (ran s (ackSeed seq (helloData t) t))) ∧
    (∀ (seq slot total : Nat) (t : State),
      t = senseKeep 0 32 (putRecovery { s.recovery with heard := [] } s) →
      inRecovery t = true →
      t.recovery.seedLast ≠ some (seq % 256) →
      slot < 2 →
      goodSlot t slot = false →
      total ≤ maxDownload →
      t.recovery.holder ≠ 1 →
      exec (.beginFrame seq slot total) s =
        .next (ran s (ackSeed seq [] (putRecovery { t.recovery with drop := some (slot, 0, total) } t)))) ∧
    (∀ (seq offset : Nat) (data : List Nat) (k total : Nat) (t : State),
      t = senseKeep 0 32 (putRecovery { s.recovery with heard := [] } s) →
      inRecovery t = true →
      t.recovery.seedLast ≠ some (seq % 256) →
      t.recovery.drop = some (k, offset, total) →
      t.recovery.holder ≠ 1 →
      4 ≤ data.length →
      data.length ≤ 1016 →
      offset + data.length ≤ total →
      exec (.dataFrame seq offset ⟨data, false⟩) s =
        .next (ran s (ackSeed seq [] (putRecovery { t.recovery with drop := some (k, offset + data.length, total), holder := 2 }
          { t with flash := writeStream k offset data t.flash })))) ∧
    (∀ (seq k next total : Nat) (t : State),
      t = senseKeep 0 32 (putRecovery { s.recovery with heard := [] } s) →
      inRecovery t = true →
      t.recovery.seedLast ≠ some (seq % 256) →
      t.recovery.drop = some (k, next, total) →
      slotValid t k = true →
      exec (.endFrame seq) s =
        .next (ran s (endRecovery k (ackSeed seq [] t)))) ∧
    (∀ (seq slot : Nat) (t : State),
      t = senseKeep 0 32 (putRecovery { s.recovery with heard := [] } s) →
      inRecovery t = true →
      t.recovery.seedLast ≠ some (seq % 256) →
      slot < 2 →
      slotValid t slot = true →
      exec (.boot seq slot) s =
        .next (ran s (endRecovery slot (ackSeed seq [] t)))) ∧
    (∀ (seq : Nat) (crc : Bool),
      inRecovery s = true →
      exec (.seedDropBadFrame seq crc) s =
        .next (ran s (nakSeed seq (if crc then 1 else 2) (putRecovery { s.recovery with heard := [] } s)))) ∧
    (exec .seedDropGap s = .next (ran s (putRecovery { s.recovery with heard := [] } s)))

/-- The mailbox takes, serves and answers requests: each command runs to the next state shown (ch. 08: R153 to R181). -/
def Obligations.MailboxCommandsComplete : Prop :=
  ∀ s : State,
    (∀ (slot : Fin 8),
      mayWrite s slot 0x00060200 = true →
      exec (.mailboxSend ⟨slot, .good⟩) s =
        .next (took slot s (sendMail slot (mailFrom 0 (requestBytes (activity s) slot)) (activity s)))) ∧
    (∀ (slot : Fin 8) (m : Mail) (r : Nat × List Nat),
      mailOf s slot = some m →
      m.reply = some r →
      exec (.mailboxReply ⟨slot, .good⟩) s =
        .next (ran s (deliverReply slot m r.1 r.2 s))) ∧
    (∀ (slot : Fin 8) (m : Mail),
      mailOf s slot = some m →
      exec (.mailboxTimeout slot) s =
        .next (ran s (occur 27 (deliverReply slot m 4 [] s)))) ∧
    (∀ (slot : Fin 8) (op : Nat) (body : List Nat),
      mailWaits s slot op body = true →
      knownOps.contains op = false →
      exec (.mailboxBadRequest slot) s =
        .next (ran s (setReply slot 2 [] s))) ∧
    (∀ (slot : Fin 8) (body : List Nat),
      mailWaits s slot 0x01 body = true →
      body.length ≤ 248 →
      exec (.ping slot) s =
        .next (ran s (setReply slot 0 body s))) ∧
    (∀ (slot : Fin 8) (t : State),
      mailWaits s slot 0x02 [] = true →
      t = senseKeep 0 32 s →
      exec (.version slot) s =
        .next (ran s (setReply slot 0 (leBytes 4 (t.rd R.HW_VERSION.VERSION)
      ++ [t.rd R.HW_STATUS.SLOT, trialState t, trialSlot t, t.rd R.HW_STATUS.MODE]
      ++ leBytes 2 (firmwareCompat t) ++ leBytes 2 (settingsFormat t (t.rd R.HW_STATUS.SLOT)) ++ [0, 0, 0, 0]) t))) ∧
    (∀ (slot : Fin 8) (fails : Option Bool) (t : State),
      mailWaits s slot 0x10 [] = true →
      t = senseKeep 0 32 s →
      exec (.reportOpen slot fails) s =
        .next (ran s (setReply slot 0 (leBytes 4 (reportBody t none).length ++ leBytes 4 (half (reportBody t none) 6))
      { t with reports := Tab.put [] t.reports slot (reportBody t none) }))) ∧
    (∀ (slot : Fin 8) (body : List Nat),
      mailWaits s slot 0x11 body = true →
      body.length = 4 →
      leVal (body.take 4) < (Tab.look [] s.reports slot).length →
      exec (.reportRead slot) s =
        .next (ran s (setReply slot 0 (((Tab.look [] s.reports slot).drop (leVal (body.take 4))).take 240) s))) ∧
    (∀ (slot : Fin 8) (body : List Nat),
      mailWaits s slot 0x12 body = true →
      body.length = 4 →
      leVal (body.take 4) = 0 →
      exec (.certRead slot) s =
        .next (ran s (if certificate = [] then setReply slot 6 [] s else setReply slot 0 (certificate.take 240) s))) ∧
    (∀ (slot : Fin 8) (error : Bool) (body : List Nat),
      mailWaits s slot 0x20 body = true →
      body.length = 8 →
      slot.val = 0 →
      areaFits (leVal (body.take 4)) (leVal ((body.drop 4).take 4)) 4096 = true →
      leVal ((body.drop 4).take 4) % 4096 = 0 →
      areaLocked s (leVal (body.take 4)) = false →
      areaChecked s (leVal (body.take 4)) = false →
      exec (.flashErase slot error) s =
        .next (ran s (
      let r := flashAnswer (eraseSector (areaBase (leVal (body.take 4)) + leVal ((body.drop 4).take 4)) error (cancelTrial (leVal (body.take 4)) s))
      setReply slot r.1 r.2.1 r.2.2))) ∧
    (∀ (slot : Fin 8) (error : Bool) (body : List Nat),
      mailWaits s slot 0x21 body = true →
      12 ≤ body.length →
      body.length ≤ 248 →
      body.length % 4 = 0 →
      slot.val = 0 →
      areaFits (leVal (body.take 4)) (leVal ((body.drop 4).take 4)) (body.drop 8).length = true →
      areaLocked s (leVal (body.take 4)) = false →
      areaChecked s (leVal (body.take 4)) = false →
      exec (.flashWrite slot error) s =
        .next (ran s (
      let r := flashAnswer (programFlash (areaBase (leVal (body.take 4)) + leVal ((body.drop 4).take 4)) (body.drop 8) error (cancelTrial (leVal (body.take 4)) s))
      setReply slot r.1 r.2.1 r.2.2))) ∧
    (∀ (slot : Fin 8) (body : List Nat),
      mailWaits s slot 0x22 body = true →
      body.length = 12 →
      slot.val = 0 →
      4 ≤ word body 8 →
      word body 8 ≤ 240 →
      areaFits (word body 0) (word body 4) (word body 8) = true →
      exec (.flashRead slot) s =
        .next (ran s (setReply slot 0 (flashBytes s (areaBase (word body 0) + word body 4) (word body 8)) s))) ∧
    (∀ (slot : Fin 8) (error : Bool) (body : List Nat),
      mailWaits s slot 0x23 body = true →
      body.length = 132 →
      slot.val = 0 →
      word body 0 ≤ 1 →
      slotRuns s (word body 0) = false →
      exec (.fwDescribe slot error) s =
        .next (ran s (
      let e := eraseSector (0x1000 * word body 0) error (cancelTrial (word body 0) s)
      let r := if e.1 then flashAnswer (programFlash (0x1000 * word body 0) (body.drop 4) false e.2) else failMail 5 e.2
      setReply slot r.1 r.2.1 r.2.2))) ∧
    (∀ (slot : Fin 8) (body : List Nat),
      mailWaits s slot 0x24 body = true →
      body.length = 4 →
      slot.val = 0 →
      word body 0 ≤ 1 →
      slotRuns s (word body 0) = false →
      headed s (word body 0) = true →
      exec (.fwTrial slot) s =
        .next (ran s (setReply slot 0 [] (setTrial 1 (word body 0) s)))) ∧
    (∀ (slot : Fin 8) (body : List Nat) (m : Mail),
      mailWaits s slot 0x25 body = true →
      body.length = 4 →
      slot.val = 0 →
      word body 0 = 0 →
      mailOf s slot = some m →
      exec (.reboot slot) s =
        .next (ran s (warmRestart ((List.range 8).foldl (fun t k => match mailOf t k with | some x => deliverReply k x 4 [] t | none => t)
      (deliverReply slot m 0 [] s))))) ∧
    (∀ (slot : Fin 8) (body : List Nat),
      mailWaits s slot 0x30 body = true →
      body.length = 4 →
      word body 0 ≤ 31 →
      (slot.val = 0 ∨ groveOf s slot = some (word body 0)) →
      exec (.settingsErase slot) s =
        .next (ran s (setReply slot 0 [] (eraseKeep (0x8000 + 0x1000 * word body 0) 0x1000 s)))) ∧
    (∀ (slot : Fin 8),
      mailWaits s slot 0x31 [] = true →
      slot.val = 0 →
      exec (.keepingErase slot) s =
        .next (ran s (setReply slot 0 [] (keepingErase s)))) ∧
    (∀ (slot : Fin 8) (body : List Nat),
      mailWaits s slot 0x40 body = true →
      body.length = 36 →
      slot.val = 0 →
      4 ≤ word body 0 →
      word body 0 ≤ 7 →
      exec (.extend slot) s =
        .next (ran s (setReply slot 0 [] (extendEvent (word body 0) 0x80 (body.drop 4) [] s))))

/-- Power good, the pins, the start and faults take effect: each command runs to the next state shown (ch. 09: R182 to R197, ch. 10: R198 to R216, ch. 11: R217 to R233). -/
def Obligations.StartCommandsComplete : Prop :=
  ∀ s : State,
    (∀ (a b : Fin 4) (position : Fin 8),
      s.pwrgd = false →
      exec (.pwrgdRise a b position) s =
        .next (acted s (showStraps (showBoot { State.reset with
        variant := s.variant, pending := s.pending, outs := s.outs, freeCtr := s.freeCtr + 1, keeping := s.keeping, keepEcc := s.keepEcc, flash := s.flash
        resetN := s.resetN, testEn := s.testEn, dbgTrstN := s.dbgTrstN
        strapRbp := Tab.put 0 (Tab.put 0 [] 0 a.val) 1 b.val, strapStack := position.val
        regs := s.regs.filter (fun e => keptKey e.1 && !(0x00040000 ≤ e.1 / 32 % 2 ^ 32 && e.1 / 32 % 2 ^ 32 < 0x00040040)
          && e.1 / 32 % 2 ^ 32 != 0x00030208 && e.1 / 32 % 2 ^ 32 != 0x00020000)
        stack := { Stack.reset with startId := s.freeVal 0 % 2 ^ 32 } })))) ∧
    (s.pwrgd = true →
      exec .pwrgdFall s = .next (acted s { State.reset with
        variant := s.variant, pending := s.pending, outs := s.outs, freeCtr := s.freeCtr, keeping := s.keeping, keepEcc := s.keepEcc, flash := s.flash
        resetN := s.resetN, testEn := s.testEn, dbgTrstN := s.dbgTrstN, pwrgd := false
        regs := s.regs.filter (fun e => keptKey e.1 && !(0x00040000 ≤ e.1 / 32 % 2 ^ 32 && e.1 / 32 % 2 ^ 32 < 0x00040040)
          && e.1 / 32 % 2 ^ 32 != 0x00030208 && e.1 / 32 % 2 ^ 32 != 0x00020000) })) ∧
    (s.pwrgd = true →
      s.resetN = true →
      s.testEn = false →
      exec .resetNFall s = .next (acted s (showStraps (restartState { s with resetN := false })))) ∧
    (s.pwrgd = true →
      s.resetN = false →
      s.testEn = false →
      mayStart { s with resetN := true } = true →
      exec .resetNRise s = .next (acted s (startClocks { s with resetN := true }))) ∧
    (s.pwrgd = true →
      s.resetN = true →
      s.testEn = false →
      exec (.testEnChange true) s =
        .next (acted s (showStraps (restartState { s with testEn := true })))) ∧
    (s.pwrgd = true →
      s.resetN = true →
      s.testEn = true →
      mayStart { s with testEn := false } = true →
      exec (.testEnChange false) s =
        .next (acted s (startClocks { s with testEn := false }))) ∧
    (∀ (high : Bool),
      s.isSet R.START_STATUS.REF = true →
      exec (.dbgTrstNChange high) s =
        .next (if inReset s then acted s { s with dbgTrstN := high } else acted s (unitRequest high 140 { s with dbgTrstN := high }))) ∧
    (∀ (up : UpConnect) (slot : Nat),
      nextGrove s = some slot →
      regionsWait s slot = false →
      exec (.groveBringup up) s =
        .next (ran s (bringGrove slot up (setListed (if s.rd R.START_STATUS.READY_SLOTS != 0 then s else senseKeep 0x1000 0x2000 s))))) ∧
    (∀ (drum : Fin 2) (inner outer : Bool) (t : State),
      hasDrum s drum = true →
      t = (s.wrB (R.TRAY_STATUS.IN_SW drum) inner).wrB (R.TRAY_STATUS.OUT_SW drum) outer →
      t.rd R.HW_STATUS.MODE = 1 →
      configured t = true →
      t.isSet R.START_STATUS.ALL_READY = true →
      (drumRec t drum).isSome = true →
      (drum.val = 0 ∨ drumDone t 0 = true) →
      (drumSt t drum).up = false →
      drumDone t drum = false →
      hasDrum t drum = true →
      exec (.drumBringup drum inner outer) s =
        .next (ran s (drumsDone (bringDrum drum t)))) ∧
    (∀ (port : Fin 2),
      (rbpSt s port).toServe = true →
      hasRbp s port = true →
      isPruned s (0x6000 + port.val) = false →
      exec (.rbpModeSwitch port) s =
        .next (ran s (servePort port s))) ∧
    (∀ (port : Fin 2),
      hasRbp s port = true →
      s.pwrgd = true →
      s.isSet (R.RBP_CFG.SERVING port) = false →
      Tab.look 0 s.strapRbp port ≠ 3 →
      exec (.strapResponderAccess port false) s =
        .next (acted s (s.emit (.bus port 0)))) ∧
    (∀ (d : Deferred) (r : List Deferred),
      s.deferred = d :: r →
      domOn s 18 = true →
      exec .deferredKeepingWrite s = .next (ran s (keepOrDefer d { s with deferred := r }))) ∧
    (∀ (source : Fin 512) (up : UpConnect),
      Tab.look false s.backoff source = true →
      exec (.retryBackoffExpire ⟨source, up⟩) s =
        .next (ran s (retryAction source up (retryBegin source { s with backoff := Tab.put false s.backoff source false })))) ∧
    (∀ (source : Fin 512),
      exec (.faultWindowClose source) s =
        .next (ran s { s with windows := Tab.put false s.windows source false, events := Tab.put 0 s.events source 0 })) ∧
    (∀ (source : Fin 512),
      mayQuiet s source = true →
      exec (.faultQuietExpire source) s =
        .next (ran s (keepOrDefer (.recovery source) (clearSticky source s)))) ∧
    (∀ (slot : Fin 8) (w : Fin 16) (value : Nat),
      mayWrite s slot (0x00040000 + 4 * w.val) = true →
      stickyRefused slot w value (activity s) = false →
      exec (.faultStickyClear slot w value) s =
        .next (took slot s ((List.range 32).foldl (fun t j => if bit value j then stickyWrite slot (0x00040000 + 4 * w.val) (32 * w + j) t else t) (activity s)))) ∧
    (∀ (slot : Fin 8) (code : Nat),
      mayWrite s slot 0x00040090 = true →
      slot.val = 0 →
      exec (.unprune slot code) s =
        .next (took slot s (unprune (code % 65536) (activity s)))) ∧
    (∀ (code : Nat),
      s.unpruning = some code →
      exec .unpruneDone s = .next (ran s (((List.range 400).filter (fun c => srcLevel c && ofChannel code c && Tab.look false s.causes c)).foldl
        (fun t c => occur c t) { s.off (R.FAULT_UNPRUNE_STATUS.BUSY 0) with unpruning := none }))) ∧
    (∀ (reads : List (Fin 4 × Fin 8 × SeedRead)),
      s.rd R.HW_STATUS.MODE = 1 →
      s.isSet R.START_STATUS.CANOPY_DONE = true →
      s.isSet R.IDB_STATUS.SCANNED = false →
      exec (.idbScan reads) s =
        .next (ran s (
      let given := fun (x : Nat × Nat) => (reads.find? (fun r => r.1.val = x.1 && r.2.1.val = x.2)).map (·.2.2)
      let s1 := compareSeeds (seedAddrs.foldl (fun t x => scanSeed x.1 x.2 (given x) t) s)
      let s2 := closeSeeds (seedAddrs.foldl (fun t x => if seedOutcome t x.1 x.2 = 0 then t else seedEvent x.1 x.2 t) s1)
      (applyBackplane s2).on R.START_STATUS.SEEDS_DONE |>.on R.IDB_STATUS.SCANNED))) ∧
    (∀ (bus : Fin 4),
      s.rd R.HW_STATUS.MODE = 1 →
      s.isSet R.IDB_STATUS.SCANNED = false →
      s.rescan.isNone = true →
      exec (.idbLineTimeout bus) s =
        .next (ran s (s.emit (.idbPulses bus)))) ∧
    (∀ (slot : Fin 8) (bus : Fin 4) (address : Fin 8),
      mayWrite s slot 0x00270004 = true →
      exec (.release slot bus address) s =
        .next (took slot s (idbCmd 1 bus address (activity s)))) ∧
    (∀ (slot : Fin 8) (bus : Fin 4) (address : Fin 8),
      mayWrite s slot 0x00270004 = true →
      exec (.rescan slot bus address) s =
        .next (took slot s (idbCmd 2 bus address (activity s)))) ∧
    (∀ (slot : Fin 8) (op : Fin 4) (bus : Fin 4) (address : Fin 8),
      mayWrite s slot 0x00270004 = true →
      exec (.idbCmdRefused slot op bus address) s =
        .next (took slot s (idbCmd op bus address (activity s)))) ∧
    (∀ (read : Option SeedRead) (ups : List UpConnect) (a : Nat),
      s.rescan = some (a, false) →
      seedOutcome (compareSeed 2 a (takeSeed 2 a read (readSeed 2 a read { s.off R.IDB_STATUS.BUSY with rescan := none }))) 2 a = 0 →
      exec (.rescanComplete ⟨read, ups⟩) s =
        .next (ran s (compareSeed 2 a (takeSeed 2 a read (readSeed 2 a read { s.off R.IDB_STATUS.BUSY with rescan := none }))))) ∧
    (∀ (port : Fin 2) (present : Bool),
      hasRbp s port = true →
      exec (.rbpDriverFault port present) s =
        .next (ran s (setCause (rbpSrc port 5) present s))) ∧
    (∀ (tile : Fin 14),
      exec (.tilePhyFault tile) s =
        .next (ran s (occur (tileSrc tile 7) s)))

/-- The Retro Bus Ports move bytes, indirect accesses, doorbells, pages and DMA: each command runs to the next state shown (ch. 12: R234 to R259). -/
def Obligations.RetroBusCommandsComplete : Prop :=
  ∀ s : State,
    (∀ (port : Fin 2) (data : List Nat) (k : Fin 8),
      windowServed s port k = true →
      exec (.indDataCommit port data) s =
        .next (ran s (lastBytes port 0x0C data s))) ∧
    (∀ (port : Fin 2) (k : Fin 8),
      windowServed s port k = true →
      s.isSet (R.IND_STATUS.BUSY port) = false →
      exec (.indCmdRead port) s =
        .next (ran s (issueRead port false s))) ∧
    (∀ (port : Fin 2) (k : Fin 8),
      windowServed s port k = true →
      s.isSet (R.IND_STATUS.BUSY port) = true →
      exec (.indCmdRead port) s =
        .next (ran s (occur (rbpSrc port 4) (s.on (R.IND_STATUS.OVERLAP port))))) ∧
    (∀ (port : Fin 2) (both : Bool) (k : Fin 8),
      windowServed s port k = true →
      clockedMode s port = false →
      s.isSet (R.IND_CTRL.DIRECT port) = true →
      s.isSet (R.IND_STATUS.BUSY port) = false →
      s.isSet (R.IND_STATUS.VALID port) = false →
      exec (.indDataDirectRead ⟨port, both⟩) s =
        .next (ran s (issueRead port true (changeRbp port (fun x => { x with waiting := some (.read (if width16 s port && both then 2 else 1)) }) s)))) ∧
    (∀ (port : Fin 2) (k : Fin 8),
      windowServed s port k = true →
      exec (.indDataConsume port) s =
        .next (ran s (consumeInd port (s.emit (.bus port (linesOf s port 3 [bits (rbpSt s port).readHold 24 8])))))) ∧
    (∀ (port : Fin 2) (a : Nat) (d w : Bool) (rest : List Issue) (k : Nat) (status value : Nat) (t : State),
      (rbpSt s port).issues = .regRead a d w :: rest →
      slotOfRbp s port = some k →
      heldBlock s a = false →
      readReg k a 8 .slot s = (some status, value, t) →
      exec (.indirectAnswer port false) s =
        .next (ran s (endIndirect port false d w (some status) value t))) ∧
    (∀ (port : Fin 2) (a be v : Nat) (rest : List Issue) (k : Nat),
      (rbpSt s port).issues = .regWrite a be v :: rest →
      slotOfRbp s port = some k →
      exec (.indirectAnswer port true) s =
        .next (ran s (endIndirect port true false false none 0 (spineTimedOut s)))) ∧
    (∀ (port : Fin 2) (count : Nat),
      (rbpSt s port).waiting = some (.read count) →
      exec (.rbpWaitTimeout port) s =
        .next (ran s (changeRbp port (fun x => { x with issues := x.issues.map (fun i => match i with
              | .regRead a d _ => .regRead a d false
              | .remote false d _ => .remote false d false
              | j => j) })
          (((changeRbp port (fun x => { x with waiting := none }) (s.bump (R.RBP_COUNTS.WAIT_TIMEOUTS port) 1)).on (R.IND_STATUS.TIMEOUT port)).emit (.bus port 0))))) ∧
    (∀ (port : Fin 2),
      rbpServing s port = true →
      exec (.rbpProtocolError port) s =
        .next (ran s (protocolError port s))) ∧
    (∀ (port : Fin 2),
      exec (.doorbellStroke port) s =
        .next (ran s (runDoor port [1] s))) ∧
    (∀ (port : Fin 2),
      exec (.doorbellTally port) s =
        .next (ran s (runDoor port [2] s))) ∧
    (∀ (port : Fin 2),
      exec (.queuePull port) s =
        .next (ran s (runDoor port [3] s))) ∧
    (∀ (port : Fin 2),
      exec (.queuePush port) s =
        .next (ran s (runDoor port [4] s))) ∧
    (∀ (port : Fin 2),
      exec (.doorbellMailbox port) s =
        .next (ran s (runDoor port [5] s))) ∧
    (∀ (port : Fin 2),
      exec (.doorbellBadOp port) s =
        .next (ran s (badDoor port s))) ∧
    (∀ (port : Fin 2),
      exec (.doorbellDone port) s =
        .next (ran s (badDoor port (runDoor port [1, 2, 3, 4, 5] s)))) ∧
    (∀ (port : Fin 2) (data : List Nat) (k : Fin 8),
      windowServed s port k = true →
      exec (.pageCommit port data) s =
        .next (ran s (lastBytes port 0x30 data s))) ∧
    (∀ (port : Fin 2) (k : Fin 8),
      windowServed s port k = true →
      exec (.refill port) s =
        .next (ran s (startFill port s))) ∧
    (∀ (port : Fin 2) (region unit : Nat) (rest : List Issue) (k a : Nat),
      (rbpSt s port).issues = .fill region unit :: rest →
      slotOfRbp s port = some k →
      regionAddr s k region (2048 * unit) 2048 = some a →
      exec (.pageFillDone port) s =
        .next (ran s ((overlayThroughs port region unit (fillLines port k 32 0x800 a (issued port s))).off (R.PAGE_STATUS.FILLING port)))) ∧
    (∀ (port : Fin 2) (offset : Nat) (data : List Nat) (k : Fin 8) (off : Nat) (bs : List Nat),
      windowServed s port k = true →
      laneBytes s port offset data = (off, bs) →
      0x800 ≤ off →
      off + bs.length ≤ 0x1000 →
      bs.isEmpty = false →
      exec (.pagedViewWrite port offset data) s =
        .next (ran s (post port (.view off bs) s))) ∧
    (∀ (port : Fin 2) (region : Nat) (bs : List (Nat × Nat)) (rest : List Issue) (k : Nat),
      (rbpSt s port).issues = .through region bs :: rest →
      slotOfRbp s port = some k →
      exec (.writeThroughAnswer port) s =
        .next (ran s ((byteRuns bs).foldl (fun a run =>
        match regionAddr a k region run.1 run.2.length with
        | some addr =>
          let r := unitWrite k addr run.2 a
          if r.1.refused then r.2.on (R.PAGE_STATUS.REFUSED port) else if r.1.err != 0 then r.2.on (R.PAGE_STATUS.ERROR port) else r.2
        | none => (memRefuse k a).on (R.PAGE_STATUS.REFUSED port)) (issued port s)))) ∧
    (∀ (port : Fin 2) (bits : Nat) (k : Fin 8),
      windowServed s port k = true →
      exec (.winIrqClear port bits) s =
        .next (ran s (post port (.irq (bits % 512)) s))) ∧
    (∀ (port : Fin 2) (dir : Bool) (k : Fin 8) (t : State) (a : Nat),
      windowServed s port k = true →
      dmaRunning s port = false →
      t = (s.wrB (R.DMA_CTRL.DIR port) dir).wr (R.DMA_STATUS.MOVED port) 0 →
      dmaFits t port = true →
      regionAddr t k (t.rd (R.DMA_REGION.REGION port)) (t.rd (R.DMA_OFFSET.OFFSET port)) (t.rd (R.DMA_LEN.BYTES port)) = some a →
      exec (.dmaGo port dir false) s =
        .next (ran s (settle port (changeRbp port (fun x => { x with
            job := ⟨t.rd (R.DMA_HOST.ADDR port), t.rd (R.DMA_REGION.REGION port), t.rd (R.DMA_OFFSET.OFFSET port), t.rd (R.DMA_LEN.BYTES port),
              dir, t.isSet (R.DMA_CTRL.NOTIFY port), t.rd (R.DMA_CTRL.TAG port), t.rd (R.DMA_DONE_ADDR.ADDR port)⟩
            dma := 5, issues := x.issues ++ [.dmaStart] }) (t.wr (R.DMA_STATUS.STATE port) 1))))) ∧
    (∀ (port : Fin 2) (cycles : Nat) (data : List Nat) (k : Fin 8),
      slotOfRbp s port = some k.val →
      rbpServing s port = true →
      dmaRunning s port = true →
      exec (.dmaCancel port cycles data) s =
        .next (ran s (endDma port 6 (if (rbpSt s port).dma = 2 then (burstCycles port k cycles data s).2.2 else s)))) ∧
    (∀ (port : Fin 2),
      dmaRunning s port = true →
      (rbpSt s port).dma = 1 →
      exec (.dmaGrant port) s =
        .next (ran s (setDma port 2 (retryEnd (rbpSrc port 2) s)))) ∧
    (∀ (port : Fin 2) (data : List Nat),
      dmaRunning s port = true →
      (rbpSt s port).dma = 2 →
      exec (.dmaBurstEnd port data) s =
        .next (ran s (burst port 255 data (releaseBus port) s))) ∧
    (∀ (port : Fin 2),
      dmaRunning s port = true →
      (rbpSt s port).dma = 3 →
      exec (.dmaReleaseExpire port) s =
        .next (ran s (requestBus port s))) ∧
    (∀ (port : Fin 2),
      dmaRunning s port = true →
      (rbpSt s port).dma = 1 →
      exec (.dmaGrantTimeout port) s =
        .next (ran s (failOrRetry (rbpSrc port 2) (fun t => if dmaRunning t port then endDma port 4 t else t) ((setDma port 4 s).emit (.busRequest port false))))) ∧
    (∀ (port : Fin 2) (cycles : Nat) (data : List Nat),
      dmaRunning s port = true →
      (rbpSt s port).dma = 2 →
      exec (.dmaGrantWithdrawn port cycles data) s =
        .next (ran s (burst port cycles data (releaseBus port) s)))

/-- Each request of a host to a hub port does what its row of the table says: each command runs to the next state shown (ch. 13: R260 to R282). -/
def Obligations.HubRequestsComplete : Prop :=
  ∀ s : State,
    (∀ (slot : Fin 8) (port : Fin 16) (tile : Nat) (buffer : Fin 2),
      portServed s slot port tile = true →
      hasTts s slot = true →
      exec (.clearTtBuffer slot port buffer) s =
        .next (ran s (changeTt slot (fun x => { x with buffers := x.buffers.eraseIdx buffer }) tile s))) ∧
    (∀ (slot : Fin 8) (port : Fin 16) (tile : Nat),
      portServed s slot port tile = true →
      hasTts s slot = true →
      exec (.resetTt slot port) s =
        .next (ran s (changeTt slot (fun _ => Translator.reset) tile s))) ∧
    (∀ (slot : Fin 8) (port : Fin 16) (tile : Nat),
      portServed s slot port tile = true →
      hasTts s slot = true →
      exec (.getTtState slot port) s =
        .next (ran s ((s.emit (.usb slot (leBytes 4 (s.freeVal 0)))).drew 1))) ∧
    (∀ (slot : Fin 8) (port : Fin 16) (tile : Nat),
      portServed s slot port tile = true →
      hasTts s slot = true →
      exec (.stopTt slot port) s =
        .next (ran s (changeTt slot (fun x => { x with stopped := true }) tile s))) ∧
    (∀ (slot : Fin 8) (depth : Nat),
      hubServed s slot = true →
      exec (.setHubDepth slot depth) s =
        .next (ran s { s with hubDepth := Tab.put 0 s.hubDepth slot depth })) ∧
    (∀ (slot : Fin 8) (port : Fin 16) (tile : Nat) (counts : LinkCounts) (t : State),
      portServed s slot port tile = true →
      t = countLink tile counts s →
      exec (.getPortErrCount slot ⟨port, counts⟩) s =
        .next (ran s (t.emit (.usb slot (leBytes 2 (portOf t slot port).errors))))) ∧
    (∀ (slot : Fin 8) (port : Fin 16) (tile : Nat),
      portServed s slot port tile = true →
      exec (.setPortPower slot port) s =
        .next (ran s (syncPath tile ((s.on (R.HUB_PORT.POWER slot port)).off (R.HUB_PORT.OVER_CURRENT slot port))))) ∧
    (∀ (slot : Fin 8) (port : Fin 16) (tile : Nat),
      portServed s slot port tile = true →
      isTaprootHub s slot = false →
      exec (.clearPortPower slot port) s =
        .next (ran s (portDisconnect tile (syncPath tile (s.off (R.HUB_PORT.POWER slot port)))))) ∧
    (∀ (slot : Fin 8) (port : Fin 16) (tile : Nat),
      portServed s slot port tile = true →
      exec (.portReset slot port) s =
        .next (ran s (beginReset slot port 1 tile s))) ∧
    (∀ (slot : Fin 8) (port : Fin 16) (tile : Nat),
      portServed s slot port tile = true →
      4 ≤ s.rd (R.HUB_PORT.SPEED slot port) →
      exec (.bhPortReset slot port) s =
        .next (ran s (beginReset slot port 2 tile s))) ∧
    (∀ (slot : Fin 8) (port : Fin 16) (tile : Nat),
      portServed s slot port tile = true →
      s.rd (R.HUB_PORT.SPEED slot port) < 4 →
      s.isSet (R.HUB_PORT.ENABLED slot port) = true →
      exec (.portSuspend slot port true) s =
        .next (ran s (modPort slot port (fun p => { p with selective := true }) (setLink tile 7 s)))) ∧
    (∀ (slot : Fin 8) (port : Fin 16) (tile : Nat),
      portServed s slot port tile = true →
      s.rd (R.HUB_PORT.SPEED slot port) < 4 →
      s.isSet (R.HUB_PORT.ENABLED slot port) = true →
      s.rd (R.HUB_PORT.LINK slot port) = 7 →
      exec (.portSuspend slot port false) s =
        .next (ran s (modPort slot port (fun p => { p with selective := false, cSuspend := true }) (setLink tile 3 s)))) ∧
    (∀ (slot : Fin 8) (port : Fin 16) (tile : Nat),
      portServed s slot port tile = true →
      4 ≤ s.rd (R.HUB_PORT.SPEED slot port) →
      s.rd (R.HUB_PORT.LINK slot port) = 7 →
      exec (.portLinkState slot port 0) s =
        .next (ran s (modPort slot port (fun p => { p with selective := false, cLink := true }) (setLink tile 3 s)))) ∧
    (∀ (slot : Fin 8) (port : Fin 16) (tile : Nat),
      portServed s slot port tile = true →
      4 ≤ s.rd (R.HUB_PORT.SPEED slot port) →
      s.rd (R.HUB_PORT.LINK slot port) = 3 →
      exec (.portLinkState slot port 3) s =
        .next (ran s (modPort slot port (fun p => { p with selective := true }) (setLink tile 7 s)))) ∧
    (∀ (slot : Fin 8) (port : Fin 16) (tile : Nat) (value : Nat),
      portServed s slot port tile = true →
      exec (.portU1Timeout slot port value) s =
        .next (ran s (modPort slot port (fun p => { p with u1 := value % 256 }) s))) ∧
    (∀ (slot : Fin 8) (port : Fin 16) (tile : Nat) (value : Nat),
      portServed s slot port tile = true →
      exec (.portU2Timeout slot port value) s =
        .next (ran s (modPort slot port (fun p => { p with u2 := value % 256 }) s))) ∧
    (∀ (slot : Fin 8) (port : Fin 16) (tile : Nat) (value : Nat),
      portServed s slot port tile = true →
      exec (.portRemoteWakeMask slot port value) s =
        .next (ran s (modPort slot port (fun p => { p with wakeMask := value % 256 }) s))) ∧
    (∀ (slot : Fin 8) (port : Fin 16) (tile : Nat) (set : Bool),
      portServed s slot port tile = true →
      exec (.forceLinkpmAccept slot port set) s =
        .next (ran s (modPort slot port (fun p => { p with linkpm := set }) s))) ∧
    (∀ (slot : Fin 8) (port : Fin 16) (tile : Nat) (value : Nat),
      portServed s slot port tile = true →
      exec (.portTest slot port value) s =
        .next (ran s (modPort slot port (fun p => { p with test := value }) s))) ∧
    (∀ (slot : Fin 8) (port : Fin 16),
      hubServed s slot = true →
      exec (.portIndicator slot port) s =
        .next (ran s (stallPort slot s))) ∧
    (∀ (slot : Fin 8) (part : UsbPart) (request : UsbRequest),
      inRecovery s = false →
      isVirtualHub s slot = true →
      upActive s slot = true →
      part ≠ .function →
      (part = .usb3 → upSuper s slot = true) →
      exec (.standardRequest slot part request) s =
        .next (ran s (hubStandard slot part request s))) ∧
    (∀ (slot : Fin 8) (request : UsbRequest),
      inRecovery s = false →
      (isVirtualHub s slot = true ∨ configured s = false) →
      upActive s slot = true →
      exec (.standardRequest slot .function request) s =
        .next (ran s (functionStandard slot request s))) ∧
    (∀ (slot : Fin 8) (part : UsbPart) (request : UsbRequest),
      inRecovery s = true →
      slot.val = 0 →
      linkOf s 0 = 3 →
      exec (.standardRequest slot part request) s =
        .next (ran s (dfuStandard request s)))

/-- Events of the USB links change the tiles and ports: each command runs to the next state shown (ch. 13: R260 to R282). -/
def Obligations.TileLinkEventsComplete : Prop :=
  ∀ s : State,
    (∀ (slot : Fin 8) (value index length : Nat),
      upActive s slot = true →
      vendorLength length = true →
      value % 4 = 0 →
      exec (.vendorRegRead slot value index length) s =
        .next (ran s ((List.range (length / 4)).foldl (fun t k => takeAcc ⟨slot, vendorAddr value index + 4 * k, none, .usb k⟩ t)
        { s with vendor := Tab.put [] s.vendor slot (List.replicate (length / 4) none) }))) ∧
    (∀ (slot : Fin 8) (value index : Nat) (words : List Nat),
      upActive s slot = true →
      vendorLength (4 * words.length) = true →
      value % 4 = 0 →
      exec (.vendorRegWrite slot value index words) s =
        .next (ran s ((words.zipIdx).foldl (fun t e => takeAcc ⟨slot, vendorAddr value index + 4 * e.2, some (e.1 % 2 ^ 32, 15), .usb e.2⟩ t) s))) ∧
    (∀ (slot : Fin 8) (request value length : Nat),
      upActive s slot = true →
      request ≠ 0xB1 →
      request ≠ 0xB2 →
      exec (.vendorRequestStall slot request value length) s =
        .next (ran s (s.emit (.usbStall slot)))) ∧
    (∀ (slot : Fin 8),
      Tab.look false s.irqNews slot = true →
      functionRuns s slot = true →
      exec (.interruptInPoll slot) s =
        .next (ran s { s.emit (.usb slot (leBytes 4 (irqWord s slot))) with irqNews := Tab.put false s.irqNews slot false })) ∧
    (∀ (tile : Fin 14) (n : Nat) (slot k : Nat) (t : State),
      portOfTile s tile = some (slot, k) →
      (portOf s slot k).resetting ≠ 0 →
      t = modPort slot k (fun p => { p with resetting := 0, cReset := true, cWarm := p.cWarm || decide (p.resetting = 2) }) s →
      t.isSet (R.HUB_PORT.CONNECT slot k) = true →
      exec (.portResetComplete tile (.speed n)) s =
        .next (ran s (retryEnd (tileSrc tile 6) (setSpeed tile (speedFound s slot n) (setLink tile 3 (t.on (R.HUB_PORT.ENABLED slot k))))))) ∧
    (∀ (tile : Fin 14),
      runsDetection s tile = true →
      exec (.receiverDetection tile .absent) s =
        .next (ran s s)) ∧
    (∀ (tile : Fin 14) (gen2 : Bool),
      runsDetection s tile = true →
      exec (.receiverDetection tile (.trained gen2)) s =
        .next (ran s (retryEnd (tileSrc tile 6) (portConnect tile (if gen2 then 5 else 4) s)))) ∧
    (∀ (tile : Fin 14),
      runsDetection s tile = true →
      exec (.ssDetectTimeout tile) s =
        .next (ran s (changePort tile (fun p => { p with watch := true }) s))) ∧
    (∀ (tile : Fin 14) (low : Bool),
      awaitsConnect s tile = true →
      runsDetection s tile = false →
      exec (.usb2Connect tile low) s =
        .next (ran s (portConnect tile (if low then 1 else 2) s))) ∧
    (∀ (tile : Fin 14) (slot : Nat),
      isDfu s tile = false →
      slotOfUpTile s tile = some slot →
      exec (.upTileDetach tile) s =
        .next (ran s (upGone slot tile 1 s))) ∧
    (∀ (tile : Fin 14),
      isDfu s tile = true →
      exec (.upTileDetach tile) s =
        .next (ran s (dfuGone s))) ∧
    (∀ (slot : Fin 8),
      isVirtualHub s slot = true →
      upLinked s slot = true →
      exec (.hubResetByHost slot) s =
        .next (ran s (hubDefault slot (match upTileOf s slot with | some t => setLink t 3 s | none => s)))) ∧
    (∀ (tile : Fin 14) (besl : Nat) (busy : Bool),
      besl ≤ 1000 →
      linkOf s tile = 3 →
      s.rd (R.TILE_STATUS.SPEED tile) = 3 →
      (busy = false ∨ forcesLpm s tile = true) →
      exec (.lpmToken (.tile tile) ⟨besl, busy⟩) s =
        .next (ran s (setLink tile 4 s))) ∧
    (∀ (slot : Fin 8) (besl k : Nat) (busy : Bool),
      k = hubPorts s slot + 1 →
      isVirtualHub s slot = true →
      besl ≤ 1000 →
      portLink s slot k = 3 →
      s.rd (R.HUB_PORT.SPEED slot k) = 3 →
      (busy = false ∨ (portOf s slot k).linkpm = true) →
      exec (.lpmToken (.function slot) ⟨besl, busy⟩) s =
        .next (ran s (setPortLink slot k 4 s))) ∧
    (∀ (tile : Fin 14) (entry : LinkEntry) (t : State) (slot k l : Nat),
      t = countLink tile entry.counts s →
      4 ≤ t.rd (R.TILE_STATUS.SPEED tile) →
      portOfTile t tile = some (slot, k) →
      linkMoves (portOf t slot k) (linkOf t tile) entry.move = some l →
      exec (.u1U2Entry (.tile tile) entry) s =
        .next (ran s (setLink tile l t))) ∧
    (∀ (slot : Fin 8) (entry : LinkEntry) (k l : Nat),
      k = hubPorts s slot + 1 →
      isVirtualHub s slot = true →
      portSuper s slot k = true →
      linkMoves (portOf s slot k) (portLink s slot k) entry.move = some l →
      exec (.u1U2Entry (.function slot) entry) s =
        .next (ran s (setPortLink slot k l s))) ∧
    (∀ (slot : Fin 8) (u : Nat),
      isVirtualHub s slot = true →
      upLinked s slot = true →
      upTileOf s slot = some u →
      exec (.globalSuspend slot) s =
        .next (ran s ((List.range' 1 15).foldl (fun a k => if 3 ≤ portLink a slot k && portLink a slot k ≤ 6 then setPortLink slot k 7 a else a)
          ((setLink u 7 s).wr (R.HUB_SELF.STATE slot) 3)))) ∧
    (∀ (tile : Fin 14) (slot : Nat),
      slotOfUpTile s tile = some slot →
      linkOf s tile = 7 →
      exec (.hostResume tile) s =
        .next (ran s (resumeHub slot (setLink tile 3 (ringBell tile false s))))) ∧
    (∀ (tile : Fin 14) (funcWake : Bool) (slot k : Nat) (t : State),
      t = ringBell tile false s →
      portOfTile t tile = some (slot, k) →
      isVirtualHub t slot = true →
      linkOf t tile = 7 →
      wakeEnabled t slot k funcWake = true →
      wakePermit t slot = true →
      exec (.deviceRemoteWake tile funcWake) s =
        .next (ran s (setIrq slot 4 ((setLink tile 8 t).emit (.wake slot))))) ∧
    (∀ (tile : Fin 14) (slot : Nat) (t : State),
      t = ringBell tile false s →
      linkOf t tile = 7 →
      4 ≤ t.rd (R.TILE_STATUS.SPEED tile) →
      slotOfUpTile t tile = some slot →
      exec (.u3ExitLfps tile) s =
        .next (ran s (resumeHub slot (setLink tile 3 t)))) ∧
    (∀ (slot : Fin 8) (port : Fin 16) (splits : Splits) (t : Nat) (x old : Translator) (s1 : State),
      tileOfPort s slot port = some t →
      hasTts s slot = true →
      Tab.look Translator.reset s.tts (ttOf s slot t) = x →
      Tab.look Translator.reset s.tts (ttBefore s slot t) = old →
      s1 = (if ttBefore s slot t = ttOf s slot t then s
        else putTt (ttBefore s slot t) { old with buffers := old.buffers.drop splits.doneOther } s) →
      x.stopped = false →
      exec (.ttSplitDiscard ⟨slot, port, splits⟩) s =
        .next (ran s (discardSplits slot (splits.periodic - min splits.periodic 16 + min splits.late (min splits.periodic 16))
          (putTt (ttOf s slot t) { x with
              periodic := min splits.periodic 16 - min splits.late (min splits.periodic 16)
              buffers := (x.buffers.drop splits.done ++ splits.bulk.map (List.take 64)).take 2 } s1)))) ∧
    (∀ (slot : Fin 8),
      exec (.scheduleMiss slot) s =
        .next (ran s (occur 161 (s.bump (R.HUB_COUNTS.SCHEDULE_MISSES slot) 1))))

/-- Taproot enumerates devices and posts what they report: each command runs to the next state shown (ch. 14: R283 to R304). -/
def Obligations.TaprootReportsComplete : Prop :=
  ∀ s : State,
    (∀ (slot : Fin 8) (dev : Found) (a h : Nat) (d0 d : TapDev) (t : State),
      tapState s slot = 1 →
      placeExists s slot dev = true →
      triesWait s slot dev = false →
      overLimit s slot dev = none →
      dev.config.length ≤ 1024 →
      t = resetPlace slot dev.root dev.hub1 dev.hub2 s →
      lowestFree ((busOf t slot).devs.map TapDev.addr) 127 = some a →
      lowestFree ((busOf t slot).devs.map TapDev.handle ++ (busOf t slot).freed) 32 = some h →
      d0 = ⟨h, a, dev.speed, dev.root, dev.hub1, dev.hub2, dev.device.take 18, dev.config, dev.hids, dev.blocks, dev.unscheduled, [], false, false, 0, [], 0, none, none, false⟩ →
      d = { d0 with binds := (bindDevice (busOf t slot) d0).1, limit := (bindDevice (busOf t slot) d0).2 } →
      exec (.taprootEnumerate slot dev none) s =
        .next (ran s (announce slot d
          (setUp slot h d.binds (askDevice slot d
            (changeBus slot (fun b => { b with devs := b.devs ++ [d] }) (enableRoot slot dev (endTries slot dev t)))))))) ∧
    (∀ (slot : Fin 8) (handle : Nat) (d : TapDev) (report : List Nat),
      devOf s slot handle = some d →
      busRuns s slot = true →
      bit d.services 0 = true →
      d.claimed = false →
      d.suspended = false →
      (((report.drop 2).take 6).filter (· != 0)).contains 1 = false →
      exec (.keyboardReport slot handle report) s =
        .next (ran s (raiseDrops (postKeys slot handle 0 (keyChanges d.mods d.keys (report.getD 0 0 % 256) (((report.drop 2).take 6).filter (· != 0)))
        (changeDev slot handle (fun d => { d with mods := report.getD 0 0 % 256, keys := (((report.drop 2).take 6).filter (· != 0)).eraseDups }) s))))) ∧
    (∀ (slot : Fin 8) (handle : Nat) (d : TapDev) (report : List Nat) (t : State),
      devOf s slot handle = some d →
      busRuns s slot = true →
      bit d.services 1 = true →
      d.claimed = false →
      d.suspended = false →
      t = changeDev slot handle (fun d => { d with buttons := report.getD 0 0 % 256 }) s →
      pullOf (busOf t slot) 2 = [] →
      exec (.pointerReport slot handle report) s =
        .next (ran s (postRecord slot 2 0x20 handle 0 0 (leBytes 2 (unsigned 16 (signed 8 (report.getD 1 0))) ++ leBytes 2 (unsigned 16 (signed 8 (report.getD 2 0)))
        ++ [report.getD 3 0 % 256, report.getD 0 0 % 256]) t))) ∧
    (∀ (slot : Fin 8) (handle iface id : Nat) (d : TapDev) (body : List Nat) (r : List HidField × List Nat),
      devOf s slot handle = some d →
      busRuns s slot = true →
      bit d.services 2 = true →
      d.claimed = false →
      d.suspended = false →
      pullOf (busOf s slot) 3 = [] →
      d.isPad iface = true →
      r = reportOf (d.hid iface) (reportBytes id body) →
      exec (.padReport slot handle iface id body) s =
        .next (ran s (postRecord slot 3 0x30 handle 0 0 (((((axesOf r.1 r.2).map mapAxis) ++ List.replicate 8 0).take 8).flatMap (leBytes 2)
          ++ leBytes 4 (buttonsOf r.1 r.2) ++ [hatOf r.1 r.2]) s))) ∧
    (∀ (slot : Fin 8) (r : List Nat) (rest : List (List Nat)),
      pushOf (busOf s slot) 1 = r :: rest →
      busRuns s slot = true →
      exec (.leds slot) s =
        .next (ran s ((resumeDev slot (r.getD 1 0) (changeBus slot (setPush 1 rest) s)).emit (.device slot (r.getD 1 0) 0 [r.getD 8 0])))) ∧
    (∀ (slot : Fin 8) (handle : Nat) (d : TapDev) (data : List Nat),
      devOf s slot handle = some d →
      busRuns s slot = true →
      bit d.services 4 = true →
      d.claimed = false →
      d.suspended = false →
      exec (.serialRxData slot handle data) s =
        .next (ran s (rxBytes slot handle data s))) ∧
    (∀ (slot : Fin 8) (handle : Nat) (d : TapDev) (bits : Nat),
      devOf s slot handle = some d →
      busRuns s slot = true →
      bit d.services 4 = true →
      d.claimed = false →
      d.suspended = false →
      exec (.serialStateNotify slot handle bits) s =
        .next (ran s (postRecord slot 5 0x59 handle 0 0 [bits % 128] s))) ∧
    (∀ (slot : Fin 8) (handle : Nat) (d : TapDev),
      devOf s slot handle = some d →
      exec (.taprootDeviceDetach slot (.device handle)) s =
        .next (ran s (detachDevice slot d s))) ∧
    (∀ (slot : Fin 8) (root hub1 hub2 : Nat),
      exec (.taprootDeviceDetach slot (.place root hub1 hub2)) s =
        .next (ran s (detachPlace slot root hub1 hub2 s))) ∧
    (∀ (slot : Fin 8) (handle : Nat) (d : TapDev) (t : State),
      devOf s slot handle = some d →
      dormantState s = 0 →
      t = (match tileOfPort s slot d.root with | some t => ringBell t false s | none => s) →
      exec (.taprootRemoteWake slot handle) s =
        .next (ran s (completeWake slot t handle))) ∧
    (exec .taprootHalt s = .next (ran s ((List.range 8).foldl (fun a k =>
    if busRuns a k then
      (postRecord k 0 0x06 0 0 0 [] ((busOf a k).devs.foldl (endDevice k 162) a)).wr (R.TAP_STATUS.STATE k) 3
    else a) (occur 162 s)))) ∧
    (isSticky s 162 = false →
      exec .taprootRestart s = .next (ran s ((List.range 8).foldl (fun a k =>
      if tapState a k = 3 then
        (downTiles a k).foldl (fun b t => if s.isSet (R.TILE_STATUS.VBUS_ON t) then b.bump (R.TILE_COUNTS.RESETS t) 1 else b)
          ((changeBus k (fun b => { b with disabled := [] }) a).wr (R.TAP_STATUS.STATE k) 1)
      else a) s)))

/-- Taproot serves block, serial and pipe requests and its mailbox operations: each command runs to the next state shown (ch. 14: R283 to R304). -/
def Obligations.TaprootServicesComplete : Prop :=
  ∀ s : State,
    (∀ (slot : Fin 8) (handle : Nat) (d : TapDev) (r : List Nat) (data : List Nat) (result : BlockEnd) (a : Nat) (p : Nat × Bool × State) (t : State),
      blockHead s slot handle = some (d, r) →
      r.getD 0 0 = 0x40 →
      d.begun = none →
      result ≠ .running →
      blockRange (resumeDev slot handle s) slot r (blockSize d) = some a →
      sweepUse .usb ((resumeDev slot handle s).emit (.command slot handle (blockCdb false (recU r 8 8) (recU r 16 4)))) = (false, t) →
      putBlocks slot (blockSize d) a (recU r 16 4) data 0 t = p →
      exec (.blockRead slot handle data result) s =
        .next (ran s (endBlock slot handle (if p.2.1 then blockEnding 4 0 0 0 p.1 [] else endingOf result p.1 (recU r 16 4) []) (afterCommand slot d result p.2.2)))) ∧
    (∀ (slot : Fin 8) (handle : Nat) (d : TapDev) (r : List Nat) (acked : Nat) (result : BlockEnd) (a : Nat) (p : Nat × Bool × State) (t : State),
      blockHead s slot handle = some (d, r) →
      r.getD 0 0 = 0x41 →
      d.begun = none →
      result ≠ .running →
      blockRange (resumeDev slot handle s) slot r (blockSize d) = some a →
      sweepUse .usb ((resumeDev slot handle s).emit (.command slot handle (blockCdb true (recU r 8 8) (recU r 16 4)))) = (false, t) →
      getBlocks slot (blockSize d) a handle (recU r 16 4) 0 t = p →
      exec (.blockWrite slot handle acked result) s =
        .next (ran s (endBlock slot handle (if p.2.1 then blockEnding 4 0 0 0 (min acked p.1) [] else endingOf result (min acked p.1) (recU r 16 4) []) (afterCommand slot d result p.2.2)))) ∧
    (∀ (slot : Fin 8) (handle : Nat) (d : TapDev) (r : List Nat) (blocks size : Nat) (result : BlockEnd),
      blockHead s slot handle = some (d, r) →
      r.getD 0 0 = 0x42 →
      d.begun = none →
      result ≠ .running →
      exec (.capacity slot handle blocks size result) s =
        .next (ran s (endBlock slot handle (endingOf result 0 0 (if result = .good then leBytes 8 blocks ++ leBytes 4 size else []))
          (afterCommand slot d result ((resumeDev slot handle s).emit (.command slot handle (0x25 :: List.replicate 9 0))))))) ∧
    (∀ (slot : Fin 8) (handle : Nat) (d : TapDev) (r : List Nat) (e : List Nat),
      devOf s slot handle = some d →
      (pushOf (busOf s slot) 4).find? (isBlockReq handle) = some r →
      d.ended = some e →
      exec (.blockRequestDone slot handle) s =
        .next (ran s (raiseDrops (postDone slot r e 0 (changeDev slot handle (fun d => { d with ended := none })
          (changeBus slot (fun b => setPush 4 (dropFirst (isBlockReq handle) (pushOf b 4)) b) s)))))) ∧
    (∀ (slot : Fin 8) (handle : Nat) (r : List Nat),
      serialHead s slot handle 0x50 = some r →
      exec (.tx slot handle) s =
        .next (ran s ((takeSerial slot handle s).emit (.device slot handle 2 ((r.drop 8).take (r.getD 3 0)))))) ∧
    (∀ (slot : Fin 8) (handle : Nat) (r : List Nat),
      serialHead s slot handle 0x51 = some r →
      exec (.line slot handle) s =
        .next (ran s (sendLine slot handle ((r.drop 4).take 7) (r.getD 11 0) (takeSerial slot handle s)))) ∧
    (∀ (slot pipe : Fin 8) (packets retries used : Nat) (data : List Nat) (x : Pipe) (d : List Nat) (rest : List (List Nat)),
      pipeOf s slot pipe = some x →
      x.pending = d :: rest →
      x.started = false →
      x.halted = false →
      busRuns s slot = true →
      s.rd R.DORMANT_STATUS.STATE = 0 →
      x.kind ≠ 0 →
      (sweepUse .pipes (resumeDev slot x.handle s)).1 = false →
      used = min retries (retryBound x d (min packets (pipeUnits x d))) →
      exec (.pipeTransfer slot pipe packets retries data) s =
        .next (ran s (
      let r := movePackets slot d (bit (d.getD 2 0) 0) data (min packets (pipeUnits x d)) 0
        ({ x with started := true, retries := used }, (sweepUse .pipes (resumeDev slot x.handle s)).2)
      putPipe slot pipe (some r.1) (r.2.bump (R.TAP_COUNTS.XACT_RETRIES slot) used)))) ∧
    (∀ (slot pipe : Fin 8) (x : Pipe) (d : List Nat) (rest : List (List Nat)),
      pipeOf s slot pipe = some x →
      x.pending = d :: rest →
      x.started = true →
      exec (.pipeTransferEnd slot pipe .complete) s =
        .next (ran s (endTransfer slot pipe false false 0 (statusStage slot x d s)))) ∧
    (∀ (slot pipe : Fin 8) (x : Pipe) (d : List Nat) (rest : List (List Nat)),
      pipeOf s slot pipe = some x →
      x.pending = d :: rest →
      x.started = true →
      exec (.pipeTransferEnd slot pipe .stall) s =
        .next (ran s (stallPipe slot pipe (endTransfer slot pipe false false 0 (failLast slot pipe (raiseDrops (pipeEvent slot pipe 0x81 d s))))))) ∧
    (∀ (slot pipe : Fin 8) (x : Pipe) (d : List Nat) (rest : List (List Nat)),
      pipeOf s slot pipe = some x →
      x.pending = d :: rest →
      x.started = true →
      recU d 20 2 ≠ 0 →
      exec (.pipeTransferTimeout slot pipe) s =
        .next (ran s (endTransfer slot pipe false false 0 (failLast slot pipe (raiseDrops (pipeEvent slot pipe 0x83 d s)))))) ∧
    (∀ (slot : Fin 8) (body : List Nat) (d : TapDev),
      mailWaits s slot 0x50 body = true →
      body.length = 4 →
      (rbpOf s slot).isSome = true →
      devOf s slot (recU body 0 4) = some d →
      exec (.deviceInfo slot) s =
        .next (ran s (setReply slot 0 (d.device ++ attachBody d) s))) ∧
    (∀ (slot : Fin 8) (body : List Nat) (d : TapDev),
      mailWaits s slot 0x51 body = true →
      body.length = 8 →
      (rbpOf s slot).isSome = true →
      devOf s slot (recU body 0 4) = some d →
      recU body 4 4 < d.config.length →
      exec (.descriptorRead slot) s =
        .next (ran s (setReply slot 0 ((d.config.drop (recU body 4 4)).take 240) s))) ∧
    (∀ (slot : Fin 8) (body : List Nat) (d : TapDev),
      mailWaits s slot 0x52 body = true →
      body.length = 8 →
      (rbpOf s slot).isSome = true →
      devOf s slot (recU body 0 4) = some d →
      recU body 4 4 = 1 →
      (pushOf (busOf s slot) 4).any (isBlockReq d.handle) = false →
      exec (.claim slot) s =
        .next (ran s (setReply slot 0 [] (changeBus slot (dropRecords d.handle)
        (changeDev slot d.handle (fun d => { d with claimed := true, binds := d.binds.filter (fun e => e.2 = 5), mods := 0, keys := [], buttons := 0 }) s))))) ∧
    (∀ (slot : Fin 8) (body : List Nat) (d : TapDev),
      mailWaits s slot 0x53 body = true →
      body.length = 12 →
      (rbpOf s slot).isSome = true →
      rawPipes s slot = true →
      recU body 0 4 < 8 →
      devOf s slot (recU body 4 4) = some d →
      (pipeOf s slot (recU body 0 4)).isNone = true →
      d.claimed = true →
      recU body 8 4 = 0 →
      d.ep0 ≠ 0 →
      exec (.pipeOpen slot) s =
        .next (ran s (setReply slot 0 ([0, 0, 0, 0] ++ leBytes 4 d.ep0)
      (putPipe slot (recU body 0 4) (some ⟨d.handle, 0, 0, 0, d.ep0, false, [], false, 0, 0, none, 0, 0, false, 0⟩) s)))) ∧
    (∀ (slot : Fin 8) (body : List Nat) (x : Pipe),
      mailWaits s slot 0x54 body = true →
      body.length = 4 →
      (rbpOf s slot).isSome = true →
      recU body 0 4 < 8 →
      pipeOf s slot (recU body 0 4) = some x →
      exec (.pipeClose slot) s =
        .next (ran s (setReply slot 0 [] (closePipe slot (recU body 0 4) false 0 s)))) ∧
    (∀ (slot : Fin 8) (body : List Nat) (x : Pipe),
      mailWaits s slot 0x55 body = true →
      body.length = 4 →
      (rbpOf s slot).isSome = true →
      recU body 0 4 < 8 →
      pipeOf s slot (recU body 0 4) = some x →
      exec (.pipeClearHalt slot) s =
        .next (ran s (setReply slot 0 [] ((putPipe slot (recU body 0 4) (some { x with halted := false }) s).emit
      (.device slot x.handle 0 ([2, 1, 0, 0] ++ leBytes 2 x.endpoint ++ [0, 0])))))) ∧
    (∀ (slot : Fin 8) (body : List Nat),
      mailWaits s slot 0x56 body = true →
      body.length = 8 →
      (rbpOf s slot).isSome = true →
      recU body 0 4 = 1 →
      exec (.taprootSuspend slot) s =
        .next (ran s (setReply slot 0 [] (suspendBus slot true s)))) ∧
    (∀ (slot : Fin 8) (body : List Nat),
      mailWaits s slot 0x56 body = true →
      body.length = 8 →
      (rbpOf s slot).isSome = true →
      recU body 0 4 = 0 →
      exec (.taprootSuspend slot) s =
        .next (ran s (setReply slot 0 [] (suspendBus slot false s)))) ∧
    (∀ (slot : Fin 8) (body : List Nat) (d : TapDev),
      mailWaits s slot 0x57 body = true →
      body.length = 4 →
      (rbpOf s slot).isSome = true →
      devOf s slot (recU body 0 4) = some d →
      exec (.portCycle slot) s =
        .next (ran s (setReply slot 0 [] (resetPlace slot d.root d.hub1 d.hub2 (raiseDrops ((behind (busOf s slot) d).foldl (endDevice slot 0) s))))))

/-- A tile follows its CC lines, its guards and its path: each command runs to the next state shown (ch. 15: R305 to R328). -/
def Obligations.TypeCEventsComplete : Prop :=
  ∀ s : State,
    (∀ (tile : Fin 14) (cc1 cc2 : Fin 7) (vbus : Nat) (up : UpConnect) (t : State),
      t = ringBell tile true (setCc tile cc1 cc2 (senseVbus tile vbus s)) →
      attachLine t tile cc1 cc2 ≠ 0 →
      attached t tile = false →
      isDfu s tile = false →
      exec (.typecAttach tile cc1 cc2 ⟨vbus, true⟩ up) s =
        .next (ran s (upConnect tile up (syncPath tile (freshPd tile ((t.wr (R.TILE_STATUS.ATTACH tile) 2).wr (R.TILE_STATUS.ORIENT tile) (attachLine t tile cc1 cc2))))))) ∧
    (∀ (tile : Fin 14) (cc1 cc2 : Fin 7) (vbus : Nat) (up : UpConnect) (t : State),
      t = ringBell tile true (setCc tile cc1 cc2 (senseVbus tile vbus s)) →
      attachLine t tile cc1 cc2 ≠ 0 →
      attached t tile = false →
      isDfu s tile = true →
      exec (.typecAttach tile cc1 cc2 ⟨vbus, true⟩ up) s =
        .next (ran s (dfuConnect up ((t.wr (R.TILE_STATUS.ATTACH tile) 2).wr (R.TILE_STATUS.ORIENT tile) (attachLine t tile cc1 cc2))))) ∧
    (∀ (tile : Fin 14) (cc1 cc2 : Fin 7) (vbus : Nat),
      attached s tile = true →
      isUp s tile = false →
      isDfu s tile = false →
      s.rd (R.TILE_STATUS.ORIENT tile) = 1 →
      cc1.val = 0 →
      exec (.typecDetach tile cc1 cc2 vbus) s =
        .next (ran s (detachTile tile (ringBell tile true (setCc tile cc1 cc2 (senseVbus tile vbus s)))))) ∧
    (∀ (tile : Fin 14) (cls : Fin 7),
      exec (.ccUnsettled tile false cls) s = .next (ran s (setCc tile cls (s.rd (R.TC_STATUS.CC_2 tile)) s)) ∧
      exec (.ccUnsettled tile true cls) s = .next (ran s (setCc tile (s.rd (R.TC_STATUS.CC_1 tile)) cls s))) ∧
    (∀ (tile : Fin 14),
      s.isSet (R.TC_STATUS.VCONN_ON tile) = true →
      exec (.vconnLimit tile) s =
        .next (ran s (occur (pdSrc tile) ((s.off (R.TC_STATUS.VCONN_ON tile)).off (R.TC_STATUS.EMARKED_5A tile))))) ∧
    (∀ (tile : Fin 14) (vout : Nat),
      isDown s tile = true →
      pathOf s tile = 3 →
      dormantState s = 0 →
      ((contractMv s tile : Int) - vout) * (f32Rat (tcOf s tile).gain).2 > (f32Rat (tcOf s tile).gain).1 →
      exec (.voltageLoop tile vout) s =
        .next (ran s (if s.isSet (R.PWR_DRIVE.CL_ACTIVE tile)
          then clFlag tile (s.wr (R.PWR_DRIVE.CODE tile) (min (s.rd (R.PWR_DRIVE.CODE tile) + 1) 1023))
          else s.wr (R.PWR_DRIVE.CODE tile) (min (s.rd (R.PWR_DRIVE.CODE tile) + 1) 1023)))) ∧
    (∀ (tile : Fin 14) (ibus vbus : Nat),
      isDown s tile = true →
      pathOf s tile = 3 →
      s.rd (R.PD_CONTRACT.KIND tile) = 3 →
      dormantState s = 0 →
      signed 16 ibus > (50 * s.rd (R.PD_CONTRACT.CURRENT tile) : Nat) →
      s.rd (R.PWR_DRIVE.CODE tile) > (setCode (tcOf s tile) (100 * bits (((tcOf s tile).objs[s.rd (R.PD_CONTRACT.POSITION tile) - 1]?).getD 0) 8 8)).toNat →
      exec (.currentLimitLoop tile ibus vbus) s =
        .next (ran s (clFlag tile (((senseVbus tile vbus s).wr (R.PWR_SENSE.IBUS tile) ibus).wr (R.PWR_DRIVE.CODE tile) (s.rd (R.PWR_DRIVE.CODE tile) - 1))))) ∧
    (∀ (tile : Fin 14),
      isUp s tile = true →
      isDown s tile = false →
      exec (.ovpTrip tile) s =
        .next (ran s (occur (tileSrc tile 1) (syncSink tile (changeTc tile (fun x => { x with gateBlock := setBit x.gateBlock 0 }) (s.bump (R.TC_COUNTS.TRIPS tile) 1)))))) ∧
    (∀ (tile : Fin 14),
      isDown s tile = true →
      s.rd (R.PD_CONTRACT.KIND tile) < 2 →
      exec (.ocpTrip tile) s =
        .next (ran s (occur (tileSrc tile 2) (portDisconnect tile (syncPath tile (overCurrent tile (tripDown tile (s.bump (R.TC_COUNTS.TRIPS tile) 1)))))))) ∧
    (∀ (tile : Fin 14),
      isDown s tile = true →
      exec (.reverseCurrentTrip tile true) s =
        .next (ran s (occur (tileSrc tile 3) (tripDown tile (s.bump (R.TC_COUNTS.TRIPS tile) 1))))) ∧
    (∀ (tile : Fin 14),
      isUp s tile = true →
      bit (tcOf s tile).gateBlock 0 = true →
      exec (.ovpRecovery tile) s =
        .next (ran s (sendHardReset tile (syncSink tile (changeTc tile (fun x => { x with gateBlock := clearBit x.gateBlock 0 }) s))))) ∧
    (∀ (tile : Fin 14) (vbus : Nat),
      pathOf s tile = 2 →
      isDown s tile = true →
      4750 ≤ vbus →
      vbus ≤ 5500 →
      (tcOf s tile).noContract = true →
      exec (.softStartComplete tile vbus) s =
        .next (ran s ((startVconn tile ((senseVbus tile vbus s).wr (R.TC_STATUS.PATH tile) 3)).wr (R.PD_CONTRACT.KIND tile) 1))) ∧
    (∀ (tile : Fin 14),
      isDown s tile = true →
      pathOf s tile = 2 →
      exec (.softStartLimit tile) s =
        .next (ran s (occur (tileSrc tile 2) (toDischarge tile s)))) ∧
    (∀ (tile : Fin 14) (vbus : Nat),
      isDown s tile = true →
      vbus < 800 →
      pathOf s tile = 5 →
      exec (.vbusSafeZero tile vbus) s =
        .next (ran s (syncPath tile (((senseVbus tile vbus s).off (R.PWR_DRIVE.DISCH tile)).wr (R.TC_STATUS.PATH tile) 0)))) ∧
    (∀ (tile : Fin 14),
      isDown s tile = true →
      pathOf s tile = 5 →
      exec (.dischargeLimit tile) s =
        .next (ran s (occur (tileSrc tile 3) s))) ∧
    (∀ (tile : Fin 14),
      (tcOf s tile).hold = true →
      vbusOf s tile < 800 →
      exec (.hardResetHoldExpire tile) s =
        .next (ran s (syncPath tile (changeTc tile (fun x => { x with hold := false }) s)))) ∧
    (∀ (tile : Fin 14) (cc1 cc2 sbu1 sbu2 : Nat),
      s.isSet (R.TILE_CFG.MOISTURE tile) = true →
      s.rd (R.TILE_STATUS.ATTACH tile) = 0 →
      moistDiscard s tile cc1 cc2 sbu1 sbu2 = false →
      isUp s tile = false →
      exec (.moistureTest tile cc1 cc2 sbu1 sbu2) s =
        .next (ran s (moistTest tile [cc1, cc2, sbu1, sbu2] s))) ∧
    (∀ (tile : Fin 14) (cc1 cc2 sbu1 sbu2 : Nat),
      s.isSet (R.TILE_CFG.MOISTURE tile) = true →
      s.isSet (R.TC_STATUS.DAMP tile) = true →
      s.rd (R.TILE_STATUS.ATTACH tile) ≠ 1 →
      isUp s tile = true →
      exec (.moistureRetest tile cc1 cc2 sbu1 sbu2) s =
        .next (ran s (moistResult tile [sbu1, sbu2] s))) ∧
    (∀ (t : Nat),
      queueTurn s = some t →
      exec .vbusQueueTurn s = .next (ran s (setGuards t 5000 (rpMa s t) ((((((s.wr (R.TC_STATUS.PATH t) 2).on (R.PWR_DRIVE.CONV_EN t)).on (R.PWR_DRIVE.GATE t))).on (R.TILE_STATUS.VBUS_ON t)).wr (R.PWR_DRIVE.CODE t) (setCode (tcOf s t) 5000).toNat)))) ∧
    (∀ (tile : Fin 14) (v : List Nat) (five : Bool),
      dormantState s = 0 →
      s.isSet (R.TC_STATUS.VCONN_ON tile) = true →
      (tcOf s tile).tries ≠ 0 →
      (tcOf s tile).cable.isEmpty = true →
      exec (.discoverIdentityReply tile (some v) five) s =
        .next (ran s ((putTc tile { tcOf s tile with cable := v.take 2 } s).wrB (R.TC_STATUS.EMARKED_5A tile) five))) ∧
    (∀ (tile : Fin 14) (vbus : Nat),
      isDown s tile = true →
      pathOf s tile = 0 →
      (senseVbus tile vbus s).isSet (R.TILE_STATUS.VBUS_PRESENT tile) = true →
      exec (.foreignVbus tile vbus) s =
        .next (ran s (occur (tileSrc tile 3) (senseVbus tile vbus s))))

/-- A tile serves the USB PD messages and timers: each command runs to the next state shown (ch. 15: R305 to R328). -/
def Obligations.PdMessagesComplete : Prop :=
  ∀ s : State,
    (∀ (tile : Fin 14) (objs : List Nat) (rev3 : Bool),
      pdTalks s tile = true →
      isUp s tile = true →
      (tcOf s tile).noContract = false →
      exec (.sourceCapabilities tile objs rev3) s =
        .next (ran s (negotiateSink tile rev3 ((tcOf s tile).fixedReq != 0) (changeTc tile (fun x => { x with objs := objs.take 7, rev3 := rev3 }) s)))) ∧
    (∀ (tile : Fin 14) (rdo : Nat) (rev3 : Bool) (c : Contract),
      pdTalks s tile = true →
      isDown s tile = true →
      pathOf s tile = 3 →
      (tcOf s tile).noContract = false →
      evaluateRequest s tile rdo rev3 = some c →
      exec (.pdRequest tile rdo rev3) s =
        .next (ran s (sendPd tile .accept (((changeTc tile (fun x => { x with pending := some c, moved := false, acked := true }) s).wr (R.TC_STATUS.PATH tile) 4).off
          (R.TC_STATUS.VCONN_ON tile))))) ∧
    (∀ (tile : Fin 14) (c : Contract),
      pdTalks s tile = true →
      (tcOf s tile).pending = some c →
      isUp s tile = true →
      (tcOf s tile).moved = true →
      exec (.psRdy tile) s =
        .next (ran s (changeTc tile (fun x => { x with fixedReq := if x.fixedReq = 1 then 2 else x.fixedReq }) (putContract tile c s)))) ∧
    (∀ (tile : Fin 14),
      pdTalks s tile = true →
      exec (.hardResetReceived tile) s =
        .next (ran s (hardReset tile s))) ∧
    (∀ (tile : Fin 14) (rev3 : Bool),
      pdTalks s tile = true →
      exec (.unsupportedPdMessage tile rev3) s =
        .next (ran s (sendPd tile (if rev3 then .notSupported else .reject) s))) ∧
    (∀ (tile : Fin 14),
      announces s tile = true →
      (tcOf s tile).repeats < 50 →
      exec (.sourceCapsRepeat tile) s =
        .next (ran s (sendCaps tile (changeTc tile (fun x => { x with repeats := x.repeats + 1 }) s)))) ∧
    (∀ (tile : Fin 14),
      isUp s tile = true →
      pdServes s tile = true →
      (tcOf s tile).objs.isEmpty = true →
      s.rd (R.PD_CONTRACT.KIND tile) = 0 →
      exec (.sourceCapsTimeout tile) s =
        .next (ran s (s.wr (R.PD_CONTRACT.KIND tile) 1))) ∧
    (∀ (tile : Fin 14),
      isUp s tile = true →
      pdServes s tile = true →
      s.rd (R.PD_CONTRACT.KIND tile) = 3 →
      dormantState s = 0 →
      s.isSet (R.TC_STATUS.DAMP tile) = false →
      exec (.ppsRequestTimer tile) s =
        .next (ran s (sendRequest tile ⟨s.rd (R.PD_CONTRACT.POSITION tile), 20 * s.rd (R.PD_CONTRACT.VOLTAGE tile), 50 * s.rd (R.PD_CONTRACT.CURRENT tile),
        true, 50 * bits (((tcOf s tile).objs[s.rd (R.PD_CONTRACT.POSITION tile) - 1]?).getD 0) 0 7, true⟩ s))) ∧
    (∀ (tile : Fin 14),
      dormantState s = 0 →
      exec (.ppsKeepaliveTimeout tile) s =
        .next (ran s (missRequest tile s))) ∧
    (∀ (tile : Fin 14) (c : Contract),
      (tcOf s tile).pending = some c →
      isDown s tile = true →
      pathOf s tile = 4 →
      (tcOf s tile).moved = false →
      c.mv ≤ contractMv s tile →
      exec (.transitionWaitEnd tile) s =
        .next (ran s (((changeTc tile (fun x => { x with moved := true }) s).wr (R.PWR_DRIVE.CODE tile) (setCode (tcOf s tile) c.mv).toNat).off (R.PWR_DRIVE.CL_ACTIVE tile)))) ∧
    (∀ (tile : Fin 14) (vbus : Nat) (c : Contract),
      (tcOf s tile).pending = some c →
      isDown s tile = true →
      pathOf s tile = 4 →
      (tcOf s tile).moved = true →
      95 * c.mv ≤ 100 * vbus →
      100 * vbus ≤ 105 * c.mv →
      exec (.vbusSettled tile vbus) s =
        .next (ran s (sendPd tile .psRdy ((putContract tile c (senseVbus tile vbus s)).wr (R.TC_STATUS.PATH tile) 3)))) ∧
    (∀ (tile : Fin 14),
      isDown s tile = true →
      pathOf s tile = 4 →
      exec (.transitionLimit tile) s =
        .next (ran s (sendHardReset tile s))) ∧
    (∀ (tile : Fin 14),
      pdServes s tile = true →
      dormantState s = 0 →
      (tcOf s tile).softReset = false →
      exec (.pdRetriesExhausted tile) s =
        .next (ran s (sendPd tile .softReset (changeTc tile (fun x => { x with softReset := true }) s)))) ∧
    (∀ (tile : Fin 14),
      isUp s tile = true →
      pdServes s tile = true →
      dormantState s = 0 →
      s.rd (R.PD_CONTRACT.KIND tile) = 3 →
      (tcOf s tile).fixedReq = 0 →
      blockers s = 2 ^ 5 →
      exec (.ppsToFixed tile) s =
        .next (ran s (negotiateSink tile true true (changeTc tile (fun x => { x with fixedReq := 1 }) s)))) ∧
    (∀ (tile : Fin 14),
      isUp s tile = true →
      pdServes s tile = true →
      dormantState s = 0 →
      (tcOf s tile).fixedReq ≠ 0 →
      exec (.ppsRestore tile) s =
        .next (ran s (negotiateSink tile (partnerRev3 s tile) false (changeTc tile (fun x => { x with fixedReq := 0 }) s)))) ∧
    (∀ (tile : Fin 14),
      pdTalks s tile = true →
      isUp s tile = true →
      (tcOf s tile).pending.isSome = true →
      exec (.acceptRejectReceived tile .accept) s =
        .next (ran s (changeTc tile (fun x => { x with moved := true }) s))) ∧
    (∀ (tile : Fin 14),
      pdTalks s tile = true →
      isUp s tile = true →
      (tcOf s tile).pending.isSome = true →
      (tcOf s tile).fixedReq ≠ 1 →
      exec (.acceptRejectReceived tile .reject) s =
        .next (ran s (changeTc tile (fun x => { x with pending := none, moved := false, fixedReq := if x.fixedReq = 1 then 0 else x.fixedReq }) s))) ∧
    (∀ (tile : Fin 14),
      pdServes s tile = true →
      dormantState s = 0 →
      exec (.goodcrcReceived tile) s =
        .next (ran s (changeTc tile (fun x => { x with acked := true, softReset := false, ams := if x.ams = 2 then 0 else x.ams }) s))) ∧
    (∀ (tile : Fin 14) (rev3 : Bool),
      pdTalks s tile = true →
      isDown s tile = true →
      pathOf s tile = 3 →
      (tcOf s tile).noContract = false →
      exec (.pdGetMessage tile .sourceCap rev3) s =
        .next (ran s (sendCaps tile s))) ∧
    (∀ (tile : Fin 14) (rev3 : Bool),
      pdTalks s tile = true →
      isUp s tile = true →
      exec (.pdGetMessage tile .sinkCap rev3) s =
        .next (ran s (sendPd tile (.sinkCaps (sinkWant s tile).2 (max (sinkWant s tile).1 5000)) s))) ∧
    (∀ (tile : Fin 14),
      pdTalks s tile = true →
      isUp s tile = true →
      exec (.softResetReceived tile) s =
        .next (ran s (changeTc tile (fun x => { x with pending := none, moved := false }) (sendPd tile .accept (changeTc tile (fun x => { x with softReset := false, repeats := 0 }) s)))))

/-- The mailbox operations of ch. 15 act on a tile: each command runs to the next state shown (ch. 15: R305 to R328). -/
def Obligations.PdMailboxComplete : Prop :=
  ∀ s : State,
    (∀ (slot : Fin 8) (body : List Nat) (t : Nat),
      mailWaits s slot 0x60 body = true →
      body.length = 4 →
      leVal (body.take 4) = t →
      t < 14 →
      slot.val = 0 →
      exec (.pdInfo slot) s =
        .next (ran s (setReply slot 0 (leBytes 4 ((R.PD_CONTRACT.all t).foldl (fun a f => a + 2 ^ f.lo * s.rd f) 0) ++ leBytes 4 (tcOf s t).objs.length
      ++ ((tcOf s t).objs.take 7).flatMap (leBytes 4)) s))) ∧
    (∀ (slot : Fin 8) (body : List Nat) (t : Nat),
      mailWaits s slot 0x61 body = true →
      body.length = 12 →
      leVal (body.take 4) = t →
      t < 14 →
      slot.val = 0 →
      isUp s t = true →
      165 ≤ leVal ((body.drop 4).take 4) →
      leVal ((body.drop 4).take 4) ≤ 1050 →
      1 ≤ leVal ((body.drop 4).drop 4) →
      leVal ((body.drop 4).drop 4) ≤ 100 →
      (tcOf s t).fixedReq ≠ 1 →
      exec (.sinkSet slot (some false)) s =
        .next (ran s (setReply slot 5 [] (changeTc t (fun x => { x with pending := none }) (negotiateSink t (tcOf s t).rev3 false
      (changeTc t (fun x => { x with sink := some (20 * leVal ((body.drop 4).take 4), 50 * leVal ((body.drop 4).drop 4)) }) s)))))) ∧
    (∀ (slot : Fin 8) (body : List Nat) (t : Nat),
      mailWaits s slot 0x62 body = true →
      body.length = 4 →
      leVal (body.take 4) = t →
      t < 14 →
      slot.val = 0 →
      tileRole s t ≠ 0 →
      exec (.pdHardResetMailbox slot) s =
        .next (ran s (setReply slot 0 [] (sendHardReset t s)))) ∧
    (∀ (slot : Fin 8) (body : List Nat) (t : Nat),
      mailWaits s slot 0x63 body = true →
      body.length = 4 →
      leVal (body.take 4) = t →
      t < 14 →
      slot.val = 0 →
      isDown s t = true →
      tileRole s t ≠ 0 →
      pathOf s t = 3 →
      (tcOf s t).noContract = false →
      exec (.recap slot true) s =
        .next (ran s (setReply slot 0 [] (sendCaps t s)))) ∧
    (∀ (slot : Fin 8) (body : List Nat) (t : Nat),
      mailWaits s slot 0x64 body = true →
      body.length = 4 →
      leVal (body.take 4) = t →
      t < 14 →
      slot.val = 0 →
      isDown s t = true →
      (tcOf s t).cable.isEmpty = false →
      exec (.cableInfo slot) s =
        .next (ran s (setReply slot 0 ((tcOf s t).cable.flatMap (leBytes 4)) s)))

/-- Laser, RF, coils, losses, drivers and calibration of a drum: each command runs to the next state shown (ch. 16: R329 to R348). -/
def Obligations.FrontEndCommandsComplete : Prop :=
  ∀ s : State,
    (∀ (slot : Fin 8) (drum : Fin 2) (select : Fin 4),
      mayWrite s slot (drumBase drum + 4) = true →
      exec (.laserSelect slot drum select) s =
        .next (took slot s (selectLaser drum select (activity s)))) ∧
    (∀ (drum : Fin 2) (monitor drive : Nat),
      laserState s drum = 1 →
      monitorAtLeast s drum monitor 90 = true →
      monitorAbove s drum monitor 125 = false →
      exec (.laserRampDone drum monitor drive) s =
        .next (ran s (showLaser drum monitor (min drive (ceilingDrive s drum)) (s.wr (R.LASER_STATUS.STATE drum) 2)))) ∧
    (∀ (drum : Fin 2),
      laserState s drum = 1 →
      exec (.laserRampTimeout drum) s =
        .next (ran s (laserFault drum s))) ∧
    (∀ (drum : Fin 2) (monitor drive : Nat),
      laserState s drum ≠ 0 →
      monitorAbove s drum monitor 125 = true →
      exec (.laserMonitorFault drum monitor drive) s =
        .next (ran s (laserFault drum s))) ∧
    (∀ (drum : Fin 2),
      hasDrum s drum = true →
      exec (.laserPermitFall drum) s =
        .next (if inReset s then acted s (s.off (R.FRONT_STATUS.PERMIT drum)) else acted s (laserOff drum (s.off (R.FRONT_STATUS.PERMIT drum))))) ∧
    (∀ (drum : Fin 2),
      hasDrum s drum = true →
      exec (.laserPermitRise drum) s =
        .next (acted s (s.on (R.FRONT_STATUS.PERMIT drum)))) ∧
    (∀ (drum : Fin 2) (envelope gain : Nat),
      domOn s (92 + 10 * drum.val) = true →
      s.isSet (R.RF_CTRL.AUTO drum) = true →
      (frontOf s drum).scar = false →
      envelope < 176 →
      exec (.rfGainAdjust drum envelope gain) s =
        .next (ran s ((s.wr (R.RF_STATUS.ENVELOPE drum) (min envelope 255)).wr (R.RF_STATUS.GAIN drum) (min gain 48)))) ∧
    (∀ (drum : Fin 2) (envelope : Nat),
      domOn s (92 + 10 * drum.val) = true →
      s.rd (R.RF_STATUS.GAIN drum) = 48 →
      envelope < 64 →
      exec (.rfLevel drum envelope) s =
        .next (ran s (occur (drumSrc drum 19) (s.wr (R.RF_STATUS.ENVELOPE drum) (min envelope 255))))) ∧
    (∀ (slot : Fin 8) (drum : Fin 2) (coil : Fin 3) (code : Nat),
      mayWrite s slot (drumBase drum + 0x60 + 4 * coil.val) = true →
      anyVoice s drum = false →
      exec (.coilForce slot drum coil code) s =
        .next (took slot s (((activity s).wr (R.COIL_FORCE.CODE drum coil) code).wr (R.COIL_LATCH.CODE drum coil) code))) ∧
    (∀ (drum : Fin 2) (limiting : Fin 8),
      coilsDriven s drum = true →
      exec (.coilOvercurrent drum limiting) s =
        .next (ran s ((List.range 3).foldl (fun a c => if bit limiting.val c && !bit (s.rd (R.FRONT_STATUS.LIMIT drum)) c then occur (drumSrc drum 4) a else a)
        (s.wr (R.FRONT_STATUS.LIMIT drum) limiting)))) ∧
    (∀ (drum : Fin 2) (opened : Fin 8) (m : Nat),
      coilsDriven s drum = true →
      m = (List.range 3).foldl (fun a c =>
        if bit opened.val c && (coilCurrent (s.rd (R.COIL_LATCH.CODE drum c))).natAbs ≥ 40000 then a + 2 ^ c else a) 0 →
      exec (.coilOpen drum opened) s =
        .next (ran s (setCause (drumSrc drum 5) (m != 0) (s.wr (R.FRONT_STATUS.OPEN drum) m)))) ∧
    (∀ (drum : Fin 2) (sum : Nat),
      roleLoaded s drum 0 = true →
      laserState s drum = 2 →
      sum < s.rd (R.LOSS_CTRL.SUM_MIN drum) →
      exec (.focusLost drum sum) s =
        .next (ran s (lossEndsStroke drum (drumSrc drum 0) (occur (drumSrc drum 0)
      (react drum (s.rd (R.LOSS_CTRL.FOCUS_REACT drum)) 1 (s.wr (R.CH_SAMPLE.CODE drum 2) sum)))))) ∧
    (∀ (drum : Fin 2) (te : Nat),
      roleLoaded s drum 0 = true →
      roleLoaded s drum 1 = true →
      laserState s drum = 2 →
      ((te : Int) - 2048).natAbs > s.rd (R.LOSS_TE.WINDOW drum) →
      exec (.trackLost drum te) s =
        .next (ran s (lossEndsStroke drum (drumSrc drum 1) (occur (drumSrc drum 1)
      (react drum (s.rd (R.LOSS_CTRL.TRACK_REACT drum)) 2 (s.wr (R.CH_SAMPLE.CODE drum 1) te)))))) ∧
    (∀ (slot : Fin 8) (drum : Fin 2) (value : Nat),
      mayWrite s slot (drumBase drum + 0x90) = true →
      exec (.rearm slot drum value) s =
        .next (took slot s (writeLossCtrl drum value (activity s)))) ∧
    (∀ (drum : Fin 2) (sum te : Nat) (t : State),
      t = (s.wr (R.CH_SAMPLE.CODE drum 2) (min sum 4095)).wr (R.CH_SAMPLE.CODE drum 1) (min te 4095) →
      (frontOf s drum).react ≠ 0 →
      (frontOf s drum).rearm = true →
      sumLow t drum = false →
      teOut t drum = false →
      bit (frontOf s drum).reactBy 2 = false →
      exec (.reactionEnd drum sum te) s =
        .next (ran s (putFront drum { frontOf s drum with react := 0, reactBy := 0, rearm := false } (t.off (R.FRONT_STATUS.REACTED drum))))) ∧
    (∀ (drum : Fin 2),
      hasDrum s drum = true →
      exec (.vmRange drum) s =
        .next (ran s (cutSpin drum (setCause (drumSrc drum 34) true (laserOff drum (cutTray drum (cutSled drum (s.off (R.FRONT_STATUS.VM_OK drum))))))))) ∧
    (∀ (drum : Fin 2),
      hasDrum s drum = true →
      exec (.vmRestore drum) s =
        .next (ran s (setCause (drumSrc drum 34) false (s.on (R.FRONT_STATUS.VM_OK drum))))) ∧
    (∀ (drum : Fin 2),
      hasDrum s drum = true →
      groupHot s drum 3 = false →
      exec (.driverThermal drum 3) s =
        .next (ran s (occur (drumSrc drum 35) (laserOff drum (s.wr (R.FRONT_STATUS.HOT drum) (setBit (s.rd (R.FRONT_STATUS.HOT drum)) 3)))))) ∧
    (∀ (drum : Fin 2) (group : Fin 5),
      exec (.driverCooled drum group) s =
        .next (ran s (s.wr (R.FRONT_STATUS.HOT drum) (clearBit (s.rd (R.FRONT_STATUS.HOT drum)) group)))) ∧
    (∀ (slot : Fin 8) (drum : Fin 2) (index : Fin 8) (value : Nat),
      mayWrite s slot (drumBase drum + 0xA0 + 4 * index.val) = true →
      pickupOk index (value % 2 ^ 32) = true →
      exec (.calWrite slot drum index value) s =
        .next (took slot s ((activity s).wr (R.FRONT_CAL.VALUE drum index) value))) ∧
    (∀ (drum : Fin 2) (present : Bool),
      hasDrum s drum = true →
      exec (.sledPhaseFault drum present) s =
        .next (ran s (setCause (drumSrc drum 15) present (if present then cutSled drum s else s)))) ∧
    (∀ (drum : Fin 2),
      hasDrum s drum = true →
      exec (.trayCurrentLimit drum) s =
        .next (ran s (occur (drumSrc drum 18) s)))

/-- Drumhead runs its frames and its voice commands: each command runs to the next state shown (ch. 17: R349 to R368). -/
def Obligations.DrumheadCommandsComplete : Prop :=
  ∀ s : State,
    (∀ (drum : Fin 2) (pickup : Pickup) (late : Fin 49) (s0 t : State),
      s0 = endCheck drum s →
      engineRuns s0 drum = true →
      t = reseedDue drum (drumSt s0 drum).frames (quietFollow drum (1 + late.val) (sledRun drum (1280 * (1 + late.val))
        (sampleDrum drum pickup (s0.bump (R.DH_LATE.COUNT drum) late)))) →
      s0.isSet (R.FRONT_STATUS.CONV_OK drum) = false →
      exec (.drumheadFrame drum pickup late) s =
        .next (ran s (
      let u := startFrame drum t
      let v := putSled drum { sledOf u drum with lastCount := encCount u drum } u
      ((loadedVoices v drum).filter (fun e => !voicePruned v drum e.1)).foldl (fun a e => watchInputs drum e.1 a) v))) ∧
    (∀ (slot : Fin 8) (drum : Fin 2) (voice : Fin 8) (period role : Nat) (predict : Bool),
      mayWrite s slot (drumBase drum + 0x10018) = true →
      exec (.loadVoice slot drum voice period role predict) s =
        .next (took slot s (voiceCmd drum 1 voice period role predict false (activity s)))) ∧
    (∀ (slot : Fin 8) (drum : Fin 2) (voice : Fin 8) (period role : Nat) (predict keep : Bool),
      mayWrite s slot (drumBase drum + 0x10018) = true →
      exec (.swap slot drum voice period role predict keep) s =
        .next (took slot s (voiceCmd drum 2 voice period role predict keep (activity s)))) ∧
    (∀ (slot : Fin 8) (drum : Fin 2) (voice : Fin 8),
      mayWrite s slot (drumBase drum + 0x10018) = true →
      exec (.unload slot drum voice) s =
        .next (took slot s (voiceCmd drum 3 voice 0 0 false false (activity s)))) ∧
    (∀ (slot : Fin 8) (drum : Fin 2) (voice : Fin 8),
      mayWrite s slot (drumBase drum + 0x10018) = true →
      exec (.reseed slot drum voice) s =
        .next (took slot s (voiceCmd drum 4 voice 0 0 false false (activity s)))) ∧
    (∀ (slot : Fin 8) (drum : Fin 2),
      mayWrite s slot (drumBase drum + 0x10018) = true →
      exec (.voiceCmdBadOp slot drum) s =
        .next (took slot s (refuseVoice drum (if voiceBusy (activity s) drum then 1 else 7) (activity s)))) ∧
    (∀ (drum : Fin 2) (c : VoiceCmd) (rest : List VoiceCmd) (t : State),
      t = endCheck drum s →
      engineRuns t drum = true →
      (drumSt t drum).cmds = c :: rest →
      c.op = 1 →
      c.raise = false →
      (voiceOf t drum c.voice).isNone = true →
      exec (.voiceCmdEffect drum) s =
        .next (ran s (checkSpeedVoice drum (syncVoices drum (voiceEffect drum (drumSt t drum).frames c (putDrum drum { drumSt t drum with cmds := rest } t)))))) ∧
    (∀ (drum : Fin 2) (t : State),
      t = endCheck drum s →
      voicePending t drum = true →
      seqOf t (drum.val + 1) = 6 →
      exec (.voiceCmdAbandoned drum) s =
        .next (ran s (syncVoices drum (putDrum drum { drumSt t drum with cmds := (drumSt t drum).cmds.filter (fun c => !c.raise) } (t.wr (R.DH_LOAD_STATUS.CODE drum) 8))))) ∧
    (∀ (slot : Fin 8) (drum : Fin 2) (v : Nat),
      mayWrite s slot (drumBase drum + 0x10014) = true →
      voiceBusy (activity s) drum = false →
      exec (.dhStageDataAccess slot drum (some v)) s =
        .next (took slot s ((putDrum drum { drumSt s drum with stage := putW (drumSt s drum).stage (s.rd (R.DH_STAGE_ADDR.WORD drum)) v } (activity s)).wr (R.DH_STAGE_ADDR.WORD drum)
      (if 257 ≤ s.rd (R.DH_STAGE_ADDR.WORD drum) then 0 else s.rd (R.DH_STAGE_ADDR.WORD drum) + 1))))

/-- The spindle detects, ramps, runs and brakes: each command runs to the next state shown (ch. 18: R369 to R386). -/
def Obligations.SpindleCommandsComplete : Prop :=
  ∀ s : State,
    (∀ (drum : Fin 2) (t : State),
      (drumSt s drum).up = true →
      domOn s (96 + 10 * drum.val) = true →
      spinState s drum = 0 →
      (driverVoice s drum 4).isSome = false →
      t = (((putSpin drum { spinOf s drum with oldCurve := none } s).wr (R.SPIN_DEMAND.EFFECTIVE drum) (effDemand s drum).1).wr (R.SPIN_DEMAND.SLOT drum) (effDemand s drum).2).wrB (R.SPIN_STATUS.NO_VOICE drum) true →
      exec (.spinEvaluate drum) s =
        .next (ran s (checkSpinStroke drum (evalStopped drum t)))) ∧
    (∀ (drum : Fin 2) (quiet : Bool),
      spinState s drum = 1 →
      exec (.spinCheckEnd drum quiet) s =
        .next (ran s (enterSpin drum (if quiet then 2 else 6) s))) ∧
    (∀ (drum : Fin 2) (first second : List Nat),
      spinState s drum = 2 →
      marginGood (marginOf first) = true →
      exec (.senseDone drum first second false) s =
        .next (ran s (startRamp drum (argMax6 first) ((((s.wr (R.SPIN_DETECT.MARGIN drum) (if (marginOf first).2 = 0 then 0 else min 1000 (1000 * (marginOf first).1 / (marginOf first).2))).wrB
        (R.SPIN_DETECT.REPEATED drum) false).wr (R.SPIN_DETECT.SECTOR drum) (argMax6 first)).off (R.SPIN_DETECT.ALIGNED drum))))) ∧
    (∀ (drum : Fin 2),
      spinState s drum = 3 →
      exec (.alignDone drum) s =
        .next (ran s (startRamp drum 0 ((s.wr (R.SPIN_DETECT.SECTOR drum) 0).on (R.SPIN_DETECT.ALIGNED drum))))) ∧
    (∀ (drum : Fin 2) (interval place : Nat) (error : Int),
      spinState s drum = 6 →
      exec (.bemfZeroCrossing drum interval place error) s =
        .next (ran s (watchSpeed drum (setSpin drum (measured ((interval :: (spinOf s drum).steps).take 6) (spinOf s drum).polePairs)
      (putSpin drum { spinOf s drum with steps := (interval :: (spinOf s drum).steps).take 6 } s))))) ∧
    (∀ (drum : Fin 2) (interval place : Nat) (error : Int),
      spinState s drum = 5 →
      s.isSet (R.SPIN_STATUS.QUIET_ACTIVE drum) = false →
      25 ≤ place →
      exec (.bemfZeroCrossing drum interval place error) s =
        .next (ran s (watchSpeed drum (setSpin drum (measured ((interval :: (spinOf s drum).steps).take 6) (spinOf s drum).polePairs)
      (commutate drum (putSpin drum { spinOf s drum with steps := (interval :: (spinOf s drum).steps).take 6, missed := 0 } s)))))) ∧
    (∀ (drum : Fin 2),
      spinState s drum = 4 →
      exec (.rampTimeout drum) s =
        .next (ran s (putSpin drum { spinOf (enterSpin drum 6 s) drum with owed := 1 } (enterSpin drum 6 s)))) ∧
    (∀ (drum : Fin 2),
      spinState s drum = 5 →
      s.isSet (R.SPIN_STATUS.QUIET_ACTIVE drum) = false →
      (spinOf s drum).missed < 5 →
      exec (.commutationMissed drum) s =
        .next (ran s (watchSpeed drum (setSpin drum (measured (((spinOf s drum).steps.take 1 ++ (spinOf s drum).steps).take 6) (spinOf s drum).polePairs)
      (commutate drum (putSpin drum { spinOf s drum with missed := (spinOf s drum).missed + 1, goodMs := 0, steps := ((spinOf s drum).steps.take 1 ++ (spinOf s drum).steps).take 6 } s)))))) ∧
    (∀ (drum : Fin 2),
      s.isSet (R.SPIN_CFG.QUIET drum) = true →
      spinState s drum = 5 →
      500 ≤ (spinOf s drum).goodMs →
      1000000 ≤ (spinOf s drum).speed →
      exec (.quietEntry drum) s =
        .next (ran s (((putSpin drum { spinOf s drum with wide := 0, angle := s.freeVal 0 % turnUnits } s).drew 1).on (R.SPIN_STATUS.QUIET_ACTIVE drum)))) ∧
    (∀ (drum : Fin 2),
      spinState s drum = 6 →
      (spinOf s drum).brake = 0 →
      exec (.brakeLowSpeed drum) s =
        .next (ran s (putSpin drum { spinOf s drum with brake := 1 } s))) ∧
    (∀ (drum : Fin 2),
      spinState s drum = 6 →
      (spinOf s drum).brake = 1 →
      exec (.brakeHoldEnd drum) s =
        .next (ran s (putSpin drum { spinOf s drum with brake := 2 } s))) ∧
    (∀ (drum : Fin 2) (t : State),
      spinState s drum = 6 →
      t = putSpin drum { spinOf (enterSpin drum 0 s) drum with owed := 0 } (enterSpin drum 0 s) →
      (spinOf s drum).owed = 0 →
      drumPruned t drum = false →
      exec (.spindleAtRest drum) s =
        .next (ran s (evalStopped drum t))) ∧
    (∀ (drum : Fin 2),
      cutHolds s drum = true →
      exec (.spinCut drum) s =
        .next (ran s (cutSpin drum s))) ∧
    (∀ (drum : Fin 2),
      hasDrum s drum = true →
      (spinOf s drum).faultLow = false →
      exec (.spinFault drum) s =
        .next (ran s (occur (drumSrc drum 9) (cutSpin drum (putSpin drum { spinOf s drum with faultLow := true } s))))) ∧
    (∀ (drum : Fin 2) (t : State),
      t = putSpin drum { spinOf s drum with faultLow := false, overspeed := (spinOf s drum).overspeed && decide ((spinOf s drum).speed ≥ 1000 * (spinOf s drum).maxRpm) } s →
      cutHolds t drum = false →
      spinState (t.off (R.SPIN_STATUS.CUT drum)) drum = 0 →
      exec (.spinCutEnd drum) s =
        .next (ran s (evalStopped drum (t.off (R.SPIN_STATUS.CUT drum)))))

/-- The sled seeks, homes and follows its encoder, and the tray moves: each command runs to the next state shown (ch. 19: R387 to R404). -/
def Obligations.SledAndTrayCommandsComplete : Prop :=
  ∀ s : State,
    (∀ (slot : Fin 8) (drum : Fin 2),
      mayWrite s slot (drumBase drum + 0x3003C) = true →
      strokeHolds s drum = false →
      sledState s drum = 2 →
      exec (.sledSeek slot drum) s =
        .next (took slot s (seekTo drum (signed 32 (s.rd (R.SLED_TARGET.X drum))) false (activity s)))) ∧
    (∀ (slot : Fin 8) (drum : Fin 2),
      mayWrite s slot (drumBase drum + 0x3003C) = true →
      strokeHolds s drum = false →
      sledState s drum = 2 →
      segmentsOk (sledStageBytes s drum) (stagedSegments (sledStageBytes s drum)) = false →
      exec (.runStage slot drum) s =
        .next (took slot s (sledCode drum 2 (activity s)))) ∧
    (∀ (slot : Fin 8) (drum : Fin 2) (segs : List (Nat × Int × Int)) (stop : Int),
      mayWrite s slot (drumBase drum + 0x3003C) = true →
      strokeHolds s drum = false →
      sledState s drum = 2 →
      segmentsOk (sledStageBytes s drum) (stagedSegments (sledStageBytes s drum)) = true →
      segs = plainSegments (segmentList (sledStageBytes s drum) (stagedSegments (sledStageBytes s drum))) →
      stop = (sledOf s drum).pos + (segs.getLastD (0, 0, 0)).2.1 →
      0 ≤ stop →
      stop ≤ ((travelUnits s drum * sledDen : Nat) : Int) →
      exec (.runStage slot drum) s =
        .next (took slot s (startMove drum ⟨segs, (sledOf s drum).pos, stop, half (sledStageBytes s drum) 4, half (sledStageBytes s drum) 0, half (sledStageBytes s drum) 2, false, 0, false⟩ (activity s)))) ∧
    (∀ (slot : Fin 8) (drum : Fin 2),
      mayWrite s slot (drumBase drum + 0x3003C) = true →
      strokeHolds s drum = false →
      sledState s drum = 0 →
      sledCut s drum = false →
      exec (.home slot drum) s =
        .next (took slot s (startHome drum false (activity s)))) ∧
    (∀ (slot : Fin 8) (drum : Fin 2) (elapsed : Nat),
      mayWrite s slot (drumBase drum + 0x3003C) = true →
      strokeHolds s drum = false →
      sledState s drum = 3 →
      exec (.stop slot drum elapsed) s =
        .next (took slot s (dropSledRetry drum (sledReady drum 7 (stopMove drum elapsed (activity s)))))) ∧
    (∀ (slot : Fin 8) (drum : Fin 2),
      mayWrite s slot (drumBase drum + 0x3003C) = true →
      strokeHolds s drum = false →
      exec (.sledCmdBadOp slot drum) s =
        .next (took slot s (sledCode drum 9 (activity s)))) ∧
    (∀ (drum : Fin 2) (m : SledMove) (t : State),
      (sledOf s drum).move = some m →
      sledState s drum = 3 →
      (sledOf s drum).waits = false →
      t = moveTo drum (moveEnds s drum m) s →
      closedLoop t drum = false →
      m.stroke = false →
      exec (.sledMoveEnd drum) s =
        .next (ran s (sledReady drum 0 (retryEnd (drumSrc drum 10) (putSled drum { sledOf t drum with move := none, waits := false } t))))) ∧
    (∀ (drum : Fin 2) (t : State),
      sledState s drum = 1 →
      (sledOf s drum).homing = 1 →
      (sledOf s drum).waits = false →
      s.isSet (R.SLED_STATUS.ENCODER drum) = true →
      t = putPos drum 0 (s.wr (R.SLED_ENC.COUNT drum) 0) →
      exec (.homeInwardDone drum) s =
        .next (ran s (putSled drum { sledOf t drum with homing := 2, drive := 0 } t))) ∧
    (∀ (drum : Fin 2) (t : State),
      sledState s drum = 1 →
      (sledOf s drum).homing = 2 →
      t = occur (drumSrc drum 14) (putPos drum ((travelUnits s drum / 4 * sledDen : Nat) : Int) s) →
      retryLeft t (drumSrc drum 14) = true →
      exec (.homeIndexTimeout drum) s =
        .next (ran s (putSled drum { sledOf t drum with homing := 1, waits := true } { t with backoff := Tab.put false t.backoff (drumSrc drum 14) true }))) ∧
    (∀ (drum : Fin 2),
      sledState s drum = 2 →
      sledCut s drum = false →
      (sledOf s drum).ma ≠ 0 →
      exec (.sledHoldCurrent drum) s =
        .next (ran s (putSled drum { sledOf s drum with ma := (sledOf s drum).holdMa } s))) ∧
    (∀ (slot : Fin 8) (drum : Fin 2) (v : Nat) (t : State),
      mayWrite s slot (drumBase drum + 0x30034) = true →
      s.isSet (R.SLED_CMD_STATUS.RUNNING drum) = false →
      t = putDrum drum { drumSt s drum with sledStage := putW (drumSt s drum).sledStage (s.rd (R.SLED_STAGE_ADDR.WORD drum)) v } (activity s) →
      exec (.sledStageDataAccess slot drum (some v)) s =
        .next (took slot s (t.wr (R.SLED_STAGE_ADDR.WORD drum) (if 193 ≤ s.rd (R.SLED_STAGE_ADDR.WORD drum) then 0 else s.rd (R.SLED_STAGE_ADDR.WORD drum) + 1)))) ∧
    (∀ (drum : Fin 2) (a b : Bool) (gap : Nat),
      s.isSet (R.SLED_STATUS.ENCODER drum) = true →
      domOn s (97 + 10 * drum.val) = true →
      a = (sledOf s drum).encA →
      b = (sledOf s drum).encB →
      exec (.encoderChange drum a b gap) s =
        .next (ran s (putSled drum { sledOf s drum with encA := a, encB := b } s))) ∧
    (∀ (drum : Fin 2) (a b : Bool) (gap : Nat),
      s.isSet (R.SLED_STATUS.ENCODER drum) = true →
      domOn s (97 + 10 * drum.val) = true →
      a ≠ (sledOf s drum).encA →
      b = (sledOf s drum).encB →
      4 ≤ gap →
      exec (.encoderChange drum a b gap) s =
        .next (ran s ((putSled drum { sledOf s drum with encA := a, encB := b } s).wr (R.SLED_ENC.COUNT drum) (unsigned 32 (encCount s drum + (if a != b then 1 else -1)))))) ∧
    (∀ (drum : Fin 2) (elapsed : Nat) (t : State),
      s.isSet (R.SLED_STATUS.ENCODER drum) = true →
      domOn s (97 + 10 * drum.val) = true →
      sledState s drum = 1 →
      (sledOf s drum).homing = 2 →
      t = searchTo drum elapsed (s.wr (R.SLED_INDEX_COUNT.COUNT drum) (unsigned 32 (encCount s drum))) →
      exec (.encoderIndex drum elapsed) s =
        .next (ran s (sledReady drum 0 (retryEnd (drumSrc drum 14) (((putSled drum { sledOf t drum with homing := 0 } t).on
          (R.SLED_STATUS.HOMED drum)).on (R.SLED_STATUS.CLOSED_LOOP drum)))))) ∧
    (∀ (drum : Fin 2) (inner outer : Bool),
      hasDrum s drum = true →
      (drumSt s drum).up = true →
      domOn s (100 + 10 * drum.val) = true →
      trayState s drum ≠ 2 →
      trayState s drum ≠ 4 →
      exec (.traySwitchChange drum inner outer) s =
        .next (if inReset s then acted s ((s.wrB (R.TRAY_STATUS.IN_SW drum) inner).wrB (R.TRAY_STATUS.OUT_SW drum) outer)
          else acted s (trayFollow drum ((s.wrB (R.TRAY_STATUS.IN_SW drum) inner).wrB (R.TRAY_STATUS.OUT_SW drum) outer)))) ∧
    (∀ (drum : Fin 2),
      hasDrum s drum = true →
      exec (.trayButtonPress drum false) s =
        .next (acted s (s.wrB (R.TRAY_STATUS.BTN drum) false))) ∧
    (∀ (drum : Fin 2) (t : State),
      hasDrum s drum = true →
      s.isSet (R.TRAY_STATUS.BTN drum) = false →
      (trayOf s drum).lastPress.isNone = true →
      t = ringBell (24 + drum.val) false (putTray drum { trayOf s drum with lastPress := some s.metro } ((s.wrB (R.TRAY_STATUS.BTN drum) true).bump (R.TRAY_COUNTS.PRESSES drum) 1)) →
      (List.range 8).find? (fun k => trayRights t k drum) = none →
      t.isSet R.START_STATUS.DRUMS_DONE = true →
      exec (.trayButtonPress drum true) s =
        .next (if inReset s then acted s (s.wrB (R.TRAY_STATUS.BTN drum) true) else acted s t)) ∧
    (∀ (drum : Fin 2),
      (trayOf s drum).req = 1 →
      s.isSet (R.TRAY_STATUS.PENDING drum) = true →
      spinState s drum = 0 →
      trayState s drum ≠ 5 →
      vmOut s drum = false →
      groupHot s drum 2 = false →
      exec (.trayOpenStart drum) s =
        .next (ran s (startTray drum true (selectLaser drum 0 (s.off (R.TRAY_STATUS.PENDING drum)))))) ∧
    (∀ (drum : Fin 2),
      trayState s drum = 2 →
      retryLeft (occur (drumSrc drum 17) (enterTray drum 0 s)) (drumSrc drum 17) = true →
      exec (.trayTimeout drum) s =
        .next (ran s (putTray drum { trayOf (occur (drumSrc drum 17) (enterTray drum 0 s)) drum with waits := true, brake := 0 } { occur (drumSrc drum 17) (enterTray drum 0 s) with backoff := Tab.put false (occur (drumSrc drum 17) (enterTray drum 0 s)).backoff (drumSrc drum 17) true }))) ∧
    (∀ (drum : Fin 2),
      (trayOf s drum).brake = 1 →
      exec (.trayBrakeEnd drum) s =
        .next (ran s (putTray drum { trayOf s drum with brake := 0 } s)))

/-- The read channel locks, decodes and skips: each command runs to the next state shown (ch. 20: R405 to R426). -/
def Obligations.ReadChannelCommandsComplete : Prop :=
  ∀ s : State,
    (∀ (drum : Fin 2) (timing : TimingRead),
      s.rd (R.READ_STATUS.MODE drum) ≠ 0 →
      (frontOf s drum).scar = false →
      timingHolds timing.errors = true →
      exec (.timingLock drum timing) s =
        .next (ran s (withEq drum (fun s => (s.on (R.READ_STATUS.TIMING_LOCK drum)).wr (R.READ_RATE.KBPS drum)
          (min (runRate (s.rd (R.READ_STATUS.MODE drum) = 2) timing.run) (2 ^ 20 - 1))) s))) ∧
    (∀ (drum : Fin 2),
      s.isSet (R.READ_STATUS.TIMING_LOCK drum) = true →
      exec (.syncLock drum) s =
        .next (ran s (putDrum drum { drumSt s drum with missed := 0 } (s.on (R.READ_STATUS.SYNC_LOCK drum))))) ∧
    (∀ (drum : Fin 2),
      s.isSet (R.READ_STATUS.SYNC_LOCK drum) = true →
      exec (.syncMissing drum false) s =
        .next (ran s (putDrum drum { drumSt s drum with missed := 1 } s))) ∧
    (∀ (drum : Fin 2),
      s.isSet (R.READ_STATUS.SYNC_LOCK drum) = true →
      (drumSt s drum).missed = 2 →
      exec (.syncMissing drum true) s =
        .next (ran s ((putDrum drum { drumSt s drum with missed := 0 } (s.off (R.READ_STATUS.SYNC_LOCK drum))).bump (R.READ_COUNTS_B.SYNC_LOSSES drum) 1))) ∧
    (∀ (drum : Fin 2) (x : Stroke) (t : State),
      currentStroke s drum = some x →
      x.started = true →
      x.op = 1 →
      x.next < x.count →
      unitBacksOff s drum = false →
      t = occur (drumSrc drum 21) (s.off (R.READ_STATUS.SYNC_LOCK drum)) →
      retryLeft t (drumSrc drum 21) = true →
      exec (.searchTimeout drum) s =
        .next (ran s { t with backoff := Tab.put false t.backoff (drumSrc drum 21) true })) ∧
    (∀ (span : ScarSpan),
      s.rd (R.READ_STATUS.MODE span.drum) ≠ 0 →
      (frontOf s span.drum).scar = false →
      scarAfter s span.drum span = true →
      exec (.scarBegin span) s =
        .next (ran s (withEq span.drum (fun s => (putFront span.drum { frontOf s span.drum with scar := true } s).bump (R.READ_COUNTS_B.SCARS span.drum) 1) s))) ∧
    (∀ (span : ScarSpan),
      scarAfter s span.drum span = false →
      exec (.scarEnd span) s =
        .next (ran s (withEq span.drum (fun s => putFront span.drum { frontOf s span.drum with scar := false } s) s))) ∧
    (∀ (drum : Fin 2) (x : Stroke) (block : BlockRead),
      readingStroke s drum = some x →
      (drumSt s drum).block = none →
      canRead s drum x = true →
      slotsUsed s drum < storeSlots s drum →
      exec (.blockDecode drum block) s =
        .next (ran s (decodeBlock drum 0 (channelRead (channelSet s drum) block).syms (channelRead (channelSet s drum) block).scars block.audio
          (putTaps drum (channelRead (channelSet s drum) block).taps s)))) ∧
    (∀ (drum : Fin 2) (x : Stroke) (block : BlockRead) (b : Block),
      readingStroke s drum = some x →
      (drumSt s drum).block = some b →
      canRead s drum x = true →
      exec (.combineRevolution drum block) s =
        .next (ran s (decodeBlock drum (b.extra + 1) (mergeRead b.syms (channelRead (channelSet s drum) block).syms)
          (channelRead (channelSet s drum) block).scars block.audio
          ((putTaps drum (channelRead (channelSet s drum) block).taps s).bump (R.READ_COUNTS_B.COMBINES drum) 1)))) ∧
    (∀ (drum : Fin 2) (x : Stroke) (kbps : Nat) (t : State),
      t = (if s.isSet (R.READ_STATUS.TIMING_LOCK drum) then s.wr (R.READ_RATE.KBPS drum) (min kbps (2 ^ 20 - 1)) else s) →
      servedStroke t drum = some x →
      drumRelocks t drum = true →
      exec (.blockSkipped drum kbps) s =
        .next (ran s (t.bump (R.READ_COUNTS.RELOCK_SKIPS drum) 1))) ∧
    (∀ (slot : Fin 8) (drum : Fin 2) (value : Nat),
      mayWrite s slot (drumBase drum + 0x40010) = true →
      exec (.eqRestore slot drum value) s =
        .next (took slot s (writeEqCfg drum value (activity s))))

/-- Strokes take their turn, start and act on the drum: each command runs to the next state shown (ch. 21: R427 to R447). -/
def Obligations.StrokeCommandsComplete : Prop :=
  ∀ s : State,
    (∀ (slot : Fin 8) (drum : Fin 2) (value : Nat),
      mayWrite s slot (drumBase drum + 0x50100) = true →
      exec (.stkProdWrite slot drum value) s =
        .next (took slot s (writeProd drum slot (value % 65536) (activity s)))) ∧
    (∀ (drum : Fin 2),
      (drumSt s drum).up = true →
      unitBoundary s drum = true →
      s.rd R.DORMANT_STATUS.STATE = 0 →
      rotation s drum (drumSt s drum).last = [] →
      exec (.drumTurn drum none) s =
        .next (ran s (syncNow drum (putDrum drum { drumSt s drum with turn := none } s)))) ∧
    (∀ (drum : Fin 2) (x : Stroke) (k : Nat) (rest : List (Nat × Stroke)),
      (drumSt s drum).up = true →
      unitBoundary s drum = true →
      s.rd R.DORMANT_STATUS.STATE = 0 →
      rotation s drum (drumSt s drum).last = (k, x) :: rest →
      exec (.drumTurn drum none) s =
        .next (ran s (syncNow drum (putDrum drum { drumSt s drum with turn := some k, last := k } s)))) ∧
    (∀ (drum : Fin 2) (seek : Option Int),
      exec (.strokeRead drum seek) s =
        .next (ran s (seekFor drum 1 seek (startDisc drum 1 s)))) ∧
    (∀ (drum : Fin 2) (x : Stroke) (entries : List TocEntry) (t : State),
      t = startDisc drum 2 s →
      currentStroke t drum = some x →
      x.op = 2 →
      x.started = true →
      x.lun.isNone = true →
      isDvd t drum = false →
      rateOver t drum = false →
      exec (.readToc drum entries) s =
        .next (ran s (finishIfDone drum (passUnit drum 0 (giveUnit drum 0 x.offset (tocRecord t drum (tocOf t drum entries)) t))))) ∧
    (∀ (drum : Fin 2) (records : List (List Nat)),
      exec (.readSubcode drum records) s =
        .next (ran s (records.foldl (fun t r => if (currentStroke t drum).map (·.slot) = (currentStroke (startDisc drum 3 s) drum).map (·.slot)
      && ((currentStroke (startDisc drum 3 s) drum).map (·.slot)).isSome then subcodeUnit drum r t else t) (startDisc drum 3 s)))) ∧
    (∀ (drum : Fin 2) (x : Stroke) (seek : Option Int) (t : State),
      t = startDisc drum 4 s →
      currentStroke t drum = some x →
      x.op = 4 →
      x.started = true →
      exec (.strokePlayAudio drum seek) s =
        .next (ran s (seekFor drum 4 seek (t.on (R.AUD_STATUS.PLAYING (x.arg % 2)))))) ∧
    (∀ (drum : Fin 2) (x : Stroke) (target : Int) (t : State),
      t = startDisc drum 5 s →
      currentStroke t drum = some x →
      x.op = 5 →
      x.started = true →
      sledState t drum ≠ 2 →
      exec (.strokeSeek drum target) s =
        .next (ran s (strokeSeek drum target t))) ∧
    (∀ (drum : Fin 2) (x : Stroke) (t : State),
      currentStroke s drum = some x →
      x.op = 6 →
      x.started = false →
      t = syncNow drum (updateCurrent drum (fun y => { y with started := true }) s) →
      exec (.spin drum) s =
        .next (ran s (checkSpinStroke drum (t.wr (R.STK_DEMAND.DEMAND drum x.slot) (x.arg % 65536))))) ∧
    (∀ (drum : Fin 2) (x : Stroke) (t : State),
      currentStroke s drum = some x →
      x.op = 7 →
      x.started = false →
      t = syncNow drum (updateCurrent drum (fun y => { y with started := true }) s) →
      exec (.tray drum) s =
        .next (ran s (trayRequest drum (decide (x.arg % 2 = 0)) t))) ∧
    (∀ (drum : Fin 2) (x : Stroke) (t : State),
      currentStroke s drum = some x →
      x.op = 8 →
      x.started = false →
      s.rd (R.STK_DISC.STATE drum) ≠ 0 →
      t = s.wr (R.STK_DEMAND.DEMAND drum x.slot) (x.arg % 65536) →
      turnOn t drum ≤ (effDemand t drum).1 →
      exec (.identify drum .start) s =
        .next (ran s (syncNow drum (updateCurrent drum (fun y => { y with started := true }) t)))) ∧
    (∀ (drum : Fin 2) (x : Stroke),
      currentStroke s drum = some x →
      x.op = 8 →
      x.started = true →
      spinState s drum = 5 →
      s.rd (R.STK_DISC.STATE drum) ≠ 0 →
      laserBar s drum = none →
      exec (.identify drum .focus) s =
        .next (ran s (failStroke drum x.slot (drumSrc drum 0) (setDisc drum 3 s)))) ∧
    (∀ (drum : Fin 2) (x : Stroke),
      currentStroke s drum = some x →
      x.started = true →
      x.op = 6 →
      exec (.spinWaitTimeout drum) s =
        .next (ran s (failStroke drum x.slot (drumSrc drum 6) s))) ∧
    (∀ (drum : Fin 2),
      (drumSt s drum).strokes.any Stroke.disc = false →
      s.rd (R.LASER_CTRL.SELECT drum) ≠ 0 →
      exec (.laserIdleClear drum) s =
        .next (ran s (setMode drum 0 (selectLaser drum 0 s)))) ∧
    (∀ (output : Fin 2) (n : Nat) (x : Stroke),
      playingOn s output = some (n, x) →
      buffered s n output = [] →
      x.next < x.count →
      exec (.audioUnderrun output) s =
        .next (ran s (occur (drumSrc n 37) (s.on (R.AUD_STATUS.UNDERRUN output))))) ∧
    (∀ (c : Instr) (slot l : Nat) (tag : Nat) (cdb : List Nat) (n : Nat) (far : Option Nat), scsiArrival c = some (slot, l, tag, cdb, byteAt cdb 0) →
      functionRuns s slot = true → bulkBusy s slot = false → (lunDrums s slot)[l]? = some (far, n) → (lunOf s slot l).cmds.length < 16 →
      exec c s = .next (ran s (releaseRequests (settleLun 600 slot l (putLun slot l { lunOf s slot l with drum := n, far := far, cmds := (lunOf s slot l).cmds ++ [⟨tag, cdb⟩] } s))))) ∧
    (∀ (slot : Fin 8) (lun : Fin 16) (tag : Nat) (cdb : List Nat) (n : Nat) (far : Option Nat),
      functionRuns s slot = true →
      bulkBusy s slot = false →
      (lunDrums s slot)[lun.val]? = some (far, n) →
      scsiOps.contains (byteAt cdb 0) = false →
      (lunOf s slot lun).cmds.length < 16 →
      exec (.scsiUnsupported slot lun tag cdb) s =
        .next (ran s (releaseRequests (settleLun 600 slot lun (putLun slot lun { lunOf s slot lun with drum := n, far := far, cmds := (lunOf s slot lun).cmds ++ [⟨tag, cdb⟩] } s))))) ∧
    (∀ (output : Fin 2) (n a : Nat) (x y : Stroke) (bs : List Nat) (rest : List (Nat × List Nat)),
      playingOn s output = some (n, x) →
      buffered s n output = (a, bs) :: rest →
      (drumSt (audioTaken output n a x bs rest s) n).strokes.find? (fun y => decide (y.slot = x.slot)) = some y →
      exec (.audioSectorOut output) s =
        .next (ran s (if (y.count ≤ y.next && decide (y.awaiting = [])) || decide (y.source = 39) then endStroke n y.slot false false 0 (audioTaken output n a x bs rest s)
      else audioTaken output n a x bs rest s)))

/-- The UARTs send, receive and apply their set, and the GPIO pins follow their commands: each command runs to the next state shown (ch. 22: R448 to R470). -/
def Obligations.SerialCommandsComplete : Prop :=
  ∀ s : State,
    (∀ (uart : Fin 4) (settled : Bool),
      (uartServes (ringBell (16 + uart.val) false s) uart = true ∨ uartServes s uart = true) →
      uartServes s uart = true →
      s.isSet (R.UART_STATUS.RX_BUSY uart) = false →
      bit (uartWord s uart 0) 14 = true →
      settled = true →
      uartMode s uart ≠ 2 →
      exec (.uartStartEdge uart settled) s =
        .next (ran s (((putUart uart { uartOf (ringBell (16 + uart.val) false s) uart with broken := false } (ringBell (16 + uart.val) false s)).on
      (R.UART_STATUS.RX_BUSY uart)).off (R.UART_STATUS.LINE_LOW uart)))) ∧
    (∀ (uart : Fin 4) (samples : List Bool),
      (inRecovery s && decide (uart.val = 0)) = false →
      uartOpen s uart = true →
      s.isSet (R.UART_STATUS.RX_BUSY uart) = true →
      samples ≠ [] →
      uartMode s uart ≠ 2 →
      samples.length = uartBits s uart + b2n (uartParity s uart != 0) + 1 →
      exec (.uartCharReceived uart samples) s =
        .next (ran s (withUart uart (fun s => plainChar uart (samples.take (uartBits s uart)) (b2n (uartParity s uart != 0) = 1 && samples.getD (uartBits s uart) false)
      (samples.getLastD false) (s.off (R.UART_STATUS.RX_BUSY uart))) s))) ∧
    (∀ (uart : Fin 4) (c : Nat) (flow : Bool),
      (uartOf s uart).sending = some (c, flow) →
      exec (.uartCharSent uart false) s =
        .next (ran s (withUart uart (fun s =>
        let s2 := putUart uart { uartOf s uart with sending := none, tries := 0 } (s.emit (.uart uart (c % 2 ^ uartBits s uart)))
        if !flow && (uartOf s uart).tx = [] then s2.on (R.UART_IRQ.TX_DONE uart) else s2) s))) ∧
    (∀ (slot : Fin 8) (uart : Fin 4) (value : Nat),
      mayWrite s slot (uartBase uart + 0x0C) = true →
      exec (.uartTxWrite slot uart value) s =
        .next (took slot s (withUart uart (fun s =>
    if !uartServes s uart then s
    else if (uartOf s uart).tx.length ≥ 64 then s.bump (R.UART_COUNTS.TX_DROPS uart) 1 else putUart uart { uartOf s uart with tx := (uartOf s uart).tx ++ [value % 512] } s) (activity s)))) ∧
    (∀ (slot : Fin 8) (uart : Fin 4) (w : Nat) (rest : List Nat),
      mayRead s slot (uartBase uart + 8) = true →
      (uartOf s uart).rx = w :: rest →
      uartServes s uart = true →
      exec (.uartRxRead slot uart) s =
        .next (ran s (withUart uart (putUart uart { uartOf s uart with rx := rest }) ((activity s).emit (.answer slot 0 (2 ^ 31 + w)))))) ∧
    (∀ (slot : Fin 8) (uart : Fin 4),
      mayWrite s slot (uartBase uart + 0x30) = true →
      exec (.flushTx slot uart) s =
        .next (took slot s (withUart uart (fun s => putUart uart { uartOf s uart with tx := [] } s) (activity s)))) ∧
    (∀ (slot : Fin 8) (uart : Fin 4),
      mayWrite s slot (uartBase uart + 0x30) = true →
      exec (.flushRx slot uart) s =
        .next (took slot s (withUart uart (fun s => putUart uart { uartOf s uart with rx := [] } s) (activity s)))) ∧
    (∀ (uart : Fin 4),
      s.isSet (R.UART_STATUS.CFG_PENDING uart) = true →
      s.isSet (R.UART_STATUS.RX_BUSY uart) = false →
      (uartOf s uart).sending.isNone = true →
      exec (.uartCfgApply uart) s =
        .next (ran s (withUart uart (fun s =>
        let s1 := (putUart uart { uartOf s uart with act := [] } s).off (R.UART_STATUS.CFG_PENDING uart)
        let s2 := if bit (uartWord s1 uart 0) 14 then s1 else setCause (195 + 4 * uart.val) false s1
        if uartMode s2 uart = 1 && uartMode s uart != 1 then s2.on (R.UART_STATUS.MUTED uart) else s2) s))) ∧
    (∀ (uart : Fin 4),
      uartServes s uart = true →
      bit (uartWord s uart 0) 14 = true →
      exec (.uartLine uart true) s =
        .next (ran s (setCause (195 + 4 * uart.val) true (s.on (R.UART_STATUS.LINE_LOW uart))))) ∧
    (∀ (uart : Fin 4),
      exec (.uartLine uart false) s =
        .next (ran s (setCause (195 + 4 * uart.val) false (s.off (R.UART_STATUS.LINE_LOW uart))))) ∧
    (∀ (slot : Fin 8) (high : Bool) (value : Nat) (t : State),
      mayWrite s slot (0x00290000 + 4 * b2n high) = true →
      pinsLive s = true →
      t = (List.range 8).foldl (fun a k => (a.wrB (R.GPIO_OWNER.ASSIGNED (8 * b2n high + k)) (bit value (4 * k + 3))).wr (R.GPIO_OWNER.SLOT (8 * b2n high + k)) (bits value (4 * k) 3)) (activity s) →
      exec (.gpioOwnerWrite slot high value) s =
        .next (took slot s ((List.range 8).foldl (fun a k => if pinOwner s (8 * b2n high + k) = pinOwner t (8 * b2n high + k) then a else resetPin (8 * b2n high + k) a) t))) ∧
    (∀ (slot : Fin 8) (value : Nat),
      mayWrite s slot 0x00290018 = true →
      pinsLive s = true →
      exec (.gpioSet slot value) s =
        .next (took slot s ((activity s).wr R.GPIO_OUT.LEVEL (s.rd R.GPIO_OUT.LEVEL ||| (value &&& pinMask s slot))))) ∧
    (∀ (slot : Fin 8) (value : Nat),
      mayWrite s slot 0x0029001C = true →
      pinsLive s = true →
      exec (.gpioClr slot value) s =
        .next (took slot s ((activity s).wr R.GPIO_OUT.LEVEL (andNot (s.rd R.GPIO_OUT.LEVEL) (value &&& pinMask s slot))))) ∧
    (∀ (levels old new : Nat),
      s.rd R.GPIO_IN.LEVEL = old →
      levels % 65536 = new →
      (dormantState s ≠ 0 → exec (.gpioEdge levels) s =
        .next (if inReset s then acted s (s.wr R.GPIO_IN.LEVEL new)
          else acted s (withPins (fun s => gpioBells old new (s.wr R.GPIO_IN.LEVEL new)) s))) ∧
      (dormantState s = 0 → domOn s 141 = true → exec (.gpioEdge levels) s =
        .next (if inReset s then acted s (s.wr R.GPIO_IN.LEVEL new)
          else acted s (withPins (fun s => (gpioBells old new (s.wr R.GPIO_IN.LEVEL new)).wr R.GPIO_EVENT.EVENT (s.rd R.GPIO_EVENT.EVENT ||| edgesMet s old new)) s))))

/-- The trunk trains its lanes, takes its frames and keeps its link: each command runs to the next state shown (ch. 23: R471 to R494). -/
def Obligations.TrunkCommandsComplete : Prop :=
  ∀ s : State,
    (∀ (port : Fin 4),
      training s port = true →
      (trunkPort s port).step = 0 →
      portWidth s port ≠ 0 →
      (widthLanes s port).any (fun l => Tab.look false s.backoff (344 + 4 * l)) = false →
      exec (.trainingAttemptStart port) s =
        .next (ran s (putStepOf port 1 s))) ∧
    (∀ (port : Fin 4),
      training s port = true →
      (trunkPort s port).step = 1 →
      exec (.trainingStepComplete port) s =
        .next (ran s (putStepOf port 2 s))) ∧
    (∀ (port : Fin 4) (l : Nat),
      training s port = true →
      (trunkPort s port).step ≠ 0 →
      lowestLane s port = l →
      exec (.trainingStepLimit port none) s =
        .next (ran s (failOrRetry (344 + 4 * l) (fun t =>
      if !laneUsable t l then t else
      let t1 := t.wr (R.TRUNK_LANE.STATE l) 5
      let fell := portWidth t1 port = 0
      let t2 := widthChanges port (portWidth s port) t1
      if fell then occur 364 t2 else t2) (putStepOf port 0 s)))) ∧
    (∀ (lane : Fin 4) (p : Nat),
      portOfLane s lane = some p →
      portState s p = 2 →
      (laneOf s lane).saved = true →
      exec (.laneReacquired lane true) s =
        .next (ran s (putLane lane { laneOf s lane with saved := false } s))) ∧
    (∀ (port worst : Fin 4) (symbols : List Nat),
      portState s port ≠ 0 →
      portState s port ≠ 6 →
      s.rd (R.CLOCK_STATUS.GEN 0) ≠ 1 →
      codewordDecode symbols = none →
      (widthLanes s port).contains worst.val = true →
      exec (.codewordReceived port symbols worst) s =
        .next (ran s (occur (345 + 4 * worst.val)
          ((putTrunk port { (trunkPort s port).passedOne with checkBad := true } s).bump (R.PORT_COUNTS_B.FEC_UNCORRECTABLE port) 1)))) ∧
    (∀ (port : Fin 4) (frame f : List Nat) (t u : State),
      openFrame port 1 frame s = .good f t →
      portState (takeHeader port f t) port = 3 →
      sequence port f (takeHeader port f t) = (true, u) →
      dormantState u ≠ 1 →
      frameDest f = ownMember s →
      exec (.payload port frame) s =
        .next (ran s (pumpAll (freeBuffer port false (takePayload f u))))) ∧
    (∀ (port : Fin 4) (frame f : List Nat) (t u : State),
      openFrame port 2 frame s = .good f t →
      portState (takeHeader port f t) port = 3 →
      sequence port f (takeHeader port f t) = (true, u) →
      dormantState u ≠ 1 →
      frameDest f = ownMember s →
      exec (.control port frame) s =
        .next (ran s (pumpAll (freeBuffer port true (takeControl f u))))) ∧
    (∀ (port : Fin 4) (frame f : List Nat) (arrival : Nat) (t : State),
      openFrame port 3 frame s = .good f t →
      (frameBody f).getD 8 0 = 1 →
      exec (.timeFrame port frame arrival) s =
        .next (ran s (emitFrame port 0 (frameOf 3 0 (ownMember (takeHeader port f t)) (s.rd (R.PORT_STATUS.PEER port)) 0 0 0
      (timeBody (takeHeader port f t) 2 arrival ((frameBody f).take 8))) (takeHeader port f t)))) ∧
    (∀ (port : Fin 4) (frame f : List Nat) (t : State),
      openFrame port 4 frame s = .good f t →
      exec (.keepalive port frame) s =
        .next (ran s (pump port 4096 (takeHeader port f t)))) ∧
    (∀ (port : Fin 4),
      portState s port = 3 →
      outstanding s port ≠ 0 →
      exec (.replayTimeout port) s =
        .next (ran s (resendFrom port (txOldest s port) (putTrunk port { trunkPort s port with nakFor := none } s)))) ∧
    (∀ (port : Fin 4),
      portState s port = 3 →
      2 ^ 39 ≤ sendFc s port →
      sendFc s port < 2 ^ 40 - 1 →
      (trunkPort s port).secret ≠ [] →
      s.rd (R.PORT_STATUS.EPOCH port) < 255 →
      exec (.epochChange port) s =
        .next (ran s (setFc port 0 ((putTrunk port { trunkPort s port with txKey := frameKey (trunkPort s port) (ownMember s) (ownMember s) (s.rd (R.PORT_STATUS.PEER port)) (trunkPort s port).txGen (nextEpoch (s.rd (R.PORT_STATUS.EPOCH port))) } s).wr
        (R.PORT_STATUS.EPOCH port) (nextEpoch (s.rd (R.PORT_STATUS.EPOCH port))))))) ∧
    (∀ (port : Fin 4),
      exec (.oldKeyRetire port) s =
        .next (ran s (putTrunk port { trunkPort s port with oldEpoch := none } s))) ∧
    (∀ (port : Fin 4),
      portState s port = 3 →
      exec (.keepaliveDue port) s =
        .next (ran s (pump port 4096 (sendKeepalive port 0 s)))) ∧
    (∀ (port : Fin 4),
      portState s port = 3 →
      s.rd (R.CLOCK_STATUS.GEN 0) ≠ 1 →
      exec (.keepaliveDeadline port) s =
        .next (ran s (linkLoss port (occur 365 s)))) ∧
    (∀ (port : Fin 4),
      portState s port = 4 →
      exec (.retrainLimit port) s =
        .next (ran s (linkLoss port s))) ∧
    (∀ (port : Fin 4),
      portState s port = 5 →
      (trunkPort s port).control ≠ [] →
      exec (.wakePatternRepeat port) s =
        .next (ran s (s.emit (.wakePattern (lowestLane s port))))) ∧
    (∀ (lane : Fin 4),
      laneInUse s lane = false →
      exec (.errorRateSecond lane) s =
        .next (ran s s)) ∧
    (∀ (lane : Fin 4),
      laneInUse s lane = true →
      (laneOf s lane).corrected ≤ 1000 * s.rd R.TRUNK_LIMITS.ERR_LIMIT →
      exec (.errorRateSecond lane) s =
        .next (ran s ((putLane lane { laneOf s lane with corrected := 0 } s).wr (R.TRUNK_LANE.CORRECTED lane) (min ((laneOf s lane).corrected / 1000) 65535)))) ∧
    (∀ (slot : Fin 8) (port : Fin 4),
      mayWrite s slot 0x00600008 = true →
      exec (.retrain slot port) s =
        .next (took slot s (retrainPort port (activity s)))) ∧
    (∀ (slot : Fin 8) (lane : Fin 4),
      mayWrite s slot 0x00600008 = true →
      exec (.resetLane slot lane) s =
        .next (took slot s (resetLane lane (activity s)))) ∧
    (∀ (lane : Fin 4) (p : Nat),
      laneInUse s lane = true →
      portOfLane s lane = some p →
      (widthLanes s p).contains lane.val = true →
      laneUsable (occur (346 + 4 * lane.val) s) lane = true →
      exec (.laneSignalLoss lane) s =
        .next (ran s (laneLost p (occur (346 + 4 * lane.val) s))))

/-- The grafting frames and timers move a stack member: each command runs to the next state shown (ch. 24: R495 to R521). -/
def Obligations.GraftCommandsComplete : Prop :=
  ∀ s : State,
    (∀ (port : Fin 4) (frame b : List Nat) (t : State),
      openGraft port 1 frame s = .good b t →
      portState t port = 3 →
      b.getD 38 0 < memberCount t →
      b.getD 38 0 ≠ ownMember t →
      portState (noteHeard (b.getD 38 0) ((b.drop 4).take 32) (leVal ((b.drop 36).take 2)) (leVal ((b.drop 40).take 4)) t) port ≠ 2 →
      exec (.helloFrame port frame) s =
        .next (ran s (noteHeard (b.getD 38 0) ((b.drop 4).take 32) (leVal ((b.drop 36).take 2)) (leVal ((b.drop 40).take 4)) t))) ∧
    (∀ (port : Fin 4) (frame b : List Nat) (t : State) (m : Nat),
      openGraft port 2 frame s = .good b t →
      b.getD 4 0 % 8 = m →
      m ≠ ownMember t →
      newer (leVal ((b.drop 6).take 2)) (heardOf t m).seqL = true →
      exec (.links port frame) s =
        .next (ran s (
      let u := putHeard m { heardOf t m with seqL := some (leVal ((b.drop 6).take 2)) } t
      flood (some port.val) b (releaseRequests (syncRemotePorts (setRoutes (putHeard m { heardOf u m with links := (b.drop 8).take 4 } u))))))) ∧
    (∀ (port : Fin 4) (frame b : List Nat) (t u : State) (m : Nat),
      openGraft port 3 frame s = .good b t →
      b.getD 4 0 % 8 = m →
      m ≠ ownMember t →
      u = noteHeard m ((b.drop 8).take 32) (leVal ((b.drop 40).take 2)) (leVal ((b.drop 42).take 4)) t →
      newer (leVal ((b.drop 6).take 2)) (heardOf u m).seqJ = true →
      isCrown (putHeard m { heardOf (putHeard m { heardOf u m with seqJ := some (leVal ((b.drop 6).take 2)) } u) m with joined := true } (putHeard m { heardOf u m with seqJ := some (leVal ((b.drop 6).take 2)) } u)) = false →
      exec (.join port frame) s =
        .next (ran s (
      let v := putHeard m { heardOf u m with seqJ := some (leVal ((b.drop 6).take 2)) } u
      flood (some port.val) b (putHeard m { heardOf v m with joined := true } v)))) ∧
    (∀ (port : Fin 4) (frame b : List Nat) (t : State) (m : Nat),
      openGraft port 4 frame s = .good b t →
      b.getD 4 0 % 8 = m →
      m ≠ ownMember t →
      newer (leVal ((b.drop 6).take 2)) (heardOf t m).seqA = true →
      ((heardOf t m).heard = false ∨ (heardOf t m).startId = leVal ((b.drop 44).take 4)) →
      isCrown (putHeard m { heardOf t m with seqA := some (leVal ((b.drop 6).take 2)) } t) = true →
      exec (.announce port frame) s =
        .next (ran s (flood (some port.val) b (putHeard m { heardOf t m with seqA := some (leVal ((b.drop 6).take 2)) } t)))) ∧
    (∀ (port : Fin 4),
      stacked s = true →
      portState s port = 3 →
      exec (.helloTimer port) s =
        .next (ran s (sendHello port s))) ∧
    (stacked s = true →
      exec .joinTimer s = .next (ran s (sendJoin s))) ∧
    (isCrown s = true →
      exec .announceTimer s = .next (ran s (sendAnnounce (crownMarks (ownMember s) s)))) ∧
    (exec .linksTimer s = .next (ran s (sendLinks s))) ∧
    (∀ (member : Fin 8),
      isCrown s = true →
      member.val ≠ ownMember s →
      exec (.joinExpiry member) s =
        .next (ran s (
      let t := putHeard member { heardOf s member with joined := false } s
      syncRemotePorts ((t.wr R.STACK_MEMBERS.GRAFTED (clearBit (t.rd R.STACK_MEMBERS.GRAFTED) member)).wr R.STACK_MEMBERS.QUARANTINED
        (clearBit (t.rd R.STACK_MEMBERS.QUARANTINED) member))))) ∧
    (∀ (member : Fin 8),
      exec (.routeExpiry member) s =
        .next (ran s (syncRemotePorts (setRoutes (putHeard member { heardOf s member with links := [] } s))))) ∧
    (∀ (p : Nat),
      routeTo s (crownOf s) = some p →
      stacked s = true →
      isCrown s = false →
      portState s p = 3 →
      s.stack.missed < 3 →
      exec .timeRequestTimer s = .next (ran s (emitFrame p 0 (frameOf 3 0 (ownMember s) (s.rd (R.PORT_STATUS.PEER p)) 0 0 0 (timeBody s 1 0 []))
          (putStack { s.stack with missed := s.stack.missed + 1 } s)))) ∧
    (stacked s = true →
      isCrown s = false →
      exec .crownLost s = .next (ran s (Machine.crownLost s)))

/-- Stack requests, the ledger and the stack commands take effect: each command runs to the next state shown (ch. 24: R495 to R521). -/
def Obligations.StackCommandsComplete : Prop :=
  ∀ s : State,
    (∀ (slot member : Fin 8),
      mayWrite s slot 0x00610014 = true →
      stacked s = true →
      crownTarget s member = true →
      exec (.expel slot member) s =
        .next (took slot s (expelMember member (activity s)))) ∧
    (∀ (slot member : Fin 8),
      mayWrite s slot 0x00610014 = true →
      stacked s = true →
      crownTarget s member = true →
      exec (.admitMember slot member) s =
        .next (took slot s (admitBack member (activity s)))) ∧
    (∀ (slot : Fin 8),
      mayWrite s slot 0x00610014 = true →
      stacked s = true →
      stackState s = 4 →
      exec (.leave slot) s =
        .next (took slot s (warmRestart (activity s)))) ∧
    (∀ (d : Deliv),
      inboxOf s 1 (fun _ => true) = some d →
      exec .trunkStrokeRequest s = .next (ran s (startRequest d 1 (leVal ((((d.head.drop 12).take 32).drop 12).take 4)) (fun t =>
        match slotOf t d.grove with
        | some slot =>
          if !hasDrum t (d.head.getD 1 0 % 2) || !listedOnDrum t slot (d.head.getD 1 0 % 2) then
            pumpAll (returnTally d.id (unrunTally (argOf d 4) 1 d.grove (leVal ((((d.head.drop 12).take 32).drop 12).take 4)) 4 0) (dropDeliv d t))
          else if !ringRoom t (d.head.getD 1 0 % 2) slot then t
          else
            let c := t.rd (R.STK_PROD.COUNT (d.head.getD 1 0 % 2) slot)
            let t1 := wrList (R.STK_ENTRY.BYTES (d.head.getD 1 0 % 2) slot (c % ringSize t slot)) 0 (wordsOf 8 ((d.head.drop 12).take 32)) (dropDeliv d t)
            pumpAll (takeStroke (d.head.getD 1 0 % 2) (freshStroke slot ((d.head.drop 12).take 32) none (some (issuerOf d.id, d.id)))
              (t1.wr (R.STK_PROD.COUNT (d.head.getD 1 0 % 2) slot) ((c + 1) % 65536)))
        | none =>
          pumpAll (returnTally d.id (unrunTally (argOf d 4) 1 d.grove (leVal ((((d.head.drop 12).take 32).drop 12).take 4)) 4 0) (dropDeliv d t))) s))) ∧
    (∀ (d : Deliv) (units : Nat),
      inboxOf s 2 (·.whole) = some d →
      ledgerOf s d.id = none →
      s.rd R.DORMANT_STATUS.STATE = 0 →
      fenced s d.id = false →
      stackState s = 2 →
      units = (argOf d 8 + 255) / 256 →
      (∀ (slot : Nat) (t : State) (c : Copied × State), slotOf s d.grove = some slot → sweepUse .trunk s = (false, t) →
        c = copyUnits slot (d.head.getD 12 0) (argOf d 16) 0 (d.units.take units) ⟨0, 0, none, 0, false⟩ t →
        exec .regionCopy s = .next (ran s (pumpAll (returnTally d.id ⟨argOf d 4, tallyStatus c.1.refused false c.1.done units, 3, d.grove, 1, units, c.1.done,
          c.1.failed.getD 0xFFFFFFFF, c.1.source, 0, 0, c.1.map⟩ (dropDeliv d c.2))))) ∧
      (slotOf s d.grove = none → exec .regionCopy s =
        .next (ran s (pumpAll (returnTally d.id ⟨argOf d 4, 4, 3, d.grove, 1, units, 0, 0xFFFFFFFF, 0, 0, 0, 0⟩ (dropDeliv d s)))))) ∧
    (∀ (d : Deliv),
      inboxOf s 3 (fun _ => true) = some d →
      exec .fence s = .next (ran s (dropDeliv d (putStack { s.stack with fences := Tab.put 0 s.stack.fences (issuerOf d.id) (argOf d 12 % 2 ^ 29) } s)))) ∧
    (∀ (d : Deliv) (t : State),
      inboxOf s 4 (fun _ => true) = some d →
      t = dropDeliv d s →
      ledgerOf t (argOf d 12) = none →
      runsHere t (argOf d 12) = true →
      exec .query s = .next (ran s (putStack { t.stack with asked := t.stack.asked ++ [argOf d 12] } t))) ∧
    (∀ (d : Deliv) (t : State) (y : Tally),
      inboxOf s 4 (fun _ => true) = some d →
      t = dropDeliv d s →
      ledgerOf t (argOf d 12) = some y →
      exec .query s = .next (ran s (pumpAll (sendAnswer (argOf d 12) (if y.source = 380 && y.status = 2 then none else some y) t)))) ∧
    (∀ (d : Deliv),
      inboxOf s 5 (fun _ => true) = some d →
      (dropDeliv d s).requests.find? (fun x => decide (x.id = argOf d 16)) = none →
      exec .answer s = .next (ran s (dropDeliv d s))) ∧
    (∀ (d : Deliv) (x : Request) (t u v : State),
      inboxOf s 5 (fun _ => true) = some d →
      t = dropDeliv d s →
      t.requests.find? (fun x => decide (x.id = argOf d 16)) = some x →
      u = { t with requests := t.requests.filter (fun y => y.id != argOf d 16) } →
      (d.head.getD 12 0 = 1 →
        v = (endRequest 13 x { tallyOf (d.head.drop 20) with flags := (tallyOf (d.head.drop 20)).flags ||| 3 } u).bump R.STACK_LEDGER.FOUND 1 →
        v.requests.any (fun y => decide (y.dest = x.dest) && y.lost) = true →
        exec .answer s = .next (ran s (releaseRequests v))) ∧
      (d.head.getD 12 0 ≠ 1 →
        v = (endRequest 13 x { remoteTally t x 2 380 with flags := 3 } u).bump R.STACK_LEDGER.NOT_RUN 1 →
        v.requests.any (fun y => decide (y.dest = x.dest) && y.lost) = false →
        exec .answer s = .next (ran s (releaseRequests (putStack { v.stack with relinking := v.stack.relinking.filter (· != x.dest) } v))))) ∧
    (∀ (d : Deliv),
      inboxOf s 6 (fun _ => true) = some d →
      exec .usbPacketRequest s = .next (ran s ((dropDeliv d s).emit (.usb ((slotOf s d.grove).getD 0) (d.head.drop 12))))) ∧
    (∀ (d : Deliv),
      inboxOf s 7 (fun _ => true) = some d →
      exec .unitAck s = .next (ran s (
      let mine : Stroke → Bool := fun x => match x.request with | some r => r.2 == argOf d 12 && x.awaiting.contains (argOf d 16) | none => false
      pumpAll ((List.range 2).foldl (fun t n =>
        if (drumSt t n).strokes.any mine then
          finishAcked n (argOf d 12) (putStrokes n ((drumSt t n).strokes.map (fun x =>
            if mine x then { x.unitDone (argOf d 16) with awaiting := x.awaiting.filter (· != argOf d 16) } else x)) t)
        else t) (dropDeliv d s))))) ∧
    (∀ (member : Fin 8) (p : Nat) (mine : List Request),
      routeTo s member = some p →
      stackState s ≠ 0 →
      mine = s.requests.filter (fun x => decide (x.dest = member.val) && x.port.isSome) →
      mine ≠ [] →
      exec (.relink member) s =
        .next (ran s (
      let s1 := putStack { s.stack with relinking := member.val :: s.stack.relinking.filter (· != member.val) }
        { s with requests := s.requests.map (fun x => if x.dest = member.val && x.port.isSome then { x with lost := true, port := some p } else x) }
      let s2 := sendBrief member 3 0 (leBytes 4 s1.stack.count) s1
      pumpAll (mine.foldl (fun t x => sendBrief member 4 0 (leBytes 4 x.id) t) s2)))) ∧
    (∀ (slot : Fin 8),
      mailWaits s slot 0x68 [] = true →
      exec (.stackInfo slot) s =
        .next (ran s (setReply slot 0 (leBytes 4 (fieldsWord s R.STACK_SELF.all)
    ++ leBytes 4 (fieldsWord s R.STACK_MEMBERS.all) ++ leBytes 4 (fieldsWord s R.STACK_TIME.all) ++ [0, 0, 0, 0]) s))) ∧
    (∀ (slot : Fin 8) (body : List Nat),
      mailWaits s slot 0x69 body = true →
      body.length = 32 →
      slot.val = 0 →
      exec (.secretSet slot) s =
        .next (ran s (setReply slot 0 [] (writeSecret body s)))) ∧
    (∀ (slot : Fin 8) (body : List Nat) (m : Nat),
      mailWaits s slot 0x6A body = true →
      body.length = 4 →
      leVal (body.take 4) = m →
      m < 8 →
      (heardOf s m).heard = true →
      exec (.memberInfo slot) s =
        .next (ran s (setReply slot 0 ((heardOf s m).digest ++ leBytes 2 (heardOf s m).compat ++ leBytes 2 (streamCompat s) ++ leBytes 4 (heardOf s m).startId) s)))

/-- Servo, voice and stroke commands that no check turns away have their own effect: each runs to the next state shown (ch. 15: R302; ch. 17: R349 to R368; ch. 19: R392; ch. 21: R427 to R447). -/
def Obligations.ServoAndStrokeEffects : Prop :=
  ∀ s : State,
    (∀ (slot : Fin 8) (body : List Nat) (t : Nat) (granted : Option Bool),
      mailWaits s slot 0x61 body = true →
      body.length = 12 →
      leVal (body.take 4) = t →
      t < 14 →
      slot.val = 0 →
      isUp s t = true →
      165 ≤ leVal ((body.drop 4).take 4) →
      leVal ((body.drop 4).take 4) ≤ 1050 →
      1 ≤ leVal ((body.drop 4).drop 4) →
      leVal ((body.drop 4).drop 4) ≤ 100 →
      (tcOf s t).fixedReq ≠ 1 →
      granted ≠ some false →
      exec (.sinkSet slot granted) s =
        .next (ran s (setReply slot 0 [] (changeTc t (fun x => { x with moved := x.pending.isSome && decide (granted = some true) })
          (negotiateSink t (tcOf s t).rev3 false
            (changeTc t (fun x => { x with sink := some (20 * leVal ((body.drop 4).take 4), 50 * leVal ((body.drop 4).drop 4)) }) s)))))) ∧
    (∀ (drum : Fin 2) (pickup : Pickup) (late : Fin 49) (s0 t u : State),
      s0 = endCheck drum s →
      engineRuns s0 drum = true →
      s0.isSet (R.FRONT_STATUS.CONV_OK drum) = true →
      t = reseedDue drum (drumSt s0 drum).frames (quietFollow drum (1 + late.val) (sledRun drum (1280 * (1 + late.val))
        (sampleDrum drum pickup (s0.bump (R.DH_LATE.COUNT drum) late)))) →
      u = startFrame drum t →
      exec (.drumheadFrame drum pickup late) s =
        .next (ran s (
      let due := (loadedVoices u drum).filter (fun e => e.2.due (drumSt s0 drum).frames)
      let run := due.filter (fun e => !voicePruned u drum e.1)
      let zeroed := (due.filter (fun e => voicePruned u drum e.1)).foldl (fun a e => zeroDests drum e.2.dests a) u
      let fast := (run.filter (fun e => e.2.predict)).foldl (fun a e => fastVoice drum e.2 t a) zeroed
      let slow := run.foldl (fun a e => updateVoice drum e.1 e.2 t a) fast
      let v := putSled drum { sledOf slow drum with lastCount := encCount slow drum } slow
      ((loadedVoices v drum).filter (fun e => !voicePruned v drum e.1)).foldl (fun a e => watchInputs drum e.1 a) v))) ∧
    (∀ (slot : Fin 8) (drum : Fin 2) (voice : Fin 8) (period role : Nat) (predict keep : Bool),
      mayWrite s slot (drumBase drum + 0x10018) = true →
      voiceBusy (activity s) drum = false →
      (∀ (op : Nat) (prog : List Nat) (g : Bool) (p r : Nat) (k : Bool) (checked : State),
        checked = (putDrum drum { drumSt (activity s) drum with checking := some ⟨op, voice, prog, p, r, g, k, false⟩ } (activity s)).on (R.DH_LOAD_STATUS.BUSY drum) →
        (op = 1 → prog = voiceStage (activity s) drum → g = predict → p = period → r = role → k = false →
          exec (.loadVoice slot drum voice period role predict) s = .next (took slot s checked)) ∧
        (op = 2 → prog = voiceStage (activity s) drum → g = predict → p = period → r = role → k = keep →
          exec (.swap slot drum voice period role predict keep) s = .next (took slot s checked)) ∧
        (op = 3 → prog = [] → g = false → p = 0 → r = 0 → k = false → exec (.unload slot drum voice) s = .next (took slot s checked)) ∧
        (op = 4 → prog = [] → g = false → p = 0 → r = 0 → k = false → exec (.reseed slot drum voice) s = .next (took slot s checked))) ∧
      exec (.voiceCmdBadOp slot drum) s =
        .next (took slot s (occur (drumSrc drum 32) ((activity s).wr (R.DH_LOAD_STATUS.CODE drum) 7)))) ∧
    (∀ (drum : Fin 2) (c : VoiceCmd) (others set : List (Nat × List Nat × Bool)) (t : State),
      (drumSt s drum).resync = false →
      (drumSt s drum).checking = some c →
      t = (putDrum drum { drumSt s drum with checking := none } s).off (R.DH_LOAD_STATUS.BUSY drum) →
      voicePruned t drum c.voice = false →
      projectedSet t drum = set →
      set.filter (fun e => e.1 != c.voice) = others →
      engineRuns (endCheck drum s) drum = false →
      1 ≤ c.op →
      set.any (fun e => e.1 = c.voice) = decide (c.op ≠ 1) →
      (3 ≤ c.op → exec (.voiceCmdEffect drum) s = .next (ran s (acceptVoice drum c t))) ∧
      (c.op ≤ 2 → 1 ≤ c.period → c.period ≤ 255 → c.role ≤ 5 →
        programOk c.prog c.prog.length c.role c.predict = true →
        (c.predict = false ∨ (others.filter (fun e => e.2.2)).length < 3) →
        others.any (fun e => (readProgram e.2.1).dests.any (readProgram c.prog).dests.contains) = false →
        setSum (applyCmd set c) ≤ 3000 →
        exec (.voiceCmdEffect drum) s = .next (ran s (acceptVoice drum { c with
          raise := decide (clockTempo t (drum + 1) < max (streamFloor t drum) (lowestFit (setSum (applyCmd set c)))) } t)))) ∧
    (∀ (slot : Fin 8) (drum : Fin 2) (target : Int),
      mayWrite s slot (drumBase drum + 0x3003C) = true →
      strokeHolds s drum = false →
      sledState s drum = 2 →
      signed 32 (s.rd (R.SLED_TARGET.X drum)) = target →
      0 ≤ target →
      target ≤ (travelUnits s drum : Int) →
      (sledRec s drum (s.rd (R.SLED_CFG.PROFILE drum))).isSome = true →
      target * (sledDen : Int) ≠ (sledOf s drum).pos →
      exec (.sledSeek slot drum) s =
        .next (took slot s (seekFrom drum (sledOf s drum).pos target false (activity s)))) ∧
    (∀ (slot : Fin 8) (drum : Fin 2) (prod used : Nat) (t : State) (x : Stroke),
      mayWrite s slot (drumBase drum + 0x50100) = true →
      s.rd (R.STK_PROD.COUNT drum slot) = prod →
      (prod + 65536 - s.rd (R.STK_CONS.COUNT drum slot)) % 65536 = used →
      ((prod + 1) % 65536 + 65536 - s.rd (R.STK_CONS.COUNT drum slot)) % 65536 = used + 1 →
      used + 1 ≤ ringSize s slot →
      t = (activity s).wr (R.STK_PROD.COUNT drum slot) ((prod + 1) % 65536) →
      x = freshStroke slot (strokeEntry t drum slot (prod % ringSize t slot)) none none →
      strokeForm false x = true →
      strokeRights t slot drum x.op x.arg = true →
      (∀ len, regionBytes x = some len → (regionAddr t slot x.region x.offset len).isSome = true) →
      deadDrum t drum = none →
      exec (.stkProdWrite slot drum ((prod + 1) % 65536)) s =
        .next (took slot s (syncHeld drum slot (putStrokes drum ((drumSt t drum).strokes ++ [x]) t)))) ∧
    (∀ (drum : Fin 2) (x : Stroke) (seek : Option Int),
      currentStroke s drum = some x →
      x.started = false →
      discBegins s drum x = .go →
      (x.op = 1 → exec (.strokeRead drum none) s =
        .next (ran s (acquire drum (byteAt (drumSt s drum).ident 18) (syncNow drum (updateCurrent drum (fun y => { y with started := true })
          (if slotsUsed s drum = 0 then setMode drum (if isDvd s drum then 2 else 1) s else s)))))) ∧
      (x.op = 3 → exec (.readSubcode drum []) s =
        .next (ran s (acquire drum (byteAt (drumSt s drum).ident 18) (syncNow drum (updateCurrent drum (fun y => { y with started := true })
          (if slotsUsed s drum = 0 then setMode drum (if isDvd s drum then 2 else 1) s else s))))))) ∧
    (∀ (drum : Fin 2) (x : Stroke) (r : List Nat) (t : State),
      t = startDisc drum 3 s →
      currentStroke t drum = some x →
      x.op = 3 →
      x.started = true →
      x.next < x.count →
      rateOver t drum = false →
      x.lun = none →
      exec (.readSubcode drum [r]) s =
        .next (ran s (finishIfDone drum (passUnit drum x.next (giveUnit drum x.next (x.offset + x.next * (if x.arg % 2 = 0 then 16 else 96))
          (if x.arg % 2 = 0 then (r ++ List.replicate 96 0).take 12 ++ [0, 0, 0, 0] else (r ++ List.replicate 96 0).take 96) t))))) ∧
    (∀ (drum : Fin 2) (x : Stroke) (target : Int) (t : State),
      t = startDisc drum 5 s →
      currentStroke t drum = some x →
      x.op = 5 →
      x.started = true →
      sledState t drum = 2 →
      ((sledOf t drum).pos = target * (sledDen : Int) → exec (.strokeSeek drum target) s = .next (ran s (seekEnded drum none t))) ∧
      ((sledOf t drum).pos ≠ target * (sledDen : Int) → x.coalesced ≠ some x.next → sledCut t drum = false →
        exec (.strokeSeek drum target) s = .next (ran s (dropLock drum (seekTo drum target true t))))) ∧
    (∀ (drum : Fin 2) (x : Stroke) (t : State),
      currentStroke s drum = some x →
      x.op = 7 →
      x.started = false →
      x.arg % 2 = 0 →
      t = syncNow drum (updateCurrent drum (fun y => { y with started := true }) s) →
      vmOut t drum = false →
      groupHot t drum 2 = false →
      trayState t drum ≠ 5 →
      trayState t drum ≠ 3 →
      exec (.tray drum) s =
        .next (ran s ((putTray drum { trayOf t drum with req := 1 } (putSpin drum { spinOf t drum with trayHold := true } t)).on (R.TRAY_STATUS.PENDING drum)))) ∧
    (∀ (drum : Fin 2) (x : Stroke) (kind first last sessions endAt layer0 book laser : Nat) (finalized leadOut : Bool),
      currentStroke s drum = some x →
      x.op = 8 →
      x.started = true →
      spinState s drum = 5 →
      s.rd (R.STK_DISC.STATE drum) ≠ 0 →
      (laser = 1 ∨ laser = 2) →
      s.rd (R.LASER_CTRL.SELECT drum) = laser →
      laserBar s drum = none →
      discOk kind book finalized leadOut = true →
      exec (.identify drum (.found kind first last sessions endAt layer0 book laser finalized leadOut)) s =
        .next (ran s (identified drum kind first last sessions endAt layer0 book laser x (rearm drum s))))

/-- The SCSI commands of Table 21-6: what each begins with, and what the logical unit then does (R443, R444, R445). The sense key of an answer is 0 where the status is GOOD. -/
def Obligations.ScsiCommandsTakeEffect : Prop :=
  ∀ s : State,
    (∀ (c : Instr) (slot l tag : Nat) (cdb : List Nat) (n : Nat) (data : List Nat),
      scsiArrival c = some (slot, l, tag, cdb, byteAt cdb 0) →
      lunFree s slot l n = true →
      beginScsi s slot n (lunOf s slot l) cdb = .good data →
      (byteAt cdb 0 ≠ 0x1E → exec c s =
        .next (ran s (releaseRequests (answerScsi slot l 0 0 data ((lunTook slot l n tag cdb s).drew (scsiDraws cdb)))))) ∧
      (byteAt cdb 0 = 0x1E → exec c s =
        .next (ran s (releaseRequests (answerScsi slot l 0 0 data
          (putLun slot l { lunOf (lunTook slot l n tag cdb s) slot l with prevent := bit (byteAt cdb 4) 0 } (lunTook slot l n tag cdb s))))))) ∧
    (∀ (c : Instr) (slot l tag : Nat) (cdb : List Nat) (n op address count arg : Nat),
      scsiArrival c = some (slot, l, tag, cdb, byteAt cdb 0) →
      lunFree s slot l n = true →
      beginScsi s slot n (lunOf s slot l) cdb = .stroke op address count arg →
      strokeRights s slot n op arg = true →
      deadDrum s n = none →
      exec c s = .next (ran s (releaseRequests (issueLun slot l op address count arg (lunBegan slot l n tag cdb none s))))) ∧
    (∀ (c : Instr) (slot l tag : Nat) (cdb : List Nat) (n lba count form : Nat),
      scsiArrival c = some (slot, l, tag, cdb, byteAt cdb 0) →
      lunFree s slot l n = true →
      beginScsi s slot n (lunOf s slot l) cdb = .reads lba count form →
      (count = 0 → exec c s = .next (ran s (releaseRequests (answerScsi slot l 0 0 [] (lunTook slot l n tag cdb s))))) ∧
      (0 < count → count ≤ min (lbaAddress s n lba).2 65535 → strokeRights s slot n 1 form = true → deadDrum s n = none →
        exec c s = .next (ran s (releaseRequests (issueLun slot l 1 (lbaAddress s n lba).1 count form
          (let t := lunBegan slot l n tag cdb (some (lba, count, form)) s
           putLun slot l { lunOf t slot l with toIssue := none } t)))))) ∧
    (∀ (slot : Fin 8) (lun : Fin 16) (tag n : Nat) (cdb : List Nat),
      lunFree s slot lun n = true →
      scsiOps.contains (byteAt cdb 0) = false →
      exec (.scsiUnsupported slot lun tag cdb) s =
        .next (ran s (releaseRequests (answerScsi slot lun (senseKcq 5 0x20 0) 0 [] (lunTook slot lun n tag cdb s))))) ∧
    (∀ (slot n : Nat) (u : Lun) (b : List Nat),
      (byteAt b 0 = 0x00 → discSense s n = 0 → beginScsi s slot n u b = .good []) ∧
      (byteAt b 0 = 0x03 → beginScsi s slot n u b = .good ((senseData u).take (byteAt b 4))) ∧
      (byteAt b 0 = 0x12 → bit (byteAt b 1) 0 = true → byteAt b 2 = 0 → beginScsi s slot n u b = .good [0x05, 0, 0, 1, 0]) ∧
      (byteAt b 0 = 0x1B → bit (byteAt b 4) 1 = false → beginScsi s slot n u b = .stroke 6 0 1 (if bit (byteAt b 4) 0 then 65535 else 0)) ∧
      (byteAt b 0 = 0x1B → bit (byteAt b 4) 1 = true → beginScsi s slot n u b = .stroke 7 0 1 (byteAt b 4 % 2)) ∧
      (byteAt b 0 = 0x1E → beginScsi s slot n u b = .good []) ∧
      (byteAt b 0 = 0x25 → discSense s n = 0 → beginScsi s slot n u b = .good (beBytes 4 (discBlocks s n - 1) ++ beBytes 4 2048)) ∧
      (byteAt b 0 = 0x28 → beginScsi s slot n u b = .reads (cdbLba b) (cdbLen10 b) 0) ∧
      (byteAt b 0 = 0xA8 → beginScsi s slot n u b = .reads (cdbLba b) (cdbLen12 b) 0) ∧
      (byteAt b 0 = 0xBE → byteAt b 10 % 8 = 0 → byteAt b 9 = 0xF8 → beginScsi s slot n u b = .reads (cdbLba b) (beVal ((b.drop 6).take 3)) 2) ∧
      (byteAt b 0 = 0x2B → beginScsi s slot n u b = .stroke 5 (lbaAddress s n (cdbLba b)).1 1 0) ∧
      (byteAt b 0 = 0x42 → byteAt b 3 = 1 → beginScsi s slot n u b = .stroke 3
        (match (audioOf s slot n).find? (fun o => s.isSet (R.AUD_STATUS.PLAYING o)) with | some o => s.rd (R.AUD_POS.ADDRESS o) | none => (drumSt s n).lastRead) 1 0) ∧
      (byteAt b 0 = 0x43 → byteAt b 2 % 16 ≤ 1 → beginScsi s slot n u b = .stroke 2 0 1 0) ∧
      (∀ (o : Nat) (rest : List Nat), audioOf s slot n = o :: rest →
        (byteAt b 0 = 0x45 → cdbLen10 b ≠ 0 → beginScsi s slot n u b = .stroke 4 (cdbLba b) (cdbLen10 b) o) ∧
        (byteAt b 0 = 0x47 → msfLba (b.drop 3) < msfLba (b.drop 6) →
          beginScsi s slot n u b = .stroke 4 (msfLba (b.drop 3)) (msfLba (b.drop 6) - msfLba (b.drop 3)) o)) ∧
      (byteAt b 0 = 0x46 → cdbLen10 b = 8 → beginScsi s slot n u b =
        .good ([0, 0, 0, 0x24, 0, 0] ++ beBytes 2 (if s.rd (R.STK_DISC.KIND n) = 0 then 0 else if 4 ≤ s.rd (R.STK_DISC.KIND n) then 0x10 else 8))) ∧
      (byteAt b 0 = 0x4A → bit (byteAt b 1) 0 = true → 8 ≤ cdbLen10 b →
        beginScsi s slot n u b = .good [0, 6, 4, 0x10, s.freeVal 0 % 16, if s.rd (R.STK_DISC.STATE n) = 0 then 1 else 2, 0, 0]) ∧
      (byteAt b 0 = 0x5A → byteAt b 2 % 64 = 0x2A → cdbLen10 b = 10 → beginScsi s slot n u b = .good [0, 18, 0, 0, 0, 0, 0, 0, 0x2A, 10]) ∧
      (byteAt b 0 = 0xAD → byteAt b 7 = 0 → discSense s n = 0 → isDvd s n = true → beVal ((b.drop 8).take 2) = 5 →
        beginScsi s slot n u b = .good [0, 18, 0, 0, byteAt (drumSt s n).ident 16]))

/-- Trunk frames, lanes and stack commands that nothing turns away have their own effect, and a word of buffer SRAM reads as its check bits say: each command runs to the next state shown (R71; ch. 23: R471 to R494; ch. 24: R495 to R521). -/
def Obligations.TrunkStackAndBufferEffects : Prop :=
  ∀ s : State,
    (∀ (port worst : Fin 4) (symbols word : List Nat) (t : State),
      portState s port ≠ 0 →
      portState s port ≠ 6 →
      s.rd (R.CLOCK_STATUS.GEN 0) ≠ 1 →
      codewordDecode symbols = some word →
      t = countCorrected port symbols word s →
      bits (codewordBits word) 0 8 = 0xC5 →
      (trunkPort t port).cwNext = some (codewordCount (codewordBits word) % 4096) →
      exec (.codewordReceived port symbols worst) s =
        .next (ran s (putTrunk port { trunkPort t port with cwNext := some ((codewordCount (codewordBits word) + 1) % 4096), cwBad := 0 } t))) ∧
    (∀ (port : Fin 4) (frame f : List Nat) (arrival : Nat) (t : State),
      openFrame port 3 frame s = .good f t →
      (frameBody f).getD 8 0 = 2 →
      isCrown (takeHeader port f t) = false →
      routeTo (takeHeader port f t) (crownOf (takeHeader port f t)) = some port.val →
      exec (.timeFrame port frame arrival) s =
        .next (ran s (takeOffset ((((leVal (((frameBody f).drop 16).take 8) : Int) - leVal (((frameBody f).drop 24).take 8))
          - ((arrival : Int) - leVal (((frameBody f).drop 0).take 8))) / 2) (takeHeader port f t)))) ∧
    (∀ (slot : Fin 8) (port : Fin 4),
      mayWrite s slot 0x00600008 = true →
      (portState s port = 2 ∨ portState s port = 3 ∨ portState s port = 4) →
      exec (.retrain slot port) s = .next (took slot s (linkLoss port (activity s)))) ∧
    (∀ (slot : Fin 8) (lane : Fin 4),
      mayWrite s slot 0x00600008 = true →
      laneState s lane = 5 →
      exec (.resetLane slot lane) s = .next (took slot s (laneJoins lane (activity s)))) ∧
    (∀ (port : Fin 4) (frame b : List Nat) (t u : State) (m : Nat),
      openGraft port 1 frame s = .good b t →
      portState t port = 2 →
      b.getD 38 0 = m →
      m < memberCount t →
      m ≠ ownMember t →
      u = noteHeard m ((b.drop 4).take 32) (leVal ((b.drop 36).take 2)) (leVal ((b.drop 40).take 4))
        (putTrunk port { trunkPort t port with peerNonce := (b.drop 44).take 32, peerPort := b.getD 39 0 % 4 } t) →
      portState u port = 2 →
      (b.drop 76).take 32 = (trunkPort t port).nonce →
      stacked u = true →
      Tab.look false u.causes 46 = false →
      exec (.helloFrame port frame) s = .next (ran s (keyPort port m u))) ∧
    (∀ (port : Fin 4) (frame b : List Nat) (t u v : State) (m : Nat),
      openGraft port 3 frame s = .good b t →
      b.getD 4 0 % 8 = m →
      m ≠ ownMember t →
      u = noteHeard m ((b.drop 8).take 32) (leVal ((b.drop 40).take 2)) (leVal ((b.drop 42).take 4)) t →
      newer (leVal ((b.drop 6).take 2)) (heardOf u m).seqJ = true →
      v = putHeard m { heardOf u m with seqJ := some (leVal ((b.drop 6).take 2)) } u →
      isCrown (putHeard m { heardOf v m with joined := true } v) = true →
      exec (.join port frame) s =
        .next (ran s (flood (some port.val) b (crownMarks m (putHeard m { heardOf v m with joined := true } v))))) ∧
    (∀ (port : Fin 4) (frame b : List Nat) (t u v : State) (m st : Nat),
      openGraft port 4 frame s = .good b t →
      b.getD 4 0 % 8 = m →
      m ≠ ownMember t →
      newer (leVal ((b.drop 6).take 2)) (heardOf t m).seqA = true →
      ((heardOf t m).heard = false ∨ (heardOf t m).startId = leVal ((b.drop 44).take 4)) →
      u = putHeard m { heardOf t m with seqA := some (leVal ((b.drop 6).take 2)) } t →
      m = crownOf u →
      isCrown u = false →
      u.stack.crownStart = some (leVal ((b.drop 44).take 4)) →
      v = (((putStack { u.stack with crownStart := some (leVal ((b.drop 44).take 4)) } u).wr R.STACK_MEMBERS.GRAFTED (b.getD 40 0)).wr
        R.STACK_MEMBERS.QUARANTINED (b.getD 41 0)).wr R.STACK_MEMBERS.EXPELLED (b.getD 42 0) →
      st = listedState (stackState v) (ownListing v) (v.isSet R.STACK_TIME.LOCKED) →
      exec (.announce port frame) s =
        .next (ran s (flood (some port.val) b (releaseRequests (syncRemotePorts
          (if st = 4 then (setStackState st v).wr R.STACK_SELF.QCAUSE (quarantineCause ((b.drop 8).take 32) (setStackState st v)) else setStackState st v)))))) ∧
    (∀ (d : Deliv) (slot n c : Nat) (bytes : List Nat),
      inboxOf s 1 (fun _ => true) = some d →
      ledgerOf s d.id = none →
      s.rd R.DORMANT_STATUS.STATE = 0 →
      fenced s d.id = false →
      stackState s = 2 →
      slotOf s d.grove = some slot →
      d.head.getD 1 0 % 2 = n →
      (d.head.drop 12).take 32 = bytes →
      hasDrum s n = true →
      listedOnDrum s slot n = true →
      ringRoom s n slot = true →
      s.rd (R.STK_PROD.COUNT n slot) = c →
      exec .trunkStrokeRequest s =
        .next (ran s (pumpAll (takeStroke n (freshStroke slot bytes none (some (issuerOf d.id, d.id)))
          ((wrList (R.STK_ENTRY.BYTES n slot (c % ringSize s slot)) 0 (wordsOf 8 bytes) (dropDeliv d s)).wr (R.STK_PROD.COUNT n slot) ((c + 1) % 65536)))))) ∧
    (∀ w d k j : Nat, d < 2 ^ 64 → k < 72 → j < 72 → j ≠ k →
      (Tab.look 0 s.bufEcc w = 0 → readBuf w d s = (some d, s)) ∧
      (Tab.look 0 s.bufEcc w = 2 ^ k → readBuf w d s = (some d, bufCorrected (setBufEcc w 0 s))) ∧
      (Tab.look 0 s.bufEcc w = 2 ^ k ^^^ 2 ^ j → readBuf w d s = (none, bufLost w s)))
end

