-- ==== Sys2Proof/Laws/State.lean ====
section
/-! SUPPORT. What the plainest updates of the state leave: one lemma per field, so that no proof unfolds a record update. -/
namespace Sys2Proof.Machine.State

@[simp] theorem wr_variant (s : State) (f : Fld) (v : Nat) : (s.wr f v).variant = s.variant := rfl
@[simp] theorem wr_pending (s : State) (f : Fld) (v : Nat) : (s.wr f v).pending = s.pending := rfl
@[simp] theorem wr_outs (s : State) (f : Fld) (v : Nat) : (s.wr f v).outs = s.outs := rfl
@[simp] theorem wr_freeCtr (s : State) (f : Fld) (v : Nat) : (s.wr f v).freeCtr = s.freeCtr := rfl
@[simp] theorem wr_stage (s : State) (f : Fld) (v : Nat) : (s.wr f v).stage = s.stage := rfl
@[simp] theorem wr_flash (s : State) (f : Fld) (v : Nat) : (s.wr f v).flash = s.flash := rfl
@[simp] theorem wr_keeping (s : State) (f : Fld) (v : Nat) : (s.wr f v).keeping = s.keeping := rfl
@[simp] theorem wr_sdram (s : State) (f : Fld) (v : Nat) : (s.wr f v).sdram = s.sdram := rfl
@[simp] theorem wr_bufEcc (s : State) (f : Fld) (v : Nat) : (s.wr f v).bufEcc = s.bufEcc := rfl
@[simp] theorem wr_keepEcc (s : State) (f : Fld) (v : Nat) : (s.wr f v).keepEcc = s.keepEcc := rfl
@[simp] theorem wr_hwRam (s : State) (f : Fld) (v : Nat) : (s.wr f v).hwRam = s.hwRam := rfl
@[simp] theorem wr_hwEcc (s : State) (f : Fld) (v : Nat) : (s.wr f v).hwEcc = s.hwEcc := rfl
@[simp] theorem wr_hwEntry (s : State) (f : Fld) (v : Nat) : (s.wr f v).hwEntry = s.hwEntry := rfl
@[simp] theorem wr_flashRead (s : State) (f : Fld) (v : Nat) : (s.wr f v).flashRead = s.flashRead := rfl
@[simp] theorem wr_flashAddr4 (s : State) (f : Fld) (v : Nat) : (s.wr f v).flashAddr4 = s.flashAddr4 := rfl
@[simp] theorem wr_loadOp (s : State) (f : Fld) (v : Nat) : (s.wr f v).loadOp = s.loadOp := rfl
@[simp] theorem wr_loadSrc (s : State) (f : Fld) (v : Nat) : (s.wr f v).loadSrc = s.loadSrc := rfl
@[simp] theorem wr_heldFlash (s : State) (f : Fld) (v : Nat) : (s.wr f v).heldFlash = s.heldFlash := rfl
@[simp] theorem wr_stream (s : State) (f : Fld) (v : Nat) : (s.wr f v).stream = s.stream := rfl
@[simp] theorem wr_tallyQ (s : State) (f : Fld) (v : Nat) : (s.wr f v).tallyQ = s.tallyQ := rfl
@[simp] theorem wr_tallyLast (s : State) (f : Fld) (v : Nat) : (s.wr f v).tallyLast = s.tallyLast := rfl
@[simp] theorem wr_causes (s : State) (f : Fld) (v : Nat) : (s.wr f v).causes = s.causes := rfl
@[simp] theorem wr_events (s : State) (f : Fld) (v : Nat) : (s.wr f v).events = s.events := rfl
@[simp] theorem wr_windows (s : State) (f : Fld) (v : Nat) : (s.wr f v).windows = s.windows := rfl
@[simp] theorem wr_retryN (s : State) (f : Fld) (v : Nat) : (s.wr f v).retryN = s.retryN := rfl
@[simp] theorem wr_deferred (s : State) (f : Fld) (v : Nat) : (s.wr f v).deferred = s.deferred := rfl
@[simp] theorem wr_unpruning (s : State) (f : Fld) (v : Nat) : (s.wr f v).unpruning = s.unpruning := rfl
@[simp] theorem wr_irqNews (s : State) (f : Fld) (v : Nat) : (s.wr f v).irqNews = s.irqNews := rfl
@[simp] theorem wr_metro (s : State) (f : Fld) (v : Nat) : (s.wr f v).metro = s.metro := rfl
@[simp] theorem wr_heldAcc (s : State) (f : Fld) (v : Nat) : (s.wr f v).heldAcc = s.heldAcc := rfl
@[simp] theorem wr_sealing (s : State) (f : Fld) (v : Nat) : (s.wr f v).sealing = s.sealing := rfl
@[simp] theorem wr_walks (s : State) (f : Fld) (v : Nat) : (s.wr f v).walks = s.walks := rfl
@[simp] theorem wr_heldRekeys (s : State) (f : Fld) (v : Nat) : (s.wr f v).heldRekeys = s.heldRekeys := rfl
@[simp] theorem wr_pageJobs (s : State) (f : Fld) (v : Nat) : (s.wr f v).pageJobs = s.pageJobs := rfl
@[simp] theorem wr_ctCache (s : State) (f : Fld) (v : Nat) : (s.wr f v).ctCache = s.ctCache := rfl
@[simp] theorem wr_memWait (s : State) (f : Fld) (v : Nat) : (s.wr f v).memWait = s.memWait := rfl
@[simp] theorem wr_memTurn (s : State) (f : Fld) (v : Nat) : (s.wr f v).memTurn = s.memTurn := rfl
@[simp] theorem wr_patrolLine (s : State) (f : Fld) (v : Nat) : (s.wr f v).patrolLine = s.patrolLine := rfl
@[simp] theorem wr_refreshOwed (s : State) (f : Fld) (v : Nat) : (s.wr f v).refreshOwed = s.refreshOwed := rfl
@[simp] theorem wr_evLog (s : State) (f : Fld) (v : Nat) : (s.wr f v).evLog = s.evLog := rfl
@[simp] theorem wr_evSeq (s : State) (f : Fld) (v : Nat) : (s.wr f v).evSeq = s.evSeq := rfl
@[simp] theorem wr_reports (s : State) (f : Fld) (v : Nat) : (s.wr f v).reports = s.reports := rfl
@[simp] theorem wr_recovery (s : State) (f : Fld) (v : Nat) : (s.wr f v).recovery = s.recovery := rfl
@[simp] theorem wr_rail0 (s : State) (f : Fld) (v : Nat) : (s.wr f v).rail0 = s.rail0 := rfl
@[simp] theorem wr_rail1 (s : State) (f : Fld) (v : Nat) : (s.wr f v).rail1 = s.rail1 := rfl
@[simp] theorem wr_rail2 (s : State) (f : Fld) (v : Nat) : (s.wr f v).rail2 = s.rail2 := rfl
@[simp] theorem wr_xtalRun (s : State) (f : Fld) (v : Nat) : (s.wr f v).xtalRun = s.xtalRun := rfl
@[simp] theorem wr_backoff (s : State) (f : Fld) (v : Nat) : (s.wr f v).backoff = s.backoff := rfl
@[simp] theorem wr_domReq (s : State) (f : Fld) (v : Nat) : (s.wr f v).domReq = s.domReq := rfl
@[simp] theorem wr_domStep (s : State) (f : Fld) (v : Nat) : (s.wr f v).domStep = s.domStep := rfl
@[simp] theorem wr_entry (s : State) (f : Fld) (v : Nat) : (s.wr f v).entry = s.entry := rfl
@[simp] theorem wr_idleCount (s : State) (f : Fld) (v : Nat) : (s.wr f v).idleCount = s.idleCount := rfl
@[simp] theorem wr_idleDone (s : State) (f : Fld) (v : Nat) : (s.wr f v).idleDone = s.idleDone := rfl
@[simp] theorem wr_muffle (s : State) (f : Fld) (v : Nat) : (s.wr f v).muffle = s.muffle := rfl
@[simp] theorem wr_pwrgd (s : State) (f : Fld) (v : Nat) : (s.wr f v).pwrgd = s.pwrgd := rfl
@[simp] theorem wr_resetN (s : State) (f : Fld) (v : Nat) : (s.wr f v).resetN = s.resetN := rfl
@[simp] theorem wr_testEn (s : State) (f : Fld) (v : Nat) : (s.wr f v).testEn = s.testEn := rfl
@[simp] theorem wr_dbgTrstN (s : State) (f : Fld) (v : Nat) : (s.wr f v).dbgTrstN = s.dbgTrstN := rfl
@[simp] theorem wr_refLost (s : State) (f : Fld) (v : Nat) : (s.wr f v).refLost = s.refLost := rfl
@[simp] theorem wr_refGood (s : State) (f : Fld) (v : Nat) : (s.wr f v).refGood = s.refGood := rfl
@[simp] theorem wr_strapRbp (s : State) (f : Fld) (v : Nat) : (s.wr f v).strapRbp = s.strapRbp := rfl
@[simp] theorem wr_strapStack (s : State) (f : Fld) (v : Nat) : (s.wr f v).strapStack = s.strapStack := rfl
@[simp] theorem wr_idbHeld (s : State) (f : Fld) (v : Nat) : (s.wr f v).idbHeld = s.idbHeld := rfl
@[simp] theorem wr_rescan (s : State) (f : Fld) (v : Nat) : (s.wr f v).rescan = s.rescan := rfl
@[simp] theorem wr_rbp0 (s : State) (f : Fld) (v : Nat) : (s.wr f v).rbp0 = s.rbp0 := rfl
@[simp] theorem wr_rbp1 (s : State) (f : Fld) (v : Nat) : (s.wr f v).rbp1 = s.rbp1 := rfl
@[simp] theorem wr_porch (s : State) (f : Fld) (v : Nat) : (s.wr f v).porch = s.porch := rfl
@[simp] theorem wr_ports (s : State) (f : Fld) (v : Nat) : (s.wr f v).ports = s.ports := rfl
@[simp] theorem wr_tts (s : State) (f : Fld) (v : Nat) : (s.wr f v).tts = s.tts := rfl
@[simp] theorem wr_hubDepth (s : State) (f : Fld) (v : Nat) : (s.wr f v).hubDepth = s.hubDepth := rfl
@[simp] theorem wr_usbDevs (s : State) (f : Fld) (v : Nat) : (s.wr f v).usbDevs = s.usbDevs := rfl
@[simp] theorem wr_hubAlt (s : State) (f : Fld) (v : Nat) : (s.wr f v).hubAlt = s.hubAlt := rfl
@[simp] theorem wr_funcWake (s : State) (f : Fld) (v : Nat) : (s.wr f v).funcWake = s.funcWake := rfl
@[simp] theorem wr_typec (s : State) (f : Fld) (v : Nat) : (s.wr f v).typec = s.typec := rfl
@[simp] theorem wr_mail (s : State) (f : Fld) (v : Nat) : (s.wr f v).mail = s.mail := rfl
@[simp] theorem wr_vendor (s : State) (f : Fld) (v : Nat) : (s.wr f v).vendor = s.vendor := rfl
@[simp] theorem wr_taps (s : State) (f : Fld) (v : Nat) : (s.wr f v).taps = s.taps := rfl
@[simp] theorem wr_tapDrops (s : State) (f : Fld) (v : Nat) : (s.wr f v).tapDrops = s.tapDrops := rfl
@[simp] theorem wr_drums (s : State) (f : Fld) (v : Nat) : (s.wr f v).drums = s.drums := rfl
@[simp] theorem wr_luns (s : State) (f : Fld) (v : Nat) : (s.wr f v).luns = s.luns := rfl
@[simp] theorem wr_uarts (s : State) (f : Fld) (v : Nat) : (s.wr f v).uarts = s.uarts := rfl
@[simp] theorem wr_trunk (s : State) (f : Fld) (v : Nat) : (s.wr f v).trunk = s.trunk := rfl
@[simp] theorem wr_lanes (s : State) (f : Fld) (v : Nat) : (s.wr f v).lanes = s.lanes := rfl
@[simp] theorem wr_stack (s : State) (f : Fld) (v : Nat) : (s.wr f v).stack = s.stack := rfl
@[simp] theorem wr_heard (s : State) (f : Fld) (v : Nat) : (s.wr f v).heard = s.heard := rfl
@[simp] theorem wr_requests (s : State) (f : Fld) (v : Nat) : (s.wr f v).requests = s.requests := rfl
@[simp] theorem wr_inbox (s : State) (f : Fld) (v : Nat) : (s.wr f v).inbox = s.inbox := rfl
@[simp] theorem wr_shadow (s : State) (f : Fld) (v : Nat) : (s.wr f v).shadow = s.shadow := rfl

@[simp] theorem emit_variant (s : State) (o : Out) : (s.emit o).variant = s.variant := rfl
@[simp] theorem emit_regs (s : State) (o : Out) : (s.emit o).regs = s.regs := rfl
@[simp] theorem emit_pending (s : State) (o : Out) : (s.emit o).pending = s.pending := rfl
@[simp] theorem emit_freeCtr (s : State) (o : Out) : (s.emit o).freeCtr = s.freeCtr := rfl
@[simp] theorem emit_stage (s : State) (o : Out) : (s.emit o).stage = s.stage := rfl
@[simp] theorem emit_flash (s : State) (o : Out) : (s.emit o).flash = s.flash := rfl
@[simp] theorem emit_keeping (s : State) (o : Out) : (s.emit o).keeping = s.keeping := rfl
@[simp] theorem emit_sdram (s : State) (o : Out) : (s.emit o).sdram = s.sdram := rfl
@[simp] theorem emit_bufEcc (s : State) (o : Out) : (s.emit o).bufEcc = s.bufEcc := rfl
@[simp] theorem emit_keepEcc (s : State) (o : Out) : (s.emit o).keepEcc = s.keepEcc := rfl
@[simp] theorem emit_hwRam (s : State) (o : Out) : (s.emit o).hwRam = s.hwRam := rfl
@[simp] theorem emit_hwEcc (s : State) (o : Out) : (s.emit o).hwEcc = s.hwEcc := rfl
@[simp] theorem emit_hwEntry (s : State) (o : Out) : (s.emit o).hwEntry = s.hwEntry := rfl
@[simp] theorem emit_flashRead (s : State) (o : Out) : (s.emit o).flashRead = s.flashRead := rfl
@[simp] theorem emit_flashAddr4 (s : State) (o : Out) : (s.emit o).flashAddr4 = s.flashAddr4 := rfl
@[simp] theorem emit_loadOp (s : State) (o : Out) : (s.emit o).loadOp = s.loadOp := rfl
@[simp] theorem emit_loadSrc (s : State) (o : Out) : (s.emit o).loadSrc = s.loadSrc := rfl
@[simp] theorem emit_heldFlash (s : State) (o : Out) : (s.emit o).heldFlash = s.heldFlash := rfl
@[simp] theorem emit_stream (s : State) (o : Out) : (s.emit o).stream = s.stream := rfl
@[simp] theorem emit_tallyQ (s : State) (o : Out) : (s.emit o).tallyQ = s.tallyQ := rfl
@[simp] theorem emit_tallyLast (s : State) (o : Out) : (s.emit o).tallyLast = s.tallyLast := rfl
@[simp] theorem emit_causes (s : State) (o : Out) : (s.emit o).causes = s.causes := rfl
@[simp] theorem emit_events (s : State) (o : Out) : (s.emit o).events = s.events := rfl
@[simp] theorem emit_windows (s : State) (o : Out) : (s.emit o).windows = s.windows := rfl
@[simp] theorem emit_retryN (s : State) (o : Out) : (s.emit o).retryN = s.retryN := rfl
@[simp] theorem emit_deferred (s : State) (o : Out) : (s.emit o).deferred = s.deferred := rfl
@[simp] theorem emit_unpruning (s : State) (o : Out) : (s.emit o).unpruning = s.unpruning := rfl
@[simp] theorem emit_irqNews (s : State) (o : Out) : (s.emit o).irqNews = s.irqNews := rfl
@[simp] theorem emit_metro (s : State) (o : Out) : (s.emit o).metro = s.metro := rfl
@[simp] theorem emit_heldAcc (s : State) (o : Out) : (s.emit o).heldAcc = s.heldAcc := rfl
@[simp] theorem emit_sealing (s : State) (o : Out) : (s.emit o).sealing = s.sealing := rfl
@[simp] theorem emit_walks (s : State) (o : Out) : (s.emit o).walks = s.walks := rfl
@[simp] theorem emit_heldRekeys (s : State) (o : Out) : (s.emit o).heldRekeys = s.heldRekeys := rfl
@[simp] theorem emit_pageJobs (s : State) (o : Out) : (s.emit o).pageJobs = s.pageJobs := rfl
@[simp] theorem emit_ctCache (s : State) (o : Out) : (s.emit o).ctCache = s.ctCache := rfl
@[simp] theorem emit_memWait (s : State) (o : Out) : (s.emit o).memWait = s.memWait := rfl
@[simp] theorem emit_memTurn (s : State) (o : Out) : (s.emit o).memTurn = s.memTurn := rfl
@[simp] theorem emit_patrolLine (s : State) (o : Out) : (s.emit o).patrolLine = s.patrolLine := rfl
@[simp] theorem emit_refreshOwed (s : State) (o : Out) : (s.emit o).refreshOwed = s.refreshOwed := rfl
@[simp] theorem emit_evLog (s : State) (o : Out) : (s.emit o).evLog = s.evLog := rfl
@[simp] theorem emit_evSeq (s : State) (o : Out) : (s.emit o).evSeq = s.evSeq := rfl
@[simp] theorem emit_reports (s : State) (o : Out) : (s.emit o).reports = s.reports := rfl
@[simp] theorem emit_recovery (s : State) (o : Out) : (s.emit o).recovery = s.recovery := rfl
@[simp] theorem emit_rail0 (s : State) (o : Out) : (s.emit o).rail0 = s.rail0 := rfl
@[simp] theorem emit_rail1 (s : State) (o : Out) : (s.emit o).rail1 = s.rail1 := rfl
@[simp] theorem emit_rail2 (s : State) (o : Out) : (s.emit o).rail2 = s.rail2 := rfl
@[simp] theorem emit_xtalRun (s : State) (o : Out) : (s.emit o).xtalRun = s.xtalRun := rfl
@[simp] theorem emit_backoff (s : State) (o : Out) : (s.emit o).backoff = s.backoff := rfl
@[simp] theorem emit_domReq (s : State) (o : Out) : (s.emit o).domReq = s.domReq := rfl
@[simp] theorem emit_domStep (s : State) (o : Out) : (s.emit o).domStep = s.domStep := rfl
@[simp] theorem emit_entry (s : State) (o : Out) : (s.emit o).entry = s.entry := rfl
@[simp] theorem emit_idleCount (s : State) (o : Out) : (s.emit o).idleCount = s.idleCount := rfl
@[simp] theorem emit_idleDone (s : State) (o : Out) : (s.emit o).idleDone = s.idleDone := rfl
@[simp] theorem emit_muffle (s : State) (o : Out) : (s.emit o).muffle = s.muffle := rfl
@[simp] theorem emit_pwrgd (s : State) (o : Out) : (s.emit o).pwrgd = s.pwrgd := rfl
@[simp] theorem emit_resetN (s : State) (o : Out) : (s.emit o).resetN = s.resetN := rfl
@[simp] theorem emit_testEn (s : State) (o : Out) : (s.emit o).testEn = s.testEn := rfl
@[simp] theorem emit_dbgTrstN (s : State) (o : Out) : (s.emit o).dbgTrstN = s.dbgTrstN := rfl
@[simp] theorem emit_refLost (s : State) (o : Out) : (s.emit o).refLost = s.refLost := rfl
@[simp] theorem emit_refGood (s : State) (o : Out) : (s.emit o).refGood = s.refGood := rfl
@[simp] theorem emit_strapRbp (s : State) (o : Out) : (s.emit o).strapRbp = s.strapRbp := rfl
@[simp] theorem emit_strapStack (s : State) (o : Out) : (s.emit o).strapStack = s.strapStack := rfl
@[simp] theorem emit_idbHeld (s : State) (o : Out) : (s.emit o).idbHeld = s.idbHeld := rfl
@[simp] theorem emit_rescan (s : State) (o : Out) : (s.emit o).rescan = s.rescan := rfl
@[simp] theorem emit_rbp0 (s : State) (o : Out) : (s.emit o).rbp0 = s.rbp0 := rfl
@[simp] theorem emit_rbp1 (s : State) (o : Out) : (s.emit o).rbp1 = s.rbp1 := rfl
@[simp] theorem emit_porch (s : State) (o : Out) : (s.emit o).porch = s.porch := rfl
@[simp] theorem emit_ports (s : State) (o : Out) : (s.emit o).ports = s.ports := rfl
@[simp] theorem emit_tts (s : State) (o : Out) : (s.emit o).tts = s.tts := rfl
@[simp] theorem emit_hubDepth (s : State) (o : Out) : (s.emit o).hubDepth = s.hubDepth := rfl
@[simp] theorem emit_usbDevs (s : State) (o : Out) : (s.emit o).usbDevs = s.usbDevs := rfl
@[simp] theorem emit_hubAlt (s : State) (o : Out) : (s.emit o).hubAlt = s.hubAlt := rfl
@[simp] theorem emit_funcWake (s : State) (o : Out) : (s.emit o).funcWake = s.funcWake := rfl
@[simp] theorem emit_typec (s : State) (o : Out) : (s.emit o).typec = s.typec := rfl
@[simp] theorem emit_mail (s : State) (o : Out) : (s.emit o).mail = s.mail := rfl
@[simp] theorem emit_vendor (s : State) (o : Out) : (s.emit o).vendor = s.vendor := rfl
@[simp] theorem emit_taps (s : State) (o : Out) : (s.emit o).taps = s.taps := rfl
@[simp] theorem emit_tapDrops (s : State) (o : Out) : (s.emit o).tapDrops = s.tapDrops := rfl
@[simp] theorem emit_drums (s : State) (o : Out) : (s.emit o).drums = s.drums := rfl
@[simp] theorem emit_luns (s : State) (o : Out) : (s.emit o).luns = s.luns := rfl
@[simp] theorem emit_uarts (s : State) (o : Out) : (s.emit o).uarts = s.uarts := rfl
@[simp] theorem emit_trunk (s : State) (o : Out) : (s.emit o).trunk = s.trunk := rfl
@[simp] theorem emit_lanes (s : State) (o : Out) : (s.emit o).lanes = s.lanes := rfl
@[simp] theorem emit_stack (s : State) (o : Out) : (s.emit o).stack = s.stack := rfl
@[simp] theorem emit_heard (s : State) (o : Out) : (s.emit o).heard = s.heard := rfl
@[simp] theorem emit_requests (s : State) (o : Out) : (s.emit o).requests = s.requests := rfl
@[simp] theorem emit_inbox (s : State) (o : Out) : (s.emit o).inbox = s.inbox := rfl
@[simp] theorem emit_shadow (s : State) (o : Out) : (s.emit o).shadow = s.shadow := rfl

@[simp] theorem drew_variant (s : State) (n : Nat) : (s.drew n).variant = s.variant := rfl
@[simp] theorem drew_regs (s : State) (n : Nat) : (s.drew n).regs = s.regs := rfl
@[simp] theorem drew_pending (s : State) (n : Nat) : (s.drew n).pending = s.pending := rfl
@[simp] theorem drew_outs (s : State) (n : Nat) : (s.drew n).outs = s.outs := rfl
@[simp] theorem drew_stage (s : State) (n : Nat) : (s.drew n).stage = s.stage := rfl
@[simp] theorem drew_flash (s : State) (n : Nat) : (s.drew n).flash = s.flash := rfl
@[simp] theorem drew_keeping (s : State) (n : Nat) : (s.drew n).keeping = s.keeping := rfl
@[simp] theorem drew_sdram (s : State) (n : Nat) : (s.drew n).sdram = s.sdram := rfl
@[simp] theorem drew_bufEcc (s : State) (n : Nat) : (s.drew n).bufEcc = s.bufEcc := rfl
@[simp] theorem drew_keepEcc (s : State) (n : Nat) : (s.drew n).keepEcc = s.keepEcc := rfl
@[simp] theorem drew_hwRam (s : State) (n : Nat) : (s.drew n).hwRam = s.hwRam := rfl
@[simp] theorem drew_hwEcc (s : State) (n : Nat) : (s.drew n).hwEcc = s.hwEcc := rfl
@[simp] theorem drew_hwEntry (s : State) (n : Nat) : (s.drew n).hwEntry = s.hwEntry := rfl
@[simp] theorem drew_flashRead (s : State) (n : Nat) : (s.drew n).flashRead = s.flashRead := rfl
@[simp] theorem drew_flashAddr4 (s : State) (n : Nat) : (s.drew n).flashAddr4 = s.flashAddr4 := rfl
@[simp] theorem drew_loadOp (s : State) (n : Nat) : (s.drew n).loadOp = s.loadOp := rfl
@[simp] theorem drew_loadSrc (s : State) (n : Nat) : (s.drew n).loadSrc = s.loadSrc := rfl
@[simp] theorem drew_heldFlash (s : State) (n : Nat) : (s.drew n).heldFlash = s.heldFlash := rfl
@[simp] theorem drew_stream (s : State) (n : Nat) : (s.drew n).stream = s.stream := rfl
@[simp] theorem drew_tallyQ (s : State) (n : Nat) : (s.drew n).tallyQ = s.tallyQ := rfl
@[simp] theorem drew_tallyLast (s : State) (n : Nat) : (s.drew n).tallyLast = s.tallyLast := rfl
@[simp] theorem drew_causes (s : State) (n : Nat) : (s.drew n).causes = s.causes := rfl
@[simp] theorem drew_events (s : State) (n : Nat) : (s.drew n).events = s.events := rfl
@[simp] theorem drew_windows (s : State) (n : Nat) : (s.drew n).windows = s.windows := rfl
@[simp] theorem drew_retryN (s : State) (n : Nat) : (s.drew n).retryN = s.retryN := rfl
@[simp] theorem drew_deferred (s : State) (n : Nat) : (s.drew n).deferred = s.deferred := rfl
@[simp] theorem drew_unpruning (s : State) (n : Nat) : (s.drew n).unpruning = s.unpruning := rfl
@[simp] theorem drew_irqNews (s : State) (n : Nat) : (s.drew n).irqNews = s.irqNews := rfl
@[simp] theorem drew_metro (s : State) (n : Nat) : (s.drew n).metro = s.metro := rfl
@[simp] theorem drew_heldAcc (s : State) (n : Nat) : (s.drew n).heldAcc = s.heldAcc := rfl
@[simp] theorem drew_sealing (s : State) (n : Nat) : (s.drew n).sealing = s.sealing := rfl
@[simp] theorem drew_walks (s : State) (n : Nat) : (s.drew n).walks = s.walks := rfl
@[simp] theorem drew_heldRekeys (s : State) (n : Nat) : (s.drew n).heldRekeys = s.heldRekeys := rfl
@[simp] theorem drew_pageJobs (s : State) (n : Nat) : (s.drew n).pageJobs = s.pageJobs := rfl
@[simp] theorem drew_ctCache (s : State) (n : Nat) : (s.drew n).ctCache = s.ctCache := rfl
@[simp] theorem drew_memWait (s : State) (n : Nat) : (s.drew n).memWait = s.memWait := rfl
@[simp] theorem drew_memTurn (s : State) (n : Nat) : (s.drew n).memTurn = s.memTurn := rfl
@[simp] theorem drew_patrolLine (s : State) (n : Nat) : (s.drew n).patrolLine = s.patrolLine := rfl
@[simp] theorem drew_refreshOwed (s : State) (n : Nat) : (s.drew n).refreshOwed = s.refreshOwed := rfl
@[simp] theorem drew_evLog (s : State) (n : Nat) : (s.drew n).evLog = s.evLog := rfl
@[simp] theorem drew_evSeq (s : State) (n : Nat) : (s.drew n).evSeq = s.evSeq := rfl
@[simp] theorem drew_reports (s : State) (n : Nat) : (s.drew n).reports = s.reports := rfl
@[simp] theorem drew_recovery (s : State) (n : Nat) : (s.drew n).recovery = s.recovery := rfl
@[simp] theorem drew_rail0 (s : State) (n : Nat) : (s.drew n).rail0 = s.rail0 := rfl
@[simp] theorem drew_rail1 (s : State) (n : Nat) : (s.drew n).rail1 = s.rail1 := rfl
@[simp] theorem drew_rail2 (s : State) (n : Nat) : (s.drew n).rail2 = s.rail2 := rfl
@[simp] theorem drew_xtalRun (s : State) (n : Nat) : (s.drew n).xtalRun = s.xtalRun := rfl
@[simp] theorem drew_backoff (s : State) (n : Nat) : (s.drew n).backoff = s.backoff := rfl
@[simp] theorem drew_domReq (s : State) (n : Nat) : (s.drew n).domReq = s.domReq := rfl
@[simp] theorem drew_domStep (s : State) (n : Nat) : (s.drew n).domStep = s.domStep := rfl
@[simp] theorem drew_entry (s : State) (n : Nat) : (s.drew n).entry = s.entry := rfl
@[simp] theorem drew_idleCount (s : State) (n : Nat) : (s.drew n).idleCount = s.idleCount := rfl
@[simp] theorem drew_idleDone (s : State) (n : Nat) : (s.drew n).idleDone = s.idleDone := rfl
@[simp] theorem drew_muffle (s : State) (n : Nat) : (s.drew n).muffle = s.muffle := rfl
@[simp] theorem drew_pwrgd (s : State) (n : Nat) : (s.drew n).pwrgd = s.pwrgd := rfl
@[simp] theorem drew_resetN (s : State) (n : Nat) : (s.drew n).resetN = s.resetN := rfl
@[simp] theorem drew_testEn (s : State) (n : Nat) : (s.drew n).testEn = s.testEn := rfl
@[simp] theorem drew_dbgTrstN (s : State) (n : Nat) : (s.drew n).dbgTrstN = s.dbgTrstN := rfl
@[simp] theorem drew_refLost (s : State) (n : Nat) : (s.drew n).refLost = s.refLost := rfl
@[simp] theorem drew_refGood (s : State) (n : Nat) : (s.drew n).refGood = s.refGood := rfl
@[simp] theorem drew_strapRbp (s : State) (n : Nat) : (s.drew n).strapRbp = s.strapRbp := rfl
@[simp] theorem drew_strapStack (s : State) (n : Nat) : (s.drew n).strapStack = s.strapStack := rfl
@[simp] theorem drew_idbHeld (s : State) (n : Nat) : (s.drew n).idbHeld = s.idbHeld := rfl
@[simp] theorem drew_rescan (s : State) (n : Nat) : (s.drew n).rescan = s.rescan := rfl
@[simp] theorem drew_rbp0 (s : State) (n : Nat) : (s.drew n).rbp0 = s.rbp0 := rfl
@[simp] theorem drew_rbp1 (s : State) (n : Nat) : (s.drew n).rbp1 = s.rbp1 := rfl
@[simp] theorem drew_porch (s : State) (n : Nat) : (s.drew n).porch = s.porch := rfl
@[simp] theorem drew_ports (s : State) (n : Nat) : (s.drew n).ports = s.ports := rfl
@[simp] theorem drew_tts (s : State) (n : Nat) : (s.drew n).tts = s.tts := rfl
@[simp] theorem drew_hubDepth (s : State) (n : Nat) : (s.drew n).hubDepth = s.hubDepth := rfl
@[simp] theorem drew_usbDevs (s : State) (n : Nat) : (s.drew n).usbDevs = s.usbDevs := rfl
@[simp] theorem drew_hubAlt (s : State) (n : Nat) : (s.drew n).hubAlt = s.hubAlt := rfl
@[simp] theorem drew_funcWake (s : State) (n : Nat) : (s.drew n).funcWake = s.funcWake := rfl
@[simp] theorem drew_typec (s : State) (n : Nat) : (s.drew n).typec = s.typec := rfl
@[simp] theorem drew_mail (s : State) (n : Nat) : (s.drew n).mail = s.mail := rfl
@[simp] theorem drew_vendor (s : State) (n : Nat) : (s.drew n).vendor = s.vendor := rfl
@[simp] theorem drew_taps (s : State) (n : Nat) : (s.drew n).taps = s.taps := rfl
@[simp] theorem drew_tapDrops (s : State) (n : Nat) : (s.drew n).tapDrops = s.tapDrops := rfl
@[simp] theorem drew_drums (s : State) (n : Nat) : (s.drew n).drums = s.drums := rfl
@[simp] theorem drew_luns (s : State) (n : Nat) : (s.drew n).luns = s.luns := rfl
@[simp] theorem drew_uarts (s : State) (n : Nat) : (s.drew n).uarts = s.uarts := rfl
@[simp] theorem drew_trunk (s : State) (n : Nat) : (s.drew n).trunk = s.trunk := rfl
@[simp] theorem drew_lanes (s : State) (n : Nat) : (s.drew n).lanes = s.lanes := rfl
@[simp] theorem drew_stack (s : State) (n : Nat) : (s.drew n).stack = s.stack := rfl
@[simp] theorem drew_heard (s : State) (n : Nat) : (s.drew n).heard = s.heard := rfl
@[simp] theorem drew_requests (s : State) (n : Nat) : (s.drew n).requests = s.requests := rfl
@[simp] theorem drew_inbox (s : State) (n : Nat) : (s.drew n).inbox = s.inbox := rfl
@[simp] theorem drew_shadow (s : State) (n : Nat) : (s.drew n).shadow = s.shadow := rfl

end Sys2Proof.Machine.State
end

