-- ==== Sys2Proof/Laws/Tab.lean ====
section
/-! SUPPORT. The laws of sparse tables: what a look-up finds after a store, and that a store keeps the canonical form. -/
namespace Sys2Proof.Tab
variable {α : Type}

theorem above_mono : ∀ (t : Tab α) (a b : Nat), Tab.above b t = true → a ≤ b → Tab.above a t = true
  | [], _, _, _, _ => rfl
  | (j, _) :: r, a, b, h, hab => by
    simp only [Tab.above, Bool.and_eq_true, decide_eq_true_eq] at h ⊢
    exact ⟨by omega, h.2⟩

theorem above_del : ∀ (t : Tab α) (lo k : Nat), Tab.above lo t = true → Tab.above lo (Tab.del t k) = true
  | [], _, _, _ => rfl
  | (j, v) :: r, lo, k, h => by
    simp only [Tab.above, Bool.and_eq_true, decide_eq_true_eq] at h
    simp only [Tab.del]
    split
    · exact above_del r lo k (above_mono r lo j h.2 (by omega))
    · simp only [Tab.above, Bool.and_eq_true, decide_eq_true_eq]
      exact ⟨h.1, above_del r j k h.2⟩

/-- A rising table without its first entry rises. -/
theorem rising_of_above : ∀ (t : Tab α) (lo : Nat), Tab.above lo t = true → Tab.rising t = true
  | [], _, _ => rfl
  | (j, v) :: r, lo, h => by
    simp only [Tab.above, Bool.and_eq_true] at h
    exact h.2

theorem above_ins (v : α) : ∀ (t : Tab α) (lo k : Nat), Tab.above lo t = true → lo < k → Tab.above lo (Tab.ins t k v) = true
  | [], _, _, _, hk => by simp [Tab.ins, Tab.above, hk]
  | (j, w) :: r, lo, k, h, hk => by
    simp only [Tab.above, Bool.and_eq_true, decide_eq_true_eq] at h
    simp only [Tab.ins]
    split
    · rename_i e
      subst e
      simp only [Tab.above, Bool.and_eq_true, decide_eq_true_eq]
      exact ⟨hk, h.2⟩
    · split
      · simp only [Tab.above, Bool.and_eq_true, decide_eq_true_eq]
        exact ⟨hk, by assumption, h.2⟩
      · simp only [Tab.above, Bool.and_eq_true, decide_eq_true_eq]
        exact ⟨h.1, above_ins v r j k h.2 (by omega)⟩

theorem rising_del : ∀ (t : Tab α) (k : Nat), Tab.rising t = true → Tab.rising (Tab.del t k) = true
  | [], _, _ => rfl
  | (j, v) :: r, k, h => by
    simp only [Tab.rising] at h
    simp only [Tab.del]
    split
    · exact rising_of_above _ j (above_del r j k h)
    · exact above_del r j k h

theorem rising_ins (v : α) : ∀ (t : Tab α) (k : Nat), Tab.rising t = true → Tab.rising (Tab.ins t k v) = true
  | [], _, _ => rfl
  | (j, w) :: r, k, h => by
    simp only [Tab.rising] at h
    simp only [Tab.ins]
    split
    · rename_i e
      subst e
      exact h
    · split
      · simp only [Tab.rising, Tab.above, Bool.and_eq_true, decide_eq_true_eq]
        exact ⟨by assumption, h⟩
      · exact above_ins v r j k h (by omega)

/-- A store keeps the order of the keys. -/
theorem rising_put [DecidableEq α] (d : α) (t : Tab α) (k : Nat) (v : α) (h : Tab.rising t = true) :
    Tab.rising (Tab.put d t k v) = true := by
  unfold Tab.put
  split
  · exact rising_del t k h
  · exact rising_ins v t k h

theorem all_del (p : Nat × α → Bool) : ∀ (t : Tab α) (k : Nat), t.all p = true → (Tab.del t k).all p = true
  | [], _, _ => rfl
  | (j, v) :: r, k, h => by
    simp only [List.all_cons, Bool.and_eq_true] at h
    simp only [Tab.del]
    split
    · exact all_del p r k h.2
    · simp only [List.all_cons, Bool.and_eq_true]
      exact ⟨h.1, all_del p r k h.2⟩

theorem all_ins (p : Nat × α → Bool) (k : Nat) (v : α) (hv : p (k, v) = true) :
    ∀ (t : Tab α), t.all p = true → (Tab.ins t k v).all p = true
  | [], _ => by simp [Tab.ins, hv]
  | (j, w) :: r, h => by
    simp only [List.all_cons, Bool.and_eq_true] at h
    simp only [Tab.ins]
    split
    · simp [hv, h.2]
    · split
      · simp [hv, h.1, h.2]
      · simp only [List.all_cons, Bool.and_eq_true]
        exact ⟨h.1, all_ins p k v hv r h.2⟩

/-- A store keeps the canonical form. -/
theorem wf_put [DecidableEq α] (d : α) (t : Tab α) (k : Nat) (v : α) (h : Tab.wf d t = true) : Tab.wf d (Tab.put d t k v) = true := by
  simp only [Tab.wf, Bool.and_eq_true] at h ⊢
  refine ⟨rising_put d t k v h.1, ?_⟩
  unfold Tab.put
  split
  · exact all_del _ t k h.2
  · exact all_ins _ k v (by simpa using ‹_›) t h.2

/-- Taking entries out keeps the canonical form. -/
theorem above_filter (p : Nat × α → Bool) : ∀ (t : Tab α) (lo : Nat), Tab.above lo t = true → Tab.above lo (t.filter p) = true
  | [], _, _ => rfl
  | (j, v) :: r, lo, h => by
    simp only [Tab.above, Bool.and_eq_true, decide_eq_true_eq] at h
    simp only [List.filter_cons]
    split
    · simp only [Tab.above, Bool.and_eq_true, decide_eq_true_eq]
      exact ⟨h.1, above_filter p r j h.2⟩
    · exact above_filter p r lo (above_mono r lo j h.2 (by omega))

theorem rising_filter (p : Nat × α → Bool) (t : Tab α) (h : Tab.rising t = true) : Tab.rising (t.filter p) = true := by
  induction t with
  | nil => rfl
  | cons e r ih =>
    obtain ⟨j, v⟩ := e
    simp only [Tab.rising] at h
    simp only [List.filter_cons]
    split
    · exact above_filter p r j h
    · exact ih (rising_of_above r j h)

theorem wf_filter [DecidableEq α] (d : α) (p : Nat × α → Bool) (t : Tab α) (h : Tab.wf d t = true) : Tab.wf d (t.filter p) = true := by
  simp only [Tab.wf, Bool.and_eq_true, List.all_eq_true, List.mem_filter] at h ⊢
  exact ⟨rising_filter p t h.1, fun e he => h.2 e he.1⟩

theorem look_ins_same (d v : α) : ∀ (t : Tab α) (k : Nat), Tab.look d (Tab.ins t k v) k = v
  | [], k => by simp [Tab.ins, Tab.look]
  | (j, w) :: r, k => by
    simp only [Tab.ins]
    split
    · simp [Tab.look]
    · split
      · simp [Tab.look]
      · simp only [Tab.look]
        split
        · contradiction
        · exact look_ins_same d v r k

theorem look_ins_other (d v : α) : ∀ (t : Tab α) (k i : Nat), i ≠ k → Tab.look d (Tab.ins t k v) i = Tab.look d t i
  | [], k, i, h => by simp [Tab.ins, Tab.look, h]
  | (j, w) :: r, k, i, h => by
    simp only [Tab.ins]
    split
    · rename_i e
      subst e
      simp [Tab.look, h]
    · split
      · simp [Tab.look, h]
      · simp only [Tab.look]
        split
        · rfl
        · exact look_ins_other d v r k i h

theorem look_del_other (d : α) : ∀ (t : Tab α) (k i : Nat), i ≠ k → Tab.look d (Tab.del t k) i = Tab.look d t i
  | [], _, _, _ => rfl
  | (j, w) :: r, k, i, h => by
    simp only [Tab.del]
    split
    · rename_i e
      subst e
      simp [Tab.look, h, look_del_other d r k i h]
    · simp only [Tab.look]
      split
      · rfl
      · exact look_del_other d r k i h

theorem look_del_same (d : α) : ∀ (t : Tab α) (k : Nat), Tab.look d (Tab.del t k) k = d
  | [], _ => rfl
  | (j, w) :: r, k => by
    simp only [Tab.del]
    split
    · exact look_del_same d r k
    · simp only [Tab.look]
      split
      · contradiction
      · exact look_del_same d r k

/-- A store is found again. -/
theorem look_put_same [DecidableEq α] (d : α) (t : Tab α) (k : Nat) (v : α) : Tab.look d (Tab.put d t k v) k = v := by
  unfold Tab.put
  split
  · rename_i e
    rw [e]
    exact look_del_same d t k
  · exact look_ins_same d v t k

/-- A store leaves every other entry. -/
theorem look_put_other [DecidableEq α] (d : α) (t : Tab α) (k i : Nat) (v : α) (h : i ≠ k) :
    Tab.look d (Tab.put d t k v) i = Tab.look d t i := by
  unfold Tab.put
  split
  · exact look_del_other d t k i h
  · exact look_ins_other d v t k i h

end Sys2Proof.Tab
end

