-- ==== Sys2Proof/Laws/Registers.lean ====
section
/-! SUPPORT. The laws of register fields: a write is found again, and leaves every other field. -/
namespace Sys2Proof.Machine.State

/-- A field written reads as the value at its width. -/
@[simp] theorem rd_wr_same (s : State) (f : Fld) (v : Nat) : (s.wr f v).rd f = v % 2 ^ f.width :=
  Tab.look_put_same f.reset s.regs f.key (v % 2 ^ f.width)
/-- A write leaves every other field. -/
theorem rd_wr_other (s : State) (f g : Fld) (v : Nat) (h : g.key ≠ f.key) : (s.wr f v).rd g = s.rd g := by
  unfold rd wr
  cases hd : decide (v % 2 ^ f.width = f.reset)
  · have hne : ¬ v % 2 ^ f.width = f.reset := by simpa using hd
    simp only [Tab.put, hne, if_false]
    exact Tab.look_ins_other g.reset _ s.regs f.key g.key h
  · have he : v % 2 ^ f.width = f.reset := by simpa using hd
    simp only [Tab.put, he, if_true]
    exact Tab.look_del_other g.reset s.regs f.key g.key h
@[simp] theorem rd_emit (s : State) (o : Out) (f : Fld) : (s.emit o).rd f = s.rd f := rfl
@[simp] theorem rd_drew (s : State) (n : Nat) (f : Fld) : (s.drew n).rd f = s.rd f := rfl
@[simp] theorem rd_activity (s : State) (f : Fld) : (activity s).rd f = s.rd f := rfl
@[simp] theorem rd_metroTick (s : State) (f : Fld) : (metroTick s).rd f = s.rd f := rfl
@[simp] theorem rd_timelineTick (s : State) (f : Fld) : (timelineTick s).rd f = s.rd f := rfl

theorem on_eq (s : State) (f : Fld) : s.on f = s.wr f 1 := rfl
theorem off_eq (s : State) (f : Fld) : s.off f = s.wr f 0 := rfl
theorem wrB_eq (s : State) (f : Fld) (b : Bool) : s.wrB f b = s.wr f (b2n b) := rfl
theorem rst_eq (s : State) (f : Fld) : s.rst f = s.wr f f.reset := rfl
theorem bump_eq (s : State) (f : Fld) (n : Nat) : s.bump f n = s.wr f (min (s.rd f + n) (2 ^ f.width - 1)) := rfl
/-- A counter never falls at an addition, and stops at its largest value. -/
theorem rd_bump (s : State) (f : Fld) (n : Nat) : (s.bump f n).rd f = min (s.rd f + n) (2 ^ f.width - 1) := by
  have : min (s.rd f + n) (2 ^ f.width - 1) < 2 ^ f.width := by
    have := Nat.two_pow_pos f.width
    omega
  rw [bump_eq, rd_wr_same, Nat.mod_eq_of_lt this]
/-- A register store keeps the order of its entries. -/
theorem regs_wr (s : State) (f : Fld) (v : Nat) (h : Tab.rising s.regs = true) : Tab.rising (s.wr f v).regs = true :=
  Tab.rising_put f.reset s.regs f.key (v % 2 ^ f.width) h

end Sys2Proof.Machine.State
end

