-- ==== Sys2Proof/Laws/Access.lean ====
section
/-! SUPPORT. The shared operations that stand before a command's own effect: register accesses, mailbox requests, bus windows,
consoles, hubs and PD messages. -/
namespace Sys2Proof.Machine
set_option linter.unusedSimpArgs false
set_option linter.unusedVariables false

/-- A command that completes runs to its effect. -/
theorem completes_ran {s t u : State} (h : t = u) : completes s t = .next (ran s u) := by rw [h]; rfl
/-- A register command that completes answers OK after its effect. -/
theorem completes_took {s t u : State} {k : Nat} (h : t = u.emit (.answer k 0 0)) : completes s t = .next (took k s u) := by rw [h]; rfl
/-- A register command that its block takes has its effect, then the answer OK. -/
theorem guardWrite_served {s : State} {slot a : Nat} {f : State → State} (h : mayWrite s slot a = true) :
    guardWrite slot a f s = (f (activity s)).emit (.answer slot 0 0) := by
  unfold mayWrite at h
  simp only [Bool.and_eq_true, beq_iff_eq] at h
  have h1 : viewOf (activity s) slot a true = .served := h.1
  have h2 : blockRuns (activity s) a = true := h.2
  simp [guardWrite, h1, h2]
/-- A register command that its block takes and does not refuse has its effect, then the answer OK; one that it refuses has
its effect, then the answer REFUSED. -/
theorem guardTry_served {s : State} {slot a : Nat} {refused : State → Bool} {f : State → State} (h : mayWrite s slot a = true) :
    (refused (activity s) = false → guardTry slot a refused f s = (f (activity s)).emit (.answer slot 0 0)) ∧
    (refused (activity s) = true → guardTry slot a refused f s = (f (activity s)).emit (.answer slot 1 0)) := by
  unfold mayWrite at h
  simp only [Bool.and_eq_true, beq_iff_eq] at h
  have h1 : viewOf (activity s) slot a true = .served := h.1
  have h2 : blockRuns (activity s) a = true := h.2
  constructor <;> intro hr <;> simp [guardTry, h1, h2, hr, b2n]
/-- A register read that is served. -/
theorem guardRead_served {s : State} {slot a : Nat} {f : State → State} (h : mayRead s slot a = true) :
    guardRead slot a f s = f (activity s) := by
  unfold mayRead at h
  have h1 : viewOf (activity s) slot a false = .served := by simp at h; exact h
  simp [guardRead, h1]
/-- A mailbox request that the firmware serves. -/
theorem serveMail_served {s : State} {slot op : Nat} {body : List Nat} {ok : Nat → Bool} {f : List Nat → State → MailAnswer}
    (h : mailWaits s slot op body = true) (hl : ok body.length = true) :
    serveMail slot op ok f s = setReply slot (f body s).1 (f body s).2.1 (f body s).2.2 := by
  unfold mailWaits at h
  unfold serveMail
  split at h
  · rename_i m hm
    simp only [Bool.and_eq_true, beq_iff_eq] at h
    obtain ⟨⟨⟨⟨⟨h1, h0⟩, h2⟩, h3⟩, h4⟩, h5⟩ := h
    subst h4
    try rw [hm]
    simp [h0, h1, h2, h3, h5, hl]
  · simp at h
/-- The request that waits. -/
theorem mailWaits_mail {s : State} {slot op : Nat} {body : List Nat} (h : mailWaits s slot op body = true) :
    ∃ m, mailOf s slot = some m ∧ m.op = op ∧ m.heard = true ∧ m.reply = none ∧ m.len = body.length ∧ m.body = body ∧ firmwareRuns s = true := by
  unfold mailWaits at h
  split at h
  · rename_i m hm
    simp only [Bool.and_eq_true, beq_iff_eq] at h
    obtain ⟨⟨⟨⟨⟨h1, h0⟩, h2⟩, h3⟩, h4⟩, h5⟩ := h
    exact ⟨m, hm, h1, h0, by simpa using h2, h3, h4, h5⟩
  · simp at h
@[simp] theorem hasSeal_wr (s : State) (f : Fld) (v : Nat) : hasSeal (s.wr f v) = hasSeal s := rfl
@[simp] theorem hasSeal_on (s : State) (f : Fld) : hasSeal (s.on f) = hasSeal s := rfl
/-- An access of a bus to the window of its slot. -/
theorem window_served {s : State} {p slot : Nat} {f : Nat → State → State} (h : windowServed s p slot = true) : window p f s = f slot s := by
  unfold windowServed at h
  simp only [Bool.and_eq_true, beq_iff_eq] at h
  obtain ⟨⟨h1, h2⟩, h3⟩ := h
  simp at h3
  simp [window, served, h1, h2, h3]
/-- A line of a served console. -/
theorem onConsole_served {s : State} {u slot : Nat} {f : Nat → State → State} (h : consoleServed s u slot = true) : onConsole u f s = f slot s := by
  unfold consoleServed at h
  simp only [Bool.and_eq_true, beq_iff_eq] at h
  obtain ⟨⟨⟨h1, h2⟩, h3⟩, h4⟩ := h
  simp [onConsole, h1, h2, h3]
  intro h5; simp [h5] at h4
/-- A request that reaches a hub. -/
theorem hubRequest_served {s : State} {slot : Nat} {f : State → State} (h : hubServed s slot = true) : hubRequest slot f s = f s := by
  unfold hubServed at h
  unfold hubRequest
  by_cases h1 : isTaprootHub s slot
  · simp [h1]
  · simp [h1] at h
    simp [h1, h]
/-- A request that reaches a tile. -/
theorem portRequest_served {s : State} {slot k t : Nat} {d : State → State} {f : Nat → State → State} (h : portServed s slot k t = true) :
    portRequest slot k d f s = f t s := by
  unfold portServed at h
  simp only [Bool.and_eq_true, beq_iff_eq] at h
  obtain ⟨⟨⟨h1, h2⟩, h3⟩, h4⟩ := h
  rw [portRequest, hubRequest_served h1]
  simp at h2
  simp [h2, h3, h4]
/-- A PD message that a tile takes. -/
theorem pdMessage_served {s : State} {t : Nat} {f : State → State} (h : pdTalks s t = true) : pdMessage t f s = f s := by
  unfold pdTalks at h
  simp at h
  simp [pdMessage, h]
/-- A register write that is refused, meets nothing, or meets a block that does not run. -/
theorem guardWrite_otherwise {s : State} {slot a : Nat} {f : State → State} :
    (viewOf s slot a true = .refused → guardWrite slot a f s = (refuse slot (a / 4 * 4) (activity s)).emit (.answer slot 1 0)) ∧
    (viewOf s slot a true = .nothing → guardWrite slot a f s = (activity s).emit (.answer slot (idleStatus s a) 0)) ∧
    (viewOf s slot a true = .served → blockRuns s a = false → guardWrite slot a f s = (activity s).emit (.answer slot 0 0)) := by
  have e : viewOf (activity s) slot a true = viewOf s slot a true := rfl
  have e2 : blockRuns (activity s) a = blockRuns s a := rfl
  have e3 : idleStatus (activity s) a = idleStatus s a := rfl
  unfold guardWrite
  simp only [e, e2, e3]
  refine ⟨fun h => by rw [h], fun h => by rw [h], fun h g => by rw [h, g]; rfl⟩
/-- A register command that is refused, meets nothing, or meets a block that does not run. -/
theorem guardTry_otherwise {s : State} {slot a : Nat} {refused : State → Bool} {f : State → State} :
    (viewOf s slot a true = .refused → guardTry slot a refused f s = (refuse slot (a / 4 * 4) (activity s)).emit (.answer slot 1 0)) ∧
    (viewOf s slot a true = .nothing → guardTry slot a refused f s = (activity s).emit (.answer slot (idleStatus s a) 0)) ∧
    (viewOf s slot a true = .served → blockRuns s a = false → guardTry slot a refused f s = (activity s).emit (.answer slot 0 0)) := by
  have e : viewOf (activity s) slot a true = viewOf s slot a true := rfl
  have e2 : blockRuns (activity s) a = blockRuns s a := rfl
  have e3 : idleStatus (activity s) a = idleStatus s a := rfl
  unfold guardTry
  simp only [e, e2, e3]
  refine ⟨fun h => by rw [h], fun h => by rw [h], fun h g => by rw [h, g]; rfl⟩
/-- A register read that is refused or meets nothing. -/
theorem guardRead_otherwise {s : State} {slot a : Nat} {f : State → State} :
    (viewOf s slot a false = .refused → guardRead slot a f s = (refuse slot (a / 4 * 4) (activity s)).emit (.answer slot 1 0)) ∧
    (viewOf s slot a false = .nothing → guardRead slot a f s = (activity s).emit (.answer slot (idleStatus s a) 0)) := by
  have e : viewOf (activity s) slot a false = viewOf s slot a false := rfl
  have e3 : idleStatus (activity s) a = idleStatus s a := rfl
  unfold guardRead
  simp only [e, e3]
  refine ⟨fun h => by rw [h], fun h => by rw [h]⟩
/-- A mailbox request of another length is answered BAD LENGTH. -/
theorem serveMail_length {s : State} {slot op : Nat} {ok : Nat → Bool} {f : List Nat → State → MailAnswer} {m : Mail}
    (h : mailOf s slot = some m) (ho : m.op = op) (hh : m.heard = true) (hr : m.reply = none) (hf : firmwareRuns s = true) (hl : ok m.len = false) :
    serveMail slot op ok f s = putMail slot (some { m with reply := some (2, []) }) s := by
  unfold serveMail
  rw [h]
  simp [ho, hh, hr, hf, hl, setReply, h]
theorem writeArea_length {s : State} {slot op : Nat} {ok : Nat → Bool} {fits} {f} {m : Mail}
    (h : mailOf s slot = some m) (ho : m.op = op) (hh : m.heard = true) (hr : m.reply = none) (hf : firmwareRuns s = true) (hl : ok m.len = false) :
    writeArea slot op ok fits f s = putMail slot (some { m with reply := some (2, []) }) s := by
  unfold writeArea
  rw [h]
  simp only [hl, Bool.and_false, Bool.false_and, Bool.false_eq_true, if_false]
  exact serveMail_length h ho hh hr hf hl

end Sys2Proof.Machine
end

