-- ==== Sys2Proof/Laws/Bytes.lean ====
section
/-! SUPPORT. Bytes and words: little-endian values, register files written word by word, the hash's length, and halfwords of the
keeping store. -/
namespace Sys2Proof.Machine
set_option linter.unusedSimpArgs false
set_option linter.unusedVariables false

/-- The largest of a counter's first n + 1 cells: the last of them, or the largest of those before it. -/
theorem recCells_max (s : State) (c n : Nat) : ((List.range (n + 1)).map (recCell s c)).foldl max 0 =
    max (((List.range n).map (recCell s c)).foldl max 0) (recCell s c n) := by
  simp [List.range_succ]
theorem memW_putW (t : Tab Nat) (i v j : Nat) : memW (putW t i v) j = if j = i then v % 2 ^ 32 else memW t j := by
  unfold memW putW
  split
  · rename_i h; subst h; exact Tab.look_put_same _ _ _ _
  · rename_i h; exact Tab.look_put_other _ _ _ _ _ h
theorem mendKeep_ecc (s : State) (q : Nat) : (mendKeep q s).keepEcc = Tab.put 0 s.keepEcc q 0 := rfl
/-- A mended word reads as it did, and carries no error. -/
theorem keepW_mend (s : State) (q j : Nat) (h : Tab.look 0 s.keepEcc q ≠ 0) : keepW (mendKeep q s) j = keepW s j := by
  by_cases hj : j / 2 = q
  · subst hj
    have e : Tab.look 0 (mendKeep (j / 2) s).keepEcc (j / 2) = 0 := by rw [mendKeep_ecc]; exact Tab.look_put_same _ _ _ _
    unfold keepW
    rw [if_pos e, if_neg h]
    show memW (putW (putW s.keeping _ _) _ _) j = _
    simp only [memW_putW]
    rcases (by omega : j = 2 * (j / 2) ∨ j = 2 * (j / 2) + 1) with hj | hj
    · rw [if_neg (by omega), if_pos hj, show j % 2 = 0 by omega]; simp
    · rw [if_pos hj, show j % 2 = 1 by omega]
  · have e : Tab.look 0 (mendKeep q s).keepEcc (j / 2) = Tab.look 0 s.keepEcc (j / 2) := by
      rw [mendKeep_ecc]; exact Tab.look_put_other _ _ _ _ _ hj
    have m : ∀ i, i / 2 ≠ q → memW (mendKeep q s).keeping i = memW s.keeping i := fun i hi => by
      show memW (putW (putW s.keeping _ _) _ _) i = _
      simp only [memW_putW]
      rw [if_neg (by omega), if_neg (by omega)]
    unfold keepW keepGives keepRead keepData
    rw [e, m j hj, m (2 * (j / 2)) (by omega), m (2 * (j / 2) + 1) (by omega)]
theorem putKeep_regs (s : State) (i v : Nat) : (putKeep s i v).regs = s.regs := by
  unfold putKeep
  dsimp only
  split <;> rfl
theorem keepW_put (s : State) (i v j : Nat) : keepW (putKeep s i v) j = if j = i then v % 2 ^ 32 else keepW s j := by
  have key : ∀ t : State, Tab.look 0 t.keepEcc (i / 2) = 0 →
      keepW { t with keeping := putW t.keeping i v } j = if j = i then v % 2 ^ 32 else keepW t j := by
    intro t h
    have m : ∀ k, k / 2 ≠ i / 2 → memW (putW t.keeping i v) k = memW t.keeping k := fun k hk => by
      rw [memW_putW, if_neg fun e => hk (by rw [e])]
    unfold keepW keepGives keepRead keepData
    dsimp only
    by_cases hj : j / 2 = i / 2
    · rw [hj, if_pos h, if_pos h, memW_putW]
    · rw [m j hj, m (2 * (j / 2)) (by omega), m (2 * (j / 2) + 1) (by omega), if_neg fun e : j = i => hj (by rw [e])]
  unfold putKeep
  dsimp only
  split
  · exact key s ‹_›
  · rename_i h
    rw [key _ (show Tab.look 0 (mendKeep (i / 2) s).keepEcc (i / 2) = 0 by
      rw [mendKeep_ecc]; exact Tab.look_put_same _ _ _ _), keepW_mend s _ j h]
theorem putKeep_half (s : State) (w q v : Nat) (hq : q < 2) (hv : v < 2 ^ 16) :
    let t := putKeepByte (putKeepByte s (4 * w + 2 * q) (v % 256)) (4 * w + 2 * q + 1) (v / 256)
    (∀ i, i ≠ w → keepW t i = keepW s i) ∧ keepW t w / 2 ^ (16 * q) % 2 ^ 16 = v ∧
    keepW t w / 2 ^ (16 * (1 - q)) % 2 ^ 16 = keepW s w / 2 ^ (16 * (1 - q)) % 2 ^ 16 ∧ t.regs = s.regs := by
  have a1 : (4 * w + 2 * q) / 4 = w := by omega
  have a2 : (4 * w + 2 * q + 1) / 4 = w := by omega
  have b1 : (4 * w + 2 * q) % 4 = 2 * q := by omega
  have b2 : (4 * w + 2 * q + 1) % 4 = 2 * q + 1 := by omega
  dsimp only
  unfold putKeepByte
  dsimp only
  rw [a1, a2, b1, b2]
  simp only [keepW_put]
  refine ⟨fun i hi => by rw [if_neg hi, if_neg hi], ?_, ?_, by rw [putKeep_regs, putKeep_regs]⟩
  · simp only [if_true]
    rcases (by omega : q = 0 ∨ q = 1) with rfl | rfl <;> simp <;> omega
  · simp only [if_true]
    rcases (by omega : q = 0 ∨ q = 1) with rfl | rfl <;> simp <;> omega
theorem recCell_lt (s : State) (c k : Nat) : recCell s c k < 2 ^ 16 := Nat.mod_lt _ (by decide)
theorem leBytes_val (l : List Nat) (h : ∀ b ∈ l, b < 256) : leBytes l.length (leVal l) = l := by
  induction l with
  | nil => rfl
  | cons b r ih =>
    have hb := h b (List.mem_cons_self ..)
    simp only [List.length_cons, leBytes, leVal]
    rw [show (b % 256 + 256 * leVal r) % 256 = b by omega, show (b % 256 + 256 * leVal r) / 256 = leVal r by omega, ih fun c hc => h c (List.mem_cons_of_mem _ hc)]
theorem leVal_lt (l : List Nat) : leVal l < 2 ^ (8 * l.length) := by
  induction l with
  | nil => exact Nat.one_pos
  | cons b r ih =>
    simp only [leVal, List.length_cons]
    rw [show 8 * (r.length + 1) = 8 * r.length + 8 by omega, Nat.pow_add]
    omega
theorem wordsOf_bytes : ∀ (n : Nat) (l : List Nat), l.length = 4 * n → (∀ b ∈ l, b < 256) → (wordsOf n l).flatMap (leBytes 4) = l
  | 0, l, h, _ => by
    have : l = [] := List.eq_nil_of_length_eq_zero (by omega)
    subst this; rfl
  | n + 1, l, h, hb => by
    have h4 : (l.take 4).length = 4 := by simp; omega
    have e := leBytes_val (l.take 4) fun b hm => hb b (List.mem_of_mem_take hm)
    rw [h4] at e
    simp only [wordsOf, List.flatMap_cons]
    rw [e, wordsOf_bytes n (l.drop 4) (by simp; omega) fun b hm => hb b (List.mem_of_mem_drop hm), List.take_append_drop]
theorem wordsOf_length : ∀ (n : Nat) (l : List Nat), (wordsOf n l).length = n
  | 0, _ => rfl
  | n + 1, l => by simp [wordsOf, wordsOf_length n]
theorem wordsOf_lt : ∀ (n : Nat) (l : List Nat), ∀ w ∈ wordsOf n l, w < 2 ^ 32
  | 0, _, w, h => absurd h (List.not_mem_nil)
  | n + 1, l, w, h => by
    rcases List.mem_cons.1 h with h | h
    · subst h
      have := leVal_lt (l.take 4)
      have h4 : 8 * (l.take 4).length ≤ 32 := by simp; omega
      exact Nat.lt_of_lt_of_le this (Nat.pow_le_pow_right (by decide) h4)
    · exact wordsOf_lt n _ w h
theorem leBytes_length : ∀ n v, (leBytes n v).length = n
  | 0, _ => rfl
  | n + 1, v => by simp [leBytes, leBytes_length n]
theorem leBytes_lt : ∀ n v, ∀ b ∈ leBytes n v, b < 256
  | 0, _, b, h => absurd h (List.not_mem_nil)
  | n + 1, v, b, h => by
    rcases List.mem_cons.1 h with h | h
    · subst h; exact Nat.mod_lt _ (by decide)
    · exact leBytes_lt n _ b h
theorem beBytes_length (n v : Nat) : (beBytes n v).length = n := by rw [beBytes, List.length_reverse, leBytes_length]
theorem beBytes_lt (n v : Nat) : ∀ b ∈ beBytes n v, b < 256 := fun b h => leBytes_lt n v b (List.mem_reverse.1 h)
theorem shaRound_length (l : List (Nat × Nat)) : ∀ v : List Nat, v.length = 8 → (l.foldl shaRound v).length = 8 := by
  induction l with
  | nil => exact fun _ h => h
  | cons x r ih => exact fun v _ => ih _ rfl
theorem shaBlocks_length : ∀ n (h bs : List Nat), h.length = 8 → (shaBlocks n h bs).length = 8
  | 0, _, _, e => e
  | n + 1, h, bs, e => shaBlocks_length n _ _ (by
    unfold shaBlock
    dsimp only
    rw [List.length_zipWith, shaRound_length _ _ e, e]; rfl)
theorem flatMap_length_of (f : Nat → List Nat) (k : Nat) (hf : ∀ v, (f v).length = k) (l : List Nat) : (l.flatMap f).length = k * l.length := by
  induction l with
  | nil => rfl
  | cons x r ih => rw [List.flatMap_cons, List.length_append, ih, hf, List.length_cons, Nat.mul_succ, Nat.add_comm]
theorem sha256_length (m : List Nat) : (sha256 m).length = 32 := by
  unfold sha256
  dsimp only
  rw [flatMap_length_of _ 4 (beBytes_length 4), shaBlocks_length _ _ _ rfl]
theorem sha256_lt (m : List Nat) : ∀ b ∈ sha256 m, b < 256 := by
  unfold sha256
  intro b h
  obtain ⟨w, -, h⟩ := List.mem_flatMap.1 h
  exact beBytes_lt 4 w b h
theorem wrList_other (f : Nat → Fld) (g : Fld) : ∀ (vs : List Nat) (i : Nat) (s : State),
    (∀ j, i ≤ j → j < i + vs.length → g.key ≠ (f j).key) → (wrList f i vs s).rd g = s.rd g
  | [], _, _, _ => rfl
  | v :: vs, i, s, h => by
    simp only [List.length_cons] at h
    rw [wrList, wrList_other f g vs (i + 1) _ (fun j h1 h2 => h j (by omega) (by omega)), State.rd_wr_other _ _ _ _ (h i (by omega) (by omega))]
theorem wrList_rd (f : Nat → Fld) (hf : ∀ i j, i ≠ j → (f i).key ≠ (f j).key) (hw : ∀ i, (f i).width = 32) :
    ∀ (vs : List Nat) (i : Nat) (s : State), (∀ v ∈ vs, v < 2 ^ 32) →
    (List.range' i vs.length).map (fun j => (wrList f i vs s).rd (f j)) = vs
  | [], _, _, _ => rfl
  | v :: vs, i, s, h => by
    simp only [List.length_cons, List.range'_succ, List.map_cons]
    rw [wrList, wrList_rd f hf hw vs (i + 1) _ fun v hv => h v (List.mem_cons_of_mem _ hv),
      wrList_other f (f i) vs (i + 1) _ fun j h1 _ => hf i j (by omega), State.rd_wr_same, hw, Nat.mod_eq_of_lt (h v (List.mem_cons_self ..))]
theorem wrList_mem (f : Nat → Fld) : ∀ (vs : List Nat) (i : Nat) (s : State), ∃ r, wrList f i vs s = { s with regs := r }
  | [], _, s => ⟨s.regs, rfl⟩
  | v :: vs, i, s => by
    obtain ⟨r, h⟩ := wrList_mem f vs (i + 1) (s.wr (f i) v)
    exact ⟨r, h⟩

end Sys2Proof.Machine
end

