-- ==== Sys2Proof/Laws/Ciphers.lean ====
section
/-! SUPPORT. AES-256, GHASH and GCM work on blocks of bytes: lengths and ranges, and encryption undone. -/
namespace Sys2Proof.Machine
set_option linter.unusedSimpArgs false
set_option linter.unusedVariables false

/-- A list of `n` bytes. -/
def IsBytes (n : Nat) (l : List Nat) : Prop := l.length = n ∧ ∀ x ∈ l, x < 256

theorem IsBytes.append {n m : Nat} {a b : List Nat} (h : IsBytes n a) (g : IsBytes m b) : IsBytes (n + m) (a ++ b) :=
  ⟨by simp [h.1, g.1], fun x hx => (List.mem_append.1 hx).elim (h.2 x) (g.2 x)⟩
theorem IsBytes.map {n : Nat} {a : List Nat} (h : IsBytes n a) (f : Nat → Nat) (hf : ∀ x, x < 256 → f x < 256) : IsBytes n (a.map f) :=
  ⟨by simp [h.1], fun x hx => by obtain ⟨y, hy, rfl⟩ := List.mem_map.1 hx; exact hf y (h.2 y hy)⟩
theorem IsBytes.xor {n : Nat} {a b : List Nat} (h : IsBytes n a) (g : IsBytes n b) : IsBytes n (xorBytes a b) :=
  ⟨by simp [xorBytes, h.1, g.1], fun x hx => by
    simp only [xorBytes, List.mem_map] at hx
    obtain ⟨⟨y, z⟩, hm, rfl⟩ := hx
    obtain ⟨h1, h2⟩ := List.of_mem_zip hm
    exact Nat.xor_lt_two_pow (n := 8) (h.2 y h1) (g.2 z h2)⟩
theorem IsBytes.part {n m k : Nat} {a : List Nat} (h : IsBytes n a) (hk : k + m ≤ n) : IsBytes m ((a.drop k).take m) :=
  ⟨by simp [h.1]; omega, fun x hx => h.2 x (List.mem_of_mem_drop (List.mem_of_mem_take hx))⟩
theorem IsBytes.drop {n k : Nat} {a : List Nat} (h : IsBytes n a) : IsBytes (n - k) (a.drop k) :=
  ⟨by simp [h.1], fun x hx => h.2 x (List.mem_of_mem_drop hx)⟩
theorem IsBytes.take {n k : Nat} {a : List Nat} (h : IsBytes n a) (hk : k ≤ n) : IsBytes k (a.take k) :=
  ⟨by simp [h.1]; omega, fun x hx => h.2 x (List.mem_of_mem_take hx)⟩
theorem isBytes_flat {n k : Nat} (f : Nat → List Nat) (h : ∀ i, i < k → IsBytes n (f i)) : IsBytes (n * k) ((List.range k).flatMap f) := by
  induction k with
  | zero => exact ⟨rfl, fun x hx => absurd hx (by simp)⟩
  | succ k ih =>
    rw [List.range_succ, List.flatMap_append, Nat.mul_succ]
    refine (ih fun i hi => h i (by omega)).append ?_
    simpa using h k (by omega)
theorem isBytes_be (n v : Nat) : IsBytes n (beBytes n v) := by
  have : ∀ n v, IsBytes n (leBytes n v) := by
    intro n
    induction n with
    | zero => exact fun v => ⟨rfl, fun x hx => absurd hx (by simp [leBytes])⟩
    | succ n ih =>
      intro v
      refine ⟨by simp [leBytes, (ih _).1], fun x hx => ?_⟩
      rcases List.mem_cons.1 hx with h | h
      · subst h; exact Nat.mod_lt _ (by decide)
      · exact (ih _).2 x h
  exact ⟨by simp [beBytes, (this n v).1], fun x hx => (this n v).2 x (List.mem_reverse.1 hx)⟩
theorem sbox_lt : ∀ x, x < 256 → sbox x < 256 := by decide +kernel
theorem xtime_lt : ∀ x, x < 256 → xtime x < 256 := by decide +kernel
theorem getD_byte {l : List Nat} (h : ∀ x ∈ l, x < 256) (i : Nat) : l.getD i 0 < 256 := by
  rw [List.getD_eq_getElem?_getD]
  cases g : l[i]? with
  | none => simp
  | some v => exact h v (List.mem_of_getElem? g)
theorem isBytes_col (c : List Nat) (h : ∀ x ∈ c, x < 256) : IsBytes 4 (mixColumn c) := by
  refine ⟨rfl, fun x hx => ?_⟩
  simp only [mixColumn, List.mem_map] at hx
  obtain ⟨i, -, rfl⟩ := hx
  have g := fun i => getD_byte h (i % 4)
  have t := fun i => xtime_lt _ (g i)
  exact Nat.xor_lt_two_pow (n := 8) (Nat.xor_lt_two_pow (Nat.xor_lt_two_pow (t i) (Nat.xor_lt_two_pow (t _) (g _))) (g _)) (g _)
theorem isBytes_rows (b : List Nat) (h : ∀ x ∈ b, x < 256) : IsBytes 16 (shiftRows b) :=
  ⟨by simp [shiftRows], fun x hx => by
    simp only [shiftRows, List.mem_map] at hx
    obtain ⟨i, -, rfl⟩ := hx
    exact getD_byte h _⟩
theorem isBytes_cols (b : List Nat) (h : ∀ x ∈ b, x < 256) : IsBytes 16 (mixColumns b) :=
  isBytes_flat (n := 4) (k := 4) _ fun i _ => isBytes_col _ fun x hx => h x (List.mem_of_mem_drop (List.mem_of_mem_take hx))
/-- Words of a key schedule: four bytes each. -/
def IsWords (ws : List (List Nat)) : Prop := ∀ w ∈ ws, IsBytes 4 w
theorem isBytes_getD {ws : List (List Nat)} (h : IsWords ws) (i : Nat) (hi : i < ws.length) : IsBytes 4 (ws.getD i []) := by
  rw [List.getD_eq_getElem?_getD, List.getElem?_eq_getElem hi]
  exact h _ (List.getElem_mem hi)
theorem keyWord_bytes (ws : List (List Nat)) (i : Nat) (h : IsWords ws) (hl : 8 ≤ ws.length) (hg : gpow 2 (i / 8 - 1) < 256) :
    IsWords (keyWord ws i) ∧ (keyWord ws i).length = ws.length + 1 := by
  have hp : IsBytes 4 (ws.headD []) := by
    cases ws with
    | nil => simp at hl
    | cons w r => exact h w (List.mem_cons_self ..)
  refine ⟨fun w hw => ?_, rfl⟩
  rcases List.mem_cons.1 hw with hw | hw
  · subst hw
    refine (isBytes_getD h 7 (by omega)).xor ?_
    dsimp only
    split
    · refine IsBytes.xor ?_ ⟨rfl, fun x hx => ?_⟩
      · have := (hp.drop (k := 1)).append (hp.take (k := 1) (by omega))
        exact this.map sbox sbox_lt
      · simp only [List.mem_cons, List.not_mem_nil, or_false] at hx
        rcases hx with h | h | h | h <;> omega
    · split
      · exact hp.map sbox sbox_lt
      · exact hp
  · exact h w hw
theorem keySchedule_bytes (key : List Nat) (hk : IsBytes 32 key) : IsWords (keySchedule key) ∧ (keySchedule key).length = 60 := by
  have fold : ∀ (l : List Nat) (ws : List (List Nat)), (∀ i ∈ l, gpow 2 (i / 8 - 1) < 256) → IsWords ws → 8 ≤ ws.length →
      IsWords (l.foldl keyWord ws) ∧ (l.foldl keyWord ws).length = ws.length + l.length := by
    intro l
    induction l with
    | nil => exact fun ws _ h _ => ⟨h, rfl⟩
    | cons i r ih =>
      intro ws hg h hl
      obtain ⟨a, b⟩ := keyWord_bytes ws i h hl (hg i (List.mem_cons_self ..))
      obtain ⟨c, d⟩ := ih (keyWord ws i) (fun j hj => hg j (List.mem_cons_of_mem _ hj)) a (by omega)
      exact ⟨c, by simp only [List.foldl_cons, List.length_cons]; omega⟩
  have h0 : IsWords ((List.range 8).map (fun i => (key.drop (4 * i)).take 4)).reverse := by
    intro w hw
    obtain ⟨i, hi, rfl⟩ := List.mem_map.1 (List.mem_reverse.1 hw)
    exact hk.part (by have := List.mem_range.1 hi; omega)
  obtain ⟨a, b⟩ := fold (List.range' 8 52) _ (by decide +kernel) h0 (by simp)
  refine ⟨fun w hw => a w (List.mem_reverse.1 hw), ?_⟩
  unfold keySchedule
  dsimp only
  rw [List.length_reverse, b]
  simp
theorem flatten_words_bytes : ∀ ws : List (List Nat), IsWords ws → IsBytes (4 * ws.length) ws.flatten
  | [], _ => ⟨rfl, fun x hx => absurd hx (by simp)⟩
  | w :: r, h => by
    have := (h w (List.mem_cons_self ..)).append (flatten_words_bytes r fun x hx => h x (List.mem_cons_of_mem _ hx))
    rw [List.flatten_cons, List.length_cons, show 4 * (r.length + 1) = 4 + 4 * r.length by omega]
    exact this
theorem roundKey_bytes {ws : List (List Nat)} (h : IsWords ws) (hl : ws.length = 60) (r : Nat) (hr : r < 15) : IsBytes 16 (roundKey ws r) := by
  have := flatten_words_bytes ((ws.drop (4 * r)).take 4) fun w hw => h w (List.mem_of_mem_drop (List.mem_of_mem_take hw))
  rwa [show ((ws.drop (4 * r)).take 4).length = 4 by simp [hl]; omega] at this
theorem aesBlock_bytes {ws : List (List Nat)} (h : IsWords ws) (hl : ws.length = 60) (b : List Nat) (hb : IsBytes 16 b) : IsBytes 16 (aesBlock ws b) := by
  have fold : ∀ (l : List Nat), (∀ r ∈ l, r < 15) → ∀ b, IsBytes 16 b → IsBytes 16 (l.foldl (aesRound ws) b) := by
    intro l
    induction l with
    | nil => exact fun _ b h => h
    | cons r t ih =>
      intro hr b hb
      refine ih (fun j hj => hr j (List.mem_cons_of_mem _ hj)) _ ?_
      have h1 := hb.map sbox sbox_lt
      have h2 := isBytes_rows _ h1.2
      refine IsBytes.xor ?_ (roundKey_bytes h hl r (hr r (List.mem_cons_self ..)))
      split
      · exact h2
      · exact isBytes_cols _ h2.2
  exact fold _ (by decide) _ (hb.xor (roundKey_bytes h hl 0 (by omega)))
theorem aes256_bytes (key b : List Nat) (hk : IsBytes 32 key) (hb : IsBytes 16 b) : IsBytes 16 (aes256 key b) :=
  aesBlock_bytes (keySchedule_bytes key hk).1 (keySchedule_bytes key hk).2 b hb
theorem lineStream_bytes (key major minor r a : Nat) : IsBytes 64 (lineStream key major minor r a) := by
  have k := keySchedule_bytes _ (isBytes_be 32 key)
  exact isBytes_flat (n := 16) (k := 4) _ fun i _ => aesBlock_bytes k.1 k.2 _ (isBytes_be 16 _)
theorem xorBytes_back : ∀ a k : List Nat, a.length ≤ k.length → xorBytes (xorBytes a k) k = a
  | [], _, _ => by simp [xorBytes]
  | x :: a, [], h => by simp at h
  | x :: a, y :: k, h => by
    have := xorBytes_back a k (by simpa using h)
    simp only [xorBytes] at this ⊢
    simp [Nat.xor_assoc, this]
theorem beVal_lt (l : List Nat) : beVal l < 2 ^ (8 * l.length) := by
  have : ∀ (l : List Nat) (a n : Nat), a < 2 ^ (8 * n) → l.foldl (fun a b => a * 256 + b % 256) a < 2 ^ (8 * (n + l.length)) := by
    intro l
    induction l with
    | nil => exact fun a n h => h
    | cons b r ih =>
      intro a n h
      simp only [List.foldl_cons, List.length_cons]
      rw [show n + (r.length + 1) = (n + 1) + r.length by omega]
      refine ih _ _ ?_
      rw [show 8 * (n + 1) = 8 * n + 8 by omega, Nat.pow_add]
      omega
  have := this l 0 0 (by decide)
  rwa [Nat.zero_add] at this
theorem ghash_lt (h : Nat) (l : List Nat) (hl : ∀ x ∈ l, x < 2 ^ 128) : ghash h l < 2 ^ 128 := by
  have go : ∀ n y v z, v < 2 ^ 128 → z < 2 ^ 128 → ghashMulGo y n v z < 2 ^ 128 := by
    intro n y
    induction n with
    | zero => exact fun v z _ h => h
    | succ n ih =>
      intro v z hv hz
      rw [ghashMulGo]
      apply ih
      · have h2 : v / 2 < 2 ^ 128 := by omega
        split
        · exact Nat.xor_lt_two_pow h2 (by decide)
        · exact h2
      · split
        · exact Nat.xor_lt_two_pow hz hv
        · exact hz
  have : ∀ (l : List Nat), (∀ x ∈ l, x < 2 ^ 128) → ∀ a, a < 2 ^ 128 → l.foldl (fun a x => ghashMul (a ^^^ x) h) a < 2 ^ 128 := by
    intro l
    induction l with
    | nil => exact fun _ a h => h
    | cons x r ih =>
      intro hx a ha
      exact ih (fun y hy => hx y (List.mem_cons_of_mem _ hy)) _ (go _ _ _ _ (Nat.xor_lt_two_pow ha (hx x (List.mem_cons_self ..))) (by decide))
  exact this l hl 0 (by decide)
theorem counterBlock_lt (major minor r a : Nat) : counterBlock major minor r a 0 0 < 2 ^ 128 := by
  unfold counterBlock
  omega
theorem xorBytes_length_of {n : Nat} {a b : List Nat} (h : a.length = n) (g : b.length = n) : (xorBytes a b).length = n := by simp [xorBytes, h, g]
theorem flatMap_range_length {n k : Nat} (f : Nat → List Nat) (h : ∀ i, i < k → (f i).length = n) : ((List.range k).flatMap f).length = n * k := by
  induction k with
  | zero => rfl
  | succ k ih =>
    rw [List.range_succ, List.flatMap_append, Nat.mul_succ, List.length_append, ih fun i hi => h i (by omega)]
    simpa using h k (by omega)
/-- Words of four bytes, by length alone. -/
def WordsLen (ws : List (List Nat)) : Prop := ∀ w ∈ ws, w.length = 4
theorem keyWord_length (ws : List (List Nat)) (i : Nat) (h : WordsLen ws) (hl : 8 ≤ ws.length) : WordsLen (keyWord ws i) ∧ (keyWord ws i).length = ws.length + 1 := by
  have hp : (ws.headD []).length = 4 := by
    cases ws with
    | nil => simp at hl
    | cons w r => exact h w (List.mem_cons_self ..)
  refine ⟨fun w hw => ?_, rfl⟩
  rcases List.mem_cons.1 hw with hw | hw
  · subst hw
    refine xorBytes_length_of ?_ ?_
    · rw [List.getD_eq_getElem?_getD, List.getElem?_eq_getElem (by omega)]
      exact h _ (List.getElem_mem _)
    · dsimp only
      split
      · generalize ws.headD [] = w at hp
        exact xorBytes_length_of (by simp [hp]) rfl
      · split
        · simpa using hp
        · exact hp
  · exact h w hw
theorem keySchedule_length (key : List Nat) (hk : key.length = 32) : WordsLen (keySchedule key) ∧ (keySchedule key).length = 60 := by
  have fold : ∀ (l : List Nat) (ws : List (List Nat)), WordsLen ws → 8 ≤ ws.length →
      WordsLen (l.foldl keyWord ws) ∧ (l.foldl keyWord ws).length = ws.length + l.length := by
    intro l
    induction l with
    | nil => exact fun ws h _ => ⟨h, rfl⟩
    | cons i r ih =>
      intro ws h hl
      obtain ⟨a, b⟩ := keyWord_length ws i h hl
      obtain ⟨c, d⟩ := ih (keyWord ws i) a (by omega)
      exact ⟨c, by simp only [List.foldl_cons, List.length_cons]; omega⟩
  have h0 : WordsLen ((List.range 8).map (fun i => (key.drop (4 * i)).take 4)).reverse := by
    intro w hw
    obtain ⟨i, hi, rfl⟩ := List.mem_map.1 (List.mem_reverse.1 hw)
    have := List.mem_range.1 hi
    simp [hk]; omega
  obtain ⟨a, b⟩ := fold (List.range' 8 52) _ h0 (by simp)
  refine ⟨fun w hw => a w (List.mem_reverse.1 hw), ?_⟩
  unfold keySchedule
  dsimp only
  rw [List.length_reverse, b]
  simp
theorem flatten_words_length : ∀ ws : List (List Nat), WordsLen ws → ws.flatten.length = 4 * ws.length
  | [], _ => rfl
  | w :: r, h => by
    rw [List.flatten_cons, List.length_append, h w (List.mem_cons_self ..), flatten_words_length r fun x hx => h x (List.mem_cons_of_mem _ hx), List.length_cons]
    omega
theorem roundKey_length {ws : List (List Nat)} (h : WordsLen ws) (hl : ws.length = 60) (r : Nat) (hr : r < 15) : (roundKey ws r).length = 16 := by
  have := flatten_words_length ((ws.drop (4 * r)).take 4) fun w hw => h w (List.mem_of_mem_drop (List.mem_of_mem_take hw))
  rwa [show ((ws.drop (4 * r)).take 4).length = 4 by simp [hl]; omega] at this
theorem aesBlock_length {ws : List (List Nat)} (h : WordsLen ws) (hl : ws.length = 60) (b : List Nat) (hb : b.length = 16) : (aesBlock ws b).length = 16 := by
  have fold : ∀ (l : List Nat), (∀ r ∈ l, r < 15) → ∀ b, b.length = 16 → (l.foldl (aesRound ws) b).length = 16 := by
    intro l
    induction l with
    | nil => exact fun _ b h => h
    | cons r t ih =>
      intro hr b hb
      refine ih (fun j hj => hr j (List.mem_cons_of_mem _ hj)) _ ?_
      refine xorBytes_length_of ?_ (roundKey_length h hl r (hr r (List.mem_cons_self ..)))
      split
      · simp [shiftRows]
      · exact flatMap_range_length (n := 4) (k := 4) _ fun i _ => rfl
  exact fold _ (by decide) _ (xorBytes_length_of hb (roundKey_length h hl 0 (by omega)))
/-- The key stream of a 256-byte frame body. -/
def gcmStream (k nonce : List Nat) : List Nat := (List.range 16).flatMap (fun i => aesBlock (keySchedule k) (nonce ++ beBytes 4 (i + 2)))
theorem gcmStream_len (k nonce : List Nat) (hk : k.length = 32) (hn : nonce.length = 12) : (gcmStream k nonce).length = 256 := by
  obtain ⟨a, b⟩ := keySchedule_length k hk
  exact flatMap_range_length (n := 16) (k := 16) _ fun i _ => aesBlock_length a b _ (by simp [hn, beBytes_length])
theorem gcmCrypt_eq (k nonce d : List Nat) (h : d.length = 256) : gcmCrypt k nonce d = xorBytes d (gcmStream k nonce) := by
  simp [gcmCrypt, gcmStream, h]
theorem gcmTag_len (k nonce h c : List Nat) (hk : k.length = 32) (hn : nonce.length = 12) : (gcmTag k nonce h c).length = 16 := by
  obtain ⟨a, b⟩ := keySchedule_length k hk
  exact xorBytes_length_of (beBytes_length 16 _) (aesBlock_length a b _ (by simp [hn]))
theorem leVal_leBytes : ∀ n v, v < 2 ^ (8 * n) → leVal (leBytes n v) = v
  | 0, v, h => by simp at h; simp [leBytes, leVal, h]
  | n + 1, v, h => by
    rw [show 8 * (n + 1) = 8 * n + 8 by omega, Nat.pow_add] at h
    simp only [leBytes, leVal]
    rw [leVal_leBytes n _ (by omega)]
    omega

end Sys2Proof.Machine
end

