-- ==== Sys2Proof/Laws/Codes.lean ====
section
/-! SUPPORT. The SECDED codes of R76 and R87: syndromes and parities of an exclusive or. -/
namespace Sys2Proof.Machine
set_option linter.unusedSimpArgs false
set_option linter.unusedVariables false

theorem bit_eq (x k : Nat) : bit x k = x.testBit k := by
  simp [bit, Nat.testBit_eq_decide_div_mod_eq]
theorem syndrome_fold (l : List (Nat × Nat)) (x y : Nat) : ∀ a b : Nat,
    l.foldl (fun a e => if bit (x ^^^ y) e.2 then a ^^^ e.1 else a) (a ^^^ b) =
    l.foldl (fun a e => if bit x e.2 then a ^^^ e.1 else a) a ^^^ l.foldl (fun a e => if bit y e.2 then a ^^^ e.1 else a) b := by
  induction l with
  | nil => intros; rfl
  | cons e r ih =>
    intro a b
    simp only [List.foldl_cons]
    rw [bit_eq, bit_eq, bit_eq, Nat.testBit_xor]
    cases x.testBit e.2 <;> cases y.testBit e.2 <;> simp only [Bool.xor_false, Bool.xor_true, Bool.not_false, Bool.not_true, Bool.false_eq_true, if_false, if_true]
    · exact ih a b
    · rw [Nat.xor_assoc]; exact ih a _
    · rw [show a ^^^ b ^^^ e.1 = (a ^^^ e.1) ^^^ b by rw [Nat.xor_assoc, Nat.xor_comm b, ← Nat.xor_assoc]]; exact ih _ b
    · rw [← ih]; congr 1
      rw [Nat.xor_assoc a, Nat.xor_comm e.1, Nat.xor_assoc b, Nat.xor_self, Nat.xor_zero]
theorem syndromeOf_xor (n x y : Nat) : syndromeOf n (x ^^^ y) = syndromeOf n x ^^^ syndromeOf n y := by
  have := syndrome_fold (dataPositions n).zipIdx x y 0 0
  simpa [syndromeOf] using this
theorem parity_xor : ∀ n x y, parity n (x ^^^ y) = (parity n x + parity n y) % 2
  | 0, _, _ => rfl
  | n + 1, x, y => by
    simp only [parity]
    have h1 : (x ^^^ y) / 2 = x / 2 ^^^ y / 2 := Nat.xor_div_two
    have h2 : (x ^^^ y) % 2 = (x + y) % 2 := by
      have := @Nat.xor_mod_two_pow x y 1
      rw [Nat.pow_one] at this
      rcases Nat.mod_two_eq_zero_or_one x with hx | hx <;> rcases Nat.mod_two_eq_zero_or_one y with hy | hy <;> (rw [this, hx, hy]; first | (rw [show (0 ^^^ 0 : Nat) = 0 from rfl]; omega) | (rw [show (1 ^^^ 1 : Nat) = 0 from rfl]; omega) | (rw [show (0 ^^^ 1 : Nat) = 1 from rfl]; omega) | (rw [show (1 ^^^ 0 : Nat) = 1 from rfl]; omega))
    rw [h1, h2, parity_xor n]
    omega
theorem parity_lt : ∀ n x, parity n x < 2
  | 0, _ => by simp [parity]
  | n + 1, x => by simp only [parity]; omega
/-- The whole decoder as a function of syndrome and parity. -/
theorem beatDecode_eq (x : Nat) : beatDecode x = secdedDecode 71 64 7 (x % 2 ^ 64) (x / 2 ^ 64 % 256) := rfl
def synOf (b : Nat) : Nat := syndromeOf 71 (b % 2 ^ 64) ^^^ b / 2 ^ 64 % 256 % 2 ^ 7
def oddOf (b : Nat) : Nat := (parity 64 (b % 2 ^ 64) + parity 8 (b / 2 ^ 64 % 256)) % 2
theorem xor_mod (n x y : Nat) : (x ^^^ y) % 2 ^ n = x % 2 ^ n ^^^ y % 2 ^ n := Nat.xor_mod_two_pow
theorem xor_div (n x y : Nat) : (x ^^^ y) / 2 ^ n = x / 2 ^ n ^^^ y / 2 ^ n := by
  simp only [← Nat.shiftRight_eq_div_pow, Nat.shiftRight_xor_distrib]
theorem xor4 (a b c d : Nat) : (a ^^^ b) ^^^ (c ^^^ d) = (a ^^^ c) ^^^ (b ^^^ d) := by
  rw [Nat.xor_assoc, Nat.xor_assoc]; congr 1
  rw [← Nat.xor_assoc, ← Nat.xor_assoc, Nat.xor_comm b c]
theorem synOf_xor (x y : Nat) : synOf (x ^^^ y) = synOf x ^^^ synOf y := by
  simp only [synOf]
  rw [xor_mod, syndromeOf_xor, xor_div, show 256 = 2 ^ 8 from rfl, xor_mod 8, xor_mod 7, xor4]
theorem oddOf_xor (x y : Nat) : oddOf (x ^^^ y) = (oddOf x + oddOf y) % 2 := by
  simp only [oddOf]
  rw [xor_mod, parity_xor, xor_div, show 256 = 2 ^ 8 from rfl, xor_mod 8, parity_xor]
  omega
theorem beatDecode_cases (b : Nat) : beatDecode b =
    (if synOf b = 0 ∧ oddOf b = 0 then .clean (b % 2 ^ 64)
     else if oddOf b = 0 then .uncorrectable
     else if synOf b &&& (synOf b - 1) = 0 then .corrected (b % 2 ^ 64)
     else match (dataPositions 71).findIdx? (· == synOf b) with
      | some d => .corrected (b % 2 ^ 64 ^^^ 2 ^ d)
      | none => .uncorrectable) := rfl
theorem syndromeOf_lt (x : Nat) : syndromeOf 71 x < 2 ^ 7 := by
  have : ∀ (l : List (Nat × Nat)), (∀ e ∈ l, e.1 < 2 ^ 7) → ∀ a, a < 2 ^ 7 →
      l.foldl (fun a e => if bit x e.2 then a ^^^ e.1 else a) a < 2 ^ 7 := by
    intro l
    induction l with
    | nil => exact fun _ a h => h
    | cons e r ih =>
      intro h a ha
      simp only [List.foldl_cons]
      apply ih (fun e he => h e (List.mem_cons_of_mem _ he))
      split
      · exact Nat.xor_lt_two_pow ha (h e (List.mem_cons_self ..))
      · exact ha
  exact this _ (by decide) 0 (by decide)
theorem beatOf_parts (d : Nat) (h : d < 2 ^ 64) : beatOf d % 2 ^ 64 = d ∧
    beatOf d / 2 ^ 64 % 256 = syndromeOf 71 d + 2 ^ 7 * ((parity 64 d + parity 7 (syndromeOf 71 d)) % 2) := by
  have hs := syndromeOf_lt d
  have e : d % 2 ^ 64 = d := Nat.mod_eq_of_lt h
  unfold beatOf
  rw [e]
  unfold secdedCheck
  dsimp only
  constructor <;> omega
theorem parity_split : ∀ (n a b : Nat), a < 2 ^ n → parity (n + 1) (a + 2 ^ n * b) = (parity n a + b) % 2
  | 0, a, b, h => by
    have : a = 0 := by omega
    subst this
    simp [parity]
  | n + 1, a, b, h => by
    have e : 2 ^ (n + 1) * b = 2 * (2 ^ n * b) := by rw [Nat.pow_succ, Nat.mul_comm (2 ^ n) 2, Nat.mul_assoc]
    have h1 : (a + 2 ^ (n + 1) * b) / 2 = a / 2 + 2 ^ n * b := by omega
    have h2 : (a + 2 ^ (n + 1) * b) % 2 = a % 2 := by omega
    show ((a + 2 ^ (n + 1) * b) % 2 + parity (n + 1) ((a + 2 ^ (n + 1) * b) / 2)) % 2 = _
    rw [h1, h2, parity_split n (a / 2) b (by rw [Nat.pow_succ] at h; omega)]
    simp only [parity]
    omega
theorem beatOf_syndrome (d : Nat) (h : d < 2 ^ 64) : synOf (beatOf d) = 0 ∧ oddOf (beatOf d) = 0 := by
  obtain ⟨h1, h2⟩ := beatOf_parts d h
  have hs := syndromeOf_lt d
  unfold synOf oddOf
  rw [h1, h2]
  constructor
  · rw [show (syndromeOf 71 d + 2 ^ 7 * ((parity 64 d + parity 7 (syndromeOf 71 d)) % 2)) % 2 ^ 7 = syndromeOf 71 d by omega, Nat.xor_self]
  · rw [parity_split 7 _ _ hs]; omega
theorem flip_one : ∀ k, k < 72 → oddOf (2 ^ k) = 1 ∧
    (if synOf (2 ^ k) &&& (synOf (2 ^ k) - 1) = 0 then 2 ^ k % 2 ^ 64 = 0 else (dataPositions 71).findIdx? (· == synOf (2 ^ k)) = some k ∧ k < 64) := by decide +kernel
theorem flip_two : ∀ k, k < 72 → ∀ j, j < k → synOf (2 ^ j) ^^^ synOf (2 ^ k) ≠ 0 := by decide +kernel
theorem syndromeOf_lt_of (n r : Nat) (hn : ∀ e ∈ (dataPositions n).zipIdx, e.1 < 2 ^ r) (x : Nat) : syndromeOf n x < 2 ^ r := by
  have : ∀ (l : List (Nat × Nat)), (∀ e ∈ l, e.1 < 2 ^ r) → ∀ a, a < 2 ^ r →
      l.foldl (fun a e => if bit x e.2 then a ^^^ e.1 else a) a < 2 ^ r := by
    intro l
    induction l with
    | nil => exact fun _ a h => h
    | cons e t ih =>
      intro h a ha
      simp only [List.foldl_cons]
      apply ih (fun e he => h e (List.mem_cons_of_mem _ he))
      split
      · exact Nat.xor_lt_two_pow ha (h e (List.mem_cons_self ..))
      · exact ha
  exact this _ hn 0 (Nat.two_pow_pos r)
/-- A word with its own check bits decodes clean, for either code. -/
theorem secdedDecode_clean (n k r x : Nat) (hs : syndromeOf n x < 2 ^ r) : secdedDecode n k r x (secdedCheck n k r x) = .clean x := by
  unfold secdedDecode secdedCheck
  dsimp only
  have e1 : (syndromeOf n x + 2 ^ r * ((parity k x + parity r (syndromeOf n x)) % 2)) % 2 ^ r = syndromeOf n x := by
    rw [Nat.add_mul_mod_self_left, Nat.mod_eq_of_lt hs]
  rw [e1, parity_split r _ _ hs, Nat.xor_self, if_pos ⟨rfl, by omega⟩]

end Sys2Proof.Machine
end

