-- ==== Sys2Proof/Laws/Interrupts.lean ====
section
/-! SUPPORT. What an interrupt bit changes, and what it leaves. -/
namespace Sys2Proof.Machine
set_option linter.unusedSimpArgs false
set_option linter.unusedVariables false

theorem rd_irq_of {s : State} {f : Fld} {slot k : Nat} (h : f.key ≠ (irqBit slot k).key) : (s.on (irqBit slot k)).rd f = s.rd f := by
  rw [State.on_eq]; exact State.rd_wr_other _ _ _ _ h
theorem setWins_rd (slot k : Nat) (s : State) (f : Fld) : (setWins slot k s).rd f = s.rd f := by
  unfold setWins putRbp
  split
  · dsimp only
    split <;> rfl
  · rfl
theorem deliver_rd (o n : State) (slot : Nat) (b : Bool) (f : Fld) : (deliverIrq o n slot b).rd f = n.rd f := by
  unfold deliverIrq
  dsimp only
  repeat' split
  all_goals rfl
theorem setIrq_rd {s : State} {slot k : Nat} {f : Fld} (hr : s.isSet (R.GROVE_SELF.REMOTE slot) = false) :
    (setIrq slot k s).rd f = (s.on (irqBit slot k)).rd f := by
  unfold setIrq
  dsimp only
  rw [deliver_rd, hr]
  simp only [Bool.false_eq_true, if_false]
  exact setWins_rd _ _ _ _
/-- What an interrupt leaves of the rest of a state. -/
def SameMem (s t : State) : Prop :=
  t.sdram = s.sdram ∧ t.flash = s.flash ∧ t.keeping = s.keeping ∧ t.stage = s.stage ∧ t.porch = s.porch ∧ t.causes = s.causes ∧ t.evLog = s.evLog
theorem SameMem.trans {a b c : State} (h : SameMem a b) (g : SameMem b c) : SameMem a c := by
  unfold SameMem at *
  simp_all
theorem setWins_mem (slot k : Nat) (s : State) : SameMem s (setWins slot k s) := by
  unfold setWins
  split
  · unfold putRbp
    dsimp only
    split <;> exact ⟨rfl, rfl, rfl, rfl, rfl, rfl, rfl⟩
  · exact ⟨rfl, rfl, rfl, rfl, rfl, rfl, rfl⟩
theorem deliver_mem (o n : State) (slot : Nat) (b : Bool) : SameMem n (deliverIrq o n slot b) := by
  unfold deliverIrq
  dsimp only
  repeat' split
  all_goals exact ⟨rfl, rfl, rfl, rfl, rfl, rfl, rfl⟩
theorem setIrq_mem {s : State} {slot k : Nat} (hr : s.isSet (R.GROVE_SELF.REMOTE slot) = false) : SameMem s (setIrq slot k s) := by
  unfold setIrq
  dsimp only
  rw [hr]
  simp only [Bool.false_eq_true, if_false]
  exact (show SameMem s (s.on (irqBit slot k)) from ⟨rfl, rfl, rfl, rfl, rfl, rfl, rfl⟩).trans ((setWins_mem _ _ _).trans (deliver_mem _ _ _ _))
theorem isSet_eq (s : State) (f : Fld) : s.isSet f = (s.rd f != 0) := rfl
theorem rd_on_same (s : State) (f : Fld) (h : f.width = 1) : (s.on f).rd f = 1 := by
  rw [State.on_eq, State.rd_wr_same, h] <;> rfl
/-- No slot is held by a grove of another member. -/
def NoRemote (s : State) : Prop := ∀ k : Nat, s.isSet (R.GROVE_SELF.REMOTE k) = false
theorem remote_key (k slot j : Nat) (hj : j < 32) : (R.GROVE_SELF.REMOTE k).key ≠ (irqBit slot j).key := by
  simp only [Fld.key, R.GROVE_SELF.REMOTE, irqBit]; omega
theorem setIrqAll_ok (j : Nat) (hj : j < 32) (slots : List Nat) : ∀ s : State, NoRemote s →
    NoRemote (setIrqAll j slots s) ∧ SameMem s (setIrqAll j slots s) ∧
    ∀ f : Fld, (∀ slot k : Nat, k < 32 → f.key ≠ (irqBit slot k).key) → (setIrqAll j slots s).rd f = s.rd f := by
  induction slots with
  | nil => exact fun s h => ⟨h, ⟨rfl, rfl, rfl, rfl, rfl, rfl, rfl⟩, fun _ _ => rfl⟩
  | cons x r ih =>
    intro s h
    have h1 : NoRemote (setIrq x j s) := fun k => by
      have := h k
      rw [isSet_eq] at this ⊢
      rw [setIrq_rd (h x), rd_irq_of (remote_key k x j hj)]; exact this
    obtain ⟨a, b, c⟩ := ih _ h1
    refine ⟨a, (setIrq_mem (h x)).trans b, fun f hf => ?_⟩
    show (setIrqAll j r (setIrq x j s)).rd f = _
    rw [c f hf, setIrq_rd (h x), rd_irq_of (hf x j hj)]

end Sys2Proof.Machine
end

