-- ==== Sys2Proof/Laws/Lines.lean ====
section
/-! SUPPORT. SDRAM lines, plain and sealed: the beats a store leaves, and what a read makes of them. -/
namespace Sys2Proof.Machine
set_option linter.unusedSimpArgs false
set_option linter.unusedVariables false

theorem beatAt_put (s : State) (a k v b i : Nat) (hk : k < 8) (hi : i < 8) :
    beatAt (putBeat s a k v) b i = if b / 64 = a / 64 ∧ i = k then v % 2 ^ 72 else beatAt s b i := by
  unfold beatAt putBeat
  split
  · rename_i h; rw [h.1, h.2]; exact Tab.look_put_same _ _ _ _
  · exact Tab.look_put_other _ _ _ _ _ (by omega)
/-- A fold that stores beats of one line leaves each as its last store says. -/
theorem beatAt_fold (a : Nat) (f : Nat → Nat) (n : Nat) (hn : n ≤ 8) (s : State) (b i : Nat) (hi : i < 8) :
    beatAt ((List.range n).foldl (fun t k => putBeat t a k (f k)) s) b i = if b / 64 = a / 64 ∧ i < n then f i % 2 ^ 72 else beatAt s b i := by
  induction n with
  | zero => simp
  | succ n ih =>
    rw [List.range_succ, List.foldl_append]
    simp only [List.foldl_cons, List.foldl_nil]
    rw [beatAt_put _ _ _ _ _ _ (by omega) hi, ih (by omega)]
    by_cases h1 : b / 64 = a / 64 <;> by_cases h2 : i = n <;> by_cases h3 : i < n <;> simp [h1, h2, h3] <;> omega
theorem beatOf_lt (d : Nat) : beatOf d < 2 ^ 72 := by
  have h1 : d % 2 ^ 64 < 2 ^ 64 := Nat.mod_lt _ (by decide)
  have hs := syndromeOf_lt (d % 2 ^ 64)
  unfold beatOf secdedCheck
  dsimp only
  omega
theorem beatAt_store (s : State) (a b i : Nat) (bs : List Nat) (hi : i < 8) :
    beatAt (storeLine a bs s) b i = if b / 64 = a / 64 then beatOf (leVal ((bs.drop (8 * i)).take 8)) else beatAt s b i := by
  unfold storeLine
  rw [beatAt_fold a _ 8 (Nat.le_refl 8) s b i hi]
  simp only [hi, and_true]
  rw [Nat.mod_eq_of_lt (beatOf_lt _)]
theorem lineWord_lt (bs : List Nat) (i : Nat) : leVal ((bs.drop (8 * i)).take 8) < 2 ^ 64 :=
  Nat.lt_of_lt_of_le (leVal_lt _) (Nat.pow_le_pow_right (by decide) (by simp; omega))
theorem lineWord_bytes (bs : List Nat) (hl : bs.length = 64) (hb : ∀ b ∈ bs, b < 256) (i : Nat) (hi : i < 8) :
    leBytes 8 (leVal ((bs.drop (8 * i)).take 8)) = (bs.drop (8 * i)).take 8 := by
  have := leBytes_val ((bs.drop (8 * i)).take 8) fun b h => hb b (List.mem_of_mem_drop (List.mem_of_mem_take h))
  rwa [show ((bs.drop (8 * i)).take 8).length = 8 by simp; omega] at this
/-- A line whose beats all hold readable words reads as those words. -/
theorem plainBytes_of (s : State) (a : Nat) (bs : List Nat) (hl : bs.length = 64) (hb : ∀ b ∈ bs, b < 256)
    (h : ∀ i, i < 8 → beatDecode (beatAt s a i) = .clean (leVal ((bs.drop (8 * i)).take 8)) ∨ beatDecode (beatAt s a i) = .corrected (leVal ((bs.drop (8 * i)).take 8))) :
    plainBytes s a = some bs := by
  have key : ∀ n, n ≤ 8 → ∀ acc : List Nat, (List.range n).foldr (fun k acc =>
    match beatDecode (beatAt s a k), acc with
    | .clean d, some r => some (leBytes 8 d ++ r)
    | .corrected d, some r => some (leBytes 8 d ++ r)
    | _, _ => none) (some acc) = some (bs.take (8 * n) ++ acc) := by
    intro n
    induction n with
    | zero => intros; simp
    | succ n ih =>
      intro hn acc
      rw [List.range_succ, List.foldr_append]
      simp only [List.foldr_cons, List.foldr_nil]
      have e : bs.take (8 * (n + 1)) = bs.take (8 * n) ++ (bs.drop (8 * n)).take 8 := by
        rw [show 8 * (n + 1) = 8 * n + 8 by omega, List.take_add]
      have w := lineWord_bytes bs hl hb n (by omega)
      rcases h n (by omega) with g | g <;> (rw [g]; dsimp only; rw [w, ih (by omega), e, List.append_assoc])
  have := key 8 (Nat.le_refl 8) []
  rw [List.append_nil, List.take_of_length_le (by omega)] at this
  exact this
theorem repairPlain_clean (a : Nat) (s : State) (h : ∀ i, i < 8 → ∃ d, beatDecode (beatAt s a i) = .clean d) : repairPlain a s = s := by
  have key : ∀ n, n ≤ 8 → (List.range n).foldl (fun t k =>
    match beatDecode (beatAt t a k) with
    | .corrected d => reportCe a (putBeat t a k (beatOf d))
    | _ => t) s = s := by
    intro n
    induction n with
    | zero => intro; rfl
    | succ n ih =>
      intro hn
      rw [List.range_succ, List.foldl_append, ih (by omega)]
      obtain ⟨d, g⟩ := h n (by omega)
      simp only [List.foldl_cons, List.foldl_nil, g]
  exact key 8 (Nat.le_refl 8)
theorem lineVector_store (s : State) (a v : Nat) (hv : v < 2 ^ 576) : lineVector (storeVector a v s) a = v := by
  have st : ∀ k, k < 8 → beatAt (storeVector a v s) a k = v / 2 ^ (72 * k) % 2 ^ 72 := fun k hk => by
    unfold storeVector
    rw [beatAt_fold a _ 8 (Nat.le_refl 8) s a k hk, if_pos ⟨rfl, hk⟩]
    unfold bits
    exact Nat.mod_mod _ _
  have key : ∀ n, n ≤ 8 → (List.range n).foldl (fun w k => w + 2 ^ (72 * k) * beatAt (storeVector a v s) a k) 0 = v % 2 ^ (72 * n) := by
    intro n
    induction n with
    | zero => intro; simp; omega
    | succ n ih =>
      intro hn
      rw [List.range_succ, List.foldl_append, ih (by omega)]
      simp only [List.foldl_cons, List.foldl_nil]
      rw [st n (by omega), show 72 * (n + 1) = 72 * n + 72 by omega, Nat.pow_add, Nat.mod_mul]
  have := key 8 (Nat.le_refl 8)
  rw [Nat.mod_eq_of_lt hv] at this
  exact this
theorem lineTag_lt (key hash major minor r a : Nat) (c : List Nat) (hc : c.length = 64) : lineTag key hash major minor r a c < 2 ^ 44 := by
  unfold lineTag
  dsimp only
  have h1 : ghash hash ((blocksOf c).map beVal ++ [counterBlock major minor r a 0 0]) < 2 ^ 128 := by
    apply ghash_lt
    intro x hx
    rcases List.mem_append.1 hx with h | h
    · obtain ⟨b, hb, rfl⟩ := List.mem_map.1 h
      simp only [blocksOf, List.mem_map] at hb
      obtain ⟨i, hi, rfl⟩ := hb
      have e : ((c.drop (16 * i)).take 16 ++ List.replicate (16 - ((c.drop (16 * i)).take 16).length) 0).length = 16 := by
        simp <;> omega
      have := beVal_lt ((c.drop (16 * i)).take 16 ++ List.replicate (16 - ((c.drop (16 * i)).take 16).length) 0)
      rwa [e] at this
    · simp only [List.mem_cons, List.not_mem_nil, or_false] at h
      subst h; exact counterBlock_lt ..
  have h2 : beVal (aes256 (beBytes 32 key) (beBytes 16 (counterBlock major minor r a 1 0))) < 2 ^ 128 := by
    have := beVal_lt (aes256 (beBytes 32 key) (beBytes 16 (counterBlock major minor r a 1 0)))
    rwa [(aes256_bytes _ _ (isBytes_be 32 key) (isBytes_be 16 _)).1] at this
  have := Nat.xor_lt_two_pow h1 h2
  omega
theorem positions_575 : ∀ e ∈ (dataPositions 575).zipIdx, e.1 < 2 ^ 10 := by decide +kernel
/-- The parts of a sealed vector. -/
theorem sealedVector_parts (c : List Nat) (hc : c.length = 64) (tag minor : Nat) (hm : minor < 512) (ht : tag < 2 ^ 44) :
    let v := sealedVector c tag minor
    v < 2 ^ 576 ∧ secdedDecode 575 565 10 (v % 2 ^ 565) (v / 2 ^ 565) = .clean (v % 2 ^ 565) ∧
    v % 2 ^ 565 % 2 ^ 512 = leVal c ∧ bits (v % 2 ^ 565) 512 44 = tag ∧ bits (v % 2 ^ 565) 556 9 = minor := by
  have h1 := leVal_lt c
  rw [hc] at h1
  dsimp only
  unfold sealedVector
  dsimp only
  generalize hu : leVal c + 2 ^ 512 * (tag % 2 ^ 44) + 2 ^ 556 * (minor % 2 ^ 9) = u
  have hul : u < 2 ^ 565 := by omega
  have hs := syndromeOf_lt_of 575 10 positions_575 u
  have hch : secdedCheck 575 565 10 u < 2 ^ 11 := by
    unfold secdedCheck
    dsimp only
    omega
  have e1 : (u + 2 ^ 565 * secdedCheck 575 565 10 u) % 2 ^ 565 = u := by omega
  have e2 : (u + 2 ^ 565 * secdedCheck 575 565 10 u) / 2 ^ 565 = secdedCheck 575 565 10 u := by omega
  rw [e1, e2]
  refine ⟨by omega, secdedDecode_clean _ _ _ _ hs, by omega, ?_, ?_⟩ <;> (unfold bits; omega)

end Sys2Proof.Machine
end

