-- ==== Sys2Proof/Laws/Memory.lean ====
section
/-! SUPPORT. Every operation on a memory keeps its canonical form: the SDRAM's beats, the keeping store with its pruned list
and recovery counters, the porches and the flash. -/
namespace Sys2Proof.Machine

theorem wf_def {s : State} : Memory.wf s = true ↔
    (Tab.wf 0 s.flash = true ∧ Tab.wf 0 s.keeping = true ∧ Tab.wf 0 s.sdram = true ∧ Tab.wf 0 s.stage = true ∧ Tab.wf 0 s.porch = true ∧
      Tab.wf 0 s.hwRam = true ∧ Tab.wf 0 s.bufEcc = true ∧ Tab.wf 0 s.keepEcc = true ∧ Tab.wf 0 s.hwEcc = true) := by
  simp [Memory.wf, and_assoc]
theorem wf_putBeat {s : State} (h : Memory.wf s = true) (a k v : Nat) : Memory.wf (putBeat s a k v) = true := by
  rw [wf_def] at h ⊢
  exact ⟨h.1, h.2.1, Tab.wf_put _ _ _ _ h.2.2.1, h.2.2.2⟩
theorem wf_putW {t : Tab Nat} (k v : Nat) (h : Tab.wf 0 t = true) : Tab.wf 0 (putW t k v) = true := Tab.wf_put 0 t k _ h
theorem wf_mendKeep {s : State} (h : Memory.wf s = true) (q : Nat) : Memory.wf (mendKeep q s) = true := by
  rw [wf_def] at h ⊢
  obtain ⟨h1, h2, h3, h4, h5, h6, h7, h8, h9⟩ := h
  exact ⟨h1, wf_putW _ _ (wf_putW _ _ h2), h3, h4, h5, h6, h7, Tab.wf_put 0 s.keepEcc q 0 h8, h9⟩
theorem wf_storeKeep {s : State} (h : Memory.wf s = true) (i v : Nat) : Memory.wf { s with keeping := putW s.keeping i v } = true := by
  rw [wf_def] at h ⊢
  exact ⟨h.1, wf_putW _ _ h.2.1, h.2.2⟩
theorem wf_putKeep {s : State} (h : Memory.wf s = true) (i v : Nat) : Memory.wf (putKeep s i v) = true := by
  unfold putKeep
  dsimp only
  split
  · exact wf_storeKeep h i v
  · exact wf_storeKeep (wf_mendKeep h _) i v
theorem wf_setBufEcc {s : State} (h : Memory.wf s = true) (w e : Nat) : Memory.wf (setBufEcc w e s) = true := by
  rw [wf_def] at h ⊢
  obtain ⟨h1, h2, h3, h4, h5, h6, h7, h8, h9⟩ := h
  exact ⟨h1, h2, h3, h4, h5, h6, Tab.wf_put _ _ _ _ h7, h8, h9⟩
theorem wf_bankOff {s : State} (h : Memory.wf s = true) (d : Nat) : Memory.wf (bankOff d s) = true := by
  unfold bankOff
  split
  · rw [wf_def] at h ⊢
    obtain ⟨h1, h2, h3, h4, h5, h6, h7, h8, h9⟩ := h
    exact ⟨h1, h2, h3, h4, h5, h6, Tab.wf_filter _ _ _ h7, h8, h9⟩
  · exact h
theorem wf_mendHw {s : State} (h : Memory.wf s = true) : Memory.wf (mendHw s) = true := by
  unfold mendHw
  split
  · rename_i e _
    rw [wf_def] at h ⊢
    obtain ⟨h1, h2, h3, h4, h5, h6, h7, h8, h9⟩ := h
    exact ⟨h1, h2, h3, h4, h5, h6, h7, h8, Tab.wf_put 0 s.hwEcc e.1 0 h9⟩
  · exact h
theorem wf_putStageData {s : State} (h : Memory.wf s = true) (i d : Nat) : Memory.wf (putStageData i d s) = true := by
  rw [wf_def] at h ⊢
  obtain ⟨h1, h2, h3, h4, h5⟩ := h
  exact ⟨h1, h2, h3, wf_putW _ _ (wf_putW _ _ h4), h5⟩
theorem wf_clearTable {s : State} (h : Memory.wf s = true) : Memory.wf (clearTable s) = true := by
  rw [wf_def] at h ⊢
  exact ⟨h.1, h.2.1, Tab.wf_filter _ _ _ h.2.2.1, h.2.2.2⟩
/-- A table below a bound, followed by one from the bound on, is a table again. -/
theorem wf_append (n : Nat) (b : Tab Nat) (hb : Tab.wf 0 b = true) (hn : ∀ e ∈ b, n ≤ e.1) : ∀ a : Tab Nat, Tab.wf 0 a = true → (∀ e ∈ a, e.1 < n) → Tab.wf 0 (a ++ b) = true := by
  have up : ∀ (b : Tab Nat) (lo : Nat), Tab.rising b = true → (∀ e ∈ b, lo < e.1) → Tab.above lo b = true := by
    intro b lo h hl
    cases b with
    | nil => rfl
    | cons e r =>
      simp only [Tab.above, Bool.and_eq_true, decide_eq_true_eq]
      exact ⟨hl e (List.mem_cons_self ..), h⟩
  simp only [Tab.wf, Bool.and_eq_true] at hb ⊢
  have low : ∀ (a : Tab Nat) (lo : Nat), Tab.above lo a = true → (∀ e ∈ a, e.1 < n) → lo < n → Tab.above lo (a ++ b) = true := by
    intro a
    induction a with
    | nil => exact fun lo _ _ hl => up b lo hb.1 fun e he => Nat.lt_of_lt_of_le hl (hn e he)
    | cons e r ih =>
      intro lo h ha hl
      simp only [List.cons_append, Tab.above, Bool.and_eq_true, decide_eq_true_eq] at h ⊢
      exact ⟨h.1, ih e.1 h.2 (fun x hx => ha x (List.mem_cons_of_mem _ hx)) (ha e (List.mem_cons_self ..))⟩
  intro a ha hl
  refine ⟨?_, by rw [List.all_append, ha.2, hb.2]; rfl⟩
  cases a with
  | nil => exact hb.1
  | cons e r => exact low r e.1 ha.1 (fun x hx => hl x (List.mem_cons_of_mem _ hx)) (hl e (List.mem_cons_self ..))
/-- Keys moved down by a common offset. -/
theorem wf_shift (n : Nat) (a : Tab Nat) (h : Tab.wf 0 a = true) (hl : ∀ e ∈ a, n ≤ e.1) : Tab.wf 0 (a.map fun e => (e.1 - n, e.2)) = true := by
  simp only [Tab.wf, Bool.and_eq_true] at h ⊢
  have low : ∀ (a : Tab Nat) (lo : Nat), Tab.above lo a = true → (∀ e ∈ a, n ≤ e.1) → n ≤ lo → Tab.above (lo - n) (a.map fun e => (e.1 - n, e.2)) = true := by
    intro a
    induction a with
    | nil => exact fun _ _ _ _ => rfl
    | cons e r ih =>
      intro lo h ha hl
      simp only [List.map_cons, Tab.above, Bool.and_eq_true, decide_eq_true_eq] at h ⊢
      exact ⟨by omega, ih e.1 h.2 (fun x hx => ha x (List.mem_cons_of_mem _ hx)) (ha e (List.mem_cons_self ..))⟩
  refine ⟨?_, by rw [List.all_map]; exact h.2⟩
  cases a with
  | nil => rfl
  | cons e r => exact low r e.1 h.1 (fun x hx => hl x (List.mem_cons_of_mem _ hx)) (hl e (List.mem_cons_self ..))
theorem wf_copyImage {s : State} (h : Memory.wf s = true) (b r e : Nat) : Memory.wf (copyImage b r e s) = true := by
  rw [wf_def] at h ⊢
  obtain ⟨h1, h2, h3, h4, h5, h6, h7, h8, h9⟩ := h
  refine ⟨h1, h2, h3, h4, h5, ?_, h7, h8, Tab.wf_filter _ _ _ h9⟩
  refine wf_append r _ (Tab.wf_filter _ _ _ h6) (fun x hx => ?_) _ (wf_shift b _ (Tab.wf_filter _ _ _ h1) fun x hx => ?_) fun x hx => ?_
  · simpa using (List.mem_filter.1 hx).2
  · have := (List.mem_filter.1 hx).2
    simp at this
    exact this.1
  · obtain ⟨y, hy, rfl⟩ := List.mem_map.1 hx
    have := (List.mem_filter.1 hy).2
    simp at this
    dsimp only
    omega
theorem wf_foldl {α : Type} (f : State → α → State) (hf : ∀ s a, Memory.wf s = true → Memory.wf (f s a) = true) (l : List α) :
    ∀ s, Memory.wf s = true → Memory.wf (l.foldl f s) = true := by
  induction l with
  | nil => exact fun _ h => h
  | cons x r ih => exact fun s h => ih _ (hf s x h)
theorem wf_putKeepByte {s : State} (h : Memory.wf s = true) (a v : Nat) : Memory.wf (putKeepByte s a v) = true := wf_putKeep h _ _
theorem wf_putKeepList : ∀ (bs : List Nat) (s : State) (a : Nat), Memory.wf s = true → Memory.wf (putKeepList s a bs) = true
  | [], _, _, h => h
  | b :: bs, s, a, h => wf_putKeepList bs _ _ (wf_putKeepByte h a b)
theorem wf_storePorch {s : State} (h : Memory.wf s = true) (p off v : Nat) : Memory.wf (storePorch p off v s) = true := by
  rw [wf_def] at h ⊢
  obtain ⟨flash, keeping, sdram, stage, porch, rest⟩ := h
  exact ⟨flash, keeping, sdram, stage, Tab.wf_put _ _ _ _ porch, rest⟩
theorem wf_mendPorch {s : State} (h : Memory.wf s = true) (p off : Nat) : Memory.wf (mendPorch p off s) = true :=
  wf_setBufEcc (wf_foldl _ (fun _ _ g => wf_storePorch g _ _ _) _ _ h) _ _
theorem wf_putPorch {s : State} (h : Memory.wf s = true) (p off v : Nat) : Memory.wf (putPorch p off v s) = true := by
  unfold putPorch
  split
  · exact wf_storePorch h _ _ _
  · exact wf_storePorch (wf_mendPorch h p off) _ _ _
theorem wf_putPorchList (p : Nat) : ∀ (bs : List Nat) (off : Nat) (s : State), Memory.wf s = true → Memory.wf (putPorchList p off bs s) = true
  | [], _, _, h => h
  | b :: bs, off, s, h => wf_putPorchList p bs _ _ (wf_putPorch h p off b)
theorem wf_putFlash {t : Tab Nat} (a v : Nat) (h : Tab.wf 0 t = true) : Tab.wf 0 (putFlash t a v) = true := Tab.wf_put 0 t a _ h
theorem tab_putFlashList : ∀ (bs : List Nat) (t : Tab Nat) (a : Nat), Tab.wf 0 t = true → Tab.wf 0 (putFlashList t a bs) = true
  | [], _, _, h => h
  | b :: bs, t, a, h => tab_putFlashList bs _ _ (Tab.wf_put 0 t a _ h)
theorem tab_foldl {α : Type} (f : Tab Nat → α → Tab Nat) (hf : ∀ t a, Tab.wf 0 t = true → Tab.wf 0 (f t a) = true) (l : List α) :
    ∀ t, Tab.wf 0 t = true → Tab.wf 0 (l.foldl f t) = true := by
  induction l with
  | nil => exact fun _ h => h
  | cons x r ih => exact fun s h => ih _ (hf s x h)
theorem wf_compactPruned {s : State} (h : Memory.wf s = true) : Memory.wf (compactPruned s) = true := by
  rw [wf_def] at h ⊢
  obtain ⟨h1, h2, h3, h4, h5, h6, h7, h8, h9⟩ := h
  exact ⟨h1, tab_foldl _ (fun t e ht => Tab.wf_put 0 t _ _ ht) _ _ (Tab.wf_filter 0 _ _ h2), h3, h4, h5, h6, h7, Tab.wf_filter _ _ _ h8, h9⟩
theorem wf_appendPruned {s : State} (h : Memory.wf s = true) (src code : Nat) : Memory.wf (appendPruned s src code) = true := by
  unfold appendPruned
  dsimp only
  split
  · exact wf_putKeep h _ _
  · split
    · exact wf_putKeep (wf_compactPruned h) _ _
    · exact wf_compactPruned h
theorem above_map (f : Nat × Nat → Nat × Nat) (hf : ∀ e, (f e).1 = e.1) : ∀ (t : Tab Nat) (lo : Nat), Tab.above lo t = true → Tab.above lo (t.map f) = true
  | [], _, _ => rfl
  | (j, v) :: r, lo, h => by
    simp only [Tab.above, Bool.and_eq_true, decide_eq_true_eq] at h
    rw [List.map_cons, show f (j, v) = (j, (f (j, v)).2) from Prod.ext (hf (j, v)) rfl]
    simp only [Tab.above, Bool.and_eq_true, decide_eq_true_eq]
    exact ⟨h.1, above_map f hf r j h.2⟩
theorem rising_map (f : Nat × Nat → Nat × Nat) (hf : ∀ e, (f e).1 = e.1) : ∀ (t : Tab Nat), Tab.rising t = true → Tab.rising (t.map f) = true
  | [], _ => rfl
  | (j, v) :: r, h => by
    rw [List.map_cons, show f (j, v) = (j, (f (j, v)).2) from Prod.ext (hf (j, v)) rfl]
    exact above_map f hf r j h
theorem filterMap_eq (t : Tab Nat) : t.filterMap (fun e => if e.2 = 0 then none else some e) = t.filter (fun e => decide (e.2 ≠ 0)) := by
  induction t with
  | nil => rfl
  | cons e r ih =>
    by_cases h : e.2 = 0 <;> simp [h, ih]
theorem wf_clearPruned {s : State} (h : Memory.wf s = true) (code : Nat) : Memory.wf (clearPruned s code) = true := by
  rw [wf_def] at h ⊢
  refine ⟨h.1, ?_, h.2.2⟩
  have h2 : Tab.rising s.keeping = true := by
    have := h.2.1; simp only [Tab.wf, Bool.and_eq_true] at this; exact this.1
  show Tab.wf 0 ((s.keeping.map _).filterMap _) = true
  rw [filterMap_eq, Tab.wf, Bool.and_eq_true]
  refine ⟨Tab.rising_filter _ _ (rising_map _ (fun e => ?_) _ h2), ?_⟩
  · split <;> rfl
  · simp [List.all_eq_true]
theorem wf_recIncrement {s : State} (h : Memory.wf s = true) (c : Nat) : Memory.wf (recIncrement s c) = true := by
  unfold recIncrement
  dsimp only
  split
  · exact h
  · exact wf_putKeepByte (wf_putKeepByte h _ _) _ _

end Sys2Proof.Machine
end

