-- ==== Sys2Proof/Laws/Restart.lean ====
section
/-! SUPPORT. What a restart keeps of the register store and of the state. -/
namespace Sys2Proof.Machine
set_option linter.unusedSimpArgs false
set_option linter.unusedVariables false

theorem look_filter {α : Type} (d : α) (p : Nat × α → Bool) (k : Nat) (hp : ∀ v, p (k, v) = true) : ∀ t : Tab α, Tab.look d (t.filter p) k = Tab.look d t k
  | [] => rfl
  | (j, v) :: r => by
    by_cases h : k = j
    · subst h
      rw [List.filter_cons_of_pos (hp v)]
      simp [Tab.look]
    · by_cases g : p (j, v)
      · rw [List.filter_cons_of_pos g]
        simp only [Tab.look, h, if_false]
        exact look_filter d p k hp r
      · rw [List.filter_cons_of_neg g]
        simp only [Tab.look, h, if_false]
        exact look_filter d p k hp r
theorem look_filter_out {α : Type} (d : α) (p : Nat × α → Bool) (k : Nat) (hp : ∀ v, p (k, v) = false) : ∀ t : Tab α, Tab.look d (t.filter p) k = d
  | [] => rfl
  | (j, v) :: r => by
    by_cases g : p (j, v)
    · have h : k ≠ j := fun h => by subst h; rw [hp v] at g; exact absurd g (by simp)
      rw [List.filter_cons_of_pos g]
      simp only [Tab.look, h, if_false]
      exact look_filter_out d p k hp r
    · rw [List.filter_cons_of_neg g]
      exact look_filter_out d p k hp r
theorem showBoot_rd (s : State) (f : Fld) (h1 : f.key ≠ R.CANOPY_NEXT.AREA.key) (h2 : f.key ≠ R.HW_STATUS.CAUSE.key)
    (h3 : f.key ≠ R.HW_STATUS.TRIAL_STATE.key) (h4 : f.key ≠ R.HW_STATUS.TRIAL_SLOT.key) : (showBoot s).rd f = s.rd f := by
  unfold showBoot
  split
  · rfl
  · rw [State.rd_wr_other _ _ _ _ h4, State.rd_wr_other _ _ _ _ h3, State.rd_wr_other _ _ _ _ h2, State.rd_wr_other _ _ _ _ h1]
theorem restartState_rd (s : State) (f : Fld) (h1 : f.key ≠ R.CANOPY_NEXT.AREA.key) (h2 : f.key ≠ R.HW_STATUS.CAUSE.key)
    (h3 : f.key ≠ R.HW_STATUS.TRIAL_STATE.key) (h4 : f.key ≠ R.HW_STATUS.TRIAL_SLOT.key) :
    (keptKey f.key = true → (restartState s).rd f = s.rd f) ∧ (keptKey f.key = false → (restartState s).rd f = f.reset) := by
  unfold restartState
  rw [showBoot_rd _ f h1 h2 h3 h4]
  exact ⟨fun h => look_filter _ _ _ (fun _ => h) _, fun h => look_filter_out _ _ _ (fun _ => h) _⟩
theorem restartState_rest (s : State) : ∃ r, restartState s = { State.reset with
    variant := s.variant
    pending := s.pending
    outs := s.outs
    freeCtr := s.freeCtr + 1
    keeping := s.keeping
    keepEcc := s.keepEcc
    flash := s.flash
    metro := s.metro
    xtalRun := s.xtalRun
    muffle := s.muffle
    regs := r
    causes := s.causes.filter (fun e => keptCause e.1)
    pwrgd := s.pwrgd
    resetN := s.resetN
    testEn := s.testEn
    dbgTrstN := s.dbgTrstN
    refLost := s.refLost
    refGood := s.refGood && !s.refLost
    strapRbp := s.strapRbp
    strapStack := s.strapStack
    stack := { Stack.reset with startId := s.freeVal 0 % 2 ^ 32 } } := by
  unfold restartState showBoot
  split
  · exact ⟨_, rfl⟩
  · exact ⟨_, rfl⟩
theorem ring_not_kept : ∀ k, k < 8 → ∀ i, i < 8 → keptKey (R.RING.BYTES k i).key = false ∧ (R.RING.BYTES k i).key ≠ R.CANOPY_NEXT.AREA.key ∧
    (R.RING.BYTES k i).key ≠ R.HW_STATUS.CAUSE.key ∧ (R.RING.BYTES k i).key ≠ R.HW_STATUS.TRIAL_STATE.key ∧ (R.RING.BYTES k i).key ≠ R.HW_STATUS.TRIAL_SLOT.key := by
  decide +kernel
theorem sticky_kept : ∀ c, c < 512 → keptKey (R.FAULT_STICKY.BIT c).key = true ∧ (R.FAULT_STICKY.BIT c).key ≠ R.CANOPY_NEXT.AREA.key ∧
    (R.FAULT_STICKY.BIT c).key ≠ R.HW_STATUS.CAUSE.key ∧ (R.FAULT_STICKY.BIT c).key ≠ R.HW_STATUS.TRIAL_STATE.key ∧ (R.FAULT_STICKY.BIT c).key ≠ R.HW_STATUS.TRIAL_SLOT.key := by
  decide +kernel

end Sys2Proof.Machine
end

