-- ==== Sys2Proof/Laws/Sound.lean ====
section
/-! SUPPORT. The rules by which one sees that a step keeps a state sound: the memories and the register store keep their
canonical form through every operation, case split, fold and pair. -/
namespace Sys2Proof.Machine

/-- The memories that list their cells. -/
def State.memories (s : State) : List (Tab Nat) :=
  [s.flash, s.keeping, s.sdram, s.stage, s.porch, s.hwRam, s.bufEcc, s.keepEcc, s.hwEcc]
theorem Sound.memory {s : State} (h : Sound s) {t : Tab Nat} (ht : t ∈ s.memories) : Tab.wf 0 t = true := by
  have g := wf_def.1 h.1
  revert t
  simpa [State.memories] using g
theorem Sound.regs {s : State} (h : Sound s) : Tab.rising s.regs = true := h.2
theorem Sound.flash {s : State} (h : Sound s) : Tab.wf 0 s.flash = true := h.memory (by simp [State.memories])
theorem Sound.keeping {s : State} (h : Sound s) : Tab.wf 0 s.keeping = true := h.memory (by simp [State.memories])
theorem Sound.sdram {s : State} (h : Sound s) : Tab.wf 0 s.sdram = true := h.memory (by simp [State.memories])
theorem Sound.stage {s : State} (h : Sound s) : Tab.wf 0 s.stage = true := h.memory (by simp [State.memories])
theorem Sound.porch {s : State} (h : Sound s) : Tab.wf 0 s.porch = true := h.memory (by simp [State.memories])
theorem Sound.hwRam {s : State} (h : Sound s) : Tab.wf 0 s.hwRam = true := h.memory (by simp [State.memories])
theorem Sound.bufEcc {s : State} (h : Sound s) : Tab.wf 0 s.bufEcc = true := h.memory (by simp [State.memories])
theorem Sound.keepEcc {s : State} (h : Sound s) : Tab.wf 0 s.keepEcc = true := h.memory (by simp [State.memories])
theorem Sound.hwEcc {s : State} (h : Sound s) : Tab.wf 0 s.hwEcc = true := h.memory (by simp [State.memories])
/-- A state is sound by its memories and its registers; nothing else matters. -/
theorem Sound.lit_iff {x0 x1 x2 x3 x4 x5 x6 x7 x8 x9 x10 x11 x12 x13 x14 x15 x16 x17 x18 x19 x20 x21 x22 x23 x24 x25 x26 x27 x28 x29 x30 x31 x32 x33 x34 x35 x36 x37 x38 x39 x40 x41 x42 x43 x44 x45 x46 x47 x48 x49 x50 x51 x52 x53 x54 x55 x56 x57 x58 x59 x60 x61 x62 x63 x64 x65 x66 x67 x68 x69 x70 x71 x72 x73 x74 x75 x76 x77 x78 x79 x80 x81 x82 x83 x84 x85 x86 x87 x88} :
    Sound ⟨x0, x1, x2, x3, x4, x5, x6, x7, x8, x9, x10, x11, x12, x13, x14, x15, x16, x17, x18, x19, x20, x21, x22, x23, x24, x25, x26, x27, x28, x29, x30, x31, x32, x33, x34, x35, x36, x37, x38, x39, x40, x41, x42, x43, x44, x45, x46, x47, x48, x49, x50, x51, x52, x53, x54, x55, x56, x57, x58, x59, x60, x61, x62, x63, x64, x65, x66, x67, x68, x69, x70, x71, x72, x73, x74, x75, x76, x77, x78, x79, x80, x81, x82, x83, x84, x85, x86, x87, x88⟩ ↔ Tab.wf 0 x5 = true ∧ Tab.wf 0 x6 = true ∧ Tab.wf 0 x7 = true ∧ Tab.wf 0 x8 = true ∧ Tab.wf 0 x67 = true ∧ Tab.wf 0 x11 = true ∧ Tab.wf 0 x9 = true ∧ Tab.wf 0 x10 = true ∧ Tab.wf 0 x12 = true ∧ Tab.rising x1 = true := ⟨fun h => ⟨h.stage, h.flash, h.keeping, h.sdram, h.porch, h.hwRam, h.bufEcc, h.keepEcc, h.hwEcc, h.regs⟩,
  fun ⟨stage, flash, keeping, sdram, porch, hwRam, bufEcc, keepEcc, hwEcc, regs⟩ =>
    ⟨wf_def.2 ⟨flash, keeping, sdram, stage, porch, hwRam, bufEcc, keepEcc, hwEcc⟩, regs⟩⟩
theorem Sound.ite {c : Prop} [Decidable c] {a b : State} (h : Sound a) (g : Sound b) : Sound (if c then a else b) := by
  split
  · exact h
  · exact g
theorem Sound.foldl {α : Type} {f : State → α → State} {l : List α} : ∀ {s : State}, (∀ t a, Sound t → Sound (f t a)) → Sound s → Sound (l.foldl f s) := by
  induction l with
  | nil => exact fun _ h => h
  | cons x r ih => exact fun hf h => ih hf (hf _ x h)

theorem Sound.foldr {α : Type} {f : α → State → State} {l : List α} {s : State} (hf : ∀ a t, Sound t → Sound (f a t)) (h : Sound s) : Sound (l.foldr f s) := by
  induction l with
  | nil => exact h
  | cons x r ih => exact hf _ _ ih

/-- The state that comes second, third, fourth, or first in a tuple is sound. -/
def Snd {α : Type} (p : α × State) : Prop := Sound p.2
def Thd {α β : Type} (p : α × β × State) : Prop := Sound p.2.2
def Fth {α β γ : Type} (p : α × β × γ × State) : Prop := Sound p.2.2.2
def Fst {α : Type} (p : State × α) : Prop := Sound p.1
theorem Snd.out {α : Type} {p : α × State} (h : Snd p) : Sound p.2 := h
theorem Thd.out {α β : Type} {p : α × β × State} (h : Thd p) : Sound p.2.2 := h
theorem Fth.out {α β γ : Type} {p : α × β × γ × State} (h : Fth p) : Sound p.2.2.2 := h
theorem Fst.out {α : Type} {p : State × α} (h : Fst p) : Sound p.1 := h
theorem Snd.lit {α : Type} {a : α} {s : State} : Snd (a, s) ↔ Sound s := Iff.rfl
theorem Thd.lit {α β : Type} {a : α} {b : β} {s : State} : Thd (a, b, s) ↔ Sound s := Iff.rfl
theorem Fth.lit {α β γ : Type} {a : α} {b : β} {c : γ} {s : State} : Fth (a, b, c, s) ↔ Sound s := Iff.rfl
theorem Thd.pair {α β : Type} {a : α} {p : β × State} (h : Snd p) : Thd (a, p) := h
theorem Thd.rest {α β : Type} {p : α × β × State} (h : Thd p) : Snd p.2 := h
theorem Fst.lit {α : Type} {a : α} {s : State} : Fst (s, a) ↔ Sound s := Iff.rfl
theorem Snd.of {α : Type} {p : α × State} {a : α} {s : State} (e : p = (a, s)) (h : Snd p) : Sound s := by subst e; exact h
theorem Thd.of {α β : Type} {p : α × β × State} {a : α} {b : β} {s : State} (e : p = (a, b, s)) (h : Thd p) : Sound s := by subst e; exact h
theorem Fth.of {α β γ : Type} {p : α × β × γ × State} {a : α} {b : β} {c : γ} {s : State} (e : p = (a, b, c, s)) (h : Fth p) : Sound s := by subst e; exact h
theorem Fst.of {α : Type} {p : State × α} {a : α} {s : State} (e : p = (s, a)) (h : Fst p) : Sound s := by subst e; exact h
theorem Snd.ite {α : Type} {c : Prop} [Decidable c] {a b : α × State} (h : Snd a) (g : Snd b) : Snd (if c then a else b) := by
  split
  · exact h
  · exact g
theorem Thd.ite {α β : Type} {c : Prop} [Decidable c] {a b : α × β × State} (h : Thd a) (g : Thd b) : Thd (if c then a else b) := by
  split
  · exact h
  · exact g
theorem Fth.ite {α β γ : Type} {c : Prop} [Decidable c] {a b : α × β × γ × State} (h : Fth a) (g : Fth b) : Fth (if c then a else b) := by
  split
  · exact h
  · exact g
theorem Snd.foldl {α β : Type} {f : β × State → α → β × State} {l : List α} : ∀ {p : β × State}, (∀ t a, Snd t → Snd (f t a)) → Snd p → Snd (l.foldl f p) := by
  induction l with
  | nil => exact fun _ h => h
  | cons x r ih => exact fun hf h => ih hf (hf _ x h)
theorem Thd.foldl {α β γ : Type} {f : β × γ × State → α → β × γ × State} {l : List α} : ∀ {p : β × γ × State}, (∀ t a, Thd t → Thd (f t a)) → Thd p → Thd (l.foldl f p) := by
  induction l with
  | nil => exact fun _ h => h
  | cons x r ih => exact fun hf h => ih hf (hf _ x h)
/-- Whatever state an outcome has is sound. -/
structure SoundRes (r : Res) : Prop where
  out : ∀ t, r = .next t → Sound t
structure SoundOpt (o : Option Res) : Prop where
  out : ∀ r, o = some r → SoundRes r
theorem SoundRes.ret {s : State} (h : Sound s) : SoundRes (.next s) := ⟨fun _ e => by injection e with e; exact e ▸ h⟩
theorem SoundRes.ite {c : Prop} [Decidable c] {a b : Res} (h : SoundRes a) (g : SoundRes b) : SoundRes (if c then a else b) := by
  split
  · exact h
  · exact g
theorem SoundOpt.ret {r : Res} (h : SoundRes r) : SoundOpt (some r) := ⟨fun _ e => by injection e with e; exact e ▸ h⟩
theorem SoundOpt.none : SoundOpt none := ⟨fun _ e => by injection e⟩
theorem SoundOpt.of {o : Option Res} {r : Res} (e : o = some r) (h : SoundOpt o) : SoundRes r := h.out r e
theorem SoundOpt.ite {c : Prop} [Decidable c] {a b : Option Res} (h : SoundOpt a) (g : SoundOpt b) : SoundOpt (if c then a else b) := by
  split
  · exact h
  · exact g
theorem sound_always {s t : State} (h : Sound t) : SoundRes (always s t) := SoundRes.ret ⟨h.1, h.2⟩
theorem sound_senses {s u t : State} (g : Sound u) (h : Sound t) : SoundRes (senses s u t) := by
  unfold senses
  split
  · exact SoundRes.ret ⟨g.1, g.2⟩
  · exact SoundRes.ret ⟨h.1, h.2⟩
theorem sound_completes {s t : State} (g : Sound s) (h : Sound t) : SoundRes (completes s t) := by
  unfold completes ran
  split
  · exact SoundRes.ret ⟨g.1, g.2⟩
  · exact SoundRes.ret ⟨h.1, h.2⟩
theorem sound_after {s : State} {r : Res} (h : Sound s) (g : SoundRes r) : Sound (after s r) := by
  unfold after
  split
  · exact g.out _ rfl
  · exact h

inductive SoundWrite : LineWrite → Prop where
  | done {e : Nat} {s : State} (h : Sound s) : SoundWrite (.done e s)
  | job {f : Bool} {s : State} (h : Sound s) : SoundWrite (.job f s)
theorem SoundWrite.of1 {w : LineWrite} {e : Nat} {s : State} (g : w = .done e s) (h : SoundWrite w) : Sound s := by subst g; cases h; assumption
theorem SoundWrite.of2 {w : LineWrite} {f : Bool} {s : State} (g : w = .job f s) (h : SoundWrite w) : Sound s := by subst g; cases h; assumption
theorem SoundWrite.ite {c : Prop} [Decidable c] {a b : LineWrite} (h : SoundWrite a) (g : SoundWrite b) : SoundWrite (if c then a else b) := by
  split
  · exact h
  · exact g
inductive SoundOpened : Opened → Prop where
  | drop {s : State} (h : Sound s) : SoundOpened (.drop s)
  | good {f : List Nat} {s : State} (h : Sound s) : SoundOpened (.good f s)
theorem SoundOpened.of1 {w : Opened} {s : State} (g : w = .drop s) (h : SoundOpened w) : Sound s := by subst g; cases h; assumption
theorem SoundOpened.of2 {w : Opened} {f : List Nat} {s : State} (g : w = .good f s) (h : SoundOpened w) : Sound s := by subst g; cases h; assumption
theorem SoundOpened.ite {c : Prop} [Decidable c] {a b : Opened} (h : SoundOpened a) (g : SoundOpened b) : SoundOpened (if c then a else b) := by
  split
  · exact h
  · exact g

/-- A memory that lists nothing is in its form. -/
theorem wf_nil : Tab.wf 0 ([] : Tab Nat) = true := rfl
theorem sound_reset : Sound State.reset := ⟨rfl, rfl⟩
theorem wf_eraseFlash {t : Tab Nat} (a n : Nat) (h : Tab.wf 0 t = true) : Tab.wf 0 (eraseFlash t a n) = true := Tab.wf_filter 0 _ t h
theorem wf_writeStream (k : Nat) : ∀ (bs : List Nat) (off : Nat) (t : Tab Nat), Tab.wf 0 t = true → Tab.wf 0 (writeStream k off bs t) = true
  | [], _, _, h => h
  | b :: bs, off, t, h => by
    refine wf_writeStream k bs _ _ (Tab.wf_put 0 _ _ _ ?_)
    split
    · exact wf_eraseFlash _ _ h
    · exact h
theorem sound_wr {s : State} {f : Fld} {v : Nat} (h : Sound s) : Sound (s.wr f v) := ⟨h.1, State.regs_wr s f v h.2⟩
end Sys2Proof.Machine
end

