-- ==== Sys2Proof/Laws/Sound1.lean ====
section
/-! SUPPORT. Each operation of Ops, TrunkOps, Irq, DomReq, Link, DrumOps, Disc, Graft, Bus, Outage, Flags, Buffer, Memory, View, Rings keeps a state sound: the operations named in a goal are taken off one by
one, each by its own lemma. -/
namespace Sys2Proof.Machine
set_option linter.unusedVariables false

theorem sound_acted (s : State) (t : State) (h0 : Sound s) (h1 : Sound t) : Sound (acted s t) := by
  unfold acted
  with_reducible (repeat' first
    | assumption | apply Sound.regs | apply Sound.flash | apply Sound.keeping | apply Sound.sdram | apply Sound.stage | apply Sound.porch
    | apply Sound.hwRam | apply Sound.bufEcc | apply Sound.keepEcc | apply Sound.hwEcc
    | (simp only [Sound.lit_iff]; refine ⟨?_, ?_, ?_, ?_, ?_, ?_, ?_, ?_, ?_, ?_⟩) | dsimp only)
theorem sound_ran (s : State) (t : State) (h0 : Sound s) (h1 : Sound t) : Sound (ran s t) := by
  unfold ran
  with_reducible (repeat' first
    | assumption | apply sound_acted | apply Sound.ite | split | dsimp only)
theorem sound_State_wr (s : State) (f : Fld) (v : Nat) (h : Sound s) : Sound (s.wr f v) := ⟨h.1, State.regs_wr s f v h.2⟩
theorem sound_State_on (s : State) (f : Fld) (h0 : Sound s) : Sound (State.on s f) := by
  unfold State.on
  with_reducible (repeat' first
    | assumption | apply sound_State_wr | dsimp only)
theorem sound_State_off (s : State) (f : Fld) (h0 : Sound s) : Sound (State.off s f) := by
  unfold State.off
  with_reducible (repeat' first
    | assumption | apply sound_State_wr | dsimp only)
theorem sound_State_wrB (s : State) (f : Fld) (b : Bool) (h0 : Sound s) : Sound (State.wrB s f b) := by
  unfold State.wrB
  with_reducible (repeat' first
    | assumption | apply sound_State_wr | dsimp only)
theorem sound_State_rst (s : State) (f : Fld) (h0 : Sound s) : Sound (State.rst s f) := by
  unfold State.rst
  with_reducible (repeat' first
    | assumption | apply sound_State_wr | dsimp only)
theorem sound_State_bump (s : State) (f : Fld) (n : Nat) (h0 : Sound s) : Sound (State.bump s f n) := by
  unfold State.bump
  with_reducible (repeat' first
    | assumption | apply sound_State_wr | dsimp only)
theorem sound_State_rstAll (s : State) (fs : List Fld) (h0 : Sound s) : Sound (State.rstAll s fs) := by
  unfold State.rstAll
  with_reducible (repeat' first
    | assumption | apply sound_State_rst | apply Sound.foldl | apply Snd.ite | apply Snd.foldl | apply Snd.out | refine Snd.of (by assumption) ?_
    | simp only [Snd.lit] | dsimp only)
theorem sound_State_emit (s : State) (o : Out) (h0 : Sound s) : Sound (State.emit s o) := by
  unfold State.emit
  with_reducible (repeat' first
    | assumption | apply Sound.regs | apply Sound.flash | apply Sound.keeping | apply Sound.sdram | apply Sound.stage | apply Sound.porch
    | apply Sound.hwRam | apply Sound.bufEcc | apply Sound.keepEcc | apply Sound.hwEcc
    | (simp only [Sound.lit_iff]; refine ⟨?_, ?_, ?_, ?_, ?_, ?_, ?_, ?_, ?_, ?_⟩) | dsimp only)
theorem sound_State_drew (s : State) (n : Nat) (h0 : Sound s) : Sound (State.drew s n) := by
  unfold State.drew
  with_reducible (repeat' first
    | assumption | apply Sound.regs | apply Sound.flash | apply Sound.keeping | apply Sound.sdram | apply Sound.stage | apply Sound.porch
    | apply Sound.hwRam | apply Sound.bufEcc | apply Sound.keepEcc | apply Sound.hwEcc
    | (simp only [Sound.lit_iff]; refine ⟨?_, ?_, ?_, ?_, ?_, ?_, ?_, ?_, ?_, ?_⟩) | dsimp only)
theorem sound_putFields (fs : List Fld) (w : Nat) (s : State) (h2 : Sound s) : Sound (putFields fs w s) := by
  unfold putFields
  with_reducible (repeat' first
    | assumption | intro _ | apply sound_State_wr | apply Sound.foldl | apply Snd.ite | apply Snd.foldl | apply Snd.out
    | refine Snd.of (by assumption) ?_ | simp only [Snd.lit] | dsimp only)
theorem sound_wrList (f : Nat → Fld) : ∀ (z2 : List Nat) (z1 : Nat) (z3 : State) (h3 : Sound z3), Sound (wrList f z1 z2 z3) := by
  intro z2
  induction z2 with
  | nil =>
    intros
    unfold wrList
    with_reducible (repeat' first
      | assumption | intro _ | apply sound_State_wr | split | dsimp only)
  | cons _ _ ih =>
    intros
    unfold wrList
    with_reducible (repeat' first
      | assumption | intro _ | apply sound_State_wr | apply ih | split | dsimp only)
theorem sound_mendKeep (q : Nat) (s : State) (h : Sound s) : Sound (mendKeep q s) := ⟨wf_mendKeep h.1 q, h.2⟩
theorem sound_putKeep (s : State) (i v : Nat) (h : Sound s) : Sound (putKeep s i v) := ⟨wf_putKeep h.1 i v, by
  unfold putKeep
  dsimp only
  split <;> exact h.2⟩
theorem sound_putKeepByte (s : State) (a v : Nat) (h : Sound s) : Sound (putKeepByte s a v) := sound_putKeep s _ _ h
theorem sound_putKeepList  : ∀ (z2 : List Nat) (z0 : State) (z1 : Nat) (h0 : Sound z0), Sound (putKeepList z0 z1 z2) := by
  intro z2
  induction z2 with
  | nil =>
    intros
    unfold putKeepList
    with_reducible (repeat' first
      | assumption | apply sound_putKeepByte | split | dsimp only)
  | cons _ _ ih =>
    intros
    unfold putKeepList
    with_reducible (repeat' first
      | assumption | apply sound_putKeepByte | apply ih | split | dsimp only)
theorem sound_recIncrement (s : State) (c : Nat) (h0 : Sound s) : Sound (recIncrement s c) := by
  unfold recIncrement
  with_reducible (repeat' first
    | assumption | intro _ | apply sound_putKeepByte | apply Sound.ite | split | dsimp only)
theorem sound_compactPruned (s : State) (h : Sound s) : Sound (compactPruned s) := ⟨wf_compactPruned h.1, h.2⟩
theorem sound_appendPruned (s : State) (src code : Nat) (h : Sound s) : Sound (appendPruned s src code) := by
  unfold appendPruned
  dsimp only
  split
  · exact sound_putKeep _ _ _ h
  · split
    · exact sound_putKeep _ _ _ (sound_compactPruned _ h)
    · exact sound_compactPruned _ h
theorem sound_clearPruned (s : State) (code : Nat) (h : Sound s) : Sound (clearPruned s code) := ⟨wf_clearPruned h.1 code, h.2⟩
theorem sound_postTally (s : State) (port : Nat) (slot : Nat) (t : Tally) (h0 : Sound s) : Sound (postTally s port slot t) := by
  unfold postTally
  with_reducible (repeat' first
    | assumption | split | apply Sound.regs | apply Sound.flash | apply Sound.keeping | apply Sound.sdram | apply Sound.stage | apply Sound.porch
    | apply Sound.hwRam | apply Sound.bufEcc | apply Sound.keepEcc | apply Sound.hwEcc
    | (simp only [Sound.lit_iff]; refine ⟨?_, ?_, ?_, ?_, ?_, ?_, ?_, ?_, ?_, ?_⟩) | dsimp only)
theorem sound_releaseTally (s : State) (port : Nat) (slot : Nat) (h0 : Sound s) : Sound (releaseTally s port slot) := by
  unfold releaseTally
  with_reducible (repeat' first
    | assumption | split | apply Sound.regs | apply Sound.flash | apply Sound.keeping | apply Sound.sdram | apply Sound.stage | apply Sound.porch
    | apply Sound.hwRam | apply Sound.bufEcc | apply Sound.keepEcc | apply Sound.hwEcc
    | (simp only [Sound.lit_iff]; refine ⟨?_, ?_, ?_, ?_, ?_, ?_, ?_, ?_, ?_, ?_⟩) | dsimp only)
theorem sound_metroTick (s : State) (h0 : Sound s) : Sound (metroTick s) := by
  unfold metroTick
  with_reducible (repeat' first
    | assumption | apply Sound.regs | apply Sound.flash | apply Sound.keeping | apply Sound.sdram | apply Sound.stage | apply Sound.porch
    | apply Sound.hwRam | apply Sound.bufEcc | apply Sound.keepEcc | apply Sound.hwEcc
    | (simp only [Sound.lit_iff]; refine ⟨?_, ?_, ?_, ?_, ?_, ?_, ?_, ?_, ?_, ?_⟩) | dsimp only)
theorem sound_timelineTick (s : State) (h0 : Sound s) : Sound (timelineTick s) := by
  unfold timelineTick
  with_reducible (repeat' first
    | assumption | apply Sound.regs | apply Sound.flash | apply Sound.keeping | apply Sound.sdram | apply Sound.stage | apply Sound.porch
    | apply Sound.hwRam | apply Sound.bufEcc | apply Sound.keepEcc | apply Sound.hwEcc
    | (simp only [Sound.lit_iff]; refine ⟨?_, ?_, ?_, ?_, ?_, ?_, ?_, ?_, ?_, ?_⟩) | dsimp only)
theorem sound_activity (s : State) (h0 : Sound s) : Sound (activity s) := by
  unfold activity
  with_reducible (repeat' first
    | assumption | apply Sound.regs | apply Sound.flash | apply Sound.keeping | apply Sound.sdram | apply Sound.stage | apply Sound.porch
    | apply Sound.hwRam | apply Sound.bufEcc | apply Sound.keepEcc | apply Sound.hwEcc
    | (simp only [Sound.lit_iff]; refine ⟨?_, ?_, ?_, ?_, ?_, ?_, ?_, ?_, ?_, ?_⟩) | dsimp only)
theorem sound_idleTimerTick (s : State) (h0 : Sound s) : Sound (idleTimerTick s) := by
  unfold idleTimerTick
  with_reducible (repeat' first
    | assumption | apply Sound.ite | split | apply Sound.regs | apply Sound.flash | apply Sound.keeping | apply Sound.sdram | apply Sound.stage
    | apply Sound.porch | apply Sound.hwRam | apply Sound.bufEcc | apply Sound.keepEcc | apply Sound.hwEcc
    | (simp only [Sound.lit_iff]; refine ⟨?_, ?_, ?_, ?_, ?_, ?_, ?_, ?_, ?_, ?_⟩) | dsimp only)
theorem sound_idleTick (s : State) (h0 : Sound s) : Sound (idleTick s) := by
  unfold idleTick
  with_reducible (repeat' first
    | assumption | apply sound_metroTick | apply sound_idleTimerTick | apply sound_timelineTick | apply Sound.ite | split | dsimp only)
theorem sound_putTrunk (p : Nat) (x : TrunkPort) (s : State) (h2 : Sound s) : Sound (putTrunk p x s) := by
  unfold putTrunk
  with_reducible (repeat' first
    | assumption | apply Sound.regs | apply Sound.flash | apply Sound.keeping | apply Sound.sdram | apply Sound.stage | apply Sound.porch
    | apply Sound.hwRam | apply Sound.bufEcc | apply Sound.keepEcc | apply Sound.hwEcc
    | (simp only [Sound.lit_iff]; refine ⟨?_, ?_, ?_, ?_, ?_, ?_, ?_, ?_, ?_, ?_⟩) | dsimp only)
theorem sound_putLane (l : Nat) (x : Lane) (s : State) (h2 : Sound s) : Sound (putLane l x s) := by
  unfold putLane
  with_reducible (repeat' first
    | assumption | apply Sound.regs | apply Sound.flash | apply Sound.keeping | apply Sound.sdram | apply Sound.stage | apply Sound.porch
    | apply Sound.hwRam | apply Sound.bufEcc | apply Sound.keepEcc | apply Sound.hwEcc
    | (simp only [Sound.lit_iff]; refine ⟨?_, ?_, ?_, ?_, ?_, ?_, ?_, ?_, ?_, ?_⟩) | dsimp only)
theorem sound_putHeard (m : Nat) (x : Heard) (s : State) (h2 : Sound s) : Sound (putHeard m x s) := by
  unfold putHeard
  with_reducible (repeat' first
    | assumption | apply Sound.regs | apply Sound.flash | apply Sound.keeping | apply Sound.sdram | apply Sound.stage | apply Sound.porch
    | apply Sound.hwRam | apply Sound.bufEcc | apply Sound.keepEcc | apply Sound.hwEcc
    | (simp only [Sound.lit_iff]; refine ⟨?_, ?_, ?_, ?_, ?_, ?_, ?_, ?_, ?_, ?_⟩) | dsimp only)
theorem sound_putStack (x : Stack) (s : State) (h1 : Sound s) : Sound (putStack x s) := by
  unfold putStack
  with_reducible (repeat' first
    | assumption | apply Sound.regs | apply Sound.flash | apply Sound.keeping | apply Sound.sdram | apply Sound.stage | apply Sound.porch
    | apply Sound.hwRam | apply Sound.bufEcc | apply Sound.keepEcc | apply Sound.hwEcc
    | (simp only [Sound.lit_iff]; refine ⟨?_, ?_, ?_, ?_, ?_, ?_, ?_, ?_, ?_, ?_⟩) | dsimp only)
theorem sound_forgetFar (slot : Nat) (write : Bool) (s : State) (h2 : Sound s) : Sound (forgetFar slot write s) := by
  unfold forgetFar
  with_reducible (repeat' first
    | assumption | intro _ | apply sound_putStack | split | apply Sound.regs | apply Sound.flash | apply Sound.keeping | apply Sound.sdram
    | apply Sound.stage | apply Sound.porch | apply Sound.hwRam | apply Sound.bufEcc | apply Sound.keepEcc | apply Sound.hwEcc
    | (simp only [Sound.lit_iff]; refine ⟨?_, ?_, ?_, ?_, ?_, ?_, ?_, ?_, ?_, ?_⟩) | dsimp only)
theorem sound_syncLane (s : State) (l : Nat) (h0 : Sound s) : Sound (syncLane s l) := by
  unfold syncLane
  with_reducible (repeat' first
    | assumption | apply sound_State_wr | apply Sound.ite | split | dsimp only)
theorem sound_syncWidth (s : State) (p : Nat) (h0 : Sound s) : Sound (syncWidth s p) := by
  unfold syncWidth
  with_reducible (repeat' first
    | assumption | apply sound_State_wr | apply Sound.foldl | apply Snd.ite | apply Snd.foldl | apply Snd.out | refine Snd.of (by assumption) ?_
    | simp only [Snd.lit] | dsimp only)
theorem sound_syncTrunk (s : State) (h0 : Sound s) : Sound (syncTrunk s) := by
  unfold syncTrunk
  with_reducible (repeat' first
    | assumption | apply sound_syncWidth | apply sound_syncLane | apply Sound.foldl | apply Snd.ite | apply Snd.foldl | apply Snd.out
    | refine Snd.of (by assumption) ?_ | simp only [Snd.lit] | dsimp only)
theorem sound_setPort (p : Nat) (st : Nat) (s : State) (h2 : Sound s) : Sound (setPort p st s) := by
  unfold setPort
  with_reducible (repeat' first
    | assumption | apply sound_syncTrunk | apply sound_State_wr | dsimp only)
theorem sound_setRoute (s : State) (m : Nat) (h0 : Sound s) : Sound (setRoute s m) := by
  unfold setRoute
  with_reducible (repeat' first
    | assumption | apply sound_State_on | apply sound_State_wr | apply sound_State_wrB | split | dsimp only)
theorem sound_setRoutes (s : State) (h0 : Sound s) : Sound (setRoutes s) := by
  unfold setRoutes
  with_reducible (repeat' first
    | assumption | intro _ | apply sound_setRoute | apply sound_State_wr | apply Sound.ite | apply Sound.foldl | apply Snd.ite | apply Snd.foldl
    | apply Snd.out | split | refine Snd.of (by assumption) ?_ | simp only [Snd.lit] | dsimp only)
theorem sound_setFc (p : Nat) (fc : Nat) (s : State) (h2 : Sound s) : Sound (setFc p fc s) := by
  unfold setFc
  with_reducible (repeat' first
    | assumption | apply sound_State_wr | dsimp only)
theorem sound_emitFrame (p : Nat) (seq : Nat) (f : List Nat) (s : State) (h3 : Sound s) : Sound (emitFrame p seq f s) := by
  unfold emitFrame
  with_reducible (repeat' first
    | assumption | apply sound_setFc | apply sound_State_emit | apply Sound.ite | apply Snd.ite | apply Snd.out | split
    | refine Snd.of (by assumption) ?_ | simp only [Snd.lit] | dsimp only)
theorem sound_sendKeepalive (p : Nat) (flags : Nat) (s : State) (h2 : Sound s) : Sound (sendKeepalive p flags s) := by
  unfold sendKeepalive
  with_reducible (repeat' first
    | assumption | apply sound_emitFrame | dsimp only)
theorem sound_freeBuffer (p : Nat) (isControl : Bool) (s : State) (h2 : Sound s) : Sound (freeBuffer p isControl s) := by
  unfold freeBuffer
  with_reducible (repeat' first
    | assumption | apply sound_putTrunk | apply sound_sendKeepalive | apply Sound.ite | split | apply Sound.regs | apply Sound.flash
    | apply Sound.keeping | apply Sound.sdram | apply Sound.stage | apply Sound.porch | apply Sound.hwRam | apply Sound.bufEcc | apply Sound.keepEcc
    | apply Sound.hwEcc | (simp only [Sound.lit_iff]; refine ⟨?_, ?_, ?_, ?_, ?_, ?_, ?_, ?_, ?_, ?_⟩) | dsimp only)
theorem sound_sendNew (p : Nat) (q : Queued) (s : State) (h2 : Sound s) : Sound (sendNew p q s) := by
  unfold sendNew
  with_reducible (repeat' first
    | assumption | apply sound_emitFrame | apply sound_putTrunk | apply sound_State_wr | apply sound_freeBuffer | apply Sound.ite | split
    | apply Sound.regs | apply Sound.flash | apply Sound.keeping | apply Sound.sdram | apply Sound.stage | apply Sound.porch | apply Sound.hwRam
    | apply Sound.bufEcc | apply Sound.keepEcc | apply Sound.hwEcc | (simp only [Sound.lit_iff]; refine ⟨?_, ?_, ?_, ?_, ?_, ?_, ?_, ?_, ?_, ?_⟩)
    | dsimp only)
theorem sound_fill (p : Nat) : ∀ (z1 : Nat) (z2 : State) (h2 : Sound z2), Sound (fill p z1 z2) := by
  intro z1
  induction z1 with
  | zero =>
    intros
    unfold fill
    with_reducible (repeat' first
      | assumption | intro _ | apply sound_sendNew | apply sound_putTrunk | apply Sound.ite | apply Snd.ite | apply Snd.out | split
      | refine Snd.of (by assumption) ?_ | simp only [Snd.lit] | apply Sound.regs | apply Sound.flash | apply Sound.keeping | apply Sound.sdram
      | apply Sound.stage | apply Sound.porch | apply Sound.hwRam | apply Sound.bufEcc | apply Sound.keepEcc | apply Sound.hwEcc
      | (simp only [Sound.lit_iff]; refine ⟨?_, ?_, ?_, ?_, ?_, ?_, ?_, ?_, ?_, ?_⟩) | dsimp only)
  | succ _ ih =>
    intros
    unfold fill
    with_reducible (repeat' first
      | assumption | intro _ | apply sound_sendNew | apply sound_putTrunk | apply ih | apply Sound.ite | apply Snd.ite | apply Snd.out | split
      | refine Snd.of (by assumption) ?_ | simp only [Snd.lit] | apply Sound.regs | apply Sound.flash | apply Sound.keeping | apply Sound.sdram
      | apply Sound.stage | apply Sound.porch | apply Sound.hwRam | apply Sound.bufEcc | apply Sound.keepEcc | apply Sound.hwEcc
      | (simp only [Sound.lit_iff]; refine ⟨?_, ?_, ?_, ?_, ?_, ?_, ?_, ?_, ?_, ?_⟩) | dsimp only)
theorem sound_fillPort (p : Nat) (s : State) (h1 : Sound s) : Sound (fillPort p s) := by
  unfold fillPort
  with_reducible (repeat' first
    | assumption | intro _ | apply sound_fill | dsimp only)
theorem sound_enqueue (p : Nat) (origin : Option Nat) (f : List Nat) (s : State) (h3 : Sound s) : Sound (enqueue p origin f s) := by
  unfold enqueue
  with_reducible (repeat' first
    | assumption | apply sound_putTrunk | apply Sound.ite | split | apply Sound.regs | apply Sound.flash | apply Sound.keeping | apply Sound.sdram
    | apply Sound.stage | apply Sound.porch | apply Sound.hwRam | apply Sound.bufEcc | apply Sound.keepEcc | apply Sound.hwEcc
    | (simp only [Sound.lit_iff]; refine ⟨?_, ?_, ?_, ?_, ?_, ?_, ?_, ?_, ?_, ?_⟩) | dsimp only)
theorem sound_sendTo (m : Nat) (fs : List (List Nat)) (s : State) (h2 : Sound s) : Sound (sendTo m fs s) := by
  unfold sendTo
  with_reducible (repeat' first
    | assumption | intro _ | apply sound_fillPort | apply sound_enqueue | apply Sound.foldl | apply Snd.ite | apply Snd.foldl | apply Snd.out | split
    | refine Snd.of (by assumption) ?_ | simp only [Snd.lit] | dsimp only)
theorem sound_sendPacket (m : Nat) (slot : Nat) (h : Header) (data : List Nat) (s : State) (h4 : Sound s) : Sound (sendPacket m slot h data s) := by
  unfold sendPacket
  with_reducible (repeat' first
    | assumption | apply sound_sendTo | dsimp only)
theorem sound_passOn (slot : Nat) (addr : Nat) (v : Nat) (s : State) (h3 : Sound s) : Sound (passOn slot addr v s) := by
  unfold passOn
  with_reducible (repeat' first
    | assumption | intro _ | apply sound_sendPacket | apply Sound.ite | apply Sound.foldl | apply Snd.ite | apply Snd.foldl | apply Snd.out | split
    | refine Snd.of (by assumption) ?_ | simp only [Snd.lit] | dsimp only)
theorem sound_countId (s : State) (h0 : Sound s) : Sound (countId s) := by
  unfold countId
  with_reducible (repeat' first
    | assumption | apply sound_putStack | apply Sound.ite | split | apply Sound.regs | apply Sound.flash | apply Sound.keeping | apply Sound.sdram
    | apply Sound.stage | apply Sound.porch | apply Sound.hwRam | apply Sound.bufEcc | apply Sound.keepEcc | apply Sound.hwEcc
    | (simp only [Sound.lit_iff]; refine ⟨?_, ?_, ?_, ?_, ?_, ?_, ?_, ?_, ?_, ?_⟩) | dsimp only)
theorem sound_sendBrief (m : Nat) (kind : Nat) (grove : Nat) (rest : List Nat) (s : State) (h4 : Sound s) : Sound (sendBrief m kind grove rest s) := by
  unfold sendBrief
  with_reducible (repeat' first
    | assumption | apply sound_countId | apply sound_sendTo | dsimp only)
theorem sound_sendAnswer (id : Nat) (t : Option Tally) (s : State) (h2 : Sound s) : Sound (sendAnswer id t s) := by
  unfold sendAnswer
  with_reducible (repeat' first
    | assumption | apply sound_sendBrief | apply Sound.ite | split | dsimp only [id])
theorem sound_returnTally (id : Nat) (t : Tally) (s : State) (h2 : Sound s) : Sound (returnTally id t s) := by
  unfold returnTally
  with_reducible (repeat' first
    | assumption | intro _ | apply sound_putStack | apply sound_sendTo | apply sound_sendAnswer | apply Sound.ite | apply Tab.wf_filter
    | apply Tab.rising_filter | split | apply Sound.regs | apply Sound.flash | apply Sound.keeping | apply Sound.sdram | apply Sound.stage
    | apply Sound.porch | apply Sound.hwRam | apply Sound.bufEcc | apply Sound.keepEcc | apply Sound.hwEcc
    | (simp only [Sound.lit_iff]; refine ⟨?_, ?_, ?_, ?_, ?_, ?_, ?_, ?_, ?_, ?_⟩) | dsimp only [id])
theorem sound_sendUnit (id : Nat) (unit : Nat) (grove : Nat) (bs : List Nat) (s : State) (h4 : Sound s) : Sound (sendUnit id unit grove bs s) := by
  unfold sendUnit
  with_reducible (repeat' first
    | assumption | intro _ | apply sound_sendTo | dsimp only [id])
theorem sound_putRbp (p : Nat) (x : Rbp) (s : State) (h2 : Sound s) : Sound (putRbp p x s) := by
  unfold putRbp
  with_reducible (repeat' first
    | assumption | apply Sound.ite | split | apply Sound.regs | apply Sound.flash | apply Sound.keeping | apply Sound.sdram | apply Sound.stage
    | apply Sound.porch | apply Sound.hwRam | apply Sound.bufEcc | apply Sound.keepEcc | apply Sound.hwEcc
    | (simp only [Sound.lit_iff]; refine ⟨?_, ?_, ?_, ?_, ?_, ?_, ?_, ?_, ?_, ?_⟩) | dsimp only)
theorem sound_setWins (slot : Nat) (k : Nat) (s : State) (h2 : Sound s) : Sound (setWins slot k s) := by
  unfold setWins
  with_reducible (repeat' first
    | assumption | intro _ | apply sound_putRbp | split | apply Sound.regs | apply Sound.flash | apply Sound.keeping | apply Sound.sdram
    | apply Sound.stage | apply Sound.porch | apply Sound.hwRam | apply Sound.bufEcc | apply Sound.keepEcc | apply Sound.hwEcc
    | (simp only [Sound.lit_iff]; refine ⟨?_, ?_, ?_, ?_, ?_, ?_, ?_, ?_, ?_, ?_⟩) | dsimp only)
theorem sound_holdOutputs (s : State) (p : Nat) (h0 : Sound s) : Sound (holdOutputs s p) := by
  unfold holdOutputs
  with_reducible (repeat' first
    | assumption | apply sound_putRbp | apply Sound.regs | apply Sound.flash | apply Sound.keeping | apply Sound.sdram | apply Sound.stage
    | apply Sound.porch | apply Sound.hwRam | apply Sound.bufEcc | apply Sound.keepEcc | apply Sound.hwEcc
    | (simp only [Sound.lit_iff]; refine ⟨?_, ?_, ?_, ?_, ?_, ?_, ?_, ?_, ?_, ?_⟩) | dsimp only)
theorem sound_busCycle (p : Nat) (write : Bool) (acc : Option Nat × State) (c : Nat × List Nat) (h2 : Snd acc) : Snd (busCycle p write acc c) := by
  unfold busCycle
  with_reducible (repeat' first
    | assumption | apply sound_State_emit | apply Sound.ite | apply Snd.ite | apply Snd.out | split | refine Snd.of (by assumption) ?_
    | simp only [Snd.lit] | dsimp only)
theorem sound_busCycles (p : Nat) (write : Bool) (addr : Nat) (bs : List Nat) (acc : Option Nat × State) (h4 : Snd acc) : Snd (busCycles p write addr bs acc) := by
  unfold busCycles
  with_reducible (repeat' first
    | assumption | apply sound_busCycle | apply Sound.foldl | apply Snd.ite | apply Snd.foldl | apply Snd.out | refine Snd.of (by assumption) ?_
    | simp only [Snd.lit] | dsimp only)
theorem sound_deliverIrq (old : State) (new : State) (slot : Nat) (bitSet : Bool) (h0 : Sound old) (h1 : Sound new) : Sound (deliverIrq old new slot bitSet) := by
  unfold deliverIrq
  with_reducible (repeat' first
    | assumption | intro _ | apply sound_State_emit | apply Sound.ite | split | apply Sound.regs | apply Sound.flash | apply Sound.keeping
    | apply Sound.sdram | apply Sound.stage | apply Sound.porch | apply Sound.hwRam | apply Sound.bufEcc | apply Sound.keepEcc | apply Sound.hwEcc
    | (simp only [Sound.lit_iff]; refine ⟨?_, ?_, ?_, ?_, ?_, ?_, ?_, ?_, ?_, ?_⟩) | dsimp only)
theorem sound_setIrq (slot : Nat) (k : Nat) (s : State) (h2 : Sound s) : Sound (setIrq slot k s) := by
  unfold setIrq
  with_reducible (repeat' first
    | assumption | apply sound_setWins | apply sound_State_on | apply sound_sendPacket | apply sound_deliverIrq | apply Sound.ite | split | dsimp only)
theorem sound_setIrqAll (k : Nat) (slots : List Nat) (s : State) (h2 : Sound s) : Sound (setIrqAll k slots s) := by
  unfold setIrqAll
  with_reducible (repeat' first
    | assumption | intro _ | apply sound_setIrq | apply Sound.foldl | apply Snd.ite | apply Snd.foldl | apply Snd.out
    | refine Snd.of (by assumption) ?_ | simp only [Snd.lit] | dsimp only)
theorem sound_refuse (slot : Nat) (addr : Nat) (s : State) (h2 : Sound s) : Sound (refuse slot addr s) := by
  unfold refuse
  with_reducible (repeat' first
    | assumption | apply sound_State_on | apply sound_State_wr | apply sound_setIrq | apply Sound.ite | split | dsimp only)
theorem sound_memRefuse (slot : Nat) (s : State) (h1 : Sound s) : Sound (memRefuse slot s) := by
  unfold memRefuse
  with_reducible (repeat' first
    | assumption | apply sound_State_on | apply sound_setIrq | apply Sound.ite | split | dsimp only)
theorem sound_putStep (d : Nat) (step : Nat) (s : State) (h2 : Sound s) : Sound (putStep d step s) := by
  unfold putStep
  with_reducible (repeat' first
    | assumption | apply Tab.wf_put | apply Sound.regs | apply Sound.flash | apply Sound.keeping | apply Sound.sdram | apply Sound.stage
    | apply Sound.porch | apply Sound.hwRam | apply Sound.bufEcc | apply Sound.keepEcc | apply Sound.hwEcc
    | (simp only [Sound.lit_iff]; refine ⟨?_, ?_, ?_, ?_, ?_, ?_, ?_, ?_, ?_, ?_⟩) | dsimp only)
theorem sound_putDom (d : Nat) (st : Nat) (step : Nat) (s : State) (h3 : Sound s) : Sound (putDom d st step s) := by
  unfold putDom
  with_reducible (repeat' first
    | assumption | apply sound_putStep | apply sound_State_wr | dsimp only)
theorem sound_admitWaiting (s : State) (h0 : Sound s) : Sound (admitWaiting s) := by
  unfold admitWaiting
  with_reducible (repeat' first
    | assumption | intro _ | apply sound_putStep | apply Sound.ite | apply Snd.ite | apply Snd.out | split | refine Snd.of (by assumption) ?_
    | simp only [Snd.lit] | dsimp only)
theorem sound_beginRise (d : Nat) (s : State) (h1 : Sound s) : Sound (beginRise d s) := by
  unfold beginRise
  with_reducible (repeat' first
    | assumption | apply sound_putDom | apply Sound.ite | split | dsimp only)
theorem sound_sampleRequest (d : Nat) (s : State) (h1 : Sound s) : Sound (sampleRequest d s) := by
  unfold sampleRequest
  with_reducible (repeat' first
    | assumption | apply sound_beginRise | apply sound_putDom | apply Sound.ite | split | dsimp only)
theorem sound_putReq (d : Nat) (v : Nat) (s : State) (h2 : Sound s) : Sound (putReq d v s) := by
  unfold putReq
  with_reducible (repeat' first
    | assumption | apply sound_sampleRequest | apply Tab.wf_put | apply Sound.regs | apply Sound.flash | apply Sound.keeping | apply Sound.sdram
    | apply Sound.stage | apply Sound.porch | apply Sound.hwRam | apply Sound.bufEcc | apply Sound.keepEcc | apply Sound.hwEcc
    | (simp only [Sound.lit_iff]; refine ⟨?_, ?_, ?_, ?_, ?_, ?_, ?_, ?_, ?_, ?_⟩) | dsimp only)
theorem sound_ownRequest (on : Bool) (d : Nat) (s : State) (h2 : Sound s) : Sound (ownRequest on d s) := by
  unfold ownRequest
  with_reducible (repeat' first
    | assumption | apply sound_putReq | apply sound_State_on | apply Sound.ite | split | dsimp only)
theorem sound_syncGen (s : State) (g : Nat) (h0 : Sound s) : Sound (syncGen s g) := by
  unfold syncGen
  with_reducible (repeat' first
    | assumption | intro _ | apply sound_ownRequest | apply Sound.ite | split | dsimp only)
theorem sound_syncGens (s : State) (h0 : Sound s) : Sound (syncGens s) := by
  unfold syncGens
  with_reducible (repeat' first
    | assumption | apply sound_syncGen | apply Sound.foldl | apply Snd.ite | apply Snd.foldl | apply Snd.out | refine Snd.of (by assumption) ?_
    | simp only [Snd.lit] | dsimp only)
theorem sound_unitRequest (on : Bool) (d : Nat) (s : State) (h2 : Sound s) : Sound (unitRequest on d s) := by
  unfold unitRequest
  with_reducible (repeat' first
    | assumption | apply sound_syncGen | apply sound_ownRequest | apply sound_State_on | apply Sound.foldl | apply Snd.ite | apply Snd.foldl
    | apply Snd.out | refine Snd.of (by assumption) ?_ | simp only [Snd.lit] | dsimp only)
theorem sound_unitRequestAll (on : Bool) (ds : List Nat) (s : State) (h2 : Sound s) : Sound (unitRequestAll on ds s) := by
  unfold unitRequestAll
  with_reducible (repeat' first
    | assumption | intro _ | apply sound_syncGens | apply sound_ownRequest | apply sound_State_on | apply Sound.foldl | apply Snd.ite
    | apply Snd.foldl | apply Snd.out | refine Snd.of (by assumption) ?_ | simp only [Snd.lit] | dsimp only)
theorem sound_putTc (t : Nat) (x : TypeC) (s : State) (h2 : Sound s) : Sound (putTc t x s) := by
  unfold putTc
  with_reducible (repeat' first
    | assumption | apply Sound.regs | apply Sound.flash | apply Sound.keeping | apply Sound.sdram | apply Sound.stage | apply Sound.porch
    | apply Sound.hwRam | apply Sound.bufEcc | apply Sound.keepEcc | apply Sound.hwEcc
    | (simp only [Sound.lit_iff]; refine ⟨?_, ?_, ?_, ?_, ?_, ?_, ?_, ?_, ?_, ?_⟩) | dsimp only)
theorem sound_putUart (u : Nat) (x : Uart) (s : State) (h2 : Sound s) : Sound (putUart u x s) := by
  unfold putUart
  with_reducible (repeat' first
    | assumption | apply Sound.regs | apply Sound.flash | apply Sound.keeping | apply Sound.sdram | apply Sound.stage | apply Sound.porch
    | apply Sound.hwRam | apply Sound.bufEcc | apply Sound.keepEcc | apply Sound.hwEcc
    | (simp only [Sound.lit_iff]; refine ⟨?_, ?_, ?_, ?_, ?_, ?_, ?_, ?_, ?_, ?_⟩) | dsimp only)
theorem sound_putPort (slot : Nat) (k : Nat) (x : HubPort) (s : State) (h3 : Sound s) : Sound (putPort slot k x s) := by
  unfold putPort
  with_reducible (repeat' first
    | assumption | apply Sound.regs | apply Sound.flash | apply Sound.keeping | apply Sound.sdram | apply Sound.stage | apply Sound.porch
    | apply Sound.hwRam | apply Sound.bufEcc | apply Sound.keepEcc | apply Sound.hwEcc
    | (simp only [Sound.lit_iff]; refine ⟨?_, ?_, ?_, ?_, ?_, ?_, ?_, ?_, ?_, ?_⟩) | dsimp only)
theorem sound_setLink (t : Nat) (link : Nat) (s : State) (h2 : Sound s) : Sound (setLink t link s) := by
  unfold setLink
  with_reducible (repeat' first
    | assumption | apply sound_activity | apply sound_State_wr | apply sound_State_wrB | apply Sound.ite | apply Snd.ite | apply Snd.out | split
    | refine Snd.of (by assumption) ?_ | simp only [Snd.lit] | dsimp only)
theorem sound_setSpeed (t : Nat) (speed : Nat) (s : State) (h2 : Sound s) : Sound (setSpeed t speed s) := by
  unfold setSpeed
  with_reducible (repeat' first
    | assumption | apply sound_State_wr | apply Snd.ite | apply Snd.out | split | refine Snd.of (by assumption) ?_ | simp only [Snd.lit] | dsimp only)
theorem sound_changePort (t : Nat) (f : HubPort → HubPort) (s : State) (h2 : Sound s) : Sound (changePort t f s) := by
  unfold changePort
  with_reducible (repeat' first
    | assumption | intro _ | apply sound_putPort | apply Snd.ite | apply Snd.out | split | refine Snd.of (by assumption) ?_ | simp only [Snd.lit]
    | dsimp only)
theorem sound_portDisconnect (t : Nat) (s : State) (h1 : Sound s) : Sound (portDisconnect t s) := by
  unfold portDisconnect
  with_reducible (repeat' first
    | assumption | intro _ | apply sound_State_off | apply sound_setSpeed | apply sound_setLink | apply sound_changePort | apply Sound.ite
    | apply Snd.ite | apply Snd.out | split | refine Snd.of (by assumption) ?_ | simp only [Snd.lit] | apply Sound.regs | apply Sound.flash
    | apply Sound.keeping | apply Sound.sdram | apply Sound.stage | apply Sound.porch | apply Sound.hwRam | apply Sound.bufEcc | apply Sound.keepEcc
    | apply Sound.hwEcc | (simp only [Sound.lit_iff]; refine ⟨?_, ?_, ?_, ?_, ?_, ?_, ?_, ?_, ?_, ?_⟩) | dsimp only)
theorem sound_portConnect (t : Nat) (speed : Nat) (s : State) (h2 : Sound s) : Sound (portConnect t speed s) := by
  unfold portConnect
  with_reducible (repeat' first
    | assumption | intro _ | apply sound_State_on | apply sound_State_wrB | apply sound_setSpeed | apply sound_setLink | apply sound_changePort
    | apply sound_State_bump | apply Sound.ite | apply Snd.ite | apply Snd.out | split | refine Snd.of (by assumption) ?_ | simp only [Snd.lit]
    | apply Sound.regs | apply Sound.flash | apply Sound.keeping | apply Sound.sdram | apply Sound.stage | apply Sound.porch | apply Sound.hwRam
    | apply Sound.bufEcc | apply Sound.keepEcc | apply Sound.hwEcc | (simp only [Sound.lit_iff]; refine ⟨?_, ?_, ?_, ?_, ?_, ?_, ?_, ?_, ?_, ?_⟩)
    | dsimp only)
theorem sound_setGuards (t : Nat) (mv : Nat) (ma : Nat) (s : State) (h3 : Sound s) : Sound (setGuards t mv ma s) := by
  unfold setGuards
  with_reducible (repeat' first
    | assumption | apply sound_State_wr | apply Sound.ite | split | dsimp only)
theorem sound_endContract (t : Nat) (s : State) (h1 : Sound s) : Sound (endContract t s) := by
  unfold endContract
  with_reducible (repeat' first
    | assumption | apply sound_State_rstAll | apply sound_State_off | apply sound_setGuards | apply sound_putTc | apply Sound.regs | apply Sound.flash
    | apply Sound.keeping | apply Sound.sdram | apply Sound.stage | apply Sound.porch | apply Sound.hwRam | apply Sound.bufEcc | apply Sound.keepEcc
    | apply Sound.hwEcc | (simp only [Sound.lit_iff]; refine ⟨?_, ?_, ?_, ?_, ?_, ?_, ?_, ?_, ?_, ?_⟩) | dsimp only)
theorem sound_toDischarge (t : Nat) (s : State) (h1 : Sound s) : Sound (toDischarge t s) := by
  unfold toDischarge
  with_reducible (repeat' first
    | assumption | apply sound_State_wr | apply sound_State_off | apply sound_State_on | apply sound_portDisconnect | apply sound_endContract
    | dsimp only)
theorem sound_pathFollows (t : Nat) (enable : Bool) (s : State) (h2 : Sound s) : Sound (pathFollows t enable s) := by
  unfold pathFollows
  with_reducible (repeat' first
    | assumption | apply sound_State_wr | apply sound_toDischarge | apply Sound.ite | split | dsimp only)
theorem sound_syncPath (t : Nat) (s : State) (h1 : Sound s) : Sound (syncPath t s) := by
  unfold syncPath
  with_reducible (repeat' first
    | assumption | apply sound_pathFollows | apply Sound.ite | split | dsimp only)
theorem sound_syncSink (t : Nat) (s : State) (h1 : Sound s) : Sound (syncSink t s) := by
  unfold syncSink
  with_reducible (repeat' first
    | assumption | apply sound_State_wrB | apply sound_State_wr | apply Sound.ite | split | dsimp only)
theorem sound_senseVbus (t : Nat) (mv : Nat) (s : State) (h2 : Sound s) : Sound (senseVbus t mv s) := by
  unfold senseVbus
  with_reducible (repeat' first
    | assumption | apply sound_State_wr | apply sound_syncSink | apply sound_State_on | apply sound_State_off | apply Sound.ite | split | dsimp only)
theorem sound_putUsbDev (slot : Nat) (function : Bool) (x : UsbDev) (s : State) (h3 : Sound s) : Sound (putUsbDev slot function x s) := by
  unfold putUsbDev
  with_reducible (repeat' first
    | assumption | apply Sound.regs | apply Sound.flash | apply Sound.keeping | apply Sound.sdram | apply Sound.stage | apply Sound.porch
    | apply Sound.hwRam | apply Sound.bufEcc | apply Sound.keepEcc | apply Sound.hwEcc
    | (simp only [Sound.lit_iff]; refine ⟨?_, ?_, ?_, ?_, ?_, ?_, ?_, ?_, ?_, ?_⟩) | dsimp only)
theorem sound_showFunction (slot : Nat) (speed : Nat) (s : State) (h2 : Sound s) : Sound (showFunction slot speed s) := by
  unfold showFunction
  with_reducible (repeat' first
    | assumption | apply sound_State_wr | apply sound_State_on | apply sound_State_wrB | apply sound_State_off | apply Sound.ite | split | dsimp only)
theorem sound_functionDefault (slot : Nat) (s : State) (h1 : Sound s) : Sound (functionDefault slot s) := by
  unfold functionDefault
  with_reducible (repeat' first
    | assumption | intro _ | apply sound_putUsbDev | apply Sound.foldl | apply Snd.ite | apply Snd.foldl | apply Snd.out
    | refine Snd.of (by assumption) ?_ | simp only [Snd.lit] | apply Sound.regs | apply Sound.flash | apply Sound.keeping | apply Sound.sdram
    | apply Sound.stage | apply Sound.porch | apply Sound.hwRam | apply Sound.bufEcc | apply Sound.keepEcc | apply Sound.hwEcc
    | (simp only [Sound.lit_iff]; refine ⟨?_, ?_, ?_, ?_, ?_, ?_, ?_, ?_, ?_, ?_⟩) | dsimp only)
theorem sound_hubDefault (slot : Nat) (s : State) (h1 : Sound s) : Sound (hubDefault slot s) := by
  unfold hubDefault
  with_reducible (repeat' first
    | assumption | intro _ | apply sound_functionDefault | apply sound_putUsbDev | apply sound_State_wr | apply sound_State_off
    | apply sound_showFunction | apply sound_portDisconnect | apply sound_syncPath | apply sound_putPort | apply Sound.foldl | apply Snd.ite
    | apply Snd.foldl | apply Snd.out | apply Tab.wf_put | split | refine Snd.of (by assumption) ?_ | simp only [Snd.lit] | apply Sound.regs
    | apply Sound.flash | apply Sound.keeping | apply Sound.sdram | apply Sound.stage | apply Sound.porch | apply Sound.hwRam | apply Sound.bufEcc
    | apply Sound.keepEcc | apply Sound.hwEcc | (simp only [Sound.lit_iff]; refine ⟨?_, ?_, ?_, ?_, ?_, ?_, ?_, ?_, ?_, ?_⟩) | dsimp only)
theorem sound_upGone (slot : Nat) (t : Nat) (link : Nat) (s : State) (h3 : Sound s) : Sound (upGone slot t link s) := by
  unfold upGone
  with_reducible (repeat' first
    | assumption | apply sound_showFunction | apply sound_setSpeed | apply sound_setLink | apply sound_hubDefault | apply sound_State_wr | dsimp only)
theorem sound_rdShown (t : Nat) (s : State) (h1 : Sound s) : Sound (rdShown t s) := by
  unfold rdShown
  with_reducible (repeat' first
    | assumption | apply sound_State_wr | apply sound_State_on | dsimp only)
theorem sound_putDrum (n : Nat) (x : Drum) (s : State) (h2 : Sound s) : Sound (putDrum n x s) := by
  unfold putDrum
  with_reducible (repeat' first
    | assumption | apply Sound.regs | apply Sound.flash | apply Sound.keeping | apply Sound.sdram | apply Sound.stage | apply Sound.porch
    | apply Sound.hwRam | apply Sound.bufEcc | apply Sound.keepEcc | apply Sound.hwEcc
    | (simp only [Sound.lit_iff]; refine ⟨?_, ?_, ?_, ?_, ?_, ?_, ?_, ?_, ?_, ?_⟩) | dsimp only)
theorem sound_putFront (n : Nat) (f : Front) (s : State) (h2 : Sound s) : Sound (putFront n f s) := by
  unfold putFront
  with_reducible (repeat' first
    | assumption | apply sound_putDrum | apply Sound.regs | apply Sound.flash | apply Sound.keeping | apply Sound.sdram | apply Sound.stage
    | apply Sound.porch | apply Sound.hwRam | apply Sound.bufEcc | apply Sound.keepEcc | apply Sound.hwEcc
    | (simp only [Sound.lit_iff]; refine ⟨?_, ?_, ?_, ?_, ?_, ?_, ?_, ?_, ?_, ?_⟩) | dsimp only)
theorem sound_putSpin (n : Nat) (x : Spin) (s : State) (h2 : Sound s) : Sound (putSpin n x s) := by
  unfold putSpin
  with_reducible (repeat' first
    | assumption | apply sound_putDrum | apply Sound.regs | apply Sound.flash | apply Sound.keeping | apply Sound.sdram | apply Sound.stage
    | apply Sound.porch | apply Sound.hwRam | apply Sound.bufEcc | apply Sound.keepEcc | apply Sound.hwEcc
    | (simp only [Sound.lit_iff]; refine ⟨?_, ?_, ?_, ?_, ?_, ?_, ?_, ?_, ?_, ?_⟩) | dsimp only)
theorem sound_putSled (n : Nat) (x : Sled) (s : State) (h2 : Sound s) : Sound (putSled n x s) := by
  unfold putSled
  with_reducible (repeat' first
    | assumption | apply sound_putDrum | apply Sound.regs | apply Sound.flash | apply Sound.keeping | apply Sound.sdram | apply Sound.stage
    | apply Sound.porch | apply Sound.hwRam | apply Sound.bufEcc | apply Sound.keepEcc | apply Sound.hwEcc
    | (simp only [Sound.lit_iff]; refine ⟨?_, ?_, ?_, ?_, ?_, ?_, ?_, ?_, ?_, ?_⟩) | dsimp only)
theorem sound_putTray (n : Nat) (x : Tray) (s : State) (h2 : Sound s) : Sound (putTray n x s) := by
  unfold putTray
  with_reducible (repeat' first
    | assumption | apply sound_putDrum | apply Sound.regs | apply Sound.flash | apply Sound.keeping | apply Sound.sdram | apply Sound.stage
    | apply Sound.porch | apply Sound.hwRam | apply Sound.bufEcc | apply Sound.keepEcc | apply Sound.hwEcc
    | (simp only [Sound.lit_iff]; refine ⟨?_, ?_, ?_, ?_, ?_, ?_, ?_, ?_, ?_, ?_⟩) | dsimp only)
theorem sound_putStrokes (n : Nat) (x : List Stroke) (s : State) (h2 : Sound s) : Sound (putStrokes n x s) := by
  unfold putStrokes
  with_reducible (repeat' first
    | assumption | apply sound_putDrum | apply Sound.regs | apply Sound.flash | apply Sound.keeping | apply Sound.sdram | apply Sound.stage
    | apply Sound.porch | apply Sound.hwRam | apply Sound.bufEcc | apply Sound.keepEcc | apply Sound.hwEcc
    | (simp only [Sound.lit_iff]; refine ⟨?_, ?_, ?_, ?_, ?_, ?_, ?_, ?_, ?_, ?_⟩) | dsimp only)
theorem sound_putVoice (n : Nat) (v : Nat) (x : Option Voice) (s : State) (h3 : Sound s) : Sound (putVoice n v x s) := by
  unfold putVoice
  with_reducible (repeat' first
    | assumption | apply sound_putDrum | apply Sound.regs | apply Sound.flash | apply Sound.keeping | apply Sound.sdram | apply Sound.stage
    | apply Sound.porch | apply Sound.hwRam | apply Sound.bufEcc | apply Sound.keepEcc | apply Sound.hwEcc
    | (simp only [Sound.lit_iff]; refine ⟨?_, ?_, ?_, ?_, ?_, ?_, ?_, ?_, ?_, ?_⟩) | dsimp only)
theorem sound_latchCoil (n : Nat) (c : Nat) (code : Nat) (s : State) (h3 : Sound s) : Sound (latchCoil n c code s) := by
  unfold latchCoil
  with_reducible (repeat' first
    | assumption | apply sound_State_wr | apply Sound.ite | split | dsimp only)
theorem sound_react (n : Nat) (kind : Nat) (why : Nat) (s : State) (h3 : Sound s) : Sound (react n kind why s) := by
  unfold react
  with_reducible (repeat' first
    | assumption | apply sound_putFront | apply sound_State_on | apply sound_State_wr | apply Sound.ite | split | apply Sound.regs | apply Sound.flash
    | apply Sound.keeping | apply Sound.sdram | apply Sound.stage | apply Sound.porch | apply Sound.hwRam | apply Sound.bufEcc | apply Sound.keepEcc
    | apply Sound.hwEcc | (simp only [Sound.lit_iff]; refine ⟨?_, ?_, ?_, ?_, ?_, ?_, ?_, ?_, ?_, ?_⟩) | dsimp only)
theorem sound_laserDark (n : Nat) (s : State) (h1 : Sound s) : Sound (laserDark n s) := by
  unfold laserDark
  with_reducible (repeat' first
    | assumption | apply sound_State_rstAll | apply sound_react | apply Sound.ite | split | dsimp only)
theorem sound_laserSleeps (n : Nat) (s : State) (h1 : Sound s) : Sound (laserSleeps n s) := by
  unfold laserSleeps
  with_reducible (repeat' first
    | assumption | apply sound_State_rstAll | dsimp only)
theorem sound_laserOff (n : Nat) (s : State) (h1 : Sound s) : Sound (laserOff n s) := by
  unfold laserOff
  with_reducible (repeat' first
    | assumption | apply sound_laserDark | apply sound_State_wr | dsimp only)
theorem sound_setSpin (n : Nat) (milli : Nat) (s : State) (h2 : Sound s) : Sound (setSpin n milli s) := by
  unfold setSpin
  with_reducible (repeat' first
    | assumption | apply sound_putSpin | apply sound_State_wr | apply Sound.regs | apply Sound.flash | apply Sound.keeping | apply Sound.sdram
    | apply Sound.stage | apply Sound.porch | apply Sound.hwRam | apply Sound.bufEcc | apply Sound.keepEcc | apply Sound.hwEcc
    | (simp only [Sound.lit_iff]; refine ⟨?_, ?_, ?_, ?_, ?_, ?_, ?_, ?_, ?_, ?_⟩) | dsimp only)
theorem sound_showTarget (n : Nat) (s : State) (h1 : Sound s) : Sound (showTarget n s) := by
  unfold showTarget
  with_reducible (repeat' first
    | assumption | apply sound_State_wr | apply Sound.ite | split | dsimp only)
theorem sound_enterSpin (n : Nat) (st : Nat) (s0 : State) (h2 : Sound s0) : Sound (enterSpin n st s0) := by
  unfold enterSpin
  with_reducible (repeat' first
    | assumption | apply sound_setSpin | apply sound_State_wr | apply sound_putSpin | apply sound_State_off | apply sound_showTarget | apply Sound.ite
    | split | apply Sound.regs | apply Sound.flash | apply Sound.keeping | apply Sound.sdram | apply Sound.stage | apply Sound.porch
    | apply Sound.hwRam | apply Sound.bufEcc | apply Sound.keepEcc | apply Sound.hwEcc
    | (simp only [Sound.lit_iff]; refine ⟨?_, ?_, ?_, ?_, ?_, ?_, ?_, ?_, ?_, ?_⟩) | dsimp only)
theorem sound_cutSpin (n : Nat) (s : State) (h1 : Sound s) : Sound (cutSpin n s) := by
  unfold cutSpin
  with_reducible (repeat' first
    | assumption | apply sound_State_on | apply sound_enterSpin | apply Sound.ite | split | dsimp only)
theorem sound_dropPruned (n : Nat) (s : State) (h1 : Sound s) : Sound (dropPruned n s) := by
  unfold dropPruned
  with_reducible (repeat' first
    | assumption | apply sound_unitRequestAll | apply Sound.ite | split | dsimp only)
theorem sound_checkSpeedVoice (n : Nat) (s : State) (h1 : Sound s) : Sound (checkSpeedVoice n s) := by
  unfold checkSpeedVoice
  with_reducible (repeat' first
    | assumption | apply sound_enterSpin | apply sound_State_on | apply Sound.ite | split | dsimp only)
theorem sound_dropSledRetry (n : Nat) (s : State) (h1 : Sound s) : Sound (dropSledRetry n s) := by
  unfold dropSledRetry
  with_reducible (repeat' first
    | assumption | intro _ | apply Sound.foldl | apply Snd.ite | apply Snd.foldl | apply Snd.out | apply Tab.wf_put | refine Snd.of (by assumption) ?_
    | simp only [Snd.lit] | apply Sound.regs | apply Sound.flash | apply Sound.keeping | apply Sound.sdram | apply Sound.stage | apply Sound.porch
    | apply Sound.hwRam | apply Sound.bufEcc | apply Sound.keepEcc | apply Sound.hwEcc
    | (simp only [Sound.lit_iff]; refine ⟨?_, ?_, ?_, ?_, ?_, ?_, ?_, ?_, ?_, ?_⟩) | dsimp only)
theorem sound_cutSled (n : Nat) (s : State) (h1 : Sound s) : Sound (cutSled n s) := by
  unfold cutSled
  with_reducible (repeat' first
    | assumption | apply sound_State_off | apply sound_State_wr | apply sound_dropSledRetry | apply sound_putSled | apply sound_State_rstAll
    | apply Sound.ite | split | apply Sound.regs | apply Sound.flash | apply Sound.keeping | apply Sound.sdram | apply Sound.stage | apply Sound.porch
    | apply Sound.hwRam | apply Sound.bufEcc | apply Sound.keepEcc | apply Sound.hwEcc
    | (simp only [Sound.lit_iff]; refine ⟨?_, ?_, ?_, ?_, ?_, ?_, ?_, ?_, ?_, ?_⟩) | dsimp only)
theorem sound_cutTray (n : Nat) (s : State) (h1 : Sound s) : Sound (cutTray n s) := by
  unfold cutTray
  with_reducible (repeat' first
    | assumption | apply sound_putTray | apply sound_State_off | apply sound_putSpin | apply sound_State_wr | apply Sound.ite | split
    | apply Sound.regs | apply Sound.flash | apply Sound.keeping | apply Sound.sdram | apply Sound.stage | apply Sound.porch | apply Sound.hwRam
    | apply Sound.bufEcc | apply Sound.keepEcc | apply Sound.hwEcc | (simp only [Sound.lit_iff]; refine ⟨?_, ?_, ?_, ?_, ?_, ?_, ?_, ?_, ?_, ?_⟩)
    | dsimp only)
theorem sound_syncFree (n : Nat) (s : State) (h1 : Sound s) : Sound (syncFree n s) := by
  unfold syncFree
  with_reducible (repeat' first
    | assumption | intro _ | apply sound_State_wr | dsimp only)
theorem sound_dropBlock (n : Nat) (s : State) (h1 : Sound s) : Sound (dropBlock n s) := by
  unfold dropBlock
  with_reducible (repeat' first
    | assumption | apply sound_syncFree | apply sound_putDrum | apply Sound.regs | apply Sound.flash | apply Sound.keeping | apply Sound.sdram
    | apply Sound.stage | apply Sound.porch | apply Sound.hwRam | apply Sound.bufEcc | apply Sound.keepEcc | apply Sound.hwEcc
    | (simp only [Sound.lit_iff]; refine ⟨?_, ?_, ?_, ?_, ?_, ?_, ?_, ?_, ?_, ?_⟩) | dsimp only)
theorem sound_syncHeld (n : Nat) (slot : Nat) (s : State) (h2 : Sound s) : Sound (syncHeld n slot s) := by
  unfold syncHeld
  with_reducible (repeat' first
    | assumption | intro _ | apply sound_State_wrB | dsimp only)
theorem sound_noteLunEnd (slot : Nat) (l : Nat) (address : Nat) (t : Tally) (s : State) (h4 : Sound s) : Sound (noteLunEnd slot l address t s) := by
  unfold noteLunEnd
  with_reducible (repeat' first
    | assumption | apply Sound.ite | split | apply Sound.regs | apply Sound.flash | apply Sound.keeping | apply Sound.sdram | apply Sound.stage
    | apply Sound.porch | apply Sound.hwRam | apply Sound.bufEcc | apply Sound.keepEcc | apply Sound.hwEcc
    | (simp only [Sound.lit_iff]; refine ⟨?_, ?_, ?_, ?_, ?_, ?_, ?_, ?_, ?_, ?_⟩) | dsimp only)
theorem sound_noteLun (x : Stroke) (t : Tally) (s : State) (h2 : Sound s) : Sound (noteLun x t s) := by
  unfold noteLun
  with_reducible (repeat' first
    | assumption | apply sound_noteLunEnd | split | dsimp only)
theorem sound_noteRequest (n : Nat) (x : Stroke) (t : Tally) (s : State) (h3 : Sound s) : Sound (noteRequest n x t s) := by
  unfold noteRequest
  with_reducible (repeat' first
    | assumption | apply sound_returnTally | apply sound_postTally | apply Snd.ite | apply Snd.out | split | refine Snd.of (by assumption) ?_
    | simp only [Snd.lit] | dsimp only)
theorem sound_finishStroke (n : Nat) (x : Stroke) (refused : Bool) (cancelled : Bool) (source : Nat) (s : State) (h5 : Sound s) : Sound (finishStroke n x refused cancelled source s) := by
  unfold finishStroke
  with_reducible (repeat' first
    | assumption | apply sound_noteLun | apply sound_noteRequest | apply sound_State_wr | apply sound_setIrq | apply Sound.ite | split | dsimp only)
theorem sound_updateCurrent (n : Nat) (f : Stroke → Stroke) (s : State) (h2 : Sound s) : Sound (updateCurrent n f s) := by
  unfold updateCurrent
  with_reducible (repeat' first
    | assumption | intro _ | apply sound_putStrokes | split | dsimp only)
theorem sound_strokeRetries (n : Nat) (p : Stroke → Bool) (s : State) (h2 : Sound s) : Sound (strokeRetries n p s) := by
  unfold strokeRetries
  with_reducible (repeat' first
    | assumption | intro _ | apply sound_updateCurrent | apply Sound.ite | split | apply Sound.regs | apply Sound.flash | apply Sound.keeping
    | apply Sound.sdram | apply Sound.stage | apply Sound.porch | apply Sound.hwRam | apply Sound.bufEcc | apply Sound.keepEcc | apply Sound.hwEcc
    | (simp only [Sound.lit_iff]; refine ⟨?_, ?_, ?_, ?_, ?_, ?_, ?_, ?_, ?_, ?_⟩) | dsimp only)
theorem sound_unitRetryEnd (n : Nat) (s : State) (h1 : Sound s) : Sound (unitRetryEnd n s) := by
  unfold unitRetryEnd
  with_reducible (repeat' first
    | assumption | intro _ | apply Sound.foldl | apply Snd.ite | apply Snd.foldl | apply Snd.out | apply Tab.wf_put | refine Snd.of (by assumption) ?_
    | simp only [Snd.lit] | apply Sound.regs | apply Sound.flash | apply Sound.keeping | apply Sound.sdram | apply Sound.stage | apply Sound.porch
    | apply Sound.hwRam | apply Sound.bufEcc | apply Sound.keepEcc | apply Sound.hwEcc
    | (simp only [Sound.lit_iff]; refine ⟨?_, ?_, ?_, ?_, ?_, ?_, ?_, ?_, ?_, ?_⟩) | dsimp only)
theorem sound_syncNow (n : Nat) (s : State) (h1 : Sound s) : Sound (syncNow n s) := by
  unfold syncNow
  with_reducible (repeat' first
    | assumption | apply sound_State_wrB | apply sound_State_wr | apply sound_State_rstAll | split | dsimp only)
theorem sound_dropStroke (n : Nat) (slot : Nat) (refused : Bool) (cancelled : Bool) (source : Nat) (s : State) (h5 : Sound s) : Sound (dropStroke n slot refused cancelled source s) := by
  unfold dropStroke
  with_reducible (repeat' first
    | assumption | intro _ | apply sound_putStrokes | apply sound_syncFree | apply sound_putDrum | apply sound_State_rstAll | apply sound_dropBlock
    | apply sound_unitRetryEnd | apply sound_syncHeld | apply sound_syncNow | apply sound_finishStroke | apply Sound.ite | apply Snd.ite
    | apply Snd.out | apply Tab.wf_filter | apply Tab.rising_filter | split | refine Snd.of (by assumption) ?_ | simp only [Snd.lit]
    | apply Sound.regs | apply Sound.flash | apply Sound.keeping | apply Sound.sdram | apply Sound.stage | apply Sound.porch | apply Sound.hwRam
    | apply Sound.bufEcc | apply Sound.keepEcc | apply Sound.hwEcc | (simp only [Sound.lit_iff]; refine ⟨?_, ?_, ?_, ?_, ?_, ?_, ?_, ?_, ?_, ?_⟩)
    | dsimp only)
theorem sound_setDisc (n : Nat) (st : Nat) (s : State) (h2 : Sound s) : Sound (setDisc n st s) := by
  unfold setDisc
  with_reducible (repeat' first
    | assumption | apply sound_State_wr | apply sound_putDrum | apply sound_State_rstAll | apply Sound.ite | apply wf_nil | split | apply Sound.regs
    | apply Sound.flash | apply Sound.keeping | apply Sound.sdram | apply Sound.stage | apply Sound.porch | apply Sound.hwRam | apply Sound.bufEcc
    | apply Sound.keepEcc | apply Sound.hwEcc | (simp only [Sound.lit_iff]; refine ⟨?_, ?_, ?_, ?_, ?_, ?_, ?_, ?_, ?_, ?_⟩) | dsimp only)
theorem sound_putLun (slot : Nat) (l : Nat) (u : Lun) (s : State) (h3 : Sound s) : Sound (putLun slot l u s) := by
  unfold putLun
  with_reducible (repeat' first
    | assumption | apply Sound.regs | apply Sound.flash | apply Sound.keeping | apply Sound.sdram | apply Sound.stage | apply Sound.porch
    | apply Sound.hwRam | apply Sound.bufEcc | apply Sound.keepEcc | apply Sound.hwEcc
    | (simp only [Sound.lit_iff]; refine ⟨?_, ?_, ?_, ?_, ?_, ?_, ?_, ?_, ?_, ?_⟩) | dsimp only)
theorem sound_lunView (s : State) (u : Lun) (h0 : Sound s) : Sound (lunView s u) := by
  unfold lunView
  with_reducible (repeat' first
    | assumption | intro _ | apply sound_State_wr | apply sound_putDrum | apply sound_State_drew | apply wf_nil | split | apply Sound.regs
    | apply Sound.flash | apply Sound.keeping | apply Sound.sdram | apply Sound.stage | apply Sound.porch | apply Sound.hwRam | apply Sound.bufEcc
    | apply Sound.keepEcc | apply Sound.hwEcc | (simp only [Sound.lit_iff]; refine ⟨?_, ?_, ?_, ?_, ?_, ?_, ?_, ?_, ?_, ?_⟩) | dsimp only)
theorem sound_admitStroke (n : Nat) (x : Stroke) (s : State) (h2 : Sound s) : Sound (admitStroke n x s) := by
  unfold admitStroke
  with_reducible (repeat' first
    | assumption | apply sound_finishStroke | apply sound_syncHeld | apply sound_putStrokes | split | dsimp only)
theorem sound_issueLun (slot : Nat) (l : Nat) (op : Nat) (address : Nat) (count : Nat) (arg : Nat) (s : State) (h6 : Sound s) : Sound (issueLun slot l op address count arg s) := by
  unfold issueLun
  with_reducible (repeat' first
    | assumption | apply sound_activity | apply sound_putLun | apply sound_countId | apply sound_noteLunEnd | apply sound_postTally
    | apply sound_admitStroke | apply sound_finishStroke | apply Sound.ite | split | apply Sound.regs | apply Sound.flash | apply Sound.keeping
    | apply Sound.sdram | apply Sound.stage | apply Sound.porch | apply Sound.hwRam | apply Sound.bufEcc | apply Sound.keepEcc | apply Sound.hwEcc
    | (simp only [Sound.lit_iff]; refine ⟨?_, ?_, ?_, ?_, ?_, ?_, ?_, ?_, ?_, ?_⟩) | dsimp only)
theorem sound_answerScsi (slot : Nat) (l : Nat) (sense : Nat) (info : Nat) (data : List Nat) (s : State) (h5 : Sound s) : Sound (answerScsi slot l sense info data s) := by
  unfold answerScsi
  with_reducible (repeat' first
    | assumption | apply sound_putLun | apply sound_State_emit | apply Sound.ite | split | apply Sound.regs | apply Sound.flash | apply Sound.keeping
    | apply Sound.sdram | apply Sound.stage | apply Sound.porch | apply Sound.hwRam | apply Sound.bufEcc | apply Sound.keepEcc | apply Sound.hwEcc
    | (simp only [Sound.lit_iff]; refine ⟨?_, ?_, ?_, ?_, ?_, ?_, ?_, ?_, ?_, ?_⟩) | dsimp only)
theorem sound_beginFirst (slot : Nat) (l : Nat) (c : Scsi) (s : State) (h3 : Sound s) : Sound (beginFirst slot l c s) := by
  unfold beginFirst
  with_reducible (repeat' first
    | assumption | apply sound_lunView | apply sound_answerScsi | apply sound_putLun | apply sound_State_drew | apply sound_issueLun | apply Sound.ite
    | split | apply Sound.regs | apply Sound.flash | apply Sound.keeping | apply Sound.sdram | apply Sound.stage | apply Sound.porch
    | apply Sound.hwRam | apply Sound.bufEcc | apply Sound.keepEcc | apply Sound.hwEcc
    | (simp only [Sound.lit_iff]; refine ⟨?_, ?_, ?_, ?_, ?_, ?_, ?_, ?_, ?_, ?_⟩) | dsimp only)
theorem sound_settleLun  : ∀ (z0 : Nat) (z1 : Nat) (z2 : Nat) (z3 : State) (h3 : Sound z3), Sound (settleLun z0 z1 z2 z3) := by
  intro z0
  induction z0 with
  | zero =>
    intros
    unfold settleLun
    with_reducible (repeat' first
      | assumption | apply sound_beginFirst | apply sound_lunView | apply sound_putLun | apply sound_issueLun | apply sound_answerScsi
      | apply Sound.ite | apply Snd.ite | apply Snd.out | split | refine Snd.of (by assumption) ?_ | simp only [Snd.lit] | apply Sound.regs
      | apply Sound.flash | apply Sound.keeping | apply Sound.sdram | apply Sound.stage | apply Sound.porch | apply Sound.hwRam | apply Sound.bufEcc
      | apply Sound.keepEcc | apply Sound.hwEcc | (simp only [Sound.lit_iff]; refine ⟨?_, ?_, ?_, ?_, ?_, ?_, ?_, ?_, ?_, ?_⟩) | dsimp only)
  | succ _ ih =>
    intros
    unfold settleLun
    with_reducible (repeat' first
      | assumption | apply sound_beginFirst | apply sound_lunView | apply sound_putLun | apply sound_issueLun | apply sound_answerScsi | apply ih
      | apply Sound.ite | apply Snd.ite | apply Snd.out | split | refine Snd.of (by assumption) ?_ | simp only [Snd.lit] | apply Sound.regs
      | apply Sound.flash | apply Sound.keeping | apply Sound.sdram | apply Sound.stage | apply Sound.porch | apply Sound.hwRam | apply Sound.bufEcc
      | apply Sound.keepEcc | apply Sound.hwEcc | (simp only [Sound.lit_iff]; refine ⟨?_, ?_, ?_, ?_, ?_, ?_, ?_, ?_, ?_, ?_⟩) | dsimp only)
theorem sound_endStroke (n : Nat) (slot : Nat) (refused : Bool) (cancelled : Bool) (source : Nat) (s : State) (h5 : Sound s) : Sound (endStroke n slot refused cancelled source s) := by
  unfold endStroke
  with_reducible (repeat' first
    | assumption | intro _ | apply sound_dropStroke | apply sound_settleLun | split | dsimp only)
theorem sound_failStroke (n : Nat) (slot : Nat) (src : Nat) (s : State) (h3 : Sound s) : Sound (failStroke n slot src s) := by
  unfold failStroke
  with_reducible (repeat' first
    | assumption | intro _ | apply sound_endStroke | apply sound_putStrokes | apply Sound.ite | split | apply Sound.regs | apply Sound.flash
    | apply Sound.keeping | apply Sound.sdram | apply Sound.stage | apply Sound.porch | apply Sound.hwRam | apply Sound.bufEcc | apply Sound.keepEcc
    | apply Sound.hwEcc | (simp only [Sound.lit_iff]; refine ⟨?_, ?_, ?_, ?_, ?_, ?_, ?_, ?_, ?_, ?_⟩) | dsimp only)
theorem sound_endAllStrokes (n : Nat) (source : Nat) : ∀ (z2 : Nat) (z3 : State) (h3 : Sound z3), Sound (endAllStrokes n source z2 z3) := by
  intro z2
  induction z2 with
  | zero =>
    intros
    unfold endAllStrokes
    with_reducible (repeat' first
      | assumption | apply sound_endStroke | split | dsimp only)
  | succ _ ih =>
    intros
    unfold endAllStrokes
    with_reducible (repeat' first
      | assumption | apply sound_endStroke | apply ih | split | dsimp only)
theorem sound_pruneStrokes (n : Nat) (source : Nat) (s : State) (h2 : Sound s) : Sound (pruneStrokes n source s) := by
  unfold pruneStrokes
  with_reducible (repeat' first
    | assumption | intro _ | apply sound_endAllStrokes | apply sound_putStrokes | apply sound_syncNow | apply Tab.wf_filter | apply Tab.rising_filter
    | apply Sound.regs | apply Sound.flash | apply Sound.keeping | apply Sound.sdram | apply Sound.stage | apply Sound.porch | apply Sound.hwRam
    | apply Sound.bufEcc | apply Sound.keepEcc | apply Sound.hwEcc | (simp only [Sound.lit_iff]; refine ⟨?_, ?_, ?_, ?_, ?_, ?_, ?_, ?_, ?_, ?_⟩)
    | dsimp only)
theorem sound_emitGraft (p : Nat) (body : List Nat) (s : State) (h2 : Sound s) : Sound (emitGraft p body s) := by
  unfold emitGraft
  with_reducible (repeat' first
    | assumption | apply sound_putTrunk | apply sound_State_emit | apply Sound.ite | split | apply Sound.regs | apply Sound.flash
    | apply Sound.keeping | apply Sound.sdram | apply Sound.stage | apply Sound.porch | apply Sound.hwRam | apply Sound.bufEcc | apply Sound.keepEcc
    | apply Sound.hwEcc | (simp only [Sound.lit_iff]; refine ⟨?_, ?_, ?_, ?_, ?_, ?_, ?_, ?_, ?_, ?_⟩) | dsimp only)
theorem sound_flood (but : Option Nat) (body : List Nat) (s : State) (h2 : Sound s) : Sound (flood but body s) := by
  unfold flood
  with_reducible (repeat' first
    | assumption | intro _ | apply sound_emitGraft | apply Sound.ite | apply Sound.foldl | apply Snd.ite | apply Snd.foldl | apply Snd.out | split
    | refine Snd.of (by assumption) ?_ | simp only [Snd.lit] | dsimp only)
theorem sound_sendHello (p : Nat) (s : State) (h1 : Sound s) : Sound (sendHello p s) := by
  unfold sendHello
  with_reducible (repeat' first
    | assumption | apply sound_emitGraft | apply Sound.ite | split | dsimp only)
theorem sound_sendLinks (s : State) (h0 : Sound s) : Sound (sendLinks s) := by
  unfold sendLinks
  with_reducible (repeat' first
    | assumption | apply sound_flood | apply sound_putStack | apply Sound.ite | split | apply Sound.regs | apply Sound.flash | apply Sound.keeping
    | apply Sound.sdram | apply Sound.stage | apply Sound.porch | apply Sound.hwRam | apply Sound.bufEcc | apply Sound.keepEcc | apply Sound.hwEcc
    | (simp only [Sound.lit_iff]; refine ⟨?_, ?_, ?_, ?_, ?_, ?_, ?_, ?_, ?_, ?_⟩) | dsimp only)
theorem sound_sendJoin (s : State) (h0 : Sound s) : Sound (sendJoin s) := by
  unfold sendJoin
  with_reducible (repeat' first
    | assumption | apply sound_flood | apply sound_putStack | apply Sound.regs | apply Sound.flash | apply Sound.keeping | apply Sound.sdram
    | apply Sound.stage | apply Sound.porch | apply Sound.hwRam | apply Sound.bufEcc | apply Sound.keepEcc | apply Sound.hwEcc
    | (simp only [Sound.lit_iff]; refine ⟨?_, ?_, ?_, ?_, ?_, ?_, ?_, ?_, ?_, ?_⟩) | dsimp only)
theorem sound_sendAnnounce (s : State) (h0 : Sound s) : Sound (sendAnnounce s) := by
  unfold sendAnnounce
  with_reducible (repeat' first
    | assumption | apply sound_flood | apply sound_putStack | apply Sound.regs | apply Sound.flash | apply Sound.keeping | apply Sound.sdram
    | apply Sound.stage | apply Sound.porch | apply Sound.hwRam | apply Sound.bufEcc | apply Sound.keepEcc | apply Sound.hwEcc
    | (simp only [Sound.lit_iff]; refine ⟨?_, ?_, ?_, ?_, ?_, ?_, ?_, ?_, ?_, ?_⟩) | dsimp only)
theorem sound_putBus (slot : Nat) (x : TapBus) (s : State) (h2 : Sound s) : Sound (putBus slot x s) := by
  unfold putBus
  with_reducible (repeat' first
    | assumption | apply Sound.regs | apply Sound.flash | apply Sound.keeping | apply Sound.sdram | apply Sound.stage | apply Sound.porch
    | apply Sound.hwRam | apply Sound.bufEcc | apply Sound.keepEcc | apply Sound.hwEcc
    | (simp only [Sound.lit_iff]; refine ⟨?_, ?_, ?_, ?_, ?_, ?_, ?_, ?_, ?_, ?_⟩) | dsimp only)
theorem sound_changeBus (slot : Nat) (f : TapBus → TapBus) (s : State) (h2 : Sound s) : Sound (changeBus slot f s) := by
  unfold changeBus
  with_reducible (repeat' first
    | assumption | intro _ | apply sound_putBus | dsimp only)
theorem sound_changeDev (slot : Nat) (h : Nat) (f : TapDev → TapDev) (s : State) (h3 : Sound s) : Sound (changeDev slot h f s) := by
  unfold changeDev
  with_reducible (repeat' first
    | assumption | intro _ | apply sound_changeBus | apply Sound.ite | split | apply Sound.regs | apply Sound.flash | apply Sound.keeping
    | apply Sound.sdram | apply Sound.stage | apply Sound.porch | apply Sound.hwRam | apply Sound.bufEcc | apply Sound.keepEcc | apply Sound.hwEcc
    | (simp only [Sound.lit_iff]; refine ⟨?_, ?_, ?_, ?_, ?_, ?_, ?_, ?_, ?_, ?_⟩) | dsimp only)
theorem sound_enterRecord (slot : Nat) (q : Nat) (ty : Nat) (dev : Nat) (flags : Nat) (len : Nat) (body : List Nat) (s : State) (h7 : Sound s) : Sound (enterRecord slot q ty dev flags len body s) := by
  unfold enterRecord
  with_reducible (repeat' first
    | assumption | intro _ | apply sound_putBus | apply sound_State_bump | apply sound_setIrq | apply Sound.ite | apply Tab.wf_filter
    | apply Tab.rising_filter | split | apply Sound.regs | apply Sound.flash | apply Sound.keeping | apply Sound.sdram | apply Sound.stage
    | apply Sound.porch | apply Sound.hwRam | apply Sound.bufEcc | apply Sound.keepEcc | apply Sound.hwEcc
    | (simp only [Sound.lit_iff]; refine ⟨?_, ?_, ?_, ?_, ?_, ?_, ?_, ?_, ?_, ?_⟩) | dsimp only)
theorem sound_postKeys (slot : Nat) (h : Nat) (flags : Nat) (l : List (Nat × Nat × Nat)) (s : State) (h4 : Sound s) : Sound (postKeys slot h flags l s) := by
  unfold postKeys
  with_reducible (repeat' first
    | assumption | intro _ | apply sound_enterRecord | apply Sound.foldl | apply Snd.ite | apply Snd.foldl | apply Snd.out
    | refine Snd.of (by assumption) ?_ | simp only [Snd.lit] | dsimp only)
theorem sound_postDone (slot : Nat) (r : List Nat) (e : List Nat) (flags : Nat) (s : State) (h4 : Sound s) : Sound (postDone slot r e flags s) := by
  unfold postDone
  with_reducible (repeat' first
    | assumption | apply sound_enterRecord | dsimp only)
theorem sound_putPipe (slot : Nat) (k : Nat) (x : Option Pipe) (s : State) (h3 : Sound s) : Sound (putPipe slot k x s) := by
  unfold putPipe
  with_reducible (repeat' first
    | assumption | intro _ | apply sound_changeBus | apply Sound.regs | apply Sound.flash | apply Sound.keeping | apply Sound.sdram
    | apply Sound.stage | apply Sound.porch | apply Sound.hwRam | apply Sound.bufEcc | apply Sound.keepEcc | apply Sound.hwEcc
    | (simp only [Sound.lit_iff]; refine ⟨?_, ?_, ?_, ?_, ?_, ?_, ?_, ?_, ?_, ?_⟩) | dsimp only)
theorem sound_endTransfer (slot : Nat) (k : Nat) (cancelled : Bool) (short : Bool) (source : Nat) (s : State) (h5 : Sound s) : Sound (endTransfer slot k cancelled short source s) := by
  unfold endTransfer
  with_reducible (repeat' first
    | assumption | apply sound_postTally | apply sound_putPipe | split | apply Sound.regs | apply Sound.flash | apply Sound.keeping
    | apply Sound.sdram | apply Sound.stage | apply Sound.porch | apply Sound.hwRam | apply Sound.bufEcc | apply Sound.keepEcc | apply Sound.hwEcc
    | (simp only [Sound.lit_iff]; refine ⟨?_, ?_, ?_, ?_, ?_, ?_, ?_, ?_, ?_, ?_⟩) | dsimp only)
theorem sound_endTransfers (slot : Nat) (k : Nat) (cancelled : Bool) (source : Nat) : ∀ (z4 : Nat) (z5 : State) (h5 : Sound z5), Sound (endTransfers slot k cancelled source z4 z5) := by
  intro z4
  induction z4 with
  | zero =>
    intros
    unfold endTransfers
    with_reducible (repeat' first
      | assumption | apply sound_endTransfer | split | dsimp only)
  | succ _ ih =>
    intros
    unfold endTransfers
    with_reducible (repeat' first
      | assumption | apply sound_endTransfer | apply ih | split | dsimp only)
theorem sound_pipeEvent (slot : Nat) (k : Nat) (ty : Nat) (d : List Nat) (s : State) (h4 : Sound s) : Sound (pipeEvent slot k ty d s) := by
  unfold pipeEvent
  with_reducible (repeat' first
    | assumption | apply sound_enterRecord | split | dsimp only)
theorem sound_closePipe (slot : Nat) (k : Nat) (cancelled : Bool) (source : Nat) (s : State) (h4 : Sound s) : Sound (closePipe slot k cancelled source s) := by
  unfold closePipe
  with_reducible (repeat' first
    | assumption | intro _ | apply sound_putPipe | apply sound_endTransfers | split | dsimp only)
theorem sound_releaseInputs (slot : Nat) (d : TapDev) (s : State) (h2 : Sound s) : Sound (releaseInputs slot d s) := by
  unfold releaseInputs
  with_reducible (repeat' first
    | assumption | apply sound_postKeys | apply sound_enterRecord | apply Sound.ite | split | dsimp only)
theorem sound_goneBlocks (slot : Nat) (d : TapDev) (s : State) (h2 : Sound s) : Sound (goneBlocks slot d s) := by
  unfold goneBlocks
  with_reducible (repeat' first
    | assumption | intro _ | apply sound_changeBus | apply sound_postDone | apply Sound.ite | apply Sound.foldl | apply Snd.ite | apply Snd.foldl
    | apply Snd.out | apply Tab.wf_filter | apply Tab.rising_filter | split | refine Snd.of (by assumption) ?_ | simp only [Snd.lit] | dsimp only)
theorem sound_gonePipes (slot : Nat) (h : Nat) (source : Nat) (s : State) (h3 : Sound s) : Sound (gonePipes slot h source s) := by
  unfold gonePipes
  with_reducible (repeat' first
    | assumption | intro _ | apply sound_closePipe | apply sound_pipeEvent | apply Sound.ite | apply Sound.foldl | apply Snd.ite | apply Snd.foldl
    | apply Snd.out | split | refine Snd.of (by assumption) ?_ | simp only [Snd.lit] | dsimp only)
theorem sound_endDevice (slot : Nat) (source : Nat) (s : State) (d : TapDev) (h2 : Sound s) : Sound (endDevice slot source s d) := by
  unfold endDevice
  with_reducible (repeat' first
    | assumption | intro _ | apply sound_gonePipes | apply sound_goneBlocks | apply sound_releaseInputs | apply sound_changeBus
    | apply sound_enterRecord | apply Tab.wf_filter | apply Tab.rising_filter | apply Sound.regs | apply Sound.flash | apply Sound.keeping
    | apply Sound.sdram | apply Sound.stage | apply Sound.porch | apply Sound.hwRam | apply Sound.bufEcc | apply Sound.keepEcc | apply Sound.hwEcc
    | (simp only [Sound.lit_iff]; refine ⟨?_, ?_, ?_, ?_, ?_, ?_, ?_, ?_, ?_, ?_⟩) | dsimp only)
theorem sound_endRoot (slot : Nat) (root : Nat) (source : Nat) (s : State) (h3 : Sound s) : Sound (endRoot slot root source s) := by
  unfold endRoot
  with_reducible (repeat' first
    | assumption | intro _ | apply sound_changeBus | apply sound_endDevice | apply Sound.foldl | apply Snd.ite | apply Snd.foldl | apply Snd.out
    | apply Tab.wf_filter | apply Tab.rising_filter | refine Snd.of (by assumption) ?_ | simp only [Snd.lit] | apply Sound.regs | apply Sound.flash
    | apply Sound.keeping | apply Sound.sdram | apply Sound.stage | apply Sound.porch | apply Sound.hwRam | apply Sound.bufEcc | apply Sound.keepEcc
    | apply Sound.hwEcc | (simp only [Sound.lit_iff]; refine ⟨?_, ?_, ?_, ?_, ?_, ?_, ?_, ?_, ?_, ?_⟩) | dsimp only)
theorem sound_tileOut (t : Nat) (src : Nat) (s : State) (h2 : Sound s) : Sound (tileOut t src s) := by
  unfold tileOut
  with_reducible (repeat' first
    | assumption | apply sound_pathFollows | apply sound_State_wr | apply sound_endContract | apply sound_upGone | apply sound_setLink
    | apply sound_portDisconnect | apply sound_State_off | apply sound_unitRequestAll | apply sound_endRoot | apply Sound.ite | apply Snd.ite
    | apply Snd.out | split | refine Snd.of (by assumption) ?_ | simp only [Snd.lit] | dsimp only)
theorem sound_endThrough (n : Nat) (p : Nat) : ∀ (z2 : Nat) (z3 : State) (h3 : Sound z3), Sound (endThrough n p z2 z3) := by
  intro z2
  induction z2 with
  | zero =>
    intros
    unfold endThrough
    with_reducible (repeat' first
      | assumption | intro _ | apply sound_endStroke | apply sound_putStrokes | apply Snd.ite | apply Snd.out | split
      | refine Snd.of (by assumption) ?_ | simp only [Snd.lit] | dsimp only)
  | succ _ ih =>
    intros
    unfold endThrough
    with_reducible (repeat' first
      | assumption | intro _ | apply sound_endStroke | apply sound_putStrokes | apply ih | apply Snd.ite | apply Snd.out | split
      | refine Snd.of (by assumption) ?_ | simp only [Snd.lit] | dsimp only)
theorem sound_loseRequests (p : Nat) (s : State) (h1 : Sound s) : Sound (loseRequests p s) := by
  unfold loseRequests
  with_reducible (repeat' first
    | assumption | intro _ | apply sound_postTally | apply Sound.ite | apply Sound.foldl | apply Snd.ite | apply Snd.foldl | apply Snd.out
    | apply wf_nil | split | refine Snd.of (by assumption) ?_ | simp only [Snd.lit] | apply Sound.regs | apply Sound.flash | apply Sound.keeping
    | apply Sound.sdram | apply Sound.stage | apply Sound.porch | apply Sound.hwRam | apply Sound.bufEcc | apply Sound.keepEcc | apply Sound.hwEcc
    | (simp only [Sound.lit_iff]; refine ⟨?_, ?_, ?_, ?_, ?_, ?_, ?_, ?_, ?_, ?_⟩) | dsimp only)
theorem sound_linkLossState (p : Nat) (s : State) (h1 : Sound s) : Sound (linkLossState p s) := by
  unfold linkLossState
  with_reducible (repeat' first
    | assumption | intro _ | apply sound_endThrough | apply sound_loseRequests | apply sound_State_wr | apply sound_State_bump | apply sound_putTrunk
    | apply sound_State_rstAll | apply sound_setRoutes | apply sound_setPort | apply sound_sendLinks | apply Sound.ite | split | dsimp only)
theorem sound_laneLost (p : Nat) (s : State) (h1 : Sound s) : Sound (laneLost p s) := by
  unfold laneLost
  with_reducible (repeat' first
    | assumption | intro _ | apply sound_putTrunk | apply sound_setPort | apply sound_syncTrunk | split | apply Sound.regs | apply Sound.flash
    | apply Sound.keeping | apply Sound.sdram | apply Sound.stage | apply Sound.porch | apply Sound.hwRam | apply Sound.bufEcc | apply Sound.keepEcc
    | apply Sound.hwEcc | (simp only [Sound.lit_iff]; refine ⟨?_, ?_, ?_, ?_, ?_, ?_, ?_, ?_, ?_, ?_⟩) | dsimp only)
theorem sound_widthChanges (p : Nat) (was : Nat) (s : State) (h2 : Sound s) : Sound (widthChanges p was s) := by
  unfold widthChanges
  with_reducible (repeat' first
    | assumption | apply sound_syncTrunk | apply sound_linkLossState | apply sound_laneLost | apply Sound.ite | split | dsimp only)
theorem sound_laneOut (l : Nat) (_src : Nat) (s : State) (h2 : Sound s) : Sound (laneOut l _src s) := by
  unfold laneOut
  with_reducible (repeat' first
    | assumption | apply sound_unitRequest | apply sound_widthChanges | apply sound_putLane | apply sound_State_wr | split | dsimp only)
theorem sound_pruneSpin (n : Nat) (s : State) (h1 : Sound s) : Sound (pruneSpin n s) := by
  unfold pruneSpin
  with_reducible (repeat' first
    | assumption | apply sound_enterSpin | split | dsimp only)
theorem sound_drumOut (n : Nat) (src : Nat) (s : State) (h2 : Sound s) : Sound (drumOut n src s) := by
  unfold drumOut
  with_reducible (repeat' first
    | assumption | apply sound_cutTray | apply sound_cutSled | apply sound_laserOff | apply sound_setDisc | apply sound_dropPruned
    | apply sound_pruneStrokes | apply sound_pruneSpin | apply Sound.ite | split | dsimp only)
theorem sound_voiceOut (n : Nat) (v : Nat) (_src : Nat) (s : State) (h3 : Sound s) : Sound (voiceOut n v _src s) := by
  unfold voiceOut
  with_reducible (repeat' first
    | assumption | intro _ | apply sound_putDrum | apply sound_State_wr | apply sound_enterSpin | apply sound_State_on | apply Sound.ite
    | apply Snd.ite | apply Snd.out | apply Tab.wf_filter | apply Tab.rising_filter | split | refine Snd.of (by assumption) ?_ | simp only [Snd.lit]
    | apply Sound.regs | apply Sound.flash | apply Sound.keeping | apply Sound.sdram | apply Sound.stage | apply Sound.porch | apply Sound.hwRam
    | apply Sound.bufEcc | apply Sound.keepEcc | apply Sound.hwEcc | (simp only [Sound.lit_iff]; refine ⟨?_, ?_, ?_, ?_, ?_, ?_, ?_, ?_, ?_, ?_⟩)
    | dsimp only)
theorem sound_uartOut (u : Nat) (_src : Nat) (s : State) (h2 : Sound s) : Sound (uartOut u _src s) := by
  unfold uartOut
  with_reducible (repeat' first
    | assumption | apply sound_unitRequest | apply sound_putUart | apply sound_State_rstAll | apply Sound.regs | apply Sound.flash
    | apply Sound.keeping | apply Sound.sdram | apply Sound.stage | apply Sound.porch | apply Sound.hwRam | apply Sound.bufEcc | apply Sound.keepEcc
    | apply Sound.hwEcc | (simp only [Sound.lit_iff]; refine ⟨?_, ?_, ?_, ?_, ?_, ?_, ?_, ?_, ?_, ?_⟩) | dsimp only)
theorem sound_breakBurst (p : Nat) (s : State) (h1 : Sound s) : Sound (breakBurst p s) := by
  unfold breakBurst
  with_reducible (repeat' first
    | assumption | apply sound_State_drew | apply sound_busCycles | apply sound_State_wr | apply Sound.ite | apply Snd.ite | apply Snd.out | split
    | refine Snd.of (by assumption) ?_ | simp only [Snd.lit] | dsimp only)
theorem sound_rbpOut (p : Nat) (_src : Nat) (s : State) (h2 : Sound s) : Sound (rbpOut p _src s) := by
  unfold rbpOut
  with_reducible (repeat' first
    | assumption | apply sound_State_off | apply sound_breakBurst | apply sound_State_wr | apply sound_State_emit | apply sound_unitRequest
    | apply sound_putRbp | apply Sound.ite | apply wf_nil | split | apply Sound.regs | apply Sound.flash | apply Sound.keeping | apply Sound.sdram
    | apply Sound.stage | apply Sound.porch | apply Sound.hwRam | apply Sound.bufEcc | apply Sound.keepEcc | apply Sound.hwEcc
    | (simp only [Sound.lit_iff]; refine ⟨?_, ?_, ?_, ?_, ?_, ?_, ?_, ?_, ?_, ?_⟩) | dsimp only)
theorem sound_portClockLost (s : State) (h0 : Sound s) : Sound (portClockLost s) := by
  unfold portClockLost
  with_reducible (repeat' first
    | assumption | intro _ | apply sound_upGone | apply sound_setLink | apply sound_portDisconnect | apply Sound.foldl | apply Snd.ite
    | apply Snd.foldl | apply Snd.out | split | refine Snd.of (by assumption) ?_ | simp only [Snd.lit] | dsimp only)
theorem sound_summaryIrq (old : Nat) (s : State) (h1 : Sound s) : Sound (summaryIrq old s) := by
  unfold summaryIrq
  with_reducible (repeat' first
    | assumption | intro _ | apply sound_setIrqAll | apply Sound.ite | apply Tab.wf_filter | apply Tab.rising_filter | split | dsimp only)
theorem sound_setSticky (c : Nat) (s : State) (h1 : Sound s) : Sound (setSticky c s) := by
  unfold setSticky
  with_reducible (repeat' first
    | assumption | apply sound_summaryIrq | apply sound_setIrqAll | apply sound_State_on | apply Sound.ite | split | dsimp only)
theorem sound_clearSticky (c : Nat) (s : State) (h1 : Sound s) : Sound (clearSticky c s) := by
  unfold clearSticky
  with_reducible (repeat' first
    | assumption | apply sound_summaryIrq | apply sound_State_off | apply Sound.ite | split | dsimp only)
theorem sound_countEvent (c : Nat) (s : State) (h1 : Sound s) : Sound (countEvent c s) := by
  unfold countEvent
  with_reducible (repeat' first
    | assumption | apply Sound.ite | apply Tab.wf_put | split | apply Sound.regs | apply Sound.flash | apply Sound.keeping | apply Sound.sdram
    | apply Sound.stage | apply Sound.porch | apply Sound.hwRam | apply Sound.bufEcc | apply Sound.keepEcc | apply Sound.hwEcc
    | (simp only [Sound.lit_iff]; refine ⟨?_, ?_, ?_, ?_, ?_, ?_, ?_, ?_, ?_, ?_⟩) | dsimp only)
theorem sound_occurBit (c : Nat) (s : State) (h1 : Sound s) : Sound (occurBit c s) := by
  unfold occurBit
  with_reducible (repeat' first
    | assumption | apply sound_setSticky | apply sound_countEvent | apply sound_State_on | apply Sound.ite | split | dsimp only)
theorem sound_senseWord (s : State) (q : Nat) (h0 : Sound s) : Sound (senseWord s q) := by
  unfold senseWord
  with_reducible (repeat' first
    | assumption | apply sound_occurBit | apply sound_mendKeep | split | dsimp only)
theorem sound_senseKeep (lo : Nat) (n : Nat) (s : State) (h2 : Sound s) : Sound (senseKeep lo n s) := by
  unfold senseKeep
  with_reducible (repeat' first
    | assumption | intro _ | apply sound_senseWord | apply Sound.foldl | apply Snd.ite | apply Snd.foldl | apply Snd.out | apply Tab.wf_filter
    | apply Tab.rising_filter | refine Snd.of (by assumption) ?_ | simp only [Snd.lit] | dsimp only)
theorem sound_senseList (s : State) (h0 : Sound s) : Sound (senseList s) := by
  unfold senseList
  with_reducible (repeat' first
    | assumption | apply sound_senseKeep | dsimp only)
theorem sound_keepOrDefer (d : Deferred) (s : State) (h1 : Sound s) : Sound (keepOrDefer d s) := by
  unfold keepOrDefer
  with_reducible (repeat' first
    | assumption | apply sound_appendPruned | apply sound_senseList | apply sound_recIncrement | apply sound_senseKeep | apply Sound.ite | split
    | apply Sound.regs | apply Sound.flash | apply Sound.keeping | apply Sound.sdram | apply Sound.stage | apply Sound.porch | apply Sound.hwRam
    | apply Sound.bufEcc | apply Sound.keepEcc | apply Sound.hwEcc | (simp only [Sound.lit_iff]; refine ⟨?_, ?_, ?_, ?_, ?_, ?_, ?_, ?_, ?_, ?_⟩)
    | dsimp only)
theorem sound_takeOut (code : Nat) (src : Nat) (s : State) (h2 : Sound s) : Sound (takeOut code src s) := by
  unfold takeOut
  with_reducible (repeat' first
    | assumption | apply sound_tileOut | apply sound_laneOut | apply sound_drumOut | apply sound_voiceOut | apply sound_uartOut | apply sound_rbpOut
    | split | dsimp only)
theorem sound_pruneChannel (src : Nat) (s : State) (code : Nat) (h1 : Sound s) : Sound (pruneChannel src s code) := by
  unfold pruneChannel
  with_reducible (repeat' first
    | assumption | apply sound_keepOrDefer | apply sound_takeOut | apply Sound.ite | split | dsimp only)
theorem sound_pruneAll (src : Nat) (codes : List Nat) (s : State) (h2 : Sound s) : Sound (pruneAll src codes s) := by
  unfold pruneAll
  with_reducible (repeat' first
    | assumption | apply sound_pruneChannel | apply Sound.foldl | apply Snd.ite | apply Snd.foldl | apply Snd.out | refine Snd.of (by assumption) ?_
    | simp only [Snd.lit] | dsimp only)
theorem sound_occurOnly (c : Nat) (s : State) (h1 : Sound s) : Sound (occurOnly c s) := by
  unfold occurOnly
  with_reducible (repeat' first
    | assumption | apply sound_occurBit | apply sound_pruneAll | apply Sound.ite | split | dsimp only)
theorem sound_raiseDrops (s : State) (h0 : Sound s) : Sound (raiseDrops s) := by
  unfold raiseDrops
  with_reducible (repeat' first
    | assumption | intro _ | apply sound_occurOnly | apply Sound.foldl | apply Snd.ite | apply Snd.foldl | apply Snd.out
    | refine Snd.of (by assumption) ?_ | simp only [Snd.lit] | apply Sound.regs | apply Sound.flash | apply Sound.keeping | apply Sound.sdram
    | apply Sound.stage | apply Sound.porch | apply Sound.hwRam | apply Sound.bufEcc | apply Sound.keepEcc | apply Sound.hwEcc
    | (simp only [Sound.lit_iff]; refine ⟨?_, ?_, ?_, ?_, ?_, ?_, ?_, ?_, ?_, ?_⟩) | dsimp only)
theorem sound_occur (c : Nat) (s : State) (h1 : Sound s) : Sound (occur c s) := by
  unfold occur
  with_reducible (repeat' first
    | assumption | apply sound_occurOnly | apply sound_raiseDrops | apply Sound.ite | split | dsimp only)
theorem sound_setCause (c : Nat) (present : Bool) (s : State) (h2 : Sound s) : Sound (setCause c present s) := by
  unfold setCause
  with_reducible (repeat' first
    | assumption | apply sound_occur | apply Sound.ite | split | apply Sound.regs | apply Sound.flash | apply Sound.keeping | apply Sound.sdram
    | apply Sound.stage | apply Sound.porch | apply Sound.hwRam | apply Sound.bufEcc | apply Sound.keepEcc | apply Sound.hwEcc
    | (simp only [Sound.lit_iff]; refine ⟨?_, ?_, ?_, ?_, ?_, ?_, ?_, ?_, ?_, ?_⟩) | dsimp only)
theorem sound_w1cSource (c : Nat) (s : State) (h1 : Sound s) : Sound (w1cSource c s) := by
  unfold w1cSource
  with_reducible (repeat' first
    | assumption | apply sound_clearSticky | apply sound_State_off | apply sound_setSticky | apply Sound.ite | split | dsimp only)
theorem sound_retryBegin (c : Nat) (s : State) (h1 : Sound s) : Sound (retryBegin c s) := by
  unfold retryBegin
  with_reducible (repeat' first
    | assumption | apply Tab.wf_put | apply Sound.regs | apply Sound.flash | apply Sound.keeping | apply Sound.sdram | apply Sound.stage
    | apply Sound.porch | apply Sound.hwRam | apply Sound.bufEcc | apply Sound.keepEcc | apply Sound.hwEcc
    | (simp only [Sound.lit_iff]; refine ⟨?_, ?_, ?_, ?_, ?_, ?_, ?_, ?_, ?_, ?_⟩) | dsimp only)
theorem sound_retryEnd (c : Nat) (s : State) (h1 : Sound s) : Sound (retryEnd c s) := by
  unfold retryEnd
  with_reducible (repeat' first
    | assumption | apply Tab.wf_put | apply Sound.regs | apply Sound.flash | apply Sound.keeping | apply Sound.sdram | apply Sound.stage
    | apply Sound.porch | apply Sound.hwRam | apply Sound.bufEcc | apply Sound.keepEcc | apply Sound.hwEcc
    | (simp only [Sound.lit_iff]; refine ⟨?_, ?_, ?_, ?_, ?_, ?_, ?_, ?_, ?_, ?_⟩) | dsimp only)
theorem sound_bufCorrected (s : State) (h0 : Sound s) : Sound (bufCorrected s) := by
  unfold bufCorrected
  with_reducible (repeat' first
    | assumption | apply sound_occur | apply sound_State_bump | dsimp only)
theorem sound_bufLost (w : Nat) (s : State) (h1 : Sound s) : Sound (bufLost w s) := by
  unfold bufLost
  with_reducible (repeat' first
    | assumption | apply sound_occur | apply sound_State_bump | apply sound_State_on | apply sound_State_wr | dsimp only)
theorem sound_setBufEcc (w e : Nat) (s : State) (h : Sound s) : Sound (setBufEcc w e s) := ⟨wf_setBufEcc h.1 w e, h.2⟩
theorem sound_readBuf (w : Nat) (d : Nat) (s : State) (h2 : Sound s) : Snd (readBuf w d s) := by
  unfold readBuf
  with_reducible (repeat' first
    | assumption | apply sound_bufCorrected | apply sound_setBufEcc | apply sound_bufLost | apply Snd.ite | apply Snd.out | split
    | refine Snd.of (by assumption) ?_ | simp only [Snd.lit] | dsimp only)
theorem sound_sweepWord (acc : Bool × State) (e : Nat × Nat) (h0 : Snd acc) : Snd (sweepWord acc e) := by
  unfold sweepWord
  with_reducible (repeat' first
    | assumption | apply sound_setBufEcc | apply sound_bufCorrected | apply sound_bufLost | apply Snd.ite | apply Snd.out | split
    | refine Snd.of (by assumption) ?_ | simp only [Snd.lit] | dsimp only)
theorem sound_sweepUse (u : BufUse) (s : State) (h1 : Sound s) : Snd (sweepUse u s) := by
  unfold sweepUse
  with_reducible (repeat' first
    | assumption | intro _ | apply sound_sweepWord | apply Sound.foldl | apply Snd.ite | apply Snd.foldl | apply Snd.out | apply Tab.wf_filter
    | apply Tab.rising_filter | refine Snd.of (by assumption) ?_ | simp only [Snd.lit] | dsimp only)
theorem sound_bankOff (d : Nat) (s : State) (h : Sound s) : Sound (bankOff d s) := ⟨wf_bankOff h.1 d, by
  unfold bankOff
  split <;> exact h.2⟩
theorem sound_copyImage (b r e : Nat) (s : State) (h : Sound s) : Sound (copyImage b r e s) := ⟨wf_copyImage h.1 b r e, h.2⟩
theorem sound_mendHw (s : State) (h : Sound s) : Sound (mendHw s) := ⟨wf_mendHw h.1, by
  unfold mendHw
  split <;> exact h.2⟩
theorem sound_putBeat (s : State) (a k v : Nat) (h : Sound s) : Sound (putBeat s a k v) := ⟨wf_putBeat h.1 a k v, h.2⟩
theorem sound_reportCe (a : Nat) (s : State) (h1 : Sound s) : Sound (reportCe a s) := by
  unfold reportCe
  with_reducible (repeat' first
    | assumption | apply sound_occur | apply sound_State_bump | apply sound_State_on | apply sound_State_wr | dsimp only)
theorem sound_reportUe (a : Nat) (s : State) (h1 : Sound s) : Sound (reportUe a s) := by
  unfold reportUe
  with_reducible (repeat' first
    | assumption | apply sound_occur | apply sound_State_bump | apply sound_State_on | apply sound_State_wr | dsimp only)
theorem sound_repairPlain (a : Nat) (s : State) (h1 : Sound s) : Sound (repairPlain a s) := by
  unfold repairPlain
  with_reducible (repeat' first
    | assumption | intro _ | apply sound_reportCe | apply sound_putBeat | apply Sound.foldl | apply Snd.ite | apply Snd.foldl | apply Snd.out | split
    | refine Snd.of (by assumption) ?_ | simp only [Snd.lit] | dsimp only)
theorem sound_readPlain (a : Nat) (s : State) (h1 : Sound s) : Thd (readPlain a s) := by
  unfold readPlain
  with_reducible (repeat' first
    | assumption | apply sound_repairPlain | apply sound_reportUe | apply Thd.ite | apply Thd.out | apply Snd.ite | apply Snd.out | apply Thd.rest
    | split | refine Thd.of (by assumption) ?_ | simp only [Thd.lit] | apply Thd.pair | dsimp only)
theorem sound_storeLine (a : Nat) (bs : List Nat) (s : State) (h2 : Sound s) : Sound (storeLine a bs s) := by
  unfold storeLine
  with_reducible (repeat' first
    | assumption | intro _ | apply sound_putBeat | apply Sound.foldl | apply Snd.ite | apply Snd.foldl | apply Snd.out
    | refine Snd.of (by assumption) ?_ | simp only [Snd.lit] | dsimp only)
theorem sound_writePlain (a : Nat) (off : Nat) (bs : List Nat) (s : State) (h3 : Sound s) : Snd (writePlain a off bs s) := by
  unfold writePlain
  with_reducible (repeat' first
    | assumption | apply sound_storeLine | apply sound_readPlain | apply sound_State_off | apply Sound.ite | apply Thd.ite | apply Thd.out
    | apply Snd.ite | apply Snd.out | apply Thd.rest | split | refine Thd.of (by assumption) ?_ | refine Snd.of (by assumption) ?_
    | simp only [Thd.lit] | simp only [Snd.lit] | apply Thd.pair | dsimp only)
theorem sound_cacheEntry (page : Nat) (w : Nat) (s : State) (h2 : Sound s) : Sound (cacheEntry page w s) := by
  unfold cacheEntry
  with_reducible (repeat' first
    | assumption | intro _ | apply Snd.ite | apply Snd.out | apply Tab.wf_filter | apply Tab.rising_filter | refine Snd.of (by assumption) ?_
    | simp only [Snd.lit] | apply Sound.regs | apply Sound.flash | apply Sound.keeping | apply Sound.sdram | apply Sound.stage | apply Sound.porch
    | apply Sound.hwRam | apply Sound.bufEcc | apply Sound.keepEcc | apply Sound.hwEcc
    | (simp only [Sound.lit_iff]; refine ⟨?_, ?_, ?_, ?_, ?_, ?_, ?_, ?_, ?_, ?_⟩) | dsimp only)
theorem sound_readEntry (page : Nat) (s : State) (h1 : Sound s) : Snd (readEntry page s) := by
  unfold readEntry
  with_reducible (repeat' first
    | assumption | intro _ | apply sound_cacheEntry | apply sound_readPlain | apply Sound.ite | apply Thd.ite | apply Thd.out | apply Snd.ite
    | apply Snd.out | apply Thd.rest | split | refine Thd.of (by assumption) ?_ | refine Snd.of (by assumption) ?_ | simp only [Thd.lit]
    | simp only [Snd.lit] | apply Thd.pair | dsimp only)
theorem sound_writeEntry (page : Nat) (e : CtEntry) (s : State) (h2 : Sound s) : Sound (writeEntry page e s) := by
  unfold writeEntry
  with_reducible (repeat' first
    | assumption | apply sound_cacheEntry | apply sound_putBeat | apply sound_readPlain | apply Thd.ite | apply Thd.out | apply Snd.ite
    | apply Snd.out | apply Thd.rest | refine Thd.of (by assumption) ?_ | refine Snd.of (by assumption) ?_ | simp only [Thd.lit] | simp only [Snd.lit]
    | apply Thd.pair | dsimp only)
theorem sound_putSeal (s : State) (r : Nat) (x : SealRegion) (h0 : Sound s) : Sound (putSeal s r x) := by
  unfold putSeal
  with_reducible (repeat' first
    | assumption | apply Sound.regs | apply Sound.flash | apply Sound.keeping | apply Sound.sdram | apply Sound.stage | apply Sound.porch
    | apply Sound.hwRam | apply Sound.bufEcc | apply Sound.keepEcc | apply Sound.hwEcc
    | (simp only [Sound.lit_iff]; refine ⟨?_, ?_, ?_, ?_, ?_, ?_, ?_, ?_, ?_, ?_⟩) | dsimp only)
theorem sound_storeVector (a : Nat) (v : Nat) (s : State) (h2 : Sound s) : Sound (storeVector a v s) := by
  unfold storeVector
  with_reducible (repeat' first
    | assumption | intro _ | apply sound_putBeat | apply Sound.foldl | apply Snd.ite | apply Snd.foldl | apply Snd.out
    | refine Snd.of (by assumption) ?_ | simp only [Snd.lit] | dsimp only)
theorem sound_sealLine (keys : Nat × Nat) (major : Nat) (minor : Nat) (r : Nat) (a : Nat) (plain : List Nat) (poison : Bool) (s : State) (h7 : Sound s) : Sound (sealLine keys major minor r a plain poison s) := by
  unfold sealLine
  with_reducible (repeat' first
    | assumption | apply sound_storeVector | apply Sound.ite | apply Snd.ite | apply Snd.out | split | refine Snd.of (by assumption) ?_
    | simp only [Snd.lit] | dsimp only)
theorem sound_failLine (r : Nat) (a : Nat) (s : State) (h2 : Sound s) : Sound (failLine r a s) := by
  unfold failLine
  with_reducible (repeat' first
    | assumption | apply sound_State_on | apply sound_State_wr | dsimp only)
theorem sound_openLine (keys : Nat × Nat) (major : Nat) (r : Nat) (a : Nat) (s : State) (h4 : Sound s) : Snd (openLine keys major r a s) := by
  unfold openLine
  with_reducible (repeat' first
    | assumption | apply sound_occur | apply sound_failLine | apply sound_State_bump | apply sound_storeVector | apply Sound.ite | apply Snd.ite
    | apply Snd.out | split | refine Snd.of (by assumption) ?_ | simp only [Snd.lit] | dsimp only)
theorem sound_readSealed (r : Nat) (a : Nat) (s : State) (h2 : Sound s) : Snd (readSealed r a s) := by
  unfold readSealed
  with_reducible (repeat' first
    | assumption | apply sound_readEntry | apply sound_occur | apply sound_failLine | apply sound_setCause | apply sound_openLine | apply Sound.ite
    | apply Snd.ite | apply Snd.out | split | refine Snd.of (by assumption) ?_ | simp only [Snd.lit] | dsimp only)
theorem sound_notePoison (r : Nat) (page : Nat) (src : Nat) (s : State) (h3 : Sound s) : Sound (notePoison r page src s) := by
  unfold notePoison
  with_reducible (repeat' first
    | assumption | apply sound_putSeal | apply sound_occur | apply Sound.ite | split | apply Sound.regs | apply Sound.flash | apply Sound.keeping
    | apply Sound.sdram | apply Sound.stage | apply Sound.porch | apply Sound.hwRam | apply Sound.bufEcc | apply Sound.keepEcc | apply Sound.hwEcc
    | (simp only [Sound.lit_iff]; refine ⟨?_, ?_, ?_, ?_, ?_, ?_, ?_, ?_, ?_, ?_⟩) | dsimp only)
theorem sound_reencrypt (r : Nat) (page : Nat) (oldKeys : Nat × Nat) (oldMajor : Option Nat) (newKeys : Nat × Nat) (newMajor : Nat) (s : State) (h6 : Sound s) : Sound (reencrypt r page oldKeys oldMajor newKeys newMajor s) := by
  unfold reencrypt
  with_reducible (repeat' first
    | assumption | intro _ | apply sound_notePoison | apply sound_sealLine | apply sound_occur | apply sound_failLine | apply sound_openLine
    | apply Sound.ite | apply Sound.foldl | apply Snd.ite | apply Snd.foldl | apply Snd.out | split | refine Snd.of (by assumption) ?_
    | simp only [Snd.lit] | dsimp only)
theorem sound_convertPage (r : Nat) (page : Nat) (ahead : Bool) (s : State) (h3 : Sound s) : Sound (convertPage r page ahead s) := by
  unfold convertPage
  with_reducible (repeat' first
    | assumption | apply sound_readEntry | apply sound_writeEntry | apply sound_reencrypt | apply Sound.ite | apply Snd.ite | apply Snd.out | split
    | refine Snd.of (by assumption) ?_ | simp only [Snd.lit] | dsimp only)
theorem sound_drawKeys (r : Nat) (s : State) (h1 : Sound s) : Sound (drawKeys r s) := by
  unfold drawKeys
  with_reducible (repeat' first
    | assumption | apply sound_putSeal | apply sound_State_drew | apply Sound.regs | apply Sound.flash | apply Sound.keeping | apply Sound.sdram
    | apply Sound.stage | apply Sound.porch | apply Sound.hwRam | apply Sound.bufEcc | apply Sound.keepEcc | apply Sound.hwEcc
    | (simp only [Sound.lit_iff]; refine ⟨?_, ?_, ?_, ?_, ?_, ?_, ?_, ?_, ?_, ?_⟩) | dsimp only)
theorem sound_startRekey (r : Nat) (workId : Nat) (s : State) (h2 : Sound s) : Sound (startRekey r workId s) := by
  unfold startRekey
  with_reducible (repeat' first
    | assumption | apply sound_putSeal | apply sound_State_wr | apply sound_drawKeys | apply sound_postTally | apply sound_setCause | apply Sound.ite
    | split | apply Sound.regs | apply Sound.flash | apply Sound.keeping | apply Sound.sdram | apply Sound.stage | apply Sound.porch
    | apply Sound.hwRam | apply Sound.bufEcc | apply Sound.keepEcc | apply Sound.hwEcc
    | (simp only [Sound.lit_iff]; refine ⟨?_, ?_, ?_, ?_, ?_, ?_, ?_, ?_, ?_, ?_⟩) | dsimp only)
theorem sound_autoRekey (r : Nat) (major : Nat) (s : State) (h2 : Sound s) : Sound (autoRekey r major s) := by
  unfold autoRekey
  with_reducible (repeat' first
    | assumption | apply sound_startRekey | apply sound_occur | apply Sound.ite | split | dsimp only)
theorem sound_aheadFirst (r : Nat) (page : Nat) (e : CtEntry) (s : State) (h3 : Sound s) : Snd (aheadFirst r page e s) := by
  unfold aheadFirst
  with_reducible (repeat' first
    | assumption | apply sound_convertPage | apply Sound.ite | apply Snd.ite | apply Snd.out | split | refine Snd.of (by assumption) ?_
    | simp only [Snd.lit] | dsimp only)
theorem sound_writeFresh (keys : Nat × Nat) (r : Nat) (page : Nat) (line : Nat) (e : CtEntry) (plain : List Nat) (s : State) (h6 : Sound s) : Sound (writeFresh keys r page line e plain s) := by
  unfold writeFresh
  with_reducible (repeat' first
    | assumption | intro _ | apply sound_writeEntry | apply sound_sealLine | apply Sound.ite | apply Sound.foldl | apply Snd.ite | apply Snd.foldl
    | apply Snd.out | split | refine Snd.of (by assumption) ?_ | simp only [Snd.lit] | apply Sound.regs | apply Sound.flash | apply Sound.keeping
    | apply Sound.sdram | apply Sound.stage | apply Sound.porch | apply Sound.hwRam | apply Sound.bufEcc | apply Sound.keepEcc | apply Sound.hwEcc
    | (simp only [Sound.lit_iff]; refine ⟨?_, ?_, ?_, ?_, ?_, ?_, ?_, ?_, ?_, ?_⟩) | dsimp only)
theorem sound_writeSealed (r : Nat) (a : Nat) (off : Nat) (bs : List Nat) (force : Bool) (s : State) (h5 : Sound s) : SoundWrite (writeSealed r a off bs force s) := by
  unfold writeSealed
  with_reducible (repeat' first
    | assumption | apply sound_readEntry | apply sound_occur | apply sound_failLine | apply sound_setCause | apply sound_aheadFirst
    | apply sound_writeFresh | apply sound_State_off | apply sound_sealLine | apply sound_openLine | apply Sound.ite | apply Snd.ite | apply Snd.out
    | apply SoundWrite.done | apply SoundWrite.job | apply SoundWrite.ite | split | refine Snd.of (by assumption) ?_
    | refine SoundWrite.of1 (by assumption) ?_ | refine SoundWrite.of2 (by assumption) ?_ | simp only [Snd.lit] | dsimp only)
theorem sound_readRange (r : Nat) (addr : Nat) (len : Nat) (s : State) (h3 : Sound s) : Thd (readRange r addr len s) := by
  unfold readRange
  with_reducible (repeat' first
    | assumption | intro _ | apply sound_readSealed | apply sound_readPlain | apply Sound.ite | apply Sound.foldl | apply Thd.ite | apply Thd.foldl
    | apply Thd.out | apply Snd.ite | apply Snd.foldl | apply Snd.out | apply Thd.rest | split | refine Thd.of (by assumption) ?_
    | refine Snd.of (by assumption) ?_ | simp only [Thd.lit] | simp only [Snd.lit] | apply Thd.pair | dsimp only)
theorem sound_holdAccess (page : Nat) (x : MemAccess) (s : State) (h2 : Sound s) : Sound (holdAccess page x s) := by
  unfold holdAccess
  with_reducible (repeat' first
    | assumption | intro _ | apply Sound.ite | split | apply Sound.regs | apply Sound.flash | apply Sound.keeping | apply Sound.sdram
    | apply Sound.stage | apply Sound.porch | apply Sound.hwRam | apply Sound.bufEcc | apply Sound.keepEcc | apply Sound.hwEcc
    | (simp only [Sound.lit_iff]; refine ⟨?_, ?_, ?_, ?_, ?_, ?_, ?_, ?_, ?_, ?_⟩) | dsimp only)
theorem sound_openJob (page : Nat) (x : MemAccess) (s : State) (h2 : Sound s) : Sound (openJob page x s) := by
  unfold openJob
  with_reducible (repeat' first
    | assumption | apply Sound.regs | apply Sound.flash | apply Sound.keeping | apply Sound.sdram | apply Sound.stage | apply Sound.porch
    | apply Sound.hwRam | apply Sound.bufEcc | apply Sound.keepEcc | apply Sound.hwEcc
    | (simp only [Sound.lit_iff]; refine ⟨?_, ?_, ?_, ?_, ?_, ?_, ?_, ?_, ?_, ?_⟩) | dsimp only)
theorem sound_writeLines (r : Nat) (x : MemAccess) : ∀ (z2 : List (Nat × Nat × Nat)) (z3 : Nat) (z4 : List Nat) (z5 : Bool) (z6 : State) (h6 : Sound z6), Snd (writeLines r x z2 z3 z4 z5 z6) := by
  intro z2
  induction z2 with
  | nil =>
    intros
    unfold writeLines
    with_reducible (repeat' first
      | assumption | apply sound_State_off | apply sound_writeSealed | apply sound_openJob | apply sound_writePlain | apply Sound.ite | apply Snd.ite
      | apply Snd.out | apply SoundWrite.done | apply SoundWrite.job | apply SoundWrite.ite | split | refine Snd.of (by assumption) ?_
      | refine SoundWrite.of1 (by assumption) ?_ | refine SoundWrite.of2 (by assumption) ?_ | simp only [Snd.lit] | apply Sound.regs
      | apply Sound.flash | apply Sound.keeping | apply Sound.sdram | apply Sound.stage | apply Sound.porch | apply Sound.hwRam | apply Sound.bufEcc
      | apply Sound.keepEcc | apply Sound.hwEcc | (simp only [Sound.lit_iff]; refine ⟨?_, ?_, ?_, ?_, ?_, ?_, ?_, ?_, ?_, ?_⟩) | dsimp only)
  | cons _ _ ih =>
    intros
    unfold writeLines
    with_reducible (repeat' first
      | assumption | apply sound_State_off | apply sound_writeSealed | apply sound_openJob | apply sound_writePlain | apply ih | apply Sound.ite
      | apply Snd.ite | apply Snd.out | apply SoundWrite.done | apply SoundWrite.job | apply SoundWrite.ite | split | refine Snd.of (by assumption) ?_
      | refine SoundWrite.of1 (by assumption) ?_ | refine SoundWrite.of2 (by assumption) ?_ | simp only [Snd.lit] | apply Sound.regs
      | apply Sound.flash | apply Sound.keeping | apply Sound.sdram | apply Sound.stage | apply Sound.porch | apply Sound.hwRam | apply Sound.bufEcc
      | apply Sound.keepEcc | apply Sound.hwEcc | (simp only [Sound.lit_iff]; refine ⟨?_, ?_, ?_, ?_, ?_, ?_, ?_, ?_, ?_, ?_⟩) | dsimp only)
theorem sound_memDone (x : MemAccess) (err : Nat) (s : State) (h2 : Sound s) : Sound (memDone x err s) := by
  unfold memDone
  with_reducible (repeat' first
    | assumption | apply sound_State_emit | apply Sound.ite | split | dsimp only [id])
theorem sound_runAccess (r : Nat) (x : MemAccess) (s : State) (h2 : Sound s) : Sound (runAccess r x s) := by
  unfold runAccess
  with_reducible (repeat' first
    | assumption | intro _ | apply sound_holdAccess | apply sound_writeLines | apply sound_memDone | apply sound_readRange | apply sound_State_emit
    | apply Sound.ite | apply Thd.ite | apply Thd.out | apply Snd.ite | apply Snd.out | apply Thd.rest | split | refine Thd.of (by assumption) ?_
    | refine Snd.of (by assumption) ?_ | simp only [Thd.lit] | simp only [Snd.lit] | apply Thd.pair | dsimp only)
theorem sound_serveAccess (x : MemAccess) (s : State) (h1 : Sound s) : Sound (serveAccess x s) := by
  unfold serveAccess
  with_reducible (repeat' first
    | assumption | apply sound_runAccess | apply sound_memRefuse | apply sound_State_emit | apply Sound.ite | split | dsimp only [id])
theorem sound_arriveAccess (x : MemAccess) (s : State) (h1 : Sound s) : Sound (arriveAccess x s) := by
  unfold arriveAccess
  with_reducible (repeat' first
    | assumption | apply sound_serveAccess | apply Sound.ite | split | apply Sound.regs | apply Sound.flash | apply Sound.keeping | apply Sound.sdram
    | apply Sound.stage | apply Sound.porch | apply Sound.hwRam | apply Sound.bufEcc | apply Sound.keepEcc | apply Sound.hwEcc
    | (simp only [Sound.lit_iff]; refine ⟨?_, ?_, ?_, ?_, ?_, ?_, ?_, ?_, ?_, ?_⟩) | dsimp only)
theorem sound_admitAccess  : ∀ (z0 : Nat) (z1 : State) (h1 : Sound z1), Sound (admitAccess z0 z1) := by
  intro z0
  induction z0 with
  | zero =>
    intros
    unfold admitAccess
    with_reducible (repeat' first
      | assumption | intro _ | apply sound_serveAccess | apply Sound.ite | apply Snd.ite | apply Snd.out | split | refine Snd.of (by assumption) ?_
      | simp only [Snd.lit] | apply Sound.regs | apply Sound.flash | apply Sound.keeping | apply Sound.sdram | apply Sound.stage | apply Sound.porch
      | apply Sound.hwRam | apply Sound.bufEcc | apply Sound.keepEcc | apply Sound.hwEcc
      | (simp only [Sound.lit_iff]; refine ⟨?_, ?_, ?_, ?_, ?_, ?_, ?_, ?_, ?_, ?_⟩) | dsimp only)
  | succ _ ih =>
    intros
    unfold admitAccess
    with_reducible (repeat' first
      | assumption | intro _ | apply sound_serveAccess | apply ih | apply Sound.ite | apply Snd.ite | apply Snd.out | split
      | refine Snd.of (by assumption) ?_ | simp only [Snd.lit] | apply Sound.regs | apply Sound.flash | apply Sound.keeping | apply Sound.sdram
      | apply Sound.stage | apply Sound.porch | apply Sound.hwRam | apply Sound.bufEcc | apply Sound.keepEcc | apply Sound.hwEcc
      | (simp only [Sound.lit_iff]; refine ⟨?_, ?_, ?_, ?_, ?_, ?_, ?_, ?_, ?_, ?_⟩) | dsimp only)
theorem sound_finishJob (page : Nat) (s : State) (h1 : Sound s) : Sound (finishJob page s) := by
  unfold finishJob
  with_reducible (repeat' first
    | assumption | intro _ | apply sound_readEntry | apply sound_convertPage | apply sound_autoRekey | apply sound_writeEntry | apply sound_reencrypt
    | apply sound_occur | apply sound_failLine | apply sound_admitAccess | apply sound_runAccess | apply Sound.ite | apply Sound.foldl | apply Snd.ite
    | apply Snd.foldl | apply Snd.out | apply Tab.wf_filter | apply Tab.rising_filter | split | refine Snd.of (by assumption) ?_ | simp only [Snd.lit]
    | apply Sound.regs | apply Sound.flash | apply Sound.keeping | apply Sound.sdram | apply Sound.stage | apply Sound.porch | apply Sound.hwRam
    | apply Sound.bufEcc | apply Sound.keepEcc | apply Sound.hwEcc | (simp only [Sound.lit_iff]; refine ⟨?_, ?_, ?_, ?_, ?_, ?_, ?_, ?_, ?_, ?_⟩)
    | dsimp only)
theorem sound_unitRead (slot : Nat) (addr : Nat) (len : Nat) (s : State) (h3 : Sound s) : Snd (unitRead slot addr len s) := by
  unfold unitRead
  with_reducible (repeat' first
    | assumption | apply sound_memRefuse | apply sound_finishJob | apply sound_readRange | apply Thd.ite | apply Thd.out | apply Snd.ite
    | apply Snd.out | apply Thd.rest | split | refine Thd.of (by assumption) ?_ | refine Snd.of (by assumption) ?_ | simp only [Thd.lit]
    | simp only [Snd.lit] | apply Thd.pair | dsimp only)
theorem sound_unitWrite (slot : Nat) (addr : Nat) (bs : List Nat) (s : State) (h3 : Sound s) : Snd (unitWrite slot addr bs s) := by
  unfold unitWrite
  with_reducible (repeat' first
    | assumption | intro _ | apply sound_memRefuse | apply sound_finishJob | apply sound_writeSealed | apply sound_writePlain | apply Sound.ite
    | apply Sound.foldl | apply Snd.ite | apply Snd.foldl | apply Snd.out | apply SoundWrite.done | apply SoundWrite.job | apply SoundWrite.ite
    | split | refine Snd.of (by assumption) ?_ | refine SoundWrite.of1 (by assumption) ?_ | refine SoundWrite.of2 (by assumption) ?_
    | simp only [Snd.lit] | apply Sound.regs | apply Sound.flash | apply Sound.keeping | apply Sound.sdram | apply Sound.stage | apply Sound.porch
    | apply Sound.hwRam | apply Sound.bufEcc | apply Sound.keepEcc | apply Sound.hwEcc
    | (simp only [Sound.lit_iff]; refine ⟨?_, ?_, ?_, ?_, ?_, ?_, ?_, ?_, ?_, ?_⟩) | dsimp only)
theorem sound_guardWrite (slot : Nat) (addr : Nat) (effect : State → State) (s : State) (h2 : ∀ y0, Sound y0 → Sound (effect y0)) (h3 : Sound s) : Sound (guardWrite slot addr effect s) := by
  unfold guardWrite
  with_reducible (repeat' first
    | assumption | intro _ | apply sound_activity | apply sound_State_emit | apply sound_refuse | apply h2 | apply Sound.ite | split | dsimp only)
theorem sound_guardTry (slot : Nat) (addr : Nat) (refused : State → Bool) (effect : State → State) (s : State) (h3 : ∀ y0, Sound y0 → Sound (effect y0)) (h4 : Sound s) : Sound (guardTry slot addr refused effect s) := by
  unfold guardTry
  with_reducible (repeat' first
    | assumption | intro _ | apply sound_activity | apply sound_State_emit | apply sound_refuse | apply h3 | apply Sound.ite | split | dsimp only)
theorem sound_guardRead (slot : Nat) (addr : Nat) (effect : State → State) (s : State) (h2 : ∀ y0, Sound y0 → Sound (effect y0)) (h3 : Sound s) : Sound (guardRead slot addr effect s) := by
  unfold guardRead
  with_reducible (repeat' first
    | assumption | intro _ | apply sound_activity | apply sound_refuse | apply sound_State_emit | apply h2 | split | dsimp only)
theorem sound_extendRing (k : Nat) (d : List Nat) (s : State) (h2 : Sound s) : Sound (extendRing k d s) := by
  unfold extendRing
  with_reducible (repeat' first
    | assumption | intro _ | apply sound_wrList | dsimp only)
theorem sound_extendEvent (ring : Nat) (ty : Nat) (d : List Nat) (data : List Nat) (s : State) (h4 : Sound s) : Sound (extendEvent ring ty d data s) := by
  unfold extendEvent
  with_reducible (repeat' first
    | assumption | apply sound_extendRing | apply sound_State_wr | apply sound_occur | apply sound_State_bump | apply Sound.ite | split
    | apply Sound.regs | apply Sound.flash | apply Sound.keeping | apply Sound.sdram | apply Sound.stage | apply Sound.porch | apply Sound.hwRam
    | apply Sound.bufEcc | apply Sound.keepEcc | apply Sound.hwEcc | (simp only [Sound.lit_iff]; refine ⟨?_, ?_, ?_, ?_, ?_, ?_, ?_, ?_, ?_, ?_⟩)
    | dsimp only)

end Sys2Proof.Machine
end

