-- ==== Sys2Proof/Laws/Sound2.lean ====
section
/-! SUPPORT. Each operation of Canopy, Seal, Front, Seed, Clock, Domain, Trunk, Restart, Mail, Tiles keeps a state sound: the operations named in a goal are taken off one by
one, each by its own lemma. -/
namespace Sys2Proof.Machine
set_option linter.unusedVariables false

theorem sound_cmdRefused (s : State) (h0 : Sound s) : Sound (cmdRefused s) := by
  unfold cmdRefused
  with_reducible (repeat' first
    | assumption | apply sound_State_on | dsimp only)
theorem sound_putStageData (i : Nat) (d : Nat) (s : State) (h2 : Sound s) : Sound (putStageData i d s) := by
  unfold putStageData
  with_reducible (repeat' first
    | assumption | apply wf_putW | apply Sound.regs | apply Sound.flash | apply Sound.keeping | apply Sound.sdram | apply Sound.stage
    | apply Sound.porch | apply Sound.hwRam | apply Sound.bufEcc | apply Sound.keepEcc | apply Sound.hwEcc
    | (simp only [Sound.lit_iff]; refine ⟨?_, ?_, ?_, ?_, ?_, ?_, ?_, ?_, ?_, ?_⟩) | dsimp only)
theorem sound_readStage (i : Nat) (s : State) (h1 : Sound s) : Snd (readStage i s) := by
  unfold readStage
  with_reducible (repeat' first
    | assumption | apply sound_readBuf | apply sound_putStageData | apply sound_State_drew | apply Sound.ite | apply Snd.ite | apply Snd.out | split
    | refine Snd.of (by assumption) ?_ | simp only [Snd.lit] | dsimp only)
theorem sound_writeStage (i : Nat) (v : Nat) (s : State) (h2 : Sound s) : Sound (writeStage i v s) := by
  unfold writeStage
  with_reducible (repeat' first
    | assumption | apply sound_readStage | apply sound_setBufEcc | apply sound_putStageData | apply Sound.ite | apply Snd.ite | apply Snd.out
    | apply wf_putW | split | refine Snd.of (by assumption) ?_ | simp only [Snd.lit] | apply Sound.regs | apply Sound.flash | apply Sound.keeping
    | apply Sound.sdram | apply Sound.stage | apply Sound.porch | apply Sound.hwRam | apply Sound.bufEcc | apply Sound.keepEcc | apply Sound.hwEcc
    | (simp only [Sound.lit_iff]; refine ⟨?_, ?_, ?_, ?_, ?_, ?_, ?_, ?_, ?_, ?_⟩) | dsimp only)
theorem sound_senseStage (s : State) (h0 : Sound s) : Sound (senseStage s) := by
  unfold senseStage
  with_reducible (repeat' first
    | assumption | intro _ | apply sound_readStage | apply sound_putStageData | apply Sound.foldl | apply Snd.ite | apply Snd.foldl | apply Snd.out
    | apply Tab.wf_filter | apply Tab.rising_filter | split | refine Snd.of (by assumption) ?_ | simp only [Snd.lit] | dsimp only)
theorem sound_beginChecks (op : LoadOp) (src : Nat) (s : State) (h2 : Sound s) : Sound (beginChecks op src s) := by
  unfold beginChecks
  with_reducible (repeat' first
    | assumption | apply sound_senseStage | apply sound_State_on | apply Sound.ite | split | apply Sound.regs | apply Sound.flash
    | apply Sound.keeping | apply Sound.sdram | apply Sound.stage | apply Sound.porch | apply Sound.hwRam | apply Sound.bufEcc | apply Sound.keepEcc
    | apply Sound.hwEcc | (simp only [Sound.lit_iff]; refine ⟨?_, ?_, ?_, ?_, ?_, ?_, ?_, ?_, ?_, ?_⟩) | dsimp only)
theorem sound_execCanopyStartLoad (s : State) (h0 : Sound s) : SoundRes (execCanopyStartLoad s) := by
  unfold execCanopyStartLoad
  with_reducible (repeat' first
    | assumption | apply sound_completes | apply sound_beginChecks | apply Sound.ite | split | dsimp only)
theorem sound_execCheckStream (slot : Fin 8) (area : Fin 4) (s : State) (h2 : Sound s) : SoundRes (execCheckStream slot area s) := by
  unfold execCheckStream
  with_reducible (repeat' first
    | assumption | intro _ | apply sound_completes | apply sound_guardWrite | apply sound_cmdRefused | apply sound_beginChecks | apply Sound.ite
    | split | dsimp only)
theorem sound_execLoadStream (slot : Fin 8) (area : Fin 4) (s : State) (h2 : Sound s) : SoundRes (execLoadStream slot area s) := by
  unfold execLoadStream
  with_reducible (repeat' first
    | assumption | intro _ | apply sound_completes | apply sound_guardWrite | apply sound_cmdRefused | apply sound_beginChecks | apply Sound.ite
    | split | dsimp only)
theorem sound_execSealStream (slot : Fin 8) (s : State) (h1 : Sound s) : SoundRes (execSealStream slot s) := by
  unfold execSealStream
  with_reducible (repeat' first
    | assumption | intro _ | apply sound_completes | apply sound_guardWrite | apply sound_cmdRefused | apply sound_State_on | apply Sound.ite | split
    | dsimp only)
theorem sound_execCanopyNextWrite (slot : Fin 8) (area : Fin 2) (s : State) (h2 : Sound s) : SoundRes (execCanopyNextWrite slot area s) := by
  unfold execCanopyNextWrite
  with_reducible (repeat' first
    | assumption | intro _ | apply sound_completes | apply sound_guardWrite | apply sound_putKeep | apply sound_State_wr | dsimp only)
theorem sound_advanceStage (s : State) (h0 : Sound s) : Sound (advanceStage s) := by
  unfold advanceStage
  with_reducible (repeat' first
    | assumption | apply sound_State_wr | dsimp only)
theorem sound_execCanopyStageDataAccess (slot : Fin 8) (write : Option Nat) (s : State) (h2 : Sound s) : SoundRes (execCanopyStageDataAccess slot write s) := by
  unfold execCanopyStageDataAccess
  with_reducible (repeat' first
    | assumption | intro _ | apply sound_completes | apply sound_guardWrite | apply sound_cmdRefused | apply sound_advanceStage
    | apply sound_writeStage | apply sound_guardRead | apply sound_State_emit | apply sound_readStage | apply Sound.ite | apply Snd.ite
    | apply Snd.out | split | refine Snd.of (by assumption) ?_ | simp only [Snd.lit] | dsimp only)
theorem sound_endRekey (r : Nat) (status : Nat) (done : Nat) (map : Nat) (s : State) (h4 : Sound s) : Sound (endRekey r status done map s) := by
  unfold endRekey
  with_reducible (repeat' first
    | assumption | intro _ | apply sound_postTally | apply sound_putSeal | apply Tab.wf_filter | apply Tab.rising_filter | apply Sound.regs
    | apply Sound.flash | apply Sound.keeping | apply Sound.sdram | apply Sound.stage | apply Sound.porch | apply Sound.hwRam | apply Sound.bufEcc
    | apply Sound.keepEcc | apply Sound.hwEcc | (simp only [Sound.lit_iff]; refine ⟨?_, ?_, ?_, ?_, ?_, ?_, ?_, ?_, ?_, ?_⟩) | dsimp only)
theorem sound_completeRekey (r : Nat) (s : State) (h1 : Sound s) : Sound (completeRekey r s) := by
  unfold completeRekey
  with_reducible (repeat' first
    | assumption | apply sound_endRekey | apply sound_putSeal | apply sound_State_wr | apply Sound.regs | apply Sound.flash | apply Sound.keeping
    | apply Sound.sdram | apply Sound.stage | apply Sound.porch | apply Sound.hwRam | apply Sound.bufEcc | apply Sound.keepEcc | apply Sound.hwEcc
    | (simp only [Sound.lit_iff]; refine ⟨?_, ?_, ?_, ?_, ?_, ?_, ?_, ?_, ?_, ?_⟩) | dsimp only)
theorem sound_rekeyCommand (slot : Nat) (r : Nat) (id : Nat) (s : State) (h3 : Sound s) : Sound (rekeyCommand slot r id s) := by
  unfold rekeyCommand
  with_reducible (repeat' first
    | assumption | apply sound_startRekey | apply sound_postTally | apply Sound.ite | split | dsimp only [id])
theorem sound_execRekey (slot : Fin 8) (region : Fin 32) (s : State) (h2 : Sound s) : SoundRes (execRekey slot region s) := by
  unfold execRekey
  with_reducible (repeat' first
    | assumption | intro _ | apply sound_completes | apply sound_guardWrite | apply sound_rekeyCommand | apply Sound.ite | split | apply Sound.regs
    | apply Sound.flash | apply Sound.keeping | apply Sound.sdram | apply Sound.stage | apply Sound.porch | apply Sound.hwRam | apply Sound.bufEcc
    | apply Sound.keepEcc | apply Sound.hwEcc | (simp only [Sound.lit_iff]; refine ⟨?_, ?_, ?_, ?_, ?_, ?_, ?_, ?_, ?_, ?_⟩) | dsimp only [id])
theorem sound_releaseRekeys (s : State) (h0 : Sound s) : Sound (releaseRekeys s) := by
  unfold releaseRekeys
  with_reducible (repeat' first
    | assumption | intro _ | apply sound_rekeyCommand | apply Sound.foldl | apply Snd.ite | apply Snd.foldl | apply Snd.out | apply wf_nil
    | refine Snd.of (by assumption) ?_ | simp only [Snd.lit] | apply Sound.regs | apply Sound.flash | apply Sound.keeping | apply Sound.sdram
    | apply Sound.stage | apply Sound.porch | apply Sound.hwRam | apply Sound.bufEcc | apply Sound.keepEcc | apply Sound.hwEcc
    | (simp only [Sound.lit_iff]; refine ⟨?_, ?_, ?_, ?_, ?_, ?_, ?_, ?_, ?_, ?_⟩) | dsimp only)
theorem sound_execRekeyPageConverted (s : State) (h0 : Sound s) : SoundRes (execRekeyPageConverted s) := by
  unfold execRekeyPageConverted
  with_reducible (repeat' first
    | assumption | apply sound_completes | apply sound_readEntry | apply sound_writeEntry | apply sound_convertPage | apply sound_State_wr
    | apply sound_completeRekey | apply Sound.ite | apply Snd.ite | apply Snd.out | split | refine Snd.of (by assumption) ?_ | simp only [Snd.lit]
    | apply Sound.regs | apply Sound.flash | apply Sound.keeping | apply Sound.sdram | apply Sound.stage | apply Sound.porch | apply Sound.hwRam
    | apply Sound.bufEcc | apply Sound.keepEcc | apply Sound.hwEcc | (simp only [Sound.lit_iff]; refine ⟨?_, ?_, ?_, ?_, ?_, ?_, ?_, ?_, ?_, ?_⟩)
    | dsimp only)
theorem sound_execPageJobDone (page : Nat) (s : State) (h1 : Sound s) : SoundRes (execPageJobDone page s) := by
  unfold execPageJobDone
  with_reducible (repeat' first
    | assumption | apply sound_completes | apply sound_finishJob | apply Sound.ite | split | dsimp only)
theorem sound_execSealKeyDraw (s : State) (h0 : Sound s) : SoundRes (execSealKeyDraw s) := by
  unfold execSealKeyDraw
  with_reducible (repeat' first
    | assumption | intro _ | apply sound_completes | apply sound_drawKeys | apply sound_setCause | apply sound_State_on | apply Sound.ite
    | apply Sound.foldl | apply Snd.ite | apply Snd.foldl | apply Snd.out | split | refine Snd.of (by assumption) ?_ | simp only [Snd.lit]
    | dsimp only)
theorem sound_haltWalks (slot : Nat) (s : State) (h1 : Sound s) : Sound (haltWalks slot s) := by
  unfold haltWalks
  with_reducible (repeat' first
    | assumption | intro _ | apply sound_endRekey | apply sound_State_wr | apply Sound.foldl | apply Snd.ite | apply Snd.foldl | apply Snd.out
    | apply Tab.wf_filter | apply Tab.rising_filter | refine Snd.of (by assumption) ?_ | simp only [Snd.lit] | dsimp only)
theorem sound_writeFreshEntry (page : Nat) (s : State) (h1 : Sound s) : Sound (writeFreshEntry page s) := by
  unfold writeFreshEntry
  with_reducible (repeat' first
    | assumption | apply sound_putBeat | dsimp only)
theorem sound_loadRegion (r : Nat) (s : State) (h1 : Sound s) : Sound (loadRegion r s) := by
  unfold loadRegion
  with_reducible (repeat' first
    | assumption | intro _ | apply sound_putSeal | apply sound_State_rstAll | apply sound_State_on | apply sound_State_wr | apply sound_drawKeys
    | apply sound_setCause | apply sound_writeFreshEntry | apply Sound.ite | apply Sound.foldl | apply Snd.ite | apply Snd.foldl | apply Snd.out
    | split | refine Snd.of (by assumption) ?_ | simp only [Snd.lit] | apply Sound.regs | apply Sound.flash | apply Sound.keeping | apply Sound.sdram
    | apply Sound.stage | apply Sound.porch | apply Sound.hwRam | apply Sound.bufEcc | apply Sound.keepEcc | apply Sound.hwEcc
    | (simp only [Sound.lit_iff]; refine ⟨?_, ?_, ?_, ?_, ?_, ?_, ?_, ?_, ?_, ?_⟩) | dsimp only)
theorem sound_clearTable (s : State) (h0 : Sound s) : Sound (clearTable s) := by
  unfold clearTable
  with_reducible (repeat' first
    | assumption | intro _ | apply Snd.ite | apply Snd.out | apply Tab.wf_filter | apply Tab.rising_filter | apply wf_nil
    | refine Snd.of (by assumption) ?_ | simp only [Snd.lit] | apply Sound.regs | apply Sound.flash | apply Sound.keeping | apply Sound.sdram
    | apply Sound.stage | apply Sound.porch | apply Sound.hwRam | apply Sound.bufEcc | apply Sound.keepEcc | apply Sound.hwEcc
    | (simp only [Sound.lit_iff]; refine ⟨?_, ?_, ?_, ?_, ?_, ?_, ?_, ?_, ?_, ?_⟩) | dsimp only)
theorem sound_loadSeal (s : State) (h0 : Sound s) : Sound (loadSeal s) := by
  unfold loadSeal
  with_reducible (repeat' first
    | assumption | intro _ | apply sound_loadRegion | apply sound_clearTable | apply sound_State_on | apply Sound.ite | apply Sound.foldl
    | apply Snd.ite | apply Snd.foldl | apply Snd.out | apply wf_nil | split | refine Snd.of (by assumption) ?_ | simp only [Snd.lit]
    | apply Sound.regs | apply Sound.flash | apply Sound.keeping | apply Sound.sdram | apply Sound.stage | apply Sound.porch | apply Sound.hwRam
    | apply Sound.bufEcc | apply Sound.keepEcc | apply Sound.hwEcc | (simp only [Sound.lit_iff]; refine ⟨?_, ?_, ?_, ?_, ?_, ?_, ?_, ?_, ?_, ?_⟩)
    | dsimp only)
theorem sound_startLaser (n : Nat) (s : State) (h1 : Sound s) : Sound (startLaser n s) := by
  unfold startLaser
  with_reducible (repeat' first
    | assumption | apply sound_State_wr | apply sound_State_on | apply sound_putFront | apply sound_unitRequest | apply sound_State_rstAll
    | apply Sound.ite | apply Snd.ite | apply Snd.out | split | refine Snd.of (by assumption) ?_ | simp only [Snd.lit] | apply Sound.regs
    | apply Sound.flash | apply Sound.keeping | apply Sound.sdram | apply Sound.stage | apply Sound.porch | apply Sound.hwRam | apply Sound.bufEcc
    | apply Sound.keepEcc | apply Sound.hwEcc | (simp only [Sound.lit_iff]; refine ⟨?_, ?_, ?_, ?_, ?_, ?_, ?_, ?_, ?_, ?_⟩) | dsimp only)
theorem sound_selectLaser (n : Nat) (v : Nat) (s : State) (h2 : Sound s) : Sound (selectLaser n v s) := by
  unfold selectLaser
  with_reducible (repeat' first
    | assumption | apply sound_laserDark | apply sound_State_wr | apply sound_State_on | apply sound_occur | apply sound_startLaser | apply Sound.ite
    | split | dsimp only)
theorem sound_execLaserSelect (slot : Fin 8) (drum : Fin 2) (select : Fin 4) (s : State) (h3 : Sound s) : SoundRes (execLaserSelect slot drum select s) := by
  unfold execLaserSelect
  with_reducible (repeat' first
    | assumption | intro _ | apply sound_completes | apply sound_guardWrite | apply sound_selectLaser | dsimp only)
theorem sound_showLaser (n : Nat) (monitor : Nat) (drive : Nat) (s : State) (h3 : Sound s) : Sound (showLaser n monitor drive s) := by
  unfold showLaser
  with_reducible (repeat' first
    | assumption | apply sound_State_wr | dsimp only)
theorem sound_execLaserRampDone (drum : Fin 2) (monitor : Nat) (drive : Nat) (s : State) (h3 : Sound s) : SoundRes (execLaserRampDone drum monitor drive s) := by
  unfold execLaserRampDone
  with_reducible (repeat' first
    | assumption | apply sound_completes | apply sound_showLaser | apply sound_State_wr | apply Sound.ite | split | dsimp only)
theorem sound_laserFault (n : Nat) (s : State) (h1 : Sound s) : Sound (laserFault n s) := by
  unfold laserFault
  with_reducible (repeat' first
    | assumption | apply sound_occur | apply sound_laserOff | dsimp only)
theorem sound_execLaserRampTimeout (drum : Fin 2) (s : State) (h1 : Sound s) : SoundRes (execLaserRampTimeout drum s) := by
  unfold execLaserRampTimeout
  with_reducible (repeat' first
    | assumption | apply sound_completes | apply sound_laserFault | apply Sound.ite | split | dsimp only)
theorem sound_execLaserMonitorFault (drum : Fin 2) (monitor : Nat) (drive : Nat) (s : State) (h3 : Sound s) : SoundRes (execLaserMonitorFault drum monitor drive s) := by
  unfold execLaserMonitorFault
  with_reducible (repeat' first
    | assumption | apply sound_completes | apply sound_laserFault | apply sound_showLaser | apply Sound.ite | split | dsimp only)
theorem sound_execLaserPermitFall (drum : Fin 2) (s : State) (h1 : Sound s) : SoundRes (execLaserPermitFall drum s) := by
  unfold execLaserPermitFall
  with_reducible (repeat' first
    | assumption | apply sound_senses | apply sound_State_off | apply sound_laserOff | apply Sound.ite | split | dsimp only)
theorem sound_execLaserPermitRise (drum : Fin 2) (s : State) (h1 : Sound s) : SoundRes (execLaserPermitRise drum s) := by
  unfold execLaserPermitRise
  with_reducible (repeat' first
    | assumption | apply sound_always | apply sound_State_on | apply Sound.ite | split | dsimp only)
theorem sound_execRfGainAdjust (drum : Fin 2) (envelope : Nat) (gain : Nat) (s : State) (h3 : Sound s) : SoundRes (execRfGainAdjust drum envelope gain s) := by
  unfold execRfGainAdjust
  with_reducible (repeat' first
    | assumption | apply sound_completes | apply sound_State_wr | apply Sound.ite | split | dsimp only)
theorem sound_execRfLevel (drum : Fin 2) (envelope : Nat) (s : State) (h2 : Sound s) : SoundRes (execRfLevel drum envelope s) := by
  unfold execRfLevel
  with_reducible (repeat' first
    | assumption | apply sound_completes | apply sound_occur | apply sound_State_wr | apply Sound.ite | split | dsimp only)
theorem sound_execCoilForce (slot : Fin 8) (drum : Fin 2) (coil : Fin 3) (code : Nat) (s : State) (h4 : Sound s) : SoundRes (execCoilForce slot drum coil code s) := by
  unfold execCoilForce
  with_reducible (repeat' first
    | assumption | intro _ | apply sound_completes | apply sound_guardWrite | apply sound_State_on | apply sound_State_wr | apply Sound.ite | split
    | dsimp only)
theorem sound_execCoilOvercurrent (drum : Fin 2) (limiting : Fin 8) (s : State) (h2 : Sound s) : SoundRes (execCoilOvercurrent drum limiting s) := by
  unfold execCoilOvercurrent
  with_reducible (repeat' first
    | assumption | intro _ | apply sound_completes | apply sound_occur | apply sound_State_wr | apply Sound.ite | apply Sound.foldl | apply Snd.ite
    | apply Snd.foldl | apply Snd.out | split | refine Snd.of (by assumption) ?_ | simp only [Snd.lit] | dsimp only)
theorem sound_execCoilOpen (drum : Fin 2) (opened : Fin 8) (s : State) (h2 : Sound s) : SoundRes (execCoilOpen drum opened s) := by
  unfold execCoilOpen
  with_reducible (repeat' first
    | assumption | intro _ | apply sound_completes | apply sound_setCause | apply sound_State_wr | apply Sound.ite | apply Sound.foldl | apply Snd.ite
    | apply Snd.foldl | apply Snd.out | split | refine Snd.of (by assumption) ?_ | simp only [Snd.lit] | dsimp only)
theorem sound_lossEndsStroke (n : Nat) (src : Nat) (s : State) (h2 : Sound s) : Sound (lossEndsStroke n src s) := by
  unfold lossEndsStroke
  with_reducible (repeat' first
    | assumption | apply sound_failStroke | apply sound_retryEnd | apply Sound.ite | split | apply Sound.regs | apply Sound.flash
    | apply Sound.keeping | apply Sound.sdram | apply Sound.stage | apply Sound.porch | apply Sound.hwRam | apply Sound.bufEcc | apply Sound.keepEcc
    | apply Sound.hwEcc | (simp only [Sound.lit_iff]; refine ⟨?_, ?_, ?_, ?_, ?_, ?_, ?_, ?_, ?_, ?_⟩) | dsimp only)
theorem sound_execFocusLost (drum : Fin 2) (sum : Nat) (s : State) (h2 : Sound s) : SoundRes (execFocusLost drum sum s) := by
  unfold execFocusLost
  with_reducible (repeat' first
    | assumption | apply sound_completes | apply sound_lossEndsStroke | apply sound_occur | apply sound_react | apply sound_State_wr | apply Sound.ite
    | split | dsimp only)
theorem sound_execTrackLost (drum : Fin 2) (te : Nat) (s : State) (h2 : Sound s) : SoundRes (execTrackLost drum te s) := by
  unfold execTrackLost
  with_reducible (repeat' first
    | assumption | apply sound_completes | apply sound_lossEndsStroke | apply sound_occur | apply sound_react | apply sound_State_wr | apply Sound.ite
    | split | dsimp only)
theorem sound_rearm (n : Nat) (s : State) (h1 : Sound s) : Sound (rearm n s) := by
  unfold rearm
  with_reducible (repeat' first
    | assumption | apply sound_putFront | apply Sound.ite | split | apply Sound.regs | apply Sound.flash | apply Sound.keeping | apply Sound.sdram
    | apply Sound.stage | apply Sound.porch | apply Sound.hwRam | apply Sound.bufEcc | apply Sound.keepEcc | apply Sound.hwEcc
    | (simp only [Sound.lit_iff]; refine ⟨?_, ?_, ?_, ?_, ?_, ?_, ?_, ?_, ?_, ?_⟩) | dsimp only)
theorem sound_acquire (n : Nat) (laser : Nat) (s : State) (h2 : Sound s) : Sound (acquire n laser s) := by
  unfold acquire
  with_reducible (repeat' first
    | assumption | apply sound_selectLaser | apply sound_failStroke | apply sound_rearm | apply Sound.ite | split | dsimp only)
theorem sound_writeLossCtrl (n : Nat) (value : Nat) (s : State) (h2 : Sound s) : Sound (writeLossCtrl n value s) := by
  unfold writeLossCtrl
  with_reducible (repeat' first
    | assumption | apply sound_State_wr | apply sound_rearm | apply Sound.ite | split | dsimp only)
theorem sound_execRearm (slot : Fin 8) (drum : Fin 2) (value : Nat) (s : State) (h3 : Sound s) : SoundRes (execRearm slot drum value s) := by
  unfold execRearm
  with_reducible (repeat' first
    | assumption | intro _ | apply sound_completes | apply sound_guardWrite | apply sound_writeLossCtrl | dsimp only)
theorem sound_execReactionEnd (drum : Fin 2) (sum : Nat) (te : Nat) (s : State) (h3 : Sound s) : SoundRes (execReactionEnd drum sum te s) := by
  unfold execReactionEnd
  with_reducible (repeat' first
    | assumption | apply sound_State_wr | apply sound_completes | apply sound_putFront | apply sound_react | apply sound_rearm | apply sound_State_off
    | apply Sound.ite | split | apply Sound.regs | apply Sound.flash | apply Sound.keeping | apply Sound.sdram | apply Sound.stage | apply Sound.porch
    | apply Sound.hwRam | apply Sound.bufEcc | apply Sound.keepEcc | apply Sound.hwEcc
    | (simp only [Sound.lit_iff]; refine ⟨?_, ?_, ?_, ?_, ?_, ?_, ?_, ?_, ?_, ?_⟩) | dsimp only)
theorem sound_execVmRange (drum : Fin 2) (s : State) (h1 : Sound s) : SoundRes (execVmRange drum s) := by
  unfold execVmRange
  with_reducible (repeat' first
    | assumption | apply sound_completes | apply sound_laserOff | apply sound_cutTray | apply sound_cutSled | apply sound_State_off
    | apply sound_cutSpin | apply sound_setCause | apply Sound.ite | split | dsimp only)
theorem sound_execVmRestore (drum : Fin 2) (s : State) (h1 : Sound s) : SoundRes (execVmRestore drum s) := by
  unfold execVmRestore
  with_reducible (repeat' first
    | assumption | apply sound_completes | apply sound_setCause | apply sound_State_on | apply Sound.ite | split | dsimp only)
theorem sound_execDriverThermal (drum : Fin 2) (group : Fin 5) (s : State) (h2 : Sound s) : SoundRes (execDriverThermal drum group s) := by
  unfold execDriverThermal
  with_reducible (repeat' first
    | assumption | apply sound_completes | apply sound_State_wr | apply sound_cutSled | apply sound_cutTray | apply sound_laserOff
    | apply sound_cutSpin | apply sound_occur | apply Sound.ite | split | dsimp only)
theorem sound_execDriverCooled (drum : Fin 2) (group : Fin 5) (s : State) (h2 : Sound s) : SoundRes (execDriverCooled drum group s) := by
  unfold execDriverCooled
  with_reducible (repeat' first
    | assumption | apply sound_completes | apply sound_State_wr | dsimp only)
theorem sound_execCalWrite (slot : Fin 8) (drum : Fin 2) (index : Fin 8) (value : Nat) (s : State) (h4 : Sound s) : SoundRes (execCalWrite slot drum index value s) := by
  unfold execCalWrite
  with_reducible (repeat' first
    | assumption | intro _ | apply sound_completes | apply sound_guardWrite | apply sound_State_wr | apply sound_State_on | apply Sound.ite | split
    | dsimp only)
theorem sound_execSledPhaseFault (drum : Fin 2) (present : Bool) (s : State) (h2 : Sound s) : SoundRes (execSledPhaseFault drum present s) := by
  unfold execSledPhaseFault
  with_reducible (repeat' first
    | assumption | apply sound_completes | apply sound_setCause | apply sound_cutSled | apply Sound.ite | split | dsimp only)
theorem sound_execTrayCurrentLimit (drum : Fin 2) (s : State) (h1 : Sound s) : SoundRes (execTrayCurrentLimit drum s) := by
  unfold execTrayCurrentLimit
  with_reducible (repeat' first
    | assumption | apply sound_completes | apply sound_occur | apply Sound.ite | split | dsimp only)
theorem sound_takeSeed (b : Nat) (a : Nat) (x : Option SeedRead) (s : State) (h3 : Sound s) : Sound (takeSeed b a x s) := by
  unfold takeSeed
  with_reducible (repeat' first
    | assumption | intro _ | apply sound_State_wr | apply sound_wrList | apply sound_occur | apply Sound.ite | split | dsimp only)
theorem sound_readSeed (b : Nat) (a : Nat) (x : Option SeedRead) (s : State) (h3 : Sound s) : Sound (readSeed b a x s) := by
  unfold readSeed
  with_reducible (repeat' first
    | assumption | apply sound_State_emit | apply Sound.ite | split | dsimp only)
theorem sound_scanSeed (b : Nat) (a : Nat) (x : Option SeedRead) (s : State) (h3 : Sound s) : Sound (scanSeed b a x s) := by
  unfold scanSeed
  with_reducible (repeat' first
    | assumption | apply sound_takeSeed | apply sound_readSeed | apply sound_State_emit | dsimp only)
theorem sound_showHeldTiles (s : State) (h0 : Sound s) : Sound (showHeldTiles s) := by
  unfold showHeldTiles
  with_reducible (repeat' first
    | assumption | intro _ | apply sound_State_wr | apply Sound.foldl | apply Snd.ite | apply Snd.foldl | apply Snd.out
    | refine Snd.of (by assumption) ?_ | simp only [Snd.lit] | dsimp only)
theorem sound_holdTiles (a : Nat) (mask : Nat) (s : State) (h2 : Sound s) : Sound (holdTiles a mask s) := by
  unfold holdTiles
  with_reducible (repeat' first
    | assumption | apply sound_showHeldTiles | apply Tab.wf_put | apply Sound.regs | apply Sound.flash | apply Sound.keeping | apply Sound.sdram
    | apply Sound.stage | apply Sound.porch | apply Sound.hwRam | apply Sound.bufEcc | apply Sound.keepEcc | apply Sound.hwEcc
    | (simp only [Sound.lit_iff]; refine ⟨?_, ?_, ?_, ?_, ?_, ?_, ?_, ?_, ?_, ?_⟩) | dsimp only)
theorem sound_holdTrunk (s : State) (h0 : Sound s) : Sound (holdTrunk s) := by
  unfold holdTrunk
  with_reducible (repeat' first
    | assumption | intro _ | apply sound_setPort | apply sound_putTrunk | apply sound_State_on | apply Sound.foldl | apply Snd.ite | apply Snd.foldl
    | apply Snd.out | refine Snd.of (by assumption) ?_ | simp only [Snd.lit] | dsimp only)
theorem sound_holdUnit (b : Nat) (a : Nat) (mask : Nat) (s : State) (h3 : Sound s) : Sound (holdUnit b a mask s) := by
  unfold holdUnit
  with_reducible (repeat' first
    | assumption | apply sound_State_on | apply sound_State_wr | apply sound_holdTiles | apply sound_holdTrunk | apply Sound.ite | split | dsimp only)
theorem sound_compareSeed (b : Nat) (a : Nat) (s : State) (h2 : Sound s) : Sound (compareSeed b a s) := by
  unfold compareSeed
  with_reducible (repeat' first
    | assumption | apply sound_State_on | apply sound_State_wr | apply sound_holdUnit | apply sound_occur | apply Sound.ite | split | dsimp only)
theorem sound_compareSeeds (s : State) (h0 : Sound s) : Sound (compareSeeds s) := by
  unfold compareSeeds
  with_reducible (repeat' first
    | assumption | intro _ | apply sound_compareSeed | apply Sound.foldl | apply Snd.ite | apply Snd.foldl | apply Snd.out
    | refine Snd.of (by assumption) ?_ | simp only [Snd.lit] | dsimp only)
theorem sound_applyBackplane (s : State) (h0 : Sound s) : Sound (applyBackplane s) := by
  unfold applyBackplane
  with_reducible (repeat' first
    | assumption | intro _ | apply sound_State_off | apply sound_State_wr | apply sound_State_on | apply sound_syncTrunk | apply sound_setPort
    | apply sound_putTrunk | apply sound_laneLost | apply Sound.ite | apply Sound.foldl | apply Snd.ite | apply Snd.foldl | apply Snd.out | split
    | refine Snd.of (by assumption) ?_ | simp only [Snd.lit] | dsimp only)
theorem sound_seedEvent (b : Nat) (a : Nat) (s : State) (h2 : Sound s) : Sound (seedEvent b a s) := by
  unfold seedEvent
  with_reducible (repeat' first
    | assumption | apply sound_extendEvent | dsimp only)
theorem sound_closeSeeds (s : State) (h0 : Sound s) : Sound (closeSeeds s) := by
  unfold closeSeeds
  with_reducible (repeat' first
    | assumption | intro _ | apply sound_extendEvent | apply Sound.ite | apply Sound.foldl | apply Snd.ite | apply Snd.foldl | apply Snd.out | split
    | refine Snd.of (by assumption) ?_ | simp only [Snd.lit] | dsimp only)
theorem sound_execIdbScan (reads : List (Fin 4 × Fin 8 × SeedRead)) (s : State) (h1 : Sound s) : SoundRes (execIdbScan reads s) := by
  unfold execIdbScan
  with_reducible (repeat' first
    | assumption | intro _ | apply sound_completes | apply sound_compareSeeds | apply sound_scanSeed | apply sound_closeSeeds | apply sound_seedEvent
    | apply sound_applyBackplane | apply sound_State_on | apply Sound.ite | apply Sound.foldl | apply Snd.ite | apply Snd.foldl | apply Snd.out
    | split | refine Snd.of (by assumption) ?_ | simp only [Snd.lit] | dsimp only)
theorem sound_execIdbLineTimeout (bus : Fin 4) (s : State) (h1 : Sound s) : SoundRes (execIdbLineTimeout bus s) := by
  unfold execIdbLineTimeout
  with_reducible (repeat' first
    | assumption | intro _ | apply sound_completes | apply sound_State_emit | apply Sound.ite | apply Snd.ite | apply Snd.out | split
    | refine Snd.of (by assumption) ?_ | simp only [Snd.lit] | apply Sound.regs | apply Sound.flash | apply Sound.keeping | apply Sound.sdram
    | apply Sound.stage | apply Sound.porch | apply Sound.hwRam | apply Sound.bufEcc | apply Sound.keepEcc | apply Sound.hwEcc
    | (simp only [Sound.lit_iff]; refine ⟨?_, ?_, ?_, ?_, ?_, ?_, ?_, ?_, ?_, ?_⟩) | dsimp only)
theorem sound_applyBoard (t : Nat) (s : State) (h1 : Sound s) : Sound (applyBoard t s) := by
  unfold applyBoard
  with_reducible (repeat' first
    | assumption | apply sound_State_on | apply sound_State_wr | apply sound_putTc | apply sound_State_rstAll | split | apply Sound.regs
    | apply Sound.flash | apply Sound.keeping | apply Sound.sdram | apply Sound.stage | apply Sound.porch | apply Sound.hwRam | apply Sound.bufEcc
    | apply Sound.keepEcc | apply Sound.hwEcc | (simp only [Sound.lit_iff]; refine ⟨?_, ?_, ?_, ?_, ?_, ?_, ?_, ?_, ?_, ?_⟩) | dsimp only)
theorem sound_releaseBoard (a : Nat) (s : State) (h1 : Sound s) : Sound (releaseBoard a s) := by
  unfold releaseBoard
  with_reducible (repeat' first
    | assumption | intro _ | apply sound_State_wr | apply sound_holdUnit | apply sound_applyBoard | apply sound_tileOut | apply Sound.ite
    | apply Sound.foldl | apply Snd.ite | apply Snd.foldl | apply Snd.out | split | refine Snd.of (by assumption) ?_ | simp only [Snd.lit]
    | dsimp only)
theorem sound_idbCmd (op : Nat) (bus : Nat) (a : Nat) (s : State) (h3 : Sound s) : Sound (idbCmd op bus a s) := by
  unfold idbCmd
  with_reducible (repeat' first
    | assumption | apply sound_State_on | apply sound_releaseBoard | apply sound_State_emit | apply Sound.ite | split | apply Sound.regs
    | apply Sound.flash | apply Sound.keeping | apply Sound.sdram | apply Sound.stage | apply Sound.porch | apply Sound.hwRam | apply Sound.bufEcc
    | apply Sound.keepEcc | apply Sound.hwEcc | (simp only [Sound.lit_iff]; refine ⟨?_, ?_, ?_, ?_, ?_, ?_, ?_, ?_, ?_, ?_⟩) | dsimp only)
theorem sound_idbWrite (slot : Nat) (op : Nat) (bus : Nat) (a : Nat) (s : State) (h4 : Sound s) : Sound (idbWrite slot op bus a s) := by
  unfold idbWrite
  with_reducible (repeat' first
    | assumption | intro _ | apply sound_guardWrite | apply sound_idbCmd | dsimp only)
theorem sound_execRelease (slot : Fin 8) (bus : Fin 4) (address : Fin 8) (s : State) (h3 : Sound s) : SoundRes (execRelease slot bus address s) := by
  unfold execRelease
  with_reducible (repeat' first
    | assumption | apply sound_completes | apply sound_idbWrite | dsimp only)
theorem sound_execRescan (slot : Fin 8) (bus : Fin 4) (address : Fin 8) (s : State) (h3 : Sound s) : SoundRes (execRescan slot bus address s) := by
  unfold execRescan
  with_reducible (repeat' first
    | assumption | apply sound_completes | apply sound_idbWrite | dsimp only)
theorem sound_execIdbCmdRefused (slot : Fin 8) (op : Fin 4) (bus : Fin 4) (address : Fin 8) (s : State) (h4 : Sound s) : SoundRes (execIdbCmdRefused slot op bus address s) := by
  unfold execIdbCmdRefused
  with_reducible (repeat' first
    | assumption | apply sound_completes | apply sound_idbWrite | dsimp only)
theorem sound_failOrRetry (c : Nat) (spent : State → State) (s : State) (h1 : ∀ y0, Sound y0 → Sound (spent y0)) (h2 : Sound s) : Sound (failOrRetry c spent s) := by
  unfold failOrRetry
  with_reducible (repeat' first
    | assumption | intro _ | apply sound_occur | apply sound_retryEnd | apply h1 | apply Sound.ite | split | apply Sound.regs | apply Sound.flash
    | apply Sound.keeping | apply Sound.sdram | apply Sound.stage | apply Sound.porch | apply Sound.hwRam | apply Sound.bufEcc | apply Sound.keepEcc
    | apply Sound.hwEcc | (simp only [Sound.lit_iff]; refine ⟨?_, ?_, ?_, ?_, ?_, ?_, ?_, ?_, ?_, ?_⟩) | dsimp only)
theorem sound_putRail (r : Nat) (x : Rail) (s : State) (h2 : Sound s) : Sound (putRail r x s) := by
  unfold putRail
  with_reducible (repeat' first
    | assumption | apply Sound.ite | split | apply Sound.regs | apply Sound.flash | apply Sound.keeping | apply Sound.sdram | apply Sound.stage
    | apply Sound.porch | apply Sound.hwRam | apply Sound.bufEcc | apply Sound.keepEcc | apply Sound.hwEcc
    | (simp only [Sound.lit_iff]; refine ⟨?_, ?_, ?_, ?_, ?_, ?_, ?_, ?_, ?_, ?_⟩) | dsimp only)
theorem sound_showPgood (r : Nat) (b : Bool) (s : State) (h2 : Sound s) : Sound (showPgood r b s) := by
  unfold showPgood
  with_reducible (repeat' first
    | assumption | apply sound_State_wrB | apply Sound.ite | split | dsimp only)
theorem sound_memFailed (s : State) (h0 : Sound s) : Sound (memFailed s) := by
  unfold memFailed
  with_reducible (repeat' first
    | assumption | apply sound_setCause | apply sound_State_wr | dsimp only)
theorem sound_startRelock (g : Nat) (s : State) (h1 : Sound s) : Sound (startRelock g s) := by
  unfold startRelock
  with_reducible (repeat' first
    | assumption | apply sound_State_bump | apply sound_State_wr | dsimp only)
theorem sound_setTarget (r : Nat) (s : State) (h1 : Sound s) : Sound (setTarget r s) := by
  unfold setTarget
  with_reducible (repeat' first
    | assumption | apply sound_State_wr | apply sound_State_wrB | dsimp only)
theorem sound_tempoNext (r : Nat) : ∀ (z1 : Nat) (z2 : State) (h2 : Sound z2), Sound (tempoNext r z1 z2) := by
  intro z1
  induction z1 with
  | zero =>
    intros
    unfold tempoNext
    with_reducible (repeat' first
      | assumption | apply sound_putRail | apply sound_State_wr | apply sound_startRelock | apply Sound.ite | split | apply Sound.regs
      | apply Sound.flash | apply Sound.keeping | apply Sound.sdram | apply Sound.stage | apply Sound.porch | apply Sound.hwRam | apply Sound.bufEcc
      | apply Sound.keepEcc | apply Sound.hwEcc | (simp only [Sound.lit_iff]; refine ⟨?_, ?_, ?_, ?_, ?_, ?_, ?_, ?_, ?_, ?_⟩) | dsimp only)
  | succ _ ih =>
    intros
    unfold tempoNext
    with_reducible (repeat' first
      | assumption | apply sound_putRail | apply sound_State_wr | apply sound_startRelock | apply ih | apply Sound.ite | split | apply Sound.regs
      | apply Sound.flash | apply Sound.keeping | apply Sound.sdram | apply Sound.stage | apply Sound.porch | apply Sound.hwRam | apply Sound.bufEcc
      | apply Sound.keepEcc | apply Sound.hwEcc | (simp only [Sound.lit_iff]; refine ⟨?_, ?_, ?_, ?_, ?_, ?_, ?_, ?_, ?_, ?_⟩) | dsimp only)
theorem sound_tempoUpdate (r : Nat) (s : State) (h1 : Sound s) : Sound (tempoUpdate r s) := by
  unfold tempoUpdate
  with_reducible (repeat' first
    | assumption | intro _ | apply sound_setTarget | apply sound_tempoNext | apply sound_retryEnd | apply Sound.ite | split | dsimp only)
theorem sound_retryFailed (r : Nat) (s : State) (h1 : Sound s) : Sound (retryFailed r s) := by
  unfold retryFailed
  with_reducible (repeat' first
    | assumption | apply sound_startRelock | apply sound_retryEnd | apply Sound.ite | split | dsimp only)
theorem sound_execTempoReqWrite (slot : Fin 8) (rail : Fin 3) (tempo : Fin 4) (s : State) (h3 : Sound s) : SoundRes (execTempoReqWrite slot rail tempo s) := by
  unfold execTempoReqWrite
  with_reducible (repeat' first
    | assumption | intro _ | apply sound_completes | apply sound_guardWrite | apply sound_retryFailed | apply sound_tempoUpdate | apply sound_State_wr
    | dsimp only)
theorem sound_enterHeld (r : Nat) (why : Nat) (s : State) (h2 : Sound s) : Sound (enterHeld r why s) := by
  unfold enterHeld
  with_reducible (repeat' first
    | assumption | apply sound_setCause | apply sound_putRail | apply sound_State_wr | apply Sound.regs | apply Sound.flash | apply Sound.keeping
    | apply Sound.sdram | apply Sound.stage | apply Sound.porch | apply Sound.hwRam | apply Sound.bufEcc | apply Sound.keepEcc | apply Sound.hwEcc
    | (simp only [Sound.lit_iff]; refine ⟨?_, ?_, ?_, ?_, ?_, ?_, ?_, ?_, ?_, ?_⟩) | dsimp only)
theorem sound_execPgoodFall (rail : Fin 3) (s : State) (h1 : Sound s) : SoundRes (execPgoodFall rail s) := by
  unfold execPgoodFall
  with_reducible (repeat' first
    | assumption | apply sound_senses | apply sound_showPgood | apply sound_State_off | apply sound_enterHeld | apply sound_putRail | apply Sound.ite
    | split | apply Sound.regs | apply Sound.flash | apply Sound.keeping | apply Sound.sdram | apply Sound.stage | apply Sound.porch
    | apply Sound.hwRam | apply Sound.bufEcc | apply Sound.keepEcc | apply Sound.hwEcc
    | (simp only [Sound.lit_iff]; refine ⟨?_, ?_, ?_, ?_, ?_, ?_, ?_, ?_, ?_, ?_⟩) | dsimp only)
theorem sound_execTempoPgoodRise (rise : PgoodRise) (s : State) (h1 : Sound s) : SoundRes (execTempoPgoodRise rise s) := by
  unfold execTempoPgoodRise
  with_reducible (repeat' first
    | assumption | apply sound_senses | apply sound_showPgood | apply sound_setCause | apply sound_State_on | apply sound_occur | apply sound_putRail
    | apply Sound.ite | split | apply Sound.regs | apply Sound.flash | apply Sound.keeping | apply Sound.sdram | apply Sound.stage | apply Sound.porch
    | apply Sound.hwRam | apply Sound.bufEcc | apply Sound.keepEcc | apply Sound.hwEcc
    | (simp only [Sound.lit_iff]; refine ⟨?_, ?_, ?_, ?_, ?_, ?_, ?_, ?_, ?_, ?_⟩) | dsimp only)
theorem sound_endHeld (r : Nat) (s : State) (h1 : Sound s) : Sound (endHeld r s) := by
  unfold endHeld
  with_reducible (repeat' first
    | assumption | intro _ | apply sound_putRail | apply sound_tempoNext | apply sound_setTarget | apply sound_State_wr | apply Sound.ite | split
    | apply Sound.regs | apply Sound.flash | apply Sound.keeping | apply Sound.sdram | apply Sound.stage | apply Sound.porch | apply Sound.hwRam
    | apply Sound.bufEcc | apply Sound.keepEcc | apply Sound.hwEcc | (simp only [Sound.lit_iff]; refine ⟨?_, ?_, ?_, ?_, ?_, ?_, ?_, ?_, ?_, ?_⟩)
    | dsimp only)
theorem sound_releaseDown (p : Nat × Nat → Bool) (s : State) (h1 : Sound s) : Sound (releaseDown p s) := by
  unfold releaseDown
  with_reducible (repeat' first
    | assumption | intro _ | apply sound_syncGens | apply sound_sampleRequest | apply Sound.foldl | apply Snd.ite | apply Snd.foldl | apply Snd.out
    | apply Tab.wf_filter | apply Tab.rising_filter | split | refine Snd.of (by assumption) ?_ | simp only [Snd.lit] | apply Sound.regs
    | apply Sound.flash | apply Sound.keeping | apply Sound.sdram | apply Sound.stage | apply Sound.porch | apply Sound.hwRam | apply Sound.bufEcc
    | apply Sound.keepEcc | apply Sound.hwEcc | (simp only [Sound.lit_iff]; refine ⟨?_, ?_, ?_, ?_, ?_, ?_, ?_, ?_, ?_, ?_⟩) | dsimp only)
theorem sound_railReady (r : Nat) (s : State) (h1 : Sound s) : Sound (railReady r s) := by
  unfold railReady
  with_reducible (repeat' first
    | assumption | intro _ | apply sound_releaseDown | apply Sound.ite | apply Snd.ite | apply Snd.out | split | refine Snd.of (by assumption) ?_
    | simp only [Snd.lit] | dsimp only)
theorem sound_settleExpire (rail : Fin 3) (s : State) (h1 : Sound s) : Sound (settleExpire rail s) := by
  unfold settleExpire
  with_reducible (repeat' first
    | assumption | intro _ | apply sound_putRail | apply sound_railReady | apply sound_tempoNext | apply sound_endHeld | apply sound_startRelock
    | apply Sound.ite | split | apply Sound.regs | apply Sound.flash | apply Sound.keeping | apply Sound.sdram | apply Sound.stage | apply Sound.porch
    | apply Sound.hwRam | apply Sound.bufEcc | apply Sound.keepEcc | apply Sound.hwEcc
    | (simp only [Sound.lit_iff]; refine ⟨?_, ?_, ?_, ?_, ?_, ?_, ?_, ?_, ?_, ?_⟩) | dsimp only)
theorem sound_execPgoodWaitTimeout (rail : Fin 3) (s : State) (h1 : Sound s) : SoundRes (execPgoodWaitTimeout rail s) := by
  unfold execPgoodWaitTimeout
  with_reducible (repeat' first
    | assumption | intro _ | apply sound_completes | apply sound_enterHeld | apply sound_tempoNext | apply sound_putRail | apply sound_setCause
    | apply Sound.ite | split | apply Sound.regs | apply Sound.flash | apply Sound.keeping | apply Sound.sdram | apply Sound.stage | apply Sound.porch
    | apply Sound.hwRam | apply Sound.bufEcc | apply Sound.keepEcc | apply Sound.hwEcc
    | (simp only [Sound.lit_iff]; refine ⟨?_, ?_, ?_, ?_, ?_, ?_, ?_, ?_, ?_, ?_⟩) | dsimp only)
theorem sound_execRelockLockAcquired (gen : Fin 6) (s : State) (h1 : Sound s) : SoundRes (execRelockLockAcquired gen s) := by
  unfold execRelockLockAcquired
  with_reducible (repeat' first
    | assumption | apply sound_completes | apply sound_State_wr | apply Sound.ite | split | dsimp only)
theorem sound_lockRail (g : Nat) (s : State) (h1 : Sound s) : Sound (lockRail g s) := by
  unfold lockRail
  with_reducible (repeat' first
    | assumption | intro _ | apply sound_tempoNext | apply sound_State_wr | apply sound_endHeld | apply Sound.ite | split | dsimp only)
theorem sound_relockHoldComplete (gen : Fin 6) (s : State) (h1 : Sound s) : Sound (relockHoldComplete gen s) := by
  unfold relockHoldComplete
  with_reducible (repeat' first
    | assumption | apply sound_retryEnd | apply sound_State_wr | apply sound_lockRail | apply sound_State_on | apply Sound.ite | split | dsimp only)
theorem sound_genFailed (g : Nat) (s : State) (h1 : Sound s) : Sound (genFailed g s) := by
  unfold genFailed
  with_reducible (repeat' first
    | assumption | apply sound_State_wr | apply sound_pruneChannel | apply sound_portClockLost | apply sound_pruneAll | apply sound_occurOnly
    | apply sound_memFailed | apply Sound.ite | split | dsimp only)
theorem sound_relockAttemptFailed (gen : Fin 6) (s : State) (h1 : Sound s) : Sound (relockAttemptFailed gen s) := by
  unfold relockAttemptFailed
  with_reducible (repeat' first
    | assumption | intro _ | apply sound_failOrRetry | apply sound_genFailed | apply sound_State_wr | apply Sound.ite | split | dsimp only)
theorem sound_execFrequencyMonitorTrip (gen : Fin 6) (s : State) (h1 : Sound s) : SoundRes (execFrequencyMonitorTrip gen s) := by
  unfold execFrequencyMonitorTrip
  with_reducible (repeat' first
    | assumption | apply sound_completes | apply sound_startRelock | apply sound_retryEnd | apply sound_occur | apply Sound.ite | split | dsimp only)
theorem sound_execQualificationWindow (count : Option Nat) (s : State) (h1 : Sound s) : SoundRes (execQualificationWindow count s) := by
  unfold execQualificationWindow
  with_reducible (repeat' first
    | assumption | apply sound_always | apply sound_setCause | apply sound_State_on | apply Sound.ite | split | apply Sound.regs | apply Sound.flash
    | apply Sound.keeping | apply Sound.sdram | apply Sound.stage | apply Sound.porch | apply Sound.hwRam | apply Sound.bufEcc | apply Sound.keepEcc
    | apply Sound.hwEcc | (simp only [Sound.lit_iff]; refine ⟨?_, ?_, ?_, ?_, ?_, ?_, ?_, ?_, ?_, ?_⟩) | dsimp only)
theorem sound_execXtalQualTimeout (s : State) (h0 : Sound s) : SoundRes (execXtalQualTimeout s) := by
  unfold execXtalQualTimeout
  with_reducible (repeat' first
    | assumption | apply sound_always | apply sound_setCause | apply Sound.ite | split | dsimp only)
theorem sound_execCrystalLost (s : State) (h0 : Sound s) : SoundRes (execCrystalLost s) := by
  unfold execCrystalLost
  with_reducible (repeat' first
    | assumption | apply sound_always | apply sound_setCause | apply sound_State_off | apply Sound.ite | split | apply Sound.regs | apply Sound.flash
    | apply Sound.keeping | apply Sound.sdram | apply Sound.stage | apply Sound.porch | apply Sound.hwRam | apply Sound.bufEcc | apply Sound.keepEcc
    | apply Sound.hwEcc | (simp only [Sound.lit_iff]; refine ⟨?_, ?_, ?_, ?_, ?_, ?_, ?_, ?_, ?_, ?_⟩) | dsimp only)
theorem sound_enterTray (n : Nat) (st : Nat) (s : State) (h2 : Sound s) : Sound (enterTray n st s) := by
  unfold enterTray
  with_reducible (repeat' first
    | assumption | apply sound_State_wr | apply sound_setIrqAll | apply sound_putSpin | apply sound_setDisc | apply Sound.ite | split
    | apply Sound.regs | apply Sound.flash | apply Sound.keeping | apply Sound.sdram | apply Sound.stage | apply Sound.porch | apply Sound.hwRam
    | apply Sound.bufEcc | apply Sound.keepEcc | apply Sound.hwEcc | (simp only [Sound.lit_iff]; refine ⟨?_, ?_, ?_, ?_, ?_, ?_, ?_, ?_, ?_, ?_⟩)
    | dsimp only)
theorem sound_trayFollow (n : Nat) (s : State) (h1 : Sound s) : Sound (trayFollow n s) := by
  unfold trayFollow
  with_reducible (repeat' first
    | assumption | apply sound_setCause | apply sound_enterTray | dsimp only)
theorem sound_domainOn (d : Nat) (test : DomTest) (s : State) (h2 : Sound s) : Sound (domainOn d test s) := by
  unfold domainOn
  with_reducible (repeat' first
    | assumption | apply sound_State_wr | apply sound_startRelock | apply sound_retryEnd | apply sound_State_wrB | apply sound_occur
    | apply sound_State_rst | apply sound_trayFollow | apply sound_setCause | apply Sound.ite | split | dsimp only)
theorem sound_fellOff (d : Nat) (s : State) (h1 : Sound s) : Sound (fellOff d s) := by
  unfold fellOff
  with_reducible (repeat' first
    | assumption | apply sound_State_wr | apply sound_bankOff | apply Sound.ite | apply wf_nil | split | apply Sound.regs | apply Sound.flash
    | apply Sound.keeping | apply Sound.sdram | apply Sound.stage | apply Sound.porch | apply Sound.hwRam | apply Sound.bufEcc | apply Sound.keepEcc
    | apply Sound.hwEcc | (simp only [Sound.lit_iff]; refine ⟨?_, ?_, ?_, ?_, ?_, ?_, ?_, ?_, ?_, ?_⟩) | dsimp only)
theorem sound_stepDomain (d : Nat) (test : DomTest) (s : State) (h2 : Sound s) : Sound (stepDomain d test s) := by
  unfold stepDomain
  with_reducible (repeat' first
    | assumption | apply sound_domainOn | apply sound_putStep | apply sound_putDom | apply sound_fellOff | apply sound_beginRise | apply sound_cutSled
    | apply sound_laserSleeps | apply Sound.ite | apply Snd.ite | apply Snd.out | split | refine Snd.of (by assumption) ?_ | simp only [Snd.lit]
    | dsimp only)
theorem sound_wakeRail (s : State) (r : Nat) (h0 : Sound s) : Sound (wakeRail s r) := by
  unfold wakeRail
  with_reducible (repeat' first
    | assumption | apply sound_putRail | apply sound_State_wr | apply Sound.ite | split | apply Sound.regs | apply Sound.flash | apply Sound.keeping
    | apply Sound.sdram | apply Sound.stage | apply Sound.porch | apply Sound.hwRam | apply Sound.bufEcc | apply Sound.keepEcc | apply Sound.hwEcc
    | (simp only [Sound.lit_iff]; refine ⟨?_, ?_, ?_, ?_, ?_, ?_, ?_, ?_, ?_, ?_⟩) | dsimp only)
theorem sound_undoPoint (point : Nat) (s : State) (h1 : Sound s) : Sound (undoPoint point s) := by
  unfold undoPoint
  with_reducible (repeat' first
    | assumption | apply sound_State_wr | apply sound_wakeRail | apply Sound.ite | apply Sound.foldl | apply Snd.ite | apply Snd.foldl | apply Snd.out
    | split | refine Snd.of (by assumption) ?_ | simp only [Snd.lit] | dsimp only)
theorem sound_reversePoint (point : Nat) (s : State) (h1 : Sound s) : Sound (reversePoint point s) := by
  unfold reversePoint
  with_reducible (repeat' first
    | assumption | intro _ | apply sound_undoPoint | apply sound_releaseDown | apply Snd.ite | apply Snd.out | refine Snd.of (by assumption) ?_
    | simp only [Snd.lit] | dsimp only)
theorem sound_advanceUnwind  : ∀ (z0 : Nat) (z1 : State) (h1 : Sound z1), Sound (advanceUnwind z0 z1) := by
  intro z0
  induction z0 with
  | zero =>
    intros
    unfold advanceUnwind
    with_reducible (repeat' first
      | assumption | apply sound_reversePoint | apply Sound.ite | split | apply Sound.regs | apply Sound.flash | apply Sound.keeping
      | apply Sound.sdram | apply Sound.stage | apply Sound.porch | apply Sound.hwRam | apply Sound.bufEcc | apply Sound.keepEcc | apply Sound.hwEcc
      | (simp only [Sound.lit_iff]; refine ⟨?_, ?_, ?_, ?_, ?_, ?_, ?_, ?_, ?_, ?_⟩) | dsimp only)
  | succ _ ih =>
    intros
    unfold advanceUnwind
    with_reducible (repeat' first
      | assumption | apply sound_reversePoint | apply ih | apply Sound.ite | split | apply Sound.regs | apply Sound.flash | apply Sound.keeping
      | apply Sound.sdram | apply Sound.stage | apply Sound.porch | apply Sound.hwRam | apply Sound.bufEcc | apply Sound.keepEcc | apply Sound.hwEcc
      | (simp only [Sound.lit_iff]; refine ⟨?_, ?_, ?_, ?_, ?_, ?_, ?_, ?_, ?_, ?_⟩) | dsimp only)
theorem sound_domainStep (domain : Nat) (test : DomTest) (s : State) (h2 : Sound s) : Sound (domainStep domain test s) := by
  unfold domainStep
  with_reducible (repeat' first
    | assumption | intro _ | apply sound_advanceUnwind | apply sound_syncGens | apply sound_admitWaiting | apply sound_stepDomain | dsimp only)
theorem sound_domainCmd (slot : Nat) (d : Nat) (on : Bool) (s : State) (h3 : Sound s) : Sound (domainCmd slot d on s) := by
  unfold domainCmd
  with_reducible (repeat' first
    | assumption | intro _ | apply sound_guardWrite | apply sound_State_on | apply sound_syncGens | apply sound_putReq | apply Sound.ite | split
    | dsimp only)
theorem sound_execDomainSetRequest (slot : Fin 8) (domain : Nat) (s : State) (h2 : Sound s) : SoundRes (execDomainSetRequest slot domain s) := by
  unfold execDomainSetRequest
  with_reducible (repeat' first
    | assumption | apply sound_completes | apply sound_domainCmd | dsimp only)
theorem sound_execDomainClearRequest (slot : Fin 8) (domain : Nat) (s : State) (h2 : Sound s) : SoundRes (execDomainClearRequest slot domain s) := by
  unfold execDomainClearRequest
  with_reducible (repeat' first
    | assumption | apply sound_completes | apply sound_domainCmd | dsimp only)
theorem sound_countMuffle (b : Nat) (s : State) (h1 : Sound s) : Sound (countMuffle b s) := by
  unfold countMuffle
  with_reducible (repeat' first
    | assumption | apply sound_setCause | apply sound_State_wr | apply Sound.ite | apply Tab.wf_put | apply wf_nil | split | apply Sound.regs
    | apply Sound.flash | apply Sound.keeping | apply Sound.sdram | apply Sound.stage | apply Sound.porch | apply Sound.hwRam | apply Sound.bufEcc
    | apply Sound.keepEcc | apply Sound.hwEcc | (simp only [Sound.lit_iff]; refine ⟨?_, ?_, ?_, ?_, ?_, ?_, ?_, ?_, ?_, ?_⟩) | dsimp only)
theorem sound_recordEnd (cause : Nat) (bell : Nat) (s : State) (h2 : Sound s) : Sound (recordEnd cause bell s) := by
  unfold recordEnd
  with_reducible (repeat' first
    | assumption | apply sound_State_wr | dsimp only)
theorem sound_beginUnwind (cause : Nat) (bell : Nat) (s : State) (h2 : Sound s) : Sound (beginUnwind cause bell s) := by
  unfold beginUnwind
  with_reducible (repeat' first
    | assumption | intro _ | apply sound_recordEnd | apply sound_State_bump | apply sound_advanceUnwind | apply sound_reversePoint | apply Sound.ite
    | split | apply Sound.regs | apply Sound.flash | apply Sound.keeping | apply Sound.sdram | apply Sound.stage | apply Sound.porch
    | apply Sound.hwRam | apply Sound.bufEcc | apply Sound.keepEcc | apply Sound.hwEcc
    | (simp only [Sound.lit_iff]; refine ⟨?_, ?_, ?_, ?_, ?_, ?_, ?_, ?_, ?_, ?_⟩) | dsimp only)
theorem sound_beginWake (bell : Nat) (s : State) (h1 : Sound s) : Sound (beginWake bell s) := by
  unfold beginWake
  with_reducible (repeat' first
    | assumption | intro _ | apply sound_recordEnd | apply sound_State_bump | apply sound_State_wr | apply sound_releaseDown | apply sound_wakeRail
    | apply Sound.foldl | apply Snd.ite | apply Snd.foldl | apply Snd.out | refine Snd.of (by assumption) ?_ | simp only [Snd.lit] | dsimp only)
theorem sound_ringBell (b : Nat) (cc : Bool) (s : State) (h2 : Sound s) : Sound (ringBell b cc s) := by
  unfold ringBell
  with_reducible (repeat' first
    | assumption | apply sound_State_wr | apply sound_countMuffle | apply sound_beginUnwind | apply sound_beginWake | apply Sound.ite | split
    | dsimp only)
theorem sound_execBellRing (bell : Fin 32) (cc : Bool) (s : State) (h2 : Sound s) : SoundRes (execBellRing bell cc s) := by
  unfold execBellRing
  with_reducible (repeat' first
    | assumption | apply sound_completes | apply sound_ringBell | dsimp only)
theorem sound_execMuffleCountReset (bell : Fin 32) (s : State) (h1 : Sound s) : SoundRes (execMuffleCountReset bell s) := by
  unfold execMuffleCountReset
  with_reducible (repeat' first
    | assumption | apply sound_completes | apply Sound.ite | apply Tab.wf_put | split | apply Sound.regs | apply Sound.flash | apply Sound.keeping
    | apply Sound.sdram | apply Sound.stage | apply Sound.porch | apply Sound.hwRam | apply Sound.bufEcc | apply Sound.keepEcc | apply Sound.hwEcc
    | (simp only [Sound.lit_iff]; refine ⟨?_, ?_, ?_, ?_, ?_, ?_, ?_, ?_, ?_, ?_⟩) | dsimp only)
theorem sound_execBellMuffledClear (slot : Fin 8) (bells : Nat) (s : State) (h2 : Sound s) : SoundRes (execBellMuffledClear slot bells s) := by
  unfold execBellMuffledClear
  with_reducible (repeat' first
    | assumption | intro _ | apply sound_completes | apply sound_guardWrite | apply sound_State_wr | apply sound_setCause | apply Sound.ite
    | apply Snd.ite | apply Snd.out | apply Tab.wf_filter | apply Tab.rising_filter | split | refine Snd.of (by assumption) ?_ | simp only [Snd.lit]
    | apply Sound.regs | apply Sound.flash | apply Sound.keeping | apply Sound.sdram | apply Sound.stage | apply Sound.porch | apply Sound.hwRam
    | apply Sound.bufEcc | apply Sound.keepEcc | apply Sound.hwEcc | (simp only [Sound.lit_iff]; refine ⟨?_, ?_, ?_, ?_, ?_, ?_, ?_, ?_, ?_, ?_⟩)
    | dsimp only)
theorem sound_execHostAccessInDormant (port : Fin 2) (write : Bool) (s : State) (h2 : Sound s) : SoundRes (execHostAccessInDormant port write s) := by
  unfold execHostAccessInDormant
  with_reducible (repeat' first
    | assumption | apply sound_completes | apply sound_ringBell | apply sound_State_emit | apply Sound.ite | split | dsimp only)
theorem sound_execMetroAlarm (s : State) (h0 : Sound s) : SoundRes (execMetroAlarm s) := by
  unfold execMetroAlarm
  with_reducible (repeat' first
    | assumption | apply sound_completes | apply sound_ringBell | apply sound_State_on | apply Sound.ite | split | dsimp only)
theorem sound_linkLoss (p : Nat) (s : State) (h1 : Sound s) : Sound (linkLoss p s) := by
  unfold linkLoss
  with_reducible (repeat' first
    | assumption | apply sound_occur | apply sound_linkLossState | dsimp only)
theorem sound_pump (p : Nat) (fuel : Nat) (s : State) (h2 : Sound s) : Sound (pump p fuel s) := by
  unfold pump
  with_reducible (repeat' first
    | assumption | intro _ | apply sound_fill | apply sound_occur | apply sound_putTrunk | apply sound_State_bump | apply Sound.ite | split
    | apply Sound.regs | apply Sound.flash | apply Sound.keeping | apply Sound.sdram | apply Sound.stage | apply Sound.porch | apply Sound.hwRam
    | apply Sound.bufEcc | apply Sound.keepEcc | apply Sound.hwEcc | (simp only [Sound.lit_iff]; refine ⟨?_, ?_, ?_, ?_, ?_, ?_, ?_, ?_, ?_, ?_⟩)
    | dsimp only)
theorem sound_pumpAll (s : State) (h0 : Sound s) : Sound (pumpAll s) := by
  unfold pumpAll
  with_reducible (repeat' first
    | assumption | intro _ | apply sound_pump | apply Sound.foldl | apply Snd.ite | apply Snd.foldl | apply Snd.out | refine Snd.of (by assumption) ?_
    | simp only [Snd.lit] | dsimp only)
theorem sound_resendFrom (p : Nat) (a : Nat) (s : State) (h2 : Sound s) : Sound (resendFrom p a s) := by
  unfold resendFrom
  with_reducible (repeat' first
    | assumption | intro _ | apply sound_linkLoss | apply sound_emitFrame | apply sound_State_bump | apply sound_putTrunk | apply Sound.ite
    | apply Sound.foldl | apply Snd.ite | apply Snd.foldl | apply Snd.out | apply Tab.wf_filter | apply Tab.rising_filter | split
    | refine Snd.of (by assumption) ?_ | simp only [Snd.lit] | apply Sound.regs | apply Sound.flash | apply Sound.keeping | apply Sound.sdram
    | apply Sound.stage | apply Sound.porch | apply Sound.hwRam | apply Sound.bufEcc | apply Sound.keepEcc | apply Sound.hwEcc
    | (simp only [Sound.lit_iff]; refine ⟨?_, ?_, ?_, ?_, ?_, ?_, ?_, ?_, ?_, ?_⟩) | dsimp only)
theorem sound_takeAck (p : Nat) (a : Nat) (s : State) (h2 : Sound s) : Sound (takeAck p a s) := by
  unfold takeAck
  with_reducible (repeat' first
    | assumption | apply sound_putTrunk | apply sound_State_wr | apply Sound.ite | split | apply Sound.regs | apply Sound.flash | apply Sound.keeping
    | apply Sound.sdram | apply Sound.stage | apply Sound.porch | apply Sound.hwRam | apply Sound.bufEcc | apply Sound.keepEcc | apply Sound.hwEcc
    | (simp only [Sound.lit_iff]; refine ⟨?_, ?_, ?_, ?_, ?_, ?_, ?_, ?_, ?_, ?_⟩) | dsimp only)
theorem sound_sendNak (p : Nat) (s : State) (h1 : Sound s) : Sound (sendNak p s) := by
  unfold sendNak
  with_reducible (repeat' first
    | assumption | apply sound_sendKeepalive | apply sound_putTrunk | apply sound_State_bump | apply Sound.ite | split | apply Sound.regs
    | apply Sound.flash | apply Sound.keeping | apply Sound.sdram | apply Sound.stage | apply Sound.porch | apply Sound.hwRam | apply Sound.bufEcc
    | apply Sound.keepEcc | apply Sound.hwEcc | (simp only [Sound.lit_iff]; refine ⟨?_, ?_, ?_, ?_, ?_, ?_, ?_, ?_, ?_, ?_⟩) | dsimp only)
theorem sound_authFails (p : Nat) (s : State) (h1 : Sound s) : Sound (authFails p s) := by
  unfold authFails
  with_reducible (repeat' first
    | assumption | apply sound_occur | apply sound_State_bump | dsimp only)
theorem sound_windowDiscard (p : Nat) (s : State) (h1 : Sound s) : Sound (windowDiscard p s) := by
  unfold windowDiscard
  with_reducible (repeat' first
    | assumption | apply sound_occur | apply sound_State_bump | dsimp only)
theorem sound_noteFc (p : Nat) (epoch : Nat) (fc : Nat) (s : State) (h3 : Sound s) : Sound (noteFc p epoch fc s) := by
  unfold noteFc
  with_reducible (repeat' first
    | assumption | apply sound_putTrunk | apply Sound.ite | apply Snd.ite | apply Snd.out | split | refine Snd.of (by assumption) ?_
    | simp only [Snd.lit] | apply Sound.regs | apply Sound.flash | apply Sound.keeping | apply Sound.sdram | apply Sound.stage | apply Sound.porch
    | apply Sound.hwRam | apply Sound.bufEcc | apply Sound.keepEcc | apply Sound.hwEcc
    | (simp only [Sound.lit_iff]; refine ⟨?_, ?_, ?_, ?_, ?_, ?_, ?_, ?_, ?_, ?_⟩) | dsimp only)
theorem sound_switchEpoch (p : Nat) (key : List Nat) (s : State) (h2 : Sound s) : Sound (switchEpoch p key s) := by
  unfold switchEpoch
  with_reducible (repeat' first
    | assumption | apply sound_putTrunk | apply Sound.ite | split | apply Sound.regs | apply Sound.flash | apply Sound.keeping | apply Sound.sdram
    | apply Sound.stage | apply Sound.porch | apply Sound.hwRam | apply Sound.bufEcc | apply Sound.keepEcc | apply Sound.hwEcc
    | (simp only [Sound.lit_iff]; refine ⟨?_, ?_, ?_, ?_, ?_, ?_, ?_, ?_, ?_, ?_⟩) | dsimp only)
theorem sound_openFrame (p : Nat) (ty : Nat) (b : List Nat) (s : State) (h3 : Sound s) : SoundOpened (openFrame p ty b s) := by
  unfold openFrame
  with_reducible (repeat' first
    | assumption | intro _ | apply sound_windowDiscard | apply sound_noteFc | apply sound_authFails | apply sound_switchEpoch | apply Sound.ite
    | apply Snd.ite | apply Snd.out | apply SoundOpened.drop | apply SoundOpened.good | apply SoundOpened.ite | split
    | refine Snd.of (by assumption) ?_ | refine SoundOpened.of1 (by assumption) ?_ | refine SoundOpened.of2 (by assumption) ?_ | simp only [Snd.lit]
    | dsimp only)
theorem sound_takeHeader (p : Nat) (f : List Nat) (s : State) (h2 : Sound s) : Sound (takeHeader p f s) := by
  unfold takeHeader
  with_reducible (repeat' first
    | assumption | apply sound_takeAck | apply sound_putTrunk | apply sound_resendFrom | apply sound_setPort | apply Sound.ite | split
    | apply Sound.regs | apply Sound.flash | apply Sound.keeping | apply Sound.sdram | apply Sound.stage | apply Sound.porch | apply Sound.hwRam
    | apply Sound.bufEcc | apply Sound.keepEcc | apply Sound.hwEcc | (simp only [Sound.lit_iff]; refine ⟨?_, ?_, ?_, ?_, ?_, ?_, ?_, ?_, ?_, ?_⟩)
    | dsimp only)
theorem sound_sequence (p : Nat) (f : List Nat) (s : State) (h2 : Sound s) : Snd (sequence p f s) := by
  unfold sequence
  with_reducible (repeat' first
    | assumption | apply sound_putTrunk | apply sound_State_wr | apply sound_sendNak | apply sound_sendKeepalive | apply sound_windowDiscard
    | apply Sound.ite | apply Snd.ite | apply Snd.out | split | refine Snd.of (by assumption) ?_ | simp only [Snd.lit] | apply Sound.regs
    | apply Sound.flash | apply Sound.keeping | apply Sound.sdram | apply Sound.stage | apply Sound.porch | apply Sound.hwRam | apply Sound.bufEcc
    | apply Sound.keepEcc | apply Sound.hwEcc | (simp only [Sound.lit_iff]; refine ⟨?_, ?_, ?_, ?_, ?_, ?_, ?_, ?_, ?_, ?_⟩) | dsimp only)
theorem sound_forwardFrame (p : Nat) (f : List Nat) (s : State) (h2 : Sound s) : Sound (forwardFrame p f s) := by
  unfold forwardFrame
  with_reducible (repeat' first
    | assumption | apply sound_freeBuffer | apply sound_State_bump | apply sound_enqueue | apply Sound.ite | split | dsimp only)
theorem sound_portTrained (p : Nat) (s : State) (h1 : Sound s) : Sound (portTrained p s) := by
  unfold portTrained
  with_reducible (repeat' first
    | assumption | intro _ | apply sound_retryEnd | apply sound_pump | apply sound_resendFrom | apply sound_setPort | apply sound_putTrunk
    | apply sound_State_drew | apply Sound.ite | apply Sound.foldl | apply Snd.ite | apply Snd.foldl | apply Snd.out | split
    | refine Snd.of (by assumption) ?_ | simp only [Snd.lit] | apply Sound.regs | apply Sound.flash | apply Sound.keeping | apply Sound.sdram
    | apply Sound.stage | apply Sound.porch | apply Sound.hwRam | apply Sound.bufEcc | apply Sound.keepEcc | apply Sound.hwEcc
    | (simp only [Sound.lit_iff]; refine ⟨?_, ?_, ?_, ?_, ?_, ?_, ?_, ?_, ?_, ?_⟩) | dsimp only)
theorem sound_putStepOf (p : Nat) (k : Nat) (s : State) (h2 : Sound s) : Sound (putStepOf p k s) := by
  unfold putStepOf
  with_reducible (repeat' first
    | assumption | apply sound_putTrunk | apply Sound.regs | apply Sound.flash | apply Sound.keeping | apply Sound.sdram | apply Sound.stage
    | apply Sound.porch | apply Sound.hwRam | apply Sound.bufEcc | apply Sound.keepEcc | apply Sound.hwEcc
    | (simp only [Sound.lit_iff]; refine ⟨?_, ?_, ?_, ?_, ?_, ?_, ?_, ?_, ?_, ?_⟩) | dsimp only)
theorem sound_execTrainingAttemptStart (port : Fin 4) (s : State) (h1 : Sound s) : SoundRes (execTrainingAttemptStart port s) := by
  unfold execTrainingAttemptStart
  with_reducible (repeat' first
    | assumption | intro _ | apply sound_completes | apply sound_putStepOf | apply Sound.ite | split | dsimp only)
theorem sound_attemptFails (p : Nat) (l : Nat) (s : State) (h2 : Sound s) : Sound (attemptFails p l s) := by
  unfold attemptFails
  with_reducible (repeat' first
    | assumption | intro _ | apply sound_failOrRetry | apply sound_State_wr | apply sound_widthChanges | apply sound_occur | apply sound_putStepOf
    | apply Sound.ite | split | dsimp only)
theorem sound_beginCheck (p : Nat) (s : State) (h1 : Sound s) : Sound (beginCheck p s) := by
  unfold beginCheck
  with_reducible (repeat' first
    | assumption | intro _ | apply sound_putLane | apply sound_putTrunk | apply Sound.foldl | apply Snd.ite | apply Snd.foldl | apply Snd.out
    | refine Snd.of (by assumption) ?_ | simp only [Snd.lit] | apply Sound.regs | apply Sound.flash | apply Sound.keeping | apply Sound.sdram
    | apply Sound.stage | apply Sound.porch | apply Sound.hwRam | apply Sound.bufEcc | apply Sound.keepEcc | apply Sound.hwEcc
    | (simp only [Sound.lit_iff]; refine ⟨?_, ?_, ?_, ?_, ?_, ?_, ?_, ?_, ?_, ?_⟩) | dsimp only)
theorem sound_execTrainingStepComplete (port : Fin 4) (s : State) (h1 : Sound s) : SoundRes (execTrainingStepComplete port s) := by
  unfold execTrainingStepComplete
  with_reducible (repeat' first
    | assumption | apply sound_completes | apply sound_putStepOf | apply sound_beginCheck | apply sound_attemptFails | apply sound_portTrained
    | apply Sound.ite | split | dsimp only)
theorem sound_execTrainingStepLimit (port : Fin 4) (lane : Option (Fin 4)) (s : State) (h2 : Sound s) : SoundRes (execTrainingStepLimit port lane s) := by
  unfold execTrainingStepLimit
  with_reducible (repeat' first
    | assumption | apply sound_completes | apply sound_attemptFails | apply Sound.ite | split | dsimp only)
theorem sound_execLaneReacquired (lane : Fin 4) (ok : Bool) (s : State) (h2 : Sound s) : SoundRes (execLaneReacquired lane ok s) := by
  unfold execLaneReacquired
  with_reducible (repeat' first
    | assumption | intro _ | apply sound_completes | apply sound_putLane | apply sound_setPort | apply sound_putStepOf | apply sound_retryEnd
    | apply sound_pump | apply sound_resendFrom | apply Sound.ite | split | apply Sound.regs | apply Sound.flash | apply Sound.keeping
    | apply Sound.sdram | apply Sound.stage | apply Sound.porch | apply Sound.hwRam | apply Sound.bufEcc | apply Sound.keepEcc | apply Sound.hwEcc
    | (simp only [Sound.lit_iff]; refine ⟨?_, ?_, ?_, ?_, ?_, ?_, ?_, ?_, ?_, ?_⟩) | dsimp only)
theorem sound_execLaneSignalLoss (lane : Fin 4) (s : State) (h1 : Sound s) : SoundRes (execLaneSignalLoss lane s) := by
  unfold execLaneSignalLoss
  with_reducible (repeat' first
    | assumption | apply sound_completes | apply sound_occur | apply sound_laneLost | apply Sound.ite | split | dsimp only)
theorem sound_badCodeword (p : Nat) (s : State) (h1 : Sound s) : Sound (badCodeword p s) := by
  unfold badCodeword
  with_reducible (repeat' first
    | assumption | apply sound_putTrunk | apply sound_occur | apply sound_laneLost | apply Sound.ite | split | apply Sound.regs | apply Sound.flash
    | apply Sound.keeping | apply Sound.sdram | apply Sound.stage | apply Sound.porch | apply Sound.hwRam | apply Sound.bufEcc | apply Sound.keepEcc
    | apply Sound.hwEcc | (simp only [Sound.lit_iff]; refine ⟨?_, ?_, ?_, ?_, ?_, ?_, ?_, ?_, ?_, ?_⟩) | dsimp only)
theorem sound_countCorrected (p : Nat) (received : List Nat) (symbols : List Nat) (s : State) (h3 : Sound s) : Sound (countCorrected p received symbols s) := by
  unfold countCorrected
  with_reducible (repeat' first
    | assumption | intro _ | apply sound_putLane | apply Sound.foldl | apply Snd.ite | apply Snd.foldl | apply Snd.out
    | refine Snd.of (by assumption) ?_ | simp only [Snd.lit] | apply Sound.regs | apply Sound.flash | apply Sound.keeping | apply Sound.sdram
    | apply Sound.stage | apply Sound.porch | apply Sound.hwRam | apply Sound.bufEcc | apply Sound.keepEcc | apply Sound.hwEcc
    | (simp only [Sound.lit_iff]; refine ⟨?_, ?_, ?_, ?_, ?_, ?_, ?_, ?_, ?_, ?_⟩) | dsimp only)
theorem sound_execCodewordReceived (port : Fin 4) (symbols : List Nat) (worst : Fin 4) (s : State) (h3 : Sound s) : SoundRes (execCodewordReceived port symbols worst s) := by
  unfold execCodewordReceived
  with_reducible (repeat' first
    | assumption | apply sound_completes | apply sound_putTrunk | apply sound_occur | apply sound_State_bump | apply sound_countCorrected
    | apply sound_badCodeword | apply Sound.ite | split | apply Sound.regs | apply Sound.flash | apply Sound.keeping | apply Sound.sdram
    | apply Sound.stage | apply Sound.porch | apply Sound.hwRam | apply Sound.bufEcc | apply Sound.keepEcc | apply Sound.hwEcc
    | (simp only [Sound.lit_iff]; refine ⟨?_, ?_, ?_, ?_, ?_, ?_, ?_, ?_, ?_, ?_⟩) | dsimp only)
theorem sound_execReplayTimeout (port : Fin 4) (s : State) (h1 : Sound s) : SoundRes (execReplayTimeout port s) := by
  unfold execReplayTimeout
  with_reducible (repeat' first
    | assumption | apply sound_putTrunk | apply sound_completes | apply sound_resendFrom | apply Sound.ite | split | apply Sound.regs
    | apply Sound.flash | apply Sound.keeping | apply Sound.sdram | apply Sound.stage | apply Sound.porch | apply Sound.hwRam | apply Sound.bufEcc
    | apply Sound.keepEcc | apply Sound.hwEcc | (simp only [Sound.lit_iff]; refine ⟨?_, ?_, ?_, ?_, ?_, ?_, ?_, ?_, ?_, ?_⟩) | dsimp only)
theorem sound_execEpochChange (port : Fin 4) (s : State) (h1 : Sound s) : SoundRes (execEpochChange port s) := by
  unfold execEpochChange
  with_reducible (repeat' first
    | assumption | apply sound_completes | apply sound_linkLoss | apply sound_occur | apply sound_setFc | apply sound_putTrunk | apply sound_State_wr
    | apply Sound.ite | split | apply Sound.regs | apply Sound.flash | apply Sound.keeping | apply Sound.sdram | apply Sound.stage | apply Sound.porch
    | apply Sound.hwRam | apply Sound.bufEcc | apply Sound.keepEcc | apply Sound.hwEcc
    | (simp only [Sound.lit_iff]; refine ⟨?_, ?_, ?_, ?_, ?_, ?_, ?_, ?_, ?_, ?_⟩) | dsimp only)
theorem sound_execOldKeyRetire (port : Fin 4) (s : State) (h1 : Sound s) : SoundRes (execOldKeyRetire port s) := by
  unfold execOldKeyRetire
  with_reducible (repeat' first
    | assumption | apply sound_completes | apply sound_putTrunk | apply Sound.regs | apply Sound.flash | apply Sound.keeping | apply Sound.sdram
    | apply Sound.stage | apply Sound.porch | apply Sound.hwRam | apply Sound.bufEcc | apply Sound.keepEcc | apply Sound.hwEcc
    | (simp only [Sound.lit_iff]; refine ⟨?_, ?_, ?_, ?_, ?_, ?_, ?_, ?_, ?_, ?_⟩) | dsimp only)
theorem sound_execKeepaliveDue (port : Fin 4) (s : State) (h1 : Sound s) : SoundRes (execKeepaliveDue port s) := by
  unfold execKeepaliveDue
  with_reducible (repeat' first
    | assumption | apply sound_completes | apply sound_pump | apply sound_sendKeepalive | apply Sound.ite | split | dsimp only)
theorem sound_execKeepaliveDeadline (port : Fin 4) (s : State) (h1 : Sound s) : SoundRes (execKeepaliveDeadline port s) := by
  unfold execKeepaliveDeadline
  with_reducible (repeat' first
    | assumption | apply sound_completes | apply sound_linkLoss | apply sound_occur | apply Sound.ite | split | dsimp only)
theorem sound_execRetrainLimit (port : Fin 4) (s : State) (h1 : Sound s) : SoundRes (execRetrainLimit port s) := by
  unfold execRetrainLimit
  with_reducible (repeat' first
    | assumption | apply sound_completes | apply sound_linkLoss | apply Sound.ite | split | dsimp only)
theorem sound_execWakePatternRepeat (port : Fin 4) (s : State) (h1 : Sound s) : SoundRes (execWakePatternRepeat port s) := by
  unfold execWakePatternRepeat
  with_reducible (repeat' first
    | assumption | apply sound_completes | apply sound_State_emit | apply Sound.ite | split | dsimp only)
theorem sound_execErrorRateSecond (lane : Fin 4) (s : State) (h1 : Sound s) : SoundRes (execErrorRateSecond lane s) := by
  unfold execErrorRateSecond
  with_reducible (repeat' first
    | assumption | apply sound_putLane | apply sound_State_wr | apply sound_completes | apply sound_occur | apply Sound.ite | split | apply Sound.regs
    | apply Sound.flash | apply Sound.keeping | apply Sound.sdram | apply Sound.stage | apply Sound.porch | apply Sound.hwRam | apply Sound.bufEcc
    | apply Sound.keepEcc | apply Sound.hwEcc | (simp only [Sound.lit_iff]; refine ⟨?_, ?_, ?_, ?_, ?_, ?_, ?_, ?_, ?_, ?_⟩) | dsimp only)
theorem sound_retrainPort (p : Nat) (s : State) (h1 : Sound s) : Sound (retrainPort p s) := by
  unfold retrainPort
  with_reducible (repeat' first
    | assumption | apply sound_linkLoss | apply Sound.ite | split | dsimp only)
theorem sound_execRetrain (slot : Fin 8) (port : Fin 4) (s : State) (h2 : Sound s) : SoundRes (execRetrain slot port s) := by
  unfold execRetrain
  with_reducible (repeat' first
    | assumption | intro _ | apply sound_completes | apply sound_guardWrite | apply sound_retrainPort | dsimp only)
theorem sound_laneJoins (l : Nat) (s : State) (h1 : Sound s) : Sound (laneJoins l s) := by
  unfold laneJoins
  with_reducible (repeat' first
    | assumption | apply sound_retryEnd | apply sound_State_wr | apply sound_setPort | apply sound_putTrunk | apply sound_syncTrunk
    | apply sound_widthChanges | apply Sound.ite | split | dsimp only)
theorem sound_resetLane (l : Nat) (s : State) (h1 : Sound s) : Sound (resetLane l s) := by
  unfold resetLane
  with_reducible (repeat' first
    | assumption | apply sound_laneJoins | apply Sound.ite | split | dsimp only)
theorem sound_execResetLane (slot : Fin 8) (lane : Fin 4) (s : State) (h2 : Sound s) : SoundRes (execResetLane slot lane s) := by
  unfold execResetLane
  with_reducible (repeat' first
    | assumption | intro _ | apply sound_completes | apply sound_guardWrite | apply sound_resetLane | dsimp only)
theorem sound_putBoot (w : Nat) (v : Nat) (s : State) (h2 : Sound s) : Sound (putBoot w v s) := by
  unfold putBoot
  with_reducible (repeat' first
    | assumption | apply sound_putKeep | apply sound_senseKeep | dsimp only)
theorem sound_showBoot (s : State) (h0 : Sound s) : Sound (showBoot s) := by
  unfold showBoot
  with_reducible (repeat' first
    | assumption | apply sound_State_wr | apply Sound.ite | split | dsimp only)
theorem sound_restartState (s : State) (h0 : Sound s) : Sound (restartState s) := by
  unfold restartState
  with_reducible (repeat' first
    | assumption | intro _ | apply sound_showBoot | apply Snd.ite | apply Snd.out | apply Tab.wf_filter | apply Tab.rising_filter | apply sound_reset
    | refine Snd.of (by assumption) ?_ | simp only [Snd.lit] | apply Sound.regs | apply Sound.flash | apply Sound.keeping | apply Sound.sdram
    | apply Sound.stage | apply Sound.porch | apply Sound.hwRam | apply Sound.bufEcc | apply Sound.keepEcc | apply Sound.hwEcc
    | (simp only [Sound.lit_iff]; refine ⟨?_, ?_, ?_, ?_, ?_, ?_, ?_, ?_, ?_, ?_⟩) | dsimp only)
theorem sound_showStraps (s : State) (h0 : Sound s) : Sound (showStraps s) := by
  unfold showStraps
  with_reducible (repeat' first
    | assumption | intro _ | apply sound_State_wr | apply Sound.ite | apply Sound.foldl | apply Snd.ite | apply Snd.foldl | apply Snd.out | split
    | refine Snd.of (by assumption) ?_ | simp only [Snd.lit] | dsimp only)
theorem sound_startClocks (s : State) (h0 : Sound s) : Sound (startClocks s) := by
  unfold startClocks
  with_reducible (repeat' first
    | assumption | apply sound_syncGens | apply sound_unitRequest | apply sound_unitRequestAll | apply sound_State_on | dsimp only)
theorem sound_warmRestart (s : State) (h0 : Sound s) : Sound (warmRestart s) := by
  unfold warmRestart
  with_reducible (repeat' first
    | assumption | apply sound_showStraps | apply sound_restartState | apply sound_startClocks | apply Sound.ite | split | dsimp only)
theorem sound_execPwrgdRise (strap0 : Fin 4) (strap1 : Fin 4) (position : Fin 8) (s : State) (h3 : Sound s) : SoundRes (execPwrgdRise strap0 strap1 position s) := by
  unfold execPwrgdRise
  with_reducible (repeat' first
    | assumption | intro _ | apply sound_always | apply sound_showStraps | apply sound_showBoot | apply Sound.ite | apply Snd.ite | apply Snd.out
    | apply Tab.wf_filter | apply Tab.rising_filter | apply Tab.wf_put | apply sound_reset | split | refine Snd.of (by assumption) ?_
    | simp only [Snd.lit] | apply Sound.regs | apply Sound.flash | apply Sound.keeping | apply Sound.sdram | apply Sound.stage | apply Sound.porch
    | apply Sound.hwRam | apply Sound.bufEcc | apply Sound.keepEcc | apply Sound.hwEcc
    | (simp only [Sound.lit_iff]; refine ⟨?_, ?_, ?_, ?_, ?_, ?_, ?_, ?_, ?_, ?_⟩) | dsimp only)
theorem sound_execPwrgdFall (s : State) (h0 : Sound s) : SoundRes (execPwrgdFall s) := by
  unfold execPwrgdFall
  with_reducible (repeat' first
    | assumption | intro _ | apply sound_always | apply Sound.ite | apply Snd.ite | apply Snd.out | apply Tab.wf_filter | apply Tab.rising_filter
    | apply sound_reset | split | refine Snd.of (by assumption) ?_ | simp only [Snd.lit] | apply Sound.regs | apply Sound.flash | apply Sound.keeping
    | apply Sound.sdram | apply Sound.stage | apply Sound.porch | apply Sound.hwRam | apply Sound.bufEcc | apply Sound.keepEcc | apply Sound.hwEcc
    | (simp only [Sound.lit_iff]; refine ⟨?_, ?_, ?_, ?_, ?_, ?_, ?_, ?_, ?_, ?_⟩) | dsimp only)
theorem sound_resetPins (n : Bool) (test : Bool) (s : State) (h2 : Sound s) : Sound (resetPins n test s) := by
  unfold resetPins
  with_reducible (repeat' first
    | assumption | apply sound_showStraps | apply sound_restartState | apply sound_startClocks | apply Sound.ite | split | apply Sound.regs
    | apply Sound.flash | apply Sound.keeping | apply Sound.sdram | apply Sound.stage | apply Sound.porch | apply Sound.hwRam | apply Sound.bufEcc
    | apply Sound.keepEcc | apply Sound.hwEcc | (simp only [Sound.lit_iff]; refine ⟨?_, ?_, ?_, ?_, ?_, ?_, ?_, ?_, ?_, ?_⟩) | dsimp only)
theorem sound_execResetNFall (s : State) (h0 : Sound s) : SoundRes (execResetNFall s) := by
  unfold execResetNFall
  with_reducible (repeat' first
    | assumption | apply sound_always | apply sound_resetPins | dsimp only)
theorem sound_execResetNRise (s : State) (h0 : Sound s) : SoundRes (execResetNRise s) := by
  unfold execResetNRise
  with_reducible (repeat' first
    | assumption | apply sound_always | apply sound_resetPins | dsimp only)
theorem sound_execTestEnChange (high : Bool) (s : State) (h1 : Sound s) : SoundRes (execTestEnChange high s) := by
  unfold execTestEnChange
  with_reducible (repeat' first
    | assumption | apply sound_always | apply sound_resetPins | dsimp only)
theorem sound_execDbgTrstNChange (high : Bool) (s : State) (h1 : Sound s) : SoundRes (execDbgTrstNChange high s) := by
  unfold execDbgTrstNChange
  with_reducible (repeat' first
    | assumption | apply sound_senses | apply sound_unitRequest | apply Sound.ite | split | apply Sound.regs | apply Sound.flash | apply Sound.keeping
    | apply Sound.sdram | apply Sound.stage | apply Sound.porch | apply Sound.hwRam | apply Sound.bufEcc | apply Sound.keepEcc | apply Sound.hwEcc
    | (simp only [Sound.lit_iff]; refine ⟨?_, ?_, ?_, ?_, ?_, ?_, ?_, ?_, ?_, ?_⟩) | dsimp only)
theorem sound_execReferenceReady (s : State) (h0 : Sound s) : SoundRes (execReferenceReady s) := by
  unfold execReferenceReady
  with_reducible (repeat' first
    | assumption | apply sound_always | apply sound_startClocks | apply Sound.ite | split | apply Sound.regs | apply Sound.flash | apply Sound.keeping
    | apply Sound.sdram | apply Sound.stage | apply Sound.porch | apply Sound.hwRam | apply Sound.bufEcc | apply Sound.keepEcc | apply Sound.hwEcc
    | (simp only [Sound.lit_iff]; refine ⟨?_, ?_, ?_, ?_, ?_, ?_, ?_, ?_, ?_, ?_⟩) | dsimp only)
theorem sound_execReferenceLoss (s : State) (h0 : Sound s) : SoundRes (execReferenceLoss s) := by
  unfold execReferenceLoss
  with_reducible (repeat' first
    | assumption | apply sound_always | apply sound_setCause | apply sound_showStraps | apply sound_restartState | apply Sound.ite | split
    | apply Sound.regs | apply Sound.flash | apply Sound.keeping | apply Sound.sdram | apply Sound.stage | apply Sound.porch | apply Sound.hwRam
    | apply Sound.bufEcc | apply Sound.keepEcc | apply Sound.hwEcc | (simp only [Sound.lit_iff]; refine ⟨?_, ?_, ?_, ?_, ?_, ?_, ?_, ?_, ?_, ?_⟩)
    | dsimp only)
theorem sound_execReferenceRestored (s : State) (h0 : Sound s) : SoundRes (execReferenceRestored s) := by
  unfold execReferenceRestored
  with_reducible (repeat' first
    | assumption | apply sound_always | apply sound_setCause | apply sound_startClocks | apply Sound.ite | split | apply Sound.regs
    | apply Sound.flash | apply Sound.keeping | apply Sound.sdram | apply Sound.stage | apply Sound.porch | apply Sound.hwRam | apply Sound.bufEcc
    | apply Sound.keepEcc | apply Sound.hwEcc | (simp only [Sound.lit_iff]; refine ⟨?_, ?_, ?_, ?_, ?_, ?_, ?_, ?_, ?_, ?_⟩) | dsimp only)
theorem sound_putMail (slot : Nat) (m : Option Mail) (s : State) (h2 : Sound s) : Sound (putMail slot m s) := by
  unfold putMail
  with_reducible (repeat' first
    | assumption | apply Sound.regs | apply Sound.flash | apply Sound.keeping | apply Sound.sdram | apply Sound.stage | apply Sound.porch
    | apply Sound.hwRam | apply Sound.bufEcc | apply Sound.keepEcc | apply Sound.hwEcc
    | (simp only [Sound.lit_iff]; refine ⟨?_, ?_, ?_, ?_, ?_, ?_, ?_, ?_, ?_, ?_⟩) | dsimp only)
theorem sound_setReply (slot : Nat) (status : Nat) (body : List Nat) (s : State) (h3 : Sound s) : Sound (setReply slot status body s) := by
  unfold setReply
  with_reducible (repeat' first
    | assumption | apply sound_putMail | apply sound_refuse | apply Sound.ite | split | apply Sound.regs | apply Sound.flash | apply Sound.keeping
    | apply Sound.sdram | apply Sound.stage | apply Sound.porch | apply Sound.hwRam | apply Sound.bufEcc | apply Sound.keepEcc | apply Sound.hwEcc
    | (simp only [Sound.lit_iff]; refine ⟨?_, ?_, ?_, ?_, ?_, ?_, ?_, ?_, ?_, ?_⟩) | dsimp only)
theorem sound_serveMail (slot : Nat) (op : Nat) (lenOk : Nat → Bool) (h : List Nat → State → MailAnswer) (s : State) (h3 : ∀ y0 y1, Sound y1 → Thd (h y0 y1)) (h4 : Sound s) : Sound (serveMail slot op lenOk h s) := by
  unfold serveMail
  with_reducible (repeat' first
    | assumption | intro _ | apply sound_setReply | apply h3 | apply Sound.ite | apply Thd.ite | apply Thd.out | apply Snd.ite | apply Snd.out
    | apply Thd.rest | split | refine Thd.of (by assumption) ?_ | refine Snd.of (by assumption) ?_ | simp only [Thd.lit] | simp only [Snd.lit]
    | apply Thd.pair | dsimp only)
theorem sound_okMail (s : State) (body : List Nat) (h0 : Sound s) : Thd (okMail s body) := by
  unfold okMail
  with_reducible (repeat' first
    | assumption | apply Thd.ite | apply Thd.out | apply Snd.ite | apply Snd.out | apply Thd.rest | refine Thd.of (by assumption) ?_
    | refine Snd.of (by assumption) ?_ | simp only [Thd.lit] | simp only [Snd.lit] | apply Thd.pair | dsimp only)
theorem sound_failMail (status : Nat) (s : State) (h1 : Sound s) : Thd (failMail status s) := by
  unfold failMail
  with_reducible (repeat' first
    | assumption | apply Thd.ite | apply Thd.out | apply Snd.ite | apply Snd.out | apply Thd.rest | refine Thd.of (by assumption) ?_
    | refine Snd.of (by assumption) ?_ | simp only [Thd.lit] | simp only [Snd.lit] | apply Thd.pair | dsimp only)
theorem sound_stewardMail (slot : Nat) (s : State) (a : MailAnswer) (h1 : Sound s) (h2 : Thd a) : Thd (stewardMail slot s a) := by
  unfold stewardMail
  with_reducible (repeat' first
    | assumption | apply sound_failMail | apply Sound.ite | apply Thd.ite | apply Thd.out | apply Snd.ite | apply Snd.out | apply Thd.rest | split
    | refine Thd.of (by assumption) ?_ | simp only [Thd.lit] | apply Thd.pair | dsimp only)
theorem sound_setPortLink (slot : Nat) (k : Nat) (link : Nat) (s : State) (h3 : Sound s) : Sound (setPortLink slot k link s) := by
  unfold setPortLink
  with_reducible (repeat' first
    | assumption | apply sound_setLink | apply sound_State_wr | apply sound_State_wrB | split | dsimp only)
theorem sound_hubRequest (slot : Nat) (f : State → State) (s : State) (h1 : ∀ y0, Sound y0 → Sound (f y0)) (h2 : Sound s) : Sound (hubRequest slot f s) := by
  unfold hubRequest
  with_reducible (repeat' first
    | assumption | intro _ | apply sound_State_emit | apply h1 | apply Sound.ite | split | dsimp only)
theorem sound_portRequest (slot : Nat) (k : Nat) (dev : State → State) (f : Nat → State → State) (s : State) (h2 : ∀ y0, Sound y0 → Sound (dev y0)) (h3 : ∀ y0 y1, Sound y1 → Sound (f y0 y1)) (h4 : Sound s) : Sound (portRequest slot k dev f s) := by
  unfold portRequest
  with_reducible (repeat' first
    | assumption | intro _ | apply sound_hubRequest | apply sound_State_emit | apply h2 | apply h3 | apply Sound.ite | split | dsimp only)
theorem sound_modPort (slot : Nat) (k : Nat) (f : HubPort → HubPort) (s : State) (h3 : Sound s) : Sound (modPort slot k f s) := by
  unfold modPort
  with_reducible (repeat' first
    | assumption | intro _ | apply sound_putPort | dsimp only)
theorem sound_putTt (t : Nat) (x : Translator) (s : State) (h2 : Sound s) : Sound (putTt t x s) := by
  unfold putTt
  with_reducible (repeat' first
    | assumption | apply Sound.regs | apply Sound.flash | apply Sound.keeping | apply Sound.sdram | apply Sound.stage | apply Sound.porch
    | apply Sound.hwRam | apply Sound.bufEcc | apply Sound.keepEcc | apply Sound.hwEcc
    | (simp only [Sound.lit_iff]; refine ⟨?_, ?_, ?_, ?_, ?_, ?_, ?_, ?_, ?_, ?_⟩) | dsimp only)
theorem sound_changeTt (slot : Nat) (f : Translator → Translator) (t : Nat) (s : State) (h3 : Sound s) : Sound (changeTt slot f t s) := by
  unfold changeTt
  with_reducible (repeat' first
    | assumption | intro _ | apply sound_putTt | dsimp only)
theorem sound_stallPort (slot : Nat) (s : State) (h1 : Sound s) : Sound (stallPort slot s) := by
  unfold stallPort
  with_reducible (repeat' first
    | assumption | apply sound_State_emit | dsimp only)
theorem sound_ttRequest (slot : Nat) (k : Nat) (f : Nat → State → State) (s : State) (h2 : ∀ y0 y1, Sound y1 → Sound (f y0 y1)) (h3 : Sound s) : Sound (ttRequest slot k f s) := by
  unfold ttRequest
  with_reducible (repeat' first
    | assumption | intro _ | apply sound_portRequest | apply sound_stallPort | apply h2 | apply Sound.ite | split | dsimp only)
theorem sound_anyPort (slot : Nat) (k : Nat) (f : State → State) (s : State) (h2 : ∀ y0, Sound y0 → Sound (f y0)) (h3 : Sound s) : Sound (anyPort slot k f s) := by
  unfold anyPort
  with_reducible (repeat' first
    | assumption | intro _ | apply sound_portRequest | apply h2 | dsimp only)
theorem sound_execClearTtBuffer (slot : Fin 8) (port : Fin 16) (buffer : Fin 2) (s : State) (h3 : Sound s) : SoundRes (execClearTtBuffer slot port buffer s) := by
  unfold execClearTtBuffer
  with_reducible (repeat' first
    | assumption | intro _ | apply sound_completes | apply sound_ttRequest | apply sound_changeTt | apply Sound.regs | apply Sound.flash
    | apply Sound.keeping | apply Sound.sdram | apply Sound.stage | apply Sound.porch | apply Sound.hwRam | apply Sound.bufEcc | apply Sound.keepEcc
    | apply Sound.hwEcc | (simp only [Sound.lit_iff]; refine ⟨?_, ?_, ?_, ?_, ?_, ?_, ?_, ?_, ?_, ?_⟩) | dsimp only)
theorem sound_execResetTt (slot : Fin 8) (port : Fin 16) (s : State) (h2 : Sound s) : SoundRes (execResetTt slot port s) := by
  unfold execResetTt
  with_reducible (repeat' first
    | assumption | intro _ | apply sound_completes | apply sound_ttRequest | apply sound_changeTt | dsimp only)
theorem sound_execGetTtState (slot : Fin 8) (port : Fin 16) (s : State) (h2 : Sound s) : SoundRes (execGetTtState slot port s) := by
  unfold execGetTtState
  with_reducible (repeat' first
    | assumption | intro _ | apply sound_completes | apply sound_ttRequest | apply sound_State_emit | apply sound_State_drew | dsimp only)
theorem sound_execStopTt (slot : Fin 8) (port : Fin 16) (s : State) (h2 : Sound s) : SoundRes (execStopTt slot port s) := by
  unfold execStopTt
  with_reducible (repeat' first
    | assumption | intro _ | apply sound_completes | apply sound_ttRequest | apply sound_changeTt | apply Sound.regs | apply Sound.flash
    | apply Sound.keeping | apply Sound.sdram | apply Sound.stage | apply Sound.porch | apply Sound.hwRam | apply Sound.bufEcc | apply Sound.keepEcc
    | apply Sound.hwEcc | (simp only [Sound.lit_iff]; refine ⟨?_, ?_, ?_, ?_, ?_, ?_, ?_, ?_, ?_, ?_⟩) | dsimp only)
theorem sound_execSetHubDepth (slot : Fin 8) (depth : Nat) (s : State) (h2 : Sound s) : SoundRes (execSetHubDepth slot depth s) := by
  unfold execSetHubDepth
  with_reducible (repeat' first
    | assumption | intro _ | apply sound_completes | apply sound_hubRequest | apply Tab.wf_put | apply Sound.regs | apply Sound.flash
    | apply Sound.keeping | apply Sound.sdram | apply Sound.stage | apply Sound.porch | apply Sound.hwRam | apply Sound.bufEcc | apply Sound.keepEcc
    | apply Sound.hwEcc | (simp only [Sound.lit_iff]; refine ⟨?_, ?_, ?_, ?_, ?_, ?_, ?_, ?_, ?_, ?_⟩) | dsimp only)
theorem sound_countLink (t : Nat) (c : LinkCounts) (s : State) (h2 : Sound s) : Sound (countLink t c s) := by
  unfold countLink
  with_reducible (repeat' first
    | assumption | intro _ | apply sound_changePort | apply sound_State_bump | apply Sound.regs | apply Sound.flash | apply Sound.keeping
    | apply Sound.sdram | apply Sound.stage | apply Sound.porch | apply Sound.hwRam | apply Sound.bufEcc | apply Sound.keepEcc | apply Sound.hwEcc
    | (simp only [Sound.lit_iff]; refine ⟨?_, ?_, ?_, ?_, ?_, ?_, ?_, ?_, ?_, ?_⟩) | dsimp only)
theorem sound_execGetPortErrCount (slot : Fin 8) (port : PortCounts) (s : State) (h2 : Sound s) : SoundRes (execGetPortErrCount slot port s) := by
  unfold execGetPortErrCount
  with_reducible (repeat' first
    | assumption | intro _ | apply sound_completes | apply sound_portRequest | apply sound_State_emit | apply sound_countLink | dsimp only)
theorem sound_execSetPortPower (slot : Fin 8) (port : Fin 16) (s : State) (h2 : Sound s) : SoundRes (execSetPortPower slot port s) := by
  unfold execSetPortPower
  with_reducible (repeat' first
    | assumption | intro _ | apply sound_completes | apply sound_portRequest | apply sound_syncPath | apply sound_State_on | apply sound_State_off
    | dsimp only [id])
theorem sound_execClearPortPower (slot : Fin 8) (port : Fin 16) (s : State) (h2 : Sound s) : SoundRes (execClearPortPower slot port s) := by
  unfold execClearPortPower
  with_reducible (repeat' first
    | assumption | intro _ | apply sound_completes | apply sound_portRequest | apply sound_State_off | apply sound_portDisconnect
    | apply sound_syncPath | apply Sound.ite | split | dsimp only [id])
theorem sound_beginReset (slot : Nat) (k : Nat) (kind : Nat) (t : Nat) (s : State) (h4 : Sound s) : Sound (beginReset slot k kind t s) := by
  unfold beginReset
  with_reducible (repeat' first
    | assumption | intro _ | apply sound_modPort | apply sound_setLink | apply sound_State_off | apply sound_State_bump | apply Sound.ite | split
    | apply Sound.regs | apply Sound.flash | apply Sound.keeping | apply Sound.sdram | apply Sound.stage | apply Sound.porch | apply Sound.hwRam
    | apply Sound.bufEcc | apply Sound.keepEcc | apply Sound.hwEcc | (simp only [Sound.lit_iff]; refine ⟨?_, ?_, ?_, ?_, ?_, ?_, ?_, ?_, ?_, ?_⟩)
    | dsimp only)
theorem sound_resetInside (slot : Nat) (k : Nat) (warm : Bool) (s : State) (h3 : Sound s) : Sound (resetInside slot k warm s) := by
  unfold resetInside
  with_reducible (repeat' first
    | assumption | intro _ | apply sound_functionDefault | apply sound_modPort | apply sound_setPortLink | apply sound_State_on | apply Sound.ite
    | split | apply Sound.regs | apply Sound.flash | apply Sound.keeping | apply Sound.sdram | apply Sound.stage | apply Sound.porch
    | apply Sound.hwRam | apply Sound.bufEcc | apply Sound.keepEcc | apply Sound.hwEcc
    | (simp only [Sound.lit_iff]; refine ⟨?_, ?_, ?_, ?_, ?_, ?_, ?_, ?_, ?_, ?_⟩) | dsimp only)
theorem sound_execPortReset (slot : Fin 8) (port : Fin 16) (s : State) (h2 : Sound s) : SoundRes (execPortReset slot port s) := by
  unfold execPortReset
  with_reducible (repeat' first
    | assumption | intro _ | apply sound_completes | apply sound_portRequest | apply sound_resetInside | apply sound_beginReset | dsimp only)
theorem sound_execBhPortReset (slot : Fin 8) (port : Fin 16) (s : State) (h2 : Sound s) : SoundRes (execBhPortReset slot port s) := by
  unfold execBhPortReset
  with_reducible (repeat' first
    | assumption | intro _ | apply sound_stallPort | apply sound_completes | apply sound_portRequest | apply sound_resetInside
    | apply sound_beginReset | apply Sound.ite | apply Snd.ite | apply Snd.out | split | refine Snd.of (by assumption) ?_ | simp only [Snd.lit]
    | dsimp only)
theorem sound_execPortResetComplete (tile : Fin 14) (result : PortResetEnd) (s : State) (h2 : Sound s) : SoundRes (execPortResetComplete tile result s) := by
  unfold execPortResetComplete
  with_reducible (repeat' first
    | assumption | intro _ | apply sound_completes | apply sound_modPort | apply sound_retryEnd | apply sound_setSpeed | apply sound_setLink
    | apply sound_State_on | apply sound_portDisconnect | apply sound_failOrRetry | apply Sound.ite | apply Snd.ite | apply Snd.out | split
    | refine Snd.of (by assumption) ?_ | simp only [Snd.lit] | apply Sound.regs | apply Sound.flash | apply Sound.keeping | apply Sound.sdram
    | apply Sound.stage | apply Sound.porch | apply Sound.hwRam | apply Sound.bufEcc | apply Sound.keepEcc | apply Sound.hwEcc
    | (simp only [Sound.lit_iff]; refine ⟨?_, ?_, ?_, ?_, ?_, ?_, ?_, ?_, ?_, ?_⟩) | dsimp only [id])
theorem sound_execPortSuspend (slot : Fin 8) (port : Fin 16) (set : Bool) (s : State) (h3 : Sound s) : SoundRes (execPortSuspend slot port set s) := by
  unfold execPortSuspend
  with_reducible (repeat' first
    | assumption | intro _ | apply sound_completes | apply sound_anyPort | apply sound_modPort | apply sound_setPortLink | apply Sound.ite | split
    | apply Sound.regs | apply Sound.flash | apply Sound.keeping | apply Sound.sdram | apply Sound.stage | apply Sound.porch | apply Sound.hwRam
    | apply Sound.bufEcc | apply Sound.keepEcc | apply Sound.hwEcc | (simp only [Sound.lit_iff]; refine ⟨?_, ?_, ?_, ?_, ?_, ?_, ?_, ?_, ?_, ?_⟩)
    | dsimp only)
theorem sound_endPort (slot : Nat) (k : Nat) (s : State) (h2 : Sound s) : Sound (endPort slot k s) := by
  unfold endPort
  with_reducible (repeat' first
    | assumption | apply sound_portDisconnect | apply sound_State_off | split | dsimp only)
theorem sound_execPortLinkState (slot : Fin 8) (port : Fin 16) (state : Nat) (s : State) (h3 : Sound s) : SoundRes (execPortLinkState slot port state s) := by
  unfold execPortLinkState
  with_reducible (repeat' first
    | assumption | intro _ | apply sound_completes | apply sound_anyPort | apply sound_setPortLink | apply sound_modPort | apply sound_endPort
    | apply sound_State_on | apply sound_stallPort | apply Sound.ite | split | apply Sound.regs | apply Sound.flash | apply Sound.keeping
    | apply Sound.sdram | apply Sound.stage | apply Sound.porch | apply Sound.hwRam | apply Sound.bufEcc | apply Sound.keepEcc | apply Sound.hwEcc
    | (simp only [Sound.lit_iff]; refine ⟨?_, ?_, ?_, ?_, ?_, ?_, ?_, ?_, ?_, ?_⟩) | dsimp only)
theorem sound_execPortU1Timeout (slot : Fin 8) (port : Fin 16) (value : Nat) (s : State) (h3 : Sound s) : SoundRes (execPortU1Timeout slot port value s) := by
  unfold execPortU1Timeout
  with_reducible (repeat' first
    | assumption | intro _ | apply sound_completes | apply sound_anyPort | apply sound_modPort | apply Sound.regs | apply Sound.flash
    | apply Sound.keeping | apply Sound.sdram | apply Sound.stage | apply Sound.porch | apply Sound.hwRam | apply Sound.bufEcc | apply Sound.keepEcc
    | apply Sound.hwEcc | (simp only [Sound.lit_iff]; refine ⟨?_, ?_, ?_, ?_, ?_, ?_, ?_, ?_, ?_, ?_⟩) | dsimp only)
theorem sound_execPortU2Timeout (slot : Fin 8) (port : Fin 16) (value : Nat) (s : State) (h3 : Sound s) : SoundRes (execPortU2Timeout slot port value s) := by
  unfold execPortU2Timeout
  with_reducible (repeat' first
    | assumption | intro _ | apply sound_completes | apply sound_anyPort | apply sound_modPort | apply Sound.regs | apply Sound.flash
    | apply Sound.keeping | apply Sound.sdram | apply Sound.stage | apply Sound.porch | apply Sound.hwRam | apply Sound.bufEcc | apply Sound.keepEcc
    | apply Sound.hwEcc | (simp only [Sound.lit_iff]; refine ⟨?_, ?_, ?_, ?_, ?_, ?_, ?_, ?_, ?_, ?_⟩) | dsimp only)
theorem sound_execPortRemoteWakeMask (slot : Fin 8) (port : Fin 16) (mask : Nat) (s : State) (h3 : Sound s) : SoundRes (execPortRemoteWakeMask slot port mask s) := by
  unfold execPortRemoteWakeMask
  with_reducible (repeat' first
    | assumption | intro _ | apply sound_completes | apply sound_anyPort | apply sound_modPort | apply Sound.regs | apply Sound.flash
    | apply Sound.keeping | apply Sound.sdram | apply Sound.stage | apply Sound.porch | apply Sound.hwRam | apply Sound.bufEcc | apply Sound.keepEcc
    | apply Sound.hwEcc | (simp only [Sound.lit_iff]; refine ⟨?_, ?_, ?_, ?_, ?_, ?_, ?_, ?_, ?_, ?_⟩) | dsimp only)
theorem sound_execForceLinkpmAccept (slot : Fin 8) (port : Fin 16) (set : Bool) (s : State) (h3 : Sound s) : SoundRes (execForceLinkpmAccept slot port set s) := by
  unfold execForceLinkpmAccept
  with_reducible (repeat' first
    | assumption | intro _ | apply sound_completes | apply sound_anyPort | apply sound_modPort | apply Sound.regs | apply Sound.flash
    | apply Sound.keeping | apply Sound.sdram | apply Sound.stage | apply Sound.porch | apply Sound.hwRam | apply Sound.bufEcc | apply Sound.keepEcc
    | apply Sound.hwEcc | (simp only [Sound.lit_iff]; refine ⟨?_, ?_, ?_, ?_, ?_, ?_, ?_, ?_, ?_, ?_⟩) | dsimp only)
theorem sound_execPortTest (slot : Fin 8) (port : Fin 16) (mode : Nat) (s : State) (h3 : Sound s) : SoundRes (execPortTest slot port mode s) := by
  unfold execPortTest
  with_reducible (repeat' first
    | assumption | intro _ | apply sound_completes | apply sound_portRequest | apply sound_stallPort | apply sound_modPort | apply Sound.regs
    | apply Sound.flash | apply Sound.keeping | apply Sound.sdram | apply Sound.stage | apply Sound.porch | apply Sound.hwRam | apply Sound.bufEcc
    | apply Sound.keepEcc | apply Sound.hwEcc | (simp only [Sound.lit_iff]; refine ⟨?_, ?_, ?_, ?_, ?_, ?_, ?_, ?_, ?_, ?_⟩) | dsimp only)
theorem sound_execPortIndicator (slot : Fin 8) (_port : Fin 16) (s : State) (h2 : Sound s) : SoundRes (execPortIndicator slot _port s) := by
  unfold execPortIndicator
  with_reducible (repeat' first
    | assumption | intro _ | apply sound_completes | apply sound_hubRequest | apply sound_stallPort | dsimp only)
theorem sound_execReceiverDetection (tile : Fin 14) (result : Detection) (s : State) (h2 : Sound s) : SoundRes (execReceiverDetection tile result s) := by
  unfold execReceiverDetection
  with_reducible (repeat' first
    | assumption | intro _ | apply sound_completes | apply sound_setLink | apply sound_failOrRetry | apply sound_changePort | apply sound_retryEnd
    | apply sound_portConnect | apply Sound.ite | split | apply Sound.regs | apply Sound.flash | apply Sound.keeping | apply Sound.sdram
    | apply Sound.stage | apply Sound.porch | apply Sound.hwRam | apply Sound.bufEcc | apply Sound.keepEcc | apply Sound.hwEcc
    | (simp only [Sound.lit_iff]; refine ⟨?_, ?_, ?_, ?_, ?_, ?_, ?_, ?_, ?_, ?_⟩) | dsimp only [id])
theorem sound_execSsDetectTimeout (tile : Fin 14) (s : State) (h1 : Sound s) : SoundRes (execSsDetectTimeout tile s) := by
  unfold execSsDetectTimeout
  with_reducible (repeat' first
    | assumption | intro _ | apply sound_completes | apply sound_changePort | apply Sound.ite | split | apply Sound.regs | apply Sound.flash
    | apply Sound.keeping | apply Sound.sdram | apply Sound.stage | apply Sound.porch | apply Sound.hwRam | apply Sound.bufEcc | apply Sound.keepEcc
    | apply Sound.hwEcc | (simp only [Sound.lit_iff]; refine ⟨?_, ?_, ?_, ?_, ?_, ?_, ?_, ?_, ?_, ?_⟩) | dsimp only)
theorem sound_execUsb2Connect (tile : Fin 14) (low : Bool) (s : State) (h2 : Sound s) : SoundRes (execUsb2Connect tile low s) := by
  unfold execUsb2Connect
  with_reducible (repeat' first
    | assumption | apply sound_completes | apply sound_portConnect | apply Sound.ite | split | dsimp only)
theorem sound_dfuGone (s : State) (h0 : Sound s) : Sound (dfuGone s) := by
  unfold dfuGone
  with_reducible (repeat' first
    | assumption | apply sound_State_wr | apply sound_putUsbDev | apply wf_nil | apply Sound.regs | apply Sound.flash | apply Sound.keeping
    | apply Sound.sdram | apply Sound.stage | apply Sound.porch | apply Sound.hwRam | apply Sound.bufEcc | apply Sound.keepEcc | apply Sound.hwEcc
    | (simp only [Sound.lit_iff]; refine ⟨?_, ?_, ?_, ?_, ?_, ?_, ?_, ?_, ?_, ?_⟩) | dsimp only)
theorem sound_execUpTileDetach (tile : Fin 14) (s : State) (h1 : Sound s) : SoundRes (execUpTileDetach tile s) := by
  unfold execUpTileDetach
  with_reducible (repeat' first
    | assumption | apply sound_completes | apply sound_dfuGone | apply sound_upGone | apply Sound.ite | split | dsimp only)
theorem sound_execHubResetByHost (slot : Fin 8) (s : State) (h1 : Sound s) : SoundRes (execHubResetByHost slot s) := by
  unfold execHubResetByHost
  with_reducible (repeat' first
    | assumption | apply sound_completes | apply sound_hubDefault | apply sound_setLink | apply Sound.ite | split | dsimp only)
theorem sound_execLpmToken (link : LinkAt) (token : LpmToken) (s : State) (h2 : Sound s) : SoundRes (execLpmToken link token s) := by
  unfold execLpmToken
  with_reducible (repeat' first
    | assumption | apply sound_completes | apply sound_setLink | apply sound_setPortLink | apply Sound.ite | split | dsimp only)
theorem sound_execU1U2Entry (link : LinkAt) (entry : LinkEntry) (s0 : State) (h2 : Sound s0) : SoundRes (execU1U2Entry link entry s0) := by
  unfold execU1U2Entry
  with_reducible (repeat' first
    | assumption | apply sound_completes | apply sound_countLink | apply sound_setLink | apply sound_setPortLink | apply Sound.ite | apply Snd.ite
    | apply Snd.out | split | refine Snd.of (by assumption) ?_ | simp only [Snd.lit] | dsimp only)
theorem sound_execGlobalSuspend (slot : Fin 8) (s : State) (h1 : Sound s) : SoundRes (execGlobalSuspend slot s) := by
  unfold execGlobalSuspend
  with_reducible (repeat' first
    | assumption | intro _ | apply sound_completes | apply sound_setLink | apply sound_setPortLink | apply sound_State_wr | apply Sound.ite
    | apply Sound.foldl | apply Snd.ite | apply Snd.foldl | apply Snd.out | split | refine Snd.of (by assumption) ?_ | simp only [Snd.lit]
    | dsimp only)
theorem sound_resumePort (slot : Nat) (k : Nat) (s : State) (h2 : Sound s) : Sound (resumePort slot k s) := by
  unfold resumePort
  with_reducible (repeat' first
    | assumption | intro _ | apply sound_modPort | apply sound_setPortLink | apply Sound.ite | split | apply Sound.regs | apply Sound.flash
    | apply Sound.keeping | apply Sound.sdram | apply Sound.stage | apply Sound.porch | apply Sound.hwRam | apply Sound.bufEcc | apply Sound.keepEcc
    | apply Sound.hwEcc | (simp only [Sound.lit_iff]; refine ⟨?_, ?_, ?_, ?_, ?_, ?_, ?_, ?_, ?_, ?_⟩) | dsimp only)
theorem sound_resumeHub (slot : Nat) (s : State) (h1 : Sound s) : Sound (resumeHub slot s) := by
  unfold resumeHub
  with_reducible (repeat' first
    | assumption | intro _ | apply sound_resumePort | apply sound_State_wr | apply Sound.ite | apply Sound.foldl | apply Snd.ite | apply Snd.foldl
    | apply Snd.out | split | refine Snd.of (by assumption) ?_ | simp only [Snd.lit] | dsimp only)
theorem sound_execHostResume (tile : Fin 14) (s : State) (h1 : Sound s) : SoundRes (execHostResume tile s) := by
  unfold execHostResume
  with_reducible (repeat' first
    | assumption | apply sound_completes | apply sound_resumeHub | apply sound_setLink | apply sound_ringBell | apply Sound.ite | split | dsimp only)
theorem sound_execDeviceRemoteWake (tile : Fin 14) (funcWake : Bool) (s0 : State) (h2 : Sound s0) : SoundRes (execDeviceRemoteWake tile funcWake s0) := by
  unfold execDeviceRemoteWake
  with_reducible (repeat' first
    | assumption | apply sound_ringBell | apply sound_completes | apply sound_setLink | apply sound_State_emit | apply sound_setIrq | apply Sound.ite
    | apply Snd.ite | apply Snd.out | split | refine Snd.of (by assumption) ?_ | simp only [Snd.lit] | dsimp only)
theorem sound_execU3ExitLfps (tile : Fin 14) (s0 : State) (h1 : Sound s0) : SoundRes (execU3ExitLfps tile s0) := by
  unfold execU3ExitLfps
  with_reducible (repeat' first
    | assumption | intro _ | apply sound_ringBell | apply sound_completes | apply sound_setLink | apply sound_resumeHub | apply sound_changePort
    | apply Sound.ite | split | apply Sound.regs | apply Sound.flash | apply Sound.keeping | apply Sound.sdram | apply Sound.stage | apply Sound.porch
    | apply Sound.hwRam | apply Sound.bufEcc | apply Sound.keepEcc | apply Sound.hwEcc
    | (simp only [Sound.lit_iff]; refine ⟨?_, ?_, ?_, ?_, ?_, ?_, ?_, ?_, ?_, ?_⟩) | dsimp only)
theorem sound_discardSplits (slot : Nat) : ∀ (z1 : Nat) (z2 : State) (h2 : Sound z2), Sound (discardSplits slot z1 z2) := by
  intro z1
  induction z1 with
  | zero =>
    intros
    unfold discardSplits
    with_reducible (repeat' first
      | assumption | apply sound_occur | apply sound_State_bump | split | dsimp only)
  | succ _ ih =>
    intros
    unfold discardSplits
    with_reducible (repeat' first
      | assumption | apply sound_occur | apply sound_State_bump | apply ih | split | dsimp only)
theorem sound_execTtSplitDiscard (splits : PortSplits) (s : State) (h1 : Sound s) : SoundRes (execTtSplitDiscard splits s) := by
  unfold execTtSplitDiscard
  with_reducible (repeat' first
    | assumption | intro _ | apply sound_completes | apply sound_putTt | apply sound_discardSplits | apply Sound.ite | apply Snd.ite | apply Snd.out
    | split | refine Snd.of (by assumption) ?_ | simp only [Snd.lit] | apply Sound.regs | apply Sound.flash | apply Sound.keeping | apply Sound.sdram
    | apply Sound.stage | apply Sound.porch | apply Sound.hwRam | apply Sound.bufEcc | apply Sound.keepEcc | apply Sound.hwEcc
    | (simp only [Sound.lit_iff]; refine ⟨?_, ?_, ?_, ?_, ?_, ?_, ?_, ?_, ?_, ?_⟩) | dsimp only)
theorem sound_execScheduleMiss (slot : Fin 8) (s : State) (h1 : Sound s) : SoundRes (execScheduleMiss slot s) := by
  unfold execScheduleMiss
  with_reducible (repeat' first
    | assumption | apply sound_completes | apply sound_occur | apply sound_State_bump | dsimp only)
theorem sound_upConnect (t : Nat) (up : UpConnect) (s : State) (h2 : Sound s) : Sound (upConnect t up s) := by
  unfold upConnect
  with_reducible (repeat' first
    | assumption | intro _ | apply sound_failOrRetry | apply sound_setLink | apply sound_retryEnd | apply sound_showFunction | apply sound_setSpeed
    | apply sound_State_wr | apply Sound.ite | split | dsimp only [id])
theorem sound_retryLink (t : Nat) (up : UpConnect) (s : State) (h2 : Sound s) : Sound (retryLink t up s) := by
  unfold retryLink
  with_reducible (repeat' first
    | assumption | intro _ | apply sound_upConnect | apply sound_beginReset | apply sound_changePort | apply Sound.ite | apply Snd.ite | apply Snd.out
    | split | refine Snd.of (by assumption) ?_ | simp only [Snd.lit] | apply Sound.regs | apply Sound.flash | apply Sound.keeping | apply Sound.sdram
    | apply Sound.stage | apply Sound.porch | apply Sound.hwRam | apply Sound.bufEcc | apply Sound.keepEcc | apply Sound.hwEcc
    | (simp only [Sound.lit_iff]; refine ⟨?_, ?_, ?_, ?_, ?_, ?_, ?_, ?_, ?_, ?_⟩) | dsimp only)
theorem sound_putUsbPart (slot : Nat) (part : UsbPart) (x : UsbDev) (s : State) (h3 : Sound s) : Sound (putUsbPart slot part x s) := by
  unfold putUsbPart
  with_reducible (repeat' first
    | assumption | apply Sound.regs | apply Sound.flash | apply Sound.keeping | apply Sound.sdram | apply Sound.stage | apply Sound.porch
    | apply Sound.hwRam | apply Sound.bufEcc | apply Sound.keepEcc | apply Sound.hwEcc
    | (simp only [Sound.lit_iff]; refine ⟨?_, ?_, ?_, ?_, ?_, ?_, ?_, ?_, ?_, ?_⟩) | dsimp only)
theorem sound_partRequest (slot : Nat) (part : UsbPart) (f : State → State) (s : State) (h2 : ∀ y0, Sound y0 → Sound (f y0)) (h3 : Sound s) : Sound (partRequest slot part f s) := by
  unfold partRequest
  with_reducible (repeat' first
    | assumption | intro _ | apply sound_hubRequest | apply sound_stallPort | apply h2 | apply Sound.ite | split | dsimp only)
theorem sound_setPartWake (slot : Nat) (part : UsbPart) (on : Bool) (s : State) (h3 : Sound s) : Sound (setPartWake slot part on s) := by
  unfold setPartWake
  with_reducible (repeat' first
    | assumption | apply sound_State_on | apply sound_State_wrB | apply Sound.ite | split | apply Sound.regs | apply Sound.flash | apply Sound.keeping
    | apply Sound.sdram | apply Sound.stage | apply Sound.porch | apply Sound.hwRam | apply Sound.bufEcc | apply Sound.keepEcc | apply Sound.hwEcc
    | (simp only [Sound.lit_iff]; refine ⟨?_, ?_, ?_, ?_, ?_, ?_, ?_, ?_, ?_, ?_⟩) | dsimp only)
theorem sound_commonRequest (slot : Nat) (part : UsbPart) (last : Nat) (r : UsbRequest) (s : State) (h4 : Sound s) : Sound (commonRequest slot part last r s) := by
  unfold commonRequest
  with_reducible (repeat' first
    | assumption | intro _ | apply sound_putUsbPart | apply sound_stallPort | apply sound_State_emit | apply sound_State_on | apply sound_setPartWake
    | apply sound_State_drew | apply Sound.ite | apply Snd.ite | apply Snd.out | apply Tab.wf_filter | apply Tab.rising_filter | split
    | refine Snd.of (by assumption) ?_ | simp only [Snd.lit] | apply Sound.regs | apply Sound.flash | apply Sound.keeping | apply Sound.sdram
    | apply Sound.stage | apply Sound.porch | apply Sound.hwRam | apply Sound.bufEcc | apply Sound.keepEcc | apply Sound.hwEcc
    | (simp only [Sound.lit_iff]; refine ⟨?_, ?_, ?_, ?_, ?_, ?_, ?_, ?_, ?_, ?_⟩) | dsimp only)
theorem sound_putHubState (slot : Nat) (part : UsbPart) (state : Nat) (d : UsbDev) (s : State) (h4 : Sound s) : Sound (putHubState slot part state d s) := by
  unfold putHubState
  with_reducible (repeat' first
    | assumption | apply sound_putUsbPart | apply sound_State_wr | apply Sound.ite | split | dsimp only)
theorem sound_partDefault (slot : Nat) (part : UsbPart) (s : State) (h2 : Sound s) : Sound (partDefault slot part s) := by
  unfold partDefault
  with_reducible (repeat' first
    | assumption | apply sound_hubDefault | apply sound_putUsbPart | apply Sound.ite | split | dsimp only)
theorem sound_hubStandard (slot : Nat) (part : UsbPart) (r : UsbRequest) (s : State) (h3 : Sound s) : Sound (hubStandard slot part r s) := by
  unfold hubStandard
  with_reducible (repeat' first
    | assumption | intro _ | apply sound_State_emit | apply sound_partDefault | apply sound_putHubState | apply sound_stallPort
    | apply sound_putUsbPart | apply sound_State_drew | apply sound_partRequest | apply sound_modPort | apply sound_setPortLink
    | apply sound_State_off | apply sound_commonRequest | apply Sound.ite | apply Snd.ite | apply Snd.out | apply wf_nil | split
    | refine Snd.of (by assumption) ?_ | simp only [Snd.lit] | apply Sound.regs | apply Sound.flash | apply Sound.keeping | apply Sound.sdram
    | apply Sound.stage | apply Sound.porch | apply Sound.hwRam | apply Sound.bufEcc | apply Sound.keepEcc | apply Sound.hwEcc
    | (simp only [Sound.lit_iff]; refine ⟨?_, ?_, ?_, ?_, ?_, ?_, ?_, ?_, ?_, ?_⟩) | dsimp only [id])
theorem sound_functionStandard (slot : Nat) (r : UsbRequest) (s : State) (h2 : Sound s) : Sound (functionStandard slot r s) := by
  unfold functionStandard
  with_reducible (repeat' first
    | assumption | intro _ | apply sound_putUsbDev | apply sound_State_emit | apply sound_functionDefault | apply sound_stallPort
    | apply sound_State_drew | apply sound_commonRequest | apply Sound.ite | apply Snd.ite | apply Snd.out | apply wf_nil | split
    | refine Snd.of (by assumption) ?_ | simp only [Snd.lit] | apply Sound.regs | apply Sound.flash | apply Sound.keeping | apply Sound.sdram
    | apply Sound.stage | apply Sound.porch | apply Sound.hwRam | apply Sound.bufEcc | apply Sound.keepEcc | apply Sound.hwEcc
    | (simp only [Sound.lit_iff]; refine ⟨?_, ?_, ?_, ?_, ?_, ?_, ?_, ?_, ?_, ?_⟩) | dsimp only)
theorem sound_execInterruptInPoll (slot : Fin 8) (s : State) (h1 : Sound s) : SoundRes (execInterruptInPoll slot s) := by
  unfold execInterruptInPoll
  with_reducible (repeat' first
    | assumption | apply sound_completes | apply sound_State_emit | apply Sound.ite | split | apply Sound.regs | apply Sound.flash
    | apply Sound.keeping | apply Sound.sdram | apply Sound.stage | apply Sound.porch | apply Sound.hwRam | apply Sound.bufEcc | apply Sound.keepEcc
    | apply Sound.hwEcc | (simp only [Sound.lit_iff]; refine ⟨?_, ?_, ?_, ?_, ?_, ?_, ?_, ?_, ?_, ?_⟩) | dsimp only)
theorem sound_dfuStalls (s : State) (h0 : Sound s) : Sound (dfuStalls s) := by
  unfold dfuStalls
  with_reducible (repeat' first
    | assumption | apply sound_State_emit | apply Sound.ite | split | apply Sound.regs | apply Sound.flash | apply Sound.keeping | apply Sound.sdram
    | apply Sound.stage | apply Sound.porch | apply Sound.hwRam | apply Sound.bufEcc | apply Sound.keepEcc | apply Sound.hwEcc
    | (simp only [Sound.lit_iff]; refine ⟨?_, ?_, ?_, ?_, ?_, ?_, ?_, ?_, ?_, ?_⟩) | dsimp only)
theorem sound_dfuStandard (r : UsbRequest) (s : State) (h1 : Sound s) : Sound (dfuStandard r s) := by
  unfold dfuStandard
  with_reducible (repeat' first
    | assumption | intro _ | apply sound_putUsbDev | apply sound_State_emit | apply sound_State_drew | apply sound_dfuStalls | apply Sound.ite
    | apply Snd.ite | apply Snd.out | apply wf_nil | split | refine Snd.of (by assumption) ?_ | simp only [Snd.lit] | apply Sound.regs
    | apply Sound.flash | apply Sound.keeping | apply Sound.sdram | apply Sound.stage | apply Sound.porch | apply Sound.hwRam | apply Sound.bufEcc
    | apply Sound.keepEcc | apply Sound.hwEcc | (simp only [Sound.lit_iff]; refine ⟨?_, ?_, ?_, ?_, ?_, ?_, ?_, ?_, ?_, ?_⟩) | dsimp only)
theorem sound_execStandardRequest (slot : Fin 8) (part : UsbPart) (request : UsbRequest) (s : State) (h3 : Sound s) : SoundRes (execStandardRequest slot part request s) := by
  unfold execStandardRequest
  with_reducible (repeat' first
    | assumption | apply sound_completes | apply sound_dfuStandard | apply sound_functionStandard | apply sound_hubStandard | apply Sound.ite | split
    | dsimp only)

end Sys2Proof.Machine
end

