-- ==== Sys2Proof/Laws/Sound3.lean ====
section
/-! SUPPORT. Each operation of TypeC, Rbp, Motion, Drumhead, Spindle, Sled, Read keeps a state sound: the operations named in a goal are taken off one by
one, each by its own lemma. -/
namespace Sys2Proof.Machine
set_option linter.unusedVariables false

theorem sound_changeTc (t : Nat) (f : TypeC → TypeC) (s : State) (h2 : Sound s) : Sound (changeTc t f s) := by
  unfold changeTc
  with_reducible (repeat' first
    | assumption | intro _ | apply sound_putTc | dsimp only)
theorem sound_pdMessage (t : Nat) (f : State → State) (s : State) (h1 : ∀ y0, Sound y0 → Sound (f y0)) (h2 : Sound s) : Sound (pdMessage t f s) := by
  unfold pdMessage
  with_reducible (repeat' first
    | assumption | intro _ | apply sound_ringBell | apply h1 | apply Sound.ite | split | dsimp only)
theorem sound_sendPd (t : Nat) (m : Pd) (s : State) (h2 : Sound s) : Sound (sendPd t m s) := by
  unfold sendPd
  with_reducible (repeat' first
    | assumption | apply sound_State_emit | dsimp only)
theorem sound_sendCaps (t : Nat) (s : State) (h1 : Sound s) : Sound (sendCaps t s) := by
  unfold sendCaps
  with_reducible (repeat' first
    | assumption | intro _ | apply sound_sendPd | apply sound_changeTc | apply Sound.regs | apply Sound.flash | apply Sound.keeping
    | apply Sound.sdram | apply Sound.stage | apply Sound.porch | apply Sound.hwRam | apply Sound.bufEcc | apply Sound.keepEcc | apply Sound.hwEcc
    | (simp only [Sound.lit_iff]; refine ⟨?_, ?_, ?_, ?_, ?_, ?_, ?_, ?_, ?_, ?_⟩) | dsimp only)
theorem sound_hardReset (t : Nat) (s : State) (h1 : Sound s) : Sound (hardReset t s) := by
  unfold hardReset
  with_reducible (repeat' first
    | assumption | intro _ | apply sound_failOrRetry | apply sound_changeTc | apply sound_State_bump | apply sound_State_off | apply sound_toDischarge
    | apply sound_syncPath | apply sound_endContract | apply Sound.ite | split | apply Sound.regs | apply Sound.flash | apply Sound.keeping
    | apply Sound.sdram | apply Sound.stage | apply Sound.porch | apply Sound.hwRam | apply Sound.bufEcc | apply Sound.keepEcc | apply Sound.hwEcc
    | (simp only [Sound.lit_iff]; refine ⟨?_, ?_, ?_, ?_, ?_, ?_, ?_, ?_, ?_, ?_⟩) | dsimp only)
theorem sound_sendHardReset (t : Nat) (s : State) (h1 : Sound s) : Sound (sendHardReset t s) := by
  unfold sendHardReset
  with_reducible (repeat' first
    | assumption | apply sound_hardReset | apply sound_sendPd | dsimp only)
theorem sound_freshPd (t : Nat) (s : State) (h1 : Sound s) : Sound (freshPd t s) := by
  unfold freshPd
  with_reducible (repeat' first
    | assumption | intro _ | apply sound_retryEnd | apply sound_changeTc | apply wf_nil | apply Sound.regs | apply Sound.flash | apply Sound.keeping
    | apply Sound.sdram | apply Sound.stage | apply Sound.porch | apply Sound.hwRam | apply Sound.bufEcc | apply Sound.keepEcc | apply Sound.hwEcc
    | (simp only [Sound.lit_iff]; refine ⟨?_, ?_, ?_, ?_, ?_, ?_, ?_, ?_, ?_, ?_⟩) | dsimp only)
theorem sound_setCc (t : Nat) (cc1 : Nat) (cc2 : Nat) (s : State) (h3 : Sound s) : Sound (setCc t cc1 cc2 s) := by
  unfold setCc
  with_reducible (repeat' first
    | assumption | apply sound_setCause | apply sound_State_wr | dsimp only)
theorem sound_dfuConnect (up : UpConnect) (s : State) (h1 : Sound s) : Sound (dfuConnect up s) := by
  unfold dfuConnect
  with_reducible (repeat' first
    | assumption | apply sound_State_wr | apply Sound.ite | split | dsimp only)
theorem sound_noAttach (t : Nat) (s : State) (h1 : Sound s) : Sound (noAttach t s) := by
  unfold noAttach
  with_reducible (repeat' first
    | assumption | apply sound_State_wr | apply Sound.ite | split | dsimp only)
theorem sound_execTypecAttach (tile : Fin 14) (cc1 : Fin 7) (cc2 : Fin 7) (vbus : VbusSeen) (up : UpConnect) (s : State) (h5 : Sound s) : SoundRes (execTypecAttach tile cc1 cc2 vbus up s) := by
  unfold execTypecAttach
  with_reducible (repeat' first
    | assumption | apply sound_ringBell | apply sound_setCc | apply sound_senseVbus | apply sound_completes | apply sound_upConnect
    | apply sound_noAttach | apply sound_State_wr | apply sound_dfuConnect | apply sound_syncPath | apply sound_freshPd | apply Sound.ite | split
    | dsimp only)
theorem sound_detachTile (t : Nat) (s : State) (h1 : Sound s) : Sound (detachTile t s) := by
  unfold detachTile
  with_reducible (repeat' first
    | assumption | intro _ | apply sound_State_wr | apply sound_State_off | apply sound_syncPath | apply sound_endContract | apply sound_changeTc
    | apply sound_freshPd | apply sound_upGone | apply sound_portDisconnect | split | apply Sound.regs | apply Sound.flash | apply Sound.keeping
    | apply Sound.sdram | apply Sound.stage | apply Sound.porch | apply Sound.hwRam | apply Sound.bufEcc | apply Sound.keepEcc | apply Sound.hwEcc
    | (simp only [Sound.lit_iff]; refine ⟨?_, ?_, ?_, ?_, ?_, ?_, ?_, ?_, ?_, ?_⟩) | dsimp only)
theorem sound_execTypecDetach (tile : Fin 14) (cc1 : Fin 7) (cc2 : Fin 7) (vbus : Nat) (s : State) (h4 : Sound s) : SoundRes (execTypecDetach tile cc1 cc2 vbus s) := by
  unfold execTypecDetach
  with_reducible (repeat' first
    | assumption | apply sound_ringBell | apply sound_setCc | apply sound_senseVbus | apply sound_completes | apply sound_dfuGone
    | apply sound_detachTile | apply sound_State_wr | apply Sound.ite | split | dsimp only)
theorem sound_execCcUnsettled (tile : Fin 14) (line2 : Bool) (cls : Fin 7) (s : State) (h3 : Sound s) : SoundRes (execCcUnsettled tile line2 cls s) := by
  unfold execCcUnsettled
  with_reducible (repeat' first
    | assumption | apply sound_completes | apply sound_setCc | apply Sound.ite | split | dsimp only)
theorem sound_execDiscoverIdentityReply (tile : Fin 14) (vdos : Option (List Nat)) (fiveAmps : Bool) (s : State) (h3 : Sound s) : SoundRes (execDiscoverIdentityReply tile vdos fiveAmps s) := by
  unfold execDiscoverIdentityReply
  with_reducible (repeat' first
    | assumption | apply sound_completes | apply sound_ringBell | apply sound_putTc | apply sound_State_wrB | apply sound_sendPd
    | apply sound_State_off | apply Sound.ite | split | apply Sound.regs | apply Sound.flash | apply Sound.keeping | apply Sound.sdram
    | apply Sound.stage | apply Sound.porch | apply Sound.hwRam | apply Sound.bufEcc | apply Sound.keepEcc | apply Sound.hwEcc
    | (simp only [Sound.lit_iff]; refine ⟨?_, ?_, ?_, ?_, ?_, ?_, ?_, ?_, ?_, ?_⟩) | dsimp only)
theorem sound_execVconnLimit (tile : Fin 14) (s : State) (h1 : Sound s) : SoundRes (execVconnLimit tile s) := by
  unfold execVconnLimit
  with_reducible (repeat' first
    | assumption | apply sound_completes | apply sound_occur | apply sound_State_off | apply Sound.ite | split | dsimp only)
theorem sound_sendRequest (t : Nat) (c : Contract) (s : State) (h2 : Sound s) : Sound (sendRequest t c s) := by
  unfold sendRequest
  with_reducible (repeat' first
    | assumption | intro _ | apply sound_sendPd | apply sound_changeTc | apply Snd.ite | apply Snd.out | refine Snd.of (by assumption) ?_
    | simp only [Snd.lit] | apply Sound.regs | apply Sound.flash | apply Sound.keeping | apply Sound.sdram | apply Sound.stage | apply Sound.porch
    | apply Sound.hwRam | apply Sound.bufEcc | apply Sound.keepEcc | apply Sound.hwEcc
    | (simp only [Sound.lit_iff]; refine ⟨?_, ?_, ?_, ?_, ?_, ?_, ?_, ?_, ?_, ?_⟩) | dsimp only)
theorem sound_negotiateSink (t : Nat) (rev3 : Bool) (fixedOnly : Bool) (s : State) (h3 : Sound s) : Sound (negotiateSink t rev3 fixedOnly s) := by
  unfold negotiateSink
  with_reducible (repeat' first
    | assumption | apply sound_sendRequest | apply Sound.ite | split | dsimp only)
theorem sound_execSourceCapabilities (tile : Fin 14) (objs : List Nat) (rev3 : Bool) (s : State) (h3 : Sound s) : SoundRes (execSourceCapabilities tile objs rev3 s) := by
  unfold execSourceCapabilities
  with_reducible (repeat' first
    | assumption | intro _ | apply sound_completes | apply sound_pdMessage | apply sound_negotiateSink | apply sound_changeTc | apply Sound.ite
    | split | apply Sound.regs | apply Sound.flash | apply Sound.keeping | apply Sound.sdram | apply Sound.stage | apply Sound.porch
    | apply Sound.hwRam | apply Sound.bufEcc | apply Sound.keepEcc | apply Sound.hwEcc
    | (simp only [Sound.lit_iff]; refine ⟨?_, ?_, ?_, ?_, ?_, ?_, ?_, ?_, ?_, ?_⟩) | dsimp only)
theorem sound_putContract (t : Nat) (c : Contract) (s : State) (h2 : Sound s) : Sound (putContract t c s) := by
  unfold putContract
  with_reducible (repeat' first
    | assumption | intro _ | apply sound_State_wr | apply sound_retryEnd | apply sound_setGuards | apply sound_changeTc | apply sound_State_off
    | apply Sound.ite | split | apply Sound.regs | apply Sound.flash | apply Sound.keeping | apply Sound.sdram | apply Sound.stage | apply Sound.porch
    | apply Sound.hwRam | apply Sound.bufEcc | apply Sound.keepEcc | apply Sound.hwEcc
    | (simp only [Sound.lit_iff]; refine ⟨?_, ?_, ?_, ?_, ?_, ?_, ?_, ?_, ?_, ?_⟩) | dsimp only)
theorem sound_execAcceptRejectReceived (tile : Fin 14) (answer : PdAnswer) (s : State) (h2 : Sound s) : SoundRes (execAcceptRejectReceived tile answer s) := by
  unfold execAcceptRejectReceived
  with_reducible (repeat' first
    | assumption | intro _ | apply sound_completes | apply sound_pdMessage | apply sound_changeTc | apply sound_occur | apply Sound.ite | split
    | apply Sound.regs | apply Sound.flash | apply Sound.keeping | apply Sound.sdram | apply Sound.stage | apply Sound.porch | apply Sound.hwRam
    | apply Sound.bufEcc | apply Sound.keepEcc | apply Sound.hwEcc | (simp only [Sound.lit_iff]; refine ⟨?_, ?_, ?_, ?_, ?_, ?_, ?_, ?_, ?_, ?_⟩)
    | dsimp only)
theorem sound_execPsRdy (tile : Fin 14) (s : State) (h1 : Sound s) : SoundRes (execPsRdy tile s) := by
  unfold execPsRdy
  with_reducible (repeat' first
    | assumption | intro _ | apply sound_completes | apply sound_pdMessage | apply sound_changeTc | apply sound_putContract | apply Sound.ite | split
    | apply Sound.regs | apply Sound.flash | apply Sound.keeping | apply Sound.sdram | apply Sound.stage | apply Sound.porch | apply Sound.hwRam
    | apply Sound.bufEcc | apply Sound.keepEcc | apply Sound.hwEcc | (simp only [Sound.lit_iff]; refine ⟨?_, ?_, ?_, ?_, ?_, ?_, ?_, ?_, ?_, ?_⟩)
    | dsimp only)
theorem sound_execHardResetReceived (tile : Fin 14) (s : State) (h1 : Sound s) : SoundRes (execHardResetReceived tile s) := by
  unfold execHardResetReceived
  with_reducible (repeat' first
    | assumption | intro _ | apply sound_completes | apply sound_pdMessage | apply sound_hardReset | dsimp only)
theorem sound_execUnsupportedPdMessage (tile : Fin 14) (rev3 : Bool) (s : State) (h2 : Sound s) : SoundRes (execUnsupportedPdMessage tile rev3 s) := by
  unfold execUnsupportedPdMessage
  with_reducible (repeat' first
    | assumption | intro _ | apply sound_completes | apply sound_pdMessage | apply sound_sendPd | apply Sound.ite | split | dsimp only)
theorem sound_execSourceCapsRepeat (tile : Fin 14) (s : State) (h1 : Sound s) : SoundRes (execSourceCapsRepeat tile s) := by
  unfold execSourceCapsRepeat
  with_reducible (repeat' first
    | assumption | intro _ | apply sound_completes | apply sound_sendCaps | apply sound_changeTc | apply sound_State_wr | apply Sound.ite | split
    | apply Sound.regs | apply Sound.flash | apply Sound.keeping | apply Sound.sdram | apply Sound.stage | apply Sound.porch | apply Sound.hwRam
    | apply Sound.bufEcc | apply Sound.keepEcc | apply Sound.hwEcc | (simp only [Sound.lit_iff]; refine ⟨?_, ?_, ?_, ?_, ?_, ?_, ?_, ?_, ?_, ?_⟩)
    | dsimp only)
theorem sound_execSourceCapsTimeout (tile : Fin 14) (s : State) (h1 : Sound s) : SoundRes (execSourceCapsTimeout tile s) := by
  unfold execSourceCapsTimeout
  with_reducible (repeat' first
    | assumption | apply sound_completes | apply sound_State_wr | apply Sound.ite | split | dsimp only)
theorem sound_execGoodcrcReceived (tile : Fin 14) (s : State) (h1 : Sound s) : SoundRes (execGoodcrcReceived tile s) := by
  unfold execGoodcrcReceived
  with_reducible (repeat' first
    | assumption | intro _ | apply sound_completes | apply sound_pdMessage | apply sound_changeTc | apply Sound.ite | split | apply Sound.regs
    | apply Sound.flash | apply Sound.keeping | apply Sound.sdram | apply Sound.stage | apply Sound.porch | apply Sound.hwRam | apply Sound.bufEcc
    | apply Sound.keepEcc | apply Sound.hwEcc | (simp only [Sound.lit_iff]; refine ⟨?_, ?_, ?_, ?_, ?_, ?_, ?_, ?_, ?_, ?_⟩) | dsimp only)
theorem sound_execPdGetMessage (tile : Fin 14) (ask : PdGet) (rev3 : Bool) (s : State) (h3 : Sound s) : SoundRes (execPdGetMessage tile ask rev3 s) := by
  unfold execPdGetMessage
  with_reducible (repeat' first
    | assumption | intro _ | apply sound_completes | apply sound_pdMessage | apply sound_sendPd | apply sound_sendCaps | apply sound_State_drew
    | apply Sound.ite | apply Snd.ite | apply Snd.out | split | refine Snd.of (by assumption) ?_ | simp only [Snd.lit] | dsimp only)
theorem sound_execSoftResetReceived (tile : Fin 14) (s : State) (h1 : Sound s) : SoundRes (execSoftResetReceived tile s) := by
  unfold execSoftResetReceived
  with_reducible (repeat' first
    | assumption | intro _ | apply sound_completes | apply sound_pdMessage | apply sound_sendPd | apply sound_changeTc | apply sound_sendCaps
    | apply Sound.ite | split | apply Sound.regs | apply Sound.flash | apply Sound.keeping | apply Sound.sdram | apply Sound.stage | apply Sound.porch
    | apply Sound.hwRam | apply Sound.bufEcc | apply Sound.keepEcc | apply Sound.hwEcc
    | (simp only [Sound.lit_iff]; refine ⟨?_, ?_, ?_, ?_, ?_, ?_, ?_, ?_, ?_, ?_⟩) | dsimp only)
theorem sound_execPdRequest (tile : Fin 14) (rdo : Nat) (rev3 : Bool) (s : State) (h3 : Sound s) : SoundRes (execPdRequest tile rdo rev3 s) := by
  unfold execPdRequest
  with_reducible (repeat' first
    | assumption | intro _ | apply sound_completes | apply sound_pdMessage | apply sound_sendPd | apply sound_changeTc | apply sound_State_wr
    | apply sound_State_off | apply Sound.ite | split | apply Sound.regs | apply Sound.flash | apply Sound.keeping | apply Sound.sdram
    | apply Sound.stage | apply Sound.porch | apply Sound.hwRam | apply Sound.bufEcc | apply Sound.keepEcc | apply Sound.hwEcc
    | (simp only [Sound.lit_iff]; refine ⟨?_, ?_, ?_, ?_, ?_, ?_, ?_, ?_, ?_, ?_⟩) | dsimp only)
theorem sound_execTransitionWaitEnd (tile : Fin 14) (s : State) (h1 : Sound s) : SoundRes (execTransitionWaitEnd tile s) := by
  unfold execTransitionWaitEnd
  with_reducible (repeat' first
    | assumption | intro _ | apply sound_completes | apply sound_State_wr | apply sound_changeTc | apply sound_State_off | apply Sound.ite | split
    | apply Sound.regs | apply Sound.flash | apply Sound.keeping | apply Sound.sdram | apply Sound.stage | apply Sound.porch | apply Sound.hwRam
    | apply Sound.bufEcc | apply Sound.keepEcc | apply Sound.hwEcc | (simp only [Sound.lit_iff]; refine ⟨?_, ?_, ?_, ?_, ?_, ?_, ?_, ?_, ?_, ?_⟩)
    | dsimp only)
theorem sound_execVbusSettled (tile : Fin 14) (vbus : Nat) (s : State) (h2 : Sound s) : SoundRes (execVbusSettled tile vbus s) := by
  unfold execVbusSettled
  with_reducible (repeat' first
    | assumption | apply sound_senseVbus | apply sound_completes | apply sound_sendPd | apply sound_putContract | apply sound_State_wr
    | apply Sound.ite | split | dsimp only)
theorem sound_execTransitionLimit (tile : Fin 14) (s : State) (h1 : Sound s) : SoundRes (execTransitionLimit tile s) := by
  unfold execTransitionLimit
  with_reducible (repeat' first
    | assumption | apply sound_completes | apply sound_sendHardReset | apply Sound.ite | split | dsimp only)
theorem sound_execPpsRequestTimer (tile : Fin 14) (s : State) (h1 : Sound s) : SoundRes (execPpsRequestTimer tile s) := by
  unfold execPpsRequestTimer
  with_reducible (repeat' first
    | assumption | apply sound_completes | apply sound_negotiateSink | apply sound_sendRequest | apply Sound.ite | split | dsimp only)
theorem sound_missRequest (t : Nat) (s : State) (h1 : Sound s) : Sound (missRequest t s) := by
  unfold missRequest
  with_reducible (repeat' first
    | assumption | apply sound_sendHardReset | apply sound_State_bump | apply Sound.ite | split | dsimp only)
theorem sound_missLate (s : State) (h0 : Sound s) : Sound (missLate s) := by
  unfold missLate
  with_reducible (repeat' first
    | assumption | intro _ | apply sound_missRequest | apply sound_changeTc | apply Sound.ite | apply Sound.foldl | apply Snd.ite | apply Snd.foldl
    | apply Snd.out | split | refine Snd.of (by assumption) ?_ | simp only [Snd.lit] | apply Sound.regs | apply Sound.flash | apply Sound.keeping
    | apply Sound.sdram | apply Sound.stage | apply Sound.porch | apply Sound.hwRam | apply Sound.bufEcc | apply Sound.keepEcc | apply Sound.hwEcc
    | (simp only [Sound.lit_iff]; refine ⟨?_, ?_, ?_, ?_, ?_, ?_, ?_, ?_, ?_, ?_⟩) | dsimp only)
theorem sound_execPpsKeepaliveTimeout (tile : Fin 14) (s : State) (h1 : Sound s) : SoundRes (execPpsKeepaliveTimeout tile s) := by
  unfold execPpsKeepaliveTimeout
  with_reducible (repeat' first
    | assumption | intro _ | apply sound_completes | apply sound_missRequest | apply sound_changeTc | apply Sound.ite | split | apply Sound.regs
    | apply Sound.flash | apply Sound.keeping | apply Sound.sdram | apply Sound.stage | apply Sound.porch | apply Sound.hwRam | apply Sound.bufEcc
    | apply Sound.keepEcc | apply Sound.hwEcc | (simp only [Sound.lit_iff]; refine ⟨?_, ?_, ?_, ?_, ?_, ?_, ?_, ?_, ?_, ?_⟩) | dsimp only)
theorem sound_execPdRetriesExhausted (tile : Fin 14) (s : State) (h1 : Sound s) : SoundRes (execPdRetriesExhausted tile s) := by
  unfold execPdRetriesExhausted
  with_reducible (repeat' first
    | assumption | intro _ | apply sound_completes | apply sound_sendHardReset | apply sound_sendPd | apply sound_changeTc | apply Sound.ite | split
    | apply Sound.regs | apply Sound.flash | apply Sound.keeping | apply Sound.sdram | apply Sound.stage | apply Sound.porch | apply Sound.hwRam
    | apply Sound.bufEcc | apply Sound.keepEcc | apply Sound.hwEcc | (simp only [Sound.lit_iff]; refine ⟨?_, ?_, ?_, ?_, ?_, ?_, ?_, ?_, ?_, ?_⟩)
    | dsimp only)
theorem sound_clFlag (t : Nat) (s : State) (h1 : Sound s) : Sound (clFlag t s) := by
  unfold clFlag
  with_reducible (repeat' first
    | assumption | apply sound_State_wrB | dsimp only)
theorem sound_execVoltageLoop (tile : Fin 14) (vout : Nat) (s : State) (h2 : Sound s) : SoundRes (execVoltageLoop tile vout s) := by
  unfold execVoltageLoop
  with_reducible (repeat' first
    | assumption | apply sound_completes | apply sound_State_wr | apply sound_clFlag | apply Sound.ite | apply Snd.ite | apply Snd.out | split
    | refine Snd.of (by assumption) ?_ | simp only [Snd.lit] | dsimp only)
theorem sound_execCurrentLimitLoop (tile : Fin 14) (ibus : Nat) (vbus : Nat) (s : State) (h3 : Sound s) : SoundRes (execCurrentLimitLoop tile ibus vbus s) := by
  unfold execCurrentLimitLoop
  with_reducible (repeat' first
    | assumption | apply sound_senseVbus | apply sound_State_wr | apply sound_completes | apply sound_clFlag | apply Sound.ite | split | dsimp only)
theorem sound_tripDown (t : Nat) (s : State) (h1 : Sound s) : Sound (tripDown t s) := by
  unfold tripDown
  with_reducible (repeat' first
    | assumption | apply sound_toDischarge | apply Sound.ite | split | dsimp only)
theorem sound_sendAlert (t : Nat) (ovp : Bool) (s : State) (h2 : Sound s) : Sound (sendAlert t ovp s) := by
  unfold sendAlert
  with_reducible (repeat' first
    | assumption | intro _ | apply sound_sendPd | apply sound_changeTc | apply Sound.ite | split | apply Sound.regs | apply Sound.flash
    | apply Sound.keeping | apply Sound.sdram | apply Sound.stage | apply Sound.porch | apply Sound.hwRam | apply Sound.bufEcc | apply Sound.keepEcc
    | apply Sound.hwEcc | (simp only [Sound.lit_iff]; refine ⟨?_, ?_, ?_, ?_, ?_, ?_, ?_, ?_, ?_, ?_⟩) | dsimp only)
theorem sound_execOvpTrip (tile : Fin 14) (s : State) (h1 : Sound s) : SoundRes (execOvpTrip tile s) := by
  unfold execOvpTrip
  with_reducible (repeat' first
    | assumption | intro _ | apply sound_State_bump | apply sound_sendAlert | apply sound_tripDown | apply sound_syncSink | apply sound_changeTc
    | apply sound_completes | apply sound_occur | apply Sound.ite | split | apply Sound.regs | apply Sound.flash | apply Sound.keeping
    | apply Sound.sdram | apply Sound.stage | apply Sound.porch | apply Sound.hwRam | apply Sound.bufEcc | apply Sound.keepEcc | apply Sound.hwEcc
    | (simp only [Sound.lit_iff]; refine ⟨?_, ?_, ?_, ?_, ?_, ?_, ?_, ?_, ?_, ?_⟩) | dsimp only)
theorem sound_overCurrent (t : Nat) (s : State) (h1 : Sound s) : Sound (overCurrent t s) := by
  unfold overCurrent
  with_reducible (repeat' first
    | assumption | intro _ | apply sound_modPort | apply sound_State_off | apply sound_State_on | apply Snd.ite | apply Snd.out | split
    | refine Snd.of (by assumption) ?_ | simp only [Snd.lit] | apply Sound.regs | apply Sound.flash | apply Sound.keeping | apply Sound.sdram
    | apply Sound.stage | apply Sound.porch | apply Sound.hwRam | apply Sound.bufEcc | apply Sound.keepEcc | apply Sound.hwEcc
    | (simp only [Sound.lit_iff]; refine ⟨?_, ?_, ?_, ?_, ?_, ?_, ?_, ?_, ?_, ?_⟩) | dsimp only)
theorem sound_execOcpTrip (tile : Fin 14) (s : State) (h1 : Sound s) : SoundRes (execOcpTrip tile s) := by
  unfold execOcpTrip
  with_reducible (repeat' first
    | assumption | apply sound_completes | apply sound_tripDown | apply sound_State_bump | apply sound_sendAlert | apply sound_occur
    | apply sound_portDisconnect | apply sound_syncPath | apply sound_overCurrent | apply Sound.ite | split | dsimp only)
theorem sound_execReverseCurrentTrip (tile : Fin 14) (present : Bool) (s : State) (h2 : Sound s) : SoundRes (execReverseCurrentTrip tile present s) := by
  unfold execReverseCurrentTrip
  with_reducible (repeat' first
    | assumption | intro _ | apply sound_completes | apply sound_State_bump | apply sound_occur | apply sound_tripDown | apply sound_syncSink
    | apply sound_changeTc | apply Sound.ite | split | apply Sound.regs | apply Sound.flash | apply Sound.keeping | apply Sound.sdram
    | apply Sound.stage | apply Sound.porch | apply Sound.hwRam | apply Sound.bufEcc | apply Sound.keepEcc | apply Sound.hwEcc
    | (simp only [Sound.lit_iff]; refine ⟨?_, ?_, ?_, ?_, ?_, ?_, ?_, ?_, ?_, ?_⟩) | dsimp only)
theorem sound_execOvpRecovery (tile : Fin 14) (s : State) (h1 : Sound s) : SoundRes (execOvpRecovery tile s) := by
  unfold execOvpRecovery
  with_reducible (repeat' first
    | assumption | intro _ | apply sound_completes | apply sound_sendHardReset | apply sound_syncSink | apply sound_changeTc | apply Sound.ite | split
    | apply Sound.regs | apply Sound.flash | apply Sound.keeping | apply Sound.sdram | apply Sound.stage | apply Sound.porch | apply Sound.hwRam
    | apply Sound.bufEcc | apply Sound.keepEcc | apply Sound.hwEcc | (simp only [Sound.lit_iff]; refine ⟨?_, ?_, ?_, ?_, ?_, ?_, ?_, ?_, ?_, ?_⟩)
    | dsimp only)
theorem sound_startVconn (t : Nat) (s : State) (h1 : Sound s) : Sound (startVconn t s) := by
  unfold startVconn
  with_reducible (repeat' first
    | assumption | intro _ | apply sound_State_off | apply sound_sendPd | apply sound_changeTc | apply sound_State_on | apply Sound.ite | apply wf_nil
    | split | apply Sound.regs | apply Sound.flash | apply Sound.keeping | apply Sound.sdram | apply Sound.stage | apply Sound.porch
    | apply Sound.hwRam | apply Sound.bufEcc | apply Sound.keepEcc | apply Sound.hwEcc
    | (simp only [Sound.lit_iff]; refine ⟨?_, ?_, ?_, ?_, ?_, ?_, ?_, ?_, ?_, ?_⟩) | dsimp only)
theorem sound_execSoftStartComplete (tile : Fin 14) (vbus : Nat) (s : State) (h2 : Sound s) : SoundRes (execSoftStartComplete tile vbus s) := by
  unfold execSoftStartComplete
  with_reducible (repeat' first
    | assumption | intro _ | apply sound_senseVbus | apply sound_completes | apply sound_startVconn | apply sound_State_wr | apply sound_sendCaps
    | apply sound_changeTc | apply Sound.ite | split | apply Sound.regs | apply Sound.flash | apply Sound.keeping | apply Sound.sdram
    | apply Sound.stage | apply Sound.porch | apply Sound.hwRam | apply Sound.bufEcc | apply Sound.keepEcc | apply Sound.hwEcc
    | (simp only [Sound.lit_iff]; refine ⟨?_, ?_, ?_, ?_, ?_, ?_, ?_, ?_, ?_, ?_⟩) | dsimp only)
theorem sound_execSoftStartLimit (tile : Fin 14) (s : State) (h1 : Sound s) : SoundRes (execSoftStartLimit tile s) := by
  unfold execSoftStartLimit
  with_reducible (repeat' first
    | assumption | apply sound_completes | apply sound_occur | apply sound_toDischarge | apply Sound.ite | split | dsimp only)
theorem sound_execVbusSafeZero (tile : Fin 14) (vbus : Nat) (s : State) (h2 : Sound s) : SoundRes (execVbusSafeZero tile vbus s) := by
  unfold execVbusSafeZero
  with_reducible (repeat' first
    | assumption | apply sound_senseVbus | apply sound_completes | apply sound_occur | apply sound_toDischarge | apply sound_syncPath
    | apply sound_State_off | apply sound_State_wr | apply Sound.ite | split | dsimp only)
theorem sound_execDischargeLimit (tile : Fin 14) (s : State) (h1 : Sound s) : SoundRes (execDischargeLimit tile s) := by
  unfold execDischargeLimit
  with_reducible (repeat' first
    | assumption | apply sound_completes | apply sound_occur | apply Sound.ite | split | dsimp only)
theorem sound_execHardResetHoldExpire (tile : Fin 14) (s : State) (h1 : Sound s) : SoundRes (execHardResetHoldExpire tile s) := by
  unfold execHardResetHoldExpire
  with_reducible (repeat' first
    | assumption | intro _ | apply sound_completes | apply sound_syncPath | apply sound_changeTc | apply Sound.ite | split | apply Sound.regs
    | apply Sound.flash | apply Sound.keeping | apply Sound.sdram | apply Sound.stage | apply Sound.porch | apply Sound.hwRam | apply Sound.bufEcc
    | apply Sound.keepEcc | apply Sound.hwEcc | (simp only [Sound.lit_iff]; refine ⟨?_, ?_, ?_, ?_, ?_, ?_, ?_, ?_, ?_, ?_⟩) | dsimp only)
theorem sound_execVbusQueueTurn (s : State) (h0 : Sound s) : SoundRes (execVbusQueueTurn s) := by
  unfold execVbusQueueTurn
  with_reducible (repeat' first
    | assumption | apply sound_completes | apply sound_State_wr | apply sound_State_on | apply sound_setGuards | split | dsimp only)
theorem sound_moistResult (t : Nat) (zs : List Nat) (s : State) (h2 : Sound s) : Sound (moistResult t zs s) := by
  unfold moistResult
  with_reducible (repeat' first
    | assumption | intro _ | apply sound_State_wr | apply sound_occur | apply sound_syncPath | apply sound_changeTc | apply sound_State_on
    | apply sound_State_bump | apply sound_State_off | apply Sound.ite | apply Sound.foldl | apply Snd.ite | apply Snd.foldl | apply Snd.out | split
    | refine Snd.of (by assumption) ?_ | simp only [Snd.lit] | apply Sound.regs | apply Sound.flash | apply Sound.keeping | apply Sound.sdram
    | apply Sound.stage | apply Sound.porch | apply Sound.hwRam | apply Sound.bufEcc | apply Sound.keepEcc | apply Sound.hwEcc
    | (simp only [Sound.lit_iff]; refine ⟨?_, ?_, ?_, ?_, ?_, ?_, ?_, ?_, ?_, ?_⟩) | dsimp only)
theorem sound_detectNow (t : Nat) (cc1 : Nat) (cc2 : Nat) (s : State) (h3 : Sound s) : Sound (detectNow t cc1 cc2 s) := by
  unfold detectNow
  with_reducible (repeat' first
    | assumption | apply sound_setCc | apply sound_State_wr | apply Sound.ite | split | dsimp only)
theorem sound_moistTest (t : Nat) (zs : List Nat) (s : State) (h2 : Sound s) : Sound (moistTest t zs s) := by
  unfold moistTest
  with_reducible (repeat' first
    | assumption | intro _ | apply sound_moistResult | apply sound_State_wr | apply Sound.ite | apply Sound.foldl | apply Snd.ite | apply Snd.foldl
    | apply Snd.out | split | refine Snd.of (by assumption) ?_ | simp only [Snd.lit] | dsimp only)
theorem sound_execMoistureTest (tile : Fin 14) (cc1 : Nat) (cc2 : Nat) (sbu1 : Nat) (sbu2 : Nat) (s : State) (h5 : Sound s) : SoundRes (execMoistureTest tile cc1 cc2 sbu1 sbu2 s) := by
  unfold execMoistureTest
  with_reducible (repeat' first
    | assumption | apply sound_completes | apply sound_detectNow | apply sound_moistTest | apply Sound.ite | split | dsimp only)
theorem sound_execMoistureRetest (tile : Fin 14) (cc1 : Nat) (cc2 : Nat) (sbu1 : Nat) (sbu2 : Nat) (s : State) (h5 : Sound s) : SoundRes (execMoistureRetest tile cc1 cc2 sbu1 sbu2 s) := by
  unfold execMoistureRetest
  with_reducible (repeat' first
    | assumption | apply sound_completes | apply sound_moistResult | apply sound_detectNow | apply Sound.ite | split | dsimp only)
theorem sound_tileMail (slot : Nat) (op : Nat) (len : Nat) (h : Nat → List Nat → State → MailAnswer) (s : State) (h3 : ∀ y0 y1 y2, Sound y2 → Thd (h y0 y1 y2)) (h4 : Sound s) : Sound (tileMail slot op len h s) := by
  unfold tileMail
  with_reducible (repeat' first
    | assumption | intro _ | apply sound_serveMail | apply sound_failMail | apply h3 | apply Sound.ite | apply Thd.ite | apply Thd.out | apply Snd.ite
    | apply Snd.out | apply Thd.rest | split | refine Thd.of (by assumption) ?_ | simp only [Thd.lit] | apply Thd.pair | dsimp only)
theorem sound_execPdInfo (slot : Fin 8) (s : State) (h1 : Sound s) : SoundRes (execPdInfo slot s) := by
  unfold execPdInfo
  with_reducible (repeat' first
    | assumption | intro _ | apply sound_completes | apply sound_tileMail | apply sound_okMail | apply Sound.foldl | apply Thd.ite | apply Thd.foldl
    | apply Thd.out | apply Snd.ite | apply Snd.foldl | apply Snd.out | apply Thd.rest | refine Thd.of (by assumption) ?_
    | refine Snd.of (by assumption) ?_ | simp only [Thd.lit] | simp only [Snd.lit] | apply Thd.pair | dsimp only)
theorem sound_execSinkSet (slot : Fin 8) (granted : Option Bool) (s : State) (h2 : Sound s) : SoundRes (execSinkSet slot granted s) := by
  unfold execSinkSet
  with_reducible (repeat' first
    | assumption | intro _ | apply sound_completes | apply sound_tileMail | apply sound_failMail | apply sound_negotiateSink | apply sound_changeTc
    | apply sound_okMail | apply Sound.ite | apply Thd.ite | apply Thd.out | apply Snd.ite | apply Snd.out | apply Thd.rest | split
    | refine Thd.of (by assumption) ?_ | simp only [Thd.lit] | apply Thd.pair | apply Sound.regs | apply Sound.flash | apply Sound.keeping
    | apply Sound.sdram | apply Sound.stage | apply Sound.porch | apply Sound.hwRam | apply Sound.bufEcc | apply Sound.keepEcc | apply Sound.hwEcc
    | (simp only [Sound.lit_iff]; refine ⟨?_, ?_, ?_, ?_, ?_, ?_, ?_, ?_, ?_, ?_⟩) | dsimp only)
theorem sound_execPdHardResetMailbox (slot : Fin 8) (s : State) (h1 : Sound s) : SoundRes (execPdHardResetMailbox slot s) := by
  unfold execPdHardResetMailbox
  with_reducible (repeat' first
    | assumption | intro _ | apply sound_completes | apply sound_tileMail | apply sound_failMail | apply sound_okMail | apply sound_sendHardReset
    | apply Sound.ite | apply Thd.ite | apply Thd.out | apply Snd.ite | apply Snd.out | apply Thd.rest | split | refine Thd.of (by assumption) ?_
    | simp only [Thd.lit] | apply Thd.pair | dsimp only)
theorem sound_execRecap (slot : Fin 8) (contract : Bool) (s : State) (h2 : Sound s) : SoundRes (execRecap slot contract s) := by
  unfold execRecap
  with_reducible (repeat' first
    | assumption | intro _ | apply sound_completes | apply sound_tileMail | apply sound_failMail | apply sound_sendPd | apply sound_sendCaps
    | apply sound_okMail | apply Sound.ite | apply Thd.ite | apply Thd.out | apply Snd.ite | apply Snd.out | apply Thd.rest | split
    | refine Thd.of (by assumption) ?_ | simp only [Thd.lit] | apply Thd.pair | dsimp only)
theorem sound_execCableInfo (slot : Fin 8) (s : State) (h1 : Sound s) : SoundRes (execCableInfo slot s) := by
  unfold execCableInfo
  with_reducible (repeat' first
    | assumption | intro _ | apply sound_completes | apply sound_tileMail | apply sound_failMail | apply sound_okMail | apply Sound.ite
    | apply Thd.ite | apply Thd.out | apply Snd.ite | apply Snd.out | apply Thd.rest | split | refine Thd.of (by assumption) ?_ | simp only [Thd.lit]
    | apply Thd.pair | dsimp only)
theorem sound_changeRbp (p : Nat) (f : Rbp → Rbp) (s : State) (h2 : Sound s) : Sound (changeRbp p f s) := by
  unfold changeRbp
  with_reducible (repeat' first
    | assumption | intro _ | apply sound_putRbp | dsimp only)
theorem sound_protocolError (p : Nat) (s : State) (h1 : Sound s) : Sound (protocolError p s) := by
  unfold protocolError
  with_reducible (repeat' first
    | assumption | intro _ | apply sound_changeRbp | apply sound_occur | apply sound_State_bump | split | apply Sound.regs | apply Sound.flash
    | apply Sound.keeping | apply Sound.sdram | apply Sound.stage | apply Sound.porch | apply Sound.hwRam | apply Sound.bufEcc | apply Sound.keepEcc
    | apply Sound.hwEcc | (simp only [Sound.lit_iff]; refine ⟨?_, ?_, ?_, ?_, ?_, ?_, ?_, ?_, ?_, ?_⟩) | dsimp only)
theorem sound_served (p : Nat) (f : Nat → State → State) (s : State) (h1 : ∀ y0 y1, Sound y1 → Sound (f y0 y1)) (h2 : Sound s) : Sound (served p f s) := by
  unfold served
  with_reducible (repeat' first
    | assumption | intro _ | apply h1 | apply Sound.ite | split | dsimp only)
theorem sound_window (p : Nat) (f : Nat → State → State) (s : State) (h1 : ∀ y0 y1, Sound y1 → Sound (f y0 y1)) (h2 : Sound s) : Sound (window p f s) := by
  unfold window
  with_reducible (repeat' first
    | assumption | intro _ | apply sound_served | apply sound_protocolError | apply h1 | apply Sound.ite | split | dsimp only)
theorem sound_storePorch (p off v : Nat) (s : State) (h : Sound s) : Sound (storePorch p off v s) := ⟨wf_storePorch h.1 p off v, h.2⟩
theorem sound_mendPorch (p : Nat) (off : Nat) (s : State) (h2 : Sound s) : Sound (mendPorch p off s) := by
  unfold mendPorch
  with_reducible (repeat' first
    | assumption | intro _ | apply sound_setBufEcc | apply sound_State_off | apply sound_storePorch | apply Sound.foldl | apply Snd.ite
    | apply Snd.foldl | apply Snd.out | refine Snd.of (by assumption) ?_ | simp only [Snd.lit] | dsimp only)
theorem sound_putPorch (p : Nat) (off : Nat) (v : Nat) (s : State) (h3 : Sound s) : Sound (putPorch p off v s) := by
  unfold putPorch
  with_reducible (repeat' first
    | assumption | apply sound_storePorch | apply sound_State_off | apply sound_mendPorch | apply Sound.ite | split | dsimp only)
theorem sound_sensePorch (p : Nat) (off : Nat) (n : Nat) (s : State) (h3 : Sound s) : Sound (sensePorch p off n s) := by
  unfold sensePorch
  with_reducible (repeat' first
    | assumption | intro _ | apply sound_State_off | apply sound_readBuf | apply sound_occur | apply Sound.foldl | apply Snd.ite | apply Snd.foldl
    | apply Snd.out | apply Tab.wf_filter | apply Tab.rising_filter | split | refine Snd.of (by assumption) ?_ | simp only [Snd.lit] | dsimp only)
theorem sound_putPorchList (p : Nat) : ∀ (z2 : List Nat) (z1 : Nat) (z3 : State) (h3 : Sound z3), Sound (putPorchList p z1 z2 z3) := by
  intro z2
  induction z2 with
  | nil =>
    intros
    unfold putPorchList
    with_reducible (repeat' first
      | assumption | apply sound_State_off | apply sound_putPorch | split | dsimp only)
  | cons _ _ ih =>
    intros
    unfold putPorchList
    with_reducible (repeat' first
      | assumption | apply sound_State_off | apply sound_putPorch | apply ih | split | dsimp only)
theorem sound_resetPort (p : Nat) (s : State) (h1 : Sound s) : Sound (resetPort p s) := by
  unfold resetPort
  with_reducible (repeat' first
    | assumption | intro _ | apply sound_State_rstAll | apply sound_putRbp | apply Sound.ite | apply Snd.ite | apply Snd.out | apply Tab.wf_filter
    | apply Tab.rising_filter | split | refine Snd.of (by assumption) ?_ | simp only [Snd.lit] | apply Sound.regs | apply Sound.flash
    | apply Sound.keeping | apply Sound.sdram | apply Sound.stage | apply Sound.porch | apply Sound.hwRam | apply Sound.bufEcc | apply Sound.keepEcc
    | apply Sound.hwEcc | (simp only [Sound.lit_iff]; refine ⟨?_, ?_, ?_, ?_, ?_, ?_, ?_, ?_, ?_, ?_⟩) | dsimp only)
theorem sound_clearIrq (slot : Nat) (irq : Nat) (s : State) (h2 : Sound s) : Sound (clearIrq slot irq s) := by
  unfold clearIrq
  with_reducible (repeat' first
    | assumption | intro _ | apply sound_State_off | apply sound_passOn | apply Sound.ite | apply Sound.foldl | apply Snd.ite | apply Snd.foldl
    | apply Snd.out | split | refine Snd.of (by assumption) ?_ | simp only [Snd.lit] | dsimp only)
theorem sound_setDma (p : Nat) (phase : Nat) (s : State) (h2 : Sound s) : Sound (setDma p phase s) := by
  unfold setDma
  with_reducible (repeat' first
    | assumption | intro _ | apply sound_changeRbp | apply Sound.regs | apply Sound.flash | apply Sound.keeping | apply Sound.sdram
    | apply Sound.stage | apply Sound.porch | apply Sound.hwRam | apply Sound.bufEcc | apply Sound.keepEcc | apply Sound.hwEcc
    | (simp only [Sound.lit_iff]; refine ⟨?_, ?_, ?_, ?_, ?_, ?_, ?_, ?_, ?_, ?_⟩) | dsimp only)
theorem sound_stageBurst (p : Nat) (slot : Nat) : ∀ (z2 : Nat) (z3 : Nat) (z4 : State) (h4 : Sound z4), Sound (stageBurst p slot z2 z3 z4) := by
  intro z2
  induction z2 with
  | zero =>
    intros
    unfold stageBurst
    with_reducible (repeat' first
      | assumption | intro _ | apply sound_State_off | apply sound_changeRbp | apply sound_memRefuse | apply sound_unitRead | apply Sound.ite
      | apply Snd.ite | apply Snd.out | split | refine Snd.of (by assumption) ?_ | simp only [Snd.lit] | apply Sound.regs | apply Sound.flash
      | apply Sound.keeping | apply Sound.sdram | apply Sound.stage | apply Sound.porch | apply Sound.hwRam | apply Sound.bufEcc | apply Sound.keepEcc
      | apply Sound.hwEcc | (simp only [Sound.lit_iff]; refine ⟨?_, ?_, ?_, ?_, ?_, ?_, ?_, ?_, ?_, ?_⟩) | dsimp only)
  | succ _ ih =>
    intros
    unfold stageBurst
    with_reducible (repeat' first
      | assumption | intro _ | apply sound_State_off | apply sound_changeRbp | apply sound_memRefuse | apply sound_unitRead | apply ih
      | apply Sound.ite | apply Snd.ite | apply Snd.out | split | refine Snd.of (by assumption) ?_ | simp only [Snd.lit] | apply Sound.regs
      | apply Sound.flash | apply Sound.keeping | apply Sound.sdram | apply Sound.stage | apply Sound.porch | apply Sound.hwRam | apply Sound.bufEcc
      | apply Sound.keepEcc | apply Sound.hwEcc | (simp only [Sound.lit_iff]; refine ⟨?_, ?_, ?_, ?_, ?_, ?_, ?_, ?_, ?_, ?_⟩) | dsimp only)
theorem sound_requestBus (p : Nat) (s : State) (h1 : Sound s) : Sound (requestBus p s) := by
  unfold requestBus
  with_reducible (repeat' first
    | assumption | intro _ | apply sound_changeRbp | apply sound_stageBurst | apply sound_State_emit | apply Sound.ite | apply wf_nil | split
    | apply Sound.regs | apply Sound.flash | apply Sound.keeping | apply Sound.sdram | apply Sound.stage | apply Sound.porch | apply Sound.hwRam
    | apply Sound.bufEcc | apply Sound.keepEcc | apply Sound.hwEcc | (simp only [Sound.lit_iff]; refine ⟨?_, ?_, ?_, ?_, ?_, ?_, ?_, ?_, ?_, ?_⟩)
    | dsimp only)
theorem sound_drainHead (p : Nat) : ∀ (z1 : Nat) (z2 : State) (h2 : Sound z2), Sound (drainHead p z1 z2) := by
  intro z1
  induction z1 with
  | zero =>
    intros
    unfold drainHead
    with_reducible (repeat' first
      | assumption | intro _ | apply sound_clearIrq | apply sound_changeRbp | apply sound_requestBus | split | apply Sound.regs | apply Sound.flash
      | apply Sound.keeping | apply Sound.sdram | apply Sound.stage | apply Sound.porch | apply Sound.hwRam | apply Sound.bufEcc | apply Sound.keepEcc
      | apply Sound.hwEcc | (simp only [Sound.lit_iff]; refine ⟨?_, ?_, ?_, ?_, ?_, ?_, ?_, ?_, ?_, ?_⟩) | dsimp only)
  | succ _ ih =>
    intros
    unfold drainHead
    with_reducible (repeat' first
      | assumption | intro _ | apply sound_clearIrq | apply sound_changeRbp | apply sound_requestBus | apply ih | split | apply Sound.regs
      | apply Sound.flash | apply Sound.keeping | apply Sound.sdram | apply Sound.stage | apply Sound.porch | apply Sound.hwRam | apply Sound.bufEcc
      | apply Sound.keepEcc | apply Sound.hwEcc | (simp only [Sound.lit_iff]; refine ⟨?_, ?_, ?_, ?_, ?_, ?_, ?_, ?_, ?_, ?_⟩) | dsimp only)
theorem sound_syncFill (p : Nat) (s : State) (h1 : Sound s) : Sound (syncFill p s) := by
  unfold syncFill
  with_reducible (repeat' first
    | assumption | apply sound_State_on | apply Sound.ite | split | dsimp only)
theorem sound_admitWait (p : Nat) (w : BusWait) (s : State) (h2 : Sound s) : Sound (admitWait p w s) := by
  unfold admitWait
  with_reducible (repeat' first
    | assumption | intro _ | apply sound_State_off | apply sound_changeRbp | apply sound_putPorchList | apply sound_State_wr | apply sound_drainHead
    | apply Sound.ite | apply Snd.ite | apply Snd.out | split | refine Snd.of (by assumption) ?_ | simp only [Snd.lit] | dsimp only)
theorem sound_post (p : Nat) (w : BusWait) (s : State) (h2 : Sound s) : Sound (post p w s) := by
  unfold post
  with_reducible (repeat' first
    | assumption | intro _ | apply sound_admitWait | apply sound_occur | apply sound_State_bump | apply sound_changeRbp | apply Sound.ite | split
    | apply Sound.regs | apply Sound.flash | apply Sound.keeping | apply Sound.sdram | apply Sound.stage | apply Sound.porch | apply Sound.hwRam
    | apply Sound.bufEcc | apply Sound.keepEcc | apply Sound.hwEcc | (simp only [Sound.lit_iff]; refine ⟨?_, ?_, ?_, ?_, ?_, ?_, ?_, ?_, ?_, ?_⟩)
    | dsimp only)
theorem sound_settle (p : Nat) (s : State) (h1 : Sound s) : Sound (settle p s) := by
  unfold settle
  with_reducible (repeat' first
    | assumption | intro _ | apply sound_syncFill | apply sound_drainHead | apply sound_admitWait | apply sound_changeRbp | apply Sound.ite
    | apply Snd.ite | apply Snd.out | split | refine Snd.of (by assumption) ?_ | simp only [Snd.lit] | apply Sound.regs | apply Sound.flash
    | apply Sound.keeping | apply Sound.sdram | apply Sound.stage | apply Sound.porch | apply Sound.hwRam | apply Sound.bufEcc | apply Sound.keepEcc
    | apply Sound.hwEcc | (simp only [Sound.lit_iff]; refine ⟨?_, ?_, ?_, ?_, ?_, ?_, ?_, ?_, ?_, ?_⟩) | dsimp only)
theorem sound_issued (p : Nat) (s : State) (h1 : Sound s) : Sound (issued p s) := by
  unfold issued
  with_reducible (repeat' first
    | assumption | intro _ | apply sound_settle | apply sound_changeRbp | apply Sound.regs | apply Sound.flash | apply Sound.keeping
    | apply Sound.sdram | apply Sound.stage | apply Sound.porch | apply Sound.hwRam | apply Sound.bufEcc | apply Sound.keepEcc | apply Sound.hwEcc
    | (simp only [Sound.lit_iff]; refine ⟨?_, ?_, ?_, ?_, ?_, ?_, ?_, ?_, ?_, ?_⟩) | dsimp only)
theorem sound_startFill (p : Nat) (s : State) (h1 : Sound s) : Sound (startFill p s) := by
  unfold startFill
  with_reducible (repeat' first
    | assumption | intro _ | apply sound_syncFill | apply sound_changeRbp | apply Tab.wf_filter | apply Tab.rising_filter | split | apply Sound.regs
    | apply Sound.flash | apply Sound.keeping | apply Sound.sdram | apply Sound.stage | apply Sound.porch | apply Sound.hwRam | apply Sound.bufEcc
    | apply Sound.keepEcc | apply Sound.hwEcc | (simp only [Sound.lit_iff]; refine ⟨?_, ?_, ?_, ?_, ?_, ?_, ?_, ?_, ?_, ?_⟩) | dsimp only)
theorem sound_startDoor (p : Nat) (s : State) (h1 : Sound s) : Sound (startDoor p s) := by
  unfold startDoor
  with_reducible (repeat' first
    | assumption | intro _ | apply sound_State_on | apply sound_State_wr | apply sound_sensePorch | apply sound_changeRbp | apply sound_State_wrB
    | apply Sound.ite | split | apply Sound.regs | apply Sound.flash | apply Sound.keeping | apply Sound.sdram | apply Sound.stage | apply Sound.porch
    | apply Sound.hwRam | apply Sound.bufEcc | apply Sound.keepEcc | apply Sound.hwEcc
    | (simp only [Sound.lit_iff]; refine ⟨?_, ?_, ?_, ?_, ?_, ?_, ?_, ?_, ?_, ?_⟩) | dsimp only)
theorem sound_endDoor (p : Nat) (code : Nat) (moved : Nat) (error : Bool) (s : State) (h4 : Sound s) : Sound (endDoor p code moved error s) := by
  unfold endDoor
  with_reducible (repeat' first
    | assumption | intro _ | apply sound_settle | apply sound_changeRbp | apply sound_State_wr | apply Sound.ite | apply Tab.wf_filter
    | apply Tab.rising_filter | split | apply Sound.regs | apply Sound.flash | apply Sound.keeping | apply Sound.sdram | apply Sound.stage
    | apply Sound.porch | apply Sound.hwRam | apply Sound.bufEcc | apply Sound.keepEcc | apply Sound.hwEcc
    | (simp only [Sound.lit_iff]; refine ⟨?_, ?_, ?_, ?_, ?_, ?_, ?_, ?_, ?_, ?_⟩) | dsimp only)
theorem sound_commitAtomic (p : Nat) (off : Nat) (fs : List Fld) (bs : List (Nat × Nat)) (s : State) (h4 : Sound s) : Sound (commitAtomic p off fs bs s) := by
  unfold commitAtomic
  with_reducible (repeat' first
    | assumption | intro _ | apply sound_State_off | apply sound_post | apply sound_putFields | apply sound_startDoor | apply sound_startFill
    | apply Sound.ite | apply Sound.foldl | apply Snd.ite | apply Snd.foldl | apply Snd.out | split | refine Snd.of (by assumption) ?_
    | simp only [Snd.lit] | dsimp only)
theorem sound_atomicWrite (p : Nat) (off : Nat) (data : List Nat) (s : State) (h3 : Sound s) : Sound (atomicWrite p off data s) := by
  unfold atomicWrite
  with_reducible (repeat' first
    | assumption | intro _ | apply sound_State_off | apply sound_occur | apply sound_State_bump | apply sound_commitAtomic | apply sound_changeRbp
    | apply Sound.ite | apply Sound.foldl | apply Snd.ite | apply Snd.foldl | apply Snd.out | apply Tab.wf_filter | apply Tab.rising_filter
    | apply wf_nil | split | refine Snd.of (by assumption) ?_ | simp only [Snd.lit] | apply Sound.regs | apply Sound.flash | apply Sound.keeping
    | apply Sound.sdram | apply Sound.stage | apply Sound.porch | apply Sound.hwRam | apply Sound.bufEcc | apply Sound.keepEcc | apply Sound.hwEcc
    | (simp only [Sound.lit_iff]; refine ⟨?_, ?_, ?_, ?_, ?_, ?_, ?_, ?_, ?_, ?_⟩) | dsimp only)
theorem sound_execAtomicRegisterWrite (port : Fin 2) (offset : Nat) (data : List Nat) (s : State) (h3 : Sound s) : SoundRes (execAtomicRegisterWrite port offset data s) := by
  unfold execAtomicRegisterWrite
  with_reducible (repeat' first
    | assumption | intro _ | apply sound_completes | apply sound_window | apply sound_atomicWrite | apply Sound.ite | apply Snd.ite | apply Snd.out
    | split | refine Snd.of (by assumption) ?_ | simp only [Snd.lit] | dsimp only)
theorem sound_lastBytes (port : Nat) (reg : Nat) (data : List Nat) (s : State) (h3 : Sound s) : Sound (lastBytes port reg data s) := by
  unfold lastBytes
  with_reducible (repeat' first
    | assumption | apply sound_atomicWrite | apply Sound.ite | split | dsimp only)
theorem sound_execIndDataCommit (port : Fin 2) (data : List Nat) (s : State) (h2 : Sound s) : SoundRes (execIndDataCommit port data s) := by
  unfold execIndDataCommit
  with_reducible (repeat' first
    | assumption | intro _ | apply sound_completes | apply sound_window | apply sound_lastBytes | dsimp only)
theorem sound_execPageCommit (port : Fin 2) (data : List Nat) (s : State) (h2 : Sound s) : SoundRes (execPageCommit port data s) := by
  unfold execPageCommit
  with_reducible (repeat' first
    | assumption | intro _ | apply sound_completes | apply sound_window | apply sound_lastBytes | dsimp only)
theorem sound_execRefill (port : Fin 2) (s : State) (h1 : Sound s) : SoundRes (execRefill port s) := by
  unfold execRefill
  with_reducible (repeat' first
    | assumption | intro _ | apply sound_completes | apply sound_window | apply sound_startFill | dsimp only)
theorem sound_issueRead (p : Nat) (direct : Bool) (s : State) (h2 : Sound s) : Sound (issueRead p direct s) := by
  unfold issueRead
  with_reducible (repeat' first
    | assumption | apply sound_changeRbp | apply sound_State_on | dsimp only)
theorem sound_execIndCmdRead (port : Fin 2) (s : State) (h1 : Sound s) : SoundRes (execIndCmdRead port s) := by
  unfold execIndCmdRead
  with_reducible (repeat' first
    | assumption | intro _ | apply sound_completes | apply sound_window | apply sound_occur | apply sound_State_on | apply sound_issueRead
    | apply Sound.ite | split | dsimp only)
theorem sound_execIndDataDirectRead (access : DirectRead) (s : State) (h1 : Sound s) : SoundRes (execIndDataDirectRead access s) := by
  unfold execIndDataDirectRead
  with_reducible (repeat' first
    | assumption | intro _ | apply sound_completes | apply sound_window | apply sound_issueRead | apply sound_changeRbp | apply Sound.ite | split
    | apply Sound.regs | apply Sound.flash | apply Sound.keeping | apply Sound.sdram | apply Sound.stage | apply Sound.porch | apply Sound.hwRam
    | apply Sound.bufEcc | apply Sound.keepEcc | apply Sound.hwEcc | (simp only [Sound.lit_iff]; refine ⟨?_, ?_, ?_, ?_, ?_, ?_, ?_, ?_, ?_, ?_⟩)
    | dsimp only)
theorem sound_consumeInd (p : Nat) (s : State) (h1 : Sound s) : Sound (consumeInd p s) := by
  unfold consumeInd
  with_reducible (repeat' first
    | assumption | apply sound_State_off | apply sound_State_wr | apply sound_issueRead | apply Sound.ite | split | dsimp only)
theorem sound_execIndDataConsume (port : Fin 2) (s : State) (h1 : Sound s) : SoundRes (execIndDataConsume port s) := by
  unfold execIndDataConsume
  with_reducible (repeat' first
    | assumption | intro _ | apply sound_completes | apply sound_window | apply sound_consumeInd | apply sound_State_emit | dsimp only)
theorem sound_execRbpWaitTimeout (port : Fin 2) (s : State) (h1 : Sound s) : SoundRes (execRbpWaitTimeout port s) := by
  unfold execRbpWaitTimeout
  with_reducible (repeat' first
    | assumption | intro _ | apply sound_completes | apply sound_changeRbp | apply sound_State_bump | apply sound_State_on | apply sound_State_emit
    | split | apply Sound.regs | apply Sound.flash | apply Sound.keeping | apply Sound.sdram | apply Sound.stage | apply Sound.porch
    | apply Sound.hwRam | apply Sound.bufEcc | apply Sound.keepEcc | apply Sound.hwEcc
    | (simp only [Sound.lit_iff]; refine ⟨?_, ?_, ?_, ?_, ?_, ?_, ?_, ?_, ?_, ?_⟩) | dsimp only)
theorem sound_execRbpProtocolError (port : Fin 2) (s : State) (h1 : Sound s) : SoundRes (execRbpProtocolError port s) := by
  unfold execRbpProtocolError
  with_reducible (repeat' first
    | assumption | apply sound_completes | apply sound_protocolError | apply Sound.ite | split | dsimp only)
theorem sound_fillLines (p : Nat) (slot : Nat) : ∀ (z2 : Nat) (z3 : Nat) (z4 : Nat) (z5 : State) (h5 : Sound z5), Sound (fillLines p slot z2 z3 z4 z5) := by
  intro z2
  induction z2 with
  | zero =>
    intros
    unfold fillLines
    with_reducible (repeat' first
      | assumption | intro _ | apply sound_State_off | apply sound_unitRead | apply sound_putPorchList | apply sound_State_on | apply Sound.ite
      | apply Snd.ite | apply Snd.out | split | refine Snd.of (by assumption) ?_ | simp only [Snd.lit] | dsimp only)
  | succ _ ih =>
    intros
    unfold fillLines
    with_reducible (repeat' first
      | assumption | intro _ | apply sound_State_off | apply sound_unitRead | apply sound_putPorchList | apply sound_State_on | apply ih
      | apply Sound.ite | apply Snd.ite | apply Snd.out | split | refine Snd.of (by assumption) ?_ | simp only [Snd.lit] | dsimp only)
theorem sound_overlayThroughs (p : Nat) (region : Nat) (unit : Nat) (s : State) (h3 : Sound s) : Sound (overlayThroughs p region unit s) := by
  unfold overlayThroughs
  with_reducible (repeat' first
    | assumption | intro _ | apply sound_putPorch | apply Sound.ite | apply Sound.foldl | apply Snd.ite | apply Snd.foldl | apply Snd.out | split
    | refine Snd.of (by assumption) ?_ | simp only [Snd.lit] | dsimp only)
theorem sound_execPageFillDone (port : Fin 2) (s : State) (h1 : Sound s) : SoundRes (execPageFillDone port s) := by
  unfold execPageFillDone
  with_reducible (repeat' first
    | assumption | intro _ | apply sound_completes | apply sound_issued | apply sound_fillLines | apply sound_memRefuse | apply sound_putPorchList
    | apply sound_State_on | apply sound_overlayThroughs | apply sound_State_off | split | dsimp only)
theorem sound_execPagedViewWrite (port : Fin 2) (offset : Nat) (data : List Nat) (s : State) (h3 : Sound s) : SoundRes (execPagedViewWrite port offset data s) := by
  unfold execPagedViewWrite
  with_reducible (repeat' first
    | assumption | intro _ | apply sound_completes | apply sound_window | apply sound_post | apply Sound.ite | apply Snd.ite | apply Snd.out | split
    | refine Snd.of (by assumption) ?_ | simp only [Snd.lit] | dsimp only)
theorem sound_execWriteThroughAnswer (port : Fin 2) (s : State) (h1 : Sound s) : SoundRes (execWriteThroughAnswer port s) := by
  unfold execWriteThroughAnswer
  with_reducible (repeat' first
    | assumption | intro _ | apply sound_completes | apply sound_unitWrite | apply sound_State_on | apply sound_memRefuse | apply sound_issued
    | apply Sound.ite | apply Sound.foldl | apply Snd.ite | apply Snd.foldl | apply Snd.out | split | refine Snd.of (by assumption) ?_
    | simp only [Snd.lit] | dsimp only)
theorem sound_execWinIrqClear (port : Fin 2) (bits : Nat) (s : State) (h2 : Sound s) : SoundRes (execWinIrqClear port bits s) := by
  unfold execWinIrqClear
  with_reducible (repeat' first
    | assumption | intro _ | apply sound_completes | apply sound_window | apply sound_post | dsimp only)
theorem sound_endDma (p : Nat) (state : Nat) (s : State) (h2 : Sound s) : Sound (endDma p state s) := by
  unfold endDma
  with_reducible (repeat' first
    | assumption | intro _ | apply sound_changeRbp | apply sound_State_wr | apply sound_State_emit | apply Sound.ite | apply Tab.wf_filter
    | apply Tab.rising_filter | apply wf_nil | split | apply Sound.regs | apply Sound.flash | apply Sound.keeping | apply Sound.sdram
    | apply Sound.stage | apply Sound.porch | apply Sound.hwRam | apply Sound.bufEcc | apply Sound.keepEcc | apply Sound.hwEcc
    | (simp only [Sound.lit_iff]; refine ⟨?_, ?_, ?_, ?_, ?_, ?_, ?_, ?_, ?_, ?_⟩) | dsimp only)
theorem sound_notify (p : Nat) (tag : Nat) (acc : Option Nat × State) (h2 : Snd acc) : Sound (notify p tag acc) := by
  unfold notify
  with_reducible (repeat' first
    | assumption | apply sound_busCycles | apply Sound.ite | apply Snd.ite | apply Snd.out | split | refine Snd.of (by assumption) ?_
    | simp only [Snd.lit] | dsimp only)
theorem sound_dmaStore (p : Nat) (slot : Nat) : ∀ (z2 : Nat) (z3 : List Nat) (z4 : State) (h4 : Sound z4), Fst (dmaStore p slot z2 z3 z4) := by
  intro z2
  induction z2 with
  | zero =>
    intros
    unfold dmaStore
    with_reducible (repeat' first
      | assumption | apply sound_memRefuse | apply sound_unitWrite | apply sound_State_wr | apply Sound.ite | apply Snd.ite | apply Snd.out
      | apply Fst.out | split | refine Snd.of (by assumption) ?_ | refine Fst.of (by assumption) ?_ | simp only [Snd.lit] | simp only [Fst.lit]
      | dsimp only)
  | succ _ ih =>
    intros
    unfold dmaStore
    with_reducible (repeat' first
      | assumption | apply sound_memRefuse | apply sound_unitWrite | apply sound_State_wr | apply ih | apply Sound.ite | apply Snd.ite | apply Snd.out
      | apply Fst.out | split | refine Snd.of (by assumption) ?_ | refine Fst.of (by assumption) ?_ | simp only [Snd.lit] | simp only [Fst.lit]
      | dsimp only)
theorem sound_burstCycles (p : Nat) (slot : Nat) (cycles : Nat) (data : List Nat) (s : State) (h4 : Sound s) : Thd (burstCycles p slot cycles data s) := by
  unfold burstCycles
  with_reducible (repeat' first
    | assumption | intro _ | apply sound_busCycles | apply sound_dmaStore | apply sound_State_wr | apply Sound.ite | apply Thd.ite | apply Thd.out
    | apply Snd.ite | apply Snd.out | apply Fst.out | apply Thd.rest | split | refine Thd.of (by assumption) ?_ | refine Snd.of (by assumption) ?_
    | refine Fst.of (by assumption) ?_ | simp only [Thd.lit] | simp only [Snd.lit] | simp only [Fst.lit] | apply Thd.pair | dsimp only)
theorem sound_burst (p : Nat) (cycles : Nat) (data : List Nat) (after : State → State) (s : State) (h3 : ∀ y0, Sound y0 → Sound (after y0)) (h4 : Sound s) : Sound (burst p cycles data after s) := by
  unfold burst
  with_reducible (repeat' first
    | assumption | intro _ | apply sound_burstCycles | apply sound_endDma | apply sound_notify | apply h3 | apply Sound.ite | apply Thd.ite
    | apply Thd.out | apply Snd.ite | apply Snd.out | apply Thd.rest | split | refine Thd.of (by assumption) ?_ | refine Snd.of (by assumption) ?_
    | simp only [Thd.lit] | simp only [Snd.lit] | apply Thd.pair | dsimp only)
theorem sound_releaseBus (p : Nat) (s : State) (h1 : Sound s) : Sound (releaseBus p s) := by
  unfold releaseBus
  with_reducible (repeat' first
    | assumption | apply sound_setDma | apply sound_State_emit | dsimp only)
theorem sound_cancelDma (p : Nat) (slot : Nat) (cycles : Nat) (data : List Nat) (s : State) (h4 : Sound s) : Sound (cancelDma p slot cycles data s) := by
  unfold cancelDma
  with_reducible (repeat' first
    | assumption | apply sound_endDma | apply sound_burstCycles | apply Sound.ite | apply Thd.ite | apply Thd.out | apply Snd.ite | apply Snd.out
    | apply Thd.rest | split | refine Thd.of (by assumption) ?_ | refine Snd.of (by assumption) ?_ | simp only [Thd.lit] | simp only [Snd.lit]
    | apply Thd.pair | dsimp only)
theorem sound_cancelFree (p : Nat) (slot : Nat) (s : State) (h2 : Sound s) : Sound (cancelFree p slot s) := by
  unfold cancelFree
  with_reducible (repeat' first
    | assumption | intro _ | apply sound_cancelDma | apply sound_State_drew | apply Sound.ite | split | dsimp only)
theorem sound_execDmaGo (port : Fin 2) (dir : Bool) (cancel : Bool) (s : State) (h3 : Sound s) : SoundRes (execDmaGo port dir cancel s) := by
  unfold execDmaGo
  with_reducible (repeat' first
    | assumption | intro _ | apply sound_completes | apply sound_window | apply sound_cancelFree | apply sound_State_wrB | apply sound_State_wr
    | apply sound_memRefuse | apply sound_settle | apply sound_changeRbp | apply Sound.ite | split | apply Sound.regs | apply Sound.flash
    | apply Sound.keeping | apply Sound.sdram | apply Sound.stage | apply Sound.porch | apply Sound.hwRam | apply Sound.bufEcc | apply Sound.keepEcc
    | apply Sound.hwEcc | (simp only [Sound.lit_iff]; refine ⟨?_, ?_, ?_, ?_, ?_, ?_, ?_, ?_, ?_, ?_⟩) | dsimp only)
theorem sound_execDmaGrant (port : Fin 2) (s : State) (h1 : Sound s) : SoundRes (execDmaGrant port s) := by
  unfold execDmaGrant
  with_reducible (repeat' first
    | assumption | apply sound_completes | apply sound_setDma | apply sound_retryEnd | apply Sound.ite | split | dsimp only)
theorem sound_execDmaBurstEnd (port : Fin 2) (data : List Nat) (s : State) (h2 : Sound s) : SoundRes (execDmaBurstEnd port data s) := by
  unfold execDmaBurstEnd
  with_reducible (repeat' first
    | assumption | intro _ | apply sound_completes | apply sound_burst | apply sound_releaseBus | apply Sound.ite | split | dsimp only)
theorem sound_execDmaReleaseExpire (port : Fin 2) (s : State) (h1 : Sound s) : SoundRes (execDmaReleaseExpire port s) := by
  unfold execDmaReleaseExpire
  with_reducible (repeat' first
    | assumption | apply sound_completes | apply sound_requestBus | apply Sound.ite | split | dsimp only)
theorem sound_execDmaGrantTimeout (port : Fin 2) (s : State) (h1 : Sound s) : SoundRes (execDmaGrantTimeout port s) := by
  unfold execDmaGrantTimeout
  with_reducible (repeat' first
    | assumption | intro _ | apply sound_completes | apply sound_failOrRetry | apply sound_endDma | apply sound_setDma | apply sound_State_emit
    | apply Sound.ite | split | dsimp only)
theorem sound_execDmaGrantWithdrawn (port : Fin 2) (cycles : Nat) (data : List Nat) (s : State) (h3 : Sound s) : SoundRes (execDmaGrantWithdrawn port cycles data s) := by
  unfold execDmaGrantWithdrawn
  with_reducible (repeat' first
    | assumption | intro _ | apply sound_completes | apply sound_burst | apply sound_releaseBus | apply Sound.ite | split | dsimp only)
theorem sound_execDmaCancel (port : Fin 2) (cycles : Nat) (data : List Nat) (s : State) (h3 : Sound s) : SoundRes (execDmaCancel port cycles data s) := by
  unfold execDmaCancel
  with_reducible (repeat' first
    | assumption | intro _ | apply sound_completes | apply sound_served | apply sound_cancelDma | dsimp only)
theorem sound_restartPort (p : Nat) (s : State) (h1 : Sound s) : Sound (restartPort p s) := by
  unfold restartPort
  with_reducible (repeat' first
    | assumption | intro _ | apply sound_endDoor | apply sound_cancelFree | apply sound_State_rstAll | apply sound_settle | apply sound_changeRbp
    | apply Sound.ite | apply Tab.wf_filter | apply Tab.rising_filter | apply wf_nil | split | apply Sound.regs | apply Sound.flash
    | apply Sound.keeping | apply Sound.sdram | apply Sound.stage | apply Sound.porch | apply Sound.hwRam | apply Sound.bufEcc | apply Sound.keepEcc
    | apply Sound.hwEcc | (simp only [Sound.lit_iff]; refine ⟨?_, ?_, ?_, ?_, ?_, ?_, ?_, ?_, ?_, ?_⟩) | dsimp only)
theorem sound_servePort (p : Nat) (s : State) (h1 : Sound s) : Sound (servePort p s) := by
  unfold servePort
  with_reducible (repeat' first
    | assumption | intro _ | apply sound_changeRbp | apply sound_resetPort | apply sound_State_on | apply Sound.regs | apply Sound.flash
    | apply Sound.keeping | apply Sound.sdram | apply Sound.stage | apply Sound.porch | apply Sound.hwRam | apply Sound.bufEcc | apply Sound.keepEcc
    | apply Sound.hwEcc | (simp only [Sound.lit_iff]; refine ⟨?_, ?_, ?_, ?_, ?_, ?_, ?_, ?_, ?_, ?_⟩) | dsimp only)
theorem sound_execRbpModeSwitch (port : Fin 2) (s : State) (h1 : Sound s) : SoundRes (execRbpModeSwitch port s) := by
  unfold execRbpModeSwitch
  with_reducible (repeat' first
    | assumption | apply sound_completes | apply sound_servePort | apply Sound.ite | split | dsimp only)
theorem sound_execStrapResponderAccess (port : Fin 2) (write : Bool) (s : State) (h2 : Sound s) : SoundRes (execStrapResponderAccess port write s) := by
  unfold execStrapResponderAccess
  with_reducible (repeat' first
    | assumption | apply sound_always | apply sound_State_emit | apply Sound.ite | split | dsimp only)
theorem sound_putPos (n : Nat) (pos : Int) (s : State) (h2 : Sound s) : Sound (putPos n pos s) := by
  unfold putPos
  with_reducible (repeat' first
    | assumption | apply sound_putSled | apply sound_State_wr | apply Sound.regs | apply Sound.flash | apply Sound.keeping | apply Sound.sdram
    | apply Sound.stage | apply Sound.porch | apply Sound.hwRam | apply Sound.bufEcc | apply Sound.keepEcc | apply Sound.hwEcc
    | (simp only [Sound.lit_iff]; refine ⟨?_, ?_, ?_, ?_, ?_, ?_, ?_, ?_, ?_, ?_⟩) | dsimp only)
theorem sound_sledMicros (n : Nat) (k : Nat) (s : State) (h2 : Sound s) : Sound (sledMicros n k s) := by
  unfold sledMicros
  with_reducible (repeat' first
    | assumption | apply sound_putPos | apply sound_putSled | apply sound_State_wr | apply sound_State_bump | apply Sound.ite | apply Snd.ite
    | apply Snd.out | split | refine Snd.of (by assumption) ?_ | simp only [Snd.lit] | dsimp only)
theorem sound_sledRun (n : Nat) (k : Nat) (s : State) (h2 : Sound s) : Sound (sledRun n k s) := by
  unfold sledRun
  with_reducible (repeat' first
    | assumption | apply sound_sledMicros | apply sound_putSled | apply Sound.regs | apply Sound.flash | apply Sound.keeping | apply Sound.sdram
    | apply Sound.stage | apply Sound.porch | apply Sound.hwRam | apply Sound.bufEcc | apply Sound.keepEcc | apply Sound.hwEcc
    | (simp only [Sound.lit_iff]; refine ⟨?_, ?_, ?_, ?_, ?_, ?_, ?_, ?_, ?_, ?_⟩) | dsimp only)
theorem sound_moveTo (n : Nat) (t : Nat) (s : State) (h2 : Sound s) : Sound (moveTo n t s) := by
  unfold moveTo
  with_reducible (repeat' first
    | assumption | apply sound_sledMicros | apply Sound.ite | split | dsimp only)
theorem sound_setRef (n : Nat) (v : Nat) (i : Nat) (value : Nat) (s : State) (h4 : Sound s) : Sound (setRef n v i value s) := by
  unfold setRef
  with_reducible (repeat' first
    | assumption | apply sound_State_wr | apply Sound.ite | split | dsimp only)
theorem sound_syncVoices (n : Nat) (s : State) (h1 : Sound s) : Sound (syncVoices n s) := by
  unfold syncVoices
  with_reducible (repeat' first
    | assumption | intro _ | apply sound_State_wr | apply sound_tempoUpdate | apply Sound.ite | apply Sound.foldl | apply Snd.ite | apply Snd.foldl
    | apply Snd.out | split | refine Snd.of (by assumption) ?_ | simp only [Snd.lit] | dsimp only)
theorem sound_showVoice (n : Nat) (v : Nat) (s : State) (h2 : Sound s) : Sound (showVoice n v s) := by
  unfold showVoice
  with_reducible (repeat' first
    | assumption | apply sound_State_wr | apply sound_State_wrB | apply sound_State_on | apply sound_State_rstAll | split | dsimp only)
theorem sound_putRefs (n : Nat) (v : Nat) (r : List Nat) (s : State) (h3 : Sound s) : Sound (putRefs n v r s) := by
  unfold putRefs
  with_reducible (repeat' first
    | assumption | intro _ | apply sound_State_wr | apply Sound.foldl | apply Snd.ite | apply Snd.foldl | apply Snd.out
    | refine Snd.of (by assumption) ?_ | simp only [Snd.lit] | dsimp only)
theorem sound_placeVoice (n : Nat) (v : Nat) (x : Voice) (s : State) (h3 : Sound s) : Sound (placeVoice n v x s) := by
  unfold placeVoice
  with_reducible (repeat' first
    | assumption | apply sound_showVoice | apply sound_putRefs | apply sound_putVoice | dsimp only)
theorem sound_zeroDest (n : Nat) (d : Nat) (s : State) (h2 : Sound s) : Sound (zeroDest n d s) := by
  unfold zeroDest
  with_reducible (repeat' first
    | assumption | apply sound_State_wr | apply sound_putSpin | apply sound_putSled | apply Sound.ite | split | apply Sound.regs | apply Sound.flash
    | apply Sound.keeping | apply Sound.sdram | apply Sound.stage | apply Sound.porch | apply Sound.hwRam | apply Sound.bufEcc | apply Sound.keepEcc
    | apply Sound.hwEcc | (simp only [Sound.lit_iff]; refine ⟨?_, ?_, ?_, ?_, ?_, ?_, ?_, ?_, ?_, ?_⟩) | dsimp only)
theorem sound_zeroDests (n : Nat) (ds : List Nat) (s : State) (h2 : Sound s) : Sound (zeroDests n ds s) := by
  unfold zeroDests
  with_reducible (repeat' first
    | assumption | intro _ | apply sound_zeroDest | apply Sound.foldl | apply Snd.ite | apply Snd.foldl | apply Snd.out
    | refine Snd.of (by assumption) ?_ | simp only [Snd.lit] | dsimp only)
theorem sound_refuseVoice (n : Nat) (code : Nat) (s : State) (h2 : Sound s) : Sound (refuseVoice n code s) := by
  unfold refuseVoice
  with_reducible (repeat' first
    | assumption | apply sound_occur | apply sound_State_wr | dsimp only)
theorem sound_acceptVoice (n : Nat) (c : VoiceCmd) (s : State) (h2 : Sound s) : Sound (acceptVoice n c s) := by
  unfold acceptVoice
  with_reducible (repeat' first
    | assumption | apply sound_syncVoices | apply sound_putDrum | apply sound_State_wr | apply Sound.regs | apply Sound.flash | apply Sound.keeping
    | apply Sound.sdram | apply Sound.stage | apply Sound.porch | apply Sound.hwRam | apply Sound.bufEcc | apply Sound.keepEcc | apply Sound.hwEcc
    | (simp only [Sound.lit_iff]; refine ⟨?_, ?_, ?_, ?_, ?_, ?_, ?_, ?_, ?_, ?_⟩) | dsimp only)
theorem sound_judgeVoice (n : Nat) (c : VoiceCmd) (s : State) (h2 : Sound s) : Sound (judgeVoice n c s) := by
  unfold judgeVoice
  with_reducible (repeat' first
    | assumption | intro _ | apply sound_refuseVoice | apply sound_acceptVoice | apply Sound.ite | apply Snd.ite | apply Snd.out | apply Tab.wf_filter
    | apply Tab.rising_filter | split | refine Snd.of (by assumption) ?_ | simp only [Snd.lit] | apply Sound.regs | apply Sound.flash
    | apply Sound.keeping | apply Sound.sdram | apply Sound.stage | apply Sound.porch | apply Sound.hwRam | apply Sound.bufEcc | apply Sound.keepEcc
    | apply Sound.hwEcc | (simp only [Sound.lit_iff]; refine ⟨?_, ?_, ?_, ?_, ?_, ?_, ?_, ?_, ?_, ?_⟩) | dsimp only)
theorem sound_endCheck (n : Nat) (s : State) (h1 : Sound s) : Sound (endCheck n s) := by
  unfold endCheck
  with_reducible (repeat' first
    | assumption | apply sound_syncVoices | apply sound_putDrum | apply sound_judgeVoice | apply sound_State_off | apply Sound.ite | split
    | apply Sound.regs | apply Sound.flash | apply Sound.keeping | apply Sound.sdram | apply Sound.stage | apply Sound.porch | apply Sound.hwRam
    | apply Sound.bufEcc | apply Sound.keepEcc | apply Sound.hwEcc | (simp only [Sound.lit_iff]; refine ⟨?_, ?_, ?_, ?_, ?_, ?_, ?_, ?_, ?_, ?_⟩)
    | dsimp only)
theorem sound_voiceCmd (n : Nat) (op : Nat) (v : Nat) (period : Nat) (role : Nat) (predict : Bool) (keep : Bool) (s : State) (h7 : Sound s) : Sound (voiceCmd n op v period role predict keep s) := by
  unfold voiceCmd
  with_reducible (repeat' first
    | assumption | apply sound_refuseVoice | apply sound_putDrum | apply sound_State_on | apply Sound.ite | split | apply Sound.regs
    | apply Sound.flash | apply Sound.keeping | apply Sound.sdram | apply Sound.stage | apply Sound.porch | apply Sound.hwRam | apply Sound.bufEcc
    | apply Sound.keepEcc | apply Sound.hwEcc | (simp only [Sound.lit_iff]; refine ⟨?_, ?_, ?_, ?_, ?_, ?_, ?_, ?_, ?_, ?_⟩) | dsimp only)
theorem sound_execLoadVoice (slot : Fin 8) (drum : Fin 2) (voice : Fin 8) (period : Nat) (role : Nat) (predict : Bool) (s : State) (h6 : Sound s) : SoundRes (execLoadVoice slot drum voice period role predict s) := by
  unfold execLoadVoice
  with_reducible (repeat' first
    | assumption | intro _ | apply sound_completes | apply sound_guardWrite | apply sound_voiceCmd | dsimp only)
theorem sound_execSwap (slot : Fin 8) (drum : Fin 2) (voice : Fin 8) (period : Nat) (role : Nat) (predict : Bool) (keep : Bool) (s : State) (h7 : Sound s) : SoundRes (execSwap slot drum voice period role predict keep s) := by
  unfold execSwap
  with_reducible (repeat' first
    | assumption | intro _ | apply sound_completes | apply sound_guardWrite | apply sound_voiceCmd | dsimp only)
theorem sound_execUnload (slot : Fin 8) (drum : Fin 2) (voice : Fin 8) (s : State) (h3 : Sound s) : SoundRes (execUnload slot drum voice s) := by
  unfold execUnload
  with_reducible (repeat' first
    | assumption | intro _ | apply sound_completes | apply sound_guardWrite | apply sound_voiceCmd | dsimp only)
theorem sound_execReseed (slot : Fin 8) (drum : Fin 2) (voice : Fin 8) (s : State) (h3 : Sound s) : SoundRes (execReseed slot drum voice s) := by
  unfold execReseed
  with_reducible (repeat' first
    | assumption | intro _ | apply sound_completes | apply sound_guardWrite | apply sound_voiceCmd | dsimp only)
theorem sound_execVoiceCmdBadOp (slot : Fin 8) (drum : Fin 2) (s : State) (h2 : Sound s) : SoundRes (execVoiceCmdBadOp slot drum s) := by
  unfold execVoiceCmdBadOp
  with_reducible (repeat' first
    | assumption | intro _ | apply sound_completes | apply sound_guardWrite | apply sound_refuseVoice | apply Sound.ite | split | dsimp only)
theorem sound_voiceEffect (n : Nat) (j : Nat) (c : VoiceCmd) (s : State) (h3 : Sound s) : Sound (voiceEffect n j c s) := by
  unfold voiceEffect
  with_reducible (repeat' first
    | assumption | intro _ | apply sound_placeVoice | apply sound_zeroDests | apply sound_showVoice | apply sound_putRefs | apply sound_putVoice
    | apply Sound.ite | apply Tab.wf_filter | apply Tab.rising_filter | split | apply Sound.regs | apply Sound.flash | apply Sound.keeping
    | apply Sound.sdram | apply Sound.stage | apply Sound.porch | apply Sound.hwRam | apply Sound.bufEcc | apply Sound.keepEcc | apply Sound.hwEcc
    | (simp only [Sound.lit_iff]; refine ⟨?_, ?_, ?_, ?_, ?_, ?_, ?_, ?_, ?_, ?_⟩) | dsimp only)
theorem sound_execVoiceCmdEffect (drum : Fin 2) (s0 : State) (h1 : Sound s0) : SoundRes (execVoiceCmdEffect drum s0) := by
  unfold execVoiceCmdEffect
  with_reducible (repeat' first
    | assumption | apply sound_endCheck | apply sound_completes | apply sound_putDrum | apply sound_syncVoices | apply sound_refuseVoice
    | apply sound_checkSpeedVoice | apply sound_voiceEffect | apply Sound.ite | split | apply Sound.regs | apply Sound.flash | apply Sound.keeping
    | apply Sound.sdram | apply Sound.stage | apply Sound.porch | apply Sound.hwRam | apply Sound.bufEcc | apply Sound.keepEcc | apply Sound.hwEcc
    | (simp only [Sound.lit_iff]; refine ⟨?_, ?_, ?_, ?_, ?_, ?_, ?_, ?_, ?_, ?_⟩) | dsimp only)
theorem sound_execVoiceCmdAbandoned (drum : Fin 2) (s0 : State) (h1 : Sound s0) : SoundRes (execVoiceCmdAbandoned drum s0) := by
  unfold execVoiceCmdAbandoned
  with_reducible (repeat' first
    | assumption | intro _ | apply sound_endCheck | apply sound_completes | apply sound_syncVoices | apply sound_putDrum | apply sound_State_wr
    | apply Sound.ite | apply Tab.wf_filter | apply Tab.rising_filter | split | apply Sound.regs | apply Sound.flash | apply Sound.keeping
    | apply Sound.sdram | apply Sound.stage | apply Sound.porch | apply Sound.hwRam | apply Sound.bufEcc | apply Sound.keepEcc | apply Sound.hwEcc
    | (simp only [Sound.lit_iff]; refine ⟨?_, ?_, ?_, ?_, ?_, ?_, ?_, ?_, ?_, ?_⟩) | dsimp only)
theorem sound_execDhStageDataAccess (slot : Fin 8) (drum : Fin 2) (write : Option Nat) (s : State) (h3 : Sound s) : SoundRes (execDhStageDataAccess slot drum write s) := by
  unfold execDhStageDataAccess
  with_reducible (repeat' first
    | assumption | intro _ | apply sound_State_wr | apply sound_completes | apply sound_guardWrite | apply sound_putDrum | apply sound_guardRead
    | apply sound_State_emit | apply Sound.ite | apply Snd.ite | apply Snd.out | apply wf_putW | split | refine Snd.of (by assumption) ?_
    | simp only [Snd.lit] | apply Sound.regs | apply Sound.flash | apply Sound.keeping | apply Sound.sdram | apply Sound.stage | apply Sound.porch
    | apply Sound.hwRam | apply Sound.bufEcc | apply Sound.keepEcc | apply Sound.hwEcc
    | (simp only [Sound.lit_iff]; refine ⟨?_, ?_, ?_, ?_, ?_, ?_, ?_, ?_, ?_, ?_⟩) | dsimp only)
theorem sound_quietFollow (n : Nat) (k : Nat) (s : State) (h2 : Sound s) : Sound (quietFollow n k s) := by
  unfold quietFollow
  with_reducible (repeat' first
    | assumption | apply sound_putSpin | apply Sound.ite | split | apply Sound.regs | apply Sound.flash | apply Sound.keeping | apply Sound.sdram
    | apply Sound.stage | apply Sound.porch | apply Sound.hwRam | apply Sound.bufEcc | apply Sound.keepEcc | apply Sound.hwEcc
    | (simp only [Sound.lit_iff]; refine ⟨?_, ?_, ?_, ?_, ?_, ?_, ?_, ?_, ?_, ?_⟩) | dsimp only)
theorem sound_latchOut (n : Nat) (g : Program) (u : List Nat) (i : Nat) (s : State) (h4 : Sound s) : Sound (latchOut n g u i s) := by
  unfold latchOut
  with_reducible (repeat' first
    | assumption | apply sound_latchCoil | apply sound_putSpin | apply sound_putSled | apply sound_State_wr | apply Sound.ite | split
    | apply Sound.regs | apply Sound.flash | apply Sound.keeping | apply Sound.sdram | apply Sound.stage | apply Sound.porch | apply Sound.hwRam
    | apply Sound.bufEcc | apply Sound.keepEcc | apply Sound.hwEcc | (simp only [Sound.lit_iff]; refine ⟨?_, ?_, ?_, ?_, ?_, ?_, ?_, ?_, ?_, ?_⟩)
    | dsimp only)
theorem sound_latchOuts (n : Nat) (g : Program) (u : List Nat) (s : State) (h3 : Sound s) : Sound (latchOuts n g u s) := by
  unfold latchOuts
  with_reducible (repeat' first
    | assumption | intro _ | apply sound_latchOut | apply Sound.foldl | apply Snd.ite | apply Snd.foldl | apply Snd.out
    | refine Snd.of (by assumption) ?_ | simp only [Snd.lit] | dsimp only)
theorem sound_captureVoice (n : Nat) (v : Nat) (u : List Nat) (x : List Nat) (z : List Nat) (s : State) (h5 : Sound s) : Sound (captureVoice n v u x z s) := by
  unfold captureVoice
  with_reducible (repeat' first
    | assumption | intro _ | apply sound_wrList | dsimp only)
theorem sound_updateVoice (n : Nat) (v : Nat) (x : Voice) (start : State) (s : State) (h3 : Sound start) (h4 : Sound s) : Sound (updateVoice n v x start s) := by
  unfold updateVoice
  with_reducible (repeat' first
    | assumption | intro _ | apply sound_captureVoice | apply sound_putVoice | apply sound_latchOuts | apply Sound.ite | split | apply Sound.regs
    | apply Sound.flash | apply Sound.keeping | apply Sound.sdram | apply Sound.stage | apply Sound.porch | apply Sound.hwRam | apply Sound.bufEcc
    | apply Sound.keepEcc | apply Sound.hwEcc | (simp only [Sound.lit_iff]; refine ⟨?_, ?_, ?_, ?_, ?_, ?_, ?_, ?_, ?_, ?_⟩) | dsimp only)
theorem sound_fastVoice (n : Nat) (x : Voice) (start : State) (s : State) (h2 : Sound start) (h3 : Sound s) : Sound (fastVoice n x start s) := by
  unfold fastVoice
  with_reducible (repeat' first
    | assumption | intro _ | apply sound_latchOuts | dsimp only)
theorem sound_watchInputs (n : Nat) (v : Nat) (s : State) (h2 : Sound s) : Sound (watchInputs n v s) := by
  unfold watchInputs
  with_reducible (repeat' first
    | assumption | intro _ | apply sound_putVoice | apply sound_occur | apply Sound.ite | split | apply Sound.regs | apply Sound.flash
    | apply Sound.keeping | apply Sound.sdram | apply Sound.stage | apply Sound.porch | apply Sound.hwRam | apply Sound.bufEcc | apply Sound.keepEcc
    | apply Sound.hwEcc | (simp only [Sound.lit_iff]; refine ⟨?_, ?_, ?_, ?_, ?_, ?_, ?_, ?_, ?_, ?_⟩) | dsimp only)
theorem sound_sampleDrum (n : Nat) (p : Pickup) (s : State) (h2 : Sound s) : Sound (sampleDrum n p s) := by
  unfold sampleDrum
  with_reducible (repeat' first
    | assumption | intro _ | apply sound_State_wr | apply Sound.ite | apply Sound.foldl | apply Snd.ite | apply Snd.foldl | apply Snd.out | split
    | refine Snd.of (by assumption) ?_ | simp only [Snd.lit] | dsimp only)
theorem sound_reseedDue (n : Nat) (j : Nat) (s : State) (h2 : Sound s) : Sound (reseedDue n j s) := by
  unfold reseedDue
  with_reducible (repeat' first
    | assumption | intro _ | apply sound_putVoice | apply Sound.ite | apply Sound.foldl | apply Snd.ite | apply Snd.foldl | apply Snd.out | split
    | refine Snd.of (by assumption) ?_ | simp only [Snd.lit] | dsimp only)
theorem sound_startFrame (n : Nat) (s : State) (h1 : Sound s) : Sound (startFrame n s) := by
  unfold startFrame
  with_reducible (repeat' first
    | assumption | apply sound_putDrum | apply sound_State_wr | apply Sound.regs | apply Sound.flash | apply Sound.keeping | apply Sound.sdram
    | apply Sound.stage | apply Sound.porch | apply Sound.hwRam | apply Sound.bufEcc | apply Sound.keepEcc | apply Sound.hwEcc
    | (simp only [Sound.lit_iff]; refine ⟨?_, ?_, ?_, ?_, ?_, ?_, ?_, ?_, ?_, ?_⟩) | dsimp only)
theorem sound_execDrumheadFrame (drum : Fin 2) (pickup : Pickup) (late : Fin 49) (s0 : State) (h3 : Sound s0) : SoundRes (execDrumheadFrame drum pickup late s0) := by
  unfold execDrumheadFrame
  with_reducible (repeat' first
    | assumption | intro _ | apply sound_endCheck | apply sound_completes | apply sound_quietFollow | apply sound_sledRun | apply sound_State_bump
    | apply sound_reseedDue | apply sound_sampleDrum | apply sound_startFrame | apply sound_zeroDests | apply sound_fastVoice
    | apply sound_updateVoice | apply sound_putSled | apply sound_watchInputs | apply Sound.ite | apply Sound.foldl | apply Snd.ite | apply Snd.foldl
    | apply Snd.out | apply Tab.wf_filter | apply Tab.rising_filter | split | refine Snd.of (by assumption) ?_ | simp only [Snd.lit]
    | apply Sound.regs | apply Sound.flash | apply Sound.keeping | apply Sound.sdram | apply Sound.stage | apply Sound.porch | apply Sound.hwRam
    | apply Sound.bufEcc | apply Sound.keepEcc | apply Sound.hwEcc | (simp only [Sound.lit_iff]; refine ⟨?_, ?_, ?_, ?_, ?_, ?_, ?_, ?_, ?_, ?_⟩)
    | dsimp only)
theorem sound_writeTargetRef (n : Nat) (s : State) (h1 : Sound s) : Sound (writeTargetRef n s) := by
  unfold writeTargetRef
  with_reducible (repeat' first
    | assumption | apply sound_setRef | split | dsimp only)
theorem sound_startCheck (n : Nat) (s : State) (h1 : Sound s) : Sound (startCheck n s) := by
  unfold startCheck
  with_reducible (repeat' first
    | assumption | apply sound_enterSpin | apply sound_putSpin | apply Sound.regs | apply Sound.flash | apply Sound.keeping | apply Sound.sdram
    | apply Sound.stage | apply Sound.porch | apply Sound.hwRam | apply Sound.bufEcc | apply Sound.keepEcc | apply Sound.hwEcc
    | (simp only [Sound.lit_iff]; refine ⟨?_, ?_, ?_, ?_, ?_, ?_, ?_, ?_, ?_, ?_⟩) | dsimp only)
theorem sound_freshStarts (n : Nat) (s : State) (h1 : Sound s) : Sound (freshStarts n s) := by
  unfold freshStarts
  with_reducible (repeat' first
    | assumption | apply sound_retryEnd | apply sound_State_off | apply sound_State_wr | apply Sound.regs | apply Sound.flash | apply Sound.keeping
    | apply Sound.sdram | apply Sound.stage | apply Sound.porch | apply Sound.hwRam | apply Sound.bufEcc | apply Sound.keepEcc | apply Sound.hwEcc
    | (simp only [Sound.lit_iff]; refine ⟨?_, ?_, ?_, ?_, ?_, ?_, ?_, ?_, ?_, ?_⟩) | dsimp only)
theorem sound_evalStopped (n : Nat) (s : State) (h1 : Sound s) : Sound (evalStopped n s) := by
  unfold evalStopped
  with_reducible (repeat' first
    | assumption | apply sound_freshStarts | apply sound_startCheck | apply sound_State_wr | apply Sound.ite | split | dsimp only)
theorem sound_stopSpin (n : Nat) (s : State) (h1 : Sound s) : Sound (stopSpin n s) := by
  unfold stopSpin
  with_reducible (repeat' first
    | assumption | apply sound_enterSpin | apply sound_dropPruned | apply sound_evalStopped | apply Sound.ite | split | dsimp only)
theorem sound_checkSpinStroke (n : Nat) (s : State) (h1 : Sound s) : Sound (checkSpinStroke n s) := by
  unfold checkSpinStroke
  with_reducible (repeat' first
    | assumption | intro _ | apply sound_failStroke | apply sound_endStroke | apply sound_updateCurrent | apply Sound.ite | apply Snd.ite
    | apply Snd.out | split | refine Snd.of (by assumption) ?_ | simp only [Snd.lit] | apply Sound.regs | apply Sound.flash | apply Sound.keeping
    | apply Sound.sdram | apply Sound.stage | apply Sound.porch | apply Sound.hwRam | apply Sound.bufEcc | apply Sound.keepEcc | apply Sound.hwEcc
    | (simp only [Sound.lit_iff]; refine ⟨?_, ?_, ?_, ?_, ?_, ?_, ?_, ?_, ?_, ?_⟩) | dsimp only)
theorem sound_countFailure (n : Nat) (src : Nat) (s : State) (h2 : Sound s) : Sound (countFailure n src s) := by
  unfold countFailure
  with_reducible (repeat' first
    | assumption | apply sound_checkSpinStroke | apply sound_retryEnd | apply sound_State_on | apply Sound.ite | split | apply Sound.regs
    | apply Sound.flash | apply Sound.keeping | apply Sound.sdram | apply Sound.stage | apply Sound.porch | apply Sound.hwRam | apply Sound.bufEcc
    | apply Sound.keepEcc | apply Sound.hwEcc | (simp only [Sound.lit_iff]; refine ⟨?_, ?_, ?_, ?_, ?_, ?_, ?_, ?_, ?_, ?_⟩) | dsimp only)
theorem sound_retrySpin (n : Nat) (s : State) (h1 : Sound s) : Sound (retrySpin n s) := by
  unfold retrySpin
  with_reducible (repeat' first
    | assumption | apply sound_evalStopped | apply sound_State_bump | dsimp only)
theorem sound_execSpinEvaluate (drum : Fin 2) (s : State) (h1 : Sound s) : SoundRes (execSpinEvaluate drum s) := by
  unfold execSpinEvaluate
  with_reducible (repeat' first
    | assumption | intro _ | apply sound_completes | apply sound_putSpin | apply sound_State_wr | apply sound_State_wrB | apply sound_State_off
    | apply sound_freshStarts | apply sound_evalStopped | apply sound_stopSpin | apply sound_enterSpin | apply sound_checkSpeedVoice
    | apply sound_setSpin | apply sound_showTarget | apply sound_writeTargetRef | apply sound_checkSpinStroke | apply Sound.ite | apply Snd.ite
    | apply Snd.out | split | refine Snd.of (by assumption) ?_ | simp only [Snd.lit] | apply Sound.regs | apply Sound.flash | apply Sound.keeping
    | apply Sound.sdram | apply Sound.stage | apply Sound.porch | apply Sound.hwRam | apply Sound.bufEcc | apply Sound.keepEcc | apply Sound.hwEcc
    | (simp only [Sound.lit_iff]; refine ⟨?_, ?_, ?_, ?_, ?_, ?_, ?_, ?_, ?_, ?_⟩) | dsimp only)
theorem sound_execSpinCheckEnd (drum : Fin 2) (quiet : Bool) (s : State) (h2 : Sound s) : SoundRes (execSpinCheckEnd drum quiet s) := by
  unfold execSpinCheckEnd
  with_reducible (repeat' first
    | assumption | apply sound_completes | apply sound_enterSpin | apply Sound.ite | split | dsimp only)
theorem sound_startRamp (n : Nat) (sector : Nat) (s : State) (h2 : Sound s) : Sound (startRamp n sector s) := by
  unfold startRamp
  with_reducible (repeat' first
    | assumption | apply sound_enterSpin | apply sound_setSpin | apply sound_putSpin | apply Sound.regs | apply Sound.flash | apply Sound.keeping
    | apply Sound.sdram | apply Sound.stage | apply Sound.porch | apply Sound.hwRam | apply Sound.bufEcc | apply Sound.keepEcc | apply Sound.hwEcc
    | (simp only [Sound.lit_iff]; refine ⟨?_, ?_, ?_, ?_, ?_, ?_, ?_, ?_, ?_, ?_⟩) | dsimp only)
theorem sound_execSenseDone (drum : Fin 2) (first : List Nat) (second : List Nat) (fails : Bool) (s : State) (h4 : Sound s) : SoundRes (execSenseDone drum first second fails s) := by
  unfold execSenseDone
  with_reducible (repeat' first
    | assumption | apply sound_completes | apply sound_enterSpin | apply sound_occur | apply sound_dropPruned | apply sound_evalStopped
    | apply sound_countFailure | apply sound_State_wr | apply sound_State_wrB | apply sound_State_off | apply sound_startRamp | apply sound_putSpin
    | apply Sound.ite | apply Snd.ite | apply Snd.out | split | refine Snd.of (by assumption) ?_ | simp only [Snd.lit] | apply Sound.regs
    | apply Sound.flash | apply Sound.keeping | apply Sound.sdram | apply Sound.stage | apply Sound.porch | apply Sound.hwRam | apply Sound.bufEcc
    | apply Sound.keepEcc | apply Sound.hwEcc | (simp only [Sound.lit_iff]; refine ⟨?_, ?_, ?_, ?_, ?_, ?_, ?_, ?_, ?_, ?_⟩) | dsimp only)
theorem sound_execAlignDone (drum : Fin 2) (s : State) (h1 : Sound s) : SoundRes (execAlignDone drum s) := by
  unfold execAlignDone
  with_reducible (repeat' first
    | assumption | apply sound_completes | apply sound_startRamp | apply sound_State_wr | apply sound_State_on | apply Sound.ite | split | dsimp only)
theorem sound_freeVector (n : Nat) (s : State) (h1 : Sound s) : Sound (freeVector n s) := by
  unfold freeVector
  with_reducible (repeat' first
    | assumption | apply sound_putSpin | apply sound_State_drew | apply Sound.regs | apply Sound.flash | apply Sound.keeping | apply Sound.sdram
    | apply Sound.stage | apply Sound.porch | apply Sound.hwRam | apply Sound.bufEcc | apply Sound.keepEcc | apply Sound.hwEcc
    | (simp only [Sound.lit_iff]; refine ⟨?_, ?_, ?_, ?_, ?_, ?_, ?_, ?_, ?_, ?_⟩) | dsimp only)
theorem sound_commutate (n : Nat) (s : State) (h1 : Sound s) : Sound (commutate n s) := by
  unfold commutate
  with_reducible (repeat' first
    | assumption | apply sound_putSpin | apply Sound.regs | apply Sound.flash | apply Sound.keeping | apply Sound.sdram | apply Sound.stage
    | apply Sound.porch | apply Sound.hwRam | apply Sound.bufEcc | apply Sound.keepEcc | apply Sound.hwEcc
    | (simp only [Sound.lit_iff]; refine ⟨?_, ?_, ?_, ?_, ?_, ?_, ?_, ?_, ?_, ?_⟩) | dsimp only)
theorem sound_enterRun (n : Nat) (milli : Nat) (s : State) (h2 : Sound s) : Sound (enterRun n milli s) := by
  unfold enterRun
  with_reducible (repeat' first
    | assumption | apply sound_setSpin | apply sound_enterSpin | apply sound_retryEnd | apply sound_State_bump | apply sound_writeTargetRef
    | apply sound_showTarget | apply sound_putSpin | apply Sound.regs | apply Sound.flash | apply Sound.keeping | apply Sound.sdram
    | apply Sound.stage | apply Sound.porch | apply Sound.hwRam | apply Sound.bufEcc | apply Sound.keepEcc | apply Sound.hwEcc
    | (simp only [Sound.lit_iff]; refine ⟨?_, ?_, ?_, ?_, ?_, ?_, ?_, ?_, ?_, ?_⟩) | dsimp only)
theorem sound_reseedSpeed (n : Nat) (s : State) (h1 : Sound s) : Sound (reseedSpeed n s) := by
  unfold reseedSpeed
  with_reducible (repeat' first
    | assumption | apply sound_putDrum | split | apply Sound.regs | apply Sound.flash | apply Sound.keeping | apply Sound.sdram | apply Sound.stage
    | apply Sound.porch | apply Sound.hwRam | apply Sound.bufEcc | apply Sound.keepEcc | apply Sound.hwEcc
    | (simp only [Sound.lit_iff]; refine ⟨?_, ?_, ?_, ?_, ?_, ?_, ?_, ?_, ?_, ?_⟩) | dsimp only)
theorem sound_watchMeasured (n : Nat) (milli : Nat) (s : State) (h2 : Sound s) : Sound (watchMeasured n milli s) := by
  unfold watchMeasured
  with_reducible (repeat' first
    | assumption | apply sound_cutSpin | apply sound_putSpin | apply sound_occur | apply Sound.ite | split | apply Sound.regs | apply Sound.flash
    | apply Sound.keeping | apply Sound.sdram | apply Sound.stage | apply Sound.porch | apply Sound.hwRam | apply Sound.bufEcc | apply Sound.keepEcc
    | apply Sound.hwEcc | (simp only [Sound.lit_iff]; refine ⟨?_, ?_, ?_, ?_, ?_, ?_, ?_, ?_, ?_, ?_⟩) | dsimp only)
theorem sound_watchSpeed (n : Nat) (s : State) (h1 : Sound s) : Sound (watchSpeed n s) := by
  unfold watchSpeed
  with_reducible (repeat' first
    | assumption | apply sound_watchMeasured | dsimp only)
theorem sound_execBemfZeroCrossing (drum : Fin 2) (interval : Nat) (place : Nat) (error : Int) (s : State) (h4 : Sound s) : SoundRes (execBemfZeroCrossing drum interval place error s) := by
  unfold execBemfZeroCrossing
  with_reducible (repeat' first
    | assumption | apply sound_completes | apply sound_putSpin | apply sound_watchSpeed | apply sound_enterRun | apply sound_freeVector
    | apply sound_State_bump | apply sound_commutate | apply sound_reseedSpeed | apply sound_watchMeasured | apply sound_setSpin
    | apply sound_State_off | apply Sound.ite | split | apply Sound.regs | apply Sound.flash | apply Sound.keeping | apply Sound.sdram
    | apply Sound.stage | apply Sound.porch | apply Sound.hwRam | apply Sound.bufEcc | apply Sound.keepEcc | apply Sound.hwEcc
    | (simp only [Sound.lit_iff]; refine ⟨?_, ?_, ?_, ?_, ?_, ?_, ?_, ?_, ?_, ?_⟩) | dsimp only)
theorem sound_execRampTimeout (drum : Fin 2) (s : State) (h1 : Sound s) : SoundRes (execRampTimeout drum s) := by
  unfold execRampTimeout
  with_reducible (repeat' first
    | assumption | apply sound_completes | apply sound_enterSpin | apply sound_putSpin | apply Sound.ite | split | apply Sound.regs
    | apply Sound.flash | apply Sound.keeping | apply Sound.sdram | apply Sound.stage | apply Sound.porch | apply Sound.hwRam | apply Sound.bufEcc
    | apply Sound.keepEcc | apply Sound.hwEcc | (simp only [Sound.lit_iff]; refine ⟨?_, ?_, ?_, ?_, ?_, ?_, ?_, ?_, ?_, ?_⟩) | dsimp only)
theorem sound_execCommutationMissed (drum : Fin 2) (s : State) (h1 : Sound s) : SoundRes (execCommutationMissed drum s) := by
  unfold execCommutationMissed
  with_reducible (repeat' first
    | assumption | apply sound_completes | apply sound_commutate | apply sound_putSpin | apply sound_enterSpin | apply sound_State_bump
    | apply sound_occur | apply sound_watchSpeed | apply sound_setSpin | apply Sound.ite | split | apply Sound.regs | apply Sound.flash
    | apply Sound.keeping | apply Sound.sdram | apply Sound.stage | apply Sound.porch | apply Sound.hwRam | apply Sound.bufEcc | apply Sound.keepEcc
    | apply Sound.hwEcc | (simp only [Sound.lit_iff]; refine ⟨?_, ?_, ?_, ?_, ?_, ?_, ?_, ?_, ?_, ?_⟩) | dsimp only)
theorem sound_execQuietEntry (drum : Fin 2) (s : State) (h1 : Sound s) : SoundRes (execQuietEntry drum s) := by
  unfold execQuietEntry
  with_reducible (repeat' first
    | assumption | apply sound_completes | apply sound_putSpin | apply sound_State_drew | apply sound_State_on | apply Sound.ite | split
    | apply Sound.regs | apply Sound.flash | apply Sound.keeping | apply Sound.sdram | apply Sound.stage | apply Sound.porch | apply Sound.hwRam
    | apply Sound.bufEcc | apply Sound.keepEcc | apply Sound.hwEcc | (simp only [Sound.lit_iff]; refine ⟨?_, ?_, ?_, ?_, ?_, ?_, ?_, ?_, ?_, ?_⟩)
    | dsimp only)
theorem sound_execBrakeLowSpeed (drum : Fin 2) (s : State) (h1 : Sound s) : SoundRes (execBrakeLowSpeed drum s) := by
  unfold execBrakeLowSpeed
  with_reducible (repeat' first
    | assumption | apply sound_completes | apply sound_putSpin | apply Sound.ite | split | apply Sound.regs | apply Sound.flash | apply Sound.keeping
    | apply Sound.sdram | apply Sound.stage | apply Sound.porch | apply Sound.hwRam | apply Sound.bufEcc | apply Sound.keepEcc | apply Sound.hwEcc
    | (simp only [Sound.lit_iff]; refine ⟨?_, ?_, ?_, ?_, ?_, ?_, ?_, ?_, ?_, ?_⟩) | dsimp only)
theorem sound_execBrakeHoldEnd (drum : Fin 2) (s : State) (h1 : Sound s) : SoundRes (execBrakeHoldEnd drum s) := by
  unfold execBrakeHoldEnd
  with_reducible (repeat' first
    | assumption | apply sound_completes | apply sound_putSpin | apply Sound.ite | split | apply Sound.regs | apply Sound.flash | apply Sound.keeping
    | apply Sound.sdram | apply Sound.stage | apply Sound.porch | apply Sound.hwRam | apply Sound.bufEcc | apply Sound.keepEcc | apply Sound.hwEcc
    | (simp only [Sound.lit_iff]; refine ⟨?_, ?_, ?_, ?_, ?_, ?_, ?_, ?_, ?_, ?_⟩) | dsimp only)
theorem sound_execSpindleAtRest (drum : Fin 2) (s : State) (h1 : Sound s) : SoundRes (execSpindleAtRest drum s) := by
  unfold execSpindleAtRest
  with_reducible (repeat' first
    | assumption | apply sound_completes | apply sound_enterSpin | apply sound_putSpin | apply sound_occur | apply sound_countFailure
    | apply sound_dropPruned | apply sound_evalStopped | apply Sound.ite | split | apply Sound.regs | apply Sound.flash | apply Sound.keeping
    | apply Sound.sdram | apply Sound.stage | apply Sound.porch | apply Sound.hwRam | apply Sound.bufEcc | apply Sound.keepEcc | apply Sound.hwEcc
    | (simp only [Sound.lit_iff]; refine ⟨?_, ?_, ?_, ?_, ?_, ?_, ?_, ?_, ?_, ?_⟩) | dsimp only)
theorem sound_execSpinCut (drum : Fin 2) (s : State) (h1 : Sound s) : SoundRes (execSpinCut drum s) := by
  unfold execSpinCut
  with_reducible (repeat' first
    | assumption | apply sound_completes | apply sound_cutSpin | apply Sound.ite | split | dsimp only)
theorem sound_execSpinFault (drum : Fin 2) (s : State) (h1 : Sound s) : SoundRes (execSpinFault drum s) := by
  unfold execSpinFault
  with_reducible (repeat' first
    | assumption | apply sound_completes | apply sound_occur | apply sound_cutSpin | apply sound_putSpin | apply Sound.ite | split | apply Sound.regs
    | apply Sound.flash | apply Sound.keeping | apply Sound.sdram | apply Sound.stage | apply Sound.porch | apply Sound.hwRam | apply Sound.bufEcc
    | apply Sound.keepEcc | apply Sound.hwEcc | (simp only [Sound.lit_iff]; refine ⟨?_, ?_, ?_, ?_, ?_, ?_, ?_, ?_, ?_, ?_⟩) | dsimp only)
theorem sound_execSpinCutEnd (drum : Fin 2) (s : State) (h1 : Sound s) : SoundRes (execSpinCutEnd drum s) := by
  unfold execSpinCutEnd
  with_reducible (repeat' first
    | assumption | apply sound_putSpin | apply sound_completes | apply sound_State_off | apply sound_evalStopped | apply sound_startCheck
    | apply Sound.ite | split | apply Sound.regs | apply Sound.flash | apply Sound.keeping | apply Sound.sdram | apply Sound.stage | apply Sound.porch
    | apply Sound.hwRam | apply Sound.bufEcc | apply Sound.keepEcc | apply Sound.hwEcc
    | (simp only [Sound.lit_iff]; refine ⟨?_, ?_, ?_, ?_, ?_, ?_, ?_, ?_, ?_, ?_⟩) | dsimp only)
theorem sound_sledCode (n : Nat) (code : Nat) (s : State) (h2 : Sound s) : Sound (sledCode n code s) := by
  unfold sledCode
  with_reducible (repeat' first
    | assumption | apply sound_State_wr | dsimp only)
theorem sound_sledReady (n : Nat) (code : Nat) (s : State) (h2 : Sound s) : Sound (sledReady n code s) := by
  unfold sledReady
  with_reducible (repeat' first
    | assumption | apply sound_sledCode | apply sound_State_wr | apply sound_State_off | dsimp only)
theorem sound_sledUnhomed (n : Nat) (code : Nat) (s : State) (h2 : Sound s) : Sound (sledUnhomed n code s) := by
  unfold sledUnhomed
  with_reducible (repeat' first
    | assumption | apply sound_sledCode | apply sound_State_rstAll | dsimp only)
theorem sound_startMove (n : Nat) (m : SledMove) (s : State) (h2 : Sound s) : Sound (startMove n m s) := by
  unfold startMove
  with_reducible (repeat' first
    | assumption | apply sound_putSled | apply sound_sledCode | apply sound_State_wr | apply sound_State_on | apply Sound.regs | apply Sound.flash
    | apply Sound.keeping | apply Sound.sdram | apply Sound.stage | apply Sound.porch | apply Sound.hwRam | apply Sound.bufEcc | apply Sound.keepEcc
    | apply Sound.hwEcc | (simp only [Sound.lit_iff]; refine ⟨?_, ?_, ?_, ?_, ?_, ?_, ?_, ?_, ?_, ?_⟩) | dsimp only)
theorem sound_seekFrom (n : Nat) (start : Int) (target : Int) (stroke : Bool) (s : State) (h4 : Sound s) : Sound (seekFrom n start target stroke s) := by
  unfold seekFrom
  with_reducible (repeat' first
    | assumption | apply sound_startMove | apply sound_sledCode | split | dsimp only)
theorem sound_seekTo (n : Nat) (target : Int) (stroke : Bool) (s : State) (h3 : Sound s) : Sound (seekTo n target stroke s) := by
  unfold seekTo
  with_reducible (repeat' first
    | assumption | apply sound_sledCode | apply sound_seekFrom | apply Sound.ite | split | dsimp only)
theorem sound_startHome (n : Nat) (stroke : Bool) (s : State) (h2 : Sound s) : Sound (startHome n stroke s) := by
  unfold startHome
  with_reducible (repeat' first
    | assumption | apply sound_putSled | apply sound_State_wr | apply sound_sledCode | apply sound_State_off | apply sound_State_on | apply Sound.regs
    | apply Sound.flash | apply Sound.keeping | apply Sound.sdram | apply Sound.stage | apply Sound.porch | apply Sound.hwRam | apply Sound.bufEcc
    | apply Sound.keepEcc | apply Sound.hwEcc | (simp only [Sound.lit_iff]; refine ⟨?_, ?_, ?_, ?_, ?_, ?_, ?_, ?_, ?_, ?_⟩) | dsimp only)
theorem sound_sledCmd (slot : Nat) (n : Nat) (act : State → State) (s : State) (h2 : ∀ y0, Sound y0 → Sound (act y0)) (h3 : Sound s) : Sound (sledCmd slot n act s) := by
  unfold sledCmd
  with_reducible (repeat' first
    | assumption | intro _ | apply sound_guardWrite | apply sound_sledCode | apply h2 | apply Sound.ite | split | dsimp only)
theorem sound_execSledSeek (slot : Fin 8) (drum : Fin 2) (s : State) (h2 : Sound s) : SoundRes (execSledSeek slot drum s) := by
  unfold execSledSeek
  with_reducible (repeat' first
    | assumption | intro _ | apply sound_completes | apply sound_sledCmd | apply sound_sledCode | apply sound_seekTo | split | dsimp only)
theorem sound_execRunStage (slot : Fin 8) (drum : Fin 2) (s : State) (h2 : Sound s) : SoundRes (execRunStage slot drum s) := by
  unfold execRunStage
  with_reducible (repeat' first
    | assumption | intro _ | apply sound_completes | apply sound_sledCmd | apply sound_sledCode | apply sound_startMove | apply Sound.ite
    | apply Snd.ite | apply Snd.out | split | refine Snd.of (by assumption) ?_ | simp only [Snd.lit] | dsimp only)
theorem sound_execHome (slot : Fin 8) (drum : Fin 2) (s : State) (h2 : Sound s) : SoundRes (execHome slot drum s) := by
  unfold execHome
  with_reducible (repeat' first
    | assumption | intro _ | apply sound_completes | apply sound_sledCmd | apply sound_sledCode | apply sound_startHome | apply Sound.ite | split
    | dsimp only)
theorem sound_stopMove (n : Nat) (t : Nat) (s : State) (h2 : Sound s) : Sound (stopMove n t s) := by
  unfold stopMove
  with_reducible (repeat' first
    | assumption | apply sound_moveTo | apply sound_putSled | apply Sound.regs | apply Sound.flash | apply Sound.keeping | apply Sound.sdram
    | apply Sound.stage | apply Sound.porch | apply Sound.hwRam | apply Sound.bufEcc | apply Sound.keepEcc | apply Sound.hwEcc
    | (simp only [Sound.lit_iff]; refine ⟨?_, ?_, ?_, ?_, ?_, ?_, ?_, ?_, ?_, ?_⟩) | dsimp only)
theorem sound_searchTo (n : Nat) (t : Nat) (s : State) (h2 : Sound s) : Sound (searchTo n t s) := by
  unfold searchTo
  with_reducible (repeat' first
    | assumption | apply sound_putPos | apply Sound.ite | split | dsimp only)
theorem sound_execStop (slot : Fin 8) (drum : Fin 2) (elapsed : Nat) (s : State) (h3 : Sound s) : SoundRes (execStop slot drum elapsed s) := by
  unfold execStop
  with_reducible (repeat' first
    | assumption | intro _ | apply sound_completes | apply sound_sledCmd | apply sound_searchTo | apply sound_dropSledRetry | apply sound_sledUnhomed
    | apply sound_putSled | apply sound_sledReady | apply sound_stopMove | apply sound_sledCode | split | apply Sound.regs | apply Sound.flash
    | apply Sound.keeping | apply Sound.sdram | apply Sound.stage | apply Sound.porch | apply Sound.hwRam | apply Sound.bufEcc | apply Sound.keepEcc
    | apply Sound.hwEcc | (simp only [Sound.lit_iff]; refine ⟨?_, ?_, ?_, ?_, ?_, ?_, ?_, ?_, ?_, ?_⟩) | dsimp only)
theorem sound_execSledCmdBadOp (slot : Fin 8) (drum : Fin 2) (s : State) (h2 : Sound s) : SoundRes (execSledCmdBadOp slot drum s) := by
  unfold execSledCmdBadOp
  with_reducible (repeat' first
    | assumption | intro _ | apply sound_completes | apply sound_sledCmd | apply sound_sledCode | dsimp only)
theorem sound_seekEnded (n : Nat) (src : Option Nat) (s : State) (h2 : Sound s) : Sound (seekEnded n src s) := by
  unfold seekEnded
  with_reducible (repeat' first
    | assumption | intro _ | apply sound_failStroke | apply sound_endStroke | apply sound_updateCurrent | apply Sound.ite | split | apply Sound.regs
    | apply Sound.flash | apply Sound.keeping | apply Sound.sdram | apply Sound.stage | apply Sound.porch | apply Sound.hwRam | apply Sound.bufEcc
    | apply Sound.keepEcc | apply Sound.hwEcc | (simp only [Sound.lit_iff]; refine ⟨?_, ?_, ?_, ?_, ?_, ?_, ?_, ?_, ?_, ?_⟩) | dsimp only)
theorem sound_moveDone (n : Nat) (m : SledMove) (s : State) (h2 : Sound s) : Sound (moveDone n m s) := by
  unfold moveDone
  with_reducible (repeat' first
    | assumption | apply sound_sledReady | apply sound_retryEnd | apply sound_putSled | apply sound_seekEnded | apply Sound.ite | split
    | apply Sound.regs | apply Sound.flash | apply Sound.keeping | apply Sound.sdram | apply Sound.stage | apply Sound.porch | apply Sound.hwRam
    | apply Sound.bufEcc | apply Sound.keepEcc | apply Sound.hwEcc | (simp only [Sound.lit_iff]; refine ⟨?_, ?_, ?_, ?_, ?_, ?_, ?_, ?_, ?_, ?_⟩)
    | dsimp only)
theorem sound_execSledMoveEnd (drum : Fin 2) (s : State) (h1 : Sound s) : SoundRes (execSledMoveEnd drum s) := by
  unfold execSledMoveEnd
  with_reducible (repeat' first
    | assumption | apply sound_completes | apply sound_moveTo | apply sound_moveDone | apply sound_occur | apply sound_putSled
    | apply sound_sledUnhomed | apply sound_retryEnd | apply sound_seekEnded | apply Sound.ite | split | apply Sound.regs | apply Sound.flash
    | apply Sound.keeping | apply Sound.sdram | apply Sound.stage | apply Sound.porch | apply Sound.hwRam | apply Sound.bufEcc | apply Sound.keepEcc
    | apply Sound.hwEcc | (simp only [Sound.lit_iff]; refine ⟨?_, ?_, ?_, ?_, ?_, ?_, ?_, ?_, ?_, ?_⟩) | dsimp only)
theorem sound_retryMove (n : Nat) (s : State) (h1 : Sound s) : Sound (retryMove n s) := by
  unfold retryMove
  with_reducible (repeat' first
    | assumption | apply sound_moveDone | apply sound_seekFrom | apply Sound.ite | split | dsimp only)
theorem sound_retryHome (n : Nat) (s : State) (h1 : Sound s) : Sound (retryHome n s) := by
  unfold retryHome
  with_reducible (repeat' first
    | assumption | apply sound_startHome | apply Sound.ite | split | dsimp only)
theorem sound_execHomeInwardDone (drum : Fin 2) (s : State) (h1 : Sound s) : SoundRes (execHomeInwardDone drum s) := by
  unfold execHomeInwardDone
  with_reducible (repeat' first
    | assumption | apply sound_completes | apply sound_putPos | apply sound_State_wr | apply sound_putSled | apply sound_sledReady
    | apply sound_State_on | apply Sound.ite | split | apply Sound.regs | apply Sound.flash | apply Sound.keeping | apply Sound.sdram
    | apply Sound.stage | apply Sound.porch | apply Sound.hwRam | apply Sound.bufEcc | apply Sound.keepEcc | apply Sound.hwEcc
    | (simp only [Sound.lit_iff]; refine ⟨?_, ?_, ?_, ?_, ?_, ?_, ?_, ?_, ?_, ?_⟩) | dsimp only)
theorem sound_execHomeIndexTimeout (drum : Fin 2) (s : State) (h1 : Sound s) : SoundRes (execHomeIndexTimeout drum s) := by
  unfold execHomeIndexTimeout
  with_reducible (repeat' first
    | assumption | apply sound_completes | apply sound_occur | apply sound_putPos | apply sound_putSled | apply sound_sledUnhomed
    | apply sound_retryEnd | apply sound_seekEnded | apply Sound.ite | split | apply Sound.regs | apply Sound.flash | apply Sound.keeping
    | apply Sound.sdram | apply Sound.stage | apply Sound.porch | apply Sound.hwRam | apply Sound.bufEcc | apply Sound.keepEcc | apply Sound.hwEcc
    | (simp only [Sound.lit_iff]; refine ⟨?_, ?_, ?_, ?_, ?_, ?_, ?_, ?_, ?_, ?_⟩) | dsimp only)
theorem sound_execSledHoldCurrent (drum : Fin 2) (s : State) (h1 : Sound s) : SoundRes (execSledHoldCurrent drum s) := by
  unfold execSledHoldCurrent
  with_reducible (repeat' first
    | assumption | apply sound_completes | apply sound_putSled | apply Sound.ite | split | apply Sound.regs | apply Sound.flash | apply Sound.keeping
    | apply Sound.sdram | apply Sound.stage | apply Sound.porch | apply Sound.hwRam | apply Sound.bufEcc | apply Sound.keepEcc | apply Sound.hwEcc
    | (simp only [Sound.lit_iff]; refine ⟨?_, ?_, ?_, ?_, ?_, ?_, ?_, ?_, ?_, ?_⟩) | dsimp only)
theorem sound_execSledStageDataAccess (slot : Fin 8) (drum : Fin 2) (write : Option Nat) (s : State) (h3 : Sound s) : SoundRes (execSledStageDataAccess slot drum write s) := by
  unfold execSledStageDataAccess
  with_reducible (repeat' first
    | assumption | intro _ | apply sound_State_wr | apply sound_completes | apply sound_guardWrite | apply sound_putDrum | apply sound_guardRead
    | apply sound_State_emit | apply Sound.ite | apply Snd.ite | apply Snd.out | apply wf_putW | split | refine Snd.of (by assumption) ?_
    | simp only [Snd.lit] | apply Sound.regs | apply Sound.flash | apply Sound.keeping | apply Sound.sdram | apply Sound.stage | apply Sound.porch
    | apply Sound.hwRam | apply Sound.bufEcc | apply Sound.keepEcc | apply Sound.hwEcc
    | (simp only [Sound.lit_iff]; refine ⟨?_, ?_, ?_, ?_, ?_, ?_, ?_, ?_, ?_, ?_⟩) | dsimp only)
theorem sound_execEncoderChange (drum : Fin 2) (a : Bool) (b : Bool) (gap : Nat) (s : State) (h4 : Sound s) : SoundRes (execEncoderChange drum a b gap s) := by
  unfold execEncoderChange
  with_reducible (repeat' first
    | assumption | apply sound_completes | apply sound_putSled | apply sound_occur | apply sound_State_bump | apply sound_State_wr | apply Sound.ite
    | split | apply Sound.regs | apply Sound.flash | apply Sound.keeping | apply Sound.sdram | apply Sound.stage | apply Sound.porch
    | apply Sound.hwRam | apply Sound.bufEcc | apply Sound.keepEcc | apply Sound.hwEcc
    | (simp only [Sound.lit_iff]; refine ⟨?_, ?_, ?_, ?_, ?_, ?_, ?_, ?_, ?_, ?_⟩) | dsimp only)
theorem sound_execEncoderIndex (drum : Fin 2) (elapsed : Nat) (s : State) (h2 : Sound s) : SoundRes (execEncoderIndex drum elapsed s) := by
  unfold execEncoderIndex
  with_reducible (repeat' first
    | assumption | apply sound_completes | apply sound_searchTo | apply sound_State_wr | apply sound_putSled | apply sound_sledReady
    | apply sound_retryEnd | apply sound_State_on | apply sound_State_bump | apply sound_occur | apply sound_State_off | apply Sound.ite | split
    | apply Sound.regs | apply Sound.flash | apply Sound.keeping | apply Sound.sdram | apply Sound.stage | apply Sound.porch | apply Sound.hwRam
    | apply Sound.bufEcc | apply Sound.keepEcc | apply Sound.hwEcc | (simp only [Sound.lit_iff]; refine ⟨?_, ?_, ?_, ?_, ?_, ?_, ?_, ?_, ?_, ?_⟩)
    | dsimp only)
theorem sound_trayEnded (n : Nat) (src : Option Nat) (s : State) (h2 : Sound s) : Sound (trayEnded n src s) := by
  unfold trayEnded
  with_reducible (repeat' first
    | assumption | intro _ | apply sound_putTray | apply sound_State_off | apply sound_putSpin | apply sound_failStroke | apply sound_endStroke
    | apply sound_updateCurrent | apply Sound.ite | split | apply Sound.regs | apply Sound.flash | apply Sound.keeping | apply Sound.sdram
    | apply Sound.stage | apply Sound.porch | apply Sound.hwRam | apply Sound.bufEcc | apply Sound.keepEcc | apply Sound.hwEcc
    | (simp only [Sound.lit_iff]; refine ⟨?_, ?_, ?_, ?_, ?_, ?_, ?_, ?_, ?_, ?_⟩) | dsimp only)
theorem sound_execTraySwitchChange (drum : Fin 2) (inner : Bool) (outer : Bool) (s : State) (h3 : Sound s) : SoundRes (execTraySwitchChange drum inner outer s) := by
  unfold execTraySwitchChange
  with_reducible (repeat' first
    | assumption | apply sound_State_wrB | apply sound_senses | apply sound_trayFollow | apply sound_trayEnded | apply sound_putTray
    | apply sound_retryEnd | apply Sound.ite | split | apply Sound.regs | apply Sound.flash | apply Sound.keeping | apply Sound.sdram
    | apply Sound.stage | apply Sound.porch | apply Sound.hwRam | apply Sound.bufEcc | apply Sound.keepEcc | apply Sound.hwEcc
    | (simp only [Sound.lit_iff]; refine ⟨?_, ?_, ?_, ?_, ?_, ?_, ?_, ?_, ?_, ?_⟩) | dsimp only)
theorem sound_execTrayButtonPress (drum : Fin 2) (pressed : Bool) (s : State) (h2 : Sound s) : SoundRes (execTrayButtonPress drum pressed s) := by
  unfold execTrayButtonPress
  with_reducible (repeat' first
    | assumption | intro _ | apply sound_State_wrB | apply sound_senses | apply sound_State_bump | apply sound_putTray | apply sound_ringBell
    | apply sound_setIrq | apply Sound.ite | split | apply Sound.regs | apply Sound.flash | apply Sound.keeping | apply Sound.sdram
    | apply Sound.stage | apply Sound.porch | apply Sound.hwRam | apply Sound.bufEcc | apply Sound.keepEcc | apply Sound.hwEcc
    | (simp only [Sound.lit_iff]; refine ⟨?_, ?_, ?_, ?_, ?_, ?_, ?_, ?_, ?_, ?_⟩) | dsimp only)
theorem sound_startTray (n : Nat) (out : Bool) (s : State) (h2 : Sound s) : Sound (startTray n out s) := by
  unfold startTray
  with_reducible (repeat' first
    | assumption | apply sound_trayEnded | apply sound_retryEnd | apply sound_putTray | apply sound_enterTray | apply Sound.ite | split
    | apply Sound.regs | apply Sound.flash | apply Sound.keeping | apply Sound.sdram | apply Sound.stage | apply Sound.porch | apply Sound.hwRam
    | apply Sound.bufEcc | apply Sound.keepEcc | apply Sound.hwEcc | (simp only [Sound.lit_iff]; refine ⟨?_, ?_, ?_, ?_, ?_, ?_, ?_, ?_, ?_, ?_⟩)
    | dsimp only)
theorem sound_execTrayOpenStart (drum : Fin 2) (s : State) (h1 : Sound s) : SoundRes (execTrayOpenStart drum s) := by
  unfold execTrayOpenStart
  with_reducible (repeat' first
    | assumption | apply sound_completes | apply sound_startTray | apply sound_selectLaser | apply sound_State_off | apply Sound.ite | split
    | dsimp only)
theorem sound_execTrayTimeout (drum : Fin 2) (s : State) (h1 : Sound s) : SoundRes (execTrayTimeout drum s) := by
  unfold execTrayTimeout
  with_reducible (repeat' first
    | assumption | apply sound_completes | apply sound_occur | apply sound_enterTray | apply sound_putTray | apply sound_trayEnded
    | apply sound_retryEnd | apply Sound.ite | split | apply Sound.regs | apply Sound.flash | apply Sound.keeping | apply Sound.sdram
    | apply Sound.stage | apply Sound.porch | apply Sound.hwRam | apply Sound.bufEcc | apply Sound.keepEcc | apply Sound.hwEcc
    | (simp only [Sound.lit_iff]; refine ⟨?_, ?_, ?_, ?_, ?_, ?_, ?_, ?_, ?_, ?_⟩) | dsimp only)
theorem sound_retryTray (n : Nat) (s : State) (h1 : Sound s) : Sound (retryTray n s) := by
  unfold retryTray
  with_reducible (repeat' first
    | assumption | apply sound_startTray | apply sound_putTray | apply Sound.ite | split | apply Sound.regs | apply Sound.flash | apply Sound.keeping
    | apply Sound.sdram | apply Sound.stage | apply Sound.porch | apply Sound.hwRam | apply Sound.bufEcc | apply Sound.keepEcc | apply Sound.hwEcc
    | (simp only [Sound.lit_iff]; refine ⟨?_, ?_, ?_, ?_, ?_, ?_, ?_, ?_, ?_, ?_⟩) | dsimp only)
theorem sound_execTrayBrakeEnd (drum : Fin 2) (s : State) (h1 : Sound s) : SoundRes (execTrayBrakeEnd drum s) := by
  unfold execTrayBrakeEnd
  with_reducible (repeat' first
    | assumption | apply sound_completes | apply sound_putTray | apply sound_startTray | apply sound_enterTray | apply Sound.ite | split
    | apply Sound.regs | apply Sound.flash | apply Sound.keeping | apply Sound.sdram | apply Sound.stage | apply Sound.porch | apply Sound.hwRam
    | apply Sound.bufEcc | apply Sound.keepEcc | apply Sound.hwEcc | (simp only [Sound.lit_iff]; refine ⟨?_, ?_, ?_, ?_, ?_, ?_, ?_, ?_, ?_, ?_⟩)
    | dsimp only)
theorem sound_trayRequest (n : Nat) (out : Bool) (s : State) (h2 : Sound s) : Sound (trayRequest n out s) := by
  unfold trayRequest
  with_reducible (repeat' first
    | assumption | apply sound_startTray | apply sound_putTray | apply sound_putSpin | apply sound_State_on | apply Sound.ite | split
    | apply Sound.regs | apply Sound.flash | apply Sound.keeping | apply Sound.sdram | apply Sound.stage | apply Sound.porch | apply Sound.hwRam
    | apply Sound.bufEcc | apply Sound.keepEcc | apply Sound.hwEcc | (simp only [Sound.lit_iff]; refine ⟨?_, ?_, ?_, ?_, ?_, ?_, ?_, ?_, ?_, ?_⟩)
    | dsimp only)
theorem sound_withEq (n : Nat) (f : State → State) (s : State) (h1 : ∀ y0, Sound y0 → Sound (f y0)) (h2 : Sound s) : Sound (withEq n f s) := by
  unfold withEq
  with_reducible (repeat' first
    | assumption | intro _ | apply sound_State_wrB | apply h1 | dsimp only)
theorem sound_setEqFreeze (n : Nat) (on : Bool) (s : State) (h2 : Sound s) : Sound (setEqFreeze n on s) := by
  unfold setEqFreeze
  with_reducible (repeat' first
    | assumption | intro _ | apply sound_withEq | apply sound_State_wrB | apply sound_State_on | dsimp only)
theorem sound_dropLock (n : Nat) (s : State) (h1 : Sound s) : Sound (dropLock n s) := by
  unfold dropLock
  with_reducible (repeat' first
    | assumption | intro _ | apply sound_withEq | apply sound_State_rstAll | dsimp only)
theorem sound_setMode (n : Nat) (mode : Nat) (s : State) (h2 : Sound s) : Sound (setMode n mode s) := by
  unfold setMode
  with_reducible (repeat' first
    | assumption | apply sound_syncFree | apply sound_dropLock | apply sound_State_wr | apply sound_State_rstAll | apply Sound.ite | split
    | dsimp only)
theorem sound_execTimingLock (drum : Fin 2) (timing : TimingRead) (s : State) (h2 : Sound s) : SoundRes (execTimingLock drum timing s) := by
  unfold execTimingLock
  with_reducible (repeat' first
    | assumption | intro _ | apply sound_completes | apply sound_withEq | apply sound_State_on | apply sound_State_wr | apply Sound.ite | split
    | dsimp only)
theorem sound_execSyncLock (drum : Fin 2) (s : State) (h1 : Sound s) : SoundRes (execSyncLock drum s) := by
  unfold execSyncLock
  with_reducible (repeat' first
    | assumption | apply sound_completes | apply sound_putDrum | apply sound_State_on | apply Sound.ite | split | apply Sound.regs | apply Sound.flash
    | apply Sound.keeping | apply Sound.sdram | apply Sound.stage | apply Sound.porch | apply Sound.hwRam | apply Sound.bufEcc | apply Sound.keepEcc
    | apply Sound.hwEcc | (simp only [Sound.lit_iff]; refine ⟨?_, ?_, ?_, ?_, ?_, ?_, ?_, ?_, ?_, ?_⟩) | dsimp only)
theorem sound_execSyncMissing (drum : Fin 2) (again : Bool) (s : State) (h2 : Sound s) : SoundRes (execSyncMissing drum again s) := by
  unfold execSyncMissing
  with_reducible (repeat' first
    | assumption | apply sound_completes | apply sound_putDrum | apply sound_State_off | apply sound_State_bump | apply Sound.ite | split
    | apply Sound.regs | apply Sound.flash | apply Sound.keeping | apply Sound.sdram | apply Sound.stage | apply Sound.porch | apply Sound.hwRam
    | apply Sound.bufEcc | apply Sound.keepEcc | apply Sound.hwEcc | (simp only [Sound.lit_iff]; refine ⟨?_, ?_, ?_, ?_, ?_, ?_, ?_, ?_, ?_, ?_⟩)
    | dsimp only)
theorem sound_execScarBegin (span : ScarSpan) (s : State) (h1 : Sound s) : SoundRes (execScarBegin span s) := by
  unfold execScarBegin
  with_reducible (repeat' first
    | assumption | intro _ | apply sound_completes | apply sound_withEq | apply sound_putFront | apply sound_State_bump | apply Sound.ite | split
    | apply Sound.regs | apply Sound.flash | apply Sound.keeping | apply Sound.sdram | apply Sound.stage | apply Sound.porch | apply Sound.hwRam
    | apply Sound.bufEcc | apply Sound.keepEcc | apply Sound.hwEcc | (simp only [Sound.lit_iff]; refine ⟨?_, ?_, ?_, ?_, ?_, ?_, ?_, ?_, ?_, ?_⟩)
    | dsimp only)
theorem sound_execScarEnd (span : ScarSpan) (s : State) (h1 : Sound s) : SoundRes (execScarEnd span s) := by
  unfold execScarEnd
  with_reducible (repeat' first
    | assumption | intro _ | apply sound_completes | apply sound_withEq | apply sound_putFront | apply Sound.ite | split | apply Sound.regs
    | apply Sound.flash | apply Sound.keeping | apply Sound.sdram | apply Sound.stage | apply Sound.porch | apply Sound.hwRam | apply Sound.bufEcc
    | apply Sound.keepEcc | apply Sound.hwEcc | (simp only [Sound.lit_iff]; refine ⟨?_, ?_, ?_, ?_, ?_, ?_, ?_, ?_, ?_, ?_⟩) | dsimp only)
theorem sound_writeEqCfg (n : Nat) (value : Nat) (s : State) (h2 : Sound s) : Sound (writeEqCfg n value s) := by
  unfold writeEqCfg
  with_reducible (repeat' first
    | assumption | apply sound_State_wr | apply sound_State_rstAll | apply Sound.ite | split | dsimp only)
theorem sound_execEqRestore (slot : Fin 8) (drum : Fin 2) (value : Nat) (s : State) (h3 : Sound s) : SoundRes (execEqRestore slot drum value s) := by
  unfold execEqRestore
  with_reducible (repeat' first
    | assumption | intro _ | apply sound_completes | apply sound_guardWrite | apply sound_writeEqCfg | dsimp only)
theorem sound_writeReport (n : Nat) (slot : Nat) (addr : Nat) (result : Nat) (iter : Nat) (extra : Nat) (fixed : Nat) (flagged : Nat) (workId : Nat) (s : State) (h9 : Sound s) : Sound (writeReport n slot addr result iter extra fixed flagged workId s) := by
  unfold writeReport
  with_reducible (repeat' first
    | assumption | intro _ | apply sound_wrList | apply sound_State_wr | dsimp only)
theorem sound_finishIfDone (n : Nat) (s : State) (h1 : Sound s) : Sound (finishIfDone n s) := by
  unfold finishIfDone
  with_reducible (repeat' first
    | assumption | apply sound_endStroke | apply Sound.ite | split | dsimp only)
theorem sound_finishAcked (n : Nat) (id : Nat) (s : State) (h2 : Sound s) : Sound (finishAcked n id s) := by
  unfold finishAcked
  with_reducible (repeat' first
    | assumption | intro _ | apply sound_endStroke | apply Snd.ite | apply Snd.out | split | refine Snd.of (by assumption) ?_ | simp only [Snd.lit]
    | dsimp only [id])
theorem sound_giveUnit (n : Nat) (i : Nat) (off : Nat) (bs : List Nat) (s : State) (h4 : Sound s) : Sound (giveUnit n i off bs s) := by
  unfold giveUnit
  with_reducible (repeat' first
    | assumption | intro _ | apply sound_sweepUse | apply sound_updateCurrent | apply sound_State_emit | apply sound_sendUnit | apply sound_State_off
    | apply sound_memRefuse | apply sound_unitWrite | apply Sound.ite | apply Snd.ite | apply Snd.out | split | refine Snd.of (by assumption) ?_
    | simp only [Snd.lit] | apply Sound.regs | apply Sound.flash | apply Sound.keeping | apply Sound.sdram | apply Sound.stage | apply Sound.porch
    | apply Sound.hwRam | apply Sound.bufEcc | apply Sound.keepEcc | apply Sound.hwEcc
    | (simp only [Sound.lit_iff]; refine ⟨?_, ?_, ?_, ?_, ?_, ?_, ?_, ?_, ?_, ?_⟩) | dsimp only)
theorem sound_passUnit (n : Nat) (i : Nat) (s : State) (h2 : Sound s) : Sound (passUnit n i s) := by
  unfold passUnit
  with_reducible (repeat' first
    | assumption | intro _ | apply sound_endStroke | apply sound_updateCurrent | apply Sound.ite | split | apply Sound.regs | apply Sound.flash
    | apply Sound.keeping | apply Sound.sdram | apply Sound.stage | apply Sound.porch | apply Sound.hwRam | apply Sound.bufEcc | apply Sound.keepEcc
    | apply Sound.hwEcc | (simp only [Sound.lit_iff]; refine ⟨?_, ?_, ?_, ?_, ?_, ?_, ?_, ?_, ?_, ?_⟩) | dsimp only)
theorem sound_showBuffer (n : Nat) (o : Nat) (s : State) (h2 : Sound s) : Sound (showBuffer n o s) := by
  unfold showBuffer
  with_reducible (repeat' first
    | assumption | apply sound_syncFree | apply sound_State_wr | dsimp only)
theorem sound_bufferSector (n : Nat) (i : Nat) (addr : Nat) (bs : List Nat) (s : State) (h4 : Sound s) : Sound (bufferSector n i addr bs s) := by
  unfold bufferSector
  with_reducible (repeat' first
    | assumption | intro _ | apply sound_State_wr | apply sound_updateCurrent | apply sound_showBuffer | apply sound_putDrum | apply Sound.ite | split
    | apply Sound.regs | apply Sound.flash | apply Sound.keeping | apply Sound.sdram | apply Sound.stage | apply Sound.porch | apply Sound.hwRam
    | apply Sound.bufEcc | apply Sound.keepEcc | apply Sound.hwEcc | (simp only [Sound.lit_iff]; refine ⟨?_, ?_, ?_, ?_, ?_, ?_, ?_, ?_, ?_, ?_⟩)
    | dsimp only)
theorem sound_deliverSector (n : Nat) (i : Nat) (addr : Nat) (iter : Nat) (extra : Nat) (dvd : Bool) (sec : Sector) (s0 : State) (h7 : Sound s0) : Sound (deliverSector n i addr iter extra dvd sec s0) := by
  unfold deliverSector
  with_reducible (repeat' first
    | assumption | apply sound_sweepUse | apply sound_State_drew | apply sound_writeReport | apply sound_putDrum | apply sound_State_bump
    | apply sound_passUnit | apply sound_updateCurrent | apply sound_bufferSector | apply sound_giveUnit | apply sound_occur | apply Sound.ite
    | apply Snd.ite | apply Snd.out | split | refine Snd.of (by assumption) ?_ | simp only [Snd.lit] | apply Sound.regs | apply Sound.flash
    | apply Sound.keeping | apply Sound.sdram | apply Sound.stage | apply Sound.porch | apply Sound.hwRam | apply Sound.bufEcc | apply Sound.keepEcc
    | apply Sound.hwEcc | (simp only [Sound.lit_iff]; refine ⟨?_, ?_, ?_, ?_, ?_, ?_, ?_, ?_, ?_, ?_⟩) | dsimp only)
theorem sound_decodeBlock (n : Nat) (extra : Nat) (syms : List (Nat × Nat)) (scars : List Bool) (audio : Bool) (s : State) (h5 : Sound s) : Sound (decodeBlock n extra syms scars audio s) := by
  unfold decodeBlock
  with_reducible (repeat' first
    | assumption | intro _ | apply sound_State_bump | apply sound_updateCurrent | apply sound_unitRetryEnd | apply sound_syncFree
    | apply sound_putDrum | apply sound_dropBlock | apply sound_finishIfDone | apply sound_deliverSector | apply Sound.ite | apply Sound.foldl
    | apply Snd.ite | apply Snd.foldl | apply Snd.out | split | refine Snd.of (by assumption) ?_ | simp only [Snd.lit] | apply Sound.regs
    | apply Sound.flash | apply Sound.keeping | apply Sound.sdram | apply Sound.stage | apply Sound.porch | apply Sound.hwRam | apply Sound.bufEcc
    | apply Sound.keepEcc | apply Sound.hwEcc | (simp only [Sound.lit_iff]; refine ⟨?_, ?_, ?_, ?_, ?_, ?_, ?_, ?_, ?_, ?_⟩) | dsimp only)
theorem sound_putTaps (n : Nat) (taps : List Int) (s : State) (h2 : Sound s) : Sound (putTaps n taps s) := by
  unfold putTaps
  with_reducible (repeat' first
    | assumption | intro _ | apply sound_State_wr | apply Sound.foldl | apply Snd.ite | apply Snd.foldl | apply Snd.out
    | refine Snd.of (by assumption) ?_ | simp only [Snd.lit] | dsimp only)
theorem sound_execBlockDecode (drum : Fin 2) (block : BlockRead) (s : State) (h2 : Sound s) : SoundRes (execBlockDecode drum block s) := by
  unfold execBlockDecode
  with_reducible (repeat' first
    | assumption | apply sound_completes | apply sound_decodeBlock | apply sound_putTaps | apply Sound.ite | split | dsimp only)
theorem sound_execCombineRevolution (drum : Fin 2) (block : BlockRead) (s : State) (h2 : Sound s) : SoundRes (execCombineRevolution drum block s) := by
  unfold execCombineRevolution
  with_reducible (repeat' first
    | assumption | apply sound_completes | apply sound_decodeBlock | apply sound_putTaps | apply sound_State_bump | apply Sound.ite | split
    | dsimp only)
theorem sound_execBlockSkipped (drum : Fin 2) (kbps : Nat) (s : State) (h2 : Sound s) : SoundRes (execBlockSkipped drum kbps s) := by
  unfold execBlockSkipped
  with_reducible (repeat' first
    | assumption | apply sound_State_wr | apply sound_completes | apply sound_State_bump | apply sound_occur | apply sound_putDrum
    | apply sound_failStroke | apply Sound.ite | split | apply Sound.regs | apply Sound.flash | apply Sound.keeping | apply Sound.sdram
    | apply Sound.stage | apply Sound.porch | apply Sound.hwRam | apply Sound.bufEcc | apply Sound.keepEcc | apply Sound.hwEcc
    | (simp only [Sound.lit_iff]; refine ⟨?_, ?_, ?_, ?_, ?_, ?_, ?_, ?_, ?_, ?_⟩) | dsimp only)
theorem sound_execSearchTimeout (drum : Fin 2) (s : State) (h1 : Sound s) : SoundRes (execSearchTimeout drum s) := by
  unfold execSearchTimeout
  with_reducible (repeat' first
    | assumption | apply sound_completes | apply sound_occur | apply sound_State_off | apply sound_retryEnd | apply sound_writeReport
    | apply sound_State_bump | apply sound_failStroke | apply Sound.ite | apply SoundRes.ret | apply SoundRes.ite | split | apply Sound.regs
    | apply Sound.flash | apply Sound.keeping | apply Sound.sdram | apply Sound.stage | apply Sound.porch | apply Sound.hwRam | apply Sound.bufEcc
    | apply Sound.keepEcc | apply Sound.hwEcc | (simp only [Sound.lit_iff]; refine ⟨?_, ?_, ?_, ?_, ?_, ?_, ?_, ?_, ?_, ?_⟩) | dsimp only)

end Sys2Proof.Machine
end

