-- ==== Sys2Proof/Laws/Sound4.lean ====
section
/-! SUPPORT. Each operation of Strokes, Stack, Spine, Heartwood, Serial, Start keeps a state sound: the operations named in a goal are taken off one by
one, each by its own lemma. -/
namespace Sys2Proof.Machine
set_option linter.unusedVariables false

theorem sound_takeStroke (n : Nat) (x : Stroke) (s : State) (h2 : Sound s) : Sound (takeStroke n x s) := by
  unfold takeStroke
  with_reducible (repeat' first
    | assumption | apply sound_finishStroke | apply sound_occur | apply sound_memRefuse | apply sound_admitStroke | apply Sound.ite | split
    | dsimp only)
theorem sound_writeProd (n : Nat) (slot : Nat) (v : Nat) (s : State) (h3 : Sound s) : Sound (writeProd n slot v s) := by
  unfold writeProd
  with_reducible (repeat' first
    | assumption | intro _ | apply sound_takeStroke | apply sound_State_wr | apply Sound.ite | apply Sound.foldl | apply Snd.ite | apply Snd.foldl
    | apply Snd.out | split | refine Snd.of (by assumption) ?_ | simp only [Snd.lit] | dsimp only)
theorem sound_execStkProdWrite (slot : Fin 8) (drum : Fin 2) (value : Nat) (s : State) (h3 : Sound s) : SoundRes (execStkProdWrite slot drum value s) := by
  unfold execStkProdWrite
  with_reducible (repeat' first
    | assumption | intro _ | apply sound_completes | apply sound_guardWrite | apply sound_writeProd | dsimp only)
theorem sound_strokeSeek (n : Nat) (target : Int) (s : State) (h2 : Sound s) : Sound (strokeSeek n target s) := by
  unfold strokeSeek
  with_reducible (repeat' first
    | assumption | apply sound_startHome | apply sound_dropLock | apply sound_seekTo | apply Sound.ite | split | dsimp only)
theorem sound_execDrumTurn (drum : Fin 2) (seek : Option Int) (s : State) (h2 : Sound s) : SoundRes (execDrumTurn drum seek s) := by
  unfold execDrumTurn
  with_reducible (repeat' first
    | assumption | intro _ | apply sound_completes | apply sound_syncNow | apply sound_putDrum | apply sound_putStrokes | apply sound_strokeSeek
    | apply Sound.ite | apply Sound.foldl | apply Snd.ite | apply Snd.foldl | apply Snd.out | apply Tab.wf_filter | apply Tab.rising_filter
    | apply SoundRes.ret | apply SoundRes.ite | split | refine Snd.of (by assumption) ?_ | simp only [Snd.lit] | apply Sound.regs | apply Sound.flash
    | apply Sound.keeping | apply Sound.sdram | apply Sound.stage | apply Sound.porch | apply Sound.hwRam | apply Sound.bufEcc | apply Sound.keepEcc
    | apply Sound.hwEcc | (simp only [Sound.lit_iff]; refine ⟨?_, ?_, ?_, ?_, ?_, ?_, ?_, ?_, ?_, ?_⟩) | dsimp only)
theorem sound_startDisc (n : Nat) (op : Nat) (s : State) (h2 : Sound s) : Sound (startDisc n op s) := by
  unfold startDisc
  with_reducible (repeat' first
    | assumption | intro _ | apply sound_failStroke | apply sound_acquire | apply sound_endStroke | apply sound_setMode | apply sound_syncNow
    | apply sound_updateCurrent | apply Sound.ite | split | apply Sound.regs | apply Sound.flash | apply Sound.keeping | apply Sound.sdram
    | apply Sound.stage | apply Sound.porch | apply Sound.hwRam | apply Sound.bufEcc | apply Sound.keepEcc | apply Sound.hwEcc
    | (simp only [Sound.lit_iff]; refine ⟨?_, ?_, ?_, ?_, ?_, ?_, ?_, ?_, ?_, ?_⟩) | dsimp only)
theorem sound_seekFor (n : Nat) (op : Nat) (seek : Option Int) (s : State) (h3 : Sound s) : Sound (seekFor n op seek s) := by
  unfold seekFor
  with_reducible (repeat' first
    | assumption | apply sound_strokeSeek | apply Sound.ite | split | dsimp only)
theorem sound_execStrokeRead (drum : Fin 2) (seek : Option Int) (s : State) (h2 : Sound s) : SoundRes (execStrokeRead drum seek s) := by
  unfold execStrokeRead
  with_reducible (repeat' first
    | assumption | apply sound_completes | apply sound_seekFor | apply sound_startDisc | dsimp only)
theorem sound_execStrokePlayAudio (drum : Fin 2) (seek : Option Int) (s : State) (h2 : Sound s) : SoundRes (execStrokePlayAudio drum seek s) := by
  unfold execStrokePlayAudio
  with_reducible (repeat' first
    | assumption | apply sound_startDisc | apply sound_completes | apply sound_seekFor | apply sound_State_on | apply Sound.ite | split | dsimp only)
theorem sound_execStrokeSeek (drum : Fin 2) (target : Int) (s : State) (h2 : Sound s) : SoundRes (execStrokeSeek drum target s) := by
  unfold execStrokeSeek
  with_reducible (repeat' first
    | assumption | apply sound_startDisc | apply sound_completes | apply sound_seekEnded | apply sound_strokeSeek | apply Sound.ite
    | apply SoundRes.ret | apply SoundRes.ite | split | dsimp only)
theorem sound_execReadToc (drum : Fin 2) (entries : List TocEntry) (s : State) (h2 : Sound s) : SoundRes (execReadToc drum entries s) := by
  unfold execReadToc
  with_reducible (repeat' first
    | assumption | apply sound_startDisc | apply sound_completes | apply sound_State_drew | apply sound_finishIfDone | apply sound_passUnit
    | apply sound_giveUnit | apply Sound.ite | split | dsimp only [id])
theorem sound_subcodeUnit (n : Nat) (rec : List Nat) (s : State) (h2 : Sound s) : Sound (subcodeUnit n rec s) := by
  unfold subcodeUnit
  with_reducible (repeat' first
    | assumption | apply sound_finishIfDone | apply sound_passUnit | apply sound_giveUnit | apply Sound.ite | split | dsimp only)
theorem sound_execReadSubcode (drum : Fin 2) (records : List (List Nat)) (s : State) (h2 : Sound s) : SoundRes (execReadSubcode drum records s) := by
  unfold execReadSubcode
  with_reducible (repeat' first
    | assumption | intro _ | apply sound_startDisc | apply sound_completes | apply sound_subcodeUnit | apply Sound.ite | apply Sound.foldl
    | apply Snd.ite | apply Snd.foldl | apply Snd.out | split | refine Snd.of (by assumption) ?_ | simp only [Snd.lit] | dsimp only)
theorem sound_startPlain (n : Nat) (op : Nat) (act : Stroke → State → State) (s : State) (h2 : ∀ y0 y1, Sound y1 → Sound (act y0 y1)) (h3 : Sound s) : Sound (startPlain n op act s) := by
  unfold startPlain
  with_reducible (repeat' first
    | assumption | intro _ | apply sound_syncNow | apply sound_updateCurrent | apply h2 | apply Sound.ite | split | apply Sound.regs
    | apply Sound.flash | apply Sound.keeping | apply Sound.sdram | apply Sound.stage | apply Sound.porch | apply Sound.hwRam | apply Sound.bufEcc
    | apply Sound.keepEcc | apply Sound.hwEcc | (simp only [Sound.lit_iff]; refine ⟨?_, ?_, ?_, ?_, ?_, ?_, ?_, ?_, ?_, ?_⟩) | dsimp only)
theorem sound_execSpin (drum : Fin 2) (s : State) (h1 : Sound s) : SoundRes (execSpin drum s) := by
  unfold execSpin
  with_reducible (repeat' first
    | assumption | intro _ | apply sound_completes | apply sound_startPlain | apply sound_checkSpinStroke | apply sound_State_wr | dsimp only)
theorem sound_execTray (drum : Fin 2) (s : State) (h1 : Sound s) : SoundRes (execTray drum s) := by
  unfold execTray
  with_reducible (repeat' first
    | assumption | intro _ | apply sound_completes | apply sound_startPlain | apply sound_trayRequest | dsimp only)
theorem sound_identified (n : Nat) (kind : Nat) (first : Nat) (last : Nat) (sessions : Nat) (endAt : Nat) (layer0 : Nat) (book : Nat) (laser : Nat) (x : Stroke) (s : State) (h10 : Sound s) : Sound (identified n kind first last sessions endAt layer0 book laser x s) := by
  unfold identified
  with_reducible (repeat' first
    | assumption | apply sound_setMode | apply sound_State_wr | apply sound_putDrum | apply sound_setIrqAll | apply sound_finishIfDone
    | apply sound_passUnit | apply sound_updateCurrent | apply sound_giveUnit | apply Sound.ite | split | apply Sound.regs | apply Sound.flash
    | apply Sound.keeping | apply Sound.sdram | apply Sound.stage | apply Sound.porch | apply Sound.hwRam | apply Sound.bufEcc | apply Sound.keepEcc
    | apply Sound.hwEcc | (simp only [Sound.lit_iff]; refine ⟨?_, ?_, ?_, ?_, ?_, ?_, ?_, ?_, ?_, ?_⟩) | dsimp only)
theorem sound_execIdentify (drum : Fin 2) (identity : Identity) (s : State) (h2 : Sound s) : SoundRes (execIdentify drum identity s) := by
  unfold execIdentify
  with_reducible (repeat' first
    | assumption | intro _ | apply sound_completes | apply sound_endStroke | apply sound_State_wr | apply sound_failStroke | apply sound_syncNow
    | apply sound_updateCurrent | apply sound_selectLaser | apply sound_identified | apply sound_rearm | apply sound_occur | apply sound_setDisc
    | apply Sound.ite | apply Snd.ite | apply Snd.out | split | refine Snd.of (by assumption) ?_ | simp only [Snd.lit] | apply Sound.regs
    | apply Sound.flash | apply Sound.keeping | apply Sound.sdram | apply Sound.stage | apply Sound.porch | apply Sound.hwRam | apply Sound.bufEcc
    | apply Sound.keepEcc | apply Sound.hwEcc | (simp only [Sound.lit_iff]; refine ⟨?_, ?_, ?_, ?_, ?_, ?_, ?_, ?_, ?_, ?_⟩) | dsimp only)
theorem sound_execSpinWaitTimeout (drum : Fin 2) (s : State) (h1 : Sound s) : SoundRes (execSpinWaitTimeout drum s) := by
  unfold execSpinWaitTimeout
  with_reducible (repeat' first
    | assumption | apply sound_completes | apply sound_failStroke | apply sound_endStroke | apply Sound.ite | split | dsimp only)
theorem sound_execLaserIdleClear (drum : Fin 2) (s : State) (h1 : Sound s) : SoundRes (execLaserIdleClear drum s) := by
  unfold execLaserIdleClear
  with_reducible (repeat' first
    | assumption | apply sound_completes | apply sound_setMode | apply sound_selectLaser | apply Sound.ite | split | dsimp only)
theorem sound_execAudioUnderrun (output : Fin 2) (s : State) (h1 : Sound s) : SoundRes (execAudioUnderrun output s) := by
  unfold execAudioUnderrun
  with_reducible (repeat' first
    | assumption | apply sound_completes | apply sound_occur | apply sound_State_on | apply Sound.ite | apply Snd.ite | apply Snd.out
    | apply SoundRes.ret | apply SoundRes.ite | split | refine Snd.of (by assumption) ?_ | simp only [Snd.lit] | dsimp only)
theorem sound_audioTaken (o : Nat) (n : Nat) (a : Nat) (x : Stroke) (bs : List Nat) (rest : List (Nat × List Nat)) (s0 : State) (h6 : Sound s0) : Sound (audioTaken o n a x bs rest s0) := by
  unfold audioTaken
  with_reducible (repeat' first
    | assumption | intro _ | apply sound_sweepUse | apply sound_State_emit | apply sound_putDrum | apply sound_showBuffer | apply sound_State_wr
    | apply Sound.ite | apply Snd.ite | apply Snd.out | apply Tab.wf_filter | apply Tab.rising_filter | split | refine Snd.of (by assumption) ?_
    | simp only [Snd.lit] | apply Sound.regs | apply Sound.flash | apply Sound.keeping | apply Sound.sdram | apply Sound.stage | apply Sound.porch
    | apply Sound.hwRam | apply Sound.bufEcc | apply Sound.keepEcc | apply Sound.hwEcc
    | (simp only [Sound.lit_iff]; refine ⟨?_, ?_, ?_, ?_, ?_, ?_, ?_, ?_, ?_, ?_⟩) | dsimp only)
theorem sound_execAudioSectorOut (output : Fin 2) (s : State) (h1 : Sound s) : SoundRes (execAudioSectorOut output s) := by
  unfold execAudioSectorOut
  with_reducible (repeat' first
    | assumption | intro _ | apply sound_completes | apply sound_audioTaken | apply sound_endStroke | apply Sound.ite | apply Snd.ite | apply Snd.out
    | apply SoundRes.ret | apply SoundRes.ite | split | refine Snd.of (by assumption) ?_ | simp only [Snd.lit] | dsimp only)
theorem sound_syncRemotePort (slot : Nat) (s : State) (e : Nat × Nat) (h1 : Sound s) : Sound (syncRemotePort slot s e) := by
  unfold syncRemotePort
  with_reducible (repeat' first
    | assumption | intro _ | apply sound_State_on | apply sound_modPort | apply sound_State_wrB | apply Sound.ite | apply Snd.ite | apply Snd.out
    | split | refine Snd.of (by assumption) ?_ | simp only [Snd.lit] | apply Sound.regs | apply Sound.flash | apply Sound.keeping | apply Sound.sdram
    | apply Sound.stage | apply Sound.porch | apply Sound.hwRam | apply Sound.bufEcc | apply Sound.keepEcc | apply Sound.hwEcc
    | (simp only [Sound.lit_iff]; refine ⟨?_, ?_, ?_, ?_, ?_, ?_, ?_, ?_, ?_, ?_⟩) | dsimp only)
theorem sound_syncRemotePorts (s : State) (h0 : Sound s) : Sound (syncRemotePorts s) := by
  unfold syncRemotePorts
  with_reducible (repeat' first
    | assumption | intro _ | apply sound_syncRemotePort | apply Sound.ite | apply Sound.foldl | apply Snd.ite | apply Snd.foldl | apply Snd.out
    | split | refine Snd.of (by assumption) ?_ | simp only [Snd.lit] | dsimp only)
theorem sound_sendTrunkRequest (x : Request) (s : State) (h1 : Sound s) : Sound (sendTrunkRequest x s) := by
  unfold sendTrunkRequest
  with_reducible (repeat' first
    | assumption | intro _ | apply sound_sendTo | apply Sound.ite | apply wf_nil | split | apply Sound.regs | apply Sound.flash | apply Sound.keeping
    | apply Sound.sdram | apply Sound.stage | apply Sound.porch | apply Sound.hwRam | apply Sound.bufEcc | apply Sound.keepEcc | apply Sound.hwEcc
    | (simp only [Sound.lit_iff]; refine ⟨?_, ?_, ?_, ?_, ?_, ?_, ?_, ?_, ?_, ?_⟩) | dsimp only [id])
theorem sound_releaseRequests (s : State) (h0 : Sound s) : Sound (releaseRequests s) := by
  unfold releaseRequests
  with_reducible (repeat' first
    | assumption | intro _ | apply sound_pumpAll | apply sound_sendTrunkRequest | apply Sound.ite | apply Sound.foldl | apply Snd.ite
    | apply Snd.foldl | apply Snd.out | split | refine Snd.of (by assumption) ?_ | simp only [Snd.lit] | dsimp only)
theorem sound_endRequest (port : Nat) (x : Request) (t : Tally) (s : State) (h3 : Sound s) : Sound (endRequest port x t s) := by
  unfold endRequest
  with_reducible (repeat' first
    | assumption | intro _ | apply sound_postTally | apply sound_settleLun | apply sound_noteLunEnd | apply Sound.ite | split | dsimp only)
theorem sound_refuseRequest (status : Nat) (source : Nat) (x : Request) (s : State) (h3 : Sound s) : Sound (refuseRequest status source x s) := by
  unfold refuseRequest
  with_reducible (repeat' first
    | assumption | intro _ | apply sound_endRequest | apply Tab.wf_filter | apply Tab.rising_filter | apply Sound.regs | apply Sound.flash
    | apply Sound.keeping | apply Sound.sdram | apply Sound.stage | apply Sound.porch | apply Sound.hwRam | apply Sound.bufEcc | apply Sound.keepEcc
    | apply Sound.hwEcc | (simp only [Sound.lit_iff]; refine ⟨?_, ?_, ?_, ?_, ?_, ?_, ?_, ?_, ?_, ?_⟩) | dsimp only [id])
theorem sound_issueStroke (slot : Nat) (m : Nat) (n : Nat) (bytes : List Nat) (s : State) (h4 : Sound s) : Sound (issueStroke slot m n bytes s) := by
  unfold issueStroke
  with_reducible (repeat' first
    | assumption | apply sound_countId | apply sound_memRefuse | apply sound_postTally | apply sound_releaseRequests | apply Sound.ite | split
    | apply Sound.regs | apply Sound.flash | apply Sound.keeping | apply Sound.sdram | apply Sound.stage | apply Sound.porch | apply Sound.hwRam
    | apply Sound.bufEcc | apply Sound.keepEcc | apply Sound.hwEcc | (simp only [Sound.lit_iff]; refine ⟨?_, ?_, ?_, ?_, ?_, ?_, ?_, ?_, ?_, ?_⟩)
    | dsimp only)
theorem sound_setStackState (st : Nat) (s : State) (h1 : Sound s) : Sound (setStackState st s) := by
  unfold setStackState
  with_reducible (repeat' first
    | assumption | intro _ | apply sound_State_wr | apply sound_setCause | apply sound_State_on | apply sound_refuseRequest
    | apply sound_releaseRequests | apply sound_syncRemotePorts | apply sound_syncPath | apply Sound.ite | apply Sound.foldl | apply Snd.ite
    | apply Snd.foldl | apply Snd.out | apply Tab.wf_filter | apply Tab.rising_filter | split | refine Snd.of (by assumption) ?_ | simp only [Snd.lit]
    | dsimp only)
theorem sound_startChanged (m : Nat) (s : State) (h1 : Sound s) : Sound (startChanged m s) := by
  unfold startChanged
  with_reducible (repeat' first
    | assumption | intro _ | apply sound_State_bump | apply sound_settleLun | apply sound_noteLunEnd | apply sound_endRequest | apply Sound.ite
    | apply Sound.foldl | apply Snd.ite | apply Snd.foldl | apply Snd.out | apply Tab.wf_filter | apply Tab.rising_filter | split
    | refine Snd.of (by assumption) ?_ | simp only [Snd.lit] | apply Sound.regs | apply Sound.flash | apply Sound.keeping | apply Sound.sdram
    | apply Sound.stage | apply Sound.porch | apply Sound.hwRam | apply Sound.bufEcc | apply Sound.keepEcc | apply Sound.hwEcc
    | (simp only [Sound.lit_iff]; refine ⟨?_, ?_, ?_, ?_, ?_, ?_, ?_, ?_, ?_, ?_⟩) | dsimp only)
theorem sound_noteHeard (m : Nat) (digest : List Nat) (compat : Nat) (start : Nat) (s : State) (h4 : Sound s) : Sound (noteHeard m digest compat start s) := by
  unfold noteHeard
  with_reducible (repeat' first
    | assumption | apply sound_startChanged | apply sound_putHeard | apply Sound.ite | split | apply Sound.regs | apply Sound.flash
    | apply Sound.keeping | apply Sound.sdram | apply Sound.stage | apply Sound.porch | apply Sound.hwRam | apply Sound.bufEcc | apply Sound.keepEcc
    | apply Sound.hwEcc | (simp only [Sound.lit_iff]; refine ⟨?_, ?_, ?_, ?_, ?_, ?_, ?_, ?_, ?_, ?_⟩) | dsimp only)
theorem sound_crownMarks (m : Nat) (s : State) (h1 : Sound s) : Sound (crownMarks m s) := by
  unfold crownMarks
  with_reducible (repeat' first
    | assumption | apply sound_State_wr | apply sound_syncRemotePorts | apply sound_setStackState | apply sound_releaseRequests | apply Sound.ite
    | split | dsimp only)
theorem sound_openGraft (p : Nat) (subtype : Nat) (b : List Nat) (s : State) (h3 : Sound s) : SoundOpened (openGraft p subtype b s) := by
  unfold openGraft
  with_reducible (repeat' first
    | assumption | intro _ | apply sound_occur | apply sound_State_bump | apply sound_windowDiscard | apply sound_putTrunk | apply sound_authFails
    | apply Sound.ite | apply SoundOpened.drop | apply SoundOpened.good | apply SoundOpened.ite | split | refine SoundOpened.of1 (by assumption) ?_
    | refine SoundOpened.of2 (by assumption) ?_ | apply Sound.regs | apply Sound.flash | apply Sound.keeping | apply Sound.sdram | apply Sound.stage
    | apply Sound.porch | apply Sound.hwRam | apply Sound.bufEcc | apply Sound.keepEcc | apply Sound.hwEcc
    | (simp only [Sound.lit_iff]; refine ⟨?_, ?_, ?_, ?_, ?_, ?_, ?_, ?_, ?_, ?_⟩) | dsimp only)
theorem sound_keyPort (p : Nat) (m : Nat) (s : State) (h2 : Sound s) : Sound (keyPort p m s) := by
  unfold keyPort
  with_reducible (repeat' first
    | assumption | apply sound_putTrunk | apply sound_State_wr | apply sound_State_on | apply sound_releaseRequests | apply sound_syncRemotePorts
    | apply sound_sendLinks | apply sound_setRoutes | apply sound_sendHello | apply sound_setPort | apply Snd.ite | apply Snd.out
    | refine Snd.of (by assumption) ?_ | simp only [Snd.lit] | apply Sound.regs | apply Sound.flash | apply Sound.keeping | apply Sound.sdram
    | apply Sound.stage | apply Sound.porch | apply Sound.hwRam | apply Sound.bufEcc | apply Sound.keepEcc | apply Sound.hwEcc
    | (simp only [Sound.lit_iff]; refine ⟨?_, ?_, ?_, ?_, ?_, ?_, ?_, ?_, ?_, ?_⟩) | dsimp only)
theorem sound_execHelloFrame (port : Fin 4) (frame : List Nat) (s : State) (h2 : Sound s) : SoundRes (execHelloFrame port frame s) := by
  unfold execHelloFrame
  with_reducible (repeat' first
    | assumption | apply sound_completes | apply sound_openGraft | apply sound_occur | apply sound_noteHeard | apply sound_putTrunk
    | apply sound_keyPort | apply Sound.ite | apply SoundOpened.drop | apply SoundOpened.good | apply SoundOpened.ite | split
    | refine SoundOpened.of1 (by assumption) ?_ | refine SoundOpened.of2 (by assumption) ?_ | apply Sound.regs | apply Sound.flash
    | apply Sound.keeping | apply Sound.sdram | apply Sound.stage | apply Sound.porch | apply Sound.hwRam | apply Sound.bufEcc | apply Sound.keepEcc
    | apply Sound.hwEcc | (simp only [Sound.lit_iff]; refine ⟨?_, ?_, ?_, ?_, ?_, ?_, ?_, ?_, ?_, ?_⟩) | dsimp only)
theorem sound_flooded (port : Nat) (subtype : Nat) (frame : List Nat) (seqOf : Heard → Option Nat) (setSeq : Nat → Heard → Heard) (act : Nat → List Nat → State → State) (s : State) (h5 : ∀ y0 y1 y2, Sound y2 → Sound (act y0 y1 y2)) (h6 : Sound s) : Sound (flooded port subtype frame seqOf setSeq act s) := by
  unfold flooded
  with_reducible (repeat' first
    | assumption | intro _ | apply sound_openGraft | apply sound_noteHeard | apply sound_flood | apply sound_putHeard | apply h5 | apply Sound.ite
    | apply SoundOpened.drop | apply SoundOpened.good | apply SoundOpened.ite | split | refine SoundOpened.of1 (by assumption) ?_
    | refine SoundOpened.of2 (by assumption) ?_ | dsimp only)
theorem sound_execLinks (port : Fin 4) (frame : List Nat) (s : State) (h2 : Sound s) : SoundRes (execLinks port frame s) := by
  unfold execLinks
  with_reducible (repeat' first
    | assumption | intro _ | apply sound_completes | apply sound_flooded | apply sound_releaseRequests | apply sound_syncRemotePorts
    | apply sound_setRoutes | apply sound_putHeard | apply Sound.regs | apply Sound.flash | apply Sound.keeping | apply Sound.sdram
    | apply Sound.stage | apply Sound.porch | apply Sound.hwRam | apply Sound.bufEcc | apply Sound.keepEcc | apply Sound.hwEcc
    | (simp only [Sound.lit_iff]; refine ⟨?_, ?_, ?_, ?_, ?_, ?_, ?_, ?_, ?_, ?_⟩) | dsimp only)
theorem sound_execJoin (port : Fin 4) (frame : List Nat) (s : State) (h2 : Sound s) : SoundRes (execJoin port frame s) := by
  unfold execJoin
  with_reducible (repeat' first
    | assumption | intro _ | apply sound_completes | apply sound_flooded | apply sound_putHeard | apply sound_crownMarks | apply Sound.ite | split
    | apply Sound.regs | apply Sound.flash | apply Sound.keeping | apply Sound.sdram | apply Sound.stage | apply Sound.porch | apply Sound.hwRam
    | apply Sound.bufEcc | apply Sound.keepEcc | apply Sound.hwEcc | (simp only [Sound.lit_iff]; refine ⟨?_, ?_, ?_, ?_, ?_, ?_, ?_, ?_, ?_, ?_⟩)
    | dsimp only)
theorem sound_crownLost (s : State) (h0 : Sound s) : Sound (crownLost s) := by
  unfold crownLost
  with_reducible (repeat' first
    | assumption | apply sound_occur | apply sound_setStackState | apply Sound.ite | split | dsimp only)
theorem sound_execAnnounce (port : Fin 4) (frame : List Nat) (s : State) (h2 : Sound s) : SoundRes (execAnnounce port frame s) := by
  unfold execAnnounce
  with_reducible (repeat' first
    | assumption | intro _ | apply sound_completes | apply sound_flooded | apply sound_startChanged | apply sound_crownLost | apply sound_putStack
    | apply sound_State_wr | apply sound_setStackState | apply sound_releaseRequests | apply sound_syncRemotePorts | apply Sound.ite | split
    | apply Sound.regs | apply Sound.flash | apply Sound.keeping | apply Sound.sdram | apply Sound.stage | apply Sound.porch | apply Sound.hwRam
    | apply Sound.bufEcc | apply Sound.keepEcc | apply Sound.hwEcc | (simp only [Sound.lit_iff]; refine ⟨?_, ?_, ?_, ?_, ?_, ?_, ?_, ?_, ?_, ?_⟩)
    | dsimp only)
theorem sound_execHelloTimer (port : Fin 4) (s : State) (h1 : Sound s) : SoundRes (execHelloTimer port s) := by
  unfold execHelloTimer
  with_reducible (repeat' first
    | assumption | apply sound_completes | apply sound_sendHello | apply Sound.ite | split | dsimp only)
theorem sound_execJoinTimer (s : State) (h0 : Sound s) : SoundRes (execJoinTimer s) := by
  unfold execJoinTimer
  with_reducible (repeat' first
    | assumption | apply sound_completes | apply sound_sendJoin | apply Sound.ite | split | dsimp only)
theorem sound_execAnnounceTimer (s : State) (h0 : Sound s) : SoundRes (execAnnounceTimer s) := by
  unfold execAnnounceTimer
  with_reducible (repeat' first
    | assumption | apply sound_completes | apply sound_sendAnnounce | apply sound_crownMarks | apply Sound.ite | split | dsimp only)
theorem sound_execLinksTimer (s : State) (h0 : Sound s) : SoundRes (execLinksTimer s) := by
  unfold execLinksTimer
  with_reducible (repeat' first
    | assumption | apply sound_completes | apply sound_sendLinks | dsimp only)
theorem sound_execJoinExpiry (member : Fin 8) (s : State) (h1 : Sound s) : SoundRes (execJoinExpiry member s) := by
  unfold execJoinExpiry
  with_reducible (repeat' first
    | assumption | apply sound_putHeard | apply sound_completes | apply sound_syncRemotePorts | apply sound_State_wr | apply Sound.ite | split
    | apply Sound.regs | apply Sound.flash | apply Sound.keeping | apply Sound.sdram | apply Sound.stage | apply Sound.porch | apply Sound.hwRam
    | apply Sound.bufEcc | apply Sound.keepEcc | apply Sound.hwEcc | (simp only [Sound.lit_iff]; refine ⟨?_, ?_, ?_, ?_, ?_, ?_, ?_, ?_, ?_, ?_⟩)
    | dsimp only)
theorem sound_execRouteExpiry (member : Fin 8) (s : State) (h1 : Sound s) : SoundRes (execRouteExpiry member s) := by
  unfold execRouteExpiry
  with_reducible (repeat' first
    | assumption | apply sound_completes | apply sound_syncRemotePorts | apply sound_setRoutes | apply sound_putHeard | apply wf_nil
    | apply Sound.regs | apply Sound.flash | apply Sound.keeping | apply Sound.sdram | apply Sound.stage | apply Sound.porch | apply Sound.hwRam
    | apply Sound.bufEcc | apply Sound.keepEcc | apply Sound.hwEcc | (simp only [Sound.lit_iff]; refine ⟨?_, ?_, ?_, ?_, ?_, ?_, ?_, ?_, ?_, ?_⟩)
    | dsimp only)
theorem sound_execCrownLost (s : State) (h0 : Sound s) : SoundRes (execCrownLost s) := by
  unfold execCrownLost
  with_reducible (repeat' first
    | assumption | apply sound_completes | apply sound_crownLost | apply Sound.ite | split | dsimp only)
theorem sound_moveTl (d : Int) (s : State) (h1 : Sound s) : Sound (moveTl d s) := by
  unfold moveTl
  with_reducible (repeat' first
    | assumption | apply sound_putStack | apply Sound.regs | apply Sound.flash | apply Sound.keeping | apply Sound.sdram | apply Sound.stage
    | apply Sound.porch | apply Sound.hwRam | apply Sound.bufEcc | apply Sound.keepEcc | apply Sound.hwEcc
    | (simp only [Sound.lit_iff]; refine ⟨?_, ?_, ?_, ?_, ?_, ?_, ?_, ?_, ?_, ?_⟩) | dsimp only)
theorem sound_takeOffset (theta : Int) (s : State) (h1 : Sound s) : Sound (takeOffset theta s) := by
  unfold takeOffset
  with_reducible (repeat' first
    | assumption | apply sound_State_wr | apply sound_occur | apply sound_moveTl | apply sound_putStack | apply sound_State_off | apply sound_State_on
    | apply sound_setStackState | apply Sound.ite | split | apply Sound.regs | apply Sound.flash | apply Sound.keeping | apply Sound.sdram
    | apply Sound.stage | apply Sound.porch | apply Sound.hwRam | apply Sound.bufEcc | apply Sound.keepEcc | apply Sound.hwEcc
    | (simp only [Sound.lit_iff]; refine ⟨?_, ?_, ?_, ?_, ?_, ?_, ?_, ?_, ?_, ?_⟩) | dsimp only)
theorem sound_execTimeFrame (port : Fin 4) (frame : List Nat) (arrival : Nat) (s : State) (h3 : Sound s) : SoundRes (execTimeFrame port frame arrival s) := by
  unfold execTimeFrame
  with_reducible (repeat' first
    | assumption | intro _ | apply sound_completes | apply sound_openFrame | apply sound_takeHeader | apply sound_emitFrame | apply sound_takeOffset
    | apply Sound.ite | apply SoundOpened.drop | apply SoundOpened.good | apply SoundOpened.ite | split | refine SoundOpened.of1 (by assumption) ?_
    | refine SoundOpened.of2 (by assumption) ?_ | dsimp only)
theorem sound_execTimeRequestTimer (s : State) (h0 : Sound s) : SoundRes (execTimeRequestTimer s) := by
  unfold execTimeRequestTimer
  with_reducible (repeat' first
    | assumption | apply sound_completes | apply sound_setRoutes | apply sound_putStack | apply sound_emitFrame | apply Sound.ite | split
    | apply Sound.regs | apply Sound.flash | apply Sound.keeping | apply Sound.sdram | apply Sound.stage | apply Sound.porch | apply Sound.hwRam
    | apply Sound.bufEcc | apply Sound.keepEcc | apply Sound.hwEcc | (simp only [Sound.lit_iff]; refine ⟨?_, ?_, ?_, ?_, ?_, ?_, ?_, ?_, ?_, ?_⟩)
    | dsimp only)
theorem sound_execKeepalive (port : Fin 4) (frame : List Nat) (s : State) (h2 : Sound s) : SoundRes (execKeepalive port frame s) := by
  unfold execKeepalive
  with_reducible (repeat' first
    | assumption | apply sound_completes | apply sound_openFrame | apply sound_pump | apply sound_takeHeader | apply SoundOpened.drop
    | apply SoundOpened.good | apply SoundOpened.ite | split | refine SoundOpened.of1 (by assumption) ?_ | refine SoundOpened.of2 (by assumption) ?_
    | dsimp only)
theorem sound_stackCmd (slot : Nat) (allowed : Bool) (act : State → State) (s : State) (h2 : ∀ y0, Sound y0 → Sound (act y0)) (h3 : Sound s) : Sound (stackCmd slot allowed act s) := by
  unfold stackCmd
  with_reducible (repeat' first
    | assumption | intro _ | apply sound_guardWrite | apply sound_State_on | apply h2 | apply Sound.ite | split | dsimp only)
theorem sound_expelMember (m : Nat) (s : State) (h1 : Sound s) : Sound (expelMember m s) := by
  unfold expelMember
  with_reducible (repeat' first
    | assumption | apply sound_crownMarks | apply sound_State_wr | dsimp only)
theorem sound_admitBack (m : Nat) (s : State) (h1 : Sound s) : Sound (admitBack m s) := by
  unfold admitBack
  with_reducible (repeat' first
    | assumption | apply sound_State_wr | dsimp only)
theorem sound_execExpel (slot : Fin 8) (member : Fin 8) (s : State) (h2 : Sound s) : SoundRes (execExpel slot member s) := by
  unfold execExpel
  with_reducible (repeat' first
    | assumption | intro _ | apply sound_completes | apply sound_stackCmd | apply sound_expelMember | dsimp only)
theorem sound_execAdmitMember (slot : Fin 8) (member : Fin 8) (s : State) (h2 : Sound s) : SoundRes (execAdmitMember slot member s) := by
  unfold execAdmitMember
  with_reducible (repeat' first
    | assumption | intro _ | apply sound_completes | apply sound_stackCmd | apply sound_admitBack | dsimp only)
theorem sound_dropDeliv (d : Deliv) (s : State) (h1 : Sound s) : Sound (dropDeliv d s) := by
  unfold dropDeliv
  with_reducible (repeat' first
    | assumption | intro _ | apply Tab.wf_filter | apply Tab.rising_filter | apply Sound.regs | apply Sound.flash | apply Sound.keeping
    | apply Sound.sdram | apply Sound.stage | apply Sound.porch | apply Sound.hwRam | apply Sound.bufEcc | apply Sound.keepEcc | apply Sound.hwEcc
    | (simp only [Sound.lit_iff]; refine ⟨?_, ?_, ?_, ?_, ?_, ?_, ?_, ?_, ?_, ?_⟩) | dsimp only [id])
theorem sound_startRequest (d : Deliv) (kind : Nat) (requested : Nat) (start : State → State) (s : State) (h3 : ∀ y0, Sound y0 → Sound (start y0)) (h4 : Sound s) : Sound (startRequest d kind requested start s) := by
  unfold startRequest
  with_reducible (repeat' first
    | assumption | intro _ | apply sound_pumpAll | apply sound_returnTally | apply sound_dropDeliv | apply sound_sendTo | apply sound_occur | apply h3
    | apply Sound.ite | split | dsimp only [id])
theorem sound_execTrunkStrokeRequest (s : State) (h0 : Sound s) : SoundRes (execTrunkStrokeRequest s) := by
  unfold execTrunkStrokeRequest
  with_reducible (repeat' first
    | assumption | intro _ | apply sound_completes | apply sound_startRequest | apply sound_pumpAll | apply sound_returnTally | apply sound_dropDeliv
    | apply sound_wrList | apply sound_takeStroke | apply sound_State_wr | apply Sound.ite | split | dsimp only [id])
theorem sound_copyUnits (slot : Nat) (r : Nat) (off : Nat) : ∀ (z4 : List (List Nat)) (z3 : Nat) (z5 : Copied) (z6 : State) (h6 : Sound z6), Snd (copyUnits slot r off z3 z4 z5 z6) := by
  intro z4
  induction z4 with
  | nil =>
    intros
    unfold copyUnits
    with_reducible (repeat' first
      | assumption | apply sound_State_off | apply sound_memRefuse | apply sound_unitWrite | apply Sound.ite | apply Snd.ite | apply Snd.out | split
      | refine Snd.of (by assumption) ?_ | simp only [Snd.lit] | apply Sound.regs | apply Sound.flash | apply Sound.keeping | apply Sound.sdram
      | apply Sound.stage | apply Sound.porch | apply Sound.hwRam | apply Sound.bufEcc | apply Sound.keepEcc | apply Sound.hwEcc
      | (simp only [Sound.lit_iff]; refine ⟨?_, ?_, ?_, ?_, ?_, ?_, ?_, ?_, ?_, ?_⟩) | dsimp only)
  | cons _ _ ih =>
    intros
    unfold copyUnits
    with_reducible (repeat' first
      | assumption | apply sound_State_off | apply sound_memRefuse | apply sound_unitWrite | apply ih | apply Sound.ite | apply Snd.ite
      | apply Snd.out | split | refine Snd.of (by assumption) ?_ | simp only [Snd.lit] | apply Sound.regs | apply Sound.flash | apply Sound.keeping
      | apply Sound.sdram | apply Sound.stage | apply Sound.porch | apply Sound.hwRam | apply Sound.bufEcc | apply Sound.keepEcc | apply Sound.hwEcc
      | (simp only [Sound.lit_iff]; refine ⟨?_, ?_, ?_, ?_, ?_, ?_, ?_, ?_, ?_, ?_⟩) | dsimp only)
theorem sound_execRegionCopy (s : State) (h0 : Sound s) : SoundRes (execRegionCopy s) := by
  unfold execRegionCopy
  with_reducible (repeat' first
    | assumption | intro _ | apply sound_completes | apply sound_startRequest | apply sound_sweepUse | apply sound_copyUnits | apply sound_pumpAll
    | apply sound_returnTally | apply sound_dropDeliv | apply Sound.ite | apply Snd.ite | apply Snd.out | split | refine Snd.of (by assumption) ?_
    | simp only [Snd.lit] | dsimp only [id])
theorem sound_execFence (s : State) (h0 : Sound s) : SoundRes (execFence s) := by
  unfold execFence
  with_reducible (repeat' first
    | assumption | intro _ | apply sound_completes | apply sound_dropDeliv | apply sound_putStack | apply Tab.wf_put | split | apply Sound.regs
    | apply Sound.flash | apply Sound.keeping | apply Sound.sdram | apply Sound.stage | apply Sound.porch | apply Sound.hwRam | apply Sound.bufEcc
    | apply Sound.keepEcc | apply Sound.hwEcc | (simp only [Sound.lit_iff]; refine ⟨?_, ?_, ?_, ?_, ?_, ?_, ?_, ?_, ?_, ?_⟩) | dsimp only [id])
theorem sound_execQuery (s : State) (h0 : Sound s) : SoundRes (execQuery s) := by
  unfold execQuery
  with_reducible (repeat' first
    | assumption | intro _ | apply sound_completes | apply sound_dropDeliv | apply sound_pumpAll | apply sound_sendAnswer | apply sound_putStack
    | apply sound_occur | apply Sound.ite | split | apply Sound.regs | apply Sound.flash | apply Sound.keeping | apply Sound.sdram | apply Sound.stage
    | apply Sound.porch | apply Sound.hwRam | apply Sound.bufEcc | apply Sound.keepEcc | apply Sound.hwEcc
    | (simp only [Sound.lit_iff]; refine ⟨?_, ?_, ?_, ?_, ?_, ?_, ?_, ?_, ?_, ?_⟩) | dsimp only [id])
theorem sound_execAnswer (s : State) (h0 : Sound s) : SoundRes (execAnswer s) := by
  unfold execAnswer
  with_reducible (repeat' first
    | assumption | intro _ | apply sound_completes | apply sound_dropDeliv | apply sound_endRequest | apply sound_State_bump | apply sound_putStack
    | apply sound_releaseRequests | apply Sound.ite | apply Tab.wf_filter | apply Tab.rising_filter | split | apply Sound.regs | apply Sound.flash
    | apply Sound.keeping | apply Sound.sdram | apply Sound.stage | apply Sound.porch | apply Sound.hwRam | apply Sound.bufEcc | apply Sound.keepEcc
    | apply Sound.hwEcc | (simp only [Sound.lit_iff]; refine ⟨?_, ?_, ?_, ?_, ?_, ?_, ?_, ?_, ?_, ?_⟩) | dsimp only [id])
theorem sound_execRelink (member : Fin 8) (s : State) (h1 : Sound s) : SoundRes (execRelink member s) := by
  unfold execRelink
  with_reducible (repeat' first
    | assumption | intro _ | apply sound_completes | apply sound_putStack | apply sound_sendBrief | apply sound_pumpAll | apply Sound.ite
    | apply Sound.foldl | apply Snd.ite | apply Snd.foldl | apply Snd.out | apply Tab.wf_filter | apply Tab.rising_filter | split
    | refine Snd.of (by assumption) ?_ | simp only [Snd.lit] | apply Sound.regs | apply Sound.flash | apply Sound.keeping | apply Sound.sdram
    | apply Sound.stage | apply Sound.porch | apply Sound.hwRam | apply Sound.bufEcc | apply Sound.keepEcc | apply Sound.hwEcc
    | (simp only [Sound.lit_iff]; refine ⟨?_, ?_, ?_, ?_, ?_, ?_, ?_, ?_, ?_, ?_⟩) | dsimp only [id])
theorem sound_execUsbPacketRequest (s : State) (h0 : Sound s) : SoundRes (execUsbPacketRequest s) := by
  unfold execUsbPacketRequest
  with_reducible (repeat' first
    | assumption | intro _ | apply sound_completes | apply sound_dropDeliv | apply sound_State_emit | split | dsimp only)
theorem sound_execUnitAck (s : State) (h0 : Sound s) : SoundRes (execUnitAck s) := by
  unfold execUnitAck
  with_reducible (repeat' first
    | assumption | intro _ | apply sound_completes | apply sound_pumpAll | apply sound_finishAcked | apply sound_putStrokes | apply sound_dropDeliv
    | apply Sound.ite | apply Sound.foldl | apply Snd.ite | apply Snd.foldl | apply Snd.out | apply Tab.wf_filter | apply Tab.rising_filter | split
    | refine Snd.of (by assumption) ?_ | simp only [Snd.lit] | apply Sound.regs | apply Sound.flash | apply Sound.keeping | apply Sound.sdram
    | apply Sound.stage | apply Sound.porch | apply Sound.hwRam | apply Sound.bufEcc | apply Sound.keepEcc | apply Sound.hwEcc
    | (simp only [Sound.lit_iff]; refine ⟨?_, ?_, ?_, ?_, ?_, ?_, ?_, ?_, ?_, ?_⟩) | dsimp only [id])
theorem sound_execStackInfo (slot : Fin 8) (s : State) (h1 : Sound s) : SoundRes (execStackInfo slot s) := by
  unfold execStackInfo
  with_reducible (repeat' first
    | assumption | intro _ | apply sound_completes | apply sound_serveMail | apply sound_okMail | apply Thd.ite | apply Thd.out | apply Snd.ite
    | apply Snd.out | apply Thd.rest | refine Thd.of (by assumption) ?_ | simp only [Thd.lit] | apply Thd.pair | dsimp only)
theorem sound_writeSecret (secret : List Nat) (s : State) (h1 : Sound s) : Sound (writeSecret secret s) := by
  unfold writeSecret
  with_reducible (repeat' first
    | assumption | intro _ | apply sound_setCause | apply sound_putKeepList | apply sound_State_on | apply Sound.ite | split | dsimp only)
theorem sound_execSecretSet (slot : Fin 8) (s : State) (h1 : Sound s) : SoundRes (execSecretSet slot s) := by
  unfold execSecretSet
  with_reducible (repeat' first
    | assumption | intro _ | apply sound_completes | apply sound_serveMail | apply sound_stewardMail | apply sound_okMail | apply sound_writeSecret
    | apply Thd.ite | apply Thd.out | apply Snd.ite | apply Snd.out | apply Thd.rest | refine Thd.of (by assumption) ?_ | simp only [Thd.lit]
    | apply Thd.pair | dsimp only)
theorem sound_execMemberInfo (slot : Fin 8) (s : State) (h1 : Sound s) : SoundRes (execMemberInfo slot s) := by
  unfold execMemberInfo
  with_reducible (repeat' first
    | assumption | intro _ | apply sound_completes | apply sound_serveMail | apply sound_okMail | apply sound_failMail | apply Sound.ite
    | apply Thd.ite | apply Thd.out | apply Snd.ite | apply Snd.out | apply Thd.rest | split | refine Thd.of (by assumption) ?_ | simp only [Thd.lit]
    | apply Thd.pair | dsimp only)
theorem sound_discardMalformed (s : State) (h0 : Sound s) : Sound (discardMalformed s) := by
  unfold discardMalformed
  with_reducible (repeat' first
    | assumption | apply sound_occur | apply sound_State_bump | dsimp only)
theorem sound_discardCrc (s : State) (h0 : Sound s) : Sound (discardCrc s) := by
  unfold discardCrc
  with_reducible (repeat' first
    | assumption | apply sound_occur | apply sound_State_bump | dsimp only)
theorem sound_onArrival (a : Arrival) (effect : State → State) (s : State) (h1 : ∀ y0, Sound y0 → Sound (effect y0)) (h2 : Sound s) : Sound (onArrival a effect s) := by
  unfold onArrival
  with_reducible (repeat' first
    | assumption | intro _ | apply sound_discardMalformed | apply sound_discardCrc | apply h1 | split | dsimp only)
theorem sound_receive (fs : List Nat) (malformed : Bool) (effect : State → State) (s : State) (h2 : ∀ y0, Sound y0 → Sound (effect y0)) (h3 : Sound s) : Sound (receive fs malformed effect s) := by
  unfold receive
  with_reducible (repeat' first
    | assumption | intro _ | apply sound_discardMalformed | apply sound_discardCrc | apply h2 | apply Sound.ite | split | dsimp only)
theorem sound_execMemRead (flits : List Nat) (s : State) (h1 : Sound s) : SoundRes (execMemRead flits s) := by
  unfold execMemRead
  with_reducible (repeat' first
    | assumption | intro _ | apply sound_completes | apply sound_receive | apply sound_arriveAccess | apply Sound.ite | split | dsimp only)
theorem sound_execMemWrite (flits : List Nat) (payload : List Nat) (s : State) (h2 : Sound s) : SoundRes (execMemWrite flits payload s) := by
  unfold execMemWrite
  with_reducible (repeat' first
    | assumption | intro _ | apply sound_completes | apply sound_receive | apply sound_arriveAccess | apply Sound.ite | split | dsimp only)
theorem sound_execMemctlTrain (slot : Fin 8) (s : State) (h1 : Sound s) : SoundRes (execMemctlTrain slot s) := by
  unfold execMemctlTrain
  with_reducible (repeat' first
    | assumption | intro _ | apply sound_completes | apply sound_guardWrite | apply sound_setCause | apply sound_State_wr | apply sound_memFailed
    | apply sound_State_on | apply Sound.ite | split | dsimp only)
theorem sound_execMemctlTrainingDone (good : Bool) (s : State) (h1 : Sound s) : SoundRes (execMemctlTrainingDone good s) := by
  unfold execMemctlTrainingDone
  with_reducible (repeat' first
    | assumption | apply sound_completes | apply sound_State_on | apply sound_State_wr | apply sound_memFailed | apply Sound.ite | split | dsimp only)
theorem sound_execSdramRefresh (waiting : Bool) (s : State) (h1 : Sound s) : SoundRes (execSdramRefresh waiting s) := by
  unfold execSdramRefresh
  with_reducible (repeat' first
    | assumption | apply sound_completes | apply Sound.ite | split | apply Sound.regs | apply Sound.flash | apply Sound.keeping | apply Sound.sdram
    | apply Sound.stage | apply Sound.porch | apply Sound.hwRam | apply Sound.bufEcc | apply Sound.keepEcc | apply Sound.hwEcc
    | (simp only [Sound.lit_iff]; refine ⟨?_, ?_, ?_, ?_, ?_, ?_, ?_, ?_, ?_, ?_⟩) | dsimp only)
theorem sound_execZqCalibration (s : State) (h0 : Sound s) : SoundRes (execZqCalibration s) := by
  unfold execZqCalibration
  with_reducible (repeat' first
    | assumption | apply sound_completes | dsimp only)
theorem sound_scrubLine (a : Nat) (s : State) (h1 : Sound s) : Sound (scrubLine a s) := by
  unfold scrubLine
  with_reducible (repeat' first
    | assumption | apply sound_occur | apply sound_storeVector | apply sound_State_bump | apply sound_readPlain | apply Thd.ite | apply Thd.out
    | apply Snd.ite | apply Snd.out | apply Thd.rest | apply Tab.wf_filter | apply Tab.rising_filter | split | refine Thd.of (by assumption) ?_
    | refine Snd.of (by assumption) ?_ | simp only [Thd.lit] | simp only [Snd.lit] | apply Thd.pair | dsimp only)
theorem sound_execPatrolScrub (s : State) (h0 : Sound s) : SoundRes (execPatrolScrub s) := by
  unfold execPatrolScrub
  with_reducible (repeat' first
    | assumption | apply sound_completes | apply sound_scrubLine | apply Sound.ite | split | apply Sound.regs | apply Sound.flash
    | apply Sound.keeping | apply Sound.sdram | apply Sound.stage | apply Sound.porch | apply Sound.hwRam | apply Sound.bufEcc | apply Sound.keepEcc
    | apply Sound.hwEcc | (simp only [Sound.lit_iff]; refine ⟨?_, ?_, ?_, ?_, ?_, ?_, ?_, ?_, ?_, ?_⟩) | dsimp only)
theorem sound_writeTallyEntry (slot : Nat) (i : Nat) (t : Tally) (s : State) (h3 : Sound s) : Sound (writeTallyEntry slot i t s) := by
  unfold writeTallyEntry
  with_reducible (repeat' first
    | assumption | intro _ | apply sound_wrList | dsimp only)
theorem sound_takeTally (slot : Nat) (t : Tally) (s : State) (h2 : Sound s) : Sound (takeTally slot t s) := by
  unfold takeTally
  with_reducible (repeat' first
    | assumption | apply sound_State_bump | apply sound_State_on | apply sound_setIrq | apply sound_writeTallyEntry | apply sound_State_wr
    | apply Sound.ite | split | dsimp only)
theorem sound_execTallyPacket (port : Fin 16) (slot : Fin 8) (arrival : Arrival) (s : State) (h3 : Sound s) : SoundRes (execTallyPacket port slot arrival s) := by
  unfold execTallyPacket
  with_reducible (repeat' first
    | assumption | intro _ | apply sound_completes | apply sound_onArrival | apply sound_takeTally | apply Sound.ite | apply Tab.wf_put | split
    | apply Sound.regs | apply Sound.flash | apply Sound.keeping | apply Sound.sdram | apply Sound.stage | apply Sound.porch | apply Sound.hwRam
    | apply Sound.bufEcc | apply Sound.keepEcc | apply Sound.hwEcc | (simp only [Sound.lit_iff]; refine ⟨?_, ?_, ?_, ?_, ?_, ?_, ?_, ?_, ?_, ?_⟩)
    | dsimp only)
theorem sound_execTallyAck (port : Fin 16) (slot : Fin 8) (ack : AckPacket) (s : State) (h3 : Sound s) : SoundRes (execTallyAck port slot ack s) := by
  unfold execTallyAck
  with_reducible (repeat' first
    | assumption | intro _ | apply sound_completes | apply sound_onArrival | apply sound_releaseTally | apply Sound.ite | split | dsimp only [id])
theorem sound_execTallyTailWrite (slot : Fin 8) (value : Nat) (s : State) (h2 : Sound s) : SoundRes (execTallyTailWrite slot value s) := by
  unfold execTallyTailWrite
  with_reducible (repeat' first
    | assumption | intro _ | apply sound_completes | apply sound_guardWrite | apply sound_State_wr | apply Sound.ite | split | dsimp only)
theorem sound_execEventPacket (slot : Fin 8) (irq : Nat) (arrival : Arrival) (s : State) (h3 : Sound s) : SoundRes (execEventPacket slot irq arrival s) := by
  unfold execEventPacket
  with_reducible (repeat' first
    | assumption | intro _ | apply sound_completes | apply sound_onArrival | apply sound_setIrq | apply Sound.ite | apply Sound.foldl | apply Snd.ite
    | apply Snd.foldl | apply Snd.out | split | refine Snd.of (by assumption) ?_ | simp only [Snd.lit] | dsimp only)
theorem sound_setTrial (st : Nat) (slot : Nat) (s : State) (h2 : Sound s) : Sound (setTrial st slot s) := by
  unfold setTrial
  with_reducible (repeat' first
    | assumption | apply sound_putBoot | apply sound_State_wr | dsimp only)
theorem sound_setRecovery (enter : Nat) (cause : Nat) (s : State) (h2 : Sound s) : Sound (setRecovery enter cause s) := by
  unfold setRecovery
  with_reducible (repeat' first
    | assumption | apply sound_putBoot | apply sound_State_wr | dsimp only)
theorem sound_initBoot (s : State) (h0 : Sound s) : Sound (initBoot s) := by
  unfold initBoot
  with_reducible (repeat' first
    | assumption | intro _ | apply sound_putBoot | apply sound_setRecovery | apply sound_setTrial | apply Sound.ite | apply Sound.foldl
    | apply Snd.ite | apply Snd.foldl | apply Snd.out | split | refine Snd.of (by assumption) ?_ | simp only [Snd.lit] | dsimp only)
theorem sound_resetSettings (format : Nat) (s : State) (g : Nat) (h1 : Sound s) : Sound (resetSettings format s g) := by
  unfold resetSettings
  with_reducible (repeat' first
    | assumption | intro _ | apply sound_putKeepList | apply sound_extendEvent | apply sound_State_drew | apply Sound.ite | split | dsimp only)
theorem sound_settingsRule (format : Nat) (s : State) (h1 : Sound s) : Sound (settingsRule format s) := by
  unfold settingsRule
  with_reducible (repeat' first
    | assumption | intro _ | apply sound_resetSettings | apply sound_senseKeep | apply sound_occur | apply Sound.ite | apply Sound.foldl
    | apply Snd.ite | apply Snd.foldl | apply Snd.out | split | refine Snd.of (by assumption) ?_ | simp only [Snd.lit] | dsimp only)
theorem sound_bootSlot (k : Nat) (s : State) (h1 : Sound s) : Sound (bootSlot k s) := by
  unfold bootSlot
  with_reducible (repeat' first
    | assumption | apply sound_copyImage | apply sound_extendEvent | apply sound_putBoot | apply sound_State_wr | apply sound_settingsRule
    | apply sound_State_on | dsimp only)
theorem sound_enterRecovery (s : State) (h0 : Sound s) : Sound (enterRecovery s) := by
  unfold enterRecovery
  with_reducible (repeat' first
    | assumption | apply sound_rdShown | apply sound_occur | apply sound_extendEvent | apply sound_State_wr | dsimp only)
theorem sound_tryBoot  : ∀ (z0 : List Nat) (z1 : State) (h1 : Sound z1), Sound (tryBoot z0 z1) := by
  intro z0
  induction z0 with
  | nil =>
    intros
    unfold tryBoot
    with_reducible (repeat' first
      | assumption | apply sound_enterRecovery | apply sound_setRecovery | apply sound_bootSlot | apply sound_occur | apply Sound.ite | split
      | dsimp only)
  | cons _ _ ih =>
    intros
    unfold tryBoot
    with_reducible (repeat' first
      | assumption | apply sound_enterRecovery | apply sound_setRecovery | apply sound_bootSlot | apply sound_occur | apply ih | apply Sound.ite
      | split | dsimp only)
theorem sound_bootChoice (s : State) (h0 : Sound s) : Sound (bootChoice s) := by
  unfold bootChoice
  with_reducible (repeat' first
    | assumption | intro _ | apply sound_enterRecovery | apply sound_setRecovery | apply sound_setTrial | apply sound_bootSlot | apply sound_occur
    | apply sound_tryBoot | apply Sound.ite | split | dsimp only)
theorem sound_chooseRead (tables : Option FlashTables) (s : State) (h1 : Sound s) : Sound (chooseRead tables s) := by
  unfold chooseRead
  with_reducible (repeat' first
    | assumption | apply sound_setCause | apply Sound.ite | split | apply Sound.regs | apply Sound.flash | apply Sound.keeping | apply Sound.sdram
    | apply Sound.stage | apply Sound.porch | apply Sound.hwRam | apply Sound.bufEcc | apply Sound.keepEcc | apply Sound.hwEcc
    | (simp only [Sound.lit_iff]; refine ⟨?_, ?_, ?_, ?_, ?_, ?_, ?_, ?_, ?_, ?_⟩) | dsimp only)
theorem sound_senseCert (s : State) (h0 : Sound s) : Sound (senseCert s) := by
  unfold senseCert
  with_reducible (repeat' first
    | assumption | apply sound_setCause | dsimp only)
theorem sound_execBootDecision (tables : Option FlashTables) (s : State) (h1 : Sound s) : SoundRes (execBootDecision tables s) := by
  unfold execBootDecision
  with_reducible (repeat' first
    | assumption | apply sound_completes | apply sound_senseCert | apply sound_senseKeep | apply sound_chooseRead | apply sound_bootChoice
    | apply sound_initBoot | apply sound_extendEvent | apply Sound.ite | split | dsimp only)
theorem sound_execFirmwareAlive (s : State) (h0 : Sound s) : SoundRes (execFirmwareAlive s) := by
  unfold execFirmwareAlive
  with_reducible (repeat' first
    | assumption | apply sound_completes | apply sound_putBoot | apply sound_State_on | apply sound_setTrial | apply Sound.ite | split | dsimp only)
theorem sound_execAliveTimerExpire (s : State) (h0 : Sound s) : SoundRes (execAliveTimerExpire s) := by
  unfold execAliveTimerExpire
  with_reducible (repeat' first
    | assumption | apply sound_completes | apply sound_warmRestart | apply sound_setRecovery | apply sound_occur | apply Sound.ite | split
    | dsimp only)
theorem sound_execHwRamCe (s : State) (h0 : Sound s) : SoundRes (execHwRamCe s) := by
  unfold execHwRamCe
  with_reducible (repeat' first
    | assumption | apply sound_completes | apply sound_occur | apply sound_mendHw | dsimp only)
theorem sound_execHwRamUe (s : State) (h0 : Sound s) : SoundRes (execHwRamUe s) := by
  unfold execHwRamUe
  with_reducible (repeat' first
    | assumption | apply sound_completes | apply sound_warmRestart | apply sound_setRecovery | apply sound_occur | dsimp only)
theorem sound_execRngHealthFailure (present : Bool) (s : State) (h1 : Sound s) : SoundRes (execRngHealthFailure present s) := by
  unfold execRngHealthFailure
  with_reducible (repeat' first
    | assumption | apply sound_completes | apply sound_setCause | apply sound_State_off | apply Sound.ite | split | dsimp only)
theorem sound_deliverReply (slot : Nat) (m : Mail) (status : Nat) (body : List Nat) (s : State) (h4 : Sound s) : Sound (deliverReply slot m status body s) := by
  unfold deliverReply
  with_reducible (repeat' first
    | assumption | intro _ | apply sound_putMail | apply sound_State_off | apply sound_State_on | apply sound_setIrq | apply sound_wrList
    | apply sound_State_emit | apply sound_endDoor | apply sound_putPorchList | apply Sound.ite | split | dsimp only)
theorem sound_sendMail (slot : Nat) (m : Mail) (s : State) (h2 : Sound s) : Sound (sendMail slot m s) := by
  unfold sendMail
  with_reducible (repeat' first
    | assumption | apply sound_State_on | apply sound_putMail | apply sound_State_off | apply Sound.ite | split | dsimp only)
theorem sound_loseMail (slot : Nat) (a : Arrival) (s : State) (h2 : Sound s) : Sound (loseMail slot a s) := by
  unfold loseMail
  with_reducible (repeat' first
    | assumption | intro _ | apply sound_onArrival | apply sound_putMail | split | apply Sound.regs | apply Sound.flash | apply Sound.keeping
    | apply Sound.sdram | apply Sound.stage | apply Sound.porch | apply Sound.hwRam | apply Sound.bufEcc | apply Sound.keepEcc | apply Sound.hwEcc
    | (simp only [Sound.lit_iff]; refine ⟨?_, ?_, ?_, ?_, ?_, ?_, ?_, ?_, ?_, ?_⟩) | dsimp only [id])
theorem sound_execMailboxSend (packet : SlotPacket) (s : State) (h1 : Sound s) : SoundRes (execMailboxSend packet s) := by
  unfold execMailboxSend
  with_reducible (repeat' first
    | assumption | intro _ | apply sound_completes | apply sound_guardWrite | apply sound_sendMail | apply sound_loseMail | apply Sound.ite | split
    | dsimp only)
theorem sound_execMailboxReply (packet : SlotPacket) (s : State) (h1 : Sound s) : SoundRes (execMailboxReply packet s) := by
  unfold execMailboxReply
  with_reducible (repeat' first
    | assumption | apply sound_completes | apply sound_deliverReply | apply sound_loseMail | apply Sound.ite | apply Snd.ite | apply Snd.out | split
    | refine Snd.of (by assumption) ?_ | simp only [Snd.lit] | dsimp only)
theorem sound_execMailboxTimeout (slot : Fin 8) (s : State) (h1 : Sound s) : SoundRes (execMailboxTimeout slot s) := by
  unfold execMailboxTimeout
  with_reducible (repeat' first
    | assumption | apply sound_completes | apply sound_occur | apply sound_deliverReply | split | dsimp only)
theorem sound_execMailboxBadRequest (slot : Fin 8) (s : State) (h1 : Sound s) : SoundRes (execMailboxBadRequest slot s) := by
  unfold execMailboxBadRequest
  with_reducible (repeat' first
    | assumption | apply sound_completes | apply sound_setReply | apply Sound.ite | split | dsimp only)
theorem sound_execPing (slot : Fin 8) (s : State) (h1 : Sound s) : SoundRes (execPing slot s) := by
  unfold execPing
  with_reducible (repeat' first
    | assumption | intro _ | apply sound_completes | apply sound_serveMail | apply sound_okMail | apply Thd.ite | apply Thd.out | apply Snd.ite
    | apply Snd.out | apply Thd.rest | refine Thd.of (by assumption) ?_ | simp only [Thd.lit] | apply Thd.pair | dsimp only)
theorem sound_execVersion (slot : Fin 8) (s : State) (h1 : Sound s) : SoundRes (execVersion slot s) := by
  unfold execVersion
  with_reducible (repeat' first
    | assumption | intro _ | apply sound_completes | apply sound_serveMail | apply sound_senseKeep | apply sound_okMail | apply Thd.ite
    | apply Thd.out | apply Snd.ite | apply Snd.out | apply Thd.rest | refine Thd.of (by assumption) ?_ | simp only [Thd.lit] | apply Thd.pair
    | dsimp only)
theorem sound_signDigest (e : Nat) : ∀ (z1 : Nat) (z2 : State) (h2 : Sound z2), Snd (signDigest e z1 z2) := by
  intro z1
  induction z1 with
  | zero =>
    intros
    unfold signDigest
    with_reducible (repeat' first
      | assumption | apply sound_State_drew | apply Sound.ite | apply Snd.ite | apply Snd.out | split | refine Snd.of (by assumption) ?_
      | simp only [Snd.lit] | dsimp only)
  | succ _ ih =>
    intros
    unfold signDigest
    with_reducible (repeat' first
      | assumption | apply sound_State_drew | apply ih | apply Sound.ite | apply Snd.ite | apply Snd.out | split | refine Snd.of (by assumption) ?_
      | simp only [Snd.lit] | dsimp only)
theorem sound_signReport (body : List Nat) (s : State) (h1 : Sound s) : Snd (signReport body s) := by
  unfold signReport
  with_reducible (repeat' first
    | assumption | intro _ | apply sound_signDigest | apply Snd.ite | apply Snd.out | refine Snd.of (by assumption) ?_ | simp only [Snd.lit]
    | dsimp only)
theorem sound_execReportOpen (slot : Fin 8) (fails : Option Bool) (s : State) (h2 : Sound s) : SoundRes (execReportOpen slot fails s) := by
  unfold execReportOpen
  with_reducible (repeat' first
    | assumption | intro _ | apply sound_completes | apply sound_serveMail | apply sound_senseKeep | apply sound_failMail | apply sound_setCause
    | apply sound_signReport | apply sound_senseCert | apply sound_okMail | apply Sound.ite | apply Thd.ite | apply Thd.out | apply Snd.ite
    | apply Snd.out | apply Thd.rest | split | refine Thd.of (by assumption) ?_ | refine Snd.of (by assumption) ?_ | simp only [Thd.lit]
    | simp only [Snd.lit] | apply Thd.pair | apply Sound.regs | apply Sound.flash | apply Sound.keeping | apply Sound.sdram | apply Sound.stage
    | apply Sound.porch | apply Sound.hwRam | apply Sound.bufEcc | apply Sound.keepEcc | apply Sound.hwEcc
    | (simp only [Sound.lit_iff]; refine ⟨?_, ?_, ?_, ?_, ?_, ?_, ?_, ?_, ?_, ?_⟩) | dsimp only)
theorem sound_readPart (all : List Nat) (b : List Nat) (s : State) (h2 : Sound s) : Thd (readPart all b s) := by
  unfold readPart
  with_reducible (repeat' first
    | assumption | apply sound_State_off | apply sound_okMail | apply sound_failMail | apply Sound.ite | apply Thd.ite | apply Thd.out | apply Snd.ite
    | apply Snd.out | apply Thd.rest | split | refine Thd.of (by assumption) ?_ | simp only [Thd.lit] | apply Thd.pair | dsimp only)
theorem sound_execReportRead (slot : Fin 8) (s : State) (h1 : Sound s) : SoundRes (execReportRead slot s) := by
  unfold execReportRead
  with_reducible (repeat' first
    | assumption | intro _ | apply sound_completes | apply sound_serveMail | apply sound_readPart | apply Thd.ite | apply Thd.out | apply Snd.ite
    | apply Snd.out | apply Thd.rest | refine Thd.of (by assumption) ?_ | simp only [Thd.lit] | apply Thd.pair | dsimp only)
theorem sound_execCertRead (slot : Fin 8) (s : State) (h1 : Sound s) : SoundRes (execCertRead slot s) := by
  unfold execCertRead
  with_reducible (repeat' first
    | assumption | intro _ | apply sound_completes | apply sound_serveMail | apply sound_readPart | apply Thd.ite | apply Thd.out | apply Snd.ite
    | apply Snd.out | apply Thd.rest | refine Thd.of (by assumption) ?_ | simp only [Thd.lit] | apply Thd.pair | dsimp only)
theorem sound_cancelTrial (k : Nat) (s0 : State) (h1 : Sound s0) : Sound (cancelTrial k s0) := by
  unfold cancelTrial
  with_reducible (repeat' first
    | assumption | apply sound_senseKeep | apply sound_setTrial | apply Sound.ite | split | dsimp only)
theorem sound_spoilFlash (addr : Nat) (n : Nat) (s : State) (h2 : Sound s) : Sound (spoilFlash addr n s) := by
  unfold spoilFlash
  with_reducible (repeat' first
    | assumption | intro _ | apply sound_State_drew | apply tab_putFlashList | apply Sound.regs | apply Sound.flash | apply Sound.keeping
    | apply Sound.sdram | apply Sound.stage | apply Sound.porch | apply Sound.hwRam | apply Sound.bufEcc | apply Sound.keepEcc | apply Sound.hwEcc
    | (simp only [Sound.lit_iff]; refine ⟨?_, ?_, ?_, ?_, ?_, ?_, ?_, ?_, ?_, ?_⟩) | dsimp only)
theorem sound_eraseSector (addr : Nat) (error : Bool) (s : State) (h2 : Sound s) : Snd (eraseSector addr error s) := by
  unfold eraseSector
  with_reducible (repeat' first
    | assumption | apply sound_occur | apply sound_spoilFlash | apply Sound.ite | apply Snd.ite | apply Snd.out | apply wf_eraseFlash | split
    | refine Snd.of (by assumption) ?_ | simp only [Snd.lit] | apply Sound.regs | apply Sound.flash | apply Sound.keeping | apply Sound.sdram
    | apply Sound.stage | apply Sound.porch | apply Sound.hwRam | apply Sound.bufEcc | apply Sound.keepEcc | apply Sound.hwEcc
    | (simp only [Sound.lit_iff]; refine ⟨?_, ?_, ?_, ?_, ?_, ?_, ?_, ?_, ?_, ?_⟩) | dsimp only)
theorem sound_programFlash (addr : Nat) (bs : List Nat) (error : Bool) (s : State) (h3 : Sound s) : Snd (programFlash addr bs error s) := by
  unfold programFlash
  with_reducible (repeat' first
    | assumption | intro _ | apply sound_occur | apply sound_spoilFlash | apply Sound.ite | apply Snd.ite | apply Snd.out | apply tab_putFlashList
    | split | refine Snd.of (by assumption) ?_ | simp only [Snd.lit] | apply Sound.regs | apply Sound.flash | apply Sound.keeping | apply Sound.sdram
    | apply Sound.stage | apply Sound.porch | apply Sound.hwRam | apply Sound.bufEcc | apply Sound.keepEcc | apply Sound.hwEcc
    | (simp only [Sound.lit_iff]; refine ⟨?_, ?_, ?_, ?_, ?_, ?_, ?_, ?_, ?_, ?_⟩) | dsimp only)
theorem sound_flashAnswer (r : Bool × State) (h0 : Snd r) : Thd (flashAnswer r) := by
  unfold flashAnswer
  with_reducible (repeat' first
    | assumption | apply sound_okMail | apply sound_failMail | apply Sound.ite | apply Thd.ite | apply Thd.out | apply Snd.ite | apply Snd.out
    | apply Thd.rest | split | refine Thd.of (by assumption) ?_ | refine Snd.of (by assumption) ?_ | simp only [Thd.lit] | simp only [Snd.lit]
    | apply Thd.pair | dsimp only)
theorem sound_writeArea (slot : Nat) (op : Nat) (lenOk : Nat → Bool) (fits : Nat → Nat → List Nat → Bool) (act : Nat → List Nat → State → Bool × State) (s : State) (h4 : ∀ y0 y1 y2, Sound y2 → Snd (act y0 y1 y2)) (h5 : Sound s) : Sound (writeArea slot op lenOk fits act s) := by
  unfold writeArea
  with_reducible (repeat' first
    | assumption | intro _ | apply sound_State_off | apply sound_serveMail | apply sound_stewardMail | apply sound_failMail | apply sound_flashAnswer
    | apply sound_cancelTrial | apply h4 | apply Sound.ite | apply Thd.ite | apply Thd.out | apply Snd.ite | apply Snd.out | apply Thd.rest | split
    | refine Thd.of (by assumption) ?_ | refine Snd.of (by assumption) ?_ | simp only [Thd.lit] | simp only [Snd.lit] | apply Thd.pair
    | apply Sound.regs | apply Sound.flash | apply Sound.keeping | apply Sound.sdram | apply Sound.stage | apply Sound.porch | apply Sound.hwRam
    | apply Sound.bufEcc | apply Sound.keepEcc | apply Sound.hwEcc | (simp only [Sound.lit_iff]; refine ⟨?_, ?_, ?_, ?_, ?_, ?_, ?_, ?_, ?_, ?_⟩)
    | dsimp only)
theorem sound_execFlashErase (slot : Fin 8) (error : Bool) (s : State) (h2 : Sound s) : SoundRes (execFlashErase slot error s) := by
  unfold execFlashErase
  with_reducible (repeat' first
    | assumption | intro _ | apply sound_completes | apply sound_writeArea | apply sound_State_off | apply sound_eraseSector | apply Snd.ite
    | apply Snd.out | refine Snd.of (by assumption) ?_ | simp only [Snd.lit] | dsimp only)
theorem sound_execFlashWrite (slot : Fin 8) (error : Bool) (s : State) (h2 : Sound s) : SoundRes (execFlashWrite slot error s) := by
  unfold execFlashWrite
  with_reducible (repeat' first
    | assumption | intro _ | apply sound_completes | apply sound_writeArea | apply sound_State_off | apply sound_programFlash | apply Snd.ite
    | apply Snd.out | refine Snd.of (by assumption) ?_ | simp only [Snd.lit] | dsimp only)
theorem sound_flushHeld (s : State) (h0 : Sound s) : Sound (flushHeld s) := by
  unfold flushHeld
  with_reducible (repeat' first
    | assumption | intro _ | apply sound_eraseSector | apply sound_programFlash | apply sound_setReply | apply Sound.ite | apply Sound.foldl
    | apply Snd.ite | apply Snd.foldl | apply Snd.out | apply wf_nil | split | refine Snd.of (by assumption) ?_ | simp only [Snd.lit]
    | apply Sound.regs | apply Sound.flash | apply Sound.keeping | apply Sound.sdram | apply Sound.stage | apply Sound.porch | apply Sound.hwRam
    | apply Sound.bufEcc | apply Sound.keepEcc | apply Sound.hwEcc | (simp only [Sound.lit_iff]; refine ⟨?_, ?_, ?_, ?_, ?_, ?_, ?_, ?_, ?_, ?_⟩)
    | dsimp only)
theorem sound_execFlashRead (slot : Fin 8) (s : State) (h1 : Sound s) : SoundRes (execFlashRead slot s) := by
  unfold execFlashRead
  with_reducible (repeat' first
    | assumption | intro _ | apply sound_completes | apply sound_serveMail | apply sound_stewardMail | apply sound_okMail | apply sound_failMail
    | apply Sound.ite | apply Thd.ite | apply Thd.out | apply Snd.ite | apply Snd.out | apply Thd.rest | split | refine Thd.of (by assumption) ?_
    | simp only [Thd.lit] | apply Thd.pair | dsimp only)
theorem sound_execFwDescribe (slot : Fin 8) (error : Bool) (s : State) (h2 : Sound s) : SoundRes (execFwDescribe slot error s) := by
  unfold execFwDescribe
  with_reducible (repeat' first
    | assumption | intro _ | apply sound_completes | apply sound_serveMail | apply sound_stewardMail | apply sound_failMail | apply sound_eraseSector
    | apply sound_cancelTrial | apply sound_flashAnswer | apply sound_programFlash | apply Sound.ite | apply Thd.ite | apply Thd.out | apply Snd.ite
    | apply Snd.out | apply Thd.rest | split | refine Thd.of (by assumption) ?_ | refine Snd.of (by assumption) ?_ | simp only [Thd.lit]
    | simp only [Snd.lit] | apply Thd.pair | dsimp only)
theorem sound_execFwTrial (slot : Fin 8) (s : State) (h1 : Sound s) : SoundRes (execFwTrial slot s) := by
  unfold execFwTrial
  with_reducible (repeat' first
    | assumption | intro _ | apply sound_completes | apply sound_serveMail | apply sound_stewardMail | apply sound_failMail | apply sound_okMail
    | apply sound_setTrial | apply Sound.ite | apply Thd.ite | apply Thd.out | apply Snd.ite | apply Snd.out | apply Thd.rest | split
    | refine Thd.of (by assumption) ?_ | simp only [Thd.lit] | apply Thd.pair | dsimp only)
theorem sound_execReboot (slot : Fin 8) (s : State) (h1 : Sound s) : SoundRes (execReboot slot s) := by
  unfold execReboot
  with_reducible (repeat' first
    | assumption | intro _ | apply sound_completes | apply sound_deliverReply | apply sound_warmRestart | apply sound_setRecovery
    | apply sound_serveMail | apply sound_stewardMail | apply sound_failMail | apply Sound.ite | apply Sound.foldl | apply Thd.ite | apply Thd.foldl
    | apply Thd.out | apply Snd.ite | apply Snd.foldl | apply Snd.out | apply Thd.rest | split | refine Thd.of (by assumption) ?_
    | refine Snd.of (by assumption) ?_ | simp only [Thd.lit] | simp only [Snd.lit] | apply Thd.pair | dsimp only)
theorem sound_eraseKeep (lo : Nat) (n : Nat) (s : State) (h2 : Sound s) : Sound (eraseKeep lo n s) := by
  unfold eraseKeep
  with_reducible (repeat' first
    | assumption | intro _ | apply Snd.ite | apply Snd.out | apply Tab.wf_filter | apply Tab.rising_filter | refine Snd.of (by assumption) ?_
    | simp only [Snd.lit] | apply Sound.regs | apply Sound.flash | apply Sound.keeping | apply Sound.sdram | apply Sound.stage | apply Sound.porch
    | apply Sound.hwRam | apply Sound.bufEcc | apply Sound.keepEcc | apply Sound.hwEcc
    | (simp only [Sound.lit_iff]; refine ⟨?_, ?_, ?_, ?_, ?_, ?_, ?_, ?_, ?_, ?_⟩) | dsimp only)
theorem sound_execSettingsErase (slot : Fin 8) (s : State) (h1 : Sound s) : SoundRes (execSettingsErase slot s) := by
  unfold execSettingsErase
  with_reducible (repeat' first
    | assumption | intro _ | apply sound_completes | apply sound_serveMail | apply sound_failMail | apply sound_okMail | apply sound_eraseKeep
    | apply Sound.ite | apply Thd.ite | apply Thd.out | apply Snd.ite | apply Snd.out | apply Thd.rest | split | refine Thd.of (by assumption) ?_
    | simp only [Thd.lit] | apply Thd.pair | dsimp only)
theorem sound_keepingErase (s : State) (h0 : Sound s) : Sound (keepingErase s) := by
  unfold keepingErase
  with_reducible (repeat' first
    | assumption | intro _ | apply sound_eraseKeep | apply sound_State_off | apply sound_setCause | apply Sound.ite | apply Sound.foldl
    | apply Snd.ite | apply Snd.foldl | apply Snd.out | apply wf_nil | split | refine Snd.of (by assumption) ?_ | simp only [Snd.lit]
    | apply Sound.regs | apply Sound.flash | apply Sound.keeping | apply Sound.sdram | apply Sound.stage | apply Sound.porch | apply Sound.hwRam
    | apply Sound.bufEcc | apply Sound.keepEcc | apply Sound.hwEcc | (simp only [Sound.lit_iff]; refine ⟨?_, ?_, ?_, ?_, ?_, ?_, ?_, ?_, ?_, ?_⟩)
    | dsimp only)
theorem sound_execKeepingErase (slot : Fin 8) (s : State) (h1 : Sound s) : SoundRes (execKeepingErase slot s) := by
  unfold execKeepingErase
  with_reducible (repeat' first
    | assumption | intro _ | apply sound_completes | apply sound_serveMail | apply sound_stewardMail | apply sound_okMail | apply sound_keepingErase
    | apply Thd.ite | apply Thd.out | apply Snd.ite | apply Snd.out | apply Thd.rest | refine Thd.of (by assumption) ?_ | simp only [Thd.lit]
    | apply Thd.pair | dsimp only)
theorem sound_execExtend (slot : Fin 8) (s : State) (h1 : Sound s) : SoundRes (execExtend slot s) := by
  unfold execExtend
  with_reducible (repeat' first
    | assumption | intro _ | apply sound_completes | apply sound_serveMail | apply sound_stewardMail | apply sound_okMail | apply sound_extendEvent
    | apply sound_failMail | apply Sound.ite | apply Thd.ite | apply Thd.out | apply Snd.ite | apply Snd.out | apply Thd.rest | split
    | refine Thd.of (by assumption) ?_ | simp only [Thd.lit] | apply Thd.pair | dsimp only)
theorem sound_putRecovery (r : Recovery) (s : State) (h1 : Sound s) : Sound (putRecovery r s) := by
  unfold putRecovery
  with_reducible (repeat' first
    | assumption | apply Sound.regs | apply Sound.flash | apply Sound.keeping | apply Sound.sdram | apply Sound.stage | apply Sound.porch
    | apply Sound.hwRam | apply Sound.bufEcc | apply Sound.keepEcc | apply Sound.hwEcc
    | (simp only [Sound.lit_iff]; refine ⟨?_, ?_, ?_, ?_, ?_, ?_, ?_, ?_, ?_, ?_⟩) | dsimp only)
theorem sound_endRecovery (k : Nat) (s : State) (h1 : Sound s) : Sound (endRecovery k s) := by
  unfold endRecovery
  with_reducible (repeat' first
    | assumption | apply sound_warmRestart | apply sound_setTrial | dsimp only)
theorem sound_dfuFails (status : Nat) (s : State) (h1 : Sound s) : Sound (dfuFails status s) := by
  unfold dfuFails
  with_reducible (repeat' first
    | assumption | apply sound_putRecovery | apply sound_State_emit | apply Sound.regs | apply Sound.flash | apply Sound.keeping | apply Sound.sdram
    | apply Sound.stage | apply Sound.porch | apply Sound.hwRam | apply Sound.bufEcc | apply Sound.keepEcc | apply Sound.hwEcc
    | (simp only [Sound.lit_iff]; refine ⟨?_, ?_, ?_, ?_, ?_, ?_, ?_, ?_, ?_, ?_⟩) | dsimp only)
theorem sound_spoilStream (k : Nat) (off : Nat) (n : Nat) (s : State) (h3 : Sound s) : Sound (spoilStream k off n s) := by
  unfold spoilStream
  with_reducible (repeat' first
    | assumption | intro _ | apply sound_State_off | apply sound_occur | apply sound_State_drew | apply Sound.foldl | apply Snd.ite | apply Snd.foldl
    | apply Snd.out | apply tab_foldl | apply wf_putFlash | refine Snd.of (by assumption) ?_ | simp only [Snd.lit] | apply Sound.regs
    | apply Sound.flash | apply Sound.keeping | apply Sound.sdram | apply Sound.stage | apply Sound.porch | apply Sound.hwRam | apply Sound.bufEcc
    | apply Sound.keepEcc | apply Sound.hwEcc | (simp only [Sound.lit_iff]; refine ⟨?_, ?_, ?_, ?_, ?_, ?_, ?_, ?_, ?_, ?_⟩) | dsimp only)
theorem sound_dfuBlock (data : List Nat) (bad : Bool) (s : State) (h2 : Sound s) : Sound (dfuBlock data bad s) := by
  unfold dfuBlock
  with_reducible (repeat' first
    | assumption | apply sound_dfuFails | apply sound_putRecovery | apply sound_State_emit | apply sound_spoilStream | apply Sound.ite
    | apply wf_writeStream | split | apply Sound.regs | apply Sound.flash | apply Sound.keeping | apply Sound.sdram | apply Sound.stage
    | apply Sound.porch | apply Sound.hwRam | apply Sound.bufEcc | apply Sound.keepEcc | apply Sound.hwEcc
    | (simp only [Sound.lit_iff]; refine ⟨?_, ?_, ?_, ?_, ?_, ?_, ?_, ?_, ?_, ?_⟩) | dsimp only)
theorem sound_execDfuDnload (alt : Fin 3) (block : Nat) (data : FlashData) (s0 : State) (h3 : Sound s0) : SoundRes (execDfuDnload alt block data s0) := by
  unfold execDfuDnload
  with_reducible (repeat' first
    | assumption | apply sound_senseKeep | apply sound_completes | apply sound_State_emit | apply sound_dfuFails | apply sound_dfuBlock
    | apply sound_putRecovery | apply sound_dfuStalls | apply Sound.ite | apply wf_nil | split | apply Sound.regs | apply Sound.flash
    | apply Sound.keeping | apply Sound.sdram | apply Sound.stage | apply Sound.porch | apply Sound.hwRam | apply Sound.bufEcc | apply Sound.keepEcc
    | apply Sound.hwEcc | (simp only [Sound.lit_iff]; refine ⟨?_, ?_, ?_, ?_, ?_, ?_, ?_, ?_, ?_, ?_⟩) | dsimp only)
theorem sound_execDfuManifest (s : State) (h0 : Sound s) : SoundRes (execDfuManifest s) := by
  unfold execDfuManifest
  with_reducible (repeat' first
    | assumption | apply sound_completes | apply sound_endRecovery | apply sound_dfuFails | apply Sound.ite | split | dsimp only)
theorem sound_execDfuUpload (s : State) (h0 : Sound s) : SoundRes (execDfuUpload s) := by
  unfold execDfuUpload
  with_reducible (repeat' first
    | assumption | apply sound_completes | apply sound_State_emit | apply Sound.ite | split | dsimp only)
theorem sound_execDfuDetach (s : State) (h0 : Sound s) : SoundRes (execDfuDetach s) := by
  unfold execDfuDetach
  with_reducible (repeat' first
    | assumption | apply sound_completes | apply sound_State_emit | apply Sound.ite | split | dsimp only)
theorem sound_sendSeed (ty : Nat) (payload : List Nat) (s : State) (h2 : Sound s) : Sound (sendSeed ty payload s) := by
  unfold sendSeed
  with_reducible (repeat' first
    | assumption | intro _ | apply sound_State_emit | apply sound_State_drew | apply Sound.foldl | apply Snd.ite | apply Snd.foldl | apply Snd.out
    | refine Snd.of (by assumption) ?_ | simp only [Snd.lit] | dsimp only)
theorem sound_ackSeed (seq : Nat) (data : List Nat) (s : State) (h2 : Sound s) : Sound (ackSeed seq data s) := by
  unfold ackSeed
  with_reducible (repeat' first
    | assumption | apply sound_sendSeed | apply sound_putRecovery | apply Sound.regs | apply Sound.flash | apply Sound.keeping | apply Sound.sdram
    | apply Sound.stage | apply Sound.porch | apply Sound.hwRam | apply Sound.bufEcc | apply Sound.keepEcc | apply Sound.hwEcc
    | (simp only [Sound.lit_iff]; refine ⟨?_, ?_, ?_, ?_, ?_, ?_, ?_, ?_, ?_, ?_⟩) | dsimp only)
theorem sound_nakSeed (seq : Nat) (code : Nat) (s : State) (h2 : Sound s) : Sound (nakSeed seq code s) := by
  unfold nakSeed
  with_reducible (repeat' first
    | assumption | apply sound_sendSeed | dsimp only)
theorem sound_seedFrame (seq : Nat) (again : List Nat) (act : State → State) (s0 : State) (h2 : ∀ y0, Sound y0 → Sound (act y0)) (h3 : Sound s0) : Sound (seedFrame seq again act s0) := by
  unfold seedFrame
  with_reducible (repeat' first
    | assumption | intro _ | apply sound_senseKeep | apply sound_putRecovery | apply sound_ackSeed | apply h2 | apply Sound.ite | apply wf_nil | split
    | apply Sound.regs | apply Sound.flash | apply Sound.keeping | apply Sound.sdram | apply Sound.stage | apply Sound.porch | apply Sound.hwRam
    | apply Sound.bufEcc | apply Sound.keepEcc | apply Sound.hwEcc | (simp only [Sound.lit_iff]; refine ⟨?_, ?_, ?_, ?_, ?_, ?_, ?_, ?_, ?_, ?_⟩)
    | dsimp only)
theorem sound_seedHello (seq : Nat) (s : State) (h1 : Sound s) : Sound (seedHello seq s) := by
  unfold seedHello
  with_reducible (repeat' first
    | assumption | intro _ | apply sound_seedFrame | apply sound_ackSeed | dsimp only)
theorem sound_seedBegin (seq : Nat) (slot : Nat) (total : Nat) (s : State) (h3 : Sound s) : Sound (seedBegin seq slot total s) := by
  unfold seedBegin
  with_reducible (repeat' first
    | assumption | intro _ | apply sound_seedFrame | apply sound_nakSeed | apply sound_ackSeed | apply sound_putRecovery | apply Sound.ite | split
    | apply Sound.regs | apply Sound.flash | apply Sound.keeping | apply Sound.sdram | apply Sound.stage | apply Sound.porch | apply Sound.hwRam
    | apply Sound.bufEcc | apply Sound.keepEcc | apply Sound.hwEcc | (simp only [Sound.lit_iff]; refine ⟨?_, ?_, ?_, ?_, ?_, ?_, ?_, ?_, ?_, ?_⟩)
    | dsimp only)
theorem sound_seedData (seq : Nat) (offset : Nat) (data : List Nat) (bad : Bool) (s : State) (h4 : Sound s) : Sound (seedData seq offset data bad s) := by
  unfold seedData
  with_reducible (repeat' first
    | assumption | intro _ | apply sound_seedFrame | apply sound_nakSeed | apply sound_putRecovery | apply sound_spoilStream | apply sound_ackSeed
    | apply Sound.ite | apply Snd.ite | apply Snd.out | apply wf_writeStream | split | refine Snd.of (by assumption) ?_ | simp only [Snd.lit]
    | apply Sound.regs | apply Sound.flash | apply Sound.keeping | apply Sound.sdram | apply Sound.stage | apply Sound.porch | apply Sound.hwRam
    | apply Sound.bufEcc | apply Sound.keepEcc | apply Sound.hwEcc | (simp only [Sound.lit_iff]; refine ⟨?_, ?_, ?_, ?_, ?_, ?_, ?_, ?_, ?_, ?_⟩)
    | dsimp only)
theorem sound_seedEnd (seq : Nat) (s : State) (h1 : Sound s) : Sound (seedEnd seq s) := by
  unfold seedEnd
  with_reducible (repeat' first
    | assumption | intro _ | apply sound_seedFrame | apply sound_endRecovery | apply sound_ackSeed | apply sound_nakSeed | apply Sound.ite
    | apply Snd.ite | apply Snd.out | split | refine Snd.of (by assumption) ?_ | simp only [Snd.lit] | dsimp only)
theorem sound_seedBoot (seq : Nat) (slot : Nat) (s : State) (h2 : Sound s) : Sound (seedBoot seq slot s) := by
  unfold seedBoot
  with_reducible (repeat' first
    | assumption | intro _ | apply sound_seedFrame | apply sound_endRecovery | apply sound_ackSeed | apply sound_nakSeed | apply Sound.ite | split
    | dsimp only)
theorem sound_seedBad (seq : Nat) (crc : Bool) (s : State) (h2 : Sound s) : Sound (seedBad seq crc s) := by
  unfold seedBad
  with_reducible (repeat' first
    | assumption | apply sound_nakSeed | apply sound_putRecovery | apply Sound.ite | apply wf_nil | split | apply Sound.regs | apply Sound.flash
    | apply Sound.keeping | apply Sound.sdram | apply Sound.stage | apply Sound.porch | apply Sound.hwRam | apply Sound.bufEcc | apply Sound.keepEcc
    | apply Sound.hwEcc | (simp only [Sound.lit_iff]; refine ⟨?_, ?_, ?_, ?_, ?_, ?_, ?_, ?_, ?_, ?_⟩) | dsimp only)
theorem sound_seedWhole (f : List Nat) (s : State) (h1 : Sound s) : Sound (seedWhole f s) := by
  unfold seedWhole
  with_reducible (repeat' first
    | assumption | apply sound_seedBad | apply sound_seedHello | apply sound_seedBegin | apply sound_seedData | apply sound_seedEnd
    | apply sound_seedBoot | apply Sound.ite | split | dsimp only)
theorem sound_seedByte (c : Nat) (s : State) (h1 : Sound s) : Sound (seedByte c s) := by
  unfold seedByte
  with_reducible (repeat' first
    | assumption | apply sound_putRecovery | apply sound_seedWhole | apply Sound.ite | split | apply Sound.regs | apply Sound.flash
    | apply Sound.keeping | apply Sound.sdram | apply Sound.stage | apply Sound.porch | apply Sound.hwRam | apply Sound.bufEcc | apply Sound.keepEcc
    | apply Sound.hwEcc | (simp only [Sound.lit_iff]; refine ⟨?_, ?_, ?_, ?_, ?_, ?_, ?_, ?_, ?_, ?_⟩) | dsimp only)
theorem sound_execHello (seq : Nat) (s : State) (h1 : Sound s) : SoundRes (execHello seq s) := by
  unfold execHello
  with_reducible (repeat' first
    | assumption | apply sound_completes | apply sound_seedHello | dsimp only)
theorem sound_execBeginFrame (seq : Nat) (slot : Nat) (total : Nat) (s : State) (h3 : Sound s) : SoundRes (execBeginFrame seq slot total s) := by
  unfold execBeginFrame
  with_reducible (repeat' first
    | assumption | apply sound_completes | apply sound_seedBegin | dsimp only)
theorem sound_execDataFrame (seq : Nat) (offset : Nat) (data : FlashData) (s : State) (h3 : Sound s) : SoundRes (execDataFrame seq offset data s) := by
  unfold execDataFrame
  with_reducible (repeat' first
    | assumption | apply sound_completes | apply sound_seedData | dsimp only)
theorem sound_execEndFrame (seq : Nat) (s : State) (h1 : Sound s) : SoundRes (execEndFrame seq s) := by
  unfold execEndFrame
  with_reducible (repeat' first
    | assumption | apply sound_completes | apply sound_seedEnd | dsimp only)
theorem sound_execBoot (seq : Nat) (slot : Nat) (s : State) (h2 : Sound s) : SoundRes (execBoot seq slot s) := by
  unfold execBoot
  with_reducible (repeat' first
    | assumption | apply sound_completes | apply sound_seedBoot | dsimp only)
theorem sound_execSeedDropBadFrame (seq : Nat) (crc : Bool) (s : State) (h2 : Sound s) : SoundRes (execSeedDropBadFrame seq crc s) := by
  unfold execSeedDropBadFrame
  with_reducible (repeat' first
    | assumption | apply sound_completes | apply sound_seedBad | dsimp only)
theorem sound_execSeedDropGap (s : State) (h0 : Sound s) : SoundRes (execSeedDropGap s) := by
  unfold execSeedDropGap
  with_reducible (repeat' first
    | assumption | apply sound_completes | apply sound_putRecovery | apply wf_nil | apply Sound.regs | apply Sound.flash | apply Sound.keeping
    | apply Sound.sdram | apply Sound.stage | apply Sound.porch | apply Sound.hwRam | apply Sound.bufEcc | apply Sound.keepEcc | apply Sound.hwEcc
    | (simp only [Sound.lit_iff]; refine ⟨?_, ?_, ?_, ?_, ?_, ?_, ?_, ?_, ?_, ?_⟩) | dsimp only)
theorem sound_pendUart (u : Nat) (write : State → State) (s : State) (h1 : ∀ y0, Sound y0 → Sound (write y0)) (h2 : Sound s) : Sound (pendUart u write s) := by
  unfold pendUart
  with_reducible (repeat' first
    | assumption | intro _ | apply sound_putUart | apply sound_State_on | apply h1 | apply Sound.ite | split | apply Sound.regs | apply Sound.flash
    | apply Sound.keeping | apply Sound.sdram | apply Sound.stage | apply Sound.porch | apply Sound.hwRam | apply Sound.bufEcc | apply Sound.keepEcc
    | apply Sound.hwEcc | (simp only [Sound.lit_iff]; refine ⟨?_, ?_, ?_, ?_, ?_, ?_, ?_, ?_, ?_, ?_⟩) | dsimp only)
theorem sound_startSend (u : Nat) (s : State) (h1 : Sound s) : Sound (startSend u s) := by
  unfold startSend
  with_reducible (repeat' first
    | assumption | apply sound_putUart | apply sound_State_wrB | apply Sound.ite | split | apply Sound.regs | apply Sound.flash | apply Sound.keeping
    | apply Sound.sdram | apply Sound.stage | apply Sound.porch | apply Sound.hwRam | apply Sound.bufEcc | apply Sound.keepEcc | apply Sound.hwEcc
    | (simp only [Sound.lit_iff]; refine ⟨?_, ?_, ?_, ?_, ?_, ?_, ?_, ?_, ?_, ?_⟩) | dsimp only)
theorem sound_flowControl (u : Nat) (s : State) (h1 : Sound s) : Sound (flowControl u s) := by
  unfold flowControl
  with_reducible (repeat' first
    | assumption | apply sound_putUart | apply Sound.ite | split | apply Sound.regs | apply Sound.flash | apply Sound.keeping | apply Sound.sdram
    | apply Sound.stage | apply Sound.porch | apply Sound.hwRam | apply Sound.bufEcc | apply Sound.keepEcc | apply Sound.hwEcc
    | (simp only [Sound.lit_iff]; refine ⟨?_, ?_, ?_, ?_, ?_, ?_, ?_, ?_, ?_, ?_⟩) | dsimp only)
theorem sound_showUart (u : Nat) (s : State) (h1 : Sound s) : Sound (showUart u s) := by
  unfold showUart
  with_reducible (repeat' first
    | assumption | apply sound_State_wr | apply sound_State_wrB | apply sound_State_on | apply Sound.ite | split | dsimp only)
theorem sound_withUart (u : Nat) (f : State → State) (s : State) (h1 : ∀ y0, Sound y0 → Sound (f y0)) (h2 : Sound s) : Sound (withUart u f s) := by
  unfold withUart
  with_reducible (repeat' first
    | assumption | intro _ | apply sound_showUart | apply sound_startSend | apply sound_flowControl | apply sound_setIrq | apply h1 | apply Sound.ite
    | split | dsimp only)
theorem sound_execUartStartEdge (uart : Fin 4) (settled : Bool) (s : State) (h2 : Sound s) : SoundRes (execUartStartEdge uart settled s) := by
  unfold execUartStartEdge
  with_reducible (repeat' first
    | assumption | apply sound_ringBell | apply sound_completes | apply sound_putUart | apply sound_State_on | apply sound_State_off | apply Sound.ite
    | split | apply Sound.regs | apply Sound.flash | apply Sound.keeping | apply Sound.sdram | apply Sound.stage | apply Sound.porch
    | apply Sound.hwRam | apply Sound.bufEcc | apply Sound.keepEcc | apply Sound.hwEcc
    | (simp only [Sound.lit_iff]; refine ⟨?_, ?_, ?_, ?_, ?_, ?_, ?_, ?_, ?_, ?_⟩) | dsimp only)
theorem sound_storeChar (u : Nat) (word : Nat) (s : State) (h2 : Sound s) : Sound (storeChar u word s) := by
  unfold storeChar
  with_reducible (repeat' first
    | assumption | apply sound_occur | apply sound_State_on | apply sound_State_bump | apply sound_putUart | apply Sound.ite | split
    | apply Sound.regs | apply Sound.flash | apply Sound.keeping | apply Sound.sdram | apply Sound.stage | apply Sound.porch | apply Sound.hwRam
    | apply Sound.bufEcc | apply Sound.keepEcc | apply Sound.hwEcc | (simp only [Sound.lit_iff]; refine ⟨?_, ?_, ?_, ?_, ?_, ?_, ?_, ?_, ?_, ?_⟩)
    | dsimp only)
theorem sound_plainChar (u : Nat) (data : List Bool) (parity : Bool) (stop : Bool) (s : State) (h4 : Sound s) : Sound (plainChar u data parity stop s) := by
  unfold plainChar
  with_reducible (repeat' first
    | assumption | apply sound_putUart | apply sound_State_on | apply sound_storeChar | apply sound_State_bump | apply sound_occur
    | apply sound_State_off | apply Sound.ite | split | apply Sound.regs | apply Sound.flash | apply Sound.keeping | apply Sound.sdram
    | apply Sound.stage | apply Sound.porch | apply Sound.hwRam | apply Sound.bufEcc | apply Sound.keepEcc | apply Sound.hwEcc
    | (simp only [Sound.lit_iff]; refine ⟨?_, ?_, ?_, ?_, ?_, ?_, ?_, ?_, ?_, ?_⟩) | dsimp only [id])
theorem sound_cardChar (u : Nat) (line : List Bool) (parity : Bool) (s : State) (h3 : Sound s) : Sound (cardChar u line parity s) := by
  unfold cardChar
  with_reducible (repeat' first
    | assumption | apply sound_storeChar | apply sound_State_emit | apply sound_putUart | apply sound_State_bump | apply sound_occur | apply sound_State_on | apply Sound.ite
    | split | apply Sound.regs | apply Sound.flash | apply Sound.keeping | apply Sound.sdram | apply Sound.stage | apply Sound.porch
    | apply Sound.hwRam | apply Sound.bufEcc | apply Sound.keepEcc | apply Sound.hwEcc
    | (simp only [Sound.lit_iff]; refine ⟨?_, ?_, ?_, ?_, ?_, ?_, ?_, ?_, ?_, ?_⟩) | dsimp only)
theorem sound_recoveryChar (samples : List Bool) (s : State) (h1 : Sound s) : Sound (recoveryChar samples s) := by
  unfold recoveryChar
  with_reducible (repeat' first
    | assumption | apply sound_seedByte | apply Sound.ite | split | dsimp only)
theorem sound_execUartCharReceived (uart : Fin 4) (samples : List Bool) (s : State) (h2 : Sound s) : SoundRes (execUartCharReceived uart samples s) := by
  unfold execUartCharReceived
  with_reducible (repeat' first
    | assumption | intro _ | apply sound_completes | apply sound_recoveryChar | apply sound_State_off | apply sound_withUart | apply sound_cardChar
    | apply sound_plainChar | apply Sound.ite | split | dsimp only)
theorem sound_execUartCharSent (uart : Fin 4) (errorSignal : Bool) (s : State) (h2 : Sound s) : SoundRes (execUartCharSent uart errorSignal s) := by
  unfold execUartCharSent
  with_reducible (repeat' first
    | assumption | intro _ | apply sound_completes | apply sound_withUart | apply sound_State_emit | apply sound_putUart | apply sound_occur
    | apply sound_State_on | apply Sound.ite | apply Snd.ite | apply Snd.out | split | refine Snd.of (by assumption) ?_ | simp only [Snd.lit]
    | apply Sound.regs | apply Sound.flash | apply Sound.keeping | apply Sound.sdram | apply Sound.stage | apply Sound.porch | apply Sound.hwRam
    | apply Sound.bufEcc | apply Sound.keepEcc | apply Sound.hwEcc | (simp only [Sound.lit_iff]; refine ⟨?_, ?_, ?_, ?_, ?_, ?_, ?_, ?_, ?_, ?_⟩)
    | dsimp only)
theorem sound_execUartTxWrite (slot : Fin 8) (uart : Fin 4) (value : Nat) (s : State) (h3 : Sound s) : SoundRes (execUartTxWrite slot uart value s) := by
  unfold execUartTxWrite
  with_reducible (repeat' first
    | assumption | intro _ | apply sound_completes | apply sound_guardWrite | apply sound_withUart | apply sound_State_bump | apply sound_putUart
    | apply Sound.ite | split | apply Sound.regs | apply Sound.flash | apply Sound.keeping | apply Sound.sdram | apply Sound.stage | apply Sound.porch
    | apply Sound.hwRam | apply Sound.bufEcc | apply Sound.keepEcc | apply Sound.hwEcc
    | (simp only [Sound.lit_iff]; refine ⟨?_, ?_, ?_, ?_, ?_, ?_, ?_, ?_, ?_, ?_⟩) | dsimp only)
theorem sound_execUartRxRead (slot : Fin 8) (uart : Fin 4) (s : State) (h2 : Sound s) : SoundRes (execUartRxRead slot uart s) := by
  unfold execUartRxRead
  with_reducible (repeat' first
    | assumption | intro _ | apply sound_completes | apply sound_guardRead | apply sound_withUart | apply sound_putUart | apply sound_State_emit
    | apply Sound.ite | split | apply Sound.regs | apply Sound.flash | apply Sound.keeping | apply Sound.sdram | apply Sound.stage | apply Sound.porch
    | apply Sound.hwRam | apply Sound.bufEcc | apply Sound.keepEcc | apply Sound.hwEcc
    | (simp only [Sound.lit_iff]; refine ⟨?_, ?_, ?_, ?_, ?_, ?_, ?_, ?_, ?_, ?_⟩) | dsimp only)
theorem sound_execFlushTx (slot : Fin 8) (uart : Fin 4) (s : State) (h2 : Sound s) : SoundRes (execFlushTx slot uart s) := by
  unfold execFlushTx
  with_reducible (repeat' first
    | assumption | intro _ | apply sound_completes | apply sound_guardWrite | apply sound_withUart | apply sound_putUart | apply wf_nil
    | apply Sound.regs | apply Sound.flash | apply Sound.keeping | apply Sound.sdram | apply Sound.stage | apply Sound.porch | apply Sound.hwRam
    | apply Sound.bufEcc | apply Sound.keepEcc | apply Sound.hwEcc | (simp only [Sound.lit_iff]; refine ⟨?_, ?_, ?_, ?_, ?_, ?_, ?_, ?_, ?_, ?_⟩)
    | dsimp only)
theorem sound_execFlushRx (slot : Fin 8) (uart : Fin 4) (s : State) (h2 : Sound s) : SoundRes (execFlushRx slot uart s) := by
  unfold execFlushRx
  with_reducible (repeat' first
    | assumption | intro _ | apply sound_completes | apply sound_guardWrite | apply sound_withUart | apply sound_putUart | apply wf_nil
    | apply Sound.regs | apply Sound.flash | apply Sound.keeping | apply Sound.sdram | apply Sound.stage | apply Sound.porch | apply Sound.hwRam
    | apply Sound.bufEcc | apply Sound.keepEcc | apply Sound.hwEcc | (simp only [Sound.lit_iff]; refine ⟨?_, ?_, ?_, ?_, ?_, ?_, ?_, ?_, ?_, ?_⟩)
    | dsimp only)
theorem sound_execUartCfgApply (uart : Fin 4) (s : State) (h1 : Sound s) : SoundRes (execUartCfgApply uart s) := by
  unfold execUartCfgApply
  with_reducible (repeat' first
    | assumption | intro _ | apply sound_completes | apply sound_withUart | apply sound_putUart | apply sound_State_off | apply sound_setCause
    | apply sound_State_on | apply Sound.ite | apply wf_nil | split | apply Sound.regs | apply Sound.flash | apply Sound.keeping | apply Sound.sdram
    | apply Sound.stage | apply Sound.porch | apply Sound.hwRam | apply Sound.bufEcc | apply Sound.keepEcc | apply Sound.hwEcc
    | (simp only [Sound.lit_iff]; refine ⟨?_, ?_, ?_, ?_, ?_, ?_, ?_, ?_, ?_, ?_⟩) | dsimp only)
theorem sound_execUartLine (uart : Fin 4) (present : Bool) (s : State) (h2 : Sound s) : SoundRes (execUartLine uart present s) := by
  unfold execUartLine
  with_reducible (repeat' first
    | assumption | apply sound_completes | apply sound_setCause | apply sound_State_off | apply sound_State_on | apply Sound.ite | split | dsimp only)
theorem sound_restartUart (u : Nat) (s : State) (h1 : Sound s) : Sound (restartUart u s) := by
  unfold restartUart
  with_reducible (repeat' first
    | assumption | apply sound_putUart | apply sound_showUart | apply sound_State_rstAll | apply wf_nil | apply Sound.regs | apply Sound.flash
    | apply Sound.keeping | apply Sound.sdram | apply Sound.stage | apply Sound.porch | apply Sound.hwRam | apply Sound.bufEcc | apply Sound.keepEcc
    | apply Sound.hwEcc | (simp only [Sound.lit_iff]; refine ⟨?_, ?_, ?_, ?_, ?_, ?_, ?_, ?_, ?_, ?_⟩) | dsimp only)
theorem sound_resetUart (u : Nat) (s : State) (h1 : Sound s) : Sound (resetUart u s) := by
  unfold resetUart
  with_reducible (repeat' first
    | assumption | apply sound_putUart | apply sound_State_rstAll | apply sound_State_wr | split | dsimp only)
theorem sound_withPins (f : State → State) (s : State) (h0 : ∀ y0, Sound y0 → Sound (f y0)) (h1 : Sound s) : Sound (withPins f s) := by
  unfold withPins
  with_reducible (repeat' first
    | assumption | intro _ | apply sound_setIrq | apply h0 | apply Sound.ite | apply Sound.foldl | apply Snd.ite | apply Snd.foldl | apply Snd.out
    | split | refine Snd.of (by assumption) ?_ | simp only [Snd.lit] | dsimp only)
theorem sound_maskWrite (f : Fld) (mask : Nat) (value : Nat) (s : State) (h3 : Sound s) : Sound (maskWrite f mask value s) := by
  unfold maskWrite
  with_reducible (repeat' first
    | assumption | apply sound_State_wr | dsimp only)
theorem sound_resetPin (k : Nat) (s : State) (h1 : Sound s) : Sound (resetPin k s) := by
  unfold resetPin
  with_reducible (repeat' first
    | assumption | intro _ | apply sound_State_wr | apply sound_State_rstAll | apply Sound.foldl | apply Snd.ite | apply Snd.foldl | apply Snd.out
    | refine Snd.of (by assumption) ?_ | simp only [Snd.lit] | dsimp only)
theorem sound_execGpioOwnerWrite (slot : Fin 8) (high : Bool) (value : Nat) (s : State) (h3 : Sound s) : SoundRes (execGpioOwnerWrite slot high value s) := by
  unfold execGpioOwnerWrite
  with_reducible (repeat' first
    | assumption | intro _ | apply sound_completes | apply sound_guardWrite | apply sound_State_wrB | apply sound_State_wr | apply sound_resetPin
    | apply Sound.ite | apply Sound.foldl | apply Snd.ite | apply Snd.foldl | apply Snd.out | split | refine Snd.of (by assumption) ?_
    | simp only [Snd.lit] | dsimp only)
theorem sound_execGpioSet (slot : Fin 8) (value : Nat) (s : State) (h2 : Sound s) : SoundRes (execGpioSet slot value s) := by
  unfold execGpioSet
  with_reducible (repeat' first
    | assumption | intro _ | apply sound_completes | apply sound_guardWrite | apply sound_State_wr | apply Sound.ite | split | dsimp only)
theorem sound_execGpioClr (slot : Fin 8) (value : Nat) (s : State) (h2 : Sound s) : SoundRes (execGpioClr slot value s) := by
  unfold execGpioClr
  with_reducible (repeat' first
    | assumption | intro _ | apply sound_completes | apply sound_guardWrite | apply sound_State_wr | apply Sound.ite | split | dsimp only)
theorem sound_gpioBells (old : Nat) (new : Nat) (s : State) (h2 : Sound s) : Sound (gpioBells old new s) := by
  unfold gpioBells
  with_reducible (repeat' first
    | assumption | intro _ | apply sound_ringBell | apply Sound.ite | apply Sound.foldl | apply Snd.ite | apply Snd.foldl | apply Snd.out | split
    | refine Snd.of (by assumption) ?_ | simp only [Snd.lit] | dsimp only)
theorem sound_execGpioEdge (levels : Nat) (s : State) (h1 : Sound s) : SoundRes (execGpioEdge levels s) := by
  unfold execGpioEdge
  with_reducible (repeat' first
    | assumption | intro _ | apply sound_senses | apply sound_State_wr | apply sound_withPins | apply sound_gpioBells | apply Sound.ite | split
    | dsimp only)
theorem sound_meetSource (t : Nat) (s : State) (h1 : Sound s) : Sound (meetSource t s) := by
  unfold meetSource
  with_reducible (repeat' first
    | assumption | apply sound_syncPath | apply sound_freshPd | apply sound_State_wr | apply Sound.ite | split | dsimp only)
theorem sound_bringTile (t : Nat) (s : State) (h1 : Sound s) : Sound (bringTile t s) := by
  unfold bringTile
  with_reducible (repeat' first
    | assumption | apply sound_applyBoard | apply sound_unitRequestAll | apply sound_State_on | apply sound_syncPath | apply sound_setGuards
    | apply sound_State_wr | apply sound_State_off | apply sound_meetSource | apply sound_syncSink | apply Sound.ite | split | dsimp only)
theorem sound_showRoot (slot : Nat) (s : State) (h1 : Sound s) : Sound (showRoot slot s) := by
  unfold showRoot
  with_reducible (repeat' first
    | assumption | intro _ | apply sound_State_wr | apply sound_showFunction | apply sound_State_on | apply Sound.ite | apply Sound.foldl
    | apply Snd.ite | apply Snd.foldl | apply Snd.out | apply Tab.wf_filter | apply Tab.rising_filter | split | refine Snd.of (by assumption) ?_
    | simp only [Snd.lit] | dsimp only [id])
theorem sound_groveReady (slot : Nat) (s : State) (h1 : Sound s) : Sound (groveReady slot s) := by
  unfold groveReady
  with_reducible (repeat' first
    | assumption | intro _ | apply sound_State_on | apply sound_State_wr | apply Sound.ite | split | dsimp only)
theorem sound_bringUart (u : Nat) (s : State) (h1 : Sound s) : Sound (bringUart u s) := by
  unfold bringUart
  with_reducible (repeat' first
    | assumption | apply sound_showUart | apply sound_resetUart | apply Sound.ite | split | dsimp only)
theorem sound_bringRbp (p : Nat) (s : State) (h1 : Sound s) : Sound (bringRbp p s) := by
  unfold bringRbp
  with_reducible (repeat' first
    | assumption | intro _ | apply sound_changeRbp | apply sound_resetPort | apply Sound.ite | split | apply Sound.regs | apply Sound.flash
    | apply Sound.keeping | apply Sound.sdram | apply Sound.stage | apply Sound.porch | apply Sound.hwRam | apply Sound.bufEcc | apply Sound.keepEcc
    | apply Sound.hwEcc | (simp only [Sound.lit_iff]; refine ⟨?_, ?_, ?_, ?_, ?_, ?_, ?_, ?_, ?_, ?_⟩) | dsimp only)
theorem sound_payMedia (slot : Nat) (s : State) (h1 : Sound s) : Sound (payMedia slot s) := by
  unfold payMedia
  with_reducible (repeat' first
    | assumption | intro _ | apply sound_setIrq | apply sound_putTray | apply Sound.ite | apply Sound.foldl | apply Snd.ite | apply Snd.foldl
    | apply Snd.out | split | refine Snd.of (by assumption) ?_ | simp only [Snd.lit] | apply Sound.regs | apply Sound.flash | apply Sound.keeping
    | apply Sound.sdram | apply Sound.stage | apply Sound.porch | apply Sound.hwRam | apply Sound.bufEcc | apply Sound.keepEcc | apply Sound.hwEcc
    | (simp only [Sound.lit_iff]; refine ⟨?_, ?_, ?_, ?_, ?_, ?_, ?_, ?_, ?_, ?_⟩) | dsimp only)
theorem sound_bringGrove (slot : Nat) (up : UpConnect) (s : State) (h2 : Sound s) : Sound (bringGrove slot up s) := by
  unfold bringGrove
  with_reducible (repeat' first
    | assumption | intro _ | apply sound_unitRequestAll | apply sound_bringTile | apply sound_showRoot | apply sound_bringUart | apply sound_bringRbp
    | apply sound_payMedia | apply sound_groveReady | apply sound_State_emit | apply sound_upConnect | apply Sound.ite | apply Sound.foldl
    | apply Snd.ite | apply Snd.foldl | apply Snd.out | split | refine Snd.of (by assumption) ?_ | simp only [Snd.lit] | dsimp only)
theorem sound_setListed (s : State) (h0 : Sound s) : Sound (setListed s) := by
  unfold setListed
  with_reducible (repeat' first
    | assumption | intro _ | apply sound_setSticky | apply Sound.ite | apply Sound.foldl | apply Snd.ite | apply Snd.foldl | apply Snd.out | split
    | refine Snd.of (by assumption) ?_ | simp only [Snd.lit] | dsimp only)
theorem sound_execGroveBringup (up : UpConnect) (s : State) (h1 : Sound s) : SoundRes (execGroveBringup up s) := by
  unfold execGroveBringup
  with_reducible (repeat' first
    | assumption | apply sound_completes | apply sound_bringGrove | apply sound_setListed | apply sound_senseKeep | apply Sound.ite | split
    | dsimp only)
theorem sound_applyDrumSeeds (n : Nat) (s : State) (h1 : Sound s) : Sound (applyDrumSeeds n s) := by
  unfold applyDrumSeeds
  with_reducible (repeat' first
    | assumption | intro _ | apply sound_wrList | apply sound_State_on | apply sound_State_wr | apply Snd.ite | apply Snd.out | split
    | refine Snd.of (by assumption) ?_ | simp only [Snd.lit] | dsimp only)
theorem sound_applyDrumRecs (n : Nat) (s : State) (h1 : Sound s) : Sound (applyDrumRecs n s) := by
  unfold applyDrumRecs
  with_reducible (repeat' first
    | assumption | intro _ | apply sound_State_wr | apply sound_State_wrB | split | dsimp only)
theorem sound_loadVoices (n : Nat) (s : State) (h1 : Sound s) : Sound (loadVoices n s) := by
  unfold loadVoices
  with_reducible (repeat' first
    | assumption | intro _ | apply sound_placeVoice | apply Sound.ite | apply Sound.foldl | apply Snd.ite | apply Snd.foldl | apply Snd.out | split
    | refine Snd.of (by assumption) ?_ | simp only [Snd.lit] | dsimp only)
theorem sound_senseTray (n : Nat) (s : State) (h1 : Sound s) : Sound (senseTray n s) := by
  unfold senseTray
  with_reducible (repeat' first
    | assumption | apply sound_setCause | apply sound_State_wr | apply sound_setDisc | apply Sound.ite | split | dsimp only)
theorem sound_bringDrum (n : Nat) (s : State) (h1 : Sound s) : Sound (bringDrum n s) := by
  unfold bringDrum
  with_reducible (repeat' first
    | assumption | intro _ | apply sound_putDrum | apply sound_State_wr | apply sound_unitRequestAll | apply sound_loadVoices
    | apply sound_applyDrumSeeds | apply sound_applyDrumRecs | apply sound_syncVoices | apply sound_senseTray | apply sound_State_wrB
    | apply sound_syncHeld | apply Sound.foldl | apply Snd.ite | apply Snd.foldl | apply Snd.out | apply wf_nil | refine Snd.of (by assumption) ?_
    | simp only [Snd.lit] | apply Sound.regs | apply Sound.flash | apply Sound.keeping | apply Sound.sdram | apply Sound.stage | apply Sound.porch
    | apply Sound.hwRam | apply Sound.bufEcc | apply Sound.keepEcc | apply Sound.hwEcc
    | (simp only [Sound.lit_iff]; refine ⟨?_, ?_, ?_, ?_, ?_, ?_, ?_, ?_, ?_, ?_⟩) | dsimp only)
theorem sound_drumsDone (s : State) (h0 : Sound s) : Sound (drumsDone s) := by
  unfold drumsDone
  with_reducible (repeat' first
    | assumption | apply sound_State_on | apply Sound.ite | split | dsimp only)
theorem sound_execDrumBringup (drum : Fin 2) (inSwitch : Bool) (outSwitch : Bool) (s0 : State) (h3 : Sound s0) : SoundRes (execDrumBringup drum inSwitch outSwitch s0) := by
  unfold execDrumBringup
  with_reducible (repeat' first
    | assumption | apply sound_State_wrB | apply sound_completes | apply sound_drumsDone | apply sound_bringDrum | apply Sound.ite | split
    | dsimp only)
theorem sound_connectLifted (t : Nat) (up : UpConnect) (s : State) (h2 : Sound s) : Sound (connectLifted t up s) := by
  unfold connectLifted
  with_reducible (repeat' first
    | assumption | apply sound_upConnect | apply Sound.ite | split | dsimp only)
theorem sound_execRescanComplete (rescan : Rescan) (s : State) (h1 : Sound s) : SoundRes (execRescanComplete rescan s) := by
  unfold execRescanComplete
  with_reducible (repeat' first
    | assumption | intro _ | apply sound_completes | apply sound_compareSeed | apply sound_takeSeed | apply sound_readSeed | apply sound_State_off
    | apply sound_seedEvent | apply sound_holdTiles | apply sound_connectLifted | apply sound_bringTile | apply sound_applyBoard | apply Sound.ite
    | apply Sound.foldl | apply Snd.ite | apply Snd.foldl | apply Snd.out | split | refine Snd.of (by assumption) ?_ | simp only [Snd.lit]
    | apply Sound.regs | apply Sound.flash | apply Sound.keeping | apply Sound.sdram | apply Sound.stage | apply Sound.porch | apply Sound.hwRam
    | apply Sound.bufEcc | apply Sound.keepEcc | apply Sound.hwEcc | (simp only [Sound.lit_iff]; refine ⟨?_, ?_, ?_, ?_, ?_, ?_, ?_, ?_, ?_, ?_⟩)
    | dsimp only)

end Sys2Proof.Machine
end

