-- ==== Sys2Proof/Laws/Sound5.lean ====
section
/-! SUPPORT. Each operation of Accept, Taproot, Dormant, Faults, Groves, Views, RegAccess, RbpDoor, Usb, Frames, Scsi, Tick, Step keeps a state sound: the operations named in a goal are taken off one by
one, each by its own lemma. -/
namespace Sys2Proof.Machine
set_option linter.unusedVariables false

theorem sound_clearBank (slot : Nat) (s : State) (h1 : Sound s) : Sound (clearBank slot s) := by
  unfold clearBank
  with_reducible (repeat' first
    | assumption | apply sound_State_rstAll | apply Sound.regs | apply Sound.flash | apply Sound.keeping | apply Sound.sdram | apply Sound.stage
    | apply Sound.porch | apply Sound.hwRam | apply Sound.bufEcc | apply Sound.keepEcc | apply Sound.hwEcc
    | (simp only [Sound.lit_iff]; refine ⟨?_, ?_, ?_, ?_, ?_, ?_, ?_, ?_, ?_, ?_⟩) | dsimp only)
theorem sound_clearBanks (s : State) (h0 : Sound s) : Sound (clearBanks s) := by
  unfold clearBanks
  with_reducible (repeat' first
    | assumption | intro _ | apply sound_clearBank | apply Sound.foldl | apply Snd.ite | apply Snd.foldl | apply Snd.out
    | refine Snd.of (by assumption) ?_ | simp only [Snd.lit] | dsimp only)
theorem sound_loadSlot (slot : Nat) (s : State) (h1 : Sound s) : Sound (loadSlot slot s) := by
  unfold loadSlot
  with_reducible (repeat' first
    | assumption | intro _ | apply sound_State_rstAll | apply sound_State_wr | apply sound_State_wrB | apply Sound.ite | apply Sound.foldl
    | apply Snd.ite | apply Snd.foldl | apply Snd.out | split | refine Snd.of (by assumption) ?_ | simp only [Snd.lit] | dsimp only)
theorem sound_loadPower (s : State) (h0 : Sound s) : Sound (loadPower s) := by
  unfold loadPower
  with_reducible (repeat' first
    | assumption | intro _ | apply sound_State_wr | apply sound_retryFailed | apply sound_tempoUpdate | apply Sound.ite | apply Sound.foldl
    | apply Snd.ite | apply Snd.foldl | apply Snd.out | split | refine Snd.of (by assumption) ?_ | simp only [Snd.lit] | dsimp only)
theorem sound_loadTile (t : Nat) (s : State) (h1 : Sound s) : Sound (loadTile t s) := by
  unfold loadTile
  with_reducible (repeat' first
    | assumption | apply sound_State_rstAll | apply sound_State_wr | apply sound_State_off | apply sound_State_wrB | apply Sound.ite | apply Snd.ite
    | apply Snd.out | split | refine Snd.of (by assumption) ?_ | simp only [Snd.lit] | dsimp only)
theorem sound_loadRbp (p : Nat) (s : State) (h1 : Sound s) : Sound (loadRbp p s) := by
  unfold loadRbp
  with_reducible (repeat' first
    | assumption | apply sound_State_rstAll | apply sound_State_wrB | apply sound_State_wr | split | dsimp only)
theorem sound_releaseRd (s : State) (h0 : Sound s) : Sound (releaseRd s) := by
  unfold releaseRd
  with_reducible (repeat' first
    | assumption | intro _ | apply sound_State_wr | apply sound_State_off | apply Sound.foldl | apply Snd.ite | apply Snd.foldl | apply Snd.out
    | refine Snd.of (by assumption) ?_ | simp only [Snd.lit] | dsimp only)
theorem sound_loadTrunk (s0 : State) (h0 : Sound s0) : Sound (loadTrunk s0) := by
  unfold loadTrunk
  with_reducible (repeat' first
    | assumption | intro _ | apply sound_senseKeep | apply sound_State_wr | apply sound_State_wrB | apply sound_setCause | apply sound_unitRequestAll
    | apply sound_setRoutes | apply sound_setPort | apply sound_putTrunk | apply sound_syncTrunk | apply sound_crownMarks | apply sound_State_on
    | apply Sound.ite | apply Sound.foldl | apply Snd.ite | apply Snd.foldl | apply Snd.out | apply Tab.wf_filter | apply Tab.rising_filter | split
    | refine Snd.of (by assumption) ?_ | simp only [Snd.lit] | dsimp only)
theorem sound_endImplicit (s : State) (h0 : Sound s) : Sound (endImplicit s) := by
  unfold endImplicit
  with_reducible (repeat' first
    | assumption | apply sound_upGone | split | dsimp only)
theorem sound_applyStream (st : Stream) (op : LoadOp) (src : Nat) (s0 : State) (h3 : Sound s0) : Sound (applyStream st op src s0) := by
  unfold applyStream
  with_reducible (repeat' first
    | assumption | intro _ | apply sound_endImplicit | apply sound_extendEvent | apply sound_wrList | apply sound_State_wr | apply sound_State_wrB
    | apply sound_loadSlot | apply sound_loadPower | apply sound_clearBanks | apply sound_loadTile | apply sound_loadRbp | apply sound_resetUart
    | apply sound_loadTrunk | apply sound_loadSeal | apply sound_State_rstAll | apply sound_applyBackplane | apply sound_compareSeeds
    | apply Sound.ite | apply Sound.foldl | apply Snd.ite | apply Snd.foldl | apply Snd.out | apply wf_nil | split | refine Snd.of (by assumption) ?_
    | simp only [Snd.lit] | apply Sound.regs | apply Sound.flash | apply Sound.keeping | apply Sound.sdram | apply Sound.stage | apply Sound.porch
    | apply Sound.hwRam | apply Sound.bufEcc | apply Sound.keepEcc | apply Sound.hwEcc
    | (simp only [Sound.lit_iff]; refine ⟨?_, ?_, ?_, ?_, ?_, ?_, ?_, ?_, ?_, ?_⟩) | dsimp only)
theorem sound_execCanopyChecksComplete (s : State) (h0 : Sound s) : SoundRes (execCanopyChecksComplete s) := by
  unfold execCanopyChecksComplete
  with_reducible (repeat' first
    | assumption | apply sound_completes | apply sound_State_off | apply sound_State_wr | apply sound_releaseRd | apply sound_applyStream
    | apply sound_flushHeld | apply sound_State_on | apply Sound.ite | split | apply Sound.regs | apply Sound.flash | apply Sound.keeping
    | apply Sound.sdram | apply Sound.stage | apply Sound.porch | apply Sound.hwRam | apply Sound.bufEcc | apply Sound.keepEcc | apply Sound.hwEcc
    | (simp only [Sound.lit_iff]; refine ⟨?_, ?_, ?_, ?_, ?_, ?_, ?_, ?_, ?_, ?_⟩) | dsimp only)
theorem sound_postRecord (slot : Nat) (q : Nat) (ty : Nat) (dev : Nat) (flags : Nat) (len : Nat) (body : List Nat) (s : State) (h7 : Sound s) : Sound (postRecord slot q ty dev flags len body s) := by
  unfold postRecord
  with_reducible (repeat' first
    | assumption | apply sound_raiseDrops | apply sound_enterRecord | dsimp only)
theorem sound_control (slot : Nat) (h : Nat) (setup : List Nat) (data : List Nat) (s : State) (h4 : Sound s) : Sound (control slot h setup data s) := by
  unfold control
  with_reducible (repeat' first
    | assumption | apply sound_State_emit | dsimp only)
theorem sound_sendLine (slot : Nat) (h : Nat) (coding : List Nat) (lines : Nat) (s : State) (h4 : Sound s) : Sound (sendLine slot h coding lines s) := by
  unfold sendLine
  with_reducible (repeat' first
    | assumption | apply sound_State_emit | dsimp only)
theorem sound_setUpOne (slot : Nat) (h : Nat) (s : State) (e : Nat × Nat) (h2 : Sound s) : Sound (setUpOne slot h s e) := by
  unfold setUpOne
  with_reducible (repeat' first
    | assumption | apply sound_control | apply sound_State_emit | apply sound_sendLine | apply Snd.ite | apply Snd.out | split
    | refine Snd.of (by assumption) ?_ | simp only [Snd.lit] | dsimp only)
theorem sound_setUp (slot : Nat) (h : Nat) (binds : List (Nat × Nat)) (s : State) (h3 : Sound s) : Sound (setUp slot h binds s) := by
  unfold setUp
  with_reducible (repeat' first
    | assumption | apply sound_setUpOne | apply Sound.foldl | apply Snd.ite | apply Snd.foldl | apply Snd.out | refine Snd.of (by assumption) ?_
    | simp only [Snd.lit] | dsimp only)
theorem sound_postAttach (slot : Nat) (d : TapDev) (flags : Nat) (s : State) (h3 : Sound s) : Sound (postAttach slot d flags s) := by
  unfold postAttach
  with_reducible (repeat' first
    | assumption | apply sound_postRecord | dsimp only)
theorem sound_endTries (slot : Nat) (f : Found) (s : State) (h2 : Sound s) : Sound (endTries slot f s) := by
  unfold endTries
  with_reducible (repeat' first
    | assumption | intro _ | apply sound_changeBus | apply Snd.ite | apply Snd.out | apply Tab.wf_filter | apply Tab.rising_filter
    | refine Snd.of (by assumption) ?_ | simp only [Snd.lit] | apply Sound.regs | apply Sound.flash | apply Sound.keeping | apply Sound.sdram
    | apply Sound.stage | apply Sound.porch | apply Sound.hwRam | apply Sound.bufEcc | apply Sound.keepEcc | apply Sound.hwEcc
    | (simp only [Sound.lit_iff]; refine ⟨?_, ?_, ?_, ?_, ?_, ?_, ?_, ?_, ?_, ?_⟩) | dsimp only)
theorem sound_disablePlace (slot : Nat) (f : Found) (s : State) (h2 : Sound s) : Sound (disablePlace slot f s) := by
  unfold disablePlace
  with_reducible (repeat' first
    | assumption | intro _ | apply sound_changeBus | apply sound_endTries | apply sound_State_off | apply Sound.ite | split | apply Sound.regs
    | apply Sound.flash | apply Sound.keeping | apply Sound.sdram | apply Sound.stage | apply Sound.porch | apply Sound.hwRam | apply Sound.bufEcc
    | apply Sound.keepEcc | apply Sound.hwEcc | (simp only [Sound.lit_iff]; refine ⟨?_, ?_, ?_, ?_, ?_, ?_, ?_, ?_, ?_, ?_⟩) | dsimp only)
theorem sound_resetPlace (slot : Nat) (root : Nat) (hub1 : Nat) (hub2 : Nat) (s : State) (h4 : Sound s) : Sound (resetPlace slot root hub1 hub2 s) := by
  unfold resetPlace
  with_reducible (repeat' first
    | assumption | apply sound_State_bump | apply sound_control | apply Sound.ite | apply Snd.ite | apply Snd.out | split
    | refine Snd.of (by assumption) ?_ | simp only [Snd.lit] | dsimp only)
theorem sound_enableRoot (slot : Nat) (f : Found) (s : State) (h2 : Sound s) : Sound (enableRoot slot f s) := by
  unfold enableRoot
  with_reducible (repeat' first
    | assumption | apply sound_setSpeed | apply sound_setLink | apply sound_State_on | apply Sound.ite | split | dsimp only)
theorem sound_enumFails (slot : Nat) (f : Found) (reason : Nat) (s : State) (h3 : Sound s) : Sound (enumFails slot f reason s) := by
  unfold enumFails
  with_reducible (repeat' first
    | assumption | intro _ | apply sound_occur | apply sound_changeBus | apply sound_postRecord | apply sound_disablePlace | apply Sound.ite
    | apply Snd.ite | apply Snd.out | apply Tab.wf_filter | apply Tab.rising_filter | split | refine Snd.of (by assumption) ?_ | simp only [Snd.lit]
    | apply Sound.regs | apply Sound.flash | apply Sound.keeping | apply Sound.sdram | apply Sound.stage | apply Sound.porch | apply Sound.hwRam
    | apply Sound.bufEcc | apply Sound.keepEcc | apply Sound.hwEcc | (simp only [Sound.lit_iff]; refine ⟨?_, ?_, ?_, ?_, ?_, ?_, ?_, ?_, ?_, ?_⟩)
    | dsimp only)
theorem sound_askDevice (slot : Nat) (d : TapDev) (s : State) (h2 : Sound s) : Sound (askDevice slot d s) := by
  unfold askDevice
  with_reducible (repeat' first
    | assumption | apply sound_control | dsimp only)
theorem sound_announce (slot : Nat) (d : TapDev) (s : State) (h2 : Sound s) : Sound (announce slot d s) := by
  unfold announce
  with_reducible (repeat' first
    | assumption | apply sound_postAttach | apply Sound.ite | split | dsimp only)
theorem sound_execTaprootEnumerate (slot : Fin 8) (dev : Found) (failure : Option Nat) (s : State) (h3 : Sound s) : SoundRes (execTaprootEnumerate slot dev failure s) := by
  unfold execTaprootEnumerate
  with_reducible (repeat' first
    | assumption | intro _ | apply sound_completes | apply sound_postRecord | apply sound_disablePlace | apply sound_resetPlace
    | apply sound_enumFails | apply sound_announce | apply sound_setUp | apply sound_askDevice | apply sound_changeBus | apply sound_enableRoot
    | apply sound_endTries | apply Sound.ite | apply Snd.ite | apply Snd.out | split | refine Snd.of (by assumption) ?_ | simp only [Snd.lit]
    | apply Sound.regs | apply Sound.flash | apply Sound.keeping | apply Sound.sdram | apply Sound.stage | apply Sound.porch | apply Sound.hwRam
    | apply Sound.bufEcc | apply Sound.keepEcc | apply Sound.hwEcc | (simp only [Sound.lit_iff]; refine ⟨?_, ?_, ?_, ?_, ?_, ?_, ?_, ?_, ?_, ?_⟩)
    | dsimp only)
theorem sound_report (slot : Nat) (h : Nat) (svc : Nat) (f : TapDev → State → State) (s : State) (h3 : ∀ y0 y1, Sound y1 → Sound (f y0 y1)) (h4 : Sound s) : Sound (report slot h svc f s) := by
  unfold report
  with_reducible (repeat' first
    | assumption | intro _ | apply h3 | apply Sound.ite | split | dsimp only)
theorem sound_execKeyboardReport (slot : Fin 8) (handle : Nat) (report : List Nat) (s : State) (h3 : Sound s) : SoundRes (execKeyboardReport slot handle report s) := by
  unfold execKeyboardReport
  with_reducible (repeat' first
    | assumption | intro _ | apply sound_completes | apply sound_report | apply sound_raiseDrops | apply sound_postKeys | apply sound_changeDev
    | apply Sound.ite | apply Tab.wf_filter | apply Tab.rising_filter | split | apply Sound.regs | apply Sound.flash | apply Sound.keeping
    | apply Sound.sdram | apply Sound.stage | apply Sound.porch | apply Sound.hwRam | apply Sound.bufEcc | apply Sound.keepEcc | apply Sound.hwEcc
    | (simp only [Sound.lit_iff]; refine ⟨?_, ?_, ?_, ?_, ?_, ?_, ?_, ?_, ?_, ?_⟩) | dsimp only)
theorem sound_execPointerReport (slot : Fin 8) (handle : Nat) (report : List Nat) (s : State) (h3 : Sound s) : SoundRes (execPointerReport slot handle report s) := by
  unfold execPointerReport
  with_reducible (repeat' first
    | assumption | intro _ | apply sound_completes | apply sound_report | apply sound_changeDev | apply sound_changeBus | apply sound_postRecord
    | apply Sound.ite | split | apply Sound.regs | apply Sound.flash | apply Sound.keeping | apply Sound.sdram | apply Sound.stage | apply Sound.porch
    | apply Sound.hwRam | apply Sound.bufEcc | apply Sound.keepEcc | apply Sound.hwEcc
    | (simp only [Sound.lit_iff]; refine ⟨?_, ?_, ?_, ?_, ?_, ?_, ?_, ?_, ?_, ?_⟩) | dsimp only)
theorem sound_execPadReport (slot : Fin 8) (handle : Nat) (iface : Nat) (id : Nat) (body : List Nat) (s : State) (h5 : Sound s) : SoundRes (execPadReport slot handle iface id body s) := by
  unfold execPadReport
  with_reducible (repeat' first
    | assumption | intro _ | apply sound_completes | apply sound_report | apply sound_changeBus | apply sound_postRecord | apply Sound.ite
    | apply Snd.ite | apply Snd.out | split | refine Snd.of (by assumption) ?_ | simp only [Snd.lit] | dsimp only [id])
theorem sound_resumeDev (slot : Nat) (h : Nat) (s : State) (h2 : Sound s) : Sound (resumeDev slot h s) := by
  unfold resumeDev
  with_reducible (repeat' first
    | assumption | intro _ | apply sound_changeBus | apply sound_State_wr | apply sound_setLink | apply Sound.ite | split | apply Sound.regs
    | apply Sound.flash | apply Sound.keeping | apply Sound.sdram | apply Sound.stage | apply Sound.porch | apply Sound.hwRam | apply Sound.bufEcc
    | apply Sound.keepEcc | apply Sound.hwEcc | (simp only [Sound.lit_iff]; refine ⟨?_, ?_, ?_, ?_, ?_, ?_, ?_, ?_, ?_, ?_⟩) | dsimp only)
theorem sound_execLeds (slot : Fin 8) (s : State) (h1 : Sound s) : SoundRes (execLeds slot s) := by
  unfold execLeds
  with_reducible (repeat' first
    | assumption | apply sound_completes | apply sound_resumeDev | apply sound_changeBus | apply sound_State_emit | apply Sound.ite | split
    | dsimp only)
theorem sound_endBlock (slot : Nat) (h : Nat) (e : List Nat) (s : State) (h3 : Sound s) : Sound (endBlock slot h e s) := by
  unfold endBlock
  with_reducible (repeat' first
    | assumption | intro _ | apply sound_changeDev | apply Sound.regs | apply Sound.flash | apply Sound.keeping | apply Sound.sdram
    | apply Sound.stage | apply Sound.porch | apply Sound.hwRam | apply Sound.bufEcc | apply Sound.keepEcc | apply Sound.hwEcc
    | (simp only [Sound.lit_iff]; refine ⟨?_, ?_, ?_, ?_, ?_, ?_, ?_, ?_, ?_, ?_⟩) | dsimp only)
theorem sound_endOrRun (slot : Nat) (h : Nat) (result : BlockEnd) (done : Nat) (e : List Nat) (s : State) (h5 : Sound s) : Sound (endOrRun slot h result done e s) := by
  unfold endOrRun
  with_reducible (repeat' first
    | assumption | intro _ | apply sound_changeDev | apply sound_endBlock | apply Sound.ite | split | apply Sound.regs | apply Sound.flash
    | apply Sound.keeping | apply Sound.sdram | apply Sound.stage | apply Sound.porch | apply Sound.hwRam | apply Sound.bufEcc | apply Sound.keepEcc
    | apply Sound.hwEcc | (simp only [Sound.lit_iff]; refine ⟨?_, ?_, ?_, ?_, ?_, ?_, ?_, ?_, ?_, ?_⟩) | dsimp only)
theorem sound_putBlocks (slot : Nat) (bs : Nat) (addr : Nat) : ∀ (z3 : Nat) (z4 : List Nat) (z5 : Nat) (z6 : State) (h6 : Sound z6), Thd (putBlocks slot bs addr z3 z4 z5 z6) := by
  intro z3
  induction z3 with
  | zero =>
    intros
    unfold putBlocks
    with_reducible (repeat' first
      | assumption | apply sound_unitWrite | apply Sound.ite | apply Thd.ite | apply Thd.out | apply Snd.ite | apply Snd.out | apply Thd.rest | split
      | refine Thd.of (by assumption) ?_ | refine Snd.of (by assumption) ?_ | simp only [Thd.lit] | simp only [Snd.lit] | apply Thd.pair | dsimp only)
  | succ _ ih =>
    intros
    unfold putBlocks
    with_reducible (repeat' first
      | assumption | apply sound_unitWrite | apply ih | apply Sound.ite | apply Thd.ite | apply Thd.out | apply Snd.ite | apply Snd.out
      | apply Thd.rest | split | refine Thd.of (by assumption) ?_ | refine Snd.of (by assumption) ?_ | simp only [Thd.lit] | simp only [Snd.lit]
      | apply Thd.pair | dsimp only)
theorem sound_getBlocks (slot : Nat) (bs : Nat) (addr : Nat) (h : Nat) : ∀ (z4 : Nat) (z5 : Nat) (z6 : State) (h6 : Sound z6), Thd (getBlocks slot bs addr h z4 z5 z6) := by
  intro z4
  induction z4 with
  | zero =>
    intros
    unfold getBlocks
    with_reducible (repeat' first
      | assumption | apply sound_unitRead | apply sound_State_emit | apply Sound.ite | apply Thd.ite | apply Thd.out | apply Snd.ite | apply Snd.out
      | apply Thd.rest | split | refine Thd.of (by assumption) ?_ | refine Snd.of (by assumption) ?_ | simp only [Thd.lit] | simp only [Snd.lit]
      | apply Thd.pair | dsimp only)
  | succ _ ih =>
    intros
    unfold getBlocks
    with_reducible (repeat' first
      | assumption | apply sound_unitRead | apply sound_State_emit | apply ih | apply Sound.ite | apply Thd.ite | apply Thd.out | apply Snd.ite
      | apply Snd.out | apply Thd.rest | split | refine Thd.of (by assumption) ?_ | refine Snd.of (by assumption) ?_ | simp only [Thd.lit]
      | simp only [Snd.lit] | apply Thd.pair | dsimp only)
theorem sound_resetRecovery (slot : Nat) (d : TapDev) (s : State) (h2 : Sound s) : Sound (resetRecovery slot d s) := by
  unfold resetRecovery
  with_reducible (repeat' first
    | assumption | intro _ | apply sound_control | apply Sound.foldl | apply Snd.ite | apply Snd.foldl | apply Snd.out | apply Tab.wf_filter
    | apply Tab.rising_filter | refine Snd.of (by assumption) ?_ | simp only [Snd.lit] | dsimp only)
theorem sound_afterCommand (slot : Nat) (d : TapDev) (result : BlockEnd) (s : State) (h3 : Sound s) : Sound (afterCommand slot d result s) := by
  unfold afterCommand
  with_reducible (repeat' first
    | assumption | apply sound_State_emit | apply sound_resetRecovery | split | dsimp only)
theorem sound_runBlocks (slot : Nat) (h : Nat) (write : Bool) (move : TapDev → List Nat → Nat → State → Nat × Bool × State) (result : BlockEnd) (s : State) (h3 : ∀ y0 y1 y2 y3, Sound y3 → Thd (move y0 y1 y2 y3)) (h5 : Sound s) : Sound (runBlocks slot h write move result s) := by
  unfold runBlocks
  with_reducible (repeat' first
    | assumption | intro _ | apply sound_resumeDev | apply sound_endBlock | apply sound_memRefuse | apply sound_sweepUse | apply sound_State_emit
    | apply sound_afterCommand | apply sound_endOrRun | apply h3 | apply Sound.ite | apply Thd.ite | apply Thd.out | apply Snd.ite | apply Snd.out
    | apply Thd.rest | split | refine Thd.of (by assumption) ?_ | refine Snd.of (by assumption) ?_ | simp only [Thd.lit] | simp only [Snd.lit]
    | apply Thd.pair | dsimp only)
theorem sound_execBlockRead (slot : Fin 8) (handle : Nat) (data : List Nat) (result : BlockEnd) (s : State) (h4 : Sound s) : SoundRes (execBlockRead slot handle data result s) := by
  unfold execBlockRead
  with_reducible (repeat' first
    | assumption | intro _ | apply sound_completes | apply sound_runBlocks | apply sound_putBlocks | apply Thd.ite | apply Thd.out | apply Snd.ite
    | apply Snd.out | apply Thd.rest | refine Thd.of (by assumption) ?_ | simp only [Thd.lit] | apply Thd.pair | dsimp only)
theorem sound_execBlockWrite (slot : Fin 8) (handle : Nat) (acked : Nat) (result : BlockEnd) (s : State) (h4 : Sound s) : SoundRes (execBlockWrite slot handle acked result s) := by
  unfold execBlockWrite
  with_reducible (repeat' first
    | assumption | intro _ | apply sound_completes | apply sound_runBlocks | apply sound_getBlocks | apply Thd.ite | apply Thd.out | apply Snd.ite
    | apply Snd.out | apply Thd.rest | refine Thd.of (by assumption) ?_ | refine Snd.of (by assumption) ?_ | simp only [Thd.lit] | simp only [Snd.lit]
    | apply Thd.pair | dsimp only)
theorem sound_execCapacity (slot : Fin 8) (handle : Nat) (blocks : Nat) (size : Nat) (result : BlockEnd) (s : State) (h5 : Sound s) : SoundRes (execCapacity slot handle blocks size result s) := by
  unfold execCapacity
  with_reducible (repeat' first
    | assumption | apply sound_completes | apply sound_resumeDev | apply sound_endOrRun | apply sound_afterCommand | apply sound_State_emit
    | apply Sound.ite | apply Snd.ite | apply Snd.out | split | refine Snd.of (by assumption) ?_ | simp only [Snd.lit] | dsimp only)
theorem sound_execBlockRequestDone (slot : Fin 8) (handle : Nat) (s : State) (h2 : Sound s) : SoundRes (execBlockRequestDone slot handle s) := by
  unfold execBlockRequestDone
  with_reducible (repeat' first
    | assumption | intro _ | apply sound_completes | apply sound_raiseDrops | apply sound_postDone | apply sound_changeDev | apply sound_changeBus
    | split | apply Sound.regs | apply Sound.flash | apply Sound.keeping | apply Sound.sdram | apply Sound.stage | apply Sound.porch
    | apply Sound.hwRam | apply Sound.bufEcc | apply Sound.keepEcc | apply Sound.hwEcc
    | (simp only [Sound.lit_iff]; refine ⟨?_, ?_, ?_, ?_, ?_, ?_, ?_, ?_, ?_, ?_⟩) | dsimp only)
theorem sound_takeSerial (slot : Nat) (h : Nat) (s : State) (h2 : Sound s) : Sound (takeSerial slot h s) := by
  unfold takeSerial
  with_reducible (repeat' first
    | assumption | intro _ | apply sound_resumeDev | apply sound_changeBus | dsimp only)
theorem sound_execTx (slot : Fin 8) (handle : Nat) (s : State) (h2 : Sound s) : SoundRes (execTx slot handle s) := by
  unfold execTx
  with_reducible (repeat' first
    | assumption | apply sound_completes | apply sound_takeSerial | apply sound_State_emit | split | dsimp only)
theorem sound_execLine (slot : Fin 8) (handle : Nat) (s : State) (h2 : Sound s) : SoundRes (execLine slot handle s) := by
  unfold execLine
  with_reducible (repeat' first
    | assumption | apply sound_completes | apply sound_sendLine | apply sound_takeSerial | split | dsimp only)
theorem sound_rxBytes (slot : Nat) (h : Nat) : ∀ (z2 : List Nat) (z3 : State) (h3 : Sound z3), Sound (rxBytes slot h z2 z3) := by
  intro z2
  induction z2 with
  | nil =>
    intros
    unfold rxBytes
    with_reducible (repeat' first
      | assumption | intro _ | apply sound_changeBus | apply sound_postRecord | apply Sound.ite | split | dsimp only)
  | cons _ _ ih =>
    intros
    unfold rxBytes
    with_reducible (repeat' first
      | assumption | intro _ | apply sound_changeBus | apply sound_postRecord | apply ih | apply Sound.ite | split | dsimp only)
theorem sound_execSerialRxData (slot : Fin 8) (handle : Nat) (data : List Nat) (s : State) (h3 : Sound s) : SoundRes (execSerialRxData slot handle data s) := by
  unfold execSerialRxData
  with_reducible (repeat' first
    | assumption | intro _ | apply sound_completes | apply sound_report | apply sound_rxBytes | dsimp only)
theorem sound_execSerialStateNotify (slot : Fin 8) (handle : Nat) (bits : Nat) (s : State) (h3 : Sound s) : SoundRes (execSerialStateNotify slot handle bits s) := by
  unfold execSerialStateNotify
  with_reducible (repeat' first
    | assumption | intro _ | apply sound_completes | apply sound_report | apply sound_postRecord | dsimp only)
theorem sound_movePacket (slot : Nat) (d : List Nat) (isIn : Bool) (i : Nat) (data : List Nat) (x : Pipe) (s : State) (h6 : Sound s) : Snd (movePacket slot d isIn i data x s) := by
  unfold movePacket
  with_reducible (repeat' first
    | assumption | apply sound_State_emit | apply sound_memRefuse | apply sound_unitWrite | apply sound_unitRead | apply Sound.ite | apply Snd.ite
    | apply Snd.out | split | refine Snd.of (by assumption) ?_ | simp only [Snd.lit] | apply Sound.regs | apply Sound.flash | apply Sound.keeping
    | apply Sound.sdram | apply Sound.stage | apply Sound.porch | apply Sound.hwRam | apply Sound.bufEcc | apply Sound.keepEcc | apply Sound.hwEcc
    | (simp only [Sound.lit_iff]; refine ⟨?_, ?_, ?_, ?_, ?_, ?_, ?_, ?_, ?_, ?_⟩) | dsimp only)
theorem sound_movePackets (slot : Nat) (d : List Nat) (isIn : Bool) (data : List Nat) : ∀ (z4 : Nat) (z5 : Nat) (z6 : Pipe × State) (h6 : Snd z6), Snd (movePackets slot d isIn data z4 z5 z6) := by
  intro z4
  induction z4 with
  | zero =>
    intros
    unfold movePackets
    with_reducible (repeat' first
      | assumption | apply sound_movePacket | apply Sound.ite | apply Snd.ite | apply Snd.out | split | refine Snd.of (by assumption) ?_
      | simp only [Snd.lit] | dsimp only)
  | succ _ ih =>
    intros
    unfold movePackets
    with_reducible (repeat' first
      | assumption | apply sound_movePacket | apply ih | apply Sound.ite | apply Snd.ite | apply Snd.out | split | refine Snd.of (by assumption) ?_
      | simp only [Snd.lit] | dsimp only)
theorem sound_execPipeTransfer (slot : Fin 8) (pipe : Fin 8) (packets : Nat) (retries : Nat) (data : List Nat) (s : State) (h5 : Sound s) : SoundRes (execPipeTransfer slot pipe packets retries data s) := by
  unfold execPipeTransfer
  with_reducible (repeat' first
    | assumption | intro _ | apply sound_completes | apply sound_resumeDev | apply sound_State_emit | apply sound_sweepUse | apply sound_movePackets
    | apply sound_putPipe | apply sound_State_bump | apply Sound.ite | apply Snd.ite | apply Snd.out | split | refine Snd.of (by assumption) ?_
    | simp only [Snd.lit] | apply Sound.regs | apply Sound.flash | apply Sound.keeping | apply Sound.sdram | apply Sound.stage | apply Sound.porch
    | apply Sound.hwRam | apply Sound.bufEcc | apply Sound.keepEcc | apply Sound.hwEcc
    | (simp only [Sound.lit_iff]; refine ⟨?_, ?_, ?_, ?_, ?_, ?_, ?_, ?_, ?_, ?_⟩) | dsimp only)
theorem sound_stallPipe (slot : Nat) (k : Nat) (s : State) (h2 : Sound s) : Sound (stallPipe slot k s) := by
  unfold stallPipe
  with_reducible (repeat' first
    | assumption | intro _ | apply sound_endTransfers | apply sound_putPipe | split | apply Sound.regs | apply Sound.flash | apply Sound.keeping
    | apply Sound.sdram | apply Sound.stage | apply Sound.porch | apply Sound.hwRam | apply Sound.bufEcc | apply Sound.keepEcc | apply Sound.hwEcc
    | (simp only [Sound.lit_iff]; refine ⟨?_, ?_, ?_, ?_, ?_, ?_, ?_, ?_, ?_, ?_⟩) | dsimp only)
theorem sound_failLast (slot : Nat) (k : Nat) (s : State) (h2 : Sound s) : Sound (failLast slot k s) := by
  unfold failLast
  with_reducible (repeat' first
    | assumption | apply sound_putPipe | apply Sound.ite | split | apply Sound.regs | apply Sound.flash | apply Sound.keeping | apply Sound.sdram
    | apply Sound.stage | apply Sound.porch | apply Sound.hwRam | apply Sound.bufEcc | apply Sound.keepEcc | apply Sound.hwEcc
    | (simp only [Sound.lit_iff]; refine ⟨?_, ?_, ?_, ?_, ?_, ?_, ?_, ?_, ?_, ?_⟩) | dsimp only)
theorem sound_statusStage (slot : Nat) (x : Pipe) (d : List Nat) (s : State) (h3 : Sound s) : Sound (statusStage slot x d s) := by
  unfold statusStage
  with_reducible (repeat' first
    | assumption | apply sound_State_emit | apply Sound.ite | split | dsimp only)
theorem sound_execPipeTransferEnd (slot : Fin 8) (pipe : Fin 8) (result : PipeEnd) (s : State) (h3 : Sound s) : SoundRes (execPipeTransferEnd slot pipe result s) := by
  unfold execPipeTransferEnd
  with_reducible (repeat' first
    | assumption | apply sound_completes | apply sound_endTransfer | apply sound_statusStage | apply sound_stallPipe | apply sound_failLast
    | apply sound_raiseDrops | apply sound_pipeEvent | apply Sound.ite | split | dsimp only)
theorem sound_execPipeTransferTimeout (slot : Fin 8) (pipe : Fin 8) (s : State) (h2 : Sound s) : SoundRes (execPipeTransferTimeout slot pipe s) := by
  unfold execPipeTransferTimeout
  with_reducible (repeat' first
    | assumption | apply sound_completes | apply sound_endTransfer | apply sound_failLast | apply sound_raiseDrops | apply sound_pipeEvent
    | apply Sound.ite | split | dsimp only)
theorem sound_tapMail (slot : Nat) (op : Nat) (len : Nat) (h : List Nat → State → MailAnswer) (s : State) (h3 : ∀ y0 y1, Sound y1 → Thd (h y0 y1)) (h4 : Sound s) : Sound (tapMail slot op len h s) := by
  unfold tapMail
  with_reducible (repeat' first
    | assumption | intro _ | apply sound_serveMail | apply sound_failMail | apply h3 | apply Sound.ite | apply Thd.ite | apply Thd.out | apply Snd.ite
    | apply Snd.out | apply Thd.rest | split | refine Thd.of (by assumption) ?_ | simp only [Thd.lit] | apply Thd.pair | dsimp only)
theorem sound_withDev (slot : Nat) (i : Nat) (b : List Nat) (s : State) (h : TapDev → MailAnswer) (h3 : Sound s) (h4 : ∀ y0, Thd (h y0)) : Thd (withDev slot i b s h) := by
  unfold withDev
  with_reducible (repeat' first
    | assumption | intro _ | apply sound_failMail | apply h4 | apply Thd.ite | apply Thd.out | apply Snd.ite | apply Snd.out | apply Thd.rest | split
    | refine Thd.of (by assumption) ?_ | simp only [Thd.lit] | apply Thd.pair | dsimp only)
theorem sound_execDeviceInfo (slot : Fin 8) (s : State) (h1 : Sound s) : SoundRes (execDeviceInfo slot s) := by
  unfold execDeviceInfo
  with_reducible (repeat' first
    | assumption | intro _ | apply sound_completes | apply sound_tapMail | apply sound_withDev | apply sound_okMail | apply Thd.ite | apply Thd.out
    | apply Snd.ite | apply Snd.out | apply Thd.rest | refine Thd.of (by assumption) ?_ | simp only [Thd.lit] | apply Thd.pair | dsimp only)
theorem sound_execDescriptorRead (slot : Fin 8) (s : State) (h1 : Sound s) : SoundRes (execDescriptorRead slot s) := by
  unfold execDescriptorRead
  with_reducible (repeat' first
    | assumption | intro _ | apply sound_completes | apply sound_tapMail | apply sound_withDev | apply sound_failMail | apply sound_okMail
    | apply Sound.ite | apply Thd.ite | apply Thd.out | apply Snd.ite | apply Snd.out | apply Thd.rest | split | refine Thd.of (by assumption) ?_
    | simp only [Thd.lit] | apply Thd.pair | dsimp only)
theorem sound_closeDevicePipes (slot : Nat) (h : Nat) (cancelled : Bool) (source : Nat) (s : State) (h4 : Sound s) : Sound (closeDevicePipes slot h cancelled source s) := by
  unfold closeDevicePipes
  with_reducible (repeat' first
    | assumption | intro _ | apply sound_closePipe | apply Sound.ite | apply Sound.foldl | apply Snd.ite | apply Snd.foldl | apply Snd.out | split
    | refine Snd.of (by assumption) ?_ | simp only [Snd.lit] | dsimp only)
theorem sound_execClaim (slot : Fin 8) (s : State) (h1 : Sound s) : SoundRes (execClaim slot s) := by
  unfold execClaim
  with_reducible (repeat' first
    | assumption | intro _ | apply sound_completes | apply sound_tapMail | apply sound_withDev | apply sound_failMail | apply sound_okMail
    | apply sound_changeBus | apply sound_changeDev | apply sound_closeDevicePipes | apply sound_setUp | apply Sound.ite | apply Thd.ite
    | apply Thd.out | apply Snd.ite | apply Snd.out | apply Thd.rest | apply Tab.wf_filter | apply Tab.rising_filter | apply wf_nil | split
    | refine Thd.of (by assumption) ?_ | refine Snd.of (by assumption) ?_ | simp only [Thd.lit] | simp only [Snd.lit] | apply Thd.pair
    | apply Sound.regs | apply Sound.flash | apply Sound.keeping | apply Sound.sdram | apply Sound.stage | apply Sound.porch | apply Sound.hwRam
    | apply Sound.bufEcc | apply Sound.keepEcc | apply Sound.hwEcc | (simp only [Sound.lit_iff]; refine ⟨?_, ?_, ?_, ?_, ?_, ?_, ?_, ?_, ?_, ?_⟩)
    | dsimp only)
theorem sound_execPipeOpen (slot : Fin 8) (s : State) (h1 : Sound s) : SoundRes (execPipeOpen slot s) := by
  unfold execPipeOpen
  with_reducible (repeat' first
    | assumption | intro _ | apply sound_completes | apply sound_tapMail | apply sound_failMail | apply sound_withDev | apply sound_okMail
    | apply sound_putPipe | apply Sound.ite | apply Thd.ite | apply Thd.out | apply Snd.ite | apply Snd.out | apply Thd.rest | split
    | refine Thd.of (by assumption) ?_ | refine Snd.of (by assumption) ?_ | simp only [Thd.lit] | simp only [Snd.lit] | apply Thd.pair | dsimp only)
theorem sound_execPipeClose (slot : Fin 8) (s : State) (h1 : Sound s) : SoundRes (execPipeClose slot s) := by
  unfold execPipeClose
  with_reducible (repeat' first
    | assumption | intro _ | apply sound_completes | apply sound_tapMail | apply sound_failMail | apply sound_okMail | apply sound_closePipe
    | apply Sound.ite | apply Thd.ite | apply Thd.out | apply Snd.ite | apply Snd.out | apply Thd.rest | split | refine Thd.of (by assumption) ?_
    | simp only [Thd.lit] | apply Thd.pair | dsimp only)
theorem sound_execPipeClearHalt (slot : Fin 8) (s : State) (h1 : Sound s) : SoundRes (execPipeClearHalt slot s) := by
  unfold execPipeClearHalt
  with_reducible (repeat' first
    | assumption | intro _ | apply sound_completes | apply sound_tapMail | apply sound_failMail | apply sound_okMail | apply sound_putPipe
    | apply sound_State_emit | apply Sound.ite | apply Thd.ite | apply Thd.out | apply Snd.ite | apply Snd.out | apply Thd.rest | split
    | refine Thd.of (by assumption) ?_ | simp only [Thd.lit] | apply Thd.pair | apply Sound.regs | apply Sound.flash | apply Sound.keeping
    | apply Sound.sdram | apply Sound.stage | apply Sound.porch | apply Sound.hwRam | apply Sound.bufEcc | apply Sound.keepEcc | apply Sound.hwEcc
    | (simp only [Sound.lit_iff]; refine ⟨?_, ?_, ?_, ?_, ?_, ?_, ?_, ?_, ?_, ?_⟩) | dsimp only)
theorem sound_permitWake (slot : Nat) (s : State) (d : TapDev) (h1 : Sound s) : Sound (permitWake slot s d) := by
  unfold permitWake
  with_reducible (repeat' first
    | assumption | apply sound_control | apply Sound.ite | split | dsimp only)
theorem sound_suspendBus (slot : Nat) (on : Bool) (s0 : State) (h2 : Sound s0) : Sound (suspendBus slot on s0) := by
  unfold suspendBus
  with_reducible (repeat' first
    | assumption | intro _ | apply sound_State_on | apply sound_permitWake | apply sound_changeBus | apply sound_State_wr | apply sound_setLink
    | apply Sound.ite | apply Sound.foldl | apply Snd.ite | apply Snd.foldl | apply Snd.out | apply Tab.wf_filter | apply Tab.rising_filter | split
    | refine Snd.of (by assumption) ?_ | simp only [Snd.lit] | apply Sound.regs | apply Sound.flash | apply Sound.keeping | apply Sound.sdram
    | apply Sound.stage | apply Sound.porch | apply Sound.hwRam | apply Sound.bufEcc | apply Sound.keepEcc | apply Sound.hwEcc
    | (simp only [Sound.lit_iff]; refine ⟨?_, ?_, ?_, ?_, ?_, ?_, ?_, ?_, ?_, ?_⟩) | dsimp only)
theorem sound_execTaprootSuspend (slot : Fin 8) (s : State) (h1 : Sound s) : SoundRes (execTaprootSuspend slot s) := by
  unfold execTaprootSuspend
  with_reducible (repeat' first
    | assumption | intro _ | apply sound_completes | apply sound_tapMail | apply sound_okMail | apply sound_suspendBus | apply sound_withDev
    | apply sound_changeBus | apply sound_permitWake | apply sound_setLink | apply sound_resumeDev | apply sound_failMail | apply Sound.ite
    | apply Sound.foldl | apply Thd.ite | apply Thd.foldl | apply Thd.out | apply Snd.ite | apply Snd.foldl | apply Snd.out | apply Thd.rest
    | apply Tab.wf_filter | apply Tab.rising_filter | split | refine Thd.of (by assumption) ?_ | refine Snd.of (by assumption) ?_
    | simp only [Thd.lit] | simp only [Snd.lit] | apply Thd.pair | apply Sound.regs | apply Sound.flash | apply Sound.keeping | apply Sound.sdram
    | apply Sound.stage | apply Sound.porch | apply Sound.hwRam | apply Sound.bufEcc | apply Sound.keepEcc | apply Sound.hwEcc
    | (simp only [Sound.lit_iff]; refine ⟨?_, ?_, ?_, ?_, ?_, ?_, ?_, ?_, ?_, ?_⟩) | dsimp only)
theorem sound_detachDevice (slot : Nat) (d : TapDev) (s : State) (h2 : Sound s) : Sound (detachDevice slot d s) := by
  unfold detachDevice
  with_reducible (repeat' first
    | assumption | intro _ | apply sound_endDevice | apply sound_changeBus | apply sound_raiseDrops | apply sound_portDisconnect | apply Sound.ite
    | apply Sound.foldl | apply Snd.ite | apply Snd.foldl | apply Snd.out | apply Tab.wf_filter | apply Tab.rising_filter | split
    | refine Snd.of (by assumption) ?_ | simp only [Snd.lit] | apply Sound.regs | apply Sound.flash | apply Sound.keeping | apply Sound.sdram
    | apply Sound.stage | apply Sound.porch | apply Sound.hwRam | apply Sound.bufEcc | apply Sound.keepEcc | apply Sound.hwEcc
    | (simp only [Sound.lit_iff]; refine ⟨?_, ?_, ?_, ?_, ?_, ?_, ?_, ?_, ?_, ?_⟩) | dsimp only)
theorem sound_detachPlace (slot : Nat) (root : Nat) (hub1 : Nat) (hub2 : Nat) (s : State) (h4 : Sound s) : Sound (detachPlace slot root hub1 hub2 s) := by
  unfold detachPlace
  with_reducible (repeat' first
    | assumption | intro _ | apply sound_changeBus | apply sound_portDisconnect | apply Sound.ite | apply Tab.wf_filter | apply Tab.rising_filter
    | split | apply Sound.regs | apply Sound.flash | apply Sound.keeping | apply Sound.sdram | apply Sound.stage | apply Sound.porch
    | apply Sound.hwRam | apply Sound.bufEcc | apply Sound.keepEcc | apply Sound.hwEcc
    | (simp only [Sound.lit_iff]; refine ⟨?_, ?_, ?_, ?_, ?_, ?_, ?_, ?_, ?_, ?_⟩) | dsimp only)
theorem sound_execTaprootDeviceDetach (slot : Fin 8) (gone : TapGone) (s : State) (h2 : Sound s) : SoundRes (execTaprootDeviceDetach slot gone s) := by
  unfold execTaprootDeviceDetach
  with_reducible (repeat' first
    | assumption | apply sound_completes | apply sound_detachDevice | apply sound_detachPlace | split | dsimp only)
theorem sound_execPortCycle (slot : Fin 8) (s : State) (h1 : Sound s) : SoundRes (execPortCycle slot s) := by
  unfold execPortCycle
  with_reducible (repeat' first
    | assumption | intro _ | apply sound_completes | apply sound_tapMail | apply sound_withDev | apply sound_raiseDrops | apply sound_endDevice
    | apply sound_okMail | apply sound_resetPlace | apply Sound.foldl | apply Thd.ite | apply Thd.foldl | apply Thd.out | apply Snd.ite
    | apply Snd.foldl | apply Snd.out | apply Thd.rest | refine Thd.of (by assumption) ?_ | refine Snd.of (by assumption) ?_ | simp only [Thd.lit]
    | simp only [Snd.lit] | apply Thd.pair | dsimp only)
theorem sound_completeWake (slot : Nat) (s : State) (h : Nat) (h1 : Sound s) : Sound (completeWake slot s h) := by
  unfold completeWake
  with_reducible (repeat' first
    | assumption | apply sound_postRecord | apply sound_setIrq | apply sound_suspendBus | apply sound_State_bump | apply Sound.ite | split
    | dsimp only)
theorem sound_completeWakes (s : State) (h0 : Sound s) : Sound (completeWakes s) := by
  unfold completeWakes
  with_reducible (repeat' first
    | assumption | intro _ | apply sound_completeWake | apply sound_changeBus | apply Sound.ite | apply Sound.foldl | apply Snd.ite | apply Snd.foldl
    | apply Snd.out | apply wf_nil | split | refine Snd.of (by assumption) ?_ | simp only [Snd.lit] | apply Sound.regs | apply Sound.flash
    | apply Sound.keeping | apply Sound.sdram | apply Sound.stage | apply Sound.porch | apply Sound.hwRam | apply Sound.bufEcc | apply Sound.keepEcc
    | apply Sound.hwEcc | (simp only [Sound.lit_iff]; refine ⟨?_, ?_, ?_, ?_, ?_, ?_, ?_, ?_, ?_, ?_⟩) | dsimp only)
theorem sound_execTaprootRemoteWake (slot : Fin 8) (handle : Nat) (s : State) (h2 : Sound s) : SoundRes (execTaprootRemoteWake slot handle s) := by
  unfold execTaprootRemoteWake
  with_reducible (repeat' first
    | assumption | intro _ | apply sound_completes | apply sound_ringBell | apply sound_completeWake | apply sound_changeBus | apply Sound.ite | split
    | apply Sound.regs | apply Sound.flash | apply Sound.keeping | apply Sound.sdram | apply Sound.stage | apply Sound.porch | apply Sound.hwRam
    | apply Sound.bufEcc | apply Sound.keepEcc | apply Sound.hwEcc | (simp only [Sound.lit_iff]; refine ⟨?_, ?_, ?_, ?_, ?_, ?_, ?_, ?_, ?_, ?_⟩)
    | dsimp only)
theorem sound_execTaprootHalt (s : State) (h0 : Sound s) : SoundRes (execTaprootHalt s) := by
  unfold execTaprootHalt
  with_reducible (repeat' first
    | assumption | intro _ | apply sound_completes | apply sound_postRecord | apply sound_endDevice | apply sound_State_wr | apply sound_occur
    | apply Sound.ite | apply Sound.foldl | apply Snd.ite | apply Snd.foldl | apply Snd.out | split | refine Snd.of (by assumption) ?_
    | simp only [Snd.lit] | dsimp only)
theorem sound_execTaprootRestart (s : State) (h0 : Sound s) : SoundRes (execTaprootRestart s) := by
  unfold execTaprootRestart
  with_reducible (repeat' first
    | assumption | intro _ | apply sound_completes | apply sound_State_bump | apply sound_changeBus | apply sound_State_wr | apply Sound.ite
    | apply Sound.foldl | apply Snd.ite | apply Snd.foldl | apply Snd.out | apply wf_nil | split | refine Snd.of (by assumption) ?_
    | simp only [Snd.lit] | apply Sound.regs | apply Sound.flash | apply Sound.keeping | apply Sound.sdram | apply Sound.stage | apply Sound.porch
    | apply Sound.hwRam | apply Sound.bufEcc | apply Sound.keepEcc | apply Sound.hwEcc
    | (simp only [Sound.lit_iff]; refine ⟨?_, ?_, ?_, ?_, ?_, ?_, ?_, ?_, ?_, ?_⟩) | dsimp only)
theorem sound_rebind (slot : Nat) (h : Nat) (s : State) (h2 : Sound s) : Sound (rebind slot h s) := by
  unfold rebind
  with_reducible (repeat' first
    | assumption | intro _ | apply sound_setUp | apply sound_changeDev | apply Snd.ite | apply Snd.out | apply Tab.wf_filter | apply Tab.rising_filter
    | split | refine Snd.of (by assumption) ?_ | simp only [Snd.lit] | apply Sound.regs | apply Sound.flash | apply Sound.keeping | apply Sound.sdram
    | apply Sound.stage | apply Sound.porch | apply Sound.hwRam | apply Sound.bufEcc | apply Sound.keepEcc | apply Sound.hwEcc
    | (simp only [Sound.lit_iff]; refine ⟨?_, ?_, ?_, ?_, ?_, ?_, ?_, ?_, ?_, ?_⟩) | dsimp only)
theorem sound_restartTap (slot : Nat) (s : State) (h1 : Sound s) : Sound (restartTap slot s) := by
  unfold restartTap
  with_reducible (repeat' first
    | assumption | intro _ | apply sound_closePipe | apply sound_raiseDrops | apply sound_postDone | apply sound_changeBus | apply sound_rebind
    | apply Sound.foldl | apply Snd.ite | apply Snd.foldl | apply Snd.out | apply wf_nil | refine Snd.of (by assumption) ?_ | simp only [Snd.lit]
    | apply Sound.regs | apply Sound.flash | apply Sound.keeping | apply Sound.sdram | apply Sound.stage | apply Sound.porch | apply Sound.hwRam
    | apply Sound.bufEcc | apply Sound.keepEcc | apply Sound.hwEcc | (simp only [Sound.lit_iff]; refine ⟨?_, ?_, ?_, ?_, ?_, ?_, ?_, ?_, ?_, ?_⟩)
    | dsimp only)
theorem sound_replayTap (slot : Nat) (s : State) (h1 : Sound s) : Sound (replayTap slot s) := by
  unfold replayTap
  with_reducible (repeat' first
    | assumption | intro _ | apply sound_postAttach | apply Sound.ite | apply Sound.foldl | apply Snd.ite | apply Snd.foldl | apply Snd.out | split
    | refine Snd.of (by assumption) ?_ | simp only [Snd.lit] | dsimp only)
theorem sound_pullRecords (slot : Nat) (q : Nat) (n : Nat) (s : State) (h3 : Sound s) : Snd (pullRecords slot q n s) := by
  unfold pullRecords
  with_reducible (repeat' first
    | assumption | intro _ | apply sound_changeBus | apply Sound.ite | apply Snd.ite | apply Snd.out | split | refine Snd.of (by assumption) ?_
    | simp only [Snd.lit] | dsimp only)
theorem sound_pushOne (slot : Nat) (q : Nat) (r : List Nat) (s : State) (h3 : Sound s) : Sound (pushOne slot q r s) := by
  unfold pushOne
  with_reducible (repeat' first
    | assumption | intro _ | apply sound_changeBus | apply sound_putPipe | apply sound_endTransfer | apply Sound.ite | split | apply Sound.regs
    | apply Sound.flash | apply Sound.keeping | apply Sound.sdram | apply Sound.stage | apply Sound.porch | apply Sound.hwRam | apply Sound.bufEcc
    | apply Sound.keepEcc | apply Sound.hwEcc | (simp only [Sound.lit_iff]; refine ⟨?_, ?_, ?_, ?_, ?_, ?_, ?_, ?_, ?_, ?_⟩) | dsimp only)
theorem sound_pushRecords (slot : Nat) (q : Nat) : ∀ (z2 : List (List Nat)) (z3 : Nat) (z4 : State) (h4 : Sound z4), Fth (pushRecords slot q z2 z3 z4) := by
  intro z2
  induction z2 with
  | nil =>
    intros
    unfold pushRecords
    with_reducible (repeat' first
      | assumption | apply sound_pushOne | apply Sound.ite | apply Fth.ite | apply Fth.out | apply Snd.ite | apply Snd.out | split
      | refine Fth.of (by assumption) ?_ | refine Snd.of (by assumption) ?_ | simp only [Fth.lit] | simp only [Snd.lit] | dsimp only)
  | cons _ _ ih =>
    intros
    unfold pushRecords
    with_reducible (repeat' first
      | assumption | apply sound_pushOne | apply ih | apply Sound.ite | apply Fth.ite | apply Fth.out | apply Snd.ite | apply Snd.out | split
      | refine Fth.of (by assumption) ?_ | refine Snd.of (by assumption) ?_ | simp only [Fth.lit] | simp only [Snd.lit] | dsimp only)
theorem sound_execDormantEntryBegin (s : State) (h0 : Sound s) : SoundRes (execDormantEntryBegin s) := by
  unfold execDormantEntryBegin
  with_reducible (repeat' first
    | assumption | apply sound_completes | apply sound_holdOutputs | apply sound_State_wr | apply Sound.ite | split | apply Sound.regs
    | apply Sound.flash | apply Sound.keeping | apply Sound.sdram | apply Sound.stage | apply Sound.porch | apply Sound.hwRam | apply Sound.bufEcc
    | apply Sound.keepEcc | apply Sound.hwEcc | (simp only [Sound.lit_iff]; refine ⟨?_, ?_, ?_, ?_, ?_, ?_, ?_, ?_, ?_, ?_⟩) | dsimp only)
theorem sound_execIdleTimerExpire (s : State) (h0 : Sound s) : SoundRes (execIdleTimerExpire s) := by
  unfold execIdleTimerExpire
  with_reducible (repeat' first
    | assumption | apply sound_completes | apply Sound.ite | split | apply Sound.regs | apply Sound.flash | apply Sound.keeping | apply Sound.sdram
    | apply Sound.stage | apply Sound.porch | apply Sound.hwRam | apply Sound.bufEcc | apply Sound.keepEcc | apply Sound.hwEcc
    | (simp only [Sound.lit_iff]; refine ⟨?_, ?_, ?_, ?_, ?_, ?_, ?_, ?_, ?_, ?_⟩) | dsimp only)
theorem sound_takeDown (point : Nat) (ds : List Nat) (s : State) (h2 : Sound s) : Sound (takeDown point ds s) := by
  unfold takeDown
  with_reducible (repeat' first
    | assumption | intro _ | apply sound_sampleRequest | apply Sound.foldl | apply Snd.ite | apply Snd.foldl | apply Snd.out | apply Tab.wf_filter
    | apply Tab.rising_filter | split | refine Snd.of (by assumption) ?_ | simp only [Snd.lit] | apply Sound.regs | apply Sound.flash
    | apply Sound.keeping | apply Sound.sdram | apply Sound.stage | apply Sound.porch | apply Sound.hwRam | apply Sound.bufEcc | apply Sound.keepEcc
    | apply Sound.hwEcc | (simp only [Sound.lit_iff]; refine ⟨?_, ?_, ?_, ?_, ?_, ?_, ?_, ?_, ?_, ?_⟩) | dsimp only)
theorem sound_storeCounters (s : State) (h0 : Sound s) : Sound (storeCounters s) := by
  unfold storeCounters
  with_reducible (repeat' first
    | assumption | intro _ | apply sound_putKeep | apply sound_State_drew | apply Sound.foldl | apply Snd.ite | apply Snd.foldl | apply Snd.out
    | refine Snd.of (by assumption) ?_ | simp only [Snd.lit] | dsimp only)
theorem sound_pointTrunk (s : State) (p : Nat) (h0 : Sound s) : Sound (pointTrunk s p) := by
  unfold pointTrunk
  with_reducible (repeat' first
    | assumption | intro _ | apply sound_putLane | apply sound_putStepOf | apply sound_setPort | apply sound_sendKeepalive | apply Sound.foldl
    | apply Snd.ite | apply Snd.foldl | apply Snd.out | split | refine Snd.of (by assumption) ?_ | simp only [Snd.lit] | apply Sound.regs
    | apply Sound.flash | apply Sound.keeping | apply Sound.sdram | apply Sound.stage | apply Sound.porch | apply Sound.hwRam | apply Sound.bufEcc
    | apply Sound.keepEcc | apply Sound.hwEcc | (simp only [Sound.lit_iff]; refine ⟨?_, ?_, ?_, ?_, ?_, ?_, ?_, ?_, ?_, ?_⟩) | dsimp only)
theorem sound_pointRail (s : State) (r : Nat) (h0 : Sound s) : Sound (pointRail s r) := by
  unfold pointRail
  with_reducible (repeat' first
    | assumption | apply sound_putRail | apply sound_State_wr | apply Sound.ite | split | apply Sound.regs | apply Sound.flash | apply Sound.keeping
    | apply Sound.sdram | apply Sound.stage | apply Sound.porch | apply Sound.hwRam | apply Sound.bufEcc | apply Sound.keepEcc | apply Sound.hwEcc
    | (simp only [Sound.lit_iff]; refine ⟨?_, ?_, ?_, ?_, ?_, ?_, ?_, ?_, ?_, ?_⟩) | dsimp only)
theorem sound_pointAction (point : Nat) (s : State) (h1 : Sound s) : Sound (pointAction point s) := by
  unfold pointAction
  with_reducible (repeat' first
    | assumption | apply sound_storeCounters | apply sound_State_wr | apply sound_pointTrunk | apply sound_takeDown | apply Sound.ite
    | apply Sound.foldl | apply Snd.ite | apply Snd.foldl | apply Snd.out | split | refine Snd.of (by assumption) ?_ | simp only [Snd.lit]
    | dsimp only)
theorem sound_finishPoint (point : Nat) (s : State) (h1 : Sound s) : Sound (finishPoint point s) := by
  unfold finishPoint
  with_reducible (repeat' first
    | assumption | intro _ | apply sound_State_wr | apply sound_pointRail | apply Sound.ite | apply Sound.foldl | apply Snd.ite | apply Snd.foldl
    | apply Snd.out | split | refine Snd.of (by assumption) ?_ | simp only [Snd.lit] | apply Sound.regs | apply Sound.flash | apply Sound.keeping
    | apply Sound.sdram | apply Sound.stage | apply Sound.porch | apply Sound.hwRam | apply Sound.bufEcc | apply Sound.keepEcc | apply Sound.hwEcc
    | (simp only [Sound.lit_iff]; refine ⟨?_, ?_, ?_, ?_, ?_, ?_, ?_, ?_, ?_, ?_⟩) | dsimp only)
theorem sound_execEntryPointComplete (s : State) (h0 : Sound s) : SoundRes (execEntryPointComplete s) := by
  unfold execEntryPointComplete
  with_reducible (repeat' first
    | assumption | apply sound_completes | apply sound_pointAction | apply sound_finishPoint | apply Sound.ite | split | dsimp only)
theorem sound_execEntryPointLimit (s : State) (h0 : Sound s) : SoundRes (execEntryPointLimit s) := by
  unfold execEntryPointLimit
  with_reducible (repeat' first
    | assumption | apply sound_completes | apply sound_beginUnwind | apply Sound.ite | split | dsimp only)
theorem sound_raiseAgain (s : State) (d : Nat) (h0 : Sound s) : Sound (raiseAgain s d) := by
  unfold raiseAgain
  with_reducible (repeat' first
    | assumption | apply sound_putStep | apply sound_sampleRequest | apply sound_domainOn | apply Sound.ite | split | dsimp only)
theorem sound_activeAgain (s : State) (h0 : Sound s) : Sound (activeAgain s) := by
  unfold activeAgain
  with_reducible (repeat' first
    | assumption | intro _ | apply sound_raiseAgain | apply sound_releaseDown | apply sound_undoPoint | apply sound_State_rstAll
    | apply sound_activity | apply sound_sampleRequest | apply sound_putVoice | apply sound_startLaser | apply sound_completeWakes
    | apply sound_missLate | apply sound_releaseRekeys | apply sound_releaseRequests | apply sound_pumpAll | apply sound_withUart | apply Sound.ite
    | apply Sound.foldl | apply Snd.ite | apply Snd.foldl | apply Snd.out | split | refine Snd.of (by assumption) ?_ | simp only [Snd.lit]
    | apply Sound.regs | apply Sound.flash | apply Sound.keeping | apply Sound.sdram | apply Sound.stage | apply Sound.porch | apply Sound.hwRam
    | apply Sound.bufEcc | apply Sound.keepEcc | apply Sound.hwEcc | (simp only [Sound.lit_iff]; refine ⟨?_, ?_, ?_, ?_, ?_, ?_, ?_, ?_, ?_, ?_⟩)
    | dsimp only [id])
theorem sound_execUnwindComplete (s : State) (h0 : Sound s) : SoundRes (execUnwindComplete s) := by
  unfold execUnwindComplete
  with_reducible (repeat' first
    | assumption | intro _ | apply sound_completes | apply sound_activeAgain | apply sound_undoPoint | apply Sound.ite | apply Sound.foldr | split
    | dsimp only)
theorem sound_execWakeTimerExpire (s : State) (h0 : Sound s) : SoundRes (execWakeTimerExpire s) := by
  unfold execWakeTimerExpire
  with_reducible (repeat' first
    | assumption | intro _ | apply sound_completes | apply sound_State_off | apply sound_activeAgain | apply sound_occur | apply Sound.ite
    | apply Sound.foldl | apply Snd.ite | apply Snd.foldl | apply Snd.out | split | refine Snd.of (by assumption) ?_ | simp only [Snd.lit]
    | dsimp only)
theorem sound_execPpsToFixed (tile : Fin 14) (s : State) (h1 : Sound s) : SoundRes (execPpsToFixed tile s) := by
  unfold execPpsToFixed
  with_reducible (repeat' first
    | assumption | intro _ | apply sound_completes | apply sound_negotiateSink | apply sound_changeTc | apply Sound.ite | split | apply Sound.regs
    | apply Sound.flash | apply Sound.keeping | apply Sound.sdram | apply Sound.stage | apply Sound.porch | apply Sound.hwRam | apply Sound.bufEcc
    | apply Sound.keepEcc | apply Sound.hwEcc | (simp only [Sound.lit_iff]; refine ⟨?_, ?_, ?_, ?_, ?_, ?_, ?_, ?_, ?_, ?_⟩) | dsimp only)
theorem sound_execPpsRestore (tile : Fin 14) (s : State) (h1 : Sound s) : SoundRes (execPpsRestore tile s) := by
  unfold execPpsRestore
  with_reducible (repeat' first
    | assumption | intro _ | apply sound_completes | apply sound_negotiateSink | apply sound_changeTc | apply Sound.ite | split | apply Sound.regs
    | apply Sound.flash | apply Sound.keeping | apply Sound.sdram | apply Sound.stage | apply Sound.porch | apply Sound.hwRam | apply Sound.bufEcc
    | apply Sound.keepEcc | apply Sound.hwEcc | (simp only [Sound.lit_iff]; refine ⟨?_, ?_, ?_, ?_, ?_, ?_, ?_, ?_, ?_, ?_⟩) | dsimp only)
theorem sound_execDeferredKeepingWrite (s : State) (h0 : Sound s) : SoundRes (execDeferredKeepingWrite s) := by
  unfold execDeferredKeepingWrite
  with_reducible (repeat' first
    | assumption | apply sound_completes | apply sound_keepOrDefer | apply Sound.ite | split | apply Sound.regs | apply Sound.flash
    | apply Sound.keeping | apply Sound.sdram | apply Sound.stage | apply Sound.porch | apply Sound.hwRam | apply Sound.bufEcc | apply Sound.keepEcc
    | apply Sound.hwEcc | (simp only [Sound.lit_iff]; refine ⟨?_, ?_, ?_, ?_, ?_, ?_, ?_, ?_, ?_, ?_⟩) | dsimp only)
theorem sound_retryAction (c : Nat) (up : UpConnect) (s : State) (h2 : Sound s) : Sound (retryAction c up s) := by
  unfold retryAction
  with_reducible (repeat' first
    | assumption | intro _ | apply sound_State_wr | apply sound_retryLink | apply sound_sendCaps | apply sound_changeTc | apply sound_requestBus
    | apply sound_strokeRetries | apply sound_acquire | apply sound_dropBlock | apply sound_retrySpin | apply sound_retryMove | apply sound_retryHome
    | apply sound_retryTray | apply Sound.ite | split | apply Sound.regs | apply Sound.flash | apply Sound.keeping | apply Sound.sdram
    | apply Sound.stage | apply Sound.porch | apply Sound.hwRam | apply Sound.bufEcc | apply Sound.keepEcc | apply Sound.hwEcc
    | (simp only [Sound.lit_iff]; refine ⟨?_, ?_, ?_, ?_, ?_, ?_, ?_, ?_, ?_, ?_⟩) | dsimp only)
theorem sound_execRetryBackoffExpire (backoff : BackoffEnd) (s : State) (h1 : Sound s) : SoundRes (execRetryBackoffExpire backoff s) := by
  unfold execRetryBackoffExpire
  with_reducible (repeat' first
    | assumption | apply sound_completes | apply sound_retryAction | apply sound_retryBegin | apply Sound.ite | split | apply Sound.regs
    | apply Sound.flash | apply Sound.keeping | apply Sound.sdram | apply Sound.stage | apply Sound.porch | apply Sound.hwRam | apply Sound.bufEcc
    | apply Sound.keepEcc | apply Sound.hwEcc | (simp only [Sound.lit_iff]; refine ⟨?_, ?_, ?_, ?_, ?_, ?_, ?_, ?_, ?_, ?_⟩) | dsimp only)
theorem sound_execFaultWindowClose (source : Fin 512) (s : State) (h1 : Sound s) : SoundRes (execFaultWindowClose source s) := by
  unfold execFaultWindowClose
  with_reducible (repeat' first
    | assumption | apply sound_completes | apply Tab.wf_put | apply Sound.regs | apply Sound.flash | apply Sound.keeping | apply Sound.sdram
    | apply Sound.stage | apply Sound.porch | apply Sound.hwRam | apply Sound.bufEcc | apply Sound.keepEcc | apply Sound.hwEcc
    | (simp only [Sound.lit_iff]; refine ⟨?_, ?_, ?_, ?_, ?_, ?_, ?_, ?_, ?_, ?_⟩) | dsimp only)
theorem sound_execFaultQuietExpire (source : Fin 512) (s : State) (h1 : Sound s) : SoundRes (execFaultQuietExpire source s) := by
  unfold execFaultQuietExpire
  with_reducible (repeat' first
    | assumption | apply sound_completes | apply sound_keepOrDefer | apply sound_clearSticky | apply Sound.ite | split | dsimp only)
theorem sound_stickyWrite (slot : Nat) (addr : Nat) (c : Nat) (s : State) (h3 : Sound s) : Sound (stickyWrite slot addr c s) := by
  unfold stickyWrite
  with_reducible (repeat' first
    | assumption | apply sound_refuse | apply sound_w1cSource | apply Sound.ite | split | dsimp only)
theorem sound_execFaultStickyClear (slot : Fin 8) (word : Fin 16) (value : Nat) (s : State) (h3 : Sound s) : SoundRes (execFaultStickyClear slot word value s) := by
  unfold execFaultStickyClear
  with_reducible (repeat' first
    | assumption | intro _ | apply sound_completes | apply sound_guardTry | apply sound_stickyWrite | apply Sound.ite | apply Sound.foldl
    | apply Snd.ite | apply Snd.foldl | apply Snd.out | split | refine Snd.of (by assumption) ?_ | simp only [Snd.lit] | dsimp only)
theorem sound_clearSource (s : State) (c : Nat) (h0 : Sound s) : Sound (clearSource s c) := by
  unfold clearSource
  with_reducible (repeat' first
    | assumption | apply sound_clearSticky | apply sound_State_off | apply Tab.wf_put | apply Sound.regs | apply Sound.flash | apply Sound.keeping
    | apply Sound.sdram | apply Sound.stage | apply Sound.porch | apply Sound.hwRam | apply Sound.bufEcc | apply Sound.keepEcc | apply Sound.hwEcc
    | (simp only [Sound.lit_iff]; refine ⟨?_, ?_, ?_, ?_, ?_, ?_, ?_, ?_, ?_, ?_⟩) | dsimp only)
theorem sound_bringChannel (code : Nat) (s : State) (h1 : Sound s) : Sound (bringChannel code s) := by
  unfold bringChannel
  with_reducible (repeat' first
    | assumption | intro _ | apply sound_bringTile | apply sound_laneJoins | apply sound_unitRequest | apply sound_State_wr | apply sound_State_off
    | apply sound_bringDrum | apply sound_putVoice | apply sound_bringUart | apply sound_bringRbp | apply sound_unitRequestAll | apply Sound.ite
    | apply Snd.ite | apply Snd.out | split | refine Snd.of (by assumption) ?_ | simp only [Snd.lit] | apply Sound.regs | apply Sound.flash
    | apply Sound.keeping | apply Sound.sdram | apply Sound.stage | apply Sound.porch | apply Sound.hwRam | apply Sound.bufEcc | apply Sound.keepEcc
    | apply Sound.hwEcc | (simp only [Sound.lit_iff]; refine ⟨?_, ?_, ?_, ?_, ?_, ?_, ?_, ?_, ?_, ?_⟩) | dsimp only)
theorem sound_unprune (code : Nat) (s : State) (h1 : Sound s) : Sound (unprune code s) := by
  unfold unprune
  with_reducible (repeat' first
    | assumption | apply sound_State_on | apply sound_clearPruned | apply sound_senseList | apply sound_bringChannel | apply sound_clearSource
    | apply Sound.ite | apply Sound.foldl | apply Snd.ite | apply Snd.foldl | apply Snd.out | split | refine Snd.of (by assumption) ?_
    | simp only [Snd.lit] | apply Sound.regs | apply Sound.flash | apply Sound.keeping | apply Sound.sdram | apply Sound.stage | apply Sound.porch
    | apply Sound.hwRam | apply Sound.bufEcc | apply Sound.keepEcc | apply Sound.hwEcc
    | (simp only [Sound.lit_iff]; refine ⟨?_, ?_, ?_, ?_, ?_, ?_, ?_, ?_, ?_, ?_⟩) | dsimp only)
theorem sound_execUnprune (slot : Fin 8) (code : Nat) (s : State) (h2 : Sound s) : SoundRes (execUnprune slot code s) := by
  unfold execUnprune
  with_reducible (repeat' first
    | assumption | intro _ | apply sound_completes | apply sound_guardTry | apply sound_unprune | apply sound_refuse | apply Sound.ite | split
    | dsimp only)
theorem sound_execUnpruneDone (s : State) (h0 : Sound s) : SoundRes (execUnpruneDone s) := by
  unfold execUnpruneDone
  with_reducible (repeat' first
    | assumption | intro _ | apply sound_completes | apply sound_State_off | apply sound_occur | apply Sound.foldl | apply Snd.ite | apply Snd.foldl
    | apply Snd.out | apply Tab.wf_filter | apply Tab.rising_filter | split | refine Snd.of (by assumption) ?_ | simp only [Snd.lit]
    | apply Sound.regs | apply Sound.flash | apply Sound.keeping | apply Sound.sdram | apply Sound.stage | apply Sound.porch | apply Sound.hwRam
    | apply Sound.bufEcc | apply Sound.keepEcc | apply Sound.hwEcc | (simp only [Sound.lit_iff]; refine ⟨?_, ?_, ?_, ?_, ?_, ?_, ?_, ?_, ?_, ?_⟩)
    | dsimp only)
theorem sound_execRbpDriverFault (port : Fin 2) (present : Bool) (s : State) (h2 : Sound s) : SoundRes (execRbpDriverFault port present s) := by
  unfold execRbpDriverFault
  with_reducible (repeat' first
    | assumption | apply sound_completes | apply sound_setCause | apply Sound.ite | split | dsimp only)
theorem sound_execTilePhyFault (tile : Fin 14) (s : State) (h1 : Sound s) : SoundRes (execTilePhyFault tile s) := by
  unfold execTilePhyFault
  with_reducible (repeat' first
    | assumption | apply sound_completes | apply sound_occur | dsimp only)
theorem sound_execForeignVbus (tile : Fin 14) (vbus : Nat) (s : State) (h2 : Sound s) : SoundRes (execForeignVbus tile vbus s) := by
  unfold execForeignVbus
  with_reducible (repeat' first
    | assumption | apply sound_senseVbus | apply sound_completes | apply sound_occur | apply Sound.ite | split | dsimp only)
theorem sound_resetBank (slot : Nat) (s : State) (h1 : Sound s) : Sound (resetBank slot s) := by
  unfold resetBank
  with_reducible (repeat' first
    | assumption | apply sound_State_rstAll | apply Sound.regs | apply Sound.flash | apply Sound.keeping | apply Sound.sdram | apply Sound.stage
    | apply Sound.porch | apply Sound.hwRam | apply Sound.bufEcc | apply Sound.keepEcc | apply Sound.hwEcc
    | (simp only [Sound.lit_iff]; refine ⟨?_, ?_, ?_, ?_, ?_, ?_, ?_, ?_, ?_, ?_⟩) | dsimp only)
theorem sound_cancelFirst (n : Nat) (slot : Nat) (s : State) (h2 : Sound s) : Sound (cancelFirst n slot s) := by
  unfold cancelFirst
  with_reducible (repeat' first
    | assumption | intro _ | apply sound_dropStroke | apply sound_putStrokes | apply Sound.ite | split | apply Sound.regs | apply Sound.flash
    | apply Sound.keeping | apply Sound.sdram | apply Sound.stage | apply Sound.porch | apply Sound.hwRam | apply Sound.bufEcc | apply Sound.keepEcc
    | apply Sound.hwEcc | (simp only [Sound.lit_iff]; refine ⟨?_, ?_, ?_, ?_, ?_, ?_, ?_, ?_, ?_, ?_⟩) | dsimp only)
theorem sound_cancelWaiting (n : Nat) (slot : Nat) (s : State) (h2 : Sound s) : Sound (cancelWaiting n slot s) := by
  unfold cancelWaiting
  with_reducible (repeat' first
    | assumption | intro _ | apply sound_finishStroke | apply sound_putStrokes | apply Sound.ite | apply Sound.foldl | apply Snd.ite | apply Snd.foldl
    | apply Snd.out | apply Tab.wf_filter | apply Tab.rising_filter | split | refine Snd.of (by assumption) ?_ | simp only [Snd.lit] | dsimp only)
theorem sound_cancelStrokes (n : Nat) (slot : Nat) (s : State) (h2 : Sound s) : Sound (cancelStrokes n slot s) := by
  unfold cancelStrokes
  with_reducible (repeat' first
    | assumption | apply sound_syncHeld | apply sound_cancelFirst | apply sound_cancelWaiting | apply sound_State_wr | apply Sound.ite | split
    | dsimp only)
theorem sound_cancelScsi (slot : Nat) (l : Nat) (s : State) (h2 : Sound s) : Sound (cancelScsi slot l s) := by
  unfold cancelScsi
  with_reducible (repeat' first
    | assumption | intro _ | apply sound_answerScsi | apply sound_putLun | apply sound_State_emit | apply Sound.ite | apply Sound.foldl
    | apply Snd.ite | apply Snd.foldl | apply Snd.out | split | refine Snd.of (by assumption) ?_ | simp only [Snd.lit] | apply Sound.regs
    | apply Sound.flash | apply Sound.keeping | apply Sound.sdram | apply Sound.stage | apply Sound.porch | apply Sound.hwRam | apply Sound.bufEcc
    | apply Sound.keepEcc | apply Sound.hwEcc | (simp only [Sound.lit_iff]; refine ⟨?_, ?_, ?_, ?_, ?_, ?_, ?_, ?_, ?_, ?_⟩) | dsimp only)
theorem sound_cancelRequests (slot : Nat) (s : State) (h1 : Sound s) : Sound (cancelRequests slot s) := by
  unfold cancelRequests
  with_reducible (repeat' first
    | assumption | intro _ | apply sound_postTally | apply sound_noteLunEnd | apply sound_pumpAll | apply sound_sendBrief | apply Sound.ite
    | apply Sound.foldl | apply Snd.ite | apply Snd.foldl | apply Snd.out | apply Tab.wf_filter | apply Tab.rising_filter | split
    | refine Snd.of (by assumption) ?_ | simp only [Snd.lit] | apply Sound.regs | apply Sound.flash | apply Sound.keeping | apply Sound.sdram
    | apply Sound.stage | apply Sound.porch | apply Sound.hwRam | apply Sound.bufEcc | apply Sound.keepEcc | apply Sound.hwEcc
    | (simp only [Sound.lit_iff]; refine ⟨?_, ?_, ?_, ?_, ?_, ?_, ?_, ?_, ?_, ?_⟩) | dsimp only)
theorem sound_restartUnwinds (s : State) (h0 : Sound s) : Sound (restartUnwinds s) := by
  unfold restartUnwinds
  with_reducible (repeat' first
    | assumption | apply sound_beginUnwind | apply sound_State_drew | apply Sound.ite | split | dsimp only)
theorem sound_restartGrove (slot : Nat) (s : State) (h1 : Sound s) : Sound (restartGrove slot s) := by
  unfold restartGrove
  with_reducible (repeat' first
    | assumption | intro _ | apply sound_resetBank | apply sound_restartUnwinds | apply sound_State_on | apply sound_cancelRequests
    | apply sound_haltWalks | apply sound_cancelStrokes | apply sound_restartTap | apply sound_cancelScsi | apply sound_restartPort
    | apply sound_putMail | apply sound_State_rstAll | apply sound_restartUart | apply sound_State_wr | apply Sound.ite | apply Sound.foldl
    | apply Snd.ite | apply Snd.foldl | apply Snd.out | split | refine Snd.of (by assumption) ?_ | simp only [Snd.lit] | dsimp only)
theorem sound_execGroveRestart (slot : Fin 8) (target : Fin 8) (s : State) (h2 : Sound s) : SoundRes (execGroveRestart slot target s) := by
  unfold execGroveRestart
  with_reducible (repeat' first
    | assumption | intro _ | apply sound_completes | apply sound_guardTry | apply sound_refuse | apply sound_restartGrove | apply Sound.ite | split
    | dsimp only)
theorem sound_execGroveRestartDone (target : Fin 8) (s : State) (h1 : Sound s) : SoundRes (execGroveRestartDone target s) := by
  unfold execGroveRestartDone
  with_reducible (repeat' first
    | assumption | intro _ | apply sound_completes | apply sound_replayTap | apply sound_State_off | apply Sound.ite | split | dsimp only)
theorem sound_writeVote (slot : Nat) (vote : Bool) (s : State) (h2 : Sound s) : Sound (writeVote slot vote s) := by
  unfold writeVote
  with_reducible (repeat' first
    | assumption | apply sound_passOn | apply sound_State_wrB | dsimp only)
theorem sound_execGroveVoteWrite (slot : Fin 8) (vote : Bool) (s : State) (h2 : Sound s) : SoundRes (execGroveVoteWrite slot vote s) := by
  unfold execGroveVoteWrite
  with_reducible (repeat' first
    | assumption | intro _ | apply sound_completes | apply sound_guardWrite | apply sound_writeVote | dsimp only)
theorem sound_memTimedOut (port : Nat) (slot : Nat) (s : State) (h2 : Sound s) : Sound (memTimedOut port slot s) := by
  unfold memTimedOut
  with_reducible (repeat' first
    | assumption | intro _ | apply sound_failStroke | apply sound_endTransfer | apply sound_endBlock | apply sound_endDma | apply sound_notify
    | apply sound_issued | apply sound_State_on | apply sound_State_off | apply sound_changeRbp | apply sound_pumpAll | apply sound_returnTally
    | apply sound_dropDeliv | apply Sound.ite | apply Snd.ite | apply Snd.out | split | refine Snd.of (by assumption) ?_ | simp only [Snd.lit]
    | apply Sound.regs | apply Sound.flash | apply Sound.keeping | apply Sound.sdram | apply Sound.stage | apply Sound.porch | apply Sound.hwRam
    | apply Sound.bufEcc | apply Sound.keepEcc | apply Sound.hwEcc | (simp only [Sound.lit_iff]; refine ⟨?_, ?_, ?_, ?_, ?_, ?_, ?_, ?_, ?_, ?_⟩)
    | dsimp only [id])
theorem sound_spineTimedOut (s : State) (h0 : Sound s) : Sound (spineTimedOut s) := by
  unfold spineTimedOut
  with_reducible (repeat' first
    | assumption | apply sound_occur | apply sound_State_bump | dsimp only)
theorem sound_fillVendor (slot : Nat) (k : Nat) (v : Nat) (s : State) (h3 : Sound s) : Sound (fillVendor slot k v s) := by
  unfold fillVendor
  with_reducible (repeat' first
    | assumption | intro _ | apply sound_State_emit | apply Sound.ite | split | apply Sound.regs | apply Sound.flash | apply Sound.keeping
    | apply Sound.sdram | apply Sound.stage | apply Sound.porch | apply Sound.hwRam | apply Sound.bufEcc | apply Sound.keepEcc | apply Sound.hwEcc
    | (simp only [Sound.lit_iff]; refine ⟨?_, ?_, ?_, ?_, ?_, ?_, ?_, ?_, ?_, ?_⟩) | dsimp only)
theorem sound_lostAnswer (slot : Nat) (write : Bool) (via : AccVia) (s : State) (h3 : Sound s) : Sound (lostAnswer slot write via s) := by
  unfold lostAnswer
  with_reducible (repeat' first
    | assumption | apply sound_State_emit | apply sound_fillVendor | apply Sound.ite | split | dsimp only)
theorem sound_dropHeld (slot : Nat) (write : Bool) (s : State) (h2 : Sound s) : Sound (dropHeld slot write s) := by
  unfold dropHeld
  with_reducible (repeat' first
    | assumption | intro _ | apply sound_lostAnswer | apply sound_forgetFar | split | apply Sound.regs | apply Sound.flash | apply Sound.keeping
    | apply Sound.sdram | apply Sound.stage | apply Sound.porch | apply Sound.hwRam | apply Sound.bufEcc | apply Sound.keepEcc | apply Sound.hwEcc
    | (simp only [Sound.lit_iff]; refine ⟨?_, ?_, ?_, ?_, ?_, ?_, ?_, ?_, ?_, ?_⟩) | dsimp only)
theorem sound_execSpineTimeout (port : Fin 16) (slot : Fin 8) (request : Waiting) (s : State) (h3 : Sound s) : SoundRes (execSpineTimeout port slot request s) := by
  unfold execSpineTimeout
  with_reducible (repeat' first
    | assumption | apply sound_completes | apply sound_dropHeld | apply sound_spineTimedOut | apply sound_State_emit | apply sound_memTimedOut
    | apply sound_deliverReply | apply sound_releaseTally | apply Sound.ite | split | apply Sound.regs | apply Sound.flash | apply Sound.keeping
    | apply Sound.sdram | apply Sound.stage | apply Sound.porch | apply Sound.hwRam | apply Sound.bufEcc | apply Sound.keepEcc | apply Sound.hwEcc
    | (simp only [Sound.lit_iff]; refine ⟨?_, ?_, ?_, ?_, ?_, ?_, ?_, ?_, ?_, ?_⟩) | dsimp only)
theorem sound_probeView (s : State) (h0 : Sound s) : Sound (probeView s) := by
  unfold probeView
  with_reducible (repeat' first
    | assumption | apply sound_State_wrB | apply sound_State_wr | dsimp only)
theorem sound_votesView (slot : Nat) (s : State) (h1 : Sound s) : Sound (votesView slot s) := by
  unfold votesView
  with_reducible (repeat' first
    | assumption | intro _ | apply sound_State_wr | dsimp only)
theorem sound_tapView (slot : Nat) (s : State) (h1 : Sound s) : Sound (tapView slot s) := by
  unfold tapView
  with_reducible (repeat' first
    | assumption | intro _ | apply sound_State_wr | apply Tab.wf_filter | apply Tab.rising_filter | dsimp only)
theorem sound_frameView (slot : Nat) (s : State) (h1 : Sound s) : Sound (frameView slot s) := by
  unfold frameView
  with_reducible (repeat' first
    | assumption | apply sound_State_wr | apply Sound.ite | split | dsimp only)
theorem sound_refreshView (slot : Nat) (a : Nat) (s : State) (h2 : Sound s) : Sound (refreshView slot a s) := by
  unfold refreshView
  with_reducible (repeat' first
    | assumption | intro _ | apply sound_State_off | apply sound_probeView | apply sound_State_wr | apply sound_votesView | apply sound_State_wrB
    | apply sound_frameView | apply sound_tapView | apply Sound.ite | apply Sound.foldl | apply Snd.ite | apply Snd.foldl | apply Snd.out | split
    | refine Snd.of (by assumption) ?_ | simp only [Snd.lit] | dsimp only)
theorem sound_keepingSense (slot : Nat) (a : Nat) (s : State) (h2 : Sound s) : Sound (keepingSense slot a s) := by
  unfold keepingSense
  with_reducible (repeat' first
    | assumption | apply sound_senseKeep | apply Sound.ite | split | dsimp only)
theorem sound_keepingWrite (slot : Nat) (a : Nat) (v : Nat) (be : Nat) (s : State) (h4 : Sound s) : Sound (keepingWrite slot a v be s) := by
  unfold keepingWrite
  with_reducible (repeat' first
    | assumption | intro _ | apply sound_State_wr | apply sound_putKeepByte | apply Sound.ite | apply Sound.foldl | apply Snd.ite | apply Snd.foldl
    | apply Snd.out | split | refine Snd.of (by assumption) ?_ | simp only [Snd.lit] | dsimp only)
theorem sound_answered (t : State) (h0 : Sound t) : Thd (answered t) := by
  unfold answered
  with_reducible (repeat' first
    | assumption | apply Thd.ite | apply Thd.out | apply Snd.ite | apply Snd.out | apply Thd.rest | refine Thd.of (by assumption) ?_
    | refine Snd.of (by assumption) ?_ | simp only [Thd.lit] | simp only [Snd.lit] | apply Thd.pair | apply Sound.regs | apply Sound.flash
    | apply Sound.keeping | apply Sound.sdram | apply Sound.stage | apply Sound.porch | apply Sound.hwRam | apply Sound.bufEcc | apply Sound.keepEcc
    | apply Sound.hwEcc | (simp only [Sound.lit_iff]; refine ⟨?_, ?_, ?_, ?_, ?_, ?_, ?_, ?_, ?_, ?_⟩) | dsimp only)
theorem sound_execLeave (slot : Fin 8) (s : State) (h1 : Sound s) : SoundRes (execLeave slot s) := by
  unfold execLeave
  with_reducible (repeat' first
    | assumption | intro _ | apply sound_completes | apply sound_stackCmd | apply sound_warmRestart | dsimp only)
theorem sound_writeRwl (f : Fld) (v : Nat) (s : State) (h2 : Sound s) : Sound (writeRwl f v s) := by
  unfold writeRwl
  with_reducible (repeat' first
    | assumption | apply sound_State_wr | apply sound_extendEvent | apply sound_State_on | apply Sound.ite | split | dsimp only)
theorem sound_writeField (w : Nat) (s : State) (f : Fld) (h1 : Sound s) : Sound (writeField w s f) := by
  unfold writeField
  with_reducible (repeat' first
    | assumption | apply sound_State_wr | apply sound_writeRwl | split | dsimp only)
theorem sound_writeFields (fs : List Fld) (w : Nat) (s : State) (h2 : Sound s) : Sound (writeFields fs w s) := by
  unfold writeFields
  with_reducible (repeat' first
    | assumption | apply sound_writeField | apply Sound.foldl | apply Snd.ite | apply Snd.foldl | apply Snd.out | refine Snd.of (by assumption) ?_
    | simp only [Snd.lit] | dsimp only)
theorem sound_writeEnables (slot : Nat) (f : Fld) (w : Nat) (s : State) (h3 : Sound s) : Sound (writeEnables slot f w s) := by
  unfold writeEnables
  with_reducible (repeat' first
    | assumption | apply sound_deliverIrq | apply sound_State_wr | apply Sound.ite | split | dsimp only)
theorem sound_writeUartWord (u : Nat) (off : Nat) (w : Nat) (s : State) (h3 : Sound s) : Sound (writeUartWord u off w s) := by
  unfold writeUartWord
  with_reducible (repeat' first
    | assumption | intro _ | apply sound_State_off | apply sound_pendUart | apply sound_writeFields | apply sound_State_wr | apply Sound.ite | split
    | dsimp only)
theorem sound_writePins (slot : Nat) (off : Nat) (w : Nat) (m : Nat) (s : State) (h4 : Sound s) : Sound (writePins slot off w m s) := by
  unfold writePins
  with_reducible (repeat' first
    | assumption | intro _ | apply sound_State_wr | apply sound_State_off | apply sound_maskWrite | apply Sound.ite | apply Sound.foldl
    | apply Snd.ite | apply Snd.foldl | apply Snd.out | split | refine Snd.of (by assumption) ?_ | simp only [Snd.lit] | dsimp only)
theorem sound_writeCurve (n : Nat) (w : Nat) (s : State) (h2 : Sound s) : Sound (writeCurve n w s) := by
  unfold writeCurve
  with_reducible (repeat' first
    | assumption | apply sound_putSpin | apply sound_State_wr | apply sound_State_on | apply Sound.ite | split | apply Sound.regs | apply Sound.flash
    | apply Sound.keeping | apply Sound.sdram | apply Sound.stage | apply Sound.porch | apply Sound.hwRam | apply Sound.bufEcc | apply Sound.keepEcc
    | apply Sound.hwEcc | (simp only [Sound.lit_iff]; refine ⟨?_, ?_, ?_, ?_, ?_, ?_, ?_, ?_, ?_, ?_⟩) | dsimp only)
theorem sound_writeSpinCal (n : Nat) (f : Fld) (v : Nat) (good : Bool) (s : State) (h4 : Sound s) : Sound (writeSpinCal n f v good s) := by
  unfold writeSpinCal
  with_reducible (repeat' first
    | assumption | apply sound_State_wr | apply sound_State_on | apply Sound.ite | split | dsimp only)
theorem sound_writeSpinCalA (n : Nat) (w : Nat) (s : State) (h2 : Sound s) : Sound (writeSpinCalA n w s) := by
  unfold writeSpinCalA
  with_reducible (repeat' first
    | assumption | apply sound_writeSpinCal | dsimp only)
theorem sound_writeSledCfg (n : Nat) (w : Nat) (s : State) (h2 : Sound s) : Sound (writeSledCfg n w s) := by
  unfold writeSledCfg
  with_reducible (repeat' first
    | assumption | apply sound_writeField | apply sound_State_wr | apply sound_State_on | apply Sound.ite | split | dsimp only)
theorem sound_writeRfCtrl (n : Nat) (w : Nat) (s : State) (h2 : Sound s) : Sound (writeRfCtrl n w s) := by
  unfold writeRfCtrl
  with_reducible (repeat' first
    | assumption | apply sound_State_wrB | apply sound_State_wr | apply Sound.ite | split | dsimp only)
theorem sound_writeReadCtrl (n : Nat) (w : Nat) (s : State) (h2 : Sound s) : Sound (writeReadCtrl n w s) := by
  unfold writeReadCtrl
  with_reducible (repeat' first
    | assumption | apply sound_setEqFreeze | apply sound_writeFields | dsimp only)
theorem sound_plainWrite (slot : Nat) (a : Nat) (v : Nat) (be : Nat) (s : State) (h4 : Sound s) : Sound (plainWrite slot a v be s) := by
  unfold plainWrite
  with_reducible (repeat' first
    | assumption | intro _ | apply sound_keepingWrite | apply sound_keepingSense | apply sound_deliverIrq | apply sound_clearIrq
    | apply sound_writeEnables | apply sound_writeFields | apply sound_withUart | apply sound_writeUartWord | apply sound_withPins
    | apply sound_writePins | apply sound_writeRfCtrl | apply sound_writeCurve | apply sound_writeSpinCalA | apply sound_writeSpinCal
    | apply sound_writeSledCfg | apply sound_writeReadCtrl | apply sound_setRef | apply Sound.ite | apply Snd.ite | apply Snd.out | split
    | refine Snd.of (by assumption) ?_ | simp only [Snd.lit] | dsimp only)
theorem sound_drumCommand (k : Fin 8) (n : Fin 2) (o : Nat) (w : Nat) (s : State) (h4 : Sound s) : SoundOpt (drumCommand k n o w s) := by
  unfold drumCommand
  with_reducible (repeat' first
    | assumption | apply sound_execLaserSelect | apply sound_execCoilForce | apply sound_execRearm | apply sound_execDhStageDataAccess
    | apply sound_execLoadVoice | apply sound_execSwap | apply sound_execUnload | apply sound_execReseed | apply sound_execVoiceCmdBadOp
    | apply sound_execSledStageDataAccess | apply sound_execSledSeek | apply sound_execRunStage | apply sound_execHome | apply sound_execStop
    | apply sound_State_drew | apply sound_execSledCmdBadOp | apply sound_execEqRestore | apply sound_execStkProdWrite | apply sound_execCalWrite
    | apply Sound.ite | apply SoundRes.ret | apply SoundRes.ite | apply SoundOpt.ret | apply SoundOpt.none | apply SoundOpt.ite | split
    | refine SoundOpt.of (by assumption) ?_ | dsimp only)
theorem sound_ownCommand (k : Fin 8) (a : Nat) (w : Nat) (s : State) (h3 : Sound s) : SoundOpt (ownCommand k a w s) := by
  unfold ownCommand
  with_reducible (repeat' first
    | assumption | intro _ | apply sound_State_off | apply sound_execCheckStream | apply sound_execLoadStream | apply sound_execSealStream
    | apply sound_execCanopyNextWrite | apply sound_execCanopyStageDataAccess | apply sound_execTempoReqWrite | apply sound_execDomainSetRequest
    | apply sound_execDomainClearRequest | apply sound_guardWrite | apply sound_State_on | apply sound_execBellMuffledClear
    | apply sound_execFaultStickyClear | apply sound_execUnprune | apply sound_execTallyTailWrite | apply sound_execMailboxSend
    | apply sound_execGroveVoteWrite | apply sound_execGroveRestart | apply sound_execMemctlTrain | apply sound_execRekey | apply sound_idbWrite
    | apply sound_execGpioOwnerWrite | apply sound_execGpioSet | apply sound_execGpioClr | apply sound_execRetrain | apply sound_execResetLane
    | apply sound_execExpel | apply sound_execAdmitMember | apply sound_execLeave | apply sound_execUartTxWrite | apply sound_after
    | apply sound_execFlushTx | apply sound_execFlushRx | apply sound_drumCommand | apply Sound.ite | apply Snd.ite | apply Snd.out
    | apply SoundRes.ret | apply SoundRes.ite | apply SoundOpt.ret | apply SoundOpt.none | apply SoundOpt.ite | split
    | refine Snd.of (by assumption) ?_ | refine SoundOpt.of (by assumption) ?_ | simp only [Snd.lit] | apply Sound.regs | apply Sound.flash
    | apply Sound.keeping | apply Sound.sdram | apply Sound.stage | apply Sound.porch | apply Sound.hwRam | apply Sound.bufEcc | apply Sound.keepEcc
    | apply Sound.hwEcc | (simp only [Sound.lit_iff]; refine ⟨?_, ?_, ?_, ?_, ?_, ?_, ?_, ?_, ?_, ?_⟩) | dsimp only)
theorem sound_localWrite (slot : Nat) (a : Nat) (v : Nat) (be : Nat) (s : State) (h4 : Sound s) : Thd (localWrite slot a v be s) := by
  unfold localWrite
  with_reducible (repeat' first
    | assumption | intro _ | apply sound_ownCommand | apply sound_answered | apply sound_after | apply sound_guardWrite | apply sound_plainWrite
    | apply Thd.ite | apply Thd.out | apply Snd.ite | apply Snd.out | apply Thd.rest | apply SoundRes.ret | apply SoundRes.ite | apply SoundOpt.ret
    | apply SoundOpt.none | apply SoundOpt.ite | split | refine Thd.of (by assumption) ?_ | refine SoundOpt.of (by assumption) ?_
    | simp only [Thd.lit] | apply Thd.pair | dsimp only)
theorem sound_ownRead (k : Fin 8) (a : Nat) (s : State) (h2 : Sound s) : SoundOpt (ownRead k a s) := by
  unfold ownRead
  with_reducible (repeat' first
    | assumption | apply sound_execCanopyStageDataAccess | apply sound_execUartRxRead | apply sound_execDhStageDataAccess
    | apply sound_execSledStageDataAccess | apply Sound.ite | apply Snd.ite | apply Snd.out | apply SoundRes.ret | apply SoundRes.ite
    | apply SoundOpt.ret | apply SoundOpt.none | apply SoundOpt.ite | split | refine Snd.of (by assumption) ?_ | refine SoundOpt.of (by assumption) ?_
    | simp only [Snd.lit] | dsimp only)
theorem sound_plainRead (slot : Nat) (a : Nat) (s : State) (h2 : Sound s) : Snd (plainRead slot a s) := by
  unfold plainRead
  with_reducible (repeat' first
    | assumption | intro _ | apply sound_refreshView | apply sound_State_wr | apply Sound.ite | apply Sound.foldl | apply Snd.ite | apply Snd.foldl
    | apply Snd.out | apply Tab.wf_filter | apply Tab.rising_filter | split | refine Snd.of (by assumption) ?_ | simp only [Snd.lit]
    | apply Sound.regs | apply Sound.flash | apply Sound.keeping | apply Sound.sdram | apply Sound.stage | apply Sound.porch | apply Sound.hwRam
    | apply Sound.bufEcc | apply Sound.keepEcc | apply Sound.hwEcc | (simp only [Sound.lit_iff]; refine ⟨?_, ?_, ?_, ?_, ?_, ?_, ?_, ?_, ?_, ?_⟩)
    | dsimp only)
theorem sound_servedRead (slot : Nat) (a : Nat) (s : State) (h2 : Sound s) : Snd (servedRead slot a s) := by
  unfold servedRead
  with_reducible (repeat' first
    | assumption | apply sound_State_wr | apply sound_keepingSense | apply sound_plainRead | apply Sound.ite | apply Snd.ite | apply Snd.out | split
    | refine Snd.of (by assumption) ?_ | simp only [Snd.lit] | dsimp only)
theorem sound_localRead (slot : Nat) (a : Nat) (s : State) (h2 : Sound s) : Thd (localRead slot a s) := by
  unfold localRead
  with_reducible (repeat' first
    | assumption | intro _ | apply sound_ownRead | apply sound_answered | apply sound_after | apply sound_guardRead | apply sound_refuse
    | apply sound_State_emit | apply sound_servedRead | apply Sound.ite | apply Thd.ite | apply Thd.out | apply Snd.ite | apply Snd.out
    | apply Thd.rest | apply SoundRes.ret | apply SoundRes.ite | apply SoundOpt.ret | apply SoundOpt.none | apply SoundOpt.ite | split
    | refine Thd.of (by assumption) ?_ | refine Snd.of (by assumption) ?_ | refine SoundOpt.of (by assumption) ?_ | simp only [Thd.lit]
    | simp only [Snd.lit] | apply Thd.pair | dsimp only)
theorem sound_shadowWrite (slot : Nat) (m : Nat) (n : Nat) (o : Nat) (v : Nat) (be : Nat) (s : State) (h6 : Sound s) : Sound (shadowWrite slot m n o v be s) := by
  unfold shadowWrite
  with_reducible (repeat' first
    | assumption | intro _ | apply sound_issueStroke | apply Sound.ite | apply Sound.foldl | apply Snd.ite | apply Snd.foldl | apply Snd.out
    | apply Tab.wf_put | split | refine Snd.of (by assumption) ?_ | simp only [Snd.lit] | apply Sound.regs | apply Sound.flash | apply Sound.keeping
    | apply Sound.sdram | apply Sound.stage | apply Sound.porch | apply Sound.hwRam | apply Sound.bufEcc | apply Sound.keepEcc | apply Sound.hwEcc
    | (simp only [Sound.lit_iff]; refine ⟨?_, ?_, ?_, ?_, ?_, ?_, ?_, ?_, ?_, ?_⟩) | dsimp only)
theorem sound_sendAccess (slot : Nat) (m : Nat) (h : Header) (data : List Nat) (s : State) (h4 : Sound s) : Sound (sendAccess slot m h data s) := by
  unfold sendAccess
  with_reducible (repeat' first
    | assumption | apply sound_pumpAll | apply sound_sendPacket | dsimp only)
theorem sound_sendFar (slot : Nat) (m : Nat) (a : Nat) (be : Nat) (port : Nat) (v : Option Nat) (via : AccVia) (s : State) (h7 : Sound s) : Sound (sendFar slot m a be port v via s) := by
  unfold sendFar
  with_reducible (repeat' first
    | assumption | apply sound_sendAccess | apply sound_putStack | apply Sound.ite | split | apply Sound.regs | apply Sound.flash
    | apply Sound.keeping | apply Sound.sdram | apply Sound.stage | apply Sound.porch | apply Sound.hwRam | apply Sound.bufEcc | apply Sound.keepEcc
    | apply Sound.hwEcc | (simp only [Sound.lit_iff]; refine ⟨?_, ?_, ?_, ?_, ?_, ?_, ?_, ?_, ?_, ?_⟩) | dsimp only)
theorem sound_readReg (slot : Nat) (addr : Nat) (port : Nat) (via : AccVia) (s : State) (h4 : Sound s) : Thd (readReg slot addr port via s) := by
  unfold readReg
  with_reducible (repeat' first
    | assumption | apply sound_localRead | apply sound_activity | apply sound_sendFar | apply Sound.ite | apply Thd.ite | apply Thd.out
    | apply Snd.ite | apply Snd.out | apply Thd.rest | split | refine Thd.of (by assumption) ?_ | refine Snd.of (by assumption) ?_
    | simp only [Thd.lit] | simp only [Snd.lit] | apply Thd.pair | dsimp only)
theorem sound_writeReg (slot : Nat) (addr : Nat) (v : Nat) (be : Nat) (port : Nat) (via : AccVia) (s : State) (h6 : Sound s) : Thd (writeReg slot addr v be port via s) := by
  unfold writeReg
  with_reducible (repeat' first
    | assumption | apply sound_localWrite | apply sound_activity | apply sound_shadowWrite | apply sound_sendFar | apply Sound.ite | apply Thd.ite
    | apply Thd.out | apply Snd.ite | apply Snd.out | apply Thd.rest | split | refine Thd.of (by assumption) ?_ | refine Snd.of (by assumption) ?_
    | simp only [Thd.lit] | simp only [Snd.lit] | apply Thd.pair | dsimp only)
theorem sound_consoleReply (slot : Nat) (write : Bool) (v : Nat) (s : State) (h3 : Sound s) : Sound (consoleReply slot write v s) := by
  unfold consoleReply
  with_reducible (repeat' first
    | assumption | apply sound_State_emit | apply Sound.ite | split | dsimp only)
theorem sound_answerMember (m : Nat) (id : Nat) (slot : Nat) (addr : Nat) (write : Bool) (st : Nat) (v : Nat) (s : State) (h7 : Sound s) : Sound (answerMember m id slot addr write st v s) := by
  unfold answerMember
  with_reducible (repeat' first
    | assumption | apply sound_sendAccess | apply Sound.ite | split | dsimp only [id])
theorem sound_giveAnswer (h : HeldAcc) (r : Ans) (h1 : Thd r) : Sound (giveAnswer h r) := by
  unfold giveAnswer
  with_reducible (repeat' first
    | assumption | apply sound_State_emit | apply sound_consoleReply | apply sound_fillVendor | apply sound_answerMember | apply Sound.ite
    | apply Thd.ite | apply Thd.out | apply Snd.ite | apply Snd.out | apply Thd.rest | split | refine Thd.of (by assumption) ?_
    | refine Snd.of (by assumption) ?_ | simp only [Thd.lit] | simp only [Snd.lit] | apply Thd.pair | dsimp only [id])
theorem sound_runAcc (h : HeldAcc) (s : State) (h1 : Sound s) : Sound (runAcc h s) := by
  unfold runAcc
  with_reducible (repeat' first
    | assumption | apply sound_giveAnswer | apply sound_localWrite | apply sound_localRead | apply sound_writeReg | apply sound_readReg
    | apply Thd.ite | apply Thd.out | apply Snd.ite | apply Snd.out | apply Thd.rest | split | refine Thd.of (by assumption) ?_ | simp only [Thd.lit]
    | apply Thd.pair | dsimp only)
theorem sound_takeAcc (h : HeldAcc) (s : State) (h1 : Sound s) : Sound (takeAcc h s) := by
  unfold takeAcc
  with_reducible (repeat' first
    | assumption | apply sound_runAcc | apply Sound.ite | split | apply Sound.regs | apply Sound.flash | apply Sound.keeping | apply Sound.sdram
    | apply Sound.stage | apply Sound.porch | apply Sound.hwRam | apply Sound.bufEcc | apply Sound.keepEcc | apply Sound.hwEcc
    | (simp only [Sound.lit_iff]; refine ⟨?_, ?_, ?_, ?_, ?_, ?_, ?_, ?_, ?_, ?_⟩) | dsimp only)
theorem sound_serveHeld (s : State) (h0 : Sound s) : Sound (serveHeld s) := by
  unfold serveHeld
  with_reducible (repeat' first
    | assumption | intro _ | apply sound_runAcc | apply Sound.ite | apply Sound.foldl | apply Snd.ite | apply Snd.foldl | apply Snd.out | split
    | refine Snd.of (by assumption) ?_ | simp only [Snd.lit] | apply Sound.regs | apply Sound.flash | apply Sound.keeping | apply Sound.sdram
    | apply Sound.stage | apply Sound.porch | apply Sound.hwRam | apply Sound.bufEcc | apply Sound.keepEcc | apply Sound.hwEcc
    | (simp only [Sound.lit_iff]; refine ⟨?_, ?_, ?_, ?_, ?_, ?_, ?_, ?_, ?_, ?_⟩) | dsimp only)
theorem sound_execDomainStepComplete (domain : Fin 144) (test : DomTest) (s : State) (h2 : Sound s) : SoundRes (execDomainStepComplete domain test s) := by
  unfold execDomainStepComplete
  with_reducible (repeat' first
    | assumption | apply sound_completes | apply sound_serveHeld | apply sound_domainStep | dsimp only)
theorem sound_execTempoSettleExpire (rail : Fin 3) (s : State) (h1 : Sound s) : SoundRes (execTempoSettleExpire rail s) := by
  unfold execTempoSettleExpire
  with_reducible (repeat' first
    | assumption | apply sound_completes | apply sound_serveHeld | apply sound_settleExpire | dsimp only)
theorem sound_execRelockHoldComplete (gen : Fin 6) (s : State) (h1 : Sound s) : SoundRes (execRelockHoldComplete gen s) := by
  unfold execRelockHoldComplete
  with_reducible (repeat' first
    | assumption | apply sound_completes | apply sound_serveHeld | apply sound_relockHoldComplete | dsimp only)
theorem sound_execRelockAttemptFailed (gen : Fin 6) (s : State) (h1 : Sound s) : SoundRes (execRelockAttemptFailed gen s) := by
  unfold execRelockAttemptFailed
  with_reducible (repeat' first
    | assumption | apply sound_completes | apply sound_serveHeld | apply sound_relockAttemptFailed | dsimp only)
theorem sound_execUnassignedAccess (slot : Fin 8) (addr : Nat) (write : Bool) (s : State) (h3 : Sound s) : SoundRes (execUnassignedAccess slot addr write s) := by
  unfold execUnassignedAccess
  with_reducible (repeat' first
    | assumption | apply sound_completes | apply sound_takeAcc | apply Sound.ite | split | dsimp only)
theorem sound_execHeldBlockAccess (slot : Fin 8) (addr : Nat) (write : Option (Nat × Nat)) (s : State) (h3 : Sound s) : SoundRes (execHeldBlockAccess slot addr write s) := by
  unfold execHeldBlockAccess
  with_reducible (repeat' first
    | assumption | apply sound_completes | apply sound_takeAcc | dsimp only)
theorem sound_execLatchedLowRead (slot : Fin 8) (timeline : Bool) (s : State) (h2 : Sound s) : SoundRes (execLatchedLowRead slot timeline s) := by
  unfold execLatchedLowRead
  with_reducible (repeat' first
    | assumption | apply sound_completes | apply sound_takeAcc | apply Sound.ite | split | dsimp only)
theorem sound_onConsole (u : Nat) (f : Nat → State → State) (s : State) (h1 : ∀ y0 y1, Sound y1 → Sound (f y0 y1)) (h2 : Sound s) : Sound (onConsole u f s) := by
  unfold onConsole
  with_reducible (repeat' first
    | assumption | intro _ | apply h1 | apply Sound.ite | split | dsimp only)
theorem sound_execConsolePeek (uart : Fin 4) (addr : Nat) (s : State) (h2 : Sound s) : SoundRes (execConsolePeek uart addr s) := by
  unfold execConsolePeek
  with_reducible (repeat' first
    | assumption | intro _ | apply sound_completes | apply sound_onConsole | apply sound_takeAcc | dsimp only)
theorem sound_execConsolePoke (uart : Fin 4) (addr : Nat) (value : Nat) (s : State) (h3 : Sound s) : SoundRes (execConsolePoke uart addr value s) := by
  unfold execConsolePoke
  with_reducible (repeat' first
    | assumption | intro _ | apply sound_completes | apply sound_onConsole | apply sound_takeAcc | dsimp only)
theorem sound_execConsoleMail (uart : Fin 4) (op : Nat) (tag : Nat) (body : List Nat) (s : State) (h4 : Sound s) : SoundRes (execConsoleMail uart op tag body s) := by
  unfold execConsoleMail
  with_reducible (repeat' first
    | assumption | intro _ | apply sound_completes | apply sound_onConsole | apply sound_sendMail | apply sound_activity | dsimp only)
theorem sound_execConsoleBadLine (uart : Fin 4) (s : State) (h1 : Sound s) : SoundRes (execConsoleBadLine uart s) := by
  unfold execConsoleBadLine
  with_reducible (repeat' first
    | assumption | intro _ | apply sound_completes | apply sound_onConsole | apply sound_State_emit | dsimp only)
theorem sound_driveBytes (p : Nat) (i : Nat) (n : Nat) (word : Nat) (s : State) (h4 : Sound s) : Sound (driveBytes p i n word s) := by
  unfold driveBytes
  with_reducible (repeat' first
    | assumption | intro _ | apply sound_State_emit | dsimp only)
theorem sound_atomicRead (p : Nat) (off : Nat) (n : Nat) (fs : List Fld) (s : State) (h4 : Sound s) : Sound (atomicRead p off n fs s) := by
  unfold atomicRead
  with_reducible (repeat' first
    | assumption | intro _ | apply sound_State_off | apply sound_issueRead | apply sound_changeRbp | apply sound_driveBytes | apply sound_consumeInd
    | apply Sound.ite | apply Tab.wf_filter | apply Tab.rising_filter | split | apply Sound.regs | apply Sound.flash | apply Sound.keeping
    | apply Sound.sdram | apply Sound.stage | apply Sound.porch | apply Sound.hwRam | apply Sound.bufEcc | apply Sound.keepEcc | apply Sound.hwEcc
    | (simp only [Sound.lit_iff]; refine ⟨?_, ?_, ?_, ?_, ?_, ?_, ?_, ?_, ?_, ?_⟩) | dsimp only)
theorem sound_lostRead (p : Nat) (off : Nat) (n : Nat) (s : State) (h3 : Sound s) : Sound (lostRead p off n s) := by
  unfold lostRead
  with_reducible (repeat' first
    | assumption | intro _ | apply sound_State_off | apply sound_driveBytes | apply sound_changeRbp | apply Sound.ite | split | apply Sound.regs
    | apply Sound.flash | apply Sound.keeping | apply Sound.sdram | apply Sound.stage | apply Sound.porch | apply Sound.hwRam | apply Sound.bufEcc
    | apply Sound.keepEcc | apply Sound.hwEcc | (simp only [Sound.lit_iff]; refine ⟨?_, ?_, ?_, ?_, ?_, ?_, ?_, ?_, ?_, ?_⟩) | dsimp only)
theorem sound_windowRead (p : Nat) (slot : Nat) (off : Nat) (n : Nat) (s : State) (h4 : Sound s) : Sound (windowRead p slot off n s) := by
  unfold windowRead
  with_reducible (repeat' first
    | assumption | apply sound_State_off | apply sound_sensePorch | apply sound_State_emit | apply sound_lostRead | apply sound_atomicRead
    | apply sound_driveBytes | apply Sound.ite | split | dsimp only)
theorem sound_byteWrite (p : Nat) (reg : Nat) (w : Nat) (m : Nat) (s : State) (h4 : Sound s) : Sound (byteWrite p reg w m s) := by
  unfold byteWrite
  with_reducible (repeat' first
    | assumption | intro _ | apply sound_writeFields | apply sound_after | apply sound_execIndCmdRead | apply sound_execWinIrqClear
    | apply sound_execRefill | apply sound_execDmaGo | apply sound_served | apply sound_cancelFree | apply Sound.ite | apply Tab.wf_filter
    | apply Tab.rising_filter | split | dsimp only)
theorem sound_windowWrite (p : Nat) (off : Nat) (bs : List Nat) (s0 : State) (h3 : Sound s0) : Sound (windowWrite p off bs s0) := by
  unfold windowWrite
  with_reducible (repeat' first
    | assumption | intro _ | apply sound_State_off | apply sound_setBufEcc | apply sound_post | apply sound_putPorchList | apply sound_atomicWrite
    | apply sound_byteWrite | apply Sound.ite | split | dsimp only)
theorem sound_execRegisterWrite (path : RegPath) (value : Nat) (byteEn : Nat) (s : State) (h3 : Sound s) : SoundRes (execRegisterWrite path value byteEn s) := by
  unfold execRegisterWrite
  with_reducible (repeat' first
    | assumption | intro _ | apply sound_completes | apply sound_onArrival | apply sound_takeAcc | apply sound_window | apply sound_windowWrite
    | apply Snd.ite | apply Snd.out | split | refine Snd.of (by assumption) ?_ | simp only [Snd.lit] | dsimp only)
theorem sound_execRegisterRead (path : RegPath) (count : Nat) (s : State) (h2 : Sound s) : SoundRes (execRegisterRead path count s) := by
  unfold execRegisterRead
  with_reducible (repeat' first
    | assumption | intro _ | apply sound_completes | apply sound_onArrival | apply sound_takeAcc | apply sound_window | apply sound_windowRead
    | apply Snd.ite | apply Snd.out | split | refine Snd.of (by assumption) ?_ | simp only [Snd.lit] | dsimp only)
theorem sound_execAtomicRegisterRead (port : Fin 2) (offset : Nat) (count : Nat) (s : State) (h3 : Sound s) : SoundRes (execAtomicRegisterRead port offset count s) := by
  unfold execAtomicRegisterRead
  with_reducible (repeat' first
    | assumption | intro _ | apply sound_completes | apply sound_window | apply sound_windowRead | apply Snd.ite | apply Snd.out | split
    | refine Snd.of (by assumption) ?_ | simp only [Snd.lit] | dsimp only)
theorem sound_endIndirect (p : Nat) (write : Bool) (direct : Bool) (waits : Bool) (status : Option Nat) (v : Nat) (s : State) (h6 : Sound s) : Sound (endIndirect p write direct waits status v s) := by
  unfold endIndirect
  with_reducible (repeat' first
    | assumption | intro _ | apply sound_issued | apply sound_State_on | apply sound_State_wr | apply sound_State_off | apply sound_driveBytes
    | apply sound_changeRbp | apply Sound.ite | apply Snd.ite | apply Snd.out | split | refine Snd.of (by assumption) ?_ | simp only [Snd.lit]
    | apply Sound.regs | apply Sound.flash | apply Sound.keeping | apply Sound.sdram | apply Sound.stage | apply Sound.porch | apply Sound.hwRam
    | apply Sound.bufEcc | apply Sound.keepEcc | apply Sound.hwEcc | (simp only [Sound.lit_iff]; refine ⟨?_, ?_, ?_, ?_, ?_, ?_, ?_, ?_, ?_, ?_⟩)
    | dsimp only)
theorem sound_awaitRemote (p : Nat) (write : Bool) (direct : Bool) (waits : Bool) (s : State) (h4 : Sound s) : Sound (awaitRemote p write direct waits s) := by
  unfold awaitRemote
  with_reducible (repeat' first
    | assumption | intro _ | apply sound_changeRbp | apply Sound.regs | apply Sound.flash | apply Sound.keeping | apply Sound.sdram
    | apply Sound.stage | apply Sound.porch | apply Sound.hwRam | apply Sound.bufEcc | apply Sound.keepEcc | apply Sound.hwEcc
    | (simp only [Sound.lit_iff]; refine ⟨?_, ?_, ?_, ?_, ?_, ?_, ?_, ?_, ?_, ?_⟩) | dsimp only)
theorem sound_execIndirectAnswer (port : Fin 2) (timeout : Bool) (s : State) (h2 : Sound s) : SoundRes (execIndirectAnswer port timeout s) := by
  unfold execIndirectAnswer
  with_reducible (repeat' first
    | assumption | apply sound_completes | apply sound_endIndirect | apply sound_spineTimedOut | apply sound_readReg | apply sound_awaitRemote
    | apply sound_writeReg | apply sound_State_wr | apply sound_forgetFar | apply sound_issued | apply Sound.ite | apply Thd.ite | apply Thd.out
    | apply Snd.ite | apply Snd.out | apply Thd.rest | split | refine Thd.of (by assumption) ?_ | refine Snd.of (by assumption) ?_
    | simp only [Thd.lit] | simp only [Snd.lit] | apply Thd.pair | dsimp only)
theorem sound_withDoor (p : Nat) (f : Nat → Door → State → State) (s : State) (h1 : ∀ y0 y1 y2, Sound y2 → Sound (f y0 y1 y2)) (h2 : Sound s) : Sound (withDoor p f s) := by
  unfold withDoor
  with_reducible (repeat' first
    | assumption | intro _ | apply h1 | apply Sound.ite | split | dsimp only)
theorem sound_sendStrokes (n : Nat) (slot : Nat) : ∀ (z2 : List (List Nat)) (z3 : Nat) (z4 : State) (h4 : Sound z4), Snd (sendStrokes n slot z2 z3 z4) := by
  intro z2
  induction z2 with
  | nil =>
    intros
    unfold sendStrokes
    with_reducible (repeat' first
      | assumption | intro _ | apply sound_writeProd | apply sound_wrList | apply Sound.ite | apply Snd.ite | apply Snd.out | split
      | refine Snd.of (by assumption) ?_ | simp only [Snd.lit] | dsimp only)
  | cons _ _ ih =>
    intros
    unfold sendStrokes
    with_reducible (repeat' first
      | assumption | intro _ | apply sound_writeProd | apply sound_wrList | apply ih | apply Sound.ite | apply Snd.ite | apply Snd.out | split
      | refine Snd.of (by assumption) ?_ | simp only [Snd.lit] | dsimp only)
theorem sound_doorStroke (p : Nat) (slot : Nat) (d : Door) (s : State) (h3 : Sound s) : Sound (doorStroke p slot d s) := by
  unfold doorStroke
  with_reducible (repeat' first
    | assumption | intro _ | apply sound_endDoor | apply sound_refuse | apply sound_sendStrokes | apply sound_activity | apply Sound.ite
    | apply Snd.ite | apply Snd.out | split | refine Snd.of (by assumption) ?_ | simp only [Snd.lit] | dsimp only)
theorem sound_doorTally (p : Nat) (slot : Nat) (d : Door) (s : State) (h3 : Sound s) : Sound (doorTally p slot d s) := by
  unfold doorTally
  with_reducible (repeat' first
    | assumption | intro _ | apply sound_putPorchList | apply sound_activity | apply sound_endDoor | apply sound_State_wr | apply Sound.foldl
    | apply Snd.ite | apply Snd.foldl | apply Snd.out | refine Snd.of (by assumption) ?_ | simp only [Snd.lit] | dsimp only)
theorem sound_refuseDoor (p : Nat) (slot : Nat) (s : State) (h2 : Sound s) : Sound (refuseDoor p slot s) := by
  unfold refuseDoor
  with_reducible (repeat' first
    | assumption | apply sound_endDoor | apply sound_refuse | apply sound_State_drew | dsimp only)
theorem sound_doorPull (p : Nat) (slot : Nat) (d : Door) (s : State) (h3 : Sound s) : Sound (doorPull p slot d s) := by
  unfold doorPull
  with_reducible (repeat' first
    | assumption | intro _ | apply sound_endDoor | apply sound_refuseDoor | apply sound_pullRecords | apply sound_activity | apply sound_putPorchList
    | apply Sound.foldl | apply Snd.ite | apply Snd.foldl | apply Snd.out | split | refine Snd.of (by assumption) ?_ | simp only [Snd.lit]
    | dsimp only)
theorem sound_doorPush (p : Nat) (slot : Nat) (d : Door) (s : State) (h3 : Sound s) : Sound (doorPush p slot d s) := by
  unfold doorPush
  with_reducible (repeat' first
    | assumption | intro _ | apply sound_endDoor | apply sound_refuseDoor | apply sound_pushRecords | apply sound_activity | apply Fth.ite
    | apply Fth.out | apply Snd.ite | apply Snd.out | split | refine Fth.of (by assumption) ?_ | refine Snd.of (by assumption) ?_
    | simp only [Fth.lit] | simp only [Snd.lit] | dsimp only)
theorem sound_doorMail (p : Nat) (slot : Nat) (d : Door) (s : State) (h3 : Sound s) : Sound (doorMail p slot d s) := by
  unfold doorMail
  with_reducible (repeat' first
    | assumption | apply sound_endDoor | apply sound_issued | apply sound_sendMail | apply sound_activity | split | dsimp only)
theorem sound_runDoor (p : Nat) (ops : List Nat) (s : State) (h2 : Sound s) : Sound (runDoor p ops s) := by
  unfold runDoor
  with_reducible (repeat' first
    | assumption | intro _ | apply sound_withDoor | apply sound_doorStroke | apply sound_doorTally | apply sound_doorPull | apply sound_doorPush
    | apply sound_doorMail | apply Sound.ite | split | dsimp only)
theorem sound_badDoor (p : Nat) (s : State) (h1 : Sound s) : Sound (badDoor p s) := by
  unfold badDoor
  with_reducible (repeat' first
    | assumption | apply sound_endDoor | apply Sound.ite | split | dsimp only)
theorem sound_execDoorbellStroke (port : Fin 2) (s : State) (h1 : Sound s) : SoundRes (execDoorbellStroke port s) := by
  unfold execDoorbellStroke
  with_reducible (repeat' first
    | assumption | apply sound_completes | apply sound_runDoor | dsimp only)
theorem sound_execDoorbellTally (port : Fin 2) (s : State) (h1 : Sound s) : SoundRes (execDoorbellTally port s) := by
  unfold execDoorbellTally
  with_reducible (repeat' first
    | assumption | apply sound_completes | apply sound_runDoor | dsimp only)
theorem sound_execQueuePull (port : Fin 2) (s : State) (h1 : Sound s) : SoundRes (execQueuePull port s) := by
  unfold execQueuePull
  with_reducible (repeat' first
    | assumption | apply sound_completes | apply sound_runDoor | dsimp only)
theorem sound_execQueuePush (port : Fin 2) (s : State) (h1 : Sound s) : SoundRes (execQueuePush port s) := by
  unfold execQueuePush
  with_reducible (repeat' first
    | assumption | apply sound_completes | apply sound_runDoor | dsimp only)
theorem sound_execDoorbellMailbox (port : Fin 2) (s : State) (h1 : Sound s) : SoundRes (execDoorbellMailbox port s) := by
  unfold execDoorbellMailbox
  with_reducible (repeat' first
    | assumption | apply sound_completes | apply sound_runDoor | dsimp only)
theorem sound_execDoorbellBadOp (port : Fin 2) (s : State) (h1 : Sound s) : SoundRes (execDoorbellBadOp port s) := by
  unfold execDoorbellBadOp
  with_reducible (repeat' first
    | assumption | apply sound_completes | apply sound_badDoor | dsimp only)
theorem sound_execDoorbellDone (port : Fin 2) (s : State) (h1 : Sound s) : SoundRes (execDoorbellDone port s) := by
  unfold execDoorbellDone
  with_reducible (repeat' first
    | assumption | apply sound_completes | apply sound_badDoor | apply sound_runDoor | dsimp only)
theorem sound_execVendorRegRead (slot : Fin 8) (value : Nat) (index : Nat) (length : Nat) (s : State) (h4 : Sound s) : SoundRes (execVendorRegRead slot value index length s) := by
  unfold execVendorRegRead
  with_reducible (repeat' first
    | assumption | intro _ | apply sound_completes | apply sound_State_emit | apply sound_takeAcc | apply Sound.ite | apply Sound.foldl
    | apply Snd.ite | apply Snd.foldl | apply Snd.out | split | refine Snd.of (by assumption) ?_ | simp only [Snd.lit] | apply Sound.regs
    | apply Sound.flash | apply Sound.keeping | apply Sound.sdram | apply Sound.stage | apply Sound.porch | apply Sound.hwRam | apply Sound.bufEcc
    | apply Sound.keepEcc | apply Sound.hwEcc | (simp only [Sound.lit_iff]; refine ⟨?_, ?_, ?_, ?_, ?_, ?_, ?_, ?_, ?_, ?_⟩) | dsimp only)
theorem sound_execVendorRegWrite (slot : Fin 8) (value : Nat) (index : Nat) (words : List Nat) (s : State) (h4 : Sound s) : SoundRes (execVendorRegWrite slot value index words s) := by
  unfold execVendorRegWrite
  with_reducible (repeat' first
    | assumption | intro _ | apply sound_completes | apply sound_State_emit | apply sound_takeAcc | apply Sound.ite | apply Sound.foldl
    | apply Snd.ite | apply Snd.foldl | apply Snd.out | split | refine Snd.of (by assumption) ?_ | simp only [Snd.lit] | dsimp only)
theorem sound_execVendorRequestStall (slot : Fin 8) (request : Nat) (value : Nat) (length : Nat) (s : State) (h4 : Sound s) : SoundRes (execVendorRequestStall slot request value length s) := by
  unfold execVendorRequestStall
  with_reducible (repeat' first
    | assumption | apply sound_completes | apply sound_State_emit | apply Sound.ite | split | dsimp only)
theorem sound_rootAnswer (m : Nat) (slot : Nat) (h : Header) (write : Bool) (v : Nat) (s : State) (h5 : Sound s) : Sound (rootAnswer m slot h write v s) := by
  unfold rootAnswer
  with_reducible (repeat' first
    | assumption | intro _ | apply sound_putStack | apply sound_refuse | apply sound_fillVendor | apply sound_consoleReply | apply sound_State_wr
    | apply sound_endIndirect | apply sound_issued | apply sound_State_emit | apply Sound.ite | split | apply Sound.regs | apply Sound.flash
    | apply Sound.keeping | apply Sound.sdram | apply Sound.stage | apply Sound.porch | apply Sound.hwRam | apply Sound.bufEcc | apply Sound.keepEcc
    | apply Sound.hwEcc | (simp only [Sound.lit_iff]; refine ⟨?_, ?_, ?_, ?_, ?_, ?_, ?_, ?_, ?_, ?_⟩) | dsimp only [id])
theorem sound_servePacket (m : Nat) (g : Nat) (fs : List Nat) (s : State) (h3 : Sound s) : Sound (servePacket m g fs s) := by
  unfold servePacket
  with_reducible (repeat' first
    | assumption | intro _ | apply sound_receive | apply sound_takeAcc | apply sound_rootAnswer | apply sound_arriveAccess | apply sound_setIrq
    | apply sound_pumpAll | apply sound_sendTo | apply Sound.ite | apply Sound.foldl | apply Snd.ite | apply Snd.foldl | apply Snd.out | split
    | refine Snd.of (by assumption) ?_ | simp only [Snd.lit] | apply Sound.regs | apply Sound.flash | apply Sound.keeping | apply Sound.sdram
    | apply Sound.stage | apply Sound.porch | apply Sound.hwRam | apply Sound.bufEcc | apply Sound.keepEcc | apply Sound.hwEcc
    | (simp only [Sound.lit_iff]; refine ⟨?_, ?_, ?_, ?_, ?_, ?_, ?_, ?_, ?_, ?_⟩) | dsimp only [id])
theorem sound_takeRemoteTally (id : Nat) (fs : List Nat) (s : State) (h2 : Sound s) : Sound (takeRemoteTally id fs s) := by
  unfold takeRemoteTally
  with_reducible (repeat' first
    | assumption | intro _ | apply sound_receive | apply sound_releaseRequests | apply sound_endRequest | apply Tab.wf_filter
    | apply Tab.rising_filter | split | apply Sound.regs | apply Sound.flash | apply Sound.keeping | apply Sound.sdram | apply Sound.stage
    | apply Sound.porch | apply Sound.hwRam | apply Sound.bufEcc | apply Sound.keepEcc | apply Sound.hwEcc
    | (simp only [Sound.lit_iff]; refine ⟨?_, ?_, ?_, ?_, ?_, ?_, ?_, ?_, ?_, ?_⟩) | dsimp only [id])
theorem sound_takeControl (f : List Nat) (s : State) (h1 : Sound s) : Sound (takeControl f s) := by
  unfold takeControl
  with_reducible (repeat' first
    | assumption | apply sound_putStack | apply sound_servePacket | apply sound_takeRemoteTally | apply Sound.ite | split | apply Sound.regs
    | apply Sound.flash | apply Sound.keeping | apply Sound.sdram | apply Sound.stage | apply Sound.porch | apply Sound.hwRam | apply Sound.bufEcc
    | apply Sound.keepEcc | apply Sound.hwEcc | (simp only [Sound.lit_iff]; refine ⟨?_, ?_, ?_, ?_, ?_, ?_, ?_, ?_, ?_, ?_⟩) | dsimp only [id])
theorem sound_giveFar (x : Request) (st : Stroke) (i : Nat) (bs : List Nat) (s : State) (h4 : Sound s) : Sound (giveFar x st i bs s) := by
  unfold giveFar
  with_reducible (repeat' first
    | assumption | intro _ | apply sound_State_drew | apply sound_State_emit | apply Sound.ite | apply Sound.foldl | apply Snd.ite | apply Snd.foldl
    | apply Snd.out | split | refine Snd.of (by assumption) ?_ | simp only [Snd.lit] | apply Sound.regs | apply Sound.flash | apply Sound.keeping
    | apply Sound.sdram | apply Sound.stage | apply Sound.porch | apply Sound.hwRam | apply Sound.bufEcc | apply Sound.keepEcc | apply Sound.hwEcc
    | (simp only [Sound.lit_iff]; refine ⟨?_, ?_, ?_, ?_, ?_, ?_, ?_, ?_, ?_, ?_⟩) | dsimp only [id])
theorem sound_takeUnitFrame (f : List Nat) (s : State) (h1 : Sound s) : Sound (takeUnitFrame f s) := by
  unfold takeUnitFrame
  with_reducible (repeat' first
    | assumption | intro _ | apply sound_sendBrief | apply sound_giveFar | apply sound_memRefuse | apply sound_unitWrite | apply Sound.ite
    | apply Snd.ite | apply Snd.out | split | refine Snd.of (by assumption) ?_ | simp only [Snd.lit] | apply Sound.regs | apply Sound.flash
    | apply Sound.keeping | apply Sound.sdram | apply Sound.stage | apply Sound.porch | apply Sound.hwRam | apply Sound.bufEcc | apply Sound.keepEcc
    | apply Sound.hwEcc | (simp only [Sound.lit_iff]; refine ⟨?_, ?_, ?_, ?_, ?_, ?_, ?_, ?_, ?_, ?_⟩) | dsimp only [id])
theorem sound_takePayload (f : List Nat) (s : State) (h1 : Sound s) : Sound (takePayload f s) := by
  unfold takePayload
  with_reducible (repeat' first
    | assumption | intro _ | apply sound_takeUnitFrame | apply Sound.ite | split | apply Sound.regs | apply Sound.flash | apply Sound.keeping
    | apply Sound.sdram | apply Sound.stage | apply Sound.porch | apply Sound.hwRam | apply Sound.bufEcc | apply Sound.keepEcc | apply Sound.hwEcc
    | (simp only [Sound.lit_iff]; refine ⟨?_, ?_, ?_, ?_, ?_, ?_, ?_, ?_, ?_, ?_⟩) | dsimp only [id])
theorem sound_takeFrame (p : Nat) (ty : Nat) (frame : List Nat) (deliver : List Nat → State → State) (s : State) (h3 : ∀ y0 y1, Sound y1 → Sound (deliver y0 y1)) (h4 : Sound s) : Sound (takeFrame p ty frame deliver s) := by
  unfold takeFrame
  with_reducible (repeat' first
    | assumption | intro _ | apply sound_openFrame | apply sound_takeHeader | apply sound_sequence | apply sound_pumpAll | apply sound_ringBell
    | apply sound_freeBuffer | apply sound_forwardFrame | apply h3 | apply Sound.ite | apply Snd.ite | apply Snd.out | apply SoundOpened.drop
    | apply SoundOpened.good | apply SoundOpened.ite | split | refine Snd.of (by assumption) ?_ | refine SoundOpened.of1 (by assumption) ?_
    | refine SoundOpened.of2 (by assumption) ?_ | simp only [Snd.lit] | dsimp only)
theorem sound_execPayload (port : Fin 4) (frame : List Nat) (s : State) (h2 : Sound s) : SoundRes (execPayload port frame s) := by
  unfold execPayload
  with_reducible (repeat' first
    | assumption | intro _ | apply sound_completes | apply sound_takeFrame | apply sound_takePayload | dsimp only)
theorem sound_execControl (port : Fin 4) (frame : List Nat) (s : State) (h2 : Sound s) : SoundRes (execControl port frame s) := by
  unfold execControl
  with_reducible (repeat' first
    | assumption | intro _ | apply sound_completes | apply sound_takeFrame | apply sound_takeControl | dsimp only)
theorem sound_scsiArrives (fits : Nat → Bool) (slot : Nat) (l : Nat) (tag : Nat) (cdb : List Nat) (s : State) (h5 : Sound s) : Sound (scsiArrives fits slot l tag cdb s) := by
  unfold scsiArrives
  with_reducible (repeat' first
    | assumption | intro _ | apply sound_State_emit | apply sound_releaseRequests | apply sound_settleLun | apply sound_putLun | apply Sound.ite
    | apply Snd.ite | apply Snd.out | split | refine Snd.of (by assumption) ?_ | simp only [Snd.lit] | apply Sound.regs | apply Sound.flash
    | apply Sound.keeping | apply Sound.sdram | apply Sound.stage | apply Sound.porch | apply Sound.hwRam | apply Sound.bufEcc | apply Sound.keepEcc
    | apply Sound.hwEcc | (simp only [Sound.lit_iff]; refine ⟨?_, ?_, ?_, ?_, ?_, ?_, ?_, ?_, ?_, ?_⟩) | dsimp only)
theorem sound_execTestUnitReady (slot : Fin 8) (lun : Fin 16) (tag : Nat) (cdb : List Nat) (s : State) (h4 : Sound s) : SoundRes (execTestUnitReady slot lun tag cdb s) := by
  unfold execTestUnitReady
  with_reducible (repeat' first
    | assumption | apply sound_completes | apply sound_scsiArrives | dsimp only)
theorem sound_execRequestSense (slot : Fin 8) (lun : Fin 16) (tag : Nat) (cdb : List Nat) (s : State) (h4 : Sound s) : SoundRes (execRequestSense slot lun tag cdb s) := by
  unfold execRequestSense
  with_reducible (repeat' first
    | assumption | apply sound_completes | apply sound_scsiArrives | dsimp only)
theorem sound_execInquiry (slot : Fin 8) (lun : Fin 16) (tag : Nat) (cdb : List Nat) (s : State) (h4 : Sound s) : SoundRes (execInquiry slot lun tag cdb s) := by
  unfold execInquiry
  with_reducible (repeat' first
    | assumption | apply sound_completes | apply sound_scsiArrives | dsimp only)
theorem sound_execStartStopUnit (slot : Fin 8) (lun : Fin 16) (tag : Nat) (cdb : List Nat) (s : State) (h4 : Sound s) : SoundRes (execStartStopUnit slot lun tag cdb s) := by
  unfold execStartStopUnit
  with_reducible (repeat' first
    | assumption | apply sound_completes | apply sound_scsiArrives | dsimp only)
theorem sound_execPreventAllowMediumRemoval (slot : Fin 8) (lun : Fin 16) (tag : Nat) (cdb : List Nat) (s : State) (h4 : Sound s) : SoundRes (execPreventAllowMediumRemoval slot lun tag cdb s) := by
  unfold execPreventAllowMediumRemoval
  with_reducible (repeat' first
    | assumption | apply sound_completes | apply sound_scsiArrives | dsimp only)
theorem sound_execReadCapacity10 (slot : Fin 8) (lun : Fin 16) (tag : Nat) (cdb : List Nat) (s : State) (h4 : Sound s) : SoundRes (execReadCapacity10 slot lun tag cdb s) := by
  unfold execReadCapacity10
  with_reducible (repeat' first
    | assumption | apply sound_completes | apply sound_scsiArrives | dsimp only)
theorem sound_execRead10 (slot : Fin 8) (lun : Fin 16) (tag : Nat) (cdb : List Nat) (s : State) (h4 : Sound s) : SoundRes (execRead10 slot lun tag cdb s) := by
  unfold execRead10
  with_reducible (repeat' first
    | assumption | apply sound_completes | apply sound_scsiArrives | dsimp only)
theorem sound_execRead12 (slot : Fin 8) (lun : Fin 16) (tag : Nat) (cdb : List Nat) (s : State) (h4 : Sound s) : SoundRes (execRead12 slot lun tag cdb s) := by
  unfold execRead12
  with_reducible (repeat' first
    | assumption | apply sound_completes | apply sound_scsiArrives | dsimp only)
theorem sound_execReadCd (slot : Fin 8) (lun : Fin 16) (tag : Nat) (cdb : List Nat) (s : State) (h4 : Sound s) : SoundRes (execReadCd slot lun tag cdb s) := by
  unfold execReadCd
  with_reducible (repeat' first
    | assumption | apply sound_completes | apply sound_scsiArrives | dsimp only)
theorem sound_execSeek10 (slot : Fin 8) (lun : Fin 16) (tag : Nat) (cdb : List Nat) (s : State) (h4 : Sound s) : SoundRes (execSeek10 slot lun tag cdb s) := by
  unfold execSeek10
  with_reducible (repeat' first
    | assumption | apply sound_completes | apply sound_scsiArrives | dsimp only)
theorem sound_execReadSubChannel (slot : Fin 8) (lun : Fin 16) (tag : Nat) (cdb : List Nat) (s : State) (h4 : Sound s) : SoundRes (execReadSubChannel slot lun tag cdb s) := by
  unfold execReadSubChannel
  with_reducible (repeat' first
    | assumption | apply sound_completes | apply sound_scsiArrives | dsimp only)
theorem sound_execReadTocPmaAtip (slot : Fin 8) (lun : Fin 16) (tag : Nat) (cdb : List Nat) (s : State) (h4 : Sound s) : SoundRes (execReadTocPmaAtip slot lun tag cdb s) := by
  unfold execReadTocPmaAtip
  with_reducible (repeat' first
    | assumption | apply sound_completes | apply sound_scsiArrives | dsimp only)
theorem sound_execPlayAudio10 (slot : Fin 8) (lun : Fin 16) (tag : Nat) (cdb : List Nat) (s : State) (h4 : Sound s) : SoundRes (execPlayAudio10 slot lun tag cdb s) := by
  unfold execPlayAudio10
  with_reducible (repeat' first
    | assumption | apply sound_completes | apply sound_scsiArrives | dsimp only)
theorem sound_execPlayAudioMsf (slot : Fin 8) (lun : Fin 16) (tag : Nat) (cdb : List Nat) (s : State) (h4 : Sound s) : SoundRes (execPlayAudioMsf slot lun tag cdb s) := by
  unfold execPlayAudioMsf
  with_reducible (repeat' first
    | assumption | apply sound_completes | apply sound_scsiArrives | dsimp only)
theorem sound_execGetConfiguration (slot : Fin 8) (lun : Fin 16) (tag : Nat) (cdb : List Nat) (s : State) (h4 : Sound s) : SoundRes (execGetConfiguration slot lun tag cdb s) := by
  unfold execGetConfiguration
  with_reducible (repeat' first
    | assumption | apply sound_completes | apply sound_scsiArrives | dsimp only)
theorem sound_execGetEventStatusNotification (slot : Fin 8) (lun : Fin 16) (tag : Nat) (cdb : List Nat) (s : State) (h4 : Sound s) : SoundRes (execGetEventStatusNotification slot lun tag cdb s) := by
  unfold execGetEventStatusNotification
  with_reducible (repeat' first
    | assumption | apply sound_completes | apply sound_scsiArrives | dsimp only)
theorem sound_execModeSense10 (slot : Fin 8) (lun : Fin 16) (tag : Nat) (cdb : List Nat) (s : State) (h4 : Sound s) : SoundRes (execModeSense10 slot lun tag cdb s) := by
  unfold execModeSense10
  with_reducible (repeat' first
    | assumption | apply sound_completes | apply sound_scsiArrives | dsimp only)
theorem sound_execReadDiscStructure (slot : Fin 8) (lun : Fin 16) (tag : Nat) (cdb : List Nat) (s : State) (h4 : Sound s) : SoundRes (execReadDiscStructure slot lun tag cdb s) := by
  unfold execReadDiscStructure
  with_reducible (repeat' first
    | assumption | apply sound_completes | apply sound_scsiArrives | dsimp only)
theorem sound_execScsiUnsupported (slot : Fin 8) (lun : Fin 16) (tag : Nat) (cdb : List Nat) (s : State) (h4 : Sound s) : SoundRes (execScsiUnsupported slot lun tag cdb s) := by
  unfold execScsiUnsupported
  with_reducible (repeat' first
    | assumption | intro _ | apply sound_completes | apply sound_scsiArrives | dsimp only)
theorem sound_tickDrum (n : Nat) (s : State) (h1 : Sound s) : Sound (tickDrum n s) := by
  unfold tickDrum
  with_reducible (repeat' first
    | assumption | apply sound_endCheck | apply sound_sledRun | apply Sound.ite | split | dsimp only)
theorem sound_tick (s : State) (h0 : Sound s) : Sound (tick s) := by
  unfold tick
  with_reducible (repeat' first
    | assumption | apply sound_idleTick | apply sound_tickDrum | apply Sound.ite | split | dsimp only)
theorem sound_State_withFetchWord (s : State) (nbits : Nat) (w : Nat) (h0 : Sound s) : Sound (State.withFetchWord s nbits w) := by
  unfold State.withFetchWord
  with_reducible (repeat' first
    | assumption | split | apply Sound.regs | apply Sound.flash | apply Sound.keeping | apply Sound.sdram | apply Sound.stage | apply Sound.porch
    | apply Sound.hwRam | apply Sound.bufEcc | apply Sound.keepEcc | apply Sound.hwEcc
    | (simp only [Sound.lit_iff]; refine ⟨?_, ?_, ?_, ?_, ?_, ?_, ?_, ?_, ?_, ?_⟩) | dsimp only)

end Sys2Proof.Machine
end

