-- ==== Sys2Proof/Machine/Balls.lean ====
section
/-! DEFINITION. The ball map (R522 to R530) and the reserved balls of a variant (R533). -/
namespace Sys2Proof.Machine

/-- A ball: its unit ("" for none), the unit's number, and the name within it, as in TILE_3_TX_1_P. A supply or VSS has no
unit, and VDD_DRUM_n, VM and PGND carry n. -/
structure Ball where
  unit : String
  k : Nat
  name : String
deriving DecidableEq, Repr
def vss : Ball := ⟨"", 0, "VSS"⟩
/-- A ball of a table's cell: VSS and supplies belong to no unit. -/
def cell (unit : String) (k : Nat) (name : String) : Ball :=
  if name = "VSS" || name = "VDD_DDR" || name = "VDD_IO33" || name = "VCONN_IN" || name = "RSVD_NC" || name = "USB_RREF" then ⟨"", 0, name⟩
  else ⟨unit, k, name⟩
/-- Place j of row i of a table of names. -/
def place (t : List (List String)) (i j : Nat) : String := (t.getD i []).getD j "VSS"

/-- Table 25-3. -/
def tileBalls : List (List String) :=
  [["TX_1_P", "TX_1_N", "VSS", "RX_1_P", "RX_1_N"], ["TX_2_P", "TX_2_N", "VSS", "RX_2_P", "RX_2_N"], ["VSS", "DP", "DN", "VSS", "VSS"],
   ["CC_1", "CC_2", "SBU_1", "SBU_2", "VSS"], ["VBUS", "VOUT", "ISP", "ISN", "VSS"], ["GATE", "CONV_EN", "DISCH", "VSET", "VSS"]]
/-- Table 25-4, columns 36 to 38 from the package edge; USB_RREF stands in the top corner only. -/
def cornerBalls (top : Bool) : List (List String) :=
  [["VDD_IO33", "VSS", "RSVD_NC"], ["VDD_IO33", "VSS", "RSVD_NC"], ["VCONN_IN", "VCONN_IN", "VSS"],
   ["VDD_IO33", if top then "USB_RREF" else "VSS", "VSS"], ["VDD_IO33", "VSS", "VDD_IO33"], ["VDD_IO33", "VSS", "VSS"]]
/-- Byte lane k of the SDRAM (Table 25-5): a DQ ball is named by its bit. -/
def laneBall (k row col : Nat) : Ball :=
  let dq (i : Nat) : Ball := ⟨"DDR_DQ", 8 * k + i, ""⟩
  let named (n : String) : Ball := ⟨"DDR", k, n⟩
  (([[dq 0, dq 1, vss, named "DQS_P", named "DQS_N", vss, dq 2, dq 3],
     [dq 4, dq 5, cell "" 0 "VDD_DDR", named "DMI_N", vss, cell "" 0 "VDD_DDR", dq 6, dq 7]] : List (List Ball)).getD row []).getD col vss
/-- Table 25-6. -/
def commandBalls : List (List String) :=
  [["A_0", "A_1", "A_2", "A_3", "VSS", "A_4", "A_5", "A_6"], ["A_7", "A_8", "A_9", "A_10", "VSS", "A_11", "A_12", "A_13"],
   ["A_14", "A_15", "A_16", "VSS", "VDD_DDR", "BA_0", "BA_1", "VSS"], ["BG_0", "BG_1", "ACT_N", "VSS", "VDD_DDR", "PAR", "ALERT_N", "VSS"],
   ["CK_0_P", "CK_0_N", "VSS", "VSS", "VDD_DDR", "CK_1_P", "CK_1_N", "VSS"], ["VSS", "VSS", "VSS", "VSS", "VDD_DDR", "VSS", "VSS", "VSS"],
   ["CKE_0", "CKE_1", "CS_0_N", "CS_1_N", "VDD_DDR", "ODT_0", "ODT_1", "VSS"], ["RESET_N", "ZQ", "VSS", "VSS", "VDD_DDR", "VSS", "VSS", "VSS"]]
/-- The signals of a Retro Bus Port after its 16 data and 12 address lines (R526). -/
def rbpNames : List String :=
  ["SEL_N", "CLK", "RW", "STB_A_N", "STB_B_N", "LB_N", "UB_N", "ACK_N", "WAIT", "IRQ_N", "NMI_N", "BREQ_N", "BGNT_N", "ALE", "STRAP_A", "STRAP_B"]
def rbpBall (p s : Nat) : Ball :=
  if s < 16 then ⟨if p = 0 then "RBP_0_D" else "RBP_1_D", s, ""⟩
  else if s < 28 then ⟨if p = 0 then "RBP_0_A" else "RBP_1_A", s - 16, ""⟩
  else ⟨"RBP", p, rbpNames.getD (s - 28) "VSS"⟩
/-- The core-supply region (R527). -/
def supplyBall (row col : Nat) : Ball :=
  let rail (n : String) : Ball := ⟨"", 0, n⟩
  if row = 7 || row = 32 then (if col % 2 = 1 then rail "VDD_SERDES_LO" else vss)
  else if row = 8 || row = 31 then
    (if col ≤ 18 then rail "VDD_SERDES_HI" else if col ≤ 22 || (row = 8 && col ≤ 24) then rail "VDD_SERDES_LO"
      else if col = 25 then rail "VDDA_1V8" else vss)
  else if 25 ≤ col then
    (if row ≤ 16 then ⟨"", 0, "VDD_DRUM"⟩ else if row ≤ 22 then rail "VDDA_1V8" else ⟨"", 1, "VDD_DRUM"⟩)
  else if (row + col) % 2 = 1 then vss
  else if row = 9 && col ≤ 19 then rail "VDD_AON"
  else if row = 10 then rail "VDD_IO18"
  else if row = 11 && col ≤ 15 then rail "VDDA_1V8"
  else rail "VDD_CORE"
/-- System signal s (Table 25-7); none above 76. -/
def systemBall (s : Nat) : Ball :=
  let one (n : String) : Ball := ⟨"", 0, n⟩
  let in_ (l : List String) (i : Nat) : String := l.getD i "VSS"
  if s < 6 then one (in_ ["XTAL_25_IN", "XTAL_25_OUT", "XTAL_32K_IN", "XTAL_32K_OUT", "PWRGD", "RESET_N"] s)
  else if s < 18 then ⟨in_ ["CORE", "DRUM_0", "DRUM_1"] ((s - 6) / 4), 0, in_ ["VID_0", "VID_1", "VID_2", "PGOOD"] ((s - 6) % 4)⟩
  else if s < 21 then ⟨"STACK_POS", s - 18, ""⟩
  else if s < 27 then ⟨"FLASH", 0, in_ ["SCK", "CS_N", "IO_0", "IO_1", "IO_2", "IO_3"] (s - 21)⟩
  else if s < 39 then ⟨"UART", (s - 27) / 3, in_ ["TX", "RX", "AUX"] ((s - 27) % 3)⟩
  else if s < 47 then ⟨"IDB", (s - 39) / 2, in_ ["SCL", "SDA"] ((s - 39) % 2)⟩
  else if s < 55 then ⟨"AUD", (s - 47) / 4, in_ ["MCK", "BCK", "WS", "SD"] ((s - 47) % 4)⟩
  else if s < 71 then ⟨"GPIO", s - 55, ""⟩
  else one (in_ ["DBG_TCK", "DBG_TMS", "DBG_TDI", "DBG_TDO", "DBG_TRST_N", "TEST_EN"] (s - 71))
/-- Table 25-8, rows W to AB, from column 38 inward. -/
def trunkBalls : List (List String) :=
  [["VSS", "TX_0_P", "TX_0_N", "VSS", "TX_1_P", "TX_1_N", "VSS", "VSS"], ["VSS", "TX_2_P", "TX_2_N", "VSS", "TX_3_P", "TX_3_N", "VSS", "RREF"],
   ["VSS", "RX_0_P", "RX_0_N", "VSS", "RX_1_P", "RX_1_N", "VSS", "VSS"], ["VSS", "RX_2_P", "RX_2_N", "VSS", "RX_3_P", "RX_3_N", "VSS", "VSS"]]
/-- Table 25-9, from column 38 inward: VM and PGND are the drum's. -/
def drumBalls : List (List String) :=
  [["PD_A", "PD_B", "PD_C", "PD_D", "VSS", "PD_E", "PD_F", "PD_REF"], ["RF_P", "RF_N", "VSS", "MON_780", "MON_650", "VSS", "LASER_PERMIT", "ENC_A"],
   ["ENC_B", "ENC_I", "TRAY_IN_N", "TRAY_OUT_N", "TRAY_BTN_N", "SPIN_FAULT_N", "SPIN_ISNS", "VSS"],
   ["LD_780", "LD_650", "VSS", "SPIN_SW_U", "SPIN_SW_V", "SPIN_SW_W", "SPIN_BST_U", "VSS"],
   ["SPIN_BST_V", "SPIN_BST_W", "SPIN_GH_U", "SPIN_GH_V", "SPIN_GH_W", "SPIN_GL_U", "SPIN_GL_V", "SPIN_GL_W"]]
  ++ (["FOC", "TRK", "TILT", "SLED_A", "SLED_B", "TRAY"] : List String).map (fun o => [o ++ "_P", o ++ "_P", o ++ "_N", o ++ "_N", "VM", "VM", "PGND", "PGND"])

/-- The ball at a row and a column, 1 to 38 each (R522 to R530). -/
def ballAt (row col : Nat) : Ball :=
  if row ≤ 6 || 33 ≤ row then
    let i := if row ≤ 6 then row - 1 else 38 - row
    if col ≤ 35 then cell "TILE" ((col - 1) / 5 + (if row ≤ 6 then 0 else 7)) (place tileBalls i ((col - 1) % 5))
    else cell "" 0 (place (cornerBalls (row ≤ 6)) i (col - 36))
  else if col ≤ 8 then
    if row ≤ 24 then laneBall ((row - 7) / 2) ((row - 7) % 2) (col - 1) else cell "DDR" 0 (place commandBalls (row - 25) (col - 1))
  else if col ≤ 12 then
    if row = 18 || row = 31 then (if col = 9 || col = 12 then cell "" 0 "VDD_IO33" else vss)
    else if row = 19 || row = 32 then vss
    else if row ≤ 17 then rbpBall 0 (4 * (row - 7) + (col - 9)) else rbpBall 1 (4 * (row - 20) + (col - 9))
  else if col ≤ 26 then supplyBall row col
  else if col ≤ 30 then (if col = 27 || (row = 32 && col = 30) then vss else systemBall (3 * (row - 7) + (col - 28)))
  else if 18 ≤ row && row ≤ 21 then cell "TRUNK" 0 (place trunkBalls (row - 18) (38 - col))
  else if row ≤ 17 then cell "DRUM" 0 (place drumBalls (row - 7) (38 - col))
  else cell "DRUM" 1 (place drumBalls (32 - row) (38 - col))

/-- Balls of a supply or ground, which no variant reserves. -/
def Ball.isSupply (b : Ball) : Bool :=
  b.unit = "" && (["VSS", "VDD_DDR", "VDD_IO33", "VCONN_IN", "RSVD_NC", "VDD_SERDES_LO", "VDD_SERDES_HI", "VDDA_1V8", "VDD_DRUM", "VDD_AON",
    "VDD_IO18", "VDD_CORE"] : List String).contains b.name || b.name = "VM" || b.name = "PGND"
/-- A signal ball of a unit that the variant lacks is reserved (R533): IDENT_VARIANT 0 OL72-F, 1 OL72-T, 2 OL72-D, 3 OL72-H. -/
def ballReserved (variant : Nat) (b : Ball) : Bool :=
  !b.isSupply && (match variant with
    | 1 => b.unit = "TRUNK"
    | 2 => b.unit = "TRUNK" || (b.unit = "DRUM" && b.k = 1)
    | 3 => b.unit = "DRUM" || (["RBP", "RBP_0_D", "RBP_0_A", "RBP_1_D", "RBP_1_A"] : List String).contains b.unit
    | _ => false)

end Sys2Proof.Machine
end

