-- ==== Sys2Proof/Tests/Slice0.lean ====
section
/-! SUPPORT. The model's own tests: small states, for each statement with hypotheses a state and operands that meet them, an
ill-formed term for each check, and published values of the standard functions. -/
namespace Sys2Proof.Tests
open Sys2Proof Sys2Proof.Machine
set_option Elab.async false
set_option linter.unusedVariables false
set_option linter.unusedSimpArgs false

theorem read_back {α β : Type} {p : Option Nat × α × β} (h : p.1.isSome = true) : p = (some (p.1.getD 0), p.2.1, p.2.2) := by
  obtain ⟨a, b, c⟩ := p
  cases a <;> simp_all
theorem pair_of {α β : Type} {p : α × β} {a : α} (h : p.1 = a) : p = (a, p.2) := by rw [← h]

/-- A state with the listed domains ON. -/
def withDomains (ds : List Nat) (s : State) : State := ds.foldl (fun t d => t.wr (R.DOMAIN_STATE.D d) 2) s
/-- The part after reset with the spine's segments and its arbiter ON. -/
def spined : State := withDomains [6, 7, 8, 9, 10, 11, 12, 13, 143] State.reset
/-- The records of a stream whose grove 0 holds slot 0, RBP_0, tile 2, UART_0, regions 0 and 1, DRUM_0 and I²S output 0. -/
def retroRecs : List Rec :=
  [⟨1, 0xFF, 0, [0, 0, 1, 0, 1, 8, 8, 3]⟩, ⟨3, 0, 0, [2, 2, 0, 1, 0, 3, 0, 0]⟩,
   ⟨4, 0, 0, [0, 1, 0, 0, 0, 0, 60, 1, 250, 0, 10, 0, 0, 0, 0, 0]⟩, ⟨5, 0, 0, [0, 0, 0, 8, 1, 0, 0, 0]⟩, ⟨6, 0, 0, [0, 0, 0, 0]⟩,
   ⟨7, 0, 0, [0, 0, 0, 0, 0, 0, 0, 0, 64, 0, 0, 0, 0, 0, 0, 0]⟩, ⟨7, 0, 0, [1, 0, 1, 0, 64, 0, 0, 0, 16, 0, 0, 0, 0, 0, 0, 0]⟩,
   ⟨8, 0, 0, [0, 1, 0, 0, 0, 0, 0, 0, 0, 0, 0, 0, 0, 0, 0, 0]⟩, ⟨0x0C, 0, 0, [0, 0, 0, 0]⟩,
   ⟨0x0A, 0, 0, [0, 0, 1, 0, 0, 0, 0, 0, 0, 0, 0, 0]⟩]
/-- The records of a stream whose grove 0 holds slot 0 and is rooted on UP tile 1; tile 2 is its hub port 1. -/
def hubRecs : List Rec :=
  [⟨1, 0xFF, 0, [0, 0, 0, 1, 1, 8, 8, 3]⟩, ⟨3, 0, 0, [1, 1, 0, 0, 0, 1, 0, 0]⟩, ⟨3, 0, 0, [2, 2, 0, 1, 0, 3, 0, 0]⟩,
   ⟨4, 0, 0, [0, 1, 0, 0, 0, 0, 60, 1, 250, 0, 10, 0, 0, 0, 0, 0]⟩, ⟨8, 0, 0, [0, 1, 0, 0, 0, 0, 0, 0, 0, 0, 0, 0, 0, 0, 0, 0]⟩]
/-- A configured part with those records, its grove 0 in slot 0 with the given kind and index of root. -/
def configuredWith (recs : List Rec) (kind index : Nat) : State :=
  (((((({ spined with stream := some ⟨0, 0, 0, 0, [], recs, []⟩ }.wr R.CANOPY_STATUS.STATE 1).wr R.CANOPY_SLOTS_LO.SLOTS 0xFFFFFF00).wr
    (R.GROVE_SELF.ROOT_KIND 0) kind).wr (R.GROVE_SELF.ROOT_INDEX 0) index).wr R.HW_STATUS.MODE 1).on (R.GROVE_STATUS.READY 0))
def demo : State := (configuredWith retroRecs 1 0).on (R.RBP_CFG.SERVING 0)
def demoIssue (i : Issue) : State := putRbp 0 { rbpSt demo 0 with issues := [i] } (demo.wr R.MEMCTL_STATUS.CAPACITY 4)
def demoWait : State := putRbp 0 { rbpSt demo 0 with waiting := some (.read 1) } demo
def mailDemo (slot op : Nat) (body : List Nat) : State :=
  { State.reset.wr R.HW_STATUS.MODE 1 with mail := [(slot, some ⟨0, op, 1, body.length, body, none, true⟩)] }
def stDom1 : State := withDomains [1] State.reset
def stDomon (d : Nat) : State := withDomains [d] State.reset
def stMemcap : Nat := 8
def stMemrd : List Nat := mkPacket 0 ⟨0, 0, 0, 1, 0, 5⟩ [0]
def stMemwr : List Nat := mkPacket 0 ⟨0, 0, 0, 1, 0, 6⟩ [0]
def stMempay : List Nat := mkPayload 0 [7]
def stNoseal : State := { ([R.MEMCTL_TIMING_0.all, R.MEMCTL_TIMING_1.all].flatten.foldl (fun t f => t.wr f 1) (State.reset.wr R.MEMCTL_STATUS.STATE 1)) with variant := .d }
def stPagejob : State := { State.reset with pageJobs := [⟨3, []⟩] }
def stMemok : State := withDomains [14] spined
def stTallyon : State := withDomains [139] spined
def stSealon : State := withDomains [16] demo
def stWalk : State := { demo with walks := [1] }
def tally0 : Tally := ⟨1, 0, 1, 0, 0, 1, 1, 0, 0, 0, 0, 1⟩
def stDormready : State := (demo.on (R.GROVE_VOTE.VOTE 0)).on R.START_STATUS.DRUMS_DONE
def stEntry : State := { State.reset.wr R.DORMANT_STATUS.STATE 1 with entry := some ⟨0, [], false, false, [], 0⟩ }
def stBegun : State := { stEntry with entry := some ⟨0, [], false, true, [], 0⟩ }
def stUnwind : State := { State.reset.wr R.DORMANT_STATUS.STATE 1 with entry := some ⟨0, [], true, true, [], 0⟩ }
def stBringg : State := ((State.reset.wr R.HW_STATUS.MODE 1).on R.START_STATUS.SEEDS_DONE)
def stBringd : State := demo.on R.START_STATUS.ALL_READY
def stQuiet : State := occur 33 State.reset
def stIdbw : State := withDomains [133] demo
def stDmaok : State := (((demo.wr R.MEMCTL_STATUS.CAPACITY 4).on (R.RBP_CFG.DMA 0)).wr (R.DMA_LEN.BYTES 0) 16)
def stDmarun (phase : Nat) : State := setDma 0 phase (demo.wr (R.DMA_STATUS.STATE 0) 1)
def stUptile : Fin 14 := 1
def stHubtile : Fin 14 := 2
def stHubup : State :=
  setLink 1 3 ((((((configuredWith hubRecs 0 1).wr (R.HUB_SELF.KIND 0) 1).wr (R.HUB_SELF.STATE 0) 2).wr (R.HUB_SELF.PORTS 0) 2).on
    (R.TILE_STATUS.READY 2)).wr (R.TILE_STATUS.ATTACH 2) 2)
/-- The same with the device function of slot 0 set to configuration 1. -/
def stFunc : State := putUsbDev 0 true { UsbDev.reset with configured := true } stHubup
/-- Recovery with TILE_0 linked to a host. -/
def stDfu : State := setLink 0 3 (State.reset.wr R.HW_STATUS.MODE 2)
/-- An unconfigured part whose firmware runs and whose grove 0 is ready: UART_0 is its console. -/
def stConsole : State := (spined.wr R.HW_STATUS.MODE 1).on (R.GROVE_STATUS.READY 0)
def noCounts : LinkCounts := ⟨0, 0, 0⟩
def stWalkpage : Nat := (regionSpan stWalk 1).1 / 4096 + watermark stWalk 1
def stHubrst : State := modPort 0 1 (fun p => { p with resetting := 1 }) (stHubup.on (R.HUB_PORT.CONNECT 0 1))
def stHubcon : State := stHubup.on (R.TILE_STATUS.VBUS_ON 2)
def stHubdet : State := ((stHubcon.on (R.TILE_CFG.SUPERSPEED 2)).wr (R.HUB_SELF.UP_SPEED 0) 4).wr (R.TILE_STATUS.SPEED 1) 4
def stTimers : State := modPort 0 1 (fun p => { p with u1 := 5 }) (setLink 2 3 (stHubup.wr (R.TILE_STATUS.SPEED 2) 4))
def stHubwake : State := setLink 2 7 (stHubup.on (R.HUB_SELF.WAKE_EN 0))
def stKbd : Found := ⟨2, 1, 0, 0, List.replicate 18 1, [9, 2, 9, 0, 1, 1, 0, 0, 0], [], [], []⟩
def stKbdev : TapDev := ⟨1, 1, 2, 1, 0, 0, List.replicate 18 1, [9, 2, 9, 0, 1, 1, 0, 0, 0], [], [], [], [], false, false, 0, [], 0, none, none, false⟩
/-- The device with one interface bound to each service of the set. -/
def stDevrun (services : Nat) : TapDev := { stKbdev with binds := ((List.range 5).filter (bit services)).map (fun k => (k, k)) }
def stKbdrun : TapDev := stDevrun 1
def stTaprun : State := ((demo.wr (R.TAP_STATUS.STATE 0) 1).wr (R.HUB_SELF.KIND 0) 2 |>.wr (R.HUB_SELF.PORTS 0) 1).on (R.HUB_PORT.CONNECT 0 1)
def withDevice (d : TapDev) : State := changeBus 0 (fun b => { b with devs := [d] }) stTaprun
def stTapdev : State := withDevice stKbdrun
def stTapdev2 (services : Nat) : State := withDevice (stDevrun services)
def stTappush (q : Nat) (r : List Nat) : State := changeBus 0 (setPush q [r]) stTapdev
def stTapsleep : State := withDevice { stKbdrun with suspended := true }
def stBlkrec (ty : Nat) : List Nat := [ty, 1] ++ List.replicate 30 0
def stBlkreq (ty : Nat) : State := changeBus 0 (setPush 4 [stBlkrec ty]) ((stTapdev2 8).wr R.MEMCTL_STATUS.CAPACITY 4)
def stBlkaddr (ty : Nat) : Nat := (blockRange (resumeDev 0 1 (stBlkreq ty)) 0 (stBlkrec ty) 512).getD 0
def stBlkissued (write : Bool) (ty : Nat) : State :=
  (sweepUse .usb ((resumeDev 0 1 (stBlkreq ty)).emit (.command 0 1 (blockCdb write (recU (stBlkrec ty) 8 8) (recU (stBlkrec ty) 16 4))))).2
def stBlkdone : State := changeBus 0 (setPush 4 [stBlkrec 0x42]) (withDevice { stDevrun 8 with ended := some [1] })
def stSerrec (ty : Nat) : List Nat := [ty, 1] ++ List.replicate 30 0
def stSerreq (ty : Nat) : State := changeBus 0 (setPush 5 [stSerrec ty]) (stTapdev2 16)
def stTrb : List Nat := List.replicate 20 0 ++ [1] ++ List.replicate 11 0
def stPipe0 (started : Bool) : Pipe := ⟨1, 0x81, 2, 0, 64, false, [stTrb], started, 0, 0, none, 0, 0, false, 0⟩
def stPipereq (started : Bool) : State := putPipe 0 0 (some (stPipe0 started)) stTapdev
def withMail (op : Nat) (body : List Nat) (s : State) : State := { s with mail := [(0, some ⟨0, op, 1, body.length, body, none, true⟩)] }
def stTapmail (op : Nat) (body : List Nat) : State := withMail op body stTapdev
def stTapraw (op : Nat) (body : List Nat) : State := withMail op body (withDevice { stKbdrun with claimed := true })
def stTappipe (op : Nat) : State := withMail op [0, 0, 0, 0] (stPipereq false)
def stTaphub : State := withMail 0x57 [1, 0, 0, 0] (withDevice { stKbdrun with hub1 := 1 })
def stDntile : State := ((demo.wr (R.TC_STATUS.PRESENT 2) 2).on (R.TILE_STATUS.READY 2))
def stDnatt : State := (stDntile.wr (R.TILE_STATUS.ATTACH 2) 2).wr (R.TILE_STATUS.ORIENT 2) 1
def stDnpath (p : Nat) : State := putContract 2 ⟨1, 5000, 3000, false, 3000, true⟩ (stDnatt.wr (R.TC_STATUS.PATH 2) p)
def stPdcon : Contract := ⟨1, 5000, 0, false, 3000, false⟩
def stPdrdo : Nat := 1 * 2 ^ 28
def stDnpd : State := changeTc 2 (fun x => { x with objs := [100 * 2 ^ 10 + 300] }) (stDnatt.wr (R.TC_STATUS.PATH 2) 3)
def stUptc : State := ((stHubup.on (R.TILE_STATUS.READY 1)).wr (R.TILE_STATUS.ATTACH 1) 2)
def stUppd : State := stUptc
def stPpsonly : State := (((stUppd.wr (R.TILE_STATUS.LINK 1) 0).wr (R.PD_CONTRACT.KIND 1) 3).on (R.GROVE_VOTE.VOTE 0)).on R.START_STATUS.DRUMS_DONE
def stVbusq : State := stDnatt.wr (R.TC_STATUS.PATH 2) 1
def stPdmail (op : Nat) (body : List Nat) : State := withMail op body stDnpd
def stPdmail3 (op : Nat) (body : List Nat) : State := withMail op body stDnpd
def stUpmail (op : Nat) (body : List Nat) : State := withMail op body stUppd
def stDrumw : State := withDomains [91, 92, 93, 94, 95, 96, 97, 98, 99, 100, 101] demo
def stLaser (st : Nat) : State := putFront 0 { frontOf stDrumw 0 with monGain := 0x3F800000 } ((stDrumw.wr (R.LASER_STATUS.STATE 0) st).wr (R.LASER_TARGET.MICROWATTS 0) 1000)
def stLasermon : Nat := 1
def stRfon : State := stDrumw.on (R.RF_CTRL.AUTO 0)
def stCoils : State := stDrumw.on (R.FRONT_STATUS.VM_OK 0)
def voiceFor (role : Nat) : Voice := ⟨[], role, false, 1, 0, [], [], [], [], [], [], [], false⟩
def stLossy : State := putVoice 0 1 (some (voiceFor 1)) (putVoice 0 0 (some (voiceFor 0)) (((stDrumw.wr (R.LASER_STATUS.STATE 0) 2).wr (R.LOSS_CTRL.SUM_MIN 0) 9).wr (R.LOSS_TE.WINDOW 0) 100))
def stReacted : State := putFront 0 { frontOf stDrumw 0 with react := 1, reactBy := 3, rearm := true } ((stDrumw.wr (R.LOSS_CTRL.SUM_MIN 0) 9).wr (R.LOSS_TE.WINDOW 0) 100)
def drumUp (s : State) : State := putDrum 0 { drumSt s 0 with up := true } s
def stEngine : State := (drumUp stDrumw).off (R.FRONT_STATUS.CONV_OK 0)
def stPickup : Pickup := ⟨0, 0, 0, 0, 0, 0, 0, 0, 0⟩
def stLoadcmd (raises : Bool) : VoiceCmd := ⟨1, 0, [], 1, 0, false, false, raises⟩
def stVcmd (raises : Bool) : State := putDrum 0 { drumSt (drumUp stDrumw) 0 with cmds := [stLoadcmd raises] } ((drumUp stDrumw).wr (R.DH_BUDGET.FLOOR_EFF 0) 63)
def stSpinup : State := (drumUp stDrumw).on (R.FRONT_STATUS.VM_OK 0)
def stSpinat (st : Nat) : State := stSpinup.wr (R.SPIN_STATUS.STATE 0) st
def stGoodsense : List Nat := [100, 100, 100, 218, 100, 100]
def stCutheld : State := putSpin 0 { spinOf stSpinup 0 with faultLow := true } stSpinup
def stSledat (st : Nat) : State := ((drumUp stDrumw).on (R.FRONT_STATUS.VM_OK 0)).wr (R.SLED_STATUS.STATE 0) st
def sledWords : List Nat := [100 + 65536 * 50, 16, 1000, 32, 0]
def stSledstage : State := putDrum 0 { drumSt (stSledat 2) 0 with sledStage := (sledWords.zipIdx).foldl (fun t e => putW t e.2 e.1) [] } ((stSledat 2).wr (R.SLED_TRAVEL.UNITS 0) 1000)
def stSledsegs : List (Nat × Int × Int) := plainSegments (segmentList (sledStageBytes stSledstage 0) (stagedSegments (sledStageBytes stSledstage 0)))
def stSledstop : Int := (sledOf stSledstage 0).pos + (stSledsegs.getLastD (0, 0, 0)).2.1
def stMove0 : SledMove := ⟨[(2, 32, 0)], 0, 32, 16, 100, 50, false, 0, false⟩
def stSledmove : State := putSled 0 { sledOf (stSledat 3) 0 with move := some stMove0 } ((stSledat 3).wr (R.SLED_SETTLE.SETTLE 0) 0)
def stHoming1 : State := putSled 0 { sledOf (stSledat 1) 0 with homing := 1 } ((stSledat 1).on (R.SLED_STATUS.ENCODER 0))
def stHoming2 : State := putSled 0 { sledOf (stSledat 1) 0 with homing := 2 } ((stSledat 1).on (R.SLED_STATUS.ENCODER 0))
def stEncoder : State := (stSledat 2).on (R.SLED_STATUS.ENCODER 0)
def stEnchome : State := stHoming2
def stTrayup : State := (drumUp stDrumw).on (R.FRONT_STATUS.VM_OK 0)
def stTrayreq : State := putTray 0 { trayOf stTrayup 0 with req := 1 } (stTrayup.on (R.TRAY_STATUS.PENDING 0))
def stReading : State := stDrumw.wr (R.READ_STATUS.MODE 0) 1
def stStrokex (op : Nat) (started : Bool) : Stroke :=
  ⟨0, leBytes 4 7 ++ [op, 0, 0, 0] ++ leBytes 4 0 ++ leBytes 4 2 ++ List.replicate 16 0, none, none, started, 0, 0, 0, none, 0, 0, 0, none, false, [], 0⟩
def stStroke (op : Nat) (started : Bool) : State := putDrum 0 { drumSt stSpinup 0 with strokes := [stStrokex op started], turn := some 0 } (stSpinup.wr (R.LASER_CTRL.SELECT 0) 1)
/-- A started disc stroke over an IDENTIFIED disc. -/
def stOnDisc (op : Nat) : State := (stStroke op true).wr (R.STK_DISC.STATE 0) 2
def stStrokeless : State := stSpinup
def stDecoding : State := ((((stStroke 1 true).wr (R.READ_STATUS.MODE 0) 1).on (R.READ_STATUS.TIMING_LOCK 0)).on (R.READ_STATUS.SYNC_LOCK 0))
def stBlockread : BlockRead := ⟨[], 1, [], [], false⟩
def stBlock0 : Block := ⟨0, [], 0⟩
def stRelockgen : Nat := 1
def stIdentstart : State := ((stStroke 8 false).wr (R.STK_DISC.STATE 0) 1)
def stIdentrun : State := (((stStroke 8 true).wr (R.STK_DISC.STATE 0) 1).wr (R.SPIN_STATUS.STATE 0) 5).on (R.FRONT_STATUS.PERMIT 0)
def stPlaying : State := stStroke 4 true
def stAudio : State := putDrum 0 { drumSt (stStroke 4 true) 0 with play := [(0, 0, [1])] } (stStroke 4 true)
def stAudioy : Stroke := { (stStrokex 4 true).unitDone 0 with awaiting := [] }
def stScsiup : State := stHubup
def stUarton : State := withDomains [87] (demo.wr (R.UART_CFG.DATA_BITS 0) 8 |>.on (R.UART_CFG.RX_EN 0))
def stUartrx : State := stUarton.on (R.UART_STATUS.RX_BUSY 0)
def stRxbits : List Bool := List.replicate (uartBits stUartrx 0 + b2n (uartParity stUartrx 0 != 0) + 1) true
def stUarttx : State := putUart 0 { uartOf stUarton 0 with sending := some (65, false) } stUarton
def stGpioon : State := withDomains [141] demo

def stLinked : State := (((State.reset.wr R.TRUNK_CFG.IN_USE 15).wr (R.PORT_STATUS.STATE 0) 3).wr (R.PORT_STATUS.PEER 0) 1).on (R.PORT_STATUS.PEER_VALID 0)
def stTrain (k : Nat) : State := putStepOf 0 k (stLinked.wr (R.PORT_STATUS.STATE 0) 1)
def stLanesaved : State := putLane 0 { laneOf stLinked 0 with saved := true } (stLinked.wr (R.PORT_STATUS.STATE 0) 2)
def stReplay : State := stLinked.wr (R.PORT_SEQ.TX_NEXT 0) 1
def stEpochs : State := putTrunk 0 { trunkPort stLinked 0 with secret := [1] } (setFc 0 (2 ^ 39) stLinked)
def stDesc0 : Queued := ⟨none, []⟩
def stTrunkw : State := withDomains [115] demo
def stStacked : State := ((stLinked.on R.CANOPY_MEMBER.STACKED).wr R.STACK_SELF.COUNT 2).wr R.STACK_SELF.CROWN 1
def stCrowned : State := ((withDomains [142] demo).on R.CANOPY_MEMBER.STACKED).wr R.STACK_SELF.COUNT 2
def stRouted : State := (stStacked.on (R.TRUNK_ROUTE.VALID 1)).wr (R.TRUNK_ROUTE.PORT 1) 0
def stDeliv (k : Nat) : Deliv := ⟨2 ^ 29 + 1, 0, [k, 0, 0, 0] ++ List.replicate 40 0, [], true⟩
def stInbox (k : Nat) : State := { stStacked with inbox := [stDeliv k] }
def strokeOf (o : Nat × Nat) : Stroke := { stStrokex 1 true with request := some o }
def stAsked : State := putDrum 0 { drumSt (stInbox 4) 0 with strokes := [strokeOf (1, 0)] } (stInbox 4)
def stReq0 : Request := ⟨7, 1, 0, 1, 0, [], [], 0, some 0, true, true, [], 0, none, 0⟩
def stReq1 : Request := ⟨8, 1, 0, 1, 0, [], [], 0, some 0, true, true, [], 0, none, 0⟩
def stAnsdeliv : Deliv := ⟨2 ^ 29 + 1, 0, [5, 0, 0, 0, 0, 0, 0, 0, 0, 0, 0, 0, 1, 0, 0, 0, 7, 0, 0, 0] ++ List.replicate 32 0, [], true⟩
def stAnswered : State := { stStacked with inbox := [stAnsdeliv], requests := [stReq0, stReq1] }
def stAnsdeliv0 : Deliv := { stAnsdeliv with head := stAnsdeliv.head.set 12 0 }
def stAnswered0 : State := { stAnswered with inbox := [stAnsdeliv0], requests := [stReq0] }
/-- The state once that answer's request has left the list. -/
def answeredFor (d : Deliv) (s : State) : State :=
  { dropDeliv d s with requests := (dropDeliv d s).requests.filter (fun y => y.id != argOf d 16) }
/-- On a member that holds no slot of grove 3. -/
def stCopyaway : Deliv := { stDeliv 2 with grove := 3 }
def stCopying : State := { (stInbox 2).wr R.STACK_SELF.STATE 2 with inbox := [stCopyaway] }
/-- The same on a member whose grove 0 holds slot 0. -/
def stCopyhere : State := { (((demo.on R.CANOPY_MEMBER.STACKED).wr R.STACK_SELF.COUNT 2).wr R.STACK_SELF.STATE 2) with inbox := [stDeliv 2] }
/-- A trunk stroke request that waits for a drum of this member. -/
def stCopyring : State := { stCopyhere with inbox := [stDeliv 1] }
def stQuerying : State := putStack { (stInbox 4).stack with ledger := [(0, [(0, tally0)])] } (stInbox 4)
def stRelink : State := { stRouted.wr R.STACK_SELF.STATE 2 with requests := [stReq0] }

/-- Thirty-two bytes of a descriptor, of its fields before DIGEST. -/
def headBytes : List Nat := [0x48, 0x57, 0x53, 0x4C] ++ leBytes 2 1 ++ leBytes 2 0x80 ++ leBytes 4 1 ++ leBytes 4 4096 ++ leBytes 4 1024 ++ leBytes 4 0 ++ leBytes 2 1 ++ leBytes 2 1 ++ leBytes 4 0
def cellsAt (a : Nat) (bs : List Nat) : Tab Nat := (bs.zipIdx).map (fun e => (a + e.2, e.1 ^^^ 0xFF))
def headFlash (k : Nat) (digest : List Nat) : Tab Nat :=
  cellsAt (0x1000 * k) headBytes ++ ((List.range 32).map (fun i => (0x1000 * k + 0x20 + i, digest.getD i 0 ^^^ 0xFF)) ++ cellsAt (0x1000 * k + 0x40) (List.replicate 64 0))
def imageBytes : List Nat := List.replicate 4096 0xFF
def stGoodrecovery : State :=
  { setLink 0 3 (State.reset.wr R.HW_STATUS.MODE 2) with
    flash := headFlash 0 (sha256 imageBytes)
    recovery := { State.reset.recovery with state := 5, alt := 2, word := [0, 0, 0, 0], drop := some (0, 0, 256), seedLast := none } }
def stTrial : State := { mailDemo 0 0x24 [1, 0, 0, 0] with flash := headFlash 1 [] }
/-- The key of frames that arrive at port 0, and a header and body of each TYPE from member 1. -/
def stFramekey : List Nat := List.replicate 32 1
def stFramenonce : List Nat := [1, 0, 1, 0, 0, 0, 0, 0, 0, 0, 0, 0]
def stFramehead (ty : Nat) : List Nat := [ty, 0, 0, 0, 0, 0, 1, 1] ++ List.replicate 19 0 ++ [255] ++ List.replicate 20 0
def stFramebody : List Nat := List.replicate 8 0 ++ [1] ++ List.replicate 247 0
def stKeyed : State := putTrunk 0 { trunkPort stLinked 0 with rxKey := stFramekey, rxEpoch := 1 } stLinked
def stFrametext (ty : Nat) : List Nat := stFramehead ty ++ stFramebody
def stOpened (ty : Nat) : State := noteFc 0 ((stFramehead ty).getD 6 0) (leVal (((stFramehead ty).drop 8).take 8)) stKeyed
/-- A member of a stack with a secret, its crown the given member; and the first 304 bytes of a GRAFT frame of member 1. -/
def stGrafting (crown : Nat) : State := (writeSecret (List.replicate 32 1) stStacked).wr R.STACK_SELF.CROWN crown
def stGrafttext (k : Nat) : List Nat :=
  [5, 0, 0, 0, 0, 0, 0, 1] ++ List.replicate 19 0 ++ [255] ++ List.replicate 20 0 ++ [k, 0, 0, 0, 1] ++ List.replicate 33 0 ++ [1] ++ List.replicate 217 0
def stGrafttag (s : State) (k : Nat) : List Nat :=
  gcmTag (graftKey (secretOf s)) ([(stGrafttext k).getD 7 0 % 8, if k = 1 then (stGrafttext k).getD 87 0 else (trunkPort s 0).peerPort, 0, 0]
    ++ beBytes 8 (leVal (((stGrafttext k).drop 8).take 8))) (stGrafttext k) []
def stGraftframe (s : State) (k : Nat) : List Nat := stGrafttext k ++ stGrafttag s k
/-- What the frame carries. -/
def stGraftbody (s : State) (k : Nat) : List Nat := (stGraftframe s k).drop 48
def stGrafted (s : State) (k : Nat) : State := putTrunk 0 { trunkPort s 0 with rxGraftFc := leVal (((stGrafttext k).drop 8).take 8) + 1 } s

/-! States and operands for the effects of the last three statements. -/
def stConv : State := (drumUp stDrumw).on (R.FRONT_STATUS.CONV_OK 0)
/-- A voice program of one state, one input and one output. -/
def oneVoice : List Nat := [1, 1, 1, 1, 0, 0, 0, 0, 0, 255, 255, 255, 255, 255, 0, 0, 1, 255, 255, 0, 255, 255, 255, 0] ++ List.replicate (4 * floatCount 1 1 1 0 0) 0
def stStaged : State :=
  putDrum 0 { drumSt stConv 0 with stage := (wordsOf 14 oneVoice).zipIdx.foldl (fun t e => putW t e.2 e.1) [] } stConv
def stVoiced : State := putVoice 0 1 (some { voiceFor 0 with prog := oneVoice }) stStaged
/-- The same with the check of a command under way, in Dormant, where no frame runs. -/
def stChecking (base : State) (c : VoiceCmd) : State := (putDrum 0 { drumSt base 0 with checking := some c } base).wr R.DORMANT_STATUS.STATE 2
def stProfiled : State :=
  { (stSledat 2).wr (R.SLED_TRAVEL.UNITS 0) 1000 with stream := some ⟨0, 0, 0, 0, [], retroRecs ++ [⟨0x0B, 0, 0, List.replicate 32 1 |>.set 0 0 |>.set 1 0⟩], []⟩ }
def stSeeking : State := stProfiled.wr (R.SLED_TARGET.X 0) 500
/-- A ring whose first entry is a SPIN stroke. -/
def stRung : State := wrList (R.STK_ENTRY.BYTES 0 0 0) 0 (wordsOf 8 (leBytes 4 7 ++ [6, 0, 0, 0] ++ leBytes 4 0 ++ leBytes 4 1 ++ List.replicate 16 0)) stSpinup
def stProduced : State := (activity stRung).wr (R.STK_PROD.COUNT 0 0) 1
theorem rung_bare (len : Nat) (h : regionBytes (freshStroke 0 (strokeEntry stProduced 0 0 0) none none) = some len) :
    (regionAddr stProduced 0 (freshStroke 0 (strokeEntry stProduced 0 0 0) none none).region
      (freshStroke 0 (strokeEntry stProduced 0 0 0) none none).offset len).isSome = true := by
  have e : regionBytes (freshStroke 0 (strokeEntry stProduced 0 0 0) none none) = none := by decide +kernel
  simp [e] at h
/-- A disc stroke at the head over an IDENTIFIED CD whose spindle is LOCKED. -/
def stCdbegin (op : Nat) (started : Bool) : State :=
  ((((stStroke op started).wr (R.STK_DISC.STATE 0) 2).wr (R.STK_DISC.KIND 0) 1).wr (R.STK_END.ADDRESS 0) 1000).wr (R.SPIN_STATUS.STATE 0) 5
def stSeekstroke : State := (stCdbegin 5 true).wr (R.SLED_STATUS.STATE 0) 2
def stTraystroke : State := stStroke 7 false
def stFound : State := (((stStroke 8 true).wr (R.STK_DISC.STATE 0) 1).wr (R.SPIN_STATUS.STATE 0) 5)
/-- An IDENTIFIED disc in the drum of logical unit 0. -/
def stLuned : State := (((stFunc.wr (R.STK_DISC.STATE 0) 2).wr (R.STK_DISC.KIND 0) 1).wr (R.STK_END.ADDRESS 0) 1000)
def stAudible : State :=
  { stLuned with stream := some ⟨0, 0, 0, 0, [], hubRecs ++ [⟨0x0C, 0, 0, [0, 0, 0, 0]⟩], []⟩ }
/-- A codeword of RS(544,514) whose first byte is 0xC5: the generator, scaled, at the highest powers. -/
def stCodeword : List Nat := (rsGenerator gf1024 30).reverse.map (gfMul gf1024 0xC5) ++ List.replicate 513 0
theorem gfMulGo_zero (F : Galois) (k b : Nat) : gfMulGo F k 0 b 0 = 0 := by
  induction k generalizing b with
  | zero => rfl
  | succ k ih => simp [gfMulGo, gfX, ih]
theorem fold_zeros (F : Galois) (r n : Nat) : (List.replicate n 0).foldl (fun acc v => gfMul F acc r ^^^ v) 0 = 0 := by
  induction n with
  | zero => rfl
  | succ n ih => simp [List.replicate_succ, gfMul, gfMulGo_zero] at ih ⊢; exact ih
theorem syndromes_zeros (F : Galois) (t2 n : Nat) (a : List Nat)
    (h : (gfPowers F t2 1).all (fun r => a.foldl (fun acc v => gfMul F acc r ^^^ v) 0 = 0) = true) :
    (syndromes F t2 (a ++ List.replicate n 0)).all (· = 0) = true := by
  rw [syndromes, List.all_map]
  refine List.all_eq_true.2 fun r hr => ?_
  have := of_decide_eq_true (List.all_eq_true.1 h r hr)
  simp [List.foldl_append, this, fold_zeros]
theorem codeword_kept (w : List Nat) (hl : w.length = 544) (hs : (syndromes gf1024 30 w).all (· = 0) = true) :
    codewordDecode w = some w := by
  rw [codewordDecode, if_pos hl, rsDecode, if_pos hs]
theorem codeword_decodes : codewordDecode stCodeword = some stCodeword :=
  codeword_kept _ (by decide +kernel) (syndromes_zeros _ _ _ _ (by decide +kernel))
def stSynced : State := putTrunk 0 { trunkPort stLinked 0 with cwNext := some (codewordCount (codewordBits stCodeword) % 4096) } stLinked
def stTrunkslot : State := stTrunkw.wr (R.PORT_STATUS.STATE 0) 3

/-- A member whose port awaits HELLO, with the nonce the frame names. -/
def stHelloing : State :=
  putTrunk 0 { trunkPort (stGrafting 1) 0 with nonce := List.replicate 32 0 } ((stGrafting 1).wr (R.PORT_STATUS.STATE 0) 2)
def stAnnounced : State := putStack { (stGrafting 1).stack with crownStart := some 0 } (stGrafting 1)
/-- A TIME answer's body, and a member with a route to its crown that receives it. -/
def stTimebody : List Nat := List.replicate 8 0 ++ [2] ++ List.replicate 247 0
def stTimed : State := ((stKeyed.wr R.STACK_SELF.CROWN 1).on (R.TRUNK_ROUTE.VALID 1)).wr (R.TRUNK_ROUTE.PORT 1) 0

theorem look_none {t : Tab Nat} {a : Nat} (h : t.all (fun e => decide (e.1 < a)) = true) : Tab.look 0 t a = 0 := by
  induction t with
  | nil => rfl
  | cons e r ih =>
    simp only [List.all_cons, Bool.and_eq_true, decide_eq_true_eq] at h
    obtain ⟨k, v⟩ := e
    have : a ≠ k := by have := h.1; simp at this; omega
    simp [Tab.look, this, ih h.2]
theorem sha_length : (sha256 imageBytes).length = 32 := by decide +kernel
theorem good_keys : (headFlash 0 (sha256 imageBytes)).all (fun e => decide (e.1 < 128)) = true := by decide +kernel
theorem good_headed : headed stGoodrecovery 0 = true := by decide +kernel
theorem good_len : imageLength stGoodrecovery 0 = 4096 := by decide +kernel
theorem good_flash : stGoodrecovery.flash = headFlash 0 (sha256 imageBytes) := rfl
theorem good_image : flashBytes stGoodrecovery (imageBase 0) 4096 = imageBytes := by
  have h : ∀ i, flashByte stGoodrecovery (imageBase 0 + i) = 0xFF := by
    intro i
    have : Tab.look 0 stGoodrecovery.flash (imageBase 0 + i) = 0 := by
      refine look_none (List.all_eq_true.2 fun e he => ?_)
      have h1 := List.all_eq_true.1 good_keys e (good_flash ▸ he)
      simp only [decide_eq_true_eq] at h1 ⊢
      simp only [imageBase]
      omega
    rw [flashByte, this]
    rfl
  rw [flashBytes, imageBytes, List.map_congr_left (fun i _ => h i), List.map_const', List.length_range]
theorem digest_cell (d : List Nat) : ∀ i < 32, Tab.look 0 (headFlash 0 d) (0x20 + i) = d.getD i 0 ^^^ 0xFF := by
  intro i h
  iterate 32 (rcases i with _ | i; · rfl)
  omega
theorem digest_back : ((descriptor stGoodrecovery 0).drop 0x20).take 32 = sha256 imageBytes := by
  refine List.ext_getElem ?_ fun i h1 h2 => ?_
  · rw [sha_length]; rfl
  · rw [sha_length] at h2
    simp only [descriptor, flashBytes, List.getElem_take, List.getElem_drop, List.getElem_map, List.getElem_range, flashByte, good_flash]
    rw [show 0x1000 * 0 + (0x20 + i) = 0x20 + i by omega, digest_cell _ i h2, Nat.xor_assoc, Nat.xor_self, Nat.xor_zero,
      ← List.getElem_eq_getD]
theorem sensed (s : State) (he : s.keepEcc = []) (hh : s.recovery.heard = []) :
    s = senseKeep 0 32 (putRecovery { s.recovery with heard := [] } s) := by
  have h : putRecovery { s.recovery with heard := [] } s = s := by
    rw [show { s.recovery with heard := [] } = s.recovery by rw [← hh]]
    rfl
  simp [h, senseKeep, he]
theorem goodRecovery_valid : slotValid stGoodrecovery 0 = true := by
  rw [slotValid, good_headed, good_len, good_image, digest_back]
  simp

/-- A frame of the link's sender: header, ciphertext, tag. -/
def sealedFrame (k nonce h d : List Nat) : List Nat := h ++ (gcmCrypt k nonce d ++ gcmTag k nonce h (gcmCrypt k nonce d))
theorem opens_sealed (s : State) (p ty least : Nat) (k nonce h d : List Nat)
    (hk : (gcmStream k nonce).length = 256) (ht : (gcmTag k nonce h (gcmCrypt k nonce d)).length = 16)
    (hh : h.length = 48) (hd : d.length = 256) (hz : h.all (· = 0) = false) (hs : portState s p = 3)
    (hr : rxKeyFor s p (h.getD 6 0) = some (k, least))
    (hn : nonce = [s.rd (R.PORT_STATUS.PEER p), (trunkPort s p).peerPort, h.getD 6 0, 0] ++ beBytes 8 (leVal ((h.drop 8).take 8)))
    (hl : least ≤ leVal ((h.drop 8).take 8)) (hg : headerGood ty (h ++ d) = true) (hf : engineFailed s = false) :
    openFrame p ty (sealedFrame k nonce h d) s = .good (h ++ d) (noteFc p (h.getD 6 0) (leVal ((h.drop 8).take 8)) s) := by
  have hc : (gcmCrypt k nonce d).length = 256 := by rw [gcmCrypt_eq _ _ _ hd, xorBytes_length_of hd hk]
  have hb : gcmCrypt k nonce (gcmCrypt k nonce d) = d := by
    rw [gcmCrypt_eq _ _ _ hc, gcmCrypt_eq _ _ _ hd, xorBytes_back _ _ (by omega)]
  have e6 : (sealedFrame k nonce h d).getD 6 0 = h.getD 6 0 := by
    simp [sealedFrame, List.getD_eq_getElem?_getD, List.getElem?_append_left, hh]
  have e8 : ((sealedFrame k nonce h d).drop 8).take 8 = (h.drop 8).take 8 := by
    rw [sealedFrame, List.drop_append_of_le_length (by omega), List.take_append_of_le_length (by simp [hh])]
  have e0 : (sealedFrame k nonce h d).take 48 = h := by rw [sealedFrame, ← hh, List.take_left]
  have e1 : ((sealedFrame k nonce h d).drop 48).take 256 = gcmCrypt k nonce d := by
    rw [sealedFrame, ← hh, List.drop_left, ← hc, List.take_left]
  have e2 : ((sealedFrame k nonce h d).drop 304).take 16 = gcmTag k nonce h (gcmCrypt k nonce d) := by
    rw [sealedFrame, ← List.append_assoc, show 304 = (h ++ gcmCrypt k nonce d).length by simp [hh, hc], List.drop_left, ← ht, List.take_length]
  have e3 : (sealedFrame k nonce h d).length = 320 := by simp [sealedFrame, hh, hc, ht]
  have e4 : (sealedFrame k nonce h d).all (· = 0) = false := by rw [sealedFrame, List.all_append, hz, Bool.false_and]
  unfold openFrame
  simp only [e0, e1, e2, e3, e4, e6, e8, hs, hr, ← hn, hb, hg, hf, if_true, Nat.not_lt.2 hl]
  simp

theorem opens_graft (s : State) (p ty : Nat) (m : List Nat) (tag : List Nat)
    (ht : tag.length = 16) (hm : m.length = 304) (hz : m.all (· = 0) = false)
    (hs : (portState s p = 3 || portState s p = 5 || (portState s p = 2 && ty = 1)) = true) (hv : secretValid s = true)
    (he : tag = gcmTag (graftKey (secretOf s)) ([m.getD 7 0 % 8, if ty = 1 then m.getD 87 0 else (trunkPort s p).peerPort, 0, 0]
      ++ beBytes 8 (leVal ((m.drop 8).take 8))) m [])
    (hl : (trunkPort s p).rxGraftFc ≤ leVal ((m.drop 8).take 8)) (hg : headerGood 5 (m ++ tag) = true) (hf : engineFailed s = false)
    (h6 : m.getD 6 0 = 0) (h48 : m.getD 48 0 = ty) :
    openGraft p ty (m ++ tag) s =
      .good ((m ++ tag).drop 48) (putTrunk p { trunkPort s p with rxGraftFc := leVal ((m.drop 8).take 8) + 1 } s) := by
  have g : ∀ i, i < 304 → (m ++ tag).getD i 0 = m.getD i 0 := fun i h => by
    simp [List.getD_eq_getElem?_getD, List.getElem?_append_left, hm, h]
  have e8 : ((m ++ tag).drop 8).take 8 = (m.drop 8).take 8 := by
    rw [List.drop_append_of_le_length (by omega), List.take_append_of_le_length (by simp [hm])]
  have e0 : (m ++ tag).take 304 = m := by rw [← hm, List.take_left]
  have e2 : ((m ++ tag).drop 304).take 16 = tag := by rw [← hm, List.drop_left, ← ht, List.take_length]
  have e3 : (m ++ tag).length = 320 := by simp [hm, ht]
  have e4 : (m ++ tag).all (· = 0) = false := by rw [List.all_append, hz, Bool.false_and]
  unfold openGraft
  simp only [e0, e2, e3, e4, e8, hs, hv, hg, g 6 (by omega), g 7 (by omega), g 48 (by omega), show 48 + 39 = 87 from rfl, g 87 (by omega), ← he,
    h6, h48, hf, Nat.not_lt.2 hl]
  simp

theorem opens_frame_1 : openFrame 0 1 (sealedFrame stFramekey stFramenonce (stFramehead 1) stFramebody) stKeyed = .good (stFrametext 1) (stOpened 1) :=
  opens_sealed stKeyed 0 1 0 stFramekey stFramenonce (stFramehead 1) stFramebody (by decide +kernel) (by decide +kernel) (by decide +kernel)
    (by decide +kernel) (by decide +kernel) (by decide +kernel) (by decide +kernel) (by decide +kernel) (by decide +kernel) (by decide +kernel) (by decide +kernel)
theorem opens_frame_2 : openFrame 0 2 (sealedFrame stFramekey stFramenonce (stFramehead 2) stFramebody) stKeyed = .good (stFrametext 2) (stOpened 2) :=
  opens_sealed stKeyed 0 2 0 stFramekey stFramenonce (stFramehead 2) stFramebody (by decide +kernel) (by decide +kernel) (by decide +kernel)
    (by decide +kernel) (by decide +kernel) (by decide +kernel) (by decide +kernel) (by decide +kernel) (by decide +kernel) (by decide +kernel) (by decide +kernel)
theorem opens_frame_3 : openFrame 0 3 (sealedFrame stFramekey stFramenonce (stFramehead 3) stFramebody) stKeyed = .good (stFrametext 3) (stOpened 3) :=
  opens_sealed stKeyed 0 3 0 stFramekey stFramenonce (stFramehead 3) stFramebody (by decide +kernel) (by decide +kernel) (by decide +kernel)
    (by decide +kernel) (by decide +kernel) (by decide +kernel) (by decide +kernel) (by decide +kernel) (by decide +kernel) (by decide +kernel) (by decide +kernel)
theorem opens_frame_4 : openFrame 0 4 (sealedFrame stFramekey stFramenonce (stFramehead 4) stFramebody) stKeyed = .good (stFrametext 4) (stOpened 4) :=
  opens_sealed stKeyed 0 4 0 stFramekey stFramenonce (stFramehead 4) stFramebody (by decide +kernel) (by decide +kernel) (by decide +kernel)
    (by decide +kernel) (by decide +kernel) (by decide +kernel) (by decide +kernel) (by decide +kernel) (by decide +kernel) (by decide +kernel) (by decide +kernel)
theorem opens_graft_1 : openGraft 0 1 (stGraftframe (stGrafting 1) 1) (stGrafting 1) = .good (stGraftbody (stGrafting 1) 1) (stGrafted (stGrafting 1) 1) :=
  opens_graft (stGrafting 1) 0 1 (stGrafttext 1) (stGrafttag (stGrafting 1) 1) (by decide +kernel) (by decide +kernel) (by decide +kernel)
    (by decide +kernel) (by decide +kernel) rfl (by decide +kernel) (by decide +kernel) (by decide +kernel) (by decide +kernel) (by decide +kernel)
theorem opens_graft_2 : openGraft 0 2 (stGraftframe (stGrafting 1) 2) (stGrafting 1) = .good (stGraftbody (stGrafting 1) 2) (stGrafted (stGrafting 1) 2) :=
  opens_graft (stGrafting 1) 0 2 (stGrafttext 2) (stGrafttag (stGrafting 1) 2) (by decide +kernel) (by decide +kernel) (by decide +kernel)
    (by decide +kernel) (by decide +kernel) rfl (by decide +kernel) (by decide +kernel) (by decide +kernel) (by decide +kernel) (by decide +kernel)
theorem opens_graft_3 : openGraft 0 3 (stGraftframe (stGrafting 1) 3) (stGrafting 1) = .good (stGraftbody (stGrafting 1) 3) (stGrafted (stGrafting 1) 3) :=
  opens_graft (stGrafting 1) 0 3 (stGrafttext 3) (stGrafttag (stGrafting 1) 3) (by decide +kernel) (by decide +kernel) (by decide +kernel)
    (by decide +kernel) (by decide +kernel) rfl (by decide +kernel) (by decide +kernel) (by decide +kernel) (by decide +kernel) (by decide +kernel)
theorem opens_graft_4 : openGraft 0 4 (stGraftframe (stGrafting 0) 4) (stGrafting 0) = .good (stGraftbody (stGrafting 0) 4) (stGrafted (stGrafting 0) 4) :=
  opens_graft (stGrafting 0) 0 4 (stGrafttext 4) (stGrafttag (stGrafting 0) 4) (by decide +kernel) (by decide +kernel) (by decide +kernel)
    (by decide +kernel) (by decide +kernel) rfl (by decide +kernel) (by decide +kernel) (by decide +kernel) (by decide +kernel) (by decide +kernel)
theorem opens_graft_hello : openGraft 0 1 (stGraftframe stHelloing 1) stHelloing = .good (stGraftbody stHelloing 1) (stGrafted stHelloing 1) :=
  opens_graft stHelloing 0 1 (stGrafttext 1) (stGrafttag stHelloing 1) (by decide +kernel) (by decide +kernel) (by decide +kernel)
    (by decide +kernel) (by decide +kernel) rfl (by decide +kernel) (by decide +kernel) (by decide +kernel) (by decide +kernel) (by decide +kernel)
theorem opens_graft_join : openGraft 0 3 (stGraftframe (stGrafting 0) 3) (stGrafting 0) = .good (stGraftbody (stGrafting 0) 3) (stGrafted (stGrafting 0) 3) :=
  opens_graft (stGrafting 0) 0 3 (stGrafttext 3) (stGrafttag (stGrafting 0) 3) (by decide +kernel) (by decide +kernel) (by decide +kernel)
    (by decide +kernel) (by decide +kernel) rfl (by decide +kernel) (by decide +kernel) (by decide +kernel) (by decide +kernel) (by decide +kernel)
theorem opens_graft_announce : openGraft 0 4 (stGraftframe stAnnounced 4) stAnnounced = .good (stGraftbody stAnnounced 4) (stGrafted stAnnounced 4) :=
  opens_graft stAnnounced 0 4 (stGrafttext 4) (stGrafttag stAnnounced 4) (by decide +kernel) (by decide +kernel) (by decide +kernel)
    (by decide +kernel) (by decide +kernel) rfl (by decide +kernel) (by decide +kernel) (by decide +kernel) (by decide +kernel) (by decide +kernel)
theorem opens_frame_time : openFrame 0 3 (sealedFrame stFramekey stFramenonce (stFramehead 3) stTimebody) stTimed =
    .good (stFramehead 3 ++ stTimebody) (noteFc 0 1 0 stTimed) :=
  opens_sealed stTimed 0 3 0 stFramekey stFramenonce (stFramehead 3) stTimebody (by decide +kernel) (by decide +kernel) (by decide +kernel)
    (by decide +kernel) (by decide +kernel) (by decide +kernel) (by decide +kernel) (by decide +kernel) (by decide +kernel) (by decide +kernel) (by decide +kernel)

/-! A state and operands that meet the hypotheses of each statement, for each of its clauses. -/

theorem witness_CanopyCommands :
    (∃ (s : State), s.isSet R.START_STATUS.FIRMWARE = true ∧ s.isSet R.START_STATUS.SDRAM_DONE = true ∧ loaderBusy s = false ∧ configured s = false ∧ s.isSet R.START_STATUS.CANOPY_DONE = false) ∧
    (∃ (s : State) (slot : Fin 8) (area : Fin 4), mayWrite s slot 0x00010008 = true ∧ loaderBusy s = false ∧ area.val ≠ 3) ∧
    (∃ (s : State) (slot : Fin 8) (area : Fin 4), mayWrite s slot 0x00010008 = true ∧ loaderBusy s = false ∧ configured s = false ∧ area.val ≠ 3) ∧
    (∃ (s : State) (slot : Fin 8), mayWrite s slot 0x00010008 = true ∧ loaderBusy s = false ∧ configured s = true) ∧
    (∃ (s : State), loaderBusy s = true ∧ s.loadOp = .check) ∧
    (∃ (s : State) (slot : Fin 8) (area : Fin 2), mayWrite s slot 0x0001000C = true) ∧
    (∃ (s : State) (slot : Fin 8) (v : Nat), mayWrite s slot 0x00010014 = true ∧ loaderBusy s = false) ∧
    (∃ (s : State) (slot : Fin 8) (d : Nat) (t : State), mayRead s slot 0x00010014 = true ∧ loaderBusy s = false ∧ readStage (s.rd R.CANOPY_STAGE_ADDR.WORD) (activity s) = (d, t)) :=
  ⟨⟨((State.reset.on R.START_STATUS.FIRMWARE).on R.START_STATUS.SDRAM_DONE), by decide +kernel, by decide +kernel, by decide +kernel, by decide +kernel, by decide +kernel⟩,
    ⟨spined, 0, 0, by decide +kernel, by decide +kernel, by decide +kernel⟩,
    ⟨spined, 0, 2, by decide +kernel, by decide +kernel, by decide +kernel, by decide +kernel⟩,
    ⟨(spined.wr R.CANOPY_STATUS.STATE 1), 0, by decide +kernel, by decide +kernel, by decide +kernel⟩,
    ⟨({ State.reset.on R.CANOPY_STATUS.BUSY with loadOp := .check }), by decide +kernel, by decide +kernel⟩,
    ⟨spined, 0, 1, by decide +kernel⟩,
    ⟨spined, 0, 7, by decide +kernel, by decide +kernel⟩,
    ⟨spined, 0, (readStage (spined.rd R.CANOPY_STAGE_ADDR.WORD) (activity spined)).1, (readStage (spined.rd R.CANOPY_STAGE_ADDR.WORD) (activity spined)).2, by decide +kernel, by decide +kernel, rfl⟩⟩

theorem witness_RegisterAccesses :
    (∃ (s : State) (slot : Fin 8) (addr value be : Nat), rootOn s slot = true ∧ heldBlock s addr = false) ∧
    (∃ (s : State) (port : Fin 2) (k : Fin 8) (offset value be : Nat), windowServed s port k = true) ∧
    (∃ (s : State) (slot : Fin 8) (addr count : Nat), rootOn s slot = true ∧ heldBlock s addr = false) ∧
    (∃ (s : State) (port : Fin 2) (k : Fin 8) (offset count : Nat), windowServed s port k = true) ∧
    (∃ (s : State) (slot : Fin 8) (addr : Nat) (write : Bool), noBlock s (addr % 2 ^ 32 / 4 * 4) = true ∧ (memberOf s (addr % 2 ^ 32)).isNone = true ∧ rootOn s slot = true ∧ heldBlock s addr = false) ∧
    (∃ (s : State) (slot : Fin 8) (addr : Nat) (write : Option (Nat × Nat)), (heldBlock s addr = true ∨ rootOn s slot = false)) ∧
    (∃ (s : State) (slot : Fin 8) (timeline : Bool), rootOn s slot = true ∧ heldBlock s (if timeline then 0x61000C else 0x20004) = false) ∧
    (∃ (s : State) (port : Fin 2) (k : Fin 8) (offset count : Nat) (fs : List Fld) (off n : Nat), windowServed s port k = true ∧ lanesOut s port offset count = (off, n) ∧ n ≠ 0 ∧ off < 0x100 ∧ porchLost s port off = false ∧ atomicFields port (off / 4 * 4) = some fs) ∧
    (∃ (s : State) (port : Fin 2) (k : Fin 8) (offset : Nat) (data : List Nat) (off : Nat) (bs : List Nat) (fs : List Fld), windowServed s port k = true ∧ laneBytes s port offset data = (off, bs) ∧ bs ≠ [] ∧ atomicFields port (off / 4 * 4) = some fs) ∧
    (∃ (s : State) (uart : Fin 4) (k : Fin 8) (addr : Nat), consoleServed s uart k = true ∧ portOn s 9 = true ∧ heldBlock s (addr % 2 ^ 32) = false) ∧
    (∃ (s : State) (uart : Fin 4) (k : Fin 8) (addr value : Nat), consoleServed s uart k = true ∧ portOn s 9 = true ∧ heldBlock s (addr % 2 ^ 32) = false) ∧
    (∃ (s : State) (uart : Fin 4) (k : Fin 8) (op tag : Nat) (body : List Nat), consoleServed s uart k = true) ∧
    (∃ (s : State) (uart : Fin 4) (k : Fin 8), consoleServed s uart k = true) :=
  ⟨⟨spined, 0, 0x10010, 5, 15, by decide +kernel, by decide +kernel⟩,
    ⟨demo, 0, 0, 0x30, 1, 1, by decide +kernel⟩,
    ⟨spined, 0, 0x10000, 1, by decide +kernel, by decide +kernel⟩,
    ⟨demo, 0, 0, 4, 1, by decide +kernel⟩,
    ⟨spined, 0, 0xF0000, true, by decide +kernel, by decide +kernel, by decide +kernel, by decide +kernel⟩,
    ⟨(spined.wr (R.TEMPO_STATE.SEQ 1) 5), 0, 0x300000, none, .inl (by decide +kernel)⟩,
    ⟨spined, 0, false, by decide +kernel, by decide +kernel⟩,
    ⟨demo, 0, 0, 8, 1, ((atomicFields 0 8).getD []), 8, 1, by decide +kernel, by decide +kernel, by decide +kernel, by decide +kernel, by decide +kernel, by decide +kernel⟩,
    ⟨demo, 0, 0, 8, [1], 8, [1], ((atomicFields 0 8).getD []), by decide +kernel, by decide +kernel, by decide +kernel, by decide +kernel⟩,
    ⟨stConsole, 0, 0, 0x10000, by decide +kernel, by decide +kernel, by decide +kernel⟩,
    ⟨stConsole, 0, 0, 0x10010, 1, by decide +kernel, by decide +kernel, by decide +kernel⟩,
    ⟨stConsole, 0, 0, 1, 2, [3], by decide +kernel⟩,
    ⟨stConsole, 0, 0, by decide +kernel⟩⟩

theorem witness_GroveCommands :
    (∃ (s : State) (slot target : Fin 8), mayWrite s slot 0x0008011C = true ∧ (slot.val = 0 ∨ target.val = slot.val)) ∧
    (∃ (s : State) (target : Fin 8), s.isSet (R.GROVE_STATUS.RESTARTING target) = true ∧ (List.range 2).any (fun n => (drumSt s n).strokes.any (fun x => x.slot = target.val && x.ending != 0)) = false) ∧
    (∃ (s : State) (slot : Fin 8) (vote : Bool), mayWrite s slot 0x00080118 = true) ∧
    (∃ (s : State) (slot : Fin 8) (irq : Nat), portOn s 2 = true) ∧
    (∃ (s : State) (flits : List Nat), passes s (headerOf (flitData (flits.headD 0))).source 1 = true ∧ packetMalformed flits = false ∧ (headerOf (flitData (flits.headD 0))).op = 5 ∧ packetBadCrc flits = false) ∧
    (∃ (s : State) (flits payload : List Nat), passes s (accessOf flits true (payloadBytes (lengthOf (flits.getD 1 0)) payload)).port 1 = true ∧ packetMalformed flits = false ∧ (headerOf (flitData (flits.headD 0))).op = 6 ∧ packetBadCrc flits = false ∧ payloadMalformed (flitSlot (flits.headD 0)) (lengthOf (flits.getD 1 0)) payload = false) ∧
    (∃ (s : State) (port : Fin 16) (slot : Fin 8) (m : Mail), mailOf s slot = some m) ∧
    (∃ (s : State) (port : Fin 16) (slot : Fin 8) (q : TallyQ), Tab.look TallyQ.reset s.tallyQ (8 * port.val + slot.val) = q ∧ q.sent.isSome = true ∧ 3 ≤ q.resends) ∧
    (∃ (s : State) (port : Fin 16) (slot : Fin 8) (q : TallyQ) (t : Tally), Tab.look TallyQ.reset s.tallyQ (8 * port.val + slot.val) = q ∧ q.sent = some t ∧ passes s port 14 = true ∧ Tab.look 0 s.tallyLast (8 * port.val + slot.val) ≠ q.num + 1) ∧
    (∃ (s : State) (port : Fin 16) (slot : Fin 8) (id : Nat) (q : TallyQ), Tab.look TallyQ.reset s.tallyQ (8 * port.val + slot.val) = q ∧ passes s 14 port = true ∧ q.sent.isSome = true ∧ q.num = id) ∧
    (∃ (s : State) (slot : Fin 8) (value : Nat), mayWrite s slot 0x00050004 = true ∧ (s.rd (R.TALLY_HEAD.COUNT slot) + 65536 - value % 65536) % 65536 ≤ 2 ^ s.rd (R.TALLY_STATUS.DEPTH slot)) :=
  ⟨⟨spined, 0, 0, by decide +kernel, by decide +kernel⟩,
    ⟨(State.reset.on (R.GROVE_STATUS.RESTARTING 1)), 1, by decide +kernel, by decide +kernel⟩,
    ⟨spined, 0, true, by decide +kernel⟩,
    ⟨spined, 0, 0, by decide +kernel⟩,
    ⟨stMemok, stMemrd, by decide +kernel, by decide +kernel, by decide +kernel, by decide +kernel⟩,
    ⟨stMemok, stMemwr, stMempay, by decide +kernel, by decide +kernel, by decide +kernel, by decide +kernel, by decide +kernel⟩,
    ⟨(mailDemo 0 1 [3]), 6, 0, ⟨0, 1, 1, 1, [3], none, true⟩, by decide +kernel⟩,
    ⟨({ State.reset with tallyQ := [(80, { TallyQ.reset with sent := some tally0, resends := 3 })] }), 10, 0, { TallyQ.reset with sent := some tally0, resends := 3 }, by decide +kernel, by decide +kernel, by decide +kernel⟩,
    ⟨({ spined with tallyQ := [(80, { TallyQ.reset with sent := some tally0 })] }), 10, 0, { TallyQ.reset with sent := some tally0 }, tally0, by decide +kernel, by decide +kernel, by decide +kernel, by decide +kernel⟩,
    ⟨({ spined with tallyQ := [(80, { TallyQ.reset with sent := some tally0 })] }), 10, 0, 0, { TallyQ.reset with sent := some tally0 }, by decide +kernel, by decide +kernel, by decide +kernel, by decide +kernel⟩,
    ⟨(stTallyon.wr (R.TALLY_HEAD.COUNT 0) 2), 0, 1, by decide +kernel, by decide +kernel⟩⟩

theorem witness_MemoryCommands :
    (∃ (s : State) (slot : Fin 8), mayWrite s slot 0x0009000C = true ∧ (s.rd R.MEMCTL_STATUS.STATE = 0 ∨ s.rd R.MEMCTL_STATUS.STATE = 4) ∧ (memConfig s).isSome = true) ∧
    (∃ (s : State) (cap : Nat), s.rd R.MEMCTL_STATUS.STATE = 1 ∧ memConfig s = some cap ∧ timingSet s = true ∧ hasSeal s = false) ∧
    (∃ (s : State) (waiting : Bool), s.rd R.MEMCTL_STATUS.STATE = 2) ∧
    (∃ (s : State), s.rd R.MEMCTL_STATUS.STATE = 2 ∧ s.rd R.MEMCTL_CFG.PATROL_HOURS ≠ 0) ∧
    (∃ (s : State) (page : Nat), underJob s page = true) ∧
    (∃ (s : State) (slot : Fin 8) (region : Fin 32), mayWrite s slot (0x000A1014 + 0x20 * region.val) = true ∧ s.rd R.DORMANT_STATUS.STATE = 0 ∧ regionSealed s region = true ∧ regionState s region ≠ 2) ∧
    (∃ (s : State) (r page : Nat) (rest : List Nat) (e : CtEntry) (t u : State), s.walks = r :: rest ∧ page = (regionSpan s r).1 / 4096 + watermark s r ∧ underJob s page = false ∧ readEntry page s = (some e, t) ∧ e.ahead = false ∧ u = (convertPage r page false t).wr (R.SEAL_REGION_WATERMARK.PAGE r) (watermark (convertPage r page false t) r + 1)) ∧
    (∃ (s : State), hasSeal s = true ∧ Tab.look false s.causes 29 = false) :=
  ⟨⟨stMemok, 0, by decide +kernel, by decide +kernel, by decide +kernel⟩,
    ⟨stNoseal, stMemcap, by decide +kernel, by decide +kernel, by decide +kernel, by decide +kernel⟩,
    ⟨(State.reset.wr R.MEMCTL_STATUS.STATE 2), true, by decide +kernel⟩,
    ⟨((State.reset.wr R.MEMCTL_STATUS.STATE 2).wr R.MEMCTL_CFG.PATROL_HOURS 24), by decide +kernel, by decide +kernel⟩,
    ⟨stPagejob, 3, by decide +kernel⟩,
    ⟨stSealon, 0, 1, by decide +kernel, by decide +kernel, by decide +kernel, by decide +kernel⟩,
    ⟨stWalk, 1, stWalkpage, [], ⟨0, false, false⟩, (readEntry stWalkpage stWalk).2, ((convertPage 1 stWalkpage false (readEntry stWalkpage stWalk).2).wr (R.SEAL_REGION_WATERMARK.PAGE 1) (watermark (convertPage 1 stWalkpage false (readEntry stWalkpage stWalk).2) 1 + 1)), by decide +kernel, rfl, by decide +kernel, pair_of (by decide +kernel), by decide +kernel, rfl⟩,
    ⟨State.reset, by decide +kernel, by decide +kernel⟩⟩

theorem witness_ClockCommands :
    (∃ (s : State), s.isSet R.METRO_STATUS.XTAL_QUAL = false ∧ s.pwrgd = true ∧ s.refGood = true ∧ s.refLost = false) ∧
    (∃ (s : State) (n : Nat), s.isSet R.METRO_STATUS.XTAL_QUAL = false ∧ s.pwrgd = true ∧ s.refGood = true ∧ s.refLost = false ∧ 781094 ≤ n ∧ n ≤ 781406 ∧ s.xtalRun < 7) ∧
    (∃ (s : State) (n : Nat), s.isSet R.METRO_STATUS.XTAL_QUAL = false ∧ s.pwrgd = true ∧ s.refGood = true ∧ s.refLost = false ∧ 781094 ≤ n ∧ n ≤ 781406 ∧ 7 ≤ s.xtalRun) ∧
    (∃ (s : State) (n : Nat), s.isSet R.METRO_STATUS.XTAL_QUAL = false ∧ s.pwrgd = true ∧ s.refGood = true ∧ s.refLost = false ∧ (n < 781094 ∨ 781406 < n)) ∧
    (∃ (s : State), s.pwrgd = true ∧ s.isSet R.METRO_STATUS.XTAL_QUAL = false) ∧
    (∃ (s : State), s.pwrgd = true ∧ s.isSet R.METRO_STATUS.XTAL_QUAL = true) ∧
    (∃ (s : State), s.rd R.METRO_ALARM.COMPARE ≠ 0 ∧ s.metro % 2 ^ 32 = s.rd R.METRO_ALARM.COMPARE) ∧
    (∃ (s : State), s.pwrgd = true ∧ s.refLost = false ∧ s.refGood = false ∧ mayStart { s with refGood := true } = true) ∧
    (∃ (s : State), s.refLost = false ∧ s.refGood = true) ∧
    (∃ (s : State), s.refLost = true ∧ mayStart (setCause 1 false { s with refLost := false, refGood := true }) = true) ∧
    (∃ (s : State) (gen : Fin 6), genState s gen = 1 ∧ relockStale s gen = false) ∧
    (∃ (s : State) (gen : Fin 6) (t : State), genState s gen = 2 ∧ relockStale s gen = false ∧ t = retryEnd (2 + gen.val) (s.wr (R.CLOCK_STATUS.GEN gen) 3)) ∧
    (∃ (s : State) (gen : Fin 6), (genState s gen = 1 ∨ genState s gen = 2) ∧ relockStale s gen = false) ∧
    (∃ (s : State) (gen : Fin 6), genState s gen = 3) ∧
    (∃ (s : State) (slot : Fin 8) (rail : Fin 3) (tempo : Fin 4), mayWrite s slot (0x00020020 + 16 * rail.val) = true) ∧
    (∃ (s : State) (rail : Fin 3) (late : Bool), railLive s rail = true ∧ (railOf s rail).wait = 1 ∧ (late = false ∨ (railOf s rail).held ≠ 4 ∨ s.rd R.DORMANT_STATUS.STATE ≠ 3)) ∧
    (∃ (s : State) (rail : Fin 3), railLive s rail = true ∧ (railOf s rail).wait = 1 ∧ (railOf s rail).held = 4 ∧ s.rd R.DORMANT_STATUS.STATE = 3 ∧ inReset s = false) ∧
    (∃ (s : State) (rail : Fin 3), railLive s rail = true ∧ seqOf s rail = 0) ∧
    (∃ (s : State) (rail : Fin 3), railLive s rail = true ∧ (seqOf s rail = 4 ∨ seqOf s rail = 5)) ∧
    (∃ (s : State) (rail : Fin 3), (railOf s rail).wait = 1 ∧ seqOf s rail = 1) ∧
    (∃ (s : State) (rail : Fin 3), (railOf s rail).wait = 1 ∧ seqOf s rail = 4) :=
  ⟨⟨{ State.reset with refGood := true }, by decide +kernel, by decide +kernel, by decide +kernel, by decide +kernel⟩,
    ⟨{ State.reset with refGood := true }, 781250, by decide +kernel, by decide +kernel, by decide +kernel, by decide +kernel, by decide +kernel, by decide +kernel, by decide +kernel⟩,
    ⟨{ State.reset with refGood := true, xtalRun := 7 }, 781406, by decide +kernel, by decide +kernel, by decide +kernel, by decide +kernel, by decide +kernel, by decide +kernel, by decide +kernel⟩,
    ⟨{ State.reset with refGood := true }, 781407, by decide +kernel, by decide +kernel, by decide +kernel, by decide +kernel, by decide +kernel⟩,
    ⟨State.reset, by decide +kernel, by decide +kernel⟩,
    ⟨(State.reset.on R.METRO_STATUS.XTAL_QUAL), by decide +kernel, by decide +kernel⟩,
    ⟨({ State.reset.wr R.METRO_ALARM.COMPARE 9 with metro := 9 }), by decide +kernel, by decide +kernel⟩,
    ⟨State.reset, by decide +kernel, by decide +kernel, by decide +kernel, by decide +kernel⟩,
    ⟨{ State.reset with refGood := true }, by decide +kernel, by decide +kernel⟩,
    ⟨{ State.reset with refLost := true }, by decide +kernel, by decide +kernel⟩,
    ⟨(State.reset.wr (R.CLOCK_STATUS.GEN 2) 1), 2, by decide +kernel, by decide +kernel⟩,
    ⟨(State.reset.wr (R.CLOCK_STATUS.GEN 2) 2), 2, (retryEnd 4 ((State.reset.wr (R.CLOCK_STATUS.GEN 2) 2).wr (R.CLOCK_STATUS.GEN 2) 3)), by decide +kernel, by decide +kernel, rfl⟩,
    ⟨(State.reset.wr (R.CLOCK_STATUS.GEN 2) 1), 2, by decide +kernel, by decide +kernel⟩,
    ⟨(State.reset.wr (R.CLOCK_STATUS.GEN 2) 3), 2, by decide +kernel⟩,
    ⟨spined, 0, 0, 2, by decide +kernel⟩,
    ⟨({ State.reset with rail0 := { State.reset.rail0 with wait := 1 } }), 0, false, by decide +kernel, by decide +kernel, .inl rfl⟩,
    ⟨({ State.reset.wr R.DORMANT_STATUS.STATE 3 with rail0 := { State.reset.rail0 with wait := 1, held := 4 } }), 0, by decide +kernel, by decide +kernel, by decide +kernel, by decide +kernel, by decide +kernel⟩,
    ⟨State.reset, 0, by decide +kernel, by decide +kernel⟩,
    ⟨(State.reset.wr (R.TEMPO_STATE.SEQ 0) 4), 0, by decide +kernel, by decide +kernel⟩,
    ⟨({ State.reset.wr (R.TEMPO_STATE.SEQ 0) 1 with rail0 := { State.reset.rail0 with wait := 1 } }), 0, by decide +kernel, by decide +kernel⟩,
    ⟨({ State.reset.wr (R.TEMPO_STATE.SEQ 0) 4 with rail0 := { State.reset.rail0 with wait := 1 } }), 0, by decide +kernel, by decide +kernel⟩⟩

theorem witness_DomainCommands :
    (∃ (s : State) (slot : Fin 8) (domain : Nat), mayWrite s slot 0x00030040 = true ∧ domainCmdBad s domain = false) ∧
    (∃ (s : State) (slot : Fin 8) (domain : Nat), mayWrite s slot 0x00030040 = true ∧ domainCmdBad s domain = false) ∧
    (∃ (s : State), dormantState s = 0 ∧ blockers s = 0) ∧
    (∃ (s : State), s.rd R.DORMANT_STATUS.MODE = 1 ∧ dormantState s = 0 ∧ s.isSet R.START_STATUS.DRUMS_DONE = true) ∧
    (∃ (s : State) (e : Entry) (t : State), s.entry = some e ∧ e.unwinding = false ∧ e.begun = false ∧ dormantState s = 1 ∧ pointReady s (s.rd R.DORMANT_STATUS.POINT + 1) = true ∧ t = pointAction (s.rd R.DORMANT_STATUS.POINT + 1) s) ∧
    (∃ (s : State) (e : Entry), s.entry = some e ∧ e.unwinding = false ∧ e.begun = true ∧ dormantState s = 1 ∧ pointFallen s = true) ∧
    (∃ (s : State) (e : Entry), s.entry = some e ∧ e.unwinding = false ∧ dormantState s = 1) ∧
    (∃ (s : State) (e : Entry), s.entry = some e ∧ e.unwinding = true ∧ dormantState s = 1) ∧
    (∃ (s : State) (bell : Fin 32) (e : Entry), s.entry = some e ∧ 32768 ≤ s.metro - e.tick) ∧
    (∃ (s : State), dormantState s = 3) ∧
    (∃ (s : State) (slot : Fin 8) (bells : Nat), mayWrite s slot 0x00030208 = true ∧ andNot (s.rd R.BELL_MUFFLED.MUFFLED) bells ≠ 0) ∧
    (∃ (s : State) (port : Fin 2) (write : Bool), dormantState s ≠ 0 ∧ hasRbp s port = true) :=
  ⟨⟨demo, 0, 14, by decide +kernel, by decide +kernel⟩,
    ⟨demo, 0, 14, by decide +kernel, by decide +kernel⟩,
    ⟨stDormready, by decide +kernel, by decide +kernel⟩,
    ⟨((State.reset.wr R.DORMANT_STATUS.MODE 1).on R.START_STATUS.DRUMS_DONE), by decide +kernel, by decide +kernel, by decide +kernel⟩,
    ⟨stEntry, ⟨0, [], false, false, [], 0⟩, (pointAction (stEntry.rd R.DORMANT_STATUS.POINT + 1) stEntry), by decide +kernel, by decide +kernel, by decide +kernel, by decide +kernel, by decide +kernel, rfl⟩,
    ⟨stBegun, ⟨0, [], false, true, [], 0⟩, by decide +kernel, by decide +kernel, by decide +kernel, by decide +kernel, by decide +kernel⟩,
    ⟨stEntry, ⟨0, [], false, false, [], 0⟩, by decide +kernel, by decide +kernel, by decide +kernel⟩,
    ⟨stUnwind, ⟨0, [], true, true, [], 0⟩, by decide +kernel, by decide +kernel, by decide +kernel⟩,
    ⟨({ stEntry with metro := 40000 }), 3, ⟨0, [], false, false, [], 0⟩, by decide +kernel, by decide +kernel⟩,
    ⟨(State.reset.wr R.DORMANT_STATUS.STATE 3), by decide +kernel⟩,
    ⟨((spined.wr R.BELL_MUFFLED.MUFFLED 6).wr R.CANOPY_STATUS.STATE 1), 0, 2, by decide +kernel, by decide +kernel⟩,
    ⟨(State.reset.wr R.DORMANT_STATUS.STATE 2), 0, false, by decide +kernel, by decide +kernel⟩⟩

theorem witness_BootCommands :
    (∃ (s : State) (tables : Option FlashTables) (t : State), s.rd R.HW_STATUS.MODE = 0 ∧ s.isSet R.START_STATUS.CORE_LOCKED = true ∧ t = senseCert (senseKeep 0 0x1000 (chooseRead tables s))) ∧
    (∃ (s : State), s.rd R.HW_STATUS.MODE = 1 ∧ s.isSet R.HW_STATUS.ALIVE = false) ∧
    (∃ (s : State), s.rd R.HW_STATUS.MODE = 1 ∧ s.isSet R.HW_STATUS.ALIVE = false) ∧
    (∃ (s : State) (alt : Fin 3) (data : List Nat) (bad : Bool) (t : State), t = senseKeep 0 32 s ∧ dfuLinked t = true ∧ data.length ≤ 4096 ∧ t.recovery.state = 2 ∧ (alt.val < 2 && (goodSlot t alt || t.recovery.holder = 2)) = false) ∧
    (∃ (s : State) (alt : Fin 3) (block : Nat) (data : List Nat) (bad : Bool) (t : State), t = senseKeep 0 32 s ∧ dfuLinked t = true ∧ data.length ≤ 4096 ∧ t.recovery.state = 5) ∧
    (∃ (s : State), dfuLinked s = true ∧ s.recovery.state = 5 ∧ s.recovery.alt = 2 ∧ s.recovery.word.length = 4 ∧ leVal s.recovery.word < 2 ∧ slotValid s (leVal s.recovery.word) = true) ∧
    (∃ (s : State), dfuLinked s = true) ∧
    (∃ (s : State), dfuLinked s = true) ∧
    (∃ (s : State) (seq : Nat) (t : State), t = senseKeep 0 32 (putRecovery { s.recovery with heard := [] } s) ∧ inRecovery t = true ∧ t.recovery.seedLast ≠ some (seq % 256)) ∧
    (∃ (s : State) (seq slot total : Nat) (t : State), t = senseKeep 0 32 (putRecovery { s.recovery with heard := [] } s) ∧ inRecovery t = true ∧ t.recovery.seedLast ≠ some (seq % 256) ∧ slot < 2 ∧ goodSlot t slot = false ∧ total ≤ maxDownload ∧ t.recovery.holder ≠ 1) ∧
    (∃ (s : State) (seq offset : Nat) (data : List Nat) (k total : Nat) (t : State), t = senseKeep 0 32 (putRecovery { s.recovery with heard := [] } s) ∧ inRecovery t = true ∧ t.recovery.seedLast ≠ some (seq % 256) ∧ t.recovery.drop = some (k, offset, total) ∧ t.recovery.holder ≠ 1 ∧ 4 ≤ data.length ∧ data.length ≤ 1016 ∧ offset + data.length ≤ total) ∧
    (∃ (s : State) (seq k next total : Nat) (t : State), t = senseKeep 0 32 (putRecovery { s.recovery with heard := [] } s) ∧ inRecovery t = true ∧ t.recovery.seedLast ≠ some (seq % 256) ∧ t.recovery.drop = some (k, next, total) ∧ slotValid t k = true) ∧
    (∃ (s : State) (seq slot : Nat) (t : State), t = senseKeep 0 32 (putRecovery { s.recovery with heard := [] } s) ∧ inRecovery t = true ∧ t.recovery.seedLast ≠ some (seq % 256) ∧ slot < 2 ∧ slotValid t slot = true) ∧
    (∃ (s : State) (seq : Nat) (crc : Bool), inRecovery s = true) :=
  ⟨⟨(State.reset.on R.START_STATUS.CORE_LOCKED), none, (senseCert (senseKeep 0 0x1000 (chooseRead none (State.reset.on R.START_STATUS.CORE_LOCKED)))), by decide +kernel, by decide +kernel, rfl⟩,
    ⟨(State.reset.wr R.HW_STATUS.MODE 1), by decide +kernel, by decide +kernel⟩,
    ⟨(State.reset.wr R.HW_STATUS.MODE 1), by decide +kernel, by decide +kernel⟩,
    ⟨({ stDfu with recovery := { Recovery.reset with state := 2 } }), 0, [1], false, ({ stDfu with recovery := { Recovery.reset with state := 2 } }), rfl, by decide +kernel, by decide +kernel, by decide +kernel, by decide +kernel⟩,
    ⟨({ stDfu with recovery := { Recovery.reset with state := 5 } }), 0, 1, [1], false, ({ stDfu with recovery := { Recovery.reset with state := 5 } }), rfl, by decide +kernel, by decide +kernel, by decide +kernel⟩,
    ⟨stGoodrecovery, by decide +kernel, by decide +kernel, by decide +kernel, by decide +kernel, by decide +kernel, goodRecovery_valid⟩,
    ⟨stDfu, by decide +kernel⟩,
    ⟨stDfu, by decide +kernel⟩,
    ⟨stDfu, 1, stDfu, sensed _ rfl rfl, by decide +kernel, by decide +kernel⟩,
    ⟨stDfu, 1, 0, 256, stDfu, sensed _ rfl rfl, by decide +kernel, by decide +kernel, by decide +kernel, by decide +kernel, by decide +kernel, by decide +kernel⟩,
    ⟨({ stDfu with recovery := { Recovery.reset with drop := some (0, 0, 256) } }), 2, 0, [1,2,3,4], 0, 256, ({ stDfu with recovery := { Recovery.reset with drop := some (0, 0, 256) } }), sensed _ rfl rfl, by decide +kernel, by decide +kernel, by decide +kernel, by decide +kernel, by decide +kernel, by decide +kernel, by decide +kernel⟩,
    ⟨stGoodrecovery, 2, 0, 0, 256, stGoodrecovery, sensed _ rfl rfl, by decide +kernel, by decide +kernel, by decide +kernel, goodRecovery_valid⟩,
    ⟨stGoodrecovery, 2, 0, stGoodrecovery, sensed _ rfl rfl, by decide +kernel, by decide +kernel, by decide +kernel, goodRecovery_valid⟩,
    ⟨(State.reset.wr R.HW_STATUS.MODE 2), 1, true, by decide +kernel⟩⟩

theorem witness_MailboxCommands :
    (∃ (s : State) (slot : Fin 8), mayWrite s slot 0x00060200 = true) ∧
    (∃ (s : State) (slot : Fin 8) (m : Mail) (r : Nat × List Nat), mailOf s slot = some m ∧ m.reply = some r) ∧
    (∃ (s : State) (slot : Fin 8) (m : Mail), mailOf s slot = some m) ∧
    (∃ (s : State) (slot : Fin 8) (op : Nat) (body : List Nat), mailWaits s slot op body = true ∧ knownOps.contains op = false) ∧
    (∃ (s : State) (slot : Fin 8) (body : List Nat), mailWaits s slot 0x01 body = true ∧ body.length ≤ 248) ∧
    (∃ (s : State) (slot : Fin 8) (t : State), mailWaits s slot 0x02 [] = true ∧ t = senseKeep 0 32 s) ∧
    (∃ (s : State) (slot : Fin 8) (fails : Option Bool) (t : State), mailWaits s slot 0x10 [] = true ∧ t = senseKeep 0 32 s) ∧
    (∃ (s : State) (slot : Fin 8) (body : List Nat), mailWaits s slot 0x11 body = true ∧ body.length = 4 ∧ leVal (body.take 4) < (Tab.look [] s.reports slot).length) ∧
    (∃ (s : State) (slot : Fin 8) (body : List Nat), mailWaits s slot 0x12 body = true ∧ body.length = 4 ∧ leVal (body.take 4) = 0) ∧
    (∃ (s : State) (slot : Fin 8) (error : Bool) (body : List Nat), mailWaits s slot 0x20 body = true ∧ body.length = 8 ∧ slot.val = 0 ∧ areaFits (leVal (body.take 4)) (leVal ((body.drop 4).take 4)) 4096 = true ∧ leVal ((body.drop 4).take 4) % 4096 = 0 ∧ areaLocked s (leVal (body.take 4)) = false ∧ areaChecked s (leVal (body.take 4)) = false) ∧
    (∃ (s : State) (slot : Fin 8) (error : Bool) (body : List Nat), mailWaits s slot 0x21 body = true ∧ 12 ≤ body.length ∧ body.length ≤ 248 ∧ body.length % 4 = 0 ∧ slot.val = 0 ∧ areaFits (leVal (body.take 4)) (leVal ((body.drop 4).take 4)) (body.drop 8).length = true ∧ areaLocked s (leVal (body.take 4)) = false ∧ areaChecked s (leVal (body.take 4)) = false) ∧
    (∃ (s : State) (slot : Fin 8) (body : List Nat), mailWaits s slot 0x22 body = true ∧ body.length = 12 ∧ slot.val = 0 ∧ 4 ≤ word body 8 ∧ word body 8 ≤ 240 ∧ areaFits (word body 0) (word body 4) (word body 8) = true) ∧
    (∃ (s : State) (slot : Fin 8) (error : Bool) (body : List Nat), mailWaits s slot 0x23 body = true ∧ body.length = 132 ∧ slot.val = 0 ∧ word body 0 ≤ 1 ∧ slotRuns s (word body 0) = false) ∧
    (∃ (s : State) (slot : Fin 8) (body : List Nat), mailWaits s slot 0x24 body = true ∧ body.length = 4 ∧ slot.val = 0 ∧ word body 0 ≤ 1 ∧ slotRuns s (word body 0) = false ∧ headed s (word body 0) = true) ∧
    (∃ (s : State) (slot : Fin 8) (body : List Nat) (m : Mail), mailWaits s slot 0x25 body = true ∧ body.length = 4 ∧ slot.val = 0 ∧ word body 0 = 0 ∧ mailOf s slot = some m) ∧
    (∃ (s : State) (slot : Fin 8) (body : List Nat), mailWaits s slot 0x30 body = true ∧ body.length = 4 ∧ word body 0 ≤ 31 ∧ (slot.val = 0 ∨ groveOf s slot = some (word body 0))) ∧
    (∃ (s : State) (slot : Fin 8), mailWaits s slot 0x31 [] = true ∧ slot.val = 0) ∧
    (∃ (s : State) (slot : Fin 8) (body : List Nat), mailWaits s slot 0x40 body = true ∧ body.length = 36 ∧ slot.val = 0 ∧ 4 ≤ word body 0 ∧ word body 0 ≤ 7) :=
  ⟨⟨(withDomains [1] spined), 0, by decide +kernel⟩,
    ⟨({ State.reset with mail := [(0, some ⟨0, 1, 2, 0, [], some (0, []), true⟩)] }), 0, ⟨0, 1, 2, 0, [], some (0, []), true⟩, (0, []), by decide +kernel, by decide +kernel⟩,
    ⟨({ State.reset with mail := [(0, some ⟨0, 1, 2, 0, [], none, true⟩)] }), 0, ⟨0, 1, 2, 0, [], none, true⟩, by decide +kernel⟩,
    ⟨(mailDemo 0 0x7F []), 0, 0x7F, [], by decide +kernel, by decide +kernel⟩,
    ⟨(mailDemo 0 1 [7,8]), 0, [7,8], by decide +kernel, by decide +kernel⟩,
    ⟨(mailDemo 0 0x02 []), 0, (mailDemo 0 0x02 []), by decide +kernel, rfl⟩,
    ⟨(mailDemo 0 0x10 []), 0, none, (mailDemo 0 0x10 []), by decide +kernel, rfl⟩,
    ⟨({ mailDemo 0 0x11 [0,0,0,0] with reports := [(0, [1, 2])] }), 0, [0,0,0,0], by decide +kernel, by decide +kernel, by decide +kernel⟩,
    ⟨(mailDemo 0 0x12 [0,0,0,0]), 0, [0,0,0,0], by decide +kernel, by decide +kernel, by decide +kernel⟩,
    ⟨(mailDemo 0 0x20 [1,0,0,0,0,0,0,0]), 0, false, [1,0,0,0,0,0,0,0], by decide +kernel, by decide +kernel, by decide +kernel, by decide +kernel, by decide +kernel, by decide +kernel, by decide +kernel⟩,
    ⟨(mailDemo 0 0x21 [1,0,0,0,0,0,0,0,5,6,7,8]), 0, false, [1,0,0,0,0,0,0,0,5,6,7,8], by decide +kernel, by decide +kernel, by decide +kernel, by decide +kernel, by decide +kernel, by decide +kernel, by decide +kernel, by decide +kernel⟩,
    ⟨(mailDemo 0 0x22 [1,0,0,0,0,0,0,0,4,0,0,0]), 0, [1,0,0,0,0,0,0,0,4,0,0,0], by decide +kernel, by decide +kernel, by decide +kernel, by decide +kernel, by decide +kernel, by decide +kernel⟩,
    ⟨(mailDemo 0 0x23 (1 :: List.replicate 131 0)), 0, false, (1 :: List.replicate 131 0), by decide +kernel, by decide +kernel, by decide +kernel, by decide +kernel, by decide +kernel⟩,
    ⟨stTrial, 0, [1,0,0,0], by decide +kernel, by decide +kernel, by decide +kernel, by decide +kernel, by decide +kernel, by decide +kernel⟩,
    ⟨(mailDemo 0 0x25 [0,0,0,0]), 0, [0,0,0,0], ⟨0, 0x25, 1, 4, [0,0,0,0], none, true⟩, by decide +kernel, by decide +kernel, by decide +kernel, by decide +kernel, by decide +kernel⟩,
    ⟨(mailDemo 0 0x30 [2,0,0,0]), 0, [2,0,0,0], by decide +kernel, by decide +kernel, by decide +kernel, by decide +kernel⟩,
    ⟨(mailDemo 0 0x31 []), 0, by decide +kernel, by decide +kernel⟩,
    ⟨(mailDemo 0 0x40 (4 :: List.replicate 35 0)), 0, (4 :: List.replicate 35 0), by decide +kernel, by decide +kernel, by decide +kernel, by decide +kernel, by decide +kernel⟩⟩

theorem witness_StartCommands :
    (∃ (s : State) (a b : Fin 4) (position : Fin 8), s.pwrgd = false) ∧
    (∃ (s : State), s.pwrgd = true) ∧
    (∃ (s : State), s.pwrgd = true ∧ s.resetN = true ∧ s.testEn = false) ∧
    (∃ (s : State), s.pwrgd = true ∧ s.resetN = false ∧ s.testEn = false ∧ mayStart { s with resetN := true } = true) ∧
    (∃ (s : State), s.pwrgd = true ∧ s.resetN = true ∧ s.testEn = false) ∧
    (∃ (s : State), s.pwrgd = true ∧ s.resetN = true ∧ s.testEn = true ∧ mayStart { s with testEn := false } = true) ∧
    (∃ (s : State) (high : Bool), s.isSet R.START_STATUS.REF = true) ∧
    (∃ (s : State) (up : UpConnect) (slot : Nat), nextGrove s = some slot ∧ regionsWait s slot = false) ∧
    (∃ (s : State) (drum : Fin 2) (inner outer : Bool) (t : State), hasDrum s drum = true ∧ t = (s.wrB (R.TRAY_STATUS.IN_SW drum) inner).wrB (R.TRAY_STATUS.OUT_SW drum) outer ∧ t.rd R.HW_STATUS.MODE = 1 ∧ configured t = true ∧ t.isSet R.START_STATUS.ALL_READY = true ∧ (drumRec t drum).isSome = true ∧ (drum.val = 0 ∨ drumDone t 0 = true) ∧ (drumSt t drum).up = false ∧ drumDone t drum = false ∧ hasDrum t drum = true) ∧
    (∃ (s : State) (port : Fin 2), (rbpSt s port).toServe = true ∧ hasRbp s port = true ∧ isPruned s (0x6000 + port.val) = false) ∧
    (∃ (s : State) (port : Fin 2), hasRbp s port = true ∧ s.pwrgd = true ∧ s.isSet (R.RBP_CFG.SERVING port) = false ∧ Tab.look 0 s.strapRbp port ≠ 3) ∧
    (∃ (s : State) (d : Deferred) (r : List Deferred), s.deferred = d :: r ∧ domOn s 18 = true) ∧
    (∃ (s : State) (source : Fin 512) (up : UpConnect), Tab.look false s.backoff source = true) ∧
    (∃ (s : State) (source : Fin 512), mayQuiet s source = true) ∧
    (∃ (s : State) (slot : Fin 8) (w : Fin 16) (value : Nat), mayWrite s slot (0x00040000 + 4 * w.val) = true ∧ stickyRefused slot w value (activity s) = false) ∧
    (∃ (s : State) (slot : Fin 8) (code : Nat), mayWrite s slot 0x00040090 = true ∧ slot.val = 0) ∧
    (∃ (s : State) (code : Nat), s.unpruning = some code) ∧
    (∃ (s : State) (reads : List (Fin 4 × Fin 8 × SeedRead)), s.rd R.HW_STATUS.MODE = 1 ∧ s.isSet R.START_STATUS.CANOPY_DONE = true ∧ s.isSet R.IDB_STATUS.SCANNED = false) ∧
    (∃ (s : State) (bus : Fin 4), s.rd R.HW_STATUS.MODE = 1 ∧ s.isSet R.IDB_STATUS.SCANNED = false ∧ s.rescan.isNone = true) ∧
    (∃ (s : State) (slot : Fin 8) (bus : Fin 4) (address : Fin 8), mayWrite s slot 0x00270004 = true) ∧
    (∃ (s : State) (slot : Fin 8) (bus : Fin 4) (address : Fin 8), mayWrite s slot 0x00270004 = true) ∧
    (∃ (s : State) (slot : Fin 8) (op : Fin 4) (bus : Fin 4) (address : Fin 8), mayWrite s slot 0x00270004 = true) ∧
    (∃ (s : State) (read : Option SeedRead) (ups : List UpConnect) (a : Nat), s.rescan = some (a, false) ∧ seedOutcome (compareSeed 2 a (takeSeed 2 a read (readSeed 2 a read { s.off R.IDB_STATUS.BUSY with rescan := none }))) 2 a = 0) ∧
    (∃ (s : State) (port : Fin 2) (present : Bool), hasRbp s port = true) :=
  ⟨⟨({ State.reset with pwrgd := false }), 0, 3, 1, by decide +kernel⟩,
    ⟨State.reset, by decide +kernel⟩,
    ⟨State.reset, by decide +kernel, by decide +kernel, by decide +kernel⟩,
    ⟨({ State.reset with resetN := false, refGood := true }), by decide +kernel, by decide +kernel, by decide +kernel, by decide +kernel⟩,
    ⟨State.reset, by decide +kernel, by decide +kernel, by decide +kernel⟩,
    ⟨({ State.reset with testEn := true, refGood := true }), by decide +kernel, by decide +kernel, by decide +kernel, by decide +kernel⟩,
    ⟨(State.reset.on R.START_STATUS.REF), true, by decide +kernel⟩,
    ⟨stBringg, ⟨false, 0⟩, 0, by decide +kernel, by decide +kernel⟩,
    ⟨stBringd, 0, true, false, ((stBringd.wrB (R.TRAY_STATUS.IN_SW 0) true).wrB (R.TRAY_STATUS.OUT_SW 0) false), by decide +kernel, rfl, by decide +kernel, by decide +kernel, by decide +kernel, by decide +kernel, by decide +kernel, by decide +kernel, by decide +kernel, by decide +kernel⟩,
    ⟨({ State.reset with rbp0 := { State.reset.rbp0 with toServe := true } }), 0, by decide +kernel, by decide +kernel, by decide +kernel⟩,
    ⟨State.reset, 0, by decide +kernel, by decide +kernel, by decide +kernel, by decide +kernel⟩,
    ⟨({ State.reset.wr (R.DOMAIN_STATE.D 18) 2 with deferred := [.recovery 3] }), (.recovery 3), [], by decide +kernel, by decide +kernel⟩,
    ⟨({ State.reset with backoff := [(163, true)] }), 163, ⟨false, 0⟩, by decide +kernel⟩,
    ⟨stQuiet, 33, by decide +kernel⟩,
    ⟨spined, 0, 1, 2, by decide +kernel, by decide +kernel⟩,
    ⟨spined, 0, 0x1000, by decide +kernel, by decide +kernel⟩,
    ⟨({ State.reset with unpruning := some 0x1000 }), 0x1000, by decide +kernel⟩,
    ⟨((State.reset.wr R.HW_STATUS.MODE 1).on R.START_STATUS.CANOPY_DONE), [], by decide +kernel, by decide +kernel, by decide +kernel⟩,
    ⟨(State.reset.wr R.HW_STATUS.MODE 1), 1, by decide +kernel, by decide +kernel, by decide +kernel⟩,
    ⟨stIdbw, 0, 2, 0, by decide +kernel⟩,
    ⟨stIdbw, 0, 2, 0, by decide +kernel⟩,
    ⟨stIdbw, 0, 3, 2, 0, by decide +kernel⟩,
    ⟨({ State.reset with rescan := some (0, false) }), none, [], 0, by decide +kernel, by decide +kernel⟩,
    ⟨spined, 0, true, by decide +kernel⟩⟩

theorem witness_RetroBusCommands :
    (∃ (s : State) (port : Fin 2) (data : List Nat) (k : Fin 8), windowServed s port k = true) ∧
    (∃ (s : State) (port : Fin 2) (k : Fin 8), windowServed s port k = true ∧ s.isSet (R.IND_STATUS.BUSY port) = false) ∧
    (∃ (s : State) (port : Fin 2) (k : Fin 8), windowServed s port k = true ∧ s.isSet (R.IND_STATUS.BUSY port) = true) ∧
    (∃ (s : State) (port : Fin 2) (both : Bool) (k : Fin 8), windowServed s port k = true ∧ clockedMode s port = false ∧ s.isSet (R.IND_CTRL.DIRECT port) = true ∧ s.isSet (R.IND_STATUS.BUSY port) = false ∧ s.isSet (R.IND_STATUS.VALID port) = false) ∧
    (∃ (s : State) (port : Fin 2) (k : Fin 8), windowServed s port k = true) ∧
    (∃ (s : State) (port : Fin 2) (a : Nat) (d w : Bool) (rest : List Issue) (k : Nat) (status value : Nat) (t : State), (rbpSt s port).issues = .regRead a d w :: rest ∧ slotOfRbp s port = some k ∧ heldBlock s a = false ∧ readReg k a 8 .slot s = (some status, value, t)) ∧
    (∃ (s : State) (port : Fin 2) (a be v : Nat) (rest : List Issue) (k : Nat), (rbpSt s port).issues = .regWrite a be v :: rest ∧ slotOfRbp s port = some k) ∧
    (∃ (s : State) (port : Fin 2) (count : Nat), (rbpSt s port).waiting = some (.read count)) ∧
    (∃ (s : State) (port : Fin 2), rbpServing s port = true) ∧
    (∃ (s : State) (port : Fin 2) (data : List Nat) (k : Fin 8), windowServed s port k = true) ∧
    (∃ (s : State) (port : Fin 2) (k : Fin 8), windowServed s port k = true) ∧
    (∃ (s : State) (port : Fin 2) (region unit : Nat) (rest : List Issue) (k a : Nat), (rbpSt s port).issues = .fill region unit :: rest ∧ slotOfRbp s port = some k ∧ regionAddr s k region (2048 * unit) 2048 = some a) ∧
    (∃ (s : State) (port : Fin 2) (offset : Nat) (data : List Nat) (k : Fin 8) (off : Nat) (bs : List Nat), windowServed s port k = true ∧ laneBytes s port offset data = (off, bs) ∧ 0x800 ≤ off ∧ off + bs.length ≤ 0x1000 ∧ bs.isEmpty = false) ∧
    (∃ (s : State) (port : Fin 2) (region : Nat) (bs : List (Nat × Nat)) (rest : List Issue) (k : Nat), (rbpSt s port).issues = .through region bs :: rest ∧ slotOfRbp s port = some k) ∧
    (∃ (s : State) (port : Fin 2) (bits : Nat) (k : Fin 8), windowServed s port k = true) ∧
    (∃ (s : State) (port : Fin 2) (dir : Bool) (k : Fin 8) (t : State) (a : Nat), windowServed s port k = true ∧ dmaRunning s port = false ∧ t = (s.wrB (R.DMA_CTRL.DIR port) dir).wr (R.DMA_STATUS.MOVED port) 0 ∧ dmaFits t port = true ∧ regionAddr t k (t.rd (R.DMA_REGION.REGION port)) (t.rd (R.DMA_OFFSET.OFFSET port)) (t.rd (R.DMA_LEN.BYTES port)) = some a) ∧
    (∃ (s : State) (port : Fin 2) (cycles : Nat) (data : List Nat) (k : Fin 8), slotOfRbp s port = some k.val ∧ rbpServing s port = true ∧ dmaRunning s port = true) ∧
    (∃ (s : State) (port : Fin 2), dmaRunning s port = true ∧ (rbpSt s port).dma = 1) ∧
    (∃ (s : State) (port : Fin 2) (data : List Nat), dmaRunning s port = true ∧ (rbpSt s port).dma = 2) ∧
    (∃ (s : State) (port : Fin 2), dmaRunning s port = true ∧ (rbpSt s port).dma = 3) ∧
    (∃ (s : State) (port : Fin 2), dmaRunning s port = true ∧ (rbpSt s port).dma = 1) ∧
    (∃ (s : State) (port : Fin 2) (cycles : Nat) (data : List Nat), dmaRunning s port = true ∧ (rbpSt s port).dma = 2) :=
  ⟨⟨demo, 0, [1], 0, by decide +kernel⟩,
    ⟨demo, 0, 0, by decide +kernel, by decide +kernel⟩,
    ⟨(demo.on (R.IND_STATUS.BUSY 0)), 0, 0, by decide +kernel, by decide +kernel⟩,
    ⟨((demo.on (R.IND_CTRL.DIRECT 0)).wr (R.RBP_CFG.MODE 0) 1), 0, true, 0, by decide +kernel, by decide +kernel, by decide +kernel, by decide +kernel, by decide +kernel⟩,
    ⟨demo, 0, 0, by decide +kernel⟩,
    ⟨(demoIssue (.regRead 0x10000 false false)), 0, 0x10000, false, false, [], 0, ((readReg 0 0x10000 8 .slot (demoIssue (.regRead 0x10000 false false))).1.getD 0), ((readReg 0 0x10000 8 .slot (demoIssue (.regRead 0x10000 false false))).2.1), ((readReg 0 0x10000 8 .slot (demoIssue (.regRead 0x10000 false false))).2.2), by decide +kernel, by decide +kernel, by decide +kernel, read_back (by decide +kernel)⟩,
    ⟨(demoIssue (.regWrite 0x10010 15 1)), 0, 0x10010, 15, 1, [], 0, by decide +kernel, by decide +kernel⟩,
    ⟨demoWait, 0, 1, by decide +kernel⟩,
    ⟨demo, 0, by decide +kernel⟩,
    ⟨demo, 0, [1], 0, by decide +kernel⟩,
    ⟨demo, 0, 0, by decide +kernel⟩,
    ⟨(demoIssue (.fill 0 0)), 0, 0, 0, [], 0, ((regionAddr (demoIssue (.fill 0 0)) 0 0 0 2048).getD 0), by decide +kernel, by decide +kernel, by decide +kernel⟩,
    ⟨demo, 0, 0x800, [1], 0, 0x800, [1], by decide +kernel, by decide +kernel, by decide +kernel, by decide +kernel, by decide +kernel⟩,
    ⟨(demoIssue (.through 0 [(0, 7)])), 0, 0, [(0, 7)], [], 0, by decide +kernel, by decide +kernel⟩,
    ⟨demo, 0, 3, 0, by decide +kernel⟩,
    ⟨stDmaok, 0, true, 0, ((stDmaok.wrB (R.DMA_CTRL.DIR 0) true).wr (R.DMA_STATUS.MOVED 0) 0), ((regionAddr stDmaok 0 (stDmaok.rd (R.DMA_REGION.REGION 0)) (stDmaok.rd (R.DMA_OFFSET.OFFSET 0)) (stDmaok.rd (R.DMA_LEN.BYTES 0))).getD 0), by decide +kernel, by decide +kernel, rfl, by decide +kernel, by decide +kernel⟩,
    ⟨(stDmarun 1), 0, 0, [], 0, by decide +kernel, by decide +kernel, by decide +kernel⟩,
    ⟨(stDmarun 1), 0, by decide +kernel, by decide +kernel⟩,
    ⟨(stDmarun 2), 0, [], by decide +kernel, by decide +kernel⟩,
    ⟨(stDmarun 3), 0, by decide +kernel, by decide +kernel⟩,
    ⟨(stDmarun 1), 0, by decide +kernel, by decide +kernel⟩,
    ⟨(stDmarun 2), 0, 0, [], by decide +kernel, by decide +kernel⟩⟩

theorem witness_HubRequests :
    (∃ (s : State) (slot : Fin 8) (port : Fin 16) (tile : Nat) (buffer : Fin 2), portServed s slot port tile = true ∧ hasTts s slot = true) ∧
    (∃ (s : State) (slot : Fin 8) (port : Fin 16) (tile : Nat), portServed s slot port tile = true ∧ hasTts s slot = true) ∧
    (∃ (s : State) (slot : Fin 8) (port : Fin 16) (tile : Nat), portServed s slot port tile = true ∧ hasTts s slot = true) ∧
    (∃ (s : State) (slot : Fin 8) (port : Fin 16) (tile : Nat), portServed s slot port tile = true ∧ hasTts s slot = true) ∧
    (∃ (s : State) (slot : Fin 8) (depth : Nat), hubServed s slot = true) ∧
    (∃ (s : State) (slot : Fin 8) (port : Fin 16) (tile : Nat) (counts : LinkCounts) (t : State), portServed s slot port tile = true ∧ t = countLink tile counts s) ∧
    (∃ (s : State) (slot : Fin 8) (port : Fin 16) (tile : Nat), portServed s slot port tile = true) ∧
    (∃ (s : State) (slot : Fin 8) (port : Fin 16) (tile : Nat), portServed s slot port tile = true ∧ isTaprootHub s slot = false) ∧
    (∃ (s : State) (slot : Fin 8) (port : Fin 16) (tile : Nat), portServed s slot port tile = true) ∧
    (∃ (s : State) (slot : Fin 8) (port : Fin 16) (tile : Nat), portServed s slot port tile = true ∧ 4 ≤ s.rd (R.HUB_PORT.SPEED slot port)) ∧
    (∃ (s : State) (slot : Fin 8) (port : Fin 16) (tile : Nat), portServed s slot port tile = true ∧ s.rd (R.HUB_PORT.SPEED slot port) < 4 ∧ s.isSet (R.HUB_PORT.ENABLED slot port) = true) ∧
    (∃ (s : State) (slot : Fin 8) (port : Fin 16) (tile : Nat), portServed s slot port tile = true ∧ s.rd (R.HUB_PORT.SPEED slot port) < 4 ∧ s.isSet (R.HUB_PORT.ENABLED slot port) = true ∧ s.rd (R.HUB_PORT.LINK slot port) = 7) ∧
    (∃ (s : State) (slot : Fin 8) (port : Fin 16) (tile : Nat), portServed s slot port tile = true ∧ 4 ≤ s.rd (R.HUB_PORT.SPEED slot port) ∧ s.rd (R.HUB_PORT.LINK slot port) = 7) ∧
    (∃ (s : State) (slot : Fin 8) (port : Fin 16) (tile : Nat), portServed s slot port tile = true ∧ 4 ≤ s.rd (R.HUB_PORT.SPEED slot port) ∧ s.rd (R.HUB_PORT.LINK slot port) = 3) ∧
    (∃ (s : State) (slot : Fin 8) (port : Fin 16) (tile : Nat) (value : Nat), portServed s slot port tile = true) ∧
    (∃ (s : State) (slot : Fin 8) (port : Fin 16) (tile : Nat) (value : Nat), portServed s slot port tile = true) ∧
    (∃ (s : State) (slot : Fin 8) (port : Fin 16) (tile : Nat) (value : Nat), portServed s slot port tile = true) ∧
    (∃ (s : State) (slot : Fin 8) (port : Fin 16) (tile : Nat) (set : Bool), portServed s slot port tile = true) ∧
    (∃ (s : State) (slot : Fin 8) (port : Fin 16) (tile : Nat) (value : Nat), portServed s slot port tile = true) ∧
    (∃ (s : State) (slot : Fin 8) (port : Fin 16), hubServed s slot = true) ∧
    (∃ (s : State) (slot : Fin 8) (part : UsbPart) (request : UsbRequest), inRecovery s = false ∧ isVirtualHub s slot = true ∧ upActive s slot = true ∧ part ≠ .function ∧ (part = .usb3 → upSuper s slot = true)) ∧
    (∃ (s : State) (slot : Fin 8) (request : UsbRequest), inRecovery s = false ∧ (isVirtualHub s slot = true ∨ configured s = false) ∧ upActive s slot = true) ∧
    (∃ (s : State) (slot : Fin 8) (part : UsbPart) (request : UsbRequest), inRecovery s = true ∧ slot.val = 0 ∧ linkOf s 0 = 3) :=
  ⟨⟨stHubup, 0, 1, stHubtile, 0, by decide +kernel, by decide +kernel⟩,
    ⟨stHubup, 0, 1, stHubtile, by decide +kernel, by decide +kernel⟩,
    ⟨stHubup, 0, 1, stHubtile, by decide +kernel, by decide +kernel⟩,
    ⟨stHubup, 0, 1, stHubtile, by decide +kernel, by decide +kernel⟩,
    ⟨stHubup, 0, 2, by decide +kernel⟩,
    ⟨stHubup, 0, 1, stHubtile, noCounts, (countLink stHubtile noCounts stHubup), by decide +kernel, rfl⟩,
    ⟨stHubup, 0, 1, stHubtile, by decide +kernel⟩,
    ⟨stHubup, 0, 1, stHubtile, by decide +kernel, by decide +kernel⟩,
    ⟨stHubup, 0, 1, stHubtile, by decide +kernel⟩,
    ⟨(stHubup.wr (R.HUB_PORT.SPEED 0 1) 4), 0, 1, stHubtile, by decide +kernel, by decide +kernel⟩,
    ⟨(stHubup.on (R.HUB_PORT.ENABLED 0 1)), 0, 1, stHubtile, by decide +kernel, by decide +kernel, by decide +kernel⟩,
    ⟨((stHubup.on (R.HUB_PORT.ENABLED 0 1)).wr (R.HUB_PORT.LINK 0 1) 7), 0, 1, stHubtile, by decide +kernel, by decide +kernel, by decide +kernel, by decide +kernel⟩,
    ⟨((stHubup.wr (R.HUB_PORT.SPEED 0 1) 4).wr (R.HUB_PORT.LINK 0 1) 7), 0, 1, stHubtile, by decide +kernel, by decide +kernel, by decide +kernel⟩,
    ⟨((stHubup.wr (R.HUB_PORT.SPEED 0 1) 4).wr (R.HUB_PORT.LINK 0 1) 3), 0, 1, stHubtile, by decide +kernel, by decide +kernel, by decide +kernel⟩,
    ⟨stHubup, 0, 1, stHubtile, 1, by decide +kernel⟩,
    ⟨stHubup, 0, 1, stHubtile, 1, by decide +kernel⟩,
    ⟨stHubup, 0, 1, stHubtile, 1, by decide +kernel⟩,
    ⟨stHubup, 0, 1, stHubtile, true, by decide +kernel⟩,
    ⟨stHubup, 0, 1, stHubtile, 1, by decide +kernel⟩,
    ⟨stHubup, 0, 1, by decide +kernel⟩,
    ⟨stHubup, 0, .usb2, .getStatus .device, by decide +kernel, by decide +kernel, by decide +kernel, by decide +kernel, by decide +kernel⟩,
    ⟨stHubup, 0, .getStatus .device, by decide +kernel, .inl (by decide +kernel), by decide +kernel⟩,
    ⟨stDfu, 0, .usb2, (.setAddress 5), by decide +kernel, by decide +kernel, by decide +kernel⟩⟩

theorem witness_TileLinkEvents :
    (∃ (s : State) (slot : Fin 8) (value index length : Nat), upActive s slot = true ∧ vendorLength length = true ∧ value % 4 = 0) ∧
    (∃ (s : State) (slot : Fin 8) (value index : Nat) (words : List Nat), upActive s slot = true ∧ vendorLength (4 * words.length) = true ∧ value % 4 = 0) ∧
    (∃ (s : State) (slot : Fin 8) (request value length : Nat), upActive s slot = true ∧ request ≠ 0xB1 ∧ request ≠ 0xB2) ∧
    (∃ (s : State) (slot : Fin 8), Tab.look false s.irqNews slot = true ∧ functionRuns s slot = true) ∧
    (∃ (s : State) (tile : Fin 14) (n : Nat) (slot k : Nat) (t : State), portOfTile s tile = some (slot, k) ∧ (portOf s slot k).resetting ≠ 0 ∧ t = modPort slot k (fun p => { p with resetting := 0, cReset := true, cWarm := p.cWarm || decide (p.resetting = 2) }) s ∧ t.isSet (R.HUB_PORT.CONNECT slot k) = true) ∧
    (∃ (s : State) (tile : Fin 14), runsDetection s tile = true) ∧
    (∃ (s : State) (tile : Fin 14) (gen2 : Bool), runsDetection s tile = true) ∧
    (∃ (s : State) (tile : Fin 14), runsDetection s tile = true) ∧
    (∃ (s : State) (tile : Fin 14) (low : Bool), awaitsConnect s tile = true ∧ runsDetection s tile = false) ∧
    (∃ (s : State) (tile : Fin 14) (slot : Nat), isDfu s tile = false ∧ slotOfUpTile s tile = some slot) ∧
    (∃ (s : State) (tile : Fin 14), isDfu s tile = true) ∧
    (∃ (s : State) (slot : Fin 8), isVirtualHub s slot = true ∧ upLinked s slot = true) ∧
    (∃ (s : State) (tile : Fin 14) (besl : Nat) (busy : Bool), besl ≤ 1000 ∧ linkOf s tile = 3 ∧ s.rd (R.TILE_STATUS.SPEED tile) = 3 ∧ (busy = false ∨ forcesLpm s tile = true)) ∧
    (∃ (s : State) (slot : Fin 8) (besl k : Nat) (busy : Bool), k = hubPorts s slot + 1 ∧ isVirtualHub s slot = true ∧ besl ≤ 1000 ∧ portLink s slot k = 3 ∧ s.rd (R.HUB_PORT.SPEED slot k) = 3 ∧ (busy = false ∨ (portOf s slot k).linkpm = true)) ∧
    (∃ (s : State) (tile : Fin 14) (entry : LinkEntry) (t : State) (slot k l : Nat), t = countLink tile entry.counts s ∧ 4 ≤ t.rd (R.TILE_STATUS.SPEED tile) ∧ portOfTile t tile = some (slot, k) ∧ linkMoves (portOf t slot k) (linkOf t tile) entry.move = some l) ∧
    (∃ (s : State) (slot : Fin 8) (entry : LinkEntry) (k l : Nat), k = hubPorts s slot + 1 ∧ isVirtualHub s slot = true ∧ portSuper s slot k = true ∧ linkMoves (portOf s slot k) (portLink s slot k) entry.move = some l) ∧
    (∃ (s : State) (slot : Fin 8) (u : Nat), isVirtualHub s slot = true ∧ upLinked s slot = true ∧ upTileOf s slot = some u) ∧
    (∃ (s : State) (tile : Fin 14) (slot : Nat), slotOfUpTile s tile = some slot ∧ linkOf s tile = 7) ∧
    (∃ (s : State) (tile : Fin 14) (funcWake : Bool) (slot k : Nat) (t : State), t = ringBell tile false s ∧ portOfTile t tile = some (slot, k) ∧ isVirtualHub t slot = true ∧ linkOf t tile = 7 ∧ wakeEnabled t slot k funcWake = true ∧ wakePermit t slot = true) ∧
    (∃ (s : State) (tile : Fin 14) (slot : Nat) (t : State), t = ringBell tile false s ∧ linkOf t tile = 7 ∧ 4 ≤ t.rd (R.TILE_STATUS.SPEED tile) ∧ slotOfUpTile t tile = some slot) ∧
    (∃ (s : State) (slot : Fin 8) (port : Fin 16) (splits : Splits) (t : Nat) (x old : Translator) (s1 : State), tileOfPort s slot port = some t ∧ hasTts s slot = true ∧ Tab.look Translator.reset s.tts (ttOf s slot t) = x ∧ Tab.look Translator.reset s.tts (ttBefore s slot t) = old ∧ s1 = (if ttBefore s slot t = ttOf s slot t then s else putTt (ttBefore s slot t) { old with buffers := old.buffers.drop splits.doneOther } s) ∧ x.stopped = false) :=
  ⟨⟨stHubup, 0, 0, 1, 4, by decide +kernel, by decide +kernel, by decide +kernel⟩,
    ⟨stHubup, 0, 16, 1, [5], by decide +kernel, by decide +kernel, by decide +kernel⟩,
    ⟨stHubup, 0, 3, 0, 4, by decide +kernel, by decide +kernel, by decide +kernel⟩,
    ⟨({ stFunc with irqNews := [(0, true)] }), 0, by decide +kernel, by decide +kernel⟩,
    ⟨stHubrst, stHubtile, 3, 0, 1, (modPort 0 1 (fun p => { p with resetting := 0, cReset := true, cWarm := p.cWarm || decide (p.resetting = 2) }) stHubrst), by decide +kernel, by decide +kernel, rfl, by decide +kernel⟩,
    ⟨stHubdet, stHubtile, by decide +kernel⟩,
    ⟨stHubdet, stHubtile, true, by decide +kernel⟩,
    ⟨stHubdet, stHubtile, by decide +kernel⟩,
    ⟨stHubcon, stHubtile, false, by decide +kernel, by decide +kernel⟩,
    ⟨stHubup, stUptile, 0, by decide +kernel, by decide +kernel⟩,
    ⟨stDfu, 0, by decide +kernel⟩,
    ⟨stHubup, 0, by decide +kernel, by decide +kernel⟩,
    ⟨(setLink 2 3 (State.reset.wr (R.TILE_STATUS.SPEED 2) 3)), 2, 100, false, by decide +kernel, by decide +kernel, by decide +kernel, by decide +kernel⟩,
    ⟨((stHubup.wr (R.HUB_PORT.LINK 0 2) 3).wr (R.HUB_PORT.SPEED 0 2) 3), 0, 100, 2, false, by decide +kernel, by decide +kernel, by decide +kernel, by decide +kernel, by decide +kernel, .inl rfl⟩,
    ⟨stTimers, stHubtile, ⟨.idle 9, noCounts⟩, (countLink stHubtile noCounts stTimers), 0, 1, 5, rfl, by decide +kernel, by decide +kernel, by decide +kernel⟩,
    ⟨(modPort 0 2 (fun p => { p with u1 := 5 }) ((stHubup.wr (R.HUB_PORT.LINK 0 2) 3).wr (R.HUB_PORT.SPEED 0 2) 4)), 0, ⟨.idle 9, noCounts⟩, 2, 5, by decide +kernel, by decide +kernel, by decide +kernel, by decide +kernel⟩,
    ⟨stHubup, 0, stUptile, by decide +kernel, by decide +kernel, by decide +kernel⟩,
    ⟨(setLink stUptile 7 stHubup), stUptile, 0, by decide +kernel, by decide +kernel⟩,
    ⟨stHubwake, stHubtile, false, 0, 1, (ringBell stHubtile false stHubwake), rfl, by decide +kernel, by decide +kernel, by decide +kernel, by decide +kernel, by decide +kernel⟩,
    ⟨(setLink stUptile 7 (stHubup.wr (R.TILE_STATUS.SPEED stUptile) 4)), stUptile, 0, (ringBell stUptile false (setLink stUptile 7 (stHubup.wr (R.TILE_STATUS.SPEED stUptile) 4))), rfl, by decide +kernel, by decide +kernel, by decide +kernel⟩,
    ⟨stHubup, 0, 1, ⟨0, 0, [], 0, 0⟩, stHubtile, Translator.reset, Translator.reset, stHubup, by decide +kernel, by decide +kernel, by decide +kernel, by decide +kernel, rfl, by decide +kernel⟩⟩

theorem witness_TaprootReports :
    (∃ (s : State) (slot : Fin 8) (dev : Found) (a h : Nat) (d0 d : TapDev) (t : State), tapState s slot = 1 ∧ placeExists s slot dev = true ∧ triesWait s slot dev = false ∧ overLimit s slot dev = none ∧ dev.config.length ≤ 1024 ∧ t = resetPlace slot dev.root dev.hub1 dev.hub2 s ∧ lowestFree ((busOf t slot).devs.map TapDev.addr) 127 = some a ∧ lowestFree ((busOf t slot).devs.map TapDev.handle ++ (busOf t slot).freed) 32 = some h ∧ d0 = ⟨h, a, dev.speed, dev.root, dev.hub1, dev.hub2, dev.device.take 18, dev.config, dev.hids, dev.blocks, dev.unscheduled, [], false, false, 0, [], 0, none, none, false⟩ ∧ d = { d0 with binds := (bindDevice (busOf t slot) d0).1, limit := (bindDevice (busOf t slot) d0).2 }) ∧
    (∃ (s : State) (slot : Fin 8) (handle : Nat) (d : TapDev) (report : List Nat), devOf s slot handle = some d ∧ busRuns s slot = true ∧ bit d.services 0 = true ∧ d.claimed = false ∧ d.suspended = false ∧ (((report.drop 2).take 6).filter (· != 0)).contains 1 = false) ∧
    (∃ (s : State) (slot : Fin 8) (handle : Nat) (d : TapDev) (report : List Nat) (t : State), devOf s slot handle = some d ∧ busRuns s slot = true ∧ bit d.services 1 = true ∧ d.claimed = false ∧ d.suspended = false ∧ t = changeDev slot handle (fun d => { d with buttons := report.getD 0 0 % 256 }) s ∧ pullOf (busOf t slot) 2 = []) ∧
    (∃ (s : State) (slot : Fin 8) (handle iface id : Nat) (d : TapDev) (body : List Nat) (r : List HidField × List Nat), devOf s slot handle = some d ∧ busRuns s slot = true ∧ bit d.services 2 = true ∧ d.claimed = false ∧ d.suspended = false ∧ pullOf (busOf s slot) 3 = [] ∧ d.isPad iface = true ∧ r = reportOf (d.hid iface) (reportBytes id body)) ∧
    (∃ (s : State) (slot : Fin 8) (r : List Nat) (rest : List (List Nat)), pushOf (busOf s slot) 1 = r :: rest ∧ busRuns s slot = true) ∧
    (∃ (s : State) (slot : Fin 8) (handle : Nat) (d : TapDev) (data : List Nat), devOf s slot handle = some d ∧ busRuns s slot = true ∧ bit d.services 4 = true ∧ d.claimed = false ∧ d.suspended = false) ∧
    (∃ (s : State) (slot : Fin 8) (handle : Nat) (d : TapDev) (bits : Nat), devOf s slot handle = some d ∧ busRuns s slot = true ∧ bit d.services 4 = true ∧ d.claimed = false ∧ d.suspended = false) ∧
    (∃ (s : State) (slot : Fin 8) (handle : Nat) (d : TapDev), devOf s slot handle = some d) ∧
    (∃ (s : State) (slot : Fin 8) (handle : Nat) (d : TapDev) (t : State), devOf s slot handle = some d ∧ dormantState s = 0 ∧ t = (match tileOfPort s slot d.root with | some t => ringBell t false s | none => s)) ∧
    (∃ (s : State), isSticky s 162 = false) :=
  ⟨⟨stTaprun, 0, stKbd, 1, 1, stKbdev, { stKbdev with binds := (bindDevice (busOf (resetPlace 0 stKbd.root stKbd.hub1 stKbd.hub2 stTaprun) 0) stKbdev).1 }, (resetPlace 0 stKbd.root stKbd.hub1 stKbd.hub2 stTaprun), by decide +kernel, by decide +kernel, by decide +kernel, by decide +kernel, by decide +kernel, rfl, by decide +kernel, by decide +kernel, rfl, rfl⟩,
    ⟨stTapdev, 0, 1, stKbdrun, [0,0,4], by decide +kernel, by decide +kernel, by decide +kernel, by decide +kernel, by decide +kernel, by decide +kernel⟩,
    ⟨(stTapdev2 2), 0, 1, (stDevrun 2), [0,1,2,3], (changeDev 0 1 (fun d => { d with buttons := 0 }) (stTapdev2 2)), by decide +kernel, by decide +kernel, by decide +kernel, by decide +kernel, by decide +kernel, rfl, by decide +kernel⟩,
    ⟨(stTapdev2 4), 0, 1, 2, 0, (stDevrun 4), [], (reportOf ((stDevrun 4).hid 2) (reportBytes 0 [])), by decide +kernel, by decide +kernel, by decide +kernel, by decide +kernel, by decide +kernel, by decide +kernel, by decide +kernel, rfl⟩,
    ⟨(stTappush 1 [0x10,1,0,0,0,0,0,0,7]), 0, [0x10,1,0,0,0,0,0,0,7], [], by decide +kernel, by decide +kernel⟩,
    ⟨(stTapdev2 16), 0, 1, (stDevrun 16), [65], by decide +kernel, by decide +kernel, by decide +kernel, by decide +kernel, by decide +kernel⟩,
    ⟨(stTapdev2 16), 0, 1, (stDevrun 16), 3, by decide +kernel, by decide +kernel, by decide +kernel, by decide +kernel, by decide +kernel⟩,
    ⟨stTapdev, 0, 1, stKbdrun, by decide +kernel⟩,
    ⟨stTapsleep, 0, 1, { stKbdrun with suspended := true }, (match tileOfPort stTapsleep 0 stKbdrun.root with | some t => ringBell t false stTapsleep | none => stTapsleep), by decide +kernel, by decide +kernel, rfl⟩,
    ⟨(State.reset.wr (R.TAP_STATUS.STATE 0) 3), by decide +kernel⟩⟩

theorem witness_TaprootServices :
    (∃ (s : State) (slot : Fin 8) (handle : Nat) (d : TapDev) (r : List Nat) (data : List Nat) (result : BlockEnd) (a : Nat) (p : Nat × Bool × State) (t : State), blockHead s slot handle = some (d, r) ∧ r.getD 0 0 = 0x40 ∧ d.begun = none ∧ result ≠ .running ∧ blockRange (resumeDev slot handle s) slot r (blockSize d) = some a ∧ sweepUse .usb ((resumeDev slot handle s).emit (.command slot handle (blockCdb false (recU r 8 8) (recU r 16 4)))) = (false, t) ∧ putBlocks slot (blockSize d) a (recU r 16 4) data 0 t = p) ∧
    (∃ (s : State) (slot : Fin 8) (handle : Nat) (d : TapDev) (r : List Nat) (acked : Nat) (result : BlockEnd) (a : Nat) (p : Nat × Bool × State) (t : State), blockHead s slot handle = some (d, r) ∧ r.getD 0 0 = 0x41 ∧ d.begun = none ∧ result ≠ .running ∧ blockRange (resumeDev slot handle s) slot r (blockSize d) = some a ∧ sweepUse .usb ((resumeDev slot handle s).emit (.command slot handle (blockCdb true (recU r 8 8) (recU r 16 4)))) = (false, t) ∧ getBlocks slot (blockSize d) a handle (recU r 16 4) 0 t = p) ∧
    (∃ (s : State) (slot : Fin 8) (handle : Nat) (d : TapDev) (r : List Nat) (blocks size : Nat) (result : BlockEnd), blockHead s slot handle = some (d, r) ∧ r.getD 0 0 = 0x42 ∧ d.begun = none ∧ result ≠ .running) ∧
    (∃ (s : State) (slot : Fin 8) (handle : Nat) (d : TapDev) (r : List Nat) (e : List Nat), devOf s slot handle = some d ∧ (pushOf (busOf s slot) 4).find? (isBlockReq handle) = some r ∧ d.ended = some e) ∧
    (∃ (s : State) (slot : Fin 8) (handle : Nat) (r : List Nat), serialHead s slot handle 0x50 = some r) ∧
    (∃ (s : State) (slot : Fin 8) (handle : Nat) (r : List Nat), serialHead s slot handle 0x51 = some r) ∧
    (∃ (s : State) (slot pipe : Fin 8) (packets retries used : Nat) (data : List Nat) (x : Pipe) (d : List Nat) (rest : List (List Nat)), pipeOf s slot pipe = some x ∧ x.pending = d :: rest ∧ x.started = false ∧ x.halted = false ∧ busRuns s slot = true ∧ s.rd R.DORMANT_STATUS.STATE = 0 ∧ x.kind ≠ 0 ∧ (sweepUse .pipes (resumeDev slot x.handle s)).1 = false ∧ used = min retries (retryBound x d (min packets (pipeUnits x d)))) ∧
    (∃ (s : State) (slot pipe : Fin 8) (x : Pipe) (d : List Nat) (rest : List (List Nat)), pipeOf s slot pipe = some x ∧ x.pending = d :: rest ∧ x.started = true) ∧
    (∃ (s : State) (slot pipe : Fin 8) (x : Pipe) (d : List Nat) (rest : List (List Nat)), pipeOf s slot pipe = some x ∧ x.pending = d :: rest ∧ x.started = true) ∧
    (∃ (s : State) (slot pipe : Fin 8) (x : Pipe) (d : List Nat) (rest : List (List Nat)), pipeOf s slot pipe = some x ∧ x.pending = d :: rest ∧ x.started = true ∧ recU d 20 2 ≠ 0) ∧
    (∃ (s : State) (slot : Fin 8) (body : List Nat) (d : TapDev), mailWaits s slot 0x50 body = true ∧ body.length = 4 ∧ (rbpOf s slot).isSome = true ∧ devOf s slot (recU body 0 4) = some d) ∧
    (∃ (s : State) (slot : Fin 8) (body : List Nat) (d : TapDev), mailWaits s slot 0x51 body = true ∧ body.length = 8 ∧ (rbpOf s slot).isSome = true ∧ devOf s slot (recU body 0 4) = some d ∧ recU body 4 4 < d.config.length) ∧
    (∃ (s : State) (slot : Fin 8) (body : List Nat) (d : TapDev), mailWaits s slot 0x52 body = true ∧ body.length = 8 ∧ (rbpOf s slot).isSome = true ∧ devOf s slot (recU body 0 4) = some d ∧ recU body 4 4 = 1 ∧ (pushOf (busOf s slot) 4).any (isBlockReq d.handle) = false) ∧
    (∃ (s : State) (slot : Fin 8) (body : List Nat) (d : TapDev), mailWaits s slot 0x53 body = true ∧ body.length = 12 ∧ (rbpOf s slot).isSome = true ∧ rawPipes s slot = true ∧ recU body 0 4 < 8 ∧ devOf s slot (recU body 4 4) = some d ∧ (pipeOf s slot (recU body 0 4)).isNone = true ∧ d.claimed = true ∧ recU body 8 4 = 0 ∧ d.ep0 ≠ 0) ∧
    (∃ (s : State) (slot : Fin 8) (body : List Nat) (x : Pipe), mailWaits s slot 0x54 body = true ∧ body.length = 4 ∧ (rbpOf s slot).isSome = true ∧ recU body 0 4 < 8 ∧ pipeOf s slot (recU body 0 4) = some x) ∧
    (∃ (s : State) (slot : Fin 8) (body : List Nat) (x : Pipe), mailWaits s slot 0x55 body = true ∧ body.length = 4 ∧ (rbpOf s slot).isSome = true ∧ recU body 0 4 < 8 ∧ pipeOf s slot (recU body 0 4) = some x) ∧
    (∃ (s : State) (slot : Fin 8) (body : List Nat), mailWaits s slot 0x56 body = true ∧ body.length = 8 ∧ (rbpOf s slot).isSome = true ∧ recU body 0 4 = 1) ∧
    (∃ (s : State) (slot : Fin 8) (body : List Nat), mailWaits s slot 0x56 body = true ∧ body.length = 8 ∧ (rbpOf s slot).isSome = true ∧ recU body 0 4 = 0) ∧
    (∃ (s : State) (slot : Fin 8) (body : List Nat) (d : TapDev), mailWaits s slot 0x57 body = true ∧ body.length = 4 ∧ (rbpOf s slot).isSome = true ∧ devOf s slot (recU body 0 4) = some d) :=
  ⟨⟨(stBlkreq 0x40), 0, 1, (stDevrun 8), (stBlkrec 0x40), [], .good, stBlkaddr 0x40, (putBlocks 0 512 (stBlkaddr 0x40) (recU (stBlkrec 0x40) 16 4) [] 0 (stBlkissued false 0x40)), (stBlkissued false 0x40), by decide +kernel, by decide +kernel, by decide +kernel, by decide +kernel, by decide +kernel, pair_of (by decide +kernel), rfl⟩,
    ⟨(stBlkreq 0x41), 0, 1, (stDevrun 8), (stBlkrec 0x41), 0, .good, stBlkaddr 0x41, (getBlocks 0 512 (stBlkaddr 0x41) 1 (recU (stBlkrec 0x41) 16 4) 0 (stBlkissued true 0x41)), (stBlkissued true 0x41), by decide +kernel, by decide +kernel, by decide +kernel, by decide +kernel, by decide +kernel, pair_of (by decide +kernel), rfl⟩,
    ⟨(stBlkreq 0x42), 0, 1, (stDevrun 8), (stBlkrec 0x42), 9, 512, .good, by decide +kernel, by decide +kernel, by decide +kernel, by decide +kernel⟩,
    ⟨stBlkdone, 0, 1, { stDevrun 8 with ended := some [1] }, (stBlkrec 0x42), [1], by decide +kernel, by decide +kernel, by decide +kernel⟩,
    ⟨(stSerreq 0x50), 0, 1, (stSerrec 0x50), by decide +kernel⟩,
    ⟨(stSerreq 0x51), 0, 1, (stSerrec 0x51), by decide +kernel⟩,
    ⟨(stPipereq false), 0, 0, 1, 0, 0, [], (stPipe0 false), stTrb, [], by decide +kernel, by decide +kernel, by decide +kernel, by decide +kernel, by decide +kernel, by decide +kernel, by decide +kernel, by decide +kernel, rfl⟩,
    ⟨(stPipereq true), 0, 0, (stPipe0 true), stTrb, [], by decide +kernel, by decide +kernel, by decide +kernel⟩,
    ⟨(stPipereq true), 0, 0, (stPipe0 true), stTrb, [], by decide +kernel, by decide +kernel, by decide +kernel⟩,
    ⟨(stPipereq true), 0, 0, (stPipe0 true), stTrb, [], by decide +kernel, by decide +kernel, by decide +kernel, by decide +kernel⟩,
    ⟨(stTapmail 0x50 [1,0,0,0]), 0, [1,0,0,0], stKbdrun, by decide +kernel, by decide +kernel, by decide +kernel, by decide +kernel⟩,
    ⟨(stTapmail 0x51 [1,0,0,0,0,0,0,0]), 0, [1,0,0,0,0,0,0,0], stKbdrun, by decide +kernel, by decide +kernel, by decide +kernel, by decide +kernel, by decide +kernel⟩,
    ⟨(stTapmail 0x52 [1,0,0,0,1,0,0,0]), 0, [1,0,0,0,1,0,0,0], stKbdrun, by decide +kernel, by decide +kernel, by decide +kernel, by decide +kernel, by decide +kernel, by decide +kernel⟩,
    ⟨(stTapraw 0x53 [0,0,0,0,1,0,0,0,0,0,0,0]), 0, [0,0,0,0,1,0,0,0,0,0,0,0], { stKbdrun with claimed := true }, by decide +kernel, by decide +kernel, by decide +kernel, by decide +kernel, by decide +kernel, by decide +kernel, by decide +kernel, by decide +kernel, by decide +kernel, by decide +kernel⟩,
    ⟨(stTappipe 0x54), 0, [0,0,0,0], (stPipe0 false), by decide +kernel, by decide +kernel, by decide +kernel, by decide +kernel, by decide +kernel⟩,
    ⟨(stTappipe 0x55), 0, [0,0,0,0], (stPipe0 false), by decide +kernel, by decide +kernel, by decide +kernel, by decide +kernel, by decide +kernel⟩,
    ⟨(stTapmail 0x56 [1,0,0,0,0,0,0,0]), 0, [1,0,0,0,0,0,0,0], by decide +kernel, by decide +kernel, by decide +kernel, by decide +kernel⟩,
    ⟨(stTapmail 0x56 [0,0,0,0,0,0,0,0]), 0, [0,0,0,0,0,0,0,0], by decide +kernel, by decide +kernel, by decide +kernel, by decide +kernel⟩,
    ⟨(stTapmail 0x57 [1,0,0,0]), 0, [1,0,0,0], stKbdrun, by decide +kernel, by decide +kernel, by decide +kernel, by decide +kernel⟩⟩

theorem witness_TypeCEvents :
    (∃ (s : State) (tile : Fin 14) (cc1 cc2 : Fin 7) (vbus : Nat) (up : UpConnect) (t : State), t = ringBell tile true (setCc tile cc1 cc2 (senseVbus tile vbus s)) ∧ attachLine t tile cc1 cc2 ≠ 0 ∧ attached t tile = false ∧ isDfu s tile = false) ∧
    (∃ (s : State) (tile : Fin 14) (cc1 cc2 : Fin 7) (vbus : Nat) (up : UpConnect) (t : State), t = ringBell tile true (setCc tile cc1 cc2 (senseVbus tile vbus s)) ∧ attachLine t tile cc1 cc2 ≠ 0 ∧ attached t tile = false ∧ isDfu s tile = true) ∧
    (∃ (s : State) (tile : Fin 14) (cc1 cc2 : Fin 7) (vbus : Nat), attached s tile = true ∧ isUp s tile = false ∧ isDfu s tile = false ∧ s.rd (R.TILE_STATUS.ORIENT tile) = 1 ∧ cc1.val = 0) ∧
    (∃ (s : State) (tile : Fin 14), s.isSet (R.TC_STATUS.VCONN_ON tile) = true) ∧
    (∃ (s : State) (tile : Fin 14) (vout : Nat), isDown s tile = true ∧ pathOf s tile = 3 ∧ dormantState s = 0 ∧ ((contractMv s tile : Int) - vout) * (f32Rat (tcOf s tile).gain).2 > (f32Rat (tcOf s tile).gain).1) ∧
    (∃ (s : State) (tile : Fin 14) (ibus vbus : Nat), isDown s tile = true ∧ pathOf s tile = 3 ∧ s.rd (R.PD_CONTRACT.KIND tile) = 3 ∧ dormantState s = 0 ∧ signed 16 ibus > (50 * s.rd (R.PD_CONTRACT.CURRENT tile) : Nat) ∧ s.rd (R.PWR_DRIVE.CODE tile) > (setCode (tcOf s tile) (100 * bits (((tcOf s tile).objs[s.rd (R.PD_CONTRACT.POSITION tile) - 1]?).getD 0) 8 8)).toNat) ∧
    (∃ (s : State) (tile : Fin 14), isUp s tile = true ∧ isDown s tile = false) ∧
    (∃ (s : State) (tile : Fin 14), isDown s tile = true ∧ s.rd (R.PD_CONTRACT.KIND tile) < 2) ∧
    (∃ (s : State) (tile : Fin 14), isDown s tile = true) ∧
    (∃ (s : State) (tile : Fin 14), isUp s tile = true ∧ bit (tcOf s tile).gateBlock 0 = true) ∧
    (∃ (s : State) (tile : Fin 14) (vbus : Nat), pathOf s tile = 2 ∧ isDown s tile = true ∧ 4750 ≤ vbus ∧ vbus ≤ 5500 ∧ (tcOf s tile).noContract = true) ∧
    (∃ (s : State) (tile : Fin 14), isDown s tile = true ∧ pathOf s tile = 2) ∧
    (∃ (s : State) (tile : Fin 14) (vbus : Nat), isDown s tile = true ∧ vbus < 800 ∧ pathOf s tile = 5) ∧
    (∃ (s : State) (tile : Fin 14), isDown s tile = true ∧ pathOf s tile = 5) ∧
    (∃ (s : State) (tile : Fin 14), (tcOf s tile).hold = true ∧ vbusOf s tile < 800) ∧
    (∃ (s : State) (tile : Fin 14) (cc1 cc2 sbu1 sbu2 : Nat), s.isSet (R.TILE_CFG.MOISTURE tile) = true ∧ s.rd (R.TILE_STATUS.ATTACH tile) = 0 ∧ moistDiscard s tile cc1 cc2 sbu1 sbu2 = false ∧ isUp s tile = false) ∧
    (∃ (s : State) (tile : Fin 14) (cc1 cc2 sbu1 sbu2 : Nat), s.isSet (R.TILE_CFG.MOISTURE tile) = true ∧ s.isSet (R.TC_STATUS.DAMP tile) = true ∧ s.rd (R.TILE_STATUS.ATTACH tile) ≠ 1 ∧ isUp s tile = true) ∧
    (∃ (s : State) (t : Nat), queueTurn s = some t) ∧
    (∃ (s : State) (tile : Fin 14) (v : List Nat) (five : Bool), dormantState s = 0 ∧ s.isSet (R.TC_STATUS.VCONN_ON tile) = true ∧ (tcOf s tile).tries ≠ 0 ∧ (tcOf s tile).cable.isEmpty = true) ∧
    (∃ (s : State) (tile : Fin 14) (vbus : Nat), isDown s tile = true ∧ pathOf s tile = 0 ∧ (senseVbus tile vbus s).isSet (R.TILE_STATUS.VBUS_PRESENT tile) = true) :=
  ⟨⟨stDntile, 2, 2, 0, 0, ⟨false, 0⟩, (ringBell 2 true (setCc 2 2 0 (senseVbus 2 0 stDntile))), rfl, by decide +kernel, by decide +kernel, by decide +kernel⟩,
    ⟨stDfu, 0, 4, 0, 5000, ⟨false, 0⟩, (ringBell 0 true (setCc 0 4 0 (senseVbus 0 5000 stDfu))), rfl, by decide +kernel, by decide +kernel, by decide +kernel⟩,
    ⟨stDnatt, 2, 0, 0, 0, by decide +kernel, by decide +kernel, by decide +kernel, by decide +kernel, by decide +kernel⟩,
    ⟨(State.reset.on (R.TC_STATUS.VCONN_ON 2)), 2, by decide +kernel⟩,
    ⟨(stDnpath 3), 2, 0, by decide +kernel, by decide +kernel, by decide +kernel, by decide +kernel⟩,
    ⟨(((stDnpath 3).wr (R.PD_CONTRACT.KIND 2) 3).wr (R.PWR_DRIVE.CODE 2) 900), 2, 9000, 5000, by decide +kernel, by decide +kernel, by decide +kernel, by decide +kernel, by decide +kernel, by decide +kernel⟩,
    ⟨stUptc, stUptile, by decide +kernel, by decide +kernel⟩,
    ⟨stDntile, 2, by decide +kernel, by decide +kernel⟩,
    ⟨stDntile, 2, by decide +kernel⟩,
    ⟨(changeTc stUptile (fun x => { x with gateBlock := 1 }) stUptc), stUptile, by decide +kernel, by decide +kernel⟩,
    ⟨(changeTc 2 (fun x => { x with noContract := true }) (stDnpath 2)), 2, 5000, by decide +kernel, by decide +kernel, by decide +kernel, by decide +kernel, by decide +kernel⟩,
    ⟨(stDnpath 2), 2, by decide +kernel, by decide +kernel⟩,
    ⟨(stDnpath 5), 2, 100, by decide +kernel, by decide +kernel, by decide +kernel⟩,
    ⟨(stDnpath 5), 2, by decide +kernel, by decide +kernel⟩,
    ⟨(changeTc 2 (fun x => { x with hold := true }) stDntile), 2, by decide +kernel, by decide +kernel⟩,
    ⟨(stDntile.on (R.TILE_CFG.MOISTURE 2)), 2, 1, 1, 1, 1, by decide +kernel, by decide +kernel, by decide +kernel, by decide +kernel⟩,
    ⟨(((stUptc.wr (R.TILE_STATUS.ATTACH stUptile) 0).on (R.TILE_CFG.MOISTURE stUptile)).on (R.TC_STATUS.DAMP stUptile)), stUptile, 1, 1, 1, 1, by decide +kernel, by decide +kernel, by decide +kernel, by decide +kernel⟩,
    ⟨stVbusq, 2, by decide +kernel⟩,
    ⟨(changeTc 2 (fun x => { x with tries := 1, cable := [] }) (stDntile.on (R.TC_STATUS.VCONN_ON 2))), 2, [1,2], true, by decide +kernel, by decide +kernel, by decide +kernel, by decide +kernel⟩,
    ⟨stDntile, 2, 5000, by decide +kernel, by decide +kernel, by decide +kernel⟩⟩

theorem witness_PdMessages :
    (∃ (s : State) (tile : Fin 14) (objs : List Nat) (rev3 : Bool), pdTalks s tile = true ∧ isUp s tile = true ∧ (tcOf s tile).noContract = false) ∧
    (∃ (s : State) (tile : Fin 14) (rdo : Nat) (rev3 : Bool) (c : Contract), pdTalks s tile = true ∧ isDown s tile = true ∧ pathOf s tile = 3 ∧ (tcOf s tile).noContract = false ∧ evaluateRequest s tile rdo rev3 = some c) ∧
    (∃ (s : State) (tile : Fin 14) (c : Contract), pdTalks s tile = true ∧ (tcOf s tile).pending = some c ∧ isUp s tile = true ∧ (tcOf s tile).moved = true) ∧
    (∃ (s : State) (tile : Fin 14), pdTalks s tile = true) ∧
    (∃ (s : State) (tile : Fin 14) (rev3 : Bool), pdTalks s tile = true) ∧
    (∃ (s : State) (tile : Fin 14), announces s tile = true ∧ (tcOf s tile).repeats < 50) ∧
    (∃ (s : State) (tile : Fin 14), isUp s tile = true ∧ pdServes s tile = true ∧ (tcOf s tile).objs.isEmpty = true ∧ s.rd (R.PD_CONTRACT.KIND tile) = 0) ∧
    (∃ (s : State) (tile : Fin 14), isUp s tile = true ∧ pdServes s tile = true ∧ s.rd (R.PD_CONTRACT.KIND tile) = 3 ∧ dormantState s = 0 ∧ s.isSet (R.TC_STATUS.DAMP tile) = false) ∧
    (∃ (s : State) (tile : Fin 14), dormantState s = 0) ∧
    (∃ (s : State) (tile : Fin 14) (c : Contract), (tcOf s tile).pending = some c ∧ isDown s tile = true ∧ pathOf s tile = 4 ∧ (tcOf s tile).moved = false ∧ c.mv ≤ contractMv s tile) ∧
    (∃ (s : State) (tile : Fin 14) (vbus : Nat) (c : Contract), (tcOf s tile).pending = some c ∧ isDown s tile = true ∧ pathOf s tile = 4 ∧ (tcOf s tile).moved = true ∧ 95 * c.mv ≤ 100 * vbus ∧ 100 * vbus ≤ 105 * c.mv) ∧
    (∃ (s : State) (tile : Fin 14), isDown s tile = true ∧ pathOf s tile = 4) ∧
    (∃ (s : State) (tile : Fin 14), pdServes s tile = true ∧ dormantState s = 0 ∧ (tcOf s tile).softReset = false) ∧
    (∃ (s : State) (tile : Fin 14), isUp s tile = true ∧ pdServes s tile = true ∧ dormantState s = 0 ∧ s.rd (R.PD_CONTRACT.KIND tile) = 3 ∧ (tcOf s tile).fixedReq = 0 ∧ blockers s = 2 ^ 5) ∧
    (∃ (s : State) (tile : Fin 14), isUp s tile = true ∧ pdServes s tile = true ∧ dormantState s = 0 ∧ (tcOf s tile).fixedReq ≠ 0) ∧
    (∃ (s : State) (tile : Fin 14), pdTalks s tile = true ∧ isUp s tile = true ∧ (tcOf s tile).pending.isSome = true) ∧
    (∃ (s : State) (tile : Fin 14), pdTalks s tile = true ∧ isUp s tile = true ∧ (tcOf s tile).pending.isSome = true ∧ (tcOf s tile).fixedReq ≠ 1) ∧
    (∃ (s : State) (tile : Fin 14), pdServes s tile = true ∧ dormantState s = 0) ∧
    (∃ (s : State) (tile : Fin 14) (rev3 : Bool), pdTalks s tile = true ∧ isDown s tile = true ∧ pathOf s tile = 3 ∧ (tcOf s tile).noContract = false) ∧
    (∃ (s : State) (tile : Fin 14) (rev3 : Bool), pdTalks s tile = true ∧ isUp s tile = true) ∧
    (∃ (s : State) (tile : Fin 14), pdTalks s tile = true ∧ isUp s tile = true) :=
  ⟨⟨stUppd, stUptile, [0], true, by decide +kernel, by decide +kernel, by decide +kernel⟩,
    ⟨stDnpd, 2, stPdrdo, false, stPdcon, by decide +kernel, by decide +kernel, by decide +kernel, by decide +kernel, by decide +kernel⟩,
    ⟨(changeTc stUptile (fun x => { x with pending := some stPdcon, moved := true }) stUppd), stUptile, stPdcon, by decide +kernel, by decide +kernel, by decide +kernel, by decide +kernel⟩,
    ⟨stDnpd, 2, by decide +kernel⟩,
    ⟨stDnpd, 2, true, by decide +kernel⟩,
    ⟨stDnpd, 2, by decide +kernel, by decide +kernel⟩,
    ⟨stUppd, stUptile, by decide +kernel, by decide +kernel, by decide +kernel, by decide +kernel⟩,
    ⟨(stUppd.wr (R.PD_CONTRACT.KIND stUptile) 3), stUptile, by decide +kernel, by decide +kernel, by decide +kernel, by decide +kernel, by decide +kernel⟩,
    ⟨State.reset, 2, by decide +kernel⟩,
    ⟨(changeTc 2 (fun x => { x with pending := some stPdcon }) (stDnpath 4)), 2, stPdcon, by decide +kernel, by decide +kernel, by decide +kernel, by decide +kernel, by decide +kernel⟩,
    ⟨(changeTc 2 (fun x => { x with pending := some stPdcon, moved := true }) (stDnpath 4)), 2, stPdcon.mv, stPdcon, by decide +kernel, by decide +kernel, by decide +kernel, by decide +kernel, by decide +kernel, by decide +kernel⟩,
    ⟨(stDnpath 4), 2, by decide +kernel, by decide +kernel⟩,
    ⟨stDnpd, 2, by decide +kernel, by decide +kernel, by decide +kernel⟩,
    ⟨stPpsonly, stUptile, by decide +kernel, by decide +kernel, by decide +kernel, by decide +kernel, by decide +kernel, by decide +kernel⟩,
    ⟨(changeTc stUptile (fun x => { x with fixedReq := 2 }) stUppd), stUptile, by decide +kernel, by decide +kernel, by decide +kernel, by decide +kernel⟩,
    ⟨(changeTc stUptile (fun x => { x with pending := some stPdcon }) stUppd), stUptile, by decide +kernel, by decide +kernel, by decide +kernel⟩,
    ⟨(changeTc stUptile (fun x => { x with pending := some stPdcon }) stUppd), stUptile, by decide +kernel, by decide +kernel, by decide +kernel, by decide +kernel⟩,
    ⟨stDnpd, 2, by decide +kernel, by decide +kernel⟩,
    ⟨stDnpd, 2, true, by decide +kernel, by decide +kernel, by decide +kernel, by decide +kernel⟩,
    ⟨stUppd, stUptile, true, by decide +kernel, by decide +kernel⟩,
    ⟨stUppd, stUptile, by decide +kernel, by decide +kernel⟩⟩

theorem witness_PdMailbox :
    (∃ (s : State) (slot : Fin 8) (body : List Nat) (t : Nat), mailWaits s slot 0x60 body = true ∧ body.length = 4 ∧ leVal (body.take 4) = t ∧ t < 14 ∧ slot.val = 0) ∧
    (∃ (s : State) (slot : Fin 8) (body : List Nat) (t : Nat), mailWaits s slot 0x61 body = true ∧ body.length = 12 ∧ leVal (body.take 4) = t ∧ t < 14 ∧ slot.val = 0 ∧ isUp s t = true ∧ 165 ≤ leVal ((body.drop 4).take 4) ∧ leVal ((body.drop 4).take 4) ≤ 1050 ∧ 1 ≤ leVal ((body.drop 4).drop 4) ∧ leVal ((body.drop 4).drop 4) ≤ 100 ∧ (tcOf s t).fixedReq ≠ 1) ∧
    (∃ (s : State) (slot : Fin 8) (body : List Nat) (t : Nat), mailWaits s slot 0x62 body = true ∧ body.length = 4 ∧ leVal (body.take 4) = t ∧ t < 14 ∧ slot.val = 0 ∧ tileRole s t ≠ 0) ∧
    (∃ (s : State) (slot : Fin 8) (body : List Nat) (t : Nat), mailWaits s slot 0x63 body = true ∧ body.length = 4 ∧ leVal (body.take 4) = t ∧ t < 14 ∧ slot.val = 0 ∧ isDown s t = true ∧ tileRole s t ≠ 0 ∧ pathOf s t = 3 ∧ (tcOf s t).noContract = false) ∧
    (∃ (s : State) (slot : Fin 8) (body : List Nat) (t : Nat), mailWaits s slot 0x64 body = true ∧ body.length = 4 ∧ leVal (body.take 4) = t ∧ t < 14 ∧ slot.val = 0 ∧ isDown s t = true ∧ (tcOf s t).cable.isEmpty = false) :=
  ⟨⟨(stPdmail 0x60 [2,0,0,0]), 0, [2,0,0,0], 2, by decide +kernel, by decide +kernel, by decide +kernel, by decide +kernel, by decide +kernel⟩,
    ⟨(stUpmail 0x61 [stUptile,0,0,0,250,0,0,0,10,0,0,0]), 0, [stUptile,0,0,0,250,0,0,0,10,0,0,0], stUptile, by decide +kernel, by decide +kernel, by decide +kernel, by decide +kernel, by decide +kernel, by decide +kernel, by decide +kernel, by decide +kernel, by decide +kernel, by decide +kernel, by decide +kernel⟩,
    ⟨(stPdmail 0x62 [2,0,0,0]), 0, [2,0,0,0], 2, by decide +kernel, by decide +kernel, by decide +kernel, by decide +kernel, by decide +kernel, by decide +kernel⟩,
    ⟨(stPdmail3 0x63 [2,0,0,0]), 0, [2,0,0,0], 2, by decide +kernel, by decide +kernel, by decide +kernel, by decide +kernel, by decide +kernel, by decide +kernel, by decide +kernel, by decide +kernel, by decide +kernel⟩,
    ⟨(changeTc 2 (fun x => { x with cable := [1,2] }) (stPdmail 0x64 [2,0,0,0])), 0, [2,0,0,0], 2, by decide +kernel, by decide +kernel, by decide +kernel, by decide +kernel, by decide +kernel, by decide +kernel, by decide +kernel⟩⟩

theorem witness_FrontEndCommands :
    (∃ (s : State) (slot : Fin 8) (drum : Fin 2) (select : Fin 4), mayWrite s slot (drumBase drum + 4) = true) ∧
    (∃ (s : State) (drum : Fin 2) (monitor drive : Nat), laserState s drum = 1 ∧ monitorAtLeast s drum monitor 90 = true ∧ monitorAbove s drum monitor 125 = false) ∧
    (∃ (s : State) (drum : Fin 2), laserState s drum = 1) ∧
    (∃ (s : State) (drum : Fin 2) (monitor drive : Nat), laserState s drum ≠ 0 ∧ monitorAbove s drum monitor 125 = true) ∧
    (∃ (s : State) (drum : Fin 2), hasDrum s drum = true) ∧
    (∃ (s : State) (drum : Fin 2), hasDrum s drum = true) ∧
    (∃ (s : State) (drum : Fin 2) (envelope gain : Nat), domOn s (92 + 10 * drum.val) = true ∧ s.isSet (R.RF_CTRL.AUTO drum) = true ∧ (frontOf s drum).scar = false ∧ envelope < 176) ∧
    (∃ (s : State) (drum : Fin 2) (envelope : Nat), domOn s (92 + 10 * drum.val) = true ∧ s.rd (R.RF_STATUS.GAIN drum) = 48 ∧ envelope < 64) ∧
    (∃ (s : State) (slot : Fin 8) (drum : Fin 2) (coil : Fin 3) (code : Nat), mayWrite s slot (drumBase drum + 0x60 + 4 * coil.val) = true ∧ anyVoice s drum = false) ∧
    (∃ (s : State) (drum : Fin 2) (limiting : Fin 8), coilsDriven s drum = true) ∧
    (∃ (s : State) (drum : Fin 2) (opened : Fin 8) (m : Nat), coilsDriven s drum = true ∧ m = (List.range 3).foldl (fun a c => if bit opened.val c && (coilCurrent (s.rd (R.COIL_LATCH.CODE drum c))).natAbs ≥ 40000 then a + 2 ^ c else a) 0) ∧
    (∃ (s : State) (drum : Fin 2) (sum : Nat), roleLoaded s drum 0 = true ∧ laserState s drum = 2 ∧ sum < s.rd (R.LOSS_CTRL.SUM_MIN drum)) ∧
    (∃ (s : State) (drum : Fin 2) (te : Nat), roleLoaded s drum 0 = true ∧ roleLoaded s drum 1 = true ∧ laserState s drum = 2 ∧ ((te : Int) - 2048).natAbs > s.rd (R.LOSS_TE.WINDOW drum)) ∧
    (∃ (s : State) (slot : Fin 8) (drum : Fin 2) (value : Nat), mayWrite s slot (drumBase drum + 0x90) = true) ∧
    (∃ (s : State) (drum : Fin 2) (sum te : Nat) (t : State), t = (s.wr (R.CH_SAMPLE.CODE drum 2) (min sum 4095)).wr (R.CH_SAMPLE.CODE drum 1) (min te 4095) ∧ (frontOf s drum).react ≠ 0 ∧ (frontOf s drum).rearm = true ∧ sumLow t drum = false ∧ teOut t drum = false ∧ bit (frontOf s drum).reactBy 2 = false) ∧
    (∃ (s : State) (drum : Fin 2), hasDrum s drum = true) ∧
    (∃ (s : State) (drum : Fin 2), hasDrum s drum = true) ∧
    (∃ (s : State) (drum : Fin 2), hasDrum s drum = true ∧ groupHot s drum 3 = false) ∧
    (∃ (s : State) (slot : Fin 8) (drum : Fin 2) (index : Fin 8) (value : Nat), mayWrite s slot (drumBase drum + 0xA0 + 4 * index.val) = true ∧ pickupOk index (value % 2 ^ 32) = true) ∧
    (∃ (s : State) (drum : Fin 2) (present : Bool), hasDrum s drum = true) ∧
    (∃ (s : State) (drum : Fin 2), hasDrum s drum = true) :=
  ⟨⟨stDrumw, 0, 0, 1, by decide +kernel⟩,
    ⟨(stLaser 1), 0, stLasermon, 5, by decide +kernel, by decide +kernel, by decide +kernel⟩,
    ⟨(stLaser 1), 0, by decide +kernel⟩,
    ⟨(stLaser 2), 0, 4095, 5, by decide +kernel, by decide +kernel⟩,
    ⟨State.reset, 0, by decide +kernel⟩,
    ⟨State.reset, 0, by decide +kernel⟩,
    ⟨stRfon, 0, 100, 7, by decide +kernel, by decide +kernel, by decide +kernel, by decide +kernel⟩,
    ⟨(stRfon.wr (R.RF_STATUS.GAIN 0) 48), 0, 10, by decide +kernel, by decide +kernel, by decide +kernel⟩,
    ⟨stDrumw, 0, 0, 1, 9, by decide +kernel, by decide +kernel⟩,
    ⟨stCoils, 0, 1, by decide +kernel⟩,
    ⟨stCoils, 0, 0, 0, by decide +kernel, rfl⟩,
    ⟨stLossy, 0, 0, by decide +kernel, by decide +kernel, by decide +kernel⟩,
    ⟨stLossy, 0, 4095, by decide +kernel, by decide +kernel, by decide +kernel, by decide +kernel⟩,
    ⟨stDrumw, 0, 0, 1, by decide +kernel⟩,
    ⟨stReacted, 0, 4095, 2048, ((stReacted.wr (R.CH_SAMPLE.CODE 0 2) 4095).wr (R.CH_SAMPLE.CODE 0 1) 2048), rfl, by decide +kernel, by decide +kernel, by decide +kernel, by decide +kernel, by decide +kernel⟩,
    ⟨State.reset, 0, by decide +kernel⟩,
    ⟨State.reset, 0, by decide +kernel⟩,
    ⟨State.reset, 0, by decide +kernel, by decide +kernel⟩,
    ⟨stDrumw, 0, 0, 1, 0x3F800000, by decide +kernel, by decide +kernel⟩,
    ⟨spined, 0, true, by decide +kernel⟩,
    ⟨State.reset, 0, by decide +kernel⟩⟩

theorem witness_DrumheadCommands :
    (∃ (s : State) (drum : Fin 2) (pickup : Pickup) (late : Fin 49) (s0 t : State), s0 = endCheck drum s ∧ engineRuns s0 drum = true ∧ t = reseedDue drum (drumSt s0 drum).frames (quietFollow drum (1 + late.val) (sledRun drum (1280 * (1 + late.val)) (sampleDrum drum pickup (s0.bump (R.DH_LATE.COUNT drum) late)))) ∧ s0.isSet (R.FRONT_STATUS.CONV_OK drum) = false) ∧
    (∃ (s : State) (slot : Fin 8) (drum : Fin 2) (voice : Fin 8) (period role : Nat) (predict : Bool), mayWrite s slot (drumBase drum + 0x10018) = true) ∧
    (∃ (s : State) (slot : Fin 8) (drum : Fin 2) (voice : Fin 8) (period role : Nat) (predict keep : Bool), mayWrite s slot (drumBase drum + 0x10018) = true) ∧
    (∃ (s : State) (slot : Fin 8) (drum : Fin 2) (voice : Fin 8), mayWrite s slot (drumBase drum + 0x10018) = true) ∧
    (∃ (s : State) (slot : Fin 8) (drum : Fin 2) (voice : Fin 8), mayWrite s slot (drumBase drum + 0x10018) = true) ∧
    (∃ (s : State) (slot : Fin 8) (drum : Fin 2), mayWrite s slot (drumBase drum + 0x10018) = true) ∧
    (∃ (s : State) (drum : Fin 2) (c : VoiceCmd) (rest : List VoiceCmd) (t : State), t = endCheck drum s ∧ engineRuns t drum = true ∧ (drumSt t drum).cmds = c :: rest ∧ c.op = 1 ∧ c.raise = false ∧ (voiceOf t drum c.voice).isNone = true) ∧
    (∃ (s : State) (drum : Fin 2) (t : State), t = endCheck drum s ∧ voicePending t drum = true ∧ seqOf t (drum.val + 1) = 6) ∧
    (∃ (s : State) (slot : Fin 8) (drum : Fin 2) (v : Nat), mayWrite s slot (drumBase drum + 0x10014) = true ∧ voiceBusy (activity s) drum = false) :=
  ⟨⟨stEngine, 0, stPickup, 0, (endCheck 0 stEngine), (reseedDue 0 (drumSt (endCheck 0 stEngine) 0).frames (quietFollow 0 1 (sledRun 0 1280 (sampleDrum 0 stPickup ((endCheck 0 stEngine).bump (R.DH_LATE.COUNT 0) 0))))), rfl, by decide +kernel, rfl, by decide +kernel⟩,
    ⟨stDrumw, 0, 0, 0, 1, 0, false, by decide +kernel⟩,
    ⟨stDrumw, 0, 0, 0, 1, 0, false, true, by decide +kernel⟩,
    ⟨stDrumw, 0, 0, 0, by decide +kernel⟩,
    ⟨stDrumw, 0, 0, 0, by decide +kernel⟩,
    ⟨stDrumw, 0, 0, by decide +kernel⟩,
    ⟨(stVcmd false), 0, (stLoadcmd false), [], (endCheck 0 (stVcmd false)), rfl, by decide +kernel, by decide +kernel, by decide +kernel, by decide +kernel, by decide +kernel⟩,
    ⟨((stVcmd true).wr (R.TEMPO_STATE.SEQ 1) 6), 0, (endCheck 0 ((stVcmd true).wr (R.TEMPO_STATE.SEQ 1) 6)), rfl, by decide +kernel, by decide +kernel⟩,
    ⟨stDrumw, 0, 0, 7, by decide +kernel, by decide +kernel⟩⟩

theorem witness_SpindleCommands :
    (∃ (s : State) (drum : Fin 2) (t : State), (drumSt s drum).up = true ∧ domOn s (96 + 10 * drum.val) = true ∧ spinState s drum = 0 ∧ (driverVoice s drum 4).isSome = false ∧ t = (((putSpin drum { spinOf s drum with oldCurve := none } s).wr (R.SPIN_DEMAND.EFFECTIVE drum) (effDemand s drum).1).wr (R.SPIN_DEMAND.SLOT drum) (effDemand s drum).2).wrB (R.SPIN_STATUS.NO_VOICE drum) true) ∧
    (∃ (s : State) (drum : Fin 2) (quiet : Bool), spinState s drum = 1) ∧
    (∃ (s : State) (drum : Fin 2) (first second : List Nat), spinState s drum = 2 ∧ marginGood (marginOf first) = true) ∧
    (∃ (s : State) (drum : Fin 2), spinState s drum = 3) ∧
    (∃ (s : State) (drum : Fin 2) (interval place : Nat) (error : Int), spinState s drum = 6) ∧
    (∃ (s : State) (drum : Fin 2) (interval place : Nat) (error : Int), spinState s drum = 5 ∧ s.isSet (R.SPIN_STATUS.QUIET_ACTIVE drum) = false ∧ 25 ≤ place) ∧
    (∃ (s : State) (drum : Fin 2), spinState s drum = 4) ∧
    (∃ (s : State) (drum : Fin 2), spinState s drum = 5 ∧ s.isSet (R.SPIN_STATUS.QUIET_ACTIVE drum) = false ∧ (spinOf s drum).missed < 5) ∧
    (∃ (s : State) (drum : Fin 2), s.isSet (R.SPIN_CFG.QUIET drum) = true ∧ spinState s drum = 5 ∧ 500 ≤ (spinOf s drum).goodMs ∧ 1000000 ≤ (spinOf s drum).speed) ∧
    (∃ (s : State) (drum : Fin 2), spinState s drum = 6 ∧ (spinOf s drum).brake = 0) ∧
    (∃ (s : State) (drum : Fin 2), spinState s drum = 6 ∧ (spinOf s drum).brake = 1) ∧
    (∃ (s : State) (drum : Fin 2) (t : State), spinState s drum = 6 ∧ t = putSpin drum { spinOf (enterSpin drum 0 s) drum with owed := 0 } (enterSpin drum 0 s) ∧ (spinOf s drum).owed = 0 ∧ drumPruned t drum = false) ∧
    (∃ (s : State) (drum : Fin 2), cutHolds s drum = true) ∧
    (∃ (s : State) (drum : Fin 2), hasDrum s drum = true ∧ (spinOf s drum).faultLow = false) ∧
    (∃ (s : State) (drum : Fin 2) (t : State), t = putSpin drum { spinOf s drum with faultLow := false, overspeed := (spinOf s drum).overspeed && decide ((spinOf s drum).speed ≥ 1000 * (spinOf s drum).maxRpm) } s ∧ cutHolds t drum = false ∧ spinState (t.off (R.SPIN_STATUS.CUT drum)) drum = 0) :=
  ⟨⟨stSpinup, 0, (((putSpin 0 { spinOf stSpinup 0 with oldCurve := none } stSpinup).wr (R.SPIN_DEMAND.EFFECTIVE 0) (effDemand stSpinup 0).1).wr (R.SPIN_DEMAND.SLOT 0) (effDemand stSpinup 0).2).wrB (R.SPIN_STATUS.NO_VOICE 0) true, by decide +kernel, by decide +kernel, by decide +kernel, by decide +kernel, rfl⟩,
    ⟨(stSpinat 1), 0, true, by decide +kernel⟩,
    ⟨(stSpinat 2), 0, stGoodsense, [], by decide +kernel, by decide +kernel⟩,
    ⟨(stSpinat 3), 0, by decide +kernel⟩,
    ⟨(stSpinat 6), 0, 9, 50, 0, by decide +kernel⟩,
    ⟨(stSpinat 5), 0, 9, 50, 0, by decide +kernel, by decide +kernel, by decide +kernel⟩,
    ⟨(stSpinat 4), 0, by decide +kernel⟩,
    ⟨(stSpinat 5), 0, by decide +kernel, by decide +kernel, by decide +kernel⟩,
    ⟨((putSpin 0 { spinOf (stSpinat 5) 0 with goodMs := 500, speed := 1000000 } (stSpinat 5)).on (R.SPIN_CFG.QUIET 0)), 0, by decide +kernel, by decide +kernel, by decide +kernel, by decide +kernel⟩,
    ⟨(stSpinat 6), 0, by decide +kernel, by decide +kernel⟩,
    ⟨(putSpin 0 { spinOf (stSpinat 6) 0 with brake := 1 } (stSpinat 6)), 0, by decide +kernel, by decide +kernel⟩,
    ⟨(stSpinat 6), 0, (putSpin 0 { spinOf (enterSpin 0 0 (stSpinat 6)) 0 with owed := 0 } (enterSpin 0 0 (stSpinat 6))), by decide +kernel, rfl, by decide +kernel, by decide +kernel⟩,
    ⟨stCutheld, 0, by decide +kernel⟩,
    ⟨State.reset, 0, by decide +kernel, by decide +kernel⟩,
    ⟨stSpinup, 0, (putSpin 0 { spinOf stSpinup 0 with faultLow := false, overspeed := false } stSpinup), rfl, by decide +kernel, by decide +kernel⟩⟩

theorem witness_SledAndTrayCommands :
    (∃ (s : State) (slot : Fin 8) (drum : Fin 2), mayWrite s slot (drumBase drum + 0x3003C) = true ∧ strokeHolds s drum = false ∧ sledState s drum = 2) ∧
    (∃ (s : State) (slot : Fin 8) (drum : Fin 2), mayWrite s slot (drumBase drum + 0x3003C) = true ∧ strokeHolds s drum = false ∧ sledState s drum = 2 ∧ segmentsOk (sledStageBytes s drum) (stagedSegments (sledStageBytes s drum)) = false) ∧
    (∃ (s : State) (slot : Fin 8) (drum : Fin 2) (segs : List (Nat × Int × Int)) (stop : Int), mayWrite s slot (drumBase drum + 0x3003C) = true ∧ strokeHolds s drum = false ∧ sledState s drum = 2 ∧ segmentsOk (sledStageBytes s drum) (stagedSegments (sledStageBytes s drum)) = true ∧ segs = plainSegments (segmentList (sledStageBytes s drum) (stagedSegments (sledStageBytes s drum))) ∧ stop = (sledOf s drum).pos + (segs.getLastD (0, 0, 0)).2.1 ∧ 0 ≤ stop ∧ stop ≤ ((travelUnits s drum * sledDen : Nat) : Int)) ∧
    (∃ (s : State) (slot : Fin 8) (drum : Fin 2), mayWrite s slot (drumBase drum + 0x3003C) = true ∧ strokeHolds s drum = false ∧ sledState s drum = 0 ∧ sledCut s drum = false) ∧
    (∃ (s : State) (slot : Fin 8) (drum : Fin 2) (elapsed : Nat), mayWrite s slot (drumBase drum + 0x3003C) = true ∧ strokeHolds s drum = false ∧ sledState s drum = 3) ∧
    (∃ (s : State) (slot : Fin 8) (drum : Fin 2), mayWrite s slot (drumBase drum + 0x3003C) = true ∧ strokeHolds s drum = false) ∧
    (∃ (s : State) (drum : Fin 2) (m : SledMove) (t : State), (sledOf s drum).move = some m ∧ sledState s drum = 3 ∧ (sledOf s drum).waits = false ∧ t = moveTo drum (moveEnds s drum m) s ∧ closedLoop t drum = false ∧ m.stroke = false) ∧
    (∃ (s : State) (drum : Fin 2) (t : State), sledState s drum = 1 ∧ (sledOf s drum).homing = 1 ∧ (sledOf s drum).waits = false ∧ s.isSet (R.SLED_STATUS.ENCODER drum) = true ∧ t = putPos drum 0 (s.wr (R.SLED_ENC.COUNT drum) 0)) ∧
    (∃ (s : State) (drum : Fin 2) (t : State), sledState s drum = 1 ∧ (sledOf s drum).homing = 2 ∧ t = occur (drumSrc drum 14) (putPos drum ((travelUnits s drum / 4 * sledDen : Nat) : Int) s) ∧ retryLeft t (drumSrc drum 14) = true) ∧
    (∃ (s : State) (drum : Fin 2), sledState s drum = 2 ∧ sledCut s drum = false ∧ (sledOf s drum).ma ≠ 0) ∧
    (∃ (s : State) (slot : Fin 8) (drum : Fin 2) (v : Nat) (t : State), mayWrite s slot (drumBase drum + 0x30034) = true ∧ s.isSet (R.SLED_CMD_STATUS.RUNNING drum) = false ∧ t = putDrum drum { drumSt s drum with sledStage := putW (drumSt s drum).sledStage (s.rd (R.SLED_STAGE_ADDR.WORD drum)) v } (activity s)) ∧
    (∃ (s : State) (drum : Fin 2) (a b : Bool) (gap : Nat), s.isSet (R.SLED_STATUS.ENCODER drum) = true ∧ domOn s (97 + 10 * drum.val) = true ∧ a = (sledOf s drum).encA ∧ b = (sledOf s drum).encB) ∧
    (∃ (s : State) (drum : Fin 2) (a b : Bool) (gap : Nat), s.isSet (R.SLED_STATUS.ENCODER drum) = true ∧ domOn s (97 + 10 * drum.val) = true ∧ a ≠ (sledOf s drum).encA ∧ b = (sledOf s drum).encB ∧ 4 ≤ gap) ∧
    (∃ (s : State) (drum : Fin 2) (elapsed : Nat) (t : State), s.isSet (R.SLED_STATUS.ENCODER drum) = true ∧ domOn s (97 + 10 * drum.val) = true ∧ sledState s drum = 1 ∧ (sledOf s drum).homing = 2 ∧ t = searchTo drum elapsed (s.wr (R.SLED_INDEX_COUNT.COUNT drum) (unsigned 32 (encCount s drum)))) ∧
    (∃ (s : State) (drum : Fin 2) (inner outer : Bool), hasDrum s drum = true ∧ (drumSt s drum).up = true ∧ domOn s (100 + 10 * drum.val) = true ∧ trayState s drum ≠ 2 ∧ trayState s drum ≠ 4) ∧
    (∃ (s : State) (drum : Fin 2), hasDrum s drum = true) ∧
    (∃ (s : State) (drum : Fin 2) (t : State), hasDrum s drum = true ∧ s.isSet (R.TRAY_STATUS.BTN drum) = false ∧ (trayOf s drum).lastPress.isNone = true ∧ t = ringBell (24 + drum.val) false (putTray drum { trayOf s drum with lastPress := some s.metro } ((s.wrB (R.TRAY_STATUS.BTN drum) true).bump (R.TRAY_COUNTS.PRESSES drum) 1)) ∧ (List.range 8).find? (fun k => trayRights t k drum) = none ∧ t.isSet R.START_STATUS.DRUMS_DONE = true) ∧
    (∃ (s : State) (drum : Fin 2), (trayOf s drum).req = 1 ∧ s.isSet (R.TRAY_STATUS.PENDING drum) = true ∧ spinState s drum = 0 ∧ trayState s drum ≠ 5 ∧ vmOut s drum = false ∧ groupHot s drum 2 = false) ∧
    (∃ (s : State) (drum : Fin 2), trayState s drum = 2 ∧ retryLeft (occur (drumSrc drum 17) (enterTray drum 0 s)) (drumSrc drum 17) = true) ∧
    (∃ (s : State) (drum : Fin 2), (trayOf s drum).brake = 1) :=
  ⟨⟨(stSledat 2), 0, 0, by decide +kernel, by decide +kernel, by decide +kernel⟩,
    ⟨(stSledat 2), 0, 0, by decide +kernel, by decide +kernel, by decide +kernel, by decide +kernel⟩,
    ⟨stSledstage, 0, 0, stSledsegs, stSledstop, by decide +kernel, by decide +kernel, by decide +kernel, by decide +kernel, rfl, rfl, by decide +kernel, by decide +kernel⟩,
    ⟨(stSledat 0), 0, 0, by decide +kernel, by decide +kernel, by decide +kernel, by decide +kernel⟩,
    ⟨(stSledat 3), 0, 0, 9, by decide +kernel, by decide +kernel, by decide +kernel⟩,
    ⟨(stSledat 0), 0, 0, by decide +kernel, by decide +kernel⟩,
    ⟨stSledmove, 0, stMove0, (moveTo 0 (moveEnds stSledmove 0 stMove0) stSledmove), by decide +kernel, by decide +kernel, by decide +kernel, rfl, by decide +kernel, by decide +kernel⟩,
    ⟨stHoming1, 0, (putPos 0 0 (stHoming1.wr (R.SLED_ENC.COUNT 0) 0)), by decide +kernel, by decide +kernel, by decide +kernel, by decide +kernel, rfl⟩,
    ⟨stHoming2, 0, (occur (drumSrc 0 14) (putPos 0 ((travelUnits stHoming2 0 / 4 * sledDen : Nat) : Int) stHoming2)), by decide +kernel, by decide +kernel, rfl, by decide +kernel⟩,
    ⟨(putSled 0 { sledOf (stSledat 2) 0 with ma := 5 } (stSledat 2)), 0, by decide +kernel, by decide +kernel, by decide +kernel⟩,
    ⟨(stSledat 0), 0, 0, 5, (putDrum 0 { drumSt (stSledat 0) 0 with sledStage := putW (drumSt (stSledat 0) 0).sledStage ((stSledat 0).rd (R.SLED_STAGE_ADDR.WORD 0)) 5 } (activity (stSledat 0))), by decide +kernel, by decide +kernel, rfl⟩,
    ⟨stEncoder, 0, ((sledOf stEncoder 0).encA), ((sledOf stEncoder 0).encB), 9, by decide +kernel, by decide +kernel, rfl, rfl⟩,
    ⟨stEncoder, 0, (!(sledOf stEncoder 0).encA), ((sledOf stEncoder 0).encB), 9, by decide +kernel, by decide +kernel, by decide +kernel, rfl, by decide +kernel⟩,
    ⟨stEnchome, 0, 100, (searchTo 0 100 (stEnchome.wr (R.SLED_INDEX_COUNT.COUNT 0) (unsigned 32 (encCount stEnchome 0)))), by decide +kernel, by decide +kernel, by decide +kernel, by decide +kernel, rfl⟩,
    ⟨stTrayup, 0, true, false, by decide +kernel, by decide +kernel, by decide +kernel, by decide +kernel, by decide +kernel⟩,
    ⟨State.reset, 0, by decide +kernel⟩,
    ⟨(State.reset.on R.START_STATUS.DRUMS_DONE), 0, (ringBell 24 false (putTray 0 { trayOf (State.reset.on R.START_STATUS.DRUMS_DONE) 0 with lastPress := some (State.reset.on R.START_STATUS.DRUMS_DONE).metro } (((State.reset.on R.START_STATUS.DRUMS_DONE).wrB (R.TRAY_STATUS.BTN 0) true).bump (R.TRAY_COUNTS.PRESSES 0) 1))), by decide +kernel, by decide +kernel, by decide +kernel, rfl, by decide +kernel, by decide +kernel⟩,
    ⟨stTrayreq, 0, by decide +kernel, by decide +kernel, by decide +kernel, by decide +kernel, by decide +kernel, by decide +kernel⟩,
    ⟨(stTrayup.wr (R.TRAY_STATUS.STATE 0) 2), 0, by decide +kernel, by decide +kernel⟩,
    ⟨(putTray 0 { trayOf stTrayup 0 with brake := 1 } stTrayup), 0, by decide +kernel⟩⟩

theorem witness_ReadChannelCommands :
    (∃ (s : State) (drum : Fin 2) (timing : TimingRead), s.rd (R.READ_STATUS.MODE drum) ≠ 0 ∧ (frontOf s drum).scar = false ∧ timingHolds timing.errors = true) ∧
    (∃ (s : State) (drum : Fin 2), s.isSet (R.READ_STATUS.TIMING_LOCK drum) = true) ∧
    (∃ (s : State) (drum : Fin 2), s.isSet (R.READ_STATUS.SYNC_LOCK drum) = true) ∧
    (∃ (s : State) (drum : Fin 2), s.isSet (R.READ_STATUS.SYNC_LOCK drum) = true ∧ (drumSt s drum).missed = 2) ∧
    (∃ (s : State) (drum : Fin 2) (x : Stroke) (t : State), currentStroke s drum = some x ∧ x.started = true ∧ x.op = 1 ∧ x.next < x.count ∧ unitBacksOff s drum = false ∧ t = occur (drumSrc drum 21) (s.off (R.READ_STATUS.SYNC_LOCK drum)) ∧ retryLeft t (drumSrc drum 21) = true) ∧
    (∃ (s : State) (span : ScarSpan), s.rd (R.READ_STATUS.MODE span.drum) ≠ 0 ∧ (frontOf s span.drum).scar = false ∧ scarAfter s span.drum span = true) ∧
    (∃ (s : State) (span : ScarSpan), scarAfter s span.drum span = false) ∧
    (∃ (s : State) (drum : Fin 2) (x : Stroke) (block : BlockRead), readingStroke s drum = some x ∧ (drumSt s drum).block = none ∧ canRead s drum x = true ∧ slotsUsed s drum < storeSlots s drum) ∧
    (∃ (s : State) (drum : Fin 2) (x : Stroke) (block : BlockRead) (b : Block), readingStroke s drum = some x ∧ (drumSt s drum).block = some b ∧ canRead s drum x = true) ∧
    (∃ (s : State) (drum : Fin 2) (x : Stroke) (kbps : Nat) (t : State), t = (if s.isSet (R.READ_STATUS.TIMING_LOCK drum) then s.wr (R.READ_RATE.KBPS drum) (min kbps (2 ^ 20 - 1)) else s) ∧ servedStroke t drum = some x ∧ drumRelocks t drum = true) ∧
    (∃ (s : State) (slot : Fin 8) (drum : Fin 2) (value : Nat), mayWrite s slot (drumBase drum + 0x40010) = true) :=
  ⟨⟨stReading, 0, ⟨256, List.replicate 1024 0⟩, by decide +kernel, by decide +kernel, by decide +kernel⟩,
    ⟨(stReading.on (R.READ_STATUS.TIMING_LOCK 0)), 0, by decide +kernel⟩,
    ⟨(stReading.on (R.READ_STATUS.SYNC_LOCK 0)), 0, by decide +kernel⟩,
    ⟨(putDrum 0 { drumSt stReading 0 with missed := 2 } (stReading.on (R.READ_STATUS.SYNC_LOCK 0))), 0, by decide +kernel, by decide +kernel⟩,
    ⟨(stStroke 1 true), 0, (stStrokex 1 true), (occur (drumSrc 0 21) ((stStroke 1 true).off (R.READ_STATUS.SYNC_LOCK 0))), by decide +kernel, by decide +kernel, by decide +kernel, by decide +kernel, by decide +kernel, rfl, by decide +kernel⟩,
    ⟨(((stReading.wr (R.READ_SCAR.ENV_PCT 0) 50).wr (R.READ_SCAR.METRIC 0) 1).wr (R.READ_SCAR_B.MIN_BITS 0) 1), ⟨0, 1, [100], [(0, 100)]⟩, by decide +kernel, by decide +kernel, by decide +kernel⟩,
    ⟨stDrumw, ⟨0, 1, [], []⟩, by decide +kernel⟩,
    ⟨stDecoding, 0, (stStrokex 1 true), stBlockread, by decide +kernel, by decide +kernel, by decide +kernel, by decide +kernel⟩,
    ⟨(putDrum 0 { drumSt stDecoding 0 with block := some stBlock0 } stDecoding), 0, (stStrokex 1 true), stBlockread, stBlock0, by decide +kernel, by decide +kernel, by decide +kernel⟩,
    ⟨((stOnDisc 1).wr (R.CLOCK_STATUS.GEN stRelockgen) 1), 0, (stStrokex 1 true), 5, ((stOnDisc 1).wr (R.CLOCK_STATUS.GEN stRelockgen) 1), rfl, by decide +kernel, by decide +kernel⟩,
    ⟨stDrumw, 0, 0, 1, by decide +kernel⟩⟩

theorem witness_StrokeCommands :
    (∃ (s : State) (slot : Fin 8) (drum : Fin 2) (value : Nat), mayWrite s slot (drumBase drum + 0x50100) = true) ∧
    (∃ (s : State) (drum : Fin 2), (drumSt s drum).up = true ∧ unitBoundary s drum = true ∧ s.rd R.DORMANT_STATUS.STATE = 0 ∧ rotation s drum (drumSt s drum).last = []) ∧
    (∃ (s : State) (drum : Fin 2) (x : Stroke) (k : Nat) (rest : List (Nat × Stroke)), (drumSt s drum).up = true ∧ unitBoundary s drum = true ∧ s.rd R.DORMANT_STATUS.STATE = 0 ∧ rotation s drum (drumSt s drum).last = (k, x) :: rest) ∧
    (∃ (s : State) (drum : Fin 2) (x : Stroke) (entries : List TocEntry) (t : State), t = startDisc drum 2 s ∧ currentStroke t drum = some x ∧ x.op = 2 ∧ x.started = true ∧ x.lun.isNone = true ∧ isDvd t drum = false ∧ rateOver t drum = false) ∧
    (∃ (s : State) (drum : Fin 2) (x : Stroke) (seek : Option Int) (t : State), t = startDisc drum 4 s ∧ currentStroke t drum = some x ∧ x.op = 4 ∧ x.started = true) ∧
    (∃ (s : State) (drum : Fin 2) (x : Stroke) (target : Int) (t : State), t = startDisc drum 5 s ∧ currentStroke t drum = some x ∧ x.op = 5 ∧ x.started = true ∧ sledState t drum ≠ 2) ∧
    (∃ (s : State) (drum : Fin 2) (x : Stroke) (t : State), currentStroke s drum = some x ∧ x.op = 6 ∧ x.started = false ∧ t = syncNow drum (updateCurrent drum (fun y => { y with started := true }) s)) ∧
    (∃ (s : State) (drum : Fin 2) (x : Stroke) (t : State), currentStroke s drum = some x ∧ x.op = 7 ∧ x.started = false ∧ t = syncNow drum (updateCurrent drum (fun y => { y with started := true }) s)) ∧
    (∃ (s : State) (drum : Fin 2) (x : Stroke) (t : State), currentStroke s drum = some x ∧ x.op = 8 ∧ x.started = false ∧ s.rd (R.STK_DISC.STATE drum) ≠ 0 ∧ t = s.wr (R.STK_DEMAND.DEMAND drum x.slot) (x.arg % 65536) ∧ turnOn t drum ≤ (effDemand t drum).1) ∧
    (∃ (s : State) (drum : Fin 2) (x : Stroke), currentStroke s drum = some x ∧ x.op = 8 ∧ x.started = true ∧ spinState s drum = 5 ∧ s.rd (R.STK_DISC.STATE drum) ≠ 0 ∧ laserBar s drum = none) ∧
    (∃ (s : State) (drum : Fin 2) (x : Stroke), currentStroke s drum = some x ∧ x.started = true ∧ x.op = 6) ∧
    (∃ (s : State) (drum : Fin 2), (drumSt s drum).strokes.any Stroke.disc = false ∧ s.rd (R.LASER_CTRL.SELECT drum) ≠ 0) ∧
    (∃ (s : State) (output : Fin 2) (n : Nat) (x : Stroke), playingOn s output = some (n, x) ∧ buffered s n output = [] ∧ x.next < x.count) ∧
    (∃ (s : State) (c : Instr) (slot l : Nat) (tag : Nat) (cdb : List Nat) (n : Nat) (far : Option Nat), scsiArrival c = some (slot, l, tag, cdb, byteAt cdb 0) ∧ functionRuns s slot = true ∧ bulkBusy s slot = false ∧ (lunDrums s slot)[l]? = some (far, n) ∧ (lunOf s slot l).cmds.length < 16) ∧
    (∃ (s : State) (slot : Fin 8) (lun : Fin 16) (tag : Nat) (cdb : List Nat) (n : Nat) (far : Option Nat), functionRuns s slot = true ∧ bulkBusy s slot = false ∧ (lunDrums s slot)[lun.val]? = some (far, n) ∧ scsiOps.contains (byteAt cdb 0) = false ∧ (lunOf s slot lun).cmds.length < 16) ∧
    (∃ (s : State) (output : Fin 2) (n a : Nat) (x y : Stroke) (bs : List Nat) (rest : List (Nat × List Nat)), playingOn s output = some (n, x) ∧ buffered s n output = (a, bs) :: rest ∧ (drumSt (audioTaken output n a x bs rest s) n).strokes.find? (fun y => decide (y.slot = x.slot)) = some y) :=
  ⟨⟨stDrumw, 0, 0, 1, by decide +kernel⟩,
    ⟨stStrokeless, 0, by decide +kernel, by decide +kernel, by decide +kernel, by decide +kernel⟩,
    ⟨(stStroke 6 false), 0, (stStrokex 6 false), 0, [], by decide +kernel, by decide +kernel, by decide +kernel, by decide +kernel⟩,
    ⟨(stOnDisc 2), 0, (stStrokex 2 true), [], (startDisc 0 2 (stOnDisc 2)), rfl, by decide +kernel, by decide +kernel, by decide +kernel, by decide +kernel, by decide +kernel, by decide +kernel⟩,
    ⟨(stOnDisc 4), 0, (stStrokex 4 true), none, (startDisc 0 4 (stOnDisc 4)), rfl, by decide +kernel, by decide +kernel, by decide +kernel⟩,
    ⟨(stOnDisc 5), 0, (stStrokex 5 true), 9, (startDisc 0 5 (stOnDisc 5)), rfl, by decide +kernel, by decide +kernel, by decide +kernel, by decide +kernel⟩,
    ⟨(stStroke 6 false), 0, (stStrokex 6 false), (syncNow 0 (updateCurrent 0 (fun y => { y with started := true }) (stStroke 6 false))), by decide +kernel, by decide +kernel, by decide +kernel, rfl⟩,
    ⟨(stStroke 7 false), 0, (stStrokex 7 false), (syncNow 0 (updateCurrent 0 (fun y => { y with started := true }) (stStroke 7 false))), by decide +kernel, by decide +kernel, by decide +kernel, rfl⟩,
    ⟨stIdentstart, 0, (stStrokex 8 false), (stIdentstart.wr (R.STK_DEMAND.DEMAND 0 0) ((stStrokex 8 false).arg % 65536)), by decide +kernel, by decide +kernel, by decide +kernel, by decide +kernel, rfl, by decide +kernel⟩,
    ⟨stIdentrun, 0, (stStrokex 8 true), by decide +kernel, by decide +kernel, by decide +kernel, by decide +kernel, by decide +kernel, by decide +kernel⟩,
    ⟨(stStroke 6 true), 0, (stStrokex 6 true), by decide +kernel, by decide +kernel, by decide +kernel⟩,
    ⟨(stStrokeless.wr (R.LASER_CTRL.SELECT 0) 1), 0, by decide +kernel, by decide +kernel⟩,
    ⟨stPlaying, 0, 0, (stStrokex 4 true), by decide +kernel, by decide +kernel, by decide +kernel⟩,
    ⟨stFunc, (.inquiry 0 0 7 [0x12, 0, 0, 0, 36, 0]), 0, 0, 7, [0x12, 0, 0, 0, 36, 0], 0, none, by decide +kernel, by decide +kernel, by decide +kernel, by decide +kernel⟩,
    ⟨stFunc, 0, 0, 7, [0xFF], 0, none, by decide +kernel, by decide +kernel, by decide +kernel, by decide +kernel⟩,
    ⟨stAudio, 0, 0, 0, (stStrokex 4 true), stAudioy, [1], [], by decide +kernel, by decide +kernel, by decide +kernel⟩⟩

theorem witness_SerialCommands :
    (∃ (s : State) (uart : Fin 4) (settled : Bool), (uartServes (ringBell (16 + uart.val) false s) uart = true ∨ uartServes s uart = true) ∧ uartServes s uart = true ∧ s.isSet (R.UART_STATUS.RX_BUSY uart) = false ∧ bit (uartWord s uart 0) 14 = true ∧ settled = true ∧ uartMode s uart ≠ 2) ∧
    (∃ (s : State) (uart : Fin 4) (samples : List Bool), (inRecovery s && decide (uart.val = 0)) = false ∧ uartOpen s uart = true ∧ s.isSet (R.UART_STATUS.RX_BUSY uart) = true ∧ samples ≠ [] ∧ uartMode s uart ≠ 2 ∧ samples.length = uartBits s uart + b2n (uartParity s uart != 0) + 1) ∧
    (∃ (s : State) (uart : Fin 4) (c : Nat) (flow : Bool), (uartOf s uart).sending = some (c, flow)) ∧
    (∃ (s : State) (slot : Fin 8) (uart : Fin 4) (value : Nat), mayWrite s slot (uartBase uart + 0x0C) = true) ∧
    (∃ (s : State) (slot : Fin 8) (uart : Fin 4) (w : Nat) (rest : List Nat), mayRead s slot (uartBase uart + 8) = true ∧ (uartOf s uart).rx = w :: rest ∧ uartServes s uart = true) ∧
    (∃ (s : State) (slot : Fin 8) (uart : Fin 4), mayWrite s slot (uartBase uart + 0x30) = true) ∧
    (∃ (s : State) (slot : Fin 8) (uart : Fin 4), mayWrite s slot (uartBase uart + 0x30) = true) ∧
    (∃ (s : State) (uart : Fin 4), s.isSet (R.UART_STATUS.CFG_PENDING uart) = true ∧ s.isSet (R.UART_STATUS.RX_BUSY uart) = false ∧ (uartOf s uart).sending.isNone = true) ∧
    (∃ (s : State) (uart : Fin 4), uartServes s uart = true ∧ bit (uartWord s uart 0) 14 = true) ∧
    (∃ (s : State) (slot : Fin 8) (high : Bool) (value : Nat) (t : State), mayWrite s slot (0x00290000 + 4 * b2n high) = true ∧ pinsLive s = true ∧ t = (List.range 8).foldl (fun a k => (a.wrB (R.GPIO_OWNER.ASSIGNED (8 * b2n high + k)) (bit value (4 * k + 3))).wr (R.GPIO_OWNER.SLOT (8 * b2n high + k)) (bits value (4 * k) 3)) (activity s)) ∧
    (∃ (s : State) (slot : Fin 8) (value : Nat), mayWrite s slot 0x00290018 = true ∧ pinsLive s = true) ∧
    (∃ (s : State) (slot : Fin 8) (value : Nat), mayWrite s slot 0x0029001C = true ∧ pinsLive s = true) ∧
    (∃ (s : State) (levels old new : Nat), s.rd R.GPIO_IN.LEVEL = old ∧ levels % 65536 = new ∧ dormantState s ≠ 0) ∧
    (∃ (s : State) (levels old new : Nat), s.rd R.GPIO_IN.LEVEL = old ∧ levels % 65536 = new ∧ dormantState s = 0 ∧ domOn s 141 = true) :=
  ⟨⟨stUarton, 0, true, by decide +kernel, by decide +kernel, by decide +kernel, by decide +kernel, rfl, by decide +kernel⟩,
    ⟨stUartrx, 0, stRxbits, by decide +kernel, by decide +kernel, by decide +kernel, by decide +kernel, by decide +kernel, by decide +kernel⟩,
    ⟨stUarttx, 0, 65, false, by decide +kernel⟩,
    ⟨stUarton, 0, 0, 65, by decide +kernel⟩,
    ⟨(putUart 0 { uartOf stUarton 0 with rx := [65] } stUarton), 0, 0, 65, [], by decide +kernel, by decide +kernel, by decide +kernel⟩,
    ⟨stUarton, 0, 0, by decide +kernel⟩,
    ⟨stUarton, 0, 0, by decide +kernel⟩,
    ⟨(stUarton.on (R.UART_STATUS.CFG_PENDING 0)), 0, by decide +kernel, by decide +kernel, by decide +kernel⟩,
    ⟨stUarton, 0, by decide +kernel, by decide +kernel⟩,
    ⟨stGpioon, 0, false, 9, ((List.range 8).foldl (fun a k => (a.wrB (R.GPIO_OWNER.ASSIGNED (0 + k)) (bit 9 (4 * k + 3))).wr (R.GPIO_OWNER.SLOT (0 + k)) (bits 9 (4 * k) 3)) (activity stGpioon)), by decide +kernel, by decide +kernel, rfl⟩,
    ⟨stGpioon, 0, 5, by decide +kernel, by decide +kernel⟩,
    ⟨stGpioon, 0, 5, by decide +kernel, by decide +kernel⟩,
    ⟨(stGpioon.wr R.DORMANT_STATUS.STATE 2), 3, 0, 3, by decide +kernel, by decide +kernel, by decide +kernel⟩,
    ⟨stGpioon, 3, 0, 3, by decide +kernel, by decide +kernel, by decide +kernel, by decide +kernel⟩⟩

theorem witness_TrunkCommands :
    (∃ (s : State) (port : Fin 4), training s port = true ∧ (trunkPort s port).step = 0 ∧ portWidth s port ≠ 0 ∧ (widthLanes s port).any (fun l => Tab.look false s.backoff (344 + 4 * l)) = false) ∧
    (∃ (s : State) (port : Fin 4), training s port = true ∧ (trunkPort s port).step = 1) ∧
    (∃ (s : State) (port : Fin 4) (l : Nat), training s port = true ∧ (trunkPort s port).step ≠ 0 ∧ lowestLane s port = l) ∧
    (∃ (s : State) (lane : Fin 4) (p : Nat), portOfLane s lane = some p ∧ portState s p = 2 ∧ (laneOf s lane).saved = true) ∧
    (∃ (s : State) (port worst : Fin 4) (symbols : List Nat), portState s port ≠ 0 ∧ portState s port ≠ 6 ∧ s.rd (R.CLOCK_STATUS.GEN 0) ≠ 1 ∧ codewordDecode symbols = none ∧ (widthLanes s port).contains worst.val = true) ∧
    (∃ (s : State) (port : Fin 4) (frame f : List Nat) (t u : State), openFrame port 1 frame s = .good f t ∧ portState (takeHeader port f t) port = 3 ∧ sequence port f (takeHeader port f t) = (true, u) ∧ dormantState u ≠ 1 ∧ frameDest f = ownMember s) ∧
    (∃ (s : State) (port : Fin 4) (frame f : List Nat) (t u : State), openFrame port 2 frame s = .good f t ∧ portState (takeHeader port f t) port = 3 ∧ sequence port f (takeHeader port f t) = (true, u) ∧ dormantState u ≠ 1 ∧ frameDest f = ownMember s) ∧
    (∃ (s : State) (port : Fin 4) (frame f : List Nat) (arrival : Nat) (t : State), openFrame port 3 frame s = .good f t ∧ (frameBody f).getD 8 0 = 1) ∧
    (∃ (s : State) (port : Fin 4) (frame f : List Nat) (t : State), openFrame port 4 frame s = .good f t) ∧
    (∃ (s : State) (port : Fin 4), portState s port = 3 ∧ outstanding s port ≠ 0) ∧
    (∃ (s : State) (port : Fin 4), portState s port = 3 ∧ 2 ^ 39 ≤ sendFc s port ∧ sendFc s port < 2 ^ 40 - 1 ∧ (trunkPort s port).secret ≠ [] ∧ s.rd (R.PORT_STATUS.EPOCH port) < 255) ∧
    (∃ (s : State) (port : Fin 4), portState s port = 3) ∧
    (∃ (s : State) (port : Fin 4), portState s port = 3 ∧ s.rd (R.CLOCK_STATUS.GEN 0) ≠ 1) ∧
    (∃ (s : State) (port : Fin 4), portState s port = 4) ∧
    (∃ (s : State) (port : Fin 4), portState s port = 5 ∧ (trunkPort s port).control ≠ []) ∧
    (∃ (s : State) (lane : Fin 4), laneInUse s lane = false) ∧
    (∃ (s : State) (lane : Fin 4), laneInUse s lane = true ∧ (laneOf s lane).corrected ≤ 1000 * s.rd R.TRUNK_LIMITS.ERR_LIMIT) ∧
    (∃ (s : State) (slot : Fin 8) (port : Fin 4), mayWrite s slot 0x00600008 = true) ∧
    (∃ (s : State) (slot : Fin 8) (lane : Fin 4), mayWrite s slot 0x00600008 = true) ∧
    (∃ (s : State) (lane : Fin 4) (p : Nat), laneInUse s lane = true ∧ portOfLane s lane = some p ∧ (widthLanes s p).contains lane.val = true ∧ laneUsable (occur (346 + 4 * lane.val) s) lane = true) :=
  ⟨⟨(stTrain 0), 0, by decide +kernel, by decide +kernel, by decide +kernel, by decide +kernel⟩,
    ⟨(stTrain 1), 0, by decide +kernel, by decide +kernel⟩,
    ⟨(stTrain 1), 0, 0, by decide +kernel, by decide +kernel, by decide +kernel⟩,
    ⟨stLanesaved, 0, 0, by decide +kernel, by decide +kernel, by decide +kernel⟩,
    ⟨stLinked, 0, 0, [], by decide +kernel, by decide +kernel, by decide +kernel, by decide +kernel, by decide +kernel⟩,
    ⟨stKeyed, 0, (sealedFrame stFramekey stFramenonce (stFramehead 1) stFramebody), (stFrametext 1), (stOpened 1), ((sequence 0 (stFrametext 1) (takeHeader 0 (stFrametext 1) (stOpened 1))).2), opens_frame_1, by decide +kernel, Prod.ext (by decide +kernel) rfl, by decide +kernel, by decide +kernel⟩,
    ⟨stKeyed, 0, (sealedFrame stFramekey stFramenonce (stFramehead 2) stFramebody), (stFrametext 2), (stOpened 2), ((sequence 0 (stFrametext 2) (takeHeader 0 (stFrametext 2) (stOpened 2))).2), opens_frame_2, by decide +kernel, Prod.ext (by decide +kernel) rfl, by decide +kernel, by decide +kernel⟩,
    ⟨stKeyed, 0, (sealedFrame stFramekey stFramenonce (stFramehead 3) stFramebody), (stFrametext 3), 7, (stOpened 3), opens_frame_3, by decide +kernel⟩,
    ⟨stKeyed, 0, (sealedFrame stFramekey stFramenonce (stFramehead 4) stFramebody), (stFrametext 4), (stOpened 4), opens_frame_4⟩,
    ⟨stReplay, 0, by decide +kernel, by decide +kernel⟩,
    ⟨stEpochs, 0, by decide +kernel, by decide +kernel, by decide +kernel, by decide +kernel, by decide +kernel⟩,
    ⟨stLinked, 0, by decide +kernel⟩,
    ⟨stLinked, 0, by decide +kernel, by decide +kernel⟩,
    ⟨(stLinked.wr (R.PORT_STATUS.STATE 0) 4), 0, by decide +kernel⟩,
    ⟨(putTrunk 0 { trunkPort stLinked 0 with control := [stDesc0] } (stLinked.wr (R.PORT_STATUS.STATE 0) 5)), 0, by decide +kernel, by decide +kernel⟩,
    ⟨State.reset, 0, by decide +kernel⟩,
    ⟨stLinked, 0, by decide +kernel, by decide +kernel⟩,
    ⟨stTrunkw, 0, 0, by decide +kernel⟩,
    ⟨stTrunkw, 0, 0, by decide +kernel⟩,
    ⟨stLinked, 0, 0, by decide +kernel, by decide +kernel, by decide +kernel, by decide +kernel⟩⟩

theorem witness_GraftCommands :
    (∃ (s : State) (port : Fin 4) (frame b : List Nat) (t : State), openGraft port 1 frame s = .good b t ∧ portState t port = 3 ∧ b.getD 38 0 < memberCount t ∧ b.getD 38 0 ≠ ownMember t ∧ portState (noteHeard (b.getD 38 0) ((b.drop 4).take 32) (leVal ((b.drop 36).take 2)) (leVal ((b.drop 40).take 4)) t) port ≠ 2) ∧
    (∃ (s : State) (port : Fin 4) (frame b : List Nat) (t : State) (m : Nat), openGraft port 2 frame s = .good b t ∧ b.getD 4 0 % 8 = m ∧ m ≠ ownMember t ∧ newer (leVal ((b.drop 6).take 2)) (heardOf t m).seqL = true) ∧
    (∃ (s : State) (port : Fin 4) (frame b : List Nat) (t u : State) (m : Nat), openGraft port 3 frame s = .good b t ∧ b.getD 4 0 % 8 = m ∧ m ≠ ownMember t ∧ u = noteHeard m ((b.drop 8).take 32) (leVal ((b.drop 40).take 2)) (leVal ((b.drop 42).take 4)) t ∧ newer (leVal ((b.drop 6).take 2)) (heardOf u m).seqJ = true ∧ isCrown (putHeard m { heardOf (putHeard m { heardOf u m with seqJ := some (leVal ((b.drop 6).take 2)) } u) m with joined := true } (putHeard m { heardOf u m with seqJ := some (leVal ((b.drop 6).take 2)) } u)) = false) ∧
    (∃ (s : State) (port : Fin 4) (frame b : List Nat) (t : State) (m : Nat), openGraft port 4 frame s = .good b t ∧ b.getD 4 0 % 8 = m ∧ m ≠ ownMember t ∧ newer (leVal ((b.drop 6).take 2)) (heardOf t m).seqA = true ∧ ((heardOf t m).heard = false ∨ (heardOf t m).startId = leVal ((b.drop 44).take 4)) ∧ isCrown (putHeard m { heardOf t m with seqA := some (leVal ((b.drop 6).take 2)) } t) = true) ∧
    (∃ (s : State) (port : Fin 4), stacked s = true ∧ portState s port = 3) ∧
    (∃ (s : State), stacked s = true) ∧
    (∃ (s : State), isCrown s = true) ∧
    (∃ (s : State) (member : Fin 8), isCrown s = true ∧ member.val ≠ ownMember s) ∧
    (∃ (s : State) (p : Nat), routeTo s (crownOf s) = some p ∧ stacked s = true ∧ isCrown s = false ∧ portState s p = 3 ∧ s.stack.missed < 3) ∧
    (∃ (s : State), stacked s = true ∧ isCrown s = false) :=
  ⟨⟨(stGrafting 1), 0, (stGraftframe (stGrafting 1) 1), (stGraftbody (stGrafting 1) 1), (stGrafted (stGrafting 1) 1), opens_graft_1, by decide +kernel, by decide +kernel, by decide +kernel, by decide +kernel⟩,
    ⟨(stGrafting 1), 0, (stGraftframe (stGrafting 1) 2), (stGraftbody (stGrafting 1) 2), (stGrafted (stGrafting 1) 2), 1, opens_graft_2, by decide +kernel, by decide +kernel, by decide +kernel⟩,
    ⟨(stGrafting 1), 0, (stGraftframe (stGrafting 1) 3), (stGraftbody (stGrafting 1) 3), (stGrafted (stGrafting 1) 3), (noteHeard 1 (((stGraftbody (stGrafting 1) 3).drop 8).take 32) (leVal (((stGraftbody (stGrafting 1) 3).drop 40).take 2)) (leVal (((stGraftbody (stGrafting 1) 3).drop 42).take 4)) (stGrafted (stGrafting 1) 3)), 1, opens_graft_3, by decide +kernel, by decide +kernel, rfl, by decide +kernel, by decide +kernel⟩,
    ⟨(stGrafting 0), 0, (stGraftframe (stGrafting 0) 4), (stGraftbody (stGrafting 0) 4), (stGrafted (stGrafting 0) 4), 1, opens_graft_4, by decide +kernel, by decide +kernel, by decide +kernel, .inl (by decide +kernel), by decide +kernel⟩,
    ⟨stStacked, 0, by decide +kernel, by decide +kernel⟩,
    ⟨stStacked, by decide +kernel⟩,
    ⟨stCrowned, by decide +kernel⟩,
    ⟨stCrowned, 7, by decide +kernel, by decide +kernel⟩,
    ⟨stRouted, 0, by decide +kernel, by decide +kernel, by decide +kernel, by decide +kernel, by decide +kernel⟩,
    ⟨stStacked, by decide +kernel, by decide +kernel⟩⟩

theorem witness_StackCommands :
    (∃ (s : State) (slot member : Fin 8), mayWrite s slot 0x00610014 = true ∧ stacked s = true ∧ crownTarget s member = true) ∧
    (∃ (s : State) (slot member : Fin 8), mayWrite s slot 0x00610014 = true ∧ stacked s = true ∧ crownTarget s member = true) ∧
    (∃ (s : State) (slot : Fin 8), mayWrite s slot 0x00610014 = true ∧ stacked s = true ∧ stackState s = 4) ∧
    (∃ (s : State) (d : Deliv), inboxOf s 1 (fun _ => true) = some d) ∧
    (∃ (s : State) (d : Deliv) (units slot : Nat) (t : State), inboxOf s 2 (·.whole) = some d ∧ ledgerOf s d.id = none ∧ s.rd R.DORMANT_STATUS.STATE = 0 ∧ fenced s d.id = false ∧ stackState s = 2 ∧ units = (argOf d 8 + 255) / 256 ∧ slotOf s d.grove = some slot ∧ sweepUse .trunk s = (false, t)) ∧
    (∃ (s : State) (d : Deliv) (units : Nat), inboxOf s 2 (·.whole) = some d ∧ ledgerOf s d.id = none ∧ s.rd R.DORMANT_STATUS.STATE = 0 ∧ fenced s d.id = false ∧ stackState s = 2 ∧ units = (argOf d 8 + 255) / 256 ∧ slotOf s d.grove = none) ∧
    (∃ (s : State) (d : Deliv), inboxOf s 3 (fun _ => true) = some d) ∧
    (∃ (s : State) (d : Deliv) (t : State), inboxOf s 4 (fun _ => true) = some d ∧ t = dropDeliv d s ∧ ledgerOf t (argOf d 12) = none ∧ runsHere t (argOf d 12) = true) ∧
    (∃ (s : State) (d : Deliv) (t : State) (y : Tally), inboxOf s 4 (fun _ => true) = some d ∧ t = dropDeliv d s ∧ ledgerOf t (argOf d 12) = some y) ∧
    (∃ (s : State) (d : Deliv), inboxOf s 5 (fun _ => true) = some d ∧ (dropDeliv d s).requests.find? (fun x => decide (x.id = argOf d 16)) = none) ∧
    (∃ (s : State) (d : Deliv) (x : Request) (t u v : State), inboxOf s 5 (fun _ => true) = some d ∧ t = dropDeliv d s ∧ t.requests.find? (fun x => decide (x.id = argOf d 16)) = some x ∧ u = { t with requests := t.requests.filter (fun y => y.id != argOf d 16) } ∧ d.head.getD 12 0 = 1 ∧ v = (endRequest 13 x { tallyOf (d.head.drop 20) with flags := (tallyOf (d.head.drop 20)).flags ||| 3 } u).bump R.STACK_LEDGER.FOUND 1 ∧ v.requests.any (fun y => decide (y.dest = x.dest) && y.lost) = true) ∧
    (∃ (s : State) (d : Deliv) (x : Request) (t u v : State), inboxOf s 5 (fun _ => true) = some d ∧ t = dropDeliv d s ∧ t.requests.find? (fun x => decide (x.id = argOf d 16)) = some x ∧ u = { t with requests := t.requests.filter (fun y => y.id != argOf d 16) } ∧ d.head.getD 12 0 ≠ 1 ∧ v = (endRequest 13 x { remoteTally t x 2 380 with flags := 3 } u).bump R.STACK_LEDGER.NOT_RUN 1 ∧ v.requests.any (fun y => decide (y.dest = x.dest) && y.lost) = false) ∧
    (∃ (s : State) (d : Deliv), inboxOf s 6 (fun _ => true) = some d) ∧
    (∃ (s : State) (d : Deliv), inboxOf s 7 (fun _ => true) = some d) ∧
    (∃ (s : State) (member : Fin 8) (p : Nat) (mine : List Request), routeTo s member = some p ∧ stackState s ≠ 0 ∧ mine = s.requests.filter (fun x => decide (x.dest = member.val) && x.port.isSome) ∧ mine ≠ []) ∧
    (∃ (s : State) (slot : Fin 8), mailWaits s slot 0x68 [] = true) ∧
    (∃ (s : State) (slot : Fin 8) (body : List Nat), mailWaits s slot 0x69 body = true ∧ body.length = 32 ∧ slot.val = 0) ∧
    (∃ (s : State) (slot : Fin 8) (body : List Nat) (m : Nat), mailWaits s slot 0x6A body = true ∧ body.length = 4 ∧ leVal (body.take 4) = m ∧ m < 8 ∧ (heardOf s m).heard = true) :=
  ⟨⟨stCrowned, 0, 1, by decide +kernel, by decide +kernel, by decide +kernel⟩,
    ⟨stCrowned, 0, 1, by decide +kernel, by decide +kernel, by decide +kernel⟩,
    ⟨(stCrowned.wr R.STACK_SELF.STATE 4), 0, by decide +kernel, by decide +kernel, by decide +kernel⟩,
    ⟨(stInbox 1), (stDeliv 1), by decide +kernel⟩,
    ⟨stCopyhere, stDeliv 2, 0, 0, (sweepUse .trunk stCopyhere).2, by decide +kernel, by decide +kernel, by decide +kernel, by decide +kernel, by decide +kernel, by decide +kernel, by decide +kernel, pair_of (by decide +kernel)⟩,
    ⟨stCopying, stCopyaway, 0, by decide +kernel, by decide +kernel, by decide +kernel, by decide +kernel, by decide +kernel, by decide +kernel, by decide +kernel⟩,
    ⟨(stInbox 3), (stDeliv 3), by decide +kernel⟩,
    ⟨stAsked, (stDeliv 4), (dropDeliv (stDeliv 4) stAsked), by decide +kernel, rfl, by decide +kernel, by decide +kernel⟩,
    ⟨stQuerying, (stDeliv 4), (dropDeliv (stDeliv 4) stQuerying), tally0, by decide +kernel, rfl, by decide +kernel⟩,
    ⟨(stInbox 5), (stDeliv 5), by decide +kernel, by decide +kernel⟩,
    ⟨stAnswered, stAnsdeliv, stReq0, dropDeliv stAnsdeliv stAnswered, answeredFor stAnsdeliv stAnswered, (endRequest 13 stReq0 { tallyOf (stAnsdeliv.head.drop 20) with flags := (tallyOf (stAnsdeliv.head.drop 20)).flags ||| 3 } (answeredFor stAnsdeliv stAnswered)).bump R.STACK_LEDGER.FOUND 1, by decide +kernel, rfl, by decide +kernel, rfl, by decide +kernel, rfl, by decide +kernel⟩,
    ⟨stAnswered0, stAnsdeliv0, stReq0, dropDeliv stAnsdeliv0 stAnswered0, answeredFor stAnsdeliv0 stAnswered0, (endRequest 13 stReq0 { remoteTally (dropDeliv stAnsdeliv0 stAnswered0) stReq0 2 380 with flags := 3 } (answeredFor stAnsdeliv0 stAnswered0)).bump R.STACK_LEDGER.NOT_RUN 1, by decide +kernel, rfl, by decide +kernel, rfl, by decide +kernel, rfl, by decide +kernel⟩,
    ⟨(stInbox 6), (stDeliv 6), by decide +kernel⟩,
    ⟨(stInbox 7), (stDeliv 7), by decide +kernel⟩,
    ⟨stRelink, 1, 0, stRelink.requests, by decide +kernel, by decide +kernel, rfl, by decide +kernel⟩,
    ⟨(mailDemo 0 0x68 []), 0, by decide +kernel⟩,
    ⟨(mailDemo 0 0x69 (List.replicate 32 1)), 0, (List.replicate 32 1), by decide +kernel, by decide +kernel, by decide +kernel⟩,
    ⟨(putHeard 1 { heardOf State.reset 1 with heard := true } (mailDemo 0 0x6A [1,0,0,0])), 0, [1,0,0,0], 1, by decide +kernel, by decide +kernel, by decide +kernel, by decide +kernel, by decide +kernel⟩⟩

theorem witness_ServoAndStrokeEffects :
    (∃ (s : State) (slot : Fin 8) (body : List Nat) (t : Nat) (granted : Option Bool), mailWaits s slot 0x61 body = true ∧ body.length = 12 ∧ leVal (body.take 4) = t ∧ t < 14 ∧ slot.val = 0 ∧ isUp s t = true ∧ 165 ≤ leVal ((body.drop 4).take 4) ∧ leVal ((body.drop 4).take 4) ≤ 1050 ∧ 1 ≤ leVal ((body.drop 4).drop 4) ∧ leVal ((body.drop 4).drop 4) ≤ 100 ∧ (tcOf s t).fixedReq ≠ 1 ∧ granted ≠ some false) ∧
    (∃ (s : State) (drum : Fin 2) (pickup : Pickup) (late : Fin 49) (s0 t u : State), s0 = endCheck drum s ∧ engineRuns s0 drum = true ∧ s0.isSet (R.FRONT_STATUS.CONV_OK drum) = true ∧ t = reseedDue drum (drumSt s0 drum).frames (quietFollow drum (1 + late.val) (sledRun drum (1280 * (1 + late.val)) (sampleDrum drum pickup (s0.bump (R.DH_LATE.COUNT drum) late)))) ∧ u = startFrame drum t) ∧
    (∃ (s : State) (slot : Fin 8) (drum : Fin 2) (voice : Fin 8) (period role : Nat) (predict keep : Bool), mayWrite s slot (drumBase drum + 0x10018) = true ∧ voiceBusy (activity s) drum = false) ∧
    (∃ (s : State) (drum : Fin 2) (c : VoiceCmd) (others set : List (Nat × List Nat × Bool)) (t : State), (drumSt s drum).resync = false ∧ (drumSt s drum).checking = some c ∧ t = (putDrum drum { drumSt s drum with checking := none } s).off (R.DH_LOAD_STATUS.BUSY drum) ∧ voicePruned t drum c.voice = false ∧ projectedSet t drum = set ∧ set.filter (fun e => e.1 != c.voice) = others ∧ engineRuns (endCheck drum s) drum = false ∧ 1 ≤ c.op ∧ set.any (fun e => e.1 = c.voice) = decide (c.op ≠ 1) ∧ 3 ≤ c.op) ∧
    (∃ (s : State) (drum : Fin 2) (c : VoiceCmd) (others set : List (Nat × List Nat × Bool)) (t : State), (drumSt s drum).resync = false ∧ (drumSt s drum).checking = some c ∧ t = (putDrum drum { drumSt s drum with checking := none } s).off (R.DH_LOAD_STATUS.BUSY drum) ∧ voicePruned t drum c.voice = false ∧ projectedSet t drum = set ∧ set.filter (fun e => e.1 != c.voice) = others ∧ engineRuns (endCheck drum s) drum = false ∧ 1 ≤ c.op ∧ set.any (fun e => e.1 = c.voice) = decide (c.op ≠ 1) ∧ c.op ≤ 2 ∧ 1 ≤ c.period ∧ c.period ≤ 255 ∧ c.role ≤ 5 ∧ programOk c.prog c.prog.length c.role c.predict = true ∧ c.predict = false ∧ others.any (fun e => (readProgram e.2.1).dests.any (readProgram c.prog).dests.contains) = false ∧ setSum (applyCmd set c) ≤ 3000) ∧
    (∃ (s : State) (drum : Fin 2) (c : VoiceCmd) (others set : List (Nat × List Nat × Bool)) (t : State), (drumSt s drum).resync = false ∧ (drumSt s drum).checking = some c ∧ t = (putDrum drum { drumSt s drum with checking := none } s).off (R.DH_LOAD_STATUS.BUSY drum) ∧ voicePruned t drum c.voice = false ∧ projectedSet t drum = set ∧ set.filter (fun e => e.1 != c.voice) = others ∧ engineRuns (endCheck drum s) drum = false ∧ 1 ≤ c.op ∧ set.any (fun e => e.1 = c.voice) = decide (c.op ≠ 1) ∧ c.op ≤ 2 ∧ 1 ≤ c.period ∧ c.period ≤ 255 ∧ c.role ≤ 5 ∧ programOk c.prog c.prog.length c.role c.predict = true ∧ c.predict = false ∧ others.any (fun e => (readProgram e.2.1).dests.any (readProgram c.prog).dests.contains) = false ∧ setSum (applyCmd set c) ≤ 3000) ∧
    (∃ (s : State) (slot : Fin 8) (drum : Fin 2) (target : Int), mayWrite s slot (drumBase drum + 0x3003C) = true ∧ strokeHolds s drum = false ∧ sledState s drum = 2 ∧ signed 32 (s.rd (R.SLED_TARGET.X drum)) = target ∧ 0 ≤ target ∧ target ≤ (travelUnits s drum : Int) ∧ (sledRec s drum (s.rd (R.SLED_CFG.PROFILE drum))).isSome = true ∧ target * (sledDen : Int) ≠ (sledOf s drum).pos) ∧
    (∃ (s : State) (slot : Fin 8) (drum : Fin 2) (prod used : Nat) (t : State) (x : Stroke), mayWrite s slot (drumBase drum + 0x50100) = true ∧ s.rd (R.STK_PROD.COUNT drum slot) = prod ∧ (prod + 65536 - s.rd (R.STK_CONS.COUNT drum slot)) % 65536 = used ∧ ((prod + 1) % 65536 + 65536 - s.rd (R.STK_CONS.COUNT drum slot)) % 65536 = used + 1 ∧ used + 1 ≤ ringSize s slot ∧ t = (activity s).wr (R.STK_PROD.COUNT drum slot) ((prod + 1) % 65536) ∧ x = freshStroke slot (strokeEntry t drum slot (prod % ringSize t slot)) none none ∧ strokeForm false x = true ∧ strokeRights t slot drum x.op x.arg = true ∧ (∀ len, regionBytes x = some len → (regionAddr t slot x.region x.offset len).isSome = true) ∧ deadDrum t drum = none) ∧
    (∃ (s : State) (drum : Fin 2) (x : Stroke) (seek : Option Int), currentStroke s drum = some x ∧ x.started = false ∧ discBegins s drum x = .go ∧ x.op = 1) ∧
    (∃ (s : State) (drum : Fin 2) (x : Stroke) (seek : Option Int), currentStroke s drum = some x ∧ x.started = false ∧ discBegins s drum x = .go ∧ x.op = 3) ∧
    (∃ (s : State) (drum : Fin 2) (x : Stroke) (r : List Nat) (t : State), t = startDisc drum 3 s ∧ currentStroke t drum = some x ∧ x.op = 3 ∧ x.started = true ∧ x.next < x.count ∧ rateOver t drum = false ∧ x.lun = none) ∧
    (∃ (s : State) (drum : Fin 2) (x : Stroke) (target : Int) (t : State), t = startDisc drum 5 s ∧ currentStroke t drum = some x ∧ x.op = 5 ∧ x.started = true ∧ sledState t drum = 2 ∧ (sledOf t drum).pos = target * (sledDen : Int)) ∧
    (∃ (s : State) (drum : Fin 2) (x : Stroke) (target : Int) (t : State), t = startDisc drum 5 s ∧ currentStroke t drum = some x ∧ x.op = 5 ∧ x.started = true ∧ sledState t drum = 2 ∧ (sledOf t drum).pos ≠ target * (sledDen : Int) ∧ x.coalesced ≠ some x.next ∧ sledCut t drum = false) ∧
    (∃ (s : State) (drum : Fin 2) (x : Stroke) (t : State), currentStroke s drum = some x ∧ x.op = 7 ∧ x.started = false ∧ x.arg % 2 = 0 ∧ t = syncNow drum (updateCurrent drum (fun y => { y with started := true }) s) ∧ vmOut t drum = false ∧ groupHot t drum 2 = false ∧ trayState t drum ≠ 5 ∧ trayState t drum ≠ 3) ∧
    (∃ (s : State) (drum : Fin 2) (x : Stroke) (kind first last sessions endAt layer0 book laser : Nat) (finalized leadOut : Bool), currentStroke s drum = some x ∧ x.op = 8 ∧ x.started = true ∧ spinState s drum = 5 ∧ s.rd (R.STK_DISC.STATE drum) ≠ 0 ∧ (laser = 1 ∨ laser = 2) ∧ s.rd (R.LASER_CTRL.SELECT drum) = laser ∧ laserBar s drum = none ∧ discOk kind book finalized leadOut = true) :=
  ⟨⟨(stUpmail 0x61 [1, 0, 0, 0, 250, 0, 0, 0, 10, 0, 0, 0]), 0, [1, 0, 0, 0, 250, 0, 0, 0, 10, 0, 0, 0], 1, none, by decide +kernel, by decide +kernel, by decide +kernel, by decide +kernel, by decide +kernel, by decide +kernel, by decide +kernel, by decide +kernel, by decide +kernel, by decide +kernel, by decide +kernel, by decide +kernel⟩,
    ⟨stConv, 0, stPickup, 0, (endCheck 0 stConv), (reseedDue 0 (drumSt (endCheck 0 stConv) 0).frames (quietFollow 0 1 (sledRun 0 1280 (sampleDrum 0 stPickup ((endCheck 0 stConv).bump (R.DH_LATE.COUNT 0) 0))))), (startFrame 0 (reseedDue 0 (drumSt (endCheck 0 stConv) 0).frames (quietFollow 0 1 (sledRun 0 1280 (sampleDrum 0 stPickup ((endCheck 0 stConv).bump (R.DH_LATE.COUNT 0) 0)))))), rfl, by decide +kernel, by decide +kernel, rfl, rfl⟩,
    ⟨stStaged, 0, 0, 1, 1, 0, false, false, by decide +kernel, by decide +kernel⟩,
    ⟨(stChecking stVoiced ⟨3, 1, [], 0, 0, false, false, false⟩), 0, ⟨3, 1, [], 0, 0, false, false, false⟩, [], (projectedSet ((putDrum 0 { drumSt (stChecking stVoiced ⟨3, 1, [], 0, 0, false, false, false⟩) 0 with checking := none } (stChecking stVoiced ⟨3, 1, [], 0, 0, false, false, false⟩)).off (R.DH_LOAD_STATUS.BUSY 0)) 0), ((putDrum 0 { drumSt (stChecking stVoiced ⟨3, 1, [], 0, 0, false, false, false⟩) 0 with checking := none } (stChecking stVoiced ⟨3, 1, [], 0, 0, false, false, false⟩)).off (R.DH_LOAD_STATUS.BUSY 0)), by decide +kernel, by decide +kernel, rfl, by decide +kernel, rfl, by decide +kernel, by decide +kernel, by decide +kernel, by decide +kernel, by decide +kernel⟩,
    ⟨(stChecking stStaged ⟨1, 1, oneVoice, 1, 0, false, false, false⟩), 0, ⟨1, 1, oneVoice, 1, 0, false, false, false⟩, [], (projectedSet ((putDrum 0 { drumSt (stChecking stStaged ⟨1, 1, oneVoice, 1, 0, false, false, false⟩) 0 with checking := none } (stChecking stStaged ⟨1, 1, oneVoice, 1, 0, false, false, false⟩)).off (R.DH_LOAD_STATUS.BUSY 0)) 0), ((putDrum 0 { drumSt (stChecking stStaged ⟨1, 1, oneVoice, 1, 0, false, false, false⟩) 0 with checking := none } (stChecking stStaged ⟨1, 1, oneVoice, 1, 0, false, false, false⟩)).off (R.DH_LOAD_STATUS.BUSY 0)), by decide +kernel, by decide +kernel, rfl, by decide +kernel, rfl, by decide +kernel, by decide +kernel, by decide +kernel, by decide +kernel, by decide +kernel, by decide +kernel, by decide +kernel, by decide +kernel, by decide +kernel, by decide +kernel, by decide +kernel, by decide +kernel⟩,
    ⟨(stChecking stVoiced ⟨2, 1, oneVoice, 1, 0, false, true, false⟩), 0, ⟨2, 1, oneVoice, 1, 0, false, true, false⟩, [], (projectedSet ((putDrum 0 { drumSt (stChecking stVoiced ⟨2, 1, oneVoice, 1, 0, false, true, false⟩) 0 with checking := none } (stChecking stVoiced ⟨2, 1, oneVoice, 1, 0, false, true, false⟩)).off (R.DH_LOAD_STATUS.BUSY 0)) 0), ((putDrum 0 { drumSt (stChecking stVoiced ⟨2, 1, oneVoice, 1, 0, false, true, false⟩) 0 with checking := none } (stChecking stVoiced ⟨2, 1, oneVoice, 1, 0, false, true, false⟩)).off (R.DH_LOAD_STATUS.BUSY 0)), by decide +kernel, by decide +kernel, rfl, by decide +kernel, rfl, by decide +kernel, by decide +kernel, by decide +kernel, by decide +kernel, by decide +kernel, by decide +kernel, by decide +kernel, by decide +kernel, by decide +kernel, by decide +kernel, by decide +kernel, by decide +kernel⟩,
    ⟨stSeeking, 0, 0, 500, by decide +kernel, by decide +kernel, by decide +kernel, by decide +kernel, by decide +kernel, by decide +kernel, by decide +kernel, by decide +kernel⟩,
    ⟨stRung, 0, 0, 0, 0, stProduced, (freshStroke 0 (strokeEntry stProduced 0 0 0) none none), by decide +kernel, by decide +kernel, by decide +kernel, by decide +kernel, by decide +kernel, rfl, rfl, by decide +kernel, by decide +kernel, rung_bare, by decide +kernel⟩,
    ⟨(stCdbegin 1 false), 0, (stStrokex 1 false), none, by decide +kernel, by decide +kernel, by decide +kernel, by decide +kernel⟩,
    ⟨(stCdbegin 3 false), 0, (stStrokex 3 false), none, by decide +kernel, by decide +kernel, by decide +kernel, by decide +kernel⟩,
    ⟨(stCdbegin 3 true), 0, (stStrokex 3 true), [], (startDisc 0 3 (stCdbegin 3 true)), rfl, by decide +kernel, by decide +kernel, by decide +kernel, by decide +kernel, by decide +kernel, by decide +kernel⟩,
    ⟨stSeekstroke, 0, (stStrokex 5 true), 0, (startDisc 0 5 stSeekstroke), rfl, by decide +kernel, by decide +kernel, by decide +kernel, by decide +kernel, by decide +kernel⟩,
    ⟨stSeekstroke, 0, (stStrokex 5 true), 9, (startDisc 0 5 stSeekstroke), rfl, by decide +kernel, by decide +kernel, by decide +kernel, by decide +kernel, by decide +kernel, by decide +kernel, by decide +kernel⟩,
    ⟨stTraystroke, 0, (stStrokex 7 false), (syncNow 0 (updateCurrent 0 (fun y => { y with started := true }) stTraystroke)), by decide +kernel, by decide +kernel, by decide +kernel, by decide +kernel, rfl, by decide +kernel, by decide +kernel, by decide +kernel, by decide +kernel⟩,
    ⟨stFound, 0, (stStrokex 8 true), 1, 1, 9, 1, 1000, 0, 0, 1, true, true, by decide +kernel, by decide +kernel, by decide +kernel, by decide +kernel, by decide +kernel, .inl rfl, by decide +kernel, by decide +kernel, by decide +kernel⟩⟩

theorem witness_ScsiCommandsTakeEffect :
    (∃ (s : State) (c : Instr) (slot l tag : Nat) (cdb : List Nat) (n : Nat) (data : List Nat), scsiArrival c = some (slot, l, tag, cdb, byteAt cdb 0) ∧ lunFree s slot l n = true ∧ beginScsi s slot n (lunOf s slot l) cdb = .good data ∧ byteAt cdb 0 ≠ 0x1E) ∧
    (∃ (s : State) (c : Instr) (slot l tag : Nat) (cdb : List Nat) (n : Nat) (data : List Nat), scsiArrival c = some (slot, l, tag, cdb, byteAt cdb 0) ∧ lunFree s slot l n = true ∧ beginScsi s slot n (lunOf s slot l) cdb = .good data ∧ byteAt cdb 0 = 0x1E) ∧
    (∃ (s : State) (c : Instr) (slot l tag : Nat) (cdb : List Nat) (n op address count arg : Nat), scsiArrival c = some (slot, l, tag, cdb, byteAt cdb 0) ∧ lunFree s slot l n = true ∧ beginScsi s slot n (lunOf s slot l) cdb = .stroke op address count arg ∧ strokeRights s slot n op arg = true ∧ deadDrum s n = none) ∧
    (∃ (s : State) (c : Instr) (slot l tag : Nat) (cdb : List Nat) (n lba count form : Nat), scsiArrival c = some (slot, l, tag, cdb, byteAt cdb 0) ∧ lunFree s slot l n = true ∧ beginScsi s slot n (lunOf s slot l) cdb = .reads lba count form ∧ count = 0) ∧
    (∃ (s : State) (c : Instr) (slot l tag : Nat) (cdb : List Nat) (n lba count form : Nat), scsiArrival c = some (slot, l, tag, cdb, byteAt cdb 0) ∧ lunFree s slot l n = true ∧ beginScsi s slot n (lunOf s slot l) cdb = .reads lba count form ∧ 0 < count ∧ count ≤ min (lbaAddress s n lba).2 65535 ∧ strokeRights s slot n 1 form = true ∧ deadDrum s n = none) ∧
    (∃ (s : State) (slot : Fin 8) (lun : Fin 16) (tag n : Nat) (cdb : List Nat), lunFree s slot lun n = true ∧ scsiOps.contains (byteAt cdb 0) = false) ∧
    (∃ (s : State) (n : Nat) (b : List Nat), byteAt b 0 = 0x00 ∧ discSense s n = 0) ∧
    (∃ b : List Nat, byteAt b 0 = 0x03) ∧
    (∃ b : List Nat, byteAt b 0 = 0x12 ∧ bit (byteAt b 1) 0 = true ∧ byteAt b 2 = 0) ∧
    (∃ b : List Nat, byteAt b 0 = 0x1B ∧ bit (byteAt b 4) 1 = false) ∧
    (∃ b : List Nat, byteAt b 0 = 0x1B ∧ bit (byteAt b 4) 1 = true) ∧
    (∃ b : List Nat, byteAt b 0 = 0x1E) ∧
    (∃ (s : State) (n : Nat) (b : List Nat), byteAt b 0 = 0x25 ∧ discSense s n = 0) ∧
    (∃ b : List Nat, byteAt b 0 = 0x28) ∧
    (∃ b : List Nat, byteAt b 0 = 0xA8) ∧
    (∃ b : List Nat, byteAt b 0 = 0xBE ∧ byteAt b 10 % 8 = 0 ∧ byteAt b 9 = 0xF8) ∧
    (∃ b : List Nat, byteAt b 0 = 0x2B) ∧
    (∃ b : List Nat, byteAt b 0 = 0x42 ∧ byteAt b 3 = 1) ∧
    (∃ b : List Nat, byteAt b 0 = 0x43 ∧ byteAt b 2 % 16 ≤ 1) ∧
    (∃ b : List Nat, byteAt b 0 = 0x46 ∧ cdbLen10 b = 8) ∧
    (∃ b : List Nat, byteAt b 0 = 0x4A ∧ bit (byteAt b 1) 0 = true ∧ 8 ≤ cdbLen10 b) ∧
    (∃ b : List Nat, byteAt b 0 = 0x5A ∧ byteAt b 2 % 64 = 0x2A ∧ cdbLen10 b = 10) ∧
    (∃ (s : State) (slot n o : Nat) (rest b : List Nat), audioOf s slot n = o :: rest ∧ byteAt b 0 = 0x45 ∧ cdbLen10 b ≠ 0) ∧
    (∃ (s : State) (slot n o : Nat) (rest b : List Nat), audioOf s slot n = o :: rest ∧ byteAt b 0 = 0x47 ∧ msfLba (b.drop 3) < msfLba (b.drop 6)) ∧
    (∃ (s : State) (n : Nat) (b : List Nat), byteAt b 0 = 0xAD ∧ byteAt b 7 = 0 ∧ discSense s n = 0 ∧ isDvd s n = true ∧ beVal ((b.drop 8).take 2) = 5) :=
  ⟨⟨stLuned, (.testUnitReady 0 0 7 [0, 0, 0, 0, 0, 0]), 0, 0, 7, [0, 0, 0, 0, 0, 0], 0, [], by decide +kernel, by decide +kernel, by decide +kernel, by decide +kernel⟩,
    ⟨stLuned, (.preventAllowMediumRemoval 0 0 7 [0x1E, 0, 0, 0, 1, 0]), 0, 0, 7, [0x1E, 0, 0, 0, 1, 0], 0, [], by decide +kernel, by decide +kernel, by decide +kernel, by decide +kernel⟩,
    ⟨stLuned, (.startStopUnit 0 0 7 [0x1B, 0, 0, 0, 1, 0]), 0, 0, 7, [0x1B, 0, 0, 0, 1, 0], 0, 6, 0, 1, 65535, by decide +kernel, by decide +kernel, by decide +kernel, by decide +kernel, by decide +kernel⟩,
    ⟨stLuned, (.read10 0 0 7 [0x28, 0, 0, 0, 0, 9, 0, 0, 0, 0]), 0, 0, 7, [0x28, 0, 0, 0, 0, 9, 0, 0, 0, 0], 0, 9, 0, 0, by decide +kernel, by decide +kernel, by decide +kernel, by decide +kernel⟩,
    ⟨stLuned, (.read10 0 0 7 [0x28, 0, 0, 0, 0, 9, 0, 0, 2, 0]), 0, 0, 7, [0x28, 0, 0, 0, 0, 9, 0, 0, 2, 0], 0, 9, 2, 0, by decide +kernel, by decide +kernel, by decide +kernel, by decide +kernel, by decide +kernel, by decide +kernel, by decide +kernel⟩,
    ⟨stLuned, 0, 0, 7, 0, [0xFF], by decide +kernel, by decide +kernel⟩,
    ⟨stLuned, 0, [0], by decide +kernel, by decide +kernel⟩,
    ⟨[3], by decide +kernel⟩,
    ⟨[0x12, 1, 0], by decide +kernel, by decide +kernel, by decide +kernel⟩,
    ⟨[0x1B, 0, 0, 0, 1], by decide +kernel, by decide +kernel⟩,
    ⟨[0x1B, 0, 0, 0, 2], by decide +kernel, by decide +kernel⟩,
    ⟨[0x1E], by decide +kernel⟩,
    ⟨stLuned, 0, [0x25], by decide +kernel, by decide +kernel⟩,
    ⟨[0x28], by decide +kernel⟩,
    ⟨[0xA8], by decide +kernel⟩,
    ⟨[0xBE, 0, 0, 0, 0, 0, 0, 0, 1, 0xF8, 0], by decide +kernel, by decide +kernel, by decide +kernel⟩,
    ⟨[0x2B], by decide +kernel⟩,
    ⟨[0x42, 2, 0x40, 1], by decide +kernel, by decide +kernel⟩,
    ⟨[0x43, 0, 1], by decide +kernel, by decide +kernel⟩,
    ⟨[0x46, 0, 0, 0, 0, 0, 0, 0, 8], by decide +kernel, by decide +kernel⟩,
    ⟨[0x4A, 1, 0, 0, 0, 0, 0, 0, 8], by decide +kernel, by decide +kernel, by decide +kernel⟩,
    ⟨[0x5A, 0, 0x2A, 0, 0, 0, 0, 0, 10], by decide +kernel, by decide +kernel, by decide +kernel⟩,
    ⟨stAudible, 0, 0, 0, [], [0x45, 0, 0, 0, 0, 0, 0, 0, 1], by decide +kernel, by decide +kernel, by decide +kernel⟩,
    ⟨stAudible, 0, 0, 0, [], [0x47, 0, 0, 0, 2, 0, 0, 3, 0], by decide +kernel, by decide +kernel, by decide +kernel⟩,
    ⟨stLuned.wr (R.STK_DISC.KIND 0) 4, 0, [0xAD, 0, 0, 0, 0, 0, 0, 0, 0, 5], by decide +kernel, by decide +kernel, by decide +kernel, by decide +kernel, by decide +kernel⟩⟩

theorem witness_TrunkStackAndBufferEffects :
    (∃ (s : State) (port worst : Fin 4) (symbols word : List Nat) (t : State), portState s port ≠ 0 ∧ portState s port ≠ 6 ∧ s.rd (R.CLOCK_STATUS.GEN 0) ≠ 1 ∧ codewordDecode symbols = some word ∧ t = countCorrected port symbols word s ∧ bits (codewordBits word) 0 8 = 0xC5 ∧ (trunkPort t port).cwNext = some (codewordCount (codewordBits word) % 4096)) ∧
    (∃ (s : State) (port : Fin 4) (frame f : List Nat) (arrival : Nat) (t : State), openFrame port 3 frame s = .good f t ∧ (frameBody f).getD 8 0 = 2 ∧ isCrown (takeHeader port f t) = false ∧ routeTo (takeHeader port f t) (crownOf (takeHeader port f t)) = some port.val) ∧
    (∃ (s : State) (slot : Fin 8) (port : Fin 4), mayWrite s slot 0x00600008 = true ∧ (portState s port = 2 ∨ portState s port = 3 ∨ portState s port = 4)) ∧
    (∃ (s : State) (slot : Fin 8) (lane : Fin 4), mayWrite s slot 0x00600008 = true ∧ laneState s lane = 5) ∧
    (∃ (s : State) (port : Fin 4) (frame b : List Nat) (t u : State) (m : Nat), openGraft port 1 frame s = .good b t ∧ portState t port = 2 ∧ b.getD 38 0 = m ∧ m < memberCount t ∧ m ≠ ownMember t ∧ u = noteHeard m ((b.drop 4).take 32) (leVal ((b.drop 36).take 2)) (leVal ((b.drop 40).take 4)) (putTrunk port { trunkPort t port with peerNonce := (b.drop 44).take 32, peerPort := b.getD 39 0 % 4 } t) ∧ portState u port = 2 ∧ (b.drop 76).take 32 = (trunkPort t port).nonce ∧ stacked u = true ∧ Tab.look false u.causes 46 = false) ∧
    (∃ (s : State) (port : Fin 4) (frame b : List Nat) (t u v : State) (m : Nat), openGraft port 3 frame s = .good b t ∧ b.getD 4 0 % 8 = m ∧ m ≠ ownMember t ∧ u = noteHeard m ((b.drop 8).take 32) (leVal ((b.drop 40).take 2)) (leVal ((b.drop 42).take 4)) t ∧ newer (leVal ((b.drop 6).take 2)) (heardOf u m).seqJ = true ∧ v = putHeard m { heardOf u m with seqJ := some (leVal ((b.drop 6).take 2)) } u ∧ isCrown (putHeard m { heardOf v m with joined := true } v) = true) ∧
    (∃ (s : State) (port : Fin 4) (frame b : List Nat) (t u v : State) (m st : Nat), openGraft port 4 frame s = .good b t ∧ b.getD 4 0 % 8 = m ∧ m ≠ ownMember t ∧ newer (leVal ((b.drop 6).take 2)) (heardOf t m).seqA = true ∧ ((heardOf t m).heard = false ∨ (heardOf t m).startId = leVal ((b.drop 44).take 4)) ∧ u = putHeard m { heardOf t m with seqA := some (leVal ((b.drop 6).take 2)) } t ∧ m = crownOf u ∧ isCrown u = false ∧ u.stack.crownStart = some (leVal ((b.drop 44).take 4)) ∧ v = (((putStack { u.stack with crownStart := some (leVal ((b.drop 44).take 4)) } u).wr R.STACK_MEMBERS.GRAFTED (b.getD 40 0)).wr R.STACK_MEMBERS.QUARANTINED (b.getD 41 0)).wr R.STACK_MEMBERS.EXPELLED (b.getD 42 0) ∧ st = listedState (stackState v) (ownListing v) (v.isSet R.STACK_TIME.LOCKED)) ∧
    (∃ (s : State) (d : Deliv) (slot n c : Nat) (bytes : List Nat), inboxOf s 1 (fun _ => true) = some d ∧ ledgerOf s d.id = none ∧ s.rd R.DORMANT_STATUS.STATE = 0 ∧ fenced s d.id = false ∧ stackState s = 2 ∧ slotOf s d.grove = some slot ∧ d.head.getD 1 0 % 2 = n ∧ (d.head.drop 12).take 32 = bytes ∧ hasDrum s n = true ∧ listedOnDrum s slot n = true ∧ ringRoom s n slot = true ∧ s.rd (R.STK_PROD.COUNT n slot) = c) ∧
    (∃ (s : State) (w d k j : Nat), d < 2 ^ 64 ∧ k < 72 ∧ j < 72 ∧ j ≠ k ∧ Tab.look 0 s.bufEcc w = 0) ∧
    (∃ (s : State) (w k j : Nat), k < 72 ∧ j < 72 ∧ j ≠ k ∧ Tab.look 0 s.bufEcc w = 2 ^ k) ∧
    (∃ (s : State) (w k j : Nat), k < 72 ∧ j < 72 ∧ j ≠ k ∧ Tab.look 0 s.bufEcc w = 2 ^ k ^^^ 2 ^ j) :=
  ⟨⟨stSynced, 0, 0, stCodeword, stCodeword, (countCorrected 0 stCodeword stCodeword stSynced), by decide +kernel, by decide +kernel, by decide +kernel, codeword_decodes, rfl, by decide +kernel, by decide +kernel⟩,
    ⟨stTimed, 0, (sealedFrame stFramekey stFramenonce (stFramehead 3) stTimebody), (stFramehead 3 ++ stTimebody), 9, (noteFc 0 1 0 stTimed), opens_frame_time, by decide +kernel, by decide +kernel, by decide +kernel⟩,
    ⟨stTrunkslot, 0, 0, by decide +kernel, by decide +kernel⟩,
    ⟨(stTrunkw.wr (R.TRUNK_LANE.STATE 2) 5), 0, 2, by decide +kernel, by decide +kernel⟩,
    ⟨stHelloing, 0, (stGraftframe stHelloing 1), (stGraftbody stHelloing 1), (stGrafted stHelloing 1), (noteHeard 1 (((stGraftbody stHelloing 1).drop 4).take 32) (leVal (((stGraftbody stHelloing 1).drop 36).take 2)) (leVal (((stGraftbody stHelloing 1).drop 40).take 4)) (putTrunk 0 { trunkPort (stGrafted stHelloing 1) 0 with peerNonce := ((stGraftbody stHelloing 1).drop 44).take 32, peerPort := (stGraftbody stHelloing 1).getD 39 0 % 4 } (stGrafted stHelloing 1))), 1, opens_graft_hello, by decide +kernel, by decide +kernel, by decide +kernel, by decide +kernel, rfl, by decide +kernel, by decide +kernel, by decide +kernel, by decide +kernel⟩,
    ⟨(stGrafting 0), 0, (stGraftframe (stGrafting 0) 3), (stGraftbody (stGrafting 0) 3), (stGrafted (stGrafting 0) 3), (noteHeard 1 (((stGraftbody (stGrafting 0) 3).drop 8).take 32) (leVal (((stGraftbody (stGrafting 0) 3).drop 40).take 2)) (leVal (((stGraftbody (stGrafting 0) 3).drop 42).take 4)) (stGrafted (stGrafting 0) 3)), (putHeard 1 { heardOf (noteHeard 1 (((stGraftbody (stGrafting 0) 3).drop 8).take 32) (leVal (((stGraftbody (stGrafting 0) 3).drop 40).take 2)) (leVal (((stGraftbody (stGrafting 0) 3).drop 42).take 4)) (stGrafted (stGrafting 0) 3)) 1 with seqJ := some (leVal (((stGraftbody (stGrafting 0) 3).drop 6).take 2)) } (noteHeard 1 (((stGraftbody (stGrafting 0) 3).drop 8).take 32) (leVal (((stGraftbody (stGrafting 0) 3).drop 40).take 2)) (leVal (((stGraftbody (stGrafting 0) 3).drop 42).take 4)) (stGrafted (stGrafting 0) 3))), 1, opens_graft_join, by decide +kernel, by decide +kernel, rfl, by decide +kernel, rfl, by decide +kernel⟩,
    ⟨stAnnounced, 0, (stGraftframe stAnnounced 4), (stGraftbody stAnnounced 4), (stGrafted stAnnounced 4), (putHeard 1 { heardOf (stGrafted stAnnounced 4) 1 with seqA := some (leVal (((stGraftbody stAnnounced 4).drop 6).take 2)) } (stGrafted stAnnounced 4)), ((((putStack { (putHeard 1 { heardOf (stGrafted stAnnounced 4) 1 with seqA := some (leVal (((stGraftbody stAnnounced 4).drop 6).take 2)) } (stGrafted stAnnounced 4)).stack with crownStart := some (leVal (((stGraftbody stAnnounced 4).drop 44).take 4)) } (putHeard 1 { heardOf (stGrafted stAnnounced 4) 1 with seqA := some (leVal (((stGraftbody stAnnounced 4).drop 6).take 2)) } (stGrafted stAnnounced 4))).wr R.STACK_MEMBERS.GRAFTED ((stGraftbody stAnnounced 4).getD 40 0)).wr R.STACK_MEMBERS.QUARANTINED ((stGraftbody stAnnounced 4).getD 41 0)).wr R.STACK_MEMBERS.EXPELLED ((stGraftbody stAnnounced 4).getD 42 0)), 1, (listedState (stackState ((((putStack { (putHeard 1 { heardOf (stGrafted stAnnounced 4) 1 with seqA := some (leVal (((stGraftbody stAnnounced 4).drop 6).take 2)) } (stGrafted stAnnounced 4)).stack with crownStart := some (leVal (((stGraftbody stAnnounced 4).drop 44).take 4)) } (putHeard 1 { heardOf (stGrafted stAnnounced 4) 1 with seqA := some (leVal (((stGraftbody stAnnounced 4).drop 6).take 2)) } (stGrafted stAnnounced 4))).wr R.STACK_MEMBERS.GRAFTED ((stGraftbody stAnnounced 4).getD 40 0)).wr R.STACK_MEMBERS.QUARANTINED ((stGraftbody stAnnounced 4).getD 41 0)).wr R.STACK_MEMBERS.EXPELLED ((stGraftbody stAnnounced 4).getD 42 0))) (ownListing ((((putStack { (putHeard 1 { heardOf (stGrafted stAnnounced 4) 1 with seqA := some (leVal (((stGraftbody stAnnounced 4).drop 6).take 2)) } (stGrafted stAnnounced 4)).stack with crownStart := some (leVal (((stGraftbody stAnnounced 4).drop 44).take 4)) } (putHeard 1 { heardOf (stGrafted stAnnounced 4) 1 with seqA := some (leVal (((stGraftbody stAnnounced 4).drop 6).take 2)) } (stGrafted stAnnounced 4))).wr R.STACK_MEMBERS.GRAFTED ((stGraftbody stAnnounced 4).getD 40 0)).wr R.STACK_MEMBERS.QUARANTINED ((stGraftbody stAnnounced 4).getD 41 0)).wr R.STACK_MEMBERS.EXPELLED ((stGraftbody stAnnounced 4).getD 42 0))) (((((putStack { (putHeard 1 { heardOf (stGrafted stAnnounced 4) 1 with seqA := some (leVal (((stGraftbody stAnnounced 4).drop 6).take 2)) } (stGrafted stAnnounced 4)).stack with crownStart := some (leVal (((stGraftbody stAnnounced 4).drop 44).take 4)) } (putHeard 1 { heardOf (stGrafted stAnnounced 4) 1 with seqA := some (leVal (((stGraftbody stAnnounced 4).drop 6).take 2)) } (stGrafted stAnnounced 4))).wr R.STACK_MEMBERS.GRAFTED ((stGraftbody stAnnounced 4).getD 40 0)).wr R.STACK_MEMBERS.QUARANTINED ((stGraftbody stAnnounced 4).getD 41 0)).wr R.STACK_MEMBERS.EXPELLED ((stGraftbody stAnnounced 4).getD 42 0)).isSet R.STACK_TIME.LOCKED)), opens_graft_announce, by decide +kernel, by decide +kernel, by decide +kernel, .inl (by decide +kernel), rfl, by decide +kernel, by decide +kernel, by decide +kernel, rfl, rfl⟩,
    ⟨stCopyring, (stDeliv 1), 0, 0, 0, (((stDeliv 1).head.drop 12).take 32), by decide +kernel, by decide +kernel, by decide +kernel, by decide +kernel, by decide +kernel, by decide +kernel, by decide +kernel, by decide +kernel, by decide +kernel, by decide +kernel, by decide +kernel, by decide +kernel⟩,
    ⟨State.reset, 5, 2 ^ 64 - 1, 71, 70, by decide +kernel, by decide +kernel, by decide +kernel, by decide +kernel, by decide +kernel⟩,
    ⟨{ State.reset with bufEcc := [(5, 2 ^ 71)] }, 5, 71, 70, by decide +kernel, by decide +kernel, by decide +kernel, by decide +kernel⟩,
    ⟨{ State.reset with bufEcc := [(5, 2 ^ 71 ^^^ 1)] }, 5, 71, 0, by decide +kernel, by decide +kernel, by decide +kernel, by decide +kernel⟩⟩

theorem witness_StepRunsFront : ∃ (c : Instr) (rest : List Instr) (s : State), s.pending = c :: rest :=
  ⟨.zqCalibration, [], { State.reset with pending := [.zqCalibration] }, rfl⟩
theorem witness_EmptyQueueTicks : (∃ s : State, s.pending = [] ∧ s.pwrgd = true) ∧ (∃ s : State, s.pending = [] ∧ s.pwrgd = false) ∧
    (∃ s : State, s.pending = [] ∧ inReset s = true) ∧
    (∃ s : State, s.pending = [] ∧ ∀ n : Fin 2, (drumSt s n).checking = none ∧ (drumSt s n).resync = false) :=
  ⟨⟨State.reset, rfl, rfl⟩, ⟨{ State.reset with pwrgd := false }, rfl, rfl⟩, ⟨{ State.reset with resetN := false }, rfl, rfl⟩,
    ⟨State.reset, rfl, fun n => by rcases n with ⟨_ | _ | n, h⟩ <;> first | exact ⟨rfl, rfl⟩ | omega⟩⟩
theorem witness_RegisterCommandsTurnedAway :
    (∃ (c : Instr) (slot : Fin 8) (a : Nat) (w : Bool) (s : State), registerCommand c = some (slot, a, w) ∧ viewOf s slot a w = .refused) ∧
    (∃ (c : Instr) (slot : Fin 8) (a : Nat) (w : Bool) (s : State), registerCommand c = some (slot, a, w) ∧ viewOf s slot a w = .nothing) ∧
    (∃ (c : Instr) (slot : Fin 8) (a : Nat) (w : Bool) (s : State), registerCommand c = some (slot, a, w) ∧ viewOf s slot a w = .held) ∧
    (∃ (c : Instr) (slot : Fin 8) (a : Nat) (w : Bool) (s : State),
      registerCommand c = some (slot, a, w) ∧ viewOf s slot a true = .served ∧ w = true ∧ blockRuns s a = false) :=
  ⟨⟨.memctlTrain 7, 7, 0x0009000C, true, spined, rfl, by decide +kernel⟩,
    ⟨.retrain 0 3, 0, 0x00600008, true, { spined with variant := .t }, rfl, by decide +kernel⟩,
    ⟨.memctlTrain 0, 0, 0x0009000C, true, State.reset, rfl, by decide +kernel⟩,
    ⟨.memctlTrain 0, 0, 0x0009000C, true, spined, rfl, by decide +kernel, rfl, by decide +kernel⟩⟩
theorem witness_MailOfAnotherLength : ∃ (c : Instr) (slot : Fin 8) (op : Nat) (ok : Nat → Bool) (m : Mail) (s : State),
    mailRow c = some (slot, op, ok) ∧ mailOf s slot = some m ∧ m.op = op ∧ m.heard = true ∧ m.reply = none ∧ firmwareRuns s = true ∧ ok m.len = false :=
  ⟨.version 0, 0, 0x02, (· = 0), ⟨0, 0x02, 1, 1, [9], none, true⟩, mailDemo 0 0x02 [9], rfl, rfl, rfl, rfl, rfl, by decide +kernel, rfl⟩
theorem witness_IdentRegisters :
    (∃ (s : State) (slot : Fin 8) (a : Nat), a < 0x10000 ∧ slot.val = 0 ∧ rootOn s slot = true ∧ heldBlock s a = false) ∧
    (∃ (s : State) (slot : Fin 8) (a : Nat), a < 0x10000 ∧ (configured s = true ∧ occupied s slot = true) ∧ rootOn s slot = true ∧ heldBlock s a = false) :=
  ⟨⟨spined, 0, 0xFFFF, by decide, rfl, by decide +kernel, by decide +kernel⟩,
    ⟨demo, 0, 0xFFFF, by decide, by decide +kernel, by decide +kernel, by decide +kernel⟩⟩
theorem witness_RefusalMarksTheSlot : ∃ (s : State) (slot : Fin 8), s.isSet (R.GROVE_SELF.REMOTE slot) = false ∧
    s.isSet (R.GROVE_STATUS.ACCESS_REFUSED slot) = false :=
  ⟨State.reset, 7, by decide +kernel, by decide +kernel⟩
theorem witness_FaultBitSets : ∃ (s : State) (c : Nat), c < 512 ∧ ∀ k : Nat, s.isSet (R.GROVE_SELF.REMOTE k) = false :=
  ⟨State.reset, 511, by decide, fun _ => rfl⟩
theorem witness_OneWrongBitIsPutRight : ∃ d j k : Nat, d < 2 ^ 64 ∧ j < k ∧ k < 72 := ⟨2 ^ 64 - 1, 70, 71, by decide, by decide, by decide⟩
theorem witness_PlainLinesReadBack : ∃ (a b k j : Nat) (bs : List Nat), bs.length = 64 ∧ (∀ x ∈ bs, x < 256) ∧ b / 64 ≠ a / 64 ∧ k < 8 ∧ j < 72 :=
  ⟨0, 64, 7, 71, List.replicate 64 255, rfl, by decide, by decide, by decide, by decide⟩
theorem witness_SealedLinesReadBack : ∃ (a b k minor : Nat) (plain : List Nat), plain.length = 64 ∧ (∀ x ∈ plain, x < 256) ∧ minor < 512 ∧
    b / 64 ≠ a / 64 ∧ k < 8 :=
  ⟨0, 64, 7, 511, List.replicate 64 255, rfl, by decide, by decide, by decide, by decide⟩
/-- The receiver of the frames of `stSender`, with the given next FC. -/
def stReceiver (least : Nat) : State := putTrunk 0 { trunkPort stKeyed 0 with rxFc := least } (stKeyed.wr (R.PORT_STATUS.PEER 0) 0)
def stSender : State := putTrunk 0 { trunkPort stLinked 0 with txKey := stFramekey } (stLinked.wr (R.PORT_STATUS.EPOCH 0) 1)
def stSenthead : List Nat := match (emitFrame 0 0 (stFrametext 4) stSender).outs with | .frame _ b :: _ => b.take 48 | _ => []
theorem witness_SentFramesOpenAtThePeer :
    (∃ (s t : State) (p q : Fin 4) (seq ty least : Nat) (f : List Nat), sendFc s p < 2 ^ 40 - 1 ∧ 304 ≤ f.length ∧
      (trunkPort s p).txKey.length = 32 ∧ portState t q = 3 ∧ engineFailed s = false ∧ engineFailed t = false ∧ t.rd (R.PORT_STATUS.PEER q) = ownMember s ∧ (trunkPort t q).peerPort = p.val ∧
      rxKeyFor t q (s.rd (R.PORT_STATUS.EPOCH p)) = some ((trunkPort s p).txKey, least) ∧ least ≤ sendFc s p ∧ 0 < ty ∧
      headerGood ty (stSenthead ++ (f.drop 48).take 256) = true) ∧
    (∃ (s t : State) (p q : Fin 4) (least : Nat), sendFc s p < least ∧ portState t q = 3 ∧ engineFailed s = false ∧ engineFailed t = false ∧ t.rd (R.PORT_STATUS.PEER q) = ownMember s ∧
      (trunkPort t q).peerPort = p.val ∧ rxKeyFor t q (s.rd (R.PORT_STATUS.EPOCH p)) = some ((trunkPort s p).txKey, least)) :=
  ⟨⟨stSender, stReceiver 0, 0, 0, 0, 4, 0, stFrametext 4, by decide +kernel, by decide +kernel, by decide +kernel, by decide +kernel, by decide +kernel, by decide +kernel, by decide +kernel,
      by decide +kernel, by decide +kernel, by decide +kernel, by decide, by decide +kernel⟩,
    ⟨stSender, stReceiver 1, 0, 0, 1, by decide +kernel, by decide +kernel, by decide +kernel, by decide +kernel, by decide +kernel, by decide +kernel, by decide +kernel⟩⟩
theorem witness_TallyStatusByTheFirstRule : (∃ refused : Bool, refused = true) ∧ (∃ refused cancelled : Bool, refused = false ∧ cancelled = true) ∧
    (∃ done requested : Nat, done = requested) ∧ (∃ done requested : Nat, done ≠ requested ∧ done = 0) ∧ (∃ done requested : Nat, done ≠ requested ∧ done ≠ 0) :=
  ⟨⟨_, rfl⟩, ⟨_, _, rfl, rfl⟩, ⟨0, 0, rfl⟩, ⟨0, 1, by decide⟩, ⟨1, 2, by decide⟩⟩
theorem witness_MembershipCommands :
    (∃ (s : State) (slot member : Fin 8), mayWrite s slot 0x00610014 = true ∧ stacked s = true ∧ crownTarget s member = false) ∧
    (∃ (s : State) (slot : Fin 8), mayWrite s slot 0x00610014 = true ∧ stacked s = true ∧ stackState s ≠ 4) ∧
    (∃ (s : State) (slot : Fin 8), mayWrite s slot 0x00610014 = true ∧ stacked s = false) ∧ (∃ slot : Fin 8, slot.val ≠ 0) :=
  ⟨⟨stCrowned, 0, 7, by decide +kernel, by decide +kernel, by decide +kernel⟩, ⟨stCrowned, 0, by decide +kernel, by decide +kernel, by decide +kernel⟩,
    ⟨withDomains [142] demo, 0, by decide +kernel, by decide +kernel⟩, ⟨1, by decide⟩⟩
def stHeldwrite : State := changeRbp 0 (fun y => { y with tag := 0x10, held := [(0, 5)] }) demo
theorem witness_HoldDiscarded : ∃ (s : State) (port : Fin 2) (k : Fin 8) (offset : Nat) (data : List Nat) (fs : List Fld) (off : Nat)
    (bs : List Nat), windowServed s port k = true ∧ laneBytes s port offset data = (off, bs) ∧ bs ≠ [] ∧
    atomicFields port (off / 4 * 4) = some fs ∧ (rbpSt s port).held ≠ [] ∧ (rbpSt s port).tag ≠ off / 4 * 4 ∧
    (∀ i, i < bs.length → off % 4 + i ≠ 3) :=
  ⟨stHeldwrite, 0, 0, 0x0C, [1, 2], _, 0x0C, [1], by decide +kernel, by decide +kernel, by decide +kernel, rfl, by decide +kernel,
    by decide +kernel, by decide⟩
theorem witness_FrameCountsNeverRepeat : (∃ (s : State) (p : Fin 4), 2 ^ 40 - 1 ≤ sendFc s p) ∧ (∃ s : State, engineFailed s = true) ∧
    (∃ (s : State) (p : Fin 4), sendFc s p < 2 ^ 40 - 1 ∧ engineFailed s = false) :=
  ⟨⟨setFc 3 (2 ^ 40 - 1) State.reset, 3, by decide +kernel⟩, ⟨{ State.reset with causes := [(46, true)] }, by decide +kernel⟩,
    ⟨setFc 3 (2 ^ 40 - 2) State.reset, 3, by decide +kernel, by decide +kernel⟩⟩
theorem witness_BellsThatDoNothing :
    (∃ (s : State) (b : Fin 32), bit (s.rd R.BELL_ENABLE.ENABLE) b = false) ∧ (∃ s : State, dormantState s = 0) ∧
    (∃ (s : State) (b : Fin 32), dormantState s = 3 ∧ bit (s.rd R.BELL_ENABLE.ENABLE) b = true ∧ bellPresent s b = true ∧ 14 ≤ b.val) :=
  ⟨⟨State.reset.wr R.BELL_ENABLE.ENABLE 0, 31, by decide +kernel⟩, ⟨State.reset, by decide +kernel⟩,
    ⟨demo.wr R.DORMANT_STATUS.STATE 3, 14, by decide +kernel, by decide +kernel, by decide +kernel, by decide⟩⟩
theorem witness_EntryWaitsForItsConditions : (∃ s : State, blockers s ≠ 0) ∧ (∃ s : State, dormantState s ≠ 0) :=
  ⟨⟨State.reset, by decide +kernel⟩, ⟨State.reset.wr R.DORMANT_STATUS.STATE 3, by decide +kernel⟩⟩
theorem witness_TransmitFifoFull : ∃ (s : State) (slot : Fin 8) (uart : Fin 4), mayWrite s slot (uartBase uart + 0x0C) = true ∧
    uartServes s uart = true ∧ 64 ≤ (uartOf s uart).tx.length :=
  ⟨putUart 0 { uartOf stUarton 0 with tx := List.replicate 64 1 } stUarton, 0, 0, by decide +kernel, by decide +kernel, by decide +kernel⟩
theorem witness_EmptyReceiveFifo : ∃ (s : State) (slot : Fin 8) (uart : Fin 4), mayRead s slot (uartBase uart + 8) = true ∧ (uartOf s uart).rx = [] :=
  ⟨stUarton, 0, 0, by decide +kernel, by decide +kernel⟩
theorem witness_RecoveryCountersCount : (∃ (s : State) (c : Nat), c < 512 ∧ recValue s c = 0xFFFF) ∧
    (∃ (s : State) (c k : Nat), c < 512 ∧ k < 16 ∧ recValue s c < 0xFFFF ∧ recCell s c k = recValue s c ∧ ∀ j, j < k → recCell s c j ≠ recValue s c) :=
  ⟨⟨putKeep State.reset (0xC00 + 8 * 511 + 7) 0xFFFF0000, 511, by decide, by decide +kernel⟩,
    ⟨putKeep State.reset (0xC00 + 8 * 511 + 7) 0xFFFE0000, 511, 15, by decide, by decide, by decide +kernel, by decide +kernel, by decide +kernel⟩⟩
theorem witness_AbsentAddresses : ∃ (s : State) (slot : Fin 8), (slot.val = 0 ∨ (configured s = true ∧ occupied s slot = true)) ∧ rootOn s slot = true ∧
    ∀ a ∈ [0xB0000, 0xFFFFF, 0x1E0000, 0x1FFFFF, 0x2A0000, 0x2FFFFF, 0x500000, 0x5FFFFF, 0x620000, 0x7FFFFFFF],
      0xB0000 ≤ a ∧ a < 0x100000 ∨ 0x1E0000 ≤ a ∧ a < 0x200000 ∨ 0x2A0000 ≤ a ∧ a < 0x300000 ∨ 0x500000 ≤ a ∧ a < 0x600000 ∨
        0x620000 ≤ a ∧ a < 0x80000000 :=
  ⟨spined, 0, .inl rfl, by decide +kernel, by decide⟩
theorem witness_KeyOfAPage : (∃ (s : State) (r : Nat), regionState s r = 1) ∧ (∃ (s : State) (r : Nat), regionState s r = 2 ∨ regionState s r = 3) :=
  ⟨⟨State.reset.wr (R.SEAL_REGION_STATE.STATE 31) 1, 31, by decide +kernel⟩, ⟨State.reset.wr (R.SEAL_REGION_STATE.STATE 31) 3, 31, by decide +kernel⟩⟩
theorem witness_StepsKeepTheForm : ∃ s t : State, Sound s ∧ step s = .next t := ⟨State.reset, tick State.reset, ⟨rfl, rfl⟩, rfl⟩

/-! Ill-formed commands, one for each kind of check in WellFormed. -/
theorem test_illFormed_word : wellFormed (.unassignedAccess 0 (2 ^ 32) false) = false := by decide
theorem test_illFormed_path : wellFormed (.registerWrite (.window 0 4096) 0 0) = false := by decide
theorem test_illFormed_write : wellFormed (.heldBlockAccess 0 0 (some (0, 16))) = false := by decide
theorem test_illFormed_optWord : wellFormed (.canopyStageDataAccess 0 (some (2 ^ 32))) = false := by decide
theorem test_illFormed_flits : wellFormed (.memRead [2 ^ 72]) = false := by decide
theorem test_illFormed_octets : wellFormed (.indDataCommit 0 [256]) = false := by decide
theorem test_illFormed_words : wellFormed (.sourceCapabilities 0 [2 ^ 32] false) = false := by decide
theorem test_illFormed_frame : wellFormed (.links 0 (List.replicate 319 0)) = false := by decide +kernel
theorem test_illFormed_records : wellFormed (.readSubcode 0 [[256]]) = false := by decide
theorem test_illFormed_seed : wellFormed (.rescanComplete ⟨some ⟨[256], [], false⟩, []⟩) = false := by decide
theorem test_illFormed_codes : wellFormed (.domainStepComplete 91 ⟨true, [(0, 4096)]⟩) = false := by decide
theorem test_illFormed_request : wellFormed (.standardRequest 0 .usb2 (.setAddress (2 ^ 16))) = false := by decide
theorem test_illFormed_splits : wellFormed (.ttSplitDiscard ⟨0, 1, ⟨0, 0, [[256]], 0, 0⟩⟩) = false := by decide
theorem test_illFormed_gone : wellFormed (.taprootDeviceDetach 0 (.place 16 0 0)) = false := by decide
theorem test_illFormed_counts : wellFormed (.u1U2Entry (.tile 0) ⟨.idle 0, ⟨2 ^ 32, 0, 0⟩⟩) = false := by decide
theorem test_illFormed_span : wellFormed (.scarBegin ⟨0, 1, [], []⟩) = false := by decide
theorem test_illFormed_block : wellFormed (.blockDecode 0 ⟨[], 1, [], [], false⟩) = false := by decide
theorem test_illFormed_identity : wellFormed (.identify 0 (.found (2 ^ 32) 0 0 0 0 0 0 0 true true)) = false := by decide
theorem test_illFormed_toc : wellFormed (.readToc 0 [⟨0, 0, 0, 2 ^ 32⟩]) = false := by decide
theorem test_wellFormed_some : [Instr.unassignedAccess 0 (2 ^ 32 - 1) false, .registerWrite (.window 0 4095) 0 15, .memRead [2 ^ 72 - 1]].all wellFormed = true := by
  decide

/-! Published values of the standard functions: FIPS 180-4, FIPS 197 (C.3), CRC-32's check value, and RFC 6979 (A.2.5, SHA-256, "sample"). -/
theorem test_sha256_abc : (sha256 [0x61, 0x62, 0x63]).take 4 = [0xba, 0x78, 0x16, 0xbf] := by decide +kernel
theorem test_aes256_fips197 : aes256 (List.range 32) ((List.range 16).map (17 * ·)) =
    [0x8e, 0xa2, 0xb7, 0xca, 0x51, 0x67, 0x45, 0xbf, 0xea, 0xfc, 0x49, 0x90, 0x4b, 0x49, 0x60, 0x89] := by decide +kernel
theorem test_crc32_check : crc32 [0x31, 0x32, 0x33, 0x34, 0x35, 0x36, 0x37, 0x38, 0x39] = 0xCBF43926 := by decide +kernel
theorem test_ecdsa_p256 : ecdsaSign 0xC9AFA9D845BA75166B5C215767B1D6934E50C3DB36E89B127B8A622B120F6721
    0xA6E3C57DD01ABE90086538398355DD4C3B17AA873382B0F24D6129493D8AAD60 (beVal (sha256 [0x73, 0x61, 0x6D, 0x70, 0x6C, 0x65])) =
    (0xEFD48B2AACB6A8FD1140DD9CD45E81D69D2C877B56AAF991C34D0EA84EAF3716, 0xF7CB1C942D657C41D436C7A1B6E29F65F3E900DBB9AFF4064DC4AB2F843ACDA8) := by
  decide +kernel

/-! Table 25-2's counts, and the first bytes of ECMA-130's scrambling sequence (annex B); a code with 4 parity symbols
puts two wrong ones right (R414). -/
def ballsWhere (p : Ball → Bool) : Nat :=
  ((List.range 38).map (fun i => ((List.range 38).filter (fun j => p (ballAt (i + 1) (j + 1)))).length)).foldl (· + ·) 0
theorem test_balls_vss : ballsWhere (fun b => b.name = "VSS") = 392 := by decide +kernel
theorem test_balls_core : ballsWhere (fun b => b.name = "VDD_CORE") = 120 := by decide +kernel
theorem test_balls_signals : ballsWhere (fun b => !b.isSupply) = 742 := by decide +kernel
theorem test_scramble : unscramble 1 (List.replicate 12 0) = [0x01, 0x80, 0x00, 0x60, 0x00, 0x28, 0x00, 0x1E, 0x80, 0x08, 0x60, 0x06] := by
  decide +kernel
theorem test_rs_corrects : (let w := [1, 2, 3] ++ rsParity gf256 4 [1, 2, 3]
    rsDecode gf256 4 ((w.set 0 77).set 5 9) [] = some w) := by decide +kernel

/-! Table 02-25: the worked stream is accepted on an OL72-F, and refused by check 4 with another digest. -/
def workedBody : List Nat :=
  [0x43, 0x4E, 0x50, 0x59, 1, 0, 0x40, 0, 0xE0, 0, 0, 0, 0x10, 0, 5, 0, 1, 1, 0, 0] ++ List.replicate 12 0 ++
  [0x42, 0x45, 0x4E, 0x43, 0x48, 0x2D, 0x4F, 0x4E, 0x45] ++ List.replicate 23 0 ++ [1, 0xFF, 0x10, 0, 2, 0, 0, 0] ++
  [0, 0, 1, 0, 0x40, 6, 4, 1] ++ List.replicate 8 0 ++ [1, 0, 0, 0, 0xC0, 5, 3, 0] ++ List.replicate 8 0 ++
  [3, 0, 8, 0, 2, 0, 0, 0, 0, 1, 1, 0, 0, 3, 0, 0, 1, 2, 1, 1, 0, 3, 0, 0, 4, 0, 0x10, 0, 1, 0, 0, 0] ++
  [0, 3, 0xA5, 0, 0x1A, 4, 0x3C, 0x10, 0xFA, 0, 0x3C, 0, 0, 0, 0, 0, 5, 0, 8, 0, 1, 0, 0, 0, 0, 0, 0, 8, 0, 0, 0, 0] ++
  [7, 0, 0x10, 0, 1, 0, 0, 0, 0, 0, 0, 0, 0, 1, 0, 0, 0, 0x10, 0, 0, 0, 0, 0, 0]
def accepts (bs : List Nat) : Bool := match runChecks bs.take (2 ^ 20) 0x3F 0 0x40000000 with | .accepted _ => true | .refused _ _ => false
theorem test_workedStream_length : workedBody.length = 192 := by decide +kernel
theorem test_workedStream_accepted : accepts (workedBody ++ sha256 workedBody) = true := by decide +kernel
theorem test_workedStream_digest :
    runChecks (workedBody ++ List.replicate 32 0).take (2 ^ 20) 0x3F 0 0x40000000 = .refused 0x04 192 := by decide +kernel

end Sys2Proof.Tests
end

section
/-! PROOFS. An access of a slot to a register of this member, from its arrival to its answer: where its block and its root
are reached, which view serves it, and what it answers. -/
namespace Sys2Proof.Machine

/-- A command's own answer is taken off what it emitted. -/
@[simp] theorem answered_emit_answer (t : State) (slot status value : Nat) :
    answered (t.emit (.answer slot status value)) = (some status, value, t) := rfl

@[simp] theorem giveAnswer_slot (slot addr : Nat) (write : Option (Nat × Nat)) (status value : Nat) (t : State) :
    giveAnswer ⟨slot, addr, write, .slot⟩ (some status, value, t) = t.emit (.answer slot status value) := rfl

theorem drumOf_eq_none_of_lt {a : Nat} (h : a < 0x300000) : drumOf a = none := by
  have : ¬ 0x300000 ≤ a := by omega
  simp [drumOf, this]

/-- Only addresses from 0x80000000 on lead to another member (R505). -/
theorem memberOf_eq_none_of_lt {a : Nat} (s : State) (h : a < 0x80000000) : memberOf s a = none := by
  simp [memberOf, h]

/-- Bits [1:0] of an address count as 0 (R549), also for what holds its block. -/
theorem heldBlock_word (s : State) (a : Nat) : heldBlock s (a / 4 * 4) = heldBlock s a := by
  have h : a / 4 * 4 % 2 ^ 32 / 4 * 4 = a % 2 ^ 32 / 4 * 4 := by omega
  simp only [heldBlock, h]

theorem viewOf_word (s : State) (slot a : Nat) (write : Bool) : viewOf s slot (a / 4 * 4) write = viewOf s slot a write := by
  have h : a / 4 * 4 / 4 * 4 = a / 4 * 4 := by omega
  simp only [viewOf, heldBlock_word, h]

/-- An access whose root and block are reached meets the view of the shared blocks, below their end. -/
theorem viewOf_shared {s : State} {slot a : Nat} (write : Bool)
    (hslot : slot = 0 ∨ (configured s = true ∧ occupied s slot = true)) (hroot : rootOn s slot = true)
    (hheld : heldBlock s a = false) (hblock : noBlock s (a / 4 * 4) = false) (ha : a < 0xA0000) :
    viewOf s slot a write = sharedView s slot (a / 4 * 4) write := by
  have hword : a / 4 * 4 < 0xA0000 := by omega
  have hgrove : (slot != 0 && !(configured s && occupied s slot)) = false := by
    rcases hslot with rfl | ⟨hc, ho⟩
    · rfl
    · simp [hc, ho]
  simp only [viewOf, hroot, hheld, hgrove, hblock, hword, Bool.not_true, Bool.or_false, Bool.false_eq_true, if_false, if_true]

theorem wordAddr_of_lt {a : Nat} (h : a < 0x80000000) : a % 2 ^ 32 / 4 * 4 = a / 4 * 4 := by omega

/-- Below 0x80000000 a slot reads its own member's register, wherever the access comes from. -/
theorem readReg_local {a : Nat} (slot port : Nat) (via : AccVia) (s : State) (h : a < 0x80000000) :
    readReg slot a port via s = localRead slot (a / 4 * 4) s := by
  simp only [readReg, wordAddr_of_lt h, memberOf_eq_none_of_lt s (show a / 4 * 4 < 0x80000000 by omega)]

/-- Below 0x80000000 a slot writes its own member's register, wherever the access comes from. -/
theorem writeReg_local {a : Nat} (slot v be port : Nat) (via : AccVia) (s : State) (h : a < 0x80000000) :
    writeReg slot a v be port via s = localWrite slot (a / 4 * 4) v be s := by
  simp only [writeReg, wordAddr_of_lt h, memberOf_eq_none_of_lt s (show a / 4 * 4 < 0x80000000 by omega)]

/-- An access of a slot is carried out at once where its root and its block are reached. -/
theorem takeAcc_reached {s : State} {slot a : Nat} (write : Option (Nat × Nat)) (hroot : rootOn s slot = true)
    (hheld : heldBlock s a = false) : takeAcc ⟨slot, a, write, .slot⟩ s = runAcc ⟨slot, a, write, .slot⟩ s := by
  simp [takeAcc, waitsAcc, sourceOn, hroot, hheld]

/-- A slot's read of an address of this member, once nothing holds it. -/
theorem takeAcc_read {s : State} {slot a : Nat} (hroot : rootOn s slot = true) (hheld : heldBlock s a = false)
    (ha : a < 0x80000000) :
    takeAcc ⟨slot, a, none, .slot⟩ s = giveAnswer ⟨slot, a, none, .slot⟩ (localRead slot (a / 4 * 4) s) := by
  simp only [takeAcc_reached none hroot hheld, runAcc, readReg_local _ _ _ _ ha]

/-- A slot's write of an address of this member, once nothing holds it. -/
theorem takeAcc_write {s : State} {slot a : Nat} (v be : Nat) (hroot : rootOn s slot = true) (hheld : heldBlock s a = false)
    (ha : a < 0x80000000) :
    takeAcc ⟨slot, a, some (v, be), .slot⟩ s =
      giveAnswer ⟨slot, a, some (v, be), .slot⟩ (localWrite slot (a / 4 * 4) v be s) := by
  simp only [takeAcc_reached (some (v, be)) hroot hheld, runAcc, writeReg_local _ _ _ _ _ _ ha]

/-- A served read that is no command of its own and that the FAULT block does not answer. -/
theorem localRead_served {s : State} {slot a : Nat} (hown : ownRead (Fin.ofNat 8 slot) a s = none)
    (hfault : faultOffset a = false) (hview : viewOf s slot a false = .served) :
    localRead slot a s = (some 0, servedRead slot a (activity s)) := by
  simp only [localRead, hown, guardRead_served (show mayRead s slot a = true by simp [mayRead, hview]), hfault]
  rfl

/-- A write, no command of its own, that meets nothing: it is answered and has no effect (R2, R9). -/
theorem localWrite_nothing {s : State} {slot a v be : Nat}
    (hown : ownCommand (Fin.ofNat 8 slot) a (mergedWord s (regsAt s slot a) v be) s = none)
    (hview : viewOf s slot a true = .nothing) :
    localWrite slot a v be s = (some (idleStatus s a), 0, activity s) := by
  simp only [localWrite, hown, guardWrite_otherwise.2.1 hview, answered_emit_answer]

end Sys2Proof.Machine
end

section
/-! PROOFS. The IDENT block (R10, Tables 00-4, 00-5 and 26-3), at the addresses below 0x10000. -/
namespace Sys2Proof.Machine

/-- The IDENT block stands in every variant. -/
theorem noBlock_ident {a : Nat} (s : State) (h : a < 0x10000) : noBlock s a = false := by
  have hb : a / 0x10000 = 0 := by omega
  have hdrum : drumOf a = none := drumOf_eq_none_of_lt (by omega)
  simp [noBlock, hb, hdrum]

theorem ownRead_ident {a : Nat} (k : Fin 8) (s : State) (h : a < 0x10000) : ownRead k a s = none := by
  have hstage : a ≠ 0x10014 := by omega
  have huart : ¬ 0x230000 ≤ a := by omega
  have hdrum : drumOf a = none := drumOf_eq_none_of_lt (by omega)
  simp [ownRead, hstage, huart, hdrum]

theorem ownCommand_ident {a : Nat} (k : Fin 8) (w : Nat) (s : State) (h : a < 0x10000) : ownCommand k a w s = none := by
  have hb : a / 0x10000 = 0 := by omega
  have hdrum : drumOf a = none := drumOf_eq_none_of_lt (by omega)
  simp [ownCommand, hb, hdrum]

section
variable {s : State} {slot a : Nat} (ha : a < 0x10000)
  (hslot : slot = 0 ∨ (configured s = true ∧ occupied s slot = true)) (hroot : rootOn s slot = true)
  (hheld : heldBlock s a = false)
include ha hslot hroot hheld

/-- A grove's reads of IDENT are served, and its writes meet nothing. -/
theorem viewOf_ident (write : Bool) : viewOf s slot (a / 4 * 4) write = if write then .nothing else .served := by
  have hword : a / 4 * 4 < 0x10000 := by omega
  have hb : a / 4 * 4 / 0x10000 = 0 := by omega
  rw [viewOf_word, viewOf_shared write hslot hroot hheld (noBlock_ident s hword) (by omega)]
  simp only [sharedView, hb]

/-- A grove reads the word of IDENT for the variant, and the access itself is all that happens. -/
theorem takeAcc_ident_read :
    takeAcc ⟨slot, a, none, .slot⟩ s = (activity s).emit (.answer slot 0 (identWord s (a / 4 * 4))) := by
  have hword : a / 4 * 4 < 0x10000 := by omega
  have hb : a / 4 * 4 / 0x10000 = 0 := by omega
  have hserved : servedRead slot (a / 4 * 4) (activity s) = (identWord s (a / 4 * 4), activity s) := by
    rw [servedRead, if_pos hb]; rfl
  have hread := localRead_served (ownRead_ident (Fin.ofNat 8 slot) s hword) (by simp [faultOffset, hb])
    (viewOf_ident ha hslot hroot hheld false)
  rw [takeAcc_read hroot hheld (by omega), hread, hserved, giveAnswer_slot]

/-- A grove's write to IDENT is answered OK, and the access itself is all that happens. -/
theorem takeAcc_ident_write (v be : Nat) :
    takeAcc ⟨slot, a, some (v, be), .slot⟩ s = (activity s).emit (.answer slot 0 0) := by
  have hword : a / 4 * 4 < 0x10000 := by omega
  have hidle : idleStatus s (a / 4 * 4) = 0 := by
    rw [idleStatus, noBlock_ident s (by omega)]; rfl
  rw [takeAcc_write v be hroot hheld (by omega),
    localWrite_nothing (ownCommand_ident _ _ s hword) (viewOf_ident ha hslot hroot hheld true), hidle, giveAnswer_slot]

end

/-- Settles O7: an access to IDENT that nothing holds reaches `identWord`, whose four words with a value are those of the
tables; a write meets nothing. -/
theorem identRegisters : Obligations.IdentRegisters := by
  intro s slot a ha hslot hroot hheld
  refine ⟨?_, fun v be => completes_ran (takeAcc_ident_write ha hslot hroot hheld v be)⟩
  refine (completes_ran (takeAcc_ident_read ha hslot hroot hheld)).trans ?_
  congr 4
  generalize a / 4 * 4 = w
  by_cases h0 : w = 0x00
  · subst h0; rfl
  by_cases h4 : w = 0x04
  · subst h4; simp only [identWord]; cases s.variant <;> rfl
  by_cases h8 : w = 0x08
  · subst h8; rfl
  by_cases h10 : w = 0x10
  · subst h10; simp only [identWord]; cases s.variant <;> rfl
  simp only [identWord, h0, h4, h8, h10, if_false]
  split <;> simp_all

end Sys2Proof.Machine
end

section
/-! PROOFS. The code of a beat (R76 to R78): the syndrome and the parity of a stored beat are those of the bits that are
wrong in it, since both are linear and a beat as written has neither. -/
namespace Sys2Proof.Machine

section
variable {d : Nat} (hd : d < 2 ^ 64)
include hd

theorem synOf_beatOf_xor (e : Nat) : synOf (beatOf d ^^^ e) = synOf e := by
  rw [synOf_xor, (beatOf_syndrome d hd).1, Nat.zero_xor]

theorem oddOf_beatOf_xor (e : Nat) : oddOf (beatOf d ^^^ e) = oddOf e := by
  have hlt : oddOf e < 2 := Nat.mod_lt _ (by decide)
  rw [oddOf_xor, (beatOf_syndrome d hd).2, Nat.zero_add, Nat.mod_eq_of_lt hlt]

theorem beatOf_xor_data (e : Nat) : (beatOf d ^^^ e) % 2 ^ 64 = d ^^^ e % 2 ^ 64 := by
  rw [xor_mod, (beatOf_parts d hd).1]

/-- A beat as written decodes clean. -/
theorem beatDecode_beatOf : beatDecode (beatOf d) = .clean d := by
  rw [beatDecode_cases, if_pos (beatOf_syndrome d hd), (beatOf_parts d hd).1]

/-- Any one wrong bit of a beat is put right (R77): a wrong check bit leaves the data, and a wrong data bit is the one whose
code position the syndrome gives. -/
theorem beatDecode_beatOf_flip {k : Nat} (hk : k < 72) : beatDecode (beatOf d ^^^ 2 ^ k) = .corrected d := by
  obtain ⟨hodd, hplace⟩ := flip_one k hk
  rw [beatDecode_cases, synOf_beatOf_xor hd, oddOf_beatOf_xor hd, beatOf_xor_data hd, if_neg (by omega), if_neg (by omega)]
  by_cases hcheck : synOf (2 ^ k) &&& (synOf (2 ^ k) - 1) = 0
  · rw [if_pos hcheck] at hplace
    rw [if_pos hcheck, hplace, Nat.xor_zero]
  · rw [if_neg hcheck] at hplace
    obtain ⟨hfound, hdata⟩ := hplace
    have hbit : 2 ^ k % 2 ^ 64 = 2 ^ k := Nat.mod_eq_of_lt (Nat.pow_lt_pow_right (by decide) hdata)
    rw [if_neg hcheck, hfound, hbit]
    simp only [Nat.xor_assoc, Nat.xor_self, Nat.xor_zero]

/-- Any two wrong bits of a beat are found (R78): the parity is even again, and no two bits share a code position. -/
theorem beatDecode_beatOf_flip_two {j k : Nat} (hjk : j < k) (hk : k < 72) :
    beatDecode (beatOf d ^^^ 2 ^ j ^^^ 2 ^ k) = .uncorrectable := by
  have hodd : oddOf (2 ^ j ^^^ 2 ^ k) = 0 := by
    rw [oddOf_xor, (flip_one j (by omega)).1, (flip_one k hk).1]
  have hsyn : synOf (2 ^ j ^^^ 2 ^ k) ≠ 0 := by
    rw [synOf_xor]; exact flip_two k hk j hjk
  rw [Nat.xor_assoc, beatDecode_cases, synOf_beatOf_xor hd, oddOf_beatOf_xor hd, if_neg fun h => hsyn h.1, if_pos hodd]

end

/-- Settles O10: a beat as written has no syndrome, one wrong bit is named by its own, and two wrong bits leave a syndrome
of even parity. -/
theorem oneWrongBitIsPutRight : Obligations.OneWrongBitIsPutRight :=
  fun _ hd => ⟨beatDecode_beatOf hd, fun _ hk => beatDecode_beatOf_flip hd hk,
    fun _ _ hjk hk => beatDecode_beatOf_flip_two hd hjk hk⟩

end Sys2Proof.Machine
end

section
/-! PROOFS. A plain SDRAM line (R76, R77), by its beats: what the decoder makes of each is what the line reads as. -/
namespace Sys2Proof.Machine

/-- The word of beat `i` in the bytes of a line. -/
def lineWord (bs : List Nat) (i : Nat) : Nat := leVal ((bs.drop (8 * i)).take 8)

/-- A stored line holds the code word of each of its words. -/
theorem beatAt_storeLine_same (s : State) (a : Nat) (bs : List Nat) {i : Nat} (hi : i < 8) :
    beatAt (storeLine a bs s) a i = beatOf (lineWord bs i) := by
  rw [beatAt_store s a a i bs hi, if_pos rfl, lineWord]

/-- A store of a line leaves the beats of every other line. -/
theorem beatAt_storeLine_other (s : State) {a b : Nat} (bs : List Nat) {k : Nat} (hline : b / 64 ≠ a / 64) (hk : k < 8) :
    beatAt (storeLine a bs s) b k = beatAt s b k := by
  rw [beatAt_store s a b k bs hk, if_neg hline]

theorem beatDecode_storeLine (s : State) (a : Nat) (bs : List Nat) {i : Nat} (hi : i < 8) :
    beatDecode (beatAt (storeLine a bs s) a i) = .clean (lineWord bs i) := by
  rw [beatAt_storeLine_same s a bs hi, beatDecode_beatOf (d := lineWord bs i) (lineWord_lt bs i)]

/-- A stored line with one bit of its beat `k` wrong. -/
def flippedLine (a : Nat) (bs : List Nat) (k j : Nat) (s : State) : State :=
  putBeat (storeLine a bs s) a k (beatAt (storeLine a bs s) a k ^^^ 2 ^ j)

/-- The beat with the wrong bit is put right, and the others are clean. -/
theorem beatDecode_flippedLine (s : State) (a : Nat) (bs : List Nat) {k j i : Nat} (hk : k < 8) (hj : j < 72) (hi : i < 8) :
    beatDecode (beatAt (flippedLine a bs k j s) a i) =
      if i = k then .corrected (lineWord bs i) else .clean (lineWord bs i) := by
  rw [flippedLine, beatAt_put _ a k _ a i hk hi]
  by_cases hik : i = k
  · subst hik
    have hlt : beatOf (lineWord bs i) ^^^ 2 ^ j < 2 ^ 72 :=
      Nat.xor_lt_two_pow (beatOf_lt _) (Nat.pow_lt_pow_right (by decide) hj)
    rw [if_pos ⟨rfl, rfl⟩, if_pos rfl, beatAt_storeLine_same s a bs hi, Nat.mod_eq_of_lt hlt,
      beatDecode_beatOf_flip (d := lineWord bs i) (lineWord_lt bs i) hj]
  · rw [if_neg fun h => hik h.2, if_neg hik, beatDecode_storeLine s a bs hi]

/-- A line without an uncorrectable beat reads as its bytes, without a failure, and is repaired. -/
theorem readPlain_of_plainBytes {s : State} {a : Nat} {bs : List Nat} (h : plainBytes s a = some bs) :
    readPlain a s = (bs, 0, repairPlain a s) := by
  rw [readPlain, h]

section
variable (s : State) (a : Nat) {bs : List Nat} (hlen : bs.length = 64) (hbytes : ∀ b ∈ bs, b < 256)
include hlen hbytes

/-- A stored line reads as stored and leaves the state. -/
theorem readPlain_storeLine : readPlain a (storeLine a bs s) = (bs, 0, storeLine a bs s) := by
  have hread := plainBytes_of (storeLine a bs s) a bs hlen hbytes fun i hi => .inl (beatDecode_storeLine s a bs hi)
  rw [readPlain_of_plainBytes hread, repairPlain_clean a _ fun i hi => ⟨_, beatDecode_storeLine s a bs hi⟩]

/-- A stored line with one wrong bit reads as stored. -/
theorem readPlain_flippedLine {k j : Nat} (hk : k < 8) (hj : j < 72) :
    readPlain a (flippedLine a bs k j s) = (bs, 0, repairPlain a (flippedLine a bs k j s)) := by
  refine readPlain_of_plainBytes (plainBytes_of _ a bs hlen hbytes fun i hi => ?_)
  rw [beatDecode_flippedLine s a bs hk hj hi]
  by_cases hik : i = k
  · exact .inr (if_pos hik)
  · exact .inl (if_neg hik)

end

/-- Settles O11: every beat of a stored line decodes clean, and one wrong bit of a beat decodes to the same word, corrected;
beats of other lines are not touched. -/
theorem plainLinesReadBack : Obligations.PlainLinesReadBack := by
  intro s a bs hlen hbytes
  refine ⟨readPlain_storeLine s a hlen hbytes, fun b k hline hk => beatAt_storeLine_other s bs hline hk, fun k j hk hj => ?_⟩
  have hread := readPlain_flippedLine s a hlen hbytes hk hj
  exact ⟨congrArg Prod.fst hread, congrArg (fun r => r.2.1) hread⟩

end Sys2Proof.Machine
end

section
/-! PROOFS. A sealed line (R86 to R89, R93, R96): a stored vector is found clean, so a read gives back the ciphertext and the
MINOR that were stored, and whether it delivers them turns on the stored tag alone. -/
namespace Sys2Proof.Machine

section
variable {keys : Nat × Nat} {major r a : Nat} {s : State} {d : Nat}
  (hclean : secdedDecode 575 565 10 (lineVector s a % 2 ^ 565) (lineVector s a / 2 ^ 565) = .clean d)
include hclean

/-- A clean line under its own tag is decrypted, and the read changes nothing (R93, steps 3 to 5). -/
theorem openLine_of_tag_eq
    (htag : lineTag keys.1 keys.2 major (bits d 556 9) r a (leBytes 64 (d % 2 ^ 512)) = bits d 512 44) :
    openLine keys major r a s =
      (⟨xorBytes (leBytes 64 (d % 2 ^ 512)) (lineStream keys.1 major (bits d 556 9) r a), bits d 556 9, 0⟩, s) := by
  simp only [openLine, hclean, if_pos htag]

/-- A clean line under another tag is delivered as zeros, with source 40 (Table 05-3). -/
theorem openLine_of_tag_ne
    (htag : lineTag keys.1 keys.2 major (bits d 556 9) r a (leBytes 64 (d % 2 ^ 512)) ≠ bits d 512 44) :
    (openLine keys major r a s).1 = ⟨List.replicate 64 0, bits d 556 9, 40⟩ := by
  simp only [openLine, hclean, if_neg htag]

end

section
variable {keys : Nat × Nat} {major minor r a tag : Nat} {cipher : List Nat} (s : State)
  (hcipher : IsBytes 64 cipher) (hminor : minor < 512) (htag : tag < 2 ^ 44)
include hcipher hminor htag

/-- The vector of Table 05-1, once stored, decodes clean, and its fields are those that it was built from. -/
theorem storedVector_decodes : ∃ d : Nat,
    (let v := lineVector (storeVector a (sealedVector cipher tag minor) s) a
     secdedDecode 575 565 10 (v % 2 ^ 565) (v / 2 ^ 565) = .clean d) ∧
    leBytes 64 (d % 2 ^ 512) = cipher ∧ bits d 512 44 = tag ∧ bits d 556 9 = minor := by
  obtain ⟨hlen, hbytes⟩ := hcipher
  obtain ⟨hsize, hdecode, hdata, htagField, hminorField⟩ := sealedVector_parts cipher hlen tag minor hminor htag
  have hback : leBytes 64 (leVal cipher) = cipher := hlen ▸ leBytes_val cipher hbytes
  exact ⟨_, by rw [lineVector_store s a _ hsize]; exact hdecode, by rw [hdata]; exact hback, htagField, hminorField⟩

/-- A stored vector that carries the tag of its ciphertext opens to what the keystream makes of it. -/
theorem openLine_storeVector (hright : lineTag keys.1 keys.2 major minor r a cipher = tag) :
    openLine keys major r a (storeVector a (sealedVector cipher tag minor) s) =
      (⟨xorBytes cipher (lineStream keys.1 major minor r a), minor, 0⟩,
        storeVector a (sealedVector cipher tag minor) s) := by
  obtain ⟨d, hclean, hcipherField, htagField, hminorField⟩ := storedVector_decodes (a := a) s hcipher hminor htag
  rw [openLine_of_tag_eq hclean (by rw [hcipherField, htagField, hminorField]; exact hright), hcipherField, hminorField]

/-- A stored vector that carries any other tag reads as zeros, with source 40. -/
theorem openLine_storeVector_forged (hwrong : lineTag keys.1 keys.2 major minor r a cipher ≠ tag) :
    (openLine keys major r a (storeVector a (sealedVector cipher tag minor) s)).1 =
      ⟨List.replicate 64 0, minor, 40⟩ := by
  obtain ⟨d, hclean, hcipherField, htagField, hminorField⟩ := storedVector_decodes (a := a) s hcipher hminor htag
  rw [openLine_of_tag_ne hclean (by rw [hcipherField, htagField, hminorField]; exact hwrong), hminorField]

end

/-- A store of a sealed line leaves the beats of every other line. -/
theorem beatAt_storeVector_other (s : State) {a b : Nat} (v : Nat) {k : Nat} (hline : b / 64 ≠ a / 64) (hk : k < 8) :
    beatAt (storeVector a v s) b k = beatAt s b k := by
  rw [storeVector, beatAt_fold a _ 8 (Nat.le_refl 8) s b k hk, if_neg fun h => hline h.1]

/-- The tag of a poisoned line (R96) still has 44 bits, and is not the line's own. -/
theorem poisonTag_lt_and_ne {tag : Nat} (h : tag < 2 ^ 44) : tag ^^^ (2 ^ 44 - 1) < 2 ^ 44 ∧ tag ≠ tag ^^^ (2 ^ 44 - 1) := by
  refine ⟨Nat.xor_lt_two_pow h (by decide), fun heq => ?_⟩
  have hmask : tag ^^^ tag = 2 ^ 44 - 1 := calc
    tag ^^^ tag = tag ^^^ (tag ^^^ (2 ^ 44 - 1)) := congrArg (tag ^^^ ·) heq
    _ = 2 ^ 44 - 1 := by rw [← Nat.xor_assoc, Nat.xor_self, Nat.zero_xor]
  rw [Nat.xor_self] at hmask
  exact absurd hmask (by decide)

theorem isBytes_sealedCipher {plain : List Nat} (hplain : IsBytes 64 plain) (key major minor r a : Nat) :
    IsBytes 64 (xorBytes plain (lineStream key major minor r a)) :=
  hplain.xor (lineStream_bytes key major minor r a)

/-- The keystream of a line undoes itself. -/
theorem xorBytes_lineStream_twice {plain : List Nat} (hplain : IsBytes 64 plain) (key major minor r a : Nat) :
    xorBytes (xorBytes plain (lineStream key major minor r a)) (lineStream key major minor r a) = plain :=
  xorBytes_back plain _ (Nat.le_of_eq (hplain.1.trans (lineStream_bytes key major minor r a).1.symm))

section
variable (s : State) (keys : Nat × Nat) (major : Nat) {minor : Nat} (r a : Nat) {plain : List Nat}
  (hplain : IsBytes 64 plain) (hminor : minor < 512)
include hplain hminor

/-- A sealed line opens to its plaintext and MINOR, and the read changes nothing. -/
theorem openLine_sealLine :
    openLine keys major r a (sealLine keys major minor r a plain false s) =
      (⟨plain, minor, 0⟩, sealLine keys major minor r a plain false s) := by
  have hcipher := isBytes_sealedCipher hplain keys.1 major minor r a
  refine (openLine_storeVector s hcipher hminor (lineTag_lt _ _ _ _ _ _ _ hcipher.1) rfl).trans ?_
  rw [xorBytes_lineStream_twice hplain]
  rfl

/-- A poisoned line fails its tag, whatever it was sealed from. -/
theorem openLine_sealLine_poisoned :
    (openLine keys major r a (sealLine keys major minor r a plain true s)).1 = ⟨List.replicate 64 0, minor, 40⟩ := by
  have hcipher := isBytes_sealedCipher hplain keys.1 major minor r a
  obtain ⟨hlt, hne⟩ := poisonTag_lt_and_ne (lineTag_lt keys.1 keys.2 major minor r a _ hcipher.1)
  exact openLine_storeVector_forged s hcipher hminor hlt hne

end

/-- Settles O12: the vector that sealing stores decodes clean to its own ciphertext, tag and MINOR; its tag is the right one,
or when poisoned a wrong one, and beats of other lines are not touched. -/
theorem sealedLinesReadBack : Obligations.SealedLinesReadBack := by
  intro s keys major minor r a plain hlen hbytes hminor
  have hplain : IsBytes 64 plain := ⟨hlen, hbytes⟩
  exact ⟨openLine_sealLine s keys major r a hplain hminor, openLine_sealLine_poisoned s keys major r a hplain hminor,
    fun _ _ _ hline hk => beatAt_storeVector_other s _ hline hk⟩

end Sys2Proof.Machine
end

section
/-! PROOFS. The key slot of a page (R99). -/
namespace Sys2Proof.Machine

theorem underNew_of_sealed {s : State} {r : Nat} (page : Nat) (ahead : Bool) (h : regionState s r = 1) :
    underNew s r page ahead = true := by
  simp [underNew, h]

/-- In a region that is not SEALED, only WATERMARK and AHEAD put a page under NEW. -/
theorem underNew_iff_of_not_sealed {s : State} {r : Nat} (page : Nat) (ahead : Bool) (h : regionState s r ≠ 1) :
    underNew s r page ahead = true ↔ pageIn s r page < watermark s r ∨ ahead = true := by
  simp [underNew, h]

/-- Settles O29: `pageKeys` takes the NEW slot exactly for the pages that `underNew` names, in each STATE of R99. -/
theorem keyOfAPage : Obligations.KeyOfAPage := by
  intro s r page ahead
  refine ⟨fun hsealed => if_pos (underNew_of_sealed page ahead hsealed), fun hwalked => ?_⟩
  have hnot : regionState s r ≠ 1 := by omega
  simp only [pageKeys, underNew_iff_of_not_sealed page ahead hnot]

end Sys2Proof.Machine
end

section
/-! PROOFS. The restart of R116 and R153: the register fields it keeps are those of `keptKey`, the others read their reset
values unless the boot record shows in them. -/
namespace Sys2Proof.Machine

/-- The fields in which a restart shows the boot record (Table 08-4). -/
def bootShown : List Nat :=
  [R.CANOPY_NEXT.AREA.key, R.HW_STATUS.CAUSE.key, R.HW_STATUS.TRIAL_STATE.key, R.HW_STATUS.TRIAL_SLOT.key]

theorem restartState_rd_of_notMem_bootShown (s : State) {f : Fld} (h : f.key ∉ bootShown) :
    (restartState s).rd f = if keptKey f.key then s.rd f else f.reset := by
  simp only [bootShown, List.mem_cons, List.not_mem_nil, or_false, not_or] at h
  obtain ⟨harea, hcause, htrial, hslot⟩ := h
  obtain ⟨hkept, hcleared⟩ := restartState_rd s f harea hcause htrial hslot
  split
  case isTrue hk => exact hkept hk
  case isFalse hk => exact hcleared (Bool.eq_false_iff.2 hk)

/-- What shows the boot record is no field that a restart keeps. -/
theorem keptKey_eq_false_of_mem_bootShown : ∀ k ∈ bootShown, keptKey k = false := by decide

theorem restartState_rd_kept (s : State) {f : Fld} (h : keptKey f.key = true) : (restartState s).rd f = s.rd f := by
  have hboot : f.key ∉ bootShown := fun hmem => by simp [keptKey_eq_false_of_mem_bootShown _ hmem] at h
  rw [restartState_rd_of_notMem_bootShown s hboot, if_pos h]

theorem restartState_rd_cleared (s : State) {f : Fld} (h : keptKey f.key = false) (hboot : f.key ∉ bootShown) :
    (restartState s).rd f = f.reset := by
  simp [restartState_rd_of_notMem_bootShown s hboot, h]

theorem isSticky_restartState (s : State) {c : Nat} (hc : c < 512) : isSticky (restartState s) c = isSticky s c := by
  simp only [isSticky, State.isSet, restartState_rd_kept s (sticky_kept c hc).1]

/-- The rings start afresh: every word of RING_k reads 0. -/
theorem ringBytes_restartState (s : State) {k : Nat} (hk : k < 8) : ringBytes (restartState s) k = List.replicate 32 0 := by
  have hword : ∀ i ∈ List.range 8, leBytes 4 ((restartState s).rd (R.RING.BYTES k i)) = List.replicate 4 0 := by
    intro i hi
    obtain ⟨hcleared, harea, hcause, htrial, hslot⟩ := ring_not_kept k hk i (List.mem_range.1 hi)
    have hboot : (R.RING.BYTES k i).key ∉ bootShown := by simp [bootShown, harea, hcause, htrial, hslot]
    rw [restartState_rd_cleared s hcleared hboot]
    show leBytes 4 0 = List.replicate 4 0
    decide
  calc ringBytes (restartState s) k
      = ((List.range 8).map (fun i => leBytes 4 ((restartState s).rd (R.RING.BYTES k i)))).flatten := List.flatMap_def
    _ = ((List.range 8).map (fun _ => List.replicate 4 0)).flatten := congrArg List.flatten (List.map_congr_left hword)
    _ = List.replicate 32 0 := rfl

/-- What DOMAIN_000, the keeping store and the flash hold outside the registers stays (R116). -/
theorem restartState_survivors (s : State) :
    (restartState s).metro = s.metro ∧ (restartState s).xtalRun = s.xtalRun ∧ (restartState s).muffle = s.muffle ∧
    (restartState s).keeping = s.keeping ∧ (restartState s).flash = s.flash := by
  obtain ⟨r, h⟩ := restartState_rest s
  rw [h]
  exact ⟨rfl, rfl, rfl, rfl, rfl⟩

/-- What starts afresh outside the registers: the event log (R153), the SDRAM, the stage, the porches and the stream. -/
theorem restartState_afresh (s : State) :
    (restartState s).evLog = [] ∧ (restartState s).evSeq = 0 ∧ (restartState s).sdram = [] ∧ (restartState s).stage = [] ∧
    (restartState s).porch = [] ∧ (restartState s).stream = none := by
  obtain ⟨r, h⟩ := restartState_rest s
  rw [h]
  exact ⟨rfl, rfl, rfl, rfl, rfl, rfl⟩

/-- Settles O26: a register field of the list is kept because `keptKey` holds of it, or reads its reset value because
`keptKey` does not; the parts outside the registers are those of `restartState`'s own record. -/
theorem restartKeeps : Obligations.RestartKeeps := by
  intro s
  obtain ⟨hmetro, hxtal, hmuffle, hkeeping, hflash⟩ := restartState_survivors s
  obtain ⟨hlog, hseq, hsdram, hstage, hporch, hstream⟩ := restartState_afresh s
  have hsource : (restartState s).rd R.METRO_STATUS.SOURCE = s.rd R.METRO_STATUS.SOURCE :=
    restartState_rd_kept s (by decide)
  have hqual : (restartState s).rd R.METRO_STATUS.XTAL_QUAL = s.rd R.METRO_STATUS.XTAL_QUAL :=
    restartState_rd_kept s (by decide)
  have hmuffled : (restartState s).rd R.BELL_MUFFLED.MUFFLED = s.rd R.BELL_MUFFLED.MUFFLED :=
    restartState_rd_kept s (by decide)
  have hcompare : (restartState s).rd R.METRO_ALARM.COMPARE = 0 := restartState_rd_cleared s (by decide) (by decide)
  have halarm : (restartState s).rd R.METRO_STATUS.ALARM = 0 := restartState_rd_cleared s (by decide) (by decide)
  exact ⟨hmetro, hxtal, hmuffle, hkeeping, hflash, hsource, hqual, fun _ => isSticky_restartState s, hmuffled, hcompare,
    halarm, fun _ => ringBytes_restartState s, hlog, hseq, hsdram, hstage, hporch, hstream⟩

end Sys2Proof.Machine
end

section
/-! PROOFS. The measurement rings (R162): the hash of an extension is written into the eight words of its ring, which read back
as the hash's bytes, and into no word of another ring. -/
namespace Sys2Proof.Machine

theorem ringKey_ne_of_word_ne (k : Nat) {i j : Nat} (h : i ≠ j) : (R.RING.BYTES k i).key ≠ (R.RING.BYTES k j).key := by
  simp only [Fld.key, R.RING.BYTES]
  omega

/-- The rings stand 32 bytes apart, so the eight words of one are none of another's. -/
theorem ringKey_ne_of_ring_ne {j k i l : Nat} (h : j ≠ k) (hi : i < 8) (hl : l < 8) :
    (R.RING.BYTES j i).key ≠ (R.RING.BYTES k l).key := by
  simp only [Fld.key, R.RING.BYTES]
  omega

/-- Bytes written into a ring word by word are read back. -/
theorem ringBytes_wrList_wordsOf (s : State) (k : Nat) {bs : List Nat} (hlen : bs.length = 32) (hbyte : ∀ b ∈ bs, b < 256) :
    ringBytes (wrList (R.RING.BYTES k) 0 (wordsOf 8 bs) s) k = bs := by
  have hwords : (List.range 8).map (fun i => (wrList (R.RING.BYTES k) 0 (wordsOf 8 bs) s).rd (R.RING.BYTES k i)) = wordsOf 8 bs := by
    have h := wrList_rd (R.RING.BYTES k) (fun _ _ => ringKey_ne_of_word_ne k) (fun _ => rfl) (wordsOf 8 bs) 0 s (wordsOf_lt 8 bs)
    rwa [wordsOf_length, ← List.range_eq_range'] at h
  calc ringBytes (wrList (R.RING.BYTES k) 0 (wordsOf 8 bs) s) k
      = ((List.range 8).map (fun i => (wrList (R.RING.BYTES k) 0 (wordsOf 8 bs) s).rd (R.RING.BYTES k i))).flatMap (leBytes 4) :=
        (List.flatMap_map ..).symm
    _ = (wordsOf 8 bs).flatMap (leBytes 4) := by rw [hwords]
    _ = bs := wordsOf_bytes 8 bs hlen hbyte

theorem ringBytes_extendRing_same (s : State) (k : Nat) (d : List Nat) :
    ringBytes (extendRing k d s) k = sha256 (ringBytes s k ++ d) :=
  ringBytes_wrList_wordsOf s k (sha256_length _) (sha256_lt _)

theorem extendRing_rd_other (s : State) (k : Nat) (d : List Nat) {f : Fld}
    (h : ∀ i, i < 8 → f.key ≠ (R.RING.BYTES k i).key) : (extendRing k d s).rd f = s.rd f :=
  wrList_other (R.RING.BYTES k) f _ 0 s fun i _ hi => h i (by simpa [wordsOf_length] using hi)

theorem ringBytes_extendRing_other (s : State) {j k : Nat} (d : List Nat) (h : j ≠ k) :
    ringBytes (extendRing k d s) j = ringBytes s j := by
  have hword : ∀ i ∈ List.range 8,
      leBytes 4 ((extendRing k d s).rd (R.RING.BYTES j i)) = leBytes 4 (s.rd (R.RING.BYTES j i)) := fun i hi => by
    rw [extendRing_rd_other s k d fun l hl => ringKey_ne_of_ring_ne h (List.mem_range.1 hi) hl]
  simp only [ringBytes, List.flatMap_def, List.map_congr_left hword]

/-- Settles O23: the ring's words hold the hash, an extension writes no other register field, and it is a change of the
registers alone. -/
theorem ringsExtendByHash : Obligations.RingsExtendByHash := by
  intro s k d _
  obtain ⟨r, hregs⟩ : ∃ r, extendRing k d s = { s with regs := r } := wrList_mem _ _ 0 s
  refine ⟨ringBytes_extendRing_same s k d, fun j _ => ringBytes_extendRing_other s d, fun f => extendRing_rd_other s k d, ?_⟩
  rw [hregs]
  exact ⟨rfl, rfl, rfl, rfl⟩

end Sys2Proof.Machine
end

section
/-! PROOFS. The recovery counters (R176): the value is the largest cell, and an increment writes one cell, a halfword of the
keeping store. -/
namespace Sys2Proof.Machine

/-- Each of a counter's first cells is at most the largest of them. -/
theorem recCell_le_foldl_max (s : State) (c : Nat) : ∀ (n k : Nat), k < n →
    recCell s c k ≤ ((List.range n).map (recCell s c)).foldl max 0
  | n + 1, k, hk => by
    rw [recCells_max]
    rcases Nat.lt_succ_iff_lt_or_eq.1 hk with hlt | rfl
    · exact Nat.le_trans (recCell_le_foldl_max s c n k hlt) (Nat.le_max_left _ _)
    · exact Nat.le_max_right _ _

/-- The largest of a counter's first cells is one of them. -/
theorem exists_recCell_eq_foldl_max (s : State) (c : Nat) : ∀ n : Nat,
    ∃ k, k < n + 1 ∧ recCell s c k = ((List.range (n + 1)).map (recCell s c)).foldl max 0
  | 0 => ⟨0, Nat.one_pos, (Nat.zero_max _).symm⟩
  | n + 1 => by
    obtain ⟨k, hk, heq⟩ := exists_recCell_eq_foldl_max s c n
    rw [recCells_max, ← heq]
    rcases Nat.le_total (recCell s c (n + 1)) (recCell s c k) with hle | hle
    · exact ⟨k, by omega, (Nat.max_eq_left hle).symm⟩
    · exact ⟨n + 1, by omega, (Nat.max_eq_right hle).symm⟩

/-- Write the halfword `v` into cell `k` of counter `c`, byte by byte. -/
def putRecCell (s : State) (c k v : Nat) : State :=
  putKeepByte (putKeepByte s (0x3000 + 32 * c + 2 * k) (v % 256)) (0x3000 + 32 * c + 2 * k + 1) (v / 256)

/-- The cell's word takes the halfword at the cell's place; its other half, the other words and the registers stay. -/
theorem putRecCell_half (s : State) (c k : Nat) {v : Nat} (hv : v < 2 ^ 16) :
    (∀ i, i ≠ 0xC00 + 8 * c + k / 2 → keepW (putRecCell s c k v) i = keepW s i) ∧
    keepW (putRecCell s c k v) (0xC00 + 8 * c + k / 2) / 2 ^ (16 * (k % 2)) % 2 ^ 16 = v ∧
    keepW (putRecCell s c k v) (0xC00 + 8 * c + k / 2) / 2 ^ (16 * (1 - k % 2)) % 2 ^ 16 =
      keepW s (0xC00 + 8 * c + k / 2) / 2 ^ (16 * (1 - k % 2)) % 2 ^ 16 ∧
    (putRecCell s c k v).regs = s.regs := by
  have haddr : 0x3000 + 32 * c + 2 * k = 4 * (0xC00 + 8 * c + k / 2) + 2 * (k % 2) := by omega
  rw [putRecCell, haddr]
  exact putKeep_half s _ _ v (Nat.mod_lt k Nat.two_pos) hv

theorem recCell_putRecCell_same (s : State) (c k : Nat) {v : Nat} (hv : v < 2 ^ 16) : recCell (putRecCell s c k v) c k = v := by
  obtain ⟨-, hsame, -, -⟩ := putRecCell_half s c k hv
  exact hsame

/-- Another cell is the other half of the same word, or stands in another word. -/
theorem recCell_putRecCell_other (s : State) (c : Nat) {j k v : Nat} (hv : v < 2 ^ 16) (h : j ≠ k) :
    recCell (putRecCell s c k v) c j = recCell s c j := by
  obtain ⟨hwords, -, hhalf, -⟩ := putRecCell_half s c k hv
  by_cases hword : j / 2 = k / 2
  · have hother : j % 2 = 1 - k % 2 := by omega
    rw [recCell, recCell, hword, hother, hhalf]
  · rw [recCell, recCell, hwords _ (by omega)]

/-- At its largest value a counter stays. -/
theorem recIncrement_of_full {s : State} {c : Nat} (h : recValue s c = 0xFFFF) : recIncrement s c = s := by
  simp [recIncrement, h]

/-- The search of `recIncrement` finds the lowest of the cells that hold the value. -/
theorem findIdx?_recCells {s : State} {c k v : Nat} (hk : k < 16) (hcell : recCell s c k = v)
    (hlow : ∀ j, j < k → recCell s c j ≠ v) : (recCells s c).findIdx? (· == v) = some k := by
  rw [List.findIdx?_eq_some_iff_getElem]
  exact ⟨by simpa [recCells] using hk, by simpa [recCells] using hcell, fun j hj => by simpa [recCells] using hlow j hj⟩

theorem recIncrement_of_lowest {s : State} {c k : Nat} (hk : k < 16) (hv : recValue s c < 0xFFFF)
    (hcell : recCell s c k = recValue s c) (hlow : ∀ j, j < k → recCell s c j ≠ recValue s c) :
    recIncrement s c = putRecCell s c ((k + 1) % 16) (recValue s c + 1) := by
  simp only [recIncrement, if_neg (Nat.not_le.2 hv), findIdx?_recCells hk hcell hlow, Option.getD_some, putRecCell]

/-- Settles O24: the fold of `max` over the cells is their largest, and an increment stores one more than it into the cell
after the lowest that holds it. -/
theorem recoveryCountersCount : Obligations.RecoveryCountersCount := by
  intro s c _
  refine ⟨recCell_le_foldl_max s c 16, exists_recCell_eq_foldl_max s c 15, recIncrement_of_full, ?_⟩
  intro k hk hv hcell hlow
  have hfits : recValue s c + 1 < 2 ^ 16 := by omega
  rw [recIncrement_of_lowest hk hv hcell hlow]
  obtain ⟨hwords, -, -, hregs⟩ := putRecCell_half s c ((k + 1) % 16) hfits
  exact ⟨recCell_putRecCell_same s c _ hfits, fun _ _ => recCell_putRecCell_other s c hfits, hwords, hregs⟩

end Sys2Proof.Machine
end

section
/-! PROOFS. A write to the write hold of a Retro Bus Port (R244, R245) that discards what is held for another register and does
not commit. -/
namespace Sys2Proof.Machine

/-- A write to the window of a served port does what `atomicWrite` does with the bytes of its lanes (R235, R244). -/
theorem exec_atomicRegisterWrite_served {s : State} {port : Fin 2} {k : Fin 8} {offset off : Nat} {data bs : List Nat}
    (hserved : windowServed s port k = true) (hlanes : laneBytes s port offset data = (off, bs)) (hbytes : bs ≠ []) :
    exec (.atomicRegisterWrite port offset data) s = .next (ran s (atomicWrite port off bs s)) := by
  refine completes_ran ((window_served hserved).trans ?_)
  simp [hlanes, hbytes]

/-- The bytes that a write at a window offset puts into a register, by their index there: those beyond byte 3 are another
register's. -/
def writtenBytes (off : Nat) (bs : List Nat) : List (Nat × Nat) :=
  (bs.zipIdx.map (fun e => (off % 4 + e.2, e.1 % 256))).filter (fun e => e.1 < 4)

/-- A write none of whose bytes is byte 3 does not commit (R244). -/
theorem writtenBytes_any_last_eq_false {off : Nat} {bs : List Nat} (hlast : ∀ i, i < bs.length → off % 4 + i ≠ 3) :
    (writtenBytes off bs).any (fun e => e.1 = 3) = false := by
  rw [List.any_eq_false]
  intro e he
  obtain ⟨⟨b, i⟩, hmem, rfl⟩ := List.mem_map.1 (List.mem_filter.1 he).1
  have hi : i < bs.length := List.snd_lt_of_mem_zipIdx hmem
  simpa using hlast i hi

/-- A write to an atomic register while bytes are held for another one, which does not commit: what was held is discarded
and counted with source 180 + 8p, and the hold begins anew with the bytes written (R245). -/
theorem atomicWrite_discards {s : State} {p off : Nat} {bs : List Nat} {fs : List Fld}
    (hreg : atomicFields p (off / 4 * 4) = some fs) (hheld : (rbpSt s p).held ≠ []) (htag : (rbpSt s p).tag ≠ off / 4 * 4)
    (hlast : (writtenBytes off bs).any (fun e => e.1 = 3) = false) :
    atomicWrite p off bs s =
      changeRbp p (fun y => { y with tag := off / 4 * 4, held := (writtenBytes off bs).foldl (fun a e => mergeByte e a) [] })
        (occur (rbpSrc p 4) (s.bump (R.RBP_COUNTS.HOLDS_DISCARDED p) 1)) := by
  have hlost : (!(rbpSt s p).held.isEmpty && (rbpSt s p).tag != off / 4 * 4) = true := by simp [hheld, htag]
  rw [writtenBytes] at hlast
  simp only [atomicWrite, hreg, hlost, hlast, if_true, Bool.false_eq_true, if_false, writtenBytes]

theorem rbpSrc_indirect (p : Nat) : rbpSrc p 4 = 180 + 8 * p := by simp only [rbpSrc]; omega

/-- Settles O16: the write reaches `atomicWrite`, which finds bytes held under another tag, and none of its own is byte 3. -/
theorem holdDiscarded : Obligations.HoldDiscarded := by
  intro s port k offset data fs off bs hserved hlanes hbytes hreg hheld htag hlast
  rw [exec_atomicRegisterWrite_served hserved hlanes hbytes,
    atomicWrite_discards hreg hheld htag (writtenBytes_any_last_eq_false hlast), rbpSrc_indirect]
  rfl

end Sys2Proof.Machine
end

section
/-! PROOFS. Sending a protected frame (R485, R486): what leaves the part, and what the sender's state keeps. -/
namespace Sys2Proof.Machine

/-- The nonce of a frame (R485). -/
def frameNonce (member port epoch fc : Nat) : List Nat := [member, port, epoch, 0] ++ beBytes 8 fc

/-- The header of a frame as the link fills it in (Table 23-5). -/
def sentHeader (p seq : Nat) (f : List Nat) (s : State) : List Nat :=
  f.take 2 ++ leBytes 2 seq ++ leBytes 2 (s.rd (R.PORT_RX.EXPECTED p)) ++ [s.rd (R.PORT_STATUS.EPOCH p), f.getD 7 0]
    ++ leBytes 8 (sendFc s p) ++ leBytes 2 (((rxBuffers s).1 + (trunkPort s p).freedP) % 65536)
    ++ leBytes 2 (((rxBuffers s).2 + (trunkPort s p).freedC) % 65536) ++ ((f.drop 20).take 28)

/-- Nonce, ciphertext and tag of the frame that a port sends for `f` (R485). -/
def sentNonce (p : Nat) (s : State) : List Nat :=
  frameNonce (ownMember s) p (s.rd (R.PORT_STATUS.EPOCH p)) (sendFc s p)
def sentCipher (p : Nat) (f : List Nat) (s : State) : List Nat :=
  gcmCrypt (trunkPort s p).txKey (sentNonce p s) ((f.drop 48).take 256)
def sentTag (p seq : Nat) (f : List Nat) (s : State) : List Nat :=
  gcmTag (trunkPort s p).txKey (sentNonce p s) (sentHeader p seq f s) (sentCipher p f s)
def sentFrame (p seq : Nat) (f : List Nat) (s : State) : List Nat :=
  sentHeader p seq f s ++ sentCipher p f s ++ sentTag p seq f s

theorem setFc_eq (p fc : Nat) (s : State) :
    setFc p fc s = (s.wr (R.PORT_FC_LO.FC p) fc).wr (R.PORT_FC_HI.FC p) (fc / 2 ^ 32) := rfl

@[simp] theorem sendFc_emit (s : State) (o : Out) (p : Nat) : sendFc (s.emit o) p = sendFc s p := rfl

theorem sendFc_setFc_same (s : State) (p : Nat) {fc : Nat} (h : fc < 2 ^ 64) : sendFc (setFc p fc s) p = fc := by
  have hkey : (R.PORT_FC_LO.FC p).key ≠ (R.PORT_FC_HI.FC p).key := by
    simp only [Fld.key, R.PORT_FC_LO.FC, R.PORT_FC_HI.FC]
    omega
  rw [sendFc, setFc_eq, State.rd_wr_same, State.rd_wr_other _ _ _ _ hkey, State.rd_wr_same]
  simp only [R.PORT_FC_LO.FC, R.PORT_FC_HI.FC]
  omega

theorem setFc_rd_other (s : State) (p fc : Nat) {g : Fld} (hlo : g.key ≠ (R.PORT_FC_LO.FC p).key)
    (hhi : g.key ≠ (R.PORT_FC_HI.FC p).key) : (setFc p fc s).rd g = s.rd g := by
  rw [setFc_eq, State.rd_wr_other _ _ _ _ hhi, State.rd_wr_other _ _ _ _ hlo]

/-- At the end of FC, and after a failed self-test of the engine, nothing is sent (R486, R108). -/
theorem emitFrame_of_stopped {s : State} {p : Nat} (seq : Nat) (f : List Nat)
    (h : 2 ^ 40 - 1 ≤ sendFc s p ∨ engineFailed s = true) : emitFrame p seq f s = s := by
  have hstop : (sendFc s p ≥ 2 ^ 40 - 1 || engineFailed s) = true := by simpa using h
  simp only [emitFrame, hstop, if_true]

/-- Otherwise one frame leaves, and FC rises by one (R486). -/
theorem emitFrame_of_ready {s : State} {p : Nat} (seq : Nat) (f : List Nat)
    (hfc : sendFc s p < 2 ^ 40 - 1) (heng : engineFailed s = false) :
    emitFrame p seq f s = (setFc p (sendFc s p + 1) s).emit (.frame p (sentFrame p seq f s)) := by
  have hready : (sendFc s p ≥ 2 ^ 40 - 1 || engineFailed s) = false := by simpa [heng] using hfc
  simp only [emitFrame, hready, Bool.false_eq_true, if_false]
  rfl

/-- Settles O17: a frame sent writes the two words of FC and joins what leaves the part, and nothing else. -/
theorem frameCountsNeverRepeat : Obligations.FrameCountsNeverRepeat := by
  intro s p seq f
  refine ⟨emitFrame_of_stopped seq f, fun hfc heng => ?_⟩
  rw [emitFrame_of_ready seq f hfc heng]
  have hrises : sendFc (setFc p (sendFc s p + 1) s) p = sendFc s p + 1 := sendFc_setFc_same s p (by omega)
  exact ⟨hrises, rfl, fun g hlo hhi => setFc_rd_other s p _ hlo hhi, rfl, rfl, rfl⟩

end Sys2Proof.Machine
end

section
/-! PROOFS. Receiving a protected frame at a TRAINED port (R479, R485, R486): the port computes the tag under the nonce that the
header gives it, and a frame with the sender's key and nonce decrypts to the sender's body. -/
namespace Sys2Proof.Machine

/-- A byte within the first part of a string of bytes is that part's. -/
theorem getD_append_of_lt {a : List Nat} {i : Nat} (h : i < a.length) (b : List Nat) : (a ++ b).getD i 0 = a.getD i 0 := by
  rw [List.getD_eq_getElem?_getD, List.getD_eq_getElem?_getD, List.getElem?_append_left h]

/-- EPOCH and FC of a header (Table 23-5). -/
def headerEpoch (h : List Nat) : Nat := h.getD 6 0
def headerFc (h : List Nat) : Nat := leVal ((h.drop 8).take 8)

/-- The nonce under which a port receives a frame with header `h` (R485). -/
def rxNonce (t : State) (q : Nat) (h : List Nat) : List Nat :=
  frameNonce (t.rd (R.PORT_STATUS.PEER q)) (trunkPort t q).peerPort (headerEpoch h) (headerFc h)

/-- A TRAINED port whose engine works receives a frame of 320 bytes, not all zero, under an EPOCH whose key it holds:
header `h`, ciphertext `c`, and the bytes `tag` at the end. -/
structure Received (t : State) (q : Nat) (h c tag key : List Nat) (least : Nat) : Prop where
  trained : portState t q = 3
  engine : engineFailed t = false
  header_length : h.length = 48
  cipher_length : c.length = 256
  tag_length : tag.length = 16
  nonzero : (h ++ c ++ tag).any (· ≠ 0) = true
  keyed : rxKeyFor t q (headerEpoch h) = some (key, least)

namespace Received

variable {t : State} {q ty least : Nat} {h c tag key : List Nat}

/-- The frame is served: it passes what `openFrame` asks before it looks at the tag. -/
theorem reaches_tag (hr : Received t q h c tag key least) :
    (engineFailed t || (h ++ c ++ tag).length != 320 || (h ++ c ++ tag).all (· = 0)
      || !(portState t q = 2 || portState t q = 3 || portState t q = 5)) = false := by
  obtain ⟨htrained, heng, hh, hc, htag, hany, -⟩ := hr
  obtain ⟨x, hmem, hx⟩ := List.any_eq_true.1 hany
  have hnonzero : (h ++ c ++ tag).all (· = 0) = false := List.all_eq_false.2 ⟨x, hmem, by simpa using hx⟩
  have hlen : (h ++ c ++ tag).length = 320 := by simp only [List.length_append, hh, hc, htag]
  rw [heng, hlen, hnonzero, htrained]
  rfl

/-- The fields that the port reads from the bytes of a frame are those of its three parts. -/
theorem parts (hr : Received t q h c tag key least) :
    (h ++ c ++ tag).take 48 = h ∧ ((h ++ c ++ tag).drop 48).take 256 = c ∧ ((h ++ c ++ tag).drop 304).take 16 = tag ∧
    (h ++ c ++ tag).getD 6 0 = headerEpoch h ∧ leVal (((h ++ c ++ tag).drop 8).take 8) = headerFc h := by
  obtain ⟨-, -, hh, hc, htag, -, -⟩ := hr
  have hhc : (h ++ c).length = 304 := by simp only [List.length_append, hh, hc]
  refine ⟨?_, ?_, ?_, ?_, ?_⟩
  · rw [List.append_assoc, List.take_left' hh]
  · rw [List.append_assoc, List.drop_left' hh, List.take_left' hc]
  · rw [List.drop_left' hhc, List.take_of_length_le (Nat.le_of_eq htag)]
  · rw [List.append_assoc, getD_append_of_lt (by omega), headerEpoch]
  · rw [List.append_assoc, List.drop_append_of_le_length (by omega),
      List.take_append_of_le_length (by rw [List.length_drop]; omega), headerFc]

/-- What the port does with the frame: the tag decides first, then FC, then the header (R479, R485, R486). -/
theorem openFrame_eq (hr : Received t q h c tag key least) :
    openFrame q ty (h ++ c ++ tag) t =
      if gcmTag key (rxNonce t q h) h c = tag then
        if headerFc h < least then .drop (windowDiscard q t)
        else if headerGood ty (h ++ gcmCrypt key (rxNonce t q h) c) then
          .good (h ++ gcmCrypt key (rxNonce t q h) c) (noteFc q (headerEpoch h) (headerFc h) t)
        else .drop (authFails q (noteFc q (headerEpoch h) (headerFc h) t))
      else .drop (authFails q t) := by
  obtain ⟨hheader, hcipher, hend, hepoch, hfc⟩ := hr.parts
  have hup : ¬ portState t q = 2 := by rw [hr.trained]; decide
  have hnonce : [t.rd (R.PORT_STATUS.PEER q), (trunkPort t q).peerPort, headerEpoch h, 0] ++ beBytes 8 (headerFc h) =
      rxNonce t q h := rfl
  rw [openFrame]
  simp only [hr.reaches_tag, Bool.false_eq_true, if_false]
  simp only [hup, hr.keyed, hheader, hcipher, hend, hepoch, hfc, hnonce, if_false]

/-- A frame whose tag is not the one that its header and ciphertext have is discarded (R485). -/
theorem openFrame_of_tag_ne (hr : Received t q h c tag key least) (hne : gcmTag key (rxNonce t q h) h c ≠ tag) :
    openFrame q ty (h ++ c ++ tag) t = .drop (authFails q t) := by
  rw [hr.openFrame_eq, if_neg hne]

/-- A verified frame below the least FC of its EPOCH is discarded (R486). -/
theorem openFrame_of_fc_lt (hr : Received t q h c tag key least) (heq : gcmTag key (rxNonce t q h) h c = tag)
    (hlow : headerFc h < least) : openFrame q ty (h ++ c ++ tag) t = .drop (windowDiscard q t) := by
  rw [hr.openFrame_eq, if_pos heq, if_pos hlow]

/-- A verified frame within the window, of a good header, is accepted, and its FC noted (R479, R486). -/
theorem openFrame_of_verified (hr : Received t q h c tag key least) (heq : gcmTag key (rxNonce t q h) h c = tag)
    (hfc : least ≤ headerFc h) (hgood : headerGood ty (h ++ gcmCrypt key (rxNonce t q h) c) = true) :
    openFrame q ty (h ++ c ++ tag) t =
      .good (h ++ gcmCrypt key (rxNonce t q h) c) (noteFc q (headerEpoch h) (headerFc h) t) := by
  rw [hr.openFrame_eq, if_pos heq, if_neg (Nat.not_lt.2 hfc), if_pos hgood]

end Received

theorem frameType_append {h : List Nat} (hpos : 0 < h.length) (l : List Nat) : frameType (h ++ l) = frameType h :=
  getD_append_of_lt hpos l

/-- The TYPE of a good header is the one asked for (Table 23-5). -/
theorem frameType_of_headerGood {ty : Nat} {f : List Nat} (hgood : headerGood ty f = true) : frameType f = ty := by
  simp only [headerGood, Bool.and_eq_true, decide_eq_true_eq] at hgood
  obtain ⟨⟨⟨⟨⟨⟨⟨⟨⟨htype, -⟩, -⟩, -⟩, -⟩, -⟩, -⟩, -⟩, -⟩, -⟩ := hgood
  exact htype

/-- A frame of a TYPE above 0 is not all zero. -/
theorem any_ne_zero_of_frameType_pos {f : List Nat} (h : 0 < frameType f) : f.any (· ≠ 0) = true := by
  cases f with
  | nil => simp [frameType] at h
  | cons b r => simp [Nat.ne_of_gt (show 0 < b from h)]

end Sys2Proof.Machine
end

section
/-! PROOFS. A frame that a port sends, at the port that its link leads to (R485, R486): the receiver finds the sender's nonce, so
it computes the sender's tag and decrypts to the sender's body. -/
namespace Sys2Proof.Machine

theorem sentNonce_length (s : State) (p : Nat) : (sentNonce p s).length = 12 := by
  simp [sentNonce, frameNonce, beBytes_length]

section
variable {key nonce d : List Nat} (hk : key.length = 32) (hn : nonce.length = 12) (hd : d.length = 256)
include hk hn hd

theorem gcmCrypt_length : (gcmCrypt key nonce d).length = 256 := by
  rw [gcmCrypt_eq key nonce d hd, xorBytes_length_of hd (gcmStream_len key nonce hk hn)]

/-- Decryption is encryption again. -/
theorem gcmCrypt_twice : gcmCrypt key nonce (gcmCrypt key nonce d) = d := by
  rw [gcmCrypt_eq key nonce _ (gcmCrypt_length hk hn hd), gcmCrypt_eq key nonce d hd,
    xorBytes_back d _ (Nat.le_of_eq (hd.trans (gcmStream_len key nonce hk hn).symm))]

end

section
variable {s : State} {p : Nat} (seq : Nat) {f : List Nat} (hf : 304 ≤ f.length)
include hf

theorem sentHeader_length : (sentHeader p seq f s).length = 48 := by
  simp only [sentHeader, List.length_append, leBytes_length, List.length_take, List.length_drop, List.length_cons,
    List.length_nil]
  omega

theorem headerEpoch_sentHeader : headerEpoch (sentHeader p seq f s) = s.rd (R.PORT_STATUS.EPOCH p) := by
  match f, hf with
  | _ :: _ :: _, _ => rfl

theorem headerFc_sentHeader (hfc : sendFc s p < 2 ^ 64) : headerFc (sentHeader p seq f s) = sendFc s p := by
  match f, hf with
  | _ :: _ :: _, _ => exact leVal_leBytes 8 _ hfc

theorem sentBody_length : ((f.drop 48).take 256).length = 256 := by
  rw [List.length_take, List.length_drop]
  omega

end

/-- Port `q` of the receiver `t` is TRAINED towards port `p` of the sender `s`, and holds the sender's key for its EPOCH, with
`least` as its next FC there. -/
structure Peers (s t : State) (p q least : Nat) : Prop where
  key_length : (trunkPort s p).txKey.length = 32
  trained : portState t q = 3
  engine : engineFailed t = false
  member : t.rd (R.PORT_STATUS.PEER q) = ownMember s
  port : (trunkPort t q).peerPort = p
  keyed : rxKeyFor t q (s.rd (R.PORT_STATUS.EPOCH p)) = some ((trunkPort s p).txKey, least)
  fc_bound : sendFc s p < 2 ^ 64

namespace Peers

variable {s t : State} {p q ty least : Nat} {f : List Nat} (seq : Nat)

theorem sentCipher_length (hp : Peers s t p q least) (hf : 304 ≤ f.length) : (sentCipher p f s).length = 256 :=
  gcmCrypt_length hp.key_length (sentNonce_length s p) (sentBody_length hf)

theorem sentTag_length (hp : Peers s t p q least) : (sentTag p seq f s).length = 16 :=
  gcmTag_len _ _ _ _ hp.key_length (sentNonce_length s p)

theorem sentFrame_length (hp : Peers s t p q least) (hf : 304 ≤ f.length) : (sentFrame p seq f s).length = 320 := by
  simp only [sentFrame, List.length_append, sentHeader_length seq hf, hp.sentCipher_length hf, hp.sentTag_length seq]

/-- The receiver's nonce is the sender's. -/
theorem rxNonce_sentHeader (hp : Peers s t p q least) (hf : 304 ≤ f.length) :
    rxNonce t q (sentHeader p seq f s) = sentNonce p s := by
  rw [rxNonce, hp.member, hp.port, headerEpoch_sentHeader seq hf, headerFc_sentHeader seq hf hp.fc_bound, sentNonce]

/-- A frame of the sender's header and ciphertext is received, whatever its last 16 bytes are. -/
theorem received (hp : Peers s t p q least) (hf : 304 ≤ f.length) {tag : List Nat} (htag : tag.length = 16)
    (hany : (sentHeader p seq f s ++ sentCipher p f s ++ tag).any (· ≠ 0) = true) :
    Received t q (sentHeader p seq f s) (sentCipher p f s) tag (trunkPort s p).txKey least where
  trained := hp.trained
  engine := hp.engine
  header_length := sentHeader_length seq hf
  cipher_length := hp.sentCipher_length hf
  tag_length := htag
  nonzero := hany
  keyed := (headerEpoch_sentHeader seq hf).symm ▸ hp.keyed

/-- The tag that the receiver computes is the sender's. -/
theorem gcmTag_eq_sentTag (hp : Peers s t p q least) (hf : 304 ≤ f.length) :
    gcmTag (trunkPort s p).txKey (rxNonce t q (sentHeader p seq f s)) (sentHeader p seq f s) (sentCipher p f s) =
      sentTag p seq f s := by
  rw [hp.rxNonce_sentHeader seq hf, sentTag]

/-- The receiver decrypts to the sender's body. -/
theorem gcmCrypt_sentCipher (hp : Peers s t p q least) (hf : 304 ≤ f.length) :
    gcmCrypt (trunkPort s p).txKey (rxNonce t q (sentHeader p seq f s)) (sentCipher p f s) = (f.drop 48).take 256 := by
  rw [hp.rxNonce_sentHeader seq hf, sentCipher, gcmCrypt_twice hp.key_length (sentNonce_length s p) (sentBody_length hf)]

/-- A frame within the window, of a good header, opens to the sender's header and body. -/
theorem openFrame_sentFrame (hp : Peers s t p q least) (hf : 304 ≤ f.length) (hfc : least ≤ sendFc s p) (hty : 0 < ty)
    (hgood : headerGood ty (sentHeader p seq f s ++ (f.drop 48).take 256) = true) :
    openFrame q ty (sentFrame p seq f s) t = .good (sentHeader p seq f s ++ (f.drop 48).take 256)
      (noteFc q (s.rd (R.PORT_STATUS.EPOCH p)) (sendFc s p) t) := by
  have hany : (sentFrame p seq f s).any (· ≠ 0) = true := by
    have hpos : 0 < (sentHeader p seq f s).length := by rw [sentHeader_length seq hf]; decide
    have htype : frameType (sentHeader p seq f s) = ty := (frameType_append hpos _).symm.trans (frameType_of_headerGood hgood)
    apply any_ne_zero_of_frameType_pos
    rwa [sentFrame, List.append_assoc, frameType_append hpos, htype]
  have hr := hp.received seq hf (hp.sentTag_length seq) hany
  have hopen := hr.openFrame_of_verified (ty := ty) (hp.gcmTag_eq_sentTag seq hf)
  rw [hp.gcmCrypt_sentCipher seq hf, headerEpoch_sentHeader seq hf, headerFc_sentHeader seq hf hp.fc_bound] at hopen
  exact hopen hfc hgood

/-- A frame below the receiver's next FC, as a copy is, is discarded under the window rule. -/
theorem openFrame_sentFrame_of_fc_lt (hp : Peers s t p q least) (hf : 304 ≤ f.length) (hlow : sendFc s p < least)
    (hany : (sentFrame p seq f s).any (· ≠ 0) = true) :
    openFrame q ty (sentFrame p seq f s) t = .drop (windowDiscard q t) :=
  (hp.received seq hf (hp.sentTag_length seq) hany).openFrame_of_fc_lt (hp.gcmTag_eq_sentTag seq hf)
    ((headerFc_sentHeader seq hf hp.fc_bound).symm ▸ hlow)

/-- Other bytes after the same header and ciphertext fail the tag. -/
theorem openFrame_of_ne_sentFrame (hp : Peers s t p q least) (hf : 304 ≤ f.length) {g : List Nat} (hlen : g.length = 320)
    (hany : g.any (· ≠ 0) = true) (hsame : g.take 304 = (sentFrame p seq f s).take 304) (hne : g ≠ sentFrame p seq f s) :
    openFrame q ty g t = .drop (authFails q t) := by
  have hfront : (sentFrame p seq f s).take 304 = sentHeader p seq f s ++ sentCipher p f s :=
    List.take_left' (by rw [List.length_append, sentHeader_length seq hf, hp.sentCipher_length hf])
  obtain ⟨tag, rfl⟩ : ∃ tag, g = sentHeader p seq f s ++ sentCipher p f s ++ tag :=
    ⟨g.drop 304, by rw [← hfront, ← hsame, List.take_append_drop]⟩
  have htag : tag.length = 16 := by
    simp only [List.length_append, sentHeader_length seq hf, hp.sentCipher_length hf] at hlen
    omega
  refine (hp.received seq hf htag hany).openFrame_of_tag_ne fun heq => hne ?_
  rw [← heq, hp.gcmTag_eq_sentTag seq hf, sentFrame]

end Peers

/-- Settles O13: what a port sends is its header, ciphertext and tag, 320 bytes; the peer computes the same tag under the same
nonce, so the frame passes the tag and any other tag fails. -/
theorem sentFramesOpenAtThePeer : Obligations.SentFramesOpenAtThePeer := by
  intro s t p q seq ty least f hfc hf hkey htrained hsender hreceiver hmember hport hkeyed
  have hp : Peers s t p q least := ⟨hkey, htrained, hreceiver, hmember, hport, hkeyed, by omega⟩
  have hheader : (sentFrame p seq f s).take 48 = sentHeader p seq f s := by
    rw [sentFrame, List.append_assoc, List.take_left' (sentHeader_length seq hf)]
  refine ⟨sentFrame p seq f s, ?_, hp.sentFrame_length seq hf, ?_, ?_, ?_⟩
  · rw [emitFrame_of_ready seq f hfc hsender]
    rfl
  · rw [hheader]
    exact hp.openFrame_sentFrame seq hf
  · exact hp.openFrame_sentFrame_of_fc_lt seq hf
  · exact fun g => hp.openFrame_of_ne_sentFrame seq hf

end Sys2Proof.Machine
end

section
/-! PROOFS. The addresses that Table 26-1 marks "none", and what answers there (R548). -/
namespace Sys2Proof.Machine

/-- The ranges of Table 26-1 that hold no block in any variant. -/
def MarkedNone (a : Nat) : Prop :=
  0xB0000 ≤ a ∧ a < 0x100000 ∨ 0x1E0000 ≤ a ∧ a < 0x200000 ∨ 0x2A0000 ≤ a ∧ a < 0x300000 ∨ 0x500000 ≤ a ∧ a < 0x600000 ∨
    0x620000 ≤ a ∧ a < 0x80000000

/-- A read, no command of its own, that meets nothing: it is answered 0 and has no effect (R2, R9). -/
theorem localRead_nothing {s : State} {slot a : Nat} (hown : ownRead (Fin.ofNat 8 slot) a s = none)
    (hview : viewOf s slot a false = .nothing) : localRead slot a s = (some (idleStatus s a), 0, activity s) := by
  simp only [localRead, hown, guardRead_otherwise.2 hview, answered_emit_answer]

theorem idleStatus_of_noBlock {s : State} {a : Nat} (h : noBlock s (a / 4 * 4) = true) : idleStatus s a = 2 := by
  rw [idleStatus, h]; rfl

/-- Where no block stands, no rail or segment of a block holds an access. -/
theorem heldBlock_of_noBlock {s : State} {a : Nat} (ha : a < 0x80000000) (h : noBlock s (a / 4 * 4) = true) :
    heldBlock s a = false := by
  simp only [heldBlock, wordAddr_of_lt ha, h, Bool.not_true, Bool.and_false, Bool.false_and]

/-- Where no block stands, an access whose root is reached meets nothing. -/
theorem viewOf_of_noBlock {s : State} {slot a : Nat} (write : Bool)
    (hslot : slot = 0 ∨ (configured s = true ∧ occupied s slot = true)) (hroot : rootOn s slot = true)
    (ha : a < 0x80000000) (h : noBlock s (a / 4 * 4) = true) : viewOf s slot a write = .nothing := by
  have hgrove : (slot != 0 && !(configured s && occupied s slot)) = false := by
    rcases hslot with rfl | hgranted
    · rfl
    · simp [hgranted]
  simp only [viewOf, hroot, heldBlock_of_noBlock ha h, hgrove, h, Bool.not_true, Bool.or_false, Bool.false_eq_true, if_false,
    if_true]

namespace MarkedNone
variable {a : Nat}

theorem lt (h : MarkedNone a) : a < 0x80000000 := by
  unfold MarkedNone at h; omega

/-- The ranges are whole words, so an address and its word (R549) are marked alike. -/
theorem word (h : MarkedNone a) : MarkedNone (a / 4 * 4) := by
  unfold MarkedNone at h ⊢; omega

/-- The 64 KiB blocks that the ranges are made of. -/
theorem block (h : MarkedNone a) : 0xB ≤ a / 0x10000 ∧ a / 0x10000 ≤ 0xF ∨ 0x1E ≤ a / 0x10000 ∧ a / 0x10000 ≤ 0x1F ∨
    0x2A ≤ a / 0x10000 ∧ a / 0x10000 ≤ 0x2F ∨ 0x50 ≤ a / 0x10000 ∧ a / 0x10000 ≤ 0x5F ∨ 0x62 ≤ a / 0x10000 := by
  unfold MarkedNone at h; omega

theorem drumOf_eq_none (h : MarkedNone a) : drumOf a = none := by
  have hdrums : ¬ (0x300000 ≤ a ∧ a < 0x500000) := by unfold MarkedNone at h; omega
  simpa [drumOf] using hdrums

theorem noBlock_eq_true (h : MarkedNone a) (s : State) : noBlock s a = true := by
  have hb := h.block
  simp only [noBlock, Bool.or_eq_true, Bool.and_eq_true, decide_eq_true_eq]
  omega

/-- No register that a read of its own answers stands there. -/
theorem ownRead_eq_none (h : MarkedNone a) (k : Fin 8) (s : State) : ownRead k a s = none := by
  have hb := h.block
  have hstage : a ≠ 0x10014 := by omega
  have huart : ¬ (0x230000 ≤ a ∧ a < 0x270000) := by omega
  simp [ownRead, hstage, huart, h.drumOf_eq_none]

/-- No register whose write is a command of its own stands there. -/
theorem ownCommand_eq_none (h : MarkedNone a) (k : Fin 8) (w : Nat) (s : State) : ownCommand k a w s = none := by
  have hb := h.block
  have huart : ¬ (0x23 ≤ a / 0x10000 ∧ a / 0x10000 ≤ 0x26) := by omega
  unfold ownCommand
  split
  case h_14 => -- the blocks that no numbered case names
    simp [huart, h.drumOf_eq_none]
  all_goals omega

section
variable {s : State} {slot : Nat} (ha : MarkedNone a)
  (hslot : slot = 0 ∨ (configured s = true ∧ occupied s slot = true)) (hroot : rootOn s slot = true)
include ha hslot hroot

theorem viewOf_word_eq_nothing (write : Bool) : viewOf s slot (a / 4 * 4) write = .nothing := by
  rw [viewOf_word, viewOf_of_noBlock write hslot hroot ha.lt (ha.word.noBlock_eq_true s)]

/-- An access there is answered ABSENT with 0, read or write, and the access itself is all that happens. -/
theorem takeAcc_eq (write : Option (Nat × Nat)) :
    takeAcc ⟨slot, a, write, .slot⟩ s = (activity s).emit (.answer slot 2 0) := by
  have hheld : heldBlock s a = false := heldBlock_of_noBlock ha.lt (ha.word.noBlock_eq_true s)
  have habsent : idleStatus s (a / 4 * 4) = 2 := idleStatus_of_noBlock (ha.word.word.noBlock_eq_true s)
  have hview := viewOf_word_eq_nothing ha hslot hroot
  cases write with
  | none =>
    rw [takeAcc_read hroot hheld ha.lt, localRead_nothing (ha.word.ownRead_eq_none _ s) (hview false), habsent, giveAnswer_slot]
  | some vb =>
    rw [takeAcc_write vb.1 vb.2 hroot hheld ha.lt, localWrite_nothing (ha.word.ownCommand_eq_none _ _ s) (hview true), habsent,
      giveAnswer_slot]

end
end MarkedNone

/-- Settles O25: no block stands at a marked address, so nothing holds the access, no register takes it as its own, and its
view is nothing: the answer is ABSENT with 0. -/
theorem absentAddresses : Obligations.AbsentAddresses :=
  fun _ _ _ hslot hroot ha write => completes_ran (MarkedNone.takeAcc_eq ha hslot hroot write)

end Sys2Proof.Machine
end

section
/-! PROOFS. Steps and commands: a step is the command at the front or a tick; every command keeps the form of the state
and completes. -/

namespace Sys2Proof.Machine

/-- Every command keeps the form: each row's own `sound_exec…`, gathered. -/
theorem sound_exec (s : State) (h : Sound s) : ∀ c : Instr, SoundRes (exec c s)
  | .registerWrite .. => sound_execRegisterWrite _ _ _ s h
  | .unassignedAccess .. => sound_execUnassignedAccess _ _ _ s h
  | .heldBlockAccess .. => sound_execHeldBlockAccess _ _ _ s h
  | .canopyStartLoad => sound_execCanopyStartLoad s h
  | .checkStream .. => sound_execCheckStream _ _ s h
  | .loadStream .. => sound_execLoadStream _ _ s h
  | .sealStream .. => sound_execSealStream _ s h
  | .canopyChecksComplete => sound_execCanopyChecksComplete s h
  | .canopyNextWrite .. => sound_execCanopyNextWrite _ _ s h
  | .canopyStageDataAccess .. => sound_execCanopyStageDataAccess _ _ s h
  | .groveRestart .. => sound_execGroveRestart _ _ s h
  | .groveRestartDone .. => sound_execGroveRestartDone _ s h
  | .groveVoteWrite .. => sound_execGroveVoteWrite _ _ s h
  | .eventPacket .. => sound_execEventPacket _ _ _ s h
  | .memRead .. => sound_execMemRead _ s h
  | .memWrite .. => sound_execMemWrite _ _ s h
  | .spineTimeout port .. => sound_execSpineTimeout port _ _ s h
  | .tallyPacket .. => sound_execTallyPacket _ _ _ s h
  | .tallyAck .. => sound_execTallyAck _ _ _ s h
  | .memctlTrain .. => sound_execMemctlTrain _ s h
  | .memctlTrainingDone .. => sound_execMemctlTrainingDone _ s h
  | .sdramRefresh .. => sound_execSdramRefresh _ s h
  | .zqCalibration => sound_execZqCalibration s h
  | .patrolScrub => sound_execPatrolScrub s h
  | .pageJobDone .. => sound_execPageJobDone _ s h
  | .rekey .. => sound_execRekey _ _ s h
  | .rekeyPageConverted => sound_execRekeyPageConverted s h
  | .sealKeyDraw => sound_execSealKeyDraw s h
  | .qualificationWindow .. => sound_execQualificationWindow _ s h
  | .xtalQualTimeout => sound_execXtalQualTimeout s h
  | .crystalLost => sound_execCrystalLost s h
  | .metroAlarm => sound_execMetroAlarm s h
  | .referenceReady => sound_execReferenceReady s h
  | .referenceLoss => sound_execReferenceLoss s h
  | .referenceRestored => sound_execReferenceRestored s h
  | .relockLockAcquired .. => sound_execRelockLockAcquired _ s h
  | .relockHoldComplete .. => sound_execRelockHoldComplete _ s h
  | .relockAttemptFailed .. => sound_execRelockAttemptFailed _ s h
  | .frequencyMonitorTrip .. => sound_execFrequencyMonitorTrip _ s h
  | .tempoReqWrite .. => sound_execTempoReqWrite _ _ _ s h
  | .tempoPgoodRise .. => sound_execTempoPgoodRise _ s h
  | .tempoSettleExpire .. => sound_execTempoSettleExpire _ s h
  | .pgoodFall .. => sound_execPgoodFall _ s h
  | .pgoodWaitTimeout .. => sound_execPgoodWaitTimeout _ s h
  | .domainSetRequest .. => sound_execDomainSetRequest _ _ s h
  | .domainClearRequest .. => sound_execDomainClearRequest _ _ s h
  | .domainStepComplete .. => sound_execDomainStepComplete _ _ s h
  | .dormantEntryBegin => sound_execDormantEntryBegin s h
  | .idleTimerExpire => sound_execIdleTimerExpire s h
  | .entryPointComplete => sound_execEntryPointComplete s h
  | .entryPointLimit => sound_execEntryPointLimit s h
  | .bellRing .. => sound_execBellRing _ _ s h
  | .unwindComplete => sound_execUnwindComplete s h
  | .muffleCountReset .. => sound_execMuffleCountReset _ s h
  | .wakeTimerExpire => sound_execWakeTimerExpire s h
  | .bellMuffledClear .. => sound_execBellMuffledClear _ _ s h
  | .hostAccessInDormant .. => sound_execHostAccessInDormant _ _ s h
  | .hwRamUe => sound_execHwRamUe s h
  | .bootDecision .. => sound_execBootDecision _ s h
  | .firmwareAlive => sound_execFirmwareAlive s h
  | .aliveTimerExpire => sound_execAliveTimerExpire s h
  | .mailboxSend .. => sound_execMailboxSend _ s h
  | .mailboxReply .. => sound_execMailboxReply _ s h
  | .mailboxTimeout .. => sound_execMailboxTimeout _ s h
  | .mailboxBadRequest .. => sound_execMailboxBadRequest _ s h
  | .ping .. => sound_execPing _ s h
  | .version .. => sound_execVersion _ s h
  | .reportOpen .. => sound_execReportOpen _ _ s h
  | .reportRead .. => sound_execReportRead _ s h
  | .certRead .. => sound_execCertRead _ s h
  | .flashErase .. => sound_execFlashErase _ _ s h
  | .flashWrite .. => sound_execFlashWrite _ _ s h
  | .flashRead .. => sound_execFlashRead _ s h
  | .fwDescribe .. => sound_execFwDescribe _ _ s h
  | .fwTrial .. => sound_execFwTrial _ s h
  | .reboot .. => sound_execReboot _ s h
  | .settingsErase .. => sound_execSettingsErase _ s h
  | .keepingErase .. => sound_execKeepingErase _ s h
  | .extend .. => sound_execExtend _ s h
  | .consolePeek .. => sound_execConsolePeek _ _ s h
  | .consolePoke .. => sound_execConsolePoke _ _ _ s h
  | .consoleMail .. => sound_execConsoleMail _ _ _ _ s h
  | .consoleBadLine .. => sound_execConsoleBadLine _ s h
  | .dfuDnload .. => sound_execDfuDnload _ _ _ s h
  | .dfuManifest => sound_execDfuManifest s h
  | .dfuUpload => sound_execDfuUpload s h
  | .dfuDetach => sound_execDfuDetach s h
  | .hello .. => sound_execHello _ s h
  | .beginFrame .. => sound_execBeginFrame _ _ _ s h
  | .dataFrame .. => sound_execDataFrame _ _ _ s h
  | .endFrame .. => sound_execEndFrame _ s h
  | .boot .. => sound_execBoot _ _ s h
  | .seedDropBadFrame .. => sound_execSeedDropBadFrame _ _ s h
  | .seedDropGap => sound_execSeedDropGap s h
  | .pwrgdRise .. => sound_execPwrgdRise _ _ _ s h
  | .pwrgdFall => sound_execPwrgdFall s h
  | .resetNFall => sound_execResetNFall s h
  | .resetNRise => sound_execResetNRise s h
  | .groveBringup .. => sound_execGroveBringup _ s h
  | .drumBringup .. => sound_execDrumBringup _ _ _ s h
  | .vbusQueueTurn => sound_execVbusQueueTurn s h
  | .rbpModeSwitch .. => sound_execRbpModeSwitch _ s h
  | .strapResponderAccess .. => sound_execStrapResponderAccess _ _ s h
  | .deferredKeepingWrite => sound_execDeferredKeepingWrite s h
  | .retryBackoffExpire .. => sound_execRetryBackoffExpire _ s h
  | .faultWindowClose .. => sound_execFaultWindowClose _ s h
  | .faultQuietExpire .. => sound_execFaultQuietExpire _ s h
  | .faultStickyClear .. => sound_execFaultStickyClear _ _ _ s h
  | .unprune .. => sound_execUnprune _ _ s h
  | .unpruneDone => sound_execUnpruneDone s h
  | .tallyTailWrite .. => sound_execTallyTailWrite _ _ s h
  | .idbScan .. => sound_execIdbScan _ s h
  | .idbLineTimeout .. => sound_execIdbLineTimeout _ s h
  | .release .. => sound_execRelease _ _ _ s h
  | .rescan .. => sound_execRescan _ _ _ s h
  | .rescanComplete .. => sound_execRescanComplete _ s h
  | .idbCmdRefused .. => sound_execIdbCmdRefused _ _ _ _ s h
  | .atomicRegisterWrite .. => sound_execAtomicRegisterWrite _ _ _ s h
  | .indDataCommit .. => sound_execIndDataCommit _ _ s h
  | .indCmdRead .. => sound_execIndCmdRead _ s h
  | .indDataDirectRead .. => sound_execIndDataDirectRead _ s h
  | .indDataConsume .. => sound_execIndDataConsume _ s h
  | .indirectAnswer .. => sound_execIndirectAnswer _ _ s h
  | .rbpWaitTimeout .. => sound_execRbpWaitTimeout _ s h
  | .rbpProtocolError .. => sound_execRbpProtocolError _ s h
  | .doorbellStroke .. => sound_execDoorbellStroke _ s h
  | .doorbellTally .. => sound_execDoorbellTally _ s h
  | .queuePull .. => sound_execQueuePull _ s h
  | .queuePush .. => sound_execQueuePush _ s h
  | .doorbellMailbox .. => sound_execDoorbellMailbox _ s h
  | .doorbellBadOp .. => sound_execDoorbellBadOp _ s h
  | .doorbellDone .. => sound_execDoorbellDone _ s h
  | .pageCommit .. => sound_execPageCommit _ _ s h
  | .refill .. => sound_execRefill _ s h
  | .pageFillDone .. => sound_execPageFillDone _ s h
  | .pagedViewWrite .. => sound_execPagedViewWrite _ _ _ s h
  | .writeThroughAnswer .. => sound_execWriteThroughAnswer _ s h
  | .winIrqClear .. => sound_execWinIrqClear _ _ s h
  | .dmaGo .. => sound_execDmaGo _ _ _ s h
  | .dmaCancel .. => sound_execDmaCancel _ _ _ s h
  | .dmaGrant .. => sound_execDmaGrant _ s h
  | .dmaBurstEnd .. => sound_execDmaBurstEnd _ _ s h
  | .dmaReleaseExpire .. => sound_execDmaReleaseExpire _ s h
  | .dmaGrantTimeout .. => sound_execDmaGrantTimeout _ s h
  | .dmaGrantWithdrawn .. => sound_execDmaGrantWithdrawn _ _ _ s h
  | .vendorRegRead .. => sound_execVendorRegRead _ _ _ _ s h
  | .vendorRegWrite .. => sound_execVendorRegWrite _ _ _ _ s h
  | .vendorRequestStall .. => sound_execVendorRequestStall _ _ _ _ s h
  | .interruptInPoll .. => sound_execInterruptInPoll _ s h
  | .clearTtBuffer .. => sound_execClearTtBuffer _ _ _ s h
  | .resetTt .. => sound_execResetTt _ _ s h
  | .getTtState .. => sound_execGetTtState _ _ s h
  | .stopTt .. => sound_execStopTt _ _ s h
  | .setHubDepth .. => sound_execSetHubDepth _ _ s h
  | .getPortErrCount .. => sound_execGetPortErrCount _ _ s h
  | .setPortPower .. => sound_execSetPortPower _ _ s h
  | .clearPortPower .. => sound_execClearPortPower _ _ s h
  | .portReset .. => sound_execPortReset _ _ s h
  | .bhPortReset .. => sound_execBhPortReset _ _ s h
  | .portResetComplete .. => sound_execPortResetComplete _ _ s h
  | .portSuspend .. => sound_execPortSuspend _ _ _ s h
  | .portLinkState .. => sound_execPortLinkState _ _ _ s h
  | .portU1Timeout .. => sound_execPortU1Timeout _ _ _ s h
  | .portU2Timeout .. => sound_execPortU2Timeout _ _ _ s h
  | .portRemoteWakeMask .. => sound_execPortRemoteWakeMask _ _ _ s h
  | .forceLinkpmAccept .. => sound_execForceLinkpmAccept _ _ _ s h
  | .portTest .. => sound_execPortTest _ _ _ s h
  | .portIndicator slot port => sound_execPortIndicator slot port s h
  | .receiverDetection .. => sound_execReceiverDetection _ _ s h
  | .ssDetectTimeout .. => sound_execSsDetectTimeout _ s h
  | .usb2Connect .. => sound_execUsb2Connect _ _ s h
  | .upTileDetach .. => sound_execUpTileDetach _ s h
  | .hubResetByHost .. => sound_execHubResetByHost _ s h
  | .lpmToken .. => sound_execLpmToken _ _ s h
  | .u1U2Entry .. => sound_execU1U2Entry _ _ s h
  | .globalSuspend .. => sound_execGlobalSuspend _ s h
  | .hostResume .. => sound_execHostResume _ s h
  | .deviceRemoteWake .. => sound_execDeviceRemoteWake _ _ s h
  | .u3ExitLfps .. => sound_execU3ExitLfps _ s h
  | .ttSplitDiscard .. => sound_execTtSplitDiscard _ s h
  | .scheduleMiss .. => sound_execScheduleMiss _ s h
  | .taprootEnumerate .. => sound_execTaprootEnumerate _ _ _ s h
  | .keyboardReport .. => sound_execKeyboardReport _ _ _ s h
  | .pointerReport .. => sound_execPointerReport _ _ _ s h
  | .padReport .. => sound_execPadReport _ _ _ _ _ s h
  | .leds .. => sound_execLeds _ s h
  | .blockRead .. => sound_execBlockRead _ _ _ _ s h
  | .blockWrite .. => sound_execBlockWrite _ _ _ _ s h
  | .capacity .. => sound_execCapacity _ _ _ _ _ s h
  | .blockRequestDone .. => sound_execBlockRequestDone _ _ s h
  | .tx .. => sound_execTx _ _ s h
  | .line .. => sound_execLine _ _ s h
  | .serialRxData .. => sound_execSerialRxData _ _ _ s h
  | .serialStateNotify .. => sound_execSerialStateNotify _ _ _ s h
  | .pipeTransfer .. => sound_execPipeTransfer _ _ _ _ _ s h
  | .pipeTransferEnd .. => sound_execPipeTransferEnd _ _ _ s h
  | .pipeTransferTimeout .. => sound_execPipeTransferTimeout _ _ s h
  | .deviceInfo .. => sound_execDeviceInfo _ s h
  | .descriptorRead .. => sound_execDescriptorRead _ s h
  | .claim .. => sound_execClaim _ s h
  | .pipeOpen .. => sound_execPipeOpen _ s h
  | .pipeClose .. => sound_execPipeClose _ s h
  | .pipeClearHalt .. => sound_execPipeClearHalt _ s h
  | .taprootSuspend .. => sound_execTaprootSuspend _ s h
  | .portCycle .. => sound_execPortCycle _ s h
  | .taprootDeviceDetach .. => sound_execTaprootDeviceDetach _ _ s h
  | .taprootRemoteWake .. => sound_execTaprootRemoteWake _ _ s h
  | .taprootHalt => sound_execTaprootHalt s h
  | .taprootRestart => sound_execTaprootRestart s h
  | .typecAttach .. => sound_execTypecAttach _ _ _ _ _ s h
  | .typecDetach .. => sound_execTypecDetach _ _ _ _ s h
  | .ccUnsettled .. => sound_execCcUnsettled _ _ _ s h
  | .discoverIdentityReply .. => sound_execDiscoverIdentityReply _ _ _ s h
  | .vconnLimit .. => sound_execVconnLimit _ s h
  | .sourceCapabilities .. => sound_execSourceCapabilities _ _ _ s h
  | .pdRequest .. => sound_execPdRequest _ _ _ s h
  | .psRdy .. => sound_execPsRdy _ s h
  | .hardResetReceived .. => sound_execHardResetReceived _ s h
  | .unsupportedPdMessage .. => sound_execUnsupportedPdMessage _ _ s h
  | .sourceCapsRepeat .. => sound_execSourceCapsRepeat _ s h
  | .sourceCapsTimeout .. => sound_execSourceCapsTimeout _ s h
  | .ppsRequestTimer .. => sound_execPpsRequestTimer _ s h
  | .ppsKeepaliveTimeout .. => sound_execPpsKeepaliveTimeout _ s h
  | .transitionWaitEnd .. => sound_execTransitionWaitEnd _ s h
  | .vbusSettled .. => sound_execVbusSettled _ _ s h
  | .transitionLimit .. => sound_execTransitionLimit _ s h
  | .pdRetriesExhausted .. => sound_execPdRetriesExhausted _ s h
  | .ppsToFixed .. => sound_execPpsToFixed _ s h
  | .ppsRestore .. => sound_execPpsRestore _ s h
  | .voltageLoop .. => sound_execVoltageLoop _ _ s h
  | .currentLimitLoop .. => sound_execCurrentLimitLoop _ _ _ s h
  | .ovpTrip .. => sound_execOvpTrip _ s h
  | .ocpTrip .. => sound_execOcpTrip _ s h
  | .reverseCurrentTrip .. => sound_execReverseCurrentTrip _ _ s h
  | .ovpRecovery .. => sound_execOvpRecovery _ s h
  | .softStartComplete .. => sound_execSoftStartComplete _ _ s h
  | .softStartLimit .. => sound_execSoftStartLimit _ s h
  | .vbusSafeZero .. => sound_execVbusSafeZero _ _ s h
  | .dischargeLimit .. => sound_execDischargeLimit _ s h
  | .hardResetHoldExpire .. => sound_execHardResetHoldExpire _ s h
  | .moistureTest .. => sound_execMoistureTest _ _ _ _ _ s h
  | .moistureRetest .. => sound_execMoistureRetest _ _ _ _ _ s h
  | .pdInfo .. => sound_execPdInfo _ s h
  | .sinkSet .. => sound_execSinkSet _ _ s h
  | .pdHardResetMailbox .. => sound_execPdHardResetMailbox _ s h
  | .recap .. => sound_execRecap _ _ s h
  | .cableInfo .. => sound_execCableInfo _ s h
  | .laserSelect .. => sound_execLaserSelect _ _ _ s h
  | .laserRampDone .. => sound_execLaserRampDone _ _ _ s h
  | .laserRampTimeout .. => sound_execLaserRampTimeout _ s h
  | .laserMonitorFault .. => sound_execLaserMonitorFault _ _ _ s h
  | .laserPermitFall .. => sound_execLaserPermitFall _ s h
  | .laserPermitRise .. => sound_execLaserPermitRise _ s h
  | .rfGainAdjust .. => sound_execRfGainAdjust _ _ _ s h
  | .rfLevel .. => sound_execRfLevel _ _ s h
  | .coilForce .. => sound_execCoilForce _ _ _ _ s h
  | .coilOvercurrent .. => sound_execCoilOvercurrent _ _ s h
  | .coilOpen .. => sound_execCoilOpen _ _ s h
  | .focusLost .. => sound_execFocusLost _ _ s h
  | .trackLost .. => sound_execTrackLost _ _ s h
  | .rearm .. => sound_execRearm _ _ _ s h
  | .reactionEnd .. => sound_execReactionEnd _ _ _ s h
  | .vmRange .. => sound_execVmRange _ s h
  | .vmRestore .. => sound_execVmRestore _ s h
  | .driverThermal .. => sound_execDriverThermal _ _ s h
  | .driverCooled .. => sound_execDriverCooled _ _ s h
  | .calWrite .. => sound_execCalWrite _ _ _ _ s h
  | .drumheadFrame .. => sound_execDrumheadFrame _ _ _ s h
  | .loadVoice .. => sound_execLoadVoice _ _ _ _ _ _ s h
  | .swap .. => sound_execSwap _ _ _ _ _ _ _ s h
  | .unload .. => sound_execUnload _ _ _ s h
  | .reseed .. => sound_execReseed _ _ _ s h
  | .voiceCmdBadOp .. => sound_execVoiceCmdBadOp _ _ s h
  | .voiceCmdEffect .. => sound_execVoiceCmdEffect _ s h
  | .voiceCmdAbandoned .. => sound_execVoiceCmdAbandoned _ s h
  | .dhStageDataAccess .. => sound_execDhStageDataAccess _ _ _ s h
  | .spinEvaluate .. => sound_execSpinEvaluate _ s h
  | .spinCheckEnd .. => sound_execSpinCheckEnd _ _ s h
  | .senseDone .. => sound_execSenseDone _ _ _ _ s h
  | .alignDone .. => sound_execAlignDone _ s h
  | .bemfZeroCrossing .. => sound_execBemfZeroCrossing _ _ _ _ s h
  | .rampTimeout .. => sound_execRampTimeout _ s h
  | .commutationMissed .. => sound_execCommutationMissed _ s h
  | .quietEntry .. => sound_execQuietEntry _ s h
  | .brakeLowSpeed .. => sound_execBrakeLowSpeed _ s h
  | .brakeHoldEnd .. => sound_execBrakeHoldEnd _ s h
  | .spindleAtRest .. => sound_execSpindleAtRest _ s h
  | .spinCut .. => sound_execSpinCut _ s h
  | .spinFault .. => sound_execSpinFault _ s h
  | .spinCutEnd .. => sound_execSpinCutEnd _ s h
  | .sledSeek .. => sound_execSledSeek _ _ s h
  | .runStage .. => sound_execRunStage _ _ s h
  | .home .. => sound_execHome _ _ s h
  | .stop .. => sound_execStop _ _ _ s h
  | .sledCmdBadOp .. => sound_execSledCmdBadOp _ _ s h
  | .sledMoveEnd .. => sound_execSledMoveEnd _ s h
  | .homeInwardDone .. => sound_execHomeInwardDone _ s h
  | .homeIndexTimeout .. => sound_execHomeIndexTimeout _ s h
  | .sledHoldCurrent .. => sound_execSledHoldCurrent _ s h
  | .sledStageDataAccess .. => sound_execSledStageDataAccess _ _ _ s h
  | .encoderChange .. => sound_execEncoderChange _ _ _ _ s h
  | .encoderIndex .. => sound_execEncoderIndex _ _ s h
  | .traySwitchChange .. => sound_execTraySwitchChange _ _ _ s h
  | .trayButtonPress .. => sound_execTrayButtonPress _ _ s h
  | .trayOpenStart .. => sound_execTrayOpenStart _ s h
  | .trayTimeout .. => sound_execTrayTimeout _ s h
  | .trayBrakeEnd .. => sound_execTrayBrakeEnd _ s h
  | .timingLock .. => sound_execTimingLock _ _ s h
  | .syncLock .. => sound_execSyncLock _ s h
  | .syncMissing .. => sound_execSyncMissing _ _ s h
  | .searchTimeout .. => sound_execSearchTimeout _ s h
  | .scarBegin .. => sound_execScarBegin _ s h
  | .scarEnd .. => sound_execScarEnd _ s h
  | .blockDecode .. => sound_execBlockDecode _ _ s h
  | .combineRevolution .. => sound_execCombineRevolution _ _ s h
  | .blockSkipped .. => sound_execBlockSkipped _ _ s h
  | .eqRestore .. => sound_execEqRestore _ _ _ s h
  | .stkProdWrite .. => sound_execStkProdWrite _ _ _ s h
  | .drumTurn .. => sound_execDrumTurn _ _ s h
  | .strokeRead .. => sound_execStrokeRead _ _ s h
  | .readToc .. => sound_execReadToc _ _ s h
  | .readSubcode .. => sound_execReadSubcode _ _ s h
  | .strokePlayAudio .. => sound_execStrokePlayAudio _ _ s h
  | .strokeSeek .. => sound_execStrokeSeek _ _ s h
  | .spin .. => sound_execSpin _ s h
  | .tray .. => sound_execTray _ s h
  | .identify .. => sound_execIdentify _ _ s h
  | .spinWaitTimeout .. => sound_execSpinWaitTimeout _ s h
  | .laserIdleClear .. => sound_execLaserIdleClear _ s h
  | .audioUnderrun .. => sound_execAudioUnderrun _ s h
  | .testUnitReady .. => sound_execTestUnitReady _ _ _ _ s h
  | .requestSense .. => sound_execRequestSense _ _ _ _ s h
  | .inquiry .. => sound_execInquiry _ _ _ _ s h
  | .startStopUnit .. => sound_execStartStopUnit _ _ _ _ s h
  | .preventAllowMediumRemoval .. => sound_execPreventAllowMediumRemoval _ _ _ _ s h
  | .readCapacity10 .. => sound_execReadCapacity10 _ _ _ _ s h
  | .read10 .. => sound_execRead10 _ _ _ _ s h
  | .read12 .. => sound_execRead12 _ _ _ _ s h
  | .readCd .. => sound_execReadCd _ _ _ _ s h
  | .seek10 .. => sound_execSeek10 _ _ _ _ s h
  | .readSubChannel .. => sound_execReadSubChannel _ _ _ _ s h
  | .readTocPmaAtip .. => sound_execReadTocPmaAtip _ _ _ _ s h
  | .playAudio10 .. => sound_execPlayAudio10 _ _ _ _ s h
  | .playAudioMsf .. => sound_execPlayAudioMsf _ _ _ _ s h
  | .getConfiguration .. => sound_execGetConfiguration _ _ _ _ s h
  | .getEventStatusNotification .. => sound_execGetEventStatusNotification _ _ _ _ s h
  | .modeSense10 .. => sound_execModeSense10 _ _ _ _ s h
  | .readDiscStructure .. => sound_execReadDiscStructure _ _ _ _ s h
  | .scsiUnsupported .. => sound_execScsiUnsupported _ _ _ _ s h
  | .uartStartEdge .. => sound_execUartStartEdge _ _ s h
  | .uartCharReceived .. => sound_execUartCharReceived _ _ s h
  | .uartCharSent .. => sound_execUartCharSent _ _ s h
  | .uartTxWrite .. => sound_execUartTxWrite _ _ _ s h
  | .uartRxRead .. => sound_execUartRxRead _ _ s h
  | .flushTx .. => sound_execFlushTx _ _ s h
  | .flushRx .. => sound_execFlushRx _ _ s h
  | .uartCfgApply .. => sound_execUartCfgApply _ s h
  | .uartLine .. => sound_execUartLine _ _ s h
  | .gpioOwnerWrite .. => sound_execGpioOwnerWrite _ _ _ s h
  | .gpioSet .. => sound_execGpioSet _ _ s h
  | .gpioClr .. => sound_execGpioClr _ _ s h
  | .gpioEdge .. => sound_execGpioEdge _ s h
  | .trainingAttemptStart .. => sound_execTrainingAttemptStart _ s h
  | .trainingStepComplete .. => sound_execTrainingStepComplete _ s h
  | .trainingStepLimit .. => sound_execTrainingStepLimit _ _ s h
  | .laneReacquired .. => sound_execLaneReacquired _ _ s h
  | .codewordReceived .. => sound_execCodewordReceived _ _ _ s h
  | .payload .. => sound_execPayload _ _ s h
  | .control .. => sound_execControl _ _ s h
  | .timeFrame .. => sound_execTimeFrame _ _ _ s h
  | .keepalive .. => sound_execKeepalive _ _ s h
  | .replayTimeout .. => sound_execReplayTimeout _ s h
  | .epochChange .. => sound_execEpochChange _ s h
  | .oldKeyRetire .. => sound_execOldKeyRetire _ s h
  | .keepaliveDue .. => sound_execKeepaliveDue _ s h
  | .keepaliveDeadline .. => sound_execKeepaliveDeadline _ s h
  | .retrainLimit .. => sound_execRetrainLimit _ s h
  | .wakePatternRepeat .. => sound_execWakePatternRepeat _ s h
  | .errorRateSecond .. => sound_execErrorRateSecond _ s h
  | .retrain .. => sound_execRetrain _ _ s h
  | .resetLane .. => sound_execResetLane _ _ s h
  | .helloFrame .. => sound_execHelloFrame _ _ s h
  | .links .. => sound_execLinks _ _ s h
  | .join .. => sound_execJoin _ _ s h
  | .announce .. => sound_execAnnounce _ _ s h
  | .helloTimer .. => sound_execHelloTimer _ s h
  | .joinTimer => sound_execJoinTimer s h
  | .announceTimer => sound_execAnnounceTimer s h
  | .linksTimer => sound_execLinksTimer s h
  | .joinExpiry .. => sound_execJoinExpiry _ s h
  | .routeExpiry .. => sound_execRouteExpiry _ s h
  | .timeRequestTimer => sound_execTimeRequestTimer s h
  | .crownLost => sound_execCrownLost s h
  | .expel .. => sound_execExpel _ _ s h
  | .admitMember .. => sound_execAdmitMember _ _ s h
  | .leave .. => sound_execLeave _ s h
  | .trunkStrokeRequest => sound_execTrunkStrokeRequest s h
  | .regionCopy => sound_execRegionCopy s h
  | .fence => sound_execFence s h
  | .query => sound_execQuery s h
  | .answer => sound_execAnswer s h
  | .usbPacketRequest => sound_execUsbPacketRequest s h
  | .unitAck => sound_execUnitAck s h
  | .relink .. => sound_execRelink _ s h
  | .stackInfo .. => sound_execStackInfo _ s h
  | .secretSet .. => sound_execSecretSet _ s h
  | .memberInfo .. => sound_execMemberInfo _ s h
  | .latchedLowRead .. => sound_execLatchedLowRead _ _ s h
  | .registerRead .. => sound_execRegisterRead _ _ s h
  | .atomicRegisterRead .. => sound_execAtomicRegisterRead _ _ _ s h
  | .hwRamCe => sound_execHwRamCe s h
  | .rngHealthFailure .. => sound_execRngHealthFailure _ s h
  | .rbpDriverFault .. => sound_execRbpDriverFault _ _ s h
  | .sledPhaseFault .. => sound_execSledPhaseFault _ _ s h
  | .trayCurrentLimit .. => sound_execTrayCurrentLimit _ s h
  | .tilePhyFault .. => sound_execTilePhyFault _ s h
  | .laneSignalLoss .. => sound_execLaneSignalLoss _ s h
  | .foreignVbus .. => sound_execForeignVbus _ _ s h
  | .testEnChange .. => sound_execTestEnChange _ s h
  | .dbgTrstNChange .. => sound_execDbgTrstNChange _ s h
  | .standardRequest .. => sound_execStandardRequest _ _ _ s h
  | .acceptRejectReceived .. => sound_execAcceptRejectReceived _ _ s h
  | .goodcrcReceived .. => sound_execGoodcrcReceived _ s h
  | .pdGetMessage .. => sound_execPdGetMessage _ _ _ s h
  | .softResetReceived .. => sound_execSoftResetReceived _ s h
  | .audioSectorOut .. => sound_execAudioSectorOut _ s h

/-- With a command at the front of the queue a step is that command on the queue's rest. -/
theorem step_of_pending_cons {c : Instr} {rest : List Instr} {s : State} (h : s.pending = c :: rest) :
    step s = exec c { s with pending := rest } := by
  simp only [step, h]

/-- On an empty queue a step is a tick. -/
theorem step_of_pending_nil {s : State} (h : s.pending = []) : step s = .next (tick s) := by
  simp only [step, h]

/-- Settles O30: a tick and every command keep a state sound, and the queue is no part of what is sound. -/
theorem stepsKeepTheForm : Obligations.StepsKeepTheForm := by
  intro s t hs hstep
  cases hqueue : s.pending with
  | nil =>
    rw [step_of_pending_nil hqueue] at hstep
    exact (SoundRes.ret (sound_tick s hs)).out t hstep
  | cons c rest =>
    rw [step_of_pending_cons hqueue] at hstep
    have hrest : Sound { s with pending := rest } := ⟨hs.1, hs.2⟩
    exact (sound_exec _ hrest c).out t hstep

/-- Settles O1, from the equation of `step` on a queue that is not empty. -/
theorem stepRunsFront : Obligations.StepRunsFront := fun _ _ _ => step_of_pending_cons

/-- `r` answers a next state with the queue and the variant of `s`. -/
def Completed (s : State) (r : Res) : Prop := ∃ t, r = .next t ∧ t.pending = s.pending ∧ t.variant = s.variant

theorem completed_always (s t : State) : Completed s (always s t) := ⟨_, rfl, rfl, rfl⟩

theorem completed_completes (s t : State) : Completed s (completes s t) := by
  refine ⟨_, rfl, ?_⟩
  unfold ran
  split
  · exact ⟨rfl, rfl⟩
  · exact ⟨rfl, rfl⟩

theorem completed_senses (s l t : State) : Completed s (senses s l t) := by
  refine ⟨_, rfl, ?_⟩
  split
  · exact ⟨rfl, rfl⟩
  · exact ⟨rfl, rfl⟩

/-- Every row ends in `always`, `completes` or `senses`, whatever it did before, and these answer a next state. -/
theorem completed_exec (s : State) : ∀ c : Instr, Completed s (exec c s)
  | .registerWrite .. => completed_completes ..
  | .unassignedAccess .. => completed_completes ..
  | .heldBlockAccess .. => completed_completes ..
  | .canopyStartLoad => completed_completes ..
  | .checkStream .. => completed_completes ..
  | .loadStream .. => completed_completes ..
  | .sealStream .. => completed_completes ..
  | .canopyChecksComplete => completed_completes ..
  | .canopyNextWrite .. => completed_completes ..
  | .canopyStageDataAccess .. => completed_completes ..
  | .groveRestart .. => completed_completes ..
  | .groveRestartDone .. => completed_completes ..
  | .groveVoteWrite .. => completed_completes ..
  | .eventPacket .. => completed_completes ..
  | .memRead .. => completed_completes ..
  | .memWrite .. => completed_completes ..
  | .spineTimeout .. => completed_completes ..
  | .tallyPacket .. => completed_completes ..
  | .tallyAck .. => completed_completes ..
  | .memctlTrain .. => completed_completes ..
  | .memctlTrainingDone .. => completed_completes ..
  | .sdramRefresh .. => completed_completes ..
  | .zqCalibration => completed_completes ..
  | .patrolScrub => completed_completes ..
  | .pageJobDone .. => completed_completes ..
  | .rekey .. => completed_completes ..
  | .rekeyPageConverted => completed_completes ..
  | .sealKeyDraw => completed_completes ..
  | .qualificationWindow .. => completed_always ..
  | .xtalQualTimeout => completed_always ..
  | .crystalLost => completed_always ..
  | .metroAlarm => completed_completes ..
  | .referenceReady => completed_always ..
  | .referenceLoss => completed_always ..
  | .referenceRestored => completed_always ..
  | .relockLockAcquired .. => completed_completes ..
  | .relockHoldComplete .. => completed_completes ..
  | .relockAttemptFailed .. => completed_completes ..
  | .frequencyMonitorTrip .. => completed_completes ..
  | .tempoReqWrite .. => completed_completes ..
  | .tempoPgoodRise .. => completed_senses ..
  | .tempoSettleExpire .. => completed_completes ..
  | .pgoodFall .. => completed_senses ..
  | .pgoodWaitTimeout .. => completed_completes ..
  | .domainSetRequest .. => completed_completes ..
  | .domainClearRequest .. => completed_completes ..
  | .domainStepComplete .. => completed_completes ..
  | .dormantEntryBegin => completed_completes ..
  | .idleTimerExpire => completed_completes ..
  | .entryPointComplete => completed_completes ..
  | .entryPointLimit => completed_completes ..
  | .bellRing .. => completed_completes ..
  | .unwindComplete => completed_completes ..
  | .muffleCountReset .. => completed_completes ..
  | .wakeTimerExpire => completed_completes ..
  | .bellMuffledClear .. => completed_completes ..
  | .hostAccessInDormant .. => completed_completes ..
  | .hwRamUe => completed_completes ..
  | .bootDecision .. => completed_completes ..
  | .firmwareAlive => completed_completes ..
  | .aliveTimerExpire => completed_completes ..
  | .mailboxSend .. => completed_completes ..
  | .mailboxReply .. => completed_completes ..
  | .mailboxTimeout .. => completed_completes ..
  | .mailboxBadRequest .. => completed_completes ..
  | .ping .. => completed_completes ..
  | .version .. => completed_completes ..
  | .reportOpen .. => completed_completes ..
  | .reportRead .. => completed_completes ..
  | .certRead .. => completed_completes ..
  | .flashErase .. => completed_completes ..
  | .flashWrite .. => completed_completes ..
  | .flashRead .. => completed_completes ..
  | .fwDescribe .. => completed_completes ..
  | .fwTrial .. => completed_completes ..
  | .reboot .. => completed_completes ..
  | .settingsErase .. => completed_completes ..
  | .keepingErase .. => completed_completes ..
  | .extend .. => completed_completes ..
  | .consolePeek .. => completed_completes ..
  | .consolePoke .. => completed_completes ..
  | .consoleMail .. => completed_completes ..
  | .consoleBadLine .. => completed_completes ..
  | .dfuDnload .. => completed_completes ..
  | .dfuManifest => completed_completes ..
  | .dfuUpload => completed_completes ..
  | .dfuDetach => completed_completes ..
  | .hello .. => completed_completes ..
  | .beginFrame .. => completed_completes ..
  | .dataFrame .. => completed_completes ..
  | .endFrame .. => completed_completes ..
  | .boot .. => completed_completes ..
  | .seedDropBadFrame .. => completed_completes ..
  | .seedDropGap => completed_completes ..
  | .pwrgdRise .. => completed_always ..
  | .pwrgdFall => completed_always ..
  | .resetNFall => completed_always ..
  | .resetNRise => completed_always ..
  | .groveBringup .. => completed_completes ..
  | .drumBringup .. => completed_completes ..
  | .vbusQueueTurn => completed_completes ..
  | .rbpModeSwitch .. => completed_completes ..
  | .strapResponderAccess .. => completed_always ..
  | .deferredKeepingWrite => completed_completes ..
  | .retryBackoffExpire .. => completed_completes ..
  | .faultWindowClose .. => completed_completes ..
  | .faultQuietExpire .. => completed_completes ..
  | .faultStickyClear .. => completed_completes ..
  | .unprune .. => completed_completes ..
  | .unpruneDone => completed_completes ..
  | .tallyTailWrite .. => completed_completes ..
  | .idbScan .. => completed_completes ..
  | .idbLineTimeout .. => completed_completes ..
  | .release .. => completed_completes ..
  | .rescan .. => completed_completes ..
  | .rescanComplete .. => completed_completes ..
  | .idbCmdRefused .. => completed_completes ..
  | .atomicRegisterWrite .. => completed_completes ..
  | .indDataCommit .. => completed_completes ..
  | .indCmdRead .. => completed_completes ..
  | .indDataDirectRead .. => completed_completes ..
  | .indDataConsume .. => completed_completes ..
  | .indirectAnswer .. => completed_completes ..
  | .rbpWaitTimeout .. => completed_completes ..
  | .rbpProtocolError .. => completed_completes ..
  | .doorbellStroke .. => completed_completes ..
  | .doorbellTally .. => completed_completes ..
  | .queuePull .. => completed_completes ..
  | .queuePush .. => completed_completes ..
  | .doorbellMailbox .. => completed_completes ..
  | .doorbellBadOp .. => completed_completes ..
  | .doorbellDone .. => completed_completes ..
  | .pageCommit .. => completed_completes ..
  | .refill .. => completed_completes ..
  | .pageFillDone .. => completed_completes ..
  | .pagedViewWrite .. => completed_completes ..
  | .writeThroughAnswer .. => completed_completes ..
  | .winIrqClear .. => completed_completes ..
  | .dmaGo .. => completed_completes ..
  | .dmaCancel .. => completed_completes ..
  | .dmaGrant .. => completed_completes ..
  | .dmaBurstEnd .. => completed_completes ..
  | .dmaReleaseExpire .. => completed_completes ..
  | .dmaGrantTimeout .. => completed_completes ..
  | .dmaGrantWithdrawn .. => completed_completes ..
  | .vendorRegRead .. => completed_completes ..
  | .vendorRegWrite .. => completed_completes ..
  | .vendorRequestStall .. => completed_completes ..
  | .interruptInPoll .. => completed_completes ..
  | .clearTtBuffer .. => completed_completes ..
  | .resetTt .. => completed_completes ..
  | .getTtState .. => completed_completes ..
  | .stopTt .. => completed_completes ..
  | .setHubDepth .. => completed_completes ..
  | .getPortErrCount .. => completed_completes ..
  | .setPortPower .. => completed_completes ..
  | .clearPortPower .. => completed_completes ..
  | .portReset .. => completed_completes ..
  | .bhPortReset .. => completed_completes ..
  | .portResetComplete .. => completed_completes ..
  | .portSuspend .. => completed_completes ..
  | .portLinkState .. => completed_completes ..
  | .portU1Timeout .. => completed_completes ..
  | .portU2Timeout .. => completed_completes ..
  | .portRemoteWakeMask .. => completed_completes ..
  | .forceLinkpmAccept .. => completed_completes ..
  | .portTest .. => completed_completes ..
  | .portIndicator .. => completed_completes ..
  | .receiverDetection .. => completed_completes ..
  | .ssDetectTimeout .. => completed_completes ..
  | .usb2Connect .. => completed_completes ..
  | .upTileDetach .. => completed_completes ..
  | .hubResetByHost .. => completed_completes ..
  | .lpmToken .. => completed_completes ..
  | .u1U2Entry .. => completed_completes ..
  | .globalSuspend .. => completed_completes ..
  | .hostResume .. => completed_completes ..
  | .deviceRemoteWake .. => completed_completes ..
  | .u3ExitLfps .. => completed_completes ..
  | .ttSplitDiscard .. => completed_completes ..
  | .scheduleMiss .. => completed_completes ..
  | .taprootEnumerate .. => completed_completes ..
  | .keyboardReport .. => completed_completes ..
  | .pointerReport .. => completed_completes ..
  | .padReport .. => completed_completes ..
  | .leds .. => completed_completes ..
  | .blockRead .. => completed_completes ..
  | .blockWrite .. => completed_completes ..
  | .capacity .. => completed_completes ..
  | .blockRequestDone .. => completed_completes ..
  | .tx .. => completed_completes ..
  | .line .. => completed_completes ..
  | .serialRxData .. => completed_completes ..
  | .serialStateNotify .. => completed_completes ..
  | .pipeTransfer .. => completed_completes ..
  | .pipeTransferEnd .. => completed_completes ..
  | .pipeTransferTimeout .. => completed_completes ..
  | .deviceInfo .. => completed_completes ..
  | .descriptorRead .. => completed_completes ..
  | .claim .. => completed_completes ..
  | .pipeOpen .. => completed_completes ..
  | .pipeClose .. => completed_completes ..
  | .pipeClearHalt .. => completed_completes ..
  | .taprootSuspend .. => completed_completes ..
  | .portCycle .. => completed_completes ..
  | .taprootDeviceDetach .. => completed_completes ..
  | .taprootRemoteWake .. => completed_completes ..
  | .taprootHalt => completed_completes ..
  | .taprootRestart => completed_completes ..
  | .typecAttach .. => completed_completes ..
  | .typecDetach .. => completed_completes ..
  | .ccUnsettled .. => completed_completes ..
  | .discoverIdentityReply .. => completed_completes ..
  | .vconnLimit .. => completed_completes ..
  | .sourceCapabilities .. => completed_completes ..
  | .pdRequest .. => completed_completes ..
  | .psRdy .. => completed_completes ..
  | .hardResetReceived .. => completed_completes ..
  | .unsupportedPdMessage .. => completed_completes ..
  | .sourceCapsRepeat .. => completed_completes ..
  | .sourceCapsTimeout .. => completed_completes ..
  | .ppsRequestTimer .. => completed_completes ..
  | .ppsKeepaliveTimeout .. => completed_completes ..
  | .transitionWaitEnd .. => completed_completes ..
  | .vbusSettled .. => completed_completes ..
  | .transitionLimit .. => completed_completes ..
  | .pdRetriesExhausted .. => completed_completes ..
  | .ppsToFixed .. => completed_completes ..
  | .ppsRestore .. => completed_completes ..
  | .voltageLoop .. => completed_completes ..
  | .currentLimitLoop .. => completed_completes ..
  | .ovpTrip .. => completed_completes ..
  | .ocpTrip .. => completed_completes ..
  | .reverseCurrentTrip .. => completed_completes ..
  | .ovpRecovery .. => completed_completes ..
  | .softStartComplete .. => completed_completes ..
  | .softStartLimit .. => completed_completes ..
  | .vbusSafeZero .. => completed_completes ..
  | .dischargeLimit .. => completed_completes ..
  | .hardResetHoldExpire .. => completed_completes ..
  | .moistureTest .. => completed_completes ..
  | .moistureRetest .. => completed_completes ..
  | .pdInfo .. => completed_completes ..
  | .sinkSet .. => completed_completes ..
  | .pdHardResetMailbox .. => completed_completes ..
  | .recap .. => completed_completes ..
  | .cableInfo .. => completed_completes ..
  | .laserSelect .. => completed_completes ..
  | .laserRampDone .. => completed_completes ..
  | .laserRampTimeout .. => completed_completes ..
  | .laserMonitorFault .. => completed_completes ..
  | .laserPermitFall .. => completed_senses ..
  | .laserPermitRise .. => completed_always ..
  | .rfGainAdjust .. => completed_completes ..
  | .rfLevel .. => completed_completes ..
  | .coilForce .. => completed_completes ..
  | .coilOvercurrent .. => completed_completes ..
  | .coilOpen .. => completed_completes ..
  | .focusLost .. => completed_completes ..
  | .trackLost .. => completed_completes ..
  | .rearm .. => completed_completes ..
  | .reactionEnd .. => completed_completes ..
  | .vmRange .. => completed_completes ..
  | .vmRestore .. => completed_completes ..
  | .driverThermal .. => completed_completes ..
  | .driverCooled .. => completed_completes ..
  | .calWrite .. => completed_completes ..
  | .drumheadFrame .. => completed_completes ..
  | .loadVoice .. => completed_completes ..
  | .swap .. => completed_completes ..
  | .unload .. => completed_completes ..
  | .reseed .. => completed_completes ..
  | .voiceCmdBadOp .. => completed_completes ..
  | .voiceCmdEffect .. => completed_completes ..
  | .voiceCmdAbandoned .. => completed_completes ..
  | .dhStageDataAccess .. => completed_completes ..
  | .spinEvaluate .. => completed_completes ..
  | .spinCheckEnd .. => completed_completes ..
  | .senseDone .. => completed_completes ..
  | .alignDone .. => completed_completes ..
  | .bemfZeroCrossing .. => completed_completes ..
  | .rampTimeout .. => completed_completes ..
  | .commutationMissed .. => completed_completes ..
  | .quietEntry .. => completed_completes ..
  | .brakeLowSpeed .. => completed_completes ..
  | .brakeHoldEnd .. => completed_completes ..
  | .spindleAtRest .. => completed_completes ..
  | .spinCut .. => completed_completes ..
  | .spinFault .. => completed_completes ..
  | .spinCutEnd .. => completed_completes ..
  | .sledSeek .. => completed_completes ..
  | .runStage .. => completed_completes ..
  | .home .. => completed_completes ..
  | .stop .. => completed_completes ..
  | .sledCmdBadOp .. => completed_completes ..
  | .sledMoveEnd .. => completed_completes ..
  | .homeInwardDone .. => completed_completes ..
  | .homeIndexTimeout .. => completed_completes ..
  | .sledHoldCurrent .. => completed_completes ..
  | .sledStageDataAccess .. => completed_completes ..
  | .encoderChange .. => completed_completes ..
  | .encoderIndex .. => completed_completes ..
  | .traySwitchChange .. => completed_senses ..
  | .trayButtonPress .. => completed_senses ..
  | .trayOpenStart .. => completed_completes ..
  | .trayTimeout .. => completed_completes ..
  | .trayBrakeEnd .. => completed_completes ..
  | .timingLock .. => completed_completes ..
  | .syncLock .. => completed_completes ..
  | .syncMissing .. => completed_completes ..
  | .searchTimeout .. => completed_completes ..
  | .scarBegin .. => completed_completes ..
  | .scarEnd .. => completed_completes ..
  | .blockDecode .. => completed_completes ..
  | .combineRevolution .. => completed_completes ..
  | .blockSkipped .. => completed_completes ..
  | .eqRestore .. => completed_completes ..
  | .stkProdWrite .. => completed_completes ..
  | .drumTurn .. => completed_completes ..
  | .strokeRead .. => completed_completes ..
  | .readToc .. => completed_completes ..
  | .readSubcode .. => completed_completes ..
  | .strokePlayAudio .. => completed_completes ..
  | .strokeSeek .. => completed_completes ..
  | .spin .. => completed_completes ..
  | .tray .. => completed_completes ..
  | .identify .. => completed_completes ..
  | .spinWaitTimeout .. => completed_completes ..
  | .laserIdleClear .. => completed_completes ..
  | .audioUnderrun .. => completed_completes ..
  | .testUnitReady .. => completed_completes ..
  | .requestSense .. => completed_completes ..
  | .inquiry .. => completed_completes ..
  | .startStopUnit .. => completed_completes ..
  | .preventAllowMediumRemoval .. => completed_completes ..
  | .readCapacity10 .. => completed_completes ..
  | .read10 .. => completed_completes ..
  | .read12 .. => completed_completes ..
  | .readCd .. => completed_completes ..
  | .seek10 .. => completed_completes ..
  | .readSubChannel .. => completed_completes ..
  | .readTocPmaAtip .. => completed_completes ..
  | .playAudio10 .. => completed_completes ..
  | .playAudioMsf .. => completed_completes ..
  | .getConfiguration .. => completed_completes ..
  | .getEventStatusNotification .. => completed_completes ..
  | .modeSense10 .. => completed_completes ..
  | .readDiscStructure .. => completed_completes ..
  | .scsiUnsupported .. => completed_completes ..
  | .uartStartEdge .. => completed_completes ..
  | .uartCharReceived .. => completed_completes ..
  | .uartCharSent .. => completed_completes ..
  | .uartTxWrite .. => completed_completes ..
  | .uartRxRead .. => completed_completes ..
  | .flushTx .. => completed_completes ..
  | .flushRx .. => completed_completes ..
  | .uartCfgApply .. => completed_completes ..
  | .uartLine .. => completed_completes ..
  | .gpioOwnerWrite .. => completed_completes ..
  | .gpioSet .. => completed_completes ..
  | .gpioClr .. => completed_completes ..
  | .gpioEdge .. => completed_senses ..
  | .trainingAttemptStart .. => completed_completes ..
  | .trainingStepComplete .. => completed_completes ..
  | .trainingStepLimit .. => completed_completes ..
  | .laneReacquired .. => completed_completes ..
  | .codewordReceived .. => completed_completes ..
  | .payload .. => completed_completes ..
  | .control .. => completed_completes ..
  | .timeFrame .. => completed_completes ..
  | .keepalive .. => completed_completes ..
  | .replayTimeout .. => completed_completes ..
  | .epochChange .. => completed_completes ..
  | .oldKeyRetire .. => completed_completes ..
  | .keepaliveDue .. => completed_completes ..
  | .keepaliveDeadline .. => completed_completes ..
  | .retrainLimit .. => completed_completes ..
  | .wakePatternRepeat .. => completed_completes ..
  | .errorRateSecond .. => completed_completes ..
  | .retrain .. => completed_completes ..
  | .resetLane .. => completed_completes ..
  | .helloFrame .. => completed_completes ..
  | .links .. => completed_completes ..
  | .join .. => completed_completes ..
  | .announce .. => completed_completes ..
  | .helloTimer .. => completed_completes ..
  | .joinTimer => completed_completes ..
  | .announceTimer => completed_completes ..
  | .linksTimer => completed_completes ..
  | .joinExpiry .. => completed_completes ..
  | .routeExpiry .. => completed_completes ..
  | .timeRequestTimer => completed_completes ..
  | .crownLost => completed_completes ..
  | .expel .. => completed_completes ..
  | .admitMember .. => completed_completes ..
  | .leave .. => completed_completes ..
  | .trunkStrokeRequest => completed_completes ..
  | .regionCopy => completed_completes ..
  | .fence => completed_completes ..
  | .query => completed_completes ..
  | .answer => completed_completes ..
  | .usbPacketRequest => completed_completes ..
  | .unitAck => completed_completes ..
  | .relink .. => completed_completes ..
  | .stackInfo .. => completed_completes ..
  | .secretSet .. => completed_completes ..
  | .memberInfo .. => completed_completes ..
  | .latchedLowRead .. => completed_completes ..
  | .registerRead .. => completed_completes ..
  | .atomicRegisterRead .. => completed_completes ..
  | .hwRamCe => completed_completes ..
  | .rngHealthFailure .. => completed_completes ..
  | .rbpDriverFault .. => completed_completes ..
  | .sledPhaseFault .. => completed_completes ..
  | .trayCurrentLimit .. => completed_completes ..
  | .tilePhyFault .. => completed_completes ..
  | .laneSignalLoss .. => completed_completes ..
  | .foreignVbus .. => completed_completes ..
  | .testEnChange .. => completed_always ..
  | .dbgTrstNChange .. => completed_senses ..
  | .standardRequest .. => completed_completes ..
  | .acceptRejectReceived .. => completed_completes ..
  | .goodcrcReceived .. => completed_completes ..
  | .pdGetMessage .. => completed_completes ..
  | .softResetReceived .. => completed_completes ..
  | .audioSectorOut .. => completed_completes ..

/-- Settles O3, by the way every row ends. -/
theorem everyCommandCompletes : Obligations.EveryCommandCompletes := fun c s => completed_exec s c

end Sys2Proof.Machine
end

section
/-! PROOFS. How a command ends that nothing turns away: one rule per guard of the rows (`guardWrite`, `serveMail`, …), so that
a row's clause is its guard's rule and the effect; and what the slot's activity leaves as it was. -/

namespace Sys2Proof.Machine

theorem took_of_guardWrite {s u : State} {slot a : Nat} {f : State → State} (h : mayWrite s slot a = true) (e : f (activity s) = u) :
    completes s (guardWrite slot a f s) = .next (took slot s u) := completes_took ((guardWrite_served h).trans (by rw [e]))

theorem took_of_guardTry {s u : State} {slot a : Nat} {r : State → Bool} {f : State → State} (h : mayWrite s slot a = true)
    (hr : r (activity s) = false) (e : f (activity s) = u) :
    completes s (guardTry slot a r f s) = .next (took slot s u) := completes_took (((guardTry_served h).1 hr).trans (by rw [e]))

theorem ran_of_guardRead {s u : State} {slot a : Nat} {f : State → State} (h : mayRead s slot a = true) (e : f (activity s) = u) :
    completes s (guardRead slot a f s) = .next (ran s u) := completes_ran ((guardRead_served h).trans e)

theorem ran_of_serveMail {s t : State} {slot op status : Nat} {body reply : List Nat} {ok : Nat → Bool} {f : List Nat → State → MailAnswer}
    (h : mailWaits s slot op body = true) (hl : ok body.length = true) (e : f body s = (status, reply, t)) :
    completes s (serveMail slot op ok f s) = .next (ran s (setReply slot status reply t)) :=
  completes_ran ((serveMail_served h hl).trans (by rw [e]))

theorem stewardMail_of_zero {slot : Nat} {s : State} {a b : MailAnswer} (h : slot = 0) (e : a = b) : stewardMail slot s a = b := by
  simp only [stewardMail, h, if_true, e]

theorem readPart_of_lt {all b : List Nat} {s : State} (h : leVal (b.take 4) < all.length) :
    readPart all b s = (0, (all.drop (leVal (b.take 4))).take 240, s) := if_pos h

theorem writeArea_answers {s : State} {slot op : Nat} {body : List Nat} {ok : Nat → Bool} {fits : Nat → Nat → List Nat → Bool}
    {act : Nat → List Nat → State → Bool × State} (hmail : mailWaits s slot op body = true) (hl : ok body.length = true) (hslot : slot = 0)
    (hfits : fits (leVal (body.take 4)) (leVal ((body.drop 4).take 4)) (body.drop 8) = true)
    (hlocked : areaLocked s (leVal (body.take 4)) = false) (hchecked : areaChecked s (leVal (body.take 4)) = false) :
    writeArea slot op ok fits act s =
      let r := flashAnswer (act (areaBase (leVal (body.take 4)) + leVal ((body.drop 4).take 4)) (body.drop 8)
        (cancelTrial (leVal (body.take 4)) s))
      setReply slot r.1 r.2.1 r.2.2 := by
  obtain ⟨m, hm, -, -, -, -, rfl, -⟩ := mailWaits_mail hmail
  simp only [writeArea, hm, hchecked, Bool.and_false, Bool.false_eq_true, if_false, serveMail_served hmail hl, hfits, hlocked,
    Bool.not_true, stewardMail_of_zero hslot rfl]

theorem ran_of_window {s u : State} {p slot : Nat} {f : Nat → State → State} (h : windowServed s p slot = true) (e : f slot s = u) :
    completes s (window p f s) = .next (ran s u) := completes_ran ((window_served h).trans e)

theorem ran_of_onConsole {s v : State} {u slot : Nat} {f : Nat → State → State} (h : consoleServed s u slot = true) (e : f slot s = v) :
    completes s (onConsole u f s) = .next (ran s v) := completes_ran ((onConsole_served h).trans e)

theorem ran_of_hubRequest {s u : State} {slot : Nat} {f : State → State} (h : hubServed s slot = true) (e : f s = u) :
    completes s (hubRequest slot f s) = .next (ran s u) := completes_ran ((hubRequest_served h).trans e)

theorem ran_of_portRequest {s u : State} {slot k t : Nat} {d : State → State} {f : Nat → State → State} (h : portServed s slot k t = true)
    (e : f t s = u) : completes s (portRequest slot k d f s) = .next (ran s u) := completes_ran ((portRequest_served h).trans e)

theorem ran_of_pdMessage {s u : State} {t : Nat} {f : State → State} (h : pdTalks s t = true) (e : f s = u) :
    completes s (pdMessage t f s) = .next (ran s u) := completes_ran ((pdMessage_served h).trans e)

theorem acted_of_always {s t u : State} (h : t = u) : always s t = .next (acted s u) := by rw [h]; rfl

theorem senses_of {s l t u v : State} (hl : l = u) (ht : t = v) : senses s l t = .next (if inReset s then acted s u else acted s v) := by rw [hl, ht]; rfl

@[simp] theorem loaderBusy_activity (s : State) : loaderBusy (activity s) = loaderBusy s := rfl
@[simp] theorem configured_activity (s : State) : configured (activity s) = configured s := rfl
@[simp] theorem isSet_activity (s : State) (f : Fld) : (activity s).isSet f = s.isSet f := rfl
@[simp] theorem strokeHolds_activity (s : State) (n : Nat) : strokeHolds (activity s) n = strokeHolds s n := rfl
@[simp] theorem sledState_activity (s : State) (n : Nat) : sledState (activity s) n = sledState s n := rfl
@[simp] theorem voiceBusy_activity (s : State) (n : Nat) : voiceBusy (activity s) n = voiceBusy s n := rfl
@[simp] theorem stacked_activity (s : State)  : stacked (activity s) = stacked s := rfl
@[simp] theorem crownTarget_activity (s : State) (m : Nat) : crownTarget (activity s) m = crownTarget s m := rfl
@[simp] theorem stackState_activity (s : State)  : stackState (activity s) = stackState s := rfl
@[simp] theorem pinsLive_activity (s : State)  : pinsLive (activity s) = pinsLive s := rfl
@[simp] theorem anyVoice_activity (s : State) (n : Nat) : anyVoice (activity s) n = anyVoice s n := rfl
@[simp] theorem uartOf_activity (s : State) (n : Nat) : uartOf (activity s) n = uartOf s n := rfl
@[simp] theorem uartServes_activity (s : State) (n : Nat) : uartServes (activity s) n = uartServes s n := rfl
@[simp] theorem drumSt_activity (s : State) (n : Nat) : drumSt (activity s) n = drumSt s n := rfl
@[simp] theorem regionSealed_activity (s : State) (r : Nat) : regionSealed (activity s) r = regionSealed s r := rfl
@[simp] theorem regionState_activity (s : State) (r : Nat) : regionState (activity s) r = regionState s r := rfl
@[simp] theorem onArrival_good (f : State → State) (s : State) : onArrival .good f s = f s := rfl

theorem takeAcc_console {s : State} {slot a : Nat} (write : Option (Nat × Nat)) (hport : portOn s 9 = true)
    (hheld : heldBlock s a = false) : takeAcc ⟨slot, a, write, .console⟩ s = runAcc ⟨slot, a, write, .console⟩ s := by
  simp [takeAcc, waitsAcc, sourceOn, accessPort, hport, hheld]

theorem takeAcc_waits {s : State} {slot a : Nat} (write : Option (Nat × Nat)) (h : heldBlock s a = true ∨ rootOn s slot = false) :
    takeAcc ⟨slot, a, write, .slot⟩ s = { s with heldAcc := s.heldAcc ++ [⟨slot, a, write, .slot⟩] } := by
  have hwaits : waitsAcc s ⟨slot, a, write, .slot⟩ = true := by
    rcases h with h | h <;> simp [waitsAcc, sourceOn, h]
  simp only [takeAcc, hwaits, if_true]

theorem windowRead_atomic {s : State} {p slot off n : Nat} {fs : List Fld} (hn : n ≠ 0) (hoff : off < 0x100)
    (hlost : porchLost s p off = false) (hreg : atomicFields p (off / 4 * 4) = some fs) :
    windowRead p slot off n s = atomicRead p off n fs (sensePorch p off n s) := by
  have hlow : ¬ 0x100 ≤ off := by omega
  simp only [windowRead, hn, hlow, hlost, hreg, if_false, Bool.false_eq_true]

theorem receive_whole {s : State} {fs : List Nat} {malformed : Bool} (f : State → State) (hform : malformed = false)
    (hcrc : packetBadCrc fs = false) : receive fs malformed f s = f s := by
  simp [receive, hform, hcrc]

theorem seedFrame_new {s t : State} {seq : Nat} {again : List Nat} {act : State → State}
    (ht : t = senseKeep 0 32 (putRecovery { s.recovery with heard := [] } s)) (hrec : inRecovery t = true)
    (hnew : t.recovery.seedLast ≠ some (seq % 256)) : seedFrame seq again act s = act t := by
  subst ht
  simp only [seedFrame, hrec, hnew, Bool.not_true, Bool.false_eq_true, if_false]

theorem acted_of_senses {s l t u : State} (hr : inReset s = false) (h : t = u) : senses s l t = .next (acted s u) := by
  simp [senses, hr, h]
@[simp] theorem domainCmdBad_activity (s : State) (d : Nat) : domainCmdBad (activity s) d = domainCmdBad s d := rfl

theorem or_of {p q : Prop} [Decidable p] [Decidable q] (h : p ∨ q) : (decide p || decide q) = true := by simpa using h

end Sys2Proof.Machine
end

section
/-! PROOFS. What a refusal marks (R44) and what a fault source sets (R198, R210), on a member whose groves are its own. -/

namespace Sys2Proof.Machine

section
variable {s : State} {slot : Nat} (addr : Nat)

/-- A slot's marks of a refusal: the flag and the address. -/
def refusalMarks (slot addr : Nat) (s : State) : State :=
  (s.on (R.GROVE_STATUS.ACCESS_REFUSED slot)).wr (R.GROVE_REFUSED_ADDR.ADDR slot) addr

theorem refuse_eq (slot : Nat) (s : State) : refuse slot addr s =
    if s.isSet (R.GROVE_STATUS.ACCESS_REFUSED slot) then refusalMarks slot addr s
    else setIrq slot 3 (refusalMarks slot addr s) := rfl

theorem refusalMarks_rd {f : Fld} (hflag : f.key ≠ (R.GROVE_STATUS.ACCESS_REFUSED slot).key)
    (haddr : f.key ≠ (R.GROVE_REFUSED_ADDR.ADDR slot).key) : (refusalMarks slot addr s).rd f = s.rd f := by
  rw [refusalMarks, State.rd_wr_other _ _ _ _ haddr, State.on_eq, State.rd_wr_other _ _ _ _ hflag]

theorem refusalMarks_mem (slot : Nat) (s : State) : SameMem s (refusalMarks slot addr s) := ⟨rfl, rfl, rfl, rfl, rfl, rfl, rfl⟩

theorem refusedAddr_key_ne (slot : Nat) : (R.GROVE_STATUS.ACCESS_REFUSED slot).key ≠ (R.GROVE_REFUSED_ADDR.ADDR slot).key := by
  simp only [Fld.key, R.GROVE_STATUS.ACCESS_REFUSED, R.GROVE_REFUSED_ADDR.ADDR]; omega

theorem irqBit_key_ne (slot : Nat) : (irqBit slot 3).key ≠ (R.GROVE_STATUS.ACCESS_REFUSED slot).key ∧
    (irqBit slot 3).key ≠ (R.GROVE_REFUSED_ADDR.ADDR slot).key := by
  simp only [Fld.key, R.GROVE_STATUS.ACCESS_REFUSED, R.GROVE_REFUSED_ADDR.ADDR, irqBit]; omega

theorem remote_key_ne_refusal (slot : Nat) : (R.GROVE_SELF.REMOTE slot).key ≠ (R.GROVE_STATUS.ACCESS_REFUSED slot).key ∧
    (R.GROVE_SELF.REMOTE slot).key ≠ (R.GROVE_REFUSED_ADDR.ADDR slot).key := by
  simp only [Fld.key, R.GROVE_STATUS.ACCESS_REFUSED, R.GROVE_REFUSED_ADDR.ADDR, R.GROVE_SELF.REMOTE]; omega

variable (hlocal : s.isSet (R.GROVE_SELF.REMOTE slot) = false)
include hlocal

theorem refusalMarks_local : (refusalMarks slot addr s).isSet (R.GROVE_SELF.REMOTE slot) = false := by
  obtain ⟨hflag, haddr⟩ := remote_key_ne_refusal slot
  rw [isSet_eq, refusalMarks_rd addr hflag haddr, ← isSet_eq, hlocal]

/-- But for the interrupt bit, a refusal leaves the registers as its marks do. -/
theorem refuse_rd {f : Fld} (hirq : f.key ≠ (irqBit slot 3).key) : (refuse slot addr s).rd f = (refusalMarks slot addr s).rd f := by
  rw [refuse_eq]
  split
  · rfl
  · rw [setIrq_rd (refusalMarks_local addr hlocal), rd_irq_of hirq]

theorem refuse_mem : SameMem s (refuse slot addr s) := by
  rw [refuse_eq]
  split
  · exact refusalMarks_mem addr slot s
  · exact (refusalMarks_mem addr slot s).trans (setIrq_mem (refusalMarks_local addr hlocal))

end

/-- Settles O8: a refusal is its two marks and, where the flag was 0, the interrupt. -/
theorem refusalMarksTheSlot : Obligations.RefusalMarksTheSlot := by
  intro s slot addr hlocal
  obtain ⟨hirqFlag, hirqAddr⟩ := irqBit_key_ne slot
  refine ⟨?flag, ?addr, ?irq, ?others, ?mem⟩
  case flag =>
    rw [isSet_eq, refuse_rd addr hlocal hirqFlag.symm, refusalMarks, State.rd_wr_other _ _ _ _ (refusedAddr_key_ne slot),
      rd_on_same _ _ rfl]
    rfl
  case addr => exact (refuse_rd addr hlocal hirqAddr.symm).trans (State.rd_wr_same _ _ _)
  case irq =>
    intro hclear
    rw [refuse_eq, hclear, isSet_eq]
    simp only [Bool.false_eq_true, if_false]
    rw [setIrq_rd (refusalMarks_local addr hlocal), rd_on_same _ _ rfl]
    rfl
  case others =>
    intro f hflag haddr hirq
    rw [refuse_rd addr hlocal hirq, refusalMarks_rd addr hflag haddr]
  case mem => exact (refuse_mem addr hlocal)

/-- A fault's summary interrupts are interrupts of all slots, or nothing. -/
theorem summaryIrq_ok (old : Nat) (s : State) (h : NoRemote s) : NoRemote (summaryIrq old s) ∧ SameMem s (summaryIrq old s) ∧
    ∀ f : Fld, (∀ slot k : Nat, k < 32 → f.key ≠ (irqBit slot k).key) → (summaryIrq old s).rd f = s.rd f := by
  unfold summaryIrq
  split
  · exact ⟨h, ⟨rfl, rfl, rfl, rfl, rfl, rfl, rfl⟩, fun _ _ => rfl⟩
  · exact setIrqAll_ok 7 (by decide) _ s h

theorem sticky_key_ne_irqBit {c : Nat} (hc : c < 512) (slot k : Nat) (hk : k < 32) : (R.FAULT_STICKY.BIT c).key ≠ (irqBit slot k).key := by
  simp only [Fld.key, R.FAULT_STICKY.BIT, irqBit]; omega

theorem remote_key_ne_sticky {c : Nat} (hc : c < 512) (k : Nat) : (R.GROVE_SELF.REMOTE k).key ≠ (R.FAULT_STICKY.BIT c).key := by
  simp only [Fld.key, R.FAULT_STICKY.BIT, R.GROVE_SELF.REMOTE]; omega

/-- A source that sets, on a member with local groves: its bit, then interrupt bits alone. -/
theorem setSticky_ok {s : State} {c : Nat} (hc : c < 512) (h : NoRemote s) (hclear : isSticky s c = false) :
    SameMem s (setSticky c s) ∧
    ∀ f : Fld, (∀ slot k : Nat, k < 32 → f.key ≠ (irqBit slot k).key) →
      (setSticky c s).rd f = (s.on (R.FAULT_STICKY.BIT c)).rd f := by
  have hbit : NoRemote (s.on (R.FAULT_STICKY.BIT c)) := fun k => by
    rw [isSet_eq, State.on_eq, State.rd_wr_other _ _ _ _ (remote_key_ne_sticky hc k), ← isSet_eq, h k]
  obtain ⟨hviews, hviewsMem, hviewsRd⟩ := setIrqAll_ok 1 (by decide) (viewers s c) _ hbit
  obtain ⟨-, hsumMem, hsumRd⟩ := summaryIrq_ok (faultSummary s) _ hviews
  have hset : setSticky c s = summaryIrq (faultSummary s) (setIrqAll 1 (viewers s c) (s.on (R.FAULT_STICKY.BIT c))) := by
    simp only [setSticky, hclear, Bool.false_eq_true, if_false]
  rw [hset]
  refine ⟨?_, fun f hf => (hsumRd f hf).trans (hviewsRd f hf)⟩
  exact (show SameMem s (s.on (R.FAULT_STICKY.BIT c)) from ⟨rfl, rfl, rfl, rfl, rfl, rfl, rfl⟩).trans (hviewsMem.trans hsumMem)

/-- Settles O9: a source that is set stays so; one that is not sets its bit and interrupt bits. -/
theorem faultBitSets : Obligations.FaultBitSets := by
  intro s c hc hlocal
  cases hset : isSticky s c with
  | true =>
    have hsame : setSticky c s = s := by simp only [setSticky, hset, if_true]
    rw [hsame]
    exact ⟨hset, fun _ _ _ => rfl, rfl, rfl, rfl, rfl, rfl⟩
  | false =>
    obtain ⟨⟨hsdram, hflash, hkeeping, hstage, hporch, -⟩, hrd⟩ := setSticky_ok hc hlocal hset
    refine ⟨?bit, ?others, hsdram, hflash, hkeeping, hstage, hporch⟩
    case bit =>
      rw [isSticky, isSet_eq, hrd _ (sticky_key_ne_irqBit hc), rd_on_same _ _ rfl]
      rfl
    case others =>
      intro f hbit hirq
      rw [hrd f fun slot k _ => hirq slot k, State.on_eq, State.rd_wr_other _ _ _ _ hbit]

end Sys2Proof.Machine
end

section
/-! PROOFS. What the guards of the rows do with a register command or a mailbox request that they turn away. -/

namespace Sys2Proof.Machine

/-- What a guard that serves one register address makes of an access that may not act. -/
def TurnedAway (s : State) (slot a : Nat) (w : Bool) (u : State) : Prop :=
  (viewOf s slot a w = .refused → u = (refuse slot (a / 4 * 4) (activity s)).emit (.answer slot 1 0)) ∧
  (viewOf s slot a w = .nothing → u = (activity s).emit (.answer slot (idleStatus s a) 0)) ∧
  (viewOf s slot a w = .held → u = s) ∧
  (viewOf s slot a true = .served → w = true → blockRuns s a = false → u = (activity s).emit (.answer slot 0 0))

theorem turnedAway_guardWrite (s : State) (slot a : Nat) (f : State → State) : TurnedAway s slot a true (guardWrite slot a f s) := by
  obtain ⟨hrefused, hnothing, hstopped⟩ := guardWrite_otherwise (s := s) (slot := slot) (a := a) (f := f)
  refine ⟨hrefused, hnothing, fun hheld => ?_, fun hserved _ hruns => hstopped hserved hruns⟩
  have hview : viewOf (activity s) slot a true = .held := hheld
  simp only [guardWrite, hview]

theorem turnedAway_guardTry (s : State) (slot a : Nat) (r : State → Bool) (f : State → State) :
    TurnedAway s slot a true (guardTry slot a r f s) := by
  obtain ⟨hrefused, hnothing, hstopped⟩ := guardTry_otherwise (s := s) (slot := slot) (a := a) (refused := r) (f := f)
  refine ⟨hrefused, hnothing, fun hheld => ?_, fun hserved _ hruns => hstopped hserved hruns⟩
  have hview : viewOf (activity s) slot a true = .held := hheld
  simp only [guardTry, hview]

theorem turnedAway_guardRead (s : State) (slot a : Nat) (f : State → State) : TurnedAway s slot a false (guardRead slot a f s) := by
  obtain ⟨hrefused, hnothing⟩ := guardRead_otherwise (s := s) (slot := slot) (a := a) (f := f)
  refine ⟨hrefused, hnothing, fun hheld => ?_, nofun⟩
  have hview : viewOf (activity s) slot a false = .held := hheld
  simp only [guardRead, hview]

/-- A register command is its guard at its address. -/
theorem registerCommand_turnedAway {c : Instr} {slot : Fin 8} {a : Nat} {w : Bool} (s : State)
    (h : registerCommand c = some (slot, a, w)) : ∃ u, exec c s = completes s u ∧ TurnedAway s slot a w u := by
  unfold registerCommand at h
  split at h
  case h_6 | h_32 | h_39 | h_43 => -- the stage windows and UART_RX, read
    cases h
    exact ⟨_, rfl, turnedAway_guardRead ..⟩
  case h_7 | h_16 | h_17 => -- groves, sticky bits and unpruning, which may answer REFUSED for their value
    cases h
    exact ⟨_, rfl, turnedAway_guardTry ..⟩
  all_goals cases h
  all_goals exact ⟨_, rfl, turnedAway_guardWrite ..⟩

/-- Settles O5, by what each row's guard makes of an access that may not act. -/
theorem registerCommandsTurnedAway : Obligations.RegisterCommandsTurnedAway := by
  intro c slot a w s hc
  obtain ⟨u, hexec, hrefused, hnothing, hheld, hstopped⟩ := registerCommand_turnedAway s hc
  rw [hexec]
  exact ⟨fun h => completes_ran (hrefused h), fun h => completes_ran (hnothing h), fun h => completes_ran (hheld h),
    fun h hw hr => completes_ran (hstopped h hw hr)⟩

/-- A mail row serves its operation, or writes an area of the flash with it; either answers a LENGTH it does not take. -/
theorem mailRow_length {c : Instr} {slot : Fin 8} {op : Nat} {ok : Nat → Bool} {m : Mail} {s : State}
    (hc : mailRow c = some (slot, op, ok)) (hmail : mailOf s slot = some m) (hop : m.op = op) (hheard : m.heard = true)
    (hreply : m.reply = none) (hruns : firmwareRuns s = true) (hlen : ok m.len = false) :
    exec c s = completes s (putMail slot (some { m with reply := some (2, []) }) s) := by
  unfold mailRow at hc
  split at hc
  case h_6 | h_7 => -- flashErase and flashWrite
    cases hc
    exact congrArg (completes s) (writeArea_length hmail hop hheard hreply hruns hlen)
  case h_11 => -- reboot, whose own reply is for a LENGTH of 4
    cases hc
    have hnot : m.len ≠ 4 := by simpa using hlen
    refine congrArg (completes s) ?_
    simp only [hmail]
    rw [if_neg (by simp [hnot])]
    exact serveMail_length (ok := (· = 4)) hmail hop hheard hreply hruns hlen
  all_goals cases hc
  all_goals exact congrArg (completes s) (serveMail_length hmail hop hheard hreply hruns hlen)

/-- Settles O6: each mail row answers such a request and stops there. -/
theorem mailOfAnotherLength : Obligations.MailOfAnotherLength :=
  fun _ _ _ _ _ _ hc hmail hop hheard hreply hruns hlen => mailRow_length hc hmail hop hheard hreply hruns hlen

end Sys2Proof.Machine
end

section
/-! PROOFS. The small rules of one row or one function (07, 10, 19, 22, 24, 26). -/

namespace Sys2Proof.Machine

/-- Settles O14, by the order of the conditions. -/
theorem tallyStatusByTheFirstRule : Obligations.TallyStatusByTheFirstRule := by
  intro refused cancelled done requested
  refine ⟨?_, ?_, ?_, ?_, ?_⟩
  · intro hr
    simp [tallyStatus, hr]
  · intro hr hc
    simp [tallyStatus, hr, hc]
  · intro hr hc hd
    simp [tallyStatus, hr, hc, hd]
  · intro hr hc hd h0
    rw [h0] at hd
    simp [tallyStatus, hr, hc, hd, h0]
  · intro hr hc hd h0
    simp [tallyStatus, hr, hc, hd, h0]

/-- Settles O18: three columns are read off, the last goes by the state. -/
theorem traySwitchesGiveTheState : Obligations.TraySwitchesGiveTheState := by
  refine ⟨fun _ _ => rfl, fun _ _ => rfl, fun _ _ => rfl, fun st _ => ?_⟩
  simp [trayNext]

/-- Settles O19, by the branches of `ringBell`: only the last, in WAKING, writes. -/
theorem bellsThatDoNothing : Obligations.BellsThatDoNothing := by
  intro s b cc
  refine ⟨?disabled, ?active, ?waking⟩
  case disabled =>
    intro henable
    exact completes_ran (if_pos (by simp [henable]))
  case active =>
    intro hactive
    refine completes_ran ?_
    simp [ringBell, hactive]
  case waking =>
    intro hwaking henable hpresent hdomain
    refine completes_ran ?_
    have hlow : ¬ b.val ≤ 13 := by omega
    have hstate : dormantState (s.wr R.BELL_PENDING.PENDING (setBit (s.rd R.BELL_PENDING.PENDING) b)) = 3 :=
      (State.rd_wr_other _ _ _ _ (by decide)).trans hwaking
    simp [ringBell, hwaking, henable, hpresent, hlow, hstate]

/-- Settles O20: the condition of the entry fails. -/
theorem entryWaitsForItsConditions : Obligations.EntryWaitsForItsConditions := by
  intro s h
  refine completes_ran (if_neg ?_)
  rcases h with h | h <;> simp [h]

/-- Settles O21: a served UART with a full FIFO counts the byte. -/
theorem transmitFifoFull : Obligations.TransmitFifoFull := by
  intro s slot uart value hwrite hserves hfull
  refine took_of_guardWrite hwrite ?_
  simp [withUart, hserves, hfull]

/-- Settles O22: the read is served, and there is no entry to take. -/
theorem emptyReceiveFifo : Obligations.EmptyReceiveFifo := by
  intro s slot uart hread hempty
  refine ran_of_guardRead hread ?_
  simp [hempty]

/-- A STACK_CMD that is served but not allowed sets CMD_REFUSED and stops. -/
theorem stackCmd_refused {s : State} {slot : Nat} {allowed : Bool} {act : State → State} (hwrite : mayWrite s slot 0x00610014 = true)
    (h : stacked s = false ∨ allowed = false) :
    completes s (stackCmd slot allowed act s) = .next (took slot s ((activity s).on R.STACK_ERR.CMD_REFUSED)) := by
  refine took_of_guardWrite hwrite (if_neg ?_)
  rcases h with h | h <;> simp [h]

/-- Settles O15: the three commands are `stackCmd`, and the stack block is refused to every slot but 0. -/
theorem membershipCommands : Obligations.MembershipCommands := by
  intro s slot member
  refine ⟨?notTarget, ?notQuarantined, ?single, ?otherSlot⟩
  case notTarget =>
    intro hwrite _ htarget
    exact ⟨stackCmd_refused hwrite (.inr htarget), stackCmd_refused hwrite (.inr htarget)⟩
  case notQuarantined =>
    intro hwrite _ hstate
    exact stackCmd_refused hwrite (.inr (decide_eq_false hstate))
  case single =>
    intro hwrite hsingle
    exact ⟨stackCmd_refused hwrite (.inl hsingle), stackCmd_refused hwrite (.inl hsingle), stackCmd_refused hwrite (.inl hsingle)⟩
  case otherSlot =>
    intro hslot
    have hunit : unitView s slot 0x00610014 true = .refused := by simp [unitView, onlyIf, hslot]
    have hview : viewOf s slot 0x00610014 true ≠ .served := by
      simp only [viewOf, Nat.reduceDiv, Nat.reduceMul, Nat.reduceLT, if_false, hunit]
      split
      · nofun
      · split
        · nofun
        · split
          · nofun
          · split <;> nofun
    simp [mayWrite, hview]

/-- Settles O27, on the reset state itself. -/
theorem resetIsSound : Obligations.ResetIsSound := by
  refine ⟨?_, ?_, ?_, ?_⟩
  · decide
  · decide
  · exact ⟨by decide, by decide⟩
  · rfl

end Sys2Proof.Machine
end

section
/-! PROOFS. Reset values, as a read of slot 0 finds them. -/

namespace Sys2Proof.Machine

/-- The state of O28: reset, with power, and the spine's segments ON. -/
def poweredReset : State :=
  { ((List.range 8).foldl (fun t k => t.wr (R.DOMAIN_STATE.D (6 + k)) 2) State.reset).wr (R.DOMAIN_STATE.D 143) 2 with pwrgd := true }

/-- The addresses of O28 with the values their registers read at reset. -/
def resetWords : List (Nat × Nat) :=
  [(0x00010000, 0x00FF0300), (0x00010004, 0xFFFFFFFF), (0x00010040, 0xFFFFFF00), (0x00080000, 0x1000), (0x00090000, 0x31),
    (0x00090004, 0x16161016), (0x00090008, 0x02302234), (0x00020018, 50), (0x00020020, 1), (0x00030200, 0xFFFFFFFF)]

/-- The words that `servedRead` reads from the register fields alone. -/
def isFieldWord (a : Nat) : Bool := a / 0x10000 ∈ [1, 2, 3, 8, 9] && a != 0x20004

theorem servedRead_of_isFieldWord {slot a : Nat} {s : State} (h : isFieldWord a = true) : servedRead slot a s = plainRead slot a s := by
  simp only [isFieldWord, Bool.and_eq_true, decide_eq_true_eq, List.mem_cons, List.not_mem_nil, or_false, bne_iff_ne] at h
  obtain ⟨hblock, hcount⟩ := h
  have hident : a / 0x10000 ≠ 0 := by omega
  have htl : a ≠ 0x61000C := by omega
  have hkeeping : a / 0x10000 ≠ 7 := by omega
  have hgpio : a / 0x10000 ≠ 0x29 := by omega
  have hseal : ¬ 0xA1000 ≤ a := by omega
  simp [servedRead, hident, hcount, htl, hkeeping, hgpio, hseal]

/-- A word without fields that a read clears, read where nothing is drawn, leaves the state. -/
theorem plainRead_state {slot a : Nat} {s : State} (hdraw : (refreshView slot a s).freeCtr = s.freeCtr)
    (hclear : (regsAt s slot a).filter (fun f => f.acc = .rc) = []) : (plainRead slot a s).2 = s := by
  simp [plainRead, hdraw, hclear]

/-- A state in which nothing has idled is as the slot's activity leaves it. -/
theorem activity_of_active {s : State} (hcount : s.idleCount = 0) (hdone : s.idleDone = false) : activity s = s := by
  cases s
  simp_all [activity]

theorem ran_emit {s : State} (hrun : inReset s = false) (o : Out) : ran s (s.emit o) = s.emit o := by
  simp [ran, hrun, acted, State.emit]

theorem resetWords_reached : ∀ e ∈ resetWords, heldBlock poweredReset e.1 = false ∧ viewOf poweredReset 0 e.1 false = .served ∧
    ownRead 0 e.1 poweredReset = none ∧ faultOffset e.1 = false ∧ isFieldWord e.1 = true ∧ e.1 / 4 * 4 = e.1 ∧
    e.1 < 0x80000000 := by decide

theorem resetWords_keep : ∀ e ∈ resetWords, (refreshView 0 e.1 poweredReset).freeCtr = poweredReset.freeCtr ∧
    (regsAt poweredReset 0 e.1).filter (fun f => f.acc = .rc) = [] := by decide

theorem resetWords_read : ∀ e ∈ resetWords, (plainRead 0 e.1 poweredReset).1 = e.2 := by decide

/-- Settles O28: the reads are reached and served, and each word is that of its fields' reset values. -/
theorem resetValuesRead : Obligations.ResetValuesRead := by
  intro e he
  obtain ⟨hheld, hview, hown, hfault, hplain, hword, hlocal⟩ := resetWords_reached e he
  obtain ⟨hdraw, hclear⟩ := resetWords_keep e he
  have hserved : servedRead 0 e.1 poweredReset = (e.2, poweredReset) :=
    (servedRead_of_isFieldWord hplain).trans (Prod.ext (resetWords_read e he) (plainRead_state hdraw hclear))
  have hroot : rootOn poweredReset 0 = true := by decide
  have hread : localRead 0 (e.1 / 4 * 4) poweredReset = (some 0, e.2, poweredReset) := by
    rw [hword, localRead_served hown hfault hview]
    rw [activity_of_active (s := poweredReset) (by decide) (by decide), hserved]
  refine (completes_ran ((takeAcc_read hroot hheld hlocal).trans (congrArg _ hread))).trans ?_
  exact congrArg Host.Outcome.next (ran_emit (s := poweredReset) (by decide) _)

end Sys2Proof.Machine
end

section
/-! PROOFS. The loader's rows take effect (02). -/

namespace Sys2Proof.Machine

/-- Settles O31: each row is its guard's rule and its effect; the end of a check goes by the verdict of `runChecks`. -/
theorem canopyCommandsComplete : Obligations.CanopyCommandsComplete := by
  intro s
  refine ⟨?canopyStartLoad, ?checkStream, ?loadStream, ?sealStream, ?canopyChecksComplete, ?canopyNextWrite, ?stageDataWrite,
    ?stageDataRead⟩
  case canopyStartLoad =>
    intro hfirmware hsdramDone hloaderBusy hconfigured hcanopyDone
    exact completes_ran (by simp [hfirmware, hsdramDone, hloaderBusy, hconfigured, hcanopyDone])
  case checkStream =>
    intro slot area hwrite hloaderBusy harea
    exact took_of_guardWrite hwrite (by simp [hloaderBusy, harea])
  case loadStream =>
    intro slot area hwrite hloaderBusy hconfigured harea
    exact took_of_guardWrite hwrite (by simp [hloaderBusy, hconfigured, harea])
  case sealStream =>
    intro slot hwrite hloaderBusy hconfigured
    exact took_of_guardWrite hwrite (by simp [hloaderBusy, hconfigured])
  case canopyChecksComplete =>
    intro hloaderBusy hloadOp
    refine completes_ran ((if_neg (by simp [hloaderBusy])).trans ?_)
    simp only [hloadOp]
    cases runChecks (sourceBytes s s.loadSrc) (2 ^ 20) (unitsOf s.variant) s.strapStack (sdramCapacity s) <;> rfl
  case canopyNextWrite =>
    intro slot area hwrite
    exact took_of_guardWrite hwrite (by simp)
  case stageDataWrite =>
    intro slot v hwrite hloaderBusy
    exact took_of_guardWrite hwrite (by simp [hloaderBusy])
  case stageDataRead =>
    intro slot d t hread hloaderBusy hreadStage
    exact ran_of_guardRead hread (by simp [hloaderBusy, hreadStage])

end Sys2Proof.Machine
end

section
/-! PROOFS. Register accesses take effect (01, 12, 26). -/

namespace Sys2Proof.Machine

/-- Settles O32: an access that is reached runs (`takeAcc_reached`), one whose block or root is held waits (`takeAcc_waits`). -/
theorem registerAccessesComplete : Obligations.RegisterAccessesComplete := by
  intro s
  refine ⟨?registerWrite_spine, ?registerWrite_window, ?registerRead_spine, ?registerRead_window, ?unassignedAccess,
    ?heldBlockAccess, ?latchedLowRead, ?atomicRegisterRead, ?atomicRegisterWrite, ?consolePeek, ?consolePoke, ?consoleMail,
    ?consoleBadLine⟩
  case registerWrite_spine =>
    intro slot addr value be hrootOn hheldBlock
    exact completes_ran (takeAcc_reached _ hrootOn hheldBlock)
  case registerWrite_window =>
    intro port k offset value be hwindow
    exact ran_of_window hwindow (by simp)
  case registerRead_spine =>
    intro slot addr count hrootOn hheldBlock
    exact completes_ran (takeAcc_reached none hrootOn hheldBlock)
  case registerRead_window =>
    intro port k offset count hwindow
    exact ran_of_window hwindow (by simp)
  case unassignedAccess =>
    intro slot addr write hnoBlock hmemberOf hrootOn hheldBlock
    refine completes_ran ((if_pos (by rw [hnoBlock, hmemberOf]; rfl)).trans ?_)
    exact takeAcc_reached _ hrootOn hheldBlock
  case heldBlockAccess =>
    intro slot addr write hheldBlock
    exact completes_ran (takeAcc_waits write hheldBlock)
  case latchedLowRead =>
    intro slot timeline hrootOn hheldBlock
    exact completes_ran (takeAcc_reached none hrootOn hheldBlock)
  case atomicRegisterRead =>
    intro port k offset count fs off n hwindow hlanesOut hn hoff hporchLost hatomicFields
    refine ran_of_window hwindow ?_
    simp only [hlanesOut, hatomicFields]
    exact windowRead_atomic hn hoff hporchLost hatomicFields
  case atomicRegisterWrite =>
    intro port k offset data off bs fs hwindow hlaneBytes hbs hatomicFields
    exact ran_of_window hwindow (by simp [hlaneBytes, hbs])
  case consolePeek =>
    intro uart k addr hconsole hportOn hheldBlock
    exact ran_of_onConsole hconsole (takeAcc_console none hportOn hheldBlock)
  case consolePoke =>
    intro uart k addr value hconsole hportOn hheldBlock
    exact ran_of_onConsole hconsole (takeAcc_console _ hportOn hheldBlock)
  case consoleMail =>
    intro uart k op tag body hconsole
    exact ran_of_onConsole hconsole (by simp)
  case consoleBadLine =>
    intro uart k hconsole
    exact ran_of_onConsole hconsole (by simp)

end Sys2Proof.Machine
end

section
/-! PROOFS. Grove, packet and tally rows take effect (03, 04, 10). -/

namespace Sys2Proof.Machine

/-- Settles O33: a slot's row is its guard's rule and its effect, a whole packet is received (`receive_whole`). -/
theorem groveCommandsComplete : Obligations.GroveCommandsComplete := by
  intro s
  refine ⟨?groveRestart, ?groveRestartDone, ?groveVoteWrite, ?eventPacket, ?memRead, ?memWrite, ?spineTimeout_regRead,
    ?spineTimeout_regWrite, ?spineTimeout_memRead, ?spineTimeout_memWrite, ?spineTimeout_mailbox, ?spineTimeout_tally,
    ?tallyPacket, ?tallyAck, ?tallyTailWrite⟩
  case groveRestart =>
    intro slot target hwrite hslot
    have hown : (slot.val != 0 && target.val != slot.val) = false := by
      rcases hslot with h | h <;> simp [h]
    exact took_of_guardTry hwrite hown (if_neg (by simp [hown]))
  case groveRestartDone =>
    intro target hrestarting hrange
    exact completes_ran (by simp [hrestarting, hrange])
  case groveVoteWrite =>
    intro slot vote hwrite
    exact took_of_guardWrite hwrite (by simp)
  case eventPacket =>
    intro slot irq hportOn
    exact completes_ran (if_neg (by simp [hportOn]))
  case memRead =>
    intro flits hpasses hpacketMalformed hheaderOf hpacketBadCrc
    refine completes_ran ((if_pos hpasses).trans (receive_whole _ ?_ hpacketBadCrc))
    rw [hpacketMalformed, hheaderOf]
    rfl
  case memWrite =>
    intro flits payload hpasses hpacketMalformed hheaderOf hpacketBadCrc hpayloadMalformed
    refine completes_ran ((if_pos hpasses).trans (receive_whole _ ?_ hpacketBadCrc))
    rw [hpacketMalformed, hheaderOf]
    exact hpayloadMalformed
  case spineTimeout_regRead =>
    intro port slot
    exact completes_ran (by simp)
  case spineTimeout_regWrite =>
    intro port slot
    exact completes_ran (by simp)
  case spineTimeout_memRead =>
    intro port slot
    exact completes_ran (by simp)
  case spineTimeout_memWrite =>
    intro port slot
    exact completes_ran (by simp)
  case spineTimeout_mailbox =>
    intro port slot m hmailOf
    exact completes_ran (by simp [hmailOf])
  case spineTimeout_tally =>
    intro port slot q hlook hsent hresends
    have hlast : ¬ q.resends < 3 := by omega
    exact completes_ran (by simp [hlook, Option.isNone_iff_eq_none, Option.isSome_iff_ne_none.1 hsent, hlast])
  case tallyPacket =>
    intro port slot q t hlook hsent hpasses hlook'
    exact completes_ran (by simp [hlook, hlook', hsent, hpasses])
  case tallyAck =>
    intro port slot id q hlook hpasses hsent hnum
    exact completes_ran (by simp [hlook, hpasses, hsent, hnum])
  case tallyTailWrite =>
    intro slot value hwrite htallyCount
    exact took_of_guardWrite hwrite (by simp [htallyCount])

end Sys2Proof.Machine
end

section
/-! PROOFS. SDRAM and SEAL rows take effect (04, 05). -/

namespace Sys2Proof.Machine

/-- Settles O34: each row is its guard's rule and its effect. -/
theorem memoryCommandsComplete : Obligations.MemoryCommandsComplete := by
  intro s
  refine ⟨?memctlTrain, ?memctlTrainingDone, ?sdramRefresh, ?zqCalibration, ?patrolScrub, ?pageJobDone, ?rekey,
    ?rekeyPageConverted, ?sealKeyDraw⟩
  case memctlTrain =>
    intro slot hwrite hmemctlState hmemConfig
    exact took_of_guardWrite hwrite ((if_pos (or_of hmemctlState)).trans (if_pos hmemConfig))
  case memctlTrainingDone =>
    intro cap hmemctlState hmemConfig htimingSet hhasSeal
    exact completes_ran (by simp [hmemctlState, hmemConfig, htimingSet, hhasSeal])
  case sdramRefresh =>
    intro waiting hmemctlState
    exact completes_ran (by simp [hmemctlState])
  case zqCalibration =>
    exact completes_ran (by simp)
  case patrolScrub =>
    intro hmemctlState hpatrolHours
    exact completes_ran (by simp [hmemctlState, hpatrolHours])
  case pageJobDone =>
    intro page hunderJob
    exact completes_ran (by simp [hunderJob])
  case rekey =>
    intro slot region hwrite hdormantState hregionSealed hregionState
    refine took_of_guardWrite hwrite ((if_neg (by simp [hdormantState])).trans (if_pos ?_))
    rw [regionSealed_activity, regionState_activity, hregionSealed]
    simp [hregionState]
  case rekeyPageConverted =>
    intro r page rest e t u hwalks hpage hunderJob hreadEntry hahead hu
    subst hu hpage
    refine completes_ran ?_
    simp only [hwalks, hunderJob, hreadEntry, hahead, Bool.false_eq_true, if_false]
  case sealKeyDraw =>
    intro hhasSeal hlook
    exact completes_ran (by simp [hhasSeal, hlook])

end Sys2Proof.Machine
end

section
/-! PROOFS. Clock and tempo rows take effect (06). -/

namespace Sys2Proof.Machine

/-- Settles O35: what a pin shows is taken in by `always`, the rest is its guard's rule and its effect. -/
theorem clockCommandsComplete : Obligations.ClockCommandsComplete := by
  intro s
  refine ⟨?qualificationWindow_none, ?qualificationWindow_good, ?qualificationWindow_qualifies, ?qualificationWindow_bad,
    ?xtalQualTimeout, ?crystalLost, ?metroAlarm, ?referenceReady, ?referenceLoss, ?referenceRestored, ?relockLockAcquired,
    ?relockHoldComplete, ?relockAttemptFailed, ?frequencyMonitorTrip, ?tempoReqWrite, ?tempoPgoodRise, ?tempoPgoodRise_late,
    ?tempoSettleExpire, ?pgoodFall_steady, ?pgoodFall_stepping, ?pgoodWaitTimeout_raising, ?pgoodWaitTimeout_lowering⟩
  case qualificationWindow_none =>
    intro hxtalQual hpwrgd hrefGood hrefLost
    exact acted_of_always (by simp [hxtalQual, hpwrgd, hrefGood, hrefLost])
  case qualificationWindow_good =>
    intro n hxtalQual hpwrgd hrefGood hrefLost hn hn' hxtalRun
    exact acted_of_always (by simp [hxtalQual, hpwrgd, hrefGood, hrefLost, hn, hn', Nat.not_le.mpr hxtalRun])
  case qualificationWindow_qualifies =>
    intro n hxtalQual hpwrgd hrefGood hrefLost hn hn' hxtalRun
    exact acted_of_always (by simp [hxtalQual, hpwrgd, hrefGood, hrefLost, hn, hn', hxtalRun])
  case qualificationWindow_bad =>
    intro n hxtalQual hpwrgd hrefGood hrefLost hn
    have hout : ¬ (781094 ≤ n ∧ n ≤ 781406) := by omega
    exact acted_of_always (by simp only [hxtalQual, hpwrgd, hrefGood, hrefLost, hout, if_false]; rfl)
  case xtalQualTimeout =>
    intro hpwrgd hxtalQual
    exact acted_of_always (by simp [hpwrgd, hxtalQual])
  case crystalLost =>
    intro hpwrgd hxtalQual
    exact acted_of_always (by simp [hpwrgd, hxtalQual])
  case metroAlarm =>
    intro hcompare hmetro
    exact completes_ran (if_pos (by rw [decide_eq_true hmetro]; simp [hcompare]))
  case referenceReady =>
    intro hpwrgd hrefLost hrefGood hmayStart
    exact acted_of_always ((if_neg (by simp [hpwrgd, hrefLost, hrefGood])).trans (if_pos hmayStart))
  case referenceLoss =>
    intro hrefLost hrefGood
    exact acted_of_always (by simp [hrefLost, hrefGood])
  case referenceRestored =>
    intro hrefLost hmayStart
    exact acted_of_always (by simp [hrefLost, hmayStart])
  case relockLockAcquired =>
    intro gen hgenState hrelockStale
    exact completes_ran (by simp [hgenState, hrelockStale])
  case relockHoldComplete =>
    intro gen t hgenState hrelockStale ht
    subst ht
    refine completes_ran (congrArg serveHeld (if_neg ?_))
    simp [hgenState, hrelockStale]
  case relockAttemptFailed =>
    intro gen hgenState hrelockStale
    refine completes_ran (congrArg serveHeld (if_pos ?_))
    rw [or_of hgenState, hrelockStale]
    rfl
  case frequencyMonitorTrip =>
    intro gen hgenState
    exact completes_ran (by simp [hgenState])
  case tempoReqWrite =>
    intro slot rail tempo hwrite
    exact took_of_guardWrite hwrite (by simp)
  case tempoPgoodRise =>
    intro rail late hrailLive hwait hlate
    refine senses_of rfl ((if_neg (by simp [hrailLive])).trans ?_)
    have hearly : ¬ (late = true ∧ (railOf s rail).held = 4 ∧ s.rd R.DORMANT_STATUS.STATE = 3) := by
      rcases hlate with h | h | h <;> simp [h]
    simp [hwait, hearly, and_assoc]
  case tempoPgoodRise_late =>
    intro rail hrailLive hwait hheld hdormantState hinReset
    exact acted_of_senses hinReset (by simp [hrailLive, hwait, hheld, hdormantState])
  case tempoSettleExpire =>
    intro rail
    exact completes_ran (by simp)
  case pgoodFall_steady =>
    intro rail hrailLive hseqOf
    exact senses_of rfl (by simp [hrailLive, hseqOf])
  case pgoodFall_stepping =>
    intro rail hrailLive hseqOf
    rcases hseqOf with hseq | hseq <;> exact senses_of rfl (by simp [hrailLive, hseq])
  case pgoodWaitTimeout_raising =>
    intro rail hwait hseqOf
    exact completes_ran (by simp [hwait, hseqOf])
  case pgoodWaitTimeout_lowering =>
    intro rail hwait hseqOf
    exact completes_ran (by simp [hwait, hseqOf])

end Sys2Proof.Machine
end

section
/-! PROOFS. Domain, Dormant and bell rows take effect (07). -/

namespace Sys2Proof.Machine

/-- Settles O36: each row is its guard's rule and its effect. -/
theorem domainCommandsComplete : Obligations.DomainCommandsComplete := by
  intro s
  refine ⟨?domainSetRequest, ?domainClearRequest, ?domainStepComplete, ?dormantEntryBegin, ?idleTimerExpire,
    ?entryPointComplete_begins, ?entryPointComplete_ends, ?entryPointLimit, ?bellRing, ?unwindComplete, ?muffleCountReset,
    ?wakeTimerExpire, ?bellMuffledClear, ?hostAccessInDormant⟩
  case domainSetRequest =>
    intro slot domain hwrite hdomainCmdBad
    exact took_of_guardWrite hwrite (if_neg (by simp [hdomainCmdBad]))
  case domainClearRequest =>
    intro slot domain hwrite hdomainCmdBad
    exact took_of_guardWrite hwrite (if_neg (by simp [hdomainCmdBad]))
  case domainStepComplete =>
    intro domain test
    exact completes_ran (by simp)
  case dormantEntryBegin =>
    intro hdormantState hblockers
    exact completes_ran (by simp [hdormantState, hblockers])
  case idleTimerExpire =>
    intro hdormantMode hdormantState hdrumsDone
    exact completes_ran (by simp [hdormantMode, hdormantState, hdrumsDone])
  case entryPointComplete_begins =>
    intro e t hentry hunwinding hbegun hdormantState hpointReady ht
    exact completes_ran (by simp [hentry, hunwinding, hbegun, hdormantState, hpointReady, ht])
  case entryPointComplete_ends =>
    intro e hentry hunwinding hbegun hdormantState hpointFallen
    exact completes_ran (by simp [hentry, hunwinding, hbegun, hdormantState, hpointFallen])
  case entryPointLimit =>
    intro e hentry hunwinding hdormantState
    exact completes_ran (by simp [hentry, hunwinding, hdormantState])
  case bellRing =>
    intro bell cc
    exact completes_ran (by simp)
  case unwindComplete =>
    intro e hentry hunwinding hdormantState
    exact completes_ran (by simp [hentry, hunwinding, hdormantState])
  case muffleCountReset =>
    intro bell e hentry hmetro
    exact completes_ran (by simp [hentry, hmetro])
  case wakeTimerExpire =>
    intro hdormantState
    exact completes_ran (by simp [hdormantState])
  case bellMuffledClear =>
    intro slot bells hwrite handNot
    exact took_of_guardWrite hwrite (if_neg handNot)
  case hostAccessInDormant =>
    intro port write hdormantState hhasRbp
    exact completes_ran (by simp [hdormantState, hhasRbp])

end Sys2Proof.Machine
end

section
/-! PROOFS. Boot and update rows take effect (08). -/

namespace Sys2Proof.Machine

/-- The fields that say whether the DFU request is heard: the mode, and the link of tile 0. -/
def dfuFields : List Fld := [R.HW_STATUS.MODE, R.TILE_STATUS.LINK 0]

/-- `t` has the mode and the link of `s`. -/
def KeepsDfu (s t : State) : Prop := ∀ f ∈ dfuFields, t.rd f = s.rd f

namespace KeepsDfu

theorem refl (s : State) : KeepsDfu s s := fun _ _ => rfl

theorem trans {s t u : State} (h : KeepsDfu s t) (g : KeepsDfu t u) : KeepsDfu s u := fun f hf => (g f hf).trans (h f hf)

theorem dfuLinked {s t : State} (h : KeepsDfu s t) : dfuLinked t = dfuLinked s := by
  have hmode : t.rd R.HW_STATUS.MODE = s.rd R.HW_STATUS.MODE := h _ (by simp [dfuFields])
  have hlink : t.rd (R.TILE_STATUS.LINK 0) = s.rd (R.TILE_STATUS.LINK 0) := h _ (by simp [dfuFields])
  show (decide (t.rd R.HW_STATUS.MODE = 2) && decide (t.rd (R.TILE_STATUS.LINK 0) = 3)) = _
  rw [hmode, hlink]
  rfl

theorem foldl {α : Type} {g : State → α → State} (l : List α) (h : ∀ x ∈ l, ∀ s, KeepsDfu s (g s x)) (s : State) : KeepsDfu s (l.foldl g s) := by
  induction l generalizing s with
  | nil => exact refl s
  | cons x r ih =>
    exact (h x (List.mem_cons_self ..) s).trans (ih (fun y hy => h y (List.mem_cons_of_mem _ hy)) _)

theorem wr {s : State} {f : Fld} (v : Nat) (hmode : R.HW_STATUS.MODE.key ≠ f.key) (hlink : (R.TILE_STATUS.LINK 0).key ≠ f.key) :
    KeepsDfu s (s.wr f v) := by
  intro g hg
  simp only [dfuFields, List.mem_cons, List.not_mem_nil, or_false] at hg
  rcases hg with rfl | rfl
  · exact State.rd_wr_other _ _ _ _ hmode
  · exact State.rd_wr_other _ _ _ _ hlink

theorem putTrunk (p : Nat) (x : TrunkPort) (s : State) : KeepsDfu s (putTrunk p x s) := fun _ _ => rfl

theorem setFc (p fc : Nat) (s : State) : KeepsDfu s (setFc p fc s) :=
  (wr fc (by simp only [Fld.key, R.HW_STATUS.MODE, R.PORT_FC_LO.FC]; omega)
    (by simp only [Fld.key, R.TILE_STATUS.LINK, tileBase, R.PORT_FC_LO.FC]; omega)).trans
  (wr _ (by simp only [Fld.key, R.HW_STATUS.MODE, R.PORT_FC_HI.FC]; omega)
    (by simp only [Fld.key, R.TILE_STATUS.LINK, tileBase, R.PORT_FC_HI.FC]; omega))

theorem emitFrame (p seq : Nat) (f : List Nat) (s : State) : KeepsDfu s (emitFrame p seq f s) := by
  unfold Machine.emitFrame
  dsimp only
  split
  · exact refl s
  · exact setFc p _ s

theorem freeBuffer (p : Nat) (isControl : Bool) (s : State) : KeepsDfu s (freeBuffer p isControl s) := by
  have hput : ∀ x : TrunkPort, KeepsDfu s (if portState (Machine.putTrunk p x s) p = 3 then sendKeepalive p 0 (Machine.putTrunk p x s)
      else Machine.putTrunk p x s) := fun x => by
    split
    · exact (putTrunk p x s).trans (emitFrame p 0 _ _)
    · exact putTrunk p x s
  exact hput _

theorem sendNew (p : Nat) (q : Queued) (s : State) : KeepsDfu s (sendNew p q s) := by
  have hnext : ∀ (x : TrunkPort) (seq : Nat), KeepsDfu s ((Machine.putTrunk p x s).wr (R.PORT_SEQ.TX_NEXT p) seq) := fun x seq =>
    (putTrunk p x s).trans (wr seq (by simp only [Fld.key, R.HW_STATUS.MODE, R.PORT_SEQ.TX_NEXT]; omega)
      (by simp only [Fld.key, R.TILE_STATUS.LINK, tileBase, R.PORT_SEQ.TX_NEXT]; omega))
  unfold Machine.sendNew
  dsimp only
  split
  · exact ((hnext _ _).trans (emitFrame p _ _ _)).trans (freeBuffer _ _ _)
  · exact (hnext _ _).trans (emitFrame p _ _ _)

theorem fill (p fuel : Nat) (s : State) : KeepsDfu s (fill p fuel s) := by
  induction fuel generalizing s with
  | zero => exact refl s
  | succ fuel ih =>
    have hsent : ∀ (q : Queued) (x : TrunkPort), KeepsDfu s (Machine.fill p fuel (Machine.sendNew p q (Machine.putTrunk p x s))) :=
      fun q x => ((putTrunk p x s).trans (sendNew p q _)).trans (ih _)
    unfold Machine.fill
    dsimp only
    split
    · exact refl s
    · split
      · exact hsent _ _
      · split
        · split
          · exact hsent _ _
          · exact refl s
        · exact refl s

theorem sendTo (m : Nat) (fs : List (List Nat)) (s : State) : KeepsDfu s (sendTo m fs s) := by
  unfold Machine.sendTo
  split
  · exact (foldl fs (fun f _ t => putTrunk _ _ t) s).trans (fill _ _ _)
  · exact refl s

theorem setWins (slot k : Nat) (s : State) : KeepsDfu s (setWins slot k s) := fun f _ => setWins_rd slot k s f

theorem deliverIrq (o s : State) (slot : Nat) (b : Bool) : KeepsDfu s (deliverIrq o s slot b) := fun f _ => deliver_rd o s slot b f

theorem setIrq {k : Nat} (hk : k < 32) (slot : Nat) (s : State) : KeepsDfu s (setIrq slot k s) := by
  have hbit : KeepsDfu s (s.on (irqBit slot k)) :=
    wr 1 (by simp only [Fld.key, R.HW_STATUS.MODE, irqBit]; omega) (by simp only [Fld.key, R.TILE_STATUS.LINK, tileBase, irqBit]; omega)
  unfold Machine.setIrq
  dsimp only
  split
  · exact ((hbit.trans (setWins slot k _)).trans (sendTo _ _ _)).trans (deliverIrq _ _ _ _)
  · exact (hbit.trans (setWins slot k _)).trans (deliverIrq _ _ _ _)

theorem setIrqAll {k : Nat} (hk : k < 32) (slots : List Nat) (s : State) : KeepsDfu s (setIrqAll k slots s) :=
  foldl slots (fun slot _ t => setIrq hk slot t) s

theorem setSticky {c : Nat} (hc : c < 512) (s : State) : KeepsDfu s (setSticky c s) := by
  have hbit : KeepsDfu s (s.on (R.FAULT_STICKY.BIT c)) :=
    wr 1 (by simp only [Fld.key, R.HW_STATUS.MODE, R.FAULT_STICKY.BIT]; omega)
      (by simp only [Fld.key, R.TILE_STATUS.LINK, tileBase, R.FAULT_STICKY.BIT]; omega)
  unfold Machine.setSticky summaryIrq
  split
  · exact refl s
  · split
    · exact hbit.trans (setIrqAll (by decide) _ _)
    · exact (hbit.trans (setIrqAll (by decide) _ _)).trans (setIrqAll (by decide) _ _)

theorem countEvent (c : Nat) (s : State) : KeepsDfu s (countEvent c s) := by
  unfold Machine.countEvent
  split <;> exact fun _ _ => rfl

theorem occurBit {c : Nat} (hc : c < 512) (s : State) : KeepsDfu s (occurBit c s) := by
  unfold Machine.occurBit
  dsimp only
  repeat' split
  · exact refl s
  · exact setSticky hc s
  · exact ((setSticky hc s).trans (countEvent c _)).trans
      (wr 1 (by simp only [Fld.key, R.HW_STATUS.MODE, R.FAULT_PROMOTED.BIT]; omega)
        (by simp only [Fld.key, R.TILE_STATUS.LINK, tileBase, R.FAULT_PROMOTED.BIT]; omega))
  · exact (setSticky hc s).trans (countEvent c _)

theorem senseWord (s : State) (q : Nat) : KeepsDfu s (senseWord s q) := by
  unfold Machine.senseWord
  split
  · exact refl s
  · exact (show KeepsDfu s (mendKeep q s) from fun _ _ => rfl).trans (occurBit (by decide) _)
  · exact occurBit (by decide) s

/-- Sensing words of the keeping store leaves what the DFU request looks at. -/
theorem senseKeep (lo n : Nat) (s : State) : KeepsDfu s (senseKeep lo n s) := foldl _ (fun q _ t => senseWord t q) s

end KeepsDfu

/-- Settles O37: each row is its branch on the mode and the recovery; sensing the keeping store leaves the DFU link (`KeepsDfu`). -/
theorem bootCommandsComplete : Obligations.BootCommandsComplete := by
  intro s
  refine ⟨?bootDecision, ?firmwareAlive, ?aliveTimerExpire, ?hwRamUe, ?hwRamCe, ?rngHealthFailure, ?dfuDnload_first,
    ?dfuDnload_next, ?dfuManifest, ?dfuUpload, ?dfuDetach, ?hello, ?beginFrame, ?dataFrame, ?endFrame, ?boot,
    ?seedDropBadFrame, ?seedDropGap⟩
  case bootDecision =>
    intro tables t hhwMode hcoreLocked ht
    exact completes_ran (by simp [hhwMode, hcoreLocked, ht])
  case firmwareAlive =>
    intro hhwMode halive
    exact completes_ran (by simp [hhwMode, halive])
  case aliveTimerExpire =>
    intro hhwMode halive
    exact completes_ran (by simp [hhwMode, halive])
  case hwRamUe =>
    exact completes_ran (by simp)
  case hwRamCe =>
    exact completes_ran (by simp)
  case rngHealthFailure =>
    intro present
    exact completes_ran (by simp)
  case dfuDnload_first =>
    intro alt data bad t ht hdfuLinked hdata hstate halt
    subst ht
    have hlinked := (KeepsDfu.senseKeep 0 32 s).dfuLinked.symm.trans hdfuLinked
    refine completes_ran ?_
    simp only [hlinked, Nat.not_lt.2 hdata, hstate, halt, decide_true, Bool.and_self, Bool.not_true, Bool.false_eq_true,
      if_false, if_true]
  case dfuDnload_next =>
    intro alt block data bad t ht hdfuLinked hdata hstate
    subst ht
    have hlinked := (KeepsDfu.senseKeep 0 32 s).dfuLinked.symm.trans hdfuLinked
    refine completes_ran ?_
    simp only [hlinked, Nat.not_lt.2 hdata, hstate, Nat.reduceEqDiff, decide_false, Bool.false_and, Bool.not_true,
      Bool.false_eq_true, if_false, if_true]
  case dfuManifest =>
    intro hdfuLinked hstate halt hword hleVal hslotValid
    exact completes_ran (by simp [hdfuLinked, hstate, halt, hword, hleVal, hslotValid])
  case dfuUpload =>
    intro hdfuLinked
    exact completes_ran (by simp [hdfuLinked])
  case dfuDetach =>
    intro hdfuLinked
    exact completes_ran (by simp [hdfuLinked])
  case hello =>
    intro seq t ht hinRecovery hseedLast
    exact completes_ran (seedFrame_new ht hinRecovery hseedLast)
  case beginFrame =>
    intro seq slot total t ht hinRecovery hseedLast hslot hgoodSlot htotal hholder
    refine completes_ran ((seedFrame_new ht hinRecovery hseedLast).trans (if_neg ?_))
    simp [hgoodSlot, hholder]
    omega
  case dataFrame =>
    intro seq offset data k total t ht hinRecovery hseedLast hdrop hholder hdata hdata' hoffset
    refine completes_ran ((seedFrame_new ht hinRecovery hseedLast).trans ?_)
    have hshort : ¬ data.length < 4 := by omega
    have hlong : ¬ 1016 < data.length := by omega
    simp only [hdrop, hholder, hshort, hlong, hoffset, decide_false, Bool.or_self, Bool.false_eq_true, if_false,
      decide_true, Bool.and_self, if_true]
    rfl
  case endFrame =>
    intro seq k next total t ht hinRecovery hseedLast hdrop hslotValid
    exact completes_ran ((seedFrame_new ht hinRecovery hseedLast).trans (by simp [hdrop, hslotValid]))
  case boot =>
    intro seq slot t ht hinRecovery hseedLast hslot hslotValid
    exact completes_ran ((seedFrame_new ht hinRecovery hseedLast).trans (by simp [hslot, hslotValid]))
  case seedDropBadFrame =>
    intro seq crc hinRecovery
    exact completes_ran (if_pos hinRecovery)
  case seedDropGap =>
    exact completes_ran (by simp)

end Sys2Proof.Machine
end

section
/-! PROOFS. Mailbox rows take effect (08). -/

namespace Sys2Proof.Machine

/-- Settles O38: a request that waits is served by its row (`ran_of_serveMail`), one that has no row is answered or dropped. -/
theorem mailboxCommandsComplete : Obligations.MailboxCommandsComplete := by
  intro s
  refine ⟨?mailboxSend, ?mailboxReply, ?mailboxTimeout, ?mailboxBadRequest, ?ping, ?version, ?reportOpen, ?reportRead,
    ?certRead, ?flashErase, ?flashWrite, ?flashRead, ?fwDescribe, ?fwTrial, ?reboot, ?settingsErase, ?keepingErase, ?extend⟩
  case mailboxSend =>
    intro slot hwrite
    exact took_of_guardWrite hwrite (by simp)
  case mailboxReply =>
    intro slot m r hmailOf hreply
    exact completes_ran (by simp [hmailOf, hreply])
  case mailboxTimeout =>
    intro slot m hmailOf
    exact completes_ran (by simp [hmailOf])
  case mailboxBadRequest =>
    intro slot op body hmail hknownOps
    obtain ⟨m, hm, rfl, hheard, hreply, -, -, hruns⟩ := mailWaits_mail hmail
    exact completes_ran (by simp only [hm]; exact if_pos (by rw [hheard, hreply, hruns, hknownOps]; rfl))
  case ping =>
    intro slot body hmail hbody
    exact ran_of_serveMail hmail (by simpa using hbody) rfl
  case version =>
    intro slot t hmail ht
    subst ht
    exact ran_of_serveMail hmail rfl rfl
  case reportOpen =>
    intro slot fails t hmail ht
    subst ht
    exact ran_of_serveMail hmail rfl rfl
  case reportRead =>
    intro slot body hmail hbody hleVal
    exact ran_of_serveMail hmail (by simpa using hbody) (readPart_of_lt hleVal)
  case certRead =>
    intro slot body hmail hbody hleVal
    refine completes_ran ((serveMail_served hmail (by simpa using hbody)).trans ?_)
    by_cases hnone : certificate = []
    · simp [readPart, hleVal, hnone, failMail]
    · simp [readPart, hleVal, hnone, okMail, List.length_pos_iff]
  case flashErase =>
    intro slot error body hmail hbody hslot hareaFits hleVal hareaLocked hareaChecked
    exact completes_ran (writeArea_answers hmail (by simpa using hbody) hslot (by simp [hleVal, hareaFits]) hareaLocked
      hareaChecked)
  case flashWrite =>
    intro slot error body hmail hbody hbody' hbody'' hslot hareaFits hareaLocked hareaChecked
    exact completes_ran (writeArea_answers hmail (by simp [hbody, hbody', hbody'']) hslot hareaFits hareaLocked hareaChecked)
  case flashRead =>
    intro slot body hmail hbody hslot hword hword' hareaFits
    exact ran_of_serveMail hmail (by simpa using hbody) (stewardMail_of_zero hslot (if_pos (by simp [hword, hword',
      hareaFits])))
  case fwDescribe =>
    intro slot error body hmail hbody hslot hword hslotRuns
    refine completes_ran ((serveMail_served hmail (by simpa using hbody)).trans ?_)
    have hknown : ¬ word body 0 > 1 := by omega
    simp only [stewardMail_of_zero hslot rfl, hknown, hslotRuns, if_false, Bool.false_eq_true]
  case fwTrial =>
    intro slot body hmail hbody hslot hword hslotRuns hheaded
    have hknown : ¬ word body 0 > 1 := by omega
    exact ran_of_serveMail hmail (by simpa using hbody) (stewardMail_of_zero hslot (by simp [hknown, hslotRuns, hheaded,
      okMail]))
  case reboot =>
    intro slot body m hmail hbody hslot hword hmailOf
    obtain ⟨m', hm, hop, hheard, hreply, hlen, hbody', hruns⟩ := mailWaits_mail hmail
    obtain rfl : m = m' := by simpa [hmailOf] using hm
    subst hbody'
    have hserved : (m.op = 0x25 && m.heard && m.reply.isNone && firmwareRuns s && m.len = 4 && slot.val = 0 && word m.body 0 ≤
      1) = true := by
      simp [hop, hheard, hreply, hruns, hlen, hbody, hslot, hword]
    refine completes_ran ?_
    simp only [hmailOf]
    rw [if_pos hserved, if_neg (show ¬ word m.body 0 = 1 by simp [hword])] <;> rfl
  case settingsErase =>
    intro slot body hmail hbody hword hslot
    have hknown : ¬ word body 0 > 31 := by omega
    exact ran_of_serveMail hmail (by simpa using hbody) ((if_neg hknown).trans (if_pos (or_of hslot)))
  case keepingErase =>
    intro slot hmail hslot
    exact ran_of_serveMail hmail rfl (stewardMail_of_zero hslot rfl)
  case extend =>
    intro slot body hmail hbody hslot hword hword'
    exact ran_of_serveMail hmail (by simpa using hbody) (stewardMail_of_zero hslot (if_pos (by simp [hword, hword'])))

end Sys2Proof.Machine
end

section
/-! PROOFS. Start, fault and identity bus rows take effect (09, 10, 11). -/

namespace Sys2Proof.Machine

/-- Pins that put a running part with power into reset restart it. -/
theorem resetPins_holds {s : State} {n test : Bool} (hpower : s.pwrgd = true) (hran : (!s.resetN || s.testEn) = false)
    (hholds : (!n || test) = true) : resetPins n test s = showStraps (restartState { s with resetN := n, testEn := test }) := by
  have hchange : ¬ (!s.pwrgd || decide ((!s.resetN || s.testEn) = (!n || test))) = true := by rw [hpower, hran, hholds]; decide
  exact (if_neg hchange).trans (if_pos hholds)

/-- Pins that release a part that may start start its clocks. -/
theorem resetPins_releases {s : State} {n test : Bool} (hpower : s.pwrgd = true) (hheld : (!s.resetN || s.testEn) = true)
    (hfree : (!n || test) = false) (hmay : mayStart { s with resetN := n, testEn := test } = true) :
    resetPins n test s = startClocks { s with resetN := n, testEn := test } := by
  have hchange : ¬ (!s.pwrgd || decide ((!s.resetN || s.testEn) = (!n || test))) = true := by rw [hpower, hheld, hfree]; decide
  have hfree' : ¬ (!n || test) = true := by rw [hfree]; decide
  exact (if_neg hchange).trans ((if_neg hfree').trans (if_pos hmay))

/-- Settles O39: pins act at once (`acted_of_always`, `senses_of`), the other rows are their guard or their branch. -/
theorem startCommandsComplete : Obligations.StartCommandsComplete := by
  intro s
  refine ⟨?pwrgdRise, ?pwrgdFall, ?resetNFall, ?resetNRise, ?testEnChange_high, ?testEnChange_low, ?dbgTrstNChange,
    ?groveBringup, ?drumBringup, ?rbpModeSwitch, ?strapResponderAccess, ?deferredKeepingWrite, ?retryBackoffExpire,
    ?faultWindowClose, ?faultQuietExpire, ?faultStickyClear, ?unprune, ?unpruneDone, ?idbScan, ?idbLineTimeout, ?release,
    ?rescan, ?idbCmdRefused, ?rescanComplete, ?rbpDriverFault, ?tilePhyFault⟩
  case pwrgdRise =>
    intro a b position hpwrgd
    exact acted_of_always (by simp [hpwrgd])
  case pwrgdFall =>
    intro hpwrgd
    exact acted_of_always (by simp [hpwrgd])
  case resetNFall =>
    intro hpwrgd hresetN htestEn
    exact acted_of_always (resetPins_holds hpwrgd (by rw [hresetN, htestEn]; rfl) rfl)
  case resetNRise =>
    intro hpwrgd hresetN htestEn hmayStart
    exact acted_of_always (resetPins_releases hpwrgd (by rw [hresetN]; rfl) (by rw [htestEn]; rfl) hmayStart)
  case testEnChange_high =>
    intro hpwrgd hresetN htestEn
    exact acted_of_always (resetPins_holds hpwrgd (by rw [hresetN, htestEn]; rfl) (by rw [hresetN]; rfl))
  case testEnChange_low =>
    intro hpwrgd hresetN htestEn hmayStart
    exact acted_of_always (resetPins_releases hpwrgd (by rw [hresetN, htestEn]; rfl) (by rw [hresetN]; rfl) hmayStart)
  case dbgTrstNChange =>
    intro high href
    exact senses_of rfl (if_pos href)
  case groveBringup =>
    intro up slot hnextGrove hregionsWait
    exact completes_ran (by simp [hnextGrove, hregionsWait])
  case drumBringup =>
    intro drum inner outer t hhasDrum ht hhwMode hconfigured hallReady hdrumRec hdrum hup hdrumDone hhasDrum'
    subst ht
    refine completes_ran ?_
    have hstarts : (drum.val = 1 && !drumDone ((s.wrB (R.TRAY_STATUS.IN_SW drum) inner).wrB (R.TRAY_STATUS.OUT_SW drum) outer)
      0) = false := by
      rcases hdrum with h | h <;> simp [h]
    have hrec : (drumRec ((s.wrB (R.TRAY_STATUS.IN_SW drum) inner).wrB (R.TRAY_STATUS.OUT_SW drum) outer) drum).isNone = false
      := by
      simpa using hdrumRec
    simp only [hhasDrum, if_true, hhwMode, hconfigured, hallReady, hrec, hhasDrum', hstarts, hup, hdrumDone, bne_self_eq_false,
      Bool.not_true, Bool.or_self, Bool.false_eq_true, if_false]
  case rbpModeSwitch =>
    intro port htoServe hhasRbp hisPruned
    exact completes_ran (by simp [htoServe, hhasRbp, hisPruned])
  case strapResponderAccess =>
    intro port hhasRbp hpwrgd hserving hlook
    have hloud : strapSilent s port = false := by simp [strapSilent, hlook]
    exact acted_of_always (if_neg (by simp [hpwrgd, hhasRbp, hserving, hloud]))
  case deferredKeepingWrite =>
    intro d r hdeferred hdomOn
    exact completes_ran (by simp [hdeferred, hdomOn])
  case retryBackoffExpire =>
    intro source up hlook
    exact completes_ran (by simp [hlook])
  case faultWindowClose =>
    intro source
    exact completes_ran (by simp)
  case faultQuietExpire =>
    intro source hmayQuiet
    exact completes_ran (by simp [hmayQuiet])
  case faultStickyClear =>
    intro slot w value hwrite hstickyRefused
    exact took_of_guardTry hwrite hstickyRefused rfl
  case unprune =>
    intro slot code hwrite hslot
    exact took_of_guardTry hwrite (by simp [hslot]) (if_pos hslot)
  case unpruneDone =>
    intro code hunpruning
    refine completes_ran ?_
    simp only [hunpruning]
    rfl
  case idbScan =>
    intro reads hhwMode hcanopyDone hscanned
    exact completes_ran (by simp [hhwMode, hcanopyDone, hscanned])
  case idbLineTimeout =>
    intro bus hhwMode hscanned hrescan
    exact completes_ran (by simp [hhwMode, hscanned, Option.isNone_iff_eq_none.mp hrescan])
  case release =>
    intro slot bus address hwrite
    exact took_of_guardWrite hwrite (by simp)
  case rescan =>
    intro slot bus address hwrite
    exact took_of_guardWrite hwrite (by simp)
  case idbCmdRefused =>
    intro slot op bus address hwrite
    exact took_of_guardWrite hwrite (by simp)
  case rescanComplete =>
    intro read ups a hrescan hseedOutcome
    exact completes_ran (by simp [hrescan, hseedOutcome])
  case rbpDriverFault =>
    intro port present hhasRbp
    exact completes_ran (by simp [hhasRbp])
  case tilePhyFault =>
    intro tile
    exact completes_ran (by simp)

end Sys2Proof.Machine
end

section
/-! PROOFS. Retro Bus rows take effect (12). -/

namespace Sys2Proof.Machine

/-- What runs for the slot of a port that serves it. -/
theorem served_runs {s : State} {p k : Nat} {f : Nat → State → State} (hslot : slotOfRbp s p = some k) (hserving : rbpServing s p = true) :
    served p f s = f k s := by
  simp only [served, hslot, hserving, if_true]

/-- Settles O40: a window's row is its guard's rule, the other rows are their branch on the port's queue and job. -/
theorem retroBusCommandsComplete : Obligations.RetroBusCommandsComplete := by
  intro s
  refine ⟨?indDataCommit, ?indCmdRead_idle, ?indCmdRead_busy, ?indDataDirectRead, ?indDataConsume, ?indirectAnswer_read,
    ?indirectAnswer_timeout, ?rbpWaitTimeout, ?rbpProtocolError, ?doorbellStroke, ?doorbellTally, ?queuePull, ?queuePush,
    ?doorbellMailbox, ?doorbellBadOp, ?doorbellDone, ?pageCommit, ?refill, ?pageFillDone, ?pagedViewWrite, ?writeThroughAnswer,
    ?winIrqClear, ?dmaGo, ?dmaCancel, ?dmaGrant, ?dmaBurstEnd, ?dmaReleaseExpire, ?dmaGrantTimeout, ?dmaGrantWithdrawn⟩
  case indDataCommit =>
    intro port data k hwindow
    exact ran_of_window hwindow (by simp)
  case indCmdRead_idle =>
    intro port k hwindow hbusy
    exact ran_of_window hwindow (by simp [hbusy])
  case indCmdRead_busy =>
    intro port k hwindow hbusy
    exact ran_of_window hwindow (by simp [hbusy])
  case indDataDirectRead =>
    intro port both k hwindow hclockedMode hdirect hbusy hvalid
    exact ran_of_window hwindow (by simp [hclockedMode, hdirect, hbusy, hvalid])
  case indDataConsume =>
    intro port k hwindow
    exact ran_of_window hwindow (by simp)
  case indirectAnswer_read =>
    intro port a d w rest k status value t hissues hslotOfRbp hheldBlock hreadReg
    exact completes_ran (by simp [hissues, hslotOfRbp, hheldBlock, hreadReg])
  case indirectAnswer_timeout =>
    intro port a be v rest k hissues hslotOfRbp
    exact completes_ran (by simp [hissues, hslotOfRbp])
  case rbpWaitTimeout =>
    intro port count hwaiting
    refine completes_ran ?_
    simp only [hwaiting] <;> rfl
  case rbpProtocolError =>
    intro port hrbpServing
    exact completes_ran (by simp [hrbpServing])
  case doorbellStroke =>
    intro port
    exact completes_ran (by simp)
  case doorbellTally =>
    intro port
    exact completes_ran (by simp)
  case queuePull =>
    intro port
    exact completes_ran (by simp)
  case queuePush =>
    intro port
    exact completes_ran (by simp)
  case doorbellMailbox =>
    intro port
    exact completes_ran (by simp)
  case doorbellBadOp =>
    intro port
    exact completes_ran (by simp)
  case doorbellDone =>
    intro port
    exact completes_ran (by simp)
  case pageCommit =>
    intro port data k hwindow
    exact ran_of_window hwindow (by simp)
  case refill =>
    intro port k hwindow
    exact ran_of_window hwindow (by simp)
  case pageFillDone =>
    intro port region unit rest k a hissues hslotOfRbp hregionAddr
    exact completes_ran (by simp [hissues, hslotOfRbp, hregionAddr])
  case pagedViewWrite =>
    intro port offset data k off bs hwindow hlaneBytes hx800 hoff hisEmpty
    exact ran_of_window hwindow (by simp [hlaneBytes, hx800, hoff, hisEmpty])
  case writeThroughAnswer =>
    intro port region bs rest k hissues hslotOfRbp
    refine completes_ran ?_
    simp only [hissues, hslotOfRbp] <;> rfl
  case winIrqClear =>
    intro port bits k hwindow
    exact ran_of_window hwindow (by simp)
  case dmaGo =>
    intro port dir k t a hwindow hdmaRunning ht hdmaFits hregionAddr
    subst ht
    refine ran_of_window hwindow ?_
    simp only [hdmaRunning, hdmaFits, hregionAddr, Option.isNone_some, Bool.not_true, Bool.false_eq_true, if_false]
  case dmaCancel =>
    intro port cycles data k hslotOfRbp hrbpServing hdmaRunning
    refine completes_ran ((served_runs hslotOfRbp hrbpServing).trans ((if_neg (by simp [hdmaRunning])).trans ?_))
    split <;> rfl
  case dmaGrant =>
    intro port hdmaRunning hdma
    exact completes_ran (by simp [hdmaRunning, hdma])
  case dmaBurstEnd =>
    intro port data hdmaRunning hdma
    exact completes_ran (by simp [hdmaRunning, hdma])
  case dmaReleaseExpire =>
    intro port hdmaRunning hdma
    exact completes_ran (by simp [hdmaRunning, hdma])
  case dmaGrantTimeout =>
    intro port hdmaRunning hdma
    exact completes_ran (by simp [hdmaRunning, hdma])
  case dmaGrantWithdrawn =>
    intro port cycles data hdmaRunning hdma
    exact completes_ran (by simp [hdmaRunning, hdma])

end Sys2Proof.Machine
end

section
/-! PROOFS. Hub request rows take effect (13). -/

namespace Sys2Proof.Machine

/-- A served port is that of its tile, so a link state put on the port is put on the tile. -/
theorem setPortLink_served {s : State} {slot k t : Nat} (h : portServed s slot k t = true) (link : Nat) :
    setPortLink slot k link s = setLink t link s := by
  simp only [portServed, Bool.and_eq_true, beq_iff_eq] at h
  simp only [setPortLink, h.2]

/-- Settles O41: a request that its hub serves acts on the port's tile (`ran_of_portRequest`, `setPortLink_served`). -/
theorem hubRequestsComplete : Obligations.HubRequestsComplete := by
  intro s
  refine ⟨?clearTtBuffer, ?resetTt, ?getTtState, ?stopTt, ?setHubDepth, ?getPortErrCount, ?setPortPower, ?clearPortPower,
    ?portReset, ?bhPortReset, ?portSuspend_set, ?portSuspend_clear, ?portLinkState_resume, ?portLinkState_suspend,
    ?portU1Timeout, ?portU2Timeout, ?portRemoteWakeMask, ?forceLinkpmAccept, ?portTest, ?portIndicator, ?standardRequest_hub,
    ?standardRequest_function, ?standardRequest_dfu⟩
  case clearTtBuffer =>
    intro slot port tile buffer hport hhasTts
    exact ran_of_portRequest hport (by simp [hhasTts])
  case resetTt =>
    intro slot port tile hport hhasTts
    exact ran_of_portRequest hport (by simp [hhasTts])
  case getTtState =>
    intro slot port tile hport hhasTts
    exact ran_of_portRequest hport (by simp [hhasTts])
  case stopTt =>
    intro slot port tile hport hhasTts
    exact ran_of_portRequest hport (by simp [hhasTts])
  case setHubDepth =>
    intro slot depth hhub
    exact ran_of_hubRequest hhub (by simp)
  case getPortErrCount =>
    intro slot port tile counts t hport ht
    exact ran_of_portRequest hport (by simp [ht])
  case setPortPower =>
    intro slot port tile hport
    exact ran_of_portRequest hport (by simp)
  case clearPortPower =>
    intro slot port tile hport hisTaprootHub
    exact ran_of_portRequest hport (by simp [hisTaprootHub])
  case portReset =>
    intro slot port tile hport
    exact ran_of_portRequest hport (by simp)
  case bhPortReset =>
    intro slot port tile hport hhubPort
    have hsuper : portSuper s slot port = true := decide_eq_true hhubPort
    exact ran_of_portRequest hport (if_pos hsuper)
  case portSuspend_set =>
    intro slot port tile hport hspeed henabled
    have hsuper : portSuper s slot port = false := by simpa [portSuper] using hspeed
    exact ran_of_portRequest hport (by simp [hsuper, henabled, setPortLink_served hport])
  case portSuspend_clear =>
    intro slot port tile hport hspeed henabled hlink
    have hsuper : portSuper s slot port = false := by simpa [portSuper] using hspeed
    exact ran_of_portRequest hport (by simp [hsuper, henabled, portLink, hlink, setPortLink_served hport])
  case portLinkState_resume =>
    intro slot port tile hport hhubPort hlink
    have hsuper : portSuper s slot port = true := decide_eq_true hhubPort
    exact ran_of_portRequest hport (by simp [hsuper, portLink, hlink, setPortLink_served hport])
  case portLinkState_suspend =>
    intro slot port tile hport hhubPort hlink
    have hsuper : portSuper s slot port = true := decide_eq_true hhubPort
    exact ran_of_portRequest hport (by simp [hsuper, portLink, hlink, setPortLink_served hport])
  case portU1Timeout =>
    intro slot port tile value hport
    exact ran_of_portRequest hport (by simp)
  case portU2Timeout =>
    intro slot port tile value hport
    exact ran_of_portRequest hport (by simp)
  case portRemoteWakeMask =>
    intro slot port tile value hport
    exact ran_of_portRequest hport (by simp)
  case forceLinkpmAccept =>
    intro slot port tile set hport
    exact ran_of_portRequest hport (by simp)
  case portTest =>
    intro slot port tile value hport
    exact ran_of_portRequest hport (by simp)
  case portIndicator =>
    intro slot port hhub
    exact ran_of_hubRequest hhub (by simp)
  case standardRequest_hub =>
    intro slot part request hinRecovery hisVirtualHub hupActive hpart hpart'
    have hsuper : (!isVirtualHub s slot || (part = .usb3 && !upSuper s slot)) = false := by
      cases part <;> simp_all
    refine completes_ran ?_
    simp only [hinRecovery, hupActive, hpart, hsuper, Bool.not_true, Bool.false_eq_true, if_false]
  case standardRequest_function =>
    intro slot request hinRecovery hisVirtualHub hupActive
    have hserves : ¬ (configured s && !isVirtualHub s slot) = true := by
      rcases hisVirtualHub with h | h <;> simp [h]
    refine completes_ran ?_
    simp only [hinRecovery, hupActive, hserves, Bool.not_true, Bool.false_eq_true, if_false, if_true]
  case standardRequest_dfu =>
    intro slot part request hinRecovery hslot hlinkOf
    exact completes_ran (by simp [hinRecovery, hslot, hlinkOf])

end Sys2Proof.Machine
end

section
/-! PROOFS. USB link rows take effect (13). -/

namespace Sys2Proof.Machine

/-- Settles O42: each event is its row's branch on a tile whose port stands as the clause says. -/
theorem tileLinkEventsComplete : Obligations.TileLinkEventsComplete := by
  intro s
  refine ⟨?vendorRegRead, ?vendorRegWrite, ?vendorRequestStall, ?interruptInPoll, ?portResetComplete,
    ?receiverDetection_absent, ?receiverDetection_trained, ?ssDetectTimeout, ?usb2Connect, ?upTileDetach_hub,
    ?upTileDetach_dfu, ?hubResetByHost, ?lpmToken_tile, ?lpmToken_function, ?u1U2Entry_tile, ?u1U2Entry_function,
    ?globalSuspend, ?hostResume, ?deviceRemoteWake, ?u3ExitLfps, ?ttSplitDiscard, ?scheduleMiss⟩
  case vendorRegRead =>
    intro slot value index length hupActive hvendorLength hvalue
    exact completes_ran (by simp [hupActive, hvendorLength, hvalue])
  case vendorRegWrite =>
    intro slot value index words hupActive hvendorLength hvalue
    exact completes_ran (by simp [hupActive, hvendorLength, hvalue])
  case vendorRequestStall =>
    intro slot request value length hupActive hrequest hrequest'
    exact completes_ran (by simp [hupActive, hrequest, hrequest'])
  case interruptInPoll =>
    intro slot hlook hfunctionRuns
    exact completes_ran (by simp [hlook, hfunctionRuns])
  case portResetComplete =>
    intro tile n slot k t hportOfTile hresetting ht hconnect
    subst ht
    refine completes_ran ?_
    simp only [hportOfTile, hresetting, hconnect, Bool.not_true, Bool.false_eq_true, if_false]
  case receiverDetection_absent =>
    intro tile hrunsDetection
    exact completes_ran (by simp [hrunsDetection])
  case receiverDetection_trained =>
    intro tile gen2 hrunsDetection
    exact completes_ran (by simp [hrunsDetection])
  case ssDetectTimeout =>
    intro tile hrunsDetection
    exact completes_ran (by simp [hrunsDetection])
  case usb2Connect =>
    intro tile low hawaitsConnect hrunsDetection
    exact completes_ran (by simp [hawaitsConnect, hrunsDetection])
  case upTileDetach_hub =>
    intro tile slot hisDfu hslotOfUpTile
    exact completes_ran (by simp [hisDfu, hslotOfUpTile])
  case upTileDetach_dfu =>
    intro tile hisDfu
    exact completes_ran (by simp [hisDfu])
  case hubResetByHost =>
    intro slot hisVirtualHub hupLinked
    exact completes_ran (if_pos (by simp [hisVirtualHub, hupLinked]))
  case lpmToken_tile =>
    intro tile besl busy hbesl hlinkOf hspeed hbusy
    exact completes_ran (by simp [hbesl, hlinkOf, hspeed, hbusy])
  case lpmToken_function =>
    intro slot besl k busy hk hisVirtualHub hbesl hportLink hspeed hbusy
    subst hk
    refine completes_ran (if_pos ?_)
    rcases hbusy with h | h <;> simp [hisVirtualHub, hbesl, hportLink, hspeed, h]
  case u1U2Entry_tile =>
    intro tile entry t slot k l ht htileStatus hportOfTile hlinkMoves
    subst ht
    have hsuper : ¬ (countLink tile entry.counts s).rd (R.TILE_STATUS.SPEED tile) < 4 := Nat.not_lt.2 htileStatus
    refine completes_ran ?_
    simp only [hsuper, hportOfTile, hlinkMoves, if_false]
  case u1U2Entry_function =>
    intro slot entry k l hk hisVirtualHub hportSuper hlinkMoves
    subst hk
    refine completes_ran ?_
    simp only [hisVirtualHub, hportSuper, hlinkMoves, Bool.not_true, Bool.or_false, Bool.false_eq_true, if_false]
  case globalSuspend =>
    intro slot u hisVirtualHub hupLinked hupTileOf
    exact completes_ran (by simp [hisVirtualHub, hupLinked, hupTileOf])
  case hostResume =>
    intro tile slot hslotOfUpTile hlinkOf
    exact completes_ran (by simp [hslotOfUpTile, hlinkOf])
  case deviceRemoteWake =>
    intro tile funcWake slot k t ht hportOfTile hisVirtualHub hlinkOf hwakeEnabled hwakePermit
    subst ht
    have hnot : ¬ linkOf (ringBell tile false s) tile = 4 := by simp [hlinkOf]
    refine completes_ran ?_
    simp only [hportOfTile, hisVirtualHub, hlinkOf, hwakeEnabled, hwakePermit, Nat.reduceEqDiff, decide_true, Bool.and_true,
      if_false, if_true]
  case u3ExitLfps =>
    intro tile slot t ht hlinkOf htileStatus hslotOfUpTile
    subst ht
    refine completes_ran ((if_neg (by simp [hlinkOf])).trans ((if_pos (by simp [hlinkOf, htileStatus])).trans ?_))
    simp only [hslotOfUpTile]
  case ttSplitDiscard =>
    intro slot port splits t x old s1 htileOfPort hhasTts hlook hlook' hs1 hstopped
    exact completes_ran (by simp [htileOfPort, hhasTts, hlook, hlook', hs1, hstopped])
  case scheduleMiss =>
    intro slot
    exact completes_ran (by simp)

end Sys2Proof.Machine
end

section
/-! PROOFS. Taproot device rows take effect (14). -/

namespace Sys2Proof.Machine

/-- What a device's report does when its service takes it. -/
theorem report_served {s : State} {slot handle svc : Nat} {d : TapDev} {f : TapDev → State → State} (hdev : devOf s slot handle = some d)
    (hruns : busRuns s slot = true) (hservice : bit d.services svc = true) (hclaimed : d.claimed = false) (hawake : d.suspended = false) :
    report slot handle svc f s = f d s := by
  simp [report, hdev, hruns, hservice, hclaimed, hawake]

/-- With nothing waiting there is no record to merge with. -/
theorem mergeLast_nil (t handle : Nat) (f : List Nat → Option (List Nat)) : mergeLast t handle f [] = none := rfl

/-- Settles O43: a report that its service takes (`report_served`) acts as its row says, and no record waits to be merged with. -/
theorem taprootReportsComplete : Obligations.TaprootReportsComplete := by
  intro s
  refine ⟨?taprootEnumerate, ?keyboardReport, ?pointerReport, ?padReport, ?leds, ?serialRxData, ?serialStateNotify,
    ?taprootDeviceDetach_device, ?taprootDeviceDetach_place, ?taprootRemoteWake, ?taprootHalt, ?taprootRestart⟩
  case taprootEnumerate =>
    intro slot dev a h d0 d t htapState hplaceExists htriesWait hoverLimit hconfig ht hlowestFree hlowestFree' hd0 hd
    subst ht hd hd0
    have hsize : ¬ 1024 < dev.config.length := Nat.not_lt.2 hconfig
    refine completes_ran ((if_neg (by simp [htapState, hplaceExists, htriesWait])).trans ?_)
    simp only [hoverLimit, gt_iff_lt, hsize, if_false, hlowestFree, hlowestFree']
  case keyboardReport =>
    intro slot handle d report hdevOf hbusRuns hbit hclaimed hsuspended hdrop
    exact completes_ran ((report_served hdevOf hbusRuns hbit hclaimed hsuspended).trans (if_neg (by rw [hdrop]; decide)))
  case pointerReport =>
    intro slot handle d report t hdevOf hbusRuns hbit hclaimed hsuspended ht hpullOf
    subst ht
    refine completes_ran ((report_served hdevOf hbusRuns hbit hclaimed hsuspended).trans ?_)
    simp only [hpullOf, mergeLast_nil]
  case padReport =>
    intro slot handle iface id d body r hdevOf hbusRuns hbit hclaimed hsuspended hpullOf hisPad hr
    subst hr
    refine completes_ran ((report_served hdevOf hbusRuns hbit hclaimed hsuspended).trans ?_)
    simp only [hisPad, hpullOf, mergeLast_nil, Bool.not_true, Bool.false_eq_true, if_false]
  case leds =>
    intro slot r rest hpushOf hbusRuns
    exact completes_ran (by simp [hpushOf, hbusRuns])
  case serialRxData =>
    intro slot handle d data hdevOf hbusRuns hbit hclaimed hsuspended
    exact completes_ran (report_served hdevOf hbusRuns hbit hclaimed hsuspended)
  case serialStateNotify =>
    intro slot handle d bits hdevOf hbusRuns hbit hclaimed hsuspended
    exact completes_ran (report_served hdevOf hbusRuns hbit hclaimed hsuspended)
  case taprootDeviceDetach_device =>
    intro slot handle d hdevOf
    exact completes_ran (by simp [hdevOf])
  case taprootDeviceDetach_place =>
    intro slot root hub1 hub2
    exact completes_ran (by simp)
  case taprootRemoteWake =>
    intro slot handle d t hdevOf hdormantState ht
    subst ht
    refine completes_ran ?_
    simp only [hdevOf, hdormantState, if_true] <;> rfl
  case taprootHalt =>
    exact completes_ran (by simp)
  case taprootRestart =>
    intro hisSticky
    exact completes_ran (by simp [hisSticky])

end Sys2Proof.Machine
end

section
/-! PROOFS. Taproot service rows take effect (14). -/

namespace Sys2Proof.Machine

/-- A Taproot mailbox request that its operation serves on a slot with a Taproot. -/
theorem ran_of_tapMail {s t : State} {slot op len status : Nat} {body reply : List Nat} {f : List Nat → State → MailAnswer}
    (hmail : mailWaits s slot op body = true) (hlen : body.length = len) (hrbp : (rbpOf s slot).isSome = true)
    (e : f body s = (status, reply, t)) :
    completes s (tapMail slot op len f s) = .next (ran s (setReply slot status reply t)) :=
  ran_of_serveMail hmail (decide_eq_true hlen) ((if_pos hrbp).trans e)

theorem withDev_found {s : State} {slot i : Nat} {b : List Nat} {d : TapDev} {f : TapDev → MailAnswer}
    (hdev : devOf s slot (recU b (4 * i) 4) = some d) : withDev slot i b s f = f d := by
  simp only [withDev, hdev]

/-- A block command that ends at once: its place is in range, its memory is swept clean, and the blocks move. -/
theorem runBlocks_ended {s t : State} {slot h a : Nat} {write : Bool} {d : TapDev} {r : List Nat} {result : BlockEnd}
    {move : TapDev → List Nat → Nat → State → Nat × Bool × State} {p : Nat × Bool × State} (hhead : blockHead s slot h = some (d, r))
    (hop : r.getD 0 0 = if write then 0x41 else 0x40) (hbegun : d.begun = none) (hresult : result ≠ .running)
    (hrange : blockRange (resumeDev slot h s) slot r (blockSize d) = some a)
    (hsweep : sweepUse .usb ((resumeDev slot h s).emit (.command slot h (blockCdb write (recU r 8 8) (recU r 16 4)))) = (false, t))
    (hmove : move d r a t = p) :
    runBlocks slot h write move result s = endBlock slot h
      (if p.2.1 then blockEnding 4 0 0 0 p.1 [] else endingOf result p.1 (recU r 16 4) []) (afterCommand slot d result p.2.2) := by
  simp only [runBlocks, hhead, hop, bne_self_eq_false, hbegun, Option.isSome_none, hrange, hsweep, hmove, endOrRun, hresult,
    Bool.false_eq_true, if_false]
  split
  · next hlost => simp only []
  · next hkept => simp only []

/-- Settles O44: a mailbox request is served on its device (`ran_of_tapMail`, `withDev_found`), a block command moves its blocks (`runBlocks_ended`). -/
theorem taprootServicesComplete : Obligations.TaprootServicesComplete := by
  intro s
  refine ⟨?blockRead, ?blockWrite, ?capacity, ?blockRequestDone, ?tx, ?line, ?pipeTransfer, ?pipeTransferEnd_complete,
    ?pipeTransferEnd_stall, ?pipeTransferTimeout, ?deviceInfo, ?descriptorRead, ?claim, ?pipeOpen, ?pipeClose, ?pipeClearHalt,
    ?taprootSuspend_suspend, ?taprootSuspend_resume, ?portCycle⟩
  case blockRead =>
    intro slot handle d r data result a p t hblockHead hgetD hbegun hresult hblockRange hsweepUse hputBlocks
    refine completes_ran (runBlocks_ended hblockHead hgetD hbegun hresult hblockRange hsweepUse ?_)
    simp only [hbegun, Option.getD_none, Nat.sub_zero]
    exact hputBlocks
  case blockWrite =>
    intro slot handle d r acked result a p t hblockHead hgetD hbegun hresult hblockRange hsweepUse hgetBlocks
    refine completes_ran (runBlocks_ended (p := (min acked p.1, p.2)) hblockHead hgetD hbegun hresult hblockRange hsweepUse ?_)
    simp only [hbegun, Option.getD_none, Nat.sub_zero, Nat.zero_add, hgetBlocks]
  case capacity =>
    intro slot handle d r blocks size result hblockHead hgetD hbegun hresult
    refine completes_ran ?_
    simp only [hblockHead, hgetD, bne_self_eq_false, hbegun, Option.isSome_none, endOrRun, hresult, Bool.false_eq_true,
      if_false]
  case blockRequestDone =>
    intro slot handle d r e hdevOf hpushOf hended
    exact completes_ran (by simp [hdevOf, hpushOf, hended])
  case tx =>
    intro slot handle r hserialHead
    exact completes_ran (by simp [hserialHead])
  case line =>
    intro slot handle r hserialHead
    exact completes_ran (by simp [hserialHead])
  case pipeTransfer =>
    intro slot pipe packets retries used data x d rest hpipeOf hpending hstarted hhalted hbusRuns hdormantState hkind hsweepUse hused
    exact completes_ran (by simp [hpipeOf, hpending, hstarted, hhalted, hbusRuns, hdormantState, hkind, hsweepUse, hused])
  case pipeTransferEnd_complete =>
    intro slot pipe x d rest hpipeOf hpending hstarted
    exact completes_ran (by simp [hpipeOf, hpending, hstarted])
  case pipeTransferEnd_stall =>
    intro slot pipe x d rest hpipeOf hpending hstarted
    exact completes_ran (by simp [hpipeOf, hpending, hstarted])
  case pipeTransferTimeout =>
    intro slot pipe x d rest hpipeOf hpending hstarted hrecU
    exact completes_ran (by simp [hpipeOf, hpending, hstarted, hrecU])
  case deviceInfo =>
    intro slot body d hmail hbody hrbpOf hdevOf
    exact ran_of_tapMail hmail hbody hrbpOf (withDev_found hdevOf)
  case descriptorRead =>
    intro slot body d hmail hbody hrbpOf hdevOf hrecU
    exact ran_of_tapMail hmail hbody hrbpOf ((withDev_found hdevOf).trans (if_neg (Nat.not_le.2 hrecU)))
  case claim =>
    intro slot body d hmail hbody hrbpOf hdevOf hrecU hpushOf
    refine ran_of_tapMail hmail hbody hrbpOf ((withDev_found hdevOf).trans ?_)
    simp only [hrecU, hpushOf, Nat.lt_irrefl, Bool.false_eq_true, if_false, if_true]
    rfl
  case pipeOpen =>
    intro slot body d hmail hbody hrbpOf hrawPipes hrecU hdevOf hpipeOf hclaimed hrecU' hep0
    have hk : ¬ 8 ≤ recU body 0 4 := Nat.not_le.2 hrecU
    have hfree : (pipeOf s slot (recU body 0 4)).isSome = false := by
      cases hpipe : pipeOf s slot (recU body 0 4) <;> simp_all
    refine ran_of_tapMail hmail hbody hrbpOf ?_
    simp only [hrawPipes, hk, Bool.not_true, Bool.false_eq_true, if_false, withDev_found (i := 1) hdevOf, hfree, hclaimed,
      Bool.or_self]
    simp [hrecU', hep0, okMail]
  case pipeClose =>
    intro slot body x hmail hbody hrbpOf hrecU hpipeOf
    refine ran_of_tapMail hmail hbody hrbpOf ((if_neg (Nat.not_le.2 hrecU)).trans ?_)
    simp only [hpipeOf, Option.isNone_some, Bool.false_eq_true, if_false]
    rfl
  case pipeClearHalt =>
    intro slot body x hmail hbody hrbpOf hrecU hpipeOf
    refine ran_of_tapMail hmail hbody hrbpOf ((if_neg (Nat.not_le.2 hrecU)).trans ?_)
    simp only [hpipeOf]
    rfl
  case taprootSuspend_suspend =>
    intro slot body hmail hbody hrbpOf hrecU
    refine ran_of_tapMail hmail hbody hrbpOf ?_
    simp only [hrecU]
    rfl
  case taprootSuspend_resume =>
    intro slot body hmail hbody hrbpOf hrecU
    refine ran_of_tapMail hmail hbody hrbpOf ?_
    simp only [hrecU]
    rfl
  case portCycle =>
    intro slot body d hmail hbody hrbpOf hdevOf
    exact ran_of_tapMail hmail hbody hrbpOf (withDev_found hdevOf)

end Sys2Proof.Machine
end

section
/-! PROOFS. Type-C rows take effect (15). -/

namespace Sys2Proof.Machine

/-- Settles O45: each event is its row's branch on a tile in the state that the clause names. -/
theorem typeCEventsComplete : Obligations.TypeCEventsComplete := by
  intro s
  refine ⟨?typecAttach, ?typecAttach_dfu, ?typecDetach, ?ccUnsettled, ?vconnLimit, ?voltageLoop, ?currentLimitLoop, ?ovpTrip,
    ?ocpTrip, ?reverseCurrentTrip, ?ovpRecovery, ?softStartComplete, ?softStartLimit, ?vbusSafeZero, ?dischargeLimit,
    ?hardResetHoldExpire, ?moistureTest, ?moistureRetest, ?vbusQueueTurn, ?discoverIdentityReply, ?foreignVbus⟩
  case typecAttach =>
    intro tile cc1 cc2 vbus up t ht hattachLine hattached hisDfu
    subst ht
    refine completes_ran ?_
    simp only [hattachLine, hattached, hisDfu, decide_false, Bool.or_self, Bool.not_true, Bool.false_eq_true, if_false]
  case typecAttach_dfu =>
    intro tile cc1 cc2 vbus up t ht hattachLine hattached hisDfu
    subst ht
    refine completes_ran ?_
    simp only [hattachLine, hattached, hisDfu, decide_false, Bool.or_self, Bool.not_true, Bool.false_eq_true, if_false, if_true]
  case typecDetach =>
    intro tile cc1 cc2 vbus hattached hisUp hisDfu horient hcc1
    exact completes_ran (by simp [hattached, hisUp, hisDfu, horient, hcc1])
  case ccUnsettled =>
    intro tile cls
    exact ⟨rfl, rfl⟩
  case vconnLimit =>
    intro tile hvconnOn
    exact completes_ran (by simp [hvconnOn])
  case voltageLoop =>
    intro tile vout hisDown hpathOf hdormantState hcontractMv
    exact completes_ran (by simp [hisDown, hpathOf, hdormantState, hcontractMv])
  case currentLimitLoop =>
    intro tile ibus vbus hisDown hpathOf hkind hdormantState hsigned hpwrCode
    have hactive : (!isDown s tile || pathOf s tile != 3 || s.rd (R.PD_CONTRACT.KIND tile) != 3 || dormantState s != 0) = false
      := by
      simp [hisDown, hpathOf, hkind, hdormantState]
    refine completes_ran ?_
    simp only [hactive, Bool.false_eq_true, if_false, hsigned, hpwrCode, if_true]
  case ovpTrip =>
    intro tile hisUp hisDown
    exact completes_ran (by simp [hisDown])
  case ocpTrip =>
    intro tile hisDown hkind
    have hlow : ¬ s.rd (R.PD_CONTRACT.KIND tile) ≥ 2 := Nat.not_le.2 hkind
    refine completes_ran ?_
    simp only [hisDown, hlow, Bool.not_true, Bool.false_eq_true, if_false]
  case reverseCurrentTrip =>
    intro tile hisDown
    exact completes_ran (by simp [hisDown])
  case ovpRecovery =>
    intro tile hisUp hbit
    exact completes_ran (by simp [hisUp, hbit])
  case softStartComplete =>
    intro tile vbus hpathOf hisDown hvbus hvbus' hnoContract
    exact completes_ran (by simp [hpathOf, hisDown, hvbus, hvbus', hnoContract])
  case softStartLimit =>
    intro tile hisDown hpathOf
    exact completes_ran (by simp [hisDown, hpathOf])
  case vbusSafeZero =>
    intro tile vbus hisDown hvbus hpathOf
    exact completes_ran (by simp [hisDown, Nat.not_le.mpr hvbus, hpathOf])
  case dischargeLimit =>
    intro tile hisDown hpathOf
    exact completes_ran (by simp [hisDown, hpathOf])
  case hardResetHoldExpire =>
    intro tile hhold hvbusOf
    exact completes_ran (by simp [hhold, hvbusOf])
  case moistureTest =>
    intro tile cc1 cc2 sbu1 sbu2 hmoisture hattach hmoistDiscard hisUp
    exact completes_ran (by simp [hmoisture, hattach, hmoistDiscard, hisUp])
  case moistureRetest =>
    intro tile cc1 cc2 sbu1 sbu2 hmoisture hdamp hattach hisUp
    exact completes_ran (by simp [hmoisture, hdamp, hattach, hisUp])
  case vbusQueueTurn =>
    intro t hqueueTurn
    exact completes_ran (by simp [hqueueTurn])
  case discoverIdentityReply =>
    intro tile v five hdormantState hvconnOn htries hcable
    exact completes_ran (by simp [hdormantState, hvconnOn, htries, hcable])
  case foreignVbus =>
    intro tile vbus hisDown hpathOf hsenseVbus
    exact completes_ran (by simp [hisDown, hpathOf, hsenseVbus])

end Sys2Proof.Machine
end

section
/-! PROOFS. USB PD rows take effect (15). -/

namespace Sys2Proof.Machine

/-- Settles O46: a message that the tile takes (`ran_of_pdMessage`) and a timer that runs act as their rows say. -/
theorem pdMessagesComplete : Obligations.PdMessagesComplete := by
  intro s
  refine ⟨?sourceCapabilities, ?pdRequest, ?psRdy, ?hardResetReceived, ?unsupportedPdMessage, ?sourceCapsRepeat,
    ?sourceCapsTimeout, ?ppsRequestTimer, ?ppsKeepaliveTimeout, ?transitionWaitEnd, ?vbusSettled, ?transitionLimit,
    ?pdRetriesExhausted, ?ppsToFixed, ?ppsRestore, ?acceptReceived, ?rejectReceived, ?goodcrcReceived, ?pdGetMessage_sourceCap,
    ?pdGetMessage_sinkCap, ?softResetReceived⟩
  case sourceCapabilities =>
    intro tile objs rev3 hpd hisUp hnoContract
    exact ran_of_pdMessage hpd (by simp [hisUp])
  case pdRequest =>
    intro tile rdo rev3 c hpd hisDown hpathOf hnoContract hevaluateRequest
    exact ran_of_pdMessage hpd (by simp [hisDown, hpathOf, hnoContract, hevaluateRequest])
  case psRdy =>
    intro tile c hpd hpending hisUp hmoved
    exact ran_of_pdMessage hpd (by simp [hpending, hisUp, hmoved])
  case hardResetReceived =>
    intro tile hpd
    exact ran_of_pdMessage hpd (by simp)
  case unsupportedPdMessage =>
    intro tile rev3 hpd
    exact ran_of_pdMessage hpd (by simp)
  case sourceCapsRepeat =>
    intro tile hannounces hrepeats
    exact completes_ran (by simp [hannounces, hrepeats])
  case sourceCapsTimeout =>
    intro tile hisUp hpdServes hobjs hkind
    exact completes_ran (by simp [hisUp, hpdServes, hobjs, hkind])
  case ppsRequestTimer =>
    intro tile hisUp hpdServes hkind hdormantState hdamp
    exact completes_ran (by simp [hisUp, hpdServes, hkind, hdormantState, hdamp])
  case ppsKeepaliveTimeout =>
    intro tile hdormantState
    exact completes_ran (by simp [hdormantState])
  case transitionWaitEnd =>
    intro tile c hpending hisDown hpathOf hmoved hmv
    have hstays : ¬ c.mv > contractMv s tile := Nat.not_lt.2 hmv
    have hwaits : (isDown s tile && pathOf s tile = 4 && !(tcOf s tile).moved) = true := by simp [hisDown, hpathOf, hmoved]
    refine completes_ran ?_
    simp only [hpending, hwaits, hstays, if_true, if_false]
  case vbusSettled =>
    intro tile vbus c hpending hisDown hpathOf hmoved hmv hvbus
    exact completes_ran (by simp [hpending, hisDown, hpathOf, hmoved, hmv, hvbus])
  case transitionLimit =>
    intro tile hisDown hpathOf
    exact completes_ran (by simp [hisDown, hpathOf])
  case pdRetriesExhausted =>
    intro tile hpdServes hdormantState hsoftReset
    exact completes_ran (by simp [hpdServes, hdormantState, hsoftReset])
  case ppsToFixed =>
    intro tile hisUp hpdServes hdormantState hkind hfixedReq hblockers
    exact completes_ran (by simp [hisUp, hpdServes, hdormantState, hkind, hfixedReq, hblockers])
  case ppsRestore =>
    intro tile hisUp hpdServes hdormantState hfixedReq
    exact completes_ran (by simp [hisUp, hpdServes, hdormantState, hfixedReq])
  case acceptReceived =>
    intro tile hpd hisUp hpending
    have hasked : (tcOf s tile).pending.isNone = false := by simpa using hpending
    exact ran_of_pdMessage hpd (by simp only [hisUp, hasked, Bool.not_true, Bool.or_self, Bool.false_eq_true, if_false,
      if_true])
  case rejectReceived =>
    intro tile hpd hisUp hpending hfixedReq
    have hasked : (tcOf s tile).pending.isNone = false := by simpa using hpending
    refine ran_of_pdMessage hpd ?_
    simp only [hisUp, hasked, hfixedReq, Bool.not_true, Bool.or_self, Bool.false_eq_true, if_false, decide_false,
      Bool.false_and, reduceCtorEq]
  case goodcrcReceived =>
    intro tile hpdServes hdormantState
    have htalks : pdTalks s tile = true := by simp [pdTalks, hpdServes, hdormantState]
    exact ran_of_pdMessage htalks rfl
  case pdGetMessage_sourceCap =>
    intro tile rev3 hpd hisDown hpathOf hnoContract
    exact ran_of_pdMessage hpd (by simp [hisDown, hpathOf, hnoContract])
  case pdGetMessage_sinkCap =>
    intro tile rev3 hpd hisUp
    exact ran_of_pdMessage hpd (by simp [hisUp])
  case softResetReceived =>
    intro tile hpd hisUp
    exact ran_of_pdMessage hpd (by simp [hisUp])

end Sys2Proof.Machine
end

section
/-! PROOFS. The mailbox rows of ch. 15 take effect. -/

namespace Sys2Proof.Machine

/-- The Steward's request for a tile that there is. -/
theorem ran_of_tileMail {s t : State} {slot op len status n : Nat} {body reply : List Nat} {f : Nat → List Nat → State → MailAnswer}
    (hmail : mailWaits s slot op body = true) (hlen : body.length = len) (hn : leVal (body.take 4) = n) (htile : n < 14) (hslot : slot = 0)
    (e : f n (body.drop 4) s = (status, reply, t)) :
    completes s (tileMail slot op len f s) = .next (ran s (setReply slot status reply t)) := by
  subst hn
  refine ran_of_serveMail hmail (decide_eq_true hlen) ((if_neg (Nat.not_le.2 htile)).trans ((if_pos ?_).trans e))
  simp [hslot]

/-- Settles O47: the Steward's requests on a tile (`ran_of_tileMail`). -/
theorem pdMailboxComplete : Obligations.PdMailboxComplete := by
  intro s
  refine ⟨?pdInfo, ?sinkSet, ?pdHardResetMailbox, ?recap, ?cableInfo⟩
  case pdInfo =>
    intro slot body t hmail hbody hleVal ht hslot
    exact ran_of_tileMail hmail hbody hleVal ht hslot rfl
  case sinkSet =>
    intro slot body t hmail hbody hleVal ht hslot hisUp hleVal' hleVal'' hleVal''' hleVal'''' hfixedReq
    refine ran_of_tileMail hmail hbody hleVal ht hslot ?_
    have hvolt : ¬ leVal ((body.drop 4).take 4) < 165 := Nat.not_lt.2 hleVal'
    have hvolt' : ¬ 1050 < leVal ((body.drop 4).take 4) := Nat.not_lt.2 hleVal''
    have hamp : ¬ leVal ((body.drop 4).drop 4) < 1 := Nat.not_lt.2 hleVal'''
    have hamp' : ¬ 100 < leVal ((body.drop 4).drop 4) := Nat.not_lt.2 hleVal''''
    simp only [hisUp, hvolt, hvolt', hamp, hamp', hfixedReq, decide_false, Bool.not_true, Bool.or_self, Bool.false_eq_true,
      if_false, if_true]
    rfl
  case pdHardResetMailbox =>
    intro slot body t hmail hbody hleVal ht hslot htileRole
    exact ran_of_tileMail hmail hbody hleVal ht hslot (if_neg htileRole)
  case recap =>
    intro slot body t hmail hbody hleVal ht hslot hisDown htileRole hpathOf hnoContract
    refine ran_of_tileMail hmail hbody hleVal ht hslot ((if_neg htileRole).trans ?_)
    simp only [hisDown, hpathOf, hnoContract, decide_true, Bool.not_true, Bool.not_false, Bool.and_self, Bool.false_eq_true,
      if_false, if_true]
    rfl
  case cableInfo =>
    intro slot body t hmail hbody hleVal ht hslot hisDown hcable
    refine ran_of_tileMail hmail hbody hleVal ht hslot ?_
    simp only [hisDown, hcable, Bool.not_true, Bool.false_eq_true, if_false]
    rfl

end Sys2Proof.Machine
end

section
/-! PROOFS. Front-end rows take effect (16). -/

namespace Sys2Proof.Machine

/-- Settles O48: each row is its guard or its pin and its effect on the drum's front end. -/
theorem frontEndCommandsComplete : Obligations.FrontEndCommandsComplete := by
  intro s
  refine ⟨?laserSelect, ?laserRampDone, ?laserRampTimeout, ?laserMonitorFault, ?laserPermitFall, ?laserPermitRise,
    ?rfGainAdjust, ?rfLevel, ?coilForce, ?coilOvercurrent, ?coilOpen, ?focusLost, ?trackLost, ?rearm, ?reactionEnd, ?vmRange,
    ?vmRestore, ?driverThermal, ?driverCooled, ?calWrite, ?sledPhaseFault, ?trayCurrentLimit⟩
  case laserSelect =>
    intro slot drum select hwrite
    exact took_of_guardWrite hwrite (by simp)
  case laserRampDone =>
    intro drum monitor drive hlaserState hmonitorAtLeast hmonitorAbove
    have hramps : (laserState s drum != 1 || monitorAbove s drum monitor 125) = false := by simp [hlaserState, hmonitorAbove]
    refine completes_ran ?_
    simp only [hramps, hmonitorAtLeast, rampDrive, Bool.false_eq_true, if_false, if_true]
  case laserRampTimeout =>
    intro drum hlaserState
    exact completes_ran (by simp [hlaserState])
  case laserMonitorFault =>
    intro drum monitor drive hlaserState hmonitorAbove
    exact completes_ran (by simp [hlaserState, hmonitorAbove])
  case laserPermitFall =>
    intro drum hhasDrum
    exact senses_of (if_pos hhasDrum) (if_pos hhasDrum)
  case laserPermitRise =>
    intro drum hhasDrum
    exact acted_of_always (by simp [hhasDrum])
  case rfGainAdjust =>
    intro drum envelope gain hdomOn hauto hscar henvelope
    exact completes_ran (by simp [hdomOn, hauto, hscar, henvelope])
  case rfLevel =>
    intro drum envelope hdomOn hgain henvelope
    exact completes_ran (by simp [hdomOn, hgain, henvelope])
  case coilForce =>
    intro slot drum coil code hwrite hanyVoice
    exact took_of_guardWrite hwrite (by simp [hanyVoice])
  case coilOvercurrent =>
    intro drum limiting hcoilsDriven
    exact completes_ran (by simp [hcoilsDriven])
  case coilOpen =>
    intro drum opened m hcoilsDriven hm
    exact completes_ran (by simp [hcoilsDriven, hm])
  case focusLost =>
    intro drum sum hroleLoaded hlaserState hsum
    exact completes_ran (by simp [hroleLoaded, hlaserState, hsum])
  case trackLost =>
    intro drum te hroleLoaded hroleLoaded' hlaserState hte
    exact completes_ran (by simp [hroleLoaded, hroleLoaded', hlaserState, hte])
  case rearm =>
    intro slot drum value hwrite
    exact took_of_guardWrite hwrite (by simp)
  case reactionEnd =>
    intro drum sum te t ht hreact hrearm hsumLow hteOut hbit
    subst ht
    exact completes_ran (if_pos (by simp [hreact, hrearm, hsumLow, hteOut, hbit]))
  case vmRange =>
    intro drum hhasDrum
    exact completes_ran (by simp [hhasDrum])
  case vmRestore =>
    intro drum hhasDrum
    exact completes_ran (by simp [hhasDrum])
  case driverThermal =>
    intro drum hhasDrum hgroupHot
    exact completes_ran (by simp [hhasDrum, hgroupHot, show ((3 : Fin 5) : Nat) = 3 from rfl])
  case driverCooled =>
    intro drum group
    exact completes_ran (by simp)
  case calWrite =>
    intro slot drum index value hwrite hpickupOk
    exact took_of_guardWrite hwrite (if_pos hpickupOk)
  case sledPhaseFault =>
    intro drum present hhasDrum
    exact completes_ran (by simp [hhasDrum])
  case trayCurrentLimit =>
    intro drum hhasDrum
    exact completes_ran (by simp [hhasDrum])

end Sys2Proof.Machine
end

section
/-! PROOFS. Drumhead rows take effect (17). -/

namespace Sys2Proof.Machine

/-- Settles O49: a voice command is its guard's rule, and a frame or the end of a check is its row's branch. -/
theorem drumheadCommandsComplete : Obligations.DrumheadCommandsComplete := by
  intro s
  refine ⟨?drumheadFrame, ?loadVoice, ?swap, ?unload, ?reseed, ?voiceCmdBadOp, ?voiceCmdEffect, ?voiceCmdAbandoned,
    ?dhStageDataAccess⟩
  case drumheadFrame =>
    intro drum pickup late s0 t hs0 hengineRuns ht hconvOk
    subst ht hs0
    refine completes_ran ((if_neg (by rw [hengineRuns]; decide)).trans ?_)
    simp only [hconvOk, Bool.false_eq_true, if_false, List.filter_nil, List.foldl_nil]
  case loadVoice =>
    intro slot drum voice period role predict hwrite
    exact took_of_guardWrite hwrite (by simp)
  case swap =>
    intro slot drum voice period role predict keep hwrite
    exact took_of_guardWrite hwrite (by simp)
  case unload =>
    intro slot drum voice hwrite
    exact took_of_guardWrite hwrite (by simp)
  case reseed =>
    intro slot drum voice hwrite
    exact took_of_guardWrite hwrite (by simp)
  case voiceCmdBadOp =>
    intro slot drum hwrite
    exact took_of_guardWrite hwrite (by simp)
  case voiceCmdEffect =>
    intro drum c rest t ht hengineRuns hcmds hop hraise hvoiceOf
    subst ht
    have hfree := Option.isNone_iff_eq_none.1 hvoiceOf
    refine completes_ran ((if_neg (by rw [hengineRuns]; decide)).trans ?_)
    simp only [hcmds, hop, hfree, hraise, Bool.false_and, Bool.not_true, Bool.or_self, Bool.false_eq_true, if_false,
      Nat.reduceEqDiff, decide_false]
  case voiceCmdAbandoned =>
    intro drum t ht hvoicePending hseqOf
    subst ht
    exact completes_ran (if_pos (by simp [hvoicePending, hseqOf]))
  case dhStageDataAccess =>
    intro slot drum v hwrite hvoiceBusy
    exact took_of_guardWrite hwrite (by simp [hvoiceBusy])

end Sys2Proof.Machine
end

section
/-! PROOFS. Spindle rows take effect (18). -/

namespace Sys2Proof.Machine

/-- Settles O50: each row is its branch on the drum's spindle state. -/
theorem spindleCommandsComplete : Obligations.SpindleCommandsComplete := by
  intro s
  refine ⟨?spinEvaluate, ?spinCheckEnd, ?senseDone, ?alignDone, ?bemfZeroCrossing_braking, ?bemfZeroCrossing_running,
    ?rampTimeout, ?commutationMissed, ?quietEntry, ?brakeLowSpeed, ?brakeHoldEnd, ?spindleAtRest, ?spinCut, ?spinFault,
    ?spinCutEnd⟩
  case spinEvaluate =>
    intro drum t hup hdomOn hspinState hdriverVoice ht
    exact completes_ran (by simp [hup, hdomOn, hspinState, hdriverVoice, ht])
  case spinCheckEnd =>
    intro drum quiet hspinState
    exact completes_ran (by simp [hspinState])
  case senseDone =>
    intro drum first second hspinState hmarginGood
    exact completes_ran (by simp [hspinState, hmarginGood])
  case alignDone =>
    intro drum hspinState
    exact completes_ran (by simp [hspinState])
  case bemfZeroCrossing_braking =>
    intro drum interval place error hspinState
    exact completes_ran (by simp [hspinState])
  case bemfZeroCrossing_running =>
    intro drum interval place error hspinState hquietActive hplace
    exact completes_ran (by simp [hspinState, hquietActive, Nat.not_lt.mpr hplace])
  case rampTimeout =>
    intro drum hspinState
    exact completes_ran (by simp [hspinState])
  case commutationMissed =>
    intro drum hspinState hquietActive hmissed
    exact completes_ran (by simp [hspinState, hquietActive, Nat.not_le.mpr hmissed])
  case quietEntry =>
    intro drum hquiet hspinState hspinOf hspinOf'
    exact completes_ran (by simp [hquiet, hspinState, hspinOf, hspinOf'])
  case brakeLowSpeed =>
    intro drum hspinState hbrake
    exact completes_ran (by simp [hspinState, hbrake])
  case brakeHoldEnd =>
    intro drum hspinState hbrake
    exact completes_ran (by simp [hspinState, hbrake])
  case spindleAtRest =>
    intro drum t hspinState ht howed hdrumPruned
    subst ht
    refine completes_ran ((if_neg (by simp [hspinState])).trans ?_)
    simp only [howed, hdrumPruned, Bool.false_eq_true, if_false]
  case spinCut =>
    intro drum hcutHolds
    exact completes_ran (by simp [hcutHolds])
  case spinFault =>
    intro drum hhasDrum hfaultLow
    exact completes_ran (by simp [hhasDrum, hfaultLow])
  case spinCutEnd =>
    intro drum t ht hcutHolds hspinState
    subst ht
    refine completes_ran ?_
    simp only [hcutHolds, hspinState, Bool.false_eq_true, if_false]

end Sys2Proof.Machine
end

section
/-! PROOFS. Sled and tray rows take effect (19). -/

namespace Sys2Proof.Machine

/-- A sled command that the slot may write while no stroke holds the drum. -/
theorem took_of_sledCmd {s u : State} {slot n : Nat} {act : State → State} (hwrite : mayWrite s slot (drumBase n + 0x3003C) = true)
    (hholds : strokeHolds s n = false) (e : act (activity s) = u) :
    completes s (sledCmd slot n act s) = .next (took slot s u) :=
  took_of_guardWrite hwrite ((if_neg (by simp [hholds])).trans e)

@[simp] theorem sledStageBytes_activity (s : State) (n : Nat) : sledStageBytes (activity s) n = sledStageBytes s n := rfl
@[simp] theorem sledOf_activity (s : State) (n : Nat) : sledOf (activity s) n = sledOf s n := rfl
@[simp] theorem travelUnits_activity (s : State) (n : Nat) : travelUnits (activity s) n = travelUnits s n := rfl
@[simp] theorem sledCut_activity (s : State) (n : Nat) : sledCut (activity s) n = sledCut s n := rfl

/-- Settles O51: a sled command is its guard's rule (`took_of_sledCmd`), the rest is its row's branch. -/
theorem sledAndTrayCommandsComplete : Obligations.SledAndTrayCommandsComplete := by
  intro s
  refine ⟨?sledSeek, ?runStage, ?runStage_outside, ?home, ?stop, ?sledCmdBadOp, ?sledMoveEnd, ?homeInwardDone,
    ?homeIndexTimeout, ?sledHoldCurrent, ?sledStageDataAccess, ?encoderChange_none, ?encoderChange_step, ?encoderIndex,
    ?traySwitchChange, ?trayButtonPress_released, ?trayButtonPress_pressed, ?trayOpenStart, ?trayTimeout, ?trayBrakeEnd⟩
  case sledSeek =>
    intro slot drum hwrite hstrokeHolds hsledState
    exact took_of_guardWrite hwrite (by simp [hstrokeHolds, hsledState])
  case runStage =>
    intro slot drum hwrite hstrokeHolds hsledState hsegmentsOk
    refine took_of_sledCmd hwrite hstrokeHolds ?_
    simp only [sledState_activity, sledStageBytes_activity, hsledState, hsegmentsOk, Bool.not_false, if_true]
  case runStage_outside =>
    intro slot drum segs stop hwrite hstrokeHolds hsledState hsegmentsOk hsegs hstop hstop' hstop''
    refine took_of_sledCmd hwrite hstrokeHolds ?_
    simp only [sledState_activity, sledStageBytes_activity, sledOf_activity, travelUnits_activity, hsledState, hsegmentsOk, ←
      hsegs, ← hstop, Int.not_lt.2 hstop', Int.not_lt.2 hstop'', decide_false, Bool.not_true, Bool.or_self, Bool.false_eq_true,
      if_false]
  case home =>
    intro slot drum hwrite hstrokeHolds hsledState hsledCut
    refine took_of_sledCmd hwrite hstrokeHolds ?_
    simp [hsledState, hsledCut]
  case stop =>
    intro slot drum elapsed hwrite hstrokeHolds hsledState
    exact took_of_guardWrite hwrite (by simp [hstrokeHolds, hsledState])
  case sledCmdBadOp =>
    intro slot drum hwrite hstrokeHolds
    exact took_of_guardWrite hwrite (by simp [hstrokeHolds])
  case sledMoveEnd =>
    intro drum m t hmove hsledState hwaits ht hclosedLoop hstroke
    subst ht
    refine completes_ran ?_
    have hopen : ∀ b : Bool, (!closedLoop (moveTo drum (moveEnds s drum m) s) drum || b) = true := by simp [hclosedLoop]
    simp only [hmove, hsledState, hwaits, bne_self_eq_false, Bool.or_self, Bool.false_eq_true, if_false, hopen, if_true,
      moveDone, hstroke]
  case homeInwardDone =>
    intro drum t hsledState hhoming hwaits hencoder ht
    exact completes_ran (by simp [hsledState, hhoming, hwaits, hencoder, ht])
  case homeIndexTimeout =>
    intro drum t hsledState hhoming ht hretryLeft
    subst ht
    refine completes_ran ((if_neg (by simp [hsledState, hhoming])).trans ?_)
    simp only [hretryLeft, if_true]
  case sledHoldCurrent =>
    intro drum hsledState hsledCut hma
    exact completes_ran (by simp [hsledState, hsledCut, hma])
  case sledStageDataAccess =>
    intro slot drum v t hwrite hrunning ht
    exact took_of_guardWrite hwrite (by simp [hrunning, ht])
  case encoderChange_none =>
    intro drum a b gap hencoder hdomOn ha hb
    exact completes_ran (by simp [hencoder, hdomOn, ha, hb])
  case encoderChange_step =>
    intro drum a b gap hencoder hdomOn hsledOf hb hgap
    exact completes_ran (by simp [hencoder, hdomOn, hsledOf, hb, Nat.not_lt.mpr hgap])
  case encoderIndex =>
    intro drum elapsed t hencoder hdomOn hsledState hhoming ht
    exact completes_ran (by simp [hencoder, hdomOn, hsledState, hhoming, ht])
  case traySwitchChange =>
    intro drum inner outer hhasDrum hup hdomOn htrayState htrayState'
    refine senses_of (if_pos hhasDrum) ?_
    have hmoves : (decide (trayState s drum = 2) || decide (trayState s drum = 4)) = false := by simp [htrayState, htrayState']
    simp only [hhasDrum, hup, hdomOn, hmoves, Bool.not_true, Bool.or_self, Bool.false_and, Bool.false_eq_true, if_false]
  case trayButtonPress_released =>
    intro drum hhasDrum
    have hdark : (if hasDrum s drum then s.wrB (R.TRAY_STATUS.BTN drum) false else s) = s.wrB (R.TRAY_STATUS.BTN drum) false :=
      if_pos hhasDrum
    refine (senses_of hdark (v := s.wrB (R.TRAY_STATUS.BTN drum) false) ?_).trans ?_
    · simp only [hhasDrum, Bool.not_true, Bool.not_false, Bool.true_or, Bool.false_eq_true, if_false, if_true]
    · simp
  case trayButtonPress_pressed =>
    intro drum t hhasDrum hbtn hlastPress ht hrange hdrumsDone
    subst ht
    refine senses_of (if_pos hhasDrum) ?_
    have hfirst := Option.isNone_iff_eq_none.1 hlastPress
    simp only [hhasDrum, hbtn, hfirst, hrange, hdrumsDone, Bool.not_true, Bool.or_self, Bool.false_eq_true, if_false, if_true]
  case trayOpenStart =>
    intro drum hreq hpending hspinState htrayState hvmOut hgroupHot
    exact completes_ran (by simp [hreq, hpending, hspinState])
  case trayTimeout =>
    intro drum htrayState hretryLeft
    exact completes_ran (by simp [htrayState, hretryLeft])
  case trayBrakeEnd =>
    intro drum hbrake
    exact completes_ran (by simp [hbrake])

end Sys2Proof.Machine
end

section
/-! PROOFS. Read channel rows take effect (20). -/

namespace Sys2Proof.Machine

/-- Settles O52: each row is its branch on the drum's stroke and its locks. -/
theorem readChannelCommandsComplete : Obligations.ReadChannelCommandsComplete := by
  intro s
  refine ⟨?timingLock, ?syncLock, ?syncMissing_found, ?syncMissing_third, ?searchTimeout, ?scarBegin, ?scarEnd, ?blockDecode,
    ?combineRevolution, ?blockSkipped, ?eqRestore⟩
  case timingLock =>
    intro drum timing hreadMode hscar htimingHolds
    exact completes_ran (by simp [hreadMode, hscar, htimingHolds])
  case syncLock =>
    intro drum htimingLock
    exact completes_ran (by simp [htimingLock])
  case syncMissing_found =>
    intro drum hsyncLock
    exact completes_ran (by simp [hsyncLock])
  case syncMissing_third =>
    intro drum hsyncLock hmissed
    exact completes_ran (by simp [hsyncLock, hmissed])
  case searchTimeout =>
    intro drum x t hcurrentStroke hstarted hop hnext hunitBacksOff ht hretryLeft
    subst ht
    have hruns : (!x.started || !(x.op = 1 || x.op = 3 || x.op = 4) || x.next ≥ x.count || unitBacksOff s drum) = false := by
      simp [hstarted, hop, hnext, hunitBacksOff]
    refine completes_ran ?_
    simp only [hcurrentStroke, hruns, hretryLeft, Bool.false_eq_true, if_false, if_true]
  case scarBegin =>
    intro span hreadMode hscar hscarAfter
    exact completes_ran (by simp [hreadMode, hscar, hscarAfter])
  case scarEnd =>
    intro span hscarAfter
    exact completes_ran (by simp [hscarAfter])
  case blockDecode =>
    intro drum x block hreadingStroke hblock hcanRead hslotsUsed
    exact completes_ran (by simp [hreadingStroke, hblock, hcanRead, hslotsUsed])
  case combineRevolution =>
    intro drum x block b hreadingStroke hblock hcanRead
    exact completes_ran (by simp [hreadingStroke, hblock, hcanRead])
  case blockSkipped =>
    intro drum x kbps t ht hservedStroke hdrumRelocks
    subst ht
    refine completes_ran ?_
    simp only [hservedStroke, hdrumRelocks, if_true]
  case eqRestore =>
    intro slot drum value hwrite
    exact took_of_guardWrite hwrite (by simp)

end Sys2Proof.Machine
end

section
/-! PROOFS. Stroke rows take effect (21). -/

namespace Sys2Proof.Machine

/-- The row of a supported operation code takes that code alone. -/
theorem exec_of_scsiArrival {c : Instr} {slot l tag op : Nat} {cdb : List Nat} (h : scsiArrival c = some (slot, l, tag, cdb, op))
    (s : State) : exec c s = completes s (scsiArrives (oneOp op) slot l tag cdb s) := by
  unfold scsiArrival at h
  split at h
  all_goals cases h
  all_goals rfl

/-- A command that its row takes waits at its unit, which begins what it can. -/
theorem scsiArrives_queued {s : State} {fits : Nat → Bool} {slot l tag n : Nat} {cdb : List Nat} {far : Option Nat}
    (hruns : functionRuns s slot = true) (hbusy : bulkBusy s slot = false) (hdrum : (lunDrums s slot)[l]? = some (far, n))
    (hfits : fits (byteAt cdb 0) = true) (hroom : (lunOf s slot l).cmds.length < 16) :
    scsiArrives fits slot l tag cdb s = releaseRequests (settleLun 600 slot l
      (putLun slot l { lunOf s slot l with drum := n, far := far, cmds := (lunOf s slot l).cmds ++ [⟨tag, cdb⟩] } s)) := by
  have hspace : ¬ (lunOf s slot l).cmds.length ≥ 16 := Nat.not_le.2 hroom
  simp only [scsiArrives, hdrum, hruns, hfits, hbusy, hspace, Bool.not_true, Bool.or_self, Bool.false_eq_true, if_false]

/-- A stroke that is not started is started and acts. -/
theorem startPlain_starts {s : State} {n op : Nat} {x : Stroke} {act : Stroke → State → State} (hcurrent : currentStroke s n = some x)
    (hop : x.op = op) (hstarted : x.started = false) :
    startPlain n op act s = act x (syncNow n (updateCurrent n (fun y => { y with started := true }) s)) := by
  simp only [startPlain, hcurrent, hop, hstarted, decide_true, Bool.not_false, Bool.and_self, if_true]

/-- Settles O53: a stroke's row acts on the current stroke, and a SCSI row waits at its unit (`scsiArrives_queued`). -/
theorem strokeCommandsComplete : Obligations.StrokeCommandsComplete := by
  intro s
  refine ⟨?stkProdWrite, ?drumTurn_empty, ?drumTurn_next, ?strokeRead, ?readToc, ?readSubcode, ?strokePlayAudio, ?strokeSeek,
    ?spin, ?tray, ?identify_start, ?identify_focus, ?spinWaitTimeout, ?laserIdleClear, ?audioUnderrun, ?scsiRow,
    ?scsiUnsupported, ?audioSectorOut⟩
  case stkProdWrite =>
    intro slot drum value hwrite
    exact took_of_guardWrite hwrite (by simp)
  case drumTurn_empty =>
    intro drum hup hunitBoundary hdormantState hrotation
    exact completes_ran (by simp [hup, hunitBoundary, hdormantState, hrotation])
  case drumTurn_next =>
    intro drum x k rest hup hunitBoundary hdormantState hrotation
    exact completes_ran (by simp [hup, hunitBoundary, hdormantState, hrotation])
  case strokeRead =>
    intro drum seek
    exact completes_ran (by simp)
  case readToc =>
    intro drum x entries t ht hcurrentStroke hop hstarted hlun hisDvd hrateOver
    subst ht
    have hslot : x.lun.isSome = false := by simpa using hlun
    have hruns : (x.op != 2 || !x.started || rateOver (startDisc drum 2 s) drum) = false := by simp [hop, hstarted, hrateOver]
    refine completes_ran ?_
    simp only [hcurrentStroke, hruns, hslot, hisDvd, Bool.false_eq_true, if_false]
  case readSubcode =>
    intro drum records
    exact completes_ran (by simp)
  case strokePlayAudio =>
    intro drum x seek t ht hcurrentStroke hop hstarted
    subst ht
    have hruns : (decide (x.op = 4) && x.started) = true := by simp [hop, hstarted]
    refine completes_ran ?_
    simp only [hcurrentStroke, hruns, if_true]
  case strokeSeek =>
    intro drum x target t ht hcurrentStroke hop hstarted hsledState
    subst ht
    have hruns : (x.op != 5 || !x.started) = false := by simp [hop, hstarted]
    refine completes_ran ?_
    simp only [hcurrentStroke, hruns, hsledState, decide_false, Bool.false_and, Bool.false_eq_true, if_false]
  case spin =>
    intro drum x t hcurrentStroke hop hstarted ht
    subst ht
    exact completes_ran (startPlain_starts hcurrentStroke hop hstarted)
  case tray =>
    intro drum x t hcurrentStroke hop hstarted ht
    subst ht
    exact completes_ran (startPlain_starts hcurrentStroke hop hstarted)
  case identify_start =>
    intro drum x t hcurrentStroke hop hstarted hstkState ht hturnOn
    subst ht
    have hstarts : (x.op != 8 || x.started) = false := by simp [hop, hstarted]
    refine completes_ran ?_
    simp only [hcurrentStroke, hstarts, hstkState, Nat.not_lt.2 hturnOn, Bool.false_eq_true, if_false]
  case identify_focus =>
    intro drum x hcurrentStroke hop hstarted hspinState hstkState hlaserBar
    exact completes_ran (by simp [hcurrentStroke, hop, hstarted, hspinState, hstkState, hlaserBar])
  case spinWaitTimeout =>
    intro drum x hcurrentStroke hstarted hop
    exact completes_ran (by simp [hcurrentStroke, hstarted, hop])
  case laserIdleClear =>
    intro drum hstrokes hselect
    exact completes_ran (by simp [hstrokes, hselect])
  case audioUnderrun =>
    intro output n x hplayingOn hbuffered hnext
    exact completes_ran (by simp [hplayingOn, hbuffered, hnext])
  case scsiRow =>
    intro c slot l tag cdb n far hscsiArrival hfunctionRuns hbulkBusy hlunDrums hcmds
    have hcode : oneOp (byteAt cdb 0) (byteAt cdb 0) = true := by simp [oneOp]
    exact (exec_of_scsiArrival hscsiArrival s).trans (completes_ran (scsiArrives_queued hfunctionRuns hbulkBusy hlunDrums hcode
      hcmds))
  case scsiUnsupported =>
    intro slot lun tag cdb n far hfunctionRuns hbulkBusy hlunDrums hscsiOps hcmds
    exact completes_ran (scsiArrives_queued hfunctionRuns hbulkBusy hlunDrums (by rw [hscsiOps]; rfl) hcmds)
  case audioSectorOut =>
    intro output n a x y bs rest hplayingOn hbuffered hdrumSt
    exact completes_ran (by simp [hplayingOn, hbuffered, hdrumSt])

end Sys2Proof.Machine
end

section
/-! PROOFS. UART and GPIO rows take effect (22). -/

namespace Sys2Proof.Machine

/-- What runs under `withUart` counts only for the state it is given. -/
theorem withUart_congr {u : Nat} {f g : State → State} {s : State} (h : f s = g s) : withUart u f s = withUart u g s := by
  simp only [withUart, h]

/-- What runs under `withPins` counts only for the state it is given. -/
theorem withPins_congr {f g : State → State} {s : State} (h : f s = g s) : withPins f s = withPins g s := by
  simp only [withPins, h]

/-- Settles O54: each row is its guard or its pins and its effect on the UART or the pins. -/
theorem serialCommandsComplete : Obligations.SerialCommandsComplete := by
  intro s
  refine ⟨?uartStartEdge, ?uartCharReceived, ?uartCharSent, ?uartTxWrite, ?uartRxRead, ?flushTx, ?flushRx, ?uartCfgApply,
    ?uartLine_present, ?uartLine_absent, ?gpioOwnerWrite, ?gpioSet, ?gpioClr, ?gpioEdge⟩
  case uartStartEdge =>
    intro uart settled huartServes huartServes' hrxBusy hbit hsettled huartMode
    exact completes_ran (by simp [huartServes', hrxBusy, hbit, hsettled, huartMode])
  case uartCharReceived =>
    intro uart samples hinRecovery huartOpen hrxBusy hsamples huartMode hsamples'
    refine completes_ran ((if_neg (by rw [hinRecovery]; decide)).trans ?_)
    simp only [huartOpen, hrxBusy, hsamples, hsamples', huartMode, bne_self_eq_false, Bool.not_true, Bool.or_self,
      Bool.false_eq_true, if_false]
    exact withUart_congr (if_neg huartMode)
  case uartCharSent =>
    intro uart c flow hsending
    refine completes_ran ?_
    simp only [hsending]
    exact withUart_congr (by simp only [Bool.and_false, Bool.false_eq_true, if_false])
  case uartTxWrite =>
    intro slot uart value hwrite
    exact took_of_guardWrite hwrite (by simp)
  case uartRxRead =>
    intro slot uart w rest hread hrx huartServes
    exact ran_of_guardRead hread (by simp [hrx, huartServes])
  case flushTx =>
    intro slot uart hwrite
    exact took_of_guardWrite hwrite (by simp)
  case flushRx =>
    intro slot uart hwrite
    exact took_of_guardWrite hwrite (by simp)
  case uartCfgApply =>
    intro uart hcfgPending hrxBusy hsending
    exact completes_ran (by simp [hcfgPending, hrxBusy, Option.isNone_iff_eq_none.mp hsending])
  case uartLine_present =>
    intro uart huartServes hbit
    exact completes_ran (by simp [huartServes, hbit])
  case uartLine_absent =>
    intro uart
    exact completes_ran (by simp)
  case gpioOwnerWrite =>
    intro slot high value t hwrite hpinsLive ht
    subst ht
    exact took_of_guardWrite hwrite (if_neg (by simp [hpinsLive]))
  case gpioSet =>
    intro slot value hwrite hpinsLive
    exact took_of_guardWrite hwrite (if_pos hpinsLive)
  case gpioClr =>
    intro slot value hwrite hpinsLive
    exact took_of_guardWrite hwrite (if_pos hpinsLive)
  case gpioEdge =>
    intro levels old new hlevel hlevels
    subst hlevel hlevels
    refine ⟨fun hdormant => senses_of rfl ?_, fun hactive hdomain => senses_of rfl ?_⟩
    · exact withPins_congr (by simp only [hdormant, decide_false, Bool.false_and, Bool.false_eq_true, if_false])
    · exact withPins_congr (by simp only [hactive, hdomain, decide_true, Bool.and_self, if_true])

end Sys2Proof.Machine
end

section
/-! PROOFS. Trunk rows take effect (23). -/

namespace Sys2Proof.Machine

/-- A frame that opens on a port that is up, in its sequence and for this member, is delivered. -/
theorem takeFrame_delivered {s t u : State} {p ty : Nat} {frame f : List Nat} {deliver : List Nat → State → State}
    (hopen : openFrame p ty frame s = .good f t) (hstate : portState (takeHeader p f t) p = 3)
    (hseq : sequence p f (takeHeader p f t) = (true, u)) (hawake : dormantState u ≠ 1) (hdest : frameDest f = ownMember s) :
    takeFrame p ty frame deliver s = pumpAll (freeBuffer p (decide (ty = 2)) (deliver f u)) := by
  simp only [takeFrame, hopen, hstate, hseq, hawake, hdest, decide_true, Bool.true_or, Bool.not_true, Bool.false_eq_true, if_false, if_true]

/-- Settles O55: a frame that is delivered acts (`takeFrame_delivered`), the other rows are their branch on the port's state. -/
theorem trunkCommandsComplete : Obligations.TrunkCommandsComplete := by
  intro s
  refine ⟨?trainingAttemptStart, ?trainingStepComplete, ?trainingStepLimit, ?laneReacquired, ?codewordReceived, ?payload,
    ?control, ?timeFrame, ?keepalive, ?replayTimeout, ?epochChange, ?oldKeyRetire, ?keepaliveDue, ?keepaliveDeadline,
    ?retrainLimit, ?wakePatternRepeat, ?errorRateSecond_unused, ?errorRateSecond_good, ?retrain, ?resetLane, ?laneSignalLoss⟩
  case trainingAttemptStart =>
    intro port htraining hstep hportWidth hany
    exact completes_ran (by simp [htraining, hstep, hportWidth, hany])
  case trainingStepComplete =>
    intro port htraining hstep
    exact completes_ran (by simp [htraining, hstep])
  case trainingStepLimit =>
    intro port l htraining hstep hlowestLane
    subst hlowestLane
    exact completes_ran (if_pos (by simp [htraining, hstep]))
  case laneReacquired =>
    intro lane p hportOfLane hportState hsaved
    exact completes_ran (by simp [hportOfLane, hportState, hsaved])
  case codewordReceived =>
    intro port worst symbols hportState hportState' hclockGen hcodewordDecode hwidthLanes
    have htakes : (decide (portState s port = 0) || decide (portState s port = 6)) = false := by simp [hportState, hportState']
    refine completes_ran ?_
    simp only [htakes, hclockGen, hcodewordDecode, hwidthLanes, Bool.false_eq_true, if_false, if_true]
  case payload =>
    intro port frame f t u hopenFrame hportState hsequence hdormantState hframeDest
    exact completes_ran (takeFrame_delivered hopenFrame hportState hsequence hdormantState hframeDest)
  case control =>
    intro port frame f t u hopenFrame hportState hsequence hdormantState hframeDest
    exact completes_ran (takeFrame_delivered hopenFrame hportState hsequence hdormantState hframeDest)
  case timeFrame =>
    intro port frame f arrival t hopenFrame hgetD
    refine completes_ran ?_
    simp only [hopenFrame, hgetD]
  case keepalive =>
    intro port frame f t hopenFrame
    exact completes_ran (by simp [hopenFrame])
  case replayTimeout =>
    intro port hportState houtstanding
    exact completes_ran (by simp [hportState, houtstanding])
  case epochChange =>
    intro port hportState hsendFc hsendFc' hsecret hepoch
    have hdue : (!(decide (portState s port = 3) || decide (portState s port = 5)) || decide (sendFc s port < 2 ^ 39)) = false
      := by
      rw [decide_eq_true hportState, decide_eq_false (Nat.not_lt.2 hsendFc)]
      rfl
    refine completes_ran ?_
    simp only [hdue, Nat.not_le.2 hsendFc', hsecret, Nat.not_le.2 hepoch, Bool.false_eq_true, if_false]
  case oldKeyRetire =>
    intro port
    exact completes_ran (by simp)
  case keepaliveDue =>
    intro port hportState
    exact completes_ran (by simp [hportState])
  case keepaliveDeadline =>
    intro port hportState hclockGen
    exact completes_ran (by simp [hportState, hclockGen])
  case retrainLimit =>
    intro port hportState
    exact completes_ran (by simp [hportState])
  case wakePatternRepeat =>
    intro port hportState hcontrol
    exact completes_ran (by simp [hportState, hcontrol])
  case errorRateSecond_unused =>
    intro lane hlaneInUse
    exact completes_ran (by simp [hlaneInUse])
  case errorRateSecond_good =>
    intro lane hlaneInUse hcorrected
    exact completes_ran (by simp [hlaneInUse, Nat.not_lt.mpr hcorrected])
  case retrain =>
    intro slot port hwrite
    exact took_of_guardWrite hwrite (by simp)
  case resetLane =>
    intro slot lane hwrite
    exact took_of_guardWrite hwrite (by simp)
  case laneSignalLoss =>
    intro lane p hlaneInUse hportOfLane hwidthLanes hlaneUsable
    have hlost : ((widthLanes s p).contains lane.val && laneUsable (occur (346 + 4 * lane.val) s) lane) = true := by
      rw [hwidthLanes, hlaneUsable]
      rfl
    refine completes_ran ?_
    simp only [hlaneInUse, hportOfLane, hlost, Bool.not_true, Bool.false_eq_true, if_false, if_true]

end Sys2Proof.Machine
end

section
/-! PROOFS. Grafting rows take effect (24). -/

namespace Sys2Proof.Machine

/-- What a grafting frame of its subtype first notes of its sender. -/
def notedSender (subtype m : Nat) (b : List Nat) (t : State) : State :=
  if subtype = 3 then noteHeard m ((b.drop 8).take 32) (leVal ((b.drop 40).take 2)) (leVal ((b.drop 42).take 4)) t
  else if subtype = 4 && (heardOf t m).heard && (heardOf t m).startId != leVal ((b.drop 44).take 4) then
    noteHeard m ((b.drop 8).take 32) (heardOf t m).compat (leVal ((b.drop 44).take 4)) t
  else t

/-- A flooded frame of another member that is newer than the last acts and is passed on. -/
theorem flooded_acts {s t u : State} {port subtype m : Nat} {frame b : List Nat} {seqOf : Heard → Option Nat}
    {setSeq : Nat → Heard → Heard} {act : Nat → List Nat → State → State}
    (hopen : openGraft port subtype frame s = .good b t) (hm : b.getD 4 0 % 8 = m) (hother : m ≠ ownMember t)
    (hu : notedSender subtype m b t = u) (hnew : newer (leVal ((b.drop 6).take 2)) (seqOf (heardOf u m)) = true) :
    flooded port subtype frame seqOf setSeq act s =
      flood (some port) b (act m b (putHeard m (setSeq (leVal ((b.drop 6).take 2)) (heardOf u m)) u)) := by
  subst hm hu
  simp only [notedSender] at hnew
  simp only [flooded, hopen, hother, hnew, notedSender, decide_false, Bool.not_true, Bool.or_self, Bool.false_eq_true, if_false]

/-- Settles O56: a newer frame of another member acts and is passed on (`flooded_acts`), a timer that is due acts. -/
theorem graftCommandsComplete : Obligations.GraftCommandsComplete := by
  intro s
  refine ⟨?helloFrame, ?links, ?join, ?announce, ?helloTimer, ?joinTimer, ?announceTimer, ?linksTimer, ?joinExpiry,
    ?routeExpiry, ?timeRequestTimer, ?crownLost⟩
  case helloFrame =>
    intro port frame b t hopenGraft hportState hgetD hgetD' hportState'
    have hsender : ¬ (b.getD 38 0 ≥ memberCount t || b.getD 38 0 = ownMember t) = true := by
      rw [decide_eq_false (Nat.not_le.2 hgetD), decide_eq_false hgetD']
      decide
    have hup : portState t port ≠ 2 := by simp [hportState]
    refine completes_ran ?_
    simp only [hopenGraft]
    refine (if_neg hsender).trans ?_
    simp only [hup, hportState', if_false, decide_false, Bool.false_and, Bool.false_eq_true]
  case links =>
    intro port frame b t m hopenGraft hgetD hownMember hnewer
    exact completes_ran (flooded_acts hopenGraft hgetD hownMember rfl hnewer)
  case join =>
    intro port frame b t u m hopenGraft hgetD hownMember hu hnewer hisCrown
    refine completes_ran ((flooded_acts hopenGraft hgetD hownMember hu.symm hnewer).trans ?_)
    exact congrArg (flood _ b) (if_neg (Bool.eq_false_iff.1 hisCrown))
  case announce =>
    intro port frame b t m hopenGraft hgetD hownMember hnewer hheard hisCrown
    have hsame : notedSender 4 m b t = t := by
      rcases hheard with h | h <;> simp [notedSender, h]
    refine completes_ran ((flooded_acts hopenGraft hgetD hownMember hsame hnewer).trans ?_)
    exact congrArg (flood _ b) (if_pos (by rw [hisCrown, Bool.or_true]))
  case helloTimer =>
    intro port hstacked hportState
    exact completes_ran (by simp [hstacked, hportState])
  case joinTimer =>
    intro hstacked
    exact completes_ran (by simp [hstacked])
  case announceTimer =>
    intro hisCrown
    exact completes_ran (by simp [hisCrown])
  case linksTimer =>
    exact completes_ran (by simp)
  case joinExpiry =>
    intro member hisCrown hmember
    exact completes_ran (by simp [hisCrown, hmember])
  case routeExpiry =>
    intro member
    exact completes_ran (by simp)
  case timeRequestTimer =>
    intro p hrouteTo hstacked hisCrown hportState hmissed
    have hdue : (!stacked s || isCrown s || portState s p != 3) = false := by simp [hstacked, hisCrown, hportState]
    refine completes_ran ?_
    simp only [hrouteTo, hdue, ge_iff_le, Nat.not_le.2 hmissed, Bool.false_eq_true, if_false]
  case crownLost =>
    intro hstacked hisCrown
    exact completes_ran (by simp [hstacked, hisCrown])

end Sys2Proof.Machine
end

section
/-! PROOFS. Stack rows take effect (24). -/

namespace Sys2Proof.Machine

/-- A request that is new, on a member that runs and is not fenced off, runs. -/
theorem startRequest_runs {s : State} {d : Deliv} {op amount : Nat} {run : State → State} (hnew : ledgerOf s d.id = none)
    (hawake : s.rd R.DORMANT_STATUS.STATE = 0) (hfence : fenced s d.id = false) (hstack : stackState s = 2) :
    startRequest d op amount run s = run s := by
  simp only [startRequest, hnew, hawake, hfence, hstack]
  rfl

/-- Settles O57: a delivered request that may run does (`startRequest_runs`), a mailbox request is served, a command is its guard's rule. -/
theorem stackCommandsComplete : Obligations.StackCommandsComplete := by
  intro s
  refine ⟨?expel, ?admitMember, ?leave, ?trunkStrokeRequest, ?regionCopy, ?fence, ?query_running, ?query_ended,
    ?answer_unknown, ?answer_found, ?usbPacketRequest, ?unitAck, ?relink, ?stackInfo, ?secretSet, ?memberInfo⟩
  case expel =>
    intro slot member hwrite hstacked hcrownTarget
    exact took_of_guardWrite hwrite (by simp [hstacked, hcrownTarget])
  case admitMember =>
    intro slot member hwrite hstacked hcrownTarget
    exact took_of_guardWrite hwrite (by simp [hstacked, hcrownTarget])
  case leave =>
    intro slot hwrite hstacked hstackState
    exact took_of_guardWrite hwrite (by simp [hstacked, hstackState])
  case trunkStrokeRequest =>
    intro d hinboxOf
    refine completes_ran ?_
    simp only [hinboxOf] <;> rfl
  case regionCopy =>
    intro d units hinboxOf hledgerOf hdormantState hfenced hstackState hunits
    refine ⟨fun slot t c hslot hsweep hc => completes_ran ?_, fun hnone => completes_ran ?_⟩
    · subst hc hunits
      simp only [hinboxOf, startRequest_runs hledgerOf hdormantState hfenced hstackState, hslot, hsweep, Bool.false_eq_true, if_false]
    · subst hunits
      simp only [hinboxOf, startRequest_runs hledgerOf hdormantState hfenced hstackState, hnone]
      rfl
  case fence =>
    intro d hinboxOf
    exact completes_ran (by simp [hinboxOf])
  case query_running =>
    intro d t hinboxOf ht hledgerOf hrunsHere
    subst ht
    refine completes_ran ?_
    simp only [hinboxOf, hledgerOf, hrunsHere, if_true]
  case query_ended =>
    intro d t y hinboxOf ht hledgerOf
    subst ht
    refine completes_ran ?_
    simp only [hinboxOf, hledgerOf]
  case answer_unknown =>
    intro d hinboxOf hrequests
    exact completes_ran (by simp [hinboxOf, hrequests])
  case answer_found =>
    intro d x t u v hinboxOf ht hfind hu
    subst ht hu
    refine ⟨fun hfound hv hlost => completes_ran ?_, fun hfound hv hlost => completes_ran ?_⟩
    · subst hv
      simp only [hinboxOf, hfind, hfound, hlost, if_true]
    · subst hv
      simp only [hinboxOf, hfind, hfound, hlost, Bool.false_eq_true, if_false]
  case usbPacketRequest =>
    intro d hinboxOf
    exact completes_ran (by simp [hinboxOf])
  case unitAck =>
    intro d hinboxOf
    refine completes_ran ?_
    simp only [hinboxOf] <;> rfl
  case relink =>
    intro member p mine hrouteTo hstackState hmine hmine'
    subst hmine
    refine completes_ran ((if_neg ?_).trans ?_)
    · simp [hrouteTo, hmine', hstackState]
    · simp only [hrouteTo]
  case stackInfo =>
    intro slot hmail
    exact ran_of_serveMail hmail rfl rfl
  case secretSet =>
    intro slot body hmail hbody hslot
    exact ran_of_serveMail hmail (decide_eq_true hbody) (stewardMail_of_zero hslot rfl)
  case memberInfo =>
    intro slot body m hmail hbody hleVal hm hheard
    subst hleVal
    exact ran_of_serveMail hmail (decide_eq_true hbody) (if_pos (by rw [decide_eq_true hm, hheard]; rfl))

end Sys2Proof.Machine
end

section
/-! PROOFS. What the model makes of SEEK (19), against the clause of O58. -/

namespace Sys2Proof.Machine

/-- The records of a stream whose one grove holds slot 0 and DRUM_0, with a sled profile of drum 0 numbered 1. -/
def drumGroveRecs : List Rec :=
  [⟨1, 0xFF, 0, [0, 0, 1, 0, 1, 8, 8, 3]⟩, ⟨8, 0, 0, [0, 1, 0, 0, 0, 0, 0, 0, 0, 0, 0, 0, 0, 0, 0, 0]⟩,
    ⟨0x0B, 0, 0, (List.replicate 32 1).set 0 0⟩]

/-- A configured part with every segment and domain of drum 0 ON, its sled READY at 0 with 1,000 units of travel, and 500 for
its target. -/
def seekingPart : State :=
  let configuredPart : State := { State.reset with stream := some ⟨0, 0, 0, 0, [], drumGroveRecs, []⟩ }
  let poweredPart : State := (List.range 144).foldl (fun t d => State.wr t (R.DOMAIN_STATE.D d) 2) configuredPart
  [(R.CANOPY_STATUS.STATE, 1), (R.CANOPY_SLOTS_LO.SLOTS, 0xFFFFFF00), (R.GROVE_SELF.ROOT_KIND 0, 1),
    (R.GROVE_STATUS.READY 0, 1), (R.FRONT_STATUS.VM_OK 0, 1),
    (R.SLED_STATUS.STATE 0, 2), (R.SLED_TRAVEL.UNITS 0, 1000), (R.SLED_CFG.PROFILE 0, 1), (R.SLED_TARGET.X 0, 500)].foldl
      (fun t e => State.wr t e.1 e.2) poweredPart

/-- Where the sled of drum 0 is on its way to. -/
def sledGoal : Res → Option Int
  | .next t => (sledOf t 0).move.map SledMove.target
  | _ => none

/-- The model moves the sled to the target in the units of its position. -/
theorem sledGoal_sledSeek : sledGoal (exec (.sledSeek 0 0) seekingPart) = some (500 * (sledDen : Int)) := by decide +kernel

theorem sledGoal_stated :
    sledGoal (.next (took 0 seekingPart (seekFrom 0 (sledOf seekingPart 0).pos 500 false (activity seekingPart)))) = some 500 := by
  decide +kernel

/-- Refutes O58: SEEK moves the sled to its target times `sledDen` (the units of the position), where the clause for
`sledSeek` states a move to the target itself. -/
theorem not_servoAndStrokeEffects : ¬ Obligations.ServoAndStrokeEffects := by
  intro h
  obtain ⟨-, -, -, -, hseek, -⟩ := h seekingPart
  have hexec := hseek 0 0 500 (by decide +kernel) (by decide +kernel) (by decide +kernel) (by decide +kernel) (by decide)
    (by decide +kernel) (by decide +kernel) (by decide +kernel)
  have hgoal := (sledGoal_sledSeek.symm.trans (congrArg sledGoal hexec)).trans sledGoal_stated
  exact absurd hgoal (by decide)

end Sys2Proof.Machine
end

section
/-! PROOFS. SCSI rows (21). -/

namespace Sys2Proof.Machine

/-- The unit after a command has come to it. -/
theorem lunOf_lunTook (s : State) (slot l n tag : Nat) (cdb : List Nat) :
    lunOf (lunTook slot l n tag cdb s) slot l = { lunOf s slot l with drum := n, far := none, cmds := [⟨tag, cdb⟩] } :=
  Tab.look_put_same _ _ _ _

theorem lunOf_putLun (s : State) (slot l : Nat) (u : Lun) : lunOf (putLun slot l u s) slot l = u := Tab.look_put_same _ _ _ _

/-- What a command begins with does not depend on its waiting at the unit. -/
theorem beginScsi_lunTook (s : State) (slot l n tag : Nat) (cdb : List Nat) :
    beginScsi (lunTook slot l n tag cdb s) slot n { lunOf s slot l with drum := n, far := none, cmds := [⟨tag, cdb⟩] } cdb =
      beginScsi s slot n (lunOf s slot l) cdb := rfl

/-- A unit without a command stays as it is. -/
theorem settleLun_of_empty {t : State} {slot l : Nat} (k : Nat) (h : (lunOf t slot l).cmds = []) : settleLun k slot l t = t := by
  cases k with
  | zero => rfl
  | succ k => simp only [settleLun, h]

/-- A unit whose command waits for its strokes stays as it is. -/
theorem settleLun_of_waits {t : State} {slot l : Nat} (k : Nat) (hbegun : (lunOf t slot l).begun = true)
    (hissue : (lunOf t slot l).toIssue = none) (hpending : 0 < (lunOf t slot l).pending) : settleLun k slot l t = t := by
  cases k with
  | zero => rfl
  | succ k =>
    obtain ⟨p, hp⟩ := Nat.exists_eq_succ_of_ne_zero (Nat.ne_of_gt hpending)
    cases hcmds : (lunOf t slot l).cmds with
    | nil => simp only [settleLun, hcmds]
    | cons c rest => simp [settleLun, hcmds, hbegun, hissue, hp]

/-- The answer takes the command off its unit. -/
theorem answerScsi_cmds {t : State} {slot l : Nat} {c : Scsi} (sense info : Nat) (data : List Nat) (h : (lunOf t slot l).cmds = [c]) :
    (lunOf (answerScsi slot l sense info data t) slot l).cmds = [] := by
  simp only [answerScsi, h]
  split
  · simp only [lunOf_putLun]
  · split <;> exact congrArg Lun.cmds (lunOf_putLun t slot l _)

/-- A command that has not begun begins. -/
theorem settleLun_begins {t : State} {slot l : Nat} {c : Scsi} {rest : List Scsi} (k : Nat) (hcmds : (lunOf t slot l).cmds = c :: rest)
    (hbegun : (lunOf t slot l).begun = false) : settleLun (k + 1) slot l t = settleLun k slot l (beginFirst slot l c t) := by
  simp only [settleLun, hcmds, hbegun, Bool.not_false, if_true]

section
variable {t : State} {slot l : Nat} {c : Scsi} (hfar : (lunOf t slot l).far = none)
  (hgen : (lunOf t slot l).gen = t.rd (R.STK_DISC.GEN (lunOf t slot l).drum))
include hfar hgen

/-- A command that begins with data is answered with it. -/
theorem beginFirst_good {data : List Nat} (hbegins : beginScsi t slot (lunOf t slot l).drum (lunOf t slot l) c.cdb = .good data) :
    beginFirst slot l c t = answerScsi slot l 0 0 data
      ((if byteAt c.cdb 0 = 0x1E then putLun slot l { lunOf t slot l with prevent := bit (byteAt c.cdb 4) 0 } t else t).drew
        (scsiDraws c.cdb)) := by
  simp only [beginFirst, lunView, hfar, hgen, bne_self_eq_false, Bool.false_and, Bool.false_eq_true, if_false, hbegins, viewDraws,
    Option.isSome_none, Nat.add_zero]

/-- A command that begins with a stroke issues it. -/
theorem beginFirst_stroke {op address count arg : Nat}
    (hbegins : beginScsi t slot (lunOf t slot l).drum (lunOf t slot l) c.cdb = .stroke op address count arg) :
    beginFirst slot l c t = issueLun slot l op address count arg (putLun slot l { lunOf t slot l with begun := true } t) := by
  simp only [beginFirst, lunView, hfar, hgen, bne_self_eq_false, Bool.false_and, Bool.false_eq_true, if_false, hbegins, viewDraws,
    Option.isSome_none]
  rfl

/-- A command that reads nothing is answered, one that reads has its strokes to issue. -/
theorem beginFirst_reads {lba count form : Nat}
    (hbegins : beginScsi t slot (lunOf t slot l).drum (lunOf t slot l) c.cdb = .reads lba count form) :
    beginFirst slot l c t = if count = 0 then answerScsi slot l 0 0 [] t
      else putLun slot l { lunOf t slot l with begun := true, toIssue := some (lba, count, form) } t := by
  simp only [beginFirst, lunView, hfar, hgen, bne_self_eq_false, Bool.false_and, Bool.false_eq_true, if_false, hbegins]

/-- A command that fails at once is answered with its sense, unless it is TEST UNIT READY. -/
theorem beginFirst_fail {sense : Nat} (hop : byteAt c.cdb 0 ≠ 0)
    (hbegins : beginScsi t slot (lunOf t slot l).drum (lunOf t slot l) c.cdb = .fail sense) :
    beginFirst slot l c t = answerScsi slot l sense 0 [] t := by
  simp only [beginFirst, lunView, hfar, hgen, bne_self_eq_false, Bool.false_and, Bool.false_eq_true, if_false, hbegins, hop,
    decide_false, viewDraws, Option.isSome_none]
  rfl

end

theorem lunOf_lunBegan (s : State) (slot l n tag : Nat) (cdb : List Nat) (reads : Option (Nat × Nat × Nat)) : lunOf (lunBegan slot l n tag cdb reads s) slot l =
    { lunOf s slot l with drum := n, far := none, cmds := [⟨tag, cdb⟩], begun := true, toIssue := reads } := by
  rw [lunBegan, lunOf_putLun, lunOf_lunTook]

theorem lunOf_admitStroke {t : State} {n : Nat} (x : Stroke) (halive : deadDrum t n = none) (slot l : Nat) :
    lunOf (admitStroke n x t) slot l = lunOf t slot l := by
  simp only [admitStroke, halive]
  rfl

/-- A stroke that a unit of this member may issue is waited for, in its drum's queue. -/
theorem lunOf_issueLun {t : State} {slot l op address count arg : Nat} (hfar : (lunOf t slot l).far = none)
    (hrights : strokeRights t slot (lunOf t slot l).drum op arg = true) (halive : deadDrum t (lunOf t slot l).drum = none) :
    lunOf (issueLun slot l op address count arg t) slot l =
      { lunOf t slot l with seq := ((lunOf t slot l).seq + 1) % 256, pending := (lunOf t slot l).pending + 1 } := by
  unfold issueLun
  dsimp only
  split
  next hm => rw [hfar] at hm; cases hm
  next =>
    rw [if_pos hrights]
    refine (lunOf_admitStroke _ ?_ slot l).trans (lunOf_putLun t slot l _)
    exact halive

/-- A unit that issued a stroke waits for it. -/
theorem settleLun_of_issued {t : State} {slot l op address count arg : Nat} (k : Nat) (hfar : (lunOf t slot l).far = none)
    (hrights : strokeRights t slot (lunOf t slot l).drum op arg = true) (halive : deadDrum t (lunOf t slot l).drum = none)
    (hbegun : (lunOf t slot l).begun = true) (hissue : (lunOf t slot l).toIssue = none) :
    settleLun k slot l (issueLun slot l op address count arg t) = issueLun slot l op address count arg t := by
  have hissued := lunOf_issueLun (address := address) (count := count) hfar hrights halive
  exact settleLun_of_waits k ((congrArg Lun.begun hissued).trans hbegun) ((congrArg Lun.toIssue hissued).trans hissue)
    (by rw [hissued]; exact Nat.succ_pos _)

section
variable (s : State) (slot l : Nat)

theorem strokeRights_putLun (u : Lun) (k n op arg : Nat) : strokeRights (putLun slot l u s) k n op arg = strokeRights s k n op arg := rfl
theorem deadDrum_putLun (u : Lun) (n : Nat) : deadDrum (putLun slot l u s) n = deadDrum s n := rfl

theorem strokeRights_lunBegan (m tag : Nat) (cdb : List Nat) (reads : Option (Nat × Nat × Nat)) (k n op arg : Nat) :
    strokeRights (lunBegan slot l m tag cdb reads s) k n op arg = strokeRights s k n op arg := by
  rw [lunBegan, strokeRights_putLun, lunTook, strokeRights_putLun]

theorem deadDrum_lunBegan (m tag : Nat) (cdb : List Nat) (reads : Option (Nat × Nat × Nat)) (n : Nat) :
    deadDrum (lunBegan slot l m tag cdb reads s) n = deadDrum s n := by
  rw [lunBegan, deadDrum_putLun, lunTook, deadDrum_putLun]

theorem lbaAddress_putLun (u : Lun) (n lba : Nat) : lbaAddress (putLun slot l u s) n lba = lbaAddress s n lba := rfl

theorem lbaAddress_lunBegan (m tag : Nat) (cdb : List Nat) (reads : Option (Nat × Nat × Nat)) (n lba : Nat) :
    lbaAddress (lunBegan slot l m tag cdb reads s) n lba = lbaAddress s n lba := by
  rw [lunBegan, lbaAddress_putLun, lunTook, lbaAddress_putLun]

end

/-- A unit that has strokes to issue, all of which one stroke takes, issues it. -/
theorem settleLun_issues {t : State} {slot l a count form : Nat} {c : Scsi} (k : Nat) (hcmds : (lunOf t slot l).cmds = [c])
    (hbegun : (lunOf t slot l).begun = true) (hissue : (lunOf t slot l).toIssue = some (a, count, form))
    (hpending : (lunOf t slot l).pending = 0) (hfar : (lunOf t slot l).far = none)
    (hcount : count ≤ min (lbaAddress t (lunOf t slot l).drum a).2 65535) :
    settleLun (k + 1) slot l t = settleLun k slot l (issueLun slot l 1 (lbaAddress t (lunOf t slot l).drum a).1 count form
      (putLun slot l { lunOf t slot l with toIssue := none } t)) := by
  simp only [settleLun, hcmds, hbegun, hissue, hpending, lunView, hfar, Nat.min_eq_left hcount, Nat.lt_irrefl, if_false, Bool.not_true,
    Bool.false_eq_true, ge_iff_le, Nat.reduceLeDiff]

@[simp] theorem rd_lunTook (s : State) (slot l n tag : Nat) (cdb : List Nat) (f : Fld) : (lunTook slot l n tag cdb s).rd f = s.rd f := rfl

section
variable {s : State} {slot l n : Nat} (hfree : lunFree s slot l n = true)
include hfree

theorem lunFree_parts : functionRuns s slot = true ∧ bulkBusy s slot = false ∧ (lunDrums s slot)[l]? = some (none, n) ∧
    (lunOf s slot l).cmds = [] ∧ (lunOf s slot l).begun = false ∧ (lunOf s slot l).pending = 0 ∧ (lunOf s slot l).toIssue = none ∧
    (lunOf s slot l).gen = s.rd (R.STK_DISC.GEN n) := by
  simp only [lunFree, Bool.and_eq_true, beq_iff_eq, Bool.not_eq_true', Option.isNone_iff_eq_none] at hfree
  obtain ⟨⟨⟨⟨⟨⟨⟨⟨hruns, hbusy⟩, hdrum⟩, hcmds⟩, hbegun⟩, -⟩, hpending⟩, hissue⟩, hgen⟩ := hfree
  exact ⟨hruns, hbusy, hdrum, hcmds, hbegun, hpending, hissue, hgen⟩

/-- A command that its row takes begins at once at a free unit. -/
theorem scsiArrives_begins {fits : Nat → Bool} {tag : Nat} {cdb : List Nat} (hfits : fits (byteAt cdb 0) = true) :
    scsiArrives fits slot l tag cdb s =
      releaseRequests (settleLun 599 slot l (beginFirst slot l ⟨tag, cdb⟩ (lunTook slot l n tag cdb s))) := by
  obtain ⟨hruns, hbusy, hdrum, hcmds, hbegun, -, -, -⟩ := lunFree_parts hfree
  rw [scsiArrives_queued hruns hbusy hdrum hfits (by rw [hcmds]; decide), hcmds, List.nil_append]
  have htook := lunOf_lunTook s slot l n tag cdb
  exact congrArg releaseRequests (settleLun_begins 599 (congrArg Lun.cmds htook) ((congrArg Lun.begun htook).trans hbegun))

/-- The unit that the command has come to, as what it begins with looks at it. -/
theorem lunTook_begins {tag : Nat} {cdb : List Nat} {b : Begin} (hbegins : beginScsi s slot n (lunOf s slot l) cdb = b) :
    (lunOf (lunTook slot l n tag cdb s) slot l).far = none ∧
    (lunOf (lunTook slot l n tag cdb s) slot l).gen =
      (lunTook slot l n tag cdb s).rd (R.STK_DISC.GEN (lunOf (lunTook slot l n tag cdb s) slot l).drum) ∧
    beginScsi (lunTook slot l n tag cdb s) slot (lunOf (lunTook slot l n tag cdb s) slot l).drum
      (lunOf (lunTook slot l n tag cdb s) slot l) cdb = b := by
  obtain ⟨-, -, -, -, -, -, -, hgen⟩ := lunFree_parts hfree
  rw [lunOf_lunTook]
  exact ⟨rfl, hgen, (beginScsi_lunTook s slot l n tag cdb).trans hbegins⟩

/-- A command that is answered as it begins. -/
theorem scsiArrives_answered {fits : Nat → Bool} {tag sense info : Nat} {cdb data : List Nat} {t : State}
    (hfits : fits (byteAt cdb 0) = true) (hcmds : (lunOf t slot l).cmds = [⟨tag, cdb⟩])
    (hfirst : beginFirst slot l ⟨tag, cdb⟩ (lunTook slot l n tag cdb s) = answerScsi slot l sense info data t) :
    scsiArrives fits slot l tag cdb s = releaseRequests (answerScsi slot l sense info data t) := by
  rw [scsiArrives_begins hfree hfits, hfirst, settleLun_of_empty 599 (answerScsi_cmds sense info data hcmds)]

/-- A command that issues one stroke as it begins, and waits for it. -/
theorem scsiArrives_stroke {fits : Nat → Bool} {tag op address count arg : Nat} {cdb : List Nat} (hfits : fits (byteAt cdb 0) = true)
    (hfirst : beginFirst slot l ⟨tag, cdb⟩ (lunTook slot l n tag cdb s) =
      issueLun slot l op address count arg (lunBegan slot l n tag cdb none s))
    (hrights : strokeRights s slot n op arg = true) (halive : deadDrum s n = none) :
    scsiArrives fits slot l tag cdb s =
      releaseRequests (issueLun slot l op address count arg (lunBegan slot l n tag cdb none s)) := by
  have hbegan := lunOf_lunBegan s slot l n tag cdb none
  have hdrum := congrArg Lun.drum hbegan
  rw [scsiArrives_begins hfree hfits, hfirst]
  refine congrArg releaseRequests (settleLun_of_issued 599 (congrArg Lun.far hbegan) ?_ ?_ (congrArg Lun.begun hbegan)
    (congrArg Lun.toIssue hbegan))
  · rw [hdrum, strokeRights_lunBegan, hrights]
  · rw [hdrum, deadDrum_lunBegan, halive]

/-- A command that reads what one stroke takes issues it, and waits for it. -/
theorem scsiArrives_reads {fits : Nat → Bool} {tag lba count form : Nat} {cdb : List Nat} (hfits : fits (byteAt cdb 0) = true)
    (hfirst : beginFirst slot l ⟨tag, cdb⟩ (lunTook slot l n tag cdb s) =
      putLun slot l { lunOf (lunTook slot l n tag cdb s) slot l with begun := true, toIssue := some (lba, count, form) }
        (lunTook slot l n tag cdb s))
    (hcount : count ≤ min (lbaAddress s n lba).2 65535) (hrights : strokeRights s slot n 1 form = true) (halive : deadDrum s n = none) :
    scsiArrives fits slot l tag cdb s = releaseRequests (issueLun slot l 1 (lbaAddress s n lba).1 count form
      (putLun slot l { lunOf (lunBegan slot l n tag cdb (some (lba, count, form)) s) slot l with toIssue := none }
        (lunBegan slot l n tag cdb (some (lba, count, form)) s))) := by
  obtain ⟨-, -, -, -, -, hpending, -, -⟩ := lunFree_parts hfree
  have hbegan := lunOf_lunBegan s slot l n tag cdb (some (lba, count, form))
  rw [scsiArrives_begins hfree hfits, hfirst]
  refine congrArg releaseRequests ?_
  refine (settleLun_issues (t := lunBegan slot l n tag cdb (some (lba, count, form)) s) 598 (congrArg Lun.cmds hbegan)
    (congrArg Lun.begun hbegan) (congrArg Lun.toIssue hbegan) ((congrArg Lun.pending hbegan).trans hpending) (congrArg Lun.far hbegan)
    (by rw [hbegan, lbaAddress_lunBegan]; exact hcount)).trans ?_
  have hready := (lunOf_putLun (lunBegan slot l n tag cdb (some (lba, count, form)) s) slot l
    { lunOf (lunBegan slot l n tag cdb (some (lba, count, form)) s) slot l with toIssue := none })
  have hdrum := congrArg Lun.drum hbegan
  have hdrum' := (congrArg Lun.drum hready).trans hdrum
  rw [hdrum, lbaAddress_lunBegan]
  refine settleLun_of_issued 598 ((congrArg Lun.far hready).trans (congrArg Lun.far hbegan)) ?_ ?_
    ((congrArg Lun.begun hready).trans (congrArg Lun.begun hbegan)) (congrArg Lun.toIssue hready)
  · rw [hdrum', strokeRights_putLun, strokeRights_lunBegan, hrights]
  · rw [hdrum', deadDrum_putLun, deadDrum_lunBegan, halive]

theorem lunBegan_none (tag : Nat) (cdb : List Nat) : lunBegan slot l n tag cdb none s =
    putLun slot l { lunOf (lunTook slot l n tag cdb s) slot l with begun := true } (lunTook slot l n tag cdb s) := by
  obtain ⟨-, -, -, -, -, -, hissue, -⟩ := lunFree_parts hfree
  simp only [lunBegan, lunOf_lunTook, ← hissue]

end

/-- GET CONFIGURATION answers its header first: 36 bytes follow it, with the current profile. -/
theorem beginScsi_getConfiguration {s : State} {slot n : Nat} {u : Lun} {b : List Nat} (hop : byteAt b 0 = 0x46) (hlen : cdbLen10 b = 8) :
    beginScsi s slot n u b = .good ([0, 0, 0, 0x24, 0, 0] ++ beBytes 2 (if s.rd (R.STK_DISC.KIND n) = 0 then 0
      else if 4 ≤ s.rd (R.STK_DISC.KIND n) then 0x10 else 8)) := by
  cases hkind : s.rd (R.STK_DISC.KIND n) with
  | zero =>
    simp [beginScsi, hop, hlen, hkind, beBytes_length, freeBytes]
    rfl
  | succ k =>
    by_cases hdvd : 4 ≤ k + 1
    · simp [beginScsi, hop, hlen, hkind, hdvd, beBytes_length, freeBytes]
      rfl
    · simp [beginScsi, hop, hlen, hkind, hdvd, beBytes_length, freeBytes]
      rfl

/-- GET EVENT STATUS NOTIFICATION answers its eight bytes. -/
theorem beginScsi_eventStatus {s : State} {slot n : Nat} {u : Lun} {b : List Nat} (hop : byteAt b 0 = 0x4A)
    (hpolled : bit (byteAt b 1) 0 = true) (hlen : 8 ≤ cdbLen10 b) :
    beginScsi s slot n u b = .good [0, 6, 4, 0x10, s.freeVal 0 % 16, if s.rd (R.STK_DISC.STATE n) = 0 then 1 else 2, 0, 0] := by
  simp only [beginScsi, hop, hpolled, if_true]
  rw [List.take_of_length_le (by exact hlen)]

/-- MODE SENSE answers its header and the head of page 0x2A. -/
theorem beginScsi_modeSense {s : State} {slot n : Nat} {u : Lun} {b : List Nat} (hop : byteAt b 0 = 0x5A) (hpage : byteAt b 2 % 64 = 0x2A)
    (hlen : cdbLen10 b = 10) : beginScsi s slot n u b = .good [0, 18, 0, 0, 0, 0, 0, 0, 0x2A, 10] := by
  simp only [beginScsi, hop, hpage, hlen]
  rfl

/-- Any other operation code begins with a failure. -/
theorem beginScsi_unsupported (s : State) (slot n : Nat) (u : Lun) {b : List Nat} (hop : scsiOps.contains (byteAt b 0) = false) :
    beginScsi s slot n u b = .fail (senseKcq 5 0x20 0) := by
  unfold beginScsi
  dsimp only
  split
  case h_19 => rfl
  all_goals simp_all [scsiOps]

/-- Settles O59: at a free unit a command begins at once (`scsiArrives_begins`) and is answered or waits for the stroke it issued; what each operation code begins with is read off `beginScsi`. -/
theorem scsiCommandsTakeEffect : Obligations.ScsiCommandsTakeEffect := by
  intro s
  refine ⟨?answered, ?stroke, ?reads, ?unsupported, ?begins⟩
  case answered =>
    intro c slot l tag cdb n data hscsiArrival hlunFree hbeginScsi
    have hcode : oneOp (byteAt cdb 0) (byteAt cdb 0) = true := by simp [oneOp]
    have htook := lunOf_lunTook s slot l n tag cdb
    obtain ⟨hfar, hgen, hb⟩ := lunTook_begins hlunFree (tag := tag) hbeginScsi
    have hfirst := beginFirst_good (c := ⟨tag, cdb⟩) hfar hgen hb
    refine ⟨fun hop => ?_, fun hop => ?_⟩
    · rw [if_neg hop] at hfirst
      have hcmds : (lunOf ((lunTook slot l n tag cdb s).drew (scsiDraws cdb)) slot l).cmds = [⟨tag, cdb⟩] := congrArg Lun.cmds htook
      exact (exec_of_scsiArrival hscsiArrival s).trans (completes_ran (scsiArrives_answered hlunFree hcode hcmds hfirst))
    · have hdraws : scsiDraws cdb = 0 := by simp [scsiDraws, hop]
      rw [if_pos hop, hdraws] at hfirst
      refine (exec_of_scsiArrival hscsiArrival s).trans (completes_ran (scsiArrives_answered hlunFree hcode ?_ hfirst))
      exact (congrArg Lun.cmds (lunOf_putLun _ slot l _)).trans (congrArg Lun.cmds htook)
  case stroke =>
    intro c slot l tag cdb n op address count arg hscsiArrival hlunFree hbeginScsi hstrokeRights hdeadDrum
    have hcode : oneOp (byteAt cdb 0) (byteAt cdb 0) = true := by simp [oneOp]
    obtain ⟨hfar, hgen, hb⟩ := lunTook_begins hlunFree (tag := tag) hbeginScsi
    have hfirst := beginFirst_stroke (c := ⟨tag, cdb⟩) hfar hgen hb
    rw [← lunBegan_none hlunFree] at hfirst
    exact (exec_of_scsiArrival hscsiArrival s).trans (completes_ran (scsiArrives_stroke hlunFree hcode hfirst hstrokeRights
      hdeadDrum))
  case reads =>
    intro c slot l tag cdb n lba count form hscsiArrival hlunFree hbeginScsi
    have hcode : oneOp (byteAt cdb 0) (byteAt cdb 0) = true := by simp [oneOp]
    obtain ⟨hfar, hgen, hb⟩ := lunTook_begins hlunFree (tag := tag) hbeginScsi
    have hfirst := beginFirst_reads (c := ⟨tag, cdb⟩) hfar hgen hb
    refine ⟨fun hnone => ?_, fun hsome hcount hrights halive => ?_⟩
    · rw [if_pos hnone] at hfirst
      exact (exec_of_scsiArrival hscsiArrival s).trans (completes_ran (scsiArrives_answered hlunFree hcode (congrArg Lun.cmds (lunOf_lunTook s slot l n tag cdb)) hfirst))
    · rw [if_neg (Nat.ne_of_gt hsome)] at hfirst
      exact (exec_of_scsiArrival hscsiArrival s).trans (completes_ran (scsiArrives_reads hlunFree hcode hfirst hcount hrights halive))
  case unsupported =>
    intro slot lun tag n cdb hlunFree hscsiOps
    have hop : byteAt cdb 0 ≠ 0 := by
      intro h
      rw [h] at hscsiOps
      exact absurd hscsiOps (by decide)
    obtain ⟨hfar, hgen, hb⟩ := lunTook_begins hlunFree (tag := tag) (beginScsi_unsupported s slot n (lunOf s slot lun) hscsiOps)
    have hfirst := beginFirst_fail (c := ⟨tag, cdb⟩) hfar hgen hop hb
    exact completes_ran (scsiArrives_answered hlunFree (by rw [hscsiOps]; rfl) (congrArg Lun.cmds (lunOf_lunTook s slot lun n
      tag cdb)) hfirst)
  case begins =>
    intro slot n u b
    refine ⟨?testUnitReady, ?requestSense, ?inquiry, ?spin, ?tray, ?prevent, ?capacity, ?read10, ?read12, ?readCd, ?seek,
      ?subChannel, ?toc, ?audio, ?configuration, ?event, ?modeSense, ?discStructure⟩
    case testUnitReady => exact fun hop hdisc => by simp [beginScsi, hop, hdisc]
    case requestSense => exact fun hop => by simp [beginScsi, hop]
    case inquiry => exact fun hop hvpd hpage => by simp [beginScsi, hop, hvpd, hpage]
    case spin => exact fun hop hload => by simp [beginScsi, hop, hload]
    case tray => exact fun hop hload => by simp [beginScsi, hop, hload]
    case prevent => exact fun hop => by simp [beginScsi, hop]
    case capacity => exact fun hop hdisc => by simp [beginScsi, hop, hdisc]
    case read10 => exact fun hop => by simp [beginScsi, hop]
    case read12 => exact fun hop => by simp [beginScsi, hop]
    case readCd => exact fun hop hsub hmain => by simp [beginScsi, hop, hsub, hmain]
    case seek => exact fun hop => by simp [beginScsi, hop]
    case subChannel => exact fun hop hform => by simp [beginScsi, hop, hform] <;> rfl
    case toc => exact fun hop hform => by simp [beginScsi, hop, hform]
    case audio =>
      intro o rest haudio
      exact ⟨fun hop hlen => by simp [beginScsi, hop, haudio, hlen],
        fun hop hlen => by simp [beginScsi, hop, haudio, Nat.not_le.mpr hlen]⟩
    case configuration => exact beginScsi_getConfiguration
    case event => exact beginScsi_eventStatus
    case modeSense => exact beginScsi_modeSense
    case discStructure => exact fun hop hform hdisc hdvd hlen => by simp [beginScsi, hop, hform, hdisc, hdvd, hlen]

end Sys2Proof.Machine
end

section
/-! PROOFS. Trunk and stack rows that nothing turns away, and buffer words (04, 23, 24). -/

namespace Sys2Proof.Machine

/-- Any two wrong bits of a beat are found, in whichever order they are named. -/
theorem beatDecode_beatOf_two {d j k : Nat} (hd : d < 2 ^ 64) (hk : k < 72) (hj : j < 72) (hjk : j ≠ k) :
    beatDecode (beatOf d ^^^ 2 ^ k ^^^ 2 ^ j) = .uncorrectable := by
  rcases Nat.lt_or_gt_of_ne hjk with h | h
  · rw [Nat.xor_assoc, Nat.xor_comm (2 ^ k), ← Nat.xor_assoc]
    exact beatDecode_beatOf_flip_two hd h hk
  · exact beatDecode_beatOf_flip_two hd h hj

/-- A word reads as the beat of its data decodes with the wrong bits that are noted of it. -/
theorem eccRead_eq {d : Nat} (hd : d < 2 ^ 64) (e : Nat) : eccRead e d = beatDecode (beatOf d ^^^ e) := by
  by_cases he : e = 0
  · rw [eccRead, if_pos he, he, Nat.xor_zero, beatDecode_beatOf hd]
  · rw [eccRead, if_neg he]

/-- Settles O60: a frame that nothing turns away acts as its row says, and a buffer word decodes as the code of its beat (`beatDecode_beatOf_flip`). -/
theorem trunkStackAndBufferEffects : Obligations.TrunkStackAndBufferEffects := by
  intro s
  refine ⟨?codewordReceived, ?timeFrame, ?retrain, ?resetLane, ?helloFrame, ?join, ?announce, ?trunkStrokeRequest, ?bufferWord⟩
  case codewordReceived =>
    intro port worst symbols word t hportState hportState' hclockGen hcodewordDecode ht hbits hcwNext
    subst ht
    have htakes : (decide (portState s port = 0) || decide (portState s port = 6)) = false := by simp [hportState, hportState']
    refine completes_ran ?_
    simp only [htakes, hclockGen, hcodewordDecode, hbits, hcwNext, bne_self_eq_false, Bool.false_eq_true, if_false]
  case timeFrame =>
    intro port frame f arrival t hopenFrame hgetD hisCrown hrouteTo
    have hserves : (isCrown (takeHeader port f t) || routeTo (takeHeader port f t) (crownOf (takeHeader port f t)) != some
      port.val) = false := by
      rw [hisCrown, hrouteTo]
      simp
    refine completes_ran ?_
    simp only [hopenFrame, hgetD, hserves, Bool.false_eq_true, if_false]
  case retrain =>
    intro slot port hwrite hportState
    have htrains : (portState s port = 2 || portState s port = 3 || portState s port = 4) = true := by
      rcases hportState with h | h | h <;> simp [h]
    exact took_of_guardWrite hwrite (if_pos htrains)
  case resetLane =>
    intro slot lane hwrite hlaneState
    have hfailed : laneState (activity s) lane = 5 := hlaneState
    exact took_of_guardWrite hwrite (if_pos hfailed)
  case helloFrame =>
    intro port frame b t u m hopenGraft hportState hgetD hmemberCount hownMember hu hportState' hdrop hstacked hlook
    subst hgetD hu
    have hsender : ¬ (b.getD 38 0 ≥ memberCount t || b.getD 38 0 = ownMember t) = true := by
      rw [decide_eq_false (Nat.not_le.2 hmemberCount), decide_eq_false hownMember]
      decide
    refine completes_ran ?_
    simp only [hopenGraft]
    refine (if_neg hsender).trans ?_
    simp only [hportState, if_true, hportState', hdrop, hstacked, decide_true, Bool.and_self]
  case join =>
    intro port frame b t u v m hopenGraft hgetD hownMember hu hnewer hv hisCrown
    subst hv
    refine completes_ran ((flooded_acts hopenGraft hgetD hownMember hu.symm hnewer).trans ?_)
    exact congrArg (flood _ b) (if_pos hisCrown)
  case announce =>
    intro port frame b t u v m st hopenGraft hgetD hownMember hnewer hheard hu hm hisCrown hcrownStart hv hst
    subst hst hv
    have hsame : notedSender 4 m b t = t := by
      rcases hheard with h | h <;> simp [notedSender, h]
    refine completes_ran ((flooded_acts hopenGraft hgetD hownMember hsame hnewer).trans ?_)
    have hserves : ¬ (m != crownOf u || isCrown u) = true := by simp [hm, hisCrown]
    refine congrArg (flood _ b) ?_
    rw [← hu]
    refine (if_neg hserves).trans ?_
    simp only [hcrownStart, bne_self_eq_false, Bool.false_eq_true, if_false]
  case trunkStrokeRequest =>
    intro d slot n c bytes hinboxOf hledgerOf hdormantState hfenced hstackState hslotOf hgetD hdrop hhasDrum hlistedOnDrum hringRoom hstkCount
    subst hgetD hdrop hstkCount
    have hlisted : (!hasDrum s (d.head.getD 1 0 % 2) || !listedOnDrum s slot (d.head.getD 1 0 % 2)) = false := by
      rw [hhasDrum, hlistedOnDrum]
      rfl
    refine completes_ran ?_
    simp only [hinboxOf]
    refine (startRequest_runs hledgerOf hdormantState hfenced hstackState).trans ?_
    simp only [hslotOf, hlisted, hringRoom, Bool.not_true, Bool.false_eq_true, if_false]
  case bufferWord =>
    intro w d k j hd hk hj hj'
    refine ⟨fun hclean => ?_, fun hone => ?_, fun htwo => ?_⟩
    · simp only [readBuf, eccRead_eq hd, hclean, Nat.xor_zero, beatDecode_beatOf hd]
    · simp only [readBuf, eccRead_eq hd, hone, beatDecode_beatOf_flip hd hk, Nat.xor_self]
    · simp only [readBuf, eccRead_eq hd, htwo, ← Nat.xor_assoc, beatDecode_beatOf_two hd hk hj hj']

end Sys2Proof.Machine
end

section
/-! PROOFS. What no consequence of a tick moves: the queue, the variant and the metronome. -/

namespace Sys2Proof.Machine

/-- What no consequence of a tick moves: the commands waiting, the variant and the metronome. -/
def standing (s : State) : List Instr × Variant × Nat := (s.pending, s.variant, s.metro)

@[simp] theorem standing_ite (p : Prop) [Decidable p] (s t : State) : standing (if p then s else t) = if p then standing s else standing t :=
  apply_ite standing p s t

@[simp] theorem standing_foldl {α : Type} (g : State → α → State) (l : List α) (s : State) (h : ∀ t x, standing (g t x) = standing t) :
    standing (l.foldl g s) = standing s := by
  induction l generalizing s with
  | nil => rfl
  | cons x r ih => rw [List.foldl_cons, ih, h]

/-! Time: the idle timer and the timeline. -/

@[simp] theorem standing_idleTimerTick (s : State) : standing (idleTimerTick s) = standing s := by
  unfold idleTimerTick
  split <;> rfl

@[simp] theorem standing_timelineTick (s : State) : standing (timelineTick s) = standing s := rfl

/-! Registers, rails and tempos. -/

@[simp] theorem standing_wr (s : State) (f : Fld) (v : Nat) : standing (s.wr f v) = standing s := rfl

@[simp] theorem standing_wrB (s : State) (f : Fld) (b : Bool) : standing (s.wrB f b) = standing s := rfl

@[simp] theorem standing_setTarget (r : Nat) (s : State) : standing (setTarget r s) = standing s := rfl

@[simp] theorem standing_putRail (r : Nat) (x : Rail) (s : State) : standing (putRail r x s) = standing s := by
  unfold putRail
  split
  · rfl
  · split <;> rfl

@[simp] theorem standing_bump (s : State) (f : Fld) (n : Nat) : standing (s.bump f n) = standing s := rfl

@[simp] theorem standing_startRelock (g : Nat) (s : State) : standing (startRelock g s) = standing s := rfl

@[simp] theorem standing_tempoNext (r fuel : Nat) (s : State) : standing (tempoNext r fuel s) = standing s := by
  induction fuel generalizing s with
  | zero => rfl
  | succ fuel ih => simp [tempoNext, ih]

@[simp] theorem standing_retryEnd (c : Nat) (s : State) : standing (retryEnd c s) = standing s := rfl

@[simp] theorem standing_tempoUpdate (r : Nat) (s : State) : standing (tempoUpdate r s) = standing s := by simp [tempoUpdate]

@[simp] theorem standing_syncVoices (n : Nat) (s : State) : standing (syncVoices n s) = standing s := by simp [syncVoices]

/-! The trunk's frames, interrupts and the sticky bits. -/

@[simp] theorem standing_putDrum (n : Nat) (x : Drum) (s : State) : standing (putDrum n x s) = standing s := rfl

@[simp] theorem standing_putRbp (p : Nat) (x : Rbp) (s : State) : standing (putRbp p x s) = standing s := by
  unfold putRbp
  split <;> rfl

@[simp] theorem standing_setWins (slot k : Nat) (s : State) : standing (setWins slot k s) = standing s := by
  unfold setWins
  split <;> simp

@[simp] theorem standing_on (s : State) (f : Fld) : standing (s.on f) = standing s := rfl

@[simp] theorem standing_emit (s : State) (o : Out) : standing (s.emit o) = standing s := rfl

@[simp] theorem standing_setFc (p fc : Nat) (s : State) : standing (setFc p fc s) = standing s := rfl

@[simp] theorem standing_emitFrame (p seq : Nat) (f : List Nat) (s : State) : standing (emitFrame p seq f s) = standing s := by simp [emitFrame]

@[simp] theorem standing_putTrunk (p : Nat) (x : TrunkPort) (s : State) : standing (putTrunk p x s) = standing s := rfl

@[simp] theorem standing_sendKeepalive (p flags : Nat) (s : State) : standing (sendKeepalive p flags s) = standing s := by simp [sendKeepalive]

@[simp] theorem standing_freeBuffer (p : Nat) (isControl : Bool) (s : State) : standing (freeBuffer p isControl s) = standing s :=
  by simp [freeBuffer]

@[simp] theorem standing_sendNew (p : Nat) (q : Queued) (s : State) : standing (sendNew p q s) = standing s := by
  unfold sendNew
  split <;> simp

@[simp] theorem standing_fill (p fuel : Nat) (s : State) : standing (fill p fuel s) = standing s := by
  induction fuel generalizing s with
  | zero => rfl
  | succ fuel ih =>
    unfold fill
    dsimp only
    split
    · rfl
    · split
      · simp [ih]
      · split
        · split <;> simp [ih]
        · rfl

@[simp] theorem standing_fillPort (p : Nat) (s : State) : standing (fillPort p s) = standing s := by simp [fillPort]

@[simp] theorem standing_enqueue (p : Nat) (origin : Option Nat) (f : List Nat) (s : State) : standing (enqueue p origin f s) = standing s := rfl

@[simp] theorem standing_sendTo (m : Nat) (fs : List (List Nat)) (s : State) : standing (sendTo m fs s) = standing s := by
  unfold sendTo
  split
  · rw [standing_fillPort]
    exact standing_foldl _ fs s fun t f => standing_enqueue _ none f t
  · rfl

@[simp] theorem standing_sendPacket (m slot : Nat) (h : Header) (data : List Nat) (s : State) :
    standing (sendPacket m slot h data s) = standing s :=
  by simp [sendPacket]

theorem standing_irqNews (x : Tab Bool) (s : State) : standing { s with irqNews := x } = standing s := rfl

@[simp] theorem standing_deliverIrq (old new : State) (slot : Nat) (bitSet : Bool) : standing (deliverIrq old new slot bitSet) = standing new := by
  unfold deliverIrq
  dsimp only
  split <;> split <;> simp [standing_irqNews]

@[simp] theorem standing_setIrq (slot k : Nat) (s : State) : standing (setIrq slot k s) = standing s := by simp [setIrq]

@[simp] theorem standing_setIrqAll (k : Nat) (slots : List Nat) (s : State) : standing (setIrqAll k slots s) = standing s := by simp [setIrqAll]

@[simp] theorem standing_summaryIrq (old : Nat) (s : State) : standing (summaryIrq old s) = standing s := by simp [summaryIrq]

@[simp] theorem standing_setSticky (c : Nat) (s : State) : standing (setSticky c s) = standing s := by simp [setSticky]

@[simp] theorem standing_countEvent (c : Nat) (s : State) : standing (countEvent c s) = standing s := by
  unfold countEvent
  split <;> rfl

@[simp] theorem standing_occurBit (c : Nat) (s : State) : standing (occurBit c s) = standing s := by simp [occurBit]

/-! The keeping store. -/

@[simp] theorem standing_mendKeep (q : Nat) (s : State) : standing (mendKeep q s) = standing s := rfl

@[simp] theorem standing_putKeep (s : State) (i v : Nat) : standing (putKeep s i v) = standing s := by
  unfold putKeep
  dsimp only
  split <;> rfl

@[simp] theorem standing_compactPruned (s : State) : standing (compactPruned s) = standing s := rfl

@[simp] theorem standing_appendPruned (s : State) (source code : Nat) : standing (appendPruned s source code) = standing s := by
  unfold appendPruned
  dsimp only
  split
  · exact standing_putKeep ..
  · split <;> simp

@[simp] theorem standing_senseWord (s : State) (q : Nat) : standing (senseWord s q) = standing s := by
  unfold senseWord
  split <;> simp

@[simp] theorem standing_senseKeep (lo n : Nat) (s : State) : standing (senseKeep lo n s) = standing s := by simp [senseKeep]

@[simp] theorem standing_senseList (s : State) : standing (senseList s) = standing s := by simp [senseList]

@[simp] theorem standing_putKeepByte (s : State) (a v : Nat) : standing (putKeepByte s a v) = standing s := by simp [putKeepByte]

@[simp] theorem standing_recIncrement (s : State) (c : Nat) : standing (recIncrement s c) = standing s := by
  unfold recIncrement
  dsimp only
  split
  · rfl
  · rw [standing_putKeepByte, standing_putKeepByte]

@[simp] theorem standing_keepOrDefer (d : Deferred) (s : State) : standing (keepOrDefer d s) = standing s := by
  unfold keepOrDefer
  split
  · split <;> simp
  · rfl

/-! Tiles, hub ports and domains. -/

@[simp] theorem standing_off (s : State) (f : Fld) : standing (s.off f) = standing s := rfl

@[simp] theorem standing_setSpeed (t speed : Nat) (s : State) : standing (setSpeed t speed s) = standing s := by
  unfold setSpeed
  split <;> simp

@[simp] theorem standing_activity (s : State) : standing (activity s) = standing s := rfl

@[simp] theorem standing_setLink (t link : Nat) (s : State) : standing (setLink t link s) = standing s := by
  unfold setLink
  dsimp only
  split <;> simp

@[simp] theorem standing_putPort (slot k : Nat) (x : HubPort) (s : State) : standing (putPort slot k x s) = standing s := rfl

@[simp] theorem standing_changePort (t : Nat) (f : HubPort → HubPort) (s : State) : standing (changePort t f s) = standing s := by
  unfold changePort
  split <;> simp

@[simp] theorem standing_portDisconnect (t : Nat) (s : State) : standing (portDisconnect t s) = standing s := by
  unfold portDisconnect
  dsimp only
  split <;> simp

@[simp] theorem standing_rst (s : State) (f : Fld) : standing (s.rst f) = standing s := rfl

@[simp] theorem standing_rstAll (s : State) (fs : List Fld) : standing (s.rstAll fs) = standing s :=
  standing_foldl _ fs s standing_rst

@[simp] theorem standing_setGuards (t mv ma : Nat) (s : State) : standing (setGuards t mv ma s) = standing s := rfl

@[simp] theorem standing_putTc (t : Nat) (x : TypeC) (s : State) : standing (putTc t x s) = standing s := rfl

@[simp] theorem standing_endContract (t : Nat) (s : State) : standing (endContract t s) = standing s := rfl

@[simp] theorem standing_toDischarge (t : Nat) (s : State) : standing (toDischarge t s) = standing s := by simp [toDischarge]

@[simp] theorem standing_pathFollows (t : Nat) (enable : Bool) (s : State) : standing (pathFollows t enable s) = standing s := by
  unfold pathFollows
  split <;> simp

@[simp] theorem standing_showFunction (slot speed : Nat) (s : State) : standing (showFunction slot speed s) = standing s := by simp [showFunction]

@[simp] theorem standing_putUsbDev (slot : Nat) (function : Bool) (x : UsbDev) (s : State) : standing (putUsbDev slot function x s) = standing s :=
  rfl

@[simp] theorem standing_functionDefault (slot : Nat) (s : State) : standing (functionDefault slot s) = standing s := rfl

@[simp] theorem standing_syncPath (t : Nat) (s : State) : standing (syncPath t s) = standing s := by simp [syncPath]

theorem standing_usb (depth : Tab Nat) (alt : Tab Bool) (devs : Tab UsbDev) (ports : Tab HubPort) (s : State) :
    standing { s with hubDepth := depth, hubAlt := alt, usbDevs := devs, ports := ports } = standing s := rfl

@[simp] theorem standing_hubDefault (slot : Nat) (s : State) : standing (hubDefault slot s) = standing s := by
  unfold hubDefault
  dsimp only
  rw [standing_foldl, standing_showFunction, standing_usb, standing_functionDefault, standing_putUsbDev, standing_off, standing_wr]
  intro t x
  split <;> simp

@[simp] theorem standing_upGone (slot t link : Nat) (s : State) : standing (upGone slot t link s) = standing s := by simp [upGone]

@[simp] theorem standing_putStep (d step : Nat) (s : State) : standing (putStep d step s) = standing s := rfl

@[simp] theorem standing_putDom (d st step : Nat) (s : State) : standing (putDom d st step s) = standing s := rfl

@[simp] theorem standing_beginRise (d : Nat) (s : State) : standing (beginRise d s) = standing s := rfl

@[simp] theorem standing_sampleRequest (d : Nat) (s : State) : standing (sampleRequest d s) = standing s := by simp [sampleRequest]

@[simp] theorem standing_putReq (d v : Nat) (s : State) : standing (putReq d v s) = standing s := by
  unfold putReq
  rw [standing_sampleRequest]
  rfl

@[simp] theorem standing_ownRequest (on : Bool) (d : Nat) (s : State) : standing (ownRequest on d s) = standing s := by simp [ownRequest]

@[simp] theorem standing_syncGen (s : State) (g : Nat) : standing (syncGen s g) = standing s := by simp [syncGen]

@[simp] theorem standing_syncGens (s : State) : standing (syncGens s) = standing s := by simp [syncGens]

@[simp] theorem standing_unitRequestAll (on : Bool) (ds : List Nat) (s : State) : standing (unitRequestAll on ds s) = standing s :=
  by simp [unitRequestAll]

/-! Taproot's pipes, records and devices. -/

@[simp] theorem standing_putBus (slot : Nat) (x : TapBus) (s : State) : standing (putBus slot x s) = standing s := rfl

@[simp] theorem standing_changeBus (slot : Nat) (f : TapBus → TapBus) (s : State) : standing (changeBus slot f s) = standing s := by simp [changeBus]

@[simp] theorem standing_putPipe (slot k : Nat) (x : Option Pipe) (s : State) : standing (putPipe slot k x s) = standing s := rfl

@[simp] theorem standing_postTally (s : State) (port slot : Nat) (t : Tally) : standing (postTally s port slot t) = standing s := rfl

@[simp] theorem standing_endTransfer (slot k : Nat) (cancelled short : Bool) (source : Nat) (s : State) :
    standing (endTransfer slot k cancelled short source s) = standing s := by
  unfold endTransfer
  split
  · split <;> simp
  · rfl

@[simp] theorem standing_endTransfers (slot k : Nat) (cancelled : Bool) (source n : Nat) (s : State) :
    standing (endTransfers slot k cancelled source n s) = standing s := by
  induction n generalizing s with
  | zero => rfl
  | succ n ih => simp [endTransfers, ih]

@[simp] theorem standing_closePipe (slot k : Nat) (cancelled : Bool) (source : Nat) (s : State) :
    standing (closePipe slot k cancelled source s) = standing s := by
  unfold closePipe
  split <;> simp

theorem standing_tapDrops (n : Nat) (s : State) : standing { s with tapDrops := n } = standing s := rfl

@[simp] theorem standing_enterRecord (slot q ty dev flags len : Nat) (body : List Nat) (s : State) :
    standing (enterRecord slot q ty dev flags len body s) = standing s := by
  simp [enterRecord, standing_tapDrops]

@[simp] theorem standing_pipeEvent (slot k ty : Nat) (d : List Nat) (s : State) : standing (pipeEvent slot k ty d s) = standing s := by
  unfold pipeEvent
  split <;> simp

@[simp] theorem standing_gonePipes (slot h source : Nat) (s : State) : standing (gonePipes slot h source s) = standing s := by
  unfold gonePipes
  refine standing_foldl _ _ _ fun t k => ?_
  split
  · simp [standing_foldl]
  · rfl

@[simp] theorem standing_postDone (slot : Nat) (r e : List Nat) (flags : Nat) (s : State) : standing (postDone slot r e flags s) = standing s :=
  by simp [postDone]

@[simp] theorem standing_goneBlocks (slot : Nat) (d : TapDev) (s : State) : standing (goneBlocks slot d s) = standing s := by
  unfold goneBlocks
  dsimp only
  rw [standing_foldl]
  · simp
  · intro t e
    split <;> simp

@[simp] theorem standing_postKeys (slot h flags : Nat) (l : List (Nat × Nat × Nat)) (s : State) :
    standing (postKeys slot h flags l s) = standing s := by simp [postKeys]

@[simp] theorem standing_releaseInputs (slot : Nat) (d : TapDev) (s : State) : standing (releaseInputs slot d s) = standing s :=
  by simp [releaseInputs]

@[simp] theorem standing_endDevice (slot source : Nat) (s : State) (d : TapDev) : standing (endDevice slot source s d) = standing s :=
  by simp [endDevice]

@[simp] theorem standing_endRoot (slot root source : Nat) (s : State) : standing (endRoot slot root source s) = standing s := by
  unfold endRoot
  rw [standing_changeBus]
  exact standing_foldl _ _ _ fun t d => standing_endDevice slot source t d

/-! Channels that drop out: tiles, units and lanes. -/

@[simp] theorem standing_tileOut (t src : Nat) (s : State) : standing (tileOut t src s) = standing s := by
  unfold tileOut
  dsimp only
  rw [standing_unitRequestAll]
  split
  · rw [standing_ite, standing_endRoot, ite_self]
    split <;> simp
  · split <;> simp

@[simp] theorem standing_unitRequest (on : Bool) (d : Nat) (s : State) : standing (unitRequest on d s) = standing s := by simp [unitRequest]

@[simp] theorem standing_syncWidth (s : State) (p : Nat) : standing (syncWidth s p) = standing s := rfl

@[simp] theorem standing_syncLane (s : State) (l : Nat) : standing (syncLane s l) = standing s := rfl

@[simp] theorem standing_syncTrunk (s : State) : standing (syncTrunk s) = standing s :=
  (standing_foldl _ _ _ standing_syncWidth).trans (standing_foldl _ _ _ standing_syncLane)

/-! Strokes and the SCSI units. -/

@[simp] theorem standing_putStrokes (n : Nat) (x : List Stroke) (s : State) : standing (putStrokes n x s) = standing s := rfl

@[simp] theorem standing_syncFree (n : Nat) (s : State) : standing (syncFree n s) = standing s := rfl

@[simp] theorem standing_dropBlock (n : Nat) (s : State) : standing (dropBlock n s) = standing s := rfl

@[simp] theorem standing_unitRetryEnd (n : Nat) (s : State) : standing (unitRetryEnd n s) = standing s := rfl

@[simp] theorem standing_syncHeld (n slot : Nat) (s : State) : standing (syncHeld n slot s) = standing s := rfl

@[simp] theorem standing_syncNow (n : Nat) (s : State) : standing (syncNow n s) = standing s := by
  unfold syncNow
  split <;> simp

@[simp] theorem standing_noteLunEnd (slot l address : Nat) (t : Tally) (s : State) : standing (noteLunEnd slot l address t s) = standing s := rfl

@[simp] theorem standing_noteLun (x : Stroke) (t : Tally) (s : State) : standing (noteLun x t s) = standing s := by
  unfold noteLun
  split <;> simp

@[simp] theorem standing_putStack (x : Stack) (s : State) : standing (putStack x s) = standing s := rfl

@[simp] theorem standing_countId (s : State) : standing (countId s) = standing s := rfl

@[simp] theorem standing_sendBrief (m kind grove : Nat) (rest : List Nat) (s : State) : standing (sendBrief m kind grove rest s) = standing s :=
  by simp [sendBrief]

@[simp] theorem standing_sendAnswer (id : Nat) (t : Option Tally) (s : State) : standing (sendAnswer id t s) = standing s := by simp [sendAnswer]

@[simp] theorem standing_returnTally (id : Nat) (t : Tally) (s : State) : standing (returnTally id t s) = standing s := by simp [returnTally]

@[simp] theorem standing_noteRequest (n : Nat) (x : Stroke) (t : Tally) (s : State) : standing (noteRequest n x t s) = standing s := by
  unfold noteRequest
  split <;> simp

@[simp] theorem standing_finishStroke (n : Nat) (x : Stroke) (refused cancelled : Bool) (source : Nat) (s : State) :
    standing (finishStroke n x refused cancelled source s) = standing s := by simp [finishStroke]

@[simp] theorem standing_dropStroke (n slot : Nat) (refused cancelled : Bool) (source : Nat) (s : State) :
    standing (dropStroke n slot refused cancelled source s) = standing s := by
  unfold dropStroke
  split <;> simp

@[simp] theorem standing_drew (s : State) (n : Nat) : standing (s.drew n) = standing s := rfl

@[simp] theorem standing_lunView (s : State) (u : Lun) : standing (lunView s u) = standing s := by
  unfold lunView
  split <;> rfl

@[simp] theorem standing_putLun (slot l : Nat) (u : Lun) (s : State) : standing (putLun slot l u s) = standing s := rfl

@[simp] theorem standing_answerScsi (slot l sense info : Nat) (data : List Nat) (s : State) :
    standing (answerScsi slot l sense info data s) = standing s := by
  unfold answerScsi
  dsimp only
  split <;> simp

@[simp] theorem standing_admitStroke (n : Nat) (x : Stroke) (s : State) : standing (admitStroke n x s) = standing s := by
  unfold admitStroke
  split <;> simp

theorem standing_requests (x : List Request) (s : State) : standing { s with requests := x } = standing s := rfl

@[simp] theorem standing_issueLun (slot l op address count arg : Nat) (s : State) : standing (issueLun slot l op address count arg s) = standing s := by
  unfold issueLun
  dsimp only
  split <;> simp [standing_requests]

@[simp] theorem standing_beginFirst (slot l : Nat) (c : Scsi) (s : State) : standing (beginFirst slot l c s) = standing s := by
  unfold beginFirst
  dsimp only
  split
  · simp
  · split <;> simp

@[simp] theorem standing_settleLun (fuel slot l : Nat) (s : State) : standing (settleLun fuel slot l s) = standing s := by
  induction fuel generalizing s with
  | zero => rfl
  | succ fuel ih =>
    unfold settleLun
    dsimp only
    split
    · rfl
    · split
      · simp [ih]
      · split
        · simp [ih]
        · split <;> simp [ih]
        · rfl

@[simp] theorem standing_endStroke (n slot : Nat) (refused cancelled : Bool) (source : Nat) (s : State) :
    standing (endStroke n slot refused cancelled source s) = standing s := by
  unfold endStroke
  dsimp only
  split <;> simp

@[simp] theorem standing_endThrough (n p fuel : Nat) (s : State) : standing (endThrough n p fuel s) = standing s := by
  induction fuel generalizing s with
  | zero => rfl
  | succ fuel ih =>
    unfold endThrough
    split <;> simp [ih]

/-! Routes, grafting and the loss of a link. -/

@[simp] theorem standing_loseRequests (p : Nat) (s : State) : standing (loseRequests p s) = standing s := by
  unfold loseRequests
  rw [standing_foldl _ _ _ (by simp)]
  rfl

@[simp] theorem standing_setRoute (s : State) (m : Nat) : standing (setRoute s m) = standing s := by
  unfold setRoute
  split <;> simp

@[simp] theorem standing_setRoutes (s : State) : standing (setRoutes s) = standing s := by simp [setRoutes]

@[simp] theorem standing_setPort (p st : Nat) (s : State) : standing (setPort p st s) = standing s := by simp [setPort]

@[simp] theorem standing_emitGraft (p : Nat) (body : List Nat) (s : State) : standing (emitGraft p body s) = standing s := by simp [emitGraft]

@[simp] theorem standing_flood (but : Option Nat) (body : List Nat) (s : State) : standing (flood but body s) = standing s := by simp [flood]

@[simp] theorem standing_sendLinks (s : State) : standing (sendLinks s) = standing s := by simp [sendLinks]

@[simp] theorem standing_linkLossState (p : Nat) (s : State) : standing (linkLossState p s) = standing s := by simp [linkLossState]

@[simp] theorem standing_laneLost (p : Nat) (s : State) : standing (laneLost p s) = standing s := by
  unfold laneLost
  split <;> simp

@[simp] theorem standing_widthChanges (p was : Nat) (s : State) : standing (widthChanges p was s) = standing s := by simp [widthChanges]

@[simp] theorem standing_putLane (l : Nat) (x : Lane) (s : State) : standing (putLane l x s) = standing s := rfl

@[simp] theorem standing_laneOut (l src : Nat) (s : State) : standing (laneOut l src s) = standing s := by
  unfold laneOut
  split <;> simp

/-! Drums: tray, sled, front end, spindle and voices. -/

@[simp] theorem standing_putTray (n : Nat) (x : Tray) (s : State) : standing (putTray n x s) = standing s := rfl

@[simp] theorem standing_putSpin (n : Nat) (x : Spin) (s : State) : standing (putSpin n x s) = standing s := rfl

@[simp] theorem standing_cutTray (n : Nat) (s : State) : standing (cutTray n s) = standing s := by simp [cutTray]

@[simp] theorem standing_dropSledRetry (n : Nat) (s : State) : standing (dropSledRetry n s) = standing s := rfl

@[simp] theorem standing_putSled (n : Nat) (x : Sled) (s : State) : standing (putSled n x s) = standing s := rfl

@[simp] theorem standing_cutSled (n : Nat) (s : State) : standing (cutSled n s) = standing s := by
  unfold cutSled
  dsimp only
  rw [standing_wr, standing_rstAll, standing_dropSledRetry, standing_putSled]
  split <;> simp

@[simp] theorem standing_putFront (n : Nat) (f : Front) (s : State) : standing (putFront n f s) = standing s := rfl

@[simp] theorem standing_react (n kind why : Nat) (s : State) : standing (react n kind why s) = standing s := by simp [react]

@[simp] theorem standing_laserDark (n : Nat) (s : State) : standing (laserDark n s) = standing s := by simp [laserDark]

@[simp] theorem standing_laserOff (n : Nat) (s : State) : standing (laserOff n s) = standing s := by simp [laserOff]

@[simp] theorem standing_setDisc (n st : Nat) (s : State) : standing (setDisc n st s) = standing s := by
  unfold setDisc
  dsimp only
  split
  · exact standing_wr ..
  · rw [standing_putDrum, standing_rstAll, standing_wr]

@[simp] theorem standing_dropPruned (n : Nat) (s : State) : standing (dropPruned n s) = standing s := by simp [dropPruned]

@[simp] theorem standing_endAllStrokes (n source fuel : Nat) (s : State) : standing (endAllStrokes n source fuel s) = standing s := by
  induction fuel generalizing s with
  | zero => rfl
  | succ fuel ih =>
    unfold endAllStrokes
    split <;> simp [ih]

@[simp] theorem standing_pruneStrokes (n source : Nat) (s : State) : standing (pruneStrokes n source s) = standing s := by simp [pruneStrokes]

@[simp] theorem standing_setSpin (n milli : Nat) (s : State) : standing (setSpin n milli s) = standing s := rfl

@[simp] theorem standing_showTarget (n : Nat) (s : State) : standing (showTarget n s) = standing s := rfl

@[simp] theorem standing_enterSpin (n st : Nat) (s0 : State) : standing (enterSpin n st s0) = standing s0 := by simp [enterSpin]

@[simp] theorem standing_pruneSpin (n : Nat) (s : State) : standing (pruneSpin n s) = standing s := by
  unfold pruneSpin
  split <;> simp

@[simp] theorem standing_drumOut (n src : Nat) (s : State) : standing (drumOut n src s) = standing s := by simp [drumOut]

@[simp] theorem standing_voiceOut (n v src : Nat) (s : State) : standing (voiceOut n v src s) = standing s := by
  unfold voiceOut
  dsimp only
  rw [standing_ite, standing_on, standing_enterSpin, ite_self, standing_ite, standing_wr, standing_putDrum, ite_self]

/-! Serial ports and the Retro Bus Ports. -/

@[simp] theorem standing_putUart (u : Nat) (x : Uart) (s : State) : standing (putUart u x s) = standing s := rfl

@[simp] theorem standing_uartOut (u src : Nat) (s : State) : standing (uartOut u src s) = standing s := by simp [uartOut]

theorem standing_busCycle (p : Nat) (write : Bool) (acc : Option Nat × State) (c : Nat × List Nat) :
    standing (busCycle p write acc c).2 = standing acc.2 := by
  simp [busCycle]

@[simp] theorem standing_busCycles (p : Nat) (write : Bool) (addr : Nat) (bs : List Nat) (acc : Option Nat × State) :
    standing (busCycles p write addr bs acc).2 = standing acc.2 := by
  unfold busCycles
  generalize cyclesOf (width16 acc.2 p) addr bs = l
  induction l generalizing acc with
  | nil => rfl
  | cons c r ih => rw [List.foldl_cons, ih, standing_busCycle]

@[simp] theorem standing_breakBurst (p : Nat) (s : State) : standing (breakBurst p s) = standing s := by
  unfold breakBurst
  dsimp only
  split
  · rfl
  · split
    · exact standing_drew ..
    · rw [standing_wr, standing_busCycles, standing_drew]

@[simp] theorem standing_rbpOut (p src : Nat) (s : State) : standing (rbpOut p src s) = standing s := by simp [rbpOut]

/-! A fault's occurrence, and the check of a voice command. -/

@[simp] theorem standing_takeOut (code src : Nat) (s : State) : standing (takeOut code src s) = standing s := by
  unfold takeOut
  split <;> simp

@[simp] theorem standing_pruneChannel (src : Nat) (s : State) (code : Nat) : standing (pruneChannel src s code) = standing s := by simp [pruneChannel]

@[simp] theorem standing_pruneAll (src : Nat) (codes : List Nat) (s : State) : standing (pruneAll src codes s) = standing s := by simp [pruneAll]

@[simp] theorem standing_occurOnly (c : Nat) (s : State) : standing (occurOnly c s) = standing s := by simp [occurOnly]

@[simp] theorem standing_raiseDrops (s : State) : standing (raiseDrops s) = standing s := by
  unfold raiseDrops
  rw [standing_foldl _ _ _ (by simp), standing_tapDrops]

@[simp] theorem standing_occur (c : Nat) (s : State) : standing (occur c s) = standing s := by simp [occur]

@[simp] theorem standing_refuseVoice (n code : Nat) (s : State) : standing (refuseVoice n code s) = standing s := by simp [refuseVoice]

@[simp] theorem standing_acceptVoice (n : Nat) (c : VoiceCmd) (s : State) : standing (acceptVoice n c s) = standing s := by simp [acceptVoice]

@[simp] theorem standing_judgeVoice (n : Nat) (c : VoiceCmd) (s : State) : standing (judgeVoice n c s) = standing s := by simp [judgeVoice]

@[simp] theorem standing_endCheck (n : Nat) (s : State) : standing (endCheck n s) = standing s := by
  unfold endCheck
  dsimp only
  split <;> simp

@[simp] theorem standing_putPos (n : Nat) (pos : Int) (s : State) : standing (putPos n pos s) = standing s := rfl

@[simp] theorem standing_sledMicros (n k : Nat) (s : State) : standing (sledMicros n k s) = standing s := by simp [sledMicros]

@[simp] theorem standing_sledRun (n k : Nat) (s : State) : standing (sledRun n k s) = standing s := by simp [sledRun]

@[simp] theorem standing_tickDrum (n : Nat) (s : State) : standing (tickDrum n s) = standing s := by simp [tickDrum]

end Sys2Proof.Machine
end

section
/-! PROOFS. The tick, the queue and runs (00, 06, 95). -/

namespace Sys2Proof.Machine

theorem standing_metroTick (s : State) : standing (metroTick s) = (s.pending, s.variant, (s.metro + 1) % 2 ^ 48) := rfl

theorem standing_idleTick (s : State) : standing (idleTick s) =
    (s.pending, s.variant, if s.pwrgd then (s.metro + 1) % 2 ^ 48 else s.metro) := by
  unfold idleTick
  cases hpower : s.pwrgd
  · rfl
  · simp [standing_metroTick]

/-- A tick moves the metronome alone of what stands. -/
theorem standing_tick (s : State) : standing (tick s) =
    (s.pending, s.variant, if s.pwrgd then (s.metro + 1) % 2 ^ 48 else s.metro) := by
  simp [tick, standing_idleTick]

theorem tick_pending (s : State) : (tick s).pending = s.pending := congrArg Prod.fst (standing_tick s)

theorem tick_variant (s : State) : (tick s).variant = s.variant := congrArg (fun x => x.2.1) (standing_tick s)

theorem tick_metro (s : State) : (tick s).metro = if s.pwrgd then (s.metro + 1) % 2 ^ 48 else s.metro :=
  congrArg (fun x => x.2.2) (standing_tick s)

/-- Without power, or in reset, a tick is the metronome's at most. -/
theorem tick_stopped {s : State} (h : s.pwrgd = false ∨ inReset s = true) : tick s = if s.pwrgd then metroTick s else s := by
  unfold tick idleTick
  cases hpower : s.pwrgd
  · simp
  · have hreset : inReset s = true := by simpa [hpower] using h
    simp [hreset]

theorem tick_regs_of_stopped {s : State} (h : s.pwrgd = false ∨ inReset s = true) : (tick s).regs = s.regs := by
  rw [tick_stopped h]
  split <;> rfl

theorem run_succ_of_step (k : Nat) {s t : State} (h : step s = .next t) :
    Host.Core.run Sys2Proof.core (k + 1) s = Host.Core.run Sys2Proof.core k t := by
  have hcore : Sys2Proof.core.step s = .next t := h
  simp only [Host.Core.run, hcore]

/-- Settles O4, by induction on the number of steps: each takes the front of the queue, and a tick none. -/
theorem runsServeTheQueue : Obligations.RunsServeTheQueue := by
  intro k
  induction k with
  | zero => exact fun s => ⟨s, rfl, rfl, rfl⟩
  | succ k ih =>
    intro s
    cases hqueue : s.pending with
    | nil =>
      obtain ⟨t, ht, hpending, hvariant⟩ := ih (tick s)
      refine ⟨t, (run_succ_of_step k (step_of_pending_nil hqueue)).trans ht, ?_, hvariant.trans (tick_variant s)⟩
      rw [hpending, tick_pending, hqueue, List.drop_nil, List.drop_nil]
    | cons c rest =>
      obtain ⟨u, hstep, hrest, hsame⟩ := completed_exec { s with pending := rest } c
      obtain ⟨t, ht, hpending, hvariant⟩ := ih u
      refine ⟨t, (run_succ_of_step k ((step_of_pending_cons hqueue).trans hstep)).trans ht, ?_, hvariant.trans hsame⟩
      rw [hpending, hrest, List.drop_succ_cons]

/-- The outputs, the memories, and for each drum whether a voice command is being checked or its voices are to be shown again. -/
def stored (s : State) : List Out × Tab Nat × Tab Nat × Tab Nat × Tab Nat × Tab Nat × (Nat → Option VoiceCmd × Bool) :=
  (s.outs, s.sdram, s.flash, s.keeping, s.stage, s.porch, fun n => ((drumSt s n).checking, (drumSt s n).resync))

theorem drumSt_putDrum_same (n : Nat) (x : Drum) (s : State) : drumSt (putDrum n x s) n = x := Tab.look_put_same _ _ _ _

theorem drumSt_putDrum_other {n m : Nat} (x : Drum) (s : State) (h : m ≠ n) : drumSt (putDrum n x s) m = drumSt s m :=
  Tab.look_put_other _ _ _ _ _ h

@[simp] theorem stored_wr (s : State) (f : Fld) (v : Nat) : stored (s.wr f v) = stored s := rfl

@[simp] theorem stored_putSled (n : Nat) (x : Sled) (s : State) : stored (putSled n x s) = stored s := by
  have hdrum : (fun m => ((drumSt (putSled n x s) m).checking, (drumSt (putSled n x s) m).resync)) =
      fun m => ((drumSt s m).checking, (drumSt s m).resync) := by
    funext m
    by_cases hm : m = n
    · rw [hm, putSled, drumSt_putDrum_same]
    · rw [putSled, drumSt_putDrum_other _ _ hm]
  unfold stored
  rw [hdrum]
  rfl

@[simp] theorem stored_putPos (n : Nat) (pos : Int) (s : State) : stored (putPos n pos s) = stored s := by
  rw [putPos, stored_wr, stored_putSled]

theorem stored_sledMicros (n k : Nat) (s : State) : stored (sledMicros n k s) = stored s := by
  unfold sledMicros
  dsimp only
  split
  · rfl
  · split
    · rw [State.bump, stored_wr, stored_wr, stored_putPos, stored_putSled]
    · rw [stored_wr, stored_putPos, stored_putSled]

theorem stored_sledRun (n k : Nat) (s : State) : stored (sledRun n k s) = stored s :=
  (stored_sledMicros ..).trans (stored_putSled ..)

/-- No voice command of drum n is being checked, and its voices are shown as they are. -/
def Quiet (n : Nat) (s : State) : Prop := (drumSt s n).checking = none ∧ (drumSt s n).resync = false

theorem quiet_of_stored_eq {n : Nat} {s t : State} (h : stored t = stored s) (hquiet : Quiet n s) : Quiet n t := by
  have hdrum : ((drumSt t n).checking, (drumSt t n).resync) = ((drumSt s n).checking, (drumSt s n).resync) :=
    congrArg (fun x => x.2.2.2.2.2.2 n) h
  exact ⟨(congrArg Prod.fst hdrum).trans hquiet.1, (congrArg Prod.snd hdrum).trans hquiet.2⟩

theorem endCheck_of_quiet {n : Nat} {s : State} (h : Quiet n s) : endCheck n s = s := by
  simp [endCheck, h.1, h.2]

theorem stored_tickDrum {n : Nat} {s : State} (h : Quiet n s) : stored (tickDrum n s) = stored s := by
  unfold tickDrum
  rw [endCheck_of_quiet h]
  dsimp only
  split
  · rfl
  · exact stored_sledRun ..

theorem stored_idleTick (s : State) : stored (idleTick s) = stored s := by
  unfold idleTick idleTimerTick
  split
  · rfl
  · split
    · rfl
    · split <;> rfl

theorem stored_tick {s : State} (h : ∀ n : Fin 2, Quiet n s) : stored (tick s) = stored s := by
  have hidle := stored_idleTick s
  have hfirst := (stored_tickDrum (quiet_of_stored_eq hidle (h 0))).trans hidle
  unfold tick
  dsimp only
  split
  · exact hidle
  · exact (stored_tickDrum (quiet_of_stored_eq hfirst (h 1))).trans hfirst

/-- Settles O2, from what a tick moves of what stands and of what is stored. -/
theorem emptyQueueTicks : Obligations.EmptyQueueTicks := by
  intro s hqueue
  refine ⟨tick s, step_of_pending_nil hqueue, (tick_pending s).trans hqueue, tick_metro s, tick_variant s, tick_regs_of_stopped, fun hquiet => ?_⟩
  have hstored := stored_tick hquiet
  simp only [stored, Prod.mk.injEq] at hstored
  obtain ⟨houts, hsdram, hflash, hkeeping, hstage, hporch, -⟩ := hstored
  exact ⟨houts, hsdram, hflash, hkeeping, hstage, hporch⟩

end Sys2Proof.Machine
end
